-- ==== Sys2Proof/Word.lean ====
section
/-!
DEFINITION. Bytes and words: the types of what the spec treats as bits.
-/
namespace Sys2Proof

/-- One byte of a packet, a memory or a payload. -/
abbrev Byte := BitVec 8

/-- A 32-bit register word (spec 21: every register of a window is a 32-bit word). -/
abbrev Word := BitVec 32

/-- A 256-bit key of the Vault (spec 16). -/
abbrev Key := BitVec 256

/-- A 128-bit authentication tag or nonce (spec 02, R30). -/
abbrev Tag128 := BitVec 128

end Sys2Proof
end

