-- ==== Sys2Proof/Machine/Memory.lean ====
section
/-!
DEFINITION. Memories as sparse lists of cells: control SRAM and the DRAM channels. Addresses strictly rising; a byte
that is not listed reads 0, so no listed byte is 0 (log entry 3: what unwritten memory reads as).
-/
namespace Sys2Proof.Machine

/-- Memory cells by address, addresses strictly rising, no zero byte listed. -/
abbrev Memory := List Host.Cell

/-- The byte at an address. -/
def Memory.read : Memory → Nat → Byte
  | [], _ => 0
  | (a, b) :: m, x => if x = a then b else if x < a then 0 else Memory.read m x

/-- Store a byte. Storing what an unlisted address reads as removes the entry. -/
def Memory.write : Memory → Nat → Byte → Memory
  | [], x, v => if v = 0 then [] else [(x, v)]
  | (a, b) :: m, x, v =>
    if x = a then (if v = 0 then m else (x, v) :: m)
    else if x < a then (if v = 0 then (a, b) :: m else (x, v) :: (a, b) :: m)
    else (a, b) :: Memory.write m x v

/-- The canonical form: addresses strictly rising and no zero byte listed. -/
def Memory.wf : Memory → Bool
  | [] => true
  | (a, b) :: m => decide (b ≠ 0) && (m.all fun c => decide (a < c.1)) && Memory.wf m

/-- The `n` bytes from an address. -/
def Memory.readN (m : Memory) (a n : Nat) : List Byte := (List.range n).map fun i => m.read (a + i)

/-- Store consecutive bytes from an address. -/
def Memory.writeN : Memory → Nat → List Byte → Memory
  | m, _, [] => m
  | m, a, b :: bs => Memory.writeN (m.write a b) (a + 1) bs

/-- Forget the cells of `[lo, hi)`. -/
def Memory.dropRange (m : Memory) (lo hi : Nat) : Memory :=
  m.filter fun c => decide (c.1 < lo) || decide (hi ≤ c.1)

end Sys2Proof.Machine
end

