-- ==== Sys2Proof/Machine/RegFile.lean ====
section
/-!
DEFINITION. The register file: the fields of the register tables, held sparsely.
A field is named by one number, `address * 32 + lsb`, so two fields of one register are two
entries and the field types of Table 0.3 act field by field (R6, R588). A field that the file
does not list holds the reset value of its table row.
-/
namespace Sys2Proof.Machine

/-- A field of a register: where it lies, how wide it is, and the reset value its table gives. -/
structure FieldRef where
  key : Nat
  width : Nat
  reset : Nat
  deriving DecidableEq, Repr

/-- Field values by key, keys strictly rising. -/
abbrev RegFile := List (Nat × Nat)

/-- The value listed for a key. -/
def RegFile.find : RegFile → Nat → Option Nat
  | [], _ => none
  | (k, v) :: r, x => if x = k then some v else if x < k then none else RegFile.find r x

/-- Put a value under a key, keeping the keys in rising order. -/
def RegFile.ins : RegFile → Nat → Nat → RegFile
  | [], x, w => [(x, w)]
  | (k, v) :: r, x, w =>
    if x = k then (x, w) :: r
    else if x < k then (x, w) :: (k, v) :: r
    else (k, v) :: RegFile.ins r x w

/-- The keys of a register file are strictly rising. -/
def RegFile.wf : RegFile → Bool
  | [] => true
  | (k, _) :: r => (r.all fun p => decide (k < p.1)) && RegFile.wf r

/-- Forget every field whose address lies in `[lo, hi)`: those registers are back at reset (R590). -/
def RegFile.dropRange (r : RegFile) (lo hi : Nat) : RegFile :=
  r.filter fun p => decide (p.1 / 32 < lo) || decide (hi ≤ p.1 / 32)

/-- The value of a field. -/
def RegFile.get (r : RegFile) (f : FieldRef) : Nat := (r.find f.key).getD f.reset

/-- Give a field a value, cut to the field's width. -/
def RegFile.put (r : RegFile) (f : FieldRef) (v : Nat) : RegFile := r.ins f.key (v % 2 ^ f.width)

end Sys2Proof.Machine
end

