-- ==== Sys2Proof/Machine/Parts.lean ====
section
/-!
DEFINITION. The state of the media, network and time units, chapter by chapter, and the snapshot of it that one card gives
its partner (R446).
-/
namespace Sys2Proof.Machine

/-! ### Chapter 11: the multiviewer -/

/-- A buffer that a consumer holds in a DRAM channel set: kind 1 Landing, 2 layer window, 3 graphic, 4 encoder, 5 decoder;
its owner, set, offset in the set and size in bytes. -/
structure Buffer where
  kind : Nat
  id : Nat
  set : Nat
  off : Nat
  size : Nat
  deriving DecidableEq, Repr

/-- Settings of a video layer (Table 11.5): the source slot, its declared scan, sampling and rate, the crop, the window,
the coefficient sets, the hold limit, the alpha, the fill colour, and the declared width and height (R307), 0 where nothing is declared. -/
structure VidSet where
  en : Bool
  decim : Bool
  source : Nat
  interlaced : Bool
  s444 : Bool
  z : Nat
  x : Nat
  y : Nat
  w : Nat
  h : Nat
  hold : Nat
  hset : Nat
  vset : Nat
  cx : Nat
  cy : Nat
  cw : Nat
  ch : Nat
  rateN : Nat
  rateD : Nat
  alpha : Nat
  fill : Nat
  wide : Nat
  high : Nat
  deriving DecidableEq, Repr

/-- Settings of a graphic layer. -/
structure GfxSet where
  en : Bool
  premul : Bool
  z : Nat
  x : Nat
  y : Nat
  w : Nat
  h : Nat
  handle : Nat
  deriving DecidableEq, Repr

/-- Settings of a meter bar: thresholds in 1/4 dB; colours low, warn, alarm, back, peak. -/
structure MetSet where
  en : Bool
  horizontal : Bool
  x : Nat
  y : Nat
  w : Nat
  h : Nat
  source : Nat
  fall : Nat
  hold : Nat
  floor : Nat
  warn : Int
  alarm : Int
  colours : List Nat
  deriving DecidableEq, Repr

/-- The layers and bars of a head that were ever set, by index. -/
structure HeadSet where
  vid : List (Nat × VidSet)
  gfx : List (Nat × GfxSet)
  met : List (Nat × MetSet)
  deriving DecidableEq, Repr

/-- A head configuration or a commit that waits for its head Meridian: the frame, the new settings and what completes. -/
structure HeadChange where
  frame : Nat
  id : Nat
  /-- MVW_HEAD_CONFIG: enable, format, generator, channel set, background. -/
  config : Option (Bool × Nat × Nat × Nat × Nat)
  /-- MVW_COMMIT: the captured shadows. -/
  commit : Option HeadSet
  /-- Engines held once it applies. -/
  engines : List Nat
  /-- The format and generator whose head Meridian of that frame it waits for, and the time that the Meridian is not to lie before. -/
  fmt : Nat
  gen : Nat
  time : Nat
  deriving DecidableEq, Repr

/-- A meter bar as it moves: its level and the levels of the last hold time with their instants (R320). -/
structure MetRun where
  index : Nat
  level : Int
  held : List (Nat × Int)
  deriving DecidableEq, Repr

/-- A frame that a head emits: its number and Meridian, its next row, the format of the head, and the generator rate n / d that times
its rows (R304). -/
structure OutFrame where
  frame : Nat
  m0 : Nat
  row : Nat
  fmt : Nat
  n : Nat
  d : Nat
  deriving DecidableEq, Repr

/-- A head beside its registers: the channel set, its settings, what waits, the frame in composition with its head Meridian,
the fetched tiles of each layer (video l as l, graphic g as 64 + g), the band in composition with its frame and rows, the
next band, the rows in the output store by frame and row, the frames being emitted, the engines held, and the number of the next
cell. -/
structure Head where
  h : Nat
  set : Nat
  shadow : HeadSet
  cur : HeadSet
  waiting : List HeadChange
  frame : Option Nat
  mh : Nat
  canopy : List (Nat × List Nat)
  band : Option (Nat × Nat × List (Nat × List Byte))
  nextBand : Nat
  store : List (Nat × Nat × List Byte)
  emit : List OutFrame
  engines : List Nat
  seq : Nat
  /-- A SEQ_RESYNC cell goes before the first row of a frame whose Meridian lies at or after this Chronograph time (R302). -/
  resync : Option Nat
  meters : List MetRun
  /-- Frames whose bands had not all started when the next head Meridian came, oldest first: frame, head Meridian, next band (R304). -/
  late : List (Nat × Nat × Nat)
  deriving DecidableEq, Repr

/-- A source frame in a window buffer: its number, the Chronograph time of its SOF, the rows written, whether it is
complete or abandoned, and whether it has ever been selected (R312-R314). -/
structure WinFrame where
  num : Nat
  buf : Nat
  sofAt : Nat
  rows : Nat
  complete : Bool
  abandoned : Bool
  chosen : Bool
  /-- When its last cell has been read through the follow port, once it is complete (R21). -/
  doneAt : Nat
  deriving DecidableEq, Repr

/-- A video layer as it runs: the source frame that arrives with the time of its SOF, whether the writer has taken it up,
its lines as prepared samples and the cells of the line in progress; the frames of the two buffers, the frame being
written, the selected frame and the one selected before it; head Meridians in a row with LATE; hidden; and the frame number
that a revealed layer must exceed (R312-R317). -/
structure LayerRun where
  id : Nat
  frames : List WinFrame
  arrived : Nat
  sofAt : Nat
  taken : Bool
  bad : Bool
  parts : List (Nat × Nat × List Byte)
  lines : List (Nat × List Nat)
  writing : Option Nat
  sel : Option Nat
  prev : Option Nat
  lateRun : Nat
  hidden : Bool
  idle : Bool
  reveal : Option Nat
  /-- Members of the source whose SOF cell of the arriving frame has come. -/
  sofs : List Nat
  deriving DecidableEq, Repr

/-- A graphic object: its size, the kind of each 64 × 64 tile (0 mixed, 1 OPAQUE, 2 CLEAR), and whether it may only be shown
premultiplied; not `ready` while its load runs (R319, R329). -/
structure Graphic where
  handle : Nat
  w : Nat
  h : Nat
  tiles : List Nat
  premulOnly : Bool
  ready : Bool
  deriving DecidableEq, Repr

/-- A load in progress: kind, target, size of a graphic, source address, pitch, and its number. -/
structure GfxLoad where
  kind : Nat
  target : Nat
  w : Nat
  h : Nat
  source : Nat
  pitch : Nat
  id : Nat
  deriving DecidableEq, Repr

/-- The multiviewer beside its registers. `coefs` holds the loaded coefficient sets: head, horizontal, set. -/
structure MvwState where
  heads : List Head
  layers : List LayerRun
  graphics : List Graphic
  lastGraphic : Nat
  loads : List GfxLoad
  coefs : List ((Nat × Bool × Nat) × List Int)
  deriving DecidableEq, Repr

/-! ### Chapter 13: network time -/

/-- An Announce that has not timed out (R372): its data set as the BMCA compares it, best value lowest (priority 1, class,
accuracy, variance, priority 2, grandmaster, steps removed, sender, receiving port); the sender's port identity, addresses and
port of receipt; and what it announces. `expires` is the true time of its receipt timeout. -/
structure Announce where
  vec : List Nat
  source : Nat
  port : Nat
  ip : Nat
  mac : Nat
  gm : Nat
  utcOffset : Nat
  clockClass : Nat
  expires : Nat
  deriving DecidableEq, Repr

/-- A PTP domain as configured and measured (R372, R373). -/
structure PtpDomain where
  enabled : Bool
  number : Nat
  ports : List Nat
  vlan : Nat
  addrA : Nat
  addrB : Nat
  ipv6 : Bool
  p2p : Bool
  hybrid : Bool
  announces : List Announce
  /-- The port identity of the selected master, if any. -/
  master : Option Nat
  /-- Sync interval exponent, and the true time of the last Sync accepted. -/
  syncLog : Int
  lastSync : Option Nat
  /-- A two-step Sync that waits for its Follow_Up: sequence, t2, correction. -/
  waiting : Option (Nat × Int × Int)
  /-- t2 − t1 − correction of the last Sync. -/
  diff : Option Int
  /-- The last 16 θ samples, newest first, with the true time of each. -/
  thetas : List (Int × Nat)
  /-- The last 16 path delay measurements, newest first. -/
  delays : List Int
  /-- The delay request in flight: sequence and t3 (t1 of a Pdelay_Req). -/
  delayReq : Option (Nat × Int)
  /-- A two-step Pdelay_Resp that waits for its follow-up: sequence, t4, and t2 less what its correctionField adds. -/
  pdelayResp : Option (Nat × Int × Int)
  delaySeq : Nat
  /-- logMinDelayReqInterval as the master last gave it, and the true time of the last request sent. -/
  delayLog : Option Int
  delayAt : Option Nat
  /-- Samples delivered in the current second. -/
  sampled : Bool
  lost : Bool
  deriving DecidableEq, Repr

/-- A link of a relay port in P2P mode: its last 16 link delays, newest first, the request in flight and a response that waits
for its follow-up. -/
structure RelayLink where
  port : Nat
  delays : List Int
  seq : Nat
  req : Option (Nat × Int)
  resp : Option (Nat × Int × Int)
  deriving DecidableEq, Repr

/-- A TP_OUT program in force (R382). -/
structure PulseProg where
  periodic : Bool
  start : Nat
  num : Nat
  den : Nat
  width : Nat
  activeLow : Bool
  /-- Index of the next edge of the series; whether a once pulse has fired. -/
  next : Nat
  fired : Bool
  deriving DecidableEq, Repr

/-- A TP_OUT output: its program, those that wait to take over with the Chronograph time at which each may, earliest first, the end of
the pulse in progress, the last edge, and whether the output is active low as last set. -/
structure PulseOut where
  prog : Option PulseProg
  waiting : List (Nat × PulseProg)
  endsAt : Option Nat
  lastEdge : Option Nat
  low : Bool
  deriving DecidableEq, Repr

/-- The Chronograph and PTP beside their registers. -/
structure TimState where
  /-- The count in ns and its fraction in 2^-32 ns (R369). -/
  count : Nat
  frac : Nat
  /-- The backup counter in PD36 (R371). -/
  backup : Nat
  domA : PtpDomain
  domB : PtpDomain
  /-- Transparent-clock relay: enabled, domain, upstream port, downstream ports, P2P (R381). -/
  relayOn : Bool
  relayDomain : Nat
  relayUp : Nat
  relayDown : List Nat
  relayP2p : Bool
  relayVlan : Nat
  relayIpv6 : Bool
  relayLinks : List RelayLink
  /-- The bias O in ns (R375); the true time to which its retirement is counted, and what is left over in 10^-9 ns. -/
  bias : Int
  biasAt : Nat
  biasRem : Nat
  /-- A first lock has been taken since PD39 was turned on (R376). -/
  locked : Bool
  /-- A step decided: its tick in Chronograph ns, and the command that asked for it, if one did. -/
  stepAt : Option Nat
  stepCmd : Option (Nat × Nat)
  lastStep : Int
  steps : Nat
  /-- y when the state last became LOCKED (R377). -/
  yLocked : Int
  /-- y when the state last became SLEWING, the base of the slew profile (R378). -/
  ySlew : Int
  /-- No superframe starts before this Chronograph time, after a step (R198). -/
  superAfter : Nat
  /-- The whole second of Chronograph time whose tick has been taken. -/
  lastSecond : Nat
  pulses : List PulseOut
  deriving DecidableEq, Repr

/-! ### Chapter 14: the Heliostat -/

/-- What the Heliostat tracks for one entry of the priority table beside its registers (R397): the true time of the last
expected event; whether activity is present, a frequency measured, a format error found; since when it has been valid without a
break; whether it is qualified; and its phase error before the bias at its last sample, where it has had one. -/
structure RefInput where
  lastEvent : Option Nat
  active : Bool
  measured : Bool
  formatError : Bool
  validSince : Option Nat
  qualified : Bool
  raw : Option Int
  deriving DecidableEq, Repr

/-- What is kept of the pulses of REF_IN[n] or PPS_IN for the outputs that follow it (R409): the rate of its grid, its last 16 arrival
phases against that grid, newest first, and the Chronograph time of its last pulse. -/
structure PulseIn where
  rate : Nat × Nat
  phases : List Int
  last : Option Nat
  deriving DecidableEq, Repr

/-- An FP_OUT output beside its registers (R409, R410): the phase of its last pulse against the source's grid, the Chronograph time of its
next pulse (0 for none), the end of a pulse in progress, the time of its last pulse, the flywheel, and whether a disqualification other
than by missing pulses put it there. -/
structure FpOut where
  phase : Option Int
  next : Nat
  endsAt : Option Nat
  last : Option Nat
  flywheel : Bool
  broken : Bool
  deriving DecidableEq, Repr

/-- A clock output at its last change of setting or step (R413): the rate it ran at before (0 for off), the falling edge from which it is
held low, and the rising edge at which it restarts, in Chronograph time. -/
structure ClockHold where
  was : Nat × Nat
  fall : Nat
  rise : Nat
  deriving DecidableEq, Repr

/-- The Heliostat beside its registers. -/
structure RefState where
  inputs : List RefInput
  /-- The pulses of REF_IN[0] to REF_IN[3], then of PPS_IN. -/
  pulses : List PulseIn
  outs : List FpOut
  /-- The integrator of R402, in units of 2^-64. -/
  integ : Int
  /-- The loop takes y over at the next sample (R402). -/
  takeover : Bool
  /-- One-second means of y with the whole second each ends at, newest first (R403). -/
  means : List (Int × Nat)
  /-- Sum of y over the Chronograph time of the current second so far, and the time it reaches to. -/
  ySum : Int
  ySince : Nat
  /-- An input has been selected all through the current second so far, without holdover. -/
  whole : Bool
  /-- What the slew limit has allowed in part of a word and not yet given, in 10^-18 of a word (R377). -/
  slewRem : Nat
  /-- A holdover estimate exists. -/
  yhKnown : Bool
  /-- In holdover, y moves to y_h (R404). -/
  toYh : Bool
  /-- When the state of REF_STAT was entered, and when the active entry was selected (true time). -/
  since : Nat
  selectedAt : Nat
  /-- True time of the last sample of the selected input, and of the last pass. -/
  lastSample : Option Nat
  lastPass : Nat
  /-- A table that REF_TABLE_SET loaded, for the next pass (R414). -/
  staged : Option (List Byte)
  /-- PARTNER: what the lane's receive clock has gained on the Chronograph, in 2^-8 ns; that gain and the time at the last 10 s mark (R392,
  R397), and the gain at its selection. -/
  partnerGain : Int
  partnerMark : Option (Int × Nat)
  partnerBase : Int
  /-- VCLK_OUT[0], [1], ACLK_OUT and AUD_MCLK (R412, R413). -/
  clocks : List ClockHold
  deriving DecidableEq, Repr

/-! ### Chapters 04 and 05: the fabric, Landing, Meridians and the Ephemeris

A slot is named by one number here: `s` for full slot `s`, `0x10000 + q` for quarter slot `q`. -/

/-- A cell stored in the Log deck (R95, Table 4.1): its slot, header fields, payload, arrival, its number among the cells of its
source since SOF (R123), whether a reader has read it, and whether the latest read time among its readers has passed and its
buffer is free again (R97). -/
structure DeckCell where
  slot : Nat
  typeByte : Nat
  flags : Nat
  line : Nat
  index : Nat
  tag : Nat
  payload : List Byte
  arrival : Nat
  order : Nat
  wasRead : Bool
  freed : Bool
  /-- The follow ports of its slot have read it (R112). -/
  followed : Bool
  deriving DecidableEq, Repr

/-- The offset of a source at one generator (R100): the value, DRIFT, and the offsets of the last second with their
times and the drift each added. -/
structure Offset where
  gen : Nat
  value : Int
  drift : Bool
  recent : List (Nat × Int × Int)
  deriving DecidableEq, Repr

/-- What the fabric knows of a source slot (R92, R100, R110). -/
structure SourceRec where
  slot : Nat
  lastSeq : Option Nat
  /-- A cell other than FILL and IDLE has arrived since measurement began. -/
  carried : Bool
  lastSof : Option Nat
  /-- Sequence number of the last SOF cell. -/
  sofSeq : Nat
  /-- The last two intervals between SOF cells, newest first. -/
  periods : List Nat
  offsets : List Offset
  noSignal : Bool
  hdrCrc : Nat
  seqGap : Nat
  /-- The source delivers only IDLE cells: it carries no signal (R92). -/
  idle : Bool
  /-- When its last cell other than FILL and IDLE arrived since measurement began. -/
  lastCell : Option Nat
  deriving DecidableEq, Repr

/-- An output port beside its registers: the echo, each cell with its EOL flag, the line in progress, the index from which the line is
filled from the echo, and the raster of the last complete frame (R103-R105). -/
structure OutPort where
  q : Nat
  echo : List (Bool × List Byte)
  line : List (Bool × List Byte)
  lineNo : Nat
  filledFrom : Option Nat
  frameClean : Bool
  linesDone : Nat
  raster : Option (Nat × Nat)
  /-- The line period in progress and the Chronograph time of its first cell. -/
  period : Nat
  periodAt : Nat
  /-- The last V cell of the line has been emitted; the frame is in field 2; cell times of the frame so far. -/
  ended : Bool
  f2 : Bool
  count : Nat
  /-- The output was a full slot when its selection was connected (R189, R210). -/
  whole : Bool
  deriving DecidableEq, Repr

/-- A bond (R118). -/
structure BondRec where
  members : List Nat
  rx : Bool
  tx : Bool
  deriving DecidableEq, Repr

/-- A port of the internal pool with its consumers, as kind (1 Landing, 2 multiviewer, 3 HEVC encoder, 4 JPEG XS
encoder) and identifier (R21). -/
structure IntPort where
  port : Nat
  follow : Bool
  slot : Nat
  gen : Nat
  users : List (Nat × Nat)
  deriving DecidableEq, Repr

/-- A selection of an output port: source slot, VALID and generator. -/
structure Sel where
  src : Nat
  valid : Bool
  gen : Nat
  deriving DecidableEq, Repr

/-- A Landing channel; `chan` is n for full channel n and 0x100 + m for quarter channel m (R111-R115, R614). -/
structure Landing where
  chan : Nat
  source : Nat
  gen : Nat
  lossBlack : Bool
  /-- First channel and size of its Landing group; size 1 without BOND. -/
  first : Nat
  size : Nat
  member : Nat
  set : Nat
  width : Nat
  height : Nat
  interlaced : Bool
  s444 : Bool
  rateN : Nat
  rateD : Nat
  handle : Nat
  session : Nat
  tag : Nat
  /-- Readers of the source read through the channel. -/
  through : Bool
  /-- Earliest Chronograph time of the Meridian at which readers change over to the channel. -/
  changeAt : Nat
  /-- RELEASE: commanded, with its session and tag and the earliest time of the Meridian at which readers return to the source. -/
  releasing : Bool
  relSession : Nat
  relTag : Nat
  relAt : Nat
  /-- The frame read for the last Meridian; the complete frame not read yet (of a group: complete in every channel); a frame that is
  complete in this channel and not yet in all of its group. Of each the frame tag, the buffer, and of the last two the time of
  completion. -/
  reading : Option (Nat × Nat)
  done : List (Nat × Nat × Nat)
  ahead : List (Nat × Nat × Nat)
  /-- Frame being written: tag, buffer, V cells stored, format matched so far, and when its SOF arrived. -/
  writing : Option (Nat × Nat × Nat × Bool × Nat)
  /-- When its last SOF, or the assignment before the first, came. -/
  lastSof : Option Nat
  /-- Lost since, and the Meridians of its generator since then (R114). -/
  lost : Option (Nat × Nat)
  /-- Black is emitted for the frame in progress. -/
  black : Bool
  /-- X cells of the frames in the buffers: buffer, field, line, index, payload; and the buffer of the frame whose cells arrive now. -/
  anc : List (Nat × Bool × Nat × Nat × List Byte)
  ancBuf : Option Nat
  /-- Change indices of a CRU_COMMIT under which the assignment and the release were admitted (R83). -/
  entry : Nat
  relEntry : Nat
  deriving DecidableEq, Repr

/-- The fabric and Landing beside their registers. -/
structure FabState where
  deck : List DeckCell
  sources : List SourceRec
  ports : List OutPort
  bonds : List BondRec
  pool : List IntPort
  landing : List Landing
  /-- Shadows as they stood when they closed, of outputs whose shadow was written after that: quarter index, ARM, selection (R106). -/
  closed : List (Nat × Bool × Sel)
  deriving DecidableEq, Repr

/-- One route record of a take (R139): the output and source slots it names, its flags, its generator and frame. -/
structure RouteRec where
  out : Nat
  source : Nat
  valid : Bool
  bond : Bool
  noAudio : Bool
  dark : Bool
  gen : Nat
  frame : Nat
  /-- Audio mode (1 CUT, 2 DIP, 3 CROSSFADE) and ramp in ms: the take's, or the generator's defaults when it was admitted (R137, R150). -/
  mode : Nat
  ramp : Nat
  /-- The loader has written the shadow; the record has been counted late. -/
  loaded : Bool
  late : Bool
  deriving DecidableEq, Repr

/-- A take that has not wholly applied: an Ephemeris entry, or an immediate take (handle 0). `order` is its place in
admission order (R135). Mode: 0 the generator's default, 1 CUT, 2 DIP, 3 CROSSFADE; ramp 0 the default. -/
structure Take where
  order : Nat
  handle : Nat
  salvo : Bool
  byFrame : Bool
  partly : Bool
  atRisk : Bool
  mirrored : Bool
  session : Nat
  tag : Nat
  entry : Nat
  time : Nat
  mode : Nat
  ramp : Nat
  routes : List RouteRec
  failed : Bool
  deriving DecidableEq, Repr

/-- A Meridian generator beside its registers: the Chronograph time of its last Meridian on the present time base; the frame that began
there, which bounds the next one, and by how far the Chronograph has stepped since (R128); and the time after which the next Meridian
must lie, from a LOAD or an enable (R153). -/
structure Generator where
  lastAt : Option Nat
  frame : Option Nat
  shift : Int
  since : Nat
  /-- The generator emits IDLE on its outputs: EN was cleared and the frame in progress has ended (R153). -/
  stopped : Bool
  deriving DecidableEq, Repr

/-- Takes and generators. -/
structure EphState where
  takes : List Take
  lastOrder : Nat
  lastHandle : Nat
  gens : List Generator
  deriving DecidableEq, Repr

/-! ### Chapter 10: the audio crosspoint -/

/-- A source of the audio store: its samples that wait for evaluation, by count; the last sample given; and the
missing samples in a row and in all, with the late ones (R282, R283). -/
structure AudioSource where
  num : Nat
  samples : List (Nat × Int)
  last : Int
  run : Nat
  missing : Nat
  late : Nat
  /-- The value it gives at the sample evaluated last. -/
  cur : Int
  /-- Values given at recent samples, newest first, for the meter bars (R320). -/
  hist : List (Nat × Int)
  deriving DecidableEq, Repr

/-- A change of source: the source it leaves, its first sample, its length in samples (0 for CUT), whether it is a DIP,
the sample from which the source it leaves is cut to zero, and the gain and inversion that the source it leaves keeps
when the change set a new gain too (R137, R138, R287). -/
structure Fade where
  old : Nat
  start : Nat
  len : Nat
  dip : Bool
  zeroAt : Option Nat
  gain : Option (Nat × Bool)
  deriving DecidableEq, Repr

/-- A change of a sink that waits for its target sample, as a 48 kHz count (R286). `source` none is FOLLOW. -/
structure SinkChange where
  target : Nat
  order : Nat
  source : Option Nat
  gain : Nat
  invert : Bool
  mode : Nat
  ramp : Nat
  deriving DecidableEq, Repr

/-- A video take that a sink meets at its sample `first`: the source that it followed before, whether it stays on that one
(NO_AUDIO_FOLLOW), and the ramp (R137, R285). -/
structure TakeMark where
  first : Nat
  order : Nat
  old : Nat
  noFollow : Bool
  len : Nat
  dip : Bool
  deriving DecidableEq, Repr

/-- A sink of the crosspoint (R284-R287). `held` is the former source that a FOLLOW sink stays on after a take with
NO_AUDIO_FOLLOW; `sample` is its last output. -/
structure Sink where
  num : Nat
  fixed : Bool
  source : Nat
  held : Option Nat
  gain : Nat
  invert : Bool
  fades : List Fade
  gainRamp : Option (Nat × Nat × Nat)
  changes : List SinkChange
  sample : Int
  /-- Samples of an embedded sink that wait for an A cell, by count, oldest first (R282). -/
  due : List (Nat × Int)
  clip : Nat
  mismatch : Nat
  /-- Takes of its output whose sample has still to be evaluated, oldest first (R285). -/
  takes : List TakeMark
  deriving DecidableEq, Repr

/-- One direction of a TDM port: its FIFO of frames, oldest first, its last frame, whether data runs, whether it
stops at the next frame boundary, and its counters (R292-R294). -/
structure TdmDir where
  fifo : List (List Int)
  last : List Int
  running : Bool
  stopping : Bool
  ins : Nat
  outs : Nat
  repeats : Nat
  drops : Nat
  /-- The last frame that it gave was a repeat. -/
  starved : Bool
  deriving DecidableEq, Repr

/-- A TDM port. -/
structure TdmPort where
  sdi : TdmDir
  sdo : TdmDir
  frameErr : Nat
  /-- The frames that the crosspoint delivered last, newest first, by their sample count (R291). -/
  made : List (Nat × List Int)
  deriving DecidableEq, Repr

/-- A measured rate: kind and index as AUD_RATE_STATUS names them, class, samples of the last second, offset in
1/16 ppm, and whether the offset lies outside the threshold (R295); the samples counted since the group first carried any with the Chronograph
time of the last, and the same as they stood at the last measurements, newest first. -/
structure RateRec where
  kind : Nat
  index : Nat
  cls : Nat
  count : Nat
  offset : Int
  outside : Bool
  total : Nat
  lastAt : Nat
  past : List (Nat × Nat)
  /-- Chronograph time of the last measurement, or of the first samples. -/
  measuredAt : Nat
  deriving DecidableEq, Repr

/-- The audio crosspoint beside its registers. `slotSets` holds share and rate of a slot, input (false) or output
side; `tones` frequency, level and rate by generator. -/
structure AudState where
  sources : List AudioSource
  sinks : List Sink
  ports : List TdmPort
  tones : List (Nat × Nat × Nat × Bool)
  slotSets : List ((Nat × Bool) × Nat × Bool)
  rates : List RateRec
  /-- Whole frames since the clocks started; frames since the last port stopped, once one has. -/
  frames : Nat
  idleFrames : Option Nat
  lastFclk : Nat
  /-- The samples evaluated last at 48 kHz and at 96 kHz. -/
  last48 : Option Nat
  last96 : Option Nat
  /-- Clocks stop and start again, at the rate that RATE96 now asks. -/
  restarting : Bool
  /-- The clocks run at 96 kHz: RATE96 as it stood when they started (R301). -/
  fast : Bool
  /-- The Chronograph has stepped since the last FCLK frame (R291). -/
  stepped : Bool
  deriving DecidableEq, Repr

/-! ### Chapter 12: the encoder and decoder engines -/

/-- A piece of the media of a flow: kind 0 V, 1 A, 2 X, 3 audio sample; its frame, its line period in the frame (fields
in turn), its offset in the line and its bytes. For kind 3 `frame` is the sample's count and `line` its channel. -/
structure Piece where
  kind : Nat
  frame : Nat
  line : Nat
  off : Nat
  bytes : List Byte
  deriving DecidableEq, Repr

/-- Lines of samples of luma, Cb and Cr. -/
structure Planes where
  luma : List (List Nat)
  cb : List (List Nat)
  cr : List (List Nat)
  deriving DecidableEq, Repr, Inhabited

/-- A CTU row of an HEVC picture, or a slice of a JPEG XS picture: the picture's frame, index and Meridian, the row, its
QP, target and cap in bits, the bits emitted once coded, its bytes (a slice NAL unit without start code), the flags of
Table 12.5, its hash, whether its packets are
withheld, and whether they have been built (R345, R355, R356). -/
structure EncRow where
  frame : Nat
  pic : Nat
  m0 : Nat
  row : Nat
  qp : Nat
  target : Nat
  cap : Nat
  bits : Option Nat
  bytes : List Byte
  flags : Nat
  hash : Nat
  withheld : Bool
  built : Bool
  /-- What is coded: the converted samples of its lines (R333). -/
  samples : Planes := ⟨[], [], []⟩
  /-- Its team had lost an engine when the row began: it is coded in minimum mode from its start (R360). -/
  least : Bool := false
  /-- The decoded blocks of its CTUs, and the state of the entropy coder after the second, with which the next row starts
  (entropy_coding_sync, R339). -/
  blocks : List Planes := []
  sync : List Nat := []
  /-- The picture that it ends has been emitted. -/
  gone : Bool := false
  deriving DecidableEq, Repr

/-- A row of a refresh period: its number in the period, its frame and row, its cap, and the bits it emitted once coded (R344, R345). -/
structure BookRow where
  j : Nat
  frame : Nat
  row : Nat
  cap : Nat
  bits : Option Nat
  deriving DecidableEq, Repr

/-- The book of a refresh period: its budget in bits, its rows in order, and the bits of the filler that closes it (R344). -/
structure Book where
  period : Nat
  budget : Nat
  rows : List BookRow
  filler : Option Nat
  deriving DecidableEq, Repr

/-- A rate that waits for its frame: R, QP_min where it is set, the frame, and the number of the command that waits for it (R365). -/
structure RateChange where
  rate : Nat
  qpMin : Option Nat
  frame : Nat
  id : Nat
  deriving DecidableEq, Repr

/-- A packet that a channel has built: its flow, launch time, row (frame and row), marker, timestamp and payload. -/
structure EncPacket where
  flow : Nat
  launch : Nat
  frame : Nat
  row : Nat
  marker : Bool
  ts : Nat
  payload : List Byte
  deriving DecidableEq, Repr

/-- A row message of the sequence authority (Table 12.5), with the Chronograph time of its arrival. -/
structure RowMsg where
  handle : Nat
  frame : Nat
  row : Nat
  qp : Nat
  flags : Nat
  bytes : Nat
  target : Nat
  hash : Nat
  arrival : Nat
  deriving DecidableEq, Repr

/-- An HEVC channel or JPEG XS encoder (R334-R366). `source` is the slot, or the output with FOLLOW_OUTPUT. `pic`,
`frame`, `m0` and `row` are the picture in progress and its next row; `period` the refresh period that has begun, `pc`
the period from which the rate applies; `books` the books of the last two periods, newest first; `rows` the rows of
the last two pictures; `rates` the rates that wait for their frames, in order of admission; `lost` the held engines that became
unavailable; `used` the bytes of the JPEG XS picture in progress; `msgs` the authority's row messages; `matched` the rows that matched
by period, and whether one did not; `counters` the continuity counters of PAT, PMT and video; `deleting` the first picture that a deleted
channel does not code; `jump` the frame of the next picture after a Chronograph step (R341). -/
structure EncChan where
  handle : Nat
  codec : Nat
  follow : Bool
  bond : Bool
  s444 : Bool
  interlaced : Bool
  source : Nat
  gen : Nat
  set : Nat
  width : Nat
  height : Nat
  n : Nat
  qpMin : Nat
  qpStart : Nat
  rate : Nat
  f0 : Nat
  engines : List Nat
  lost : List Nat
  pic : Nat
  frame : Nat
  m0 : Nat
  row : Nat
  period : Option Nat
  pc : Nat
  books : List Book
  rows : List EncRow
  rates : List RateChange
  packets : List EncPacket
  done : Nat
  used : Nat
  msgs : List RowMsg
  matched : List (Nat × Nat × Bool)
  counters : List Nat
  deleting : Option Nat
  jump : Option Nat
  /-- The V cells that the channel's port has delivered, of the frame in progress and the last. -/
  input : List Piece := []
  /-- The first picture that the channel codes; its COMPLETE is outstanding until it has been emitted (R358, R363). -/
  start : Nat := 0
  opening : Bool := true
  /-- The events raised, each by code and frame: once per picture (R362). -/
  raised : List (Nat × Nat) := []
  deriving DecidableEq, Repr

/-- A JPEG XS decoder: its index, its flow's handle, the frame and next slice judged, the first frame that it writes and, once it is
deleted, the first that it no longer writes (R354, R358, R364), and the last frame for which it raised XS_SLICE_LOST (R362). -/
structure XsDecoder where
  d : Nat
  flow : Nat
  next : Option (Nat × Nat)
  since : Nat
  deleting : Option Nat
  lostFrame : Option Nat := none
  deriving DecidableEq, Repr

/-- The encoder and decoder engines beside their registers. -/
structure EncState where
  chans : List EncChan
  decs : List XsDecoder
  deriving DecidableEq, Repr

/-! ### Chapters 08 and 09: ports, modules and flows -/

/-- The descriptors that a frame completes (R224): ring 0-4, index of the first, their number, whether a timestamp is
asked, and the error code met so far. -/
structure Completion where
  ring : Nat
  first : Nat
  count : Nat
  stamp : Bool
  error : Nat
  deriving DecidableEq, Repr

/-- A frame that waits in a transmit queue, without its FCS: its launch time in Q6; the flow and leg it belongs to, with the
number of its packet among those that the flow has scheduled; and the descriptors that it completes as the last frame of its chain
(R218, R224, R268). -/
structure TxFrame where
  queue : Nat
  bytes : List Byte
  launch : Option Nat
  flow : Option (Nat × Nat × Nat)
  ring : Option Nat
  done : Option Completion
  deriving DecidableEq, Repr

/-- A MACsec SA (R229, R230). `pn` is the next packet number of a transmit SA, the lowest acceptable of a receive SA;
`gen` the Vault slot's generation when it was installed. -/
structure SecAssoc where
  rx : Bool
  channel : Nat
  an : Nat
  active : Bool
  sci : Nat
  slot : Nat
  gen : Nat
  ssciA : Nat
  ssciB : Nat
  salt : List Byte
  pn : Nat
  deriving DecidableEq, Repr

/-- A pause in force: the priority that asked it (8 for PAUSE), the queue, when the queue stopped, and its end in ps. -/
structure Pause where
  prio : Nat
  queue : Nat
  since : Nat
  endsAt : Nat
  deriving DecidableEq, Repr

/-- A port beside its registers. -/
structure PortRec where
  p : Nat
  queues : List TxFrame
  /-- End of the frame in progress, in ps of true time. -/
  busy : Nat
  pauses : List Pause
  /-- Queues whose pause frames are ignored, with the end of the hold (R222). -/
  holds : List (Nat × Nat)
  /-- The link has been coming up since then (R213). -/
  bringUp : Option Nat
  /-- MACSEC_PORT settings: validate, confidentiality offset, replay window. -/
  validate : Nat
  confOffset : Nat
  replayWindow : Nat
  assocs : List SecAssoc
  /-- MGT_IP: addresses of sides A and B, prefix, gateway, VLAN. -/
  mgtIp : Option (Nat × Nat × Nat × Nat × Nat)
  /-- Pause frames that arrived for a queue in its hold and whose time has not run out: they keep the cause of the storm (R222). -/
  ignored : List Pause
  deriving DecidableEq, Repr

/-- What a poll reads of a module (R236). -/
structure ModuleId where
  identifier : Nat
  revision : Nat
  vendor : List Byte
  oui : List Byte
  part : List Byte
  partRev : List Byte
  serial : List Byte
  date : List Byte
  deriving DecidableEq, Repr

/-- A module bus: its binding, settings and the module last seen (R235, R236). -/
structure ModuleBus where
  bus : Nat
  firstLane : Nat
  lanes : Nat
  autoInit : Bool
  warn : Nat
  rated : Nat
  seen : Option ModuleId
  laserOn : Bool
  temperature : Int
  deriving DecidableEq, Repr

/-- A module account (R237, R239): laser-on time in s, weighted time in half-seconds, its number in the order in which accounts were seen,
and the two times that the settings store holds for it. -/
structure ModuleAccount where
  oui : List Byte
  serial : List Byte
  laser : Nat
  weighted : Nat
  seen : Nat
  stored : Option (Nat × Nat)
  deriving DecidableEq, Repr

/-- A leg of a flow (Tables 9.6, 9.7) with its packet and link-down counters. -/
structure FlowLeg where
  dest : Nat
  /-- RX: local addresses of the sides; TX: source addresses of the sides. -/
  sideA : Nat
  sideB : Nat
  filter : Nat
  destMac : Nat
  vlan : Nat
  udpSrc : Nat
  udpDst : Nat
  port : Nat
  dscp : Nat
  sides : Nat
  packets : Nat
  linkDown : Nat
  lastAccept : Nat
  /-- Unsolicited membership reports sent, and the time of the last. -/
  reports : Nat
  reportAt : Nat
  deriving DecidableEq, Repr

/-- A flow (R247-R277): the fields of Table 9.5, its legs, its engine, counters, and its place in the stream. -/
structure Flow where
  index : Nat
  tx : Bool
  kind : Nat
  ipv6 : Bool
  quarter : Bool
  bond : Bool
  assoc : Bool
  /-- SSM on receive, BPM on send. -/
  opt : Bool
  linear : Bool
  srtp : Bool
  slot : Nat
  encoder : Nat
  pt : Nat
  interlaced : Bool
  sampling : Nat
  audio : Nat
  width : Nat
  height : Nat
  rateN : Nat
  rateD : Nat
  timing : Nat
  lmax : Nat
  vslot : Nat
  vgen : Nat
  salt : List Byte
  legs : List FlowLeg
  engine : Nat
  /-- RX: ACCEPTED, DUP, LOST, LATE, EARLY, BAD. TX: SCHEDULED, SKIP, -, -, WITHHELD, KEY_DROP, IDLE_FRAMES. -/
  c0 : Nat
  c1 : Nat
  c2 : Nat
  c3 : Nat
  c4 : Nat
  c5 : Nat
  c6 : Nat
  ts : Nat
  /-- Release margins and holds of the last second, with their times. -/
  margins : List (Nat × Int × Int)
  /-- RX: highest extended sequence judged at a release, and the accepted ones with their frame and line. -/
  judged : Option Nat
  got : List (Nat × Nat × Nat)
  /-- Highest number accepted; 0 before the first. -/
  highest : Nat
  /-- RX: copies of leg B accepted at this instant: time, number and media (R257). -/
  atOnce : List (Nat × Nat × List Piece)
  lastAccept : Nat
  lastTa : Option Nat
  loss : Bool
  /-- Media that waits for its line's release, or for the packet that carries it. -/
  store : List Piece
  /-- RX: frames with an accepted packet that are still to be released, with their alignment point where no boundary
  of the rate matches; the frame in release and its next line period. -/
  frames : List (Nat × Option Nat)
  releasing : Option (Nat × Nat)
  /-- RX: cells of the line period that was released last, with the time at which each is written (R255). -/
  cells : List (Nat × List Byte)
  cellNo : Nat
  /-- TX: the frame and index of the next packet, once sending has started at a Meridian of the output. -/
  next : Option (Nat × Nat)
  startAt : Nat
  /-- TX: the frame that a step of the Chronograph has made long, with what its Meridian and those before it have moved by (R128, R267). -/
  moved : Option (Nat × Int)
  /-- TX of kind 5: X cells that did not fit their packet, counted BAD (R263). -/
  ancBad : Nat
  seq : Nat
  /-- The SRTP packet index of the next packet: RFC 3711's roll-over count and sequence number (R270). -/
  srtpIndex : Nat
  revoked : Bool
  idleFrame : Option Nat
  /-- Deletion asked, which waits for the end of the frame in progress: of leg B only, or of the flow. -/
  deleting : Option Bool
  /-- What a removed leg B has counted: packets, and LINKDOWN (R261, R268, R277). -/
  legBGone : Nat × Nat
  deriving DecidableEq, Repr

/-- Ports, modules and flows. -/
structure NetState where
  ports : List PortRec
  buses : List ModuleBus
  accounts : List ModuleAccount
  /-- Since when HOLD defers the poll (R235). -/
  holdSince : Option Nat
  /-- A transfer of MOD_XFER is in progress (R235). -/
  transfer : Bool
  flows : List Flow
  lastFlow : Nat
  deriving DecidableEq, Repr

/-- The settings of a lane that class C commands made: its last LAN_CONFIG and LAN_SLEEP as kept (R175), and its last LAN_SLOTMASK
as manual, quarter map, slot mask and quarter-active set. -/
structure LaneSet where
  l : Nat
  config : Option (List Byte)
  sleep : Option (Nat × Nat × Nat)
  layout : Option (Bool × Nat × Nat × Nat)
  deriving DecidableEq, Repr

/-- The class C state that a snapshot holds (R446): the pair generation at which it was taken, the register fields that class C
commands set, the routes, takes, flows, audio, multiviewer, encoder, time and reference settings, the lanes, and the graphic
objects' pixels, by handle and offset, with the buffers that say which sets they lie in. -/
structure Snapshot where
  gen : Nat
  regs : RegFile
  fab : FabState
  eph : EphState
  net : NetState
  aud : AudState
  mvw : MvwState
  enc : EncState
  tim : TimState
  ref : RefState
  lanes : List LaneSet
  bufs : List Buffer
  pixels : List (Nat × Nat × Byte)
  deriving DecidableEq, Repr

end Sys2Proof.Machine
end

