-- ==== Sys2Proof/Syntax.lean ====
section
/-!
DEFINITION. The commands of the block: one constructor of `Instr` for each row of the opcode table, with the
operands that the spec's text gives the step. The table gives its rows no bits, so the operands are structured
data: what arrives (a packet, a cell, a register value), which object it is for, and what the outside world
measured. The first operand `dt` of every command is the true time, in ns, since the command before it.
-/
namespace Sys2Proof

/-- The three variants of the part (R1). -/
inductive Variant
  | px7210
  | px7206
  | px7203
  deriving DecidableEq, Repr

/-- The transport that a Cyxel packet arrives on (R34). UDP names the management MAC, the source address and port. -/
inductive Transport
  | udp (mac addr port : Nat)
  | sideband
  | mailbox (ring : Nat)
  | partner
  deriving DecidableEq, Repr

/-- A Cyxel request packet as its header fields, payload and tag (Table 2.1). The row gives the opcode. -/
structure Req where
  transport : Transport
  version : Nat
  flags : Nat
  status : Nat
  tag : Nat
  seq : Nat
  session : Nat
  payload : List Byte
  mac : Tag128
  deriving DecidableEq, Repr

/-- The supply rails that PD00 monitors (R600). -/
inductive Rail
  | core
  | sram
  | laneAnalog
  | dramIo
  | io
  deriving DecidableEq, Repr

/-- What a voting block finds in one triplicated field: the key of the field and what its three copies hold (R585). -/
structure Upset where
  key : Nat
  c0 : Nat
  c1 : Nat
  c2 : Nat
  deriving DecidableEq, Repr

/-- How a Skidway transaction ends at its target: served; served with a corrected or lost word (R496, R532); or left outstanding with so
many beats supplied (R502, R505). -/
inductive BurstEnd
  | done
  | corrected
  | lost
  | left (beats : Nat)
  deriving DecidableEq, Repr

/-- What a watchdog watches (R532, R518). -/
inductive Watchdog
  | ranger (core : Nat)
  | host (core : Nat)
  | block (src : Nat)
  deriving DecidableEq, Repr

/-- What IEEE 802.3ck link training has settled on a lane (R159, R161): the magnitudes of the side taps, and precoding in each direction. -/
structure LaneTraining where
  cm3 : Nat
  cm2 : Nat
  cm1 : Nat
  cp1 : Nat
  txPrecode : Bool
  rxPrecode : Bool
  deriving DecidableEq, Repr

/-- A port whose link comes up, with what training settled on each of its lanes. -/
structure LinkTraining where
  port : Nat
  lanes : List LaneTraining
  deriving DecidableEq, Repr

/-- What a power-up meets: power-good of the domain, and the regulator's acknowledgement of the AVSBus write that comes before PD36 first
turns on (R544, R598). -/
structure PowerGood where
  good : Bool
  ack : Bool
  deriving DecidableEq, Repr

/-- What a receiver counts in an adaptation window: the mean square slicer error that its figure of merit is formed of, and pattern bits in error (R164, R181). -/
structure WindowCount where
  meanSquare : Nat
  pattern : Nat
  deriving DecidableEq, Repr

/-- Who writes a cell into the fabric (R95): the receiver of a lane at a slot position, a packet engine, Landing
read-back, or an internal producer. -/
inductive Writer
  | receiver (lane position : Nat)
  | engine (flow : Nat)
  | landing
  | internal
  deriving DecidableEq, Repr

/-- How a one-byte transfer to a module ends: acknowledged, not acknowledged, or without an end in time (R235). -/
inductive TransferEnd
  | acked
  | nak
  | timedOut
  deriving DecidableEq, Repr

/-- What one module bus answers to a poll (R235, R236): whether the address is acknowledged, and the CMIS fields:
identifier, revision, vendor name, OUI, part number, revision, serial number, date code; and whether the module is in
ModuleReady with an enabled lane of its binding. -/
structure ModuleRead where
  ack : Bool
  identifier : Nat
  revision : Nat
  vendor : List Byte
  oui : List Byte
  part : List Byte
  partRev : List Byte
  serial : List Byte
  date : List Byte
  deriving DecidableEq, Repr

/-- What the payload format of a received packet says, where the format is a standard that the spec names and does not
restate (ST 2110-22, ST 2110-40, ST 2022-6): the upper half of the extended sequence number; the pieces of media, as
kind (0 V, 1 A, 2 X), line period, offset and bytes; whether its SDI lines pass;
and whether the payload lies inside the declared format. -/
structure Given where
  ext : Nat
  pieces : List (Nat × Nat × Nat × List Byte)
  linesOk : Bool
  inside : Bool
  deriving DecidableEq, Repr

/-- What a SNAPSHOT message is, whose body R446 gives no layout: the request, a segment, or the last segment with the snapshot
that the segments make up. -/
inductive SnapPart
  | request
  | part
  | last (x : Machine.Snapshot)
  deriving DecidableEq, Repr

/-- The commands of the block, one constructor per row of the opcode table. -/
inductive Instr
  /-- POWER_ON (R538). VDD_AON becomes good; PD00 starts and its power-on reset runs. -/
  | powerOn (dt : Nat) (recovery : Bool)
  /-- CORE_RAILS_GOOD (R600). After waiting with no time limit for VDD_CORE and VDD_SRAM to be good, the power controller closes stage 0 of PD01. -/
  | coreRailsGood (dt : Nat)
  /-- RST_N_ASSERT (R604). RST_N is held low for at least 1 µs; every domain except the rail monitors and the trip latch is held in reset. -/
  | rstNAssert (dt : Nat)
  /-- RST_N_RELEASE (R559). RST_N rises; RECOVERY_N is sampled and the part starts from reset. -/
  | rstNRelease (dt : Nat) (recovery cooled : Bool)
  /-- RAIL_LOSS (R600). A rail stays below 95 % of nominal for 1 µs; the part clamps, resets or turns off the domains that the rail feeds. -/
  | railLoss (dt : Nat) (rail : Rail)
  /-- THERMAL_TRIP (R607). The PD00 comparator sensor reaches 115 °C; THERM_N is asserted, every other domain is clamped and reset, and all wake sources are disabled. -/
  | thermalTrip (dt : Nat)
  /-- ROM_BOOT (R560). Ranger core 0 runs the boot ROM: it reads OTP, chooses and verifies a bank, copies the ranger image, sets REMAP and starts the firmware. -/
  | romBoot (dt : Nat)
  /-- IMAGE_LOAD (R563). Ranger firmware loads and re-verifies an engine microcode or host image when its domain is on, and the unit reports READY or raises BOOT_IMAGE_FAIL. -/
  | imageLoad (dt : Nat) (type : Nat) (domain : Nat)
  /-- TRIAL_CONFIRM (R562). Once a TRIAL bank's interpreter has been READY for 60 s with no FATAL event, ranger firmware marks the bank CONFIRMED. -/
  | trialConfirm (dt : Nat)
  /-- ACTIVATE_RESET (R569). 100 ms after a successful UPD_COMMIT with ACTIVATE, the part resets into the new TRIAL bank. -/
  | activateReset (dt : Nat)
  /-- LIFECYCLE_RESET (R456). 10 ms after a life-cycle transition reply, the part resets as a power-on reset would. -/
  | lifecycleReset (dt : Nat)
  /-- SETTINGS_STORE_WRITE (R565). Within 1 s of an admitted change to a CONFIG record, the part writes the settings store, alternating between its copies. -/
  | settingsStoreWrite (dt : Nat)
  /-- UPD_DATA_TIMEOUT (R568). An open update that receives no UPD_DATA for 60 s is abandoned, and its bank is marked EMPTY. -/
  | updDataTimeout (dt : Nat)
  /-- DOMAIN_POWER_UP (R540). A power domain closes its switch stages, releases isolation and reset, and enables its clock. -/
  | domainPowerUp (dt : Nat) (d : Nat) (good : PowerGood)
  /-- DOMAIN_POWER_DOWN (R542). A power domain stops new transactions, drains, applies isolation clamps, asserts reset and opens its switches. -/
  | domainPowerDown (dt : Nat) (d : Nat)
  /-- IDLE_TIMER_EXPIRY (R545). A domain's idle timer expires with no assigned work; the domain goes off and PWR_IDLE_OFF is raised. -/
  | idleTimerExpiry (dt : Nat) (d : Nat)
  /-- SIDEBAND_ADDRESS_MATCH (R548). In DORMANT, the sideband comparator matches the address, acknowledges it, NACKs the data and wakes the part. -/
  | sidebandAddressMatch (dt : Nat) (addr : Nat) (also : Nat)
  /-- COMPARATOR_WAKE (R549). The WAKE_SENSE comparator output stays asserted for 1 ms, and the part wakes. -/
  | comparatorWake (dt : Nat) (also : Nat)
  /-- PWR_TIMER_EXPIRY (R550). PWR_TIMER reaches 0; it wakes the part in DORMANT or STANDBY and does nothing in SERVICE. -/
  | pwrTimerExpiry (dt : Nat) (also : Nat)
  /-- MGT_WAKE_FRAME (R234). The DORMANT wake detector receives a magic or masked-pattern frame with a valid FCS and wakes the part. -/
  | mgtWakeFrame (dt : Nat) (port : Nat) (bytes : List Byte) (also : Nat)
  /-- THERMAL_SENSOR_SAMPLE (R606). The die sensors sample every 1 ms, and the collector compares Tj with WARN_C and SHED_C. -/
  | thermalSensorSample (dt : Nat) (temps : List Int)
  /-- SHED_STEP (R521). 100 ms after a shed, the next domain in the order is shed while Tj is still at or above WARN_C. -/
  | shedStep (dt : Nat)
  /-- FAULT_EVENT_RECORD (R517). The collector numbers, records and counts a detected event, updates the uncleared table, and takes the hardware steps of its class. -/
  | faultEventRecord (dt : Nat)
  /-- FAULT_REACTION (R519). Ranger firmware runs the queued reaction for an event's class, pre-empting a less severe reaction. -/
  | faultReaction (dt : Nat)
  /-- CONTROL_RESTART (R522). The ranger cores are held in reset and drained, then restarted from the ROM, which reloads the ranger image while the media plane keeps running. -/
  | controlRestart (dt : Nat)
  /-- VOTE_SCRUB (R585). Once per millisecond a block votes all its triplicated fields. -/
  | voteScrub (dt : Nat) (w : Nat) (upsets : List Upset)
  /-- REGISTER_WRITE (R6). A write to a register that has no row of its own takes effect according to the field types and the block's access rules. -/
  | registerWrite (dt : Nat) (master addr bits value : Nat)
  /-- POSTED_WRITE_LAND (R14). A posted register write lands in its target block, and WPEND clears. -/
  | postedWriteLand (dt : Nat) (w : Nat)
  /-- BLK_STAT_WRITE (R579). A write to BLK_STAT clears the written W1C bits at once, without waiting behind a pending write. -/
  | blkStatWrite (dt : Nat) (master w value : Nat)
  /-- SYS_CTL_REMAP_WRITE (R487). A write to SYS_CTL.REMAP changes the Skidway decode for transactions accepted after its response. -/
  | sysCtlRemapWrite (dt : Nat) (master value : Nat)
  /-- FAB_SEL_CUR_WRITE (R107). A write to FAB_SEL_CUR switches the port's source mid-frame from its next cell time. -/
  | fabSelCurWrite (dt : Nat) (master q value : Nat)
  /-- FAB_LD_SNAP (R98). A write to FAB_LD_SNAP.GO captures ALLOC and FREE in one cycle and reloads MINFREE. -/
  | fabLdSnap (dt : Nat) (master value : Nat)
  /-- EPH_GEN_LOAD (R153). Writing EPH_GEN_CTL.LOAD puts the staged N and D in force at once, or is ignored when they are out of range. -/
  | ephGenLoad (dt : Nat) (master g value : Nat)
  /-- EPH_GEN_EN_WRITE (R153). A write to EPH_GEN_CTL.EN disables or resumes a generator, with bound outputs going IDLE or pending parts applying. -/
  | ephGenEnWrite (dt : Nat) (master g value : Nat)
  /-- LNQ_SLEEP_WRITE (R171). A write to LNQ_SLEEP requests a direction state, held until any transition in progress ends. -/
  | lnqSleepWrite (dt : Nat) (master l value : Nat)
  /-- LNQ_LCFG_WRITE (R181). A mode or enable write to LNQ_LCFG restarts the lane, with LN_RESTART raised when slots are active. -/
  | lnqLcfgWrite (dt : Nat) (master l value : Nat)
  /-- LNQ_ADAPT_RESTART (R167). Writing LNQ_ADAPT.RESTART discards the coefficients, loads the reset values and adapts from cold. -/
  | lnqAdaptRestart (dt : Nat) (master l value : Nat)
  /-- LNQ_ADAPT_FREEZE (R167). Setting LNQ_ADAPT.FREEZE keeps any CTLE step in evaluation and then holds every coefficient. -/
  | lnqAdaptFreeze (dt : Nat) (master l value : Nat)
  /-- LNQ_FOM_MINCLR (R180). Writing LNQ_FOM.MINCLR resets the FOM minimum to 255. -/
  | lnqFomMinclr (dt : Nat) (master l value : Nat)
  /-- LNQ_PRBS_WRITE (R181). A write to LNQ_PRBS replaces transmit traffic with a pattern, or starts and clears the receive checker. -/
  | lnqPrbsWrite (dt : Nat) (master l value : Nat)
  /-- LNQ_STX_MASK_GO (R192). Writing MASK_GO puts the staged transmit layout forward for the next latch. -/
  | lnqStxMaskGo (dt : Nat) (master l value : Nat)
  /-- NET_RING_SIZE_WRITE (R242). Writing a ring's size resets its PI and CI to 0, or disables the ring. -/
  | netRingSizeWrite (dt : Nat) (master p k value : Nat)
  /-- NET_RING_PI_WRITE (R224). Host software advances a ring's PI, handing transmit descriptors or posted receive buffers to the part. -/
  | netRingPiWrite (dt : Nat) (master p k value : Nat)
  /-- NET_CTL_WRITE (R246). A write to NET_CTL enables, restarts or reconfigures a port, including clearing MACSEC_EN. -/
  | netCtlWrite (dt : Nat) (master p value : Nat)
  /-- NET_FLOW_SNAP (R261). Writing NET_FLOW_SEL.SNAP captures every counter of the selected flow in one cycle. -/
  | netFlowSnap (dt : Nat) (master value : Nat)
  /-- MOD_XFER_GO (R235). Writing MOD_XFER.GO starts a one-byte transfer on a module bus. -/
  | modXferGo (dt : Nat) (master value : Nat)
  /-- MOD_XFER_DONE (R235). A host module-bus byte transfer completes and sets DONE, or NAK on no acknowledge. -/
  | modXferDone (dt : Nat) (ends : TransferEnd) (data : Nat)
  /-- CYX_RQ_PI_WRITE (R38). Writing CYX_RQ_PI rings the mailbox doorbell, or halts the ring pair with RINGERR when the index is invalid. -/
  | cyxRqPiWrite (dt : Nat) (master n value : Nat)
  /-- CYX_RING_SIZE_WRITE (R38). Writing CYX_RING_SIZE resets all four indices and restarts a halted ring pair. -/
  | cyxRingSizeWrite (dt : Nat) (master n value : Nat)
  /-- CYX_RP_CI_WRITE (R38). Host software advances the reply consumer index, freeing room for held replies and resumed requests. -/
  | cyxRpCiWrite (dt : Nat) (master n value : Nat)
  /-- AUD_SNAP (R294). Writing AUD_SNAP.GO captures all TDM counters and fills in one Media cycle. -/
  | audSnap (dt : Nat) (master value : Nat)
  /-- AUD_CLK_WRITE (R301). A write to AUD_CLK enables, disables or changes the rate of the TDM clock set, stopping and restarting ports. -/
  | audClkWrite (dt : Nat) (master value : Nat)
  /-- TIM_SNAP (R390). Writing TIM_SNAP.GO captures the Chronograph count and fraction in one cycle. -/
  | timSnap (dt : Nat) (master value : Nat)
  /-- TIM_SET_GO (R391). Writing TIM_SET_GO loads TIM_SET into the count at once and sets O to 0, and the consumers follow as for a step. -/
  | timSetGo (dt : Nat) (master value : Nat)
  /-- TIM_PULSE_LOAD (R391). Writing TIM_PULSE_CTL.LOAD puts a pulse block's values in force at once. -/
  | timPulseLoad (dt : Nat) (master p value : Nat)
  /-- REF_CTL_FORCE_WRITE (R418). Setting or clearing REF_CTL.FORCE selects FORCE_ENTRY with capture, or returns selection to the normal pass. -/
  | refCtlForceWrite (dt : Nat) (master value : Nat)
  /-- MVW_CURRENT_WRITE (R321). A write to a current multiviewer register takes effect from the next band and counts MVW_DIRTY. -/
  | mvwCurrentWrite (dt : Nat) (master addr value : Nat)
  /-- ENC_ENG_EN_WRITE (R361). A write to ENC_ENG_EN disables a held engine, which is then lost, or enables a free one. -/
  | encEngEnWrite (dt : Nat) (master : Nat) (hi : Bool) (value : Nat)
  /-- TWN_LEASE_ARM (R429). Writing TWN_LEASE_ARM.GO arms the hardware lease timer from the mark, V and epoch. -/
  | twnLeaseArm (dt : Nat) (master value : Nat)
  /-- TWN_LEASE_DROP (R453). Writing TWN_LEASE_DROP ends the lease at once, and the card becomes FENCED. -/
  | twnLeaseDrop (dt : Nat) (master value : Nat)
  /-- PWR_DOM_EN_WRITE (R558). A write to PWR_DOM_EN turns domains on or off, cascading to the domains they require and raising PWR_CASCADE. -/
  | pwrDomEnWrite (dt : Nat) (master : Nat) (hi : Bool) (value : Nat)
  /-- DMC_PAT_GO (R514). Writing DMC_PAT_CTL.GO runs one pass of the channel's pattern engine and comparator. -/
  | dmcPatGo (dt : Nat) (master n value : Nat)
  /-- DMC_PAT_DONE (R514). A pattern-engine pass ends and sets DONE with the error counts. -/
  | dmcPatDone (dt : Nat) (n errors lanes : Nat)
  /-- MEM_SET_WRITE (R514). A write to MEM set or region fields changes decoding for the next transaction accepted. -/
  | memSetWrite (dt : Nat) (master addr value : Nat)
  /-- SKW_ERR_ADDR_HI_READ (R504). A read of SKW_ERR_ADDR_HI re-arms the capture of the next Skidway access error. -/
  | skwErrAddrHiRead (dt : Nat) (master : Nat)
  /-- FLT_INJECT (R532). A write of 1–6 to FLT_INJECT raises FLT_TEST of that class with its full reaction. -/
  | fltInject (dt : Nat) (master value : Nat)
  /-- CYXEL_FRAGMENT (R32). A Cyxel packet that is not the last fragment of a message, or that is discarded or refused before its opcode acts, is checked and reassembled or answered. -/
  | cyxelFragment (dt : Nat) (via : Transport) (bytes : List Byte) (pecOk : Bool)
  /-- REASSEMBLY_TIMEOUT (R33). A partial message that receives no fragment for 100 ms is abandoned and answered BAD_LENGTH. -/
  | reassemblyTimeout (dt : Nat) (via : Transport) (session : Nat)
  /-- SESSION_IDLE_TIMEOUT (R40). A session with no accepted packet for its idle timeout is closed. -/
  | sessionIdleTimeout (dt : Nat) (session : Nat)
  /-- SIDEBAND_BLOCK_READ (R36). A sideband block read with command code 0xC1 fetches the next reply or event fragment, or a count of 0. -/
  | sidebandBlockRead (dt : Nat)
  /-- SYS_NOP (R60). Echoes the payload with OK and changes nothing. -/
  | sysNop (dt : Nat) (rq : Req)
  /-- SYS_INFO (R61). Returns the 64-byte part identity and state. -/
  | sysInfo (dt : Nat) (rq : Req)
  /-- SYS_ALMANAC_READ (R58). Returns Almanac entries from a start index. -/
  | sysAlmanacRead (dt : Nat) (rq : Req)
  /-- SYS_RESET_UNIT (R555). Resets a unit instance, or power-cycles its domain, and clears its configuration. -/
  | sysResetUnit (dt : Nat) (rq : Req)
  /-- SYS_SESSION_OPEN (R41). Derives a session key from a Vault parent and opens an authenticated session. -/
  | sysSessionOpen (dt : Nat) (rq : Req)
  /-- SYS_SESSION_CLOSE (R62). Closes the session, discards its queued commands and frees its key slot. -/
  | sysSessionClose (dt : Nat) (rq : Req)
  /-- SYS_SUBSCRIBE (R56). Replaces the session's subscription to SYS_EVENT kinds. -/
  | sysSubscribe (dt : Nat) (rq : Req)
  /-- CRU_CHECK (R83). Evaluates a change list as a dry run and returns the summary. -/
  | cruCheck (dt : Nat) (rq : Req)
  /-- CRU_COMMIT (R83). Admits or refuses a change list whole and applies its entries together. -/
  | cruCommit (dt : Nat) (rq : Req)
  /-- CRU_REPORT (R85). Returns a kept Cruise report. -/
  | cruReport (dt : Nat) (rq : Req)
  /-- FAB_ROUTE (R116). Admits an immediate take of one output, applying at a Meridian. -/
  | fabRoute (dt : Nat) (rq : Req)
  /-- FAB_ROUTE_BATCH (R117). Admits up to 1 023 routes whole, each applying at its generator's next allowed Meridian. -/
  | fabRouteBatch (dt : Nat) (rq : Req)
  /-- FAB_BOND_DEFINE (R118). Defines or deletes a bond of 2, 4 or 8 full slots. -/
  | fabBondDefine (dt : Nat) (rq : Req)
  /-- FAB_QUERY (R119). Returns current and pending selections of output ports. -/
  | fabQuery (dt : Nat) (rq : Req)
  /-- FAB_WINDOW_STATUS (R120). Returns the arrival offsets and flags of sources at a generator. -/
  | fabWindowStatus (dt : Nat) (rq : Req)
  /-- FAB_SYNC_ASSIGN (R121). Assigns or releases a Landing channel or group for a source and generator. -/
  | fabSyncAssign (dt : Nat) (rq : Req)
  /-- EPH_SCHEDULE (R146). Stores a timed take of one route in the Ephemeris. -/
  | ephSchedule (dt : Nat) (rq : Req)
  /-- EPH_CANCEL (R141). Removes the parts of an Ephemeris entry that lie at least 200 µs ahead. -/
  | ephCancel (dt : Nat) (rq : Req)
  /-- EPH_LIST (R149). Returns Ephemeris entries in order of next application. -/
  | ephList (dt : Nat) (rq : Req)
  /-- EPH_SALVO (R147). Stores a salvo of routes with one target time. -/
  | ephSalvo (dt : Nat) (rq : Req)
  /-- EPH_GEN_CONFIG (R150). Sets a generator's rate, enable and default audio mode. -/
  | ephGenConfig (dt : Nat) (rq : Req)
  /-- LAN_CONFIG (R175). Programs a lane's mode, enables, precoding, equalisation and thresholds. -/
  | lanConfig (dt : Nat) (rq : Req)
  /-- LAN_STATUS (R177). Returns the status of a range of lanes. -/
  | lanStatus (dt : Nat) (rq : Req)
  /-- LAN_FOM (R178). Returns a lane's FOM and equaliser coefficients, optionally clearing the extremes. -/
  | lanFom (dt : Nat) (rq : Req)
  /-- LAN_SLEEP (R179). Sets the sleep states of the directions of a range of lanes. -/
  | lanSleep (dt : Nat) (rq : Req)
  /-- LAN_SLOTMASK (R208). Sets a Stave lane's quarter map, or a manual slot mask. -/
  | lanSlotmask (dt : Nat) (rq : Req)
  /-- NET_PORT_CONFIG (R241). Applies port mode, flow control, MACsec, management IP and module records as one change. -/
  | netPortConfig (dt : Nat) (rq : Req)
  /-- NET_FLOW_RX (R275). Creates a receive flow bound to a slot, audio channels or decoder. -/
  | netFlowRx (dt : Nat) (rq : Req)
  /-- NET_FLOW_TX (R276). Creates a send flow from an output slot or encoder. -/
  | netFlowTx (dt : Nat) (rq : Req)
  /-- NET_FLOW_DEL (R277). Deletes a flow, or its leg B, after the frame in progress. -/
  | netFlowDel (dt : Nat) (rq : Req)
  /-- NET_RING_SETUP (R242). Sets up a host ring or steering rule of a port. -/
  | netRingSetup (dt : Nat) (rq : Req)
  /-- NET_MODULE_INFO (R243). Returns a module's identity and life account. -/
  | netModuleInfo (dt : Nat) (rq : Req)
  /-- AUD_ROUTE (R297). Sets the source, gain and mode of audio sinks at a target sample. -/
  | audRoute (dt : Nat) (rq : Req)
  /-- AUD_PORT_CONFIG (R298). Applies TDM clock, port, slot sharing, tone and XDELAY records. -/
  | audPortConfig (dt : Nat) (rq : Req)
  /-- AUD_RATE_STATUS (R299). Returns measured audio rates. -/
  | audRateStatus (dt : Nat) (rq : Req)
  /-- MVW_HEAD_CONFIG (R324). Sets a head's format, generator, channel set and enable at a head Meridian. -/
  | mvwHeadConfig (dt : Nat) (rq : Req)
  /-- MVW_LAYER_SET (R327). Writes shadow layer and meter settings of a head. -/
  | mvwLayerSet (dt : Nat) (rq : Req)
  /-- MVW_COMMIT (R322). Admits the shadows of a set of heads to apply at their head Meridians. -/
  | mvwCommit (dt : Nat) (rq : Req)
  /-- MVW_GRAPHIC_LOAD (R329). Loads or deletes a graphic object or coefficient set by Yarder copy. -/
  | mvwGraphicLoad (dt : Nat) (rq : Req)
  /-- GRAPHIC_LOAD_DONE (R329). The Yarder copy of a graphic or coefficient set ends and is checked, giving COMPLETE or FAILED. -/
  | graphicLoadDone (dt : Nat)
  /-- ENC_CHANNEL_CREATE (R363). Creates an HEVC channel or JPEG XS encoder starting at frame F0. -/
  | encChannelCreate (dt : Nat) (rq : Req)
  /-- ENC_CHANNEL_DELETE (R364). Stops an encoder or decoder after its period or frame and frees its engines. -/
  | encChannelDelete (dt : Nat) (rq : Req)
  /-- ENC_RATE_SET (R365). Sets a new rate from the next allowed refresh period or frame. -/
  | encRateSet (dt : Nat) (rq : Req)
  /-- ENC_STATUS (R366). Returns the state and counters of an encoder or decoder. -/
  | encStatus (dt : Nat) (rq : Req)
  /-- ENC_XS_DECODE_CREATE (R367). Creates a JPEG XS decoder fed by a kind 2 receive flow. -/
  | encXsDecodeCreate (dt : Nat) (rq : Req)
  /-- TIM_DOMAIN_CONFIG (R386). Configures PTP domain A or B, or the transparent-clock relay. -/
  | timDomainConfig (dt : Nat) (rq : Req)
  /-- TIM_STATUS (R387). Returns Chronograph state, offsets and frequency. -/
  | timStatus (dt : Nat) (rq : Req)
  /-- TIM_PULSE_PROGRAM (R388). Programs a TP_OUT output. -/
  | timPulseProgram (dt : Nat) (rq : Req)
  /-- TIM_RESTEP (R379). Requests a Chronograph step at the next allowed whole second. -/
  | timRestep (dt : Nat) (rq : Req)
  /-- REF_TABLE_SET (R414). Loads the Heliostat priority table and mode. -/
  | refTableSet (dt : Nat) (rq : Req)
  /-- REF_STATUS (R415). Returns Heliostat and entry states. -/
  | refStatus (dt : Nat) (rq : Req)
  /-- REF_FRAMEPULSE (R416). Configures a frame-pulse or clock output. -/
  | refFramepulse (dt : Nat) (rq : Req)
  /-- TWN_CONFIG (R448). Enables or disables twin operation and sets side, pair, lanes and keys. -/
  | twnConfig (dt : Nat) (rq : Req)
  /-- TWN_STATUS (R449). Returns role, partner, lease and health state. -/
  | twnStatus (dt : Nat) (rq : Req)
  /-- TWN_LEASE_REQUEST (R450). Acquires, releases or reverts the lease. -/
  | twnLeaseRequest (dt : Nat) (rq : Req)
  /-- TWN_RESYNC (R451). Starts or aborts resynchronisation with the holder. -/
  | twnResync (dt : Nat) (rq : Req)
  /-- VLT_SLOT_STATUS (R478). Returns Vault slot records without keys. -/
  | vltSlotStatus (dt : Nat) (rq : Req)
  /-- VLT_DERIVE (R479). Derives a child key into a volatile slot. -/
  | vltDerive (dt : Nat) (rq : Req)
  /-- VLT_INVALIDATE (R467). Empties a slot, revokes every descendant and notifies the consumers. -/
  | vltInvalidate (dt : Nat) (rq : Req)
  /-- VLT_IMPORT (R470). Imports a plaintext, wrapped or PX6100 key into a slot. -/
  | vltImport (dt : Nat) (rq : Req)
  /-- VLT_LIFECYCLE (R482). Performs a life-cycle transition, key revocation or rollback-floor raise. -/
  | vltLifecycle (dt : Nat) (rq : Req) (fuses : Bool)
  /-- MEM_MAP_SET (R508). Defines or deletes DRAM channel sets and regions. -/
  | memMapSet (dt : Nat) (rq : Req)
  /-- MEM_PASR_SET (R509). Sets a channel set's PASR mask. -/
  | memPasrSet (dt : Nat) (rq : Req)
  /-- MEM_TRAIN (R510). Trains, tests or reports DRAM channels. -/
  | memTrain (dt : Nat) (rq : Req)
  /-- FLT_QUERY (R533). Returns uncleared event records. -/
  | fltQuery (dt : Nat) (rq : Req)
  /-- FLT_CLEAR (R534). Clears uncleared entries whose causes have ended. -/
  | fltClear (dt : Nat) (rq : Req)
  /-- FLT_HISTORY (R535). Returns the first-error record and the history. -/
  | fltHistory (dt : Nat) (rq : Req)
  /-- PWR_DOMAIN_SET (R552). Turns power domains on or off and sets wake configuration. -/
  | pwrDomainSet (dt : Nat) (rq : Req)
  /-- PWR_IDLE_TIMER (R553). Sets the idle timeouts of a range of domains. -/
  | pwrIdleTimer (dt : Nat) (rq : Req)
  /-- PWR_WAKE_RECORD (R554). Returns the wake record. -/
  | pwrWakeRecord (dt : Nat) (rq : Req)
  /-- UPD_BEGIN (R567). Opens an update of the bank not running and erases it. -/
  | updBegin (dt : Nat) (rq : Req)
  /-- UPD_DATA (R568). Programs the next bytes of the update bank. -/
  | updData (dt : Nat) (rq : Req)
  /-- UPD_COMMIT (R569). Verifies the update bank and marks it TRIAL, optionally activating it. -/
  | updCommit (dt : Nat) (rq : Req)
  /-- UPD_VERIFY_DONE (R569). Verification of a committed bank ends, setting it TRIAL or EMPTY and sending COMPLETE or FAILED. -/
  | updVerifyDone (dt : Nat)
  /-- UPD_STATUS (R570). Returns update and bank state. -/
  | updStatus (dt : Nat) (rq : Req)
  /-- MERIDIAN (R106). At a generator's Meridian, armed shadows become current selections, echoes clear and frame F begins on its outputs. -/
  | meridian (dt : Nat) (g : Nat)
  /-- EPH_LOADER_WRITE (R134). Between M0 − 100 µs and M0 − 5 µs, the loader writes due route records into shadows and sets ARM. -/
  | ephLoaderWrite (dt : Nat) (g : Nat)
  /-- LANDING_FRAME_SELECT (R113). At M0 − 15 µs, a Landing channel selects its newest complete frame, counting repeats and drops. -/
  | landingFrameSelect (dt : Nat) (chan : Nat)
  /-- OUTPUT_CELL_READ (R96). At each cell time, an output port reads the cell of its selected source from the Log deck. -/
  | outputCellRead (dt : Nat) (q line index type : Nat)
  /-- FABRIC_CELL_WRITE (R95). A writer delivers a cell; the fabric checks it and stores it in a Log deck buffer when any reader selects its source. -/
  | fabricCellWrite (dt : Nat) (w : Writer) (cell : List Byte)
  /-- CELL_AGE_EXPIRY (R97). A stored cell reaching 32 000 ns of residence is freed and counted in FAB_LD_EXPIRED. -/
  | cellAgeExpiry (dt : Nat)
  /-- SOURCE_NO_SIGNAL (R100). A source that has carried cells delivers no SOF for 2 frame periods, and NO_SIGNAL is raised. -/
  | sourceNoSignal (dt : Nat) (n : Nat) (quarter : Bool)
  /-- LDG_LOSS (R114). A Landing channel sees no SOF for 2 output frame periods and is handled as lost. -/
  | ldgLoss (dt : Nat) (chan : Nat)
  /-- STAVE_SUPERFRAME_START (R184). At S0, each Stave transmitter starts a superframe with its alignment block and header. -/
  | staveSuperframeStart (dt : Nat) (l : Nat)
  /-- STX_LAYOUT_LATCH (R192). At S0 − 1 µs, the transmitter latches the layout last put forward. -/
  | stxLayoutLatch (dt : Nat) (l : Nat)
  /-- STAVE_SUPERFRAME_RECEIVE (R187). A receiver takes a superframe's header, updates its layout, time and echo, and advances its receive state. -/
  | staveSuperframeReceive (dt : Nat) (l : Nat) (aligned : Bool) (copies : List (List Byte)) (frac corr cw uncorr : Nat)
  /-- STAVE_CELL_RECEIVE (R190). A receiver delivers a media cell to the fabric under its own slot, or discards it as a position error. -/
  | staveCellReceive (dt : Nat) (l n : Nat) (cell : List Byte) (lost : Bool)
  /-- MSG_CELL_RECEIVE (R201). A message cell is received, reassembled into its message and its credit returned. -/
  | msgCellReceive (dt : Nat) (l : Nat) (cell : List Byte) (lost : Bool)
  /-- FOM_WINDOW_END (R164). At the end of a 2^24-symbol window, the receiver updates its FOM, checks thresholds and may step the CTLE. -/
  | fomWindowEnd (dt : Nat) (l : Nat) (e : WindowCount) (move : Option Bool) (eq : Option (Nat × Nat)) (finished : Bool)
  /-- ADAPT_LMS_UPDATE (R166). Every 256 symbols, the FFE and DFE taps take a sign-sign LMS update. -/
  | adaptLmsUpdate (dt : Nat) (l : Nat) (signs : List Int) (dfe : Int)
  /-- SLEEP_TRANSITION_END (R171). A direction completes its sleep entry or exit, then acts on any held request. -/
  | sleepTransitionEnd (dt : Nat) (l : Nat) (tx : Bool)
  /-- LANE_SIGNAL_DETECT (R169). A sleeping receiver's signal detector asserts, and with WAKE_ON_SIG it wakes and raises WAKE_SIG. -/
  | laneSignalDetect (dt : Nat) (l : Nat)
  /-- LN_LOS (R174). The signal detector deasserts while awake, and the receiver goes DOWN. -/
  | lnLos (dt : Nat) (l : Nat)
  /-- LN_CDR_UNLOCK (R174). CDR lock is lost while signal is present. -/
  | lnCdrUnlock (dt : Nat) (l : Nat)
  /-- PLL_UNLOCK (R174). A quad PLL in use loses lock, and its transmitters idle until relock. -/
  | pllUnlock (dt : Nat) (quad : Nat) (b : Bool)
  /-- ETH_LINK_UP (R213). Training, FEC and PCS alignment finish, the port link comes up and COMPLETE is sent. -/
  | ethLinkUp (dt : Nat) (p : LinkTraining)
  /-- ETH_LINK_DOWN (R213). A port loses its link, and its queued frames are discarded. -/
  | ethLinkDown (dt : Nat) (p : Nat)
  /-- ETH_AN_FAIL (R213). A link not up within 5 s sends FAILED and raises ETH_AN_FAIL. -/
  | ethAnFail (dt : Nat) (p : Nat)
  /-- HOST_FRAME_RECEIVE (R224). A received frame that no flow or service claims is steered to a host ring and written back. -/
  | hostFrameReceive (dt : Nat) (p : Nat) (bytes : List Byte) (full : Bool)
  /-- MAC_FRAME_TRANSMIT (R219). A MAC starts the next frame from its queues in strict priority, within the launch-time guard of Q6. -/
  | macFrameTransmit (dt : Nat) (p : Nat) (starved : Bool)
  /-- PAUSE_FRAME_RECEIVE (R221). A PAUSE or PFC frame is counted and, by flow-control mode, stops queues. -/
  | pauseFrameReceive (dt : Nat) (p : Nat) (bytes : List Byte)
  /-- PAUSE_EXPIRY (R221). The pause time of a stopped queue elapses, and the queue resumes. -/
  | pauseExpiry (dt : Nat) (p q : Nat)
  /-- ETH_PAUSE_STORM (R222). A queue stopped for the watchdog time resumes, and pause frames are ignored for the hold. -/
  | ethPauseStorm (dt : Nat) (p q : Nat)
  /-- PAUSE_HOLD_EXPIRY (R222). The pause hold ends, and the port honours pause frames again. -/
  | pauseHoldExpiry (dt : Nat) (p q : Nat)
  /-- MGT_SERVICE_FRAME (R233). Ranger firmware answers ARP and ICMP echo on a management port. -/
  | mgtServiceFrame (dt : Nat) (m : Nat) (bytes : List Byte)
  /-- MODULE_POLL (R235). Every 1 s, the part polls each module bus, detecting insertion, removal and identity. -/
  | modulePoll (dt : Nat) (reads : List ModuleRead)
  /-- MODULE_HOLD_EXPIRY (R235). After 5 s of HOLD, the part runs one poll cycle. -/
  | moduleHoldExpiry (dt : Nat) (reads : List ModuleRead)
  /-- MODULE_LIFE_SAMPLE (R237). Every 60 s, the part samples module temperature and laser state and accrues life. -/
  | moduleLifeSample (dt : Nat) (samples : List (Nat × Int × Bool × Nat))
  /-- MODULE_ACCOUNT_WRITE (R239). Each hour and at removal, the part writes module accounts to the settings store. -/
  | moduleAccountWrite (dt : Nat)
  /-- FLOW_PACKET_RECEIVE (R256). A packet of a receive flow is accepted, merged by sequence, or discarded as early, late, duplicate or bad. -/
  | flowPacketReceive (dt : Nat) (p : Nat) (bytes : List Byte) (full : Bool) (given : Given)
  /-- FLOW_LINE_RELEASE (R255). At a line's release time, the engine writes its cells into the target slot. -/
  | flowLineRelease (dt : Nat) (f : Nat)
  /-- FLOW_LOSS (R260). No packet is accepted for 2 frame periods or 8 packet times, and the slot delivers slot-idle. -/
  | flowLoss (dt : Nat) (f : Nat)
  /-- FLOW_PACKET_LAUNCH (R264). At a send packet's launch time, the engine builds it and queues it in Q6. -/
  | flowPacketLaunch (dt : Nat) (f : Nat)
  /-- TX_BEHIND (R267). A packet still waiting 40 000 ns after its launch time is discarded and counted SKIP. -/
  | txBehind (dt : Nat) (f : Nat)
  /-- MEMBERSHIP_QUERY_RECEIVE (R253). Ranger firmware answers an IGMP or MLD query, or a neighbour solicitation, for a flow leg. -/
  | membershipQueryReceive (dt : Nat) (p : Nat) (bytes : List Byte)
  /-- MEMBERSHIP_REPORT_SEND (R253). Ranger firmware sends the unsolicited membership reports of a new receive leg, 1 s apart. -/
  | membershipReportSend (dt : Nat) (f leg : Nat)
  /-- AUDIO_SAMPLE_EVALUATE (R282). At each evaluation instant, the crosspoint computes sample k of every sink with gain and ramps. -/
  | audioSampleEvaluate (dt : Nat) (rate96 : Bool) (k : Nat)
  /-- TDM_FRAME (R291). At each FCLK frame, TDM ports move a frame between pins and FIFOs. -/
  | tdmFrame (dt : Nat) (sdi : List (List Int)) (bclks : Nat)
  /-- AUD_CLK_LOSS (R291). No FCLK arrives for 1 ms in SLAVE mode, and the ports stop. -/
  | audClkLoss (dt : Nat)
  /-- TDM_CLOCK_STOP (R292). The clocks stop 64 frames after the last port has stopped. -/
  | tdmClockStop (dt : Nat)
  /-- AUDIO_RATE_MEASURE (R295). Every second, the part sets each source's rate class and offset and raises rate events. -/
  | audioRateMeasure (dt : Nat) (groups : List (Nat × Nat))
  /-- HEAD_MERIDIAN (R303). At the head Meridian, a head applies any commit, selects layer frames and computes the Canopy map. -/
  | headMeridian (dt : Nat) (h : Nat)
  /-- BAND_START (R304). A band starts composition at its window start, or when the previous band finishes. -/
  | bandStart (dt : Nat) (h : Nat)
  /-- BAND_COMPLETE (R304). A band's composition finishes into the output store. -/
  | bandComplete (dt : Nat) (h : Nat)
  /-- HEAD_ROW_EMIT (R304). A composed row leaves the store into cells, or is missed and counts BAND_OVERRUN. -/
  | headRowEmit (dt : Nat) (h : Nat)
  /-- LAYER_SOF_WRITE (R312). At a source SOF, the writer begins scaling into the free window buffer, or skips the frame. -/
  | layerSofWrite (dt : Nat) (h l : Nat)
  /-- ENC_ROW_DUE (R342). At A(r), the part fixes a CTU row's allocation and QP and its team starts coding. -/
  | encRowDue (dt : Nat) (h : Nat)
  /-- ENC_ROW_CODED (R336). A team finishes coding a row, and the lead writes the slice segment. -/
  | encRowCoded (dt : Nat) (h r : Nat)
  /-- ENC_DEADLINE (R359). At the cutoff, uncoded CTUs are coded in minimum mode and the row counts LATE. -/
  | encDeadline (dt : Nat) (h r coded : Nat)
  /-- ENC_PACKET_LAUNCH (R343). A packet of a coded row launches at its fixed time. -/
  | encPacketLaunch (dt : Nat) (h : Nat)
  /-- ENC_REFRESH_PERIOD_START (R360). At a refresh period start, the budget is set and lost engines are replaced. -/
  | encRefreshPeriodStart (dt : Nat) (h : Nat)
  /-- XS_SLICE_EMIT (R353). A JPEG XS slice is emitted at its fixed delay, padded to its share. -/
  | xsSliceEmit (dt : Nat) (h : Nat)
  /-- XS_SLICE_LOST (R354). A decoder slice without data at its deadline is decoded with zero coefficients. -/
  | xsSliceLost (dt : Nat) (d : Nat)
  /-- PTP_SYNC_RECEIVE (R373). A Sync of a domain is timestamped, θ is formed, and the loop or slew acts on it. -/
  | ptpSyncReceive (dt : Nat) (p : Nat) (bytes : List Byte) (freq : Option Int)
  /-- PTP_ANNOUNCE_RECEIVE (R372). An Announce is received, and BMCA selects the domain's master. -/
  | ptpAnnounceReceive (dt : Nat) (p : Nat) (bytes : List Byte)
  /-- PTP_DELAY_RESP_RECEIVE (R373). A delay response updates the mean path delay. -/
  | ptpDelayRespReceive (dt : Nat) (p : Nat) (bytes : List Byte)
  /-- PTP_DELAY_REQ_SEND (R372). A Delay_Req or Pdelay_Req is sent at the master's interval. -/
  | ptpDelayReqSend (dt : Nat) (target port : Nat)
  /-- PTP_PDELAY_REQ_RECEIVE (R372). A Pdelay_Req is answered in P2P mode. -/
  | ptpPdelayReqReceive (dt : Nat) (p : Nat) (bytes : List Byte)
  /-- TIM_PTP_LOSS (R372). Syncs are missing for 3 intervals or Announce times out, and TIM_PTP_LOSS is raised. -/
  | timPtpLoss (dt : Nat) (d : Nat)
  /-- TIM_SECOND_TICK (R374). Each second, the Chronograph checks domain split, retires the bias and records y means. -/
  | timSecondTick (dt : Nat)
  /-- CHRONOGRAPH_STEP (R376). At the step tick, the count is stepped by the filtered θ, O is set to 0 and TIM_STEP is raised. -/
  | chronographStep (dt : Nat)
  /-- TC_RELAY_FORWARD (R381). The relay forwards a PTP message between its ports, adding residence to correctionField. -/
  | tcRelayForward (dt : Nat) (p : Nat) (bytes : List Byte) (residence : List Nat)
  /-- TIME_PULSE_EDGE (R382). A TP_OUT pulse asserts at its programmed instant and ends after its width. -/
  | timePulseEdge (dt : Nat) (p : Nat)
  /-- REF_SELECTION_PASS (R398). Each millisecond, the Heliostat drops, selects or keeps inputs, or enters holdover. -/
  | refSelectionPass (dt : Nat)
  /-- REF_PULSE_ARRIVAL (R392). An F or PPS pulse arrives and gives a phase sample. -/
  | refPulseArrival (dt : Nat) (input h : Nat) (freq : Option Int)
  /-- REF_QUALIFIED (R397). An input stays valid for REF_QUAL.S seconds and qualifies. -/
  | refQualified (dt : Nat) (e : Nat)
  /-- REF_LOSS (R397). Three expected events of an input are missing, and its activity is lost. -/
  | refLoss (dt : Nat) (e : Nat)
  /-- FRAME_PULSE_EDGE (R409). An FP_OUT pulse asserts at its predicted source phase plus ρ. -/
  | framePulseEdge (dt : Nat) (p : Nat)
  /-- HEARTBEAT_SEND (R424). A HEARTBEAT is sent on each UP partner lane at every even superframe. -/
  | heartbeatSend (dt : Nat)
  /-- HEARTBEAT_INTERVAL_END (R425). A 250 µs interval ends, and the partner state advances on valid or missed heartbeats. -/
  | heartbeatIntervalEnd (dt : Nat)
  /-- HEARTBEAT_RECEIVE (R425). A partner heartbeat is checked and accepted. -/
  | heartbeatReceive (dt : Nat) (bytes : List Byte)
  /-- ROWS_RECEIVE (R356). The follower compares row hashes and sets DIVERGED or withholds rows. -/
  | rowsReceive (dt : Nat) (bytes : List Byte)
  /-- OUTHASH_SEND (R442). Within 1 ms after a Meridian, the holder sends its output hashes. -/
  | outhashSend (dt : Nat) (g : Nat)
  /-- OUTHASH_RECEIVE (R442). A comparing card checks output hashes and counts divergences. -/
  | outhashReceive (dt : Nat) (bytes : List Byte)
  /-- HEALTH_SEND (R443). Each whole second, a card sends a HEALTH message. -/
  | healthSend (dt : Nat)
  /-- HEALTH_RECEIVE (R443). A card keeps the partner's last HEALTH message. -/
  | healthReceive (dt : Nat) (bytes : List Byte)
  /-- SNAPSHOT_RECEIVE (R446). A SNAPSHOT request or segment is handled, and the snapshot is applied when complete. -/
  | snapshotReceive (dt : Nat) (bytes : List Byte) (seg : SnapPart)
  /-- REVERT_RECEIVE (R441). A non-home holder receiving REVERT completes its command and releases the lease. -/
  | revertReceive (dt : Nat) (bytes : List Byte)
  /-- REVERT_HOLDOFF_EXPIRY (R441). The home card meets the revert conditions for the hold-off and sends REVERT. -/
  | revertHoldoffExpiry (dt : Nat)
  /-- TWIN_GEN_GAP (R436). A higher pair generation is reported for 2 ms, and resynchronisation starts. -/
  | twinGenGap (dt : Nat)
  /-- RESYNC_CONVERGE_END (R445). After 1 s of matching hashes, the card becomes SYNCED. -/
  | resyncConvergeEnd (dt : Nat)
  /-- TWIN_RESYNC_FAIL (R445). Resynchronisation exceeds 60 s and fails. -/
  | twinResyncFail (dt : Nat)
  /-- RESYNC_RETRY (R445). 10 s after a failure with AUTO_RESYNC, resynchronisation restarts. -/
  | resyncRetry (dt : Nat)
  /-- LOOKOUT_REQUEST_SEND (R428). The card sends REQUEST, RENEW or a retry to the Lookout on its schedule. -/
  | lookoutRequestSend (dt : Nat)
  /-- LOOKOUT_REPLY_RECEIVE (R429). A valid GRANT, DENY or RELEASED arms the lease or changes the role. -/
  | lookoutReplyReceive (dt : Nat) (bytes : List Byte)
  /-- LEASE_EXPIRY (R429). The hardware lease timer reaches its expiry, the lease ends and the gates apply. -/
  | leaseExpiry (dt : Nat)
  /-- LKO_FENCE_LOW (R432). LKO_FENCE_N low for 100 ns ends the lease and fences the card. -/
  | lkoFenceLow (dt : Nat)
  /-- BIST_TEST_START (R444). An idle engine or DRAM block starts its background self-test. -/
  | bistTestStart (dt : Nat) (kind n : Nat)
  /-- BIST_TEST_DONE (R444). A self-test ends, passing or raising TWIN_SELFTEST_FAIL. -/
  | bistTestDone (dt : Nat) (kind n : Nat) (pass : Bool)
  /-- VAULT_POWER_UP (R458). When PD57 powers up, the Vault runs self-tests, forms roots and keys and loads OTP slots. -/
  | vaultPowerUp (dt : Nat) (tests puf : Bool) (bad : List Nat)
  /-- VAULT_SCRUB (R460). Every 100 ms, the Vault checks the integrity tag of every slot. -/
  | vaultScrub (dt : Nat) (hits : List Nat)
  /-- VLT_TRNG_FAIL (R459). A continuous health test fails, and no random values are handed out. -/
  | vltTrngFail (dt : Nat)
  /-- TRNG_RETRY (R459). Every 1 s, the generator retries its start-up tests. -/
  | trngRetry (dt : Nat) (pass : Bool)
  /-- REVOKE_SWEEP (R467). After invalidation, the sweep zeroises each descendant and raises VLT_REVOKED. -/
  | revokeSweep (dt : Nat)
  /-- DRAM_TRAINING (R494). When a DRAM group turns on, its channels train in parallel and the group becomes READY. -/
  | dramTraining (dt : Nat) (g : Nat) (dens : List (Nat × Nat)) (res : List (Nat × Nat × Nat × Nat × Nat))
  /-- DRAM_TRACKING (R495). Every 250 ms, each controller measures WCK-to-DQ drift and corrects delay. -/
  | dramTracking (dt : Nat) (n : Nat) (drift : Int)
  /-- DRAM_REFRESH_CHECK (R495). Every 32 ms, the controller reads the device refresh rate and scales its refresh. -/
  | dramRefreshCheck (dt : Nat) (n rate : Nat)
  /-- SKIDWAY_TRANSACTION (R500). A master's burst or register access is arbitrated, decoded and served by its target. -/
  | skidwayTransaction (dt : Nat) (master id addr len : Nat) (data : Option (List Byte)) (fin : BurstEnd)
  /-- MASTER_RESET_DRAIN (R505). A reset master's outstanding bursts complete and drain before its ready rises. -/
  | masterResetDrain (dt : Nat) (m : Nat)
  /-- CDR_LOCK (R168). A receiver's CDR acquires lock on the incoming signal, after which adaptation runs and the receiver can become READY. -/
  | cdrLock (dt : Nat) (l : Nat)
  /-- PLL_LOCK (R174). A quad transmit PLL reaches lock after a start or restart, and its transmitters become READY and leave idle. -/
  | pllLock (dt : Nat) (quad : Nat) (b : Bool)
  /-- MGT_LINK_DOWN (R240). The SGMII link of a management port is lost, and MGT_LINK_DOWN is raised. -/
  | mgtLinkDown (dt : Nat) (m : Nat)
  /-- MGT_LINK_UP (R240). The SGMII link of a management port comes up, ending MGT_LINK_DOWN and enabling Cyxel on UDP. -/
  | mgtLinkUp (dt : Nat) (m : Nat)
  /-- PTP_FOLLOW_UP_RECEIVE (R372). A Follow_Up message of a two-step Sync is received, its t1 is taken, and θ is formed for that Sync. -/
  | ptpFollowUpReceive (dt : Nat) (p : Nat) (bytes : List Byte) (freq : Option Int)
  /-- CLK10M_PHASE_DETECTOR (R392). At the end of each 1 ms phase-detector period of CLK10M_IN, a frequency sample is formed and the loop acts on it when the input is selected. -/
  | clk10mPhaseDetector (dt : Nat) (phase : Int) (freq : Option Int)
  /-- ETH_FEC_DEGRADE (R240). At the end of each second, a port's count of uncorrectable codewords is compared with NET_FECTH.CW, and ETH_FEC_DEGRADE is raised when the count exceeds it. -/
  | ethFecDegrade (dt : Nat) (p codewords : Nat)
  /-- MIRROR_REPLY_RECEIVE (R437). The holder receives a non-holder's answer to a mirrored packet on session 0xFFFF and counts any status other than OK or ACCEPTED_PENDING. -/
  | mirrorReplyReceive (dt : Nat) (bytes : List Byte)
  /-- MEM_TRAIN_DONE (R510). A MEM_TRAIN run, or its TEST pass of the stated length, finishes; COMPLETE or FAILED is sent, and passing channels leave FAILED. -/
  | memTrainDone (dt : Nat) (res : List (Nat × Nat × Nat × Nat × Nat))
  /-- UNIT_READY (R564). A unit without microcode finishes initialising after its domain turns on or its reset ends, reports READY in the Almanac, and a READY event and any pending COMPLETE follow. -/
  | unitReady (dt : Nat) (cap n : Nat)
  /-- WATCHDOG_EXPIRY (R532). A ranger-core, host-core or block-controller watchdog expires, and RANGER_WDOG, HOST_WDOG or a block isolation follows. -/
  | watchdogExpiry (dt : Nat) (dog : Watchdog)
  /-- BLOCK_ISOLATES_ITSELF (R518). A cell or block meets an uncorrectable error in its own state, applies its Firebreak clamps, reports READY 0 and raises UNIT_LOST or UNIT_ISOLATED. -/
  | blockIsolatesItself (dt : Nat) (src : Nat) (whole : Bool)
  /-- LKO_FENCE_HIGH (R432). LKO_FENCE_N returns high: TWIN_FENCE_PIN ends, the lease timer may be armed again, and Lookout requests resume. -/
  | lkoFenceHigh (dt : Nat)
  deriving DecidableEq, Repr

end Sys2Proof
end

