-- ==== Sys2Proof/Decode.lean ====
section
/-!
DEFINITION. Commands from the bits of the opcode table. The table gives its rows no bits: the block is driven by
steps that the spec's text names, whose operands are structured, so no word spells a command.
-/
namespace Sys2Proof

/-- The command that a word of the opcode table's bits spells: none, since no row of the table has bits. -/
def decodeTableWord (_nbits _w : Nat) : Option Instr := none

end Sys2Proof
end

