-- ==== Sys2Proof/Machine/Lanczos.lean ====
section
/-!
DEFINITION. Coefficient set 0 of the multiviewer (R310): the Lanczos formula of the rule, rounded, with the difference of
each phase from 1 024 added to its largest tap. 64 phases of 8 horizontal and of 6 vertical taps, phase-major.
-/
namespace Sys2Proof.Machine

/-- Phases 0 to 15 of the 8-tap set 0 (R310). -/
def lanczos8a : List Int :=
  [0, 0, 0, 1024, 0, 0, 0, 0,
   -2, 5, -14, 1023, 15, -5, 2, 0,
   -3, 10, -28, 1022, 30, -10, 3, 0,
   -4, 15, -41, 1019, 46, -16, 5, 0,
   -6, 19, -53, 1017, 62, -22, 7, 0,
   -7, 23, -65, 1012, 79, -27, 9, 0,
   -8, 27, -76, 1008, 96, -33, 11, -1,
   -9, 31, -87, 1003, 113, -39, 13, -1,
   -10, 35, -97, 995, 132, -45, 15, -1,
   -11, 38, -106, 988, 150, -51, 17, -1,
   -12, 42, -115, 980, 169, -57, 19, -2,
   -13, 45, -124, 972, 188, -63, 21, -2,
   -14, 48, -131, 961, 208, -69, 23, -2,
   -14, 50, -138, 951, 228, -76, 26, -3,
   -15, 53, -145, 940, 248, -82, 28, -3,
   -15, 55, -151, 928, 269, -88, 30, -4]

/-- Phases 16 to 31 of the 8-tap set 0 (R310). -/
def lanczos8b : List Int :=
  [-15, 57, -156, 914, 290, -94, 32, -4,
   -16, 59, -161, 902, 311, -100, 34, -5,
   -16, 60, -165, 887, 332, -106, 37, -5,
   -16, 61, -169, 873, 354, -112, 39, -6,
   -16, 63, -172, 857, 375, -118, 41, -6,
   -16, 64, -174, 840, 397, -123, 43, -7,
   -16, 64, -176, 824, 419, -129, 45, -7,
   -16, 65, -178, 807, 441, -134, 47, -8,
   -16, 65, -179, 789, 463, -139, 49, -8,
   -16, 65, -179, 771, 485, -144, 51, -9,
   -15, 65, -179, 752, 506, -148, 53, -10,
   -15, 65, -179, 734, 528, -153, 54, -10,
   -15, 65, -178, 714, 550, -157, 56, -11,
   -14, 64, -177, 693, 572, -161, 58, -11,
   -14, 63, -175, 674, 593, -164, 59, -12,
   -13, 62, -173, 654, 614, -168, 60, -12]

/-- Phases 32 to 47 of the 8-tap set 0 (R310). -/
def lanczos8c : List Int :=
  [-13, 61, -170, 633, 635, -170, 61, -13,
   -12, 60, -168, 614, 654, -173, 62, -13,
   -12, 59, -164, 593, 674, -175, 63, -14,
   -11, 58, -161, 572, 693, -177, 64, -14,
   -11, 56, -157, 550, 714, -178, 65, -15,
   -10, 54, -153, 528, 734, -179, 65, -15,
   -10, 53, -148, 506, 752, -179, 65, -15,
   -9, 51, -144, 485, 771, -179, 65, -16,
   -8, 49, -139, 463, 789, -179, 65, -16,
   -8, 47, -134, 441, 807, -178, 65, -16,
   -7, 45, -129, 419, 824, -176, 64, -16,
   -7, 43, -123, 397, 840, -174, 64, -16,
   -6, 41, -118, 375, 857, -172, 63, -16,
   -6, 39, -112, 354, 873, -169, 61, -16,
   -5, 37, -106, 332, 887, -165, 60, -16,
   -5, 34, -100, 311, 902, -161, 59, -16]

/-- Phases 48 to 63 of the 8-tap set 0 (R310). -/
def lanczos8d : List Int :=
  [-4, 32, -94, 290, 914, -156, 57, -15,
   -4, 30, -88, 269, 928, -151, 55, -15,
   -3, 28, -82, 248, 940, -145, 53, -15,
   -3, 26, -76, 228, 951, -138, 50, -14,
   -2, 23, -69, 208, 961, -131, 48, -14,
   -2, 21, -63, 188, 972, -124, 45, -13,
   -2, 19, -57, 169, 980, -115, 42, -12,
   -1, 17, -51, 150, 988, -106, 38, -11,
   -1, 15, -45, 132, 995, -97, 35, -10,
   -1, 13, -39, 113, 1003, -87, 31, -9,
   -1, 11, -33, 96, 1008, -76, 27, -8,
   0, 9, -27, 79, 1012, -65, 23, -7,
   0, 7, -22, 62, 1017, -53, 19, -6,
   0, 5, -16, 46, 1019, -41, 15, -4,
   0, 3, -10, 30, 1022, -28, 10, -3,
   0, 2, -5, 15, 1023, -14, 5, -2]

/-- The 8-tap set 0 (R310). -/
def lanczos8 : List Int := lanczos8a ++ lanczos8b ++ lanczos8c ++ lanczos8d

/-- Phases 0 to 15 of the 6-tap set 0 (R310). -/
def lanczos6a : List Int :=
  [0, 0, 1024, 0, 0, 0,
   3, -13, 1023, 14, -3, 0,
   6, -25, 1022, 28, -7, 0,
   9, -37, 1021, 42, -11, 0,
   12, -48, 1018, 57, -15, 0,
   14, -59, 1014, 73, -19, 1,
   17, -69, 1009, 89, -23, 1,
   19, -78, 1003, 106, -27, 1,
   21, -87, 996, 123, -31, 2,
   23, -95, 989, 141, -36, 2,
   24, -103, 981, 159, -40, 3,
   26, -110, 971, 178, -45, 4,
   27, -116, 962, 197, -50, 4,
   28, -122, 952, 216, -55, 5,
   29, -127, 940, 236, -60, 6,
   30, -132, 927, 256, -64, 7]

/-- Phases 16 to 31 of the 6-tap set 0 (R310). -/
def lanczos6b : List Int :=
  [31, -136, 913, 277, -69, 8,
   31, -140, 902, 297, -74, 8,
   32, -143, 887, 318, -79, 9,
   32, -145, 871, 340, -84, 10,
   32, -147, 855, 361, -89, 12,
   32, -149, 839, 383, -94, 13,
   32, -150, 823, 404, -99, 14,
   31, -151, 806, 426, -103, 15,
   31, -151, 788, 448, -108, 16,
   31, -151, 769, 470, -112, 17,
   30, -150, 751, 492, -117, 18,
   29, -149, 732, 514, -121, 19,
   29, -147, 710, 536, -125, 21,
   28, -146, 691, 558, -129, 22,
   27, -144, 670, 580, -132, 23,
   26, -141, 649, 601, -135, 24]

/-- Phases 32 to 47 of the 6-tap set 0 (R310). -/
def lanczos6c : List Int :=
  [25, -138, 627, 623, -138, 25,
   24, -135, 601, 649, -141, 26,
   23, -132, 580, 670, -144, 27,
   22, -129, 558, 691, -146, 28,
   21, -125, 536, 710, -147, 29,
   19, -121, 514, 732, -149, 29,
   18, -117, 492, 751, -150, 30,
   17, -112, 470, 769, -151, 31,
   16, -108, 448, 788, -151, 31,
   15, -103, 426, 806, -151, 31,
   14, -99, 404, 823, -150, 32,
   13, -94, 383, 839, -149, 32,
   12, -89, 361, 855, -147, 32,
   10, -84, 340, 871, -145, 32,
   9, -79, 318, 887, -143, 32,
   8, -74, 297, 902, -140, 31]

/-- Phases 48 to 63 of the 6-tap set 0 (R310). -/
def lanczos6d : List Int :=
  [8, -69, 277, 913, -136, 31,
   7, -64, 256, 927, -132, 30,
   6, -60, 236, 940, -127, 29,
   5, -55, 216, 952, -122, 28,
   4, -50, 197, 962, -116, 27,
   4, -45, 178, 971, -110, 26,
   3, -40, 159, 981, -103, 24,
   2, -36, 141, 989, -95, 23,
   2, -31, 123, 996, -87, 21,
   1, -27, 106, 1003, -78, 19,
   1, -23, 89, 1009, -69, 17,
   1, -19, 73, 1014, -59, 14,
   0, -15, 57, 1018, -48, 12,
   0, -11, 42, 1021, -37, 9,
   0, -7, 28, 1022, -25, 6,
   0, -3, 14, 1023, -13, 3]

/-- The 6-tap set 0 (R310). -/
def lanczos6 : List Int := lanczos6a ++ lanczos6b ++ lanczos6c ++ lanczos6d

end Sys2Proof.Machine
end

