-- ==== Sys2Proof/Config.lean ====
section
/-!
DEFINITION. What an implementation fixes and what the spec leaves open, as constants without a body: the ciphers,
hashes and signatures that the spec names but does not define, and the free values. No proof can see a value of
them, so every claim holds for all of them.
-/
namespace Sys2Proof.Config

/-- AES-256-CMAC of a message under a key (R30): the standard's function, not restated by the spec. -/
opaque cmac : Key → List Byte → Tag128

/-- SHA-256 of a byte string. -/
opaque sha256 : List Byte → BitVec 256

/-- AES key unwrap (RFC 3394) of 40 bytes under a key: the key, or none when the integrity value fails (R470). -/
opaque unwrap : Key → List Byte → Option Key

/-- ECDSA P-384 verification over SHA-384: public key, signature, message (R471). -/
opaque verifyImage : List Byte → List Byte → List Byte → Bool

/-- SHA-384 of a public key, as the firmware key hashes of OTP hold it. -/
opaque keyHash : List Byte → BitVec 384

/-- The firmware key hash that OTP holds under an index 0-3. -/
opaque otpKeyHash : Nat → BitVec 384

/-- The test root of the silicon revision (R612). -/
opaque testRoot : Key

/-- The development root of the silicon revision (R612). -/
opaque developmentRoot : Key

/-- The PUF key that the Vault reconstructs (R457). -/
opaque pufKey : Key

/-- The fuse seed (R457). -/
opaque fuseSeed : Key

/-- Fresh random 128-bit values from the Vault, by the number of values drawn so far. -/
opaque freshNonce : Nat → Tag128

/-- Fresh random keys. -/
opaque freshKey : Nat → Key

/-- GCM-AES-XPN-256 protection (R228): key, IV of SSCI, packet number and salt, additional data, plaintext; ciphertext
with its ICV. The cipher is the standard's, not restated by the spec. -/
opaque gcmSeal : Key → List Byte → List Byte → List Byte → List Byte

/-- The inverse of `gcmSeal`: the plaintext, or none when the ICV check fails. -/
opaque gcmOpen : Key → List Byte → List Byte → List Byte → Option (List Byte)

/-- AEAD_AES_256_GCM protection of an SRTP packet (R270): master key, master salt, packet index, RTP header, payload;
the protected payload with its 16-byte tag. -/
opaque srtpSeal : Key → List Byte → Nat → List Byte → List Byte → List Byte

/-- The base MAC address of OTP is this value times 128 (R214). -/
opaque otpMacBase : BitVec 41

/-- The MAC address at which a management port reaches an IPv4 address of its network: ARP finds it, and the spec does not state how (log
entry 105). -/
opaque neighbour : Nat → Nat → BitVec 48

/-- FREE VALUE. The bit rate of the JPEG XS codestream that a receive flow of kind 2 is charged, by its declared format: width, height,
rate N and D, sampling. No field of the flow and no rule states it (R79, log entry 35). -/
opaque xsReceiveRate (width height n d sampling : Nat) : Nat

/-- Do the bytes of a JPEG XS slice hold it whole; and a line period of a picture as it is decoded from the slices that are there, each as
slice, packet and bytes, with zero coefficients for every precinct that is missing: width, height, interlaced, 4:4:4. ISO/IEC 21122 defines
both (R354). -/
opaque xsWhole (width height : Nat) (interlaced s444 : Bool) (slice : List Byte) : Bool
opaque xsLine (width height : Nat) (interlaced s444 : Bool) (data : List (Nat × Nat × List Byte)) (line : Nat) : List Byte

/-- The JPEG XS level code of a format and rate: codec, width, height, rate N and D, bit rate (ISO/IEC 21122-2). -/
opaque xsLevel (codec width height n d rate : Nat) : Nat

/-- The ANC data packets that an ST 2110-40 sender makes of the X cells of a packet, in the order of their emission, and how many they are: RFC
8331 defines their bits, and the spec does not state how an X cell holds its ancillary packets (R93, R263). -/
opaque ancData (cells : List (List Byte)) : List Byte
opaque ancCount (cells : List (List Byte)) : BitVec 8

/-- What follows the RTP header in packet `index` of a frame of a kind 6 send flow: the HBRMT header and 1 376 bytes of the SDI raster of rate
`n / d` that is rebuilt from the cells of the frame, each with its kind (0 V, 1 A, 2 X), line period, offset and bytes, in the order of their
emission (R249). ST 2022-6 and the SDI standards define its bits, and the spec does not restate them. -/
opaque sdiPacket (n d frame index : Nat) (cells : List (Nat × Nat × Nat × List Byte)) : List Byte

/-- FREE VALUE. The SSRC of a send flow, by its index: the spec gives no field that sets it (R262). -/
opaque flowSsrc : Nat → BitVec 32

/-- FREE VALUE. A word that the spec leaves undefined, by the number of free values taken so far. -/
opaque freeWord : Nat → BitVec 32

/-- FREE VALUE. A DRAM byte whose contents were lost or lie under a key that is gone, by the number of the loss and its place
(R474, R497). -/
opaque lostByte : Nat → Nat → Byte

/-- FREE VALUE. The body of the SNAPSHOT message of a pair generation: R446 says what a snapshot holds, not how it is laid out. -/
opaque snapshotBody : Nat → List Byte

/-- The VDD_CORE target that OTP holds for the part's speed grade, in steps of 5 mV above 0.65 V (R598). -/
opaque otpCoreTarget : BitVec 5

/-- The serial number that OTP holds (SYS_INFO). -/
opaque otpSerial : BitVec 64

/-- A byte of the boot ROM: the spec does not give its contents. -/
opaque romByte : Nat → Byte

/-- What an indirect register access of a ranger core reads at a table word: the spec gives the tables no layout. -/
opaque indirectWord : Nat → Nat → BitVec 32

end Sys2Proof.Config
end

