-- ==== Sys2Proof/Machine/Operands.lean ====
section
/-!
DEFINITION. Reading and writing the fields of packets and payloads (R51: network byte order, fields at their stated
offsets, never aligned), the common field types of Table 2.12, and the three check codes of the part:
CRC-32C (R29), CRC-8 and CRC-64.
-/
namespace Sys2Proof.Machine

/-- Byte `o` of a payload; past its end, 0. -/
def u8 (p : List Byte) (o : Nat) : Nat := (p.getD o 0).toNat

/-- The 16-bit field at offset `o`. -/
def u16 (p : List Byte) (o : Nat) : Nat := u8 p o * 256 + u8 p (o + 1)

/-- The 24-bit field at offset `o`. -/
def u24 (p : List Byte) (o : Nat) : Nat := u16 p o * 256 + u8 p (o + 2)

/-- The 32-bit field at offset `o`. -/
def u32 (p : List Byte) (o : Nat) : Nat := u16 p o * 65536 + u16 p (o + 2)

/-- The 48-bit field at offset `o`. -/
def u48 (p : List Byte) (o : Nat) : Nat := u16 p o * 2 ^ 32 + u32 p (o + 2)

/-- The 64-bit field at offset `o`. -/
def u64 (p : List Byte) (o : Nat) : Nat := u32 p o * 2 ^ 32 + u32 p (o + 4)

/-- The `n` bytes from offset `o`. -/
def bytesAt (p : List Byte) (o n : Nat) : List Byte := (p.drop o).take n

/-- The `n` bytes from offset `o` as one number, most significant byte first. -/
def beNat (p : List Byte) : Nat := p.foldl (fun a b => a * 256 + b.toNat) 0

/-- Are the `n` bytes from offset `o` all zero (reserved fields, R51)? -/
def zeroAt (p : List Byte) (o n : Nat) : Bool := (bytesAt p o n).all (· == 0)

/-- Bit `b` of a number. -/
def bit (v b : Nat) : Bool := v / 2 ^ b % 2 == 1

/-- A Bool as a bit. -/
def b01 (b : Bool) : Nat := if b then 1 else 0

/-- A signed value held in `w` bits (two's complement). -/
def sext (w v : Nat) : Int := if v % 2 ^ w < 2 ^ (w - 1) then (v % 2 ^ w : Nat) else (v % 2 ^ w : Nat) - (2 ^ w : Nat)

/-- The `w`-bit two's complement of an integer. -/
def toBits (w : Nat) (v : Int) : Nat := (v % ((2 ^ w : Nat) : Int)).toNat

/-- One byte. -/
def be8 (v : Nat) : List Byte := [BitVec.ofNat 8 v]

/-- A number as `n` bytes in network byte order, the least significant `n` bytes of it. -/
def beBytes : Nat → Nat → List Byte
  | 0, _ => []
  | n + 1, v => BitVec.ofNat 8 (v / 256 ^ n) :: beBytes n v

def be16 (v : Nat) : List Byte := beBytes 2 v
def be24 (v : Nat) : List Byte := beBytes 3 v
def be32 (v : Nat) : List Byte := beBytes 4 v
def be64 (v : Nat) : List Byte := beBytes 8 v

/-- `n` zero bytes. -/
def zeros (n : Nat) : List Byte := List.replicate n 0

/-- A TIME (Table 2.12) of a count of ns since the epoch: 2 reserved bytes, 48-bit seconds, 32-bit ns. -/
def timeBytes (ns : Nat) : List Byte := zeros 2 ++ beBytes 6 (ns / 10 ^ 9) ++ be32 (ns % 10 ^ 9)

/-- The ns since the epoch that a TIME field names. -/
def timeAt (p : List Byte) (o : Nat) : Nat := u48 p (o + 2) * 10 ^ 9 + u32 p (o + 8)

/-- Is the TIME at `o` well formed: reserved bytes 0, ns below 10^9 (R51)? -/
def timeOk (p : List Byte) (o : Nat) : List (Nat × Bool) :=
  [(o, zeroAt p o 2), (o + 8, decide (u32 p (o + 8) < 10 ^ 9))]

/-- A FRAMEREF (Table 2.12): generator, 3 reserved bytes, 64-bit frame count. -/
def frameRefBytes (g f : Nat) : List Byte := be8 g ++ zeros 3 ++ be64 f

/-- Difference of two 32-bit counts that wrap. -/
def sub32 (a b : Nat) : Nat := if b ≤ a then a - b else a + (2 ^ 32 - b)

/-! ### Check codes -/

/-- One bit of a reflected CRC register of width `w` with reflected polynomial `poly`. -/
def crcBit {w : Nat} (poly c : BitVec w) : BitVec w :=
  if c.getLsbD 0 then (c >>> 1) ^^^ poly else c >>> 1

/-- One byte into a reflected CRC register. -/
def crcByte {w : Nat} (poly c : BitVec w) (b : Byte) : BitVec w :=
  let c0 := c ^^^ b.setWidth w
  crcBit poly (crcBit poly (crcBit poly (crcBit poly (crcBit poly (crcBit poly (crcBit poly (crcBit poly c0)))))))

/-- CRC-32C of R29: polynomial 0x1EDC6F41 reflected, initial value and final XOR all ones. -/
def crc32c (bs : List Byte) : BitVec 32 :=
  bs.foldl (crcByte 0x82F63B78#32) 0xFFFFFFFF#32 ^^^ 0xFFFFFFFF#32

/-- CRC-64/XZ of R355: polynomial 0x42F0E1EBA9EA3693 reflected, initial value and final XOR all ones. -/
def crc64 (bs : List Byte) : BitVec 64 :=
  bs.foldl (crcByte 0xC96C5795D7870F42#64) 0xFFFFFFFFFFFFFFFF#64 ^^^ 0xFFFFFFFFFFFFFFFF#64

/-- One bit of the unreflected CRC-8 register. -/
def crc8Bit (c : Byte) : Byte := if c.getLsbD 7 then (c <<< 1) ^^^ 0x07#8 else c <<< 1

/-- CRC-8 of R92: polynomial 0x07, initial value 0, not reflected, no final XOR. -/
def crc8 (bs : List Byte) : Byte :=
  bs.foldl (fun c b => crc8Bit (crc8Bit (crc8Bit (crc8Bit (crc8Bit (crc8Bit (crc8Bit (crc8Bit (c ^^^ b))))))))) 0

end Sys2Proof.Machine
end

