-- ==== Sys2Proof/Machine/RegMap.lean ====
section
/-!
DEFINITION. The fields of the register tables (Tables 2.4, 3.7, 4.9-4.11, 5.7, 6.8, 7.8, 8.11-8.13, 9.4, 10.8,
11.7, 12.10, 13.7, 14.8, 15.12, 16.11, 17.7-17.9, 18.7, 19.9, 20.6, 21.1, 21.5, 21.7), one name for each field:
`Reg.<register>_<field>`, its address, least significant bit, width and reset value as the table gives them.
An argument `w` counts the windows of a block that has one window per instance or quad (Table 21.6),
an argument `i` the instance inside the window.
-/
namespace Sys2Proof.Machine

/-- Reset weight of region `i` (R12, Table 17.9). -/
def skwWeightReset (i : Nat) : Nat := ([1, 1, 1, 1, 8, 4, 6, 2] : List Nat).getD i 0

/-- Reset priority word of master `i`: one priority toward every target it reaches (Table 17.3). -/
def skwPrioReset (i : Nat) : Nat :=
  if i < 8 then 0x8888888 else if i < 12 then 0xCCCCCCC else if i < 28 then 0x6666660
  else if i < 31 then 0x9999990 else if i < 33 then 0xAAAA0A0 else if i = 33 then 0xCCCC0C0
  else 0xAAAA000

/-- Reset input of reference entry `i` (Table 14.2; code 0xF is unused). -/
def refInputReset (i : Nat) : Nat := ([0, 1, 2, 3, 6, 7, 8, 15] : List Nat).getD i 15

/-- Reset rank of reference entry `i` (Table 14.2). -/
def refRankReset (i : Nat) : Nat := ([1, 2, 3, 4, 5, 6, 7, 1] : List Nat).getD i 1

/-- Reset bandwidth of reference entry `i` in 0.1 Hz (Table 14.2). -/
def refBwReset (i : Nat) : Nat := ([1, 1, 10, 10, 100, 1, 100, 1] : List Nat).getD i 1

/-- Bytes of one DRAM channel at the density of reset, 4 Gbit a device (R485). -/
def channelBytesReset : Nat := 2 ^ 29

/-- Reset map of R490: set g is DRAM group g. -/
def memFirstReset (i : Nat) : Nat := if i < 4 then 12 * i else 0

/-- Channels of set `i` in the reset map of R490. -/
def memCountReset (i : Nat) : Nat := if i < 4 then 12 else 0

/-- Enabled sets of the reset map of R490. -/
def memEnReset (i : Nat) : Nat := if i < 4 then 1 else 0

/-- Size of set `i` in the reset map of R490. -/
def memSizeReset (i : Nat) : Nat := if i < 4 then 12 * channelBytesReset else 0

/-- Base of set `i` in the reset map of R490: g times the set size. -/
def memBaseReset (i : Nat) : Nat := if i < 4 then i * (12 * channelBytesReset) else 0

/-- Host reserve of set `i` in the reset map of R490: 2 GiB in set 0. -/
def memRsvReset (i : Nat) : Nat := if i = 0 then 2 ^ 31 else 0

/-- Reset idle timeout of domain `i`: 60 s where Table 19.1 gives the domain a timer, else 0 (R545). -/
def idleReset (i : Nat) : Nat :=
  if (4 ≤ i ∧ i ≤ 35) ∨ (37 ≤ i ∧ i ≤ 56) then 60 else 0

def Reg.CYX_RQ_BASE_LO_ADDR (i : Nat) : FieldRef := ⟨32 * (0x10b00100 + 64 * i) + 0, 32, 0⟩
def Reg.CYX_RQ_BASE_HI_ADDR (i : Nat) : FieldRef := ⟨32 * (0x10b00104 + 64 * i) + 0, 32, 0⟩
def Reg.CYX_RING_SIZE_LOG2 (i : Nat) : FieldRef := ⟨32 * (0x10b00108 + 64 * i) + 0, 4, 0⟩
def Reg.CYX_RP_BASE_LO_ADDR (i : Nat) : FieldRef := ⟨32 * (0x10b0010c + 64 * i) + 0, 32, 0⟩
def Reg.CYX_RP_BASE_HI_ADDR (i : Nat) : FieldRef := ⟨32 * (0x10b00110 + 64 * i) + 0, 32, 0⟩
def Reg.CYX_RQ_PI_IDX (i : Nat) : FieldRef := ⟨32 * (0x10b00114 + 64 * i) + 0, 6, 0⟩
def Reg.CYX_RQ_CI_IDX (i : Nat) : FieldRef := ⟨32 * (0x10b00118 + 64 * i) + 0, 6, 0⟩
def Reg.CYX_RP_PI_IDX (i : Nat) : FieldRef := ⟨32 * (0x10b0011c + 64 * i) + 0, 6, 0⟩
def Reg.CYX_RP_CI_IDX (i : Nat) : FieldRef := ⟨32 * (0x10b00120 + 64 * i) + 0, 6, 0⟩
def Reg.CYX_IRQ_RSP (i : Nat) : FieldRef := ⟨32 * (0x10b00124 + 64 * i) + 0, 1, 0⟩
def Reg.CYX_IRQ_EVT (i : Nat) : FieldRef := ⟨32 * (0x10b00124 + 64 * i) + 1, 1, 0⟩
def Reg.CYX_IRQ_RINGERR (i : Nat) : FieldRef := ⟨32 * (0x10b00124 + 64 * i) + 2, 1, 0⟩
def Reg.CYX_IRQ_EVTLOST (i : Nat) : FieldRef := ⟨32 * (0x10b00124 + 64 * i) + 3, 1, 0⟩
def Reg.CYX_IRQ_EN_MASK (i : Nat) : FieldRef := ⟨32 * (0x10b00128 + 64 * i) + 0, 4, 0⟩
def Reg.SYS_PWR_LIMIT_WATTS : FieldRef := ⟨32 * (0x10010040) + 0, 16, 250⟩
def Reg.SYS_PWR_LIMIT_LOCK : FieldRef := ⟨32 * (0x10010040) + 31, 1, 0⟩
def Reg.SYS_CRU_STAT_OVER : FieldRef := ⟨32 * (0x10010044) + 0, 1, 0⟩
def Reg.SYS_CRU_STAT_BYPASS : FieldRef := ⟨32 * (0x10010044) + 1, 1, 0⟩
def Reg.SYS_CRU_STAT_REFUSALS : FieldRef := ⟨32 * (0x10010044) + 16, 16, 0⟩
def Reg.FAB_WARN_NS : FieldRef := ⟨32 * (0x10090014) + 0, 16, 10000⟩
def Reg.FAB_ALARM_BITS : FieldRef := ⟨32 * (0x10090018) + 0, 13, 0⟩
def Reg.FAB_ALARM_EN_MASK : FieldRef := ⟨32 * (0x1009001c) + 0, 13, 0⟩
def Reg.FAB_LD_SNAP_GO : FieldRef := ⟨32 * (0x10090020) + 0, 1, 0⟩
def Reg.FAB_LD_ALLOC_CELLS : FieldRef := ⟨32 * (0x10090024) + 0, 19, 0⟩
def Reg.FAB_LD_FREE_CELLS : FieldRef := ⟨32 * (0x10090028) + 0, 19, 0x40000⟩
def Reg.FAB_LD_MINFREE_CELLS : FieldRef := ⟨32 * (0x1009002c) + 0, 19, 0x40000⟩
def Reg.FAB_LD_DROP_COUNT : FieldRef := ⟨32 * (0x10090030) + 0, 32, 0⟩
def Reg.FAB_LD_EXPIRED_COUNT : FieldRef := ⟨32 * (0x10090034) + 0, 32, 0⟩
def Reg.FAB_DIRTY_COUNT : FieldRef := ⟨32 * (0x10090038) + 0, 32, 0⟩
def Reg.FAB_OFS_GEN_GEN : FieldRef := ⟨32 * (0x1009003c) + 0, 4, 0⟩
def Reg.FAB_OFS_GEN_QSEL : FieldRef := ⟨32 * (0x1009003c) + 4, 2, 0⟩
def Reg.FAB_OUTEN_EN (i : Nat) : FieldRef := ⟨32 * (0x10090100 + 4 * i) + 0, 32, 0⟩
def Reg.FAB_SEL_CUR_SRC (i : Nat) : FieldRef := ⟨32 * (0x10091000 + 4 * i) + 0, 13, 0⟩
def Reg.FAB_SEL_CUR_SRCQ (i : Nat) : FieldRef := ⟨32 * (0x10091000 + 4 * i) + 13, 1, 0⟩
def Reg.FAB_SEL_CUR_VALID (i : Nat) : FieldRef := ⟨32 * (0x10091000 + 4 * i) + 14, 1, 0⟩
def Reg.FAB_SEL_CUR_GEN (i : Nat) : FieldRef := ⟨32 * (0x10091000 + 4 * i) + 16, 4, 0⟩
def Reg.FAB_SEL_SHD_SRC (i : Nat) : FieldRef := ⟨32 * (0x10097000 + 4 * i) + 0, 13, 0⟩
def Reg.FAB_SEL_SHD_SRCQ (i : Nat) : FieldRef := ⟨32 * (0x10097000 + 4 * i) + 13, 1, 0⟩
def Reg.FAB_SEL_SHD_VALID (i : Nat) : FieldRef := ⟨32 * (0x10097000 + 4 * i) + 14, 1, 0⟩
def Reg.FAB_SEL_SHD_GEN (i : Nat) : FieldRef := ⟨32 * (0x10097000 + 4 * i) + 16, 4, 0⟩
def Reg.FAB_SEL_SHD_ARM (i : Nat) : FieldRef := ⟨32 * (0x10097000 + 4 * i) + 15, 1, 0⟩
def Reg.FAB_SRC_OFS_NS (i : Nat) : FieldRef := ⟨32 * (0x1009d000 + 4 * i) + 0, 32, 0x7fffffff⟩
def Reg.FAB_SLIP_COUNT (i : Nat) : FieldRef := ⟨32 * (0x1009e800 + 4 * i) + 0, 32, 0⟩
def Reg.LDG_CTL_EN (i : Nat) : FieldRef := ⟨32 * (0x100b0100 + 32 * i) + 0, 1, 0⟩
def Reg.LDG_CTL_LOSS_BLACK (i : Nat) : FieldRef := ⟨32 * (0x100b0100 + 32 * i) + 1, 1, 0⟩
def Reg.LDG_CTL_GEN (i : Nat) : FieldRef := ⟨32 * (0x100b0100 + 32 * i) + 4, 4, 0⟩
def Reg.LDG_SRC_SLOT (i : Nat) : FieldRef := ⟨32 * (0x100b0104 + 32 * i) + 0, 13, 0⟩
def Reg.LDG_BASE_LO_ADDR (i : Nat) : FieldRef := ⟨32 * (0x100b0108 + 32 * i) + 0, 32, 0⟩
def Reg.LDG_BASE_HI_ADDR (i : Nat) : FieldRef := ⟨32 * (0x100b010c + 32 * i) + 0, 32, 0⟩
def Reg.LDG_FRAME_BYTES (i : Nat) : FieldRef := ⟨32 * (0x100b0110 + 32 * i) + 0, 32, 0⟩
def Reg.LDG_REPEAT_COUNT (i : Nat) : FieldRef := ⟨32 * (0x100b0114 + 32 * i) + 0, 32, 0⟩
def Reg.LDG_DROP_COUNT (i : Nat) : FieldRef := ⟨32 * (0x100b0118 + 32 * i) + 0, 32, 0⟩
def Reg.LDG_STAT_BITS (i : Nat) : FieldRef := ⟨32 * (0x100b011c + 32 * i) + 0, 4, 0⟩
def Reg.LDQ_CTL_EN (i : Nat) : FieldRef := ⟨32 * (0x100b1000 + 32 * i) + 0, 1, 0⟩
def Reg.LDQ_CTL_LOSS_BLACK (i : Nat) : FieldRef := ⟨32 * (0x100b1000 + 32 * i) + 1, 1, 0⟩
def Reg.LDQ_CTL_GEN (i : Nat) : FieldRef := ⟨32 * (0x100b1000 + 32 * i) + 4, 4, 0⟩
def Reg.LDQ_SRC_SLOT (i : Nat) : FieldRef := ⟨32 * (0x100b1004 + 32 * i) + 0, 13, 0⟩
def Reg.LDQ_BASE_LO_ADDR (i : Nat) : FieldRef := ⟨32 * (0x100b1008 + 32 * i) + 0, 32, 0⟩
def Reg.LDQ_BASE_HI_ADDR (i : Nat) : FieldRef := ⟨32 * (0x100b100c + 32 * i) + 0, 32, 0⟩
def Reg.LDQ_FRAME_BYTES (i : Nat) : FieldRef := ⟨32 * (0x100b1010 + 32 * i) + 0, 32, 0⟩
def Reg.LDQ_REPEAT_COUNT (i : Nat) : FieldRef := ⟨32 * (0x100b1014 + 32 * i) + 0, 32, 0⟩
def Reg.LDQ_DROP_COUNT (i : Nat) : FieldRef := ⟨32 * (0x100b1018 + 32 * i) + 0, 32, 0⟩
def Reg.LDQ_STAT_BITS (i : Nat) : FieldRef := ⟨32 * (0x100b101c + 32 * i) + 0, 4, 0⟩
def Reg.EPH_USED_ENTRIES : FieldRef := ⟨32 * (0x100a0010) + 0, 15, 0⟩
def Reg.EPH_RECS_USED : FieldRef := ⟨32 * (0x100a0014) + 0, 17, 0⟩
def Reg.EPH_ALARM_BITS : FieldRef := ⟨32 * (0x100a0018) + 0, 7, 0⟩
def Reg.EPH_ALARM_EN_MASK : FieldRef := ⟨32 * (0x100a001c) + 0, 7, 0⟩
def Reg.EPH_LATE_COUNT : FieldRef := ⟨32 * (0x100a0020) + 0, 32, 0⟩
def Reg.EPH_SUPERSEDED_COUNT : FieldRef := ⟨32 * (0x100a0024) + 0, 32, 0⟩
def Reg.EPH_REPHASE_COUNT : FieldRef := ⟨32 * (0x100a0028) + 0, 32, 0⟩
def Reg.EPH_IND_ADDR_IDX : FieldRef := ⟨32 * (0x100a0030) + 0, 17, 0⟩
def Reg.EPH_IND_DATA_DATA : FieldRef := ⟨32 * (0x100a0034) + 0, 32, 0⟩
def Reg.EPH_GEN_CTL_EN (i : Nat) : FieldRef := ⟨32 * (0x100a0100 + 64 * i) + 0, 1, 1⟩
def Reg.EPH_GEN_CTL_LOAD (i : Nat) : FieldRef := ⟨32 * (0x100a0100 + 64 * i) + 1, 1, 0⟩
def Reg.EPH_GEN_CTL_CUT (i : Nat) : FieldRef := ⟨32 * (0x100a0100 + 64 * i) + 2, 1, 0⟩
def Reg.EPH_GEN_CTL_DIP (i : Nat) : FieldRef := ⟨32 * (0x100a0100 + 64 * i) + 3, 1, 0⟩
def Reg.EPH_GEN_CTL_RAMP_MS (i : Nat) : FieldRef := ⟨32 * (0x100a0100 + 64 * i) + 8, 5, 5⟩
def Reg.EPH_GEN_N_N (i : Nat) : FieldRef := ⟨32 * (0x100a0104 + 64 * i) + 0, 32, 60000⟩
def Reg.EPH_GEN_D_D (i : Nat) : FieldRef := ⟨32 * (0x100a0108 + 64 * i) + 0, 16, 1001⟩
def Reg.EPH_GEN_CUR_N_N (i : Nat) : FieldRef := ⟨32 * (0x100a010c + 64 * i) + 0, 32, 60000⟩
def Reg.EPH_GEN_CUR_D_D (i : Nat) : FieldRef := ⟨32 * (0x100a0110 + 64 * i) + 0, 16, 1001⟩
def Reg.EPH_GEN_FC_LO_F (i : Nat) : FieldRef := ⟨32 * (0x100a0114 + 64 * i) + 0, 32, 0⟩
def Reg.EPH_GEN_FC_HI_F (i : Nat) : FieldRef := ⟨32 * (0x100a0118 + 64 * i) + 0, 32, 0⟩
def Reg.EPH_GEN_MT_LO_NS (i : Nat) : FieldRef := ⟨32 * (0x100a011c + 64 * i) + 0, 32, 0⟩
def Reg.EPH_GEN_MT_HI_NS (i : Nat) : FieldRef := ⟨32 * (0x100a0120 + 64 * i) + 0, 32, 0⟩
def Reg.EPH_GEN_NEXT_NS (i : Nat) : FieldRef := ⟨32 * (0x100a0124 + 64 * i) + 0, 32, 0⟩
def Reg.EPH_GEN_STAT_FREERUN (i : Nat) : FieldRef := ⟨32 * (0x100a0128 + 64 * i) + 0, 1, 1⟩
def Reg.EPH_GEN_STAT_RESTEP (i : Nat) : FieldRef := ⟨32 * (0x100a0128 + 64 * i) + 1, 1, 0⟩
def Reg.EPH_GEN_STAT_REPHASE (i : Nat) : FieldRef := ⟨32 * (0x100a0128 + 64 * i) + 2, 1, 0⟩
def Reg.EPH_GEN_STAT_BOUND (i : Nat) : FieldRef := ⟨32 * (0x100a0128 + 64 * i) + 3, 1, 0⟩
def Reg.LNQ_QSTAT_PLLA_LOCK (w : Nat) : FieldRef := ⟨32 * (0x10100010 + 0x10000 * w) + 0, 1, 0⟩
def Reg.LNQ_QSTAT_PLLB_LOCK (w : Nat) : FieldRef := ⟨32 * (0x10100010 + 0x10000 * w) + 1, 1, 0⟩
def Reg.LNQ_QSTAT_ETH_CAP (w : Nat) : FieldRef := ⟨32 * (0x10100010 + 0x10000 * w) + 2, 1, (if w < 16 then 1 else 0)⟩
def Reg.LNQ_LCFG_MODE (l : Nat) : FieldRef := ⟨32 * (0x10100100 + 0x10000 * (l / 4) + 0x100 * (l % 4)) + 0, 2, 0⟩
def Reg.LNQ_LCFG_TX_EN (l : Nat) : FieldRef := ⟨32 * (0x10100100 + 0x10000 * (l / 4) + 0x100 * (l % 4)) + 4, 1, 0⟩
def Reg.LNQ_LCFG_RX_EN (l : Nat) : FieldRef := ⟨32 * (0x10100100 + 0x10000 * (l / 4) + 0x100 * (l % 4)) + 5, 1, 0⟩
def Reg.LNQ_LCFG_TX_PRECODE (l : Nat) : FieldRef := ⟨32 * (0x10100100 + 0x10000 * (l / 4) + 0x100 * (l % 4)) + 8, 1, 1⟩
def Reg.LNQ_LCFG_RX_PRECODE (l : Nat) : FieldRef := ⟨32 * (0x10100100 + 0x10000 * (l / 4) + 0x100 * (l % 4)) + 9, 1, 1⟩
def Reg.LNQ_LCFG_TX_INV (l : Nat) : FieldRef := ⟨32 * (0x10100100 + 0x10000 * (l / 4) + 0x100 * (l % 4)) + 10, 1, 0⟩
def Reg.LNQ_LCFG_RX_INV (l : Nat) : FieldRef := ⟨32 * (0x10100100 + 0x10000 * (l / 4) + 0x100 * (l % 4)) + 11, 1, 0⟩
def Reg.LNQ_LCFG_LOOP (l : Nat) : FieldRef := ⟨32 * (0x10100100 + 0x10000 * (l / 4) + 0x100 * (l % 4)) + 12, 2, 0⟩
def Reg.LNQ_TXFFE_CM3 (l : Nat) : FieldRef := ⟨32 * (0x10100104 + 0x10000 * (l / 4) + 0x100 * (l % 4)) + 0, 3, 0⟩
def Reg.LNQ_TXFFE_CM2 (l : Nat) : FieldRef := ⟨32 * (0x10100104 + 0x10000 * (l / 4) + 0x100 * (l % 4)) + 4, 4, 2⟩
def Reg.LNQ_TXFFE_CM1 (l : Nat) : FieldRef := ⟨32 * (0x10100104 + 0x10000 * (l / 4) + 0x100 * (l % 4)) + 8, 5, 10⟩
def Reg.LNQ_TXFFE_CP1 (l : Nat) : FieldRef := ⟨32 * (0x10100104 + 0x10000 * (l / 4) + 0x100 * (l % 4)) + 16, 4, 4⟩
def Reg.LNQ_TXFFE_C0 (l : Nat) : FieldRef := ⟨32 * (0x10100104 + 0x10000 * (l / 4) + 0x100 * (l % 4)) + 20, 7, 48⟩
def Reg.LNQ_TXAMP_CODE (l : Nat) : FieldRef := ⟨32 * (0x10100108 + 0x10000 * (l / 4) + 0x100 * (l % 4)) + 0, 5, 16⟩
def Reg.LNQ_RXCTLE_PEAK (l : Nat) : FieldRef := ⟨32 * (0x1010010c + 0x10000 * (l / 4) + 0x100 * (l % 4)) + 0, 6, 24⟩
def Reg.LNQ_ADAPT_FREEZE (l : Nat) : FieldRef := ⟨32 * (0x10100110 + 0x10000 * (l / 4) + 0x100 * (l % 4)) + 0, 1, 0⟩
def Reg.LNQ_ADAPT_CTLE_EN (l : Nat) : FieldRef := ⟨32 * (0x10100110 + 0x10000 * (l / 4) + 0x100 * (l % 4)) + 1, 1, 1⟩
def Reg.LNQ_ADAPT_FFE_EN (l : Nat) : FieldRef := ⟨32 * (0x10100110 + 0x10000 * (l / 4) + 0x100 * (l % 4)) + 2, 1, 1⟩
def Reg.LNQ_ADAPT_DFE_EN (l : Nat) : FieldRef := ⟨32 * (0x10100110 + 0x10000 * (l / 4) + 0x100 * (l % 4)) + 3, 1, 1⟩
def Reg.LNQ_ADAPT_RESTART (l : Nat) : FieldRef := ⟨32 * (0x10100110 + 0x10000 * (l / 4) + 0x100 * (l % 4)) + 4, 1, 0⟩
def Reg.LNQ_FOM_FOM (l : Nat) : FieldRef := ⟨32 * (0x10100114 + 0x10000 * (l / 4) + 0x100 * (l % 4)) + 0, 8, 0⟩
def Reg.LNQ_FOM_MIN (l : Nat) : FieldRef := ⟨32 * (0x10100114 + 0x10000 * (l / 4) + 0x100 * (l % 4)) + 8, 8, 255⟩
def Reg.LNQ_FOM_MINCLR (l : Nat) : FieldRef := ⟨32 * (0x10100114 + 0x10000 * (l / 4) + 0x100 * (l % 4)) + 31, 1, 0⟩
def Reg.LNQ_FOMTH_WARN (l : Nat) : FieldRef := ⟨32 * (0x10100118 + 0x10000 * (l / 4) + 0x100 * (l % 4)) + 0, 8, 152⟩
def Reg.LNQ_FOMTH_FAIL (l : Nat) : FieldRef := ⟨32 * (0x10100118 + 0x10000 * (l / 4) + 0x100 * (l % 4)) + 8, 8, 140⟩
def Reg.LNQ_SLEEP_TX (l : Nat) : FieldRef := ⟨32 * (0x1010011c + 0x10000 * (l / 4) + 0x100 * (l % 4)) + 0, 2, 0⟩
def Reg.LNQ_SLEEP_RX (l : Nat) : FieldRef := ⟨32 * (0x1010011c + 0x10000 * (l / 4) + 0x100 * (l % 4)) + 4, 2, 0⟩
def Reg.LNQ_SLEEP_WAKE_ON_SIG (l : Nat) : FieldRef := ⟨32 * (0x1010011c + 0x10000 * (l / 4) + 0x100 * (l % 4)) + 8, 1, 0⟩
def Reg.LNQ_SLEEP_TX_STATE (l : Nat) : FieldRef := ⟨32 * (0x1010011c + 0x10000 * (l / 4) + 0x100 * (l % 4)) + 16, 2, 0⟩
def Reg.LNQ_SLEEP_RX_STATE (l : Nat) : FieldRef := ⟨32 * (0x1010011c + 0x10000 * (l / 4) + 0x100 * (l % 4)) + 20, 2, 0⟩
def Reg.LNQ_LSTAT_BITS (l : Nat) : FieldRef := ⟨32 * (0x10100120 + 0x10000 * (l / 4) + 0x100 * (l % 4)) + 0, 5, 0⟩
def Reg.LNQ_LALARM_BITS (l : Nat) : FieldRef := ⟨32 * (0x10100124 + 0x10000 * (l / 4) + 0x100 * (l % 4)) + 0, 8, 0⟩
def Reg.LNQ_LALARM_EN_MASK (l : Nat) : FieldRef := ⟨32 * (0x10100128 + 0x10000 * (l / 4) + 0x100 * (l % 4)) + 0, 8, 0⟩
def Reg.LNQ_DFE_TAP (l : Nat) : FieldRef := ⟨32 * (0x1010012c + 0x10000 * (l / 4) + 0x100 * (l % 4)) + 0, 9, 0⟩
def Reg.LNQ_FFE_IDX_IDX (l : Nat) : FieldRef := ⟨32 * (0x10100130 + 0x10000 * (l / 4) + 0x100 * (l % 4)) + 0, 5, 0⟩
def Reg.LNQ_FFE_DATA_C (l : Nat) : FieldRef := ⟨32 * (0x10100134 + 0x10000 * (l / 4) + 0x100 * (l % 4)) + 0, 10, 0⟩
def Reg.LNQ_PRBS_TX_PAT (l : Nat) : FieldRef := ⟨32 * (0x10100140 + 0x10000 * (l / 4) + 0x100 * (l % 4)) + 0, 2, 0⟩
def Reg.LNQ_PRBS_RX_CHK (l : Nat) : FieldRef := ⟨32 * (0x10100140 + 0x10000 * (l / 4) + 0x100 * (l % 4)) + 4, 2, 0⟩
def Reg.LNQ_PRBS_ERR_COUNT (l : Nat) : FieldRef := ⟨32 * (0x10100144 + 0x10000 * (l / 4) + 0x100 * (l % 4)) + 0, 32, 0⟩
def Reg.LNQ_STX_CTL_EN (l : Nat) : FieldRef := ⟨32 * (0x10101000 + 0x10000 * (l / 4) + 0x100 * (l % 4)) + 0, 1, 0⟩
def Reg.LNQ_STX_CTL_AUTO (l : Nat) : FieldRef := ⟨32 * (0x10101000 + 0x10000 * (l / 4) + 0x100 * (l % 4)) + 1, 1, 1⟩
def Reg.LNQ_STX_CTL_MASK_GO (l : Nat) : FieldRef := ⟨32 * (0x10101000 + 0x10000 * (l / 4) + 0x100 * (l % 4)) + 2, 1, 0⟩
def Reg.LNQ_STX_CTL_EQ_ACCEPT (l : Nat) : FieldRef := ⟨32 * (0x10101000 + 0x10000 * (l / 4) + 0x100 * (l % 4)) + 3, 1, 1⟩
def Reg.LNQ_STX_CTL_EQ_REQ (l : Nat) : FieldRef := ⟨32 * (0x10101000 + 0x10000 * (l / 4) + 0x100 * (l % 4)) + 4, 1, 1⟩
def Reg.LNQ_STX_CTL_PARTNER (l : Nat) : FieldRef := ⟨32 * (0x10101000 + 0x10000 * (l / 4) + 0x100 * (l % 4)) + 5, 1, 0⟩
def Reg.LNQ_STX_MASK_SLOTS (l : Nat) : FieldRef := ⟨32 * (0x10101004 + 0x10000 * (l / 4) + 0x100 * (l % 4)) + 0, 9, 0⟩
def Reg.LNQ_STX_MASK_QMAP (l : Nat) : FieldRef := ⟨32 * (0x10101004 + 0x10000 * (l / 4) + 0x100 * (l % 4)) + 16, 9, 0⟩
def Reg.LNQ_STX_QACT_LO_Q (l : Nat) : FieldRef := ⟨32 * (0x10101008 + 0x10000 * (l / 4) + 0x100 * (l % 4)) + 0, 32, 0⟩
def Reg.LNQ_STX_QACT_HI_Q (l : Nat) : FieldRef := ⟨32 * (0x1010100c + 0x10000 * (l / 4) + 0x100 * (l % 4)) + 0, 4, 0⟩
def Reg.LNQ_STX_CUR_SLOTS (l : Nat) : FieldRef := ⟨32 * (0x10101010 + 0x10000 * (l / 4) + 0x100 * (l % 4)) + 0, 9, 0⟩
def Reg.LNQ_STX_CUR_QMAP (l : Nat) : FieldRef := ⟨32 * (0x10101010 + 0x10000 * (l / 4) + 0x100 * (l % 4)) + 16, 9, 0⟩
def Reg.LNQ_SRX_STAT_STATE (l : Nat) : FieldRef := ⟨32 * (0x10101014 + 0x10000 * (l / 4) + 0x100 * (l % 4)) + 0, 2, 0⟩
def Reg.LNQ_SRX_STAT_RDI (l : Nat) : FieldRef := ⟨32 * (0x10101014 + 0x10000 * (l / 4) + 0x100 * (l % 4)) + 4, 1, 0⟩
def Reg.LNQ_SRX_STAT_MSG_READY (l : Nat) : FieldRef := ⟨32 * (0x10101014 + 0x10000 * (l / 4) + 0x100 * (l % 4)) + 5, 1, 0⟩
def Reg.LNQ_SRX_STAT_SLOTS (l : Nat) : FieldRef := ⟨32 * (0x10101014 + 0x10000 * (l / 4) + 0x100 * (l % 4)) + 16, 9, 0⟩
def Reg.LNQ_SRX_QACT_LO_Q (l : Nat) : FieldRef := ⟨32 * (0x10101018 + 0x10000 * (l / 4) + 0x100 * (l % 4)) + 0, 32, 0⟩
def Reg.LNQ_SRX_QACT_HI_Q (l : Nat) : FieldRef := ⟨32 * (0x1010101c + 0x10000 * (l / 4) + 0x100 * (l % 4)) + 0, 4, 0⟩
def Reg.LNQ_SRX_QACT_HI_QMAP (l : Nat) : FieldRef := ⟨32 * (0x1010101c + 0x10000 * (l / 4) + 0x100 * (l % 4)) + 16, 9, 0⟩
def Reg.LNQ_SRX_FEC_CORR_COUNT (l : Nat) : FieldRef := ⟨32 * (0x10101020 + 0x10000 * (l / 4) + 0x100 * (l % 4)) + 0, 32, 0⟩
def Reg.LNQ_SRX_FEC_CW_COUNT (l : Nat) : FieldRef := ⟨32 * (0x10101024 + 0x10000 * (l / 4) + 0x100 * (l % 4)) + 0, 32, 0⟩
def Reg.LNQ_SRX_FEC_UNCORR_COUNT (l : Nat) : FieldRef := ⟨32 * (0x10101028 + 0x10000 * (l / 4) + 0x100 * (l % 4)) + 0, 32, 0⟩
def Reg.LNQ_SRX_HDR_LOST (l : Nat) : FieldRef := ⟨32 * (0x1010102c + 0x10000 * (l / 4) + 0x100 * (l % 4)) + 0, 16, 0⟩
def Reg.LNQ_SRX_HDR_POS_ERR (l : Nat) : FieldRef := ⟨32 * (0x1010102c + 0x10000 * (l / 4) + 0x100 * (l % 4)) + 16, 16, 0⟩
def Reg.LNQ_SRX_SFC_LO_K (l : Nat) : FieldRef := ⟨32 * (0x10101030 + 0x10000 * (l / 4) + 0x100 * (l % 4)) + 0, 32, 0⟩
def Reg.LNQ_SRX_SFC_HI_K (l : Nat) : FieldRef := ⟨32 * (0x10101034 + 0x10000 * (l / 4) + 0x100 * (l % 4)) + 0, 32, 0⟩
def Reg.LNQ_STV_PATH_DELAY (l : Nat) : FieldRef := ⟨32 * (0x10101038 + 0x10000 * (l / 4) + 0x100 * (l % 4)) + 0, 32, 0⟩
def Reg.LNQ_STV_RXOFS_NS (l : Nat) : FieldRef := ⟨32 * (0x1010103c + 0x10000 * (l / 4) + 0x100 * (l % 4)) + 0, 32, 0x7fffffff⟩
def Reg.LNQ_STV_MSG_CREDITS (l : Nat) : FieldRef := ⟨32 * (0x10101040 + 0x10000 * (l / 4) + 0x100 * (l % 4)) + 0, 6, 0⟩
def Reg.LNQ_STV_MSG_HELD (l : Nat) : FieldRef := ⟨32 * (0x10101040 + 0x10000 * (l / 4) + 0x100 * (l % 4)) + 8, 6, 0⟩
def Reg.LNQ_STV_MSG_LOST (l : Nat) : FieldRef := ⟨32 * (0x10101040 + 0x10000 * (l / 4) + 0x100 * (l % 4)) + 16, 16, 0⟩
def Reg.LNQ_STV_ALARM_BITS (l : Nat) : FieldRef := ⟨32 * (0x10101044 + 0x10000 * (l / 4) + 0x100 * (l % 4)) + 0, 10, 0⟩
def Reg.LNQ_STV_ALARM_EN_MASK (l : Nat) : FieldRef := ⟨32 * (0x10101048 + 0x10000 * (l / 4) + 0x100 * (l % 4)) + 0, 10, 0⟩
def Reg.LNQ_STV_FECTH_CW (l : Nat) : FieldRef := ⟨32 * (0x1010104c + 0x10000 * (l / 4) + 0x100 * (l % 4)) + 0, 12, 32⟩
def Reg.LNQ_STV_FECTH_DOWN_N (l : Nat) : FieldRef := ⟨32 * (0x1010104c + 0x10000 * (l / 4) + 0x100 * (l % 4)) + 16, 4, 4⟩
def Reg.LNQ_STV_ASYM_DELAY (l : Nat) : FieldRef := ⟨32 * (0x10101050 + 0x10000 * (l / 4) + 0x100 * (l % 4)) + 0, 32, 0⟩
def Reg.LNQ_STX_DROP_COUNT (l : Nat) : FieldRef := ⟨32 * (0x10101054 + 0x10000 * (l / 4) + 0x100 * (l % 4)) + 0, 32, 0⟩
def Reg.NET_CTL_EN (w : Nat) : FieldRef := ⟨32 * (0x10600010 + 0x10000 * w) + 0, 1, 0⟩
def Reg.NET_CTL_MODE (w : Nat) : FieldRef := ⟨32 * (0x10600010 + 0x10000 * w) + 4, 3, 0⟩
def Reg.NET_CTL_AN (w : Nat) : FieldRef := ⟨32 * (0x10600010 + 0x10000 * w) + 8, 1, 1⟩
def Reg.NET_CTL_FC_MODE (w : Nat) : FieldRef := ⟨32 * (0x10600010 + 0x10000 * w) + 12, 2, 0⟩
def Reg.NET_CTL_MACSEC_EN (w : Nat) : FieldRef := ⟨32 * (0x10600010 + 0x10000 * w) + 16, 1, 0⟩
def Reg.NET_CTL_PTP_CLEAR (w : Nat) : FieldRef := ⟨32 * (0x10600010 + 0x10000 * w) + 17, 1, 0⟩
def Reg.NET_STAT_LINK (w : Nat) : FieldRef := ⟨32 * (0x10600014 + 0x10000 * w) + 0, 1, 0⟩
def Reg.NET_STAT_AN_DONE (w : Nat) : FieldRef := ⟨32 * (0x10600014 + 0x10000 * w) + 1, 1, 0⟩
def Reg.NET_STAT_FEC_LOCK (w : Nat) : FieldRef := ⟨32 * (0x10600014 + 0x10000 * w) + 2, 1, 0⟩
def Reg.NET_STAT_STOPPED (w : Nat) : FieldRef := ⟨32 * (0x10600014 + 0x10000 * w) + 8, 6, 0⟩
def Reg.NET_ALARM_BITS (w : Nat) : FieldRef := ⟨32 * (0x10600018 + 0x10000 * w) + 0, 17, 0⟩
def Reg.NET_ALARM_EN_MASK (w : Nat) : FieldRef := ⟨32 * (0x1060001c + 0x10000 * w) + 0, 17, 0⟩
def Reg.NET_PAUSE_WD_MS (w : Nat) : FieldRef := ⟨32 * (0x10600020 + 0x10000 * w) + 0, 10, 10⟩
def Reg.NET_PAUSE_WD_HOLD_MS (w : Nat) : FieldRef := ⟨32 * (0x10600020 + 0x10000 * w) + 16, 10, 1000⟩
def Reg.NET_PFC_MAP_MAP (w : Nat) : FieldRef := ⟨32 * (0x10600024 + 0x10000 * w) + 0, 32, 0xff543210⟩
def Reg.NET_FECTH_CW (w : Nat) : FieldRef := ⟨32 * (0x10600028 + 0x10000 * w) + 0, 16, 16⟩
def Reg.NET_TXSTART_BYTES (w : Nat) (i : Nat) : FieldRef := ⟨32 * (0x10600030 + 0x10000 * w + 4 * i) + 0, 14, 512⟩
def Reg.NET_RX_FCS_ERR_COUNT (w : Nat) : FieldRef := ⟨32 * (0x10600060 + 0x10000 * w) + 0, 32, 0⟩
def Reg.NET_RX_LEN_ERR_COUNT (w : Nat) : FieldRef := ⟨32 * (0x10600064 + 0x10000 * w) + 0, 32, 0⟩
def Reg.NET_RX_BUF_DROP_COUNT (w : Nat) : FieldRef := ⟨32 * (0x10600068 + 0x10000 * w) + 0, 32, 0⟩
def Reg.NET_RX_RING_TRUNC_COUNT (w : Nat) : FieldRef := ⟨32 * (0x1060006c + 0x10000 * w) + 0, 32, 0⟩
def Reg.NET_RX_NODESC_COUNT (w : Nat) : FieldRef := ⟨32 * (0x10600070 + 0x10000 * w) + 0, 32, 0⟩
def Reg.NET_TX_UNDERRUN_COUNT (w : Nat) : FieldRef := ⟨32 * (0x10600074 + 0x10000 * w) + 0, 32, 0⟩
def Reg.NET_TX_OVERSIZE_COUNT (w : Nat) : FieldRef := ⟨32 * (0x10600078 + 0x10000 * w) + 0, 32, 0⟩
def Reg.NET_TX_LINKDOWN_DROP_COUNT (w : Nat) : FieldRef := ⟨32 * (0x1060007c + 0x10000 * w) + 0, 32, 0⟩
def Reg.NET_PAUSE_RX_COUNT (w : Nat) : FieldRef := ⟨32 * (0x10600080 + 0x10000 * w) + 0, 32, 0⟩
def Reg.NET_MSEC_KEY_DROP_COUNT (w : Nat) : FieldRef := ⟨32 * (0x10600084 + 0x10000 * w) + 0, 32, 0⟩
def Reg.NET_MSEC_RX_REJECT_COUNT (w : Nat) : FieldRef := ⟨32 * (0x10600088 + 0x10000 * w) + 0, 32, 0⟩
def Reg.NET_MSEC_IND_ADDR_IDX (w : Nat) : FieldRef := ⟨32 * (0x106000c0 + 0x10000 * w) + 0, 16, 0⟩
def Reg.NET_MSEC_IND_DATA_DATA (w : Nat) : FieldRef := ⟨32 * (0x106000c4 + 0x10000 * w) + 0, 32, 0⟩
def Reg.NET_STEER_ETYPE (w : Nat) (i : Nat) : FieldRef := ⟨32 * (0x10600300 + 0x10000 * w + 8 * i) + 0, 16, 0⟩
def Reg.NET_STEER_PROTO (w : Nat) (i : Nat) : FieldRef := ⟨32 * (0x10600300 + 0x10000 * w + 8 * i) + 16, 8, 0⟩
def Reg.NET_STEER_RING (w : Nat) (i : Nat) : FieldRef := ⟨32 * (0x10600300 + 0x10000 * w + 8 * i) + 24, 8, 255⟩
def Reg.NET_STEER_L4PORT (w : Nat) (i : Nat) : FieldRef := ⟨32 * (0x10600304 + 0x10000 * w + 8 * i) + 0, 16, 0⟩
def Reg.NET_RING_BASE_LO_ADDR (w : Nat) (i : Nat) : FieldRef := ⟨32 * (0x10600100 + 0x10000 * w + 32 * i) + 0, 32, 0⟩
def Reg.NET_RING_BASE_HI_ADDR (w : Nat) (i : Nat) : FieldRef := ⟨32 * (0x10600104 + 0x10000 * w + 32 * i) + 0, 32, 0⟩
def Reg.NET_RING_SIZE_LOG2 (w : Nat) (i : Nat) : FieldRef := ⟨32 * (0x10600108 + 0x10000 * w + 32 * i) + 0, 4, 0⟩
def Reg.NET_RING_PI_IDX (w : Nat) (i : Nat) : FieldRef := ⟨32 * (0x1060010c + 0x10000 * w + 32 * i) + 0, 12, 0⟩
def Reg.NET_RING_CI_IDX (w : Nat) (i : Nat) : FieldRef := ⟨32 * (0x10600110 + 0x10000 * w + 32 * i) + 0, 12, 0⟩
def Reg.NET_RING_IRQ_DONE (w : Nat) (i : Nat) : FieldRef := ⟨32 * (0x10600114 + 0x10000 * w + 32 * i) + 0, 1, 0⟩
def Reg.NET_RING_IRQ_TRUNC (w : Nat) (i : Nat) : FieldRef := ⟨32 * (0x10600114 + 0x10000 * w + 32 * i) + 1, 1, 0⟩
def Reg.NET_RING_IRQ_NODESC (w : Nat) (i : Nat) : FieldRef := ⟨32 * (0x10600114 + 0x10000 * w + 32 * i) + 2, 1, 0⟩
def Reg.NET_RING_IRQ_EN_MASK (w : Nat) (i : Nat) : FieldRef := ⟨32 * (0x10600118 + 0x10000 * w + 32 * i) + 0, 3, 0⟩
def Reg.NET_RING_IRQ_EN_CORE (w : Nat) (i : Nat) : FieldRef := ⟨32 * (0x10600118 + 0x10000 * w + 32 * i) + 8, 3, 0⟩
def Reg.MGT_WAKE_MAGIC : FieldRef := ⟨32 * (0x10a00400) + 0, 1, 0⟩
def Reg.MGT_WAKE_PATTERN : FieldRef := ⟨32 * (0x10a00400) + 1, 1, 0⟩
def Reg.MGT_WAKE_PORT : FieldRef := ⟨32 * (0x10a00400) + 4, 1, 0⟩
def Reg.MGT_WAKE_PAT_BYTES (i : Nat) : FieldRef := ⟨32 * (0x10a00500 + 4 * i) + 0, 32, 0⟩
def Reg.MGT_WAKE_MASK_BITS (i : Nat) : FieldRef := ⟨32 * (0x10a00580 + 4 * i) + 0, 32, 0⟩
def Reg.MOD_CTL_HOLD : FieldRef := ⟨32 * (0x10a00600) + 0, 1, 0⟩
def Reg.MOD_CTL_BUSY : FieldRef := ⟨32 * (0x10a00600) + 1, 1, 0⟩
def Reg.MOD_XFER_BUS : FieldRef := ⟨32 * (0x10a00604) + 0, 4, 0⟩
def Reg.MOD_XFER_RD : FieldRef := ⟨32 * (0x10a00604) + 4, 1, 0⟩
def Reg.MOD_XFER_GO : FieldRef := ⟨32 * (0x10a00604) + 5, 1, 0⟩
def Reg.MOD_XFER_DONE : FieldRef := ⟨32 * (0x10a00604) + 6, 1, 0⟩
def Reg.MOD_XFER_NAK : FieldRef := ⟨32 * (0x10a00604) + 7, 1, 0⟩
def Reg.MOD_XFER_OFFSET : FieldRef := ⟨32 * (0x10a00604) + 8, 8, 0⟩
def Reg.MOD_XFER_DATA : FieldRef := ⟨32 * (0x10a00604) + 16, 8, 0⟩
def Reg.NET_FLOW_SEL_INDEX : FieldRef := ⟨32 * (0x10600800) + 0, 12, 0⟩
def Reg.NET_FLOW_SEL_TX : FieldRef := ⟨32 * (0x10600800) + 12, 1, 0⟩
def Reg.NET_FLOW_SEL_SNAP : FieldRef := ⟨32 * (0x10600800) + 31, 1, 0⟩
def Reg.NET_FLOW_STAT_VALID : FieldRef := ⟨32 * (0x10600804) + 0, 1, 0⟩
def Reg.NET_FLOW_STAT_LEG_B : FieldRef := ⟨32 * (0x10600804) + 1, 1, 0⟩
def Reg.NET_FLOW_STAT_LOSS : FieldRef := ⟨32 * (0x10600804) + 2, 1, 0⟩
def Reg.NET_FLOW_STAT_LEG_LOSS : FieldRef := ⟨32 * (0x10600804) + 3, 2, 0⟩
def Reg.NET_FLOW_STAT_ENGINE : FieldRef := ⟨32 * (0x10600804) + 8, 5, 0⟩
def Reg.NET_FLOW_STAT_KIND : FieldRef := ⟨32 * (0x10600804) + 16, 4, 0⟩
def Reg.NET_FLOW_PKT_A_COUNT : FieldRef := ⟨32 * (0x10600808) + 0, 32, 0⟩
def Reg.NET_FLOW_PKT_B_COUNT : FieldRef := ⟨32 * (0x1060080c) + 0, 32, 0⟩
def Reg.NET_FLOW_C0_COUNT : FieldRef := ⟨32 * (0x10600810) + 0, 32, 0⟩
def Reg.NET_FLOW_C1_COUNT : FieldRef := ⟨32 * (0x10600814) + 0, 32, 0⟩
def Reg.NET_FLOW_C2_COUNT : FieldRef := ⟨32 * (0x10600818) + 0, 32, 0⟩
def Reg.NET_FLOW_C3_COUNT : FieldRef := ⟨32 * (0x1060081c) + 0, 32, 0⟩
def Reg.NET_FLOW_C4_COUNT : FieldRef := ⟨32 * (0x10600820) + 0, 32, 0⟩
def Reg.NET_FLOW_C5_COUNT : FieldRef := ⟨32 * (0x10600824) + 0, 32, 0⟩
def Reg.NET_FLOW_C6_COUNT : FieldRef := ⟨32 * (0x10600828) + 0, 32, 0⟩
def Reg.NET_FLOW_TS_TS : FieldRef := ⟨32 * (0x10600830) + 0, 32, 0⟩
def Reg.NET_FLOW_MARGIN_NS : FieldRef := ⟨32 * (0x10600834) + 0, 32, 0⟩
def Reg.NET_FLOW_HOLD_NS : FieldRef := ⟨32 * (0x10600838) + 0, 32, 0⟩
def Reg.NET_FLOW_ALARM_BITS : FieldRef := ⟨32 * (0x10600840) + 0, 13, 0⟩
def Reg.NET_FLOW_ALARM_EN_MASK : FieldRef := ⟨32 * (0x10600844) + 0, 13, 0⟩
def Reg.NET_FLOW_IND_ADDR_IDX : FieldRef := ⟨32 * (0x10600880) + 0, 16, 0⟩
def Reg.NET_FLOW_IND_DATA_DATA : FieldRef := ⟨32 * (0x10600884) + 0, 32, 0⟩
def Reg.AUD_CTL_XDELAY : FieldRef := ⟨32 * (0x100c0010) + 0, 6, 8⟩
def Reg.AUD_CLK_EN : FieldRef := ⟨32 * (0x100c0014) + 0, 1, 0⟩
def Reg.AUD_CLK_SLAVE : FieldRef := ⟨32 * (0x100c0014) + 1, 1, 0⟩
def Reg.AUD_CLK_RATE96 : FieldRef := ⟨32 * (0x100c0014) + 2, 1, 0⟩
def Reg.AUD_CLK_DELAY1 : FieldRef := ⟨32 * (0x100c0014) + 3, 1, 0⟩
def Reg.AUD_CLK_STATE : FieldRef := ⟨32 * (0x100c0014) + 8, 2, 0⟩
def Reg.AUD_ALARM_BITS : FieldRef := ⟨32 * (0x100c0018) + 0, 8, 0⟩
def Reg.AUD_ALARM_EN_MASK : FieldRef := ⟨32 * (0x100c001c) + 0, 8, 0⟩
def Reg.AUD_RATE_TH_PPM : FieldRef := ⟨32 * (0x100c0020) + 0, 16, 50⟩
def Reg.AUD_SNAP_GO : FieldRef := ⟨32 * (0x100c0024) + 0, 1, 0⟩
def Reg.AUD_DSP_OVER_COUNT (i : Nat) : FieldRef := ⟨32 * (0x100c0030 + 4 * i) + 0, 32, 0⟩
def Reg.AUD_IND_ADDR_IDX : FieldRef := ⟨32 * (0x100c0080) + 0, 16, 0⟩
def Reg.AUD_IND_DATA_DATA : FieldRef := ⟨32 * (0x100c0084) + 0, 32, 0⟩
def Reg.AUD_PORT_CTL_SDI_EN (i : Nat) : FieldRef := ⟨32 * (0x100c0100 + 64 * i) + 0, 1, 0⟩
def Reg.AUD_PORT_CTL_SDO_EN (i : Nat) : FieldRef := ⟨32 * (0x100c0100 + 64 * i) + 1, 1, 0⟩
def Reg.AUD_PORT_CTL_PRIME (i : Nat) : FieldRef := ⟨32 * (0x100c0100 + 64 * i) + 8, 5, 8⟩
def Reg.AUD_PORT_SLOTS_MASK (i : Nat) : FieldRef := ⟨32 * (0x100c0104 + 64 * i) + 0, 32, 0⟩
def Reg.AUD_SDI_IN_COUNT (i : Nat) : FieldRef := ⟨32 * (0x100c0108 + 64 * i) + 0, 32, 0⟩
def Reg.AUD_SDI_OUT_COUNT (i : Nat) : FieldRef := ⟨32 * (0x100c010c + 64 * i) + 0, 32, 0⟩
def Reg.AUD_SDI_REPEAT_COUNT (i : Nat) : FieldRef := ⟨32 * (0x100c0110 + 64 * i) + 0, 32, 0⟩
def Reg.AUD_SDI_DROP_COUNT (i : Nat) : FieldRef := ⟨32 * (0x100c0114 + 64 * i) + 0, 32, 0⟩
def Reg.AUD_SDO_IN_COUNT (i : Nat) : FieldRef := ⟨32 * (0x100c0118 + 64 * i) + 0, 32, 0⟩
def Reg.AUD_SDO_OUT_COUNT (i : Nat) : FieldRef := ⟨32 * (0x100c011c + 64 * i) + 0, 32, 0⟩
def Reg.AUD_SDO_REPEAT_COUNT (i : Nat) : FieldRef := ⟨32 * (0x100c0120 + 64 * i) + 0, 32, 0⟩
def Reg.AUD_SDO_DROP_COUNT (i : Nat) : FieldRef := ⟨32 * (0x100c0124 + 64 * i) + 0, 32, 0⟩
def Reg.AUD_FILL_SDI (i : Nat) : FieldRef := ⟨32 * (0x100c0128 + 64 * i) + 0, 6, 0⟩
def Reg.AUD_FILL_SDO (i : Nat) : FieldRef := ⟨32 * (0x100c0128 + 64 * i) + 16, 6, 0⟩
def Reg.AUD_FRAME_ERR_COUNT (i : Nat) : FieldRef := ⟨32 * (0x100c012c + 64 * i) + 0, 32, 0⟩
def Reg.MVW_ALARM_BITS : FieldRef := ⟨32 * (0x100d0010) + 0, 6, 0⟩
def Reg.MVW_ALARM_EN_MASK : FieldRef := ⟨32 * (0x100d0014) + 0, 6, 0⟩
def Reg.MVW_DIRTY_COUNT : FieldRef := ⟨32 * (0x100d0018) + 0, 32, 0⟩
def Reg.MVW_IND_ADDR_IDX : FieldRef := ⟨32 * (0x100d0020) + 0, 20, 0⟩
def Reg.MVW_IND_DATA_DATA : FieldRef := ⟨32 * (0x100d0024) + 0, 32, 0⟩
def Reg.MVW_ENG_FREE_COUNT : FieldRef := ⟨32 * (0x100d0028) + 0, 7, 96⟩
def Reg.MVW_H_CTL_EN (i : Nat) : FieldRef := ⟨32 * (0x100d0100 + 64 * i) + 0, 1, 0⟩
def Reg.MVW_H_CTL_FMT (i : Nat) : FieldRef := ⟨32 * (0x100d0100 + 64 * i) + 1, 1, 0⟩
def Reg.MVW_H_CTL_GEN (i : Nat) : FieldRef := ⟨32 * (0x100d0100 + 64 * i) + 4, 4, 0⟩
def Reg.MVW_H_BG_COLOUR (i : Nat) : FieldRef := ⟨32 * (0x100d0104 + 64 * i) + 0, 30, 0x4080200⟩
def Reg.MVW_H_ENG_COUNT (i : Nat) : FieldRef := ⟨32 * (0x100d0108 + 64 * i) + 0, 7, 0⟩
def Reg.MVW_H_ENGMAP_LO_MAP (i : Nat) : FieldRef := ⟨32 * (0x100d010c + 64 * i) + 0, 32, 0⟩
def Reg.MVW_H_ENGMAP_MID_MAP (i : Nat) : FieldRef := ⟨32 * (0x100d0110 + 64 * i) + 0, 32, 0⟩
def Reg.MVW_H_ENGMAP_HI_MAP (i : Nat) : FieldRef := ⟨32 * (0x100d0114 + 64 * i) + 0, 32, 0⟩
def Reg.MVW_H_ADV_NS (i : Nat) : FieldRef := ⟨32 * (0x100d0118 + 64 * i) + 0, 32, 0⟩
def Reg.MVW_H_STAT_PENDING (i : Nat) : FieldRef := ⟨32 * (0x100d011c + 64 * i) + 0, 1, 0⟩
def Reg.MVW_H_STAT_OVERRUN (i : Nat) : FieldRef := ⟨32 * (0x100d011c + 64 * i) + 1, 1, 0⟩
def Reg.MVW_H_OVERRUN_COUNT (i : Nat) : FieldRef := ⟨32 * (0x100d0120 + 64 * i) + 0, 32, 0⟩
def Reg.MVW_H_FC_LO_F (i : Nat) : FieldRef := ⟨32 * (0x100d0124 + 64 * i) + 0, 32, 0⟩
def Reg.MVW_H_FC_HI_F (i : Nat) : FieldRef := ⟨32 * (0x100d0128 + 64 * i) + 0, 32, 0⟩
def Reg.MVW_L_CTL_EN (i : Nat) : FieldRef := ⟨32 * (0x100d1000 + 48 * i) + 0, 1, 0⟩
def Reg.MVW_L_CTL_DECIM (i : Nat) : FieldRef := ⟨32 * (0x100d1000 + 48 * i) + 1, 1, 0⟩
def Reg.MVW_L_CTL_SRCQ (i : Nat) : FieldRef := ⟨32 * (0x100d1000 + 48 * i) + 2, 1, 0⟩
def Reg.MVW_L_CTL_INTERLACED (i : Nat) : FieldRef := ⟨32 * (0x100d1000 + 48 * i) + 3, 1, 0⟩
def Reg.MVW_L_CTL_S444 (i : Nat) : FieldRef := ⟨32 * (0x100d1000 + 48 * i) + 4, 1, 0⟩
def Reg.MVW_L_CTL_HSET (i : Nat) : FieldRef := ⟨32 * (0x100d1000 + 48 * i) + 8, 2, 0⟩
def Reg.MVW_L_CTL_VSET (i : Nat) : FieldRef := ⟨32 * (0x100d1000 + 48 * i) + 12, 2, 0⟩
def Reg.MVW_L_CTL_Z (i : Nat) : FieldRef := ⟨32 * (0x100d1000 + 48 * i) + 16, 7, 0⟩
def Reg.MVW_L_CTL_HOLD (i : Nat) : FieldRef := ⟨32 * (0x100d1000 + 48 * i) + 24, 8, 0⟩
def Reg.MVW_L_SRC_SLOT (i : Nat) : FieldRef := ⟨32 * (0x100d1004 + 48 * i) + 0, 13, 0⟩
def Reg.MVW_L_CROP_XY_X (i : Nat) : FieldRef := ⟨32 * (0x100d1008 + 48 * i) + 0, 13, 0⟩
def Reg.MVW_L_CROP_XY_Y (i : Nat) : FieldRef := ⟨32 * (0x100d1008 + 48 * i) + 16, 13, 0⟩
def Reg.MVW_L_CROP_WH_W (i : Nat) : FieldRef := ⟨32 * (0x100d100c + 48 * i) + 0, 13, 0⟩
def Reg.MVW_L_CROP_WH_H (i : Nat) : FieldRef := ⟨32 * (0x100d100c + 48 * i) + 16, 13, 0⟩
def Reg.MVW_L_WIN_XY_X (i : Nat) : FieldRef := ⟨32 * (0x100d1010 + 48 * i) + 0, 12, 0⟩
def Reg.MVW_L_WIN_XY_Y (i : Nat) : FieldRef := ⟨32 * (0x100d1010 + 48 * i) + 16, 12, 0⟩
def Reg.MVW_L_WIN_WH_W (i : Nat) : FieldRef := ⟨32 * (0x100d1014 + 48 * i) + 0, 12, 0⟩
def Reg.MVW_L_WIN_WH_H (i : Nat) : FieldRef := ⟨32 * (0x100d1014 + 48 * i) + 16, 12, 0⟩
def Reg.MVW_L_ALPHA_A (i : Nat) : FieldRef := ⟨32 * (0x100d1018 + 48 * i) + 0, 10, 1023⟩
def Reg.MVW_L_FILL_COLOUR (i : Nat) : FieldRef := ⟨32 * (0x100d101c + 48 * i) + 0, 30, 0x4080200⟩
def Reg.MVW_L_BUF_LO_ADDR (i : Nat) : FieldRef := ⟨32 * (0x100d1020 + 48 * i) + 0, 32, 0⟩
def Reg.MVW_L_BUF_HI_ADDR (i : Nat) : FieldRef := ⟨32 * (0x100d1024 + 48 * i) + 0, 32, 0⟩
def Reg.MVW_L_STAT_LATE (i : Nat) : FieldRef := ⟨32 * (0x100d1028 + 48 * i) + 0, 1, 0⟩
def Reg.MVW_L_STAT_NEVER (i : Nat) : FieldRef := ⟨32 * (0x100d1028 + 48 * i) + 1, 1, 1⟩
def Reg.MVW_L_STAT_IDLE (i : Nat) : FieldRef := ⟨32 * (0x100d1028 + 48 * i) + 2, 1, 0⟩
def Reg.MVW_L_STAT_CLAMP (i : Nat) : FieldRef := ⟨32 * (0x100d1028 + 48 * i) + 3, 1, 0⟩
def Reg.MVW_L_STAT_ROW_LATE (i : Nat) : FieldRef := ⟨32 * (0x100d1028 + 48 * i) + 4, 1, 0⟩
def Reg.MVW_L_STAT_FMT (i : Nat) : FieldRef := ⟨32 * (0x100d1028 + 48 * i) + 5, 1, 0⟩
def Reg.MVW_L_STAT_HOLD_EXP (i : Nat) : FieldRef := ⟨32 * (0x100d1028 + 48 * i) + 6, 1, 0⟩
def Reg.MVW_L_CNT_REPEAT (i : Nat) : FieldRef := ⟨32 * (0x100d102c + 48 * i) + 0, 16, 0⟩
def Reg.MVW_L_CNT_SKIP (i : Nat) : FieldRef := ⟨32 * (0x100d102c + 48 * i) + 16, 16, 0⟩
def Reg.ENC_ALARM_BITS : FieldRef := ⟨32 * (0x100e0010) + 0, 6, 0⟩
def Reg.ENC_ALARM_EN_MASK : FieldRef := ⟨32 * (0x100e0014) + 0, 6, 0⟩
def Reg.ENC_ENG_EN_LO_EN : FieldRef := ⟨32 * (0x100e0020) + 0, 32, 0xffffffff⟩
def Reg.ENC_ENG_EN_HI_EN : FieldRef := ⟨32 * (0x100e0024) + 0, 16, 65535⟩
def Reg.ENC_ENG_HELD_LO_MAP : FieldRef := ⟨32 * (0x100e0028) + 0, 32, 0⟩
def Reg.ENC_ENG_HELD_HI_MAP : FieldRef := ⟨32 * (0x100e002c) + 0, 16, 0⟩
def Reg.ENC_ENG_FREE_COUNT : FieldRef := ⟨32 * (0x100e0030) + 0, 6, 48⟩
def Reg.ENC_XS_LOAD_KPPS : FieldRef := ⟨32 * (0x100e0034) + 0, 32, 0⟩
def Reg.ENC_IND_ADDR_IDX : FieldRef := ⟨32 * (0x100e0040) + 0, 20, 0⟩
def Reg.ENC_IND_DATA_DATA : FieldRef := ⟨32 * (0x100e0044) + 0, 32, 0⟩
def Reg.TIM_STAT_STATE : FieldRef := ⟨32 * (0x10060010) + 0, 3, 0⟩
def Reg.TIM_STAT_TIME_VALID : FieldRef := ⟨32 * (0x10060010) + 4, 1, 0⟩
def Reg.TIM_STAT_BIAS_ACTIVE : FieldRef := ⟨32 * (0x10060010) + 5, 1, 0⟩
def Reg.TIM_STAT_SEL : FieldRef := ⟨32 * (0x10060010) + 8, 2, 0⟩
def Reg.TIM_ALARM_BITS : FieldRef := ⟨32 * (0x10060014) + 0, 7, 0⟩
def Reg.TIM_ALARM_EN_MASK : FieldRef := ⟨32 * (0x10060018) + 0, 7, 0⟩
def Reg.TIM_NS_LO_NS : FieldRef := ⟨32 * (0x10060020) + 0, 32, 0⟩
def Reg.TIM_NS_HI_NS : FieldRef := ⟨32 * (0x10060024) + 0, 32, 0⟩
def Reg.TIM_SNAP_GO : FieldRef := ⟨32 * (0x10060028) + 0, 1, 0⟩
def Reg.TIM_SNAP_LO_NS : FieldRef := ⟨32 * (0x1006002c) + 0, 32, 0⟩
def Reg.TIM_SNAP_HI_NS : FieldRef := ⟨32 * (0x10060030) + 0, 32, 0⟩
def Reg.TIM_SNAP_FRAC_F : FieldRef := ⟨32 * (0x10060034) + 0, 32, 0⟩
def Reg.TIM_INC_Y : FieldRef := ⟨32 * (0x10060038) + 0, 32, 0⟩
def Reg.TIM_SLEW_LIMIT : FieldRef := ⟨32 * (0x1006003c) + 0, 16, 500⟩
def Reg.TIM_SLEW_MAXPPM : FieldRef := ⟨32 * (0x1006003c) + 16, 8, 10⟩
def Reg.TIM_LARGE_NS : FieldRef := ⟨32 * (0x10060040) + 0, 20, 1000⟩
def Reg.TIM_SPLIT_NS : FieldRef := ⟨32 * (0x10060044) + 0, 20, 1000⟩
def Reg.TIM_BIAS_RATE : FieldRef := ⟨32 * (0x10060048) + 0, 16, 100⟩
def Reg.TIM_BIAS_HOLD : FieldRef := ⟨32 * (0x10060048) + 31, 1, 0⟩
def Reg.TIM_OFS_A_NS : FieldRef := ⟨32 * (0x10060050) + 0, 32, 0x7fffffff⟩
def Reg.TIM_OFS_B_NS : FieldRef := ⟨32 * (0x10060054) + 0, 32, 0x7fffffff⟩
def Reg.TIM_BIAS_NS_NS : FieldRef := ⟨32 * (0x10060058) + 0, 32, 0⟩
def Reg.TIM_SET_LO_NS : FieldRef := ⟨32 * (0x10060060) + 0, 32, 0⟩
def Reg.TIM_SET_HI_NS : FieldRef := ⟨32 * (0x10060064) + 0, 32, 0⟩
def Reg.TIM_SET_GO_GO : FieldRef := ⟨32 * (0x10060068) + 0, 1, 0⟩
def Reg.TIM_MGT_DLY_RX (i : Nat) : FieldRef := ⟨32 * (0x10060070 + 4 * i) + 0, 16, 0⟩
def Reg.TIM_MGT_DLY_TX (i : Nat) : FieldRef := ⟨32 * (0x10060070 + 4 * i) + 16, 16, 0⟩
def Reg.TIM_TC_DROP_COUNT : FieldRef := ⟨32 * (0x10060080) + 0, 32, 0⟩
def Reg.TIM_ASYM_NS (i : Nat) : FieldRef := ⟨32 * (0x10060200 + 4 * i) + 0, 16, 0⟩
def Reg.TIM_PULSE_CTL_EN (i : Nat) : FieldRef := ⟨32 * (0x10060100 + 32 * i) + 0, 1, 0⟩
def Reg.TIM_PULSE_CTL_PERIODIC (i : Nat) : FieldRef := ⟨32 * (0x10060100 + 32 * i) + 1, 1, 0⟩
def Reg.TIM_PULSE_CTL_ACTIVE_LOW (i : Nat) : FieldRef := ⟨32 * (0x10060100 + 32 * i) + 2, 1, 0⟩
def Reg.TIM_PULSE_CTL_LOAD (i : Nat) : FieldRef := ⟨32 * (0x10060100 + 32 * i) + 3, 1, 0⟩
def Reg.TIM_PULSE_START_LO_NS (i : Nat) : FieldRef := ⟨32 * (0x10060104 + 32 * i) + 0, 32, 0⟩
def Reg.TIM_PULSE_START_HI_NS (i : Nat) : FieldRef := ⟨32 * (0x10060108 + 32 * i) + 0, 32, 0⟩
def Reg.TIM_PULSE_N_N (i : Nat) : FieldRef := ⟨32 * (0x1006010c + 32 * i) + 0, 32, 0⟩
def Reg.TIM_PULSE_D_D (i : Nat) : FieldRef := ⟨32 * (0x10060110 + 32 * i) + 0, 16, 1⟩
def Reg.TIM_PULSE_WIDTH_NS (i : Nat) : FieldRef := ⟨32 * (0x10060114 + 32 * i) + 0, 30, 8⟩
def Reg.TIM_PULSE_STAT_ARMED (i : Nat) : FieldRef := ⟨32 * (0x10060118 + 32 * i) + 0, 1, 0⟩
def Reg.TIM_PULSE_STAT_LATE (i : Nat) : FieldRef := ⟨32 * (0x10060118 + 32 * i) + 1, 1, 0⟩
def Reg.TIM_PULSE_STAT_LEVEL (i : Nat) : FieldRef := ⟨32 * (0x10060118 + 32 * i) + 2, 1, 0⟩
def Reg.REF_CTL_REVERTIVE : FieldRef := ⟨32 * (0x10070010) + 0, 1, 1⟩
def Reg.REF_CTL_USE_OCXO : FieldRef := ⟨32 * (0x10070010) + 1, 1, 0⟩
def Reg.REF_CTL_OCXO_20M : FieldRef := ⟨32 * (0x10070010) + 2, 1, 0⟩
def Reg.REF_CTL_FORCE : FieldRef := ⟨32 * (0x10070010) + 3, 1, 0⟩
def Reg.REF_CTL_FORCE_ENTRY : FieldRef := ⟨32 * (0x10070010) + 4, 3, 0⟩
def Reg.REF_STAT_STATE : FieldRef := ⟨32 * (0x10070014) + 0, 2, 0⟩
def Reg.REF_STAT_ACTIVE : FieldRef := ⟨32 * (0x10070014) + 4, 3, 0⟩
def Reg.REF_STAT_NONE : FieldRef := ⟨32 * (0x10070014) + 7, 1, 1⟩
def Reg.REF_STAT_DISCORD : FieldRef := ⟨32 * (0x10070014) + 8, 1, 0⟩
def Reg.REF_STAT_HO_WEAK : FieldRef := ⟨32 * (0x10070014) + 9, 1, 0⟩
def Reg.REF_ALARM_BITS : FieldRef := ⟨32 * (0x10070018) + 0, 8, 0⟩
def Reg.REF_ALARM_EN_MASK : FieldRef := ⟨32 * (0x1007001c) + 0, 8, 0⟩
def Reg.REF_QUAL_S : FieldRef := ⟨32 * (0x10070020) + 0, 10, 10⟩
def Reg.REF_CONCORD_CPPM : FieldRef := ⟨32 * (0x10070024) + 0, 14, 200⟩
def Reg.REF_FLIMIT_CPPM : FieldRef := ⟨32 * (0x10070028) + 0, 14, 1000⟩
def Reg.REF_YH_Y : FieldRef := ⟨32 * (0x1007002c) + 0, 32, 0⟩
def Reg.REF_E_CFG_INPUT (i : Nat) : FieldRef := ⟨32 * (0x10070100 + 64 * i) + 0, 4, refInputReset i⟩
def Reg.REF_E_CFG_RANK (i : Nat) : FieldRef := ⟨32 * (0x10070100 + 64 * i) + 8, 4, refRankReset i⟩
def Reg.REF_E_CFG_ACTIVE_LOW (i : Nat) : FieldRef := ⟨32 * (0x10070100 + 64 * i) + 12, 1, 0⟩
def Reg.REF_E_CFG_CLASS (i : Nat) : FieldRef := ⟨32 * (0x10070100 + 64 * i) + 16, 8, 7⟩
def Reg.REF_E_BW_DHZ (i : Nat) : FieldRef := ⟨32 * (0x10070104 + 64 * i) + 0, 10, refBwReset i⟩
def Reg.REF_E_N_N (i : Nat) : FieldRef := ⟨32 * (0x10070108 + 64 * i) + 0, 32, 60000⟩
def Reg.REF_E_D_D (i : Nat) : FieldRef := ⟨32 * (0x1007010c + 64 * i) + 0, 16, 1001⟩
def Reg.REF_E_LINES_COUNT (i : Nat) : FieldRef := ⟨32 * (0x10070110 + 64 * i) + 0, 13, 0⟩
def Reg.REF_E_DLY_NS (i : Nat) : FieldRef := ⟨32 * (0x10070114 + 64 * i) + 0, 32, 0⟩
def Reg.REF_E_STAT_STATE (i : Nat) : FieldRef := ⟨32 * (0x10070118 + 64 * i) + 0, 3, 0⟩
def Reg.REF_E_STAT_QUAL_LEFT (i : Nat) : FieldRef := ⟨32 * (0x10070118 + 64 * i) + 16, 10, 0⟩
def Reg.REF_E_HIST_LOST (i : Nat) : FieldRef := ⟨32 * (0x1007011c + 64 * i) + 0, 1, 0⟩
def Reg.REF_E_HIST_QUALIFIED (i : Nat) : FieldRef := ⟨32 * (0x1007011c + 64 * i) + 1, 1, 0⟩
def Reg.REF_E_HIST_DISQUALIFIED (i : Nat) : FieldRef := ⟨32 * (0x1007011c + 64 * i) + 2, 1, 0⟩
def Reg.REF_E_HIST_SELECTED (i : Nat) : FieldRef := ⟨32 * (0x1007011c + 64 * i) + 3, 1, 0⟩
def Reg.REF_E_HIST_DESELECTED (i : Nat) : FieldRef := ⟨32 * (0x1007011c + 64 * i) + 4, 1, 0⟩
def Reg.REF_E_HIST_DISCORD (i : Nat) : FieldRef := ⟨32 * (0x1007011c + 64 * i) + 5, 1, 0⟩
def Reg.REF_E_FREQ_Y (i : Nat) : FieldRef := ⟨32 * (0x10070120 + 64 * i) + 0, 32, 0⟩
def Reg.REF_E_PHASE_NS (i : Nat) : FieldRef := ⟨32 * (0x10070124 + 64 * i) + 0, 32, 0x7fffffff⟩
def Reg.REF_FP_CTL_EN (i : Nat) : FieldRef := ⟨32 * (0x10070400 + 32 * i) + 0, 1, 0⟩
def Reg.REF_FP_CTL_ACTIVE_LOW (i : Nat) : FieldRef := ⟨32 * (0x10070400 + 32 * i) + 1, 1, 0⟩
def Reg.REF_FP_CTL_JUMP (i : Nat) : FieldRef := ⟨32 * (0x10070400 + 32 * i) + 2, 1, 0⟩
def Reg.REF_FP_CTL_SRC (i : Nat) : FieldRef := ⟨32 * (0x10070400 + 32 * i) + 8, 5, 0⟩
def Reg.REF_FP_OFS_NS (i : Nat) : FieldRef := ⟨32 * (0x10070404 + 32 * i) + 0, 32, 0⟩
def Reg.REF_FP_WIDTH_NS (i : Nat) : FieldRef := ⟨32 * (0x10070408 + 32 * i) + 0, 20, 8⟩
def Reg.REF_FP_STAT_FLYWHEEL (i : Nat) : FieldRef := ⟨32 * (0x1007040c + 32 * i) + 0, 1, 0⟩
def Reg.REF_FP_STAT_LOCKED (i : Nat) : FieldRef := ⟨32 * (0x1007040c + 32 * i) + 1, 1, 0⟩
def Reg.REF_VCLK_EN (i : Nat) : FieldRef := ⟨32 * (0x10070500 + 4 * i) + 0, 1, 0⟩
def Reg.REF_VCLK_FAMILY1 (i : Nat) : FieldRef := ⟨32 * (0x10070500 + 4 * i) + 1, 1, 0⟩
def Reg.REF_VCLK_SEL (i : Nat) : FieldRef := ⟨32 * (0x10070500 + 4 * i) + 4, 2, 0⟩
def Reg.REF_ACLK_EN : FieldRef := ⟨32 * (0x10070508) + 0, 1, 0⟩
def Reg.REF_ACLK_SEL : FieldRef := ⟨32 * (0x10070508) + 4, 2, 0⟩
def Reg.TWN_CTL_EN : FieldRef := ⟨32 * (0x10080010) + 0, 1, 0⟩
def Reg.TWN_CTL_SIDE_B : FieldRef := ⟨32 * (0x10080010) + 1, 1, 0⟩
def Reg.TWN_CTL_HOME : FieldRef := ⟨32 * (0x10080010) + 2, 1, 0⟩
def Reg.TWN_CTL_AUTO_RESYNC : FieldRef := ⟨32 * (0x10080010) + 3, 1, 1⟩
def Reg.TWN_CTL_HOLD_LOW : FieldRef := ⟨32 * (0x10080010) + 8, 1, 0⟩
def Reg.TWN_STAT_ROLE : FieldRef := ⟨32 * (0x10080014) + 0, 2, 0⟩
def Reg.TWN_STAT_LEASE : FieldRef := ⟨32 * (0x10080014) + 2, 1, 1⟩
def Reg.TWN_STAT_PARTNER : FieldRef := ⟨32 * (0x10080014) + 4, 2, 0⟩
def Reg.TWN_STAT_RESYNC : FieldRef := ⟨32 * (0x10080014) + 8, 3, 0⟩
def Reg.TWN_STAT_FENCE_PIN : FieldRef := ⟨32 * (0x10080014) + 12, 1, 0⟩
def Reg.TWN_STAT_AUTHORITY : FieldRef := ⟨32 * (0x10080014) + 13, 1, 0⟩
def Reg.TWN_STAT_TIME_ORIGIN : FieldRef := ⟨32 * (0x10080014) + 14, 1, 0⟩
def Reg.TWN_STAT_LKO_OK : FieldRef := ⟨32 * (0x10080014) + 15, 1, 0⟩
def Reg.TWN_ALARM_BITS : FieldRef := ⟨32 * (0x10080018) + 0, 13, 0⟩
def Reg.TWN_ALARM_EN_MASK : FieldRef := ⟨32 * (0x1008001c) + 0, 13, 0⟩
def Reg.TWN_LEASE_EPOCH_LO_E : FieldRef := ⟨32 * (0x10080020) + 0, 32, 0⟩
def Reg.TWN_LEASE_EPOCH_HI_E : FieldRef := ⟨32 * (0x10080024) + 0, 32, 0⟩
def Reg.TWN_LEASE_LEFT_US : FieldRef := ⟨32 * (0x10080028) + 0, 20, 0⟩
def Reg.TWN_LKO_MARK_TICKS : FieldRef := ⟨32 * (0x1008002c) + 0, 32, 0⟩
def Reg.TWN_LEASE_ARM_MS : FieldRef := ⟨32 * (0x10080030) + 0, 10, 0⟩
def Reg.TWN_LEASE_ARM_GO : FieldRef := ⟨32 * (0x10080030) + 31, 1, 0⟩
def Reg.TWN_ARM_EPOCH_LO_E : FieldRef := ⟨32 * (0x10080034) + 0, 32, 0⟩
def Reg.TWN_ARM_EPOCH_HI_E : FieldRef := ⟨32 * (0x10080038) + 0, 32, 0⟩
def Reg.TWN_LEASE_DROP_DROP : FieldRef := ⟨32 * (0x1008003c) + 0, 1, 0⟩
def Reg.TWN_TALLY_MASK_LO_MASK : FieldRef := ⟨32 * (0x10080040) + 0, 32, 0⟩
def Reg.TWN_TALLY_MASK_HI_MASK : FieldRef := ⟨32 * (0x10080044) + 0, 32, 0⟩
def Reg.TWN_TALLY_SAFE_LO_LEVEL : FieldRef := ⟨32 * (0x10080048) + 0, 32, 0⟩
def Reg.TWN_TALLY_SAFE_HI_LEVEL : FieldRef := ⟨32 * (0x1008004c) + 0, 32, 0⟩
def Reg.TWN_LOCK_LOCK : FieldRef := ⟨32 * (0x10080050) + 0, 1, 0⟩
def Reg.TWN_GEN_GEN : FieldRef := ⟨32 * (0x10080054) + 0, 32, 0⟩
def Reg.TWN_PGEN_GEN : FieldRef := ⟨32 * (0x10080058) + 0, 32, 0⟩
def Reg.TWN_HB_MISSED_COUNT : FieldRef := ⟨32 * (0x1008005c) + 0, 32, 0⟩
def Reg.TWN_OUT_DIVERGE_COUNT : FieldRef := ⟨32 * (0x10080060) + 0, 32, 0⟩
def Reg.TWN_MIRROR_DROP_COUNT : FieldRef := ⟨32 * (0x10080064) + 0, 32, 0⟩
def Reg.TWN_AUTH_FAIL_COUNT : FieldRef := ⟨32 * (0x10080068) + 0, 32, 0⟩
def Reg.TWN_TIME_SPLIT_NS : FieldRef := ⟨32 * (0x1008006c) + 0, 16, 500⟩
def Reg.TWN_BIST_EN : FieldRef := ⟨32 * (0x10080070) + 0, 1, 1⟩
def Reg.TWN_BIST_PERIOD_S : FieldRef := ⟨32 * (0x10080070) + 8, 8, 60⟩
def Reg.TWN_BIST_PASS_COUNT : FieldRef := ⟨32 * (0x10080074) + 0, 32, 0⟩
def Reg.TWN_BIST_FAIL_COUNT : FieldRef := ⟨32 * (0x10080078) + 0, 32, 0⟩
def Reg.VLT_STAT_READY : FieldRef := ⟨32 * (0x10040010) + 0, 1, 0⟩
def Reg.VLT_STAT_LCS : FieldRef := ⟨32 * (0x10040010) + 4, 3, 1⟩
def Reg.VLT_STAT_PUF_OK : FieldRef := ⟨32 * (0x10040010) + 8, 1, 0⟩
def Reg.VLT_STAT_TRNG_OK : FieldRef := ⟨32 * (0x10040010) + 9, 1, 0⟩
def Reg.VLT_STAT_FLOOR : FieldRef := ⟨32 * (0x10040010) + 16, 7, 0⟩
def Reg.VLT_STAT_KEYREV : FieldRef := ⟨32 * (0x10040010) + 24, 4, 0⟩
def Reg.VLT_STAT_DEV_STEPS : FieldRef := ⟨32 * (0x10040010) + 28, 3, 0⟩
def Reg.VLT_ALARM_BITS : FieldRef := ⟨32 * (0x10040014) + 0, 7, 0⟩
def Reg.VLT_ALARM_EN_MASK : FieldRef := ⟨32 * (0x10040018) + 0, 7, 0⟩
def Reg.VLT_CTL_PLAIN_DIS : FieldRef := ⟨32 * (0x1004001c) + 0, 1, 0⟩
def Reg.VLT_USED_VOLATILE : FieldRef := ⟨32 * (0x10040020) + 0, 10, 0⟩
def Reg.VLT_USED_OTP : FieldRef := ⟨32 * (0x10040020) + 16, 6, 0⟩
def Reg.VLT_USED_LEGACY : FieldRef := ⟨32 * (0x10040020) + 24, 7, 0⟩
def Reg.VLT_SCRUB_COUNT : FieldRef := ⟨32 * (0x10040024) + 0, 32, 0⟩
def Reg.VLT_BAD_COUNT : FieldRef := ⟨32 * (0x10040028) + 0, 32, 0⟩
def Reg.VLT_UNWRAP_ERR_COUNT : FieldRef := ⟨32 * (0x1004002c) + 0, 32, 0⟩
def Reg.VLT_JTAG_MODE : FieldRef := ⟨32 * (0x10040030) + 0, 2, 0⟩
def Reg.VLT_IND_ADDR_IDX : FieldRef := ⟨32 * (0x10040080) + 0, 16, 0⟩
def Reg.VLT_IND_DATA_DATA : FieldRef := ⟨32 * (0x10040084) + 0, 32, 0⟩
def Reg.MEM_STAT_GROUP_READY : FieldRef := ⟨32 * (0x100f0010) + 0, 4, 0⟩
def Reg.MEM_STAT_DENSITY : FieldRef := ⟨32 * (0x100f0010) + 8, 2, 0⟩
def Reg.MEM_ALARM_BITS : FieldRef := ⟨32 * (0x100f0014) + 0, 9, 0⟩
def Reg.MEM_ALARM_EN_MASK : FieldRef := ⟨32 * (0x100f0018) + 0, 9, 0⟩
def Reg.MEM_SET_CTL_FIRST (i : Nat) : FieldRef := ⟨32 * (0x100f0100 + 32 * i) + 0, 6, memFirstReset i⟩
def Reg.MEM_SET_CTL_COUNT (i : Nat) : FieldRef := ⟨32 * (0x100f0100 + 32 * i) + 8, 6, memCountReset i⟩
def Reg.MEM_SET_CTL_GRAIN (i : Nat) : FieldRef := ⟨32 * (0x100f0100 + 32 * i) + 16, 4, 12⟩
def Reg.MEM_SET_CTL_EN (i : Nat) : FieldRef := ⟨32 * (0x100f0100 + 32 * i) + 31, 1, memEnReset i⟩
def Reg.MEM_SET_BASE_LO_B (i : Nat) : FieldRef := ⟨32 * (0x100f0104 + 32 * i) + 0, 32, memBaseReset i % 2 ^ 32⟩
def Reg.MEM_SET_BASE_HI_B (i : Nat) : FieldRef := ⟨32 * (0x100f0108 + 32 * i) + 0, 7, memBaseReset i / 2 ^ 32⟩
def Reg.MEM_SET_SIZE_LO_S (i : Nat) : FieldRef := ⟨32 * (0x100f010c + 32 * i) + 0, 32, 0⟩
def Reg.MEM_SET_SIZE_HI_S (i : Nat) : FieldRef := ⟨32 * (0x100f0110 + 32 * i) + 0, 7, 0⟩
def Reg.MEM_SET_RSV_LO_BYTES (i : Nat) : FieldRef := ⟨32 * (0x100f0114 + 32 * i) + 0, 32, memRsvReset i⟩
def Reg.MEM_SET_RSV_HI_BYTES (i : Nat) : FieldRef := ⟨32 * (0x100f0118 + 32 * i) + 0, 7, 0⟩
def Reg.MEM_SET_PASR_MASK (i : Nat) : FieldRef := ⟨32 * (0x100f011c + 32 * i) + 0, 8, 0⟩
def Reg.MEM_REG_BASE_LO_EN (i : Nat) : FieldRef := ⟨32 * (0x100f0400 + 16 * i) + 0, 1, 0⟩
def Reg.MEM_REG_BASE_LO_PROTECTED (i : Nat) : FieldRef := ⟨32 * (0x100f0400 + 16 * i) + 1, 1, 0⟩
def Reg.MEM_REG_BASE_LO_ADDR (i : Nat) : FieldRef := ⟨32 * (0x100f0400 + 16 * i) + 16, 16, 0⟩
def Reg.MEM_REG_BASE_HI_ADDR (i : Nat) : FieldRef := ⟨32 * (0x100f0404 + 16 * i) + 0, 32, 0⟩
def Reg.MEM_REG_SIZE_LO_BYTES (i : Nat) : FieldRef := ⟨32 * (0x100f0408 + 16 * i) + 16, 16, 0⟩
def Reg.MEM_REG_SIZE_HI_BYTES (i : Nat) : FieldRef := ⟨32 * (0x100f040c + 16 * i) + 0, 7, 0⟩
def Reg.DMC_STAT_TRAINED (w : Nat) : FieldRef := ⟨32 * (0x10300010 + 0x10000 * w) + 0, 1, 0⟩
def Reg.DMC_STAT_FAILED (w : Nat) : FieldRef := ⟨32 * (0x10300010 + 0x10000 * w) + 1, 1, 0⟩
def Reg.DMC_STAT_SR (w : Nat) : FieldRef := ⟨32 * (0x10300010 + 0x10000 * w) + 2, 1, 1⟩
def Reg.DMC_STAT_REFRATE (w : Nat) : FieldRef := ⟨32 * (0x10300010 + 0x10000 * w) + 4, 3, 0⟩
def Reg.DMC_ID_USED (w : Nat) : FieldRef := ⟨32 * (0x10300014 + 0x10000 * w) + 0, 11, 0⟩
def Reg.DMC_ID_WAIT_COUNT (w : Nat) : FieldRef := ⟨32 * (0x10300018 + 0x10000 * w) + 0, 32, 0⟩
def Reg.DMC_LECC_CORR_COUNT (w : Nat) : FieldRef := ⟨32 * (0x1030001c + 0x10000 * w) + 0, 32, 0⟩
def Reg.DMC_LECC_UNCORR_COUNT (w : Nat) : FieldRef := ⟨32 * (0x10300020 + 0x10000 * w) + 0, 32, 0⟩
def Reg.DMC_RETRAIN_COUNT (w : Nat) : FieldRef := ⟨32 * (0x10300024 + 0x10000 * w) + 0, 32, 0⟩
def Reg.DMC_PAT_CTL_EN (w : Nat) : FieldRef := ⟨32 * (0x10300040 + 0x10000 * w) + 0, 1, 0⟩
def Reg.DMC_PAT_CTL_MODE (w : Nat) : FieldRef := ⟨32 * (0x10300040 + 0x10000 * w) + 1, 2, 0⟩
def Reg.DMC_PAT_CTL_TARGET (w : Nat) : FieldRef := ⟨32 * (0x10300040 + 0x10000 * w) + 4, 3, 0⟩
def Reg.DMC_PAT_CTL_GO (w : Nat) : FieldRef := ⟨32 * (0x10300040 + 0x10000 * w) + 8, 1, 0⟩
def Reg.DMC_PAT_CTL_DONE (w : Nat) : FieldRef := ⟨32 * (0x10300040 + 0x10000 * w) + 9, 1, 0⟩
def Reg.DMC_PAT_USER_DATA (w : Nat) (i : Nat) : FieldRef := ⟨32 * (0x10300080 + 0x10000 * w + 4 * i) + 0, 32, 0⟩
def Reg.DMC_CMP_ERR_COUNT (w : Nat) : FieldRef := ⟨32 * (0x103000c0 + 0x10000 * w) + 0, 32, 0⟩
def Reg.DMC_CMP_LANE_MASK (w : Nat) : FieldRef := ⟨32 * (0x103000c4 + 0x10000 * w) + 0, 18, 0⟩
def Reg.DMC_DLY_IDX_IDX (w : Nat) : FieldRef := ⟨32 * (0x103000d0 + 0x10000 * w) + 0, 8, 0⟩
def Reg.DMC_DLY_DATA_VAL (w : Nat) : FieldRef := ⟨32 * (0x103000d4 + 0x10000 * w) + 0, 16, 0⟩
def Reg.SKW_AGE_CYCLES : FieldRef := ⟨32 * (0x10050010) + 0, 11, 1024⟩
def Reg.SKW_ALARM_BITS : FieldRef := ⟨32 * (0x10050014) + 0, 3, 0⟩
def Reg.SKW_ALARM_EN_MASK : FieldRef := ⟨32 * (0x10050018) + 0, 3, 0⟩
def Reg.SKW_ERR_ADDR_LO_ADDR : FieldRef := ⟨32 * (0x10050020) + 0, 32, 0⟩
def Reg.SKW_ERR_ADDR_HI_ADDR : FieldRef := ⟨32 * (0x10050024) + 0, 32, 0⟩
def Reg.SKW_ERR_INFO_MASTER : FieldRef := ⟨32 * (0x10050028) + 0, 6, 0⟩
def Reg.SKW_ERR_INFO_TARGET : FieldRef := ⟨32 * (0x10050028) + 8, 3, 0⟩
def Reg.SKW_ERR_INFO_KIND : FieldRef := ⟨32 * (0x10050028) + 12, 2, 0⟩
def Reg.SKW_ORPHAN_COUNT : FieldRef := ⟨32 * (0x10050030) + 0, 32, 0⟩
def Reg.SKW_TGT_LOST_COUNT : FieldRef := ⟨32 * (0x10050034) + 0, 32, 0⟩
def Reg.SKW_RWEIGHT_W (i : Nat) : FieldRef := ⟨32 * (0x10050080 + 4 * i) + 0, 4, skwWeightReset i⟩
def Reg.SKW_PRIO_PRIO (i : Nat) : FieldRef := ⟨32 * (0x10050100 + 4 * i) + 0, 28, skwPrioReset i⟩
def Reg.FLT_STAT_ERR : FieldRef := ⟨32 * (0x10020010) + 0, 1, 0⟩
def Reg.FLT_STAT_HIGHEST : FieldRef := ⟨32 * (0x10020010) + 4, 3, 0⟩
def Reg.FLT_STAT_HISTORY_LOST : FieldRef := ⟨32 * (0x10020010) + 8, 1, 0⟩
def Reg.FLT_STAT_OVF : FieldRef := ⟨32 * (0x10020010) + 9, 1, 0⟩
def Reg.FLT_STAT_OVF_CLASS : FieldRef := ⟨32 * (0x10020010) + 12, 3, 0⟩
def Reg.FLT_STAT_FIRST_VALID : FieldRef := ⟨32 * (0x10020010) + 16, 1, 0⟩
def Reg.FLT_STAT_RESTARTS : FieldRef := ⟨32 * (0x10020010) + 17, 2, 0⟩
def Reg.FLT_CTL_THRESH : FieldRef := ⟨32 * (0x10020014) + 0, 3, 3⟩
def Reg.FLT_FIRST_CODE_CODE : FieldRef := ⟨32 * (0x10020018) + 0, 16, 0⟩
def Reg.FLT_FIRST_CODE_CLASS : FieldRef := ⟨32 * (0x10020018) + 16, 3, 0⟩
def Reg.FLT_FIRST_SRC_SRC : FieldRef := ⟨32 * (0x1002001c) + 0, 32, 0⟩
def Reg.FLT_FIRST_OBJ_OBJ : FieldRef := ⟨32 * (0x10020020) + 0, 32, 0⟩
def Reg.FLT_FIRST_NUM_NUM : FieldRef := ⟨32 * (0x10020024) + 0, 32, 0⟩
def Reg.FLT_FIRST_TS_LO_NS : FieldRef := ⟨32 * (0x10020028) + 0, 32, 0⟩
def Reg.FLT_FIRST_TS_HI_NS : FieldRef := ⟨32 * (0x1002002c) + 0, 32, 0⟩
def Reg.FLT_HIST_IDX_IDX : FieldRef := ⟨32 * (0x10020030) + 0, 8, 0⟩
def Reg.FLT_HIST_DATA_DATA : FieldRef := ⟨32 * (0x10020034) + 0, 32, 0⟩
def Reg.FLT_HIST_LOST_COUNT : FieldRef := ⟨32 * (0x10020038) + 0, 32, 0⟩
def Reg.FLT_CNT_COUNT (i : Nat) : FieldRef := ⟨32 * (0x10020040 + 4 * i) + 0, 32, 0⟩
def Reg.FLT_UNCLR_COUNT : FieldRef := ⟨32 * (0x10020060) + 0, 11, 0⟩
def Reg.FLT_RESTART_COUNT : FieldRef := ⟨32 * (0x10020064) + 0, 32, 0⟩
def Reg.FLT_KEEP_QUAD : FieldRef := ⟨32 * (0x10020070) + 0, 5, 0⟩
def Reg.FLT_THERM_WARN_C : FieldRef := ⟨32 * (0x10020074) + 0, 8, 100⟩
def Reg.FLT_THERM_SHED_C : FieldRef := ⟨32 * (0x10020074) + 8, 8, 105⟩
def Reg.FLT_THERM_LOCK : FieldRef := ⟨32 * (0x10020074) + 31, 1, 0⟩
def Reg.FLT_TJ_C : FieldRef := ⟨32 * (0x10020078) + 0, 8, 0⟩
def Reg.FLT_INJECT_CLASS : FieldRef := ⟨32 * (0x10020080) + 0, 3, 0⟩
def Reg.PWR_STAT_STATE : FieldRef := ⟨32 * (0x10030010) + 0, 2, 2⟩
def Reg.PWR_ALARM_BITS : FieldRef := ⟨32 * (0x10030014) + 0, 4, 0⟩
def Reg.PWR_ALARM_EN_MASK : FieldRef := ⟨32 * (0x10030018) + 0, 4, 0⟩
def Reg.PWR_DOM_EN_LO_EN : FieldRef := ⟨32 * (0x10030020) + 0, 32, 11⟩
def Reg.PWR_DOM_EN_HI_EN : FieldRef := ⟨32 * (0x10030024) + 0, 26, 0⟩
def Reg.PWR_DOM_ON_LO_ON : FieldRef := ⟨32 * (0x10030028) + 0, 32, 11⟩
def Reg.PWR_DOM_ON_HI_ON : FieldRef := ⟨32 * (0x1003002c) + 0, 26, 0⟩
def Reg.PWR_DOM_PRESENT_LO_P : FieldRef := ⟨32 * (0x10030030) + 0, 32, 0xFFFFFFFF⟩
def Reg.PWR_DOM_PRESENT_HI_P : FieldRef := ⟨32 * (0x10030034) + 0, 26, 0x3FFFFFF⟩
def Reg.PWR_WAKE_EN_BITS : FieldRef := ⟨32 * (0x10030040) + 0, 4, 3⟩
def Reg.PWR_CMP_THRESH_MV : FieldRef := ⟨32 * (0x10030044) + 0, 11, 600⟩
def Reg.PWR_CMP_FALLING : FieldRef := ⟨32 * (0x10030044) + 16, 1, 0⟩
def Reg.PWR_CMP_LEVEL : FieldRef := ⟨32 * (0x10030044) + 31, 1, 0⟩
def Reg.PWR_TIMER_MS : FieldRef := ⟨32 * (0x10030048) + 0, 32, 0⟩
def Reg.PWR_SB_ADDR : FieldRef := ⟨32 * (0x1003004c) + 0, 7, 0x20⟩
def Reg.PWR_SB_LOCK : FieldRef := ⟨32 * (0x1003004c) + 31, 1, 0⟩
def Reg.PWR_WAKE_SET_LO_SET : FieldRef := ⟨32 * (0x10030050) + 0, 32, 10⟩
def Reg.PWR_WAKE_SET_HI_SET : FieldRef := ⟨32 * (0x10030054) + 0, 26, 0⟩
def Reg.PWR_WAKE_REC_SOURCE : FieldRef := ⟨32 * (0x10030060) + 0, 3, 7⟩
def Reg.PWR_WAKE_REC_MASK : FieldRef := ⟨32 * (0x10030060) + 8, 7, 64⟩
def Reg.PWR_WAKE_REC_FROM : FieldRef := ⟨32 * (0x10030060) + 16, 2, 0⟩
def Reg.PWR_WAKE_CNT_COUNT : FieldRef := ⟨32 * (0x10030064) + 0, 32, 0⟩
def Reg.PWR_WAKE_TICKS_LO_T : FieldRef := ⟨32 * (0x10030068) + 0, 32, 0⟩
def Reg.PWR_WAKE_TICKS_HI_T : FieldRef := ⟨32 * (0x1003006c) + 0, 32, 0⟩
def Reg.PWR_IDLE_S (i : Nat) : FieldRef := ⟨32 * (0x10030100 + 4 * i) + 0, 16, idleReset i⟩
def Reg.SYS_BOOT_BANK : FieldRef := ⟨32 * (0x10010050) + 0, 1, 0⟩
def Reg.SYS_BOOT_TRIAL : FieldRef := ⟨32 * (0x10010050) + 1, 1, 0⟩
def Reg.SYS_BOOT_RECOVERY : FieldRef := ⟨32 * (0x10010050) + 2, 1, 0⟩
def Reg.SYS_BOOT_FALLBACK : FieldRef := ⟨32 * (0x10010050) + 3, 1, 0⟩
def Reg.SYS_BOOT_CAUSE : FieldRef := ⟨32 * (0x10010050) + 4, 3, 0⟩
def Reg.SYS_BOOT_TRIALS : FieldRef := ⟨32 * (0x10010050) + 8, 8, 0⟩
def Reg.SYS_LOCKVIOL_LV : FieldRef := ⟨32 * (0x10010020) + 0, 1, 0⟩
def Reg.SYS_LOCKVIOL_COUNT : FieldRef := ⟨32 * (0x10010020) + 16, 16, 0⟩
def Reg.SYS_LOCKVIOL_ADDR_ADDR : FieldRef := ⟨32 * (0x10010024) + 0, 32, 0⟩
def Reg.SYS_LOCKVIOL_INFO_MASTER : FieldRef := ⟨32 * (0x10010028) + 0, 6, 0⟩
def Reg.SYS_LOCKVIOL_DATA_DATA : FieldRef := ⟨32 * (0x1001002c) + 0, 32, 0⟩
def Reg.SYS_PART_NUMBER : FieldRef := ⟨32 * (0x10010008) + 0, 16, 0x7210⟩
def Reg.SYS_PART_REV : FieldRef := ⟨32 * (0x10010008) + 16, 8, 0⟩
def Reg.SYS_CTL_REMAP : FieldRef := ⟨32 * (0x10010010) + 0, 1, 0⟩
def Reg.SYS_SERIAL_LO_SN : FieldRef := ⟨32 * (0x10010018) + 0, 32, 0⟩
def Reg.SYS_SERIAL_HI_SN : FieldRef := ⟨32 * (0x1001001c) + 0, 32, 0⟩
def Reg.SYS_GPIO_OUT_LO_LEVEL : FieldRef := ⟨32 * (0x10010080) + 0, 32, 0⟩
def Reg.SYS_GPIO_OUT_HI_LEVEL : FieldRef := ⟨32 * (0x10010084) + 0, 32, 0⟩
def Reg.SYS_GPIO_OE_LO_EN : FieldRef := ⟨32 * (0x10010088) + 0, 32, 0⟩
def Reg.SYS_GPIO_OE_HI_EN : FieldRef := ⟨32 * (0x1001008c) + 0, 32, 0⟩
def Reg.SYS_GPIO_IN_LO_LEVEL : FieldRef := ⟨32 * (0x10010090) + 0, 32, 0⟩
def Reg.SYS_GPIO_IN_HI_LEVEL : FieldRef := ⟨32 * (0x10010094) + 0, 32, 0⟩
def Reg.LDG_FRAMES_IN_COUNT (i : Nat) : FieldRef := ⟨32 * (0x100b3000 + 8 * i) + 0, 32, 0⟩
def Reg.LDG_FRAMES_OUT_COUNT (i : Nat) : FieldRef := ⟨32 * (0x100b3004 + 8 * i) + 0, 32, 0⟩
def Reg.LDQ_FRAMES_IN_COUNT (i : Nat) : FieldRef := ⟨32 * (0x100b3200 + 8 * i) + 0, 32, 0⟩
def Reg.LDQ_FRAMES_OUT_COUNT (i : Nat) : FieldRef := ⟨32 * (0x100b3204 + 8 * i) + 0, 32, 0⟩
def Reg.CYX_DISCARD_COUNT : FieldRef := ⟨32 * (0x10b00010) + 0, 32, 0⟩
def Reg.CYX_AUTHFAIL_COUNT : FieldRef := ⟨32 * (0x10b00014) + 0, 32, 0⟩

/-- Offset in the ENC window of the block of channel `c`: 0-47 HEVC channels, 48-111 JPEG XS encoders,
112-175 JPEG XS decoders (R368). -/
def encBlock (c : Nat) : Nat :=
  if c < 48 then 0x100 + 0x40 * c else if c < 112 then 0x1000 + 0x40 * (c - 48) else 0x2000 + 0x40 * (c - 112)

def Reg.ENC_CH_STAT_RUN (c : Nat) : FieldRef := ⟨32 * (0x100e0000 + encBlock c + 0) + 0, 1, 0⟩
def Reg.ENC_CH_STAT_AUTHORITY (c : Nat) : FieldRef := ⟨32 * (0x100e0000 + encBlock c + 0) + 1, 1, 0⟩
def Reg.ENC_CH_STAT_DIVERGED (c : Nat) : FieldRef := ⟨32 * (0x100e0000 + encBlock c + 0) + 2, 1, 0⟩
def Reg.ENC_CH_STAT_DEGRADED (c : Nat) : FieldRef := ⟨32 * (0x100e0000 + encBlock c + 0) + 3, 1, 0⟩
def Reg.ENC_CH_STAT_ENGINES (c : Nat) : FieldRef := ⟨32 * (0x100e0000 + encBlock c + 0) + 8, 6, 0⟩
def Reg.ENC_CH_STAT_QP (c : Nat) : FieldRef := ⟨32 * (0x100e0000 + encBlock c + 0) + 16, 6, 0⟩
def Reg.ENC_CH_FC_LO_F (c : Nat) : FieldRef := ⟨32 * (0x100e0000 + encBlock c + 4) + 0, 32, 0⟩
def Reg.ENC_CH_FC_HI_F (c : Nat) : FieldRef := ⟨32 * (0x100e0000 + encBlock c + 8) + 0, 32, 0⟩
def Reg.ENC_CH_BUDGET_BYTES (c : Nat) : FieldRef := ⟨32 * (0x100e0000 + encBlock c + 12) + 0, 32, 0⟩
def Reg.ENC_CH_USED_BYTES (c : Nat) : FieldRef := ⟨32 * (0x100e0000 + encBlock c + 16) + 0, 32, 0⟩
def Reg.ENC_CH_CLAMP_COUNT (c : Nat) : FieldRef := ⟨32 * (0x100e0000 + encBlock c + 20) + 0, 32, 0⟩
def Reg.ENC_CH_MIN_COUNT (c : Nat) : FieldRef := ⟨32 * (0x100e0000 + encBlock c + 24) + 0, 32, 0⟩
def Reg.ENC_CH_LATE_COUNT (c : Nat) : FieldRef := ⟨32 * (0x100e0000 + encBlock c + 28) + 0, 32, 0⟩
def Reg.ENC_CH_DIVERGE_COUNT (c : Nat) : FieldRef := ⟨32 * (0x100e0000 + encBlock c + 32) + 0, 32, 0⟩
def Reg.ENC_CH_WITHHELD_COUNT (c : Nat) : FieldRef := ⟨32 * (0x100e0000 + encBlock c + 36) + 0, 32, 0⟩
def Reg.ENC_CH_LOST_COUNT (c : Nat) : FieldRef := ⟨32 * (0x100e0000 + encBlock c + 40) + 0, 32, 0⟩

/-! BLK_STAT of window `w` (Table 21.1). -/
def Reg.BLK_STAT_WPEND (w : Nat) : FieldRef := ⟨32 * (0x10000004 + 0x10000 * w) + 0, 1, 0⟩
def Reg.BLK_STAT_WDROP (w : Nat) : FieldRef := ⟨32 * (0x10000004 + 0x10000 * w) + 1, 1, 0⟩
def Reg.BLK_STAT_ACCERR (w : Nat) : FieldRef := ⟨32 * (0x10000004 + 0x10000 * w) + 2, 1, 0⟩
def Reg.BLK_STAT_LOCKVIOL (w : Nat) : FieldRef := ⟨32 * (0x10000004 + 0x10000 * w) + 3, 1, 0⟩
def Reg.BLK_STAT_VOTEFIX (w : Nat) : FieldRef := ⟨32 * (0x10000004 + 0x10000 * w) + 4, 1, 0⟩
def Reg.BLK_STAT_VOTELOST (w : Nat) : FieldRef := ⟨32 * (0x10000004 + 0x10000 * w) + 5, 1, 0⟩
def Reg.BLK_STAT_ISOLATED (w : Nat) : FieldRef := ⟨32 * (0x10000004 + 0x10000 * w) + 6, 1, 0⟩

end Sys2Proof.Machine
end

