-- ==== Sys2Proof/Machine/State.lean ====
section
/-!
DEFINITION. The state of the block as plain data. The fields of the register tables live in `regs`, one home each
(Machine/RegMap.lean names them); every other piece of state that the spec gives the part has a field here, grouped
by chapter. `State.reset` is the part right after reset (R559, R560 before the ROM runs).
-/
namespace Sys2Proof.Machine

/-! ### Chapter 18: the fault collector -/

/-- An event: what Table 18.2 records of it. `num` is 0 until the collector numbers it. -/
structure Event where
  code : Nat
  cls : Nat
  src : Nat
  obj : Nat
  num : Nat
  time : Nat
  active : Bool
  cleared : Bool
  preempted : Bool
  first : Bool
  repeats : Nat
  deriving DecidableEq, Repr

/-- A firmware reaction: the event it reacts to and the step it runs next (R519, R524). -/
structure Reaction where
  num : Nat
  code : Nat
  cls : Nat
  src : Nat
  obj : Nat
  step : Nat
  deriving DecidableEq, Repr

/-- The fault collector beside its registers. -/
structure FaultState where
  /-- Detected, not yet numbered by the collector (R517). -/
  detected : List Event
  /-- (code, source, object) whose cause is present, with the time the condition last held (R530). -/
  causes : List ((Nat × Nat × Nat) × Nat)
  /-- When each (code, object) was last raised, for the raise limits of the event tables. -/
  lastRaise : List ((Nat × Nat × Nat) × Nat)
  lastNum : Nat
  /-- The last 32 records, oldest first (R527). -/
  history : List Event
  /-- The uncleared table, at most 1 024 entries (R529). -/
  uncleared : List Event
  firstError : Option Event
  armed : Bool
  /-- Times of the FATAL events that still count toward R523. -/
  fatalTimes : List Nat
  /-- Reactions waiting, in order of event number, at most 256 (R524). -/
  queue : List Reaction
  /-- The running reaction, and under it those it pre-empted. -/
  running : List Reaction
  /-- A control restart has been called for (R522). -/
  restartDue : Bool
  /-- The ranger cores stay in reset (R523). -/
  halted : Bool
  /-- Shedding is in progress; the time of the last domain shed (R521). -/
  shedding : Option Nat
  /-- -T fields without majority, with the value configured before the upset (R585). -/
  voteLost : List (Nat × Nat)
  deriving DecidableEq, Repr

/-! ### Chapter 19: power -/

/-- The power controller beside its registers. -/
structure PowerState where
  /-- VDD_AON is good and the power-on reset of PD00 has ended (R600). -/
  aon : Bool
  coreGood : Bool
  sramGood : Bool
  laneGood : Bool
  dramGood : Bool
  ioGood : Bool
  /-- RST_N is held low (R604). -/
  rstLow : Bool
  /-- The trip latch of R607. -/
  tripped : Bool
  thermN : Bool
  /-- RECOVERY_N as last sampled low (R604). -/
  recovery : Bool
  /-- Reset instant, for the uptime of SYS_INFO. -/
  resetAt : Nat
  /-- Low words of PWR_DOM_EN and PWR_WAKE_SET that wait for their high word (R557). -/
  lowEn : Option Nat
  lowSet : Option Nat
  /-- When the idle timer of a domain started (R545). -/
  idleSince : List (Nat × Nat)
  /-- PWR_TIMER counts since this instant (R550). -/
  timerAt : Option Nat
  /-- A source and mask that fired during a power-down, to wake when it ends (R551). -/
  wakeDue : Option (Nat × Nat)
  /-- The wake-detector settings, latched as PD01 goes off (R234). -/
  wakeLatch : RegFile
  /-- PD01 goes off at this instant (R552). -/
  pd01OffAt : Option Nat
  /-- The wake that PD01's next start reports, as PWR_WAKE (R551). -/
  wakeReport : Option Nat
  /-- Posted register writes on their way: window, master, address, bits, value (R14). -/
  posted : List (Nat × Nat × Nat × Nat × Nat)
  /-- Posted blocks whose last write landed within the step that made it: WPEND stays set until this instant (R14). -/
  landing : List (Nat × Nat)
  /-- Domains isolated because a power-up failed (R544) -/
  upFailed : List Nat
  /-- The voltage in mV that the regulator of VDD_CORE was last told and acknowledged, and whether the target has been written since the
  start (R598). -/
  vddCore : Nat
  avsDone : Bool
  deriving DecidableEq, Repr

/-! ### Chapter 20: flash, banks, update -/

/-- One bank of the flash: its directory state, contents, declared length and commit count (R561). -/
structure Bank where
  state : Nat
  bytes : List Byte
  length : Nat
  commit : Nat
  deriving DecidableEq, Repr

/-- An update in progress (R567). -/
structure Update where
  session : Nat
  target : Nat
  declared : Nat
  received : Nat
  lastData : Nat
  deriving DecidableEq, Repr

/-- The CONFIG section of the settings store (R565): the register fields of the memory map, FLT_KEEP.QUAD and FLT_CTL.THRESH; the
MGT_IP records by port; and TWN_CONFIG as its payload, empty when none was admitted. -/
structure StoredConfig where
  regs : RegFile
  mgt : List (Nat × (Nat × Nat × Nat × Nat × Nat))
  twin : List Byte
  deriving DecidableEq, Repr

/-- Flash, boot and update. -/
structure BootState where
  bankA : Bank
  bankB : Bank
  trialStarts : Nat
  dirSeq : Nat
  /-- Settings store: its CONFIG section, the format it is stored in, and whether a copy of it passes its CRC. -/
  config : StoredConfig
  configFormat : Nat
  configValid : Bool
  /-- CARD section: saved DRAM training values by channel. -/
  trained : List Nat
  /-- Copy that the next write of the store goes to. -/
  storeCopy : Nat
  /-- An admitted change to a CONFIG record, not yet written (R565). -/
  storeDue : Option Nat
  /-- Flash images run and their firmware version, settings format, pair protocol. -/
  version : Nat
  format : Nat
  protocol : Nat
  /-- Ranger firmware is running (the interpreter reports READY), since when. -/
  firmwareSince : Option Nat
  /-- The ROM answers in recovery or RETIRED (R560). -/
  romServes : Bool
  update : Option Update
  /-- A bank being verified: tag, session, ACTIVATE (R569). -/
  verify : Option (Nat × Nat × Bool)
  /-- Instants of the resets that follow an ACTIVATE and a life-cycle transition. -/
  activateAt : Option Nat
  lifecycleAt : Option Nat
  /-- The cause the next start reports in SYS_BOOT.CAUSE. -/
  nextCause : Nat
  deriving DecidableEq, Repr

/-! ### Chapter 02: the Cyxel interpreter -/

/-- A reply as the part sends it; `key` is the session key of its tag, if it carries one. -/
structure Reply where
  transport : Transport
  opcode : Nat
  status : Nat
  tag : Nat
  seq : Nat
  session : Nat
  payload : List Byte
  key : Option Key
  deriving DecidableEq, Repr

/-- A SYS_EVENT (Table 2.13). -/
structure EvMsg where
  kind : Nat
  lost : Nat
  ref : Nat
  time : Nat
  status : Nat
  entry : Nat
  deriving DecidableEq, Repr

/-- A kept reply with what identifies its request (R44). -/
structure Kept where
  seq : Nat
  tag : Nat
  opcode : Nat
  crc : Nat
  reply : Reply
  deriving DecidableEq, Repr

/-- A session (R40). Session 0 and the partner session 0xFFFF are entries like any other. -/
structure Session where
  id : Nat
  rights : Nat
  parent : Nat
  slot : Nat
  key : Key
  idle : Nat
  last : Nat
  /-- Highest accepted sequence and the accepted ones in the window below it (R43). -/
  high : Nat
  seen : List Nat
  /-- The window before the message that was taken last, with its sequence: a message answered BUSY does not count (R46). -/
  prior : Nat × Nat × List Nat
  kept : List Kept
  mask : Nat
  transport : Transport
  events : List EvMsg
  lost : Nat
  sentCount : Nat
  /-- Accepted commands that have not started, each with its opcode and its reception time (R53, R54). -/
  queue : List (Nat × Req × Nat)
  revoked : Bool
  deriving DecidableEq, Repr

/-- A partly reassembled message (R33). -/
structure Partial where
  transport : Transport
  session : Nat
  opcode : Nat
  tag : Nat
  flags : Nat
  /-- The sequence of its first fragment, and the one that the next fragment must carry. -/
  firstSeq : Nat
  nextSeq : Nat
  payload : List Byte
  last : Nat
  deriving DecidableEq, Repr

/-- A long operation that ends with COMPLETE or FAILED (R54): the command's tag and session, and what it waits for. -/
inductive Waits
  | domains (on mask : Nat)
  | unit (cap inst : Nat)
  | linkUp (port since : Nat)
  /-- The lanes whose transmitter, and those whose receiver, is to be READY (R179). -/
  | lanes (tx rx : List Nat)
  | take (entry : Nat)
  | object (kind id : Nat)
  | instant (time : Nat)
  deriving DecidableEq, Repr

/-- A command answered ACCEPTED_PENDING. -/
structure Pending where
  tag : Nat
  session : Nat
  entry : Nat
  waits : Waits
  /-- When it fails with NOT_READY, where the spec sets a limit. -/
  deadline : Option Nat
  deriving DecidableEq, Repr

/-- The interpreter. -/
structure CyxState where
  sessions : List Session
  /-- SYS_SESSION_OPEN sequences accepted under each parent slot: the greatest counts (R41). -/
  openSeq : List (Nat × Nat)
  partials : List Partial
  /-- Sideband reply and event fragments waiting to be read (R36). -/
  sideband : List (List Byte)
  /-- Mailbox rings halted by RINGERR (R38), and replies held for a full reply ring. -/
  halted : List Nat
  held : List (Nat × List Byte)
  /-- Datagrams of the interpreter and the Lookout at the end of Q5 of a management port, behind the frames in the port's record (R218). -/
  outbox : List (Nat × TxFrame)
  /-- AUTH_FAIL replies sent in the current second, by transport (R46). -/
  authFails : List (Nat × Nat × Nat)
  pendings : List Pending
  /-- IDs of sessions closed by the invalidation of their key and not opened again: their packets are answered KEY_REVOKED (R45). -/
  revoked : List Nat
  /-- The session whose command started last, for the round-robin order of R52. -/
  turn : Nat
  /-- The lead-time origin of the command that started last (R54). -/
  origin : Nat
  /-- Commands of the partner link that wait (R53, R431), and replies that wait for the message channel of a partner lane (R34). -/
  linkQueue : List (Nat × Req × Nat)
  linkBox : List (List Byte)
  deriving DecidableEq, Repr

/-! ### What leaves the part -/

/-- A transmit layout: slot mask, quarter map, quarter-active set (R192). -/
structure Layout where
  slots : Nat
  qmap : Nat
  qact : Nat
  deriving DecidableEq, Repr

/-- A superframe as a lane has sent it, of which its symbols follow (R159, R182): its count, its precoding, its polarity (R180), whether precoding starts anew with
P(-1) = 0, its header area, the cells that were placed in it by their number, the layout that fills the other places, and how many symbols of
it have left. -/
structure LineRec where
  k : Nat
  pre : Bool
  inv : Bool
  restart : Bool
  area : List Byte
  cells : List (Nat × List Byte)
  layout : Layout
  symbols : Nat
  deriving DecidableEq, Repr

/-- What the part sends: replies and events to controllers; packets and messages to the world. -/
inductive Out
  | reply (r : Reply)
  | event (session : Nat) (m : EvMsg)
  | frame (port : Nat) (bytes : List Byte)
  | twin (kind : Nat) (bytes : List Byte)
  | lookout (bytes : List Byte)
  /-- A one-byte transfer at address 0x50 of a module bus: read or write, offset and data (R235). -/
  | module (bus : Nat) (read : Bool) (offset data : Nat)
  | stave (lane : Nat) (bytes : List Byte)
  /-- A superframe starts on a lane with the symbols of its alignment block. -/
  | alignment (lane : Nat) (levels : List Nat)
  /-- A lane has sent a superframe, or as much of it as its record says. -/
  | line (lane : Nat) (x : LineRec)
  /-- A lane sends repeated alignment blocks, so many symbols of them (R198). -/
  | gap (lane symbols : Nat)
  /-- Positions and quarters of a lane, 4 p + q, that carry IDLE cells all through superframe `k`. -/
  | staveIdle (lane k : Nat) (places : List Nat)
  /-- The transmitter of a lane sends a test pattern in place of its traffic. -/
  | pattern (lane code : Nat)
  | cell (port : Nat) (bytes : List Byte)
  | pin (name level : Nat)
  /-- A Voltage write command on the AVSBus, in mV (R598). -/
  | avsWrite (millivolts : Nat)
  | tdm (port : Nat) (samples : List Int)
  | snapshot (x : Snapshot)
  | response (master : Nat) (ok : Bool) (bytes : List Byte)
  /-- What a block read of the sideband returns: the bytes of a fragment and the packet error code. -/
  | blockRead (bytes : List Byte) (pec : Byte)
  /-- The part does not acknowledge a write on the sideband. -/
  | nack
  deriving DecidableEq, Repr

/-! ### Chapter 17: memories and the Skidway -/

/-- One outstanding Skidway transaction: master, ID, target, DRAM channel (R500, R502). -/
structure Burst where
  master : Nat
  id : Nat
  target : Nat
  channel : Nat
  /-- The bytes that a read returns; 0 for a write. -/
  reads : Nat
  deriving DecidableEq, Repr

/-- A request that waits in the Skidway for a tracker entry of its channel, since a moment of true time (R501, R503). -/
structure Claim where
  burst : Burst
  addr : Nat
  len : Nat
  data : Option (List Byte)
  fin : BurstEnd
  since : Nat
  deriving DecidableEq, Repr

/-- The memories and the Skidway beside their registers. -/
structure MemState where
  sram : Memory
  dram : Memory
  outstanding : List Burst
  /-- The first access error is captured once SKW_ERR_ADDR was last read (R504). -/
  captureArmed : Bool
  /-- Masters held in reset until their bursts drain (R505). -/
  draining : List Nat
  /-- DRAM channels in training: a MEM_TRAIN command with its tag, session, channel mask and steps. -/
  training : Option (Nat × Nat × Nat × Nat × Nat)
  /-- DRAM bytes whose contents were lost or became meaningless and that nothing has written since: first and end key with the
  number of the free value that they read as (R474, R497, R600, log entry 46). -/
  lost : List (Nat × Nat × Nat)
  /-- Last training result by channel: result, failed step, read and write margin (R510). -/
  results : List (Nat × Nat × Nat × Nat × Nat)
  /-- Buffers that consumers hold (R490). -/
  bufs : List Buffer
  /-- Requests that wait for a tracker entry, oldest first (R503). -/
  waiting : List Claim
  /-- The credit of each region (R12, log entry 98). -/
  credit : List Int
  /-- The master that each target served last: target and master (R501). -/
  served : List (Nat × Nat)
  /-- The channel that each DRAM group served last: group and channel (R10). -/
  turns : List (Nat × Nat)
  deriving DecidableEq, Repr

/-! ### Chapter 16: the Vault -/

/-- A slot record (Table 16.2). `tagOk` says whether the integrity tag still matches the record (log entry 7). -/
structure Slot where
  key : Key
  attrs : Nat
  cons : Nat
  parent : Nat
  level : Nat
  state : Nat
  gen : Nat
  parentGen : Nat
  labelHash : BitVec 256
  legacyId : Nat
  tagOk : Bool
  /-- Emptied by a cascade since reset (R469). -/
  cascaded : Bool
  deriving DecidableEq, Repr

/-- A programmed OTP record (R463). -/
structure OtpRecord where
  slot : Nat
  key : Key
  attrs : Nat
  cons : Nat
  revoked : Bool
  deriving DecidableEq, Repr

/-- The Vault beside its registers. -/
structure VaultState where
  /-- Slots that are not in their first EMPTY state, by index. -/
  slots : List (Nat × Slot)
  otp : List OtpRecord
  /-- Slots below an invalidated one that the sweep has still to empty (R467). -/
  sweep : List Nat
  /-- The fuses: life-cycle state, rollback floor, revoked firmware keys, DEVELOP → MANUFACTURE steps used, and whether the part
  has ever been in DEPLOY (R454, R455, R472). -/
  lcs : Nat
  floor : Nat
  keyRev : Nat
  devSteps : Nat
  everDeployed : Bool
  /-- The root of the life-cycle state, and the per-boot keys of Table 16.4. -/
  root : Key
  dramKey : Key
  dramTweak : Key
  tagKey : Key
  /-- Values drawn from the random bit generator. -/
  drawn : Nat
  deriving DecidableEq, Repr

/-! ### Chapter 15: the twin controller -/

/-- A request to the Lookout that may still be answered: nonce, mark in always-on ticks, type, and true time sent. -/
structure LookoutReq where
  nonce : Nat
  mark : Nat
  type : Nat
  sentAt : Nat
  answered : Bool
  deriving DecidableEq, Repr

/-- What the last valid heartbeat of the partner reported (Table 15.2). -/
structure PartnerView where
  card : Nat
  role : Nat
  flags : Nat
  epoch : Nat
  claim : Nat
  selected : Nat
  resync : Nat
  deriving DecidableEq, Repr

/-- The hash of what an output or an internal slot emits in a frame, as it grows (R442): the CRC register over the payloads so
far, and the flags of Table 15.6. -/
structure HashRec where
  gen : Nat
  frame : Nat
  slot : Nat
  crc : BitVec 64
  flags : Nat
  deriving DecidableEq, Repr

/-- The twin controller beside its registers. -/
structure TwnState where
  pairId : Nat
  lane0 : Nat
  lane1 : Nat
  pairSlot : Nat
  pairSlotGen : Nat
  lookSlot : Nat
  lookSlotGen : Nat
  pairKey : Key
  lookKey : Key
  lookPort : Nat
  addrA : Nat
  addrB : Nat
  validityMs : Nat
  renewMs : Nat
  holdoffS : Nat
  /-- Expiry of the lease timer in always-on ticks, while a timed lease is valid (R429). -/
  expiry : Option Nat
  maxEpoch : Nat
  ignoredGrants : Nat
  /-- Requests sent since reset; the last 8, newest first (R426). -/
  requests : Nat
  recent : List LookoutReq
  unansweredRun : Nat
  unanswered : Nat
  lookoutRtt : Nat
  lastGrantReq : Nat
  hbCount : Nat
  hbAccepted : Nat
  hbSeen : Bool
  missedRun : Nat
  validRun : Nat
  seqSent : Nat
  seqAccepted : Nat
  partner : PartnerView
  /-- Claim epoch of sequence authority and time origin; 0 when not claiming (R438). -/
  claim : Nat
  mirrorErrors : Nat
  hashMisses : Nat
  /-- Output and row divergences in the current second, and when the last divergence was raised. -/
  outDivSec : Nat
  rowDivSec : Nat
  divergeAt : Option Nat
  healthSent : List Byte
  healthSeen : List Byte
  /-- Mirrors that wait while a snapshot is in transfer (R446). -/
  mirrorQueue : List (Nat × Req)
  resyncAt : Nat
  /-- A start of resynchronisation waits for a partner that is PRESENT and HOLDER (R445). -/
  resyncWanted : Bool
  convergeAt : Nat
  gapSince : Option Nat
  revertSince : Option Nat
  /-- Own output hashes by generator, output and frame, for the comparison of R442. -/
  hashes : List HashRec
  /-- Background self-tests in progress and units that failed one: kind 0 encoder engine, 1 pixel engine, 2 DRAM block. -/
  testing : List ((Nat × Nat) × Nat)
  tested : List ((Nat × Nat) × Nat)
  failed : List (Nat × Nat)
  /-- Sum and number of the partner lanes' time offsets in the current second (R440). -/
  ofsSum : Int
  ofsCount : Nat
  deriving DecidableEq, Repr

/-! ### Chapters 06 and 07: lanes and Stave links -/

/-- One direction of a lane: a sleep transition in progress with its target and end, and the state held for its end
(R171). -/
structure LaneDir where
  target : Nat
  endsAt : Option Nat
  held : Option Nat
  deriving DecidableEq, Repr

/-- A message on its way over a message channel: channel, message ID, and what remains to be sent or has arrived. -/
structure StaveMsg where
  channel : Nat
  id : Nat
  segment : Nat
  bytes : List Byte
  deriving DecidableEq, Repr

/-- A message in reassembly: its channel and Message ID, the segments that have arrived, and the number of the last one once known (R200). -/
structure MsgPart where
  channel : Nat
  id : Nat
  segments : List (Nat × List Byte)
  last : Option Nat
  deriving DecidableEq, Repr

/-- A lane beside its registers. -/
structure Lane where
  l : Nat
  tx : LaneDir
  rx : LaneDir
  /-- Receive FFE coefficients, tap 0 first (R163). -/
  ffe : List Int
  /-- FOM of past windows, newest first, at most 8; greatest FOM since cleared. -/
  foms : List Nat
  fomMax : Nat
  /-- Windows in a row below and at or above each threshold + 4 (R165): warn below, warn clear, fail below, fail clear. -/
  runs : List Nat
  /-- A CTLE step in evaluation: up, and the FOM before it; the directions not tried again, each for a number of windows. -/
  step : Option (Bool × Nat)
  barred : List (Bool × Nat)
  /-- For each coefficient, CTLE, DFE and the FFE taps, the windows in a row for which it has stood at its limit (R167). -/
  limitRuns : List Nat
  /-- The receiver runs its first window since lock from stored coefficients (R169). -/
  stored : Bool
  /-- FREEZE is asked and waits for the step in evaluation. -/
  freezing : Bool
  rxReadySince : Option Nat
  /-- The last LAN_CONFIG and LAN_SLEEP that ranger firmware keeps (R175). -/
  kept : Option (List Byte)
  keptSleep : Option (Nat × Nat × Nat)
  /-- The layout put forward and not yet latched; the quarter-active set in force; manual layout commanded. -/
  forward : Option Layout
  qactCur : Nat
  manual : Bool
  /-- The quarter map of the last LAN_SLOTMASK (R193), and the layout latched for the next superframe (R192). -/
  qmapSet : Nat
  latched : Option Layout
  /-- Superframes: the last sent, newest first, by count and departure of S0 in Chronograph 2^-8 ns; blocks missed and found, good headers in
  a row, superframes over the FEC threshold. -/
  sentS0 : List (Nat × Nat)
  missed : Nat
  found : Nat
  good : Nat
  fecRun : Nat
  lastK : Option Nat
  /-- When the receiver has found its last alignment block (R198, Table 7.4). -/
  lastBlock : Option Nat
  /-- Arrival of the last far-end S0 in Chronograph 2^-8 ns, since the receiver reached UP; echo samples. -/
  farS0 : Option Nat
  echoes : List Int
  /-- Positions and quarters that this superframe makes active, 4 p + q (R189). -/
  newlyActive : List Nat
  /-- The superframe on the line, with its header area; the cells that have their place in a superframe, by count and cell number; whether the
  transmitter has sent no superframe since it woke or was enabled (R159, R182). -/
  onLine : Option (Nat × List Byte)
  placed : List (Nat × Nat × List Byte)
  restart : Bool
  /-- Message channel: cells sent, credits returned by the far end and by this end, the last Message sequence, the
  messages in reassembly, newest first, the messages passed to their consumers, newest first, by channel, messages waiting to be sent, the next
  message ID, and whether the far end is ready. -/
  msgSent : Nat
  creditsIn : Nat
  creditsOut : Nat
  msgSeq : Nat
  msgParts : List MsgPart
  msgDone : List (Nat × List Byte)
  msgQueue : List StaveMsg
  nextMsg : Nat
  msgOpen : Bool
  /-- Equalisation: our REQ_SEQ, done, windows since the last request and requests made; the far end's last request
  acted on, with the answer (R206). -/
  eqReqSeq : Nat
  eqDone : Bool
  eqWindows : Nat
  eqCount : Nat
  eqAck : Nat
  eqStat : Nat
  eqRequest : Nat
  /-- A far-end request that waits for the next S0: request bits and REQ_SEQ. -/
  eqPending : Option (Nat × Nat)
  deriving DecidableEq, Repr

/-- Lanes that are not in their reset state. -/
structure LanState where
  lanes : List Lane
  deriving DecidableEq, Repr

/-! ### Chapter 03: Cruise -/

/-- An entry of an evaluation's report (Table 3.6). -/
structure CruEntry where
  res : Nat
  flags : Nat
  inst : Nat
  demand : Nat
  cap : Nat
  handle : Nat
  change : Nat
  deriving DecidableEq, Repr

/-- A kept report: its ID, the session that asked, the count of admitted changes before it, and its entries, failing ones
first, then in ascending order of margin (R85). -/
structure CruReport where
  id : Nat
  session : Nat
  changes : Nat
  entries : List CruEntry
  deriving DecidableEq, Repr

/-- Cruise: the reports of the last 16 evaluations that were refused or carried FULL, newest first; the last report ID; the
changes admitted since reset; the resources that were over capacity at the last evaluation; and those that a mirrored change was found
over when it was applied (R89). -/
structure CruState where
  reports : List CruReport
  lastId : Nat
  changes : Nat
  above : List (Nat × Nat)
  mirrored : List (Nat × Nat)
  deriving DecidableEq, Repr

/-! ### The state -/

/-- The state of the block. -/
structure State where
  /-- Commands waiting, first in first out. -/
  pending : List Instr
  /-- True time in ns since VDD_AON became good. -/
  now : Nat
  /-- Free values taken so far (the model's own field, log entry 2). -/
  fresh : Nat
  variant : Variant
  /-- Fields of the register tables that have been written; every other field holds the reset value of its table. -/
  regs : RegFile
  /-- READY instances of the Almanac: capability * 65536 + instance (R57, R591). -/
  ready : List Nat
  /-- Blocks isolated behind their Firebreak, by source region * 256 + block (R11). -/
  isolated : List Nat
  flt : FaultState
  pwr : PowerState
  boot : BootState
  cyx : CyxState
  fab : FabState
  eph : EphState
  lan : LanState
  net : NetState
  aud : AudState
  mvw : MvwState
  enc : EncState
  cru : CruState
  tim : TimState
  ref : RefState
  mem : MemState
  vlt : VaultState
  twn : TwnState
  /-- What the part has sent, newest first (the model's own record, log entry 2). -/
  sent : List Out
  deriving DecidableEq, Repr

/-- Why the block stops with a fault. No command of this model faults: every access to an address that does not
exist is answered with the error response the spec describes (R504). -/
inductive Fault
  /-- Raised by nobody: the spec names no behaviour that stops the block for good. Safe. -/
  | none
  deriving DecidableEq, Repr

/-- Why a command is refused. -/
inductive Refusal
  /-- Raised by exec for a command that the model does not give a meaning yet, by its mnemonic. Safe. -/
  | notModelled (mnemonic : String)
  deriving DecidableEq, Repr

/-- The collector after reset (R526: the capture is armed). -/
def FaultState.reset : FaultState :=
  ⟨[], [], [], 0, [], [], none, true, [], [], [], false, false, none, []⟩

/-- The power controller after reset: rails good, RST_N high, nothing pending. -/
def PowerState.reset : PowerState :=
  ⟨true, true, true, true, true, true, false, false, true, false, 0, none, none, [], none, none,
    [], none, none, [], [], [], 800, false⟩

/-- An EMPTY bank. -/
def Bank.empty : Bank := ⟨0, [], 0, 0⟩

/-- Boot state after reset: both banks EMPTY, no firmware running (log entry 5: the contents of flash). -/
def BootState.reset : BootState :=
  ⟨Bank.empty, Bank.empty, 0, 0, ⟨[], [], []⟩, 0, false, [], 0, none, 0, 0, 0, none, false, none, none, none, none, 0⟩

/-- Session 0x0000, always open, without a key (R40). -/
def Session.zero : Session :=
  ⟨0, 7, 0, 0, 0, 0, 0, 0, [], (0, 0, []), [], 0, .sideband, [], 0, 0, [], false⟩

/-- The interpreter after reset. -/
def CyxState.reset : CyxState := ⟨[Session.zero], [], [], [], [], [], [], [], [], [], 0, 0, [], []⟩

/-- A PTP domain after reset: disabled, with its default number (R373). -/
def PtpDomain.reset (number : Nat) : PtpDomain where
  enabled := false
  number := number
  ports := []
  vlan := 0
  addrA := 0
  addrB := 0
  ipv6 := false
  p2p := false
  hybrid := false
  announces := []
  master := none
  syncLog := 0
  lastSync := none
  waiting := none
  diff := none
  thetas := []
  delays := []
  delayReq := none
  pdelayResp := none
  delaySeq := 0
  delayLog := none
  delayAt := none
  sampled := false
  lost := false

/-- An idle TP_OUT output. -/
def PulseOut.reset : PulseOut := ⟨none, [], none, none, false⟩

/-- The Chronograph after reset (R371, R373). -/
def TimState.reset : TimState where
  count := 0
  frac := 0
  backup := 0
  domA := PtpDomain.reset 127
  domB := PtpDomain.reset 126
  relayOn := false
  relayDomain := 0
  relayUp := 0
  relayDown := []
  relayP2p := false
  relayVlan := 0
  relayIpv6 := false
  relayLinks := []
  bias := 0
  biasAt := 0
  biasRem := 0
  locked := false
  stepAt := none
  stepCmd := none
  lastStep := 0
  steps := 0
  yLocked := 0
  ySlew := 0
  superAfter := 0
  lastSecond := 0
  pulses := List.replicate 8 PulseOut.reset

/-- An input that has not been seen. -/
def RefInput.reset : RefInput := ⟨none, false, false, false, none, false, none⟩

/-- A pulse input of which no pulse has arrived. -/
def PulseIn.reset : PulseIn := ⟨(1, 1), [], none⟩

/-- A frame-pulse output that is disabled. -/
def FpOut.reset : FpOut := ⟨none, 0, none, none, false, false⟩

/-- The Heliostat after reset. -/
def RefState.reset : RefState where
  inputs := List.replicate 8 RefInput.reset
  pulses := List.replicate 5 PulseIn.reset
  outs := List.replicate 4 FpOut.reset
  integ := 0
  takeover := false
  means := []
  ySum := 0
  ySince := 0
  whole := false
  slewRem := 0
  yhKnown := false
  toYh := false
  since := 0
  selectedAt := 0
  lastSample := none
  lastPass := 0
  staged := none
  partnerGain := 0
  partnerMark := none
  partnerBase := 0
  clocks := List.replicate 4 ⟨(0, 1), 0, 0⟩

/-- Memories and Skidway after reset: nothing written, nothing outstanding. -/
def MemState.reset : MemState := ⟨[], [], [], true, [], none, [], [], [], [], List.replicate 8 0, [], []⟩

/-- The multiviewer after reset: no head set up, no graphic loaded. -/
def MvwState.reset : MvwState := ⟨[], [], [], 0, [], []⟩

/-- The Vault before its power-up: no slot filled (R458). -/
def VaultState.reset : VaultState := ⟨[], [], [], 1, 0, 0, 0, false, 0, 0, 0, 0, 0⟩

/-- The twin controller after reset: SOLO, with the defaults of Table 15.10. -/
def TwnState.reset : TwnState where
  pairId := 0
  lane0 := 126
  lane1 := 127
  pairSlot := 0
  pairSlotGen := 0
  lookSlot := 0
  lookSlotGen := 0
  pairKey := 0
  lookKey := 0
  lookPort := 7212
  addrA := 0
  addrB := 0
  validityMs := 100
  renewMs := 25
  holdoffS := 30
  expiry := none
  maxEpoch := 0
  ignoredGrants := 0
  requests := 0
  recent := []
  unansweredRun := 0
  unanswered := 0
  lookoutRtt := 0
  lastGrantReq := 0
  hbCount := 0
  hbAccepted := 0
  hbSeen := false
  missedRun := 0
  validRun := 0
  seqSent := 0
  seqAccepted := 0
  partner := ⟨0, 0, 0, 0, 0, 0, 0⟩
  claim := 0
  mirrorErrors := 0
  hashMisses := 0
  outDivSec := 0
  rowDivSec := 0
  divergeAt := none
  healthSent := []
  healthSeen := []
  mirrorQueue := []
  resyncAt := 0
  resyncWanted := false
  convergeAt := 0
  gapSince := none
  revertSince := none
  hashes := []
  testing := []
  tested := []
  failed := []
  ofsSum := 0
  ofsCount := 0

/-- The encoders after reset: no channel, no decoder. -/
def EncState.reset : EncState := ⟨[], []⟩

/-- Cruise after reset: nothing evaluated. -/
def CruState.reset : CruState := ⟨[], 0, 0, [], []⟩

/-- The fabric after reset: every buffer free, nothing selected. -/
def FabState.reset : FabState := ⟨[], [], [], [], [], [], []⟩

/-- The Ephemeris after reset: empty, sixteen generators. -/
def EphState.reset : EphState := ⟨[], 0, 0, List.replicate 16 ⟨none, none, 0, 0, false⟩⟩

/-- A TDM direction after reset. -/
def TdmDir.reset : TdmDir := ⟨[], [], false, false, 0, 0, 0, 0, false⟩

/-- The audio crosspoint after reset: every embedded sink in FOLLOW mode, no other sink routed. -/
def AudState.reset : AudState :=
  ⟨[], [], List.replicate 8 ⟨TdmDir.reset, TdmDir.reset, 0, []⟩, [], [], [], 0, none, 0, none, none, false, false, false⟩

/-- A lane after reset: awake in both directions, no coefficient adapted, nothing sent. The main cursor stands at
+256 (R163). -/
def Lane.reset (l : Nat) : Lane where
  l := l
  tx := ⟨0, none, none⟩
  rx := ⟨0, none, none⟩
  ffe := List.replicate 4 0 ++ [256] ++ List.replicate 19 0
  foms := []
  fomMax := 0
  runs := [0, 0, 0, 0]
  step := none
  barred := []
  limitRuns := List.replicate 26 0
  stored := false
  freezing := false
  rxReadySince := none
  kept := none
  keptSleep := none
  forward := none
  qactCur := 0
  manual := false
  qmapSet := 0
  latched := none
  sentS0 := []
  missed := 0
  found := 0
  good := 0
  fecRun := 0
  lastK := none
  lastBlock := none
  farS0 := none
  echoes := []
  newlyActive := []
  onLine := none
  placed := []
  restart := true
  msgSent := 0
  creditsIn := 0
  creditsOut := 0
  msgSeq := 0
  msgParts := []
  msgDone := []
  msgQueue := []
  nextMsg := 0
  msgOpen := false
  eqReqSeq := 0
  eqDone := false
  eqWindows := 0
  eqCount := 0
  eqAck := 0
  eqStat := 0
  eqRequest := 0
  eqPending := none

/-- Lanes after reset. -/
def LanState.reset : LanState := ⟨[]⟩

/-- A module bus after reset: bus m bound to lanes 4m to 4m + 3, no module seen (R235, R238). -/
def ModuleBus.reset (m : Nat) : ModuleBus := ⟨m, 4 * m, 4, false, 10, 43800, none, false, 0⟩

/-- Ports, modules and flows after reset: no flow, sixteen buses with their default binding. -/
def NetState.reset : NetState := ⟨[], (List.range 16).map ModuleBus.reset, [], none, false, [], 0⟩

/-- The part right after reset, before the boot ROM runs: a PX7210, every register at its reset value (R590, R593). -/
def State.reset : State where
  pending := []
  now := 0
  fresh := 0
  variant := .px7210
  regs := []
  ready := []
  isolated := []
  flt := FaultState.reset
  pwr := PowerState.reset
  boot := BootState.reset
  cyx := CyxState.reset
  fab := FabState.reset
  eph := EphState.reset
  lan := LanState.reset
  net := NetState.reset
  aud := AudState.reset
  mvw := MvwState.reset
  enc := EncState.reset
  cru := CruState.reset
  tim := TimState.reset
  ref := RefState.reset
  mem := MemState.reset
  vlt := VaultState.reset
  twn := TwnState.reset
  sent := []

end Sys2Proof.Machine
end

