-- ==== Sys2Proof/Machine/Flags.lean ====
section
/-!
DEFINITION. Reading and writing register fields of the state, and every table that an event's code indexes: its
class, whether its cause persists, how often it may be raised, and the sticky alarm bit it sets.
-/
namespace Sys2Proof.Machine

/-- The value of a register field. -/
def State.rd (s : State) (f : FieldRef) : Nat := s.regs.get f

/-- Give a register field a value. -/
def State.wr (s : State) (f : FieldRef) (v : Nat) : State := { s with regs := s.regs.put f v }

/-- Is a one-bit field set? -/
def State.flag (s : State) (f : FieldRef) : Bool := s.rd f == 1

/-- Advance a wrapping counter. -/
def State.bump (s : State) (f : FieldRef) (n : Nat) : State := s.wr f (s.rd f + n)

/-- Advance a saturating counter. -/
def State.bumpSat (s : State) (f : FieldRef) (n : Nat) : State := s.wr f (min (s.rd f + n) (2 ^ f.width - 1))

/-- Set bit `b` of a field. -/
def State.setBit (s : State) (f : FieldRef) (b : Nat) : State :=
  if bit (s.rd f) b then s else s.wr f (s.rd f + 2 ^ b)

/-- Clear bit `b` of a field. -/
def State.clrBit (s : State) (f : FieldRef) (b : Nat) : State :=
  if bit (s.rd f) b then s.wr f (s.rd f - 2 ^ b) else s

/-- A 64-bit value in a LO and HI word. -/
def State.rd64 (s : State) (lo hi : FieldRef) : Nat := s.rd lo + s.rd hi * 2 ^ 32

/-- Write a 64-bit value to a LO and HI word. -/
def State.wr64 (s : State) (lo hi : FieldRef) (v : Nat) : State := (s.wr lo v).wr hi (v / 2 ^ 32)

/-- A signed field. -/
def State.rdInt (s : State) (f : FieldRef) : Int := sext f.width (s.rd f)

/-- Write a signed value. -/
def State.wrInt (s : State) (f : FieldRef) (v : Int) : State := s.wr f (toBits f.width v)

/-! ### Sources and classes of events -/

/-- The Source word of an event (Table 18.2): region index, block, cell. -/
def srcOf (region block cell : Nat) : Nat := region * 2 ^ 29 + block * 2 ^ 16 + cell

/-- Source of lane `l` (Table 18.3). -/
def srcLane (l : Nat) : Nat := srcOf (l / 32) (l / 4 % 8) (l % 4)

/-- Source of port `p`: media MACs 0-63, management ports 64 and 65. -/
def srcPort (p : Nat) : Nat := if p < 64 then srcOf 5 2 p else srcOf 7 10 (p - 64)

def srcFabric : Nat := srcOf 4 0 0
def srcEph : Nat := srcOf 4 1 0
def srcLanding : Nat := srcOf 4 2 0
def srcTim : Nat := srcOf 5 4 0
def srcRef : Nat := srcOf 5 5 0
def srcSkw (master : Nat) : Nat := srcOf 7 2 master
def srcVault : Nat := srcOf 7 3 0
def srcCollector : Nat := srcOf 7 8 0
def srcPower : Nat := srcOf 7 9 0
def srcTwin : Nat := srcOf 7 12 0
def srcCyxel : Nat := srcOf 7 13 0
def srcCruise : Nat := srcOf 7 14 0
/-- Source of DRAM channel `n`. -/
def srcDram (n : Nat) : Nat := srcOf 7 (4 + n / 12) (n % 12)

/-- Class codes of Table 18.1 by event code, as the event tables of the chapters give them. -/
def eventClass (code : Nat) : Nat :=
  if 0x2FF1 ≤ code ∧ code ≤ 0x2FF6 then code - 0x2FF0
  else if code ∈ ([0x2F06, 0x2F09, 0x2F0B] : List Nat) then 6
  else if code ∈ ([0x2009, 0x2F0D, 0x3103] : List Nat) then 5
  else if code ∈ ([0x2D04, 0x2D07, 0x2E01, 0x2F03, 0x2F05, 0x3002, 0x3104] : List Nat) then 4
  else if code ∈ ([0x2E03, 0x2F02, 0x2F08] : List Nat) then 2
  else if code ∈ ([0x2001, 0x200B, 0x200C, 0x200D, 0x2204, 0x2206, 0x2207, 0x2303, 0x2305, 0x2307, 0x2308,
      0x2404, 0x2406, 0x2407, 0x2409, 0x240A, 0x2502, 0x2505, 0x2506, 0x2507, 0x2508, 0x250B, 0x250D, 0x250E,
      0x2511, 0x2605, 0x2607, 0x2608, 0x260C, 0x260D, 0x2701, 0x2702, 0x2703, 0x2705, 0x2708] : List Nat) then 1
  else if code ∈ ([0x2901, 0x2904, 0x2905, 0x2A01, 0x2A04, 0x2A06, 0x2A07, 0x2B02, 0x2B03, 0x2B04, 0x2B06, 0x2C07,
      0x2C09, 0x2C0C, 0x2C0D, 0x2D02, 0x2D06, 0x2E02, 0x2E06, 0x2E07, 0x2E08, 0x2F04, 0x2F0E, 0x3001, 0x3003,
      0x3004, 0x3105] : List Nat) then 1
  else 3

/-- Events whose cause persists until the raising chapter's condition ends; the cause of every other event ends as
soon as it is raised (R101, R151, R165, R174, R207, R240, R272, R296, R325, R362, R385, R408, R447, R477, R507,
R532, R556, R573). -/
def eventPersists (code : Nat) : Bool :=
  decide (0x2001 ≤ code ∧ code ≤ 0x200D) || decide (0x2101 ≤ code ∧ code ≤ 0x2104) ||
  ([0x2206, 0x2207, 0x2301, 0x2302, 0x2303, 0x2304, 0x2305, 0x2306, 0x2401, 0x2405, 0x2501, 0x2504, 0x250C, 0x250F, 0x2510,
    0x2601, 0x2602, 0x260A, 0x260B, 0x2704, 0x2706, 0x2707, 0x2805, 0x2903, 0x2A02, 0x2A03, 0x2A05, 0x2B01, 0x2B05,
    0x2B07, 0x2B08] : List Nat).contains code ||
  ([0x2C01, 0x2C02, 0x2C03, 0x2C04, 0x2C05, 0x2C0B, 0x2D01, 0x2D03, 0x2D04, 0x2D07, 0x2E01, 0x2E05, 0x2F01,
    0x2F03, 0x2F05, 0x2F0C, 0x2F0D, 0x3002, 0x3103, 0x3104] : List Nat).contains code

/-- Least time in ns between two raises of one event for one object, where it does not depend on a frame rate
(R174, R207, R240, R272, R296, R385, R408, R447, R477, R507, R532, R556, R573). -/
def eventGap (code : Nat) : Nat :=
  let c := code / 256
  if c = 0x23 then 262144
  else if c = 0x24 then 125000
  else if c = 0x27 then 10 ^ 6
  else if c = 0x25 ∨ c = 0x2A ∨ c = 0x2B ∨ c = 0x2C ∨ c = 0x2D ∨ c = 0x2E ∨ c = 0x30 ∨ c = 0x31 then 10 ^ 9
  else if code = 0x2F08 then 10 ^ 9
  else 0

/-- The sticky alarm bits that an event sets: the ALARM field of its block and the bit in it. A Skidway event sets
one in MEM_ALARM and one in SKW_ALARM (Tables 17.7, 17.9). PLL_UNLOCK, an event of a quad, sets its bit in the block of lane position 0
(DESIGN CHOICE, log entry 130). -/
def alarmBits (code src obj : Nat) : List (FieldRef × Nat) :=
  let lane := src / 2 ^ 29 * 32 + src / 2 ^ 16 % 256 * 4 + src % 2 ^ 16
  let port := if src / 2 ^ 29 = 5 then src % 2 ^ 16 else 64 + src % 2 ^ 16
  if 0x2001 ≤ code ∧ code ≤ 0x200D then [(Reg.FAB_ALARM_BITS, code - 0x2001)]
  else if 0x2101 ≤ code ∧ code ≤ 0x2104 then
    [(if obj < 0x100 then Reg.LDG_STAT_BITS obj else Reg.LDQ_STAT_BITS (obj - 0x100), code - 0x2101)]
  else if 0x2201 ≤ code ∧ code ≤ 0x2207 then [(Reg.EPH_ALARM_BITS, code - 0x2201)]
  else if 0x2301 ≤ code ∧ code ≤ 0x2308 then [(Reg.LNQ_LALARM_BITS lane, code - 0x2301)]
  else if 0x2401 ≤ code ∧ code ≤ 0x240A then [(Reg.LNQ_STV_ALARM_BITS lane, code - 0x2401)]
  else if 0x2501 ≤ code ∧ code ≤ 0x2511 then [(Reg.NET_ALARM_BITS port, code - 0x2501)]
  else if 0x2601 ≤ code ∧ code ≤ 0x260D then [(Reg.NET_FLOW_ALARM_BITS, code - 0x2601)]
  else if 0x2701 ≤ code ∧ code ≤ 0x2708 then [(Reg.AUD_ALARM_BITS, code - 0x2701)]
  else if 0x2801 ≤ code ∧ code ≤ 0x2806 then [(Reg.MVW_ALARM_BITS, code - 0x2801)]
  else if 0x2901 ≤ code ∧ code ≤ 0x2906 then [(Reg.ENC_ALARM_BITS, code - 0x2901)]
  else if 0x2A01 ≤ code ∧ code ≤ 0x2A07 then [(Reg.TIM_ALARM_BITS, code - 0x2A01)]
  else if 0x2B01 ≤ code ∧ code ≤ 0x2B08 then [(Reg.REF_ALARM_BITS, code - 0x2B01)]
  else if 0x2C01 ≤ code ∧ code ≤ 0x2C0D then [(Reg.TWN_ALARM_BITS, code - 0x2C01)]
  else if 0x2D01 ≤ code ∧ code ≤ 0x2D07 then [(Reg.VLT_ALARM_BITS, code - 0x2D01)]
  else if 0x2E07 ≤ code ∧ code ≤ 0x2E09 then
    [(Reg.SKW_ALARM_BITS, code - 0x2E07), (Reg.MEM_ALARM_BITS, code - 0x2E01)]
  else if 0x2E01 ≤ code ∧ code ≤ 0x2E06 then [(Reg.MEM_ALARM_BITS, code - 0x2E01)]
  else if 0x3001 ≤ code ∧ code ≤ 0x3004 then [(Reg.PWR_ALARM_BITS, code - 0x3001)]
  else []

end Sys2Proof.Machine
end

