-- ==== Sys2Proof/Machine/Frames.lean ====
section
/-!
DEFINITION. Ethernet frames (R214-R217): parsing, checksums, padding, and the headers of the frames that the part builds.
-/
namespace Sys2Proof.Machine

/-! ### Frames -/

/-- CRC-32 of IEEE 802.3 as the four bytes of the FCS (PRESUMED: the standard's, log entry 30). -/
def fcsBytes (b : List Byte) : List Byte :=
  (beBytes 4 (b.foldl (crcByte 0xEDB88320#32) 0xFFFFFFFF#32 ^^^ 0xFFFFFFFF#32).toNat).reverse

/-- A little-endian number. -/
def leNat (b : List Byte) : Nat := beNat b.reverse

/-- A number as `n` bytes, least significant first. -/
def leBytes (n v : Nat) : List Byte := (beBytes n v).reverse

/-- Replace bytes from offset `o`. -/
def putAt (b : List Byte) (o : Nat) (v : List Byte) : List Byte := b.take o ++ v ++ b.drop (o + v.length)

/-- The headers of a frame: where the payload of the innermost tag begins, its EtherType, the outer VLAN TCI; for IP,
the protocol, where its payload begins and how long that is, and whether IPv6 extension headers stand before it. -/
structure Headers where
  l3 : Nat
  etype : Nat
  tci : Nat
  v4 : Bool
  v6 : Bool
  proto : Nat
  l4 : Nat
  l4len : Nat
  ext : Bool
  deriving DecidableEq, Repr

/-- Is an EtherType a VLAN tag's? -/
def isTag (t : Nat) : Bool := t == 0x8100 || t == 0x88A8

/-- Walk the IPv6 extension headers from next header `nh` at offset `o`: hop-by-hop options, routing, destination options and
authentication (PRESUMED: their codes and lengths are those of RFC 8200 and RFC 4302, log entry 30). Answers the header at which the walk
ends and its offset. -/
def skipExtensions (b : List Byte) : Nat → Nat → Nat → Nat × Nat
  | 0, nh, o => (nh, o)
  | n + 1, nh, o =>
    if nh = 0 ∨ nh = 43 ∨ nh = 60 then skipExtensions b n (u8 b o) (o + 8 * (u8 b (o + 1) + 1))
    else if nh = 51 then skipExtensions b n (u8 b o) (o + 4 * (u8 b (o + 1) + 2))
    else (nh, o)

/-- Parse the headers of a frame: up to two VLAN tags (R215), IPv4, or IPv6 with its extension headers. -/
def headers (b : List Byte) : Headers :=
  let tag1 := isTag (u16 b 12)
  let tag2 := tag1 && isTag (u16 b 16)
  let l3 : Nat := if tag2 then 22 else if tag1 then 18 else 14
  let et := u16 b (l3 - 2)
  let tci := if tag1 then u16 b 14 else 0
  if et = 0x0800 then
    let ihl := u8 b l3 % 16 * 4
    ⟨l3, et, tci, true, false, u8 b (l3 + 9), l3 + ihl, u16 b (l3 + 2) - ihl, false⟩
  else if et = 0x86DD then
    let up := skipExtensions b b.length (u8 b (l3 + 6)) (l3 + 40)
    ⟨l3, et, tci, false, true, up.1, up.2, u16 b (l3 + 4) + l3 + 40 - up.2, decide (up.2 ≠ l3 + 40)⟩
  else ⟨l3, et, tci, false, false, 0, l3 + 40, u16 b (l3 + 4), false⟩

/-- UDP or TCP? -/
def Headers.hasL4 (h : Headers) : Bool := (h.v4 || h.v6) && (h.proto == 6 || h.proto == 17)

/-- The destination port of UDP or TCP; 0 without one. -/
def Headers.dport (h : Headers) (b : List Byte) : Nat := if h.hasL4 then u16 b (h.l4 + 2) else 0

/-- The source and destination address of an IP packet. -/
def Headers.source (h : Headers) (b : List Byte) : Nat := if h.v4 then u32 b (h.l3 + 12) else beNat (bytesAt b (h.l3 + 8) 16)
def Headers.dest (h : Headers) (b : List Byte) : Nat := if h.v4 then u32 b (h.l3 + 16) else beNat (bytesAt b (h.l3 + 24) 16)

/-- Sum of 16-bit words, an odd last byte padded. -/
def wordSum : List Byte → Nat
  | [] => 0
  | [a] => a.toNat * 256
  | a :: b :: r => a.toNat * 256 + b.toNat + wordSum r

/-- Fold a sum into 16 bits with end-around carry. -/
def fold16 (n : Nat) : Nat :=
  let a := n % 65536 + n / 65536
  let b := a % 65536 + a / 65536
  b % 65536 + b / 65536

/-- The Internet checksum of some bytes. -/
def checksum (b : List Byte) : Nat := 65535 - fold16 (wordSum b)

/-- The pseudo-header of UDP or TCP. -/
def Headers.pseudo (h : Headers) (b : List Byte) : List Byte :=
  if h.v4 then bytesAt b (h.l3 + 12) 8 ++ be16 h.proto ++ be16 h.l4len
  else bytesAt b (h.l3 + 8) 32 ++ be32 h.l4len ++ be32 h.proto

/-- Where the checksum of the transport header lies. -/
def Headers.csumAt (h : Headers) : Nat := if h.proto = 17 then h.l4 + 6 else h.l4 + 16

/-- Is the IPv4 header checksum good (R215)? -/
def ipCsumOk (b : List Byte) : Bool :=
  let h := headers b
  !h.v4 || fold16 (wordSum (bytesAt b h.l3 (h.l4 - h.l3))) == 65535

/-- Is the UDP or TCP checksum good (R215)? UDP over IPv4 may leave it 0. -/
def l4CsumOk (b : List Byte) : Bool :=
  let h := headers b
  !h.hasL4 || (h.v4 && h.proto == 17 && u16 b h.csumAt == 0) ||
    fold16 (wordSum (h.pseudo b) + wordSum (bytesAt b h.l4 h.l4len)) == 65535

/-- Insert the IPv4 header checksum (R216). -/
def putIpCsum (b : List Byte) : List Byte :=
  let h := headers b
  if !h.v4 then b
  else
    let z := putAt b (h.l3 + 10) (zeros 2)
    putAt z (h.l3 + 10) (be16 (checksum (bytesAt z h.l3 (h.l4 - h.l3))))

/-- Recompute the UDP or TCP checksum (R217). -/
def sumL4 (b : List Byte) : List Byte :=
  let h := headers b
  if !h.hasL4 then b
  else
    let z := putAt b h.csumAt (zeros 2)
    let c := 65535 - fold16 (wordSum (h.pseudo z) + wordSum (bytesAt z h.l4 h.l4len))
    putAt z h.csumAt (be16 (if c = 0 ∧ h.proto = 17 then 65535 else c))

/-- Insert the UDP or TCP checksum; with IPv6 extension headers the field stays unchanged (R216). -/
def putL4Csum (b : List Byte) : List Byte := if (headers b).ext then b else sumL4 b

/-- Pad a frame to 64 bytes with its FCS (R216). -/
def pad64 (b : List Byte) : List Byte := b ++ zeros (60 - b.length)

/-- A PTP frame: EtherType 0x88F7, or UDP ports 319 and 320. -/
def isPtp (b : List Byte) : Bool :=
  let h := headers b
  h.etype == 0x88F7 || (h.proto == 17 && (h.dport b == 319 || h.dport b == 320))

/-- A PTP message that the Chronograph consumes: UDP ports 319 and 320, but for signalling and management messages, which go to host
ring 0 (R372). -/
def ptpService (b : List Byte) : Bool :=
  let h := headers b
  h.proto == 17 && (h.dport b == 319 || h.dport b == 320) && u8 b (h.l4 + 8) % 16 != 12 && u8 b (h.l4 + 8) % 16 != 13

/-- A signalling or management message of PTP. -/
def ptpForHost (b : List Byte) : Bool :=
  let h := headers b
  h.proto == 17 && (h.dport b == 319 || h.dport b == 320) && !ptpService b

/-! ### Frames that the part builds -/

/-- The MAC address of a port (R214). -/
def macAddress (p : Nat) : Nat := Config.otpMacBase.toNat * 128 + p

/-- Addresses of an Ethernet, IPv4 or IPv6 reply. -/
def etherHeader (dst src tci etype : Nat) : List Byte :=
  beBytes 6 dst ++ beBytes 6 src ++ (if tci = 0 then [] else be16 0x8100 ++ be16 tci) ++ be16 etype

/-- An IPv4 header without options: DF set, identification 0 (R262). -/
def ipv4Header (tos ttl proto src dst len : Nat) : List Byte :=
  be8 0x45 ++ be8 tos ++ be16 (20 + len) ++ be16 0 ++ be16 0x4000 ++ be8 ttl ++ be8 proto ++ be16 0 ++ be32 src ++ be32 dst

/-- An IPv6 header, flow label 0 (R262). -/
def ipv6Header (tc hop proto src dst len : Nat) : List Byte :=
  be32 (6 * 2 ^ 28 + tc * 2 ^ 20) ++ be16 len ++ be8 proto ++ be8 hop ++ beBytes 16 src ++ beBytes 16 dst

/-- A UDP header whose checksum is still to be inserted. -/
def udpHeader (src dst len : Nat) : List Byte := be16 src ++ be16 dst ++ be16 (8 + len) ++ be16 0

/-- The multicast MAC address of an IP group (R262). -/
def groupMac (ipv6 : Bool) (dest : Nat) : Nat := if ipv6 then 0x333300000000 + dest % 2 ^ 32 else 0x01005E000000 + dest % 2 ^ 23

/-- Is an address a group's? -/
def isGroup (ipv6 : Bool) (dest : Nat) : Bool := if ipv6 then dest / 2 ^ 120 % 256 == 255 else dest / 2 ^ 28 % 16 == 14

/-- A frame of firmware in Q5, or of PTP in Q7. -/
def firmwareFrame (q : Nat) (b : List Byte) : TxFrame := ⟨q, pad64 b, none, none, none, none⟩

/-- An IPv4 datagram of UDP from a MAC address: both checksums inserted, tagged when `tci` is not 0. -/
def udpFrame (dst src tci srcIp dstIp sport dport : Nat) (payload : List Byte) : List Byte :=
  let body := udpHeader sport dport payload.length ++ payload
  putL4Csum (putIpCsum (etherHeader dst src tci 0x0800 ++ ipv4Header 0 64 17 srcIp dstIp body.length ++ body))

end Sys2Proof.Machine
end

