-- ==== Sys2Proof/Machine/Ops.lean ====
section
/-!
DEFINITION. The shared operations of the block: which units exist, lie where and are READY; the passing of time;
raising events; and sending replies and events to controllers.
-/
namespace Sys2Proof.Machine

/-! ### Units (R1, R2, R8, Tables 1.1, 19.1, 21.4) -/

/-- Is power domain `d` present on the variant (R2, R8)? -/
def domPresent (v : Variant) (d : Nat) : Bool :=
  match v with
  | .px7210 => decide (d < 58)
  | .px7206 => decide (d < 58) && !decide (47 ≤ d ∧ d ≤ 52) && !decide (55 ≤ d ∧ d ≤ 56)
  | .px7203 => decide (d < 58) && !decide (47 ≤ d ∧ d ≤ 52) && !decide (55 ≤ d ∧ d ≤ 56) &&
      !decide (20 ≤ d ∧ d ≤ 35) && !decide (44 ≤ d ∧ d ≤ 46) && !decide (d = 38)

/-- Instances of a capability on the full part (Table 21.4, first figure); 0 for an ID that the table does not list. -/
def capMax (cap : Nat) : Nat :=
  ([0, 1, 1, 1, 1, 1, 1, 1, 1, 1, 1, 16, 64, 4, 16, 48, 1, 128, 48, 64, 2, 1, 1, 96, 32, 64, 4, 8, 1, 8] : List Nat).getD cap 0

/-- The power domain that instance `i` of a capability lies in (Tables 1.1 and 19.1). -/
def capDomain (cap i : Nat) : Nat :=
  match cap with
  | 0x04 => 0
  | 0x05 => 57
  | 0x06 | 0x10 => 3
  | 0x07 | 0x08 | 0x13 => 39
  | 0x0A | 0x0B | 0x0C | 0x1D => 36
  | 0x0D => 40
  | 0x0E => 41
  | 0x0F => 47 + i / 8
  | 0x11 => 4 + i / 4
  | 0x12 => 53 + i / 12
  | 0x17 => 41 + i / 16
  | 0x18 => 37 + i / 16
  | 0x19 => 47
  | 0x1B => 2
  | _ => 1

/-- Instances of a capability present on the variant (Table 21.4). -/
def capCount (v : Variant) (cap : Nat) : Nat :=
  match v with
  | .px7210 => capMax cap
  | .px7206 => if cap = 0x0F ∨ cap = 0x19 then 0 else if cap = 0x12 then 24 else capMax cap
  | .px7203 =>
    if cap = 0x0F ∨ cap = 0x19 then 0 else if cap = 0x12 then 24 else if cap = 0x0C then 32
    else if cap = 0x0D then 2 else if cap = 0x0E then 8 else if cap = 0x11 then 64
    else if cap = 0x17 then 48 else if cap = 0x18 then 16 else capMax cap

/-- Is instance `i` of a capability present? -/
def State.present (s : State) (cap i : Nat) : Bool := decide (i < capCount s.variant cap)

/-- Is power domain `d` on (PWR_DOM_ON)? -/
def State.domOn (s : State) (d : Nat) : Bool :=
  if d < 32 then bit (s.rd Reg.PWR_DOM_ON_LO_ON) d else bit (s.rd Reg.PWR_DOM_ON_HI_ON) (d - 32)

/-- Is power domain `d` requested on (PWR_DOM_EN)? -/
def State.domEn (s : State) (d : Nat) : Bool :=
  if d < 32 then bit (s.rd Reg.PWR_DOM_EN_LO_EN) d else bit (s.rd Reg.PWR_DOM_EN_HI_EN) (d - 32)

/-- Set or clear the PWR_DOM_ON bit of a domain. -/
def State.setDomOn (s : State) (d : Nat) (on : Bool) : State :=
  let f := if d < 32 then Reg.PWR_DOM_ON_LO_ON else Reg.PWR_DOM_ON_HI_ON
  if on then s.setBit f (d % 32) else s.clrBit f (d % 32)

/-- Set or clear the PWR_DOM_EN bit of a domain. -/
def State.setDomEn (s : State) (d : Nat) (on : Bool) : State :=
  let f := if d < 32 then Reg.PWR_DOM_EN_LO_EN else Reg.PWR_DOM_EN_HI_EN
  if on then s.setBit f (d % 32) else s.clrBit f (d % 32)

/-- The units present in a power domain, as capability and instance. -/
def domainUnits (v : Variant) (d : Nat) : List (Nat × Nat) :=
  ((List.range 30).flatMap fun c => (List.range (capCount v c)).map fun i => (c, i)).filter fun u => capDomain u.1 u.2 == d

/-- The Almanac key of an instance. -/
def unitKey (cap i : Nat) : Nat := cap * 65536 + i

/-- Is instance `i` of a capability READY? -/
def State.isReady (s : State) (cap i : Nat) : Bool := s.ready.contains (unitKey cap i)

/-- Ready instances of a capability. -/
def State.readyCount (s : State) (cap : Nat) : Nat := (s.ready.filter fun k => k / 65536 == cap).length

/-- READY falls for one instance. -/
def State.unready (s : State) (cap i : Nat) : State := { s with ready := s.ready.filter (· != unitKey cap i) }

/-! ### Firebreaks (R11) -/

/-- The region and block of the Firebreak that a unit lies behind (Table 18.8), as region * 256 + block. -/
def unitBlock (cap i : Nat) : Option Nat :=
  match cap with
  | 0x01 | 0x02 => some (7 * 256 + 15)
  | 0x03 => some (7 * 256 + 8)
  | 0x04 => some (7 * 256 + 9)
  | 0x05 => some (7 * 256 + 3)
  | 0x06 => some (7 * 256 + 2)
  | 0x07 => some (5 * 256 + 4)
  | 0x08 => some (5 * 256 + 5)
  | 0x09 => some (7 * 256 + 12)
  | 0x0A => some (4 * 256)
  | 0x0B => some (4 * 256 + 1)
  | 0x0C => some (4 * 256 + 2)
  | 0x0D => some (5 * 256 + 3)
  | 0x0E => some (6 * 256 + 12)
  | 0x0F => some (6 * 256 + 6 + i / 8)
  | 0x10 => some (7 * 256 + 16)
  | 0x11 => some (i / 32 * 256 + i / 4 % 8)
  | 0x12 => some (7 * 256 + 4 + i / 12)
  | 0x13 => some (5 * 256 + 2)
  | 0x14 => some (7 * 256 + 10)
  | 0x15 => some (7 * 256 + 13)
  | 0x16 => some (7 * 256 + 14)
  | 0x17 => some (6 * 256 + i / 16)
  | 0x18 => some (5 * 256 + i / 16)
  | 0x19 => some (6 * 256 + 13)
  | 0x1A => some (7 * 256)
  | 0x1B => some (7 * 256 + 1)
  | _ => none

/-- Is a unit's block isolated behind its Firebreak (R11)? -/
def State.blockShut (s : State) (cap i : Nat) : Bool :=
  match unitBlock cap i with
  | some b => s.isolated.contains b
  | none => false

/-- The key under which a cell that took itself out of service stands in `State.isolated` (R518). -/
def cellKey (cap i : Nat) : Nat := 2 ^ 32 + unitKey cap i

/-- Is a unit behind a closed boundary: its block's Firebreak, or its own with the same clamps (R11, R518)? -/
def State.shutIn (s : State) (cap i : Nat) : Bool := s.blockShut cap i || s.isolated.contains (cellKey cap i)

/-- The maximum power of a variant in W, which is also the reset value of SYS_PWR_LIMIT.WATTS on it (Tables 0.1 and 3.7, R25). -/
def powerLimitMax : Variant → Nat
  | .px7210 => 250
  | .px7206 => 170
  | .px7203 => 95

/-- SYS_PWR_LIMIT.WATTS. -/
def State.powerLimit (s : State) : Nat := (s.regs.find Reg.SYS_PWR_LIMIT_WATTS.key).getD (powerLimitMax s.variant)

/-! ### Time -/

/-- Chronograph time: the Chronograph while PD39 is on, else the backup counter (R371). -/
def State.chrono (s : State) : Nat := if s.domOn 39 then s.tim.count else s.tim.backup

/-- The end of the 200 µs lead of the command that is executed, counted from its lead-time origin (R54, R131). -/
def State.leadEnd (s : State) : Nat := s.cyx.origin + 200000

/-- Always-on ticks of the 48 MHz crystal since power-on. -/
def State.ticks (s : State) : Nat := s.now * 48 / 1000

/-- The 64-bit Chronograph count and its fraction after `dt` ns at frequency word `y` (R369). -/
def chronoAdvance (count frac dt : Nat) (y : Int) : Nat × Nat :=
  let total : Int := (count * 2 ^ 32 + frac : Nat) + (dt : Int) * ((2 ^ 32 : Nat) + y)
  (total.toNat / 2 ^ 32 % 2 ^ 64, total.toNat % 2 ^ 32)

/-- `dt` ns of true time pass: true time, the Chronograph and the backup counter advance (R369, R371). -/
def State.elapse (dt : Nat) (s : State) : State :=
  if s.domOn 39 then
    let c := chronoAdvance s.tim.count s.tim.frac dt (s.rdInt Reg.TIM_INC_Y)
    { s with now := s.now + dt, tim := { s.tim with count := c.1, frac := c.2, backup := c.1 } }
  else if s.domOn 36 then
    { s with now := s.now + dt, tim := { s.tim with backup := (s.tim.backup + dt) % 2 ^ 64 } }
  else { s with now := s.now + dt }

/-- A free value: a word that the spec leaves undefined, fresh each time (log entry 2). -/
def State.freeWord (s : State) : Nat × State := ((Config.freeWord s.fresh).toNat, { s with fresh := s.fresh + 1 })

/-! ### Events -/

/-- Is the cause of an event present (R530)? -/
def State.causePresent (s : State) (code src obj : Nat) : Bool :=
  s.flt.causes.any fun c => c.1 == (code, src, obj)

/-- Note that the condition of a persisting event holds now: the uncleared entries of it are ACTIVE, also where the raise limit keeps the
event from being raised again (R385, R530). -/
def State.noteCause (s : State) (code src obj : Nat) : State :=
  { s with flt := { s.flt with
      causes := ((code, src, obj), s.now) :: s.flt.causes.filter fun c => c.1 != (code, src, obj)
      uncleared := s.flt.uncleared.map fun e =>
        if e.code == code && e.src == src && e.obj == obj then { e with active := true } else e } }

/-- The cause of an event ends: an uncleared entry of it loses ACTIVE (R530, Table 18.2). -/
def State.endCause (s : State) (code src obj : Nat) : State :=
  { s with flt := { s.flt with
      causes := s.flt.causes.filter fun c => c.1 != (code, src, obj)
      uncleared := s.flt.uncleared.map fun e =>
        if e.code == code && e.src == src && e.obj == obj then { e with active := false } else e } }

/-- May an event be raised again for its object, under its raise limit? -/
def State.mayRaise (s : State) (gap code src obj : Nat) : Bool :=
  !(s.flt.lastRaise.any fun p => p.1 == (code, src, obj) && decide (s.now < p.2 + gap))

/-- Raise an event of code `code` at most once per `gap` ns for its object: the block sets its alarm bits, the
cause is present if the event persists, and the collector has it to record (R517, R530). -/
def State.raiseWithin (s : State) (gap code src obj : Nat) : State :=
  let s1 := if eventPersists code then s.noteCause code src obj else s
  if s.mayRaise gap code src obj then
    let s2 := (alarmBits code src obj).foldl (fun t p => t.setBit p.1 p.2) s1
    { s2 with flt := { s2.flt with
        detected := s2.flt.detected ++
          [⟨code, eventClass code, src, obj, 0, s.chrono, eventPersists code, false, false, false, 0⟩]
        lastRaise := ((code, src, obj), s.now) :: s2.flt.lastRaise.filter fun p => p.1 != (code, src, obj) } }
  else s1

/-- Raise an event under the raise limit of its own table. -/
def State.raise (s : State) (code src obj : Nat) : State := s.raiseWithin (eventGap code) code src obj

/-- Raise an event for each object of a list. -/
def State.raiseAll (s : State) (code src : Nat) (objs : List Nat) : State :=
  objs.foldl (fun t o => t.raise code src o) s

/-! ### Replies and events to controllers -/

/-- Header bytes of a packet of the part (Table 2.1), CRC included. -/
def headerBytes (flags opcode status tag seq session len : Nat) : List Byte :=
  let h := be16 0x4358 ++ be8 1 ++ be8 flags ++ be16 opcode ++ be16 status ++ be32 tag ++ be32 seq ++
    be16 session ++ be16 len
  h ++ be32 (crc32c h).toNat

/-- Bytes of one fragment, with its tag under `key` where the session has one (R30). -/
def fragmentBytes (key : Option Key) (flags opcode status tag seq session : Nat) (payload : List Byte) : List Byte :=
  match key with
  | none => headerBytes flags opcode status tag seq session payload.length ++ payload
  | some k =>
    let b := headerBytes (flags + 1) opcode status tag seq session payload.length ++ payload
    b ++ beBytes 16 (Config.cmac k b).toNat

/-- Cut a payload into fragments of at most `room` bytes; fuel bounds the count (R33). -/
def fragments (key : Option Key) (opcode status tag session room : Nat) : Nat → Nat → List Byte → List (List Byte)
  | 0, _, _ => []
  | n + 1, seq, p =>
    if p.length ≤ room then [fragmentBytes key 2 opcode status tag seq session p]
    else fragmentBytes key 6 opcode status tag seq session (p.take room) ::
      fragments key opcode status tag session room n ((seq + 1) % 2 ^ 32) (p.drop room)

/-- Payload bytes of a SYS_EVENT (Table 2.13). -/
def eventPayload (m : EvMsg) : List Byte :=
  be8 m.kind ++ be8 0 ++ be16 m.lost ++ be32 m.ref ++ timeBytes m.time ++ be16 m.status ++ be16 m.entry

/-- Room for payload in one sideband transfer of 255 bytes (R34). -/
def sidebandRoom (key : Option Key) : Nat := if key.isSome then 215 else 231

/-- The DRAM channel and channel address that a system address maps to under the enabled sets (R488, R489). -/
def State.dramPlace (s : State) (a : Nat) : Option (Nat × Nat × Nat) :=
  let cap := (s.rd Reg.MEM_STAT_DENSITY + 1) * 2 ^ 29
  (List.range 16).findSome? fun n =>
    let c := s.rd (Reg.MEM_SET_CTL_COUNT n)
    let b := s.rd (Reg.MEM_SET_BASE_LO_B n) + s.rd (Reg.MEM_SET_BASE_HI_B n) * 2 ^ 32
    let o := a - 0x1000000000 - b
    let g := 2 ^ s.rd (Reg.MEM_SET_CTL_GRAIN n)
    if s.rd (Reg.MEM_SET_CTL_EN n) = 1 ∧ c ∈ ([1, 2, 3, 4, 6, 8, 12, 16, 24, 48] : List Nat) ∧
        0x1000000000 + b ≤ a ∧ o < c * cap then
      some (n, s.rd (Reg.MEM_SET_CTL_FIRST n) + o / g % c, o / g / c * g + o % g)
    else none

/-! ### Consumer buffers (R490) -/

/-- Bytes of a channel and of a whole channel set. -/
def State.channelBytes (s : State) : Nat := (s.rd Reg.MEM_STAT_DENSITY + 1) * 2 ^ 29
def State.setBytes (s : State) (n : Nat) : Nat := s.rd (Reg.MEM_SET_CTL_COUNT n) * s.channelBytes

/-- System address of offset 0 of a set. -/
def State.setBase (s : State) (n : Nat) : Nat := 0x1000000000 + s.rd64 (Reg.MEM_SET_BASE_LO_B n) (Reg.MEM_SET_BASE_HI_B n)

/-- Host reserve of a set. -/
def State.setReserve (s : State) (n : Nat) : Nat := s.rd64 (Reg.MEM_SET_RSV_LO_BYTES n) (Reg.MEM_SET_RSV_HI_BYTES n)

/-- Parts of a set that hold no consumer buffer: the reserve, the segments that PASR masks, and the stripes of the 1 MiB channel
blocks that failed a self-test, as offset and end (R444, R490). -/
def State.setClosed (s : State) (n : Nat) : List (Nat × Nat) :=
  let seg := s.setBytes n / 8
  let first := s.rd (Reg.MEM_SET_CTL_FIRST n)
  let count := s.rd (Reg.MEM_SET_CTL_COUNT n)
  let bad := s.twn.failed.filter fun t => t.1 == 2 && decide (first ≤ t.2 / 4096 ∧ t.2 / 4096 < first + count)
  (0, s.setReserve n) :: (((List.range 8).filter fun k => bit (s.rd (Reg.MEM_SET_PASR_MASK n)) k).map fun k => (k * seg, (k + 1) * seg)) ++
    bad.map fun (t : Nat × Nat) => (t.2 % 4096 * count * 2 ^ 20, (t.2 % 4096 + 1) * count * 2 ^ 20)

/-- Where firmware places a buffer of a set: the lowest 4 KiB-aligned offset at which it overlaps nothing; after all other
buffers when none has room (log entry 22). -/
def State.bufferOffset (s : State) (n size : Nat) : Nat :=
  let up := fun (x : Nat) => (x + 4095) / 4096 * 4096
  let held := s.setClosed n ++ (s.mem.bufs.filter fun b => b.set == n).map fun (b : Buffer) => (b.off, b.off + b.size)
  let starts := held.map fun x => up x.2
  let fits := starts.filter fun o => decide (o + size ≤ s.setBytes n) && held.all fun x => decide (x.2 ≤ o) || decide (o + size ≤ x.1)
  match fits with
  | [] => starts.foldl max 0
  | a :: r => r.foldl min a

/-- Give a consumer a buffer; answers its system address. -/
def State.allocBuffer (s : State) (kind id n size : Nat) : Nat × State :=
  let off := s.bufferOffset n size
  let b : Buffer := ⟨kind, id, n, off, size⟩
  (s.setBase n + off, { s with mem := { s.mem with bufs := s.mem.bufs ++ [b] } })

/-- A consumer gives its buffer back. -/
def State.freeBuffer (s : State) (kind id : Nat) : State :=
  { s with mem := { s.mem with bufs := s.mem.bufs.filter fun (b : Buffer) => !(b.kind == kind && b.id == id) } }

/-- The address of a consumer's buffer. -/
def State.bufferAt (s : State) (kind id : Nat) : Nat :=
  match s.mem.bufs.find? fun (b : Buffer) => b.kind == kind && b.id == id with
  | some b => s.setBase b.set + b.off
  | none => 0

/-- May a command place a buffer in set `n`: is it defined and enabled (R490)? -/
def State.setUsable (s : State) (n : Nat) : Bool := decide (n < 16) && s.flag (Reg.MEM_SET_CTL_EN n)

/-- The DRAM channels of a set, as units. -/
def State.setUnits (s : State) (n : Nat) : List (Nat × Nat) :=
  (List.range (s.rd (Reg.MEM_SET_CTL_COUNT n))).map fun i => (0x12, s.rd (Reg.MEM_SET_CTL_FIRST n) + i)

/-- What a memory address names under the decode of Table 17.2. -/
inductive Place
  | rom (offset : Nat)
  | sram (offset : Nat)
  | register (address : Nat)
  | dram (set channel offset : Nat)
  | unmapped
  deriving DecidableEq, Repr

/-- The address decode of Table 17.2 (R486). -/
def State.decode (s : State) (a : Nat) : Place :=
  let remap := s.flag Reg.SYS_CTL_REMAP
  if a < 0x100000 then (if remap then .sram a else .rom a)
  else if a < 0x800000 then (if remap then .sram a else .unmapped)
  else if a < 0x1000000 then .unmapped
  else if a < 0x1100000 then (if remap then .rom (a - 0x1000000) else .sram (a - 0x1000000))
  else if a < 0x1800000 then (if remap then .unmapped else .sram (a - 0x1000000))
  else if 0x10000000 ≤ a ∧ a ≤ 0x10FFFFFF then .register a
  else if 0x1000000000 ≤ a ∧ a ≤ 0x27FFFFFFFF then
    match s.dramPlace a with
    | some (n, ch, o) => .dram n ch o
    | none => .unmapped
  else .unmapped

/-- A DRAM channel's bytes lie at this key of the DRAM memory. -/
def dramKey (ch o : Nat) : Nat := ch * 2 ^ 32 + o

/-- A DRAM byte: what it holds, or the free value of a byte whose contents were lost (R474, R497). -/
def State.dramByte (s : State) (k : Nat) : Byte :=
  match s.mem.lost.find? fun r => decide (r.1 ≤ k ∧ k < r.2.1) with
  | some r => Config.lostByte r.2.2 k
  | none => s.mem.dram.read k

/-- The lost ranges without byte `k`, which is written. -/
def cutLost (k : Nat) (r : Nat × Nat × Nat) : List (Nat × Nat × Nat) :=
  if r.1 ≤ k ∧ k < r.2.1 then [(r.1, k, r.2.2), (k + 1, r.2.1, r.2.2)].filter fun x => decide (x.1 < x.2.1) else [r]

/-- Write a DRAM byte. -/
def State.dramPut (s : State) (k : Nat) (b : Byte) : State :=
  { s with mem := { s.mem with dram := s.mem.dram.write k b, lost := s.mem.lost.flatMap (cutLost k) } }

/-- The DRAM bytes of `[lo, hi)` lose their contents. -/
def State.loseDram (s : State) (lo hi : Nat) : State :=
  { s with fresh := s.fresh + 1, mem := { s.mem with
      dram := s.mem.dram.dropRange lo hi
      lost := (lo, hi, s.fresh) :: s.mem.lost.filter fun r => !decide (lo ≤ r.1 ∧ r.2.1 ≤ hi) } }

/-- Read one byte of SRAM, ROM or DRAM; an address that holds no memory reads 0. -/
def State.memByte (s : State) (a : Nat) : Byte :=
  match s.decode a with
  | .rom o => Config.romByte o
  | .sram o => s.mem.sram.read o
  | .dram _ ch o => s.dramByte (dramKey ch o)
  | _ => 0

/-- Write one byte of SRAM or DRAM; elsewhere nothing is stored. -/
def State.memPut (s : State) (a : Nat) (b : Byte) : State :=
  match s.decode a with
  | .sram o => { s with mem := { s.mem with sram := s.mem.sram.write o b } }
  | .dram _ ch o => s.dramPut (dramKey ch o) b
  | _ => s

/-- Read `n` bytes of memory from an address. -/
def State.memRead (s : State) (a n : Nat) : List Byte := (List.range n).map fun i => s.memByte (a + i)

/-- Write consecutive bytes of memory from an address. -/
def State.memWrite (s : State) (a : Nat) : List Byte → State
  | [] => s
  | b :: bs => State.memWrite (s.memPut a b) (a + 1) bs

/-- Entries of mailbox ring pair `n`; 0 when it is disabled (Table 2.4). Of LOG2 the table gives 1-6 and 0 a meaning: a pair whose LOG2
holds 7-15 is disabled too (DESIGN CHOICE, log entry 11). -/
def State.ringSize (s : State) (n : Nat) : Nat :=
  let l := s.rd (Reg.CYX_RING_SIZE_LOG2 n)
  if 1 ≤ l ∧ l ≤ 6 then 2 ^ l else 0

/-- Is the reply ring of a ring pair full (R37)? -/
def State.replyRingFull (s : State) (n : Nat) : Bool :=
  (s.rd (Reg.CYX_RP_PI_IDX n) + 1) % s.ringSize n == s.rd (Reg.CYX_RP_CI_IDX n)

/-- The DRAM channels that hold `len` bytes from an address: none where they do not lie in one channel set. Consecutive granules of a set
lie in consecutive channels of it (R488). -/
def State.dramSpan (s : State) (a len : Nat) : Option (List Nat) :=
  match s.dramPlace a, s.dramPlace (a + len - 1) with
  | some (n, _, _), some (m, _, _) =>
    if n ≠ m then none
    else
      let c := s.rd (Reg.MEM_SET_CTL_COUNT n)
      let g := 2 ^ s.rd (Reg.MEM_SET_CTL_GRAIN n)
      let o := a - s.setBase n
      some ((List.range (min c ((o % g + len - 1) / g + 1))).map fun i => s.rd (Reg.MEM_SET_CTL_FIRST n) + (o / g + i) % c)
  | _, _ => none

/-- Can firmware use `len` bytes from an address: in control SRAM, or in DRAM groups that are READY (R37, R224)? -/
def State.memoryUsable (s : State) (a len : Nat) : Bool :=
  match s.decode a with
  | .sram _ => true
  | .dram _ _ _ => (s.dramSpan a len).any fun cs => cs.all fun ch => s.isReady 0x12 ch
  | _ => false

/-- Base addresses of the request and the reply ring of a ring pair (Table 2.4). -/
def State.requestRing (s : State) (n : Nat) : Nat := s.rd64 (Reg.CYX_RQ_BASE_LO_ADDR n) (Reg.CYX_RQ_BASE_HI_ADDR n)
def State.replyRing (s : State) (n : Nat) : Nat := s.rd64 (Reg.CYX_RP_BASE_LO_ADDR n) (Reg.CYX_RP_BASE_HI_ADDR n)

/-- Does the part write to the reply ring of a ring pair: enabled, not halted, in usable memory, and not full (R37, R38)? A halted pair
holds its replies and drops its events as one whose ring is full (log entry 11). -/
def State.replyRingTakes (s : State) (n : Nat) : Bool :=
  decide (s.ringSize n ≠ 0) && !s.cyx.halted.contains n && s.memoryUsable (s.replyRing n) (8256 * s.ringSize n) && !s.replyRingFull n

/-- Write one packet into the reply ring of a ring pair and set `irq` (R37, R38). -/
def State.ringPush (s : State) (n : Nat) (irq : FieldRef) (bytes : List Byte) : State :=
  let s1 := s.memWrite (s.replyRing n + s.rd (Reg.CYX_RP_PI_IDX n) * 8256) bytes
  (s1.wr (Reg.CYX_RP_PI_IDX n) ((s.rd (Reg.CYX_RP_PI_IDX n) + 1) % s.ringSize n)).wr irq 1

/-- Change one session. -/
def State.modSession (s : State) (id : Nat) (f : Session → Session) : State :=
  { s with cyx := { s.cyx with sessions := s.cyx.sessions.map fun x => if x.id == id then f x else x } }

/-- The session with an ID. -/
def State.session (s : State) (id : Nat) : Option Session := s.cyx.sessions.find? fun x => x.id == id

/-- The session key of a session, where it has one. -/
def Session.keyOf (x : Session) : Option Key := if x.id = 0 then none else some x.key

/-! ### Datagrams of the management ports (R35, R218, R233) -/

/-- A port's record. -/
def State.netPort (s : State) (p : Nat) : PortRec :=
  (s.net.ports.find? fun x => x.p == p).getD ⟨p, [], 0, [], [], none, 0, 0, 0, [], none, []⟩

/-- The card is side B (R241: without twins, side A). -/
def State.sideB (s : State) : Bool := s.flag Reg.TWN_CTL_SIDE_B

/-- The MGT_IP settings of a management port: addresses of sides A and B, prefix, gateway, VLAN. The ROM in recovery mode has those of the
settings store (R233, R571). -/
def State.mgtSettings (s : State) (p : Nat) : Option (Nat × Nat × Nat × Nat × Nat) :=
  (s.netPort p).mgtIp.orElse fun _ =>
    if s.boot.romServes && s.boot.configValid then (s.boot.config.mgt.find? fun x => x.1 == p).map fun x => x.2 else none

/-- The IPv4 address of a management port; 0 for none. -/
def State.mgtAddress (s : State) (p : Nat) : Nat :=
  match s.mgtSettings p with
  | none => 0
  | some x => if s.sideB then x.2.1 else x.1

/-- The address to which a management port hands a datagram for `dst`: its own when it lies in the port's network, else the gateway's. -/
def State.nextHop (s : State) (p dst : Nat) : Nat :=
  match s.mgtSettings p with
  | none => dst
  | some (_, _, len, gateway, _) => if s.mgtAddress p / 2 ^ (32 - len) = dst / 2 ^ (32 - len) then dst else gateway

/-- A datagram of management port `m` enters its Q5 (R218); a port without an IPv4 address sends none (R233). -/
def State.sendDatagram (s : State) (m dst sport dport : Nat) (payload : List Byte) : State :=
  let p := 64 + m
  if s.mgtAddress p = 0 then s else
  let vlan := ((s.mgtSettings p).map fun x => x.2.2.2.2).getD 0
  let b := udpFrame (Config.neighbour p (s.nextHop p dst)).toNat (macAddress p) vlan (s.mgtAddress p) dst sport dport payload
  { s with cyx := { s.cyx with outbox := s.cyx.outbox ++ [(p, firmwareFrame 5 b)] } }

/-! ### Sending replies and events -/

/-- Send a reply by its transport: a datagram in Q5 of the management port that received the request, sideband fragments to be read, a
mailbox entry, or the message channel of the partner link, behind what waits there (R34-R38, R218). A mailbox reply that finds its ring
full, or others held before it, is held, never dropped. -/
def State.sendReply (s : State) (r : Reply) : State :=
  let s1 := { s with sent := .reply r :: s.sent }
  match r.transport with
  | .udp m addr port => s1.sendDatagram m addr 7210 port (fragmentBytes r.key 2 r.opcode r.status r.tag r.seq r.session r.payload)
  | .sideband =>
    let fs := fragments r.key r.opcode r.status r.tag r.session (sidebandRoom r.key) 40 r.seq r.payload
    { s1 with cyx := { s1.cyx with sideband := s1.cyx.sideband ++ fs } }
  | .mailbox n =>
    let b := fragmentBytes r.key 2 r.opcode r.status r.tag r.seq r.session r.payload
    if s1.replyRingTakes n && !s1.cyx.held.any fun h => h.1 == n then s1.ringPush n (Reg.CYX_IRQ_RSP n) b
    else { s1 with cyx := { s1.cyx with held := s1.cyx.held ++ [(n, b)] } }
  | .partner =>
    { s1 with cyx := { s1.cyx with linkBox := s1.cyx.linkBox ++ [fragmentBytes r.key 2 r.opcode r.status r.tag r.seq r.session r.payload] } }

/-- An event leaves for its session, with the number of events dropped before it and the next count of the session's events (R33, R56). -/
def State.countEvent (s : State) (x : Session) (m : EvMsg) : State :=
  { s with sent := .event x.id { m with lost := min x.lost 65535 } :: s.sent }.modSession x.id fun y =>
    { y with sentCount := y.sentCount + 1, lost := 0 }

/-- The packet of a session's next event. -/
def Session.eventBytes (x : Session) (m : EvMsg) : List Byte :=
  fragmentBytes x.keyOf 2 7 0 0 ((x.sentCount + 1) % 2 ^ 32) x.id (eventPayload { m with lost := min x.lost 65535 })

/-- An event of a session goes to a mailbox ring pair; when the reply ring is full it is dropped, and counted (R38, R56). -/
def State.ringEvent (s : State) (n : Nat) (x : Session) (m : EvMsg) : State :=
  if s.replyRingTakes n then (s.countEvent x m).ringPush n (Reg.CYX_IRQ_EVT n) (x.eventBytes m)
  else (s.modSession x.id fun y => { y with lost := y.lost + 1 }).wr (Reg.CYX_IRQ_EVTLOST n) 1

/-- Send one SYS_EVENT to a session by the transport of its last packet. On the sideband it waits, at most 256 of
them, the oldest dropped and counted (R56). -/
def State.sendEventTo (s : State) (id : Nat) (m : EvMsg) : State :=
  match s.session id with
  | none => s
  | some x =>
    match x.transport with
    | .udp k addr port => (s.countEvent x m).sendDatagram k addr 7210 port (x.eventBytes m)
    | .sideband =>
      if x.events.length < 256 then s.modSession id fun y => { y with events := y.events ++ [m] }
      else s.modSession id fun y => { y with events := y.events.drop 1 ++ [m], lost := y.lost + 1 }
    | .mailbox n => s.ringEvent n x m
    | .partner => { s.countEvent x m with cyx := { (s.countEvent x m).cyx with linkBox := (s.countEvent x m).cyx.linkBox ++ [x.eventBytes m] } }

/-- The events that waited on the sideband follow a session that moved to another transport. -/
def State.moveEvents (s : State) (id : Nat) : State :=
  match s.session id with
  | none => s
  | some x =>
    if x.transport = .sideband then s
    else x.events.foldl (fun t m => t.sendEventTo id m) (s.modSession id fun y => { y with events := [] })

/-- Send one SYS_EVENT to every session that subscribes to its kind (R56). -/
def State.publish (s : State) (m : EvMsg) : State :=
  (s.cyx.sessions.filter fun x => bit x.mask m.kind).foldl (fun t x => t.sendEventTo x.id m) s

/-- Does an effect of a command still wait: a pending operation or a take of it? -/
def State.effectWaits (s : State) (session tag : Nat) : Bool :=
  (s.cyx.pendings.any fun p => p.session == session && p.tag == tag) || s.eph.takes.any fun t => t.session == session && t.tag == tag

/-- Send COMPLETE or FAILED to the session that issued a command (R54, R56). A change list is complete once its last effect has
occurred; each of its effects that fails is reported with its entry (R83). -/
def State.finish (s : State) (session tag status entry : Nat) : State :=
  if status = 0 ∧ entry ≠ 0 ∧ s.effectWaits session tag then s
  else s.sendEventTo session ⟨if status = 0 then 0 else 1, 0, tag, s.chrono, status, if status = 0 then 0 else entry⟩

/-- Several effects end at once: session, tag, status and entry of each. -/
def State.finishAll (s : State) : List (Nat × Nat × Nat × Nat) → State
  | [] => s
  | (se, tag, st, en) :: r =>
    if st = 0 ∧ en ≠ 0 ∧ r.any (fun x => x.1 == se && x.2.1 == tag && x.2.2.1 == 0) then s.finishAll r
    else (s.finish se tag st en).finishAll r

/-- A READY event also goes to every mailbox ring pair without subscription (R56). The spec names no session for it: it is sent as an
event of session 0, which counts it, and counts it as lost where a ring is full (DESIGN CHOICE, log entry 78). -/
def State.ringReady (s : State) (m : EvMsg) : State :=
  (List.range 8).foldl (fun t n =>
    match t.session 0 with
    | some x => if t.ringSize n = 0 then t else t.ringEvent n x m
    | none => t) s

/-- Replies held for a full reply ring enter it, oldest first, as far as it has room (R38). -/
def State.pushHeld (s : State) (n : Nat) : State :=
  s.cyx.held.foldl (fun t h =>
    if h.1 = n ∧ t.replyRingTakes n then
      { t with cyx := { t.cyx with held := t.cyx.held.erase h } }.ringPush n (Reg.CYX_IRQ_RSP n) h.2
    else t) s

/-- READY rises for an instance that was not READY, and READY events follow (R57). Replies that were held for want of usable memory enter
their rings (R38). -/
def State.setReady (s : State) (cap i : Nat) : State :=
  if s.isReady cap i then s
  else
    let m : EvMsg := ⟨2, 0, cap * 65536 + i, s.chrono, 0, 0⟩
    (List.range 8).foldl State.pushHeld (({ s with ready := unitKey cap i :: s.ready }.publish m).ringReady m)

/-- READY of instances `0 … n-1` of a capability. -/
def State.setReadyAll (s : State) (cap n : Nat) : State := (List.range n).foldl (fun t i => t.setReady cap i) s

/-- Record that a command answered ACCEPTED_PENDING waits for something. -/
def State.await (s : State) (p : Pending) : State := { s with cyx := { s.cyx with pendings := s.cyx.pendings ++ [p] } }

/-- Are the receivers of lanes READY? -/
def State.receiversReady (s : State) (rx : List Nat) : Bool := rx.all fun l => bit (s.rd (Reg.LNQ_LSTAT_BITS l)) 4

/-- Has what a pending command waits for come about? Takes and objects are ended by their own events. -/
def State.waitOver (s : State) : Waits → Bool
  | .domains on mask => (List.range 58).all fun d => !bit mask d ||
      ((s.domOn d == bit on d) && (!bit on d || (domainUnits s.variant d).all fun u => s.isReady u.1 u.2))
  | .unit cap i => if i = 0xFFFF then (List.range (capCount s.variant cap)).all fun k => s.isReady cap k else s.isReady cap i
  | .instant t => decide (t ≤ s.now)
  | .lanes tx rx => (tx.all fun l => bit (s.rd (Reg.LNQ_LSTAT_BITS l)) 3) && s.receiversReady rx
  | .linkUp p _ => s.flag (Reg.NET_STAT_LINK p)
  | _ => false

/-- Has a pending command passed its limit? The limit of LAN_SLEEP is its receivers' (R179). -/
def Pending.expired (p : Pending) (s : State) : Bool :=
  match p.deadline with
  | some t => decide (t < s.now) && (match p.waits with
    | .lanes _ rx => !s.receiversReady rx
    | _ => true)
  | none => false

/-- Send COMPLETE for every pending command whose wait is over, FAILED with NOT_READY for those past their limit. -/
def State.settle (s : State) : State :=
  let ending := s.cyx.pendings.filter fun p => s.waitOver p.waits || p.expired s
  let s1 := { s with cyx := { s.cyx with pendings := s.cyx.pendings.filter fun p => !(s.waitOver p.waits || p.expired s) } }
  s1.finishAll (ending.map fun p => (p.session, p.tag, if s.waitOver p.waits then 0 else 0x0010, p.entry))

/-- End the pending commands that wait for an object: COMPLETE on status 0, else FAILED. -/
def State.endWait (s : State) (w : Waits) (status : Nat) : State :=
  let ending := s.cyx.pendings.filter fun p => p.waits == w
  let s1 := { s with cyx := { s.cyx with pendings := s.cyx.pendings.filter fun p => p.waits != w } }
  s1.finishAll (ending.map fun p => (p.session, p.tag, status, p.entry))

end Sys2Proof.Machine
end

