-- ==== Sys2Proof/Machine/VaultOps.lean ====
section
/-!
DEFINITION. The Vault's operations: slots, the Coppice derivation, usability by a consumer, emptying and the
cascade, fresh values (R460-R469).
-/
namespace Sys2Proof.Machine

/-- Consumer bits of Table 16.3. -/
inductive Consumer
  | cyxel
  | macsec
  | srtp
  | twin
  | lookout
  | wrap
  deriving DecidableEq, Repr

def Consumer.bitNo : Consumer → Nat
  | .cyxel => 0
  | .macsec => 1
  | .srtp => 2
  | .twin => 3
  | .lookout => 4
  | .wrap => 5

/-- An EMPTY slot that was never filled. -/
def Slot.empty : Slot := ⟨0, 0, 0, 0xFFFF, 0, 0, 0, 0, 0, 0, true, false⟩

/-- The record of a slot. -/
def State.slot (s : State) (i : Nat) : Slot := ((s.vlt.slots.find? fun p => p.1 == i).map (·.2)).getD Slot.empty

/-- Store a slot record. -/
def State.putSlot (s : State) (i : Nat) (x : Slot) : State :=
  { s with vlt := { s.vlt with slots := (i, x) :: s.vlt.slots.filter fun p => p.1 != i } }

/-- One 128-bit block of the derivation (R465). -/
def kdfBlock (k : Key) (i : Nat) (label ctx : List Byte) (bits : Nat) : Tag128 :=
  Config.cmac k (be32 i ++ label ++ be8 0 ++ ctx ++ be32 bits)

/-- The 256-bit derivation of R465: NIST SP 800-108 in counter mode with AES-256-CMAC. -/
def kdf256 (k : Key) (label ctx : List Byte) : Key :=
  (kdfBlock k 1 label ctx 256 ++ kdfBlock k 2 label ctx 256 : BitVec (128 + 128))

/-- The two halves of the 512-bit derivation of R465. -/
def kdf512 (k : Key) (label ctx : List Byte) : Key × Key :=
  ((kdfBlock k 1 label ctx 512 ++ kdfBlock k 2 label ctx 512 : BitVec (128 + 128)),
   (kdfBlock k 3 label ctx 512 ++ kdfBlock k 4 label ctx 512 : BitVec (128 + 128)))

/-- The ASCII bytes of a label. -/
def ascii (l : String) : List Byte := l.toList.map fun c => BitVec.ofNat 8 c.toNat

/-- Is the Vault READY (R458)? -/
def State.vaultReady (s : State) : Bool := s.isReady 5 0

/-- May the Vault hand out a random value (R459)? -/
def State.trngOk (s : State) : Bool := s.flag Reg.VLT_STAT_TRNG_OK

/-- The next random 128-bit value. -/
def State.draw (s : State) : Tag128 × State :=
  (Config.freshNonce s.vlt.drawn, { s with vlt := { s.vlt with drawn := s.vlt.drawn + 1 } })

/-- Is every ancestor of a slot VALID, each link of the generation it was derived under (R461)? Levels end at 8. -/
def State.ancestorsOk (s : State) : Nat → Nat → Nat → Bool
  | 0, _, _ => true
  | n + 1, parent, pgen =>
    if 544 ≤ parent then true
    else
      let p := s.slot parent
      decide (p.state = 1) && decide (p.gen = pgen) && p.tagOk && s.ancestorsOk n p.parent p.parentGen

/-- Does a consumer accept a slot (R461)? `derives` says that it derives from the slot. -/
def State.accepts (s : State) (i : Nat) (c : Consumer) (derives : Bool) : Bool :=
  let x := s.slot i
  decide (x.state = 1) && x.tagOk && bit x.cons c.bitNo && (bit x.attrs 1 || (derives && bit x.attrs 0)) &&
    s.ancestorsOk 9 x.parent x.parentGen

/-- The status with which an operation that names a slot for a consumer is answered (R461, R469): OK, KEY_REVOKED for a
slot that is STALE, BAD or below an emptied ancestor, BAD_PARAM for another that is not accepted. -/
def State.slotStatus (s : State) (i : Nat) (c : Consumer) : Nat :=
  let x := s.slot i
  if 544 ≤ i then 0x0040
  else if s.accepts i c true then 0
  else if x.state = 0 then (if x.cascaded then 0x0032 else 0x0040)
  else if x.state ≠ 1 ∨ !x.tagOk ∨ !s.ancestorsOk 9 x.parent x.parentGen then 0x0032
  else 0x0040

/-- Is a bound pair (slot, Generation) still usable by a consumer (R461, R468)? -/
def State.boundOk (s : State) (i gen : Nat) (c : Consumer) : Bool :=
  decide ((s.slot i).gen = gen) && s.accepts i c true

/-- Is slot `i` below slot `a`? -/
def State.below (s : State) (a : Nat) : Nat → Nat → Bool
  | 0, _ => false
  | n + 1, i =>
    let x := s.slot i
    if 544 ≤ x.parent ∨ x.state = 0 then false else x.parent == a || s.below a n x.parent

/-- The descendants of a slot that are not EMPTY. -/
def State.descendants (s : State) (a : Nat) : List Nat := (List.range 544).filter fun i => i != a && s.below a 9 i

/-- Zeroise a slot, set it EMPTY and increment its Generation (R467). -/
def State.emptySlot (s : State) (i : Nat) (byCascade : Bool) : State :=
  let x := s.slot i
  if x.state = 0 then s
  else (s.putSlot i { Slot.empty with gen := x.gen + 1, cascaded := byCascade }).endCause 0x2D01 srcVault i

/-- Fill a slot: its Generation rises (Table 16.2). -/
def State.fillSlot (s : State) (i : Nat) (x : Slot) : State :=
  s.putSlot i { x with gen := (s.slot i).gen + 1, tagOk := true, cascaded := false }

/-- The lowest EMPTY volatile slot. -/
def State.freeSlot (s : State) : Option Nat := (List.range 512).find? fun i => (s.slot i).state == 0

/-- The VLT_USED counts (Table 16.11). -/
def State.countSlots (s : State) : State :=
  let used := fun (lo hi : Nat) => (s.vlt.slots.filter fun p => decide (lo ≤ p.1 ∧ p.1 < hi) && p.2.state != 0).length
  ((s.wr Reg.VLT_USED_VOLATILE (used 0 512)).wr Reg.VLT_USED_OTP (used 512 544)).wr Reg.VLT_USED_LEGACY
    (s.vlt.slots.filter fun p => bit p.2.attrs 5 && p.2.state != 0).length

/-- A slot below an emptied or bad one waits for the sweep as STALE. -/
def State.staleSlot (s : State) (i : Nat) : State :=
  let x := s.slot i
  if x.state = 1 then s.putSlot i { x with state := 2 } else s

/-- The sessions whose key lies in one of the slots never resume (R45, R468). -/
def State.revokeSessions (s : State) (is : List Nat) : State :=
  { s with cyx := { s.cyx with sessions := s.cyx.sessions.map fun x =>
      if x.id != 0 && is.contains x.slot then { x with revoked := true } else x } }

/-- What follows an invalidation at the same instant: every descendant fails R461 and waits for the sweep, and the sessions
below are revoked. The other consumers compare the Generation that they bound (R467, R468). -/
def State.cascade (s : State) (i : Nat) (ds : List Nat) : State :=
  let s1 := ds.foldl (fun t d => t.staleSlot d) s
  ({ s1 with vlt := { s1.vlt with sweep := (s1.vlt.sweep.filter fun d => d != i && !ds.contains d) ++ ds } }.revokeSessions (i :: ds)).countSlots

/-- Invalidate a slot: it is emptied at once, every descendant fails R461 from that instant, and the sweep has them
to empty (R467). -/
def State.invalidate (s : State) (i : Nat) : State :=
  let ds := s.descendants i
  (s.emptySlot i false).cascade i ds

/-- A tag check fails: the slot becomes BAD, its key is zeroised, and its descendants are revoked (R462). A LEGACY slot has no
tag (R464). -/
def State.badSlot (s : State) (i : Nat) : State :=
  let x := s.slot i
  if x.state = 0 ∨ x.state = 3 ∨ bit x.attrs 5 then s
  else
    let ds := s.descendants i
    let s1 := (s.putSlot i { x with key := 0, state := 3, tagOk := false }).bump Reg.VLT_BAD_COUNT 1
    ((s1.raise 0x2D01 srcVault i).cascade i ds)

/-- The fuses as VLT_STAT and VLT_JTAG show them (R454, Table 16.11). -/
def State.readFuses (s : State) : State :=
  let v := s.vlt
  ((((s.wr Reg.VLT_STAT_LCS v.lcs).wr Reg.VLT_STAT_FLOOR v.floor).wr Reg.VLT_STAT_KEYREV v.keyRev).wr
    Reg.VLT_STAT_DEV_STEPS v.devSteps).wr Reg.VLT_JTAG_MODE (b01 (decide (v.lcs = 3 ∨ v.lcs = 5)))

/-- The pair key is formed again when twin operation is configured or its parent slot is filled (R421, R466). -/
def State.formPairKey (s : State) : State :=
  let x := s.slot s.twn.pairSlot
  { s with twn := { s.twn with pairSlotGen := x.gen, pairKey := kdf256 x.key (ascii "TWNP" ++ be16 s.twn.pairId) [] } }

/-- The Lookout key likewise; its label ends with the card ID (R419, R421). -/
def State.formLookKey (s : State) : State :=
  let x := s.slot s.twn.lookSlot
  let card := s.twn.pairId * 2 + s.rd Reg.TWN_CTL_SIDE_B
  { s with twn := { s.twn with lookSlotGen := x.gen, lookKey := kdf256 x.key (ascii "LKOL" ++ be16 card) [] } }

/-- A slot was filled: a twin key below it is formed again (R466). -/
def State.refilled (s : State) (i : Nat) : State :=
  if !s.flag Reg.TWN_CTL_EN then s
  else
    let s1 := if i = s.twn.pairSlot ∧ s.slotStatus i .twin = 0 then s.formPairKey else s
    if i = s1.twn.lookSlot ∧ s1.slotStatus i .lookout = 0 then s1.formLookKey else s1

/-- Does the pair key still pass (R421, R468)? -/
def State.pairKeyOk (s : State) : Bool := s.boundOk s.twn.pairSlot s.twn.pairSlotGen .twin

/-- Does the Lookout key still pass? -/
def State.lookKeyOk (s : State) : Bool := s.boundOk s.twn.lookSlot s.twn.lookSlotGen .lookout

end Sys2Proof.Machine
end

