-- ==== Sys2Proof/Machine/Slots.lean ====
section
/-!
DEFINITION. Slots (R17-R23): the two number spaces, which slots exist, which are split, the selections of the output
ports, bonds, and how a selection maps to embedded audio.
-/
namespace Sys2Proof.Machine

/-- A slot as one number: `s` for full slot `s`, `0x10000 + q` for quarter slot `q`. -/
def slotKey (n : Nat) (quarter : Bool) : Nat := if quarter then 0x10000 + n else n

/-- Is a slot number a quarter slot's? -/
def isQuarter (k : Nat) : Bool := decide (0x10000 ≤ k)

/-- The number of a slot in its own space. -/
def slotNo (k : Nat) : Nat := if 0x10000 ≤ k then k - 0x10000 else k

/-- The full slot that a slot lies in. -/
def fullSlot (k : Nat) : Nat := if 0x10000 ≤ k then (k - 0x10000) / 4 else k

/-- The quarter index 0-6143 under which a slot's port stands in the selection registers. -/
def quarterIndex (k : Nat) : Nat := if 0x10000 ≤ k then k - 0x10000 else 4 * k

/-- The object number of a slot in events and replies. -/
def slotObject (k : Nat) : Nat := slotNo k

/-- External full slots of the variant. -/
def State.externalSlots (s : State) : Nat := 9 * capCount s.variant 0x11

/-- Output ports of the variant, internal pool included (R21). -/
def State.outputPorts (s : State) : Nat := if s.variant = .px7203 then 1344 else 1536

/-- Is a full slot of Table 1.8 or an external one present? Reserved slots are not. -/
def State.slotPresent (s : State) (n : Nat) : Bool :=
  if n < 1152 then decide (n < s.externalSlots)
  else if n < 1168 then s.present 0x0E (n - 1152)
  else if n < 1232 then s.present 0x19 (n - 1168)
  else if n < 1296 then s.present 0x0C (n - 1232)
  else if n < 1304 then s.present 0x1D (n - 1296)
  else false

/-- The flows bound to slots. -/
def Flow.slotKey (f : Flow) : Nat := Machine.slotKey f.slot f.quarter

/-- Kinds whose slot field names a slot: 1, 5, 6, and audio with ASSOC. -/
def Flow.onSlot (f : Flow) : Bool :=
  f.kind == 1 || f.kind == 5 || f.kind == 6 || ((f.kind == 3 || f.kind == 4) && f.assoc)

/-- The mode of a lane (Table 6.1). -/
def State.laneMode (s : State) (l : Nat) : Nat := s.rd (Reg.LNQ_LCFG_MODE l)

/-- A lane's record. -/
def State.lane (s : State) (l : Nat) : Lane := (s.lan.lanes.find? fun x => x.l == l).getD (Lane.reset l)

/-- Store a lane's record. -/
def State.putLane (s : State) (x : Lane) : State :=
  { s with lan := { lanes := x :: s.lan.lanes.filter fun y => y.l != x.l } }

/-- The full slot is used by a quarter flow in the given direction. -/
def State.flowSplit (s : State) (n : Nat) (tx : Bool) : Bool :=
  s.net.flows.any fun f => f.tx == tx && f.onSlot && f.quarter && f.slot / 4 == n

/-- The encoder channel with a handle (R334). -/
def State.encChan (s : State) (h : Nat) : Option EncChan := s.enc.chans.find? fun x => x.handle == h

/-- Store an encoder channel. -/
def State.putEnc (s : State) (x : EncChan) : State :=
  { s with enc := { s.enc with chans := s.enc.chans.map fun y => if y.handle == x.handle then x else y } }

/-- The carriage rate of a send flow of an encoder channel (R351): kind 8 with packets of `lmax` bytes, kind 7 in transport
packets, kind 2; 0 where no channel has the handle. -/
def State.encoderRate (s : State) (kind h lmax : Nat) : Nat :=
  match s.encChan h with
  | none => 0
  | some x =>
    let n := s.rd (Reg.EPH_GEN_CUR_N_N x.gen)
    let d := s.rd (Reg.EPH_GEN_CUR_D_D x.gen)
    let r := (x.height + 63) / 64
    let up := fun (a b : Nat) => (a + b - 1) / max 1 b
    if kind = 8 then x.rate + up (8 * lmax * (r + 5) * n) d
    else if kind = 7 then up (x.rate * 188 * d + 8 * 1316 * (r + 1) * n * 184) (184 * d)
    else x.rate + up (8 * lmax * ((x.height + 15) / 16) * n) d

/-- May a send flow of a kind name an encoder channel: HEVC for kinds 7 and 8, JPEG XS for kind 2 (Table 12.1)? -/
def State.encoderKnown (s : State) (kind h : Nat) : Bool :=
  match s.encChan h with
  | some x => if kind = 2 then decide (2 ≤ x.codec) else decide (x.codec < 2)
  | none => false

/-- Does a JPEG XS decoder name a receive flow? -/
def State.decoderNames (s : State) (h : Nat) : Bool := s.enc.decs.any fun x => x.flow == h

/-- The JPEG XS decoder that a receive flow feeds. -/
def State.decoderOf (s : State) (h : Nat) : Option XsDecoder := s.enc.decs.find? fun x => x.flow == h

/-- The receive flow of a decoder writes a format that a quarter slot carries (Table 1.9): 1 920 × 1 080 4:2:2, up to
60 Hz progressive or 30 Hz interlaced. -/
def Flow.quarterFormat (f : Flow) : Bool :=
  f.width == 1920 && f.height == 1080 && f.sampling == 0 && decide (f.rateN ≤ (if f.interlaced then 30 else 60) * f.rateD)

/-- A JPEG XS decoder's slot is written as a quarter slot (R20, R354). -/
def State.decoderQuarter (s : State) (d : Nat) : Bool :=
  match s.enc.decs.find? fun x => x.d == d with
  | some x => s.net.flows.any fun f => !f.tx && 0x10000 + f.index == x.flow && f.quarterFormat
  | none => false

/-- Is a full slot split as a source (R18-R20)? On a Stave lane the received quarter map decides; on an Ethernet lane
the receive flows; internally the producer. -/
def State.srcSplit (s : State) (n : Nat) : Bool :=
  if n < 1152 then
    if s.laneMode (n / 9) = 2 then s.flowSplit n false else bit (s.rd (Reg.LNQ_SRX_QACT_HI_QMAP (n / 9))) (n % 9)
  else if n < 1168 then s.rd (Reg.MVW_H_CTL_FMT (n - 1152)) == 0
  else if n < 1232 then s.decoderQuarter (n - 1168)
  else if n < 1296 then s.fab.landing.any fun c => decide (0x100 ≤ c.chan) && (c.chan - 0x100) / 4 == n - 1232
  else false

/-- The layout in force on a transmitter. -/
def State.layoutCur (s : State) (l : Nat) : Layout :=
  ⟨s.rd (Reg.LNQ_STX_CUR_SLOTS l), s.rd (Reg.LNQ_STX_CUR_QMAP l), (s.lane l).qactCur⟩

/-- Is a position active in a layout, or a quarter of a split one? Of a split position the quarter-active set alone decides: its bit of the slot
mask counts for nothing (DESIGN CHOICE, log entry 129). -/
def Layout.active (y : Layout) (i : Nat) : Bool :=
  if bit y.qmap (i / 4) then bit y.qact i else bit y.slots (i / 4)

/-- The places of a layout: its whole positions, and the quarters of its split ones, as 4 p + q. -/
def Layout.places (y : Layout) : List Nat := (List.range 36).filter fun i => bit y.qmap (i / 4) || i % 4 == 0

/-- The quarter map that a lane's outputs will have from the next latch: under AUTO that of LAN_SLOTMASK (R193), else that of the layout
put forward, latched, or in force. -/
def State.outQmap (s : State) (l : Nat) : Nat :=
  if s.flag (Reg.LNQ_STX_CTL_AUTO l) then (s.lane l).qmapSet
  else (((s.lane l).forward.orElse fun _ => (s.lane l).latched).getD (s.layoutCur l)).qmap

/-- The superframe at which a layout put forward now takes effect: the first that is sent and whose latch is still to come (R192, R198). -/
def State.nextSuperframe (s : State) : Nat := (max (s.chrono + 1000) s.tim.superAfter + 124999) / 125000

/-- Is an external full slot split as an output? The layout in force decides, which changes at a superframe boundary (R18, R192). -/
def State.outSplit (s : State) (n : Nat) : Bool :=
  if n < 1152 then
    if s.laneMode (n / 9) = 2 then s.flowSplit n true else bit (s.rd (Reg.LNQ_STX_CUR_QMAP (n / 9))) (n % 9)
  else false

/-- Will it be split once the layout put forward is in force (R194)? -/
def State.outSplitNext (s : State) (n : Nat) : Bool :=
  if n < 1152 then
    if s.laneMode (n / 9) = 2 then s.flowSplit n true else bit (s.outQmap (n / 9)) (n % 9)
  else false

/-- Is a full slot an output of the part: an external one, or a port of the internal pool (R21)? -/
def State.outputPresent (s : State) (n : Nat) : Bool := decide (n < s.externalSlots) || decide (1152 ≤ n ∧ n < s.outputPorts)

/-- May a slot be named as a source (R18, R20)? -/
def State.sourceNamed (s : State) (k : Nat) : Bool :=
  let n := fullSlot k
  decide (n < 1536) && s.slotPresent n && (s.srcSplit n == isQuarter k) &&
    (decide (n < 1152) || !isQuarter k || decide (1232 ≤ n) || decide (slotNo k % 4 = 0))

/-! ### Selections -/

/-- The current selection of quarter index `q`. -/
def State.selCur (s : State) (q : Nat) : Sel :=
  ⟨slotKey (s.rd (Reg.FAB_SEL_CUR_SRC q)) (s.flag (Reg.FAB_SEL_CUR_SRCQ q)), s.flag (Reg.FAB_SEL_CUR_VALID q),
   s.rd (Reg.FAB_SEL_CUR_GEN q)⟩

/-- The shadow selection of quarter index `q`. -/
def State.selShd (s : State) (q : Nat) : Sel :=
  ⟨slotKey (s.rd (Reg.FAB_SEL_SHD_SRC q)) (s.flag (Reg.FAB_SEL_SHD_SRCQ q)), s.flag (Reg.FAB_SEL_SHD_VALID q),
   s.rd (Reg.FAB_SEL_SHD_GEN q)⟩

/-- Write a current selection. -/
def State.putCur (s : State) (q : Nat) (x : Sel) : State :=
  (((s.wr (Reg.FAB_SEL_CUR_SRC q) (slotNo x.src)).wr (Reg.FAB_SEL_CUR_SRCQ q) (b01 (isQuarter x.src))).wr
    (Reg.FAB_SEL_CUR_VALID q) (b01 x.valid)).wr (Reg.FAB_SEL_CUR_GEN q) x.gen

/-- Write a shadow selection and set ARM. -/
def State.putShd (s : State) (q : Nat) (x : Sel) : State :=
  ((((s.wr (Reg.FAB_SEL_SHD_SRC q) (slotNo x.src)).wr (Reg.FAB_SEL_SHD_SRCQ q) (b01 (isQuarter x.src))).wr
    (Reg.FAB_SEL_SHD_VALID q) (b01 x.valid)).wr (Reg.FAB_SEL_SHD_GEN q) x.gen).wr (Reg.FAB_SEL_SHD_ARM q) 1

/-- The quarter indices whose selection registers are listed for a one-bit field family that starts at `base`:
the ports with that bit set. -/
def State.portsWith (s : State) (base : FieldRef) : List Nat :=
  (s.regs.filter fun p => decide (base.key ≤ p.1) && decide (p.1 < base.key + 128 * 6144) &&
      (p.1 - base.key) % 128 == 0 && p.2 == 1).map fun p => (p.1 - base.key) / 128

/-- The connected output ports, by quarter index. -/
def State.connected (s : State) : List Nat := s.portsWith (Reg.FAB_SEL_CUR_VALID 0)

/-- The output ports whose shadow is armed. -/
def State.armed (s : State) : List Nat := s.portsWith (Reg.FAB_SEL_SHD_ARM 0)

/-- The slot number of the port with quarter index `q`: a quarter slot where the output is split. -/
def State.outKey (s : State) (q : Nat) : Nat :=
  if s.outSplit (q / 4) then 0x10000 + q else q / 4

/-- The slot number of the port once the layout put forward is in force (R194). -/
def State.outKeyNext (s : State) (q : Nat) : Nat :=
  if s.outSplitNext (q / 4) then 0x10000 + q else q / 4

/-- Does the port of a slot emit (FAB_OUTEN)? -/
def State.outEnabled (s : State) (n : Nat) : Bool := bit (s.rd (Reg.FAB_OUTEN_EN (n / 32))) (n % 32)

/-- Set or clear the FAB_OUTEN bit of a full output slot. -/
def State.setOutEn (s : State) (n : Nat) (on : Bool) : State :=
  if on then s.setBit (Reg.FAB_OUTEN_EN (n / 32)) (n % 32) else s.clrBit (Reg.FAB_OUTEN_EN (n / 32)) (n % 32)

/-! ### Bonds -/

/-- The bond whose naming slot is `n`, as a source bond or an output bond. Landing groups are bonds with RX (R614). -/
def State.bondNamed (s : State) (n : Nat) : Option BondRec :=
  match s.fab.bonds.find? fun b => b.members.head? == some n with
  | some b => some b
  | none =>
    match s.fab.landing.find? fun c => decide (1 < c.size) && c.first + 1232 == n with
    | some c => some ⟨(List.range c.size).map fun i => 1232 + c.first + i, true, false⟩
    | none => none

/-- The bond that a full slot belongs to, in either direction. -/
def State.bondOf (s : State) (n : Nat) : Option BondRec :=
  match s.fab.bonds.find? fun b => b.members.contains n with
  | some b => some b
  | none =>
    match s.fab.landing.find? fun c => decide (1 < c.size) && decide (c.first + 1232 ≤ n ∧ n < c.first + 1232 + c.size) with
    | some c => s.bondNamed (c.first + 1232)
    | none => none

/-- A bond whose members a slot names, as a source. -/
def State.sourceMembers (s : State) (k : Nat) : List Nat :=
  match s.bondNamed k with
  | some b => if b.rx && !isQuarter k then b.members else [k]
  | none => [k]

/-! ### Landing -/

/-- The output slot of a Landing channel. -/
def landingSlot (chan : Nat) : Nat := if 0x100 ≤ chan then 0x10000 + 4928 + (chan - 0x100) else 1232 + chan

/-- The Landing channel whose output is slot `k`. -/
def State.landingOut (s : State) (k : Nat) : Option Landing := s.fab.landing.find? fun c => landingSlot c.chan == k

/-- The Landing channel assigned to a source at a generator (R111). -/
def State.landingOf (s : State) (src gen : Nat) : Option Landing :=
  s.fab.landing.find? fun c => c.source == src && c.gen == gen

/-- The slot that readers of `src` at a generator read: the Landing output once they have changed over (R111, R121). -/
def State.through (s : State) (src gen : Nat) : Nat :=
  match s.landingOf src gen with
  | some c => if c.through then landingSlot c.chan else src
  | none => src

/-- Does what delivers a cell of a slot lie behind a closed boundary? Its cells are discarded there (R11; log entry 102). -/
def State.writerShut (s : State) (w : Writer) (k : Nat) : Bool :=
  let n := fullSlot k
  match w with
  | .receiver l _ => s.shutIn 0x11 l
  | .engine f => s.net.flows.any fun x => !x.tx && x.index == f && s.shutIn 0x18 x.engine
  | .landing => (s.fab.landing.any fun c => landingSlot c.chan == k && s.shutIn 0x0C c.chan)
  | .internal => if 1152 ≤ n ∧ n < 1168 then s.shutIn 0x0E (n - 1152) else if 1168 ≤ n ∧ n < 1232 then s.shutIn 0x19 (n - 1168)
    else decide (1296 ≤ n ∧ n < 1304) && s.shutIn 0x1D (n - 1296)

/-! ### Embedded audio (R279, R285) -/

/-- Share and rate of a slot's embedded audio on its input or output side. -/
def State.slotShare (s : State) (n : Nat) (out : Bool) : Nat :=
  ((s.aud.slotSets.find? fun x => x.1 == (n, out)).map fun x => x.2.1).getD 0

/-- Does a slot carry 96 kHz audio? -/
def State.slotRate96 (s : State) (n : Nat) (out : Bool) : Bool :=
  ((s.aud.slotSets.find? fun x => x.1 == (n, out)).map fun x => x.2.2).getD false

/-- The audio source of channel `e` of a slot; 0xFFFF where the slot has none. Landing outputs stand for their source. -/
def State.embedded (s : State) (k e : Nat) : Nat :=
  let k1 := ((s.landingOut k).map (·.source)).getD k
  let n := fullSlot k1
  if 1152 ≤ n ∨ 16 ≤ e then 0xFFFF
  else if isQuarter k1 then
    let q := slotNo k1 % 4
    let sh := s.slotShare n false
    if sh = 0 then (if e < 4 then 16 * n + 4 * q + e else 0xFFFF)
    else if sh = q + 1 then 16 * n + e else 0xFFFF
  else 16 * n + e

/-- The sinks of an output slot with the channel each stands for. -/
def State.sinksOf (s : State) (k : Nat) : List (Nat × Nat) :=
  let n := fullSlot k
  if 1152 ≤ n then []
  else if isQuarter k then
    let q := slotNo k % 4
    let sh := s.slotShare n true
    if sh = 0 then (List.range 4).map fun e => (16 * n + 4 * q + e, e)
    else if sh = q + 1 then (List.range 16).map fun e => (16 * n + e, e) else []
  else (List.range 16).map fun e => (16 * n + e, e)

/-- The port and channel that an embedded sink belongs to: quarter index and channel. -/
def State.sinkPort (s : State) (m : Nat) : Nat × Nat :=
  let n := m / 16
  let e := m % 16
  if s.outSplit n then
    let sh := s.slotShare n true
    if sh = 0 then (4 * n + e / 4, e % 4) else (4 * n + sh - 1, e)
  else (4 * n, e)

/-- A sink's record: embedded sinks start in FOLLOW mode at unity gain. -/
def State.sink (s : State) (m : Nat) : Sink :=
  (s.aud.sinks.find? fun x => x.num == m).getD
    ⟨m, decide (18432 ≤ m), 0xFFFF, none, 0x800000, false, [], none, [], 0, [], 0, 0, []⟩

/-- Store a sink's record. -/
def State.putSink (s : State) (x : Sink) : State :=
  { s with aud := { s.aud with sinks := x :: s.aud.sinks.filter fun y => y.num != x.num } }

/-- The source that a FOLLOW sink follows now. -/
def State.followSource (s : State) (m : Nat) : Nat :=
  let p := s.sinkPort m
  let x := s.selCur p.1
  if x.valid then s.embedded x.src p.2 else 0xFFFF

/-- The source that feeds a sink at the sample evaluated next: a FOLLOW sink is on its former source until the sample of a take (R285). -/
def State.sinkSource (s : State) (m : Nat) : Nat :=
  let x := s.sink m
  if x.fixed then x.source else x.held.getD ((x.takes.head?.map fun (t : TakeMark) => t.old).getD (s.followSource m))

/-- The source that feeds a sink once the takes that have applied to its output have reached it. -/
def State.sinkSourceNext (s : State) (m : Nat) : Nat :=
  let x := s.sink m
  if x.fixed then x.source else x.held.getD (((x.takes.find? fun t => t.noFollow).map fun (t : TakeMark) => t.old).getD (s.followSource m))

/-- First count of a stream at `fs` whose instant is at or after `t` ns. -/
def countAt (t fs : Nat) : Nat := (t * fs + (10 ^ 9 - 1)) / 10 ^ 9

/-- A change of the source of a sink starts at sample `k`, `len` samples long, 0 for CUT (R137, R138, R287). At most three
sources are held: of the ramps that run at `k`, all but the last lose the source they leave. -/
def Sink.change (x : Sink) (old len k : Nat) (dip : Bool) (gain : Option (Nat × Bool)) : Sink :=
  let live := x.fades.filter fun f => decide (k < f.start + f.len)
  let last := live.getLast?
  { x with fades := (x.fades.map fun f =>
      if decide (k < f.start + f.len) && some f != last && f.zeroAt.isNone then { f with zeroAt := some k } else f) ++
    [⟨old, k, len, dip, none, gain⟩] }

/-- A change that a take or route makes at the sample of an earlier change replaces it (R286). -/
def Sink.undo (x : Sink) (k : Nat) : Sink × Option Nat :=
  match x.fades.getLast? with
  | some f => if f.start = k then ({ x with fades := x.fades.dropLast }, some f.old) else (x, none)
  | none => (x, none)

end Sys2Proof.Machine
end

