-- ==== Sys2Proof/Machine/Meridians.lean ====
section
/-!
DEFINITION. Meridian generators and takes (R124-R145): frame counts and Meridian instants in exact integer arithmetic,
target frames, the store of takes, and what a Meridian does to the outputs of its generator.
-/
namespace Sys2Proof.Machine

/-! ### Frame arithmetic (R125, R130) -/

/-- The frame that a generator at rate `n / d` Hz is in at `t` ns. -/
def frameAt (n d t : Nat) : Nat := t * n / (d * 10 ^ 9)

/-- The first 1 ns tick at or after the start of frame `f`. -/
def meridianAt (n d f : Nat) : Nat := (f * d * 10 ^ 9 + (n - 1)) / n

/-- The frame that begins at the first Meridian at or after `t` ns. -/
def targetFrame (n d t : Nat) : Nat := (t * n + (d * 10 ^ 9 - 1)) / (d * 10 ^ 9)

/-- A rate that R124 allows. -/
def rateOk (n d : Nat) : Bool :=
  decide (1 ≤ n) && decide (1 ≤ d) && decide (d ≤ 65535) && decide (20 * d ≤ n) && decide (n ≤ 121 * d)

/-- Rate in force of a generator. -/
def State.genN (s : State) (g : Nat) : Nat := s.rd (Reg.EPH_GEN_CUR_N_N g)
def State.genD (s : State) (g : Nat) : Nat := s.rd (Reg.EPH_GEN_CUR_D_D g)

/-- The nominal frame period in ns, rounded up. -/
def State.genPeriod (s : State) (g : Nat) : Nat := (s.genD g * 10 ^ 9 + (s.genN g - 1)) / s.genN g

/-- A generator's record. -/
def State.generator (s : State) (g : Nat) : Generator := s.eph.gens.getD g ⟨none, none, 0, 0, false⟩

/-- Store a generator's record. -/
def State.putGenerator (s : State) (g : Nat) (x : Generator) : State := { s with eph := { s.eph with gens := s.eph.gens.set g x } }

/-- Is a generator enabled? -/
def State.genOn (s : State) (g : Nat) : Bool := s.flag (Reg.EPH_GEN_CTL_EN g)

/-- The first frame that may follow frame `f` once the Chronograph has stepped by `shift` since its Meridian: the first of the stepped
series that lies a whole frame period after it in elapsed time, in exact arithmetic (R128). -/
def frameAfter (n d f : Nat) (shift : Int) : Nat :=
  let period : Int := d * 10 ^ 9
  ((f : Int) + 1 - (-(shift * (n : Int))) / period).toNat

/-- The least frame that may begin at the next Meridian of a generator. -/
def State.leastFrame (s : State) (g : Nat) : Nat :=
  match (s.generator g).frame with
  | some f => frameAfter (s.genN g) (s.genD g) f (s.generator g).shift
  | none => 0

/-- The frame that begins at the next Meridian of a generator. -/
def State.nextFrame (s : State) (g : Nat) : Nat := max (frameAt (s.genN g) (s.genD g) s.chrono + 1) (s.leastFrame g)

/-- The Chronograph time before which a step allows no Meridian of a generator. -/
def State.notBefore (s : State) (g : Nat) : Nat := meridianAt (s.genN g) (s.genD g) (s.leastFrame g)

/-- The instant of the next Meridian of a generator. -/
def State.nextMeridian (s : State) (g : Nat) : Nat := meridianAt (s.genN g) (s.genD g) (s.nextFrame g)

/-- The target frame of a take time on a generator. -/
def State.target (s : State) (g t : Nat) : Nat := targetFrame (s.genN g) (s.genD g) t

/-- The generators count crystal-derived time (R127). -/
def State.freeRun (s : State) : Bool := !s.domOn 39 || !s.tim.locked

/-- Since the last Meridian of a generator: the limit of an alarm that is raised once in a frame (R101). -/
def State.frameGap (s : State) (g : Nat) : Nat :=
  match (s.generator g).lastAt with
  | some m => s.chrono + 1 - m
  | none => s.genPeriod g

/-- Connected outputs and consumers bound to a generator: an encoder channel too while the output that it follows is disconnected. -/
def State.genBound (s : State) (g : Nat) : Bool :=
  (s.connected.any fun q => s.rd (Reg.FAB_SEL_CUR_GEN q) == g) || (s.fab.landing.any fun c => c.gen == g) ||
    (s.enc.chans.any fun x => x.gen == g) || (s.fab.pool.any fun p => !p.follow && p.gen == g) ||
    ((List.range 16).any fun h => s.flag (Reg.MVW_H_CTL_EN h) && s.rd (Reg.MVW_H_CTL_GEN h) == g)

/-- Some Ephemeris part targets a generator; an immediate take is none. -/
def State.genTargeted (s : State) (g : Nat) : Bool := s.eph.takes.any fun t => t.handle != 0 && t.routes.any fun r => r.gen == g

/-- When the Chronograph steps from `old` to `new`, the next Meridian of a generator lies a whole frame period after its last one, and
the long frame is reported (R128). -/
def State.generatorsStep (s : State) (old new : Nat) : State :=
  (List.range 16).foldl (fun t g =>
    let x := t.generator g
    let moved : Int := (new : Int) - old
    let u := t.putGenerator g { x with
      lastAt := x.lastAt.map fun m => ((m : Int) + moved).toNat, shift := x.shift + moved, since := ((x.since : Int) + moved).toNat }
    if x.lastAt.isSome && t.genOn g then (u.wr (Reg.EPH_GEN_STAT_RESTEP g) 1).raise 0x2204 srcEph g else u) s

/-! ### The store of takes (R139) -/

/-- Records that occupy the Ephemeris (an immediate take has handle 0). -/
def EphState.entries (e : EphState) : Nat := (e.takes.filter fun t => t.handle != 0).length
def EphState.records (e : EphState) : Nat := ((e.takes.filter fun t => t.handle != 0).map fun t => t.routes.length).sum
/-- Records in the staging of immediate takes. -/
def EphState.staged (e : EphState) : Nat := ((e.takes.filter fun t => t.handle == 0).map fun t => t.routes.length).sum

/-- Keep the EPH_USED and EPH_RECS counts and the EPH_NEAR_FULL cause (R139, R151). -/
def State.ephCount (s : State) : State :=
  let s1 := (s.wr Reg.EPH_USED_ENTRIES s.eph.entries).wr Reg.EPH_RECS_USED s.eph.records
  if 9 * 16384 < 10 * s.eph.entries ∨ 9 * 65536 < 10 * s.eph.records then s1.raise 0x2206 srcEph 0
  else s1.endCause 0x2206 srcEph 0

/-- Store an admitted take in admission order. -/
def State.addTake (s : State) (t : Take) : State :=
  let n := s.eph.lastOrder + 1
  { s with eph := { s.eph with takes := s.eph.takes ++ [{ t with order := n }], lastOrder := n } }.ephCount

/-- The next HANDLE of an Ephemeris entry. -/
def EphState.nextHandle (e : EphState) : Nat := e.lastHandle + 1

/-- The members that a route's slot stands for: the members of its bond, or the slot itself. -/
def State.members (s : State) (bond : Bool) (k : Nat) : List Nat :=
  if bond then ((s.bondNamed k).map (·.members)).getD [k] else [k]

/-- The selections that a route makes: quarter index of each output member with the source of the same place. -/
def State.routeSels (s : State) (r : RouteRec) : List (Nat × Sel) :=
  let os := s.members r.bond r.out
  let ss := if r.valid then s.members r.bond r.source else os.map fun _ => r.source
  (os.zip ss).map fun p => (quarterIndex p.1, ⟨p.2, r.valid, r.gen⟩)

/-- Does a route concern the port of quarter index `q`? -/
def State.routeHits (s : State) (r : RouteRec) (q : Nat) : Bool := (s.members r.bond r.out).any fun k => quarterIndex k == q

/-! ### The loader (R134, R135) -/

/-- Write a due record into the shadows of its outputs. It connects an external output: FAB_OUTEN follows (R109). -/
def State.loadRoute (s : State) (r : RouteRec) : State :=
  (s.routeSels r).foldl (fun t p =>
    let t1 := t.putShd p.1 p.2
    if r.valid ∧ !r.dark ∧ p.1 / 4 < 1152 then t1.setOutEn (p.1 / 4) true else t1) s

/-- Is a record due at the Meridian of frame `f` of generator `g`? -/
def RouteRec.due (r : RouteRec) (g f : Nat) : Bool := r.gen == g && !r.loaded && decide (r.frame ≤ f)

/-- The records of the other takes that a newly loaded record overrides at this Meridian. -/
def State.overridden (s : State) (g : Nat) (r : RouteRec) : Nat :=
  (s.eph.takes.map fun t => (t.routes.filter fun x => x.gen == g && x.loaded && x.out == r.out).length).sum

/-- Load every due record of a generator in admission order, 6 144 for one Meridian at most. -/
def State.loadDue (s : State) (g f : Nat) : State :=
  let loaded := (s.eph.takes.map fun t => (t.routes.filter fun r => r.gen == g && r.loaded).length).sum
  let due := (s.eph.takes.flatMap fun t => t.routes.filter fun r => r.due g f).take (6144 - loaded)
  let s1 := due.foldl (fun t r =>
    let t1 := (t.loadRoute r).bump Reg.EPH_SUPERSEDED_COUNT (min 1 (t.overridden g r))
    { t1 with eph := { t1.eph with takes := t1.eph.takes.map fun k =>
        { k with routes := k.routes.map fun x => if x.due g f && x.out == r.out && !x.loaded && x == r then { x with loaded := true } else x } } }) s
  s1

/-! ### The Meridian -/

/-- The first sample of a stream at `fs` whose instant is at or after the exact instant of frame `f` (R125, R137). -/
def sampleOf (n d f fs : Nat) : Nat := (f * d * fs + (n - 1)) / n

/-- Will a sink be FIXED just before its sample `first`, once the routes due before it have applied (R285)? -/
def Sink.fixedBefore (x : Sink) (fs first : Nat) : Bool :=
  ((x.changes.filter fun c => decide (c.target * (fs / 48000) < first)).foldl (fun (a : Nat × Bool) c =>
    if a.1 ≤ c.target then (c.target, c.source.isSome) else a) (0, x.fixed)).2

/-- A video take reaches the sinks of its output at the sample that `firstAt` gives for their rate, the first at or after the Meridian (R137).
`old` gives the source that each followed before; what the take does there is settled when that sample is evaluated (R285). A route of a FOLLOW
sink that was admitted earlier for the same sample gives way to it, unless the take changes no sink (R285, R286). -/
def State.audioTake (s : State) (k : Nat) (old : Nat → Nat) (noFollow cut dip : Bool) (ms : Nat) (firstAt : Nat → Nat) (order : Nat) : State :=
  (s.sinksOf k).foldl (fun t p =>
    let x := t.sink p.1
    let fs : Nat := if t.slotRate96 (fullSlot k) true then 96000 else 48000
    let first := firstAt fs
    let mark : TakeMark := ⟨first, order, old p.1, noFollow, if cut then 0 else ms * (fs / 1000), dip⟩
    let kept := if noFollow ∨ x.fixedBefore fs first then x.changes
      else x.changes.filter fun c => !(c.target * (fs / 48000) == first && decide (c.order < order))
    t.putSink { x with changes := kept, takes := x.takes ++ [mark] }) s

/-- The last loaded record for a port: it sets the audio mode of the take. -/
def State.winner (s : State) (g q : Nat) : Option (Take × RouteRec) :=
  (s.eph.takes.flatMap fun t => (t.routes.filter fun r => r.gen == g && r.loaded && s.routeHits r q).map fun r => (t, r)).getLast?

/-- The port's record. -/
def State.port (s : State) (q : Nat) : OutPort := (s.fab.ports.find? fun x => x.q == q).getD ⟨q, [], [], 0, none, true, 0, none, 0, 0, false, false, 0, false⟩

/-- Store a port's record. -/
def State.putPort (s : State) (x : OutPort) : State :=
  { s with fab := { s.fab with ports := x :: s.fab.ports.filter fun y => y.q != x.q } }

/-- The default audio mode of a generator: CUT takes precedence over DIP (Table 5.7). -/
def State.defaultMode (s : State) (g : Nat) : Nat :=
  if s.flag (Reg.EPH_GEN_CTL_CUT g) then 1 else if s.flag (Reg.EPH_GEN_CTL_DIP g) then 2 else 3

/-- A record takes the mode and ramp of its take, or the generator's defaults at admission (R137, R150). -/
def State.withAudio (s : State) (mode ramp : Nat) (r : RouteRec) : RouteRec :=
  { r with mode := if mode = 0 then s.defaultMode r.gen else mode, ramp := if ramp = 0 then s.rd (Reg.EPH_GEN_CTL_RAMP_MS r.gen) else ramp }

/-- Is the port of quarter index `q` the one that carries the embedded audio of its output: not a bond member after
the first (R137)? -/
def State.audioPort (s : State) (q : Nat) : Bool :=
  match s.bondOf (q / 4) with
  | some b => b.members.head? == some (q / 4)
  | none => true

/-- The shadow of an output that applies at its next Meridian, with ARM: as it stood when it closed, where it was written after that
(R106). -/
def State.shadow (s : State) (q : Nat) : Bool × Sel :=
  match s.fab.closed.find? fun c => c.1 == q with
  | some c => c.2
  | none => (s.flag (Reg.FAB_SEL_SHD_ARM q), s.selShd q)

/-- The outputs of a generator whose shadow applies at its next Meridian. -/
def State.armedAt (s : State) (g : Nat) : List Nat :=
  ((s.armed ++ s.fab.closed.map fun c => c.1).eraseDups).filter fun q => s.rd (Reg.FAB_SEL_CUR_GEN q) == g && (s.shadow q).1

/-- A write to the shadow of an output after M0 − 1 000 ns applies at the Meridian after that: `old` is the state before it (R106). -/
def State.shadowWritten (old s : State) (q : Nat) : State :=
  let g := old.rd (Reg.FAB_SEL_CUR_GEN q)
  if old.nextMeridian g < old.chrono + 1000 ∧ !(s.fab.closed.any fun c => c.1 == q) then
    { s with fab := { s.fab with closed := (q, old.flag (Reg.FAB_SEL_SHD_ARM q), old.selShd q) :: s.fab.closed } }
  else s

/-- A port starts on another source: its echo is empty; the raster goes with its connection (R104, R106). -/
def OutPort.fresh (p : OutPort) (connects : Bool) : OutPort :=
  { p with echo := [], line := [], filledFrom := none, ended := false, raster := if connects then none else p.raster }

/-- A frame of a port begins: its field and its cell times count anew (R91, R123). -/
def OutPort.atFrame (p : OutPort) : OutPort := { p with ended := false, f2 := false, count := 0 }

/-- The mode and the ramp in ms of a change of selection at a generator: those of the route that caused it, else the defaults (R135, R150). -/
def State.takeMix (s : State) (g : Nat) (w : Option (Take × RouteRec)) : Nat × Nat :=
  match w with
  | some p => (p.2.mode, p.2.ramp)
  | none => (s.defaultMode g, s.rd (Reg.EPH_GEN_CTL_RAMP_MS g))

/-- Apply an armed shadow (R106): shadow to current, ARM and echo cleared, unless it selects what is current. A shadow written after it
closed stays armed. -/
def State.applyShadow (s : State) (g f q : Nat) : State :=
  let new := (s.shadow q).2
  let cur := s.selCur q
  let s0 := if s.fab.closed.any fun c => c.1 == q then s else s.wr (Reg.FAB_SEL_SHD_ARM q) 0
  if new = cur then s0
  else
    let w := s.winner g q
    let mix := s.takeMix g w
    let noFollow := (w.map fun p => p.2.noAudio).getD false
    let whole := !s.outSplit (q / 4) && !(s.flag (Reg.LNQ_STX_CTL_AUTO (q / 36)) && s.outSplitNext (q / 4))
    let s1 := (s0.putCur q new).putPort { (s.port q).fresh (!(new.valid && cur.valid)) with whole := whole }
    if s.audioPort q then
      s1.audioTake (s.outKey q) s.followSource noFollow (mix.1 == 1) (mix.1 == 2) mix.2 (sampleOf (s.genN g) (s.genD g) f) ((w.map fun p => p.1.order).getD s.eph.lastOrder)
    else s1

/-- Free the loaded records of a generator, and end the takes that have no record left: COMPLETE, or FAILED when a
route could not apply (R136). -/
def State.freeLoaded (s : State) (g : Nat) : State :=
  let ts := s.eph.takes.map fun t =>
    if t.routes.any (fun r => r.gen == g && r.loaded) then
      { t with routes := t.routes.filter fun r => !(r.gen == g && r.loaded), partly := true }
    else t
  let ending := ts.filter fun t => t.routes.isEmpty
  let s1 := { s with eph := { s.eph with takes := ts.filter fun t => !t.routes.isEmpty } }.ephCount
  s1.finishAll ((ending.filter fun t => !t.mirrored).map fun (t : Take) => (t.session, t.tag, if t.failed then 0x0010 else 0, t.entry))

/-- Routes that cannot apply because their unit was reset or its domain went off: FAILED for each take (R136, R140). -/
def State.loseRoutes (s : State) (lost : RouteRec → Bool) : State :=
  let ts := s.eph.takes.map fun t =>
    if t.routes.any lost then { t with routes := t.routes.filter fun r => !lost r, failed := true, partly := true } else t
  let ending := ts.filter fun t => t.routes.isEmpty
  let s1 := { s with eph := { s.eph with takes := ts.filter fun t => !t.routes.isEmpty } }.ephCount
  s1.finishAll ((ending.filter fun t => !t.mirrored).map fun (t : Take) => (t.session, t.tag, 0x0010, t.entry))

/-- Records due at frame `f` that the loader has not written count as late, once each (R134). -/
def State.countLate (s : State) (g f : Nat) : State :=
  let late := s.eph.takes.flatMap fun t => t.routes.filter fun r => r.gen == g && !r.loaded && !r.late && decide (r.frame ≤ f)
  let s1 := { s with eph := { s.eph with takes := s.eph.takes.map fun t =>
    { t with routes := t.routes.map fun r => if r.gen == g && !r.loaded && decide (r.frame ≤ f) then { r with late := true } else r } } }
  late.foldl (fun u r => (u.bump Reg.EPH_LATE_COUNT 1).raise 0x2201 srcEph (slotObject r.out)) s1

/-- The cause of a frame alarm of an object ends when the frame that began at `since` has passed without the condition (R101). -/
def State.ageCause (s : State) (code src obj since : Nat) : State :=
  if s.flt.causes.any fun c => c.1 == (code, src, obj) && decide (c.2 < since) then s.endCause code src obj else s

/-- A frame of an output, begun at the true time `since`, ends at its Meridian: the raster of a frame emitted complete is kept, its line count
that of a scan (R104), and the frame alarms of the output age, connected or not (R101). -/
def State.endFrame (s : State) (since q : Nat) : State :=
  let p := s.port q
  let lineOk := p.filledFrom.isNone && !p.line.isEmpty
  let lines := if p.f2 then (p.linesDone + b01 lineOk + 1) / 2 else p.linesDone + b01 lineOk
  let echo := if lineOk then p.line.take 40 else p.echo
  let raster := if p.frameClean ∧ p.filledFrom.isNone ∧ 0 < lines then some (lines, echo.length) else p.raster
  let o := slotObject (s.outKey q)
  let s1 := s.putPort (if p.line.isEmpty ∧ p.linesDone = 0 then p.atFrame
    else { p with echo := echo, line := [], filledFrom := none, frameClean := true, linesDone := 0, raster := raster }.atFrame)
  [0x2006, 0x2007, 0x2008, 0x200D].foldl (fun t c => t.ageCause c srcFabric o since) s1

/-- After the Meridian at which its last connection is removed, an external output's FAB_OUTEN bit is cleared (R109). -/
def State.closeOutput (s : State) (q : Nat) : State :=
  let n := q / 4
  if n < 1152 ∧ !((List.range 4).any fun i => (s.selCur (4 * n + i)).valid) then s.setOutEn n false else s

/-- A port of the internal pool has neither echo nor raster of an earlier consumer (R104). -/
def State.freshPort (s : State) (n : Nat) : State := s.putPort ((s.port (4 * n)).fresh true).atFrame

/-- Free a pool port's consumer; the port closes with its last one (R21). -/
def State.freePort (s : State) (kind id : Nat) : State :=
  let pool := s.fab.pool.map fun p => { p with users := p.users.filter fun u => u != (kind, id) }
  let dead := pool.filter fun p => p.users.isEmpty
  let s1 := { s with fab := { s.fab with pool := pool.filter fun p => !p.users.isEmpty } }
  dead.foldl (fun t p => ((t.wr (Reg.FAB_SEL_CUR_VALID (4 * p.port)) 0).setOutEn p.port false).freshPort p.port) s1

/-- The lowest free port of the internal pool (R21). -/
def State.freePoolPort (s : State) : Option Nat :=
  ((List.range (s.outputPorts - 1152)).map (· + 1152)).find? fun n => !s.fab.pool.any fun p => p.port == n

/-- Give a consumer its pool port: the shared one of its source (and generator, for a timed port), or the lowest free
port, whose selection and FAB_OUTEN bit are set (R21, R109). Source 0xFFFF is none. -/
def State.takePort (s : State) (kind id : Nat) (follow : Bool) (k g : Nat) : State :=
  match s.fab.pool.find? fun p => p.slot == k && p.follow == follow && (follow || p.gen == g) with
  | some p =>
    let pool := s.fab.pool.map fun x => if x.port == p.port then { x with users := x.users ++ [(kind, id)] } else x
    { s with fab := { s.fab with pool := pool } }
  | none =>
    match s.freePoolPort with
    | none => s
    | some n =>
      let p : IntPort := ⟨n, follow, k, g, [(kind, id)]⟩
      let s1 := { s with fab := { s.fab with pool := s.fab.pool ++ [p] } }
      ((s1.putCur (4 * n) ⟨k, k != 0xFFFF, g⟩).setOutEn n true).freshPort n

/-- The pool ports of a consumer: one for each member of the bond that its source slot names (R23). -/
def State.takePorts (s : State) (kind id : Nat) (follow : Bool) (k g : Nat) : State :=
  (s.sourceMembers k).foldl (fun t m => t.takePort kind id follow m g) s

/-- Consumer kind and identifier of an encoder channel (Table 4.6). -/
def EncChan.user (x : EncChan) : Nat × Nat := (if x.codec < 2 then 3 else 4, x.handle)

/-- The source that an encoder channel reads: its own, or the current selection of the output that it follows (R335). -/
def State.encSource (s : State) (x : EncChan) : Nat :=
  if x.follow then (let c := s.selCur (quarterIndex (s.outKey (4 * x.source))); if c.valid then c.src else 0xFFFF) else x.source

/-- Encoder channels that follow an output read its new selection from the Meridian on (R335). -/
def State.followOutputs (s : State) (g : Nat) : State :=
  (s.enc.chans.filter fun x => x.follow && x.gen == g).foldl (fun t x =>
    let k := t.encSource x
    if t.fab.pool.any fun p => p.users.contains x.user && p.slot == k then t
    else (t.freePort x.user.1 x.user.2).takePorts x.user.1 x.user.2 false k g) s

/-- Do the readers of a channel change over to it at the next Meridian of its generator: 200 µs have passed, and it has selected a complete
frame (R121)? -/
def Landing.turns (c : Landing) (t : Nat) : Bool := !c.through && c.reading.isSome && decide (c.changeAt ≤ t)

/-- Do they return to the source there? -/
def Landing.returns (c : Landing) (t : Nat) : Bool := c.releasing && decide (c.relAt ≤ t)

/-- The ports that select a pair start on another slot. -/
def State.freshReaders (s : State) (k g : Nat) : State :=
  (s.connected.filter fun q => s.selCur q == ⟨k, true, g⟩).foldl (fun u q => u.putPort ((u.port q).fresh false)) s

/-- A Landing channel is freed: the causes of its alarms end (R101). An assignment of it that has not come about fails (R121, log entry
83). -/
def State.releaseChannel (s : State) (c : Landing) : State :=
  let ls := s.fab.landing.filter fun x => x.chan != c.chan
  let s1 := (({ s with fab := { s.fab with landing := ls } }.freePort 1 c.chan).freeBuffer 1 c.chan).wr
    (if c.chan < 0x100 then Reg.LDG_CTL_EN c.chan else Reg.LDQ_CTL_EN (c.chan - 0x100)) 0
  let s2 := if c.through then s1.freshReaders c.source c.gen else s1
  let s3 := [0x2101, 0x2102, 0x2103, 0x2104].foldl (fun t code => t.endCause code srcLanding c.chan) s2
  let s4 := if c.member = 0 ∧ !c.through ∧ c.session ≠ 0xFFFF then s3.finish c.session c.tag 0x0010 c.entry else s3
  if c.member = 0 ∧ c.relSession ≠ 0xFFFF then s4.finish c.relSession c.relTag 0 c.relEntry else s4

/-- Landing channels of a generator change over at its Meridian, to the channel or back to the source; a lost one counts the Meridian
(R114, R121). -/
def State.landingChange (s : State) (g : Nat) : State :=
  let cs := s.fab.landing.filter fun c => c.gen == g
  let s1 := { s with fab := { s.fab with landing := s.fab.landing.map fun x =>
    if x.gen == g then { x with lost := x.lost.map fun l => (l.1, l.2 + 1) } else x } }
  cs.foldl (fun t c =>
    if c.returns s.chrono then t.releaseChannel c
    else if c.turns s.chrono then
      let ls := t.fab.landing.map fun x => if x.chan == c.chan then { x with through := true } else x
      let t1 := { t with fab := { t.fab with landing := ls } }.freshReaders c.source g
      if c.member = 0 ∧ c.session ≠ 0xFFFF then t1.finish c.session c.tag 0 c.entry else t1
    else t) s1

/-- GEN_FREERUN holds while a generator runs on crystal-derived time with outputs bound (R127, R151). -/
def State.freeRuns (s : State) (g : Nat) : Bool := s.domOn 36 && s.genOn g && s.freeRun && s.genBound g

/-- The causes of GEN_FREERUN whose condition has passed end. -/
def State.endFreeRuns (s : State) : State :=
  ((List.range 16).filter fun g => s.causePresent 0x2207 srcEph g && !s.freeRuns g).foldl (fun t g => t.endCause 0x2207 srcEph g) s

/-- The Meridian of frame `f` of generator `g`, asserted at `m` (R106, R126): armed shadows become current, frame `f`
begins on the generator's outputs, and what waited for this Meridian takes effect. A GEN_FREERUN that persists is raised at every
Meridian (log entry 84). -/
def State.meridian (s : State) (g f m : Nat) : State :=
  let armed := s.armedAt g
  let outs := s.connected.filter fun q => s.rd (Reg.FAB_SEL_CUR_GEN q) == g
  let idle := (s.fab.ports.map fun p => p.q).filter fun q => !outs.contains q && s.rd (Reg.FAB_SEL_CUR_GEN q) == g
  let since := s.now + 1 - s.frameGap g
  let s1 := (s.wr64 (Reg.EPH_GEN_FC_LO_F g) (Reg.EPH_GEN_FC_HI_F g) f).wr64 (Reg.EPH_GEN_MT_LO_NS g) (Reg.EPH_GEN_MT_HI_NS g) m
  let s2 := s1.putGenerator g ⟨some m, some f, 0, 0, false⟩
  let s3 := (outs ++ idle).foldl (fun t q => t.endFrame since q) s2
  let s4 := armed.foldl (fun t q => t.applyShadow g f q) s3
  let s4 := { s4 with fab := { s4.fab with closed := s4.fab.closed.filter fun c => s.rd (Reg.FAB_SEL_CUR_GEN c.1) != g } }
  let s5 := (s4.freeLoaded g).countLate g f
  let s6 := (s5.followOutputs g).landingChange g
  let s7 := (outs ++ armed).foldl (fun t q => t.closeOutput q) s6
  let s8 := (s7.wr (Reg.EPH_GEN_STAT_BOUND g) (b01 (s7.genBound g))).wr (Reg.EPH_GEN_STAT_FREERUN g) (b01 s.freeRun)
  if s8.freeRuns g then s8.raise 0x2207 srcEph g else s8.endCause 0x2207 srcEph g

/-- A rate or enable change of a bound generator counts as a rephase (R129, R153). -/
def State.rephase (s : State) (g : Nat) (counted : Bool) : State :=
  let s1 := (s.wr (Reg.EPH_GEN_STAT_REPHASE g) 1).raise 0x2205 srcEph g
  if counted then s1.bump Reg.EPH_REPHASE_COUNT 1 else s1

end Sys2Proof.Machine
end

