-- ==== Sys2Proof/Machine/Layers.lean ====
section
/-!
DEFINITION. The video layers of the multiviewer up to their window buffers: settings, preparation of source lines,
scaling and the writer (R306-R312).
-/
namespace Sys2Proof.Machine

/-! ### Settings -/

/-- The settings of a layer that was never set: the reset values of its registers, and no declaration. -/
def VidSet.unset : VidSet :=
  ⟨false, false, 0, false, false, 0, 0, 0, 0, 0, 0, 0, 0, 0, 0, 0, 0, 0, 1, 1023, 0x04080200, 0, 0⟩

/-- What the indirect table holds for layer `l` of head `h` since its last commit: the declared format (R330, R331). -/
def State.declared (s : State) (h l : Nat) : VidSet :=
  (((s.mvw.heads.find? fun x => x.h == h).bind fun (x : Head) => (x.cur.vid.find? fun v => v.1 == l).map fun (v : Nat × VidSet) => v.2)).getD VidSet.unset

/-- The current settings of layer `l` of head `h`: its registers, with the declared size and rate of the indirect table (R330). -/
def State.vid (s : State) (h l : Nat) : VidSet :=
  let i := 64 * h + l
  let decl := s.declared h l
  { en := s.flag (Reg.MVW_L_CTL_EN i)
    decim := s.flag (Reg.MVW_L_CTL_DECIM i)
    source := slotKey (s.rd (Reg.MVW_L_SRC_SLOT i)) (s.flag (Reg.MVW_L_CTL_SRCQ i))
    interlaced := s.flag (Reg.MVW_L_CTL_INTERLACED i)
    s444 := s.flag (Reg.MVW_L_CTL_S444 i)
    z := s.rd (Reg.MVW_L_CTL_Z i)
    x := s.rd (Reg.MVW_L_WIN_XY_X i)
    y := s.rd (Reg.MVW_L_WIN_XY_Y i)
    w := s.rd (Reg.MVW_L_WIN_WH_W i)
    h := s.rd (Reg.MVW_L_WIN_WH_H i)
    hold := s.rd (Reg.MVW_L_CTL_HOLD i)
    hset := s.rd (Reg.MVW_L_CTL_HSET i)
    vset := s.rd (Reg.MVW_L_CTL_VSET i)
    cx := s.rd (Reg.MVW_L_CROP_XY_X i)
    cy := s.rd (Reg.MVW_L_CROP_XY_Y i)
    cw := s.rd (Reg.MVW_L_CROP_WH_W i)
    ch := s.rd (Reg.MVW_L_CROP_WH_H i)
    rateN := decl.rateN
    rateD := decl.rateD
    alpha := s.rd (Reg.MVW_L_ALPHA_A i)
    fill := s.rd (Reg.MVW_L_FILL_COLOUR i)
    wide := decl.wide
    high := decl.high }

/-- Write a video layer's settings to its current registers. -/
def State.putVid (s : State) (h l : Nat) (v : VidSet) : State :=
  let i := 64 * h + l
  [(Reg.MVW_L_CTL_EN i, b01 v.en), (Reg.MVW_L_CTL_DECIM i, b01 v.decim), (Reg.MVW_L_SRC_SLOT i, slotNo v.source),
   (Reg.MVW_L_CTL_SRCQ i, b01 (isQuarter v.source)), (Reg.MVW_L_CTL_INTERLACED i, b01 v.interlaced), (Reg.MVW_L_CTL_S444 i, b01 v.s444),
   (Reg.MVW_L_CTL_Z i, v.z), (Reg.MVW_L_WIN_XY_X i, v.x), (Reg.MVW_L_WIN_XY_Y i, v.y), (Reg.MVW_L_WIN_WH_W i, v.w),
   (Reg.MVW_L_WIN_WH_H i, v.h), (Reg.MVW_L_CTL_HOLD i, v.hold), (Reg.MVW_L_CTL_HSET i, v.hset), (Reg.MVW_L_CTL_VSET i, v.vset),
   (Reg.MVW_L_CROP_XY_X i, v.cx), (Reg.MVW_L_CROP_XY_Y i, v.cy), (Reg.MVW_L_CROP_WH_W i, v.cw), (Reg.MVW_L_CROP_WH_H i, v.ch),
   (Reg.MVW_L_ALPHA_A i, v.alpha), (Reg.MVW_L_FILL_COLOUR i, v.fill)].foldl (fun t p => t.wr p.1 p.2) s

/-- The size of the Table 1.9 format that a slot of a kind carries with a scan, sampling and frame rate n / d: the declared
width and height of a layer (R22; DEDUCED, log entry 40). Carriage: 0 quarter, 1 full, n a bond of n. -/
def declaredSize (carriage : Nat) (interlaced s444 : Bool) (n d : Nat) : Option (Nat × Nat) :=
  if interlaced then (if 30 * d < n ∨ carriage ≠ b01 s444 then none else some (1920, 1080))
  else match carriage, s444, decide (60 * d < n) with
    | 0, false, false => some (1920, 1080)
    | 1, false, true => some (1920, 1080)
    | 1, false, false => some (3840, 2160)
    | 1, true, _ => some (1920, 1080)
    | 2, false, true => some (3840, 2160)
    | 2, true, false => some (3840, 2160)
    | 4, false, false => some (7680, 4320)
    | 4, true, true => some (3840, 2160)
    | 8, false, true => some (7680, 4320)
    | 8, true, false => some (7680, 4320)
    | _, _, _ => none

/-- The size that a layer's source has by its declaration. -/
def State.vidSize (s : State) (v : VidSet) : Option (Nat × Nat) :=
  declaredSize (if isQuarter v.source then 0 else (s.sourceMembers v.source).length) v.interlaced v.s444 v.rateN v.rateD

/-- A layer's settings with the size that its source has by its declaration. -/
def State.declare (s : State) (v : VidSet) : VidSet :=
  let size := (s.vidSize v).getD (0, 0)
  { v with wide := size.1, high := size.2 }

/-- Win and Hin: width and height after crop, field and decimation (R308). -/
def VidSet.win (v : VidSet) : Nat := if v.decim then v.cw / 2 else v.cw
def VidSet.hin (v : VidSet) : Nat := v.ch

/-- Lines of one scan of the declared source, and the V cells of each. -/
def VidSet.lines (v : VidSet) : Nat := if v.interlaced then v.high / 2 else v.high
def VidSet.cells (v : VidSet) : Nat := (v.wide * (if v.s444 then 36 else 20) + 2047) / 2048

/-! ### Lines of samples -/

/-- The 10-bit (or 12-bit) numbers packed in a list of bytes, most significant bit first. -/
def unpackBits (w : Nat) : Nat → Nat → List Byte → List Nat
  | 0, _, _ => []
  | n + 1, o, b =>
    let v := beNat (bytesAt b (o / 8) ((o % 8 + w + 7) / 8))
    v / 2 ^ (8 * ((o % 8 + w + 7) / 8) - w - o % 8) % 2 ^ w :: unpackBits w n (o + w) b

/-- Clamp to the code range. -/
def clampCode (v : Int) : Nat := if v < 4 then 4 else if 1019 < v then 1019 else v.toNat

/-- A plane of samples as the scaler takes it: every `step`-th number from `first`. -/
def everyNth (first step n : Nat) (l : List Nat) : List Nat := (List.range n).map fun i => l.getD (first + i * step) 0

/-- The samples of a source line after steps 1, 3 and 4 of R308: luma, then Cb, then Cr. 4:2:2 lines carry Cb, Y0, Cr, Y1;
4:4:4 lines Cb, Y, Cr. -/
def prepareLine (v : VidSet) (width : Nat) (b : List Byte) : List Nat :=
  let narrow := fun (x : Nat) => clampCode ((x + 2) / 4 : Nat)
  let y := if v.s444 then (everyNth 1 3 width (unpackBits 12 (3 * width) 0 b)).map narrow else everyNth 1 2 width (unpackBits 10 (2 * width) 0 b)
  let cb := if v.s444 then (everyNth 0 6 (width / 2) (unpackBits 12 (3 * width) 0 b)).map narrow else everyNth 0 4 (width / 2) (unpackBits 10 (2 * width) 0 b)
  let cr := if v.s444 then (everyNth 2 6 (width / 2) (unpackBits 12 (3 * width) 0 b)).map narrow else everyNth 2 4 (width / 2) (unpackBits 10 (2 * width) 0 b)
  let crop := fun (l : List Nat) (x n : Nat) => (l.drop x).take n
  let half := fun (l : List Nat) => (List.range (l.length / 2)).map fun j => (l.getD (2 * j) 0 + l.getD (2 * j + 1) 0 + 1) / 2
  let dec := fun (l : List Nat) => if v.decim then half l else l
  let keep := fun (l : List Nat) (n : Nat) => if 4096 < v.win then l.take n else l
  keep (dec (crop y v.cx v.cw)) 4096 ++ keep (dec (crop cb (v.cx / 2) (v.cw / 2))) 2048 ++ keep (dec (crop cr (v.cx / 2) (v.cw / 2))) 2048

/-- Width that the scaler reads: Win, cut to the line buffer (R308). -/
def VidSet.winCut (v : VidSet) : Nat := min v.win 4096

/-! ### Scaling (R309, R310) -/

/-- A coefficient set of a head. -/
def State.coefs (s : State) (h : Nat) (horizontal : Bool) (n : Nat) : List Int :=
  ((s.mvw.coefs.find? fun c => c.1 == (h, horizontal, n)).map fun c => c.2).getD (if horizontal then lanczos8 else lanczos6)

/-- Index and phase of output sample `k` of a plane scaled from `nin` to `nout` samples. -/
def scalePoint (nin nout k : Nat) : Int × Nat :=
  let step : Int := (nin * 65536 / max 1 nout : Nat)
  let p : Int := k * step + (step - 65536) / 2
  let i := p / 65536
  (i, ((p - i * 65536) / 1024).toNat)

/-- One output sample: the taps of a phase over samples taken at the nearest edge outside the plane. -/
def scaleTap (coef : List Int) (taps phase : Nat) (i : Int) (n : Nat) (at_ : Nat → Nat) : Nat :=
  let acc := (List.range taps).foldl (fun (a : Int) (t : Nat) =>
    let j : Int := i + t - (taps / 2 - 1 : Nat)
    let q : Nat := if j < 0 then 0 else min j.toNat (n - 1)
    let c : Nat := phase * taps + t
    a + coef.getD c 0 * (at_ q : Int)) 0
  clampCode ((acc + 512) / 1024)

/-- A plane's row scaled horizontally. -/
def scaleRow (coef : List Int) (nout : Nat) (row : List Nat) : List Nat :=
  (List.range nout).map fun k =>
    let p := scalePoint row.length nout k
    scaleTap coef 8 p.2 p.1 row.length fun q => row.getD q 0

/-- Row `r` of the window: the vertical pass over the prepared lines, luma and two planes of half as many columns, then the horizontal pass of
each plane. -/
def State.windowRow (s : State) (h : Nat) (v : VidSet) (lines : Nat → List Nat) (r : Nat) : List Nat :=
  let p := scalePoint v.hin v.h r
  let wi := v.winCut
  let tall := (List.range (wi + 2 * (wi / 2))).map fun x => scaleTap (s.coefs h false v.vset) 6 p.2 p.1 v.hin fun q => (lines q).getD x 0
  let c := s.coefs h true v.hset
  scaleRow c v.w (tall.take wi) ++ scaleRow c (v.w / 2) ((tall.drop wi).take (wi / 2)) ++ scaleRow c (v.w / 2) ((tall.drop (wi + wi / 2)).take (wi / 2))

/-- The last source line that window row `r` needs: n(r) of R313. -/
def VidSet.lineFor (v : VidSet) (r : Nat) : Nat := min (((scalePoint v.hin v.h r).1 + 3).toNat) (v.hin - 1)

/-- A window row as the packed bytes of R311: each pair Cb, Y0, Cr, Y1 in 5 bytes. -/
def packRow (w : Nat) (row : List Nat) : List Byte :=
  (List.range (w / 2)).flatMap fun j =>
    beBytes 5 (((row.getD (w + j) 0 * 1024 + row.getD (2 * j) 0) * 1024 + row.getD (w + w / 2 + j) 0) * 1024 + row.getD (2 * j + 1) 0)

/-- Bytes of one window buffer. -/
def VidSet.bufferBytes (v : VidSet) : Nat := v.w * v.h * 5 / 2

/-! ### The writer (R307, R312, R317) -/

/-- A layer's run record. -/
def State.layer (s : State) (id : Nat) : LayerRun :=
  (s.mvw.layers.find? fun x => x.id == id).getD ⟨id, [], 0, 0, true, false, [], [], none, none, none, 0, false, false, none, []⟩

/-- Store a layer's run record. -/
def State.putLayer (s : State) (x : LayerRun) : State :=
  { s with mvw := { s.mvw with layers := x :: s.mvw.layers.filter fun y => y.id != x.id } }

/-- Source of a head (Table 18.3), frame period of a head for its events. -/
def srcHead (h : Nat) : Nat := srcOf 6 12 h
def State.headPeriod (s : State) (h : Nat) : Nat := s.genPeriod (s.rd (Reg.MVW_H_CTL_GEN h))

/-- Raise an event of the multiviewer, at most once per head frame for its object: the head Meridian forgets what was raised before it (R325). -/
def State.headEvent (s : State) (h code obj : Nat) : State := s.raiseWithin (s.now + 1) code (srcHead h) obj

/-- A frame of a head begins: each of its events may be raised again (R325). -/
def State.newHeadFrame (s : State) (h : Nat) : State :=
  { s with flt := { s.flt with lastRaise := s.flt.lastRaise.filter fun p => p.1.2.1 != srcHead h } }

/-- The frame that occupies a buffer. -/
def LayerRun.inBuf (x : LayerRun) (b : Nat) : Option WinFrame := x.frames.find? fun f => f.buf == b

/-- Change the frame being written. -/
def LayerRun.modFrame (x : LayerRun) (num : Nat) (g : WinFrame → WinFrame) : LayerRun :=
  { x with frames := x.frames.map fun f => if f.num == num then g f else f }

/-- Base address of a layer's buffers. -/
def State.windowBase (s : State) (i : Nat) : Nat := s.rd64 (Reg.MVW_L_BUF_LO_ADDR i) (Reg.MVW_L_BUF_HI_ADDR i)

/-- Write the rows of the frame in progress whose source lines have all been prepared, the last of them with a cell that arrived at the
Chronograph time `t`; fuel bounds the rows. -/
def State.writeRows (s : State) (h l : Nat) (v : VidSet) (t : Nat) : Nat → State
  | 0 => s
  | n + 1 =>
    let x := s.layer (64 * h + l)
    match x.writing.bind fun w => x.frames.find? fun f => f.num == w with
    | none => s
    | some f =>
      let have_ := fun (q : Nat) => x.lines.any fun y => y.1 == q + v.cy
      if v.h ≤ f.rows then s.putLayer ({ x with writing := none }.modFrame f.num fun g => { g with complete := true, doneAt := t + 1000 })
      else if !have_ (v.lineFor f.rows) then s
      else
        let row := packRow v.w (s.windowRow h v (fun q => ((x.lines.find? fun y => y.1 == q + v.cy).map fun (y : Nat × List Nat) => y.2).getD []) f.rows)
        let s1 := s.memWrite (s.windowBase (64 * h + l) + f.buf * v.bufferBytes + f.rows * v.w * 5 / 2) row
        (s1.putLayer (x.modFrame f.num fun g => { g with rows := g.rows + 1 })).writeRows h l v t n

/-- A source frame whose size differs from the declaration never becomes available, though its window rows were all written (R307). -/
def State.layerBad (s : State) (h l : Nat) : State :=
  let i := 64 * h + l
  let x := s.layer i
  let y := { x with bad := true, writing := none, frames := x.frames.filter fun f => f.num != x.arrived || some f.num == x.sel }
  ((s.putLayer y).wr (Reg.MVW_L_STAT_FMT i) 1).headEvent h 0x2804 i

/-- Do the registers of a layer agree with its declared scan and sampling (R331)? -/
def State.asDeclared (s : State) (h l : Nat) (v : VidSet) : Bool :=
  (s.declared h l).interlaced == v.interlaced && (s.declared h l).s444 == v.s444

/-- The line and cell that comes next of member `m` of a source of `n` members, in a frame of `cells` cells per line. -/
def LayerRun.expects (x : LayerRun) (n cells m : Nat) : Nat × Nat :=
  let each := (cells - m + n - 1) / n
  let got := x.lines.length * each + (x.parts.filter fun p => p.2.1 % n == m).length
  (got / max 1 each, got % max 1 each)

/-- Does an SOF of member `m` start a frame of `lines` lines: the first since the last, a second one of its member, or one that comes with
half of the lines past? -/
def LayerRun.starts (x : LayerRun) (m lines : Nat) : Bool :=
  let seen : List Nat := x.lines.map (fun y => y.1 + 1) ++ x.parts.map fun y => y.1 + 1
  x.sofs.isEmpty || x.sofs.contains m || decide (lines ≤ 2 * seen.foldl max 0)

/-- A source frame starts with the SOF of member `m`, written at `t`; an unfinished one is abandoned (R312). -/
def LayerRun.begin (x : LayerRun) (m t : Nat) : LayerRun :=
  let y := match x.writing with
    | some w => x.modFrame w fun f => { f with abandoned := true }
    | none => x
  { y with writing := none, arrived := x.arrived + 1, sofAt := t, taken := false, bad := false, parts := [], lines := [], sofs := [m] }

/-- A V cell of a layer's source, which arrived at the Chronograph time `t`, reaches its follow port: the first SOF starts a source frame; a
complete line is prepared and the rows that it completes are written. A frame whose lines or cells differ from the declaration is bad: each
member carries every cell of every line in order (R307-R312). -/
def State.layerCell (s : State) (h l : Nat) (v : VidSet) (member : Nat) (sof f2 eol : Bool) (line index t : Nat) (payload : List Byte) : State :=
  let i := 64 * h + l
  let n := max 1 (s.sourceMembers v.source).length
  let g := n * index + member
  let x0 := s.layer i
  let first := sof && x0.starts member v.lines
  let short := first && !x0.bad && decide (0 < x0.arrived ∧ x0.lines.length < v.lines)
  let s0 := if short then s.layerBad h l else s
  let x1 := s0.layer i
  let x2 := if first then x1.begin member (t + 1000) else if sof then { x1 with sofs := x1.sofs ++ [member] } else x1
  let s1 := s0.putLayer x2
  if x2.bad ∨ x2.arrived = 0 ∨ (v.interlaced ∧ f2) then s1
  else if !s.asDeclared h l v ∨ v.lines ≤ line ∨ v.cells ≤ g ∨ x2.expects n v.cells member ≠ (line, index) ∨ (eol && g + 1 != v.cells) then s1.layerBad h l
  else
    let ps := x2.parts ++ [(line, g, payload)]
    let mine := ps.filter fun p => p.1 == line
    if mine.length < v.cells then s1.putLayer { x2 with parts := ps }
    else
      let bytes := (List.range v.cells).flatMap fun c => ((mine.find? fun p => p.2.1 == c).map fun (p : Nat × Nat × List Byte) => p.2.2).getD []
      let y := { x2 with parts := ps.filter fun p => p.1 != line, lines := x2.lines ++ [(line, prepareLine v v.wide bytes)] }
      let s2 := s1.putLayer y
      let s3 := if 4096 < v.win then (s2.wr (Reg.MVW_L_STAT_CLAMP i) 1).headEvent h 0x2802 i else s2
      s3.writeRows h l v t (v.h + 1)

/-- The layers that show a slot take a V cell of it, which arrived at the Chronograph time `t`: those that their current registers enable. A
layer reads through Landing on its head's generator (R307). -/
def State.layerWrite (s : State) (k : Nat) (sof f2 eol : Bool) (line index t : Nat) (payload : List Byte) : State :=
  ((List.range 16).filter fun h => s.flag (Reg.MVW_H_CTL_EN h)).foldl (fun a h =>
    ((List.range 64).filter fun l => s.flag (Reg.MVW_L_CTL_EN (64 * h + l))).foldl (fun u l =>
      let v := u.vid h l
      let g := u.rd (Reg.MVW_H_CTL_GEN h)
      match (u.sourceMembers v.source).zipIdx.find? fun m => u.through m.1 g == k with
      | some m => u.layerCell h l v m.2 sof f2 eol line index t payload
      | none => u) a) s

/-- The writer takes up a source frame: it begins it in the free buffer, or skips it while that buffer holds a complete
frame that was never selected; a hidden layer's scaler idles (R312, R317). -/
def State.takeFrame (s : State) (h l : Nat) : State :=
  let i := 64 * h + l
  let x := s.layer i
  let v := s.vid h l
  let b : Nat := if (x.sel.bind fun n => x.frames.find? fun f => f.num == n).map (fun (f : WinFrame) => f.buf) = some 0 then 1 else 0
  if x.hidden then (s.putLayer { x with taken := true, idle := true }).wr (Reg.MVW_L_STAT_IDLE i) 1
  else
    let s0 := s.wr (Reg.MVW_L_STAT_IDLE i) 0
    if x.bad then s0.putLayer { x with taken := true, idle := false }
    else if (x.inBuf b).any fun f => f.complete && !f.chosen then
      (s0.putLayer { x with taken := true, idle := false }).bump (Reg.MVW_L_CNT_SKIP i) 1
    else
      let f : WinFrame := ⟨x.arrived, b, x.sofAt, 0, false, false, false, 0⟩
      (s0.putLayer { x with taken := true, idle := false, writing := some x.arrived, frames := f :: x.frames.filter fun y => y.buf != b }).writeRows
        h l v s.chrono (v.h + 1)

end Sys2Proof.Machine
end

