-- ==== Sys2Proof/Machine/StaveLine.lean ====
section
/-!
DEFINITION. What a lane puts on its line (R158, R159, R182, R183, R186, R188): PAM4 symbols and precoding, the alignment block, the
codewords of a superframe and where its cells lie in them. The machine sends and takes the content of superframes; these functions say
which symbols leave the ball for it.
-/
namespace Sys2Proof.Machine

/-! ### Symbols (R158, R159) -/

/-- The Gray symbol of a bit pair, the earlier bit first, which is also its PAM4 level (Table 6.2). -/
def graySymbol (a b : Bool) : Nat :=
  match a, b with
  | false, false => 0
  | false, true => 1
  | true, true => 2
  | true, false => 3

/-- The normalised amplitude of a level (Table 6.2). -/
def amplitude (level : Nat) : Int := 2 * level - 3

/-- Bits taken in pairs. -/
def graySymbols : List Bool → List Nat
  | a :: b :: r => graySymbol a b :: graySymbols r
  | _ => []

/-- What a precoding transmitter sends after the symbol `last`: P(j) = (G(j) − P(j − 1)) mod 4 (R159). -/
def precode (last : Nat) : List Nat → List Nat
  | [] => []
  | g :: r => let p := (g + 4 - last % 4) % 4; p :: precode p r

/-- What a precoding receiver recovers after the symbol `last`: G(j) = (P(j) + P(j − 1)) mod 4 (R159). -/
def unprecode (last : Nat) : List Nat → List Nat
  | [] => []
  | p :: r => (p + last) % 4 :: unprecode p r

/-! ### The alignment block (Table 7.1) -/

/-- Bits of PRBS13 from a state of 13 bits, its polynomial x^13 + x^12 + x^2 + x + 1 (PRESUMED, log entry 93). -/
def prbs13 : Nat → Nat → List Bool
  | 0, _ => []
  | n + 1, s =>
    let b := bit s 12 ^^ bit s 11 ^^ bit s 1 ^^ bit s 0
    b :: prbs13 n (s * 2 % 8192 + b01 b)

/-- The alignment block: the first 11 360 symbols of PRBS13Q from the all-ones seed, without precoding. -/
def alignmentBlock : List Nat := graySymbols (prbs13 22720 8191)

/-! ### Codewords (R182) -/

/-- Product in GF(2^10), reduced by x^10 + x^3 + 1 (PRESUMED, log entry 93). -/
def gfMul (a b : Nat) : Nat :=
  ((List.range 10).foldl (fun (r : Nat × Nat) i =>
    (if bit b i then r.1 ^^^ r.2 else r.1, if r.2 < 512 then 2 * r.2 else (2 * r.2) ^^^ 0x409)) (0, a)).1

/-- The generator of RS(544,514) below its leading term, highest power first: the product of x + α^i for i from 0 to 29 (PRESUMED, log
entry 93). -/
def rsGenerator : List Nat :=
  ((List.range 30).foldl (fun (r : List Nat × Nat) _ =>
    (List.zipWith (· ^^^ ·) (r.1 ++ [0]) (0 :: r.1.map (gfMul r.2)), gfMul r.2 2)) ([1], 1)).1.drop 1

/-- The 30 parity symbols of data symbols, by division. -/
def rsParity (data : List Nat) : List Nat :=
  data.foldl (fun r d =>
    let f := d ^^^ r.headD 0
    List.zipWith (fun a g => a ^^^ gfMul f g) (r.drop 1 ++ [0]) rsGenerator) (List.replicate 30 0)

/-- Bits of a byte, of bytes, and of a 10-bit symbol, the most significant first (DEDUCED, log entry 93). -/
def bitsOf (w n : Nat) : List Bool := (List.range w).map fun i => bit n (w - 1 - i)
def byteBits (bs : List Byte) : List Bool := bs.flatMap fun b => bitsOf 8 b.toNat

/-- The 10-bit symbols of bits, `n` of them. -/
def symbolsOf : Nat → List Bool → List Nat
  | 0, _ => []
  | n + 1, bs => (bs.take 10).foldl (fun v b => 2 * v + b01 b) 0 :: symbolsOf n (bs.drop 10)

/-- A codeword: 514 data symbols and then 30 parity symbols, as 5 440 bits. -/
def codeword (data : List Bool) : List Bool :=
  let d := symbolsOf 514 data
  (d ++ rsParity d).flatMap (bitsOf 10)

/-- The codewords of content bits, `n` of them. -/
def codewords : Nat → List Bool → List Bool
  | 0, _ => []
  | n + 1, bs => codeword (bs.take 5140) ++ codewords n (bs.drop 5140)

/-- The content stream of a superframe: header area, 6 936 cells, 4 zero bits. -/
def contentStream (area : List Byte) (cells : List (List Byte)) : List Bool :=
  byteBits area ++ cells.flatMap byteBits ++ List.replicate 4 false

/-- The 8 000 000 symbols of a superframe, precoded from the symbol `last` on where precoding is enabled. -/
def superframeSymbols (pre : Bool) (last : Nat) (area : List Byte) (cells : List (List Byte)) : List Nat :=
  let body := graySymbols (codewords 2937 (contentStream area cells))
  alignmentBlock ++ if pre then precode last body else body

/-- The header area: the header block twice, then zeros up to 430 bytes (R186). -/
def headerArea (h : List Byte) : List Byte := h ++ h ++ zeros 270

/-! ### Positions (R183, R188) -/

/-- The cell of a superframe that carries cell number `c` of slot position `p`. -/
def positionCell (p c : Nat) : Nat := 289 * (c / 32) + 1 + 9 * (c % 32) + p

/-- Slot position and cell number of cell `n` of a superframe; none for a message cell. -/
def cellPlace (n : Nat) : Option (Nat × Nat) :=
  if n % 289 = 0 then none else some ((n % 289 - 1) % 9, n / 289 * 32 + (n % 289 - 1) / 9)

/-- The content bit at which cell `n` begins. -/
def cellBit (n : Nat) : Nat := 3440 + 2176 * n

/-- When content bit `b` leaves the ball after S0, in units of 1/128 ns. -/
def bitLeaves (b : Nat) : Nat := 22720 + b / 5140 * 5440 + b % 5140

/-- The Sequence of cell number `c` of a position in superframe `k`: of a full slot, or of a quarter of a split one (R188). -/
def placeSequence (split : Bool) (k c : Nat) : Nat := (if split then k * 192 + c / 4 else k * 768 + c) % 2 ^ 32

/-- Does cell number `c` belong to a quarter of a position that is split, or to the whole position? -/
def ownCell (split : Bool) (quarter c : Nat) : Bool := !split || c % 4 == quarter

/-- Header and payload of a cell: type, flags, slot, line, index, sequence, frame tag. -/
def cellSeq (typeByte flags slot line index seq tag : Nat) (payload : List Byte) : List Byte :=
  let h := be8 typeByte ++ be8 flags ++ be16 slot ++ be16 line ++ be16 index ++ be32 seq ++ be16 tag ++ be8 0
  h ++ be8 (crc8 h).toNat ++ payload ++ zeros (256 - payload.length)

/-- An empty message cell (Table 7.3): no message, and the count of those sent before it. -/
def emptyMessage (seq : Nat) : List Byte :=
  let h := zeros 4 ++ be32 seq ++ zeros 7
  h ++ be8 (crc8 h).toNat ++ zeros 256

/-- A control cell of subtype `sub` in place `i` of lane `l`. -/
def controlCell (l i sub seq : Nat) (split : Bool) : List Byte :=
  cellSeq (0xC0 + sub) (4 * b01 split) (if split then 36 * l + i else 9 * l + i / 4) 0 0 seq 0 []

/-- Cell `n` of a superframe of lane `l`: the one placed there, else an empty message cell or IDLE. -/
def LineRec.cell (r : LineRec) (l n : Nat) : List Byte :=
  match r.cells.find? fun x => x.1 == n with
  | some x => x.2
  | none =>
    match cellPlace n with
    | none => emptyMessage 0
    | some (p, c) =>
      let split := bit r.layout.qmap p
      controlCell l (4 * p + if split then c % 4 else 0) 1 (placeSequence split r.k c) split

/-- Levels on a pair whose polarity is inverted: amplitudes change their sign (Table 6.8). -/
def polarity (inv : Bool) (levels : List Nat) : List Nat := if inv then levels.map (3 - ·) else levels

/-- The symbols of a superframe of lane `l` that have left before any inversion, precoded from the symbol `last` on (R159, R182). -/
def LineRec.symbolsSent (r : LineRec) (l last : Nat) : List Nat :=
  (superframeSymbols r.pre last r.area ((List.range 6936).map fun n => r.cell l n)).take r.symbols

/-- The levels that lane `l` has put on its balls for a superframe (R159, R180, R182). -/
def LineRec.levels (r : LineRec) (l last : Nat) : List Nat := polarity r.inv (r.symbolsSent l last)

/-- P(j - 1) for the next precoded symbol of a lane, from what it has sent, newest first: 0 after it woke or was enabled, else the last symbol
sent after an alignment block, which is not precoded (R159, log entry 93). -/
def lastSymbol (l : Nat) : List Out → Nat
  | [] => 0
  | .line m r :: rest =>
    if m ≠ l then lastSymbol l rest
    else
      let before := if r.restart then 0 else lastSymbol l rest
      if r.symbols ≤ 11360 then before else (r.symbolsSent l before).getLastD 0
  | _ :: rest => lastSymbol l rest

/-- The symbols of the superframe that a lane has sent last. -/
def lineLevels (l : Nat) : List Out → List Nat
  | [] => []
  | .line m r :: rest => if m = l then r.levels l (if r.restart then 0 else lastSymbol l rest) else lineLevels l rest
  | _ :: rest => lineLevels l rest

/-- Symbols of repeated alignment blocks, the last one truncated (R198). -/
def gapLevels (n : Nat) : List Nat := (List.range n).map fun j => alignmentBlock.getD (j % 11360) 0

/-- The symbols that a receiver recovers of bytes that a transmitter sends: each end with its precoding and its polarity (R159, R180). -/
def recovered (tx rx txInv rxInv : Bool) (bytes : List Byte) : List Nat :=
  let sent := if tx then precode 0 (graySymbols (byteBits bytes)) else graySymbols (byteBits bytes)
  let seen := polarity rxInv (polarity txInv sent)
  if rx then unprecode 0 seen else seen

/-- The superframe and cell number under which a cell that its port gives at Chronograph time `t` leaves on a position: the first that is
still to leave (DESIGN CHOICE, log entry 94). -/
def placeAt (split : Bool) (p quarter t : Nat) : Nat × Nat :=
  let k := t / 125000
  match (List.range 768).find? fun c => ownCell split quarter c && decide (t % 125000 * 128 ≤ bitLeaves (cellBit (positionCell p c))) with
  | some c => (k, c)
  | none => (k + 1, if split then quarter else 0)

end Sys2Proof.Machine
end

