-- ==== Sys2Proof/Machine/Fabric.lean ====
section
/-!
DEFINITION. The crosspoint fabric (R91-R115): cells in and out of the Log deck, arrival offsets, the echo, and the
frame synchronisers of Landing.
-/
namespace Sys2Proof.Machine

/-! ### Sources -/

/-- A source slot's record. -/
def State.source (s : State) (k : Nat) : SourceRec :=
  (s.fab.sources.find? fun x => x.slot == k).getD ⟨k, none, false, none, 0, [], [], false, 0, 0, false, none⟩

/-- Store a source slot's record. -/
def State.putSource (s : State) (x : SourceRec) : State :=
  { s with fab := { s.fab with sources := x :: s.fab.sources.filter fun y => y.slot != x.slot } }

/-- Measurement of a source begins anew (R71): it has no measured offset. -/
def State.beginMeasure (s : State) (k : Nat) : State :=
  s.putSource { s.source k with carried := false, lastSof := none, periods := [], offsets := [], noSignal := false, idle := false, lastCell := none }

/-- A source delivers slot-idle from now on: it carries no signal (R92). -/
def State.slotIdle (s : State) (k : Nat) : State := s.putSource { s.source k with idle := true }

/-- The offset of a source at a generator, where measured. -/
def SourceRec.at (x : SourceRec) (g : Nat) : Option Offset := x.offsets.find? fun o => o.gen == g

/-- The value that stands for DRIFT and NO_SIGNAL (R100). -/
def offsetLost : Int := 0x7FFFFFFF

/-- The offset of a source at a generator as it is reported (R100); none while UNMEASURED. -/
def State.offset (s : State) (k g : Nat) : Option Int :=
  let x := s.source k
  if !x.carried then none
  else if x.noSignal then some offsetLost
  else match x.at g with
    | none => none
    | some o => some (if o.drift then offsetLost else o.value)

/-- Does the next Meridian of a generator lie within the longest residence of a cell, so that a cell that arrives now is read there? -/
def State.soon (s : State) (g : Nat) : Bool := decide (s.nextMeridian g ≤ s.chrono + 32000)

/-- The selections that come into force at the next Meridians within reach, of ports that emit then: shadows that apply there, and records
that the loader has still to write, which set FAB_OUTEN where they connect without DARK (R106, R108, R109, R134). -/
def State.comingSels (s : State) : List (Nat × Sel) :=
  let emits := fun (x : Nat × Sel) => s.outEnabled (x.1 / 4)
  let shadows := (List.range 16).flatMap fun g => if s.soon g then (s.armedAt g).map fun q => (q, (s.shadow q).2) else []
  let records := s.eph.takes.flatMap fun t => t.routes.filter fun r => !r.loaded && s.soon r.gen && decide (r.frame ≤ s.nextFrame r.gen)
  shadows.filter emits ++ records.flatMap fun r => (s.routeSels r).filter fun x => (r.valid && !r.dark) || emits x

/-- The slot that a port of generator `gen` with source `src` reads from the next Meridian on (R111, R121). -/
def State.throughNext (s : State) (src gen : Nat) : Nat :=
  match s.landingOf src gen with
  | some c =>
    let m := s.nextMeridian gen
    if c.returns m then src else if c.through || c.turns m then landingSlot c.chan else src
  | none => src

/-- The slots that a follow port reads: the source for Landing, and what each layer reads of it on its head's generator (R111, R112, R307). -/
def State.followSlots (s : State) (p : IntPort) : List Nat :=
  let x := s.selCur (4 * p.port)
  if !x.valid then []
  else (p.users.map fun u => if u.1 = 2 then s.through x.src (s.rd (Reg.MVW_H_CTL_GEN (u.2 % 4096 / 64))) else x.src).eraseDups

/-- The ports that read a slot now, with their generator: `timed` says external outputs and timed ports, else follow ports
(R21, R95). -/
def State.readersNow (s : State) (k : Nat) : List (Nat × Nat × Bool) :=
  (s.connected.filter fun q => s.outEnabled (q / 4)).filterMap fun q =>
    let x := s.selCur q
    match s.fab.pool.find? fun p => p.port == q / 4 with
    | some p => if (if p.follow then (s.followSlots p).contains k else s.through x.src x.gen == k) then some (q, x.gen, !p.follow) else none
    | none => if s.through x.src x.gen = k then some (q, x.gen, true) else none

/-- The timed ports that read a slot from a Meridian within reach on: by a selection that comes into force there, or because Landing
changes over. The cells that arrive before it are stored for them (R95, R106, R121). -/
def State.readersNext (s : State) (k : Nat) : List (Nat × Nat × Bool) :=
  let follows := fun (q : Nat) => s.fab.pool.any fun p => p.port == q / 4 && p.follow
  let stay := ((s.connected.filter fun q => s.outEnabled (q / 4) && !follows q).map fun q => (q, s.selCur q)).filter fun x => s.soon x.2.gen
  ((stay ++ s.comingSels.filter fun x => x.2.valid).filter fun x => s.throughNext x.2.src x.2.gen == k).map fun x => (x.1, x.2.gen, true)

/-- The ports that the cells of a slot are stored for. -/
def State.readers (s : State) (k : Nat) : List (Nat × Nat × Bool) := (s.readersNow k ++ s.readersNext k).eraseDups

/-- The generators at which timed ports read a slot directly. -/
def State.timedGens (s : State) (k : Nat) : List Nat := ((s.readersNow k).filter fun r => r.2.2).map fun r => r.2.1

/-- The arrival offset of an SOF cell at generator `g` (R96, R100): the time since the generator's last Meridian less
the nominal arrival 13 000 ns before it, folded into (−T/2, T/2]. -/
def State.measure (s : State) (g : Nat) : Int :=
  let n := s.genN g
  let d := s.genD g * 10 ^ 9
  let m : Nat := (s.generator g).lastAt.getD 0
  let x : Nat := (s.chrono + 13000 - m) * n % d
  if d < 2 * x then -(((d - x) / n : Nat) : Int) else ((x / n : Nat) : Int)

/-- Two successive frame periods that both differ from a generator's period by more than 1 in 2 000 are another frame
rate (log entry 20). -/
def State.rateDiffers (s : State) (g : Nat) (periods : List Nat) : Bool :=
  let n := s.genN g
  let d := s.genD g * 10 ^ 9
  periods.length == 2 && periods.all fun p => decide (d < 2000 * ((p * n - d) + (d - p * n)))

/-- Fold a new measurement into the record of a source at a generator (R100). -/
def Offset.next (old : Option Offset) (g now : Nat) (v : Int) (rate : Bool) : Offset :=
  let prev := (old.map (·.recent)).getD []
  let change : Int := match old with
    | none => 0
    | some o => v - o.value
  let slow : Int := if change.natAbs ≤ 500 then change else 0
  let recent := (now, v, slow) :: prev.filter fun r => decide (now < r.1 + 10 ^ 9)
  let total : Int := (recent.map fun r => r.2.2).sum
  ⟨g, v, rate || decide (2000 < total.natAbs), recent⟩

/-- Since the last SOF of a source: the limit of an alarm that is raised once in a frame of it (R101). -/
def State.sourceGap (s : State) (k : Nat) : Nat := s.now + 1 - (s.source k).lastSof.getD 0

/-- Raise a frame alarm of a source as its condition holds for this frame, once in the frame (R101). -/
def State.alarmIf (s : State) (c : Bool) (code obj : Nat) : State :=
  if c then s.raiseWithin 1 code srcFabric obj else s

/-- The window alarms of a source at a generator that reads it (Table 4.3). -/
def State.windowAlarms (s : State) (k : Nat) (o : Offset) : State :=
  let obj := slotObject k + o.gen * 65536
  let s1 := s.alarmIf (decide ((s.rd Reg.FAB_WARN_NS : Int) < (o.value.natAbs : Int))) 0x2001 obj
  let s2 := s1.alarmIf (decide (o.value < -12000)) 0x2002 obj
  let s3 := s2.alarmIf (decide ((12000 : Int) < o.value)) 0x2003 obj
  s3.alarmIf o.drift 0x2004 obj

/-- An SOF cell of a source arrives: its offset is measured at every enabled generator, the generators that read it judge the window
(R100), and the causes of alarms that the frame before passed without end (R101). -/
def State.sofArrives (s : State) (k seq : Nat) : State :=
  let x := s.source k
  let periods := match x.lastSof with
    | none => []
    | some t => ((s.now - t) :: x.periods).take 2
  let gens := (List.range 16).filter s.genOn
  let os := gens.map fun g => Offset.next (x.at g) g s.now (s.measure g) (s.rateDiffers g periods)
  let s1 := s.putSource { x with carried := true, lastSof := some s.now, sofSeq := seq, periods := periods, offsets := os, noSignal := false, idle := false }
  let timed := s1.timedGens k
  let s2 := (os.filter fun o => timed.contains o.gen).foldl (fun t o => t.windowAlarms k o) s1
  let frame := x.lastSof.getD s.now
  let s3 := [0x2005, 0x2009, 0x200A, 0x200B, 0x200C].foldl (fun t c => t.ageCause c srcFabric (slotObject k) frame) s2
  (List.range 16).foldl (fun t g =>
    [0x2001, 0x2002, 0x2003, 0x2004].foldl (fun u c => u.ageCause c srcFabric (slotObject k + g * 65536) frame) t) s3

/-! ### Landing writes (R112-R115, R614) -/

/-- Bytes of an active line of a format (R93). -/
def lineBytes (width : Nat) (s444 : Bool) : Nat := (width * (if s444 then 36 else 20) + 7) / 8

/-- V cells of an active line (R93). -/
def lineCells (width : Nat) (s444 : Bool) : Nat := (width * (if s444 then 36 else 20) + 2047) / 2048

/-- V cells of member `k` of `n` in a line of `c` cells (R94). -/
def memberCells (c n k : Nat) : Nat := (c + n - 1 - k) / n

/-- Payload bytes of member `k` of `n` in an active line: its share of the line. -/
def memberBytes (width : Nat) (s444 : Bool) (n k : Nat) : Nat :=
  let c := lineCells width s444
  let full := 256 * memberCells c n k
  if (c - 1) % n = k then full - (256 * c - lineBytes width s444) else full

/-- F of a Landing channel: the bytes of one of its frame buffers (R115, R614). -/
def Landing.frameBytes (c : Landing) : Nat := c.height * memberBytes c.width c.s444 c.size c.member

/-- Lines of one scan of a channel: the field's or the frame's. -/
def Landing.scanLines (c : Landing) : Nat := if c.interlaced then c.height / 2 else c.height

/-- Registers of a Landing channel, full or quarter. -/
def ldgReg (full quarter : Nat → FieldRef) (chan : Nat) : FieldRef := if chan < 0x100 then full chan else quarter (chan - 0x100)

/-- A channel's record is replaced. -/
def State.putLanding (s : State) (c : Landing) : State :=
  { s with fab := { s.fab with landing := s.fab.landing.map fun x => if x.chan == c.chan then c else x } }

/-- The newest frame that is complete in the channel. -/
def Landing.newest (c : Landing) : Option (Nat × Nat × Nat) := (c.ahead ++ c.done).head?

/-- The buffer that is neither being read nor the newest complete one (R112). -/
def Landing.freeBuffer (c : Landing) : Nat :=
  ([0, 1, 2].find? fun b => (c.reading.map (·.2)) != some b && (c.newest.map fun d => d.2.1) != some b).getD 0

/-- The channels of a channel's Landing group: itself without BOND. -/
def Landing.inGroup (c x : Landing) : Bool := x.first == c.first && x.gen == c.gen && (x.chan == c.chan || decide (1 < c.size))

/-- The unread complete frame of a channel, and of its group, is dropped: its buffer is written anew, or it is older than the frame that
becomes the newest complete one (R113, R115). -/
def State.dropDone (s : State) (c : Landing) : State :=
  let ms := s.fab.landing.filter fun x => c.inGroup x && !x.done.isEmpty
  let s1 := ms.foldl (fun t x => t.bump (ldgReg Reg.LDG_DROP_COUNT Reg.LDQ_DROP_COUNT x.chan) 1) s
  { s1 with fab := { s1.fab with landing := s1.fab.landing.map fun x => if c.inGroup x then { x with done := [] } else x } }

/-- A channel is lost: detected at `t`, and handled as lost with every channel of its group; the Meridians since a loss that lasts go on
counting (R114, R614). -/
def State.landingLost (s : State) (c : Landing) (t : Nat) : State :=
  let ls := s.fab.landing.map fun x => if c.inGroup x then { x with lost := some (t, (x.lost.map fun l => l.2).getD 0) } else x
  { s with fab := { s.fab with landing := ls } }

/-- Raise a Landing alarm, its bit in the channel's LDG_STAT (Table 4.3), once in a frame of its output. -/
def State.landingAlarm (s : State) (code chan : Nat) : State :=
  let g := ((s.fab.landing.find? fun x => x.chan == chan).map fun (x : Landing) => x.gen).getD 0
  s.raiseWithin (s.frameGap g) code srcLanding chan

/-- A frame that is complete in every channel of a group counts in each, drops the one not read before it, and is the one to select; it ends
the loss of the group (R113-R115, R614). -/
def State.groupComplete (s : State) (c : Landing) (tag : Nat) : State :=
  let ms := s.fab.landing.filter fun x => c.inGroup x
  if ms.all fun x => x.ahead.any fun d => d.1 == tag then
    let s1 := s.dropDone c
    let s2 := ms.foldl (fun t x => t.bump (ldgReg Reg.LDG_FRAMES_IN_COUNT Reg.LDQ_FRAMES_IN_COUNT x.chan) 1) s1
    { s2 with fab := { s2.fab with landing := s2.fab.landing.map fun x => if c.inGroup x then { x with done := x.ahead, ahead := [], lost := none } else x } }
  else s

/-- A frame of a channel is complete and matches the declared format (R112, R114): the follow port has read its last cell, which arrived at
`t`, 1 000 ns later. While the channel is lost, only a frame whose SOF arrived after the loss counts. -/
def State.frameComplete (s : State) (c : Landing) (tag buf sofAt t : Nat) : State :=
  let inTime := match c.lost with
    | some (l, _) => decide (l < sofAt)
    | none => true
  if !inTime then s.putLanding { c with writing := none }
  else (s.putLanding { c with writing := none, ahead := [(tag, buf, t + 1000)] }).groupComplete c tag

/-- A frame turns out not to match the declared format with the cell that arrived at `t`: LDG_FMT, and the channel is lost (R114). -/
def State.landingFormat (s : State) (c : Landing) (t : Nat) : State :=
  ((s.putLanding { c with writing := none, ancBuf := none }).landingAlarm 0x2102 c.chan).landingLost c t

/-- A V cell beyond the last line of a frame that stood complete: its line count differs from the declared one, and it is taken back while
nothing has read it (R112, R114). -/
def State.landingExtra (s : State) (c : Landing) (line tag t : Nat) : State :=
  if decide (c.scanLines ≤ line) && (c.newest.any fun d => d.1 == tag) then
    let s1 := if c.done.any fun d => d.1 == tag then s.dropDone c else s
    let c1 := (s1.fab.landing.find? fun x => x.chan == c.chan).getD c
    s1.landingFormat { c1 with ahead := [] } t
  else s

/-- Does a V cell of a channel's source start a frame: SOF, or in a member of a bond but the first, whose sender marks the first member only,
its first cell of line 0 of field 1 (R91, R94, R614; log entry 120)? -/
def Landing.starts (c : Landing) (sof f2 : Bool) (line index : Nat) : Bool := sof || (c.member != 0 && line == 0 && index == 0 && !f2)

/-- A V cell of a channel's source, which arrived at `t`, reaches its frame buffer, `k` at base + k × LDG_FRAME.BYTES (R112, Table 4.10). -/
def State.landingCell (s : State) (c : Landing) (sof f2 : Bool) (line index tag t : Nat) (payload : List Byte) : State :=
  let s0 := if sof && c.writing.isSome then s.landingFormat c t else s
  let c0 := (s0.fab.landing.find? fun x => x.chan == c.chan).getD c
  let s1 := if sof && (c0.done.any fun d => d.2.1 == c0.freeBuffer) then s0.dropDone c0 else s0
  let c1 := (s1.fab.landing.find? fun x => x.chan == c.chan).getD c
  let c2 := if sof then { c1 with writing := some (tag, c1.freeBuffer, 0, true, t), lastSof := some t, ancBuf := some c1.freeBuffer,
                                  anc := c1.anc.filter fun x => x.1 != c1.freeBuffer } else c1
  match c2.writing with
  | none => s1.landingExtra c2 line tag t
  | some (n0, buf, n, ok, at_) =>
    let per := memberCells (lineCells c2.width c2.s444) c2.size c2.member
    let inside := decide (line < c2.scanLines) && decide (index < per)
    let row := if c2.interlaced then 2 * line + b01 f2 else line
    let mb := memberBytes c2.width c2.s444 c2.size c2.member
    let base := s.rd64 (ldgReg Reg.LDG_BASE_LO_ADDR Reg.LDQ_BASE_LO_ADDR c2.chan) (ldgReg Reg.LDG_BASE_HI_ADDR Reg.LDQ_BASE_HI_ADDR c2.chan)
    let s2 := if inside then
        s1.memWrite (base + buf * s.rd (ldgReg Reg.LDG_FRAME_BYTES Reg.LDQ_FRAME_BYTES c2.chan) + row * mb + index * 256) (payload.take (mb - index * 256))
      else s1
    let c3 := { c2 with writing := some (n0, buf, n + 1, ok && inside, at_) }
    let last := decide (line + 1 = c2.scanLines) && decide (index + 1 = per) && (!c2.interlaced || f2)
    if !last then s2.putLanding c3
    else if ok ∧ inside ∧ n + 1 = c2.height * per then (s2.putLanding c3).frameComplete c3 n0 buf at_ t
    else (s2.putLanding c3).landingFormat c3 t

/-- An X cell of a channel's source is stored with the frame that its SOF began, up to the next one (R93, R112). -/
def State.landingAnc (s : State) (c : Landing) (f2 : Bool) (line index : Nat) (payload : List Byte) : State :=
  match c.ancBuf with
  | none => s
  | some b => s.putLanding { c with anc := c.anc ++ [(b, f2, line, index, payload)] }

/-- The rate of a channel's source lies within ±1 000 ppm of its generator's rate (R114). -/
def State.landingRateOk (s : State) (c : Landing) : Bool :=
  match (s.source c.source).periods.head? with
  | none => true
  | some p =>
    let d := s.genD c.gen * 10 ^ 9
    decide (1000 * ((p * s.genN c.gen - d) + (d - p * s.genN c.gen)) ≤ d)

/-- The channels that land a slot take a V or X cell of it, which arrived at `t`. A source that comes at another rate is lost with each SOF
again, so that no frame of it ends the loss (R114). -/
def State.landingWrite (s : State) (k kind : Nat) (sof f2 : Bool) (line index tag t : Nat) (payload : List Byte) : State :=
  (s.fab.landing.filter fun c => c.source == k && s.flag (ldgReg Reg.LDG_CTL_EN Reg.LDQ_CTL_EN c.chan)).foldl (fun u c0 =>
    match u.fab.landing.find? fun x => x.chan == c0.chan with
    | none => u
    | some c =>
      if kind = 2 then u.landingAnc c f2 line index payload
      else
        let first := c.starts sof f2 line index
        let u1 := u.landingCell c first f2 line index tag t payload
        if first ∧ !u1.landingRateOk c then (u1.landingAlarm 0x2104 c.chan).landingLost c t else u1) s

/-! ### Audio of A cells (R95, R281-R283) -/

/-- An audio source's record. -/
def State.audioSource (s : State) (n : Nat) : AudioSource := (s.aud.sources.find? fun x => x.num == n).getD ⟨n, [], 0, 0, 0, 0, 0, []⟩

/-- Store an audio source's record. -/
def State.putAudioSource (s : State) (x : AudioSource) : State :=
  { s with aud := { s.aud with sources := x :: s.aud.sources.filter fun y => y.num != x.num } }

/-- The evaluation instant of sample `k` at `fs` (R282). -/
def State.evalInstant (s : State) (k fs : Nat) : Nat := k * 10 ^ 9 / fs + s.rd Reg.AUD_CTL_XDELAY * 125000

/-- A sample of a source reaches the store under its own count; after its evaluation instant it is discarded and
counted LATE (R283). Behind its closed Firebreak the audio block takes none (R11). -/
def State.audioPut (s : State) (n fs k : Nat) (v : Int) : State :=
  let x := s.audioSource n
  if s.blockShut 0x0D 0 then s
  else if s.evalInstant k fs < s.chrono then (s.putAudioSource { x with late := x.late + 1 }).raise 0x2702 srcAudio n
  else s.putAudioSource { x with samples := (x.samples.filter fun p => p.1 != k) ++ [(k, v)] }
where
  /-- Source of the audio block as a whole (Table 18.3). -/
  srcAudio : Nat := srcOf 5 3 0xFFFF

/-- The 24-bit sample at an offset. -/
def sample24 (p : List Byte) (o : Nat) : Int := sext 24 (u24 p o)

/-- The measurement of a group; nothing measured reads 0. -/
def State.rateRec (s : State) (kind i : Nat) : RateRec := (s.aud.rates.find? fun r => r.kind == kind && r.index == i).getD ⟨kind, i, 0, 0, 0, false, 0, 0, [], s.chrono⟩

/-- Store the measurement of a group. -/
def State.putRate (s : State) (x : RateRec) : State :=
  { s with aud := { s.aud with rates := x :: s.aud.rates.filter fun r => !(r.kind == x.kind && r.index == x.index) } }

/-- A group carries `n` more samples, which its rate measurement counts (R295). -/
def State.noteSamples (s : State) (kind i n : Nat) : State :=
  let x := s.rateRec kind i
  s.putRate { x with total := x.total + n, lastAt := s.chrono }

/-- Does the rate of a source slot's audio show in this slot: a full slot, or the quarter that its share names, quarter 0 for share 0 (DEDUCED,
log entry 39)? -/
def State.rateSlot (s : State) (k : Nat) : Bool := !isQuarter k || s.slotShare (fullSlot k) false - 1 == slotNo k % 4

/-- The audio DSPs de-embed an A cell (Table 10.3). Of one that is discarded the samples come to be missing (R281). -/
def State.deembed (s : State) (k : Nat) (p : List Byte) : State :=
  let rate := u8 p 10
  let n := u8 p 11
  let es := (List.range 16).filter fun e => bit (u16 p 8) e && s.embedded k e != 0xFFFF
  if 2 ≤ rate ∨ n = 0 ∨ 5 < n then es.foldl (fun u e => u.putAudioSource (u.audioSource (s.embedded k e))) s
  else
    let fs : Nat := if rate = 1 then 96000 else 48000
    let s1 := if s.rateSlot k && decide (fullSlot k < 1152) && !s.blockShut 0x0D 0 then s.noteSamples 0 (fullSlot k) n else s
    (List.range n).foldl (fun t f => es.foldl (fun u e =>
      u.audioPut (s.embedded k e) fs (u64 p 0 + f) (sample24 p (16 + 48 * f + 3 * e))) t) s1

/-! ### Output hashes (R442) -/

/-- Is a card of a pair a comparing one: neither SOLO nor HOLDER (R442)? -/
def State.compares (s : State) : Bool := s.flag Reg.TWN_CTL_EN && s.rd Reg.TWN_STAT_ROLE != 2

/-- Hashes older than 2 frame periods that were not compared are missed, and start the second of CONVERGE anew (R442, R445). -/
def State.pruneHashes (s : State) (g frame : Nat) : State :=
  let old := s.twn.hashes.filter fun r => r.gen == g && decide (r.frame + 2 < frame)
  if old.isEmpty then s
  else
    let t := { s.twn with hashes := s.twn.hashes.filter fun r => !(r.gen == g && decide (r.frame + 2 < frame)) }
    { s with twn := if s.compares then { t with hashMisses := t.hashMisses + old.length, convergeAt := s.now } else t }

/-- The hash of an output or internal slot takes a cell (R442); FILL is left out, IDLE only sets its flag. -/
def State.hashCell (s : State) (slot g : Nat) (cell : List Byte) : State :=
  let t := u8 cell 0
  let f := u8 cell 1
  let frame := frameAt (s.genN g) (s.genD g) s.chrono
  let flags := b01 (bit f 3) + 2 * b01 (t == 0xC1) + 4 * b01 (bit f 0)
  if !s.flag Reg.TWN_CTL_EN ∨ t = 0xC0 then s
  else
    let s1 := s.pruneHashes g frame
    let r := (s1.twn.hashes.find? fun r => r.gen == g && r.frame == frame && r.slot == slot).getD ⟨g, frame, slot, 0xFFFFFFFFFFFFFFFF#64, 0⟩
    let crc := if t = 0xC1 then r.crc else (bytesAt cell 16 256).foldl (crcByte 0xC96C5795D7870F42#64) r.crc
    let r1 := { r with crc := crc, flags := r.flags ||| flags }
    { s1 with twn := { s1.twn with hashes := r1 :: s1.twn.hashes.filter fun x => !(x.gen == g && x.frame == frame && x.slot == slot) } }

/-! ### Writing cells (R91-R99, R110) -/

/-- The generator of an internal slot: its head's or its Landing channel's; the first reader's for a producer that has none, else
generator 0 (R442, log entry 47). -/
def State.slotGen (s : State) (n : Nat) : Nat :=
  if 1152 ≤ n ∧ n < 1168 then s.rd (Reg.MVW_H_CTL_GEN (n - 1152))
  else
    match s.fab.landing.find? fun c => (if c.chan < 0x100 then c.chan else (c.chan - 0x100) / 4) + 1232 == n with
    | some c => c.gen
    | none => ((s.readers n).head?.map fun r => r.2.1).getD 0

/-- A full-slot source on a quarter output is read in cell order, each read 488.281 ns later after its arrival than the one before
(R123). -/
def State.slowRead (s : State) (q k : Nat) : Bool := isQuarter (s.outKey q) && !isQuarter k

/-- The latest read time of a stored cell among the ports that read its slot (R97): at a timed port its arrival less its offset plus
13 000 ns, whatever R100 reports for it, at a follow port 1 000 ns after arrival. -/
def State.lastRead (s : State) (c : DeckCell) : Nat :=
  ((s.readers c.slot).map fun r =>
    if r.2.2 then
      let a : Int := (((s.source c.slot).at r.2.1).map fun o => o.value).getD 0
      ((c.arrival : Int) + 13000 - a).toNat + (if s.slowRead r.1 c.slot then 488281 * c.order / 1000 else 0)
    else c.arrival + 1000).foldl max 0

/-- Buffers that are free. -/
def State.deckFree (s : State) : Nat := 262144 - (s.fab.deck.filter fun c => !c.freed).length

/-- Is a follow port open on a slot and emitting (R21, R108, R112)? -/
def State.followOpen (s : State) (k : Nat) : Bool := s.fab.pool.any fun p => p.follow && (s.followSlots p).contains k && s.outEnabled p.port

/-- What Landing and the multiviewer take from a follow port that reads a cell (R112, R307). -/
def State.followCell (s : State) (c : DeckCell) : State :=
  let kind := c.typeByte / 64
  let sof := decide (kind = 0) && bit c.flags 7
  let f2 := bit c.flags 4
  let index := c.index % 4096
  let s1 := if kind = 1 ∨ s.shutIn 0x0C 0 then s else s.landingWrite c.slot kind sof f2 c.line index c.tag c.arrival c.payload
  if kind = 0 then s1.layerWrite c.slot sof f2 (bit c.flags 5) c.line index (s.chrono - (s.now - c.arrival)) c.payload else s1

/-- The follow ports read every stored cell that has become readable, in order of arrival (R112). Each event of the fabric, of Landing and of
the multiviewer first carries out the reads that are due (log entry 121). -/
def State.followReads (s : State) : State :=
  let due := s.fab.deck.filter fun c => !c.followed && decide (c.arrival + 1000 ≤ s.now)
  let deck := s.fab.deck.map fun c => if decide (c.arrival + 1000 ≤ s.now) then { c with followed := true, wasRead := c.wasRead || s.followOpen c.slot } else c
  (due.filter fun c => s.followOpen c.slot).foldl (fun t c => t.followCell c) { s with fab := { s.fab with deck := deck } }

/-- The buffers of cells whose last read time has passed, and that were not over age at it, are free. -/
def State.deckSweep (s : State) : State :=
  let deck := s.fab.deck.map fun c =>
    let r := s.lastRead c
    { c with freed := c.freed || (decide (r < s.now) && decide (r < c.arrival + 32000)) }
  { s with fab := { s.fab with deck := deck.filter fun c => !(c.freed && decide (c.arrival + 32000 ≤ s.now)) } }

/-- Put a cell into the Log deck, or drop it when its writer may take no buffer (R95, R99). FAB_LD_MINFREE follows the lowest free count
(R98). -/
def State.deckStore (s0 : State) (w : Writer) (c : DeckCell) : State :=
  let s := s0.deckSweep
  let floor := match w with
    | .receiver _ _ | .engine _ => 16384
    | .landing | .internal => 0
  if s.deckFree ≤ floor then (s.bump Reg.FAB_LD_DROP_COUNT 1).raiseWithin (s.sourceGap c.slot) 0x2009 srcFabric (slotObject c.slot)
  else { s with fab := { s.fab with deck := s.fab.deck ++ [c] } }.wr Reg.FAB_LD_MINFREE_CELLS (min (s.rd Reg.FAB_LD_MINFREE_CELLS) (s.deckFree - 1))

/-! ### Landing read-back (R111, R113, R114) -/

/-- A cell without sequence number, as it leaves the fabric (R110). -/
def cellBytes (typeByte flags slot line index tag : Nat) (payload : List Byte) : List Byte := cellSeq typeByte flags slot line index 0 tag payload

/-- The black level of 4:2:2 10-bit video, Y 64 and Cb, Cr 512, from byte `o` of the line on (R104, log entry 21). -/
def blackBytes (o : Nat) : List Byte :=
  (List.range 256).map fun i => ([0x80#8, 0x04#8, 0x08#8, 0x00#8, 0x40#8] : List Byte).getD ((o + i) % 5) 0

/-- Is the DRAM channel that holds an address READY? -/
def State.dramReady (s : State) (a : Nat) : Bool :=
  match s.dramPlace a with
  | some p => s.isReady 0x12 p.2.1
  | none => false

/-- The cell that Landing reads back for its output at a line, index and type of a field: the frame selected for the Meridian that its
timing leads to, or black; none where the frame has no such cell, and none with LDG_DRAM_LATE where its DRAM cannot be read in time. -/
def State.landingBack (s : State) (c : Landing) (kind : Nat) (f2 : Bool) (line index : Nat) : Option (List Byte) × State :=
  let per := memberCells (lineCells c.width c.s444) c.size c.member
  let total := lineCells c.width c.s444
  let mb := memberBytes c.width c.s444 c.size c.member
  let row := if c.interlaced then 2 * line + b01 f2 else line
  let buf := (c.reading.map (·.2)).getD 0
  let at_ := s.rd64 (ldgReg Reg.LDG_BASE_LO_ADDR Reg.LDQ_BASE_LO_ADDR c.chan) (ldgReg Reg.LDG_BASE_HI_ADDR Reg.LDQ_BASE_HI_ADDR c.chan) +
    buf * s.rd (ldgReg Reg.LDG_FRAME_BYTES Reg.LDQ_FRAME_BYTES c.chan) + row * mb + index * 256
  let black := c.black || c.reading.isNone
  let sol := decide (index = 0) && decide (c.member = 0)
  let flags := 128 * b01 (decide (index = 0) && decide (line = 0) && !f2) + 64 * b01 sol + 32 * b01 (decide (c.size * index + c.member + 1 = total)) +
    16 * b01 f2 + 4 * b01 (decide (0x100 ≤ c.chan)) + 2 * b01 (decide (1 < c.size)) + 1
  let seq := (((s.source (landingSlot c.chan)).lastSeq.getD 0) + 1) % 2 ^ 32
  let tag := frameAt (s.genN c.gen) (s.genD c.gen) (s.chrono + 13000) % 65536
  let cell := fun (type fl : Nat) (p : List Byte) => some (cellSeq (64 * type) fl (slotNo (landingSlot c.chan)) line (4096 * c.member + index) seq tag p)
  if kind = 0 then
    if c.scanLines ≤ line ∨ per ≤ index then (none, s)
    else if black then (cell 0 flags ((blackBytes (256 * (c.size * index + c.member))).take (mb - index * 256)), s)
    else if !s.dramReady at_ then (none, s.landingAlarm 0x2103 c.chan)
    else
      let late := bit flags 7 && decide (s.nextMeridian c.gen + 200 < s.chrono + 13000) && decide (s.soon c.gen)
      (cell 0 flags (s.memRead at_ (min 256 (mb - index * 256))), if late then s.landingAlarm 0x2103 c.chan else s)
  else if kind = 2 ∧ !black then
    match c.anc.find? fun x => x.1 == buf && x.2.1 == f2 && x.2.2.1 == line && x.2.2.2.1 == index with
    | some x => (cell 2 (flags % 32) x.2.2.2.2, s)
    | none => (none, s)
  else (none, s)

/-! ### The fabric takes a cell -/

/-- The fabric takes a cell (R91-R95, R110): header check, sequence check, de-embedding, offset measurement, and storage when the slot has a
reader. A cell whose header fails counts for the slot that its header names, damaged as it is (DESIGN
CHOICE, log entry 85). -/
def State.fabricTake (s : State) (w : Writer) (cell : List Byte) : State :=
  let t := u8 cell 0
  let kind := t / 64
  let sub := t % 16
  let flags := u8 cell 1
  let k := slotKey (u16 cell 2) (bit flags 2)
  let x := s.source k
  if crc8 (cell.take 15) ≠ BitVec.ofNat 8 (u8 cell 15) ∨ t / 16 % 4 ≠ 0 ∨ (kind = 3 ∧ 2 < sub) then
    (s.putSource { x with hdrCrc := x.hdrCrc + 1 }).raiseWithin (s.sourceGap k) 0x200B srcFabric (slotObject k)
  else
    let seq := u32 cell 8
    if kind = 3 ∧ sub = 2 then s.putSource { x with lastSeq := some (sub32 seq 1) }
    else
      let step : Nat := match x.lastSeq with
        | none => 1
        | some l => sub32 seq l
      if step = 0 ∨ 2 ^ 31 ≤ step then s
      else
        let s1 := s.putSource { x with lastSeq := some seq, seqGap := x.seqGap + (step - 1), idle := false,
                                       lastCell := if kind = 3 then x.lastCell else some s.now }
        let s2 := if 1 < step then s1.raiseWithin (s1.sourceGap k) 0x200C srcFabric (slotObject k) else s1
        if kind = 3 then (if sub = 1 then s2.slotIdle k else s2)
        else
          let payload := bytesAt cell 16 256
          let sof := decide (kind = 0) && bit flags 7
          let s3 := if kind = 1 then s2.deembed k payload else s2
          let s4 := if sof then s3.sofArrives k seq else s3
          let s4 := if 1152 ≤ fullSlot k then s4.hashCell (fullSlot k) (s.slotGen (fullSlot k)) cell else s4
          if (s4.readers k).isEmpty then s4
          else s4.deckStore w ⟨k, t, flags, u16 cell 4, u16 cell 6, u16 cell 12, payload, s.now, sub32 seq (s4.source k).sofSeq, false, false, false⟩

/-- A cell is discarded at a closed boundary: the fabric, which receives it, counts it and those before it as missing (R11, R110). -/
def State.boundaryLost (s : State) (cell : List Byte) : State :=
  let x := s.source (slotKey (u16 cell 2) (bit (u8 cell 1) 2))
  let seq := u32 cell 8
  let step : Nat := (x.lastSeq.map fun l => sub32 seq l).getD 1
  if crc8 (cell.take 15) ≠ BitVec.ofNat 8 (u8 cell 15) ∨ u8 cell 0 / 64 = 3 ∨ step = 0 ∨ 2 ^ 31 ≤ step then s
  else s.putSource { x with lastSeq := some seq, seqGap := x.seqGap + step }

/-- A writer delivers a cell. Of a cell of Landing read-back the operand names slot, type, field, line and index; what it holds comes from
the channel (R113). A cell from behind a closed boundary is discarded there (R11). -/
def State.fabricWrite (s : State) (w : Writer) (cell : List Byte) : State :=
  if s.writerShut w (slotKey (u16 cell 2) (bit (u8 cell 1) 2)) then s.boundaryLost cell
  else match w with
  | .landing =>
    match s.landingOut (slotKey (u16 cell 2) (bit (u8 cell 1) 2)) with
    | none => s
    | some c =>
      if !s.flag (ldgReg Reg.LDG_CTL_EN Reg.LDQ_CTL_EN c.chan) then s
      else
        let r := s.landingBack c (u8 cell 0 / 64) (bit (u8 cell 1) 4) (u16 cell 4) (u16 cell 6 % 4096)
        match r.1 with
        | none => r.2
        | some b => r.2.fabricTake w b
  | _ => s.fabricTake w cell

/-! ### Reading cells (R96, R102-R105, R108) -/

/-- Is a cell readable now (R95, R97)? -/
def State.readable (s : State) (c : DeckCell) : Bool := decide (c.arrival + 1000 ≤ s.now) && decide (s.now < c.arrival + 32000)

/-- The cell of a slot at a line, type and index that is readable now (R95): the newest. -/
def State.deckFind (s : State) (k kind line index : Nat) : Option DeckCell :=
  s.fab.deck.reverse.find? fun c => c.slot == k && c.typeByte / 64 == kind && c.line == line && c.index % 4096 == index && s.readable c

/-- The cell that the port of quarter index `q` reads of a slot at its cell time: the one of its line, type and index, or in cell order (R96,
R123). -/
def State.portFind (s : State) (q k kind line index : Nat) : Option DeckCell :=
  if s.slowRead q k then
    s.fab.deck.reverse.find? fun c => c.slot == k && c.typeByte / 64 == kind && c.order + 1 == (s.port q).count && s.readable c
  else s.deckFind k kind line index

/-- Mark a cell as read. -/
def State.deckMark (s : State) (c : DeckCell) : State :=
  { s with fab := { s.fab with deck := s.fab.deck.map fun x => if x == c then { x with wasRead := true } else x } }

/-- The place of port `q` in what a send flow is made from: 0 for the flow's slot, the member index in its bond (R94);
none where the flow is not made from the port. -/
def State.flowPlace (s : State) (f : Flow) (q : Nat) : Option (Nat × Nat) :=
  if !f.tx ∨ !(f.kind == 1 || f.kind == 5 || f.kind == 6) then none
  else if f.bond then
    match s.bondNamed f.slot with
    | some b => (b.members.zipIdx.find? fun m => 4 * m.1 == q).map fun m => (m.2, b.members.length)
    | none => none
  else if quarterIndex f.slotKey = q then some (0, 1) else none

/-- The frame that the outputs of a generator emit: that of R125, or the one in progress that a step has made long (R128). -/
def State.frameOn (s : State) (g : Nat) : Nat :=
  let x := s.generator g
  match x.frame with
  | some f => if x.shift = 0 then frameAt (s.genN g) (s.genD g) s.chrono else f
  | none => frameAt (s.genN g) (s.genD g) s.chrono

/-- A send flow takes a V or X cell that its output emits, of kind 6 an A cell too (R249, R264); cells of frames before the last are
forgotten. -/
def State.feedFlow (s : State) (q : Nat) (cell : List Byte) (f : Flow) : Flow :=
  match s.flowPlace f q with
  | none => f
  | some (m, n) =>
    let t := u8 cell 0 / 64
    if t = 3 ∨ (t = 1 ∧ f.kind ≠ 6) then f
    else
      let frame := s.frameOn (s.rd (Reg.FAB_SEL_CUR_GEN q))
      let line := u16 cell 4 + if bit (u8 cell 1) 4 then 563 else 0
      let p : Piece := ⟨t, frame, line, 256 * (n * (u16 cell 6 % 4096) + m), bytesAt cell 16 256⟩
      { f with store := p :: f.store.filter fun x => x.frame == frame || x.frame + 1 == frame || (f.moved.any fun m => x.frame == m.1) }

/-- An encoder channel takes a V cell that a port of its own delivers (R335); cells of frames before the last are forgotten. -/
def State.feedEncoder (s : State) (q : Nat) (cell : List Byte) (x : EncChan) : EncChan :=
  let mine := s.fab.pool.filter fun p => p.users.contains x.user
  match mine.zipIdx.find? fun p => 4 * p.1.port == q with
  | none => x
  | some (p, m) =>
    if u8 cell 0 / 64 ≠ 0 then x
    else
      let frame := s.frameOn p.gen
      let line := u16 cell 4 + if bit (u8 cell 1) 4 then 563 else 0
      let y : Piece := ⟨0, frame, line, 256 * (mine.length * (u16 cell 6 % 4096) + m), bytesAt cell 16 256⟩
      { x with input := y :: x.input.filter fun z => z.frame == frame || z.frame + 1 == frame || z.frame == x.frame }

/-- The encoder channels take a cell of an internal port. -/
def State.feedEncoders (s : State) (q : Nat) (bytes : List Byte) : State :=
  if q / 4 < 1152 then s else { s with enc := { s.enc with chans := s.enc.chans.map fun x => s.feedEncoder q bytes x } }

/-- The send flows take a cell. -/
def State.feedFlows (s : State) (q : Nat) (bytes : List Byte) : State :=
  { s with net := { s.net with flows := s.net.flows.map fun f => s.feedFlow q bytes f } }

/-! ### The cells of a Stave transmitter (R181, R188, R189) -/

/-- Does the transmitter of a lane send superframes of its own: enabled and READY, without test pattern or far-end loop (R168, R180,
R181)? -/
def State.staveSends (s : State) (l : Nat) : Bool :=
  s.laneMode l == 1 && s.flag (Reg.LNQ_STX_CTL_EN l) && bit (s.rd (Reg.LNQ_LSTAT_BITS l)) 3 && s.rd (Reg.LNQ_PRBS_TX_PAT l) == 0 &&
    s.rd (Reg.LNQ_LCFG_LOOP l) != 2

/-- A cell under another Sequence, with its header CRC. -/
def withSequence (cell : List Byte) (seq : Nat) : List Byte :=
  let h := cell.take 8 ++ be32 seq ++ (cell.drop 12).take 3
  h ++ be8 (crc8 h).toNat ++ cell.drop 16

/-- A cell that takes no place in the superframe is discarded; it counts in LNQ_STX_DROP unless it is IDLE or FILL (R189; log
entry 101). -/
def State.staveDrop (s : State) (l : Nat) (cell : List Byte) : State :=
  if u8 cell 0 = 0xC0 ∨ u8 cell 0 = 0xC1 then s else s.bump (Reg.LNQ_STX_DROP_COUNT l) 1

/-- The layout that superframe `k` of a lane has: the one in force, or before its S0 the one latched for it (R192). -/
def State.layoutAt (s : State) (l k : Nat) : Layout :=
  if ((s.lane l).sentS0.head?.map fun x => x.1) = some k then s.layoutCur l else (s.lane l).latched.getD (s.layoutCur l)

/-- The places that a layout makes active after another (R189). -/
def Layout.fresh (y cur : Layout) : List Nat :=
  y.places.filter fun i => y.active i && (!cur.active i || bit y.qmap (i / 4) != bit cur.qmap (i / 4))

/-- The places that superframe `k` of a lane makes active. -/
def State.freshAt (s : State) (l k : Nat) : List Nat :=
  if ((s.lane l).sentS0.head?.map fun x => x.1) = some k then (s.lane l).newlyActive else (s.layoutAt l k).fresh (s.layoutCur l)

/-- The superframe and cell number at which a cell that the port of place `i` of a lane gives now leaves: under the layout in force, and in
the next superframe under that one's. -/
def State.stavePlace (s : State) (l i : Nat) : Nat × Nat :=
  let a := placeAt (bit (s.layoutCur l).qmap (i / 4)) (i / 4) (i % 4) s.chrono
  if a.1 * 125000 ≤ s.chrono then a else (a.1, if bit (s.layoutAt l a.1).qmap (i / 4) then i % 4 else 0)

/-- A cell takes its place in a superframe of its lane. -/
def State.staveSend (s : State) (l i : Nat) (place : Nat × Nat) (cell : List Byte) : State :=
  let x := s.lane l
  { s.putLane { x with placed := (place.1, positionCell (i / 4) place.2, cell) :: x.placed } with sent := .cell (36 * l + i) cell :: s.sent }

/-- The transmitter of lane `l` takes a cell of the port of place `i` (R189), by the layout of the superframe in which it leaves: in an
inactive place an IDLE cell goes instead; every cell of a full-slot port of a split position is counted as discarded, whether its quarter 0
is active or not (R210), and leaves an IDLE cell there; at the first cell number of a place that becomes active SEQ_RESYNC goes instead. A
position that is not split sends the cells of its full-slot port alone. In the gap after a step of the Chronograph cells are absent (R198). A
transmitter that sends nothing discards it (R181). -/
def State.staveCell (s : State) (l i : Nat) (cell : List Byte) : State :=
  let at_ := s.stavePlace l i
  let y := s.layoutAt l at_.1
  let split := bit y.qmap (i / 4)
  let seq := placeSequence split at_.1 at_.2
  let whole := split && i % 4 == 0 && (s.selCur (36 * l + i)).valid && (s.port (36 * l + i)).whole
  if !s.staveSends l ∨ at_.1 * 125000 < s.tim.superAfter then s
  else if !split ∧ i % 4 ≠ 0 then s.staveDrop l cell
  else if (s.freshAt l at_.1).contains i ∧ at_.2 = (if split then i % 4 else 0) then
    if whole then s.bump (Reg.LNQ_STX_DROP_COUNT l) 1 else s.staveDrop l cell
  else if whole then (s.bump (Reg.LNQ_STX_DROP_COUNT l) 1).staveSend l i at_ (controlCell l i 1 seq split)
  else if !y.active i then s.staveSend l i at_ (controlCell l i 1 seq split)
  else s.staveSend l i at_ (withSequence cell seq)

/-- A cell of an output leaves the fabric: to its Stave transmitter, else as it is. -/
def State.cellOut (s : State) (q : Nat) (cell : List Byte) : State :=
  if q / 36 < 128 ∧ s.laneMode (q / 36) ≠ 2 then
    if s.shutIn 0x11 (q / 36) then s.staveDrop (q / 36) cell else s.staveCell (q / 36) (q % 36) cell
  else { s with sent := .cell q cell :: s.sent }

/-- The port of quarter index `q` emits a cell; the send flows made from it take it, and the hash of an enabled and connected
external output. -/
def State.emitCell (s : State) (q : Nat) (bytes : List Byte) : State :=
  let s1 := ((s.cellOut q bytes).feedFlows q bytes).feedEncoders q bytes
  if decide (q / 4 < 1152) && s.outEnabled (q / 4) && (s.selCur q).valid then s1.hashCell (q / 4) (s.selCur q).gen bytes else s1

/-- The output bond that a port is a member of, with its place in it (R94). -/
def State.outBond (s : State) (n : Nat) : Option (BondRec × Nat) :=
  match s.bondOf n with
  | some b => if b.tx then (b.members.zipIdx.find? fun m => m.1 == n).map fun m => (b, m.2) else none
  | none => none

/-- Flag bits of an output cell: field, quarter, bond member, Landing (Table 4.1). -/
def State.outFlags (s : State) (q src : Nat) : Nat :=
  16 * b01 (s.port q).f2 + 4 * b01 (s.outSplit (q / 4)) + 2 * b01 (s.outBond (q / 4)).isSome + b01 (s.landingOut src).isSome

/-- A cell leaves a port: its slot, its place in its bond, and the card's frame count as its tag (Table 4.1; DEDUCED, log entry 86). -/
def State.emitAs (s : State) (q typeByte flags line index : Nat) (payload : List Byte) : State :=
  let member := ((s.outBond (q / 4)).map fun b => b.2).getD 0
  let tag := s.rd (Reg.EPH_GEN_FC_LO_F (s.rd (Reg.FAB_SEL_CUR_GEN q))) % 65536
  s.emitCell q (cellBytes typeByte flags (slotNo (s.outKey q)) line (4096 * member + index) tag payload)

/-- The port emits IDLE; a disconnected one knows no field. -/
def State.emitIdle (s : State) (q line index : Nat) : State :=
  s.emitAs q 0xC1 (if (s.selCur q).valid then s.outFlags q 0 else s.outFlags q 0 &&& 0xEF) line index []

/-- The port emits FILL. -/
def State.emitFill (s : State) (q line index : Nat) : State := s.emitAs q 0xC0 (s.outFlags q 0) line index []

/-- A substituted V cell: the echo's cell of the same index, or black when the echo has none (R103, R104). It is the first of a line where its
place is, and the first of its port's frame where its index is; it ends the line where the echo's cell does, or the raster's of `total`
cells (R91). -/
def State.emitEcho (s : State) (q src line index place total : Nat) : State :=
  let p := s.port q
  let s1 := if p.echo.isEmpty then
      s.raiseWithin (s.frameGap (s.rd (Reg.FAB_SEL_CUR_GEN q))) 0x2008 srcFabric (slotObject (s.outKey q)) else s
  let eol := match p.echo[index]? with
    | some e => e.1
    | none => decide (place + 1 = total)
  let flags := 128 * b01 (decide (index = 0) && decide (line = 0) && !p.f2) + 64 * b01 (decide (place = 0)) + 32 * b01 eol + 8 + s.outFlags q src
  s1.emitAs q 0 flags line index (((p.echo[index]?).map fun e => e.2).getD (blackBytes (256 * place)))

/-- A new line of a port begins: the line before it, emitted complete without substitution, becomes the echo (R103). -/
def OutPort.atLine (p : OutPort) (line : Nat) : OutPort :=
  if p.lineNo = line ∧ !(p.line.isEmpty ∧ p.filledFrom.isNone) then p
  else if p.line.isEmpty then { p with lineNo := line, filledFrom := none, ended := false }
  else if p.filledFrom.isNone then
    { p with lineNo := line, echo := p.line.take 40, line := [], ended := false, linesDone := p.linesDone + 1 }
  else { p with lineNo := line, line := [], filledFrom := none, ended := false, linesDone := p.linesDone + 1 }

/-- Emit the stored cell on a port and keep its payload for the echo. -/
def State.emitStored (s : State) (q : Nat) (c : DeckCell) : State :=
  let p := s.port q
  let eol := bit c.flags 5
  let s1 := (s.putPort { p with line := p.line ++ [(eol, c.payload)], ended := p.ended || eol }).deckMark c
  s1.emitAs q c.typeByte ((c.flags / 32 % 8) * 32 + 8 * b01 (bit c.flags 3) + (s1.outFlags q c.slot ||| 16 * b01 (bit c.flags 4))) c.line (c.index % 4096) c.payload

/-- From index `j` of its line on, a port emits from the echo; the slip is counted once (R103). -/
def State.slip (s : State) (q j : Nat) (bond : Bool) : State :=
  let p := s.port q
  let g := s.rd (Reg.FAB_SEL_CUR_GEN q)
  let s1 := (s.putPort { p with filledFrom := some j, frameClean := false }).bump (Reg.FAB_SLIP_COUNT (q / 4)) 1
  s1.raiseWithin (s.frameGap g) (if bond then 0x2007 else 0x2006) srcFabric (slotObject (s.outKey q))

/-- Does a slot deliver no cells: none ever, IDLE only, or none within a frame period and the longest residence (R92, R104)? -/
def State.silent (s : State) (k g : Nat) : Bool :=
  let r := s.source k
  r.idle || match r.lastCell with
    | none => true
    | some t => decide (t + s.genPeriod g + 32000 < s.now)

/-- A cell time at which a silent source leaves a port nothing to substitute: outside the raster that it keeps (R104). -/
def OutPort.beyond (p : OutPort) (line index : Nat) : Bool :=
  match p.raster with
  | some r => decide (r.1 ≤ line) || decide (r.2 ≤ index)
  | none => false

/-- A V cell time after the last V cell of its line: the echo, when a line is repeated from it, has no cell of the index (R105). -/
def OutPort.past (p : OutPort) (index : Nat) : Bool :=
  if p.filledFrom.isSome then !p.echo.isEmpty && decide (p.echo.length ≤ index) else p.ended

/-- A substituted cell takes its place in the line of a port. -/
def OutPort.fill (p : OutPort) (j : Nat) : OutPort := { p with filledFrom := some (p.filledFrom.getD j), frameClean := false, line := p.line ++ [(false, [])] }

/-- A plain port reads the V cell of a line at an index. -/
def State.readV (s : State) (q line index : Nat) : State :=
  let s0 := s.putPort ((s.port q).atLine line)
  let x := s.selCur q
  let src := s.through x.src x.gen
  let p := s0.port q
  let total := (p.raster.map fun r => r.2).getD 0
  if p.past index then s0.emitFill q line index
  else if p.filledFrom.isSome then (s0.putPort (p.fill index)).emitEcho q src line index index total
  else
    match s0.portFind q src 0 line index with
    | some c => s0.emitStored q c
    | none =>
      let quiet := s.silent src x.gen
      if quiet ∧ p.raster.isNone then s0.emitIdle q line index
      else if quiet ∧ p.beyond line index then s0.emitFill q line index
      else
        let s1 := s0.slip q index false
        (s1.putPort ((s1.port q).fill index)).emitEcho q src line index index total

/-- The members of an output bond, all at the same line, read the V cells of bond indices `n × index …` in step (R105); its source is silent when no member of it
delivers cells (R104). `i` counts the
members, `from_` is the bond index from which the line is filled; `b` is the bond, `total` the cells of a line of its raster. -/
def State.readBond (s : State) (b : BondRec) (line index total : Nat) : Nat → List Nat → Option Nat → State
  | _, [], _ => s
  | i, m :: ms, from_ =>
    let q := 4 * m
    let first := 4 * b.members.headD m
    let x := s.selCur q
    let src := s.through x.src x.gen
    let j := b.members.length * index + i
    let p := s.port q
    if (if from_.isSome then !p.echo.isEmpty && decide (p.echo.length ≤ index) else (s.port first).ended) then
      (s.emitFill q line index).readBond b line index total (i + 1) ms from_
    else
      match from_ with
      | some f => ((s.putPort (p.fill f)).emitEcho q src line index j total).readBond b line index total (i + 1) ms (some f)
      | none =>
        match s.deckFind src 0 line index with
        | some c =>
          let s1 := s.emitStored q c
          (s1.putPort { s1.port first with ended := (s1.port first).ended || bit c.flags 5 }).readBond b line index total (i + 1) ms none
        | none =>
          let quiet := b.members.all fun k => let y := s.selCur (4 * k); s.silent (s.through y.src y.gen) y.gen
          if quiet ∧ (s.port first).raster.isNone then (s.emitIdle q line index).readBond b line index total (i + 1) ms none
          else if quiet ∧ p.beyond line index then (s.emitFill q line index).readBond b line index total (i + 1) ms none
          else
            let s1 := s.slip first j true
            let s2 := b.members.foldl (fun t k => t.putPort { t.port (4 * k) with filledFrom := some j, frameClean := false }) s1
            ((s2.putPort ((s2.port q).fill j)).emitEcho q src line index j total).readBond b line index total (i + 1) ms (some j)

/-- Is a sample of an output's sinks due in the line period that its port is in, or in one before (R282)? -/
def State.audioDue (s : State) (k fs : Nat) (d : Nat × Int) : Bool := decide (s.evalInstant d.1 fs + 10000 ≤ (s.port (quarterIndex k)).periodAt)

/-- The rate of an output's sinks. -/
def State.outFs (s : State) (k : Nat) : Nat := if s.slotRate96 (fullSlot k) true then 96000 else 48000

/-- An output that emits IDLE sends no A cells: the samples whose line period this is go with none (R282). -/
def State.dropAudio (s : State) (k : Nat) : State :=
  (s.sinksOf k).foldl (fun t p =>
    if (t.sink p.1).due.isEmpty then t
    else t.putSink { t.sink p.1 with due := (t.sink p.1).due.filter fun d => !s.audioDue k (s.outFs k) d }) s

/-- Of the counts of samples that are due, the first and those that follow it without a gap, up to 5. -/
def runOfFive (counts : List Nat) : List Nat :=
  match counts with
  | [] => []
  | c :: r => let k0 := r.foldl min c; ((List.range 5).map fun i => k0 + i).takeWhile fun k => counts.contains k

/-- An A cell of an output: the samples of its sinks that were due by the start of the line period, up to 5 frames, under
the count of the first (R282). -/
def State.audioCell (s : State) (k : Nat) : Option (List Byte × State) :=
  let sinks := s.sinksOf k
  let counts := runOfFive (sinks.flatMap fun p => ((s.sink p.1).due.filter (s.audioDue k (s.outFs k))).map (·.1))
  match counts with
  | [] => none
  | k0 :: _ =>
    let mask := (sinks.map fun p => 2 ^ p.2).sum
    let frame := fun c => (List.range 16).flatMap fun e =>
      let v : Int := match sinks.find? fun p => p.2 == e with
        | none => 0
        | some p => (((s.sink p.1).due.find? fun d => d.1 == c).map (·.2)).getD 0
      beBytes 3 (toBits 24 v)
    let body := be64 k0 ++ be16 mask ++ be8 (b01 (s.slotRate96 (fullSlot k) true)) ++ be8 counts.length ++ zeros 4 ++ counts.flatMap frame
    let s1 := sinks.foldl (fun t p => t.putSink { t.sink p.1 with due := (t.sink p.1).due.filter fun d => !counts.contains d.1 }) s
    some (body, s1)

/-- A cell time of a port: a new line number begins a new line period now, in field 2 where the number falls back within a frame, and the
cell times of the frame are counted. -/
def State.periodOf (s : State) (q line : Nat) : State :=
  let p := s.port q
  if p.period = line ∧ p.count ≠ 0 then s.putPort { p with count := p.count + 1 }
  else s.putPort { p with period := line, periodAt := s.chrono, f2 := p.f2 || (decide (p.count ≠ 0) && decide (line < p.period)), count := p.count + 1 }

/-- A port reaches the cell time of a line, type and index (R96). Type: 0 V, 1 A, 2 X, 3 none. All A and X cells of a bond travel in its
member 0 (R94). -/
def State.outputRead (s0 : State) (q line index type : Nat) : State :=
  let s := s0.deckSweep.periodOf q line
  let x := s.selCur q
  let n := q / 4
  if !s.outEnabled n ∨ !x.valid ∨ (s.generator x.gen).stopped then (s.dropAudio (s.outKey q)).emitIdle q line index
  else
    let src := s.through x.src x.gen
    match type with
    | 0 =>
      match s.outBond n with
      | some (b, 0) =>
        (b.members.foldl (fun t m => t.putPort ((t.port (4 * m)).atLine line)) s).readBond b line index ((b.members.map fun m => ((s.port (4 * m)).raster.map fun r => r.2).getD 0).sum) 0 b.members
          (if (s.port q).lineNo = line then (s.port q).filledFrom else none)
      | some _ => s
      | none => s.readV q line index
    | 1 =>
      match if (s.outBond n).any fun b => b.2 != 0 then none else s.audioCell (s.outKey q) with
      | some (p, s1) => s1.emitAs q 0x40 (s.outFlags q src) line index p
      | none => s.emitFill q line index
    | 2 =>
      let p := s.port q
      match (if (p.lineNo = line ∧ p.filledFrom.isSome) ∨ (s.outBond n).any (fun b => b.2 != 0) then none else s.portFind q src 2 line index) with
      | some c => (s.deckMark c).emitAs q c.typeByte (s.outFlags q src ||| 16 * b01 (bit c.flags 4)) line index c.payload
      | none => s.emitFill q line index
    | _ => s.emitFill q line index

end Sys2Proof.Machine
end

