-- ==== Sys2Proof/Machine/Lanes.lean ====
section
/-!
DEFINITION. Lanes and Stave links (R154-R210): direction states and sleep, adaptation and the figure of merit, layouts,
superframes, and the message channel.
-/
namespace Sys2Proof.Machine

/-! ### Lane status -/

/-- Is bit `b` of LNQ_LSTAT set: 0 SIGDET, 1 CDR_LOCK, 2 ADAPT_DONE, 3 TX_READY, 4 RX_READY? -/
def State.lstat (s : State) (l b : Nat) : Bool := bit (s.rd (Reg.LNQ_LSTAT_BITS l)) b

/-- Give a bit of LNQ_LSTAT a value. -/
def State.setLstat (s : State) (l b : Nat) (v : Bool) : State :=
  if v then s.setBit (Reg.LNQ_LSTAT_BITS l) b else s.clrBit (Reg.LNQ_LSTAT_BITS l) b

/-- Change a lane's record. -/
def State.modLane (s : State) (l : Nat) (f : Lane → Lane) : State := s.putLane (f (s.lane l))

/-- Does a transmitter use PLL A (Stave) or PLL B (Ethernet): awake or in light sleep, and enabled (R156)? -/
def State.usesPll (s : State) (l : Nat) (b : Bool) : Bool :=
  s.flag (Reg.LNQ_LCFG_TX_EN l) && s.laneMode l == (if b then 2 else 1) &&
    (s.rd (Reg.LNQ_SLEEP_TX_STATE l) != 2 || (s.lane l).tx.target != 2)

/-- The lock field of a quad's PLL. -/
def pllLock (quad : Nat) (b : Bool) : FieldRef := if b then Reg.LNQ_QSTAT_PLLB_LOCK quad else Reg.LNQ_QSTAT_PLLA_LOCK quad

/-- A PLL that no transmitter of the quad uses stops (R156); it is no longer one in use that has lost lock (R174). -/
def State.refreshPll (s : State) (quad : Nat) : State :=
  [false, true].foldl (fun t b =>
    if (List.range 4).any fun i => t.usesPll (4 * quad + i) b then t
    else (t.wr (pllLock quad b) 0).endCause 0x2306 (srcLane (4 * quad)) (quad + 65536 * b01 b)) s

/-- A transmitter is READY when it is enabled and awake and its PLL is locked (R168). -/
def State.txShouldBeReady (s : State) (l : Nat) : Bool :=
  s.flag (Reg.LNQ_LCFG_TX_EN l) && s.laneMode l != 0 && s.rd (Reg.LNQ_SLEEP_TX_STATE l) == 0 && (s.lane l).tx.endsAt.isNone &&
    s.flag (pllLock (l / 4) (s.laneMode l == 2))

/-- A receiver is READY when it is enabled and awake, its CDR is locked and ADAPT_DONE is set (R168). -/
def State.rxShouldBeReady (s : State) (l : Nat) : Bool :=
  s.flag (Reg.LNQ_LCFG_RX_EN l) && s.laneMode l != 0 && s.rd (Reg.LNQ_SLEEP_RX_STATE l) == 0 && (s.lane l).rx.endsAt.isNone &&
    s.lstat l 1 && s.lstat l 2

/-! ### The Stave receiver's state (Table 7.4) -/

/-- The message channel of a lane is reset: credits and messages in flight are lost (R203, R205). -/
def State.resetMessages (s : State) (l : Nat) : State :=
  let s1 := s.modLane l fun x => { x with
    msgSent := 0, creditsIn := 0, creditsOut := 0, msgSeq := 0, msgParts := [], msgQueue := [], msgOpen := false }
  (s1.wr (Reg.LNQ_STV_MSG_CREDITS l) 0).wr (Reg.LNQ_STV_MSG_HELD l) 0

/-- The layout that a lane receives. -/
def State.layoutIn (s : State) (l : Nat) : Layout :=
  ⟨s.rd (Reg.LNQ_SRX_STAT_SLOTS l), s.rd (Reg.LNQ_SRX_QACT_HI_QMAP l), s.rd64 (Reg.LNQ_SRX_QACT_LO_Q l) (Reg.LNQ_SRX_QACT_HI_Q l)⟩

/-- The slot of place `i` of a lane under a layout. -/
def Layout.slotAt (y : Layout) (l i : Nat) : Nat := if bit y.qmap (i / 4) then 0x10000 + 36 * l + i else 9 * l + i / 4

/-- The Stave receiver goes to a state; leaving UP raises STV_LINK_DOWN, delivers slot-idle for every active place, resets the message
channel and ends the time samples (R205); Path delay is 0 again (R196). The cause of STV_LINK_DOWN ends with the first header that shows RDI
clear in UP (R207, `State.takeHeader`). -/
def State.staveState (s : State) (l st : Nat) : State :=
  let old := s.rd (Reg.LNQ_SRX_STAT_STATE l)
  let s1 := (s.wr (Reg.LNQ_SRX_STAT_STATE l) st).modLane l fun x => { x with missed := 0, found := 0, good := if st = 3 then 1 else 0, fecRun := 0, lastBlock := if st = 0 then none else x.lastBlock }
  if old = 3 ∧ st ≠ 3 then
    let y := s1.layoutIn l
    let s2 := ((s1.resetMessages l).wr (Reg.LNQ_STV_PATH_DELAY l) 0).modLane l fun x => { x with farS0 := none, echoes := [], lastK := none }
    ((y.places.filter y.active).foldl (fun t i => t.slotIdle (y.slotAt l i)) s2).raise 0x2401 (srcLane l) l
  else if st = 3 ∧ old ≠ 3 then
    let s2 := (s1.resetMessages l).modLane l fun x => { x with farS0 := none, echoes := [] }
    (List.range 9).foldl (fun t p => (List.range 4).foldl (fun u q => u.beginMeasure (0x10000 + 4 * (9 * l + p) + q)) (t.beginMeasure (9 * l + p))) s2
  else s1

/-- The superframe on a lane's line ends after `n` symbols of it (R182, R198). -/
def State.endLine (s : State) (l n : Nat) : State :=
  let x := s.lane l
  match x.onLine with
  | none => s
  | some (k, area) =>
    let r : LineRec := ⟨k, s.flag (Reg.LNQ_LCFG_TX_PRECODE l), s.flag (Reg.LNQ_LCFG_TX_INV l), x.restart, area, (x.placed.filter fun c => c.1 == k).map fun c => c.2, s.layoutCur l, n⟩
    { s.putLane { x with onLine := none, placed := x.placed.filter fun c => decide (k < c.1), restart := false } with sent := .line l r :: s.sent }

/-- Symbols of the superframe on a lane's line that have left by the Chronograph time `t`: 64 each ns from its S0 on. -/
def State.lineSent (s : State) (l t : Nat) : Nat := min 8000000 (64 * (t - (((s.lane l).onLine.map fun x => x.1).getD 0) * 125000))

/-- The Chronograph steps from `old` to `new`: a transmitter of superframes ends the one in progress, and sends repeated alignment blocks until
the first S0 of the stepped grid that lies at least 125 µs after the last one sent (R198). -/
def State.staveStep (s : State) (old new l : Nat) : State :=
  if !s.staveSends l then s
  else
    let s1 := s.endLine l (s.lineSent l old)
    let next := (new + 125000 - old % 125000 + 124999) / 125000 * 125000
    { s1 with sent := .gap l (64 * (next - new)) :: s1.sent }

/-- What a lane holds in Chronograph time follows a step from `old` to `new`: the S0 it has sent belong to the grid that has ended, the arrival of
the far end's last S0 moves, and a layout latched for an S0 that is not sent is put forward again unless a later one is or AUTO makes one (R192, R196, R198). -/
def Lane.stepped (x : Lane) (auto : Bool) (old new : Nat) : Lane :=
  { x with
    sentS0 := [], echoes := [], farS0 := x.farS0.map fun t => t + new * 256 - old * 256
    forward := if auto then x.forward else x.forward.orElse fun _ => x.latched, latched := none }

/-- A READY transmitter with a test pattern sends it in place of its traffic (R180, R181). -/
def State.sendPattern (s : State) (l : Nat) : State :=
  if bit (s.rd (Reg.LNQ_LSTAT_BITS l)) 3 ∧ s.rd (Reg.LNQ_PRBS_TX_PAT l) ≠ 0 then { s with sent := .pattern l (s.rd (Reg.LNQ_PRBS_TX_PAT l)) :: s.sent }
  else s

/-- TX_READY takes a value: with its fall the superframe on the line ends, and from its rise on precoding starts anew (R159). -/
def State.setTxReady (s : State) (l : Nat) (v : Bool) : State :=
  let was := s.lstat l 3
  let s1 := s.setLstat l 3 v
  if v && !was then (s1.modLane l fun x => { x with onLine := none, placed := [], restart := true }).sendPattern l
  else if was && !v then s1.endLine l (s1.lineSent l s1.chrono) else s1

/-- Bring TX_READY, RX_READY and the Stave state into line with what they depend on. -/
def State.refreshLane (s : State) (l : Nat) : State :=
  let s0 := s.refreshPll (l / 4)
  let s1 := s0.setTxReady l (s0.txShouldBeReady l)
  let ready := s1.rxShouldBeReady l
  let was := s1.lstat l 4
  let s2 := s1.setLstat l 4 ready
  let s3 := if ready && !was then s2.modLane l fun x => { x with rxReadySince := some s.now } else s2
  let st := s3.rd (Reg.LNQ_SRX_STAT_STATE l)
  if s3.laneMode l = 1 ∧ ready ∧ st = 0 then s3.staveState l 1
  else if !(s3.laneMode l = 1 ∧ ready) ∧ st ≠ 0 then s3.staveState l 0
  else s3

/-- Refresh the four lanes of a quad. -/
def State.refreshQuad (s : State) (quad : Nat) : State := (List.range 4).foldl (fun t i => t.refreshLane (4 * quad + i)) s

/-! ### Sleep (R168-R171, Table 6.4) -/

/-- Time of a change between states of a direction, in ns. `restart`: the quad's PLL must restart. -/
def sleepTime (tx restart : Bool) (from_ goal : Nat) : Nat :=
  let exit : Nat := if tx then (if from_ = 2 then (if restart then 50000 else 5000) else 500) else (if from_ = 2 then 150000 else 2000)
  match from_, goal with
  | 2, 1 => exit + 50
  | _, 0 => exit
  | _, 1 => 50
  | _, _ => 1000

/-- A receiver that goes to sleep has no cause of LN_LOS or LN_CDR_UNLOCK, which are an awake one's (R174); in deep sleep it keeps no CDR
lock, and its FOM reads 0 (R164, R168). -/
def State.rxAsleep (s : State) (l goal : Nat) : State :=
  if goal = 0 then s
  else
    let s1 := (s.endCause 0x2301 (srcLane l) l).endCause 0x2302 (srcLane l) l
    if goal = 2 then (s1.setLstat l 1 false).wr (Reg.LNQ_FOM_FOM l) 0 else s1

/-- Begin a change of a direction's state, or hold it until the one in progress ends (R171). -/
def State.requestSleep (s : State) (l : Nat) (tx : Bool) (goal : Nat) : State :=
  let x := s.lane l
  let d := if tx then x.tx else x.rx
  let cur := s.rd (if tx then Reg.LNQ_SLEEP_TX_STATE l else Reg.LNQ_SLEEP_RX_STATE l)
  let put := fun (t : State) (y : LaneDir) => t.modLane l fun z => if tx then { z with tx := y } else { z with rx := y }
  if d.endsAt.isSome then put s { d with held := some goal }
  else if cur = goal then s
  else
    let restart := tx && !s.flag (pllLock (l / 4) (s.laneMode l == 2))
    let s1 := put s ⟨goal, some (s.now + sleepTime tx restart cur goal), none⟩
    (if tx then s1 else s1.rxAsleep l goal).refreshLane l

/-- Active slots of a lane in a direction: those that a connection, bond or flow uses (R70), in quarter units, under the split that will be
in force (R194). -/
def State.laneUnits (s : State) (l : Nat) (tx : Bool) : Nat :=
  let named : List Nat :=
    if tx then (s.connected.filter fun q => q / 36 == l).map s.outKeyNext
    else (s.connected.map fun q => (s.selCur q).src) ++ s.fab.landing.map (·.source)
  let flows := (s.net.flows.filter fun f => f.tx == tx && f.onSlot).map (·.slotKey)
  let bonds := (s.fab.bonds.filter fun b => if tx then b.tx else b.rx).flatMap (·.members)
  let mine := ((named ++ flows ++ bonds).filter fun k => fullSlot k / 9 == l && decide (fullSlot k < 1152)).eraseDups
  (mine.map fun k => if isQuarter k then 1 else 4).sum

/-- Does a pending route use a slot of a lane? -/
def State.lanePending (s : State) (l : Nat) : Bool :=
  s.eph.takes.any fun t => t.routes.any fun r =>
    r.valid && ((s.members r.bond r.out) ++ s.members r.bond r.source).any fun k => decide (fullSlot k < 1152) && fullSlot k / 9 == l

/-- Does a lane carry active slots in either direction, or will it? -/
def State.laneActive (s : State) (l : Nat) : Bool := decide (0 < s.laneUnits l true + s.laneUnits l false) || s.lanePending l

/-- Is a lane a partner lane while twin operation is enabled? -/
def State.partnerLane (s : State) (l : Nat) : Bool := s.flag Reg.TWN_CTL_EN && (l == s.twn.lane0 || l == s.twn.lane1)

/-! ### Equalisation (R160-R167) -/

/-- Derive c(0) from the side taps; a set that would leave it below 32 has it held there, with the side taps scaled down
in proportion, each rounded toward zero, so that the sum of magnitudes may stay below 64 (DESIGN CHOICE, log entry 116). -/
def State.deriveC0 (s : State) (l : Nat) : State :=
  let a := s.rd (Reg.LNQ_TXFFE_CM3 l)
  let b := s.rd (Reg.LNQ_TXFFE_CM2 l)
  let c := s.rd (Reg.LNQ_TXFFE_CM1 l)
  let d := s.rd (Reg.LNQ_TXFFE_CP1 l)
  let n := a + b + c + d
  if n ≤ 32 then s.wr (Reg.LNQ_TXFFE_C0 l) (64 - n)
  else
    let k := fun x => x * 32 / n
    ((((s.wr (Reg.LNQ_TXFFE_CM3 l) (k a)).wr (Reg.LNQ_TXFFE_CM2 l) (k b)).wr (Reg.LNQ_TXFFE_CM1 l) (k c)).wr
      (Reg.LNQ_TXFFE_CP1 l) (k d)).wr (Reg.LNQ_TXFFE_C0 l) 32

/-- Adaptation starts from cold: reset coefficients, none at a limit (R174), CDR lock lost (R167). -/
def State.coldRx (s : State) (l : Nat) : State :=
  let s1 := ((s.wr (Reg.LNQ_RXCTLE_PEAK l) 24).wr (Reg.LNQ_DFE_TAP l) 0).wr (Reg.LNQ_FOM_FOM l) 0
  let s2 := s1.modLane l fun x => { x with
    ffe := (Lane.reset l).ffe, foms := [], runs := [0, 0, 0, 0], step := none, barred := [], limitRuns := (Lane.reset l).limitRuns, stored := false }
  (((s2.setLstat l 1 false).setLstat l 2 false).endCause 0x2305 (srcLane l) l).refreshLane l

/-- A receiver that is disabled or changes its mode has no CDR lock to have lost, and when disabled no signal either: the causes end (R174). -/
def State.rxCauses (s : State) (l : Nat) : State :=
  let s1 := s.endCause 0x2302 (srcLane l) l
  if s.laneMode l = 0 ∨ !s.flag (Reg.LNQ_LCFG_RX_EN l) then s1.endCause 0x2301 (srcLane l) l else s1

/-- The FOM of a window whose mean square error is `e` in units of 2^-20 (R164): floor(80 × log10(5 / E)), 0-255, as
the greatest n with 10^n × e^80 ≤ (5 × 2^20)^80. -/
def fomOf (e : Nat) : Nat :=
  (List.range 256).foldl (fun b n => if 10 ^ n * e ^ 80 ≤ (5 * 2 ^ 20) ^ 80 then n else b) 0

/-- Raise a lane event, once per window of 2^24 symbols of its lane: 262.144 µs in Stave mode, 315.802 µs in Ethernet mode (R164, R174). -/
def State.laneEvent (s : State) (code l : Nat) : State := s.raiseWithin (if s.laneMode l = 2 then 315802 else 262144) code (srcLane l) l

/-- Windows in a row below a threshold, or at or above it + 4 (R165): alarm when four are below, its end when four are
at or above. -/
def State.fomThreshold (s : State) (l code thr below above fom : Nat) : State × Nat × Nat :=
  let b := if fom < thr then below + 1 else 0
  let a := if thr + 4 ≤ fom then above + 1 else 0
  let s1 := if b = 4 then s.laneEvent code l else s
  (if 4 ≤ a then s1.endCause code (srcLane l) l else s1, b, a)

/-- The greatest magnitude of the DFE tap (R163). -/
def State.dfeLimit (s : State) (l : Nat) : Nat := if s.flag (Reg.LNQ_LCFG_RX_PRECODE l) then 128 else 255

/-- With precoding enabled, the DFE tap is held within its smaller range (R163). -/
def State.clampDfe (s : State) (l : Nat) : State :=
  let lim : Int := s.dfeLimit l
  s.wrInt (Reg.LNQ_DFE_TAP l) (max (-lim) (min lim (s.rdInt (Reg.LNQ_DFE_TAP l))))

/-- Which coefficients of a receiver stand at the limit of their range: CTLE, DFE, and the FFE taps but the main cursor, which is fixed
(R163, R167). -/
def State.limits (s : State) (l : Nat) : List Bool :=
  let p := s.rd (Reg.LNQ_RXCTLE_PEAK l)
  (p == 0 || p == 48) :: decide (s.dfeLimit l ≤ (s.rdInt (Reg.LNQ_DFE_TAP l)).natAbs) ::
    (s.lane l).ffe.zipIdx.map fun c => c.2 != 4 && (c.1 == 511 || c.1 == -512)

/-! ### Layouts (R188-R193) -/

/-- The layout that ranger firmware keeps by itself under AUTO: positions and quarters whose output port is connected,
or whose connecting record is loaded (R193). -/
def State.autoLayout (s : State) (l qmap : Nat) : Layout :=
  let on := fun (q : Nat) => (s.selCur q).valid || (s.flag (Reg.FAB_SEL_SHD_ARM q) && (s.selShd q).valid)
  let slots := ((List.range 9).filter fun p =>
    if bit qmap p then (List.range 4).any fun i => on (4 * (9 * l + p) + i) else on (4 * (9 * l + p))).map fun p => 2 ^ p
  let qact := ((List.range 36).filter fun i => bit qmap (i / 4) && on (36 * l + i)).map fun i => 2 ^ i
  ⟨slots.sum, qmap, qact.sum⟩

/-! ### The message channel (R200-R204) -/

/-- Credits available to send on a lane. -/
def Lane.credits (x : Lane) : Nat := if x.msgOpen then 32 - (x.msgSent + 256 - x.creditsIn) % 256 else 0

/-- Priority of a channel: twin, Cyxel, I/O card management (R202). -/
def channelRank (c : Nat) : Nat := if c = 2 then 0 else if c = 1 then 1 else 2

/-- The first waiting message of the best priority that may take a credit. -/
def Lane.nextMessage (x : Lane) : Option StaveMsg :=
  let ok := x.msgQueue.filter fun m => m.channel == 2 || decide (4 < x.credits)
  if x.credits = 0 then none
  else ok.foldl (fun b m => match b with
    | none => some m
    | some y => if channelRank m.channel < channelRank y.channel then some m else some y) none

/-- One message cell: header of Table 7.3 and payload. -/
def messageCell (m : StaveMsg) (seq : Nat) : List Byte :=
  let body := m.bytes.take 256
  let fl := b01 (decide (m.segment = 0)) + 2 * b01 (decide (m.bytes.length ≤ 256))
  let h := be8 m.channel ++ be8 fl ++ be16 body.length ++ be32 seq ++ be32 m.id ++ be16 m.segment ++ be8 0
  h ++ be8 (crc8 h).toNat ++ body ++ zeros (256 - body.length)

/-- Send at most `n` message cells of a superframe. Message sequence counts the cell that carries it: the first after link UP has 1 (DESIGN
CHOICE, log entry 117). -/
def Lane.sendCells (x : Lane) : Nat → Lane × List (List Byte)
  | 0 => (x, [])
  | n + 1 =>
    match x.nextMessage with
    | none => (x, [])
    | some m =>
      let cell := messageCell m (x.msgSent + 1)
      let rest := m.bytes.drop 256
      let q := if rest.isEmpty then x.msgQueue.erase m
        else x.msgQueue.map fun y => if y = m then { m with segment := m.segment + 1, bytes := rest } else y
      let r := Lane.sendCells { x with msgQueue := q, msgSent := x.msgSent + 1 } n
      (r.1, cell :: r.2)

/-- Send a message to the partner card: on whichever partner lane is UP and first holds a credit (R423). Kind 0 is a
mirrored Cyxel packet on channel 0x01; the others are twin messages on channel 0x02. -/
def State.partnerSend (s : State) (kind : Nat) (bytes : List Byte) : State :=
  let s1 := { s with sent := .twin kind bytes :: s.sent }
  let up := [s.twn.lane0, s.twn.lane1].filter fun l => s.rd (Reg.LNQ_SRX_STAT_STATE l) == 3
  match (match up.find? fun l => decide (0 < (s.lane l).credits) with
    | some l => some l
    | none => up.head?) with
  | none => s1
  | some l => s1.modLane l fun x => { x with
      msgQueue := x.msgQueue ++ [⟨if kind = 0 then 1 else 2, x.nextMsg, 0, bytes⟩], nextMsg := (x.nextMsg + 1) % 2 ^ 32 }

/-- Replies and events of Cyxel toward the twin go on the message channel of a partner lane that is UP, as messages of channel 0x01 (R34, R200). -/
def State.takeLinkBox (s : State) (l : Nat) : State :=
  if s.cyx.linkBox.isEmpty ∨ !s.partnerLane l ∨ s.rd (Reg.LNQ_SRX_STAT_STATE l) ≠ 3 then s
  else
    let s1 := s.modLane l fun x => s.cyx.linkBox.foldl (fun (y : Lane) b =>
      { y with msgQueue := y.msgQueue ++ [⟨1, y.nextMsg, 0, b⟩], nextMsg := (y.nextMsg + 1) % 2 ^ 32 }) x
    { s1 with cyx := { s1.cyx with linkBox := [] } }

end Sys2Proof.Machine
end

