-- ==== Sys2Proof/Machine/Ether.lean ====
section
/-!
DEFINITION. Ethernet ports, host rings and MACsec (chapter 08): the transmit queues, descriptors, protection, and what
the operations on them do.
-/
namespace Sys2Proof.Machine

/-! ### Ports (R211-R214) -/

/-- Store a port's record, and keep the STOPPED bits of NET_STAT. -/
def State.putNetPort (s : State) (x : PortRec) : State :=
  ({ s with net := { s.net with ports := x :: s.net.ports.filter fun y => y.p != x.p } }).wr (Reg.NET_STAT_STOPPED x.p)
    (((List.range 6).filter fun q => x.pauses.any fun a => a.queue == q).map fun q => 2 ^ q).sum

/-- Change a port's record. -/
def State.modNetPort (s : State) (p : Nat) (f : PortRec → PortRec) : State := s.putNetPort (f (s.netPort p))

/-- The MACsec settings of a port return to their defaults: no checks, no offset, no replay window, no SAs (R212). -/
def State.defaultMacsec (s : State) (p : Nat) : State := s.modNetPort p fun x => { x with validate := 0, confOffset := 0, replayWindow := 0, assocs := [] }

/-- Lanes of a port mode (Table 8.1). -/
def modeLanes (m : Nat) : Nat := ([0, 1, 1, 2, 4] : List Nat).getD m 0

/-- Rate of a port in Gbit/s; management ports run at 1 (R233). -/
def State.portRate (s : State) (p : Nat) : Nat :=
  if 64 ≤ p then 1 else ([0, 100, 100, 200, 400] : List Nat).getD (s.rd (Reg.NET_CTL_MODE p)) 0

/-- Lanes of a media port. -/
def State.portLanes (s : State) (p : Nat) : Nat := if 64 ≤ p then 0 else ([0, 1, 1, 2, 4] : List Nat).getD (s.rd (Reg.NET_CTL_MODE p)) 0

/-- Does the transmitter of an Ethernet lane send the frames of its port: in Ethernet mode and READY, so enabled and awake with its PLL
locked, without a test pattern in place of its traffic and without far-end loop (R168, R174, R180, R181)? -/
def State.laneDrives (s : State) (l : Nat) : Bool :=
  s.laneMode l == 2 && s.lstat l 3 && s.rd (Reg.LNQ_PRBS_TX_PAT l) == 0 && s.rd (Reg.LNQ_LCFG_LOOP l) != 2

/-- Does the receiver of an Ethernet lane hear: in Ethernet mode, enabled and awake, with its CDR locked (R167, R168, R181)? -/
def State.laneHears (s : State) (l : Nat) : Bool :=
  s.laneMode l == 2 && s.flag (Reg.LNQ_LCFG_RX_EN l) && s.rd (Reg.LNQ_SLEEP_RX_STATE l) == 0 && s.lstat l 1

/-- Does a frame leave the balls of a port? -/
def State.portDrives (s : State) (p : Nat) : Bool := (List.range (s.portLanes p)).all fun i => s.laneDrives (p + i)

/-- Does a frame that arrives at the balls of a port reach its MAC: every receiver hears, and under near-end loop only what the port itself
has sent (Table 6.8; log entry 100)? -/
def State.portHears (s : State) (p : Nat) (bytes : List Byte) : Bool :=
  (List.range (s.portLanes p)).all fun i =>
    s.laneHears (p + i) && (s.rd (Reg.LNQ_LCFG_LOOP (p + i)) != 1 || s.sent.contains (.frame p bytes))

/-- Under far-end loop the transmitters of a port send what its receivers recover (Table 6.8; log entry 100). -/
def State.portLoops (s : State) (p : Nat) (bytes : List Byte) : State :=
  if 0 < s.portLanes p ∧ (List.range (s.portLanes p)).all fun i => s.rd (Reg.LNQ_LCFG_LOOP (p + i)) == 2 && s.lstat (p + i) 3 then
    { s with sent := .frame p bytes :: s.sent }
  else s

/-- Is a formed media port enabled, or a management port? -/
def State.portFormed (s : State) (p : Nat) : Bool := decide (p < 64) && decide (0 < s.portRate p)

/-- Is a port's unit on: its MAC's domain, and no Firebreak closed on it (R11)? -/
def State.portOn (s : State) (p : Nat) : Bool :=
  if p < 64 then s.domOn 39 && !s.shutIn 0x13 p else decide (p < 66) && s.domOn 1 && !s.shutIn 0x14 (p - 64)

/-- Is a port's link up? -/
def State.linkUp (s : State) (p : Nat) : Bool := s.flag (Reg.NET_STAT_LINK p)

/-- Does a MAC accept a destination address (R214)? -/
def macAccepts (p : Nat) (b : List Byte) : Bool := u48 b 0 == macAddress p || bit (u8 b 0) 0

/-- Greatest frame of a port, FCS included (R215, R233). -/
def maxFrame (p : Nat) : Nat := if p < 64 then 9216 else 9018

/-! ### MACsec (R228-R232) -/

/-- Is an SA's key usable: bound to the slot's generation and accepted for MACsec? -/
def State.saUsable (s : State) (a : SecAssoc) : Bool := s.boundOk a.slot a.gen .macsec

/-- The IV of XPN: SSCI and packet number, XORed with the salt (PRESUMED: IEEE 802.1AE, log entry 31). -/
def xpnIv (ssci pn : Nat) (salt : List Byte) : List Byte :=
  ((be32 ssci ++ be64 pn).zip salt).map fun x => x.1 ^^^ x.2

/-- Frames that MACsec leaves unprotected: EAPOL, and PTP with PTP_CLEAR (R232). -/
def State.macsecClear (s : State) (p : Nat) (b : List Byte) : Bool :=
  (headers b).etype == 0x888E || (isPtp b && s.flag (Reg.NET_CTL_PTP_CLEAR p))

/-- Does MACsec act on a port's frames: enabled, or disabled with SAs installed (R246)? -/
def State.macsecActs (s : State) (p : Nat) : Bool :=
  decide (p < 64) && (s.flag (Reg.NET_CTL_MACSEC_EN p) || !(s.netPort p).assocs.isEmpty)

/-- The index of an SA of its port in events: direction, channel and AN (DESIGN CHOICE, log entry 107). The Source of the event names the
port. -/
def saObject (a : SecAssoc) : Nat := b01 a.rx * 64 + a.channel * 4 + a.an

/-- The packet number of a transmit SA has come from `before` to where it stands: when that takes it to 2^64 − 2^32 or past it, MSEC_PN_NEAR
(R230). -/
def State.pnNear (s : State) (p : Nat) (a : SecAssoc) (before : Nat) : State :=
  if before < 2 ^ 64 - 2 ^ 32 ∧ 2 ^ 64 - 2 ^ 32 ≤ a.pn then s.raise 0x2508 (srcPort p) (saObject a) else s

/-- Replace an SA of a port. -/
def State.putAssoc (s : State) (p : Nat) (a : SecAssoc) : State :=
  s.modNetPort p fun x => { x with assocs := x.assocs.map fun y =>
    if y.rx == a.rx && y.channel == a.channel && y.an == a.an then a else y }

/-- Protect a frame: SecTAG with SCI after the addresses, and ICV (PRESUMED: IEEE 802.1AE, log entry 31). -/
def State.protect (s : State) (p : Nat) (a : SecAssoc) (b : List Byte) : List Byte :=
  let off := (s.netPort p).confOffset
  let tag := be16 0x88E5 ++ be8 (0x2C + a.an) ++ be8 (if b.length - 12 < 48 then b.length - 12 else 0) ++ be32 a.pn ++ be64 a.sci
  let user := b.drop 12
  b.take 12 ++ tag ++ user.take off ++ Config.gcmSeal (s.slot a.slot).key
    (xpnIv (if s.sideB then a.ssciB else a.ssciA) a.pn a.salt) (b.take 12 ++ tag ++ user.take off) (user.drop off)

/-- What MACsec makes of a frame to send: the frame as it leaves, or none with the descriptor error of its drop. -/
def State.macsecSend (s : State) (p : Nat) (b : List Byte) : State × Option (List Byte) :=
  if !s.macsecActs p ∨ s.macsecClear p b then (s, some b)
  else if !s.flag (Reg.NET_CTL_MACSEC_EN p) then (s.bump (Reg.NET_MSEC_KEY_DROP_COUNT p) 1, none)
  else
    match (s.netPort p).assocs.find? fun a => !a.rx && a.active with
    | none => (s.bump (Reg.NET_MSEC_KEY_DROP_COUNT p) 1, none)
    | some a =>
      if !s.saUsable a then ((s.bump (Reg.NET_MSEC_KEY_DROP_COUNT p) 1).raise 0x250A (srcPort p) (saObject a), none)
      else if 2 ^ 64 - 1 ≤ a.pn then ((s.bump (Reg.NET_MSEC_KEY_DROP_COUNT p) 1).raise 0x2509 (srcPort p) (saObject a), none)
      else
        let s1 := s.putAssoc p { a with pn := a.pn + 1 }
        ((s1.pnNear p { a with pn := a.pn + 1 } a.pn), some (s.protect p a b))

/-- The full packet number of a received frame from its low 32 bits (PRESUMED: IEEE 802.1AE, log entry 31). -/
def xpnRecover (lowest low : Nat) : Nat :=
  let hi := lowest / 2 ^ 32
  if bit lowest 31 && !bit low 31 then (hi + 1) * 2 ^ 32 + low else hi * 2 ^ 32 + low

/-- What MACsec makes of a received frame (without FCS): none for a drop, else the frame, whether it was verified, and
whether it failed its check in Check mode. -/
def State.macsecTake (s : State) (p : Nat) (b : List Byte) : State × Option (List Byte × Bool × Bool) :=
  let x := s.netPort p
  let reject := (s.bump (Reg.NET_MSEC_RX_REJECT_COUNT p) 1).raise 0x250B (srcPort p) p
  if !s.macsecActs p ∨ (s.macsecClear p b ∧ u16 b 12 ≠ 0x88E5) then (s, some (b, false, false))
  else if !s.flag (Reg.NET_CTL_MACSEC_EN p) then (s.bump (Reg.NET_MSEC_KEY_DROP_COUNT p) 1, none)
  else if u16 b 12 ≠ 0x88E5 then
    if x.validate = 2 then (reject, none) else (s, some (b, false, false))
  else
    match x.assocs.find? fun a => a.rx && a.an == u8 b 14 % 4 && a.sci == u64 b 20 with
    | none => if x.validate = 2 then (reject, none) else (s, some (b, false, x.validate == 1))
    | some a =>
      if !s.saUsable a then ((s.bump (Reg.NET_MSEC_KEY_DROP_COUNT p) 1).raise 0x250A (srcPort p) (saObject a), none)
      else
        let pn := xpnRecover a.pn (u32 b 16)
        let body := b.drop 28
        let open_ := Config.gcmOpen (s.slot a.slot).key (xpnIv a.ssciA pn a.salt) (b.take (28 + x.confOffset)) (body.drop x.confOffset)
        match open_ with
        | some plain =>
          let clear := b.take 12 ++ body.take x.confOffset ++ plain
          if a.pn ≤ pn then
            (s.putAssoc p { a with pn := max a.pn (pn + 1 - x.replayWindow) }, some (clear, true, false))
          else if x.validate = 2 then (reject, none) else (s, some (clear, false, x.validate == 1))
        | none => if x.validate = 2 then (reject, none) else (s, some (b, false, x.validate == 1))

/-! ### Host rings (R224-R227) -/

/-- Entries of ring block `k` of a port; 0 when disabled. -/
def State.ringEntries (s : State) (p k : Nat) : Nat :=
  let l := s.rd (Reg.NET_RING_SIZE_LOG2 p k)
  if 4 ≤ l ∧ l ≤ 12 then 2 ^ l else 0

/-- Base address of a ring block. -/
def State.ringBase (s : State) (p k : Nat) : Nat := s.rd64 (Reg.NET_RING_BASE_LO_ADDR p k) (Reg.NET_RING_BASE_HI_ADDR p k)

/-- Is a ring usable: enabled, and in SRAM or in a DRAM group that is READY (R224)? -/
def State.ringUsable (s : State) (p k : Nat) : Bool :=
  decide (0 < s.ringEntries p k) && s.memoryUsable (s.ringBase p k) (16 * s.ringEntries p k)

/-- Descriptors of a ring that host software has handed over. -/
def State.ringPosted (s : State) (p k : Nat) : Nat :=
  let n := s.ringEntries p k
  if n = 0 then 0 else (s.rd (Reg.NET_RING_PI_IDX p k) + n - s.rd (Reg.NET_RING_CI_IDX p k) % n) % n

/-- Address of descriptor `i` of a ring. -/
def State.descAt (s : State) (p k i : Nat) : Nat := s.ringBase p k + 16 * (i % max 1 (s.ringEntries p k))

/-- Advance the consumer index of a ring. -/
def State.ringAdvance (s : State) (p k n : Nat) : State :=
  s.wr (Reg.NET_RING_CI_IDX p k) ((s.rd (Reg.NET_RING_CI_IDX p k) + n) % max 1 (s.ringEntries p k))

/-- Number of descriptors of the chain at `i`, of at most `n` handed over: up to the first EOP; 0 while none has it.
A frame uses at most 64 (R224). -/
def State.chainLength (s : State) (p k : Nat) : Nat → Nat → Nat → Nat
  | 0, _, _ => 0
  | n + 1, i, c =>
    if bit (s.memByte (s.descAt p k i + 10)).toNat 1 ∨ c + 1 = 64 then c + 1 else s.chainLength p k n (i + 1) (c + 1)

/-- Ingress and egress timestamps of port `p` now: those of a management port are taken at the SGMII interface and corrected by the delays of its
PHY (R380). -/
def State.ingress (s : State) (p : Nat) : Int := (s.chrono : Int) - if 64 ≤ p then (s.rd (Reg.TIM_MGT_DLY_RX (p - 64)) : Int) else 0
def State.egress (s : State) (p : Nat) : Int := (s.chrono : Int) + if 64 ≤ p then (s.rd (Reg.TIM_MGT_DLY_TX (p - 64)) : Int) else 0

/-- Write back the transmit descriptors of a chain (Table 8.3): DONE, the error code, and the time where TS asks. -/
def State.completeTx (s : State) (p : Nat) (c : Completion) : State :=
  let s1 := (List.range c.count).foldl (fun t i =>
    let a := t.descAt p c.ring (c.first + i)
    let fl := (t.memByte (a + 10)).toNat
    let t1 := if c.stamp then t.memWrite a (leBytes 8 (toBits 64 (t.egress p))) else t
    (t1.memWrite (a + 10) (be8 (fl % 64 + 64 + 128 * b01 (c.error != 0)))).memWrite (a + 14) (be8 c.error)) s
  (s1.ringAdvance p c.ring c.count).wr (Reg.NET_RING_IRQ_DONE p c.ring) 1

/-- Rewrite the headers of segment `i` at payload offset `o` with `n` payload bytes (R217). -/
def lsoHeader (hdr : List Byte) (i o n : Nat) (first last : Bool) : List Byte :=
  let h := headers hdr
  let l4len := hdr.length - h.l4 + n
  let a := if h.v4 then putAt (putAt hdr (h.l3 + 2) (be16 (h.l4 - h.l3 + l4len))) (h.l3 + 4) (be16 ((u16 hdr (h.l3 + 4) + i) % 65536))
    else if h.v6 then putAt hdr (h.l3 + 4) (be16 (h.l4 - (h.l3 + 40) + l4len)) else hdr
  if h.proto = 6 then
    let fl := u8 a (h.l4 + 13)
    let keep := (if last then fl else fl - 8 * b01 (bit fl 3) - b01 (bit fl 0)) - (if first then 0 else 128 * b01 (bit fl 7))
    putAt (putAt a (h.l4 + 4) (be32 ((u32 a (h.l4 + 4) + o) % 2 ^ 32))) (h.l4 + 13) (be8 keep)
  else if h.proto = 17 then putAt a (h.l4 + 4) (be16 l4len) else a

/-- The segments of an LSO chain: header, MSS, payload (R217). Without payload there are none. -/
def lsoSegments (hdr : List Byte) (mss : Nat) (data : List Byte) : List (List Byte) :=
  let m := max 1 mss
  let n := (data.length + m - 1) / m
  (List.range n).map fun i =>
    let part := bytesAt data (i * m) m
    sumL4 (putIpCsum (lsoHeader hdr i (i * m) part.length (i == 0) (i + 1 == n) ++ part))

/-- The frames of the chain of `n` descriptors at the consumer index of transmit ring `k`, or the error code 2 (R216,
R217). TS of the SOP descriptor decides for every descriptor of the chain (DESIGN CHOICE, log entry 133). -/
def State.chainFrames (s : State) (p k n : Nat) : Option (List TxFrame) :=
  let i0 := s.rd (Reg.NET_RING_CI_IDX p k)
  let a0 := s.descAt p k i0
  let data := (List.range n).flatMap fun i =>
    let a := s.descAt p k (i0 + i)
    s.memRead (leNat (s.memRead a 8)) (leNat (s.memRead (a + 8) 2) % 16384)
  let fl := (s.memByte (a0 + 10)).toNat
  let hl := (s.memByte (a0 + 11)).toNat
  let mss := leNat (s.memRead (a0 + 12) 2)
  let bodies : List (List Byte) :=
    if bit fl 4 then lsoSegments (data.take hl) mss (data.drop hl)
    else
      let b1 := if bit fl 2 then putIpCsum data else data
      [if bit fl 3 then putL4Csum b1 else b1]
  let c : Completion := ⟨k, i0, n, bit fl 5, 0⟩
  if bodies.any fun b => decide (maxFrame p < b.length + 4) then none
  else some (bodies.zipIdx.map fun b => ⟨k, pad64 b.1, none, none, some k, if b.2 + 1 = bodies.length then some c else none⟩)

/-- Does the chain at the consumer index of transmit ring `k` set LSO? -/
def State.chainLso (s : State) (p k : Nat) : Bool := bit (s.memByte (s.descAt p k (s.rd (Reg.NET_RING_CI_IDX p k)) + 10)).toNat 4

/-- Bring the next chain of transmit ring `k` into its queue, if the queue has no frame of it left. A chain that is too
long completes with error code 2, and is counted when it is one frame (R216, R217); an LSO chain without payload sends nothing and
completes. -/
def State.fetchHost (s : State) (p k : Nat) : State :=
  if ((s.netPort p).queues.any fun f => f.queue == k) ∨ !s.ringUsable p k then s
  else
    let n := s.chainLength p k (s.ringPosted p k) (s.rd (Reg.NET_RING_CI_IDX p k)) 0
    if n = 0 then s
    else
      match s.chainFrames p k n with
      | none => (if s.chainLso p k then s else s.bump (Reg.NET_TX_OVERSIZE_COUNT p) 1).completeTx p ⟨k, s.rd (Reg.NET_RING_CI_IDX p k), n, false, 2⟩
      | some [] => s.completeTx p ⟨k, s.rd (Reg.NET_RING_CI_IDX p k), n, false, 0⟩
      | some fs => s.modNetPort p fun x => { x with queues := x.queues ++ fs }

/-- The datagrams of the interpreter and the Lookout join the frames of a management port (R218). -/
def State.joinQueue (s : State) (p : Nat) : State :=
  let mine := s.cyx.outbox.filter fun d => d.1 == p
  if mine.isEmpty then s
  else { s with cyx := { s.cyx with outbox := s.cyx.outbox.filter fun d => d.1 != p } }.modNetPort p fun x =>
    { x with queues := x.queues ++ mine.map fun (d : Nat × TxFrame) => d.2 }

/-- Put a frame into a queue of a port, behind those that are there. -/
def State.queueFrame (s : State) (p : Nat) (f : TxFrame) : State := (s.joinQueue p).modNetPort p fun x => { x with queues := x.queues ++ [f] }

/-- A frame is dropped: its chain completes with an error code (R213, R231). -/
def State.dropFrame (s : State) (p : Nat) (f : TxFrame) (error : Nat) : State :=
  match f.done with
  | some c => s.completeTx p { c with error := if c.error = 0 then error else c.error }
  | none => s

/-- Remove the first frame of a queue. -/
def PortRec.popQueue (x : PortRec) (q : Nat) : PortRec :=
  match x.queues.find? fun f => f.queue == q with
  | some f => { x with queues := x.queues.erase f }
  | none => x

/-! ### Flows and their events -/

/-- Is a kind one of audio? -/
def Flow.isAudio (f : Flow) : Bool := f.kind == 3 || f.kind == 4

/-- The source of the engine that a flow runs on. -/
def Flow.src (f : Flow) : Nat := srcOf 5 (f.engine / 16) (f.engine % 16)

/-- A flow by index and direction. -/
def State.flow (s : State) (tx : Bool) (i : Nat) : Option Flow := s.net.flows.find? fun f => f.tx == tx && f.index == i

/-- Store a flow. -/
def State.putFlow (s : State) (f : Flow) : State :=
  { s with net := { s.net with flows := s.net.flows.map fun x => if x.tx == f.tx && x.index == f.index then f else x } }

/-- The generator of a send flow: its output's, or its encoder channel's. -/
def State.flowGen (s : State) (f : Flow) : Nat :=
  if f.kind = 2 ∨ f.kind = 7 ∨ f.kind = 8 then ((s.encChan f.encoder).map fun (x : EncChan) => x.gen).getD 0
  else s.rd (Reg.FAB_SEL_CUR_GEN (quarterIndex f.slotKey))

/-- Change a leg of a flow. -/
def Flow.modLeg (f : Flow) (i : Nat) (g : FlowLeg → FlowLeg) : Flow :=
  { f with legs := f.legs.zipIdx.map fun x => if x.2 == i then g x.1 else x.1 }

/-- Frame period of a rate in ns, rounded down. -/
def Flow.period (f : Flow) : Nat := if f.rateN = 0 then 0 else f.rateD * 10 ^ 9 / f.rateN

/-- Least time between two raises of a flow's event: a frame period, of a send flow that of its generator, or 1 ms for audio (R272). -/
def State.flowGap (s : State) (f : Flow) : Nat :=
  let n : Nat := if f.tx then s.genN (s.flowGen f) else f.rateN
  let d : Nat := if f.tx then s.genD (s.flowGen f) else f.rateD
  if f.isAudio ∨ n = 0 then 10 ^ 6 else d * 10 ^ 9 / n

/-- Raise an event of a flow; `leg` names a leg. -/
def State.flowEvent (s : State) (f : Flow) (code leg : Nat) : State :=
  s.raiseWithin (s.flowGap f) code f.src (f.index + 65536 * leg)

/-- A packet of a leg is discarded at the engine while the leg's link is down (R267). -/
def State.legDown (s : State) (i leg : Nat) (queued : Bool) : State :=
  match s.flow true i with
  | none => s
  | some x => (s.putFlow (x.modLeg leg fun l => { l with linkDown := l.linkDown + 1, packets := l.packets - b01 queued })).flowEvent x 0x260A leg

/-- The link of a port is lost: LINK, AN_DONE and FEC_LOCK fall, the frames of Q0-Q5 and Q7 are discarded and
counted (R213), and the flow packets of Q6 are discarded and counted LINKDOWN for their leg (R267). -/
def State.linkLost (s : State) (p : Nat) : State :=
  let s1 := (((s.joinQueue p).wr (Reg.NET_STAT_LINK p) 0).wr (Reg.NET_STAT_AN_DONE p) 0).wr (Reg.NET_STAT_FEC_LOCK p) 0
  let gone := (s1.netPort p).queues
  let s2 := s1.modNetPort p fun x => { x with queues := [], bringUp := some s.now }
  gone.foldl (fun t f => match f.flow with
    | some (i, leg, _) => t.legDown i leg true
    | none => (t.bump (Reg.NET_TX_LINKDOWN_DROP_COUNT p) 1).dropFrame p f 3) s2

/-- The event of a lost link: ETH_LINK_DOWN, or MGT_LINK_DOWN for management port p − 64 (R240). -/
def State.raiseLinkDown (s : State) (p : Nat) : State :=
  if p < 64 then s.raise 0x2501 (srcPort p) p else s.raise 0x250C (srcPort p) p

/-- The port restarts: its link goes down (R213, R246). -/
def State.restartPort (s : State) (p : Nat) : State :=
  let s1 := if s.linkUp p then (s.linkLost p).raiseLinkDown p else s
  s1.modNetPort p fun x => { x with bringUp := if s1.flag (Reg.NET_CTL_EN p) then some s1.now else none }

/-- Bit times: `bits` at `rate` Gbit/s, in ps. -/
def bitTime (bits rate : Nat) : Nat := bits * 1000 / max 1 rate

/-- May a frame of Q0-Q5 start at a time in ps: does its last bit, with 20 bytes of gap and preamble, leave before the next launch of Q6
(R219)? -/
def PortRec.guardOk (x : PortRec) (rate now : Nat) (chrono len : Nat) : Bool :=
  match (x.queues.find? fun f => f.queue == 6).bind (·.launch) with
  | none => true
  | some t => decide (now + bitTime (8 * (len + 24)) rate < now + (t - chrono) * 1000)

/-- The queue that a port serves next (R218, R219, R221): strict priority, stopped queues passed over, Q6 from its
launch time until 40 000 ns after it (R267), Q0-Q5 within the guard. -/
def State.nextQueue (s : State) (p : Nat) : Option Nat :=
  let x := s.netPort p
  [7, 6, 5, 4, 3, 2, 1, 0].find? fun q =>
    match x.queues.find? fun f => f.queue == q with
    | none => false
    | some f =>
      if q = 7 then true
      else if q = 6 then decide (f.launch.getD 0 ≤ s.chrono ∧ s.chrono < f.launch.getD 0 + 40000)
      else !(x.pauses.any fun a => a.queue == q) && x.guardOk (s.portRate p) (s.now * 1000) s.chrono (f.bytes.length + if s.macsecActs p && !s.macsecClear p f.bytes then 32 else 0)

/-- A frame leaves a port: protected where MACsec asks, with its FCS, or with a bit-inverted FCS after an underrun
(R216, R220). Of a transmitter that does not send the port's traffic nothing leaves the ball (R168, R181). -/
def State.sendFrame (s : State) (p : Nat) (f : TxFrame) (underrun : Bool) : State :=
  let r := s.macsecSend p f.bytes
  match r.2 with
  | none => r.1.dropFrame p f 4
  | some b =>
    let fcs := if underrun then (fcsBytes b).map (fun x => x ^^^ 0xFF#8) else fcsBytes b
    let s1 := if r.1.portDrives p then { r.1 with sent := .frame p (b ++ fcs) :: r.1.sent } else r.1
    let s2 := s1.modNetPort p fun x => { x with busy := s.now * 1000 + bitTime (8 * (b.length + 24)) (s.portRate p) }
    match f.done with
    | some c => s2.completeTx p c
    | none => s2

/-! ### Which receive flow or service takes a frame (R224, R233) -/

/-- Does a frame belong to leg `g` of a receive flow on port `p`? -/
def Flow.claims (f : Flow) (p : Nat) (g : FlowLeg) (b : List Byte) : Bool :=
  let h := headers b
  !f.tx && g.port == p && (if f.ipv6 then h.v6 else h.v4) && h.proto == 17 && h.dest b == g.dest && h.dport b == g.udpDst &&
    h.tci % 4096 == g.vlan && (!f.opt || h.source b == g.filter)

/-- The receive flow and leg that claim a frame. -/
def State.flowOf (s : State) (p : Nat) (b : List Byte) : Option (Flow × Nat) :=
  s.net.flows.findSome? fun f => (f.legs.zipIdx.find? fun g => f.claims p g.1 b).map fun g => (f, g.2)

/-- The address of a leg for the card's side: local address of a receive leg, source of a send leg. -/
def State.legLocal (s : State) (g : FlowLeg) : Nat := if s.sideB then g.sideB else g.sideA

/-- The addresses of one IP version that firmware answers for on a media port: the local addresses of receive legs and
the source addresses of the send legs of the card (R253). -/
def State.portAddresses (s : State) (p : Nat) (ipv6 : Bool) : List Nat :=
  (s.net.flows.filter fun f => f.ipv6 == ipv6).flatMap fun f =>
    (f.legs.filter fun g => g.port == p && (!f.tx || bit g.sides (b01 s.sideB))).map fun g => s.legLocal g

/-- Is a frame an ARP request, a neighbour solicitation, or an IGMP or MLD query for a media port (R253)? -/
def State.mediaService (s : State) (p : Nat) (b : List Byte) : Bool :=
  let h := headers b
  decide (p < 64) && ((h.etype == 0x0806 && u16 b (h.l3 + 6) == 1 && (s.portAddresses p false).contains (u32 b (h.l3 + 24))) ||
    (h.v4 && h.proto == 2) || (h.v6 && h.proto == 58 && u8 b h.l4 == 130) ||
    (h.v6 && h.proto == 58 && u8 b h.l4 == 135 && (s.portAddresses p true).contains (beNat (bytesAt b (h.l4 + 8) 16))))

/-- Is a frame an IPv4 fragment for the Cyxel port of a management port: MF set, or an offset other than 0 (R35)? Only the first fragment
carries the UDP port; every later UDP fragment for the port's address counts as one (DESIGN CHOICE, log entry 80). -/
def State.cyxelPiece (s : State) (p : Nat) (b : List Byte) : Bool :=
  let h := headers b
  let place := u16 b (h.l3 + 6) % 0x4000
  h.v4 && decide (64 ≤ p) && s.mgtAddress p != 0 && h.dest b == s.mgtAddress p && h.proto == 17 && place != 0 &&
    (decide (place % 0x2000 ≠ 0) || h.dport b == 7210)

/-- Does a firmware service consume a frame: PTP, and on a management port with an address ARP, ICMP echo, Cyxel and
the Lookout; on a media port IGMP and MLD queries (R224, R233, R253)? -/
def State.serviceOf (s : State) (p : Nat) (b : List Byte) : Bool :=
  let h := headers b
  let own := s.mgtAddress p
  ptpService b ||
    (decide (64 ≤ p) && own != 0 && ((h.etype == 0x0806 && u32 b (h.l3 + 24) == own) ||
      (h.v4 && h.dest b == own && ((h.proto == 1 && u8 b h.l4 == 8) || (h.proto == 17 && (h.dport b == 7210 || h.dport b == s.twn.lookPort || h.dport b == 7212)))))) ||
    s.cyxelPiece p b || s.mediaService p b

/-- The steering rule and ring of a frame (R224): the first rule that matches, else the default. A register value of 4 to 0xFE names no
ring; it counts modulo 4 (DESIGN CHOICE, log entry 108). -/
def State.steer (s : State) (p : Nat) (b : List Byte) : Nat × Nat :=
  let h := headers b
  let fits := fun (v want : Nat) => want == 0 || v == want
  if ptpForHost b then (0xFF, 0)
  else match (List.range 8).find? fun r => s.rd (Reg.NET_STEER_RING p r) != 0xFF && fits h.etype (s.rd (Reg.NET_STEER_ETYPE p r)) &&
      fits h.proto (s.rd (Reg.NET_STEER_PROTO p r)) && fits (h.dport b) (s.rd (Reg.NET_STEER_L4PORT p r)) with
  | some r => (r, s.rd (Reg.NET_STEER_RING p r) % 4)
  | none => (0xFF, 0)

/-- A received frame, FCS included, reaches the MAC where the receivers of the port hear it (Table 6.8), and passes the MAC's own checks (R214,
R215, R223): none for a drop, else the frame without its FCS. -/
def State.macTake (s : State) (p : Nat) (b : List Byte) (full : Bool) : State × Option (List Byte) :=
  let body := b.take (b.length - 4)
  let t := s.portLoops p b
  if !s.portHears p b then (s, none)
  else if b.drop (b.length - 4) ≠ fcsBytes body then (t.bump (Reg.NET_RX_FCS_ERR_COUNT p) 1, none)
  else if b.length < 64 ∨ maxFrame p < b.length then (t.bump (Reg.NET_RX_LEN_ERR_COUNT p) 1, none)
  else if !macAccepts p b then (t, none)
  else if full then (t.bump (Reg.NET_RX_BUF_DROP_COUNT p) 1, none)
  else (t, some body)

/-- Fill receive descriptors from `i` with a frame; answers the bytes written into each (R224, R226). -/
def State.fillRx (s : State) (p k : Nat) : Nat → Nat → List Byte → State × List Nat
  | 0, _, _ => (s, [])
  | n + 1, i, b =>
    let a := s.descAt p k i
    let size := leNat (s.memRead (a + 8) 2)
    let part := b.take size
    let s1 := s.memWrite (leNat (s.memRead a 8)) part
    if b.length ≤ size then (s1, [part.length])
    else
      let r := s1.fillRx p k n (i + 1) (b.drop size)
      (r.1, part.length :: r.2)

/-- A frame is delivered to a host ring (R224-R227): its descriptors are written back from the last to the first. -/
def State.deliver (s : State) (p : Nat) (b : List Byte) (verified failed : Bool) : State :=
  let st := s.steer p b
  let k := 5 + st.2
  let n := s.ringPosted p k
  if !s.ringUsable p k ∨ n = 0 then
    ((s.bump (Reg.NET_RX_NODESC_COUNT p) 1).wr (Reg.NET_RING_IRQ_NODESC p k) 1).raise 0x2507 (srcPort p) (k - 5)
  else
    let i0 := s.rd (Reg.NET_RING_CI_IDX p k)
    let r := s.fillRx p k (min n 64) i0 b
    let used := r.2.length
    let trunc := decide (r.2.sum < b.length)
    let s2 := r.2.zipIdx.reverse.foldl (fun t x =>
      let sop := x.2 == 0
      let eop := x.2 + 1 == used
      let fl := b01 sop + 2 * b01 eop + 4 + 8 * b01 trunc + 16 * b01 (eop && (trunc || failed)) + 32 * b01 (!ipCsumOk b) +
        64 * b01 (!l4CsumOk b) + 128 * b01 verified
      let code : Nat := if eop ∧ trunc then 1 else if eop ∧ failed then 2 else 0
      t.memWrite (t.descAt p k (i0 + x.2)) (leBytes 8 (if sop then toBits 64 (t.ingress p) else 0) ++ leBytes 2 x.1 ++ be8 fl ++ be8 code ++
        leBytes 2 (headers b).tci ++ be8 st.1 ++ be8 0)) r.1
    let s3 := (s2.ringAdvance p k used).wr (Reg.NET_RING_IRQ_DONE p k) 1
    if trunc then ((s3.bump (Reg.NET_RX_RING_TRUNC_COUNT p) 1).wr (Reg.NET_RING_IRQ_TRUNC p k) 1).raise 0x2506 (srcPort p) (k - 5)
    else s3

end Sys2Proof.Machine
end

