-- ==== Sys2Proof/Machine/Flows.lean ====
section
/-!
DEFINITION. Media over IP (chapter 09): alignment and release of received flows, sequence numbers, timestamps and
launch times of sent ones, packet building, engines and the wire rate.
-/
namespace Sys2Proof.Machine

/-! ### Formats -/

/-- V_total of a height (R255). -/
def vTotal (h : Nat) : Nat := if h ≤ 1080 then 1125 else if h ≤ 2160 then 2250 else 4500

/-- Bytes of an active line of a flow (R269). -/
def Flow.lineBytes (f : Flow) : Nat := Machine.lineBytes f.width (f.sampling != 0)

/-- Bytes of a pgroup of two pixels. -/
def Flow.pgroup (f : Flow) : Nat := if f.sampling = 0 then 5 else 9

/-- Bytes of an audio sample (R248). -/
def Flow.sampleBytes (f : Flow) : Nat := if f.kind = 4 then 4 else if bit f.audio 5 then 2 else 3

/-- Audio rate of a flow. -/
def Flow.fs (f : Flow) : Nat := if bit f.audio 4 then 96000 else 48000

/-- Samples per packet of an audio flow: 1, 0.125 or 0.25 ms. -/
def Flow.perPacket (f : Flow) : Nat := f.fs / ([1000, 8000, 4000] : List Nat).getD (f.audio % 16) 1000

/-- SDI bits of a frame of a kind 6 flow (R269). -/
def sdiBits (n d : Nat) : Nat :=
  let words : Nat := if n = 25 * d ∨ n = 50 * d then 2640 else if n = 24 * d ∨ 1001 * n = 24000 * d then 2750 else 2200
  words * 1125 * 20

/-- Packets of a frame of a flow whose frames it counts: kinds 1, 5 and 6 (Table 9.2). -/
def Flow.packets (f : Flow) (n d : Nat) : Nat :=
  let l := max 1 f.lmax
  if f.kind = 1 then (if f.opt ∧ f.tx then (f.height * f.lineBytes + l - 1) / l else f.height * ((f.lineBytes + l - 1) / l))
  else if f.kind = 5 then (if f.interlaced then 8 else 4)
  else (sdiBits n d + 11007) / 11008

/-- A flow's handle (R275, R276). -/
def Flow.handle (f : Flow) : Nat := (if f.tx then 0x20000 else 0x10000) + f.index

/-- Time without a packet after which a flow is lost: 2 frame periods, or 8 packet times of audio (R260). -/
def Flow.lossTime (f : Flow) : Nat := if f.isAudio then 8 * f.perPacket * 10 ^ 9 / f.fs else 2 * f.period

/-! ### Receive: alignment and release (R254-R256) -/

/-- The media clock that the clock-frequency field of an HBRMT header names, as ticks in seconds (R249; PRESUMED: ST 2022-6, log
entry 32). -/
def hbrmtClock (p : List Byte) : Option (Nat × Nat) :=
  match u16 p 2 / 32 % 16 with
  | 1 => some (27000000, 1)
  | 2 => some (148500000, 1)
  | 3 => some (148500000000, 1001)
  | 4 => some (297000000, 1)
  | 5 => some (297000000000, 1001)
  | _ => none

/-- The media clock of a flow's timestamps, as ticks in seconds: 90 kHz, or of kind 6 the one that the packet's header names. -/
def Flow.clock (f : Flow) (p : List Byte) : Nat × Nat := if f.kind = 6 then (hbrmtClock p).getD (90000, 1) else (90000, 1)

/-- The frame and, where no boundary of the rate matches, the alignment point of an RTP timestamp that arrives at a time, at a clock of
`c` ticks in `e` seconds (R254). The timestamp of field 2, `second`, lies half a period after the boundary of its frame; where no boundary
matches it, its frame began half a period before it. A frame that no boundary matches has the number of the boundary nearest to it, or the next
where that frame is another one (DEDUCED, log entry 124). -/
def Flow.align (f : Flow) (c e ts arrival : Nat) (second : Bool) : Nat × Option Nat :=
  let tick : Nat := arrival * c / (e * 10 ^ 9)
  let d : Nat := ts + 2 ^ 32 - tick % 2 ^ 32
  let x : Nat := ((tick : Int) + sext 32 d).toNat
  let per : Nat := if f.interlaced then 2 else 1
  let n := f.rateN * per
  let g0 := x * n * e / (c * f.rateD)
  match ([g0, g0 + 1] : List Nat).find? fun g => g * f.rateD * c / (n * e) == x && (!f.interlaced || g % 2 == b01 second) with
  | some g => (g / per, none)
  | none =>
    let lo := (x * e * 10 ^ 9 + (c - 1)) / c
    let hi := ((x + 1) * e * 10 ^ 9 + (c - 1)) / c - 1
    let t := max lo (min hi arrival) - if second then f.rateD * 10 ^ 9 / (2 * f.rateN) else 0
    let same := f.frames.find? fun y => match y.2 with
      | some u => decide (u * c ≤ t * c + 2 * e * 10 ^ 9 ∧ t * c ≤ u * c + 2 * e * 10 ^ 9)
      | none => false
    match same with
    | some y => y
    | none =>
      let near := frameAt f.rateN f.rateD (t + f.rateD * 10 ^ 9 / (2 * f.rateN))
      let taken := (f.frames.any fun y => y.1 == near) || (f.releasing.map fun (r : Nat × Nat) => r.1) == some near
      (if taken then near + 1 else near, some t)

/-- Release time of a line period of frame `frame` (R255); field 2 begins with line period 563. -/
def Flow.release (f : Flow) (frame : Nat) (ta : Option Nat) (line : Nat) : Nat :=
  let vt := vTotal f.height
  f.timing + (match ta with
    | none => (frame * vt + line) * f.rateD * 10 ^ 9 / (f.rateN * vt)
    | some t => t + line * f.rateD * 10 ^ 9 / (f.rateN * vt))

/-- What a JPEG XS slice needs before its release: 16 line periods and 20 µs (R354). -/
def Flow.sliceTime (f : Flow) : Nat := 16 * f.rateD * 10 ^ 9 / max 1 (f.rateN * vTotal f.height) + 20000

/-- The count of the first sample of an audio packet: the one nearest its arrival (R254). -/
def Flow.sampleCount (f : Flow) (ts arrival : Nat) : Nat :=
  let k : Nat := arrival * f.fs / 10 ^ 9
  let d : Nat := ts + 2 ^ 32 - k % 2 ^ 32
  ((k : Int) + sext 32 d).toNat

/-- Release of audio sample `k` (R255). -/
def Flow.sampleRelease (f : Flow) (k : Nat) : Nat := k * 10 ^ 9 / f.fs + f.timing

/-- The line period of an SRD: its row, of field 2 from period 563 on. A row or a field bit that the format does not have stands outside
every raster (R248). -/
def Flow.srdLine (f : Flow) (row : Nat) (f2 : Bool) : Nat :=
  if f.interlaced ∧ row < 563 then (if f2 then row + 563 else row) else if f.interlaced ∨ f2 then 0x10000 + row else row

/-- The SRDs of a kind 1 payload, with the data that follows them: line period, offset and bytes of each (PRESUMED:
ST 2110-20, log entry 32). -/
def Flow.srds (f : Flow) (p : List Byte) : Nat → Nat → List (Nat × Nat × Nat)
  | 0, _ => []
  | n + 1, o =>
    let row := u16 p (o + 2)
    let x := (f.srdLine (row % 32768) (bit row 15), u16 p (o + 4) % 32768 * f.pgroup / 2, u16 p o)
    if bit (u16 p (o + 4)) 15 then x :: f.srds p n (o + 6) else [x]

/-- Cut the data of a payload into the pieces that its SRDs describe. -/
def cutPieces (frame : Nat) : List (Nat × Nat × Nat) → List Byte → List Piece
  | [], _ => []
  | x :: r, d => ⟨0, frame, x.1, x.2.1, d.take x.2.2⟩ :: cutPieces frame r (d.drop x.2.2)

/-- Lines of one scan of a flow. -/
def Flow.scanLines (f : Flow) : Nat := if f.interlaced then f.height / 2 else f.height

/-- Does an SRD lie inside the raster? -/
def Flow.srdInside (f : Flow) (x : Nat × Nat × Nat) : Bool :=
  decide ((if f.interlaced ∧ 563 ≤ x.1 then x.1 - 563 else x.1) < f.scanLines) && decide (x.2.1 + x.2.2 ≤ f.lineBytes)

/-- The slices of a picture of a JPEG XS flow: 16 lines each, those of field 2 after those of field 1; the first line period of slice `i`, and the
slice of a line period (R352). -/
def Flow.sliceCount (f : Flow) : Nat := (f.scanLines + 15) / 16 * (if f.interlaced then 2 else 1)
def Flow.sliceLine (f : Flow) (i : Nat) : Nat :=
  let n := max 1 ((f.scanLines + 15) / 16)
  563 * (i / n) + 16 * (i % n)
def Flow.sliceOf (f : Flow) (line : Nat) : Nat :=
  if f.interlaced ∧ 563 ≤ line then (f.scanLines + 15) / 16 + (line - 563) / 16 else line / 16

/-- The slice that the payload header of a JPEG XS packet names, as an index in its frame (RFC 9134, slice mode; PRESUMED, log entry 42). -/
def Flow.slicePart (f : Flow) (p : List Byte) : Nat :=
  u32 p 0 / 2 ^ 11 % 2048 + if f.interlaced ∧ u32 p 0 / 2 ^ 27 % 4 = 3 then (f.scanLines + 15) / 16 else 0

/-- The release time of slice `i` of a frame: that of its first line. -/
def Flow.sliceRelease (f : Flow) (frame i : Nat) : Nat :=
  f.release frame (((f.frames.find? fun y => y.1 == frame).map fun (y : Nat × Option Nat) => y.2).getD none) (f.sliceLine i)

/-- The data of a frame that a JPEG XS flow has, as slice, number of the packet in the slice, and bytes. -/
def Flow.sliceData (f : Flow) (frame : Nat) : List (Nat × Nat × List Byte) :=
  (f.store.filter fun p => p.kind == 4 && p.frame == frame).map fun p => (f.sliceOf p.line, p.off, p.bytes)

/-- Has slice `i` of a frame all its data: its packets are there from the first on, and they hold the slice whole? -/
def Flow.sliceWhole (f : Flow) (frame i : Nat) : Bool :=
  let ps := (f.sliceData frame).filter fun p => p.1 == i
  (List.range ps.length).all (fun k => ps.any fun p => p.2.1 == k) &&
    Config.xsWhole f.width f.height f.interlaced (f.sampling != 0) ((List.range ps.length).flatMap fun k => ((ps.find? fun p => p.2.1 == k).map fun p => p.2.2).getD [])

/-- Line period `line` of a frame as the decoder gives it from the data it has: precincts that are missing count as zero coefficients (R354). -/
def Flow.decodedLine (f : Flow) (frame line : Nat) : List (Option Byte) :=
  let b := Config.xsLine f.width f.height f.interlaced (f.sampling != 0) (f.sliceData frame) line
  (b.take f.lineBytes ++ List.replicate (f.lineBytes - b.length) 0).map some

/-- The samples of an audio payload (R248). -/
def Flow.samples (f : Flow) (k : Nat) (p : List Byte) : List Piece :=
  let b := f.sampleBytes
  (List.range (p.length / (b * max 1 f.width))).flatMap fun i =>
    (List.range f.width).map fun c => ⟨3, k + i, c, 0, bytesAt p ((i * f.width + c) * b) b⟩

/-- The value of a sample's bytes as 24 bits. -/
def Flow.sampleValue (f : Flow) (b : List Byte) : Int :=
  if f.sampleBytes = 2 then sext 24 (u16 b 0 * 256) else if f.sampleBytes = 4 then sext 24 (u24 b 1) else sext 24 (u24 b 0)

/-- What a received packet carries: the pieces, its earliest line or sample, its latest sample, and whether it lies
inside the declared format. -/
structure Media where
  ext : Nat
  frame : Nat
  ta : Option Nat
  first : Nat
  last : Nat
  pieces : List Piece
  ok : Bool

/-- Bytes of the payload header of a kind that L_max does not count (R269): the extended number with the SRDs, or the header of the
format. -/
def Flow.headerBytes (f : Flow) (p : List Byte) : Nat :=
  if f.kind = 1 then 2 + 6 * (f.srds p 5 2).length else if f.kind = 2 then 4 else if f.kind = 5 ∨ f.kind = 6 then 8 else 0

/-- Parse the RTP payload of a packet that arrives at a time. A kind 5 packet without ANC data names no line: it is judged at line
period 0 of its frame (DESIGN CHOICE, log entry 123). -/
def Flow.media (f : Flow) (ts arrival : Nat) (p : List Byte) (g : Given) : Media :=
  if f.isAudio then
    let k := f.sampleCount ts arrival
    let ps := f.samples k p
    ⟨0, k, none, k, k + ps.length / max 1 f.width - 1, ps, p.length % (f.sampleBytes * max 1 f.width) == 0 && !p.isEmpty⟩
  else
    let xs := if f.kind = 1 then f.srds p 5 2 else []
    let line : Nat := if f.kind = 1 then (xs.headD (0, 0, 0)).1 else ((g.pieces.head?).map fun x => x.2.1).getD 0
    let c := f.clock p
    let a := f.align c.1 c.2 ts arrival (f.interlaced && decide (563 ≤ line))
    if f.kind = 2 then
      let i := f.slicePart p
      let b := f.align c.1 c.2 ts arrival (f.interlaced && decide (563 ≤ f.sliceLine i))
      ⟨g.ext, b.1, b.2, f.sliceLine i, 0, [⟨4, b.1, f.sliceLine i, u32 p 0 % 2048, p.drop 4⟩], decide (i < f.sliceCount ∧ 4 ≤ p.length)⟩
    else if f.kind = 1 then ⟨u16 p 0, a.1, a.2, line, 0, cutPieces a.1 xs (p.drop (2 + 6 * xs.length)), xs.all f.srdInside && decide (xs.length ≤ 4)⟩
    else
      let ps := g.pieces.map fun x => (⟨x.1, a.1, x.2.1, x.2.2.1, x.2.2.2⟩ : Piece)
      ⟨if f.kind = 5 then u16 p 0 else g.ext, a.1, a.2, line, 0, ps, g.inside && (f.kind != 6 || (hbrmtClock p).isSome)⟩

/-- The sequence number of a packet, extended by the highest accepted so far past the width of what the packet carries: 32 bits of kinds
1, 2 and 5, else 16 (R257). The numbers begin above 2^32, so that those before the first accepted one stay above 0. -/
def Flow.sequence (f : Flow) (seq ext : Nat) : Nat :=
  let w : Nat := if f.kind = 1 ∨ f.kind = 2 ∨ f.kind = 5 then 32 else 16
  let raw : Nat := if w = 32 then ext * 65536 + seq else seq
  if f.highest = 0 then 2 ^ 32 + raw else ((f.highest : Int) + sext w (raw + 2 ^ w - f.highest % 2 ^ w)).toNat

/-- Keep the margins and holds of the last second. -/
def Flow.note (f : Flow) (now : Nat) (margin hold : Int) : Flow :=
  { f with margins := (now, margin, hold) :: f.margins.filter fun x => decide (now < x.1 + 10 ^ 9) }

/-- A packet of a flow is accepted (R256, R257, R260): its media is stored, and losses of the flow and of the leg end.
The other leg is lost when it has delivered nothing for the loss time. A packet with a line whose SDI CRC fails, `bad`, is kept, and
counts BAD in place of ACCEPTED (R249, R261). -/
def State.flowAccept (s : State) (f : Flow) (leg n ts : Nat) (bad : Bool) (m : Media) : State :=
  let fresh := !f.isAudio && !(f.frames.any fun x => x.1 == m.frame) && (f.releasing.map fun (r : Nat × Nat) => r.1) != some m.frame
  let ta := f.release m.frame m.ta 0
  let jump := fresh && match f.lastTa with
    | some t => !(decide (t + f.period ≤ ta + 1 ∧ ta ≤ t + f.period + 1))
    | none => false
  let g := (f.modLeg leg fun l => { l with lastAccept := s.now })
  let g1 := { g with c0 := f.c0 + b01 (!bad), c5 := f.c5 + b01 bad, ts := ts, highest := max f.highest n, lastAccept := s.now, loss := false }
  let g2 := { g1 with got := (n, m.frame, m.first) :: f.got, store := f.store ++ m.pieces }
  let g3 := { g2 with frames := if fresh then f.frames ++ [(m.frame, m.ta)] else f.frames, lastTa := if fresh then some ta else f.lastTa }
  let g4 := { g3 with atOnce := (if leg = 1 then [(s.now, n, m.pieces)] else []) ++ f.atOnce.filter fun x => x.1 == s.now }
  let s0 := if f.isAudio then s.noteSamples 1 f.index (m.last + 1 - m.first) else s
  let s1 := ((s0.putFlow g4).endCause 0x2601 f.src f.index).endCause 0x2602 f.src (f.index + 65536 * leg)
  let s2 := if jump then s1.flowEvent f 0x2607 0 else s1
  (f.legs.zipIdx.filter fun l => l.2 != leg && decide (l.1.lastAccept + f.lossTime ≤ s.now)).foldl (fun t l => t.flowEvent f 0x2602 l.2) s2

/-- A later copy of a packet is counted DUP; its leg delivers all the same (R257, R260). A copy of leg A at the very instant at which leg
B's was accepted is the one that is kept. -/
def State.flowCopy (s : State) (f : Flow) (leg n : Nat) (m : Media) : State :=
  let g := { f.modLeg leg fun l => { l with lastAccept := s.now } with c1 := f.c1 + 1 }
  let h := match (if leg = 0 then f.atOnce.find? fun x => x.1 == s.now && x.2.1 == n else none) with
    | some x => { g with store := x.2.2.foldl (fun l p => l.erase p) f.store ++ m.pieces }
    | none => g
  (s.putFlow h).endCause 0x2602 f.src (f.index + 65536 * leg)

/-- A packet of a receive flow, its UDP payload `u` (R256, R257, R261); of JPEG XS in the window of its slice (R354). -/
def State.flowTake (s : State) (f : Flow) (leg : Nat) (u : List Byte) (given : Given) : State :=
  let pt := u8 u 1 % 128
  let off := 12 + 4 * (u8 u 0 % 16)
  let p := u.drop off
  let ts := u32 u 4
  let m := f.media ts s.chrono p given
  let n := f.sequence (u16 u 2) m.ext
  let audio := f.isAudio
  let rel : Nat := if audio then f.sampleRelease m.first else f.release m.frame m.ta m.first
  let slice : Nat := f.release m.frame m.ta (f.sliceLine (f.sliceOf m.first))
  let early : Bool := if audio then decide (s.chrono + 4000000 < f.sampleRelease m.last)
    else if f.kind = 2 then decide (s.chrono + f.timing + 40000 < slice) else decide (s.chrono + 40000 < rel)
  let margin : Int := (if f.kind = 2 then (slice : Int) - f.sliceTime else (rel : Int) - 500) - s.chrono
  let hold : Int := ((if f.kind = 2 then slice else rel : Nat) : Int) - s.chrono
  if u8 u 0 / 64 ≠ 2 ∨ (f.pt ≠ 0 ∧ pt ≠ f.pt) ∨ !m.ok ∨ 8960 + f.headerBytes p < p.length then
    (s.putFlow { f with c5 := f.c5 + 1 }).flowEvent f 0x2606 0
  else if f.got.any fun x => x.1 == n then s.flowCopy f leg n m
  else if margin < 0 then (s.putFlow ({ f with c3 := f.c3 + 1 }.note s.now margin hold)).flowEvent f 0x2603 0
  else if early then (s.putFlow { f with c4 := f.c4 + 1 }).flowEvent f 0x2604 0
  else s.flowAccept (f.note s.now margin hold) leg n ts (f.kind == 6 && !given.linesOk) m

/-! ### Receive: writing cells (R255, R110) -/

/-- A cell that an engine writes (Table 4.1). -/
def sourceCell (typeByte flags slot line index seq tag : Nat) (payload : List Byte) : List Byte :=
  let h := be8 typeByte ++ be8 flags ++ be16 slot ++ be16 line ++ be16 index ++ be32 seq ++ be16 tag ++ be8 0
  h ++ be8 (crc8 h).toNat ++ payload ++ zeros (256 - payload.length)

/-- The bytes of a line as far as its pieces give them. -/
def lineOf (ps : List Piece) (len : Nat) : List (Option Byte) :=
  ps.foldl (fun l p => l.take p.off ++ p.bytes.map some ++ l.drop (p.off + p.bytes.length)) (List.replicate len none)

/-- The payload of V cell `i` of a line, where every byte of it is there. -/
def vCell (line : List (Option Byte)) (i : Nat) : Option (List Byte) :=
  let part := (line.drop (256 * i)).take 256
  if !part.isEmpty ∧ part.all Option.isSome then some (part.filterMap id) else none

/-- The members of a flow's target: the slot itself or its bond. -/
def State.flowMembers (s : State) (f : Flow) : List Nat :=
  if f.bond then ((s.bondNamed f.slot).map fun (b : BondRec) => b.members).getD [f.slot] else [f.slot]

/-- Who writes the cells of a flow's media: its engine, or the JPEG XS decoder that it feeds. -/
def Flow.writer (f : Flow) : Writer := if f.kind = 2 then .internal else .engine f.index

/-- A receive flow as the writer of its slot: a kind 2 flow writes the slot of its decoder (R354). -/
def State.asWriter (s : State) (f : Flow) : Flow :=
  if f.kind = 2 then
    match s.decoderOf f.handle with
    | some x => if f.quarterFormat then { f with slot := 4672 + 4 * x.d, quarter := true, bond := false } else { f with slot := 1168 + x.d, quarter := false, bond := false }
    | none => f
  else f

/-- Time of a cell in ps times 768: a full slot's 125 000 / 768 ns, a quarter slot's four times that. -/
def cellTimeScaled (quarter : Bool) : Nat := (if quarter then 4 else 1) * 125000 * 1000

/-- Offset of cell `k` of a line from its release, in ns (R255). -/
def Flow.cellOffset (f : Flow) (k : Nat) : Nat := k * cellTimeScaled f.quarter / 768000

/-- One V cell of a line, with the time of its writing: none when data of it is missing, but its number is used up. `base` numbers the
cells of each member in the frame; the members of a bond are written side by side (R94, R110, R255). -/
def Flow.cellV (f : Flow) (ms : List Nat) (frame scan line : Nat) (f2 : Bool) (base : Nat → Nat) (at_ : Nat) (bytes : List (Option Byte)) (i : Nat) : Option (Nat × List Byte) :=
  let n := max 1 ms.length
  let c := lineCells f.width (f.sampling != 0)
  (vCell bytes i).map fun p =>
    let sof := decide (line = 0 ∧ i < n) && !f2
    let fl := 128 * b01 sof + 64 * b01 (i == 0) + 32 * b01 (i + 1 == c) + 16 * b01 f2 + 4 * b01 f.quarter + 2 * b01 f.bond
    let seq := frame * 2 ^ 20 + base (i % n) + scan * memberCells c n (i % n) + i / n
    (at_ + f.cellOffset (i / n), sourceCell 0 fl (ms.getD (i % n) f.slot) line (4096 * (i % n) + i / n) (seq % 2 ^ 32) (frame % 65536) p)

/-- The A and X cells of a line, after its V cells, the first at cell time `k`. -/
def Flow.cellsAX (f : Flow) (frame line first : Nat) (f2 : Bool) (at_ k : Nat) (cells : List (Nat × List Byte)) : List (Nat × List Byte) :=
  cells.zipIdx.map fun c =>
    (at_ + f.cellOffset (k + c.2), sourceCell (64 * c.1.1) (16 * b01 f2 + 4 * b01 f.quarter + 2 * b01 f.bond) f.slot line c.2
      ((frame * 2 ^ 20 + first + c.2) % 2 ^ 32) (frame % 65536) c.1.2)

/-- Sequence numbers that neither leg has delivered by the release of a line count as LOST (R257), from the lowest of the first line released
on. -/
def Flow.judge (f : Flow) (frame line : Nat) : Flow × Nat :=
  let due := f.got.filter fun x => decide (x.2.1 < frame ∨ (x.2.1 = frame ∧ x.2.2 ≤ line))
  let top := due.foldl (fun m x => max m x.1) 0
  if due.isEmpty then (f, 0)
  else
    let b := f.judged.getD ((due.map fun x => x.1).foldl min top - 1)
    if top ≤ b then (f, 0)
    else
      let here := (f.got.filter fun x => decide (b < x.1 ∧ x.1 ≤ top)).length
      ({ f with judged := some top, c2 := f.c2 + (top - b - here), got := f.got.filter fun x => decide (frame ≤ x.2.1 + 1) }, top - b - here)

/-- The line period of index `i` of a frame, and whether it lies in field 2, which begins with period 563. -/
def Flow.linePeriod (f : Flow) (i : Nat) : Nat × Bool := if f.interlaced ∧ 563 ≤ i then (i - 563, true) else (i, false)

/-- Active lines of the frame before line period `i`. -/
def Flow.linesBefore (f : Flow) (i : Nat) : Nat :=
  if f.interlaced ∧ 563 ≤ i then f.scanLines + min (i - 563) f.scanLines else min i f.scanLines

/-- Line period `i` of a frame is released: the cells that it carries are due in the slot one per cell time: a SEQ_RESYNC cell at the
start of the frame, the V cells of an active line in index order, then the A and X cells (R93, R255). X cells that a kind 5 flow
received for the slot go with the video flow of the slot; without one they are numbered consecutively. A decoder writes V cells only
(R354). -/
def State.releaseLine (s : State) (f0 : Flow) (frame i : Nat) : State :=
  let f := s.asWriter f0
  let ta := ((f.frames.find? fun y => y.1 == frame).map fun (y : Nat × Option Nat) => y.2).getD none
  let at_ := f.release frame ta i
  let fed := f.kind == 2 && (s.decoderOf f.handle).any fun x => decide (x.since ≤ frame) && !x.deleting.any fun k => decide (k ≤ frame)
  let lp := f.linePeriod i
  let ms := s.flowMembers f
  let n := max 1 ms.length
  let mine := f.store.filter fun p => p.frame == frame && p.line == i
  let anc := (s.net.flows.filter fun x => !x.tx && x.kind == 5 && x.slotKey == f.slotKey && f.kind != 5).flatMap fun x =>
    x.store.filter fun p => p.frame == frame && p.line == i
  let video := s.net.flows.any fun x => !x.tx && (x.kind == 1 || x.kind == 6) && x.slotKey == f.slotKey
  let live := f.kind == 1 || f.kind == 6 || fed || (f.kind == 5 && !video)
  let c := if f.kind = 5 ∨ (f.kind = 2 ∧ !fed) ∨ f.scanLines ≤ lp.1 then 0 else lineCells f.width (f.sampling != 0)
  let extra := (mine ++ anc).filter fun p => p.kind == 1 || p.kind == 2
  let start := if i = 0 ∧ live then
      ms.map fun m => (at_, sourceCell 0xC2 (4 * b01 f.quarter + 2 * b01 f.bond) m 0 0 (frame * 2 ^ 20 % 2 ^ 32) (frame % 65536) [])
    else []
  let bytes := if fed then f.decodedLine frame i else lineOf (mine.filter fun p => p.kind == 0) f.lineBytes
  let base := fun (m : Nat) => if m = 0 then f.cellNo else 0
  let vs := (List.range c).filterMap fun k => f.cellV ms frame (f.linesBefore i) lp.1 lp.2 base at_ bytes k
  let axs := if !live || fed then [] else (extra.filter fun p => p.kind == 1).map (fun p => (1, p.bytes)) ++
    (extra.filter fun p => p.kind == 2).map fun p => (2, p.bytes)
  let first := f.cellNo + if f.kind = 5 then 0 else f.linesBefore (i + 1) * memberCells (lineCells f.width (f.sampling != 0)) n 0
  let as_ := f.cellsAX frame lp.1 first lp.2 at_ ((c + n - 1) / n) axs
  s.putFlow { f0 with cells := f0.cells ++ (start ++ vs ++ as_), cellNo := f.cellNo + axs.length, releasing := some (frame, i + 1) }

/-- The engine writes the cells whose time has come (R255). -/
def State.writeCells (s : State) (f : Flow) : State :=
  let due := f.cells.filter fun c => decide (c.1 ≤ s.chrono)
  due.foldl (fun t c => t.fabricWrite f.writer c.2) (s.putFlow { f with cells := f.cells.filter fun c => !decide (c.1 ≤ s.chrono) })

/-- The engine hands the audio samples whose release has come to the crosspoint (R251, R255); those of an ASSOC flow are the embedded samples of
its slot, whose rate is measured (R295). -/
def State.releaseAudio (s : State) (f : Flow) : State :=
  let due := f.store.filter fun p => p.kind == 3 && decide (f.sampleRelease p.frame ≤ s.chrono)
  let rest := f.store.filter fun p => !(p.kind == 3 && decide (f.sampleRelease p.frame ≤ s.chrono))
  let frames := (due.map fun (p : Piece) => p.frame).eraseDups.length
  let s0 := s.putFlow { f with store := rest }
  let s1 := if f.assoc ∧ frames ≠ 0 ∧ s.rateSlot f.slotKey ∧ fullSlot f.slotKey < 1152 ∧ !s.blockShut 0x0D 0 then s0.noteSamples 0 (fullSlot f.slotKey) frames else s0
  due.foldl (fun t p =>
    let n := if f.assoc then t.embedded f.slotKey p.line else 18432 + f.slot + p.line
    if n = 0xFFFF then t else t.audioPut n f.fs p.frame (f.sampleValue p.bytes)) s1

/-! ### Send (R262-R267) -/

/-- Does the output of a send flow emit IDLE cells (R108)? -/
def State.outputIdle (s : State) (k : Nat) : Bool :=
  let q := quarterIndex k
  let x := s.selCur q
  !s.outEnabled (q / 4) || !x.valid || (s.generator x.gen).stopped ||
    ((s.port q).raster.isNone && s.silent (s.through x.src x.gen) x.gen)

/-- Launch of packet `i` after M0 without TR_OFFSET, in ns (R264). For interlaced formats the packets of field 2 count
from its own first line period (DEDUCED, log entry 33). -/
def Flow.launchOffset (f : Flow) (n d i : Nat) : Nat :=
  let vt := vTotal f.height
  let k := max 1 (f.packets n d)
  if f.kind = 5 then
    let per : Nat := if f.interlaced then 2 else 1
    let field := if f.interlaced then i / 4 else 0
    (field * 563 * 4 * per + (i % 4 + 1) * vt) * d * 10 ^ 9 / (n * vt * 4 * per)
  else if f.kind = 1 ∧ !f.linear then
    if f.interlaced then
      let half := max 1 (k / 2)
      let field := if half ≤ i then 1 else 0
      field * 563 * d * 10 ^ 9 / (n * vt) + (i - field * half) * (f.height / 2) * d * 10 ^ 9 / (n * vt * half)
    else i * f.height * d * 10 ^ 9 / (n * vt * k)
  else i * d * 10 ^ 9 / (n * k)

/-- When the last cell that packet `j` of a line needs is read after M0, in ns (R264). -/
def Flow.lastRead (f : Flow) (members : Nat) (n d j : Nat) : Nat :=
  let l := max 1 f.lmax
  let bl := max 1 f.lineBytes
  let per := max 1 ((bl + l - 1) / l)
  let last : Nat := if f.opt then min (f.height * bl) ((j + 1) * l) - 1 else
    let g := bl / f.pgroup
    min bl (((j + 1) * (g / per) + min (j + 1) (g % per)) * f.pgroup) - 1
  let line := last / bl
  line * d * 10 ^ 9 / (n * vTotal f.height) + (last % bl / 256 / max 1 members) * cellTimeScaled f.quarter / 768000

/-- When the last cell that packet `i` of a kind 6 frame needs is read after M0, in ns: the SDI raster begins with line period 0, each line
with its blanking (DEDUCED, log entry 33). -/
def Flow.lastReadSdi (f : Flow) (n d i : Nat) : Nat :=
  let words := sdiBits n d / 22500
  let w := (11008 * (i + 1) - 1) / 20
  let line := w / words
  let gap := words - f.width
  let cell := ((w % words + 1 - gap) * 5 / 2 - 1) / 256
  if w % words < gap then (if line = 0 then 0 else (line - 1) * d * 10 ^ 9 / (n * 1125) + (lineCells f.width false - 1) * cellTimeScaled f.quarter / 768000)
  else line * d * 10 ^ 9 / (n * 1125) + cell * cellTimeScaled f.quarter / 768000

/-- TRO_min (R264): 2 000 ns and the greatest lag of a read behind its packet's launch, rounded up to whole µs. -/
def Flow.troMin (f : Flow) (members n d : Nat) : Nat :=
  let l := max 1 f.lmax
  let per := if f.kind = 6 then sdiBits n d / (1125 * 11008) + 1 else (f.lineBytes + l - 1) / l
  let lag : Nat := if f.kind = 1 ∨ f.kind = 6 then
      ((List.range (max 1 per)).map fun j => (if f.kind = 6 then f.lastReadSdi n d j else f.lastRead members n d j) - f.launchOffset n d j).foldl max 0
    else 0
  (2000 + lag + 999) / 1000 * 1000

/-- TR_OFFSET of a send flow: 0 selects TRO_min. -/
def State.flowOffset (s : State) (f : Flow) : Nat :=
  let g := s.flowGen f
  if f.timing = 0 then f.troMin (s.flowMembers f).length (s.genN g) (s.genD g) else f.timing

/-- The Meridian from which the packets of a frame launch: that of R125, moved where a step has made it a part of the frame in progress
(R267). -/
def Flow.m0 (f : Flow) (n d frame : Nat) : Nat :=
  match f.moved with
  | some (last, by_) => if f.next.isSome ∧ frame ≤ last then ((meridianAt n d frame : Int) + by_).toNat else meridianAt n d frame
  | none => meridianAt n d frame

/-- Launch time of packet `i` of frame `frame` (R264); an audio packet, numbered since the epoch, launches 50 µs after
the crosspoint computed its last sample (DEDUCED, log entry 37). -/
def State.launchAt (s : State) (f : Flow) (frame i : Nat) : Nat :=
  if f.isAudio then s.evalInstant ((frame + 1) * f.perPacket - 1) f.fs + 50000
  else
    let g := s.flowGen f
    f.m0 (s.genN g) (s.genD g) frame + s.flowOffset f + f.launchOffset (s.genN g) (s.genD g) i

/-- Sequence number of packet `i` of frame `frame` (R263). -/
def Flow.seqOf (f : Flow) (n d frame i : Nat) : Nat :=
  if f.isAudio then frame % 65536
  else if f.kind = 5 then (frame * 8 + i) % 2 ^ 32
  else (frame * f.packets n d + i) % 2 ^ 32

/-- Is packet `i` in field 2? -/
def Flow.inField2 (f : Flow) (n d i : Nat) : Bool := f.interlaced && decide (f.packets n d / 2 ≤ i)

/-- RTP timestamp of packet `i` of frame `frame` (R263). -/
def Flow.tsOf (f : Flow) (n d frame i : Nat) : Nat :=
  if f.isAudio then frame * f.perPacket % 2 ^ 32
  else if f.kind = 6 then (if d = 1001 then frame * d * 148500000000 / (1001 * n) else frame * d * 148500000 / n) % 2 ^ 32
  else if f.inField2 n d i then (2 * frame + 1) * d * 45000 / n % 2 ^ 32
  else frame * d * 90000 / n % 2 ^ 32

/-- Is M set on packet `i`: the last of the frame, or of the field (R262)? -/
def Flow.marker (f : Flow) (n d i : Nat) : Bool :=
  let k := f.packets n d
  i + 1 == k || (f.interlaced && i + 1 == k / 2)

/-- The bytes of a line of the output as a send flow has taken them; a byte not taken is 0. -/
def Flow.taken (f : Flow) (frame line : Nat) : List Byte :=
  (lineOf (f.store.filter fun p => p.kind == 0 && p.frame == frame && p.line == line) f.lineBytes).map fun b => b.getD 0

/-- The line period, in its field, of active line `k` of a frame, and whether it lies in field 2. -/
def Flow.activeLine (f : Flow) (k : Nat) : Nat × Bool :=
  if f.interlaced ∧ f.scanLines ≤ k then (k - f.scanLines, true) else (k, false)

/-- One SRD header (PRESUMED: ST 2110-20, log entry 32). -/
def srdHeader (len line px : Nat) (f2 more : Bool) : List Byte := be16 len ++ be16 (line + 32768 * b01 f2) ++ be16 (px + 32768 * b01 more)

/-- RTP payload of packet `i` of a kind 1 frame, in GPM or BPM (R248). Under BPM the packets of an interlaced format run from field 1 into field
2, so that one of them may hold the end of the one and the start of the other (DESIGN CHOICE, log entry 135). -/
def Flow.videoPayload (f : Flow) (n d frame i : Nat) : List Byte :=
  let l := max 1 f.lmax
  let bl := max 1 f.lineBytes
  let seq := f.seqOf n d frame i
  let key := fun (k : Nat) => let lp := f.activeLine k; lp.1 + if lp.2 then 563 else 0
  if f.opt then
    let a := i * l
    let b := min (f.height * bl) (a + l)
    let parts := ((List.range (b / bl + 1)).filter fun k => decide (a / bl ≤ k ∧ k * bl < b)).map fun k =>
      (k, max a (k * bl) - k * bl, min b ((k + 1) * bl) - k * bl)
    be16 (seq / 65536) ++ (parts.zipIdx.flatMap fun x => srdHeader (x.1.2.2 - x.1.2.1) (f.activeLine x.1.1).1 (x.1.2.1 * 2 / f.pgroup)
        (f.activeLine x.1.1).2 (x.2 + 1 != parts.length)) ++ parts.flatMap fun x => bytesAt (f.taken frame (key x.1)) x.2.1 (x.2.2 - x.2.1)
  else
    let per := max 1 ((bl + l - 1) / l)
    let g := bl / f.pgroup
    let start := fun (j : Nat) => (j * (g / per) + min j (g % per)) * f.pgroup
    let k := i / per
    let j := i % per
    be16 (seq / 65536) ++ srdHeader (start (j + 1) - start j) (f.activeLine k).1 (start j * 2 / f.pgroup) (f.activeLine k).2 false ++
      bytesAt (f.taken frame (key k)) (start j) (start (j + 1) - start j)

/-- RTP payload of audio packet `m`: the samples taken of each channel; a sample not taken is 0 (R248, R251). -/
def Flow.audioPayload (f : Flow) (m : Nat) : List Byte :=
  (List.range f.perPacket).flatMap fun i => (List.range f.width).flatMap fun c =>
    let v := ((f.store.find? fun p => p.kind == 3 && p.frame == m * f.perPacket + i && p.line == c).map fun (p : Piece) => p.bytes).getD (zeros 3)
    if f.kind = 4 then be8 0 ++ v else v.take f.sampleBytes

/-- RTP header (R262). -/
def Flow.rtp (f : Flow) (marker : Bool) (seq ts : Nat) : List Byte :=
  be8 0x80 ++ be8 (128 * b01 marker + f.pt) ++ be16 seq ++ be32 ts ++ be32 (Config.flowSsrc f.index).toNat

/-- The frame of a packet on a leg (R262). -/
def State.legFrame (s : State) (f : Flow) (g : FlowLeg) (udp : List Byte) : List Byte :=
  let dst : Nat := if isGroup f.ipv6 g.dest then groupMac f.ipv6 g.dest else g.destMac
  let src : Nat := if s.sideB then g.sideB else g.sideA
  let body := udpHeader g.udpSrc g.udpDst udp.length ++ udp
  let ip := if f.ipv6 then ipv6Header (4 * g.dscp) 64 17 src g.dest body.length else ipv4Header (4 * g.dscp) 64 17 src g.dest body.length
  putL4Csum (putIpCsum (etherHeader dst (macAddress g.port) g.vlan (if f.ipv6 then 0x86DD else 0x0800) ++ ip ++ body))

/-- Does this card send a leg (R266)? -/
def State.sendsLeg (s : State) (g : FlowLeg) : Bool := bit g.sides (b01 s.sideB)

/-- A packet goes to one leg: queued in Q6, or discarded at the engine while the leg's link is down (R267). `ts` is its RTP timestamp,
`f.c0` its number. -/
def State.sendLeg (s : State) (f : Flow) (i ts launch : Nat) (udp : List Byte) : State :=
  match f.legs[i]? with
  | none => s
  | some g =>
    if !s.sendsLeg g then s
    else if !s.linkUp g.port then s.legDown f.index i false
    else
      let s1 := match s.flow true f.index with
        | none => s
        | some x => s.putFlow { x.modLeg i fun l => { l with packets := l.packets + 1 } with ts := ts }
      (s1.queueFrame g.port ⟨6, pad64 (s1.legFrame f g udp), some launch, some (f.index, i, f.c0), none, none⟩).endCause 0x260A f.src (f.index + 65536 * i)

/-- A packet of a send flow is scheduled: its sequence number and its SRTP index are consumed, whatever becomes of it, and the index
may come to 2^47 (R268, R270). -/
def State.schedule (s : State) (f : Flow) : State :=
  let s1 := s.putFlow { f with c0 := f.c0 + 1, seq := (f.seq + 1) % 2 ^ 32, srtpIndex := f.srtpIndex + b01 f.srtp }
  if f.srtp ∧ f.srtpIndex + 1 = 2 ^ 47 then s1.flowEvent f 0x260D 0 else s1

/-- Change a send flow where it stands. -/
def State.modSend (s : State) (i : Nat) (g : Flow → Flow) : State :=
  match s.flow true i with
  | none => s
  | some f => s.putFlow (g f)

/-- A send packet is due (R264-R271): SCHEDULED counts it, and it is protected under SRTP where the flow says so, or
dropped for want of its key. -/
def State.sendPacket (s : State) (f : Flow) (marker : Bool) (seq ts launch : Nat) (payload : List Byte) : State :=
  let hdr := f.rtp marker (seq % 65536) ts
  let dead := f.srtp && (f.revoked || !s.boundOk f.vslot f.vgen .srtp)
  let spent := f.srtp && decide (2 ^ 48 - 1 ≤ f.srtpIndex)
  let s1 := s.schedule { f with seq := seq }
  if dead then (s1.modSend f.index fun x => { x with c5 := x.c5 + 1, revoked := true }).flowEvent f 0x260B 0
  else if spent then s1.modSend f.index fun x => { x with c5 := x.c5 + 1 }
  else
    let body := if f.srtp then Config.srtpSeal (s.slot f.vslot).key f.salt f.srtpIndex hdr payload else payload
    (List.range f.legs.length).foldl (fun t i => t.sendLeg f i ts launch (hdr ++ body)) s1

/-! ### Wire rate and engines (R252, R269) -/

/-- Bytes of a packet's headers on a leg (R269). -/
def State.overhead (s : State) (f : Flow) (g : FlowLeg) : Nat :=
  let pl : Nat := if f.kind = 1 then (if f.opt ∧ f.tx then 14 else 8) else if f.kind = 2 then 4 else if f.kind = 8 then 3
    else if f.kind = 5 ∨ f.kind = 6 then 8 else 0
  12 + pl + 8 + (if f.ipv6 then 40 else 20) + 18 + (if g.vlan = 0 then 0 else 4) + 20 +
    (if s.flag (Reg.NET_CTL_MACSEC_EN g.port) then 32 else 0) + if f.srtp then 16 else 0

/-- Wire rate of a leg in bit/s, rounded up (R269). -/
def State.wireRate (s : State) (f : Flow) (g : FlowLeg) : Nat :=
  let o := s.overhead f g
  let gen := s.flowGen f
  let n : Nat := if f.tx then s.genN gen else f.rateN
  let d : Nat := max 1 (if f.tx then s.genD gen else f.rateD)
  let k := f.packets n d
  if f.kind = 3 ∨ f.kind = 4 then 8 * (f.width * f.fs * f.sampleBytes + f.fs / max 1 f.perPacket * o)
  else if f.kind = 2 ∨ f.kind = 7 ∨ f.kind = 8 then
    let l : Nat := if f.kind = 7 then 1316 else max 1 f.lmax
    let r := if f.tx then s.encoderRate f.kind f.encoder f.lmax else Config.xsReceiveRate f.width f.height f.rateN f.rateD f.sampling
    r + 8 * ((r + 8 * l - 1) / (8 * l)) * o
  else
    let bytes := (if f.kind = 1 then f.height * f.lineBytes else if f.kind = 5 then k * f.lmax else k * 1376) + k * o
    (8 * bytes * n + (d - 1)) / d

/-- Is a leg charged on this card: every receive leg, and the send legs of its side (R252)? -/
def State.legCharged (s : State) (f : Flow) (g : FlowLeg) : Bool := !f.tx || s.sendsLeg g

/-- Wire rate of a flow on this card, over its legs. -/
def State.flowRate (s : State) (f : Flow) : Nat := ((f.legs.filter (s.legCharged f)).map fun (g : FlowLeg) => s.wireRate f g).sum

/-- Demand of an engine in one direction: bit/s and flows (R252, Table 3.1). -/
def State.engineDemand (s : State) (e : Nat) (tx : Bool) : Nat × Nat :=
  let fs := s.net.flows.filter fun f => f.engine == e && f.tx == tx
  ((fs.map fun (f : Flow) => s.flowRate f).sum, fs.length)

/-- The engine that ranger firmware gives a flow: the lowest READY one with room, else the lowest READY one (R252). -/
def State.pickEngine (s : State) (f : Flow) : Option Nat :=
  let ready := (List.range (capCount s.variant 0x18)).filter fun e => s.isReady 0x18 e
  match ready.find? fun e =>
      let x := s.engineDemand e f.tx
      decide (x.1 + s.flowRate f ≤ 200 * 10 ^ 9) && decide (x.2 < 64) with
  | some e => some e
  | none => ready.head?

/-! ### Membership (R253) -/

/-- An IGMPv3 or MLDv2 report with one group record (PRESUMED: RFC 3376 and 3810, log entry 34). Record types:
1 MODE_IS_INCLUDE, 2 MODE_IS_EXCLUDE, 3 CHANGE_TO_INCLUDE, 4 CHANGE_TO_EXCLUDE, 5 ALLOW_NEW_SOURCES,
6 BLOCK_OLD_SOURCES. -/
def State.report (s : State) (f : Flow) (g : FlowLeg) (type : Nat) : List Byte :=
  let w : Nat := if f.ipv6 then 16 else 4
  let srcs := if f.opt then beBytes w g.filter else []
  let record := be8 type ++ be8 0 ++ be16 (b01 f.opt) ++ beBytes w g.dest ++ srcs
  let src := s.legLocal g
  if f.ipv6 then
    let dst := 0xff020000000000000000000000000016
    let icmp := be8 143 ++ be8 0 ++ be16 0 ++ be16 0 ++ be16 1 ++ record
    let pseudo := beBytes 16 src ++ beBytes 16 dst ++ be32 icmp.length ++ be32 58
    let body := be8 58 ++ be8 0 ++ be8 5 ++ be8 2 ++ be16 0 ++ be8 1 ++ be8 0 ++ putAt icmp 2 (be16 (checksum (pseudo ++ icmp)))
    etherHeader (groupMac true dst) (macAddress g.port) g.vlan 0x86DD ++ ipv6Header 0 1 0 src dst body.length ++ body
  else
    let dst := 0xE0000016
    let igmp := be8 0x22 ++ be8 0 ++ be16 0 ++ be16 0 ++ be16 1 ++ record
    putIpCsum (etherHeader (groupMac false dst) (macAddress g.port) g.vlan 0x0800 ++ ipv4Header 0xC0 1 2 src dst igmp.length ++
      putAt igmp 2 (be16 (checksum igmp)))

/-- Send a membership report of a leg with a group destination. -/
def State.sendReport (s : State) (f : Flow) (g : FlowLeg) (type : Nat) : State :=
  if f.tx ∨ !isGroup f.ipv6 g.dest then s else s.queueFrame g.port (firmwareFrame 5 (s.report f g type))

/-- What a receive flow wrote delivers slot-idle: its slot or the members of its bond, unless another flow writes the slot (R260, R277). -/
def State.flowIdle (s : State) (f : Flow) : State :=
  if f.tx ∨ !(f.kind == 1 || f.kind == 5 || f.kind == 6) ∨
      (s.net.flows.any fun x => !x.tx && x.index != f.index && (x.kind == 1 || x.kind == 5 || x.kind == 6) && x.slotKey == f.slotKey && !x.loss) then s
  else (s.flowMembers f).foldl (fun t m => t.slotIdle (slotKey m f.quarter)) s

/-- A flow, or its leg B, is removed: the groups are left, its causes end, and a receive slot delivers slot-idle (R253, R272, R277). -/
def State.removeFlow (s : State) (f : Flow) (legB : Bool) : State :=
  let gone := if legB then f.legs.drop 1 else f.legs
  let s1 := gone.foldl (fun t g => t.sendReport f g (if f.opt then 6 else 3)) s
  let b := ((f.legs[1]?).map fun (g : FlowLeg) => (g.packets, g.linkDown)).getD f.legBGone
  let s2 := if legB then s1.putFlow { f with legs := f.legs.take 1, deleting := none, legBGone := b }
    else { s1 with net := { s1.net with flows := s1.net.flows.filter fun x => !(x.tx == f.tx && x.index == f.index) } }
  let s3 := if legB then s2 else (s2.endCause (if f.tx then 0x260B else 0x2601) f.src f.index).flowIdle f
  ([0, 1] : List Nat).foldl (fun t i => if legB ∧ i = 0 then t else t.endCause (if f.tx then 0x260A else 0x2602) f.src (f.index + 65536 * i)) s3

/-- A flow whose deletion waits for the end of the frame goes when the frame has ended, and COMPLETE follows (R277). -/
def State.flowEnded (s : State) (f : Flow) : State :=
  match f.deleting with
  | some legB => (s.removeFlow f legB).endWait (.object 9 f.handle) 0
  | none => s

end Sys2Proof.Machine
end

