-- ==== Sys2Proof/Machine/Audio.lean ====
section
/-!
DEFINITION. The audio crosspoint and the TDM ports (chapter 10): rates, changes of sinks, ramps and gains, the
evaluation of one sample, and the ports' frames.
-/
namespace Sys2Proof.Machine

/-! ### Numbers and rates (R278-R281) -/

/-- Source of the audio block as a whole, and of the DSP that serves a sink (R280, Table 18.3). -/
def srcAudioBlock : Nat := srcOf 5 3 0xFFFF
def State.dspOf (s : State) (m : Nat) : Nat := m % max 1 (capCount s.variant 0x0D)
def State.srcSink (s : State) (m : Nat) : Nat := srcOf 5 3 (s.dspOf m)

/-- Does the clock set run at 96 kHz? While the clocks run, a write of RATE96 waits for their next start (R301). -/
def State.clk96 (s : State) : Bool := if s.rd Reg.AUD_CLK_STATE = 0 then s.flag Reg.AUD_CLK_RATE96 else s.aud.fast

/-- Is a number one of the sources and sinks present: embedded, IP or TDM (Tables 10.1, 10.2, 10.4)? -/
def State.audioNumber (s : State) (n : Nat) : Bool :=
  if n < 18432 then decide (n / 16 < s.externalSlots)
  else if n < 26624 then true
  else decide (n < 26880) && (!s.clk96 || decide (n % 32 < 16))

/-- May a number be named as a source? -/
def State.audioSourceOk (s : State) (n : Nat) : Bool := n == 0xFFFF || s.audioNumber n || decide (26880 ≤ n ∧ n < 26944)

/-- The audio flow of a direction that carries IP channel `i`. -/
def State.audioFlow (s : State) (tx : Bool) (i : Nat) : Option Flow :=
  s.net.flows.find? fun f => f.tx == tx && (f.kind == 3 || f.kind == 4) && !f.assoc && decide (f.slot ≤ i ∧ i < f.slot + f.width)

/-- A tone generator: frequency, level and rate. -/
def State.tone (s : State) (t : Nat) : Nat × Nat × Bool :=
  ((s.aud.tones.find? fun x => x.1 == t).map fun x => x.2).getD (0, 0, false)

/-- The rate of a source. -/
def State.sourceFs (s : State) (n : Nat) : Nat :=
  let r := if n < 18432 then s.slotRate96 (n / 16) false
    else if n < 26624 then ((s.audioFlow false (n - 18432)).map fun (f : Flow) => f.fs == 96000).getD false
    else if n < 26880 then s.clk96 else (s.tone (n - 26880)).2.2
  if r then 96000 else 48000

/-- The rate of a sink. -/
def State.sinkFs (s : State) (m : Nat) : Nat :=
  let r := if m < 18432 then s.slotRate96 (m / 16) true
    else if m < 26624 then ((s.audioFlow true (m - 18432)).map fun (f : Flow) => f.fs == 96000).getD false else s.clk96
  if r then 96000 else 48000

/-- The rate class of a count of samples in 1 s (R295). -/
def rateClass (n : Nat) : Nat :=
  if n < 1000 then 0 else if 47000 ≤ n ∧ n ≤ 49000 then 1 else if 94000 ≤ n ∧ n ≤ 98000 then 2 else 3

/-- The group of a source for rate measurement: kind and index as AUD_RATE_STATUS names them. TDM sources run with the clock set, which is
measured in SLAVE mode. -/
def State.rateGroup (s : State) (n : Nat) : Option (Nat × Nat) :=
  if n < 18432 then some (0, n / 16)
  else if n < 26624 then (s.audioFlow false (n - 18432)).map fun (f : Flow) => (1, f.index)
  else if n < 26880 ∧ s.flag Reg.AUD_CLK_SLAVE then some (2, 0) else none

/-- Does the measured class of a source differ from its declared rate (R284)? -/
def State.classWrong (s : State) (n : Nat) : Bool :=
  match s.rateGroup n with
  | none => false
  | some g =>
    match s.aud.rates.find? fun r => r.kind == g.1 && r.index == g.2 with
    | none => false
    | some r => r.cls != 0 && r.cls != s.sourceFs n / 48000

/-! ### Arithmetic (R137, R284, R287) -/

/-- `n / d` rounded to nearest, ties away from zero. -/
def roundDiv (n : Int) (d : Nat) : Int := if 0 ≤ n then (2 * n + d) / (2 * d) else -((2 * (-n) + d) / (2 * d))

/-- Limit to 24 bits; the second part says that it did. -/
def sat24 (v : Int) : Int × Bool :=
  if v < -8388608 then (-8388608, true) else if 8388607 < v then (8388607, true) else (v, false)

/-- Gain and inversion of R284: `sat` limits the product, and what negation makes of it (log entry 38). -/
def gained (c : Nat) (inv : Bool) (v : Int) : Int × Bool :=
  let a := sat24 (roundDiv (c * v) (2 ^ 23))
  let b := sat24 (if inv then -a.1 else a.1)
  (b.1, a.2 || b.2)

/-- The gains of the old and the new source `j` samples into a ramp (R137). -/
def Fade.gains (f : Fade) (j : Nat) : Nat × Nat :=
  if f.dip then
    let h := f.len / 2
    if j < h then (2 ^ 23 - (j + 1) * 2 ^ 23 / h, 0) else (0, (j - h + 1) * 2 ^ 23 / h)
  else
    let g := (j + 1) * 2 ^ 23 / f.len
    (2 ^ 23 - g, g)

/-- One ramp at sample `k`, from the signal it leaves to the source it moves to. -/
def Fade.mix (f : Fade) (k : Nat) (old new : Int) : Int :=
  if k < f.start then old
  else if k < f.start + f.len then
    let g := f.gains (k - f.start)
    roundDiv (g.1 * old + g.2 * new) (2 ^ 23)
  else new

/-- The ramps of a sink at sample `k`, oldest first: `olds` gives the value of the source that a ramp leaves, `cur` that
of the sink's source (R137, R138). -/
def mixAll (olds : Fade → Int) (cur : Int) (k : Nat) : List Fade → Int → Int
  | [], acc => acc
  | f :: r, acc => mixAll olds cur k r (f.mix k acc ((r.head?.map olds).getD cur))

/-- The gain of the source that the first ramp of a list leaves: the one kept by the first ramp that kept one. -/
def gainOf (cur : Nat × Bool) : List Fade → Nat × Bool
  | [] => cur
  | f :: r => f.gain.getD (gainOf cur r)

/-- The gain coefficient of a sink at sample `k` (R287). -/
def Sink.coef (x : Sink) (k : Nat) : Nat :=
  match x.gainRamp with
  | none => x.gain
  | some (c0, start, n) =>
    if start + n ≤ k ∨ n = 0 then x.gain
    else ((c0 : Int) + Int.tdiv (((k - start + 1 : Nat) : Int) * ((x.gain : Int) - c0)) n).toNat

/-- The output of a sink at sample `k` from the values of sources, and whether it or a signal that is heard in it was limited. -/
def Sink.output (x : Sink) (val : Nat → Int) (src k : Nat) : Int × Bool :=
  let old := fun (f : Fade) => match f.zeroAt with
    | some z => if z ≤ k then 0 else val f.old
    | none => val f.old
  let c := x.coef k
  match x.fades with
  | [] => gained c x.invert (val src)
  | f0 :: _ =>
    if x.fades.any fun f => f.gain.isSome then
      let g := fun (f : Fade) (r : List Fade) => let q := gainOf (c, x.invert) (f :: r); gained q.1 q.2 (old f)
      let tail := fun (f : Fade) => x.fades.drop (x.fades.idxOf f + 1)
      let new := gained c x.invert (val src)
      let y := sat24 (mixAll (fun f => (g f (tail f)).1) new.1 k x.fades (g f0 (tail f0)).1)
      let heard := x.fades.any fun f => decide (k < f.start + f.len) && (g f (tail f)).2
      (y.1, y.2 || heard || (new.2 && x.fades.getLast?.any fun f => decide (f.start ≤ k)))
    else gained c x.invert (mixAll old (val src) k x.fades (old f0))

/-- The ramps still needed after sample `k`. -/
def keepFades (k : Nat) : List Fade → List Fade
  | [] => []
  | f :: r => let t := keepFades k r
    if t.length < r.length then t else if f.start + f.len ≤ k then r else f :: r

/-! ### Sources at a sample (R283, R288, R293) -/

/-- The SDI port and slot of a TDM source. -/
def tdmOf (n : Nat) : Nat × Nat := ((n - 26624) / 32, (n - 26624) % 32)

/-- Change a TDM port. -/
def State.modTdm (s : State) (p : Nat) (f : TdmPort → TdmPort) : State :=
  { s with aud := { s.aud with ports := s.aud.ports.zipIdx.map fun x => if x.2 == p then f x.1 else x.1 } }

/-- A TDM port. -/
def State.tdm (s : State) (p : Nat) : TdmPort := s.aud.ports.getD p ⟨TdmDir.reset, TdmDir.reset, 0, []⟩

/-- A slip of a port: direction 0 SDI, 1 SDO (R293). -/
def State.slipTdm (s : State) (p dir : Nat) : State := s.raise 0x2705 srcAudioBlock (p + 65536 * dir)

/-- A frame leaves a FIFO, or its last frame is given again. -/
def TdmDir.pull (d : TdmDir) : TdmDir × Bool :=
  match d.fifo with
  | f :: r => ({ d with fifo := r, last := f, outs := d.outs + 1, starved := false }, false)
  | [] => ({ d with outs := d.outs + 1, repeats := d.repeats + 1, starved := true }, true)

/-- A frame enters a FIFO, or is discarded when it is full. -/
def TdmDir.push (d : TdmDir) (f : List Int) : TdmDir × Bool :=
  if 32 ≤ d.fifo.length then ({ d with ins := d.ins + 1, drops := d.drops + 1 }, true)
  else ({ d with ins := d.ins + 1, fifo := d.fifo ++ [f] }, false)

/-- The crosspoint takes a frame from every running SDI port. -/
def State.pullSdi (s : State) : State :=
  (List.range 8).foldl (fun t p =>
    if (t.tdm p).sdi.running then
      let r := (t.tdm p).sdi.pull
      let t1 := t.modTdm p fun x => { x with sdi := r.1 }
      if r.2 then t1.slipTdm p 0 else t1
    else t) s

/-- Entry `i` of the sine table of 16 384 entries (R288), as a multiple of 2^-60: the sine of i/16 384 of a turn by its series, the angle
brought into the first quarter (log entry 39). -/
def sineEntry (i : Nat) : Int :=
  let j := i % 16384
  let r := if j / 4096 % 2 = 0 then j % 4096 else 4096 - j % 4096
  let x : Nat := 3622009729038561421 * r / 8192
  let sq := x * x / 2 ^ 60
  let v := ((List.range 14).foldl (fun (a : Int × Nat) n =>
    (a.1 + (if n % 2 = 0 then (a.2 : Int) else -(a.2 : Int)), a.2 * sq / 2 ^ 60 / ((2 * n + 2) * (2 * n + 3)))) (0, x)).1
  if j < 8192 then v else -v

/-- The value before saturation of a tone of level `c` at phase `p` of `fs`: between two entries the table is read linearly (R288). -/
def toneValue (c p fs : Nat) : Int :=
  let i := 16384 * p / fs
  let f := 16384 * p % fs
  roundDiv (c * (sineEntry i * (fs - f : Nat) + sineEntry (i + 1) * (f : Int))) (fs * 2 ^ 60)

/-- A source gives its value at sample `k`: the sample in its store, else its last for up to 8 missing samples, then 0. A TDM port whose FIFO
is empty gives its last frame again (R293). -/
def State.advanceSource (s : State) (k n : Nat) : State :=
  let x := s.audioSource n
  let keep := x.samples.filter fun p => decide (k < p.1)
  if 26880 ≤ n then
    let t := s.tone (n - 26880)
    let fs : Nat := if t.2.2 then 96000 else 48000
    let v : Int := if t.1 = 0 then 0 else (sat24 (toneValue t.2.1 (t.1 * k % fs) fs)).1
    s.putAudioSource { x with cur := v }
  else if 26624 ≤ n ∧ !bit (s.rd (Reg.AUD_PORT_SLOTS_MASK (tdmOf n).1)) (tdmOf n).2 then s.putAudioSource { x with cur := 0, samples := [] }
  else if 26624 ≤ n ∧ (s.tdm (tdmOf n).1).sdi.running ∧ (s.tdm (tdmOf n).1).sdi.starved then
    s.putAudioSource { x with cur := x.last, samples := keep }
  else if 26624 ≤ n ∧ s.flag Reg.AUD_CLK_SLAVE ∧ (s.tdm (tdmOf n).1).sdi.running then
    let v := (s.tdm (tdmOf n).1).sdi.last.getD (tdmOf n).2 0
    s.putAudioSource { x with cur := v, last := v, run := 0, samples := [] }
  else
    match x.samples.find? fun p => p.1 == k with
    | some p => s.putAudioSource { x with cur := p.2, last := p.2, run := 0, samples := keep }
    | none =>
      (s.putAudioSource { x with cur := if x.run < 8 then x.last else 0, run := x.run + 1, missing := x.missing + 1, samples := keep }).raise
        0x2701 srcAudioBlock n

/-! ### Sinks at a sample (R284-R289) -/

/-- The sinks that have a record or belong to a connected output. -/
def State.sinkNums (s : State) : List Nat :=
  ((s.aud.sinks.map fun (x : Sink) => x.num) ++ s.connected.flatMap fun q => (s.sinksOf (s.outKey q)).map fun (p : Nat × Nat) => p.1).eraseDups

/-- Is a sink active: its source is not silence, or a ramp still runs? -/
def State.sinkActive (s : State) (m : Nat) : Bool := s.sinkSource m != 0xFFFF || !(s.sink m).fades.isEmpty

/-- DSP weight of a sink (R80). -/
def State.sinkWeight (s : State) (m : Nat) : Nat := s.sinkFs m / 48000

/-- Does the weight of the sink's DSP reach as far as this sink (R289)? -/
def State.sinkServed (s : State) (m : Nat) : Bool :=
  let mine := s.sinkNums.filter fun j => decide (j ≤ m) && s.dspOf j == s.dspOf m && s.sinkActive j
  decide ((mine.map fun j => s.sinkWeight j).sum ≤ 8192)

/-- A change of a sink applies at its target sample `k` (R286, R287). -/
def State.applyChange (s : State) (fs k : Nat) (m : Nat) (c : SinkChange) : State :=
  let u := (s.sink m).undo k
  let old := u.2.getD (s.sinkSource m)
  let c0 := u.1.coef (k - 1)
  let len : Nat := if c.mode = 1 then 0 else (if c.ramp = 0 then 5 else c.ramp) * (fs / 1000)
  let x1 : Sink := match c.source with
    | none => { u.1 with fixed := false, held := none }
    | some v => { u.1 with fixed := true, source := v }
  let new := (s.putSink x1).sinkSource m
  let ramp := if len = 0 ∨ c0 = c.gain then none else some (c0, k, len)
  let x2 := { x1 with gain := c.gain, invert := c.invert, gainRamp := ramp, changes := x1.changes.filter fun d => d != c }
  s.putSink (if new = old then x2
    else x2.change old len k (c.mode == 2) (if c0 ≠ c.gain ∨ u.1.invert ≠ c.invert then some (c0, u.1.invert) else none))

/-- A take reaches a sink at its sample: a FOLLOW sink starts its ramp there, or stays on its former source (R285). -/
def State.applyTake (s : State) (m : Nat) (c : TakeMark) : State :=
  let x : Sink := { s.sink m with takes := (s.sink m).takes.filter fun d => d != c }
  s.putSink (if x.fixed then x
    else if c.noFollow then { x with held := some (x.held.getD c.old) }
    else { x with held := none }.change (x.held.getD c.old) c.len c.first c.dip none)

/-- What may reach a sink at a sample. -/
inductive SinkStep
  | route (c : SinkChange)
  | take (c : TakeMark)
  deriving DecidableEq, Repr

/-- The sample of a sink at `fs` at which a step is due, with its order of admission. -/
def SinkStep.key (fs : Nat) : SinkStep → Nat × Nat
  | .route c => (c.target * (fs / 48000), c.order)
  | .take c => (c.first, c.order)

/-- Insert a step in ascending order of sample and admission. -/
def insertStep (fs : Nat) (a : SinkStep) : List SinkStep → List SinkStep
  | [] => [a]
  | b :: r =>
    let x := a.key fs
    let y := b.key fs
    if x.1 < y.1 ∨ (x.1 = y.1 ∧ x.2 < y.2) then a :: b :: r else b :: insertStep fs a r

/-- Carry out the routes and takes of a sink that are due at sample `k`, in the order of their samples, at one sample in admission order. -/
def State.applyChanges (s : State) (fs k m : Nat) : State :=
  let x := s.sink m
  let steps := (x.changes.map SinkStep.route ++ x.takes.map SinkStep.take).filter fun c => decide ((c.key fs).1 ≤ k)
  (steps.foldl (fun l c => insertStep fs c l) []).foldl (fun t c => match c with
    | .route r => t.applyChange fs k m r
    | .take r => t.applyTake m r) s

/-- The channel of an audio send flow that carries a sink. -/
def State.flowChannel (s : State) (f : Flow) (m : Nat) : Option Nat :=
  if !f.tx ∨ !(f.kind == 3 || f.kind == 4) then none
  else if f.assoc then ((s.sinksOf f.slotKey).find? fun p => p.1 == m && decide (p.2 < f.width)).map fun p => p.2
  else if 18432 + f.slot ≤ m ∧ m < 18432 + f.slot + f.width then some (m - 18432 - f.slot) else none

/-- A sink gives its sample: the A cells of its output, the send flows made from it and its TDM port take it. -/
def State.giveSample (s : State) (fs k m : Nat) (v : Int) : State :=
  let x := s.sink m
  let due : List (Nat × Int) := if m < 18432 then (x.due ++ [(k, v)]).drop (x.due.length - 63) else []
  let s1 := s.putSink { x with sample := v, due := due, fades := keepFades k x.fades }
  let feed := fun (f : Flow) => match s.flowChannel f m with
    | none => f
    | some c => if f.fs = fs then
        { f with store := ⟨3, k, c, 0, beBytes 3 (toBits 24 v)⟩ :: f.store.filter fun p => decide (k < p.frame + 4 * f.perPacket) } else f
  { s1 with net := { s1.net with flows := s1.net.flows.map feed } }

/-- Compute sample `k` of a sink (R284, R289). -/
def State.evalSink (s : State) (fs k m : Nat) : State :=
  let src := s.sinkSource m
  let x := s.sink m
  let d := s.dspOf m
  let wrong := src != 0xFFFF && ((s.sourceFs src != fs) || s.classWrong src)
  if s.sinkActive m ∧ !s.sinkServed m then
    ((s.bump (Reg.AUD_DSP_OVER_COUNT d) 1).raise 0x2707 (s.srcSink m) d).giveSample fs k m 0
  else if wrong then
    ((s.putSink { x with mismatch := x.mismatch + 1 }).raise 0x2704 (s.srcSink m) (m + 0x30000)).giveSample fs k m 0
  else
    let y := x.output (fun n => if n = 0xFFFF then 0 else (s.audioSource n).cur) src k
    let s1 := if y.2 then (s.putSink { x with clip := x.clip + 1 }).raise 0x2708 (s.srcSink m) m else s
    (s1.endCause 0x2704 (s.srcSink m) (m + 0x30000)).giveSample fs k m y.1

/-- The crosspoint delivers the frame of sample `k` to every running SDO port. -/
def State.pushSdo (s : State) (k : Nat) : State :=
  (List.range 8).foldl (fun t p =>
    if (t.tdm p).sdo.running then
      let f : List Int := (List.range 32).map fun i =>
        if bit (t.rd (Reg.AUD_PORT_SLOTS_MASK p)) i then (t.sink (26624 + 32 * p + i)).sample else 0
      let r := (t.tdm p).sdo.push f
      let t1 := t.modTdm p fun x => { x with sdo := r.1, made := ((k, f) :: x.made).take 8 }
      if r.2 then t1.slipTdm p 1 else t1
    else t) s

/-- Routes whose target sample has been evaluated complete (R297). -/
def State.routesDone (s : State) (k : Nat) : State :=
  let ids := s.cyx.pendings.filterMap fun p => match p.waits with
    | .object 10 i => if i ≤ k then some i else none
    | _ => none
  ids.foldl (fun t i => t.endWait (.object 10 i) 0) s

/-- DSPs with no silenced sink left: the cause of AUD_DSP_OVER ends (R296). -/
def State.dspEnds (s : State) : State :=
  (List.range (capCount s.variant 0x0D)).foldl (fun t d =>
    if t.sinkNums.any fun m => t.dspOf m == d && t.sinkActive m && !t.sinkServed m then t else t.endCause 0x2707 (srcOf 5 3 d) d) s

/-- The sources that meter bars show (R320). -/
def State.meterSources (s : State) : List Nat :=
  (s.mvw.heads.flatMap fun (x : Head) => (x.cur.met.filter fun m => m.2.en).map fun (m : Nat × MetSet) => m.2.source).eraseDups

/-- The value of a source at sample `k` is noted for the meter bars that show it now or from a later head Meridian (R320). -/
def State.noteMeter (s : State) (k n : Nat) : State :=
  let x := s.audioSource n
  s.putAudioSource { x with hist := ((k, x.cur) :: x.hist).take 9600 }

/-- The crosspoint computes sample `k` of every sink at one rate (R282). Every source of that rate that feeds something, or that ever had a sample,
gives one (R283; log entry 39 for the others). -/
def State.evaluate (s : State) (rate96 : Bool) (k : Nat) : State :=
  let fs : Nat := if rate96 then 96000 else 48000
  let s1 := if rate96 then { s with aud := { s.aud with last96 := some k } } else { s with aud := { s.aud with last48 := some k } }
  let ms := s1.sinkNums.filter fun m => s1.sinkFs m == fs
  let s2 := ms.foldl (fun t m => t.applyChanges fs k m) s1
  let s3 := if s2.clk96 == rate96 then s2.pullSdi else s2
  let shown := s3.meterSources
  let fed := ms.flatMap fun m => s3.sinkSource m :: (s3.sink m).fades.map fun (f : Fade) => f.old
  let used := (fed ++ shown ++ s3.aud.sources.map fun (x : AudioSource) => x.num).eraseDups.filter fun n => n != 0xFFFF && s3.sourceFs n == fs
  let s4 := used.foldl (fun t n => (t.advanceSource k n).noteMeter k n) s3
  let s5 := ms.foldl (fun t m => t.evalSink fs k m) s4
  let s6 := if s5.clk96 == rate96 then s5.pushSdo k else s5
  let s7 := s6.dspEnds
  if rate96 then s7 else s7.routesDone k

/-! ### The clock set and the ports' frames (R291-R293) -/

/-- A direction of a port stops: it holds nothing more. -/
def TdmDir.stop (d : TdmDir) : TdmDir := { d with running := false, stopping := false, fifo := [] }

/-- Is data running on any port? -/
def State.tdmRunning (s : State) : Bool := s.aud.ports.any fun p => p.sdi.running || p.sdo.running

/-- Every running direction stops at the next frame boundary. -/
def State.stopPorts (s : State) : State :=
  let f := fun (d : TdmDir) => { d with stopping := d.running }
  { s with aud := { s.aud with ports := s.aud.ports.map fun p => { p with sdi := f p.sdi, sdo := f p.sdo } } }

/-- The clocks start, at the rate that RATE96 asks. -/
def State.startClocks (s : State) : State :=
  let a := { s.aud with frames := 0, idleFrames := none, lastFclk := s.now, restarting := false, fast := s.flag Reg.AUD_CLK_RATE96, stepped := false }
  { (s.wr Reg.AUD_CLK_STATE 1) with aud := a }

/-- What a change of AUD_CLK, already written, does: `en` and `rate` are the values before it (R292, R301). -/
def State.audClkChanged (s : State) (en rate : Nat) : State :=
  let state := s.rd Reg.AUD_CLK_STATE
  let idle : Option Nat := if s.tdmRunning then none else some 0
  if s.flag Reg.AUD_CLK_EN then
    if state = 0 then s.startClocks
    else if state = 3 then { s with aud := { s.aud with restarting := true } }
    else if rate ≠ s.rd Reg.AUD_CLK_RATE96 then
      if s.tdmRunning then { (s.stopPorts.wr Reg.AUD_CLK_STATE 3) with aud := { s.stopPorts.aud with restarting := true } } else s.startClocks
    else s
  else if en = 1 then { (s.stopPorts.wr Reg.AUD_CLK_STATE 3) with aud := { s.stopPorts.aud with idleFrames := idle, restarting := false } }
  else s

/-- A frame boundary of one direction: a stopped one stops, an enabled one starts with its FIFO at the prime fill once the
clocks have run for 64 frames. -/
def TdmDir.boundary (d : TdmDir) (en ready : Bool) (prime : Nat) : TdmDir :=
  if d.running then (if d.stopping || !en then d.stop else d)
  else if en && ready then { d with running := true, stopping := false, fifo := List.replicate prime (List.replicate 32 0), last := List.replicate 32 0 } else d

/-- The frame boundary of port `p`. -/
def State.portBoundary (s : State) (ready : Bool) (p : Nat) : State :=
  let prime := s.rd (Reg.AUD_PORT_CTL_PRIME p)
  s.modTdm p fun x => { x with
    sdi := x.sdi.boundary (s.flag (Reg.AUD_PORT_CTL_SDI_EN p)) ready prime
    sdo := x.sdo.boundary (s.flag (Reg.AUD_PORT_CTL_SDO_EN p)) ready prime }

/-- The sample in a 32-bit slot as its bits come with the bit clocks of the frame, the first as the most significant: with DELAY1 the slot starts
one bit clock later (Table 10.4). Bits [7:0] of the slot are ignored. -/
def slotSample (delay : Nat) (w : Int) : Int := sext 24 (toBits 32 w * 2 ^ delay % 2 ^ 32 / 256)

/-- The bits of a slot that carries a sample, bits [7:0] as 0; the last bit of a delayed slot is 0 in the next one. -/
def slotWord (delay : Nat) (v : Int) : Int := (toBits 24 v * 256 / 2 ^ delay : Nat)

/-- The frame that an SDO port sends: in SLAVE mode the next of its FIFO; in MASTER mode, while that holds one, the frame of count `j` carries
sample j − X × fs − 1 (R291). An empty FIFO sends the last frame again (R293). -/
def State.sdoFrame (s : State) (p j : Nat) : TdmDir × Bool × List Int :=
  let x := s.tdm p
  let r := x.sdo.pull
  let k := j - 6 * s.rd Reg.AUD_CTL_XDELAY * (1 + b01 s.clk96) - 1
  let out := if r.2 then x.sdo.last else if s.flag Reg.AUD_CLK_SLAVE then r.1.last
    else ((x.made.find? fun f => f.1 == k).map fun f => f.2).getD x.sdo.last
  ({ r.1 with last := out }, r.2, out)

/-- One frame of port `p`: `frame` holds the slots that its SDI pin carries at count `j`, and a frame goes to its SDO pin. A short or long frame
is not written on SDI. In MASTER mode the SDI frame of count `j` is source sample `j`, unless its FIFO is full (R291, R293). -/
def State.portFrame (s : State) (p j : Nat) (good : Bool) (frame : List Int) : State :=
  let fs : Nat := if s.clk96 then 96000 else 48000
  let n : Nat := if s.clk96 then 16 else 32
  let delay := s.rd Reg.AUD_CLK_DELAY1
  let heard := (frame.take n).map (slotSample delay)
  let s1 :=
    if (s.tdm p).sdi.running ∧ good then
      let r := (s.tdm p).sdi.push heard
      let t := s.modTdm p fun x => { x with sdi := r.1 }
      if r.2 then t.slipTdm p 0
      else if s.flag Reg.AUD_CLK_SLAVE then t
      else ((List.range n).filter fun i => bit (t.rd (Reg.AUD_PORT_SLOTS_MASK p)) i).foldl (fun u i =>
        u.audioPut (26624 + 32 * p + i) fs j (heard.getD i 0)) t
    else s
  if (s1.tdm p).sdo.running then
    let r := s1.sdoFrame p j
    let t := s1.modTdm p fun x => { x with sdo := r.1 }
    let t1 := if r.2.1 then t.slipTdm p 1 else t
    { t1 with sent := .tdm p ((r.2.2.take n).map (slotWord delay)) :: t1.sent }
  else { s1 with sent := .tdm p (List.replicate n 0) :: s1.sent }

end Sys2Proof.Machine
end

