-- ==== Sys2Proof/Machine/Encoder.lean ====
section
/-!
DEFINITION. The encoder engines (R332-R360): engine counts and teams, the settings of HEVC and JPEG XS, the coding of a CTU, the budget
of a refresh period, the allocation and QP of a row, the guard of a CTU row, carriage in packets, and the comparison of twins.
-/
namespace Sys2Proof.Machine

/-! ### Settings (R339, R352) -/

/-- The HEVC coding settings of a channel (Table 12.2), and the recovery point of a refresh period. -/
structure HevcSettings where
  chroma420 : Bool
  level : Nat
  highTier : Bool
  width : Nat
  height : Nat
  codedHeight : Nat
  ctb : Nat := 64
  minCb : Nat := 8
  minTb : Nat := 4
  maxTb : Nat := 32
  depth : Nat := 1
  amp : Bool := false
  pcm : Bool := false
  temporalMvp : Bool := false
  refs : Nat := 1
  entropySync : Bool := true
  tiles : Bool := false
  qpDelta : Bool := true
  qpDeltaDepth : Nat := 0
  deblocking : Bool := true
  sao : Bool := true
  acrossSlices : Bool := true
  strongIntra : Bool := true
  pocBits : Nat := 16
  tick : Nat
  scale : Nat
  hrd : Bool := false
  fullRange : Bool := false
  recoveryPoc : Nat
  exactMatch : Bool := true
  deriving DecidableEq, Repr

/-- How a CTU is coded: at a QP, or in one of the two minimum modes of R347. -/
inductive CtuMode
  | coded (qp : Nat)
  | intraDc
  | skipMerge0
  deriving DecidableEq, Repr

/-- All that the coding of a CTU may depend on: the settings, the picture's index (0 is the IDR of I slices), row, column and mode, its
samples, the decoded blocks of this picture that it may predict from, by CTU row, and the reference samples that it may predict from
(R339-R341). -/
structure CtuCoding where
  settings : HevcSettings
  pic : Nat
  row : Nat
  col : Nat
  mode : CtuMode
  source : Planes
  near : List (List Planes)
  reference : Option Planes
  deriving DecidableEq, Repr

/-- The JPEG XS coding settings of a channel (R352). -/
structure XsSettings where
  profile444 : Bool
  level : Nat
  width : Nat
  height : Nat
  interlaced : Bool
  across : Nat := 5
  down : Nat := 1
  columns : Nat := 1
  sliceLines : Nat := 16
  deriving DecidableEq, Repr

end Sys2Proof.Machine

namespace Sys2Proof.Config

/-- The parameter sets and the recovery point SEI that begin a refresh period, as NAL units without start code: H.265 defines their bits, the
spec does not restate them (R339). -/
opaque hevcHeader (x : Machine.HevcSettings) : List (List Byte)

/-- One CTU as the encoder codes it, from a state of its entropy coder: its bits, the state after it, and its decoded block. H.265 and the
encoder's own decisions define them (R338, R339). -/
opaque hevcCtu (c : Machine.CtuCoding) (coder : List Nat) : Nat × List Nat × Machine.Planes

/-- The bits of a slice segment's start code and headers, the bits that end it, and its bytes after the NAL unit header, for a picture, row, QP
and state of the entropy coder. -/
opaque hevcSliceHead (x : Machine.HevcSettings) (pic row qp : Nat) : Nat
opaque hevcSliceEnd (coder : List Nat) : Nat
opaque hevcSlice (x : Machine.HevcSettings) (pic row qp : Nat) (coder : List Nat) : List Byte

/-- The reference picture that the loop filters make of the decoded blocks of a picture, row by row. -/
opaque hevcPicture (x : Machine.HevcSettings) (blocks : List (List Machine.Planes)) : Machine.Planes

/-- The headers of a JPEG XS codestream of a number of bytes; slice `i` of a picture coded into a number of bytes from the samples of its
slices so far, or of zero coefficients where there are none: ISO/IEC 21122 defines them (R338, R352, R360). -/
opaque xsHeader (x : Machine.XsSettings) (bytes : Nat) : List Byte
opaque xsSlice (x : Machine.XsSettings) (samples : List Machine.Planes) (i share : Nat) : List Byte

end Sys2Proof.Config

namespace Sys2Proof.Machine

/-! ### Geometry and engines (R76, R336, R342) -/

/-- Quotient rounded up. -/
def up (a b : Nat) : Nat := (a + (b - 1)) / max 1 b

/-- CTU columns and rows. -/
def ctuCols (w : Nat) : Nat := (w + 63) / 64
def ctuRows (h : Nat) : Nat := (h + 63) / 64

/-- The CTU-row period in ns as Cruise takes it, rounded down. -/
def rowPeriod (h n d : Nat) : Nat := d * 10 ^ 9 / max 1 n / max 1 (ctuRows h)

/-- E: the smallest engine count that codes a row in its period (R76). -/
def enginesFor (w h n d : Nat) : Nat := up (up (ctuCols w * 16544 * 20) 27) (rowPeriod h n d)

/-- The team size m: the smallest divisor of E with at most 4 teams (R336). -/
def teamSize (e : Nat) : Nat := (((List.range e).map fun i => i + 1).find? fun m => e % m == 0 && decide (e / m ≤ 4)).getD 1

/-- A channel's block in the ENC window. -/
def EncChan.block (x : EncChan) : Nat := if x.codec < 2 then x.handle % 65536 else 48 + x.handle % 65536

/-- Rate of a channel's generator. -/
def State.encN (s : State) (x : EncChan) : Nat := s.genN x.gen
def State.encD (s : State) (x : EncChan) : Nat := s.genD x.gen

def EncChan.cols (x : EncChan) : Nat := ctuCols x.width
def EncChan.rowCount (x : EncChan) : Nat := ctuRows x.height

/-- `k` CTU-row periods after the Meridian, in ns. -/
def State.rowTime (s : State) (x : EncChan) (k : Nat) : Nat := k * s.encD x * 10 ^ 9 / max 1 (s.encN x * x.rowCount)

/-- D_enc, or the slice delay of JPEG XS, to the nearest ns (R342, R353). -/
def State.encDelay (s : State) (x : EncChan) : Nat :=
  let n := max 1 (s.encN x)
  let d := s.encD x * 10 ^ 9
  if x.codec < 2 then (8 * d + n * x.rowCount) / (2 * n * x.rowCount) + 96000
  else (64 * d + n * vTotal x.height) / (2 * n * vTotal x.height) + 20000

/-- Level limits of H.265 Tables A.8 and A.9 (PRESUMED, log entry 41): general_level_idc, luma picture size, luma sample rate,
bit rates of Main and High tier in units of the profile's factor. -/
def hevcLevels : List (Nat × Nat × Nat × Nat × Nat) :=
  [(120, 2228224, 66846720, 12000, 30000), (123, 2228224, 133693440, 20000, 50000), (150, 8912896, 267386880, 25000, 100000),
   (153, 8912896, 534773760, 40000, 160000), (156, 8912896, 1069547520, 60000, 240000), (180, 35651584, 1069547520, 60000, 240000),
   (183, 35651584, 2139095040, 120000, 480000), (186, 35651584, 4278190080, 240000, 800000)]

/-- The level of an HEVC channel and whether its rate needs the High tier (Table 12.2); none beyond level 6.2 High tier. -/
def hevcLevel (codec w h n d rate : Nat) : Option (Nat × Bool) :=
  let ps := w * (64 * ctuRows h)
  let f : Nat := if codec = 0 then 1667 else 1000
  (hevcLevels.find? fun l => decide (ps ≤ l.2.1 ∧ ps * n ≤ l.2.2.1 * d ∧ rate ≤ l.2.2.2.2 * f)).map fun (l : Nat × Nat × Nat × Nat × Nat) =>
    (l.1, decide (l.2.2.2.1 * f < rate))

/-- The settings of an HEVC channel and of a JPEG XS channel. -/
def State.hevcSettings (s : State) (x : EncChan) : HevcSettings :=
  let l := (hevcLevel x.codec x.width x.height (s.encN x) (s.encD x) x.rate).getD (0, false)
  { chroma420 := x.codec == 1, level := l.1, highTier := l.2, width := x.width, height := x.height, codedHeight := 64 * ctuRows x.height
    tick := s.encD x, scale := s.encN x, recoveryPoc := x.n - 1 }
def State.xsSettings (s : State) (x : EncChan) : XsSettings :=
  { profile444 := x.codec == 3, level := Config.xsLevel x.codec x.width x.height (s.encN x) (s.encD x) x.rate, width := x.width, height := x.height
    interlaced := x.interlaced }

/-- The engine that is the source of an engine's events. -/
def srcEncEngine (e : Nat) : Nat := srcOf 6 (6 + e / 8) (e % 8)
def srcEncWindow : Nat := srcOf 6 13 0xFFFF
def srcDecoder (d : Nat) : Nat := srcOf 6 13 d

/-- Raise an event of the channel with a handle, at most once for the picture of a frame (R362). -/
def State.encEvent (s : State) (h code frame : Nat) : State :=
  match s.encChan h with
  | none => s
  | some x =>
    if x.raised.contains (code, frame) then s
    else (s.putEnc { x with raised := ((code, frame) :: x.raised).take 16 }).raiseWithin 0 code srcEncWindow x.block

/-- Engines that HEVC channels hold. -/
def State.encHeld (s : State) : List Nat := s.enc.chans.flatMap fun (x : EncChan) => x.engines

/-- Is an encoder engine enabled by ENC_ENG_EN? -/
def State.engineEnabled (s : State) (e : Nat) : Bool :=
  if e < 32 then bit (s.rd Reg.ENC_ENG_EN_LO_EN) e else bit (s.rd Reg.ENC_ENG_EN_HI_EN) (e - 32)

/-- Engines that may be given: powered, READY, enabled, held by no channel, and with no failed self-test (R444). -/
def State.encFree (s : State) : List Nat :=
  (List.range (capCount s.variant 0x0F)).filter fun e => s.isReady 0x0F e && s.engineEnabled e && !s.encHeld.contains e && !s.twn.failed.contains (0, e)

/-- XS_LOAD demand in pixels/s (R77). -/
def State.xsDemand (s : State) : Nat :=
  let rate := fun (w h n d : Nat) (s444 : Bool) => if s444 then up (w * h * n * 3) (2 * d) else up (w * h * n) d
  ((s.enc.chans.filter fun x => decide (2 ≤ x.codec)).map fun (x : EncChan) => rate x.width x.height (s.encN x) (s.encD x) (x.codec == 3)).sum +
    (s.enc.decs.map fun (x : XsDecoder) => match s.net.flows.find? fun f => !f.tx && f.handle == x.flow with
      | some f => rate f.width f.height f.rateN f.rateD (f.sampling != 0)
      | none => 0).sum

/-- The registers that follow from which engines are held (R368). -/
def State.encRegs (s : State) : State :=
  let held := s.encHeld
  let map := fun (lo : Nat) => ((held.filter fun e => decide (lo ≤ e ∧ e < lo + 32)).eraseDups.map fun e => 2 ^ (e - lo)).sum
  (((s.wr Reg.ENC_ENG_HELD_LO_MAP (map 0)).wr Reg.ENC_ENG_HELD_HI_MAP (map 32)).wr Reg.ENC_ENG_FREE_COUNT
    (capCount s.variant 0x0F - held.eraseDups.length)).wr Reg.ENC_XS_LOAD_KPPS (s.xsDemand / 1000)

/-- An engine that a channel holds becomes unavailable (R360). -/
def State.encEngineLost (s : State) (e : Nat) : State :=
  match s.enc.chans.find? fun x => x.engines.contains e && !x.lost.contains e with
  | none => s
  | some x =>
    ((s.putEnc { x with lost := x.lost ++ [e] }).wr (Reg.ENC_CH_STAT_DEGRADED x.block) 1).raiseWithin 0 0x2903 (srcEncEngine e) e

/-- Has the team of a row lost an engine? -/
def EncChan.teamLost (x : EncChan) (row : Nat) : Bool :=
  let m := teamSize x.engines.length
  let k := max 1 (x.engines.length / max 1 m)
  ((x.engines.drop (row % k * m)).take m).any fun e => x.lost.contains e

/-! ### Samples (R308, R333, R335) -/

/-- A line of samples: luma, Cb, Cr. -/
structure SampleLine where
  luma : List Nat
  cb : List Nat
  cr : List Nat
  deriving DecidableEq, Repr

/-- The samples of an active line: 4:2:2 lines carry Cb, Y0, Cr, Y1 in 10 bits, 4:4:4 lines Cb, Y, Cr in 12 bits (R93). -/
def lineSamples (s444 : Bool) (width : Nat) (b : List Byte) : SampleLine :=
  if s444 then
    let v := unpackBits 12 (3 * width) 0 b
    ⟨everyNth 1 3 width v, everyNth 0 3 width v, everyNth 2 3 width v⟩
  else
    let v := unpackBits 10 (2 * width) 0 b
    ⟨everyNth 1 2 width v, everyNth 0 4 (width / 2) v, everyNth 2 4 (width / 2) v⟩

/-- 4:4:4 12-bit to 4:2:2 10-bit: the chroma of even pixels, every sample (x + 2) >> 2 within 4–1 019 (step 3 of R308). -/
def SampleLine.to422 (l : SampleLine) : SampleLine :=
  let narrow := fun (x : Nat) => clampCode ((x + 2) / 4 : Nat)
  let even := fun (p : List Nat) => everyNth 0 2 (p.length / 2) p
  ⟨l.luma.map narrow, (even l.cb).map narrow, (even l.cr).map narrow⟩

/-- 4:2:2 10-bit to 4:4:4 12-bit: each chroma sample repeated for the odd pixel, every sample shifted left by 2 (R333). -/
def SampleLine.to444 (l : SampleLine) : SampleLine :=
  let twice := fun (p : List Nat) => p.flatMap fun c => [4 * c, 4 * c]
  ⟨l.luma.map (4 * ·), twice l.cb, twice l.cr⟩

/-- An input line in the sampling that a codec codes (Table 12.1). -/
def SampleLine.forCodec (l : SampleLine) (codec : Nat) (s444 : Bool) : SampleLine :=
  if codec = 3 then (if s444 then l else l.to444) else if s444 then l.to422 else l

/-- The mean of two chroma rows for Main 10: (a + b + 1) >> 1 (R333). -/
def halfRow (a b : List Nat) : List Nat := List.zipWith (fun x y => (x + y + 1) / 2) a b

/-- Pairs of chroma rows 2 y and 2 y + 1, averaged. -/
def halfRows : List (List Nat) → List (List Nat)
  | a :: b :: r => halfRow a b :: halfRows r
  | _ => []

/-- The bytes of a line period of a frame as the channel's port has delivered them. -/
def EncChan.lineIn (x : EncChan) (frame line : Nat) : List Byte :=
  let n := lineBytes x.width x.s444
  ((x.input.filter fun p => p.frame == frame && p.line == line).foldl (fun b p => (b.take p.off ++ zeros (p.off - b.length) ++ p.bytes ++ b.drop (p.off + p.bytes.length))) (zeros n)).take n

/-- The converted samples of line periods of a frame; lines below the active picture repeat its last one (Table 12.2). -/
def EncChan.planes (x : EncChan) (frame : Nat) (lines : List Nat) : Planes :=
  let ls := lines.map fun l => (lineSamples x.s444 x.width (x.lineIn frame l)).forCodec x.codec x.s444
  let fold := fun (p : List (List Nat)) => if x.codec = 1 then halfRows p else p
  ⟨ls.map fun l => l.luma, fold (ls.map fun l => l.cb), fold (ls.map fun l => l.cr)⟩

/-- Columns `from_` to `from_ + n` of the luma of some lines, with their chroma. -/
def Planes.columns (p : Planes) (from_ n : Nat) : Planes :=
  ⟨p.luma.map fun l => (l.drop from_).take n, p.cb.map fun l => (l.drop (from_ / 2)).take (n / 2), p.cr.map fun l => (l.drop (from_ / 2)).take (n / 2)⟩

/-- A flat field of value 512 in the place of some samples. -/
def Planes.grey (p : Planes) : Planes :=
  let flat := fun (l : List (List Nat)) => l.map fun r => r.map fun _ => 512
  ⟨flat p.luma, flat p.cb, flat p.cr⟩

/-- What a CTU row of a picture codes: picture 0 a flat field (R341). -/
def EncChan.rowSamples (x : EncChan) (pic frame row : Nat) : Planes :=
  let p := x.planes frame ((List.range 64).map fun i => min (64 * row + i) (x.height - 1))
  if pic = 0 then p.grey else p

/-- What slice `i` of field `k` of a JPEG XS picture codes. -/
def EncChan.sliceSamples (x : EncChan) (frame k i : Nat) : Planes :=
  let h : Nat := if x.interlaced then x.height / 2 else x.height
  x.planes frame ((List.range (min 16 (h - 16 * i))).map fun l => 563 * k + 16 * i + l)

/-! ### The bit budget (R340, R344, R345) -/

/-- Bytes of period `p` under a rate that applies from period `pc` (R344). -/
def periodBytes (rate n d per pc p : Nat) : Nat :=
  let q := fun (k : Nat) => k * rate * per * d / max 1 (8 * n)
  q (p - pc + 1) - q (p - pc)

/-- Budget of period `p` of an HEVC channel under the present rate, in bits. -/
def State.budget (s : State) (x : EncChan) (p : Nat) : Nat := 8 * periodBytes x.rate (s.encN x) (s.encD x) x.n x.pc p

/-- NAL units of the period header, and its size in bits with start codes. -/
def State.periodHeader (s : State) (x : EncChan) : List (List Byte) := Config.hevcHeader (s.hevcSettings x)
def State.headerBits (s : State) (x : EncChan) : Nat := ((s.periodHeader x).map fun (b : List Byte) => 8 * (b.length + 4)).sum

/-- The book of a period. -/
def EncChan.book (x : EncChan) (p : Nat) : Option Book := x.books.find? fun b => b.period == p

/-- Change the book of a period. -/
def EncChan.modBook (x : EncChan) (p : Nat) (g : Book → Book) : EncChan := { x with books := x.books.map fun b => if b.period = p then g b else b }

/-- c_i: CTU columns that are clean or in the refresh column in picture `i` of a period; all of them in the grey IDR. -/
def EncChan.cleanCols (x : EncChan) (pic : Nat) : Nat := if pic = 0 then x.cols else (pic % x.n + 1) * x.cols / max 1 x.n

/-- S_min of a row of a picture. -/
def EncChan.minRow (x : EncChan) (pic : Nat) : Nat := 192 + 2 * x.cols + 6 * x.cleanCols pic

/-- Minimum cost of one CTU of a picture by column. -/
def EncChan.ctuMin (x : EncChan) (pic c : Nat) : Nat := if c < x.cleanCols pic then 8 else 2

/-- The lowest port rate among a channel's send legs sets the cap of a row. -/
def State.rowMax (s : State) (x : EncChan) : Nat :=
  let ps := (s.net.flows.filter fun f => f.tx && f.encoder == x.handle && (f.kind == 7 || f.kind == 8)).flatMap fun (f : Flow) => f.legs.map fun (g : FlowLeg) => s.portRate g.port
  match ps with
  | [] => 4480000
  | a :: r => r.foldl min a * 44800

/-! ### Rows (R346, R347, R355-R357) -/

/-- Twin operation is enabled. -/
def State.twinOn (s : State) : Bool := s.flag Reg.TWN_CTL_EN

/-- Does the card hold encoder sequence authority (R438)? -/
def State.authority (s : State) : Bool := s.flag Reg.TWN_STAT_AUTHORITY

/-- Does the card follow its twin's encoders? -/
def State.follower (s : State) : Bool := s.twinOn && !s.authority

def State.diverged (s : State) (x : EncChan) : Bool := s.flag (Reg.ENC_CH_STAT_DIVERGED x.block)

/-- A channel's row of a picture, and the authority's message for a row. -/
def EncChan.rowOf (x : EncChan) (pic row : Nat) : Option EncRow := x.rows.find? fun r => r.pic == pic && r.row == row
def EncChan.msgOf (x : EncChan) (frame row : Nat) : Option RowMsg := x.msgs.find? fun m => m.frame == frame && m.row == row

/-- The authority's message for a row, which a follower goes by while it is DIVERGED (R357). -/
def State.guide (s : State) (x : EncChan) (frame row : Nat) : Option RowMsg :=
  if s.diverged x ∧ s.follower then x.msgOf frame row else none

/-- Emitted bits, target and QP of the co-located row of the previous picture: the authority's while DIVERGED (R357). -/
def State.before (s : State) (x : EncChan) (row : Nat) : Option (Nat × Nat × Nat) :=
  (x.rowOf (x.pic - 1) row).bind fun r =>
    match s.guide x r.frame row with
    | some m => some (8 * m.bytes, m.target, m.qp)
    | none => r.bits.map fun b => (b, r.target, r.qp)

/-- The bits that a row of a book has emitted: by the authority's message while DIVERGED (R345, R357). -/
def State.emitted (s : State) (x : EncChan) (e : BookRow) : Option Nat :=
  match s.guide x e.frame e.row with
  | some m => some (8 * m.bytes)
  | none => e.bits

/-- The bits that a period has emitted in slices, and the delimiters and header that go with the first rows of its pictures (R344). -/
def State.bookBits (s : State) (x : EncChan) (b : Book) : Nat :=
  let coded := b.rows.filter fun e => e.bits.isSome
  ((coded.map fun e => (s.emitted x e).getD 0).sum + 56 * (coded.filter fun e => e.row == 0).length) + (if coded.isEmpty then 0 else s.headerBits x)

/-- Target and cap of row `j` of period `p` (R345). -/
def State.allocate (s : State) (x : EncChan) (p j : Nat) : Nat × Nat :=
  let r := x.rowCount
  let i := j / max 1 r
  let rows := ((x.book p).map fun (b : Book) => b.rows).getD []
  let spent := (rows.map fun (e : BookRow) => if e.j + 5 ≤ j then (s.emitted x e).getD e.cap else e.cap).sum + 56 * (i + 1) + s.headerBits x
  let left : Int := (((x.book p).map fun (b : Book) => b.budget).getD 0 : Nat) - (spent : Int)
  let later := ((List.range x.n).filter fun k => decide (i < k)).map fun k => r * x.minRow (p * x.n + k)
  let reserve := (r - 1 - j % max 1 r) * x.minRow (p * x.n + i) + later.sum + 56 * (x.n - 1 - i) + 56
  let low := x.minRow (p * x.n + i)
  let spare : Int := left - (low : Nat) - (reserve : Nat)
  let rows_ : Int := (x.n * r - j : Nat)
  let target : Int := (low : Nat) + spare / rows_
  let cap : Int := min ((low : Nat) + min spare (4 * spare / rows_)) (s.rowMax x : Nat)
  (target.toNat, cap.toNat)

/-- The QP of a row (R346). -/
def State.rowQp (s : State) (x : EncChan) (row : Nat) : Nat :=
  let clamp := fun (q : Int) => if q < x.qpMin then x.qpMin else if 51 < q then 51 else q.toNat
  if x.pic = 0 then clamp x.qpStart
  else match s.before x row with
    | none => clamp x.qpStart
    | some (b, t, q0) =>
      let q : Int := if x.pic = 1 then x.qpStart else q0
      clamp (if 5 * t < 4 * b then q + 2 else if 9 * t < 8 * b then q + 1 else if 4 * b < 3 * t then q - 2 else if 8 * b < 7 * t then q - 1 else q)

/-- What the guard has made of a row so far: bits, whether the clamp was used, CTUs in minimum mode, whether later CTUs start at QP 51, the
state of the entropy coder, the decoded blocks, and the state after the second CTU. -/
structure Guard where
  h : Nat
  clamp : Bool
  mins : Nat
  esc : Bool
  coder : List Nat
  blocks : List Planes
  sync : List Nat
  deriving DecidableEq, Repr

/-- What the guard of R347 makes of a CTU that costs `atQp` at the row's QP, `at51` at QP 51, where `tail` is kept for the rest: 0 as coded, 1 at
QP 51, 2 in minimum mode. `esc`: an earlier CTU was. -/
def guardChoice (cap h tail : Nat) (esc : Bool) (atQp at51 : Nat) : Nat :=
  if !esc && decide (h + atQp + tail ≤ cap) then 0 else if h + at51 + tail ≤ cap then 1 else 2

/-- The coding of CTU `c` of a row in a mode, under the constraints of R340: the decoded blocks `above` of this picture, by row, of which a CTU
of the refresh column sees no column to the right of it; and the reference, of which a clean CTU sees only what lies clear of the refresh
column, and a CTU of the refresh column or of the IDR nothing. -/
def State.ctuCoding (s : State) (x : EncChan) (r : EncRow) (above : List (List Planes)) (ref : Planes) (c : Nat) (m : CtuMode) : CtuCoding :=
  let i := r.pic % max 1 x.n
  let clean := i * x.cols / max 1 x.n
  let edge := (i + 1) * x.cols / max 1 x.n
  let refresh := decide (clean ≤ c ∧ c < edge)
  { settings := s.hevcSettings x, pic := r.pic, row := r.row, col := c, mode := m
    source := r.samples.columns (64 * c) 64
    near := if refresh then above.map fun l => l.take edge else above
    reference := if r.pic = 0 ∨ refresh then none else if c < clean then some (ref.columns 0 (64 * clean - 12)) else some ref }

/-- The mode of a CTU at a QP, and its minimum mode: the IDR is of intra DC CUs without residual (R341, R347). -/
def ctuModeAt (pic qp : Nat) : CtuMode := if pic = 0 then .intraDc else .coded qp
def EncChan.leastMode (x : EncChan) (pic c : Nat) : CtuMode := if c < x.cleanCols pic then .intraDc else .skipMerge0

/-- The guard takes CTU `c` of a row (R347); a CTU from `coded` on takes minimum mode (R359). A minimum mode costs at most μ. -/
def State.guardCtu (s : State) (x : EncChan) (r : EncRow) (above : List (List Planes)) (ref : Planes) (coded : Nat) (g : Guard) (c : Nat) : Guard :=
  let mu := x.ctuMin r.pic c
  let tail := 16 + (((List.range x.cols).drop (c + 1)).map fun k => x.ctuMin r.pic k).sum
  let code := fun (m : CtuMode) => Config.hevcCtu (s.ctuCoding x r (above ++ [g.blocks]) ref c m) g.coder
  let cost := fun (m : CtuMode) => match m with
    | .coded _ => (code m).1
    | .intraDc | .skipMerge0 => min (code m).1 mu
  let pick := if coded ≤ c then 2 else guardChoice r.cap g.h tail g.esc (cost (ctuModeAt r.pic r.qp)) (cost (ctuModeAt r.pic 51))
  let m := if pick = 0 then ctuModeAt r.pic r.qp else if pick = 1 then ctuModeAt r.pic 51 else x.leastMode r.pic c
  let out := code m
  { h := g.h + cost m, clamp := g.clamp || decide (0 < pick), mins := g.mins + b01 (pick == 2), esc := g.esc || pick == 2
    coder := out.2.1, blocks := g.blocks ++ [out.2.2], sync := if c ≤ 1 then out.2.1 else g.sync }

/-- A row as the guard codes it: its CTUs, the end of the slice, and byte alignment, within its cap. -/
def State.guardRow (s : State) (x : EncChan) (r : EncRow) (coded : Nat) : Guard :=
  let set := s.hevcSettings x
  let mine := x.rows.filter fun z => z.pic == r.pic && decide (z.row < r.row)
  let ref := Config.hevcPicture set ((x.rows.filter fun z => z.pic + 1 == r.pic).map fun z => z.blocks)
  let first : List Nat := ((mine.find? fun z => z.row + 1 == r.row).map fun z => z.sync).getD []
  let g := (List.range x.cols).foldl (s.guardCtu x r (mine.map fun z => z.blocks) ref coded)
    ⟨min (Config.hevcSliceHead set r.pic r.row r.qp) 192, false, 0, false, first, [], []⟩
  { g with h := min ((g.h + max 2 (min (Config.hevcSliceEnd g.coder) 16) + 7) / 8 * 8) (r.cap / 8 * 8) }

/-- The NAL unit header of a picture's slices: IDR_N_LP for picture 0, TRAIL_R for every other (R339; PRESUMED: H.265). -/
def sliceNalHeader (pic : Nat) : List Byte := be8 (2 * if pic = 0 then 20 else 1) ++ be8 1

/-- Bytes of exactly `n`: cut, or padded with zero. -/
def fit (n : Nat) (b : List Byte) : List Byte := b.take n ++ zeros (n - b.length)

/-- The hash of a row or slice (R355). -/
def rowHash (bytes : List Byte) (frame row : Nat) : Nat := (crc64 (bytes ++ be64 frame ++ be16 row)).toNat

/-- A row message (Table 12.5). -/
def rowMessage (handle : Nat) (r : EncRow) : List Byte :=
  be32 handle ++ be64 r.frame ++ be16 r.row ++ be8 r.qp ++ be8 r.flags ++ be32 (r.bits.getD 0 / 8) ++ be32 r.target ++ be64 r.hash

/-- Send a twin message in its envelope (R422, Table 15.1). -/
def State.twinSend (s : State) (type : Nat) (body : List Byte) : State :=
  if !s.pairKeyOk then s else
  let n := s.twn.seqSent + 1
  let b := be8 type ++ be8 0 ++ be16 body.length ++ be32 n ++ body
  { s with twn := { s.twn with seqSent := n } }.partnerSend 2 (b ++ beBytes 16 (Config.cmac s.twn.pairKey b).toNat)

/-- Resynchronisation starts with a SNAPSHOT request once the partner is PRESENT and HOLDER; until then the start waits. A
HOLDER or SOLO card never resynchronises (R445). -/
def State.startResync (s : State) : State :=
  if !s.compares then s
  else if s.rd Reg.TWN_STAT_PARTNER = 1 ∧ s.twn.partner.role = 2 then
    ({ s with twn := { s.twn with resyncAt := s.now, mirrorQueue := [], resyncWanted := false } }.wr
      Reg.TWN_STAT_RESYNC 1).twinSend 5 []
  else { s with twn := { s.twn with resyncWanted := true } }

/-- Resynchronisation fails (R445, R451). -/
def State.resyncFail (s : State) : State :=
  (({ s with twn := { s.twn with resyncAt := s.now, mirrorQueue := [] } }.wr Reg.TWN_STAT_RESYNC 6).raise
    0x2C08 srcTwin 0).endWait (.object 17 0) 0x00FF

/-- TWIN_DIVERGE is raised on an output or encoder channel (R442, R356). -/
def State.twinDiverge (s : State) (obj : Nat) : State :=
  { s with twn := { s.twn with divergeAt := some s.now, convergeAt := s.now } }.raise 0x2C06 srcTwin obj

/-- Send flows bound to a channel. -/
def State.encFlows (s : State) (h : Nat) : List Flow := s.net.flows.filter fun f => f.tx && (f.kind == 2 || f.kind == 7 || f.kind == 8) && f.encoder == h

/-- The comparison of one own row with the authority's hash (R356, R357): a mismatch diverges, and withholds the row when it
comes before the row's first packet is due; a whole period of matches ends DIVERGED. -/
def State.compareRow (s : State) (x : EncChan) (r : EncRow) (m : RowMsg) (due : Nat) : State :=
  let per : Nat := if x.codec < 2 then r.pic / max 1 x.n else r.pic
  let all : Nat := if x.codec < 2 then x.n * x.rowCount else up x.height 16
  let old := (x.matched.find? fun e => e.1 == per).getD (per, 0, false)
  if r.hash = m.hash then
    let e := (per, old.2.1 + 1, old.2.2)
    let s1 := s.putEnc { x with matched := (e :: x.matched.filter fun y => y.1 != per).take 3 }
    if s.diverged x ∧ all ≤ e.2.1 ∧ !e.2.2 then
      ({ s1 with twn := { s1.twn with convergeAt := s1.now } }.wr (Reg.ENC_CH_STAT_DIVERGED x.block) 0).encEvent x.handle 0x2905 r.frame else s1
  else
    let rows := x.rows.map fun y => if y.pic = r.pic ∧ y.row = r.row ∧ m.arrival < due then { y with withheld := true } else y
    let s1 := s.putEnc { x with rows := rows, matched := ((per, old.2.1, true) :: x.matched.filter fun y => y.1 != per).take 3 }
    let s2 := (s1.bump (Reg.ENC_CH_DIVERGE_COUNT x.block) 1).wr (Reg.ENC_CH_STAT_DIVERGED x.block) 1
    { s2 with twn := { s2.twn with rowDivSec := s2.twn.rowDivSec + 1 } }.twinDiverge x.handle

/-! ### Carriage (R339, R343, R349, R350) -/

/-- Access unit delimiter of an I or a P picture (PRESUMED: H.265). -/
def hevcAud (intra : Bool) : List Byte := be8 0x46 ++ be8 1 ++ be8 (if intra then 0x10 else 0x30)

/-- Filler data NAL unit of `bits` bits, start code included (PRESUMED: H.265). -/
def fillerNal (bits : Nat) : List Byte := be8 0x4C ++ be8 1 ++ List.replicate (bits / 8 - 7) 0xFF#8 ++ be8 0x80

/-- FU payloads of a NAL unit (RFC 7798): chunks of its body of at most `l` bytes, the first with S, the last with E. -/
def fuPackets (l b0 b1 type : Nat) : Nat → Bool → List Byte → List (List Byte)
  | 0, _, _ => []
  | n + 1, first, b =>
    let last := decide (b.length ≤ l)
    (be8 (b0 % 2 + 98 + b0 / 128 * 128) ++ be8 b1 ++ be8 (128 * b01 first + 64 * b01 last + type) ++ b.take l) ::
      if last then [] else fuPackets l b0 b1 type n false (b.drop l)

/-- Packets of one NAL unit under kind 8 (R349): the unit alone, or FU packets of `l` bytes, their three bytes of header included, so that
no unit goes as one FU packet (DESIGN CHOICE, log entry 136). -/
def nalPackets (l : Nat) (nal : List Byte) : List (List Byte) :=
  if nal.length ≤ l then [nal]
  else fuPackets (max 1 (l - 3)) (u8 nal 0) (u8 nal 1) (u8 nal 0 / 2 % 64) nal.length true (nal.drop 2)

/-- CRC-32 of MPEG-2 sections (PRESUMED: ISO/IEC 13818-1). -/
def crcMpegBit (c : BitVec 32) : BitVec 32 := if c.getLsbD 31 then (c <<< 1) ^^^ 0x04C11DB7#32 else c <<< 1
def crcMpeg (bs : List Byte) : BitVec 32 :=
  bs.foldl (fun (c : BitVec 32) (b : Byte) => (List.range 8).foldl (fun x _ => crcMpegBit x) (c ^^^ ((b.setWidth 32 : BitVec 32) <<< (24 : Nat)))) 0xFFFFFFFF#32

/-- One transport packet: header, adaptation field, payload. -/
def tsPacket (pid cc : Nat) (start : Bool) (af payload : List Byte) : List Byte :=
  be8 0x47 ++ be16 (16384 * b01 start + pid) ++ be8 ((if af.isEmpty then 16 else 48) + cc % 16) ++ af ++ payload

/-- A section in a transport packet of its own. -/
def tsSection (pid cc : Nat) (sec : List Byte) : List Byte :=
  let b := sec ++ be32 (crcMpeg sec).toNat
  tsPacket pid cc true [] (be8 0 ++ b ++ List.replicate (183 - b.length) 0xFF#8)

def patSection : List Byte := be8 0 ++ be16 0xB00D ++ be16 1 ++ be8 0xC1 ++ be16 0 ++ be16 1 ++ be16 0xE100
def pmtSection : List Byte := be8 2 ++ be16 0xB012 ++ be16 1 ++ be8 0xC1 ++ be16 0 ++ be16 0xE101 ++ be16 0xF000 ++ be8 0x24 ++ be16 0xE101 ++ be16 0xF000

/-- An adaptation field that leaves room for `room` payload bytes, with a PCR in the first packet of a row. -/
def adaptation (pcr : Option Nat) (room : Nat) : List Byte :=
  match pcr with
  | some v => be8 (183 - room) ++ be8 0x10 ++ beBytes 6 (v / 300 % 2 ^ 33 * 2 ^ 15 + 0x7E00 + v % 300) ++ List.replicate (176 - room) 0xFF#8
  | none => if room = 184 then [] else if room = 183 then be8 0 else be8 (183 - room) ++ be8 0 ++ List.replicate (182 - room) 0xFF#8

/-- The video packets of a row: the first carries the PCR, the last is padded to the packet boundary. -/
def tsVideo (start : Bool) (pcr : Option Nat) : Nat → Nat → List Byte → List (List Byte)
  | 0, _, _ => []
  | n + 1, cc, b =>
    let room := min b.length (if pcr.isSome then 176 else 184)
    tsPacket 0x101 cc start (adaptation pcr room) (b.take room) ::
      if b.length ≤ room then [] else tsVideo false none n (cc + 1) (b.drop room)

/-- The PTS of a frame in units of 1/90 000 s (R350). -/
def State.encPts (s : State) (x : EncChan) (frame : Nat) : Nat :=
  let n := s.encN x
  let d := s.encD x
  let r := x.rowCount
  up (100 * (90000 * (frame + 1) * d * r + 360000 * d) + 864 * n * r) (100 * n * r) % 2 ^ 33

/-- The PES header of an access unit. -/
def pesHeader (pts : Nat) : List Byte :=
  be24 1 ++ be8 0xE0 ++ be16 0 ++ be8 0x80 ++ be8 0x80 ++ be8 5 ++ be8 (0x21 + pts / 2 ^ 30 % 8 * 2) ++ be16 (pts / 2 ^ 15 % 2 ^ 15 * 2 + 1) ++
    be16 (pts % 2 ^ 15 * 2 + 1)

/-- Cut a list into groups of at most `k`; fuel bounds their number. -/
def groupsOf {α : Type} (k : Nat) : Nat → List α → List (List α)
  | 0, _ => []
  | n + 1, l => if l.isEmpty then [] else l.take k :: groupsOf k n (l.drop k)

/-- NAL units of a row without start codes: delimiter and period header with row 0, the slice, the filler with the last. -/
def State.rowNals (s : State) (x : EncChan) (r : EncRow) (filler : Nat) : List (List Byte) :=
  (if r.row = 0 then hevcAud (r.pic == 0) :: (if r.pic % max 1 x.n = 0 then s.periodHeader x else []) else []) ++ [r.bytes] ++
    (if filler = 0 then [] else [fillerNal filler])

/-- The last launch of a row's packets leaves its last byte at A(r) + D_enc (R343). -/
def State.lastLaunch (s : State) (f : Flow) (at_ : Nat) (payload : List Byte) : Nat :=
  let wire := (f.legs.map fun (g : FlowLeg) => up (8 * (payload.length + s.overhead f g)) (max 1 (s.portRate g.port))).foldl max 0
  at_ - wire

/-- Give the payloads of a row or slice their launch times: evenly from `l0`, the last at its fixed time (R343). -/
def State.spreadPackets (s : State) (f : Flow) (l0 end_ frame row ts : Nat) (mark : Nat → Bool) (ps : List (List Byte)) : List EncPacket :=
  let n := ps.length
  let t := s.lastLaunch f end_ (ps.getLastD [])
  ps.zipIdx.map fun p =>
    ⟨f.index, if p.2 + 1 = n then t else l0 + p.2 * (t - l0) / max 1 (n - 1), frame, row, mark p.2, ts, p.1⟩

/-- The packets of a CTU row on one flow, and the continuity counters after them. -/
def State.rowPackets (s : State) (x : EncChan) (f : Flow) (r : EncRow) (filler : Nat) : List EncPacket × List Nat :=
  let nals := s.rowNals x r filler
  let l0 := r.m0 + s.rowTime x (r.row + 5) + 40000
  let fin := r.m0 + s.rowTime x (r.row + 5) + 96000
  let ts := f.tsOf (s.encN x) (s.encD x) r.frame 0
  if f.kind = 8 then
    let ps := nals.flatMap fun n => nalPackets (max 1 f.lmax) n
    (s.spreadPackets f l0 fin r.frame r.row ts (fun i => r.row + 1 == x.rowCount && i + 1 == ps.length) ps, x.counters)
  else
    let es := nals.flatMap fun n => be32 1 ++ n
    let b := if r.row = 0 then pesHeader (s.encPts x r.frame) ++ es else es
    let tables := decide (r.row = 0) && decide (r.pic % max 1 x.n = 0)
    let c := fun (i : Nat) => x.counters.getD i 0
    let head := if tables then [tsSection 0 (c 0) patSection, tsSection 0x100 (c 1) pmtSection] else []
    let video := fun (t : Nat) => tsVideo (r.row == 0) (some (t * 27 / 1000 % (2 ^ 33 * 300))) (b.length + 1) (c 2) b
    let build := fun (t : Nat) => (groupsOf 7 (b.length + 3) (head ++ video t)).map fun (g : List (List Byte)) => g.flatten
    let first := build 0
    let t : Nat := if first.length = 1 then s.lastLaunch f fin (first.headD []) else l0
    let ps := build t
    (s.spreadPackets f l0 fin r.frame r.row ts (fun i => r.row + 1 == x.rowCount && i + 1 == ps.length) ps,
      [c 0 + b01 tables, c 1 + b01 tables, c 2 + (video 0).length])

/-- The packets of a JPEG XS slice (RFC 9134, slice mode, sequential; PRESUMED, log entry 42). -/
def xsPackets (l field slice frame : Nat) (interlaced last : Bool) (b : List Byte) : List (List Byte) :=
  let gs := groupsOf (max 1 l) (b.length + 1) b
  gs.zipIdx.map fun g =>
    let fin := last && g.2 + 1 == gs.length
    be32 (2 ^ 31 + 2 ^ 30 + 2 ^ 29 * b01 fin + 2 ^ 27 * (if interlaced then 2 + field else 0) + 2 ^ 22 * (frame % 32) + 2 ^ 11 * (slice % 2048) + g.2 % 2048) ++ g.1

/-- Does a row or slice end a picture? Each field of JPEG XS is one. -/
def EncChan.endsPicture (x : EncChan) (row : Nat) : Bool :=
  if x.codec < 2 then row + 1 == x.rowCount else (row + 1) % max 1 (up (if x.interlaced then x.height / 2 else x.height) 16) == 0

/-- The book that the registers show: the newest one that has emitted a row, else the one before it (R366, R368). -/
def EncChan.shownBook (x : EncChan) : Option Book :=
  match x.books with
  | b :: o :: _ => if b.rows.any fun e => e.bits.isSome then some b else some o
  | b :: [] => some b
  | [] => none

/-- ENC_CH_BUDGET and ENC_CH_USED of an HEVC channel: used equals the budget once the filler has closed the book. -/
def State.showBook (s : State) (h : Nat) : State :=
  match s.encChan h with
  | none => s
  | some x =>
    match x.shownBook with
    | none => s
    | some b =>
      (s.wr (Reg.ENC_CH_BUDGET_BYTES x.block) (b.budget / 8)).wr (Reg.ENC_CH_USED_BYTES x.block)
        (if b.filler.isSome then b.budget / 8 else s.bookBits x b / 8)

/-- A picture has been emitted once its last row is built and its packets are gone: it is counted, its frame is shown, and the first one
completes the channel's creation (R363, R366). -/
def State.picturesGone (s : State) (h : Nat) : State :=
  match s.encChan h with
  | none => s
  | some x =>
    let out := fun (z : EncRow) => z.built && !z.gone && x.endsPicture z.row && !(x.packets.any fun k => k.frame == z.frame && decide (k.row ≤ z.row))
    let zs := x.rows.filter out
    match zs.getLast? with
    | none => s
    | some z =>
      let y := { x with rows := x.rows.map fun w => if out w then { w with gone := true } else w, done := x.done + zs.length, opening := false }
      let s1 := (s.putEnc y).wr64 (Reg.ENC_CH_FC_LO_F x.block) (Reg.ENC_CH_FC_HI_F x.block) z.frame
      if x.opening then s1.endWait (.object 15 h) 0 else s1

/-- Build the packets of every row that is coded and whose predecessors are built; the filler that closes the book goes with the last row of the
period (R344). While DIVERGED a follower builds them of the size that the authority's row had, so that its RTP, TS and SRTP counters go as
the authority's do (R357). Fuel bounds the rows. -/
def State.buildRows (s : State) (h : Nat) : Nat → State
  | 0 => s
  | n + 1 =>
    match s.encChan h with
    | none => s
    | some x =>
      match x.rows.find? fun r => !r.built with
      | none => s
      | some r0 =>
        if r0.bits.isNone then s
        else
          let r := match s.guide x r0.frame r0.row with
            | some m => { r0 with bytes := fit (m.bytes - 4) r0.bytes }
            | none => r0
          let p := r.pic / max 1 x.n
          let last := r.row + 1 == x.rowCount && (r.pic + 1) % max 1 x.n == 0
          let filler : Nat := match (if last then x.book p else none) with
            | some b => b.budget - s.bookBits x b
            | none => 0
          let fs := s.encFlows h
          let ps := fs.flatMap fun f => (s.rowPackets x f r filler).1
          let cs := ((fs.find? fun f => f.kind == 7).map fun (f : Flow) => (s.rowPackets x f r filler).2).getD x.counters
          let y := { x with
            packets := x.packets ++ ps
            counters := cs
            rows := x.rows.map fun z => if z.pic = r.pic ∧ z.row = r.row then { z with built := true } else z }
          (s.putEnc (if last then y.modBook p fun b => { b with filler := some filler } else y)).buildRows h n

/-- A row or slice has been coded: it is compared or reported, counted, and its packets are built (R347, R355-R357). -/
def State.rowDone (s : State) (x : EncChan) (r : EncRow) (due : Nat) : State :=
  let s1 := s.putEnc { x with rows := x.rows.map fun y => if y.pic = r.pic ∧ y.row = r.row then r else y }
  let s2 := if s1.twinOn ∧ s1.authority then s1.twinSend 2 (rowMessage x.handle r) else s1
  match (if s2.follower then x.msgOf r.frame r.row else none), s2.encChan x.handle with
  | some m, some y => s2.compareRow y r m due
  | _, _ => s2

/-- Is a deleted channel at the picture where it stops, and has it built every row before? -/
def EncChan.atStop (x : EncChan) : Bool := x.row == 0 && x.deleting.any fun p => decide (p ≤ x.pic)
def EncChan.stopped (x : EncChan) : Bool := x.atStop && x.rows.all fun r => r.built

/-- A deleted channel that has sent its last packet is gone: its engines, its port and its buffers are freed (R364). A rate that still waited for
its period ends FAILED with BAD_PARAM, for its handle names no channel any more (DESIGN CHOICE, log entry 144). -/
def State.endChannel (s : State) (h : Nat) : State :=
  match s.encChan h with
  | none => s
  | some x =>
    if !x.stopped || !x.packets.isEmpty then s
    else
      let s1 := { s with enc := { s.enc with chans := s.enc.chans.filter fun y => y.handle != h } }
      let s2 := ((s1.freePort x.user.1 x.user.2).freeBuffer 4 h).encRegs
      let s3 := x.lost.foldl (fun t e => t.endCause 0x2903 (srcEncEngine e) e) s2
      let s4 := [Reg.ENC_CH_STAT_RUN x.block, Reg.ENC_CH_STAT_DIVERGED x.block, Reg.ENC_CH_STAT_DEGRADED x.block, Reg.ENC_CH_STAT_ENGINES x.block].foldl (fun t f => t.wr f 0) s3
      let s5 := x.rates.foldl (fun t (r : RateChange) => t.endWait (.object 18 r.id) 0x0040) s4
      (s5.endWait (.object 15 h) 0).endWait (.object 14 h) 0

/-! ### JPEG XS codestreams (R353) -/

/-- Slices of a picture: per field where interlaced. -/
def EncChan.slices (x : EncChan) : Nat := up (if x.interlaced then x.height / 2 else x.height) 16

/-- Bytes of the codestream of a frame, or of field `k` of it. -/
def State.xsBytes (s : State) (x : EncChan) (frame k : Nat) : Nat :=
  let per : Nat := if x.interlaced then 2 else 1
  let q := fun (i : Nat) => i * x.rate * s.encD x / max 1 (8 * per * s.encN x)
  q (per * frame + k + 1) - q (per * frame + k)

/-- Bytes of slice `i`, after a header of `hdr` bytes; the header goes with slice 0. -/
def sliceShare (total hdr n i : Nat) : Nat :=
  let rest := total - hdr
  rest / max 1 n + b01 (decide (i < rest % max 1 n))

end Sys2Proof.Machine
end

