-- ==== Sys2Proof/Machine/Heads.lean ====
section
/-!
DEFINITION. The heads of the multiviewer (chapter 11): geometry and timing, the Canopy map, engines, the selection of
layer frames, meter bars, blending, and the emission of rows (R302-R320).
-/
namespace Sys2Proof.Config

/-- FREE VALUE. What a word written at an index of the MVW table makes of the shadow and current settings of a head, and the coefficient that it
sets, as head, horizontal, set, place and value: the spec gives the table no layout (R330, log entry 58). -/
opaque mvwHeadWord (index word head : Nat) (shadow current : Machine.HeadSet) : Option (Machine.HeadSet × Machine.HeadSet)
opaque mvwCoefWord (index word : Nat) : Option (Nat × Bool × Nat × Nat × Int)

end Sys2Proof.Config

namespace Sys2Proof.Machine

/-! ### Geometry and timing (R302-R304) -/

/-- Active width, height and V_total of a head format. -/
def headWidth (fmt : Nat) : Nat := if fmt = 0 then 1920 else 3840
def headHeight (fmt : Nat) : Nat := if fmt = 0 then 1080 else 2160
def headTotal (fmt : Nat) : Nat := if fmt = 0 then 1125 else 2250
def headCols (fmt : Nat) : Nat := headWidth fmt / 64
def headBands (fmt : Nat) : Nat := (headHeight fmt + 63) / 64

/-- The head advance A_h at a rate. -/
def headAdvance (fmt n d : Nat) : Nat :=
  let v := headTotal fmt
  let h := headHeight fmt
  let den := n * v * h
  13000 + (d * 10 ^ 9 * ((v - h) * h + 64 * v) + den - 1) / max 1 den

/-- A head's record. -/
def State.head (s : State) (h : Nat) : Head :=
  (s.mvw.heads.find? fun x => x.h == h).getD ⟨h, 0, ⟨[], [], []⟩, ⟨[], [], []⟩, [], none, 0, [], none, 0, [], [], [], 0, none, [], []⟩

/-- Store a head's record. -/
def State.putHead (s : State) (x : Head) : State :=
  { s with mvw := { s.mvw with heads := x :: s.mvw.heads.filter fun y => y.h != x.h } }

/-- Format and generator of a head. -/
def State.headFmt (s : State) (h : Nat) : Nat := s.rd (Reg.MVW_H_CTL_FMT h)
def State.headGen (s : State) (h : Nat) : Nat := s.rd (Reg.MVW_H_CTL_GEN h)
def State.headOn (s : State) (h : Nat) : Bool := s.flag (Reg.MVW_H_CTL_EN h)

/-- The advance of a head in force, and the head Meridian of frame `f` of a generator at an advance. -/
def State.advanceOf (s : State) (fmt g : Nat) : Nat := headAdvance fmt (s.genN g) (s.genD g)
def State.headMeridian (s : State) (g adv f : Nat) : Nat := meridianAt (s.genN g) (s.genD g) f - adv

/-- The output slot of a head: quarter slot 4 608 + 4h, or full slot 1 152 + h. -/
def headSlot (h fmt : Nat) : Nat := if fmt = 0 then slotKey (4608 + 4 * h) true else 1152 + h

/-! ### Layers in stacking order and the Canopy map (R306, R316) -/

/-- An enabled layer of a head: its key (video l as l, graphic g as 64 + g), stacking value and window, the alpha of a
video layer, and the tiles of a graphic with its width in tiles. -/
structure Lay where
  key : Nat
  z : Nat
  x : Nat
  y : Nat
  w : Nat
  h : Nat
  alpha : Nat
  tiles : List Nat
  deriving DecidableEq, Repr

/-- Insert a layer in ascending order of Z, on equal Z of the key. -/
def insertLay (a : Lay) : List Lay → List Lay
  | [] => [a]
  | b :: r => if a.z < b.z ∨ (a.z = b.z ∧ a.key ≤ b.key) then a :: b :: r else b :: insertLay a r

/-- A graphic object. -/
def State.graphic (s : State) (h : Nat) : Option Graphic := s.mvw.graphics.find? fun g => g.handle == h

/-- The layers of some settings, ascending in Z. -/
def State.laysOf (s : State) (vs : List (Nat × VidSet)) (gs : List (Nat × GfxSet)) : List Lay :=
  let v := (vs.filter fun x => x.2.en).map fun (x : Nat × VidSet) => (⟨x.1, x.2.z, x.2.x, x.2.y, x.2.w, x.2.h, x.2.alpha, []⟩ : Lay)
  let g := (gs.filter fun x => x.2.en).map fun (x : Nat × GfxSet) =>
    (⟨64 + x.1, x.2.z, x.2.x, x.2.y, x.2.w, x.2.h, 0, ((s.graphic x.2.handle).map fun (o : Graphic) => o.tiles).getD []⟩ : Lay)
  (v ++ g).foldl (fun l a => insertLay a l) []

/-- The current video settings of a head, layer by layer. -/
def State.currentVid (s : State) (h : Nat) : List (Nat × VidSet) :=
  ((List.range 64).filter fun l => s.flag (Reg.MVW_L_CTL_EN (64 * h + l))).map fun l => (l, s.vid h l)

/-- Does a window overlap the tile, cover every head pixel of it? -/
def Lay.overlaps (a : Lay) (tx ty : Nat) : Bool :=
  decide (a.x < 64 * tx + 64 ∧ 64 * tx < a.x + a.w ∧ a.y < 64 * ty + 64 ∧ 64 * ty < a.y + a.h)
def Lay.covers (a : Lay) (fmt tx ty : Nat) : Bool :=
  decide (a.x ≤ 64 * tx ∧ min (64 * tx + 64) (headWidth fmt) ≤ a.x + a.w ∧ a.y ≤ 64 * ty ∧ min (64 * ty + 64) (headHeight fmt) ≤ a.y + a.h)

/-- The kinds of the graphic tiles that a head tile overlaps. -/
def Lay.under (a : Lay) (tx ty : Nat) : List Nat :=
  let x0 := (64 * tx - a.x) / 64
  let x1 := (min (64 * tx + 64 - a.x) a.w - 1) / 64
  let y0 := (64 * ty - a.y) / 64
  let y1 := (min (64 * ty + 64 - a.y) a.h - 1) / 64
  let cols := (a.w + 63) / 64
  (List.range (y1 - y0 + 1)).flatMap fun j => (List.range (x1 - x0 + 1)).map fun i => a.tiles.getD ((y0 + j) * cols + x0 + i) 0

/-- Is a layer opaque over a tile? -/
def Lay.opaqueAt (a : Lay) (fmt tx ty : Nat) : Bool :=
  a.covers fmt tx ty && (if a.key < 64 then a.alpha == 1023 else (a.under tx ty).all (· == 1))

/-- The fetched tiles of each layer of a list that ascends in Z. -/
def canopyOf (fmt : Nat) : List Lay → List (Nat × List Nat)
  | [] => []
  | a :: above =>
    let cols := headCols fmt
    let ts := (List.range (cols * headBands fmt)).filter fun t =>
      a.overlaps (t % cols) (t / cols) && !(above.any fun b => b.opaqueAt fmt (t % cols) (t / cols)) &&
        !(decide (64 ≤ a.key) && (a.under (t % cols) (t / cols)).all (· == 2))
    (a.key, ts) :: canopyOf fmt above

/-- The tiles of a layer in a canopy. -/
def tilesOf (c : List (Nat × List Nat)) (key : Nat) : List Nat := ((c.find? fun x => x.1 == key).map fun (x : Nat × List Nat) => x.2).getD []

/-! ### Engines (R78, R305) -/

/-- Scaling cycles of a layer per source frame: a demand, rounded up (R68). -/
def VidSet.cycles (v : VidSet) : Nat := max ((v.win * v.hin + 1) / 2) (v.w * v.h)

/-- PIXEL_CYCLES demand of a head: scaling of the layers that are not hidden, and visible tiles. -/
def pixelDemand (vs : List (Nat × VidSet)) (c : List (Nat × List Nat)) (n d : Nat) : Nat :=
  let seen := vs.filter fun v => v.2.en && !(tilesOf c v.1).isEmpty
  (seen.map fun (v : Nat × VidSet) => (v.2.cycles * v.2.rateN + v.2.rateD - 1) / max 1 v.2.rateD).sum +
    ((c.map fun (x : Nat × List Nat) => x.2.length).sum * 1024 * n + d - 1) / max 1 d

/-- MVW_DONE demand: cycles of the worst band. -/
def bandDemand (fmt : Nat) (vs : List (Nat × VidSet)) (c : List (Nat × List Nat)) (n d : Nat) : Nat :=
  let seen := vs.filter fun v => v.2.en && !(tilesOf c v.1).isEmpty
  let scale := (seen.map fun (v : Nat × VidSet) =>
    let den := v.2.rateD * n * headHeight fmt
    (v.2.cycles * v.2.rateN * d * 64 + den - 1) / max 1 den).sum
  ((List.range (headBands fmt)).map fun b => (c.map fun (x : Nat × List Nat) => (x.2.filter fun t => t / headCols fmt == b).length).sum * 1024 + scale).foldl max 0

/-- Capacity of `e` engines for a band (R78). -/
def bandCapacity (fmt e n d : Nat) : Nat := 1215000000 * e * d * 64 / max 1 (n * headHeight fmt)

/-- E_h: the smallest number of engines that meets both. -/
def enginesNeeded (fmt : Nat) (vs : List (Nat × VidSet)) (c : List (Nat × List Nat)) (n d : Nat) : Nat :=
  let p := pixelDemand vs c n d
  let b := bandDemand fmt vs c n d
  let e1 := (p + 1214999999) / 1215000000
  ((List.range 97).find? fun e => decide (e1 ≤ e) && decide (b ≤ bandCapacity fmt e n d)).getD (max e1 97)

/-- Engines that some head holds or is to hold. -/
def State.heldEngines (s : State) : List Nat := s.mvw.heads.flatMap fun (x : Head) => x.engines ++ x.waiting.flatMap fun (w : HeadChange) => w.engines

/-- The engines of a head once every admitted change has applied. -/
def Head.enginesNext (x : Head) : List Nat := ((x.waiting.getLast?).map fun (w : HeadChange) => w.engines).getD x.engines

/-- The engines of a head that holds `own`, for a need of `e`: those, cut to `e` from the lowest, or with the lowest ones added that no head
holds. -/
def State.grantEngines (s : State) (own : List Nat) (e : Nat) : List Nat :=
  if e ≤ own.length then own.take e
  else
    let free := (List.range (capCount s.variant 0x17)).filter fun i => s.isReady 0x17 i && !s.heldEngines.contains i && !s.twn.failed.contains (1, i)
    own ++ free.take (e - own.length)

/-- The engine registers of every head and the count of free engines. -/
def State.engineRegs (s : State) : State :=
  let held := (s.mvw.heads.flatMap fun (x : Head) => x.engines).eraseDups
  s.mvw.heads.foldl (fun t x =>
    let map := fun (lo : Nat) => ((x.engines.filter fun i => decide (lo ≤ i ∧ i < lo + 32)).map fun i => 2 ^ (i - lo)).sum
    (((t.wr (Reg.MVW_H_ENG_COUNT x.h) x.engines.length).wr (Reg.MVW_H_ENGMAP_LO_MAP x.h) (map 0)).wr (Reg.MVW_H_ENGMAP_MID_MAP x.h) (map 32)).wr
      (Reg.MVW_H_ENGMAP_HI_MAP x.h) (map 64)) (s.wr Reg.MVW_ENG_FREE_COUNT (capCount s.variant 0x17 - held.length))

/-! ### Selection of layer frames (R313, R314, R317) -/

/-- Is a frame available at head Meridian `mh` of head `h` (R313)? -/
def State.frameAvailable (s : State) (h : Nat) (v : VidSet) (mh : Nat) (f : WinFrame) : Bool :=
  let g := s.headGen h
  let n := s.genN g
  let d := s.genD g
  (f.complete && decide (f.doneAt ≤ mh)) || (!f.abandoned && decide (f.sofAt < mh) && (List.range v.h).all fun r =>
    let a := (v.cy + v.lineFor r + 1) * v.rateD * 10 ^ 9
    let b := max 1 (v.rateN * vTotal v.high)
    let c := 64 * ((v.y + r) / 64) * d * 10 ^ 9
    let e := max 1 (n * headHeight (s.headFmt h))
    decide ((f.sofAt + 2000) * b * e + a * e ≤ mh * b * e + c * b))

/-- A video layer selects its newest available frame, or repeats: a layer that never had a frame, or is hidden, counts as late like any other, and
one that was revealed raises no LAYER_LATE until its first frame after that (R314, R317). -/
def State.selectLayer (s : State) (h l mh : Nat) : State :=
  let i := 64 * h + l
  let x := s.layer i
  let v := s.vid h l
  let floor := max (x.sel.getD 0) (x.reveal.getD 0)
  let best := ((x.frames.filter fun f => s.frameAvailable h v mh f && (decide (floor < f.num))).map fun (f : WinFrame) => f.num).foldl max 0
  if floor < best then
    let y := { x with sel := some best, prev := x.sel, lateRun := 0, reveal := none }
    (((s.putLayer (y.modFrame best fun f => { f with chosen := true })).wr (Reg.MVW_L_STAT_LATE i) 0).wr (Reg.MVW_L_STAT_NEVER i) 0).wr
      (Reg.MVW_L_STAT_HOLD_EXP i) 0 |>.endCause 0x2805 (srcHead h) i
  else
    let s1 := ((s.putLayer { x with lateRun := x.lateRun + 1 }).wr (Reg.MVW_L_STAT_LATE i) 1).bump (Reg.MVW_L_CNT_REPEAT i) 1
    let g := s.headGen h
    let s2 := if x.reveal.isNone ∧ s.genN g * v.rateD ≤ v.rateN * s.genD g then s1.headEvent h 0x2801 i else s1
    if v.hold ≠ 0 ∧ v.hold ≤ x.lateRun + 1 then (s2.wr (Reg.MVW_L_STAT_HOLD_EXP i) 1).headEvent h 0x2805 i else s2

/-- A layer is hidden when no pair of it is fetched, and revealed when some is again (R317). -/
def State.hideLayer (s : State) (i : Nat) (fetched : Bool) : State :=
  let x := s.layer i
  if fetched = x.hidden then
    if fetched then s.putLayer { x with hidden := false, reveal := some x.arrived } else s.putLayer { x with hidden := true }
  else s

/-! ### Meter bars (R320) -/

/-- Largest magnitude of a source's samples whose instants fall in [`a`, `b`). -/
def State.peakOf (s : State) (n a b : Nat) : Nat :=
  let fs := s.sourceFs n
  let x := s.audioSource n
  ((x.hist ++ x.samples).filter fun p => decide (a * fs ≤ p.1 * 10 ^ 9 ∧ p.1 * 10 ^ 9 < b * fs)).foldl (fun m p => max m p.2.natAbs) 0

/-- The level q of a peak in 1/4 dB: the largest integer with 10^(q/80) × (2^23 − 1) ≤ P, within −4F … 0. -/
def levelOf (p floor : Nat) : Int :=
  if p = 0 then -(4 * floor : Nat)
  else match (List.range (4 * floor)).find? fun j => decide ((2 ^ 23 - 1) ^ 80 ≤ p ^ 80 * 10 ^ j) with
    | some j => -(j : Int)
    | none => -(4 * floor : Nat)

/-- A meter bar moves at a head Meridian. -/
def State.moveMeter (s : State) (h mh i : Nat) (m : MetSet) : State :=
  let x := s.head h
  let g := s.headGen h
  let per := s.headPeriod h
  let old := (x.meters.find? fun r => r.index == i).getD ⟨i, -(4 * m.floor : Nat), []⟩
  let q := levelOf (if m.source = 0xFFFF then 0 else s.peakOf m.source (mh - per) mh) m.floor
  let d : Int := (max 1 (m.fall * 4 * s.genD g / max 1 (s.genN g)) : Nat)
  let lv := max q (old.level - d)
  let held := (mh, lv) :: old.held.filter fun p => decide (mh < p.1 + m.hold * 100000000)
  s.putHead { x with meters := ⟨i, lv, held⟩ :: x.meters.filter fun r => r.index != i }

/-! ### Pixels (R318) -/

/-- A pixel pair with the alphas of its two pixels. -/
structure Pair where
  cb : Nat
  y0 : Nat
  cr : Nat
  y1 : Nat
  a0 : Nat
  a1 : Nat
  deriving DecidableEq, Repr

/-- The pair of a COLOUR. -/
def pairOf (c alpha : Nat) : Pair := ⟨c / 2 ^ 10 % 1024, c / 2 ^ 20 % 1024, c % 1024, c / 2 ^ 20 % 1024, alpha, alpha⟩

/-- One component blended. -/
def blend (premul : Bool) (a s d : Nat) : Nat :=
  if premul then min 1019 (s + ((1023 - a) * d + 511) / 1023) else (a * s + (1023 - a) * d + 511) / 1023

/-- A pair blended over another: chroma takes the alpha of the even pixel. -/
def Pair.over (s : Pair) (premul : Bool) (d : Pair) : Pair :=
  ⟨blend premul s.a0 s.cb d.cb, blend premul s.a0 s.y0 d.y0, blend premul s.a0 s.cr d.cr, blend premul s.a1 s.y1 d.y1, 1023, 1023⟩

/-- A row of packed pairs (R311). -/
def unpackPairs (alpha : Nat) (b : List Byte) : List Pair :=
  (List.range (b.length / 5)).map fun j =>
    let v := beNat (bytesAt b (5 * j) 5)
    ⟨v / 2 ^ 30 % 1024, v / 2 ^ 20 % 1024, v / 2 ^ 10 % 1024, v % 1024, alpha, alpha⟩

/-- A row of a graphic (R319): words little-endian, chroma Cb on even and Cr on odd pixels. -/
def graphicPairs (b : List Byte) : List Pair :=
  (List.range (b.length / 8)).map fun j =>
    let w := fun (o : Nat) => beNat (bytesAt b o 4).reverse
    let p := w (8 * j)
    let q := w (8 * j + 4)
    ⟨p / 2 ^ 12 % 1024, p / 2 ^ 22, q / 2 ^ 12 % 1024, q / 2 ^ 22, p / 4 % 1024, q / 4 % 1024⟩

/-- The pairs of a video layer in window row `r`, and whether the row of its selected frame was late (R314, R315). -/
def State.videoRow (s : State) (h l r : Nat) : List Pair × Bool :=
  let i := 64 * h + l
  let x := s.layer i
  let v := s.vid h l
  let fill := List.replicate (v.w / 2) (pairOf v.fill v.alpha)
  let row := fun (f : WinFrame) => unpackPairs v.alpha (s.memRead (s.windowBase i + f.buf * v.bufferBytes + r * v.w * 5 / 2) (v.w / 2 * 5))
  match x.sel with
  | none => (fill, false)
  | some n =>
    if x.reveal.isSome ∨ s.flag (Reg.MVW_L_STAT_HOLD_EXP i) then (fill, false)
    else match x.frames.find? fun f => f.num == n with
      | some f =>
        if r < f.rows then (row f, false)
        else match x.prev.bind fun p => x.frames.find? fun y => y.num == p && decide (r < y.rows) with
          | some y => (row y, true)
          | none => (fill, true)
      | none => (fill, true)

/-- A layer over a row `y` of the head. -/
def Lay.draw (a : Lay) (tiles : List Nat) (fmt y : Nat) (premul : Bool) (src : List Pair) (d : List Pair) : List Pair :=
  d.zipIdx.map fun p =>
    let x := 2 * p.2
    if a.x ≤ x ∧ x < a.x + a.w ∧ tiles.contains (y / 64 * headCols fmt + x / 64) then
      ((src[(x - a.x) / 2]?).map fun (q : Pair) => q.over premul p.1).getD p.1
    else p.1

/-- The colour of pixel `t` along a bar of length `len`; none where it takes the colour beneath. -/
def MetSet.colourAt (m : MetSet) (level peak : Int) (len t : Nat) : Nat :=
  let lam := fun (k : Nat) => (-(4 * m.floor : Nat) : Int) + ((4 * m.floor * (k + 1) + len - 1) / max 1 len : Nat)
  let top := ((List.range len).filter fun k => decide (lam k ≤ peak)).getLast?
  let c := fun (k : Nat) => m.colours.getD k 0
  if m.hold ≠ 0 ∧ top = some t then c 4
  else if level < lam t then c 3
  else if m.alarm < lam t then c 2
  else if m.warn < lam t then c 1 else c 0

/-- A meter bar over a row `y` of the head: drawn last, opaque, clipped. -/
def MetSet.draw (m : MetSet) (r : MetRun) (y : Nat) (d : List Pair) : List Pair :=
  if y < m.y ∨ m.y + m.h ≤ y then d
  else
    let peak := r.held.foldl (fun (a : Int) p => max a p.2) r.level
    let at_ := fun (x : Nat) => if m.x ≤ x ∧ x < m.x + m.w then
        some (pairOf (if m.horizontal then m.colourAt r.level peak m.w (x - m.x) else m.colourAt r.level peak m.h (m.y + m.h - 1 - y)) 1023)
      else none
    d.zipIdx.map fun p =>
      let e := at_ (2 * p.2)
      let o := at_ (2 * p.2 + 1)
      { p.1 with
        cb := (e.map fun (q : Pair) => q.cb).getD p.1.cb
        cr := (e.map fun (q : Pair) => q.cr).getD p.1.cr
        y0 := (e.map fun (q : Pair) => q.y0).getD p.1.y0
        y1 := (o.map fun (q : Pair) => q.y0).getD p.1.y1 }

/-- Row `y` of a head's picture, with the video layers whose row was late. -/
def State.composeRow (s : State) (h y : Nat) : List Byte × List Nat :=
  let x := s.head h
  let fmt := s.headFmt h
  let bg := List.replicate (headWidth fmt / 2) (pairOf (s.rd (Reg.MVW_H_BG_COLOUR h)) 1023)
  let lays := (s.laysOf (s.currentVid h) x.cur.gfx).filter fun a =>
    decide (a.y ≤ y ∧ y < a.y + a.h) && (tilesOf x.canopy a.key).any fun t => t / headCols fmt == y / 64
  let r := lays.foldl (fun (acc : List Pair × List Nat) a =>
    if a.key < 64 then
      let v := s.videoRow h a.key (y - a.y)
      (a.draw (tilesOf x.canopy a.key) fmt y false v.1 acc.1, if v.2 then acc.2 ++ [a.key] else acc.2)
    else
      let g := ((x.cur.gfx.find? fun e => 64 + e.1 == a.key).map fun (e : Nat × GfxSet) => e.2)
      let premul := (g.map fun (e : GfxSet) => e.premul).getD false
      let base := s.bufferAt 3 ((g.map fun (e : GfxSet) => e.handle).getD 0)
      (a.draw (tilesOf x.canopy a.key) fmt y premul (graphicPairs (s.memRead (base + (y - a.y) * a.w * 4) (a.w * 4))) acc.1, acc.2)) (bg, [])
  let d := (x.cur.met.filter fun m => m.2.en).foldl (fun l m =>
    m.2.draw ((x.meters.find? fun t => t.index == m.1).getD ⟨m.1, -(4 * m.2.floor : Nat), []⟩) y l) r.1
  (d.flatMap fun p => beBytes 5 (((p.cb * 1024 + p.y0) * 1024 + p.cr) * 1024 + p.y1), r.2)

/-- The rows of band `b`. -/
def bandRows (fmt b : Nat) : List Nat := (List.range (min 64 (headHeight fmt - 64 * b))).map fun i => 64 * b + i

/-- The band that a head starts next: frame, head Meridian and band; bands of an earlier frame come first (R304). -/
def Head.nextUp (x : Head) : Option (Nat × Nat × Nat) :=
  match x.late with
  | e :: _ => some e
  | [] => x.frame.map fun f => (f, x.mh, x.nextBand)

/-- The frames of a head with bands that have not started, once one more has; `n` bands make a frame. -/
def Head.tookBand (x : Head) (n : Nat) : Head :=
  match x.late with
  | (f, m, b) :: r => { x with late := if b + 1 < n then (f, m, b + 1) :: r else r }
  | [] => { x with nextBand := x.nextBand + 1 }

/-- A band is composed from what its layers hold at its start, under the settings in force then (R304, R315, R321). -/
def State.composeBand (s : State) (h f b : Nat) : State :=
  let rows := (bandRows (s.headFmt h) b).map fun y => (y, s.composeRow h y)
  let late := (rows.flatMap fun r => r.2.2).eraseDups
  let s1 := late.foldl (fun t l => (t.wr (Reg.MVW_L_STAT_ROW_LATE (64 * h + l)) 1).headEvent h 0x2803 (64 * h + l)) s
  s1.putHead { (s1.head h).tookBand (headBands (s.headFmt h)) with band := some (f, b, rows.map fun r => (r.1, r.2.1)) }

/-! ### Emission (R302, R304) -/

/-- The time scale of a frame's rows, and the instant at which its next row leaves, in its units: M0 − 13 000 ns + L × T_h / V_total after the
frame's Meridian less 13 000 ns, under the rate it began with (R304). -/
def OutFrame.scale (e : OutFrame) : Nat := max 1 (e.n * headTotal e.fmt)
def OutFrame.due (e : OutFrame) : Nat := e.m0 * e.scale + e.row * e.d * 10 ^ 9

/-- The emission whose next row leaves first. -/
def Head.nextOut (x : Head) : Option OutFrame :=
  x.emit.foldl (fun a e => match a with
    | none => some e
    | some b => if e.due * b.scale < b.due * e.scale then some e else some b) none

/-- A head has done with the next row of a frame. -/
def Head.tookRow (x : Head) (e : OutFrame) : Head :=
  { x with emit := x.emit.flatMap fun y => if y = e then (if e.row + 1 < headHeight e.fmt then [{ e with row := e.row + 1 }] else []) else [y] }

/-- The cells of the next row of a frame; the first row of the first frame in new settings follows a SEQ_RESYNC cell. -/
def State.emitRow (s : State) (h : Nat) (e : OutFrame) (row : List Byte) : State :=
  let k := headSlot h e.fmt
  let f := e.frame
  let y := e.row
  let n := lineCells (headWidth e.fmt) false
  let q := 4 * b01 (isQuarter k)
  let x := s.head h
  let first := x.resync.any fun t => decide (t ≤ e.m0)
  let s1 := if first then s.fabricWrite .internal (sourceCell 0xC2 q (slotNo k) 0 0 (x.seq % 2 ^ 32) (f % 65536) []) else s
  let s2 := (List.range n).foldl (fun t i =>
    t.fabricWrite .internal (sourceCell 0 (128 * b01 (y == 0 && i == 0) + 64 * b01 (i == 0) + 32 * b01 (i + 1 == n) + q) (slotNo k) y i
      ((x.seq + i) % 2 ^ 32) (f % 65536) (bytesAt row (256 * i) 256))) s1
  s2.putHead { s2.head h with seq := (x.seq + n) % 2 ^ 32, resync := if first then none else x.resync }

/-! ### Settings in force and settings that wait -/

/-- What a head is: enabled, format, generator, channel set and settings. -/
structure HeadForm where
  on : Bool
  fmt : Nat
  gen : Nat
  chan : Nat
  sets : HeadSet
  deriving DecidableEq, Repr

/-- The settings in force: the current registers, with the graphic layers and bars of the indirect table. -/
def State.headCur (s : State) (h : Nat) : HeadSet :=
  let x := s.head h
  ⟨s.currentVid h, x.cur.gfx, x.cur.met⟩

/-- A head once a change of it has applied. -/
def HeadForm.take (p : HeadForm) (c : HeadChange) : HeadForm :=
  let q := match c.config with
    | some k => { p with on := k.1, fmt := k.2.1, gen := k.2.2.1, chan := k.2.2.2.1 }
    | none => p
  match c.commit with
  | some y => { q with sets := y }
  | none => q

/-- A head as it is, and once changes of it have applied. -/
def State.headForm (s : State) (h : Nat) (cs : List HeadChange) : HeadForm :=
  cs.foldl HeadForm.take ⟨s.headOn h, s.headFmt h, s.headGen h, (s.head h).set, s.headCur h⟩

/-- A head once every admitted change has applied: enable, format and generator, channel set, settings. -/
def State.headLast (s : State) (h : Nat) : HeadForm := s.headForm h (s.head h).waiting
def State.headNext (s : State) (h : Nat) : Bool × Nat × Nat := ((s.headLast h).on, (s.headLast h).fmt, (s.headLast h).gen)
def State.headSetNo (s : State) (h : Nat) : Nat := (s.headLast h).chan
def State.headCommitted (s : State) (h : Nat) : HeadSet := (s.headLast h).sets

/-- Every set of settings of a head that holds a resource: current, and those that wait. -/
def State.headSets (s : State) (h : Nat) : List HeadSet :=
  s.headCur h :: (s.head h).waiting.filterMap fun (w : HeadChange) => w.commit

/-- The enabled video layers of some settings. -/
def HeadSet.videos (x : HeadSet) : List (Nat × VidSet) := x.vid.filter fun v => v.2.en

end Sys2Proof.Machine
end

