-- ==== Sys2Proof/Machine/Clock.lean ====
section
/-!
DEFINITION. The Chronograph and the Heliostat (R369-R384, R392-R413): the frequency word and its limits, the loop and the slew,
validity and selection of inputs, holdover, steps, time pulses and frame pulses.
-/
namespace Sys2Proof.Machine

/-! ### The frequency word (R369, R377) -/

/-- π times 10^20. -/
def piScaled : Nat := 314159265358979323846

/-- Integer square root, bit by bit from bit `k - 1`. -/
def isqrtFrom (n : Nat) : Nat → Nat → Nat
  | 0, r => r
  | k + 1, r => isqrtFrom n k (if (r + 2 ^ k) * (r + 2 ^ k) ≤ n then r + 2 ^ k else r)

/-- Integer square root of a number below 2^128. -/
def isqrt (n : Nat) : Nat := isqrtFrom n 64 0

/-- A value held between two bounds. -/
def clampInt (lo hi v : Int) : Int := max lo (min hi v)

/-- Do the Chronograph and the Heliostat act: PD39 on, and not behind a closed Firebreak, which holds what leaves them (R11)? -/
def State.chronoOn (s : State) : Bool := s.domOn 39 && !s.shutIn 0x07 0
def State.helioOn (s : State) : Bool := s.domOn 39 && !s.shutIn 0x08 0

/-- Change the Chronograph's or the Heliostat's record. -/
def State.modTim (s : State) (f : TimState → TimState) : State := { s with tim := f s.tim }
def State.modRef (s : State) (f : RefState → RefState) : State := { s with ref := f s.ref }

/-- The frequency word. -/
def State.freqWord (s : State) : Int := s.rdInt Reg.TIM_INC_Y

/-- Set the frequency word, within ±858 993; the time spent at the old one counts in the mean of its second. -/
def State.setY (s : State) (y : Int) : State :=
  let t : Int := s.chrono
  let old := s.freqWord
  (s.modRef fun r => { r with ySum := r.ySum + old * (t - r.ySince), ySince := s.chrono }).wrInt Reg.TIM_INC_Y (clampInt (-858993) 858993 y)

/-- What LIMIT allows the word to change `tau` ns after the last change: whole words, and what is left over for the next, in 10^-18. -/
def State.slewRoom (s : State) (tau : Nat) : Nat × Nat :=
  let n := s.rd Reg.TIM_SLEW_LIMIT * tau * 2 ^ 32 + s.ref.slewRem
  (n / 10 ^ 18, n % 10 ^ 18)

/-- The word that a request for `target` gives `tau` ns after the last change: LIMIT bounds the change, MAXPPM the distance from
the word at the last LOCKED (R377). -/
def State.slewed (s : State) (target : Int) (tau : Nat) : Int :=
  let y := s.freqWord
  let lim : Int := (((s.slewRoom tau).1 : Nat) : Int)
  let m : Int := ((s.rd Reg.TIM_SLEW_MAXPPM * 2 ^ 32 / 10 ^ 6 : Nat) : Int)
  clampInt (y - lim) (y + lim) (clampInt (s.tim.yLocked - m) (s.tim.yLocked + m) target)

/-- Move the word toward `target` as far as the limits allow. -/
def State.slewTo (s : State) (target : Int) (tau : Nat) : State :=
  (s.modRef fun r => { r with slewRem := (s.slewRoom tau).2 }).setY (s.slewed target tau)

/-! ### The priority table (R393, R396, R418) -/

/-- What is tracked for an entry. -/
def State.refIn (s : State) (i : Nat) : RefInput := s.ref.inputs.getD i RefInput.reset

/-- Change what is tracked for an entry. -/
def State.modRefIn (s : State) (i : Nat) (f : RefInput → RefInput) : State :=
  s.modRef fun r => { r with inputs := r.inputs.set i (f (s.refIn i)) }

/-- The input code of an entry; 15 unused. Of two entries with one input the lower holds it. -/
def State.entryInput (s : State) (i : Nat) : Nat :=
  let c := s.rd (Reg.REF_E_CFG_INPUT i)
  if (List.range i).any fun j => s.rd (Reg.REF_E_CFG_INPUT j) == c then 15 else c

/-- The entry that holds an input. -/
def State.entryOf (s : State) (code : Nat) : Option Nat := (List.range 8).find? fun i => s.entryInput i == code

/-- The active entry. -/
def State.activeEntry (s : State) : Option Nat := if s.flag Reg.REF_STAT_NONE then none else some (s.rd Reg.REF_STAT_ACTIVE)

/-- Is an input a phase input (Table 14.1)? -/
def isPhase (code : Nat) : Bool := code != 6 && code != 8

/-- The rate of an entry's events as N and D. -/
def State.entryRate (s : State) (i : Nat) : Nat × Nat :=
  let c := s.entryInput i
  if 2 ≤ c ∧ c ≤ 5 then (max 1 (s.rd (Reg.REF_E_N_N i)), max 1 (s.rd (Reg.REF_E_D_D i))) else (1, 1)

/-- A PTP domain: 0 A, 1 B. -/
def State.ptp (s : State) (d : Nat) : PtpDomain := if d = 0 then s.tim.domA else s.tim.domB

/-- Change a PTP domain. -/
def State.modPtp (s : State) (d : Nat) (f : PtpDomain → PtpDomain) : State :=
  s.modTim fun t => if d = 0 then { t with domA := f t.domA } else { t with domB := f t.domB }

/-- The Announce of the selected master. -/
def PtpDomain.best (d : PtpDomain) : Option Announce := d.announces.find? fun a => some a.source == d.master

/-- The holdover estimate. -/
def State.yh (s : State) : Int := if s.ref.yhKnown then s.rdInt Reg.REF_YH_Y else 0

/-- An input's frequency lies within its limit (R397). -/
def State.freqOk (s : State) (i : Nat) : Bool :=
  let lim : Nat := if s.ref.yhKnown then s.rd Reg.REF_FLIMIT_CPPM * 2 ^ 32 / 10 ^ 8 else 429496
  (s.refIn i).measured && decide ((s.rdInt (Reg.REF_E_FREQ_Y i) - s.yh).natAbs ≤ lim)

/-- Is an entry's input valid (R397)? -/
def State.refValid (s : State) (i : Nat) : Bool :=
  let c := s.entryInput i
  let x := s.refIn i
  c != 15 && x.active && s.freqOk i &&
    (if c ≤ 1 then
      let d := s.ptp c
      d.enabled && !d.lost && ((d.best.map fun (a : Announce) => decide (a.clockClass ≤ s.rd (Reg.REF_E_CFG_CLASS i))).getD false)
     else !(decide (c ≤ 5) && x.formatError))

/-- The FP_OUT outputs that follow an input. -/
def State.followersOf (s : State) (code : Nat) : List Nat :=
  (List.range 4).filter fun p => s.flag (Reg.REF_FP_CTL_EN p) &&
    (if code = 7 then s.rd (Reg.REF_FP_CTL_SRC p) == 7 else decide (2 ≤ code ∧ code ≤ 5) && s.rd (Reg.REF_FP_CTL_SRC p) == code - 2)

/-- Change an FP_OUT record. -/
def State.fpOut (s : State) (p : Nat) : FpOut := s.ref.outs.getD p FpOut.reset
def State.modFp (s : State) (p : Nat) (f : FpOut → FpOut) : State := s.modRef fun r => { r with outs := r.outs.set p (f (s.fpOut p)) }

/-- The outputs of an input go into flywheel (R410); `broken`: by a disqualification other than by missing pulses. -/
def State.flywheel (s : State) (code : Nat) (broken : Bool) : State :=
  (s.followersOf code).foldl (fun t p =>
    ((t.modFp p fun x => { x with flywheel := true, broken := broken }).wr (Reg.REF_FP_STAT_FLYWHEEL p) 1).raise 0x2B08 srcRef p) s

/-- Decide a step: the first whole second at least 2 ms ahead (R376), or the one at which the other card of a pair steps (R379). -/
def State.decideStep (s : State) (cmd : Option (Nat × Nat)) (at_ : Option Nat) : State :=
  s.modTim fun t => { t with stepAt := some (at_.getD ((s.chrono + 2000000 + 999999999) / 10 ^ 9 * 10 ^ 9)), stepCmd := cmd }

/-- A decided step is abandoned; a TIM_RESTEP ends with FAILED and NOT_READY (R376). -/
def State.abandonStep (s : State) : State :=
  let s1 := s.modTim fun t => { t with stepAt := none, stepCmd := none }
  match s.tim.stepCmd with
  | some c => if s.tim.stepAt.isSome then s1.finish c.1 c.2 0x0010 0 else s1
  | none => s1

/-- An entry's input stops being valid: it is disqualified and its timer starts again (R397), and a step decided from it is abandoned
(R376). `lost`: its activity is lost. -/
def State.disqualify (s : State) (i : Nat) (lost : Bool) : State :=
  let was := (s.refIn i).qualified
  let active := s.activeEntry == some i
  let s1 := s.modRefIn i fun x => { x with qualified := false, validSince := none }
  let s2 :=
    if lost then
      if was ∨ active then (s1.wr (Reg.REF_E_HIST_LOST i) 1).raise 0x2B01 srcRef i else s1
    else if was then (s1.wr (Reg.REF_E_HIST_DISQUALIFIED i) 1).raise 0x2B02 srcRef i else s1
  let s3 := if active ∧ (was ∨ lost) then s2.abandonStep else s2
  if was ∨ lost then s3.flywheel (s.entryInput i) (!lost) else s3

/-- Judge an entry's validity after something changed. -/
def State.refCheck (s : State) (i : Nat) : State :=
  let x := s.refIn i
  if s.refValid i then (if x.validSince.isSome then s else s.modRefIn i fun y => { y with validSince := some s.now })
  else if x.validSince.isSome then s.disqualify i false else s

/-- An entry's activity is lost (R397). -/
def State.refLost (s : State) (i : Nat) : State :=
  if (s.refIn i).active then (s.modRefIn i fun x => { x with active := false }).disqualify i true else s

/-- Judge every entry, after REF_FLIMIT or the holdover estimate has changed (R397). -/
def State.refCheckAll (s : State) : State := (List.range 8).foldl (fun t i => t.refCheck i) s

/-- A field of an entry changes: its timer restarts; another input starts from nothing (R397). -/
def State.entryChanged (s : State) (i : Nat) (input : Bool) : State :=
  let s1 := s.modRefIn i fun x => if input then RefInput.reset else { x with qualified := false, validSince := none }
  let s2 := if input then ((s1.endCause 0x2B01 srcRef i).wr (Reg.REF_E_FREQ_Y i) 0).wr (Reg.REF_E_PHASE_NS i) 0x7FFFFFFF else s1
  s2.refCheck i

/-- The fields of an entry of the priority table (R396). -/
def State.entryFields (s : State) (i : Nat) : List Nat :=
  [s.rd (Reg.REF_E_CFG_RANK i), s.rd (Reg.REF_E_CFG_ACTIVE_LOW i), s.rd (Reg.REF_E_CFG_CLASS i), s.rd (Reg.REF_E_BW_DHZ i), s.rd (Reg.REF_E_N_N i),
   s.rd (Reg.REF_E_D_D i), s.rd (Reg.REF_E_LINES_COUNT i), s.rd (Reg.REF_E_DLY_NS i)]

/-- The entries whose fields differ from those of `old` start again; so does one that the two-entry rule gives or takes its input (R397,
R418). -/
def State.entriesChanged (old s : State) : State :=
  (List.range 8).foldl (fun t i =>
    let input := old.entryInput i != s.entryInput i || old.rd (Reg.REF_E_CFG_INPUT i) != s.rd (Reg.REF_E_CFG_INPUT i)
    if input || old.entryFields i != s.entryFields i then t.entryChanged i input else t) s

/-! ### States of the Chronograph (Table 13.1) -/

/-- Enter a state; TIME_VALID follows (R370). -/
def State.timState (s : State) (st : Nat) : State :=
  let s1 := (s.wr Reg.TIM_STAT_STATE st).wr Reg.TIM_STAT_TIME_VALID (b01 (decide (2 ≤ st)))
  let s2 := if st = 2 then s1.modTim fun t => { t with yLocked := s.freqWord } else s1
  if st = 3 then (s2.modTim fun t => { t with ySlew := s.freqWord }).raise 0x2A02 srcTim 0 else s2.endCause 0x2A02 srcTim 0

/-- Set the bias O (R375); its retirement counts from now. -/
def State.setBias (s : State) (o : Int) : State :=
  ((s.modTim fun t => { t with bias := o, biasAt := s.now, biasRem := 0 }).wrInt Reg.TIM_BIAS_NS_NS o).wr Reg.TIM_STAT_BIAS_ACTIVE (b01 (o != 0))

/-- Enter a state of REF_STAT. -/
def State.refState (s : State) (st : Nat) : State :=
  if s.rd Reg.REF_STAT_STATE = st then s else (s.wr Reg.REF_STAT_STATE st).modRef fun r => { r with since := s.now }

/-- The bias has moved toward 0 by RATE since it was last counted (R375); a transition ends when it gets there (R400). Each sample of the
selected input and each pass counts it (log entry 138). -/
def State.retireBias (s : State) : State :=
  let o := s.tim.bias
  let n := s.rd Reg.TIM_BIAS_RATE * (s.now - s.tim.biasAt) + s.tim.biasRem
  let d := n / 10 ^ 9
  if o = 0 ∨ s.flag Reg.TIM_BIAS_HOLD then s.modTim fun t => { t with biasAt := s.now, biasRem := 0 }
  else
    let left : Int := if o.natAbs ≤ d then 0 else if 0 < o then o - d else o + d
    let s1 := (s.setBias left).modTim fun t => { t with biasRem := n % 10 ^ 9 }
    if left = 0 ∧ s1.rd Reg.REF_STAT_STATE = 2 then s1.refState 1 else s1

/-! ### The loop and the slew (R378, R402) -/

/-- Bandwidth of an entry in Hz, as numerator and denominator: the lower of its own and the limit of its input. -/
def State.bandwidth (s : State) (i : Nat) : Nat × Nat :=
  let c := s.entryInput i
  let own := s.rd (Reg.REF_E_BW_DHZ i)
  let cap : Nat × Nat :=
    if c ≤ 1 then
      let n := (s.ptp c).syncLog
      if 0 ≤ n then (1, 10 * 2 ^ n.toNat) else (2 ^ (-n).toNat, 10)
    else if c ≤ 5 then ((s.entryRate i).1, 10 * (s.entryRate i).2)
    else if c = 7 then (1, 10) else (100, 1)
  if own * cap.2 ≤ cap.1 * 10 then (own, 10) else cap

/-- One sample of the loop, `tau` ns after the last; the integrator is kept in 2^-64 (log entry 44). -/
def State.loopStep (s : State) (i : Nat) (e : Int) (tau : Nat) : State :=
  let b := s.bandwidth i
  let wn : Nat := 2 * piScaled * b.1
  let wd : Nat := 10 ^ 20 * b.2
  let kpe : Int := (2 * wn * 2 ^ 64 : Nat) * e / (wd * 10 ^ 9 : Nat)
  let kie : Int := (wn * wn * tau * 2 ^ 64 : Nat) * e / (wd * wd * 10 ^ 18 : Nat)
  if s.ref.takeover then s.modRef fun r => { r with integ := -(s.freqWord * 2 ^ 32) - kpe, takeover := false }
  else
    let integ := s.ref.integ + kie
    let req : Int := (-(kpe + integ)).tdiv (2 ^ 32)
    (s.modRef fun r => { r with integ := if s.slewed req tau = req then integ else r.integ }).slewTo req tau

/-- One sample of the minimum-time slew profile (R378). -/
def State.slewStep (s : State) (e : Int) (tau : Nat) : State :=
  let v : Int := ((isqrt (2 * s.rd Reg.TIM_SLEW_LIMIT * e.natAbs * 2 ^ 64) / 10 ^ 9 : Nat) : Int)
  s.slewTo (if 0 < e then s.tim.ySlew - v else s.tim.ySlew + v) tau

/-- A phase or offset as a 32-bit register holds it; 0x7FFF_FFFF is kept for no sample. -/
def satNs (v : Int) : Int := clampInt (-(2 ^ 31)) (2 ^ 31 - 2) v

/-- A sample of the selected input with phase error `raw` before the bias (R375, R378, R402). -/
def State.helioSample (was : State) (i : Nat) (raw : Int) : State :=
  let s := was.retireBias
  let e := if isPhase (s.entryInput i) then raw - s.tim.bias else raw
  let tau : Nat := (s.ref.lastSample.map fun t => s.now - t).getD 0
  let s1 := (s.wrInt (Reg.REF_E_PHASE_NS i) (satNs e)).modRef fun r => { r with lastSample := some s.now }
  let st := s.rd Reg.TIM_STAT_STATE
  if !s.tim.locked then s1
  else if st = 3 then
    if e.natAbs ≤ 100 then ((s1.timState 2).modRef fun r => { r with takeover := true }).loopStep i e tau else s1.slewStep e tau
  else if st = 2 then
    if s.rd Reg.TIM_LARGE_NS < e.natAbs then (s1.timState 3).slewStep e tau else s1.loopStep i e tau
  else s1

/-- A sample of an entry's input arrives, with the frequency measured over the last 10 s where there is one: activity, phase and
frequency, and the loop where the entry is active (R392, R397). -/
def State.refSample (s : State) (i : Nat) (raw : Int) (freq : Option Int) : State :=
  let s1 := (s.endCause 0x2B01 srcRef i).modRefIn i fun x =>
    { x with lastEvent := some s.now, active := true, measured := x.measured || freq.isSome, raw := some raw }
  let s2 := match freq with
    | some f => s1.wrInt (Reg.REF_E_FREQ_Y i) f
    | none => s1
  let s3 := if s.activeEntry = some i then s2.helioSample i raw else s2.wrInt (Reg.REF_E_PHASE_NS i) (satNs raw)
  if s.helioOn then s3.refCheck i else s

/-! ### Frame pulses (R409, R410) -/

/-- A value folded into (−T/2, T/2] for a period of `n / d` Hz. -/
def foldPhase (n d : Nat) (v : Int) : Int :=
  let t : Int := d * 10 ^ 9
  let x := (v * n) % t
  (if t < 2 * x then x - t else x) / n

/-- Phase of an instant against the grid of a rate: the time since its last grid instant, folded. -/
def phaseOn (n d t : Nat) : Int := foldPhase n d ((t : Int) - (meridianAt n d (frameAt n d t) : Nat))

/-- The mean of a list of phases. -/
def meanInt (l : List Int) : Int := if l.isEmpty then 0 else l.sum.tdiv l.length

/-- The mean of phases around a circle of one period: of what each differs from the first. -/
def meanPhase (n d : Nat) : List Int → Int
  | [] => 0
  | ph :: r => foldPhase n d (ph + meanInt (0 :: r.map fun q => foldPhase n d (q - ph)))

/-- What is kept of the pulses of a pulse input: codes 2 to 5 REF_IN, 7 PPS_IN. -/
def pulseIndex (code : Nat) : Nat := if code = 7 then 4 else code - 2
def State.pulseIn (s : State) (code : Nat) : PulseIn := s.ref.pulses.getD (pulseIndex code) PulseIn.reset

/-- The rate of a pulse input's grid: its entry's; for REF_IN without an entry, what its last two pulses give (log entry 140). -/
def State.inputRate (s : State) (code : Nat) : Nat × Nat :=
  match s.entryOf code with
  | some i => s.entryRate i
  | none => if code = 7 then (1, 1) else (s.pulseIn code).rate

/-- The input that an output follows; none for a generator. -/
def State.fpInput (s : State) (p : Nat) : Option Nat :=
  let c := s.rd (Reg.REF_FP_CTL_SRC p)
  if c < 4 then some (c + 2) else if c = 7 then some 7 else none

/-- The rate of an output's source. -/
def State.fpRate (s : State) (p : Nat) : Nat × Nat :=
  let c := s.rd (Reg.REF_FP_CTL_SRC p)
  if 16 ≤ c then (max 1 (s.genN (c - 16)), s.genD (c - 16)) else ((s.fpInput p).map fun code => (s.pulseIn code).rate).getD (1, 1)

/-- The phase that an output moves to: the predicted source phase plus ρ, modulo the period (R409, R418). -/
def State.fpTarget (s : State) (p : Nat) : Option Int :=
  let r := s.fpRate p
  let rho := s.rdInt (Reg.REF_FP_OFS_NS p)
  match s.fpInput p with
  | none => if 16 ≤ s.rd (Reg.REF_FP_CTL_SRC p) then some (foldPhase r.1 r.2 rho) else none
  | some code =>
    let x := s.pulseIn code
    if x.phases.isEmpty then none else some (foldPhase r.1 r.2 (meanPhase r.1 r.2 x.phases + rho))

/-- The phase of an output's next pulse: toward its target by at most 10 ns from the last, or all the way with JUMP; in flywheel it stays
(R410). -/
def State.fpPhase (s : State) (p : Nat) : Option Int :=
  let x := s.fpOut p
  let r := s.fpRate p
  if !s.flag (Reg.REF_FP_CTL_EN p) then none
  else match s.fpTarget p, x.phase with
    | some t, some ph =>
      let d := foldPhase r.1 r.2 (t - ph)
      if x.flywheel then some ph else some (foldPhase r.1 r.2 (ph + if s.flag (Reg.REF_FP_CTL_JUMP p) then d else clampInt (-10) 10 d))
    | some t, none => some t
    | none, ph => ph

/-- The first pulse of an output after `t`, at least half a period after its last; 0 where none is predicted. -/
def State.fpNext (s : State) (p t : Nat) : Nat :=
  let c := s.rd (Reg.REF_FP_CTL_SRC p)
  let r := s.fpRate p
  match s.fpPhase p with
  | none => 0
  | some ph =>
    let least := max (t + 1) (((s.fpOut p).last.map fun u => u + r.2 * 10 ^ 9 / (2 * r.1)).getD 0)
    let on := max ((least : Int) - ph).toNat (if 16 ≤ c then s.notBefore (c - 16) else 0)
    ((meridianAt r.1 r.2 (targetFrame r.1 r.2 on) : Nat) + ph).toNat

/-- LOCKED of an output: it follows its source within 1 ns. -/
def State.fpStat (s : State) (p : Nat) : State :=
  let x := s.fpOut p
  let near := match s.fpTarget p, s.fpPhase p with
    | some a, some b => decide ((a - b).natAbs ≤ 1)
    | _, _ => false
  (s.wr (Reg.REF_FP_STAT_LOCKED p) (b01 (near && !x.flywheel))).wr (Reg.REF_FP_STAT_FLYWHEEL p) (b01 x.flywheel)

/-- The next pulse of an output is set anew from its settings and what is predicted. -/
def State.fpPlan (s : State) (p : Nat) : State := (s.modFp p fun x => { x with next := s.fpNext p s.chrono }).fpStat p

/-- The source of an output has changed, or its grid: the phase of its last pulse counts on the new grid (R410). -/
def State.fpRebase (s : State) (p : Nat) : State :=
  let r := s.fpRate p
  s.modFp p fun x => { x with phase := x.last.map fun u => phaseOn r.1 r.2 u }

/-- May the flywheel of an output end when a pulse of its input arrives: where pulses were missing, or the entry is qualified again? -/
def State.flyEnds (s : State) (code p : Nat) : Bool :=
  let x := s.fpOut p
  x.flywheel && (!x.broken || ((s.entryOf code).map fun i => (s.refIn i).qualified).getD true)

/-- A pulse of an input arrives: prediction goes on, or restarts after a flywheel (R409, R410). -/
def State.notePulse (s : State) (code : Nat) : State :=
  let t := s.chrono
  let x := s.pulseIn code
  let known := (s.entryOf code).isSome || code == 7 || x.last.isSome
  let r : Nat × Nat := if (s.entryOf code).isSome ∨ code = 7 then s.inputRate code else
    match x.last with
    | some u => if u < t then (10 ^ 9, t - u) else x.rate
    | none => x.rate
  let ph := phaseOn r.1 r.2 t
  let again := r != x.rate || (s.followersOf code).any fun p => s.flyEnds code p
  let y : PulseIn := ⟨r, if !known then [] else if again then [ph] else (ph :: x.phases).take 16, some t⟩
  let s1 := s.modRef fun q => { q with pulses := q.pulses.set (pulseIndex code) y }
  (s1.followersOf code).foldl (fun t p =>
    let t1 := if s.flyEnds code p then (t.modFp p fun z => { z with flywheel := false, broken := false }).endCause 0x2B08 srcRef p else t
    let t2 := if r != x.rate then t1.fpRebase p else t1
    t2.fpPlan p) s1

/-- An output whose input has missed 3 consecutive pulses goes into flywheel (R410). -/
def State.flyPass (s : State) : State :=
  ([2, 3, 4, 5, 7] : List Nat).foldl (fun t code =>
    let x := t.pulseIn code
    match x.last with
    | some u =>
      if 3 * x.rate.2 * 10 ^ 9 < (t.chrono - u) * x.rate.1 ∧ (t.followersOf code).any (fun p => !(t.fpOut p).flywheel) then t.flywheel code false else t
    | none => t) s

/-- Pin names of the outputs: TP_OUT[p], FP_OUT[p], and the clock outputs. -/
def pinTp (p : Nat) : Nat := 0x100 + p
def pinFp (p : Nat) : Nat := 0x200 + p
def pinClk (c : Nat) : Nat := 0x300 + c

/-- Drive a pin. -/
def State.pin (s : State) (name level : Nat) : State := { s with sent := .pin name level :: s.sent }

/-- Level of FP_OUT[p]. -/
def State.fpLevel (s : State) (p : Nat) (active : Bool) : State := s.pin (pinFp p) (b01 (active != s.flag (Reg.REF_FP_CTL_ACTIVE_LOW p)))

/-- What new settings of a frame-pulse output do, by REF_FRAMEPULSE or a register write: a new source counts as a change of phase (R410); a
disabled output rests at its inactive level. -/
def State.fpChanged (old s : State) (p : Nat) : State :=
  if !s.flag (Reg.REF_FP_CTL_EN p) then (((s.modFp p fun _ => FpOut.reset).endCause 0x2B08 srcRef p).fpStat p).fpLevel p false
  else
    let s1 := if old.rd (Reg.REF_FP_CTL_SRC p) = s.rd (Reg.REF_FP_CTL_SRC p) then s
      else ((s.modFp p fun x => { x with flywheel := false, broken := false }).endCause 0x2B08 srcRef p).fpRebase p
    (s1.fpPlan p).fpLevel p (s1.fpOut p).endsAt.isSome

/-- Frequency of a clock output: 0, 1 VCLK_OUT, 2 ACLK_OUT, 3 AUD_MCLK (R411, R412). -/
def State.clockRate (s : State) (c : Nat) : Nat × Nat :=
  if c = 3 then (24576000, 1)
  else if c = 2 then (([24576000, 12288000, 6144000] : List Nat).getD (s.rd Reg.REF_ACLK_SEL) 24576000, 1)
  else
    let f : Nat := ([148500000, 74250000, 37125000, 27000000] : List Nat).getD (s.rd (Reg.REF_VCLK_SEL c)) 27000000
    if s.flag (Reg.REF_VCLK_FAMILY1 c) ∧ s.rd (Reg.REF_VCLK_SEL c) ≠ 3 then (f * 1000, 1001) else (f, 1)

/-- Is a clock output enabled? AUD_MCLK always runs (R412). -/
def State.clockOn (s : State) (c : Nat) : Bool := if c = 3 then true else if c = 2 then s.flag Reg.REF_ACLK_EN else s.flag (Reg.REF_VCLK_EN c)

/-- The setting of a clock output. -/
def State.clockSet (s : State) (c : Nat) : List Nat :=
  if c = 2 then [s.rd Reg.REF_ACLK_EN, s.rd Reg.REF_ACLK_SEL] else [s.rd (Reg.REF_VCLK_EN c), s.rd (Reg.REF_VCLK_FAMILY1 c), s.rd (Reg.REF_VCLK_SEL c)]

/-- The first falling edge at or after `t` of a clock whose rising edge `k` lies at `k / f`: half a period later (log entry 141). -/
def clockFall (r : Nat × Nat) (t : Nat) : Nat :=
  let j := targetFrame (2 * r.1) r.2 t
  meridianAt (2 * r.1) r.2 (if j % 2 = 1 then j else j + 1)

/-- A clock output that ran at `was` is held low from `fall` and restarts at the first aligned rising edge at least 1 µs later (R413). -/
def State.clockHold (s : State) (c : Nat) (was : Nat × Nat) (fall : Nat) : State :=
  let r := s.clockRate c
  (s.modRef fun x => { x with clocks := x.clocks.set c ⟨was, fall, meridianAt r.1 r.2 (targetFrame r.1 r.2 (fall + 1000))⟩ }).pin (pinClk c) 0

/-- A clock output whose setting differs from that in `old` is held from its next falling edge (R413); one that was off is low already. -/
def State.clockChanged (old s : State) (c : Nat) : State :=
  if old.clockSet c = s.clockSet c then s
  else if old.clockOn c then s.clockHold c (old.clockRate c) (clockFall (old.clockRate c) s.chrono) else s.clockHold c (0, 1) s.chrono

/-- At a step from `old` to `new` a clock output runs on to its next falling edge and is held from there (R413). -/
def State.clockStep (s : State) (old new c : Nat) : State :=
  if s.clockOn c then s.clockHold c (s.clockRate c) (new + (clockFall (s.clockRate c) old - old)) else s

/-- Is a clock output high at Chronograph time `t`, not before its last change: a disabled output is low (R411, R413)? -/
def State.clockHigh (s : State) (c t : Nat) : Bool :=
  let h := s.ref.clocks.getD c ⟨(0, 1), 0, 0⟩
  let r := s.clockRate c
  if t < h.fall then decide (h.was.1 ≠ 0) && frameAt (2 * h.was.1) h.was.2 t % 2 == 0
  else s.clockOn c && decide (h.rise ≤ t) && frameAt (2 * r.1) r.2 t % 2 == 0

/-! ### Time pulses (R382, R383) -/

/-- Instant of edge `k` of a program. -/
def PulseProg.edge (p : PulseProg) (k : Nat) : Nat := if p.periodic then p.start + meridianAt (max 1 p.num) p.den k else p.start

/-- The first edge of a periodic program at or after `t`. -/
def PulseProg.first (p : PulseProg) (t : Nat) : Nat := if t ≤ p.start then 0 else (t - p.start - 1) * p.num / max 1 (p.den * 10 ^ 9) + 1

/-- A program as it goes on at or after `t`: the next edge of its series. -/
def PulseProg.resume (g : PulseProg) (t : Nat) : PulseProg := if g.periodic then { g with next := g.first t } else g

/-- The end of the last pulse that a program will still start before `t`; 0 for none. -/
def PulseProg.endBefore (g : PulseProg) (t : Nat) : Nat :=
  if g.periodic then (if g.next < g.first t then g.edge (g.first t - 1) + g.width else 0)
  else if !g.fired ∧ g.start < t then g.start + g.width else 0

/-- The latest end of the pulses that programs, each from its time on, start before `t`. -/
def lastEnds (t : Nat) : List (Nat × PulseProg) → Nat
  | [] => 0
  | w :: r => max (w.2.endBefore (min t ((r.head?.map fun v => v.1).getD t))) (lastEnds t r)

/-- The end of the pulse that is in progress at `t`, or of the last one before it (R383). -/
def PulseOut.busyAt (x : PulseOut) (t : Nat) : Nat :=
  max (x.endsAt.getD 0) (lastEnds t ((x.prog.toList.map fun g => (0, g)) ++ x.waiting))

/-- A TP_OUT output's record. -/
def State.tp (s : State) (p : Nat) : PulseOut := s.tim.pulses.getD p PulseOut.reset
def State.modTp (s : State) (p : Nat) (f : PulseOut → PulseOut) : State := s.modTim fun t => { t with pulses := t.pulses.set p (f (s.tp p)) }

/-- Drive a TP_OUT output active or inactive. -/
def State.tpLevel (s : State) (p : Nat) (active : Bool) (activeLow : Bool) : State :=
  let v := b01 (active != activeLow)
  (s.wr (Reg.TIM_PULSE_STAT_LEVEL p) v).pin (pinTp p) v

/-- An output's pulse asserts at `t`. -/
def State.tpFire (s : State) (p t : Nat) (g : PulseProg) : State :=
  (s.modTp p fun x => { x with prog := some { g with next := g.next + 1, fired := true }, endsAt := some (t + g.width), lastEdge := some t, low := g.activeLow }).tpLevel
    p true g.activeLow

/-- A once pulse that a forward step from `old` to `new` jumps over fires at the step tick, LATE (R383). -/
def State.tpLate (s : State) (old new p : Nat) (g : PulseProg) : State :=
  if !g.periodic ∧ !g.fired ∧ old < g.start ∧ g.start ≤ new then (((s.tpFire p new g).wr (Reg.TIM_PULSE_STAT_ARMED p) 1).wr (Reg.TIM_PULSE_STAT_LATE p) 1).raise 0x2A06 srcTim p
  else s

/-- What a step from `old` to `new` does to a TP_OUT output (R383): its periodic programs go on with the first edge at least one period after
the last, in elapsed time; once pulses that were jumped over fire, those that waited to take over too. -/
def State.tpStep (s : State) (old new p : Nat) : State :=
  let x := s.tp p
  let on := fun (g : PulseProg) =>
    let period := (g.den * 10 ^ 9 + (g.num - 1)) / max 1 g.num
    (x.lastEdge.map fun e => new + period - (old - e)).getD new
  let jumped := fun (w : Nat × PulseProg) => !w.2.periodic && decide (old < w.2.start ∧ w.2.start ≤ new)
  let s1 := s.modTp p fun y => { y with
    prog := x.prog.map fun g => if g.periodic then g.resume (on g) else g
    waiting := (x.waiting.filter fun w => !jumped w).map fun w => if w.2.periodic ∧ w.1 ≤ new then (on w.2, w.2.resume (on w.2)) else w
    endsAt := x.endsAt.map fun e => new + (e - old), lastEdge := x.lastEdge.map fun e => new - (old - e) }
  (x.prog.toList ++ (x.waiting.map fun w => w.2)).foldl (fun t g => t.tpLate old new p g) s1

/-! ### Steps (R376, R391) -/

/-- A send flow at a step by `by_`: the packets of the frame in progress, `last`, still go in their time, and sending resumes at `start`, the new
Meridian or the first packet after it (R267). -/
def Flow.stepped (f : Flow) (last : Option Nat) (by_ : Int) (start : Nat) : Flow :=
  if f.kind = 2 ∨ f.kind = 7 ∨ f.kind = 8 then { f with startAt := start }
  else match last, f.next with
    | some l, some (frame, i) =>
      if !f.isAudio ∧ frame ≤ l then { f with next := some (frame, i), moved := some (l, (f.moved.map fun (m : Nat × Int) => m.2).getD 0 + by_), startAt := start }
      else { f with next := none, moved := none, startAt := start }
    | _, _ => { f with next := none, moved := none, startAt := start }

/-- The phases that the Heliostat holds against Chronograph time move with a step from `old` to `new`: those of its phase inputs, and of the
pulses that frame-pulse outputs follow, which stay where they are in elapsed time. A PTP θ is Chronograph time less domain time (R373). -/
def State.refStep (s : State) (old new : Nat) : State :=
  let d : Int := (new : Int) - old
  let moved := fun (r : Nat × Nat) (ph : Int) => foldPhase r.1 r.2 (ph + d)
  let ins := (List.range 8).map fun i =>
    let c := s.entryInput i
    let x := s.refIn i
    { x with raw := if !isPhase c then x.raw else x.raw.map fun v => if c ≤ 1 then v + d else moved (s.entryRate i) v }
  let outs := (List.range 4).map fun p =>
    let x := s.fpOut p
    { x with
      phase := if (s.fpInput p).isSome then x.phase.map (moved (s.fpRate p)) else x.phase
      last := x.last.map fun u => u + new - old }
  s.modRef fun r => { r with
    inputs := ins, outs := outs
    pulses := r.pulses.map fun (x : PulseIn) => { x with phases := x.phases.map (moved x.rate), last := x.last.map fun u => u + new - old } }

/-- What every user of Chronograph time does at a step from `old` to `new` (R128, R198, R267, R291, R341, R383, R413). -/
def State.followStep (s : State) (old new : Nat) : State :=
  let s1 := s.generatorsStep old new
  let flows := s1.net.flows.map fun (f : Flow) =>
    if f.tx then f.stepped (s1.generator (s1.flowGen f)).frame ((new : Int) - old) (max new (s1.notBefore (s1.flowGen f)))
    else { f with cells := f.cells.map fun c => (c.1 + new - old, c.2) }
  let heads := s1.mvw.heads.map fun (x : Head) =>
    let begun := (x.emit.filter fun (e : OutFrame) => decide (e.m0 ≤ old + 13000)).map fun (e : OutFrame) => { e with m0 := e.m0 + new - old }
    let kept := fun (f : Nat) => begun.any fun (e : OutFrame) => e.frame == f
    { x with
      frame := none, mh := 0, emit := begun, late := [], resync := x.resync.map fun _ => (begun.map fun (e : OutFrame) => e.m0 + 1).foldl max 0
      store := x.store.filter fun r => kept r.1, band := x.band.filter fun b => kept b.1 }
  let chans := s1.enc.chans.map fun (x : EncChan) =>
    if x.row = 0 then { x with frame := s1.nextFrame x.gen, m0 := s1.nextMeridian x.gen }
    else { x with m0 := x.m0 + new - old, jump := some (s1.nextFrame x.gen) }
  let s2 := { s1 with
    net := { s1.net with flows := flows }
    mvw := { s1.mvw with heads := heads }
    enc := { s1.enc with chans := chans }
    aud := { s1.aud with
      last48 := none, last96 := none, stepped := true
      rates := s1.aud.rates.map fun (r : RateRec) => { r with lastAt := r.lastAt + new - old, measuredAt := r.measuredAt + new - old, past := r.past.map fun (p : Nat × Nat) => (p.1, p.2 + new - old) } } }
  let s2 := (s2.lan.lanes.map fun (x : Lane) => x.l).foldl (fun t l => t.staveStep old new l) s2
  let s2 := { s2 with lan := { lanes := s2.lan.lanes.map fun (x : Lane) => x.stepped (s2.flag (Reg.LNQ_STX_CTL_AUTO x.l)) old new } }
  let s3 := s2.modTim fun t => { t with superAfter := new + 125000 - old % 125000, lastSecond := new / 10 ^ 9 }
  let s4 := (List.range 8).foldl (fun t p => t.tpStep old new p) s3
  let s5 := s4.refStep old new
  let s6 := (List.range 4).foldl (fun t p => t.modFp p fun x => { x with next := t.fpNext p new, endsAt := x.endsAt.map fun e => new + (e - old) }) s5
  (List.range 4).foldl (fun t c => t.clockStep old new c) s6

/-- The count becomes `new`: the amount is recorded, O becomes 0, and the consumers follow. -/
def State.stepTo (s : State) (to_ : Nat) : State :=
  let new := to_ % 2 ^ 64
  let old := s.tim.count
  let s1 := s.setY s.freqWord
  let s2 := s1.modTim fun t => { t with count := new, backup := new, lastStep := (new : Int) - old, steps := t.steps + 1 }
  let s3 := ((s2.modRef fun r => { r with ySince := new }).setBias 0).raise 0x2A01 srcTim 0
  (if s3.rd Reg.REF_STAT_STATE = 2 then s3.refState 1 else s3).followStep old new

/-- The filtered θ of the selected input: the mean over the last 16 Syncs since its selection. -/
def State.filteredTheta (s : State) : Int :=
  match s.activeEntry with
  | none => 0
  | some i =>
    let d := s.ptp (s.entryInput i)
    let xs := (d.thetas.filter fun x => decide (s.ref.selectedAt ≤ x.2)).map fun (x : Int × Nat) => x.1
    meanInt (if xs.isEmpty then (d.thetas.take 1).map fun (x : Int × Nat) => x.1 else xs)

/-! ### Holdover (R403-R405) -/

/-- The recorded means that make y_h: the newest 60 that end at least 10 s before the present. -/
def State.yhMeans (s : State) : List Int :=
  ((s.ref.means.filter fun m => decide (m.2 * 10 ^ 9 + 10 ^ 10 ≤ s.chrono)).take 60).map fun (m : Int × Nat) => m.1

/-- Form y_h from the recorded means. -/
def State.formYh (s : State) : State :=
  let m := s.yhMeans
  if m.isEmpty then s else ((s.modRef fun r => { r with yhKnown := true }).wrInt Reg.REF_YH_Y (meanInt m)).refCheckAll

/-- Enter holdover. -/
def State.enterHoldover (s : State) : State :=
  let n := s.yhMeans.length
  let s1 := (s.formYh.modRef fun r => { r with means := [], toYh := decide (0 < n), whole := false }).setBias 0
  let s2 := ((s1.timState 4).refState 3).raise 0x2B05 srcRef 0
  let s3 := s2.wr Reg.REF_STAT_HO_WEAK (b01 (decide (n < 60)))
  if n < 60 then s3.raise 0x2B06 srcRef 0 else s3

/-! ### Selection (R394, R398-R401, R418, R439) -/

/-- May an entry be selected: qualified, and before the first lock a PTP input? -/
def State.selectable (s : State) (i : Nat) : Bool :=
  (s.refIn i).qualified && s.entryInput i != 15 && (s.tim.locked || decide (s.entryInput i ≤ 1))

/-- No entry is active any more. -/
def State.dropActive (s : State) : State :=
  match s.activeEntry with
  | none => s
  | some p =>
    let s1 := ((s.wr (Reg.REF_E_HIST_DESELECTED p) 1).wr Reg.REF_STAT_NONE 1).wr Reg.TIM_STAT_SEL 0
    ((s1.abandonStep).modRef fun r => { r with whole := false }).raise 0x2B04 srcRef 0

/-- Select an entry: with capture on a direct change (R400), without after holdover (R405); before the first lock a PTP input has
a step decided (R376). -/
def State.selectEntry (s : State) (i : Nat) : State :=
  let prev := s.activeEntry
  let c := s.entryInput i
  let sel : Nat := if c ≤ 1 then c + 1 else 3
  let s1 := match prev with
    | some p => s.wr (Reg.REF_E_HIST_DESELECTED p) 1
    | none => s
  let s2 := (((s1.wr Reg.REF_STAT_ACTIVE i).wr Reg.REF_STAT_NONE 0).wr Reg.TIM_STAT_SEL sel).wr (Reg.REF_E_HIST_SELECTED i) 1
  let s3 := (s2.abandonStep.modRef fun r => { r with selectedAt := s.now, lastSample := none }).raise 0x2B04 srcRef 0
  let s4 := if (prev.map fun p => decide (s.entryInput p ≤ 1)) = some true ∧ c ≤ 1 then s3.raise 0x2A04 srcTim 0 else s3
  let raw : Int := (s.refIn i).raw.getD 0
  let s5 :=
    if !s.tim.locked then (if c ≤ 1 then s4.decideStep none none else s4).refState 1
    else match prev with
      | none => ((s4.timState 2).endCause 0x2B05 srcRef 0).refState 1
      | some _ =>
        let o : Int := if isPhase c then raw else 0
        let t := (s4.setBias o).modRef fun r => { r with takeover := true }
        let t1 := if s.rd Reg.TIM_STAT_STATE = 3 then t.timState 2 else t
        t1.refState (if o ≠ 0 ∧ !s.flag Reg.TIM_BIAS_HOLD then 2 else 1)
  s5.wr Reg.REF_STAT_HO_WEAK (if prev.isNone then 0 else s.rd Reg.REF_STAT_HO_WEAK)

/-- Of some entries, the one whose frequency lies closest to y_h; the lower index wins a tie. -/
def State.closest (s : State) : List Nat → Option Nat
  | [] => none
  | i :: r =>
    match s.closest r with
    | none => some i
    | some j => if (s.rdInt (Reg.REF_E_FREQ_Y i) - s.yh).natAbs ≤ (s.rdInt (Reg.REF_E_FREQ_Y j) - s.yh).natAbs then some i else some j

/-- Qualified inputs of a rank whose frequencies differ by more than REF_CONCORD (R399). -/
def State.discordant (s : State) (rank : Nat) : List Nat :=
  let q := (List.range 8).filter fun i => (s.refIn i).qualified && s.rd (Reg.REF_E_CFG_RANK i) == rank
  let lim := s.rd Reg.REF_CONCORD_CPPM * 2 ^ 32 / 10 ^ 8
  q.filter fun i => q.any fun j => decide (lim < (s.rdInt (Reg.REF_E_FREQ_Y i) - s.rdInt (Reg.REF_E_FREQ_Y j)).natAbs)

/-- REF_DISCORD of every rank. -/
def State.discordPass (s : State) : State :=
  let s1 := (List.range 16).foldl (fun t r =>
    let d := t.discordant r
    if d.isEmpty then t.endCause 0x2B07 srcRef r
    else (d.foldl (fun u i => u.wr (Reg.REF_E_HIST_DISCORD i) 1) t).raise 0x2B07 srcRef r) s
  s1.wr Reg.REF_STAT_DISCORD (b01 ((List.range 16).any fun r => !(s.discordant r).isEmpty))

/-- The PTP input that the time-origin partner has selected, where R439 makes the card follow it. -/
def State.originInput (s : State) : Option Nat :=
  let p := s.twn.partner
  if s.twinOn ∧ s.rd Reg.TWN_STAT_PARTNER = 1 ∧ bit p.flags 3 ∧ bit p.flags 4 ∧ (p.selected = 1 ∨ p.selected = 2) then some (p.selected - 1) else none

/-- The entry that the pass selects, or none (R398, R399). -/
def State.choice (s : State) : Option Nat :=
  let q := (List.range 8).filter fun i => s.selectable i
  let keep := s.activeEntry.filter fun i => s.selectable i
  let rank := fun (i : Nat) => s.rd (Reg.REF_E_CFG_RANK i)
  let best := (q.map rank).foldl min 16
  let pick := s.closest (q.filter fun i => rank i == best)
  let origin := (s.originInput.bind fun c => s.entryOf c).filter fun i => s.selectable i
  if s.flag Reg.REF_CTL_FORCE ∧ s.entryInput (s.rd Reg.REF_CTL_FORCE_ENTRY) ≠ 15 then some (s.rd Reg.REF_CTL_FORCE_ENTRY)
  else match origin, keep with
    | some i, _ => some i
    | none, some k => if s.flag Reg.REF_CTL_REVERTIVE ∧ best < rank k then pick else some k
    | none, none => pick

/-- Load a table that REF_TABLE_SET carried (R414): entries that differ restart. -/
def State.loadTable (s : State) (p : List Byte) : State :=
  let f := u8 p 0
  let s1 := ((((((s.wr Reg.REF_CTL_REVERTIVE (f % 2)).wr Reg.REF_CTL_USE_OCXO (f / 2 % 2)).wr Reg.REF_CTL_OCXO_20M (f / 4 % 2)).wr Reg.REF_QUAL_S (u16 p 2)).wr
    Reg.REF_CONCORD_CPPM (u16 p 4)).wr Reg.REF_FLIMIT_CPPM (u16 p 6)).modRef fun r => { r with staged := none }
  let s2 := (List.range 8).foldl (fun t i =>
    let o := 16 + 20 * i
    let rate := fun (v dflt : Nat) => if v = 0 then dflt else v
    [(Reg.REF_E_CFG_INPUT i, u8 p o), (Reg.REF_E_CFG_RANK i, max 1 (u8 p (o + 1))), (Reg.REF_E_BW_DHZ i, max 1 (u16 p (o + 2))),
      (Reg.REF_E_CFG_CLASS i, rate (u8 p (o + 4)) 7), (Reg.REF_E_CFG_ACTIVE_LOW i, u8 p (o + 5) % 2), (Reg.REF_E_LINES_COUNT i, u16 p (o + 6)),
      (Reg.REF_E_N_N i, rate (u32 p (o + 8)) (t.rd (Reg.REF_E_N_N i))), (Reg.REF_E_D_D i, rate (u32 p (o + 12)) (t.rd (Reg.REF_E_D_D i))),
      (Reg.REF_E_DLY_NS i, u32 p (o + 16))].foldl (fun u v => u.wr v.1 v.2) t) s1
  State.entriesChanged s s2

/-- The entry states and the seconds left to qualify (Table 14.8). -/
def State.entryStats (s : State) : State :=
  (List.range 8).foldl (fun t i =>
    let x := t.refIn i
    let st : Nat := if t.entryInput i = 15 then 0 else if t.activeEntry = some i then 4 else if x.qualified then 3 else if x.validSince.isSome then 2 else 1
    let left : Nat := match x.validSince with
      | some v => if x.qualified then 0 else (t.rd Reg.REF_QUAL_S * 10 ^ 9 - (t.now - v) + 999999999) / 10 ^ 9
      | none => t.rd Reg.REF_QUAL_S
    (t.wr (Reg.REF_E_STAT_STATE i) st).wr (Reg.REF_E_STAT_QUAL_LEFT i) left) s

/-- Does a PTP domain send samples? -/
def State.ptpSampling (s : State) (d : Nat) : Bool := (s.ptp d).enabled && !(s.ptp d).thetas.isEmpty && !(s.ptp d).lost

/-- Act on the choice of a pass (R398). -/
def State.actOn (s : State) (prev choice : Option Nat) : State :=
  match choice with
  | some c => if prev == some c && s.entryInput c != 15 then s else s.selectEntry c
  | none =>
    if prev.isNone then s
    else if s.tim.locked then s.dropActive.enterHoldover
    else s.dropActive.refState 0

/-- Before the first lock the Chronograph is in FREERUN, or ACQUIRING while some domain sends samples (Table 13.1). -/
def State.acquiring (s : State) : State :=
  if s.tim.locked then s else s.timState (b01 (s.ptpSampling 0 || s.ptpSampling 1))

/-- In holdover y moves to y_h within the slew limit (R404). -/
def State.holdStep (s : State) : State :=
  let tau : Nat := s.now - s.ref.lastPass
  if s.rd Reg.REF_STAT_STATE = 3 ∧ s.ref.toYh then s.slewTo (s.rdInt Reg.REF_YH_Y) tau else s

/-- A table that REF_TABLE_SET loaded is applied. -/
def State.takeTable (s : State) : State :=
  match s.ref.staged with
  | some p => s.loadTable p
  | none => s

/-- One pass of the Heliostat (R398). -/
def State.refPass (s : State) : State :=
  let s1 := ((s.takeTable.refCheckAll).retireBias.flyPass).discordPass
  let s2 := ((s1.actOn s1.activeEntry s1.choice).acquiring).holdStep
  (s2.modRef fun r => { r with lastPass := s.now }).entryStats

/-! ### PARTNER (R392, R397, R440) -/

/-- One offset toward the mean of the second (R440). -/
def State.addOffset (s : State) (ofs : Int) : State := { s with twn := { s.twn with ofsSum := s.twn.ofsSum + ofs, ofsCount := s.twn.ofsCount + 1 } }

/-- The lane's receive clock has gained `gain` on the Chronograph in one superframe, in 2^-8 ns: a sample of the PARTNER input's phase since its
selection, and its frequency every 10 s. -/
def State.partnerPhase (s : State) (i : Nat) (gain : Int) : State :=
  let g := s.ref.partnerGain + gain
  let m : Int × Nat := s.ref.partnerMark.getD (g, s.now)
  let dt : Nat := s.now - m.2
  let gained : Int := (g - m.1) * 2 ^ 24
  let freq : Option Int := if 10000000000 ≤ dt then some (s.freqWord + gained.tdiv dt) else none
  let mark : Int × Nat := if freq.isSome then (g, s.now) else m
  let base : Int := if s.ref.lastSample.isNone || s.activeEntry != some i then g else s.ref.partnerBase
  (s.modRef fun r => { r with partnerGain := g, partnerMark := some mark, partnerBase := base }).refSample i ((g - base).tdiv 256) freq

/-- The phase that a receive clock gains on the Chronograph from superframe `j` that arrived at `a` to superframe `k` that arrives at `b`, in
2^-8 ns; a gap of the sender's, in which superframes do not follow each other on its grid, gives none (R198; log entry 142). -/
def clockGain (j k a b : Nat) : Int :=
  let n : Int := (k : Int) - j
  let g : Int := n * (125000 * 256) - ((b : Int) - a)
  if 0 < n ∧ (g.natAbs : Int) ≤ n * (50 * 256) then g else 0

/-- A superframe of a partner lane tells its sender's time: one offset toward the second's mean (R440). -/
def State.partnerTime (s : State) (l : Nat) (ofs : Int) : State := if s.partnerLane l then s.addOffset ofs else s

/-- A superframe of the lower-numbered partner lane whose receiver is UP is an event and a sample of the PARTNER input, whether or not its
sender's time is valid (R392, R397). -/
def State.partnerSample (s : State) (l : Nat) (gain : Int) : State :=
  let lo := min s.twn.lane0 s.twn.lane1
  if !s.partnerLane l ∨ (l ≠ lo ∧ s.rd (Reg.LNQ_SRX_STAT_STATE lo) = 3) then s
  else match s.entryOf 8 with
    | none => s
    | some i => s.partnerPhase i gain

end Sys2Proof.Machine
end

