-- ==== Sys2Proof/Machine/Accounts.lean ====
section
/-!
DEFINITION. Cruise (chapter 03): what a configuration demands of every shared resource, what the powered hardware supplies, the
projections at each pending take, and the verdict on a change (R63-R81, R613).
-/
namespace Sys2Proof.Machine

/-- Demand on one instance of a resource of Table 3.1, with its capacity. -/
structure Account where
  res : Nat
  inst : Nat
  demand : Nat
  cap : Nat
  unmeasured : Bool
  /-- WINDOW: the ports that read the source at the generator. -/
  users : List Nat
  deriving DecidableEq, Repr

/-- Is the demand over the capacity? ENC_DELAY asks for less than the frame period (R76). -/
def Account.excess (a : Account) : Bool := decide (a.cap < a.demand) || (a.res == 0x11 && a.demand == a.cap)

/-- A capacity that counts only while a unit is READY (R26). -/
def State.capOf (s : State) (cap i v : Nat) : Nat := if s.isReady cap i then v else 0

/-! ### Lanes and the fabric (R70-R74) -/

/-- Is a direction of a lane awake, or to be awake once its transitions end (R170, R171)? A disabled direction is not. -/
def State.dirAwake (s : State) (l : Nat) (tx : Bool) : Bool :=
  let x := if tx then (s.lane l).tx else (s.lane l).rx
  let goal : Nat := if x.endsAt.isSome then x.held.getD x.target else s.rd (if tx then Reg.LNQ_SLEEP_TX_STATE l else Reg.LNQ_SLEEP_RX_STATE l)
  s.domOn (capDomain 0x11 l) && s.laneMode l != 0 && s.flag (if tx then Reg.LNQ_LCFG_TX_EN l else Reg.LNQ_LCFG_RX_EN l) && goal == 0

/-- LANE_SLOTS capacity of a direction (R170). -/
def State.dirCap (s : State) (l : Nat) (tx : Bool) : Nat := if s.dirAwake l tx then s.capOf 0x11 l 36 else 0

/-- LANE_SLOTS, of lanes that are not in Ethernet mode. -/
def State.laneAccounts (s : State) : List Account :=
  ((List.range (capCount s.variant 0x11)).filter fun l => s.laneMode l != 2).flatMap fun l =>
    [⟨1, 2 * l, s.laneUnits l false, s.dirCap l false, false, []⟩, ⟨1, 2 * l + 1, s.laneUnits l true, s.dirCap l true, false, []⟩]

/-- The slots of the lanes in Ethernet mode: they count only for a change that takes a lane out of Stave mode, as slots of a direction that
carries none any more (R70, R170). -/
def State.etherLanes (s : State) : List Account :=
  ((List.range (capCount s.variant 0x11)).filter fun l => s.laneMode l == 2).flatMap fun l =>
    [⟨1, 2 * l, s.laneUnits l false, 0, false, []⟩, ⟨1, 2 * l + 1, s.laneUnits l true, 0, false, []⟩]

/-- The ports that read a source slot directly at the timing of a generator: quarter index, source and generator (R71). -/
def State.timedReads (s : State) : List (Nat × Nat × Nat) :=
  s.connected.filterMap fun q =>
    let x := s.selCur q
    if (s.fab.pool.any fun p => p.port == q / 4 && p.follow) || (s.landingOf x.src x.gen).isSome then none else some (q, x.src, x.gen)

/-- The slots that timed ports read, each with its generator: through a Landing channel the channel's output slot (R72, R111). -/
def State.slotReads (s : State) : List (Nat × Nat) :=
  s.connected.filterMap fun q =>
    let x := s.selCur q
    if s.fab.pool.any fun p => p.port == q / 4 && p.follow then none
    else some (((s.landingOf x.src x.gen).map fun (c : Landing) => landingSlot c.chan).getD x.src, x.gen)

/-- The instance number of a source slot and generator (Table 3.9). -/
def windowInst (k g : Nat) (bond : Bool) : Nat := slotNo k + 65536 * b01 (isQuarter k) + 2 ^ 17 * b01 bond + 2 ^ 24 * g

/-- WINDOW of a source slot: for a member of a source bond, of the bond under its naming slot. -/
def State.windowAccount (s : State) (k g : Nat) : Account :=
  let b := if isQuarter k then none else s.bondOf k
  let ms : List Nat := match b with
    | some x => if x.rx then x.members else [k]
    | none => [k]
  let offs := ms.map fun m => s.offset m g
  let worst := (offs.map fun (o : Option Int) => ((o.getD 0).natAbs : Nat)).foldl max 0
  let qs := (s.timedReads.filter fun r => ms.contains r.2.1 && r.2.2 == g).map fun r => r.1
  ⟨2, windowInst (ms.headD k) g (decide (1 < ms.length)), worst, s.capOf 0x0A 0 12000, offs.any fun o => o.isNone, qs⟩

/-- WINDOW accounts. -/
def State.windowAccounts (s : State) : List Account :=
  (s.timedReads.map fun r => s.windowAccount r.2.1 r.2.2).eraseDups

/-- Residence of a source's cells in the Log deck, in ns (R72). -/
def State.residence (s : State) (k : Nat) : Nat :=
  let gs := ((s.slotReads.filter fun r => r.1 == k).map fun r => r.2).eraseDups
  gs.foldl (fun m g =>
    match s.offset k g with
    | none => max m 13000
    | some a => if a = offsetLost then 32000 else max m (13000 - a).toNat) 2000

/-- LOGDECK: the cells of every source slot that delivers cells or that a port selects. -/
def State.deckAccount (s : State) : Account :=
  let ks := (((s.fab.sources.filter fun x => x.carried).map fun (x : SourceRec) => x.slot) ++
    (s.connected.map fun q => (s.selCur q).src) ++ s.slotReads.map fun r => r.1).eraseDups
  let charge := fun (k : Nat) => ((if isQuarter k then 1536 else 6144) * min 32000 (s.residence k) + 999999) / 1000000
  ⟨3, 0, (ks.map charge).sum, s.capOf 0x0A 0 245760, false, []⟩

/-- Cell rate of a slot (R73). -/
def cellRate (k : Nat) : Nat := if isQuarter k then 1536000 else 6144000

/-- READ_PORT of each connected output port, under the split that will be in force (R64, R194). -/
def State.portAccounts (s : State) : List Account :=
  s.connected.map fun q =>
    let k := s.outKeyNext q
    ⟨4, slotNo k + 65536 * b01 (isQuarter k), cellRate (s.selCur q).src, s.capOf 0x0A 0 (cellRate k), false, []⟩

/-- READ_GROUP of each group with a connected port. -/
def State.groupAccounts (s : State) : List Account :=
  ((s.connected.map fun q => q / 32).eraseDups).map fun g =>
    ⟨5, g, ((s.connected.filter fun q => q / 32 == g).map fun q => cellRate (s.selCur q).src).sum, s.capOf 0x0A 0 50000000, false, []⟩

/-- The Landing channels that are enabled, which Cruise takes from the LDG registers (R87). -/
def State.landingOn (s : State) : List Nat :=
  ((List.range 64).filter fun c => s.flag (Reg.LDG_CTL_EN c)) ++ ((List.range 256).filter fun m => s.flag (Reg.LDQ_CTL_EN m)).map (· + 0x100)

/-- Source, channel set and buffer bytes of an enabled Landing channel, by its registers (R75, R115). -/
def State.landingSource (s : State) (c : Nat) : Nat := slotKey (s.rd (ldgReg Reg.LDG_SRC_SLOT Reg.LDQ_SRC_SLOT c)) (decide (0x100 ≤ c))
def State.landingSet (s : State) (c : Nat) : Option Nat :=
  (s.dramPlace (s.rd64 (ldgReg Reg.LDG_BASE_LO_ADDR Reg.LDQ_BASE_LO_ADDR c) (ldgReg Reg.LDG_BASE_HI_ADDR Reg.LDQ_BASE_HI_ADDR c))).map fun p => p.1
def State.landingBytes (s : State) (c : Nat) : Nat := 3 * s.rd (ldgReg Reg.LDG_FRAME_BYTES Reg.LDQ_FRAME_BYTES c)

/-- Pool ports that the consumers of a configuration need: follow port or timed port, source and generator (R74). -/
def State.portNeeds (s : State) : List (Bool × Nat × Nat) :=
  let lands := s.landingOn.map fun c => (true, s.landingSource c, 0)
  let layers := ((List.range 16).filter fun h => (s.headNext h).1 || s.headOn h).flatMap fun h =>
    (s.headSets h).flatMap fun y => y.videos.flatMap fun v => (s.sourceMembers v.2.source).map fun k => (true, k, 0)
  let encs := s.enc.chans.flatMap fun x => (s.sourceMembers (s.encSource x)).map fun k => (false, k, x.gen)
  (lands ++ layers ++ encs).eraseDups

/-- INT_PORTS and LANDING. -/
def State.poolAccounts (s : State) : List Account :=
  [⟨6, 0, s.portNeeds.length, s.capOf 0x0A 0 (s.outputPorts - 1152), false, []⟩,
   ⟨7, 0, (s.landingOn.map fun c => if c < 0x100 then 4 else 1).sum, 4 * s.readyCount 0x0C, false, []⟩]

/-! ### Memory (R75) -/

/-- What a head is once every admitted change has applied: format, rate, settings and engines. -/
structure HeadPlan where
  h : Nat
  fmt : Nat
  n : Nat
  d : Nat
  set : Nat
  sets : HeadSet
  engines : List Nat
  deriving DecidableEq, Repr

/-- The heads that are enabled once every admitted change has applied. -/
def State.headPlans (s : State) : List HeadPlan :=
  ((List.range 16).filter fun h => (s.headNext h).1).map fun h =>
    let x := s.head h
    let c := s.headNext h
    ⟨h, c.2.1, s.genN c.2.2, s.genD c.2.2, s.headSetNo h, s.headCommitted h, x.enginesNext⟩

/-- The Canopy map of a plan. -/
def State.planCanopy (s : State) (p : HeadPlan) : List (Nat × List Nat) := canopyOf p.fmt (s.laysOf p.sets.vid p.sets.gfx)

/-- The channel set that holds a graphic object: the one that its MVW_GRAPHIC_LOAD named. -/
def State.graphicSet (s : State) (h : Nat) : Option Nat :=
  (s.mem.bufs.find? fun (b : Buffer) => (b.kind == 3 || b.kind == 7) && b.id == h).map fun (b : Buffer) => b.set

/-- DRAM bandwidth of a head's video layers, in the head's set. -/
def State.videoBandwidth (p : HeadPlan) : Nat :=
  (p.sets.videos.map fun (v : Nat × VidSet) => up (v.2.w * v.2.h * 5 * (v.2.rateN * p.d + p.n * v.2.rateD)) (2 * v.2.rateD * p.d)).sum

/-- DRAM bandwidth of a head's graphic layers whose objects lie in set `n`. -/
def State.graphicBandwidth (s : State) (p : HeadPlan) (n : Nat) : Nat :=
  let inSet := fun (l : Nat) => (p.sets.gfx.find? fun g => g.1 == l).any fun g => s.graphicSet g.2.handle == some n
  (((s.planCanopy p).filter fun x => decide (64 ≤ x.1) && inSet (x.1 - 64)).map fun (x : Nat × List Nat) => up (x.2.length * 4096 * 4 * p.n) p.d).sum

/-- DRAM bandwidth that consumers of set `n` demand (Table 3.2). -/
def State.setBandwidth (s : State) (n : Nat) : Nat :=
  ((s.landingOn.filter fun c => s.landingSet c == some n).map fun c => if c < 0x100 then 3145728000 else 786432000).sum +
  ((s.enc.chans.filter fun x => decide (x.codec < 2) && x.set == n).map fun (x : EncChan) =>
    up (3 * x.width * x.height * s.encN x * (if x.codec = 0 then 20 else 15)) (8 * s.encD x)).sum +
  (s.headPlans.map fun p => (if p.set = n then State.videoBandwidth p else 0) + s.graphicBandwidth p n).sum

/-- Channels of a set that serve traffic: READY, and not under a pattern test (R494). -/
def State.setChannels (s : State) (n : Nat) : Nat :=
  ((s.setUnits n).filter fun u => s.isReady 0x12 u.2 && !s.flag (Reg.DMC_PAT_CTL_EN u.2)).length

/-- Bytes of a set that the reserve and masked segments close. -/
def State.closedBytes (s : State) (n : Nat) : Nat :=
  let seg := s.setBytes n / 8
  let r := s.setReserve n
  r + (((List.range 8).filter fun k => bit (s.rd (Reg.MEM_SET_PASR_MASK n)) k).map fun k => (k + 1) * seg - max r (k * seg)).sum

/-- DRAM_BW of each set. -/
def State.bandwidthAccounts (s : State) : List Account :=
  ((List.range 16).filter fun n => s.flag (Reg.MEM_SET_CTL_EN n)).map fun n => ⟨8, n, s.setBandwidth n, 13440000000 * s.setChannels n, false, []⟩

/-- DRAM_CAP of each set: nothing is closed while its group is off. -/
def State.capacityAccounts (s : State) : List Account :=
  ((List.range 16).filter fun n => s.flag (Reg.MEM_SET_CTL_EN n)).map fun n =>
    let up_ := ((s.setUnits n).filter fun u => s.isReady 0x12 u.2).length
    ⟨9, n, ((s.mem.bufs.filter fun b => b.kind != 1 && b.set == n).map fun (b : Buffer) => b.size).sum +
        ((s.landingOn.filter fun c => s.landingSet c == some n).map fun c => s.landingBytes c).sum + (if up_ = 0 then 0 else s.closedBytes n),
      up_ * s.channelBytes, false, []⟩

/-! ### Engines and deadlines (R76-R78) -/

/-- Encoder engines that may work: READY and enabled. -/
def State.encUsable (s : State) : Nat :=
  ((List.range (capCount s.variant 0x0F)).filter fun e => s.isReady 0x0F e && s.engineEnabled e && !s.twn.failed.contains (0, e)).length

/-- Encoder engines that the HEVC channels need. -/
def State.hevcEngines (s : State) : Nat :=
  ((s.enc.chans.filter fun x => decide (x.codec < 2)).map fun (x : EncChan) => enginesFor x.width x.height (s.encN x) (s.encD x)).sum

/-- ENC_ENGINES and XS_LOAD. -/
def State.engineAccounts (s : State) : List Account :=
  [⟨10, 0, s.hevcEngines, s.encUsable, false, []⟩, ⟨11, 0, s.xsDemand, 663552000 * (s.encUsable - s.hevcEngines), false, []⟩]

/-- PIXEL_CYCLES of a head; a source too wide for the line buffer stands as its width against 4 096. A head with fewer engines than it needs is
over on this account also where its worst band alone needs them (R305): the demand is then the rate at which that band must be composed. -/
def State.pixelAccount (s : State) (p : HeadPlan) : Account :=
  let canopy := s.planCanopy p
  let rate := up (bandDemand p.fmt p.sets.videos canopy p.n p.d * p.n * headHeight p.fmt) (64 * p.d)
  let need := enginesNeeded p.fmt p.sets.videos canopy p.n p.d
  let cycles := pixelDemand p.sets.videos canopy p.n p.d
  match p.sets.videos.find? fun v => decide (4096 < v.2.win) with
  | some v => ⟨12, p.h, v.2.win, 4096, false, []⟩
  | none => ⟨12, p.h, if p.engines.length < need then max cycles rate else cycles, 1215000000 * p.engines.length, false, []⟩

/-- MVW_DONE of a head. -/
def State.doneAccount (s : State) (p : HeadPlan) : Account :=
  ⟨18, p.h, bandDemand p.fmt p.sets.videos (s.planCanopy p) p.n p.d, bandCapacity p.fmt p.engines.length p.n p.d, false, []⟩

/-- ENC_DELAY of an HEVC channel. -/
def State.delayAccounts (s : State) : List Account :=
  (s.enc.chans.filter fun x => decide (x.codec < 2)).map fun (x : EncChan) =>
    ⟨17, x.handle, 4 * rowPeriod x.height (s.encN x) (s.encD x) + 96000, s.encD x * 10 ^ 9 / max 1 (s.encN x), false, []⟩

/-! ### Media, audio and power (R79-R81, R24) -/

/-- PKT_ENGINE of each engine and direction that carries a flow: bit/s, or flows where their number is over. -/
def State.packetAccounts (s : State) : List Account :=
  ((s.net.flows.map fun (f : Flow) => 2 * f.engine + b01 f.tx).eraseDups).map fun i =>
    let d := s.engineDemand (i / 2) (i % 2 == 1)
    if 64 < d.2 then ⟨13, i, d.2, s.capOf 0x18 (i / 2) 64, false, []⟩ else ⟨13, i, d.1, s.capOf 0x18 (i / 2) (200 * 10 ^ 9), false, []⟩

/-- MAC_EGRESS of a port and direction: each flow's rate on each leg on it. -/
def State.macAccounts (s : State) : List Account :=
  ((List.range 64).filter fun p => s.portFormed p).flatMap fun p => [false, true].map fun tx =>
    let rate := fun (f : Flow) => ((f.legs.filter fun g => g.port == p && s.legCharged f g).map fun (g : FlowLeg) => s.wireRate f g).sum
    ⟨14, 2 * p + b01 tx, ((s.net.flows.filter fun f => f.tx == tx).map rate).sum, s.capOf 0x13 p (970000000 * s.portRate p), false, []⟩

/-- AUDIO of each DSP. -/
def State.audioAccounts (s : State) : List Account :=
  let act := s.sinkNums.filter fun m => s.sinkSourceNext m != 0xFFFF
  (List.range (capCount s.variant 0x0D)).map fun d =>
    ⟨15, d, ((act.filter fun m => s.dspOf m == d).map fun m => s.sinkWeight m).sum, s.capOf 0x0D d 8192, false, []⟩

/-- AUDIO_IP. -/
def State.audioIpAccount (s : State) : Account :=
  ⟨16, 0, ((s.net.flows.filter fun f => !f.tx && (f.kind == 3 || f.kind == 4)).map fun (f : Flow) => f.width).sum,
    if s.readyCount 0x0D = 0 then 0 else 8192, false, []⟩

/-- Packet engines that carry a flow. -/
def State.busyPacketEngines (s : State) : Nat := ((s.net.flows.map fun (f : Flow) => f.engine).eraseDups).length

/-- Encoder and pixel engines that are assigned work, those under a background test included (R305, R336, R337, R444). -/
def State.workingEncoders (s : State) : Nat :=
  s.encHeld.eraseDups.length + up s.xsDemand 663552000 + (s.twn.testing.filter fun t => t.1.1 == 0 && !s.encHeld.contains t.1.2).length
def State.workingPixels (s : State) : Nat :=
  (s.headPlans.map fun (p : HeadPlan) => p.engines.length).sum + (s.twn.testing.filter fun t => t.1.1 == 1 && !s.heldEngines.contains t.1.2).length

/-- A domain that is on, or asked on and not yet up. -/
def State.domUp (s : State) (d : Nat) : Bool := s.domOn d || s.domEn d

/-- Directions of lanes that are awake. -/
def State.awakeDirections (s : State) : Nat :=
  ((List.range (capCount s.variant 0x11)).map fun l =>
    b01 (s.dirAwake l true) + b01 (s.dirAwake l false)).sum

/-- DRAM channels that belong to an enabled set while their group is on. -/
def State.poweredChannels (s : State) : Nat :=
  (((List.range 16).filter fun n => s.flag (Reg.MEM_SET_CTL_EN n)).flatMap fun n => (s.setUnits n).filter fun u => s.domUp (capDomain 0x12 u.2)).eraseDups.length

/-- POWER demand in mW (R24). -/
def State.powerDemand (s : State) : Nat :=
  230 * s.awakeDirections + (if s.domUp 36 then 22000 else 0) + (if s.domUp 40 then 2000 else 0) + (if s.domUp 2 then 11000 else 0) +
    1150 * s.workingEncoders + 320 * s.workingPixels + 280 * s.busyPacketEngines + 540 * s.poweredChannels +
    (if s.domUp 39 then 6000 else 0) + 6000 + 18000

/-! ### All accounts -/

/-- The accounts of a configuration, in the order of Table 3.1. -/
def State.accounts (s : State) : List Account :=
  let plans := s.headPlans
  s.laneAccounts ++ s.windowAccounts ++ [s.deckAccount] ++ s.portAccounts ++ s.groupAccounts ++ s.poolAccounts ++
    s.bandwidthAccounts ++ s.capacityAccounts ++ s.engineAccounts ++ (plans.map fun p => s.pixelAccount p) ++ s.packetAccounts ++
    s.macAccounts ++ s.audioAccounts ++ [s.audioIpAccount] ++ s.delayAccounts ++ (plans.map fun p => s.doneAccount p) ++
    [⟨19, 0, s.powerDemand, 1000 * s.powerLimit, false, []⟩]

/-- The account of an instance; nothing is demanded of one that is not listed. -/
def demandOf (as : List Account) (res inst : Nat) : Nat := ((as.find? fun a => a.res == res && a.inst == inst).map fun (a : Account) => a.demand).getD 0

/-- The status on failure of a resource (Table 3.1). -/
def failStatus (res : Nat) : Nat :=
  if res = 2 then 0x0023 else if res = 4 ∨ res = 5 ∨ res = 17 ∨ res = 18 then 0x0020 else if res = 19 then 0x0022 else 0x0021

/-! ### Projections (R64, R65) -/

/-- A route as it will stand once it has applied. -/
def State.applyRoute (s : State) (r : RouteRec) : State :=
  (s.routeSels r).foldl (fun t p => t.putCur p.1 p.2) s

/-- A change that is admitted and still to come: a route of an Ephemeris entry, a change of an audio sink, the rate of an encoder
channel, or the release of a Landing channel (R64). -/
inductive Coming
  | route (handle : Nat) (r : RouteRec)
  | sink (m : Nat) (c : SinkChange)
  | rate (handle bits : Nat)
  | release (chan : Nat)
  deriving DecidableEq, Repr

/-- The entry of the Ephemeris that a coming change belongs to; 0 for none. -/
def Coming.handle : Coming → Nat
  | .route h _ => h
  | _ => 0

/-- The configuration once a coming change has applied. -/
def State.applyComing (s : State) : Coming → State
  | .route _ r => s.applyRoute r
  | .sink m c =>
    let x := s.sink m
    s.putSink { x with fixed := c.source.isSome, source := c.source.getD x.source, held := none, fades := [], takes := [] }
  | .rate h bits => { s with enc := { s.enc with chans := s.enc.chans.map fun x => if x.handle == h then { x with rate := bits } else x } }
  | .release c =>
    { s with fab := { s.fab with landing := s.fab.landing.filter fun x => x.chan != c } }.wr (ldgReg Reg.LDG_CTL_EN Reg.LDQ_CTL_EN c) 0

/-- A projected configuration: from an instant on, with the handles of the entries that make it, and the slots of its Ethernet lanes. -/
structure Stage where
  at_ : Nat
  handles : List Nat
  accounts : List Account
  ether : List Account
  deriving DecidableEq, Repr

/-- Insert a change by the instant at which it applies; those of one instant stay in admission order. -/
def insertComing (x : Nat × Coming) : List (Nat × Coming) → List (Nat × Coming)
  | [] => [x]
  | y :: r => if x.1 < y.1 then x :: y :: r else y :: insertComing x r

/-- The changes to come, by the instants at which they apply, those of immediate takes among them under handle 0. A Landing channel is
released, and a rate set, at a Meridian; a sink changes at its evaluation instant. -/
def State.coming (s : State) : List (Nat × Coming) :=
  let routes := s.eph.takes.flatMap fun t => t.routes.map fun r =>
    (meridianAt (s.genN r.gen) (s.genD r.gen) r.frame, Coming.route t.handle r)
  let sinks := s.aud.sinks.flatMap fun (x : Sink) => x.changes.map fun (c : SinkChange) => (s.evalInstant c.target 48000, Coming.sink x.num c)
  let rates := s.enc.chans.flatMap fun (x : EncChan) => x.rates.map fun (r : RateChange) => (meridianAt (s.genN x.gen) (s.genD x.gen) r.frame, Coming.rate x.handle r.rate)
  let lands := (s.fab.landing.filter fun c => c.releasing).map fun (c : Landing) =>
    (meridianAt (s.genN c.gen) (s.genD c.gen) (s.target c.gen c.relAt), Coming.release c.chan)
  (routes ++ sinks ++ rates ++ lands).foldl (fun l x => insertComing x l) []

/-- The projected configurations that follow `s` as the coming changes apply; those of one instant make one stage, of the entries
`hs` so far. -/
def State.stagesFrom (s : State) (hs : List Nat) : List (Nat × Coming) → List Stage
  | [] => []
  | x :: r =>
    let s1 := s.applyComing x.2
    let own := if x.2.handle = 0 then hs else hs ++ [x.2.handle]
    match r with
    | [] => [⟨x.1, own, s1.accounts, s1.etherLanes⟩]
    | y :: _ => if y.1 = x.1 then s1.stagesFrom own r else ⟨x.1, own, s1.accounts, s1.etherLanes⟩ :: s1.stagesFrom [] r

/-- Every configuration that is to be in force: now, and at each coming instant. -/
def State.stages (s : State) : List Stage := ⟨0, [], s.accounts, s.etherLanes⟩ :: s.stagesFrom [] s.coming

/-- The accounts in force at an instant. -/
def accountsAt (st : List Stage) (t : Nat) : List Account :=
  (((st.filter fun x => decide (x.at_ ≤ t)).getLast?).map fun (x : Stage) => x.accounts).getD []

/-! ### Evaluation (R67-R69, R84) -/

/-- One account of one stage, judged against what it was before the change: failing when it is over capacity and above the
demand before (R67). -/
structure Judged where
  acc : Account
  fail : Bool
  pending : Bool
  wasAbove : Bool
  handle : Nat
  at_ : Nat
  deriving DecidableEq, Repr

/-- Has the capacity of an instance fallen below what it was (a unit turned off, a segment masked, R509, R552)? -/
def capFell (as : List Account) (a : Account) : Bool := as.any fun b => b.res == a.res && b.inst == a.inst && decide (a.cap < b.cap)

/-- The ports that read a source at a generator before the change. -/
def usersOf (as : List Account) (res inst : Nat) : List Nat := ((as.find? fun a => a.res == res && a.inst == inst).map fun (a : Account) => a.users).getD []

/-- Judge the accounts of a stage against the stages before the change. A further port that reads a source outside its window raises the
demand (R69, R71: each new route of it is refused). A stage that entries make which were admitted before is PENDING, and names the first
of them (R65). A lane that had an account before the change and is in Ethernet mode after it is judged too (R170). -/
def Stage.judge (st : Stage) (old : List Stage) : List Judged :=
  let before := accountsAt old st.at_
  let known := st.handles.find? fun h => old.any fun x => x.handles.contains h
  let left := st.ether.filter fun a => before.any fun b => b.res == a.res && b.inst == a.inst
  (left ++ st.accounts).map fun a =>
    let d := demandOf before a.res a.inst
    let had := usersOf before a.res a.inst
    let f := a.excess && (decide (d < a.demand) || capFell before a || a.users.any fun q => !had.contains q)
    ⟨a, f, f && known.isSome, before.any fun b => b.res == a.res && b.inst == a.inst && b.excess, if f then known.getD 0xFFFFFFFF else 0xFFFFFFFF, st.at_⟩

/-- Keep one judgement per instance: the first failing one, else the one with most demand. -/
def mergeJudged (l : List Judged) (j : Judged) : List Judged :=
  match l.find? fun x => x.acc.res == j.acc.res && x.acc.inst == j.acc.inst with
  | none => l ++ [j]
  | some x =>
    if x.fail || (!j.fail && decide (j.acc.demand ≤ x.acc.demand)) then l
    else l.map fun y => if y.acc.res == j.acc.res && y.acc.inst == j.acc.inst then j else y

/-- The judgements on a change from the configuration `old` to `new`. -/
def judge (old new : List Stage) : List Judged := (new.flatMap fun st => st.judge old).foldl mergeJudged []

/-- Has `a` less margin than `b`, or as much? An instance of capacity 0 has no margin, its quotient being undefined: it comes last, with any
demand (DESIGN CHOICE, log entry 14). -/
def Account.tighter (a b : Account) : Bool :=
  if a.cap = 0 then false else if b.cap = 0 then true else decide (b.demand * a.cap ≤ a.demand * b.cap)

/-- Insert by ascending margin. -/
def insertTight (x : Judged) : List Judged → List Judged
  | [] => [x]
  | y :: r => if x.acc.tighter y.acc && !y.acc.tighter x.acc then x :: y :: r else y :: insertTight x r

/-- Insert in the order of Table 3.1. -/
def insertTable (x : Judged) : List Judged → List Judged
  | [] => [x]
  | y :: r => if x.acc.res < y.acc.res then x :: y :: r else y :: insertTable x r

/-- The order of a report: failing instances in table order, then the others in ascending order of margin (R85). -/
def reportOrder (js : List Judged) : List Judged :=
  (js.filter fun j => j.fail).foldl (fun l j => insertTable j l) [] ++ (js.filter fun j => !j.fail).foldl (fun l j => insertTight j l) []

/-- Change index of a judgement (Table 3.4): 0 for a single command, 0xFFFF where the demand is an Ephemeris entry's, else the
first entry of the list whose prefix raises the demand. -/
def Judged.change (j : Judged) (old : List Stage) (prefixes : List (List Stage)) : Nat :=
  if j.pending then 0xFFFF
  else
    let d := demandOf (accountsAt old j.at_) j.acc.res j.acc.inst
    ((prefixes.zipIdx.find? fun p => decide (d < demandOf (accountsAt p.1 j.at_) j.acc.res j.acc.inst)).map fun p => p.2 + 1).getD 0

/-- A report entry. -/
def Judged.entry (j : Judged) (change : Nat) : CruEntry :=
  ⟨j.acc.res, b01 j.fail + 2 * b01 j.pending + 4 * b01 j.acc.unmeasured + 8 * b01 j.wasAbove, j.acc.inst, j.acc.demand, j.acc.cap, j.handle, change⟩

/-- An evaluation: the failing instances, and the entries of its report. -/
structure Verdict where
  fails : Nat
  status : Nat
  entries : List CruEntry
  deriving DecidableEq, Repr

/-- Cruise evaluates the change from `old` to `new`; `prefixes` are the states after each entry of a change list, empty for a
single command. -/
def evaluate (old new : State) (prefixes : List State) : Verdict :=
  let so := old.stages
  let sp := prefixes.map fun (p : State) => p.stages
  let js := reportOrder (judge so new.stages)
  let bad := js.filter fun j => j.fail
  ⟨bad.length, (bad.head?.map fun (j : Judged) => failStatus j.acc.res).getD 0, js.map fun j => j.entry (j.change so sp)⟩

/-- The 32-byte summary of an evaluation (Table 3.4): the binding resource is the first failing one, else the one with least
margin. -/
def Verdict.summary (v : Verdict) (id : Nat) : List Byte :=
  match v.entries with
  | [] => zeros 32
  | e :: _ => be16 e.res ++ be16 e.flags ++ be32 e.inst ++ be64 e.demand ++ be64 e.cap ++ be32 id ++ be16 v.fails ++ be16 e.change

/-- Keep the report of an evaluation under the next ID (R85). -/
def State.keepReport (s : State) (session : Nat) (v : Verdict) : Nat × State :=
  let id := s.cru.lastId + 1
  let r : CruReport := ⟨id, session, s.cru.changes, v.entries⟩
  (id, { s with cru := { s.cru with lastId := id, reports := (r :: s.cru.reports).take 16 } })

/-- The resource instances that are over capacity: now, and of those that a mirrored change was found over when it comes, the ones that
still are in some projection (R89). -/
def State.overNow (s : State) : List (Nat × Nat) :=
  let tops := fun (as : List Account) => (as.filter fun a => a.excess).map fun (a : Account) => (a.res, a.inst)
  let now := tops s.accounts
  let coming := if s.cru.mirrored.isEmpty then [] else s.stages.flatMap fun st => tops st.accounts
  now ++ s.cru.mirrored.filter fun x => coming.contains x && !now.contains x

/-- SYS_CRU_STAT.OVER and CRU_OVER: each resource instance that is over capacity raises its event once (R86, R87, R89). -/
def State.noteOver (s : State) : State :=
  let now := s.overNow
  let fresh := (now.filter fun x => !s.cru.above.contains x).map fun (x : Nat × Nat) => x.1
  let ended := ((s.cru.above.map fun (x : Nat × Nat) => x.1).filter fun r => !now.any fun x => x.1 == r).eraseDups
  let s1 := ({ s with cru := { s.cru with above := now, mirrored := s.cru.mirrored.filter now.contains } }.wr Reg.SYS_CRU_STAT_OVER
    (b01 (!now.isEmpty))).raiseAll 0x2F01 srcCruise fresh.eraseDups
  ended.foldl (fun t r => t.endCause 0x2F01 srcCruise r) s1

/-- A mirrored change is applied whatever its verdict; the instances that fail for it are noted as over capacity (R89). -/
def State.noteMirrored (s : State) (v : Verdict) : State :=
  { s with cru := { s.cru with mirrored := (((v.entries.filter fun e => bit e.flags 0).map fun (e : CruEntry) => (e.res, e.inst)) ++ s.cru.mirrored).eraseDups } }

/-- The handles of the entries whose projection is over a capacity (R142). -/
def State.riskyTakes (s : State) : List Nat :=
  ((s.stages.filter fun st => st.accounts.any fun a => a.excess).flatMap fun (st : Stage) => st.handles).eraseDups

end Sys2Proof.Machine
end

