-- ==== Sys2Proof/Machine/Work.lean ====
section
/-!
DEFINITION. The domains of Table 19.1 with what they require, and which of them have assigned work (R545): the idle timer of a
domain restarts whenever a command finds it with work. The Firebreak of a unit.
-/
namespace Sys2Proof.Machine

/-! ### Domains (Table 19.1) -/

/-- The domains that a domain requires directly. -/
def domRequires (d : Nat) : List Nat :=
  if d = 0 then [] else if d = 1 then [0] else if d = 2 then [3] else if d = 3 then [1]
  else if d ≤ 35 then [36] else if d = 36 then [3] else if d ≤ 38 then [36, 39] else if d ≤ 52 then [36]
  else if d ≤ 56 then [3] else [1]

/-- All domains that a domain requires, through others too; the table is four deep. -/
def domNeeds (d : Nat) : List Nat :=
  let a := domRequires d
  let b := a.flatMap domRequires
  let c := b.flatMap domRequires
  (a ++ b ++ c ++ c.flatMap domRequires).eraseDups

/-- The domains that require a domain. -/
def domUsers (d : Nat) : List Nat := (List.range 58).filter fun x => (domNeeds x).contains d

/-- Does a domain have an idle timer? The quad of FLT_KEEP.QUAD has none. -/
def State.hasIdleTimer (s : State) (d : Nat) : Bool :=
  (decide (4 ≤ d ∧ d ≤ 35) && d != 4 + s.rd Reg.FLT_KEEP_QUAD) || decide (37 ≤ d ∧ d ≤ 56)

/-- The quad of the smallest service set; one absent on the variant gives quad 0 (R520). -/
def State.keepQuad (s : State) : Nat :=
  let q := s.rd Reg.FLT_KEEP_QUAD
  if domPresent s.variant (4 + q) then q else 0

/-- The smallest service set (R520). -/
def State.smallestSet (s : State) : List Nat := [0, 1, 3, 36, 4 + s.keepQuad]

/-- The enabled set that a channel belongs to: the lowest index (R514). -/
def State.setOfChannel (s : State) (ch : Nat) : Option Nat := (List.range 16).find? fun n =>
  s.flag (Reg.MEM_SET_CTL_EN n) && decide (s.rd (Reg.MEM_SET_CTL_FIRST n) ≤ ch ∧ ch < s.rd (Reg.MEM_SET_CTL_FIRST n) + s.rd (Reg.MEM_SET_CTL_COUNT n))

/-- Channels of a DRAM group that are present. -/
def State.groupChannels (s : State) (g : Nat) : List Nat := ((List.range 12).map fun i => 12 * g + i).filter fun c => s.present 0x12 c

/-! ### Assigned work (R545) -/

/-- Is an HEVC, JPEG XS or head engine of a cluster in use or under test? -/
def State.clusterWork (s : State) (kind lo n : Nat) : Bool :=
  let held := if kind = 0 then s.encHeld else s.heldEngines
  (held.any fun e => decide (lo ≤ e ∧ e < lo + n)) || s.twn.testing.any fun t => t.1.1 == kind && decide (lo ≤ t.1.2 ∧ t.1.2 < lo + n)

/-- Does a domain have assigned work of its own? -/
def State.ownWork (s : State) (d : Nat) : Bool :=
  if 4 ≤ d ∧ d ≤ 35 then (List.range 4).any fun i => s.flag (Reg.LNQ_LCFG_TX_EN (4 * (d - 4) + i)) || s.flag (Reg.LNQ_LCFG_RX_EN (4 * (d - 4) + i))
  else if d = 37 ∨ d = 38 then s.net.flows.any fun f => f.engine / 16 == d - 37
  else if d = 39 then
    ((List.range 64).any fun p => s.portFormed p) || s.tim.domA.enabled || s.tim.domB.enabled || s.tim.relayOn ||
      ((List.range 8).any fun i => s.entryInput i != 15) || ((List.range 2).any fun c => s.flag (Reg.REF_VCLK_EN c)) || s.flag Reg.REF_ACLK_EN ||
      ((List.range 4).any fun p => s.flag (Reg.REF_FP_CTL_EN p)) || (List.range 8).any fun p => s.flag (Reg.TIM_PULSE_CTL_EN p)
  else if d = 40 then s.flag Reg.AUD_CLK_EN || s.sinkNums.any fun m => s.sinkSource m != 0xFFFF
  else if 41 ≤ d ∧ d ≤ 46 then s.clusterWork 1 (16 * (d - 41)) 16 || (d == 41 && (List.range 16).any fun h => s.headOn h)
  else if 47 ≤ d ∧ d ≤ 52 then
    s.clusterWork 0 (8 * (d - 47)) 8 || (s.enc.chans.any fun (x : EncChan) => decide (2 ≤ x.codec)) ||
      (d == 47 && (!s.enc.chans.isEmpty || !s.enc.decs.isEmpty))
  else if 53 ≤ d ∧ d ≤ 56 then (s.groupChannels (d - 53)).any fun c => (s.setOfChannel c).isSome
  else true

/-- Does a domain have assigned work: its own, or a domain that requires it is on? -/
def State.assigned (s : State) (d : Nat) : Bool := s.ownWork d || (domUsers d).any s.domUp

/-- The idle timers of the domains that have assigned work restart. -/
def State.noteWork (s : State) : State :=
  let ds := (List.range 58).filter fun d => s.domOn d && s.hasIdleTimer d && s.assigned d
  let old := s.pwr.idleSince.filter fun p => !ds.contains p.1
  { s with pwr := { s.pwr with idleSince := (ds.map fun d => (d, s.now)) ++ old } }

/-- Time passes, and a command arrives: the idle timers of domains with work have not started. -/
def State.arrive (dt : Nat) (s : State) : State := (s.elapse dt).noteWork

end Sys2Proof.Machine
end

