-- ==== Sys2Proof/Machine/Cyxel.lean ====
section
/-!
DEFINITION. The Cyxel interpreter: the order of checks of Table 2.7 as one shared operation over a description of
each opcode (`OpSpec`), replies, sessions, replay, and reassembly (R27-R57).
-/
namespace Sys2Proof.Machine

/-! ### Status codes (Table 2.8) -/

def stOk : Nat := 0x0000
def stPending : Nat := 0x0001
def stNotReady : Nat := 0x0010
def stNotPresent : Nat := 0x0011
def stDeadline : Nat := 0x0020
def stResource : Nat := 0x0021
def stPower : Nat := 0x0022
def stWindow : Nat := 0x0023
def stAuthFail : Nat := 0x0030
def stReplay : Nat := 0x0031
def stKeyRevoked : Nat := 0x0032
def stBadParam : Nat := 0x0040
def stBadOpcode : Nat := 0x0041
def stBadLength : Nat := 0x0042
def stLeaseNotHeld : Nat := 0x0050
def stFenced : Nat := 0x0051
def stBusy : Nat := 0x0060
def stStillActive : Nat := 0x0070
def stLocked : Nat := 0x0071
def stInternal : Nat := 0x00FF

/-- Classes of opcodes that controllers send (R49). -/
inductive OpClass
  | q
  | s
  | l
  | c
  deriving DecidableEq, Repr

/-- What a command knows of its sender: the session and tag that its COMPLETE goes to, its place in a change list,
and whether it came from the lease-holding twin (R39). -/
structure Ctx where
  session : Nat
  tag : Nat
  entry : Nat
  mirrored : Bool
  /-- Of a mirrored take: the entry handle and the frames that its trailer stamps, by generator (Table 5.3). -/
  handle : Nat := 0
  targets : List (Nat × Nat) := []
  /-- Of a mirrored change list: the trailers of its takes. -/
  trail : List Byte := []
  deriving DecidableEq, Repr

/-- What executing a command gives: the state, the status and the reply payload. -/
structure Done where
  state : State
  status : Nat
  payload : List Byte
  /-- The mirror trailer of a change list, whose reply does not carry its FRAMEREFs. -/
  stamp : List Byte := []

/-- The error detail of Table 2.9. -/
def detail (off cap inst : Nat) : List Byte := be16 off ++ be16 cap ++ be32 inst

/-- Executed, with a reply payload. -/
def Done.ok (s : State) (payload : List Byte) : Done := ⟨s, stOk, payload, []⟩

/-- Admitted: the effect occurs later (R54). -/
def Done.pending (s : State) (payload : List Byte) : Done := ⟨s, stPending, payload, []⟩

/-- An error found in execution: nothing changed, with the detail of Table 2.9. -/
def Done.err (s : State) (status off : Nat) : Done := ⟨s, status, detail off 0 0xFFFFFFFF, []⟩

/-- The description of one opcode: its class and rights (Table 2.11), and what the checks of Table 2.7 from step 12
ask of it, in the order of the steps. -/
structure OpSpec where
  code : Nat
  cls : OpClass
  keys : Bool
  /-- Step 12: payload lengths that the opcode takes. -/
  length : List Byte → Bool
  /-- Step 13: payload offset and validity of each field, in the order in which they are checked. -/
  fields : State → List Byte → List (Nat × Bool)
  /-- Step 13, for a command of its own controller only: checks that the partner twin does not repeat on a mirrored
  command (R89, R129, R144). -/
  own : State → List Byte → List (Nat × Bool) := fun _ _ => []
  /-- Steps 14 and 15: the units that the command addresses. -/
  units : State → List Byte → List (Nat × Nat)
  /-- Step 16: the life cycle or a lock bit forbids the change. -/
  locked : State → List Byte → Bool
  /-- Step 17: Cruise evaluates the command. -/
  cruise : Bool
  /-- Its own reply payload is empty, so that an admission sends no summary (R84). -/
  emptyReply : Bool := false
  /-- Step 18: execution. -/
  run : State → Ctx → List Byte → Done

/-! ### Steps 12-18 -/

/-- The first field that fails its check, as an offset in the packet (payload from 24 onward). -/
def firstBad : List (Nat × Bool) → Option Nat
  | [] => none
  | (o, ok) :: r => if ok then firstBad r else some (24 + o)

/-- The first addressed unit that is absent. -/
def State.firstAbsent (s : State) (us : List (Nat × Nat)) : Option (Nat × Nat) := us.find? fun u => !s.present u.1 u.2

/-- The first addressed unit that is not READY. -/
def State.firstUnready (s : State) (us : List (Nat × Nat)) : Option (Nat × Nat) := us.find? fun u => !s.isReady u.1 u.2

/-- The outcome of the checks of steps 12-16: the status and error detail of the first that fails. -/
def OpSpec.refusal (op : OpSpec) (s : State) (mirrored : Bool) (p : List Byte) : Option (Nat × List Byte) :=
  if !op.length p then some (stBadLength, detail 18 0 0xFFFFFFFF)
  else match firstBad (op.fields s p ++ if mirrored then [] else op.own s p) with
    | some o => some (stBadParam, detail o 0 0xFFFFFFFF)
    | none =>
      match s.firstAbsent (op.units s p) with
      | some u => some (stNotPresent, detail 0xFFFF u.1 (if u.2 < 0xFFFF then u.2 else 0xFFFFFFFF))
      | none =>
        match s.firstUnready (op.units s p) with
        | some u => some (stNotReady, detail 0xFFFF u.1 (if u.2 < 0xFFFF then u.2 else 0xFFFFFFFF))
        | none => if op.locked s p then some (stLocked, detail 0xFFFF 0 0xFFFFFFFF) else none

/-- Every background self-test is abandoned (R444). -/
def State.endTests (s : State) : State := { s with twn := { s.twn with testing := [] } }

/-- Step 17 and its consequences: Cruise's verdict on what execution made of the state. A refused change leaves its report and
the count of refusals; an admitted one counts. A mirrored one is applied whatever its verdict, which only marks what is over
capacity (R66, R85, R86, R89). A change that fails while units are under test is evaluated without the tests (R444). -/
def weighChange (s : State) (x : Ctx) (d0 : Done) (prefixes : List State) (full empty : Bool) : Done :=
  let d := if s.twn.testing.isEmpty ∨ (evaluate s d0.state prefixes).fails = 0 then d0 else { d0 with state := d0.state.endTests }
  let v := evaluate s d.state prefixes
  if v.fails = 0 ∨ x.mirrored then
    let k := if full then d.state.keepReport x.session v else (0, d.state)
    let s1 := { k.2 with cru := { k.2.cru with changes := s.cru.changes + 1 } }
    let s2 := (if v.fails = 0 then s1 else s1.noteMirrored v).noteOver
    { d with state := s2, payload := if d.payload.isEmpty && !empty then v.summary k.1 else d.payload }
  else
    let k := s.keepReport x.session v
    ⟨(k.2.bumpSat Reg.SYS_CRU_STAT_REFUSALS 1).noteOver, v.status, v.summary k.1, []⟩

/-- Steps 12-18 of Table 2.7. A refused command leaves no trace in the configuration (R46, R66). -/
def OpSpec.perform (op : OpSpec) (s : State) (x : Ctx) (p : List Byte) : Done :=
  match op.refusal s x.mirrored p with
  | some r => ⟨s, r.1, r.2, []⟩
  | none =>
    let d := op.run s x p
    if op.cruise ∧ d.status < 2 then weighChange s x d [] false op.emptyReply else d

/-! ### Classes of the opcodes -/

/-- Class C opcodes of Table 2.11. -/
def classC (code : Nat) : Bool :=
  ([0x0004, 0x0101, 0x0200, 0x0201, 0x0202, 0x0205, 0x0300, 0x0301, 0x0303, 0x0304, 0x0400, 0x0403, 0x0404, 0x0500, 0x0501, 0x0502,
    0x0503, 0x0600, 0x0601, 0x0700, 0x0701, 0x0702, 0x0703, 0x0800, 0x0801, 0x0802, 0x0804, 0x0900, 0x0902, 0x0903, 0x0A00, 0x0A02,
    0x0C01, 0x0C02, 0x0C03, 0x0D00, 0x0D01, 0x0F00, 0x0F01] : List Nat).contains code

/-- The class of an opcode, and whether it needs KEYS (Table 2.11). -/
def opcodeClass (code : Nat) : OpClass × Bool :=
  if classC code then (.c, decide (code / 256 = 0x0C))
  else if code = 5 ∨ code = 6 ∨ code = 8 then (.s, false)
  else if code ∈ ([0x0504, 0x0B00, 0x0B02, 0x0B03, 0x0C04, 0x0D02, 0x0E01, 0x1000, 0x1001, 0x1002] : List Nat) then (.l, code == 0x0C04)
  else (.q, false)

/-! ### Roles and leases (step 10) -/

/-- Role codes of Table 15.5. -/
def roleSolo : Nat := 0
def roleStandby : Nat := 1
def roleHolder : Nat := 2
def roleFenced : Nat := 3

/-- The role of the card. -/
def State.role (s : State) : Nat := s.rd Reg.TWN_STAT_ROLE

/-- Does the card hold the lease? When twin operation is disabled it does, permanently (R49). -/
def State.holdsLease (s : State) : Bool := s.role == roleSolo || s.role == roleHolder

/-- The life-cycle code (Table 16.1). -/
def State.lifeCycle (s : State) : Nat := s.rd Reg.VLT_STAT_LCS

/-! ### Steps 2-11 -/

end Sys2Proof.Machine

namespace Sys2Proof
open Sys2Proof.Machine

/-- Flag bits of Table 2.2. -/
def Req.auth (rq : Req) : Bool := bit rq.flags 0
def Req.more (rq : Req) : Bool := bit rq.flags 2
def Req.urgent (rq : Req) : Bool := bit rq.flags 3
def Req.mirrored (rq : Req) : Bool := bit rq.flags 4

/-- Step 3: the flags that R28 forbids. -/
def Req.badFlags (rq : Req) : Bool :=
  decide (32 ≤ rq.flags) || bit rq.flags 1 || (rq.urgent && rq.more) || (rq.mirrored && rq.transport != .partner)

/-- Header and payload bytes of a request (the bytes that its tag protects, R30). -/
def Req.bytes (rq : Req) (opcode : Nat) : List Byte :=
  let h := be16 0x4358 ++ be8 rq.version ++ be8 rq.flags ++ be16 opcode ++ be16 rq.status ++ be32 rq.tag ++
    be32 rq.seq ++ be16 rq.session ++ be16 rq.payload.length
  h ++ be32 (crc32c h).toNat ++ rq.payload

/-- CRC-32C of the whole packet, tag included (R44); of a fragmented message, over the last fragment's header with the whole payload. -/
def Req.crc (rq : Req) (opcode : Nat) : Nat :=
  (crc32c (rq.bytes opcode ++ if rq.auth then beBytes 16 rq.mac.toNat else [])).toNat

/-- Is the packet's tag the CMAC under `k`? -/
def Req.tagUnder (rq : Req) (opcode : Nat) (k : Key) : Bool := decide (rq.mac = Config.cmac k (rq.bytes opcode))

/-- A number for each transport of Table 2.3: UDP over both MACs, the sideband, the mailbox with its ring pairs, and the partner link. A
transport holds one partial message per session (R33) and sends at most 100 AUTH_FAIL replies per second (R46). -/
def Transport.no : Transport → Nat
  | .udp _ _ _ => 0
  | .sideband => 1
  | .mailbox _ => 2
  | .partner => 3

/-- Is a packet longer than one transfer of its transport: 255 bytes on the sideband, 8 232 elsewhere (Table 2.3)? -/
def Req.tooLong (rq : Req) : Bool :=
  decide ((if rq.transport = .sideband then 255 else 8232) < 24 + rq.payload.length + 16 * b01 rq.auth)

/-- The bytes of a request's packet, tag included. -/
def Req.packet (rq : Req) (opcode : Nat) : List Byte := rq.bytes opcode ++ if rq.auth then beBytes 16 rq.mac.toNat else []

/-- Is a request a command that the lease-holding twin has forwarded: MIRRORED on the partner link (R39)? -/
def Req.isMirror (rq : Req) : Bool := rq.transport == .partner && rq.mirrored

/-- The reply to a request (R31); `key` is the key of its tag, if it carries one. -/
def Req.reply (rq : Req) (opcode status : Nat) (payload : List Byte) (key : Option Key) : Machine.Reply :=
  ⟨rq.transport, opcode, status, rq.tag, rq.seq, rq.session, payload, key⟩

end Sys2Proof

namespace Sys2Proof.Machine

/-- Opcodes that session 0 may issue in DEPLOY and RETURN (R42). -/
def openInDeploy (opcode : Nat) : Bool := opcode == 1 || opcode == 2 || opcode == 3 || opcode == 5

/-- Opcodes that the ROM answers in recovery mode (R571). -/
def openInRecovery (opcode : Nat) : Bool := opcode == 1 || opcode == 2 || decide (0x1000 ≤ opcode ∧ opcode ≤ 0x1003)

/-- Rights that a class needs: CONTROL bit 0, MAINT bit 1, KEYS bit 2 (R42). -/
def needsRights (cls : OpClass) (keys : Bool) : Nat :=
  (match cls with
   | .q | .s => 0
   | .c => 1
   | .l => 2) + (if keys then 4 else 0)

/-- Step 5: session open, AUTH where required, tag valid, rights held. `p` is the whole payload. Session 0 has no key, so a packet on it
that sets AUTH for an opcode other than SYS_SESSION_OPEN fails in every life cycle (DESIGN CHOICE, log entry 79). -/
def State.authOk (s : State) (opcode : Nat) (cls : OpClass) (keys : Bool) (rq : Req) (p : List Byte) : Bool :=
  match rq.transport with
  | .partner => rq.session == 0xFFFF && rq.auth && s.twinOn && s.pairKeyOk && rq.tagUnder opcode s.twn.pairKey
  | _ =>
    if rq.session = 0 then
      if opcode = 5 then
        rq.auth && (!s.vaultReady ||
          (s.accepts (u16 p 0) .cyxel true && bit (s.slot (u16 p 0)).attrs 0 && rq.tagUnder opcode (s.slot (u16 p 0)).key))
      else !rq.auth && (decide (s.lifeCycle < 3) || decide (s.lifeCycle = 5) || openInDeploy opcode)
    else if rq.session = 0xFFFF then false
    else
      match s.session rq.session with
      | none => false
      | some x =>
        rq.auth && (x.revoked || rq.tagUnder opcode x.key) &&
          decide ((List.range 3).all fun b => !bit (needsRights cls keys) b || bit x.rights b)

/-- Step 6: does a sequence pass the replay window (R43)? -/
def Session.fresh (x : Session) (n : Nat) : Bool :=
  decide (n ≠ 0) && decide (x.high ≠ 0xFFFFFFFF) &&
    (decide (x.high < n) || (decide (x.high < n + 64) && !x.seen.contains n))

/-- Count a sequence as accepted. -/
def Session.take (x : Session) (n now : Nat) (t : Transport) : Session :=
  let h := max x.high n
  { x with high := h, seen := (n :: x.seen).filter fun k => decide (h < k + 64), last := now, transport := t }

/-- Count the sequences of a message as accepted: those of its fragments from `first` to `n` (R32, R46). -/
def Session.takeRun (x : Session) (first n now : Nat) (t : Transport) : Session :=
  (List.range (min (n - first) 2048 + 1)).foldl (fun y i => y.take (n - i) now t) { x with prior := (n, x.high, x.seen) }

/-- The sequences of a message do not count after all: it is answered BUSY (R46). When no message was taken after it the window is as it
was before it; else only its own sequence is free again. -/
def Session.giveBack (x : Session) (n : Nat) : Session :=
  if x.prior.1 = n then { x with high := x.prior.2.1, seen := x.prior.2.2 } else { x with seen := x.seen.erase n }

/-- The sequences of a message count as accepted in the replay window of its session (R46). Session 0 and the partner link have none.
Events that waited for the session follow it to the transport of this packet. -/
def State.takeSeq (s : State) (rq : Req) (first : Nat) : State :=
  if rq.session = 0 ∨ rq.session = 0xFFFF then s
  else (s.modSession rq.session fun y => y.takeRun first rq.seq s.now rq.transport).moveEvents rq.session

/-- The greatest Sequence of SYS_SESSION_OPEN accepted under a parent slot (R41). -/
def State.lastOpen (s : State) (parent : Nat) : Nat := ((s.cyx.openSeq.filter fun q => q.1 == parent).map (·.2)).foldl max 0

/-- The Sequence of a SYS_SESSION_OPEN counts as accepted under its parent slot (R41). -/
def State.openAccepted (s : State) (parent seq : Nat) : State :=
  { s with cyx := { s.cyx with openSeq := (parent, seq) :: s.cyx.openSeq } }

/-- A SYS_SESSION_OPEN is answered: lower Sequences of its parent need no longer be kept, or, where the answer is BUSY, its own does not
count after all (R41, R46). -/
def State.openAnswered (s : State) (parent seq : Nat) (busy : Bool) : State :=
  { s with cyx := { s.cyx with openSeq := s.cyx.openSeq.filter fun q => q.1 != parent || (if busy then q.2 != seq else decide (seq ≤ q.2)) } }

/-- Session 0 hears a packet: its events go where the packet came from (R56). -/
def State.hearOpen (s : State) (rq : Req) : State :=
  (s.modSession 0 fun y => { y with last := s.now, transport := rq.transport }).moveEvents 0

/-- The kept reply of a request that is sent again unchanged (R44). -/
def Session.keptFor (x : Session) (opcode : Nat) (rq : Req) : Option Reply :=
  (x.kept.find? fun k => k.seq == rq.seq && k.tag == rq.tag && k.opcode == opcode && k.crc == rq.crc opcode).map (·.reply)

/-- The session key that a reply on this request's session is authenticated with. -/
def State.replyKey (s : State) (rq : Req) : Option Key :=
  if rq.session = 0xFFFF then some s.twn.pairKey else (s.session rq.session).bind Session.keyOf

/-- Answer AUTH_FAIL: no tag, at most 100 per second and transport; beyond that it is counted (R46). -/
def State.authFail (s : State) (opcode : Nat) (rq : Req) : State :=
  let n := rq.transport.no
  let sec : Nat := s.now / 10 ^ 9
  let cur : Nat := ((s.cyx.authFails.find? fun p => p.1 == n && p.2.1 == sec).map fun p => p.2.2).getD 0
  if 100 ≤ cur then s.bumpSat Reg.CYX_AUTHFAIL_COUNT 1
  else
    { s with cyx := { s.cyx with authFails := (n, sec, cur + 1) :: s.cyx.authFails.filter fun p => p.1 != n } }.sendReply
      (rq.reply opcode stAuthFail (detail 16 0 0xFFFFFFFF) none)

/-- The boot state without an update of a session: the update is abandoned and its bank is EMPTY (R568). -/
def BootState.dropUpdate (b : BootState) (session : Nat) : BootState :=
  match b.update with
  | none => b
  | some u =>
    if u.session = session then
      let c := { b with update := none, verify := none }
      if u.target = 0 then { c with bankA := Bank.empty } else { c with bankB := Bank.empty }
    else b

/-- Close a session: its queued commands are discarded and its Vault slot is freed, unless it was revoked (R45, R62). -/
def State.closeSession (s : State) (id : Nat) : State :=
  match s.session id with
  | none => s
  | some x =>
    let s1 := if x.revoked then s else s.invalidate x.slot
    let ss := s1.cyx.sessions.filter fun y => y.id != id
    let ps := s1.cyx.partials.filter fun q => q.session != id
    { s1 with cyx := { s1.cyx with sessions := ss, partials := ps }, boot := s1.boot.dropUpdate id }

/-- Close a session whose key or parent was invalidated: until its ID is opened again, its packets are answered KEY_REVOKED (R45). -/
def State.closeRevoked (s : State) (id : Nat) : State :=
  { s with cyx := { s.cyx with revoked := id :: s.cyx.revoked.filter (· != id) } }.closeSession id

/-- Commands accepted and not started, over all sessions and the partner link (R53). -/
def State.queued (s : State) : Nat := (s.cyx.sessions.map fun x => x.queue.length).sum + s.cyx.linkQueue.length

/-- The commands that wait on a session, each with its opcode and its reception time; session 0xFFFF is the partner link. -/
def State.queueOf (s : State) (id : Nat) : List (Nat × Req × Nat) :=
  if id = 0xFFFF then s.cyx.linkQueue else ((s.session id).map (·.queue)).getD []

/-- What waits on a session becomes `q`. -/
def State.setQueue (s : State) (id : Nat) (q : List (Nat × Req × Nat)) : State :=
  if id = 0xFFFF then { s with cyx := { s.cyx with linkQueue := q } } else s.modSession id fun y => { y with queue := q }

/-- What steps 1-11 make of a packet of an opcode row. -/
inductive Gate
  /-- Nothing more happens: the packet was discarded or answered. -/
  | ended (s : State)
  /-- The command starts, with its whole payload. -/
  | start (s : State) (payload : List Byte)

/-- The key of a reply's tag: that of the session, or the new one of the session that the reply opens (R31, R41). -/
def State.answerKey (s : State) (opcode : Nat) (rq : Req) (status : Nat) (payload : List Byte) : Option Key :=
  if opcode = 5 ∧ status = stOk then (s.session (u16 payload 0)).bind Session.keyOf else s.replyKey rq

/-- Send a reply and, where the sequence counts as accepted, keep it (R44, R46). -/
def State.answer (s : State) (opcode : Nat) (rq : Req) (status : Nat) (payload : List Byte) : State :=
  let r := rq.reply opcode status payload (s.answerKey opcode rq status payload)
  let k : Kept := ⟨rq.seq, rq.tag, opcode, rq.crc opcode, r⟩
  let s1 := if rq.session = 0 ∨ rq.session = 0xFFFF then s
    else s.modSession rq.session fun x => { x with kept := (k :: x.kept).take 16 }
  s1.sendReply r

/-- Forget the partial message of a transport and session. -/
def State.dropPartial (s : State) (rq : Req) : State :=
  let ps := s.cyx.partials.filter fun q => !(q.transport.no == rq.transport.no && q.session == rq.session)
  { s with cyx := { s.cyx with partials := ps } }

/-- The partial message of a transport and session. -/
def State.partialOf (s : State) (rq : Req) : Option Partial :=
  s.cyx.partials.find? fun q => q.transport.no == rq.transport.no && q.session == rq.session

/-- Does a packet continue a partial message (R32)? One with its opcode and tag whose sequence does not follow, or whose AUTH or URGENT
differs, breaks it as another message would (DESIGN CHOICE, log entry 125). -/
def Partial.takes (q : Partial) (opcode : Nat) (rq : Req) : Bool :=
  q.opcode == opcode && q.tag == rq.tag && q.nextSeq == rq.seq && q.flags % 2 == rq.flags % 2 &&
    bit q.flags 3 == rq.urgent

/-- A partial message is abandoned for a packet `rq`: its tag is answered BAD_LENGTH (R33), and the sequences of its fragments count as
accepted (R46). -/
def State.abandon (s : State) (q : Partial) (rq : Req) : State :=
  let old : Req := { rq with tag := q.tag, seq := sub32 q.nextSeq 1, transport := q.transport }
  let s1 := if q.session = 0 ∨ q.session = 0xFFFF then s
    else s.modSession q.session fun y => y.takeRun q.firstSeq old.seq y.last y.transport
  s1.sendReply (old.reply q.opcode stBadLength (detail 18 0 0xFFFFFFFF) (s.replyKey rq))

/-- A packet that does not continue the partial message of its transport and session ends it (R33). -/
def State.breakPartial (s : State) (opcode : Nat) (rq : Req) : State :=
  match s.partialOf rq with
  | none => s
  | some q => if q.takes opcode rq then s else (s.dropPartial rq).abandon q rq

/-- The partial message takes a fragment that does not end it, or a new one begins (R32, R33). -/
def State.takeFragment (s : State) (opcode : Nat) (rq : Req) : State :=
  let new : Partial := ⟨rq.transport, rq.session, opcode, rq.tag, rq.flags, rq.seq, (rq.seq + 1) % 2 ^ 32, rq.payload, s.now⟩
  let q := match s.partialOf rq with
    | none => new
    | some q => { new with firstSeq := q.firstSeq, payload := q.payload ++ rq.payload }
  let t := s.dropPartial rq
  { t with cyx := { t.cyx with partials := q :: t.cyx.partials } }

/-- Step 4: reassembly. The state with a partial message that the packet breaks answered and abandoned (R33), the whole payload that the
packet completes, and the sequence of the message's first fragment. -/
def State.reassemble (s : State) (opcode : Nat) (rq : Req) : State × List Byte × Nat :=
  match s.partialOf rq with
  | none => (s, rq.payload, rq.seq)
  | some q =>
    if q.takes opcode rq then (s.dropPartial rq, q.payload ++ rq.payload, q.firstSeq)
    else ((s.dropPartial rq).abandon q rq, rq.payload, rq.seq)

/-- Step 5 for firmware and for the ROM, which serves session 0 without AUTH (R571). -/
def State.passes (s : State) (opcode : Nat) (cls : OpClass) (keys : Bool) (rq : Req) (p : List Byte) : Bool :=
  if s.boot.romServes then rq.session == 0 && !rq.auth else s.authOk opcode cls keys rq p

/-- A fragment that does not end its message: its version and flags are checked, a partial message that it breaks is answered, and its
length, session and tag are checked before it is reassembled (Table 2.7). The replay window judges the message once it is whole. -/
def State.fragment (s : State) (opcode : Nat) (rq : Req) : State :=
  if rq.version ≠ 1 then (s.takeSeq rq rq.seq).answer opcode rq stBadParam (detail 2 0 0xFFFFFFFF)
  else if rq.badFlags then (s.takeSeq rq rq.seq).answer opcode rq stBadParam (detail 3 0 0xFFFFFFFF)
  else
    let t := s.breakPartial opcode rq
    if rq.tooLong then
      ((t.dropPartial rq).takeSeq rq (((t.partialOf rq).map (·.firstSeq)).getD rq.seq)).answer opcode rq stBadLength (detail 18 0 0xFFFFFFFF)
    else if !t.boot.romServes ∧ t.cyx.revoked.contains rq.session then t.takeFragment opcode rq
    else if !t.passes opcode .q false rq rq.payload then t.authFail opcode rq
    else t.takeFragment opcode rq

/-- Does firmware run, neither halted nor about to restart (R523, R548)? -/
def State.firmwareRuns (s : State) : Bool := s.boot.firmwareSince.isSome && !s.flt.halted && !s.flt.restartDue

/-- Does firmware or the ROM serve packets of this transport at all (R37, R38, R523, R548, R560, R571)? -/
def State.serves (s : State) (t : Transport) : Bool :=
  (s.firmwareRuns &&
    (match t with
     | .udp m _ _ => s.flag (Reg.NET_STAT_LINK (64 + m)) && s.mgtAddress (64 + m) != 0
     | .mailbox n => s.replyRingTakes n && s.memoryUsable (s.requestRing n) (8256 * s.ringSize n) && !s.cyx.held.any fun h => h.1 == n
     | _ => true)) ||
  (s.boot.romServes && (match t with
    | .udp m _ _ => m == 0 && s.mgtAddress 64 != 0
    | .sideband => true
    | _ => false))

/-- Step 10 for a class C command: fenced, then lease not held (R49, R431). A MIRRORED command of the partner link
bypasses it (R39). A SOLO card whose LKO_FENCE_N is low answers FENCED (R433). -/
def State.leaseRefusal (s : State) (cls : OpClass) (rq : Req) : Option Nat :=
  if cls = .c ∧ rq.isMirror = false then
    if s.role = roleFenced ∨ (s.role = roleSolo ∧ s.flag Reg.TWN_STAT_FENCE_PIN) then some stFenced
    else if !s.holdsLease then some stLeaseNotHeld else none
  else none

/-- A class C command waits for a renewal when less than 2 ms of the lease are left (R431). -/
def State.leaseTooShort (s : State) (cls : OpClass) (rq : Req) : Bool :=
  cls == .c && !rq.isMirror &&
    (match s.twn.expiry with
     | some e => decide (e < s.ticks + 96000)
     | none => false)

/-- The mirror rules of the partner link: a HOLDER discards every mirrored packet (R437); another card takes the one
whose Sequence follows its pair generation, queues those that arrive during a snapshot, and starts
resynchronisation at a gap (R436, R446). The second part says that the packet is to be executed now. -/
def State.mirrorGate (s : State) (opcode : Nat) (rq : Req) : State × Bool :=
  let gen := s.rd Reg.TWN_GEN_GEN
  let resync := s.rd Reg.TWN_STAT_RESYNC
  if !rq.isMirror then (s, true)
  else if s.role = roleHolder then (s.raise 0x2C09 srcTwin 0, false)
  else if resync = 1 ∨ resync = 2 then
    if s.twn.mirrorQueue.length < 256 then
      ({ s with twn := { s.twn with mirrorQueue := s.twn.mirrorQueue ++ [(opcode, rq)] } }, false)
    else (s.resyncFail, false)
  else if gen + 1 < rq.seq ∧ resync = 6 then (s, false)
  else if gen + 1 < rq.seq then
    let s1 := (s.raise 0x2C07 srcTwin 0).startResync
    (if s1.rd Reg.TWN_STAT_RESYNC = 1 then { s1 with twn := { s1.twn with mirrorQueue := [(opcode, rq)] } } else s1, false)
  else if rq.seq ≤ gen then (s, false)
  else (s.wr Reg.TWN_GEN_GEN rq.seq, true)

/-- Waiting commands in the order in which they start: URGENT ones first (R52, R55). -/
def startOrder (q : List (Nat × Req × Nat)) : List (Nat × Req × Nat) :=
  (q.filter fun e => e.2.1.urgent) ++ q.filter fun e => !e.2.1.urgent

/-- The sessions whose next waiting command may start, each with whether that command is URGENT. -/
def State.waitingTurns (s : State) : List (Nat × Bool) :=
  s.cyx.sessions.filterMap fun x => (startOrder x.queue).head?.bind fun e =>
    if s.leaseTooShort (opcodeClass e.1).1 e.2.1 then none else some (x.id, e.2.1.urgent)

/-- How far a session stands behind the one served last, in round-robin order by ID (R52; log entry 104). -/
def State.turnsUntil (s : State) (id : Nat) : Nat := (id + 65535 - s.cyx.turn % 65536) % 65536

/-- Is it the turn of a session's command: among the sessions with waiting commands, URGENT ones before all others, one command per turn in
round-robin order (R52, R55)? -/
def State.hasTurn (s : State) (id : Nat) (urgent : Bool) : Bool :=
  s.waitingTurns.all fun o => o.1 == id || (urgent && !o.2) || (urgent == o.2 && decide (s.turnsUntil id < s.turnsUntil o.1))

/-- A reply of a request on the sideband that is not an answer BUSY, by its last fragment. -/
def isSidebandReply (b : List Byte) : Bool := !bit (u8 b 3) 2 && u16 b 6 != stBusy

/-- Requests of the sideband that are outstanding: waiting, or with a reply that has not been fetched (R34, R36). -/
def State.sidebandOutstanding (s : State) : Nat :=
  (s.cyx.sessions.map fun x => (x.queue.filter fun e => e.2.1.transport == .sideband).length).sum + (s.cyx.sideband.filter isSidebandReply).length

/-- A request is answered BUSY: its sequence does not count (R46). -/
def State.busy (s : State) (opcode : Nat) (rq : Req) : State := s.sendReply (rq.reply opcode stBusy (detail 0xFFFF 0 0xFFFFFFFF) (s.replyKey rq))

/-- Put a command into the queue of its session or of the partner link, or answer BUSY when it finds no space (R53). `b` is the state before
its sequence was counted. -/
def State.enqueue (s b : State) (opcode : Nat) (rq : Req) : State :=
  if 64 ≤ (s.queueOf rq.session).length ∨ 1024 ≤ s.queued then b.busy opcode rq
  else s.setQueue rq.session (s.queueOf rq.session ++ [(opcode, rq, s.chrono)])

/-- A command starts: its session has had its turn, and its lead times count from `origin` (R52, R54). -/
def State.served (s : State) (id origin : Nat) : State :=
  { s with cyx := { s.cyx with turn := if id = 0xFFFF then s.cyx.turn else id, origin := origin } }

/-- Must a command wait: for a renewal of the lease, behind commands of its own session, or for its turn among the sessions (R52, R55,
R431)? -/
def State.mustWait (s : State) (cls : OpClass) (rq : Req) : Bool :=
  let waiting := s.queueOf rq.session
  s.leaseTooShort cls rq || (!waiting.isEmpty && (!rq.urgent || waiting.any fun e => e.2.1.urgent)) ||
    (rq.transport != .partner && !s.hasTurn rq.session rq.urgent)

/-- Steps 10 and 11: the lease, and whether the command starts now or waits behind others (R52). What waits is the whole message. `b` is
the state before its sequence was counted: a message that is answered BUSY may be sent again unchanged (R46). -/
def State.leaseGate (s b : State) (op : OpSpec) (rq : Req) (p : List Byte) : Gate :=
  let whole : Req := { rq with payload := p }
  match s.leaseRefusal op.cls rq with
  | some st => .ended (s.answer op.code whole st (detail 0xFFFF 0 0xFFFFFFFF))
  | none =>
    let m := s.mirrorGate op.code whole
    if !m.2 then .ended m.1
    else if rq.transport = .sideband ∧ 4 ≤ s.sidebandOutstanding then .ended (b.busy op.code rq)
    else if s.mustWait op.cls rq then .ended (s.enqueue b op.code whole)
    else .start (m.1.served rq.session m.1.chrono) p

/-- Opcodes of each group (Table 2.11). SYS_EVENT is sent only by the part. -/
def opcodeCount (group : Nat) : Nat := ([9, 3, 6, 5, 5, 6, 3, 4, 5, 4, 3, 4, 5, 3, 3, 3, 4] : List Nat).getD group 0

/-- Is an opcode one that the part takes (Table 2.11)? -/
def opcodeDefined (code : Nat) : Bool :=
  decide (code % 256 < opcodeCount (code / 256)) && code != 0 && code != 7

/-- Step 9: the opcode is defined. -/
def State.opcodeGate (s b : State) (op : OpSpec) (rq : Req) (p : List Byte) : Gate :=
  if opcodeDefined op.code then s.leaseGate b op rq p
  else .ended (s.answer op.code { rq with payload := p } stBadOpcode (detail 4 0 0xFFFFFFFF))

/-- Steps 8 and 9. -/
def State.lifeGate (s b : State) (op : OpSpec) (rq : Req) (p : List Byte) : Gate :=
  if s.lifeCycle = 5 ∧ ¬(op.code = 1 ∨ op.code = 2) then
    .ended (s.answer op.code { rq with payload := p } stLocked (detail 0xFFFF 0 0xFFFFFFFF))
  else s.opcodeGate b op rq p

/-- Is a packet one that was accepted before and waits in the queue of its session or of the partner link? -/
def State.isQueued (s : State) (opcode : Nat) (rq : Req) : Bool := (s.queueOf rq.session).any fun e => e.1 == opcode && e.2.1 == rq

/-- A waiting command starts when it is the next of its session, it is its session's turn, and its lease allows it; otherwise it waits
on. Its lead times count from the instant at which it passes the checks less 40 µs, or from its reception time if that is later (R54).
The waiting commands of a session whose key was invalidated are discarded without reply. The partner link takes no turn. -/
def State.startQueued (s : State) (op : OpSpec) (rq : Req) : Gate :=
  let q := s.queueOf rq.session
  match (startOrder q).head? with
  | none => .ended s
  | some e =>
    if e.1 ≠ op.code ∨ e.2.1 ≠ rq ∨ (rq.session ≠ 0xFFFF ∧ !s.hasTurn rq.session rq.urgent) then .ended s
    else if (s.session rq.session).any (·.revoked) then .ended (s.closeRevoked rq.session)
    else
      let s1 := s.setQueue rq.session (q.erase e)
      match s.leaseRefusal op.cls rq with
      | some st => .ended (s1.answer op.code rq st (detail 0xFFFF 0 0xFFFFFFFF))
      | none =>
        if s.leaseTooShort op.cls rq then .ended s else .start (s1.served rq.session (max e.2.2 (s.chrono - 40000))) rq.payload

/-- Answer KEY_REVOKED, without a tag (R45). -/
def State.keyRevoked (s : State) (opcode : Nat) (rq : Req) : State :=
  s.sendReply (rq.reply opcode stKeyRevoked (detail 16 0 0xFFFFFFFF) none)

/-- Steps 5-9 for a message whose payload `p` is whole and whose first fragment carried `first`. -/
def State.sessionGate (s : State) (op : OpSpec) (rq : Req) (p : List Byte) (first : Nat) : Gate :=
  if s.cyx.revoked.contains rq.session && rq.auth then .ended (s.keyRevoked op.code rq)
  else if !s.authOk op.code op.cls op.keys rq p then .ended (s.authFail op.code rq)
  else if rq.session = 0xFFFF then s.opcodeGate s op rq p
  else
    match s.session rq.session with
    | none => .ended (s.authFail op.code rq)
    | some x =>
      if x.id = 0 then
        if op.code = 5 ∧ rq.seq ≤ s.lastOpen (u16 p 0) then
          .ended (s.sendReply (rq.reply op.code stReplay (detail 12 0 0xFFFFFFFF) none))
        else (if op.code = 5 then (s.hearOpen rq).openAccepted (u16 p 0) rq.seq else s.hearOpen rq).lifeGate s op rq p
      else if !x.fresh rq.seq then
        match x.keptFor op.code { rq with payload := p } with
        | some r => .ended (s.sendReply { r with transport := rq.transport })
        | none => .ended (s.sendReply (rq.reply op.code stReplay (detail 12 0 0xFFFFFFFF) x.keyOf))
      else
        let s1 := s.takeSeq rq first
        if x.revoked || !s1.accepts x.slot .cyxel false then .ended ((s1.keyRevoked op.code rq).closeRevoked x.id)
        else s1.lifeGate s op rq p

/-- A new packet leaves its transport. In a mailbox it is the one that stands in the request ring at the consumer index, which the part
advances (R37). -/
def State.consume (s : State) (t : Transport) (bytes : List Byte) : Option State :=
  match t with
  | .mailbox n =>
    let i := s.rd (Reg.CYX_RQ_CI_IDX n)
    if s.rd (Reg.CYX_RQ_PI_IDX n) = i ∨ s.memRead (s.requestRing n + 8256 * i) bytes.length ≠ bytes then none
    else some (s.wr (Reg.CYX_RQ_CI_IDX n) ((i + 1) % s.ringSize n))
  | _ => some s

/-- Steps 2-11 of Table 2.7 for a new request. -/
def State.newRequest (s : State) (op : OpSpec) (rq : Req) : Gate :=
  if rq.version ≠ 1 then .ended ((s.takeSeq rq rq.seq).answer op.code rq stBadParam (detail 2 0 0xFFFFFFFF))
  else if rq.badFlags then .ended ((s.takeSeq rq rq.seq).answer op.code rq stBadParam (detail 3 0 0xFFFFFFFF))
  else
    let r := s.reassemble op.code rq
    let p := r.2.1
    if rq.tooLong ∨ p.length % 4 ≠ 0 ∨ 8192 < p.length then
      .ended ((r.1.takeSeq rq r.2.2).answer op.code { rq with payload := p } stBadLength (detail 18 0 0xFFFFFFFF))
    else if r.1.boot.romServes then
      if !r.1.passes op.code op.cls op.keys rq p then .ended (r.1.authFail op.code rq)
      else if r.1.lifeCycle = 5 ∧ ¬(op.code = 1 ∨ op.code = 2) then
        .ended (r.1.answer op.code rq stLocked (detail 0xFFFF 0 0xFFFFFFFF))
      else if !openInRecovery op.code then .ended (r.1.answer op.code rq stBadOpcode (detail 4 0 0xFFFFFFFF))
      else if rq.transport = .sideband ∧ 4 ≤ r.1.sidebandOutstanding then .ended (r.1.busy op.code rq)
      else .start r.1 p
    else r.1.sessionGate op rq p r.2.2

/-- Steps 2-11 of Table 2.7: a request that waits in its session's queue may start, whatever has become of the transport that brought it
(R52); a new one is checked when its transport is served. One that sets MORE is a fragment, and its opcode does not act (R32). -/
def State.gate (s : State) (op : OpSpec) (rq : Req) : Gate :=
  if s.firmwareRuns && s.isQueued op.code rq then s.startQueued op rq
  else if !s.serves rq.transport then .ended s
  else match s.consume rq.transport (rq.packet op.code) with
    | some s1 => if rq.more then .ended (s1.fragment op.code rq) else s1.newRequest op rq
    | none => .ended s

/-! ### The mirror (R49, R144, R436) -/

/-- Length of a change list of Table 3.3 with `n` entries, from offset `o`. -/
def listLength (p : List Byte) : Nat → Nat → Nat
  | 0, o => o
  | n + 1, o => listLength p n (o + 4 + u16 p (o + 2))

/-- The length that a command's own payload has before its mirror trailer; none for a command whose mirror carries none (Table 5.3, R358, R379; log
entry 139). -/
def takeLength (code : Nat) (p : List Byte) : Option Nat :=
  if code = 0x0200 then some 8
  else if code = 0x0201 then some (8 + 8 * u16 p 0)
  else if code = 0x0300 then some 36
  else if code = 0x0303 then some (16 + 8 * u16 p 12)
  else if code = 0x0600 then some (16 + 12 * u16 p 0)
  else if code = 0x0702 ∨ code = 0x0802 then some 16
  else if code = 0x0800 then some 24
  else if code = 0x0801 ∨ code = 0x0804 then some 8
  else if code = 0x0903 then some 4
  else if code = 0x0101 then some (listLength p (u16 p 0) 4)
  else none

/-- The FRAMEREFs of a list of bytes, as generator and frame. -/
def frameRefs (p : List Byte) : Nat → Nat → List (Nat × Nat)
  | 0, _ => []
  | n + 1, o => (u8 p o, u64 p (o + 4)) :: frameRefs p n (o + 12)

/-- What a mirrored take's trailer stamps: the handle and the frames (Table 5.3). -/
def trailerOf (code : Nat) (p : List Byte) : Nat × List (Nat × Nat) :=
  match takeLength code p with
  | none => (0, [])
  | some n => (u32 p (n + 4), frameRefs p (u16 p n) (n + 8))

/-- The trailer that the holder adds to the mirror of an admitted take, from the FRAMEREFs of its reply. -/
def mirrorTrailer (code : Nat) (reply : List Byte) : List Byte :=
  if code = 0x0200 then be16 1 ++ zeros 2 ++ be32 0 ++ reply
  else if code = 0x0201 then be16 (u32 reply 0) ++ zeros 2 ++ be32 0 ++ reply.drop 4
  else if code = 0x0300 then be16 1 ++ zeros 2 ++ be32 (u32 reply 0) ++ reply.drop 4
  else if code = 0x0303 then be16 (u16 reply 4) ++ zeros 2 ++ be32 (u32 reply 0) ++ reply.drop 8
  else if code = 0x0702 then
    be16 (u32 reply 0) ++ zeros 2 ++ be32 0 ++ (List.range (u32 reply 0)).flatMap fun i => bytesAt reply (8 + 16 * i) 12
  else []

/-- The routes of a batch or salvo from `i` to `j - 1`, as a payload of its own. -/
def routesFrom (code : Nat) (p : List Byte) (i j : Nat) : List Byte :=
  if code = 0x0201 then be16 (j - i) ++ bytesAt p 2 6 ++ bytesAt p (8 + 8 * i) (8 * (j - i))
  else bytesAt p 0 12 ++ be16 (j - i) ++ bytesAt p 14 2 ++ bytesAt p (16 + 8 * i) (8 * (j - i))

/-- The entries of a change list with their mirror trailers: opcode, payload, trailer (Table 3.3; log entry 48). -/
def mirrorEntries (p : List Byte) : Nat → Nat → List Byte → List (Nat × List Byte × List Byte)
  | 0, _, _ => []
  | n + 1, o, t =>
    let q := bytesAt p (o + 4) (u16 p (o + 2))
    let k := if (takeLength (u16 p o) q).isSome then 8 + 12 * u16 t 0 else 0
    (u16 p o, q, t.take k) :: mirrorEntries p n (o + 4 + u16 p (o + 2)) (t.drop k)

/-- Routes of a list entry; an entry of another kind counts as one. -/
def entryRoutes (e : Nat × List Byte × List Byte) : Nat :=
  if e.1 = 0x0201 then u16 e.2.1 0 else if e.1 = 0x0303 then u16 e.2.1 12 else 1

/-- The entries with the first `w` routes of a list, and those with the rest; a batch or salvo on both sides keeps its full trailer in
each. -/
def cutEntries : Nat → List (Nat × List Byte × List Byte) → List (Nat × List Byte × List Byte) × List (Nat × List Byte × List Byte)
  | _, [] => ([], [])
  | w, e :: es =>
    if entryRoutes e ≤ w then ((e :: (cutEntries (w - entryRoutes e) es).1), (cutEntries (w - entryRoutes e) es).2)
    else if w = 0 then ([], e :: es)
    else ([(e.1, routesFrom e.1 e.2.1 0 w, e.2.2)], (e.1, routesFrom e.1 e.2.1 w (entryRoutes e), e.2.2) :: es)

/-- The payloads that carry the mirror of a change list: halved, its routes rounded up, until each has at most 8 192 bytes (R144, log entry
48); fuel bounds the halvings. -/
def mirrorLists (flags : List Byte) : Nat → List (Nat × List Byte × List Byte) → List (List Byte)
  | fuel, es =>
    let b := be16 es.length ++ flags ++ (es.flatMap fun e => be16 e.1 ++ be16 e.2.1.length ++ e.2.1) ++ es.flatMap fun e => e.2.2
    let n := (es.map entryRoutes).sum
    match fuel with
    | 0 => [b]
    | k + 1 =>
      if b.length ≤ 8192 ∨ n < 2 then [b]
      else mirrorLists flags k (cutEntries ((n + 1) / 2) es).1 ++ mirrorLists flags k (cutEntries ((n + 1) / 2) es).2

/-- The payloads that carry the mirror of a command: two when payload and trailer would exceed 8 192 bytes (R144). An
AUD_ROUTE is mirrored stamped with its target sample (R286); VLT_DERIVE and VLT_IMPORT carry the slot that was resolved (R476). -/
def mirrorPayloads (code : Nat) (p reply stamp : List Byte) : List (List Byte) :=
  let t := mirrorTrailer code reply ++ stamp
  if code = 0x0C01 ∨ code = 0x0C03 then [bytesAt p 0 2 ++ bytesAt reply 0 2 ++ p.drop 4]
  else if code = 0x0600 then [bytesAt p 0 2 ++ be16 1 ++ bytesAt p 4 4 ++ reply ++ p.drop 16]
  else if code = 0x0101 then mirrorLists (bytesAt p 2 2) 4 (mirrorEntries p (u16 p 0) 4 t)
  else if p.length + t.length ≤ 8192 ∨ ¬(code = 0x0201 ∨ code = 0x0303) then [p ++ t]
  else
    let n : Nat := if code = 0x0201 then u16 p 0 else u16 p 12
    [routesFrom code p 0 ((n + 1) / 2) ++ t, routesFrom code p ((n + 1) / 2) n ++ t]

/-- The holder sends an admitted class C command to its partner as the next packet of session 0xFFFF; while the
partner is not PRESENT it only counts it (R436). -/
def State.mirrorOne (s : State) (opcode : Nat) (payload : List Byte) : State :=
  let g := (s.rd Reg.TWN_GEN_GEN + 1) % 2 ^ 32
  let s1 := s.wr Reg.TWN_GEN_GEN g
  if s.rd Reg.TWN_STAT_PARTNER = 1 then
    s1.partnerSend 0 (fragmentBytes (some s.twn.pairKey) 16 opcode 0 0 g 0xFFFF payload)
  else s1.bump Reg.TWN_MIRROR_DROP_COUNT 1

/-- Mirror an admitted class C command. -/
def State.mirror (s : State) (opcode : Nat) (payload reply stamp : List Byte) : State :=
  if s.twinOn ∧ s.role = roleHolder then (mirrorPayloads opcode payload reply stamp).foldl (fun t p => t.mirrorOne opcode p) s else s

/-- A session that closes itself, or whose own key the command revoked, is closed after its reply (R45, R62, R469). -/
def State.closeOwn (s : State) (opcode id : Nat) : State :=
  match s.session id with
  | some x => if !x.revoked then s else if opcode = 6 then s.closeSession id else s.closeRevoked id
  | none => s

/-- Answer a command that was executed. BUSY is not kept, and its sequence does not count: the message may be sent again unchanged (R46). -/
def State.answerDone (s : State) (opcode : Nat) (rq : Req) (status : Nat) (payload : List Byte) : State :=
  if status = stBusy then
    (s.modSession rq.session fun y => y.giveBack rq.seq).sendReply (rq.reply opcode stBusy payload (s.replyKey rq))
  else s.answer opcode rq status payload

/-- After execution: mirror a class C command that took effect, log an INTERNAL status, answer, and send COMPLETE where
nothing is left to wait for (R31, R44, R47, R54). -/
def State.conclude (op : OpSpec) (rq : Req) (p : List Byte) (d : Done) : State :=
  let s1 := if op.cls = .c ∧ d.status < 2 ∧ rq.isMirror = false then d.state.mirror op.code p d.payload d.stamp else d.state
  let s2 := if d.status = stInternal then s1.raise 0x2F0A srcCyxel op.code else s1
  let vault := op.code == 0x0C01 || op.code == 0x0C02 || op.code == 0x0C03
  let s3 := if vault && rq.isMirror && decide (2 ≤ d.status) then
    s2.raise 0x2D05 srcVault (if op.code = 0x0C02 then u16 p 0 else u16 p 2) else s2
  let s4 := if op.code = 5 then s3.openAnswered (u16 p 0) rq.seq (d.status == stBusy) else s3
  ((s4.answerDone op.code { rq with payload := p } d.status d.payload).settle).closeOwn op.code rq.session

/-- An opcode row: `dt` ns pass, the packet goes through the checks of Table 2.7, and the command that passes them
is executed and answered. -/
def serve (op : OpSpec) (dt : Nat) (rq : Req) (s : State) : State :=
  match (s.arrive dt).gate op rq with
  | .ended s1 => s1
  | .start s1 p =>
    if rq.isMirror then
      let t := trailerOf op.code p
      let own := p.take ((takeLength op.code p).getD p.length)
      State.conclude op rq own (op.perform s1 ⟨rq.session, rq.tag, 0, true, t.1, t.2, p.drop own.length⟩ own)
    else State.conclude op rq p (op.perform s1 ⟨rq.session, rq.tag, 0, false, 0, [], []⟩ p)

end Sys2Proof.Machine
end

