-- ==== Sys2Proof/Machine/FabCmds.lean ====
section
/-!
DEFINITION. The FAB commands (R116-R121, R614) and the events of the fabric.
-/
namespace Sys2Proof.Machine

/-! ### Carriage and pool ports -/

/-- Carriage of a video format (Table 1.9): 0 a quarter slot, 1 a full slot, n a bond of n; none where not carried. -/
def carriage (width height : Nat) (interlaced s444 : Bool) (n d : Nat) : Option Nat :=
  let upTo60 := decide (20 * d ≤ n) && decide (n ≤ 60 * d)
  let above60 := decide (60 * d < n) && decide (n ≤ 121 * d)
  if d = 0 then none
  else if width = 1920 ∧ height = 1080 then
    if interlaced then (if decide (20 * d ≤ n) && decide (n ≤ 30 * d) then some (b01 s444) else none)
    else if upTo60 then some (b01 s444) else if above60 then some 1 else none
  else if interlaced then none
  else if width = 3840 ∧ height = 2160 then
    if upTo60 then some (if s444 then 2 else 1) else if above60 then some (if s444 then 4 else 2) else none
  else if width = 7680 ∧ height = 4320 then
    if upTo60 then some (if s444 then 8 else 4) else if above60 then (if s444 then none else some 8) else none
  else none

/-! ### Routes (Table 4.5) -/

/-- The output slot that a route block names. -/
def routeOut (p : List Byte) (o : Nat) : Nat := slotKey (u16 p o) (bit (u8 p (o + 4)) 0)

/-- The source slot that a route block names; 0xFFFF disconnects. -/
def routeSrc (p : List Byte) (o : Nat) : Nat := slotKey (u16 p (o + 2)) (bit (u8 p (o + 4)) 1)

def routeBond (p : List Byte) (o : Nat) : Bool := bit (u8 p (o + 4)) 2
def routeValid (p : List Byte) (o : Nat) : Bool := decide (u16 p (o + 2) ≠ 0xFFFF)

/-- The generator of a route: its own, or the output's binding. -/
def State.routeGen (s : State) (p : List Byte) (o : Nat) : Nat :=
  if u8 p (o + 5) = 0xFF then s.rd (Reg.FAB_SEL_CUR_GEN (quarterIndex (routeOut p o))) else u8 p (o + 5)

/-- May the output of a route be named (R116, R18), under the split that will be in force (R194)? A member of a bond that is defined for RX
only may be routed alone as an output: it is no member of an output bond (DESIGN CHOICE, log entry 87). -/
def State.routeOutOk (s : State) (p : List Byte) (o : Nat) : Bool :=
  let k := routeOut p o
  let n := fullSlot k
  decide (n < s.externalSlots) && s.outSplitNext n == isQuarter k &&
    (if routeBond p o then
      match s.fab.bonds.find? fun b => b.members.head? == some n with
      | some b => b.tx && !isQuarter k
      | none => false
    else !(s.fab.bonds.any fun b => b.tx && b.members.contains n))

/-- Is no split change of a route's output still to come at the time `m` of its Meridian (R194)? -/
def State.splitSettled (s : State) (p : List Byte) (o m : Nat) : Bool :=
  let n := fullSlot (routeOut p o)
  s.outSplit n == s.outSplitNext n || decide (125000 * s.nextSuperframe ≤ m)

/-- May the source of a route be named (R116, R20)? A member of a bond that is defined for TX only may be routed alone as a source (DESIGN
CHOICE, log entry 87). -/
def State.routeSrcOk (s : State) (p : List Byte) (o : Nat) : Bool :=
  !routeValid p o ||
    (let k := routeSrc p o
     s.sourceNamed k &&
      (if routeBond p o then
        match s.bondNamed k, s.bondNamed (routeOut p o) with
        | some b, some c => b.rx && !isQuarter k && b.members.length == c.members.length
        | _, _ => false
      else match s.bondOf (fullSlot k) with
        | some b => !b.rx
        | none => true))

/-- The generator of a route is enabled, and is the binding of a connected output (R116, R129). -/
def State.routeGenOk (s : State) (p : List Byte) (o : Nat) : Bool :=
  let g := u8 p (o + 5)
  let cur := s.selCur (quarterIndex (routeOut p o))
  let targeted := s.eph.takes.any fun t => t.routes.any fun r => r.out == routeOut p o
  (g == 0xFF || decide (g < 16)) && s.genOn (s.routeGen p o) &&
    (g == 0xFF || g == cur.gen || !(cur.valid || targeted))

/-- The field checks of one route block at offset `o`. -/
def State.routeFields (s : State) (p : List Byte) (o : Nat) : List (Nat × Bool) :=
  [(o, s.routeOutOk p o), (o + 2, s.routeSrcOk p o), (o + 4, decide (u8 p (o + 4) < 32)), (o + 5, s.routeGenOk p o),
   (o + 6, zeroAt p (o + 6) 2)]

/-- The lanes that a route's slots lie on, and the producers of an internal source. -/
def State.routeUnits (s : State) (p : List Byte) (o : Nat) : List (Nat × Nat) :=
  let unit := fun (k : Nat) =>
    let n := fullSlot k
    if n < 1152 then [(0x11, n / 9)] else if n < 1168 then [(0x0E, n - 1152)] else if n < 1232 then [(0x19, n - 1168)]
    else if n < 1296 then [(0x0C, n - 1232)] else [(0x1D, n - 1296)]
  [(0x0A, 0), (0x0B, s.routeGen p o)] ++ (s.members (routeBond p o) (routeOut p o)).flatMap unit ++
    (if routeValid p o then (s.members (routeBond p o) (routeSrc p o)).flatMap unit else [])

/-- The record of a route for frame `f` of its generator. -/
def State.routeRec (s : State) (p : List Byte) (o f : Nat) : RouteRec :=
  ⟨routeOut p o, routeSrc p o, routeValid p o, routeBond p o, bit (u8 p (o + 4)) 3, bit (u8 p (o + 4)) 4, s.routeGen p o, f,
   0, 0, false, false⟩

/-- The frame at which a route applies: the one its mirror stamps, or the target frame of time `t` (R130, R144). -/
def State.routeFrame (s : State) (x : Ctx) (g t : Nat) : Nat :=
  ((x.targets.find? fun r => r.1 == g).map (·.2)).getD (s.target g t)

/-- The Meridian at which a route with take time `t` applies. -/
def State.routeTime (s : State) (p : List Byte) (o t : Nat) : Nat :=
  let g := s.routeGen p o
  meridianAt (s.genN g) (s.genD g) (s.target g t)

/-- A disconnected output takes the generator of a route at once (R116). -/
def State.bindOutput (s : State) (r : RouteRec) : State :=
  (s.members r.bond r.out).foldl (fun t k =>
    if (t.selCur (quarterIndex k)).valid then t else t.wr (Reg.FAB_SEL_CUR_GEN (quarterIndex k)) r.gen) s

/-- The generators of a list of records with their frames, ascending and once each (R117, R147). -/
def genFrames (rs : List RouteRec) : List (Nat × Nat) :=
  (List.range 16).filterMap fun g => (rs.find? fun r => r.gen == g).map fun r => (g, r.frame)

/-- A mirrored take that reached the partner after M0 − 20 µs of a stamped frame (R145). -/
def State.mirrorLate (s : State) (x : Ctx) : State :=
  x.targets.foldl (fun t r =>
    if meridianAt (t.genN r.1) (t.genD r.1) r.2 < t.chrono + 20000 then t.raise 0x2202 srcEph r.1 else t) s

/-- Records of a mirrored take that reach the loader after the Meridian they were stamped for apply late, and count (R134). -/
def State.countPassed (s : State) (rs : List RouteRec) : State :=
  (rs.filter fun r => decide (meridianAt (s.genN r.gen) (s.genD r.gen) r.frame < s.chrono)).foldl
    (fun u r => (u.bump Reg.EPH_LATE_COUNT 1).raise 0x2201 srcEph (slotObject r.out)) s

/-- Store a take of some routes: those of an immediate take are staged, 8 192 at most (R139). -/
def State.takeRoutes (s : State) (x : Ctx) (t : Take) : State :=
  let u := t.routes.foldl (fun u r => u.bindOutput r) s
  let rs := t.routes.map (s.withAudio t.mode t.ramp)
  let v := (u.addTake { t with routes := rs, mirrored := x.mirrored, session := x.session, tag := x.tag, entry := x.entry }).mirrorLate x
  if x.mirrored then v.countPassed rs else v

/-- A take with default fields. -/
def takeOf (rs : List RouteRec) : Take := ⟨0, 0, false, false, false, false, false, 0, 0, 0, 0, 0, 0, rs, false⟩

/-- The route blocks of a payload from offset `o`. -/
def blockOffsets (o n : Nat) : List Nat := (List.range n).map fun i => o + 8 * i

/-- No output is named twice: each block's output differs from those before it (R117, R147). -/
def outputsOnce (p : List Byte) (os : List Nat) : List (Nat × Bool) :=
  os.map fun o => (o, !(os.any fun x => decide (x < o) && routeOut p x == routeOut p o))

/-- FAB_ROUTE (R116). -/
def opFabRoute : OpSpec where
  code := 0x0200
  cls := .c
  keys := false
  length p := p.length == 8
  fields s p := s.routeFields p 0
  own s p := [(0, s.splitSettled p 0 (s.routeTime p 0 s.leadEnd))]
  units s p := s.routeUnits p 0
  locked _ _ := false
  cruise := true
  run s x p :=
    if 8192 ≤ s.eph.staged then Done.err s stBusy 0xFFFF
    else
      let g := s.routeGen p 0
      let f := s.routeFrame x g s.leadEnd
      Done.pending (s.takeRoutes x (takeOf [s.routeRec p 0 f])) (frameRefBytes g f)

/-- FAB_ROUTE_BATCH (R117). -/
def opFabRouteBatch : OpSpec where
  code := 0x0201
  cls := .c
  keys := false
  length p := decide (8 ≤ p.length) && p.length == 8 + 8 * u16 p 0
  fields s p :=
    let os := blockOffsets 8 (u16 p 0)
    [(0, decide (1 ≤ u16 p 0 ∧ u16 p 0 ≤ 1023)), (2, zeroAt p 2 2), (4, zeroAt p 4 4)] ++ os.flatMap (fun o => s.routeFields p o) ++ outputsOnce p os
  own s p := (blockOffsets 8 (u16 p 0)).map fun o => (o, s.splitSettled p o (s.routeTime p o s.leadEnd))
  units s p := (blockOffsets 8 (u16 p 0)).flatMap fun o => s.routeUnits p o
  locked _ _ := false
  cruise := true
  run s x p :=
    if 8192 < s.eph.staged + u16 p 0 then Done.err s stBusy 0xFFFF
    else
      let rs := (blockOffsets 8 (u16 p 0)).map fun o => s.routeRec p o (s.routeFrame x (s.routeGen p o) s.leadEnd)
      let gs := genFrames rs
      Done.pending (s.takeRoutes x (takeOf rs)) (be32 gs.length ++ gs.flatMap fun r => frameRefBytes r.1 r.2)

/-! ### Bonds (R118) -/

/-- The member slots of a bond definition. -/
def bondMembers (p : List Byte) : List Nat := (List.range (u8 p 0)).map fun i => u16 p (4 + 2 * i)

/-- Does a route use a bond: a current selection or a pending record that names one of its members, as an output of a bond with TX or as a
source of one with RX? -/
def State.bondUsed (s : State) (b : BondRec) : Bool :=
  let outs := if b.tx then b.members else []
  let srcs := if b.rx then b.members else []
  (s.connected.any fun q => outs.contains (q / 4) || srcs.contains (s.selCur q).src) ||
    s.eph.takes.any fun t => t.routes.any fun r => outs.contains r.out || (r.valid && srcs.contains r.source)

/-- FAB_BOND_DEFINE (R118). A DELETE may leave RX and TX clear, since the bond that it names has them already (DESIGN CHOICE, log entry
114). -/
def opFabBondDefine : OpSpec where
  emptyReply := true
  code := 0x0202
  cls := .c
  keys := false
  length p := p.length == 20
  fields s p :=
    let ms := bondMembers p
    let del := bit (u8 p 1) 0
    let old := s.fab.bonds.find? fun b => b.members.head? == some (u16 p 4)
    [(0, u8 p 0 == 2 || u8 p 0 == 4 || u8 p 0 == 8), (1, decide (u8 p 1 < 8) && (del || decide (2 ≤ u8 p 1 % 8))), (2, zeroAt p 2 2),
     (4, if del then (match old with
          | some b => !s.bondUsed b
          | none => false)
        else ms.all fun m => decide (u16 p 4 ≤ m))] ++
    (if del then [] else
      (List.range 8).map fun i =>
        let m := u16 p (4 + 2 * i)
        (4 + 2 * i,
          if i < u8 p 0 then
            decide (m < s.externalSlots) && (s.bondOf m).isNone && !s.srcSplit m && !s.outSplit m && !s.outSplitNext m &&
              (ms.filter (· == m)).length == 1 && (s.laneMode (m / 9) == 2) == (s.laneMode (u16 p 4 / 9) == 2)
          else m == 0xFFFF))
  units _ _ := [(0x0A, 0)]
  locked _ _ := false
  cruise := true
  run s _ p :=
    let b : BondRec := ⟨bondMembers p, bit (u8 p 1) 1, bit (u8 p 1) 2⟩
    let bonds := if bit (u8 p 1) 0 then s.fab.bonds.filter fun b => b.members.head? != some (u16 p 4) else s.fab.bonds ++ [b]
    Done.ok { s with fab := { s.fab with bonds := bonds } } []

/-! ### Queries (R119, R120) -/

/-- What is armed for the next Meridian of an output (Table 4.6): its source and frame, from the record that is admitted last of those due
there, else from an armed shadow. -/
def State.pendingOf (s : State) (k : Nat) : Option (Sel × Nat) :=
  let q := quarterIndex k
  let due := (s.eph.takes.flatMap fun t => t.routes.filter fun r => !r.loaded && decide (r.frame ≤ s.nextFrame r.gen)).flatMap fun r =>
    ((s.routeSels r).filter fun x => x.1 == q).map fun x => (x.2, r.frame)
  match due.getLast? with
  | some x => some x
  | none => if (s.shadow q).1 then some ((s.shadow q).2, s.nextFrame (s.selCur q).gen) else none

/-- One FAB_QUERY entry (Table 4.6). -/
def State.queryEntry (s : State) (k : Nat) : List Byte :=
  let x := s.selCur (quarterIndex k)
  let n := fullSlot k
  let pend := s.pendingOf k
  let kind : Nat := match s.fab.pool.find? fun p => p.port == n with
    | some p => (p.users.head?.map (·.1)).getD 0
    | none => 0
  let follow := (s.fab.pool.find? fun p => p.port == n).any (·.follow)
  let src := s.through x.src x.gen
  let st := b01 (isQuarter k) + 2 * b01 (s.outBond n).isSome + 4 * b01 (x.valid && (s.landingOut src).isSome) +
    8 * b01 pend.isSome + 16 * kind + 128 * b01 follow
  be16 (slotNo k) ++ be16 (if x.valid then slotNo x.src else 0xFFFF) ++
    be16 (match pend with
      | none => 0xFFFE
      | some r => if r.1.valid then slotNo r.1.src else 0xFFFF) ++
    be8 x.gen ++ be8 st ++ be64 ((pend.map fun r => r.2).getD 0)

/-- Entries of a full output slot: one, or one per quarter when it is split. -/
def State.slotEntries (s : State) (n : Nat) : List (List Byte) :=
  if s.outSplit n then (List.range 4).map fun q => s.queryEntry (0x10000 + 4 * n + q) else [s.queryEntry n]

/-- The slots of a FAB_QUERY whose entries all fit: at most 511 entries. -/
def State.queryRun (s : State) : Nat → Nat → Nat → List (List Byte)
  | 0, _, _ => []
  | c + 1, n, room =>
    let e := s.slotEntries n
    if room < e.length then [] else e ++ s.queryRun c (n + 1) (room - e.length)

/-- FAB_QUERY (R119). A run that leaves the outputs of the part, or passes the last one, is answered BAD_PARAM (DESIGN CHOICE, log entry
88). -/
def opFabQuery : OpSpec where
  code := 0x0203
  cls := .q
  keys := false
  length p := p.length == 4
  fields s p :=
    [(0, s.outputPresent (u16 p 0)),
     (2, decide (1 ≤ u16 p 2 ∧ u16 p 2 ≤ 511) && (List.range (u16 p 2)).all fun i => s.outputPresent (u16 p 0 + i))]
  units _ _ := [(0x0A, 0)]
  locked _ _ := false
  cruise := false
  run s _ p :=
    let es := s.queryRun (u16 p 2) (u16 p 0) 511
    Done.ok s (be32 es.length ++ es.flatten)

/-- One FAB_WINDOW_STATUS entry (Table 4.7). -/
def State.windowEntry (s : State) (k g : Nat) : List Byte :=
  let x := s.source k
  let o := x.at g
  let v : Int := (s.offset k g).getD offsetLost
  let read := !(s.readersNow k).isEmpty
  let lost := !x.carried
  let abs := (o.map fun y => y.value.natAbs).getD 0
  let measured := !lost && !x.noSignal && o.isSome
  let fl := b01 (measured && decide (s.rd Reg.FAB_WARN_NS < abs)) + 2 * b01 (measured && decide (((o.map (·.value)).getD 0) < -12000)) +
    4 * b01 (measured && decide ((12000 : Int) < ((o.map (·.value)).getD 0))) + 8 * b01 ((o.map (·.drift)).getD false && measured) +
    16 * b01 (x.noSignal || (lost && read)) + 32 * b01 (s.landingOf k g).isSome + 64 * b01 lost
  let recent := ((o.map (·.recent)).getD []).filter fun r => decide (s.now < r.1 + 10 ^ 9)
  let lo : Int := (recent.map fun r => r.2.1).foldl min v
  let hi : Int := (recent.map fun r => r.2.1).foldl max (if recent.isEmpty then v else (recent.headD (0, 0, 0)).2.1)
  be16 (slotNo k) ++ be16 fl ++ be32 (toBits 32 v) ++ be32 (toBits 32 lo) ++ be32 (toBits 32 hi) ++ be32 x.hdrCrc ++ be32 x.seqGap

/-- FAB_WINDOW_STATUS (R120). A split slot is reported by its quarters, as FAB_QUERY does; the count is of slots, and a run that passes slot
1535 is answered BAD_PARAM (DESIGN CHOICE, log entry 88). The frame count of the measurement is the generator's present EPH_GEN_FC_LO
(DESIGN CHOICE, log entry 89). Slots that the variant lacks are reported UNMEASURED (DESIGN CHOICE, log entry 126). -/
def opFabWindowStatus : OpSpec where
  code := 0x0204
  cls := .q
  keys := false
  length p := p.length == 8
  fields _ p := [(0, decide (u16 p 0 < 1536)), (2, decide (1 ≤ u16 p 2 ∧ u16 p 2 ≤ 341) && decide (u16 p 0 + u16 p 2 ≤ 1536)),
    (4, decide (u8 p 4 < 16)), (5, zeroAt p 5 3)]
  units _ p := [(0x0A, 0), (0x0B, u8 p 4)]
  locked _ _ := false
  cruise := false
  run s _ p :=
    let g := u8 p 4
    let es := ((List.range (u16 p 2)).flatMap fun i =>
      let n := u16 p 0 + i
      if s.srcSplit n then (List.range 4).map fun q => s.windowEntry (0x10000 + 4 * n + q) g else [s.windowEntry n g]).take 341
    Done.ok s (be16 es.length ++ be8 g ++ be8 0 ++ be32 (s.rd (Reg.EPH_GEN_FC_LO_F g)) ++ es.flatten)

/-! ### Landing (R121, R614) -/

/-- The number of a channel in handles and events: n, or 0x100 + m for a quarter channel. -/
def syncChan (p : List Byte) : Nat := u16 p 2 + 256 * b01 (bit (u8 p 5) 0)

def syncSource (p : List Byte) : Nat := slotKey (u16 p 0) (bit (u8 p 5) 0)

/-- Members of the source bond of a Landing group; 1 without BOND. -/
def State.syncSize (s : State) (p : List Byte) : Nat :=
  if bit (u8 p 5) 3 then ((s.bondNamed (u16 p 0)).map fun b => b.members.length).getD 0 else 1

/-- Is a channel, or a channel of the same synchroniser in use the other way, assigned? -/
def State.chanUsed (s : State) (c : Nat) : Bool :=
  s.fab.landing.any fun x =>
    x.chan == c || (decide (c < 0x100) && decide (0x100 ≤ x.chan) && (x.chan - 0x100) / 4 == c) ||
      (decide (0x100 ≤ c) && decide (x.chan < 0x100) && (c - 0x100) / 4 == x.chan)

/-- Assign one channel: record, three frame buffers, registers and follow port. -/
def State.assignChannel (s0 : State) (c : Landing) : State :=
  let al := s0.allocBuffer 1 c.chan c.set (3 * c.frameBytes)
  let s := al.2
  let r := fun (a b : Nat → FieldRef) => ldgReg a b c.chan
  let s1 := { s with fab := { s.fab with landing := s.fab.landing ++ [c] } }
  let s2 := (((s1.wr (r Reg.LDG_CTL_EN Reg.LDQ_CTL_EN) 1).wr (r Reg.LDG_CTL_LOSS_BLACK Reg.LDQ_CTL_LOSS_BLACK) (b01 c.lossBlack)).wr
    (r Reg.LDG_CTL_GEN Reg.LDQ_CTL_GEN) c.gen).wr (r Reg.LDG_SRC_SLOT Reg.LDQ_SRC_SLOT) (slotNo c.source)
  let s3 := (s2.wr64 (r Reg.LDG_BASE_LO_ADDR Reg.LDQ_BASE_LO_ADDR) (r Reg.LDG_BASE_HI_ADDR Reg.LDQ_BASE_HI_ADDR) al.1).wr
    (r Reg.LDG_FRAME_BYTES Reg.LDQ_FRAME_BYTES) c.frameBytes
  (s3.beginMeasure (landingSlot c.chan)).takePort 1 c.chan true c.source c.gen

/-- The assigned channels that a RELEASE of channel `c` frees: all of its Landing group, whichever channel of it is named (DESIGN CHOICE, log
entry 115). -/
def State.released (s : State) (c : Nat) : List Landing :=
  match s.fab.landing.find? fun x => x.chan == c && !x.releasing with
  | some y => s.fab.landing.filter fun x => y.inGroup x
  | none => []

/-- FAB_SYNC_ASSIGN (R121, R614). -/
def opFabSyncAssign : OpSpec where
  code := 0x0205
  cls := .c
  keys := false
  length p := p.length == 24
  fields s p :=
    let release := bit (u8 p 5) 1
    let quarter := bit (u8 p 5) 0
    let bond := bit (u8 p 5) 3
    let k := syncSource p
    let n := s.syncSize p
    let c := syncChan p
    let car := carriage (u16 p 8) (u16 p 10) (u8 p 12 == 1) (u8 p 13 == 1) (u32 p 16) (u32 p 20)
    [(0, release ||
        (s.sourceNamed k && !decide (1232 ≤ fullSlot k ∧ fullSlot k < 1296) && (s.landingOf k (u8 p 4)).isNone &&
          (if bond then !quarter && (match s.bondNamed (u16 p 0) with
              | some b => b.rx
              | none => false)
            else true))),
     (2, decide (u16 p 2 < (if quarter then 256 else 64)) &&
        if release then !s.present 0x0C (if quarter then u16 p 2 / 4 else u16 p 2) || !(s.released c).isEmpty
        else (!bond || (decide (0 < n) && u16 p 2 % n == 0)) &&
          (List.range (max n 1)).all fun i => !s.chanUsed (c + i)),
     (4, decide (u8 p 4 < 16) && s.genOn (u8 p 4)), (5, decide (u8 p 5 < 16) && !(bond && quarter)),
     (6, release || s.setUsable (u8 p 6)), (7, zeroAt p 7 1),
     (8, release || car.isSome), (12, decide (u8 p 12 < 2)), (13, decide (u8 p 13 < 2)), (14, zeroAt p 14 2),
     (16, release || rateOk (u32 p 16) (u32 p 20))]
  units s p :=
    let set := u8 p 6
    let full := if bit (u8 p 5) 0 then u16 p 2 / 4 else u16 p 2
    [(0x0A, 0), (0x0B, u8 p 4)] ++ (List.range (max (s.syncSize p) 1)).map (fun i => (0x0C, full + i)) ++
      if bit (u8 p 5) 1 then [] else s.setUnits set
  locked _ _ := false
  cruise := true
  run s x p :=
    let c := syncChan p
    let at_ := s.leadEnd
    let reply := be32 (0x00060000 + c) ++ be16 (slotNo (landingSlot c)) ++ zeros 2
    if bit (u8 p 5) 1 then
      let ls := s.fab.landing.map fun y =>
        if (s.released c).contains y then { y with releasing := true, relAt := at_, relSession := x.session, relTag := x.tag, relEntry := x.entry } else y
      Done.pending { s with fab := { s.fab with landing := ls } } reply
    else
      let n := s.syncSize p
      let ms := if bit (u8 p 5) 3 then ((s.bondNamed (u16 p 0)).map (·.members)).getD [] else [syncSource p]
      let s1 := ms.zipIdx.foldl (fun t m => t.assignChannel
        ⟨c + m.2, m.1, u8 p 4, bit (u8 p 5) 2, c, n, m.2, u8 p 6, u16 p 8, u16 p 10, u8 p 12 == 1, u8 p 13 == 1, u32 p 16, u32 p 20,
         0x00060000 + c, x.session, x.tag, false, at_, false, 0xFFFF, 0, 0, none, [], [], none, some s.now, none, false, [], none, x.entry, 0⟩) s
      Done.pending s1 reply

/-! ### Events of the fabric -/

/-- Units of the fabric that must run for its events. -/
def State.fabricRuns (s : State) : Bool := s.domOn 36 && !s.shutIn 0x0A 0

/-- FAB_ROUTE. -/
def execFabRoute (dt : Nat) (rq : Req) (s : State) : Host.Outcome State Fault Refusal := .next (serve opFabRoute dt rq s)

/-- FAB_ROUTE_BATCH. -/
def execFabRouteBatch (dt : Nat) (rq : Req) (s : State) : Host.Outcome State Fault Refusal := .next (serve opFabRouteBatch dt rq s)

/-- FAB_BOND_DEFINE. -/
def execFabBondDefine (dt : Nat) (rq : Req) (s : State) : Host.Outcome State Fault Refusal := .next (serve opFabBondDefine dt rq s)

/-- FAB_QUERY. -/
def execFabQuery (dt : Nat) (rq : Req) (s : State) : Host.Outcome State Fault Refusal := .next (serve opFabQuery dt rq s)

/-- FAB_WINDOW_STATUS. -/
def execFabWindowStatus (dt : Nat) (rq : Req) (s : State) : Host.Outcome State Fault Refusal := .next (serve opFabWindowStatus dt rq s)

/-- FAB_SYNC_ASSIGN. -/
def execFabSyncAssign (dt : Nat) (rq : Req) (s : State) : Host.Outcome State Fault Refusal := .next (serve opFabSyncAssign dt rq s)

/-- FABRIC_CELL_WRITE (R95): a writer delivers a cell. At the boundary of an isolated fabric it is discarded and counted (R11). -/
def execFabricCellWrite (dt : Nat) (w : Writer) (cell : List Byte) (s : State) : Host.Outcome State Fault Refusal :=
  let s1 := (s.elapse dt).followReads
  .next (if s1.fabricRuns then s1.fabricWrite w cell else if s1.domOn 36 then s1.boundaryLost cell else s1)

/-- OUTPUT_CELL_READ (R96): an output port reaches a cell time, at a line, a cell index and a cell type. -/
def execOutputCellRead (dt q line index type : Nat) (s : State) : Host.Outcome State Fault Refusal :=
  let s1 := (s.elapse dt).followReads
  .next (if s1.fabricRuns ∧ s1.outputPresent (q / 4) then s1.outputRead q line index type else s1)

/-- CELL_AGE_EXPIRY (R97): every stored cell that has reached 32 000 ns of residence is freed and counted. -/
def execCellAgeExpiry (dt : Nat) (s : State) : Host.Outcome State Fault Refusal :=
  let s1 := (s.elapse dt).followReads.deckSweep
  let old := s1.fab.deck.filter fun c => decide (c.arrival + 32000 ≤ s1.now)
  let kept := s1.fab.deck.filter fun c => !decide (c.arrival + 32000 ≤ s1.now)
  let s2 := { s1 with fab := { s1.fab with deck := kept } }.bump Reg.FAB_LD_EXPIRED_COUNT old.length
  .next ((old.filter fun c => !c.wasRead).foldl (fun t c => t.raiseWithin (t.sourceGap c.slot) 0x200A srcFabric (slotObject c.slot)) s2)

/-- SOURCE_NO_SIGNAL (R100): a source that has carried cells and is read has had no SOF for 2 frame periods. -/
def execSourceNoSignal (dt n : Nat) (quarter : Bool) (s : State) : Host.Outcome State Fault Refusal :=
  let s1 := (s.elapse dt).followReads
  let k := slotKey n quarter
  let x := s1.source k
  .next (match x.lastSof with
    | none => s1
    | some t =>
      let period := x.periods.headD ((s1.timedGens k).head?.elim 16683334 s1.genPeriod)
      if x.carried ∧ t + 2 * period ≤ s1.now then
        let s2 := s1.putSource { x with noSignal := true }
        if (s2.readersNow k).isEmpty then s2 else s2.raiseWithin period 0x2005 srcFabric (slotObject k)
      else s1)

/-- LDG_LOSS (R114): a Landing channel has seen no SOF for 2 output frame periods. -/
def execLdgLoss (dt chan : Nat) (s : State) : Host.Outcome State Fault Refusal :=
  let s1 := (s.elapse dt).followReads
  .next (match s1.fab.landing.find? fun c => c.chan == chan with
    | none => s1
    | some c =>
      if c.lost.isNone ∧ (c.lastSof.getD 0) + 2 * s1.genPeriod c.gen ≤ s1.now then
        (s1.landingAlarm 0x2101 chan).landingLost c s1.now
      else s1)

/-- The frame that every channel of a group selects: the newest that is complete in all of them by now (R113, R614). -/
def State.groupFrame (s : State) (first gen : Nat) : Option Nat :=
  let cs := s.fab.landing.filter fun c => c.first == first && c.gen == gen
  match cs with
  | [] => none
  | c :: _ => (c.done.map fun d => d.1).find? fun t => cs.all fun x => x.done.any fun d => d.1 == t && decide (d.2.2 ≤ s.now)

/-- One channel selects at M0 − 15 µs: frame `t` when one is new, else the frame it read before, repeated; black from the third Meridian
after its loss on with LOSS_BLACK, and while it has never completed a frame (R113, R114). -/
def State.selectFrame (s : State) (c : Landing) (t : Option Nat) : State :=
  let r := fun (a b : Nat → FieldRef) => ldgReg a b c.chan
  let lossN : Nat := (c.lost.map (·.2)).getD 0
  let s0 := [0x2101, 0x2102, 0x2103, 0x2104].foldl (fun u code => u.ageCause code srcLanding c.chan (s.now - s.genPeriod c.gen)) s
  match t.bind fun tag => c.done.find? fun d => d.1 == tag with
  | some d =>
    (s0.bump (r Reg.LDG_FRAMES_OUT_COUNT Reg.LDQ_FRAMES_OUT_COUNT) 1).putLanding { c with reading := some (d.1, d.2.1), done := [], black := false }
  | none =>
    if c.reading.isNone ∨ (c.lossBlack ∧ c.lost.isSome ∧ 2 ≤ lossN) then s0.putLanding { c with black := true }
    else
      ((s0.bump (r Reg.LDG_FRAMES_OUT_COUNT Reg.LDQ_FRAMES_OUT_COUNT) 1).bump (r Reg.LDG_REPEAT_COUNT Reg.LDQ_REPEAT_COUNT) 1).putLanding
        { c with black := false }

/-- LANDING_FRAME_SELECT (R113): at M0 − 15 µs a channel, or all channels of its Landing group in step, select. -/
def execLandingFrameSelect (dt chan : Nat) (s : State) : Host.Outcome State Fault Refusal :=
  let s1 := (s.elapse dt).followReads
  .next (match s1.fab.landing.find? fun c => c.chan == chan with
    | none => s1
    | some c =>
      if c.member ≠ 0 ∨ !s1.fabricRuns then s1
      else
        let t := s1.groupFrame c.first c.gen
        (s1.fab.landing.filter fun x => x.first == c.first && x.gen == c.gen).foldl (fun u x => u.selectFrame x t) s1)

end Sys2Proof.Machine
end

