-- ==== Sys2Proof/Machine/FlowCmds.lean ====
section
/-!
DEFINITION. The flow commands NET_FLOW_RX, NET_FLOW_TX and NET_FLOW_DEL (R275-R277) and the events of the packet
engines (R247-R273).
-/
namespace Sys2Proof.Machine

/-! ### The request payload (Tables 9.5-9.7) -/

/-- A receive leg at an offset of the payload. -/
def rxLeg (p : List Byte) (o now : Nat) : FlowLeg where
  dest := beNat (bytesAt p o 16)
  sideA := beNat (bytesAt p (o + 32) 16)
  sideB := beNat (bytesAt p (o + 48) 16)
  filter := beNat (bytesAt p (o + 16) 16)
  destMac := 0
  vlan := u16 p (o + 68)
  udpSrc := 0
  udpDst := u16 p (o + 66)
  port := u16 p (o + 64)
  dscp := 0
  sides := 0
  packets := 0
  linkDown := 0
  lastAccept := now
  reports := 0
  reportAt := 0

/-- A send leg at an offset of the payload. -/
def txLeg (p : List Byte) (o now : Nat) : FlowLeg where
  dest := beNat (bytesAt p o 16)
  sideA := beNat (bytesAt p (o + 16) 16)
  sideB := beNat (bytesAt p (o + 32) 16)
  filter := 0
  destMac := u48 p (o + 48)
  vlan := u16 p (o + 54)
  udpSrc := u16 p (o + 56)
  udpDst := u16 p (o + 58)
  port := u16 p (o + 60)
  dscp := u8 p (o + 62)
  sides := u8 p (o + 63)
  packets := 0
  linkDown := 0
  lastAccept := now
  reports := 0
  reportAt := 0

/-- Offset of leg B. -/
def legBAt (tx : Bool) : Nat := if tx then 112 else 104

/-- The flow that a payload describes, before it has an index and an engine. -/
def flowOfPayload (tx : Bool) (p : List Byte) (now : Nat) : Flow where
  index := 0
  tx := tx
  kind := u8 p 0
  ipv6 := bit (u8 p 1) 0
  quarter := bit (u8 p 1) 2
  bond := bit (u8 p 1) 3
  assoc := bit (u8 p 1) 4
  opt := bit (u8 p 1) 5
  linear := tx && bit (u8 p 1) 6
  srtp := tx && bit (u8 p 1) 7
  slot := u16 p 2
  encoder := u32 p 4
  pt := u8 p 8
  interlaced := u8 p 9 == 1
  sampling := u8 p 10
  audio := u8 p 11
  width := u16 p 12
  height := u16 p 14
  rateN := u32 p 16
  rateD := u32 p 20
  timing := u32 p 24
  lmax := if u16 p 28 = 0 then 1200 else u16 p 28
  vslot := u16 p 30
  vgen := 0
  salt := if tx then bytesAt p 36 12 else []
  legs := (if tx then txLeg p 48 now else rxLeg p 32 now) ::
    (if bit (u8 p 1) 1 then [if tx then txLeg p 112 now else rxLeg p 104 now] else [])
  engine := 0
  c0 := 0
  c1 := 0
  c2 := 0
  c3 := 0
  c4 := 0
  c5 := 0
  c6 := 0
  ts := 0
  margins := []
  judged := none
  got := []
  highest := 0
  atOnce := []
  lastAccept := now
  lastTa := none
  loss := false
  store := []
  frames := []
  releasing := none
  cells := []
  cellNo := 0
  next := none
  startAt := 0
  moved := none
  ancBad := 0
  seq := if tx then u32 p 32 else 0
  srtpIndex := if tx && bit (u8 p 1) 7 then u32 p 32 % 65536 else 0
  revoked := false
  idleFrame := none
  deleting := none
  legBGone := (0, 0)

/-- Lanes' slot numbers of the flow's leg-A port (R19, R250). -/
def State.slotOfPort (s : State) (f : Flow) (n : Nat) : Bool :=
  let p := ((f.legs.head?).map fun (g : FlowLeg) => g.port).getD 0
  decide (9 * p ≤ n ∧ n < 9 * (p + modeLanes (s.rd (Reg.NET_CTL_MODE p))))

/-- The slot of a flow: in its port's range, not taken by a flow of the same kind and direction, split as the target
asks; a bond target is a bond of the port's numbers defined for the direction (R250). -/
def State.flowSlotOk (s : State) (f : Flow) : Bool :=
  if f.onSlot then
    let n := fullSlot f.slotKey
    let others := s.net.flows.filter fun x => x.tx == f.tx && x.onSlot
    let mine := others.filter fun x => fullSlot x.slotKey == n
    let bonded := s.fab.bonds.any fun b => (if f.tx then b.tx else b.rx) && b.members.contains n
    let routed := if f.tx then (s.selCur (4 * n)).valid && !s.outSplit n else !(s.readers n).isEmpty
    s.slotOfPort f n && (f.isAudio || !(others.any fun x => x.kind == f.kind && x.slotKey == f.slotKey)) &&
      (if f.quarter then !f.bond && !bonded && !(mine.any fun x => !x.quarter) && (s.flowSplit n f.tx || !routed)
      else !(mine.any fun x => x.quarter) &&
        (if f.bond then
          match s.fab.bonds.find? fun b => b.members.head? == some f.slot with
          | some b => (if f.tx then b.tx else b.rx) && b.members.all (s.slotOfPort f)
          | none => false
        else !bonded))
  else if f.isAudio then
    !f.quarter && !f.bond && decide (f.slot + f.width ≤ 8192)
  else decide (f.slot = 0) && !f.quarter && !f.bond

/-- The number of bond members of a flow's target. -/
def State.flowWidth (s : State) (f : Flow) : Nat := if f.bond then ((s.bondNamed f.slot).map fun (b : BondRec) => b.members.length).getD 0 else b01 (!f.quarter)

/-- Width and height: the format of a video flow is carried by its target (Table 1.9); the channels of an audio flow fit
its packet (R248, R251). `n`, `d`: the frame rate. -/
def State.flowFormatOk (s : State) (f : Flow) (n d : Nat) : Bool :=
  if f.isAudio then
    decide (1 ≤ f.width ∧ f.width ≤ 64) && decide (f.width * f.perPacket * f.sampleBytes ≤ 1440) &&
      (f.kind != 4 || (decide (f.width % 2 = 0))) && (!f.assoc || decide (f.width ≤ 16))
  else if f.kind = 7 ∨ f.kind = 8 then true
  else
    match carriage f.width f.height f.interlaced (f.sampling != 0) n d with
    | none => false
    | some c => f.kind == 2 || f.kind == 5 || c == s.flowWidth f

/-- Smallest and greatest playout offset P (R255). -/
def Flow.playoutOk (f : Flow) : Bool :=
  if f.isAudio then decide (f.perPacket * 10 ^ 9 / f.fs + 100000 ≤ f.timing ∧ f.timing ≤ 4000000) else decide (f.timing ≤ 1000000)

/-- Is an address field well formed: an IPv4 address stands in the last 4 bytes, the rest 0? -/
def addressOk (ipv6 : Bool) (p : List Byte) (o : Nat) : Nat × Bool := (o, ipv6 || zeroAt p o 12)

/-- The field checks that both directions share (Table 9.5). -/
def State.flowFields (s : State) (tx : Bool) (p : List Byte) : List (Nat × Bool) :=
  let f := flowOfPayload tx p 0
  let n := if tx then s.genN (s.flowGen f) else f.rateN
  let d := if tx then s.genD (s.flowGen f) else f.rateD
  let legs : List Nat := if tx then [48, 112] else [32, 104]
  let used := legs.take f.legs.length
  [(0, decide (1 ≤ f.kind ∧ f.kind ≤ if tx then 8 else 6)),
   (1, (tx || decide (u8 p 1 < 64)) && (f.isAudio || !f.assoc) && (f.kind != 6 || f.quarter) &&
     (!f.srtp || f.kind == 2 || f.kind == 7 || f.kind == 8) && (!f.linear || f.kind == 1) && (!tx || !f.opt || f.kind == 1)),
   (2, s.flowSlotOk f), (9, decide (u8 p 9 ≤ 1)), (10, decide (f.sampling ≤ 2)),
   (11, decide (f.audio % 16 ≤ 2 ∧ f.audio < 64) && (f.kind != 4 || decide (f.audio < 16))),
   (12, s.flowFormatOk f n d), (28, decide (1 ≤ f.lmax ∧ f.lmax ≤ 8960))] ++
  used.flatMap (fun o =>
    let g := if tx then txLeg p o 0 else rxLeg p o 0
    [addressOk f.ipv6 p o, (if tx then o + 60 else o + 64, decide (g.port < 64) && s.portFormed g.port),
     addressOk f.ipv6 p (o + 16), addressOk f.ipv6 p (o + 32), (if tx then o + 62 else o + 48, if tx then decide (u8 p (o + 62) < 64) else (addressOk f.ipv6 p (o + 48)).2),
     (if tx then o + 63 else o + 68, if tx then decide (u8 p (o + 63) < 4) else decide (u16 p (o + 68) < 4096)), (o + 70, tx || zeroAt p (o + 70) 2)]) ++
  (if f.legs.length = 1 then [(legBAt tx, zeroAt p (legBAt tx) (if tx then 64 else 72))] else [])

/-- The lowest free index of flows of a direction. -/
def State.freeFlow (s : State) (tx : Bool) : Option Nat := (List.range 2048).find? fun i => (s.flow tx i).isNone

/-- The reply of a created flow (R275): handle, engine, target and the wire rate of a leg. -/
def State.flowReply (s : State) (f : Flow) : List Byte :=
  be32 f.handle ++ be8 f.engine ++ be8 0 ++ be16 f.slot ++ be64 ((f.legs.head?.map fun (g : FlowLeg) => s.wireRate f g).getD 0)

/-- Units that a flow addresses: its ports, and the Vault for an SRTP key. -/
def flowUnits (tx : Bool) (p : List Byte) : List (Nat × Nat) :=
  let f := flowOfPayload tx p 0
  (f.legs.map fun (g : FlowLeg) => (0x13, g.port)) ++ if f.srtp then [(5, 0)] else []

/-! ### NET_FLOW_RX (R275) -/

def opNetFlowRx : OpSpec where
  code := 0x0501
  cls := .c
  keys := false
  length p := p.length == 176
  fields s p :=
    let f := flowOfPayload false p 0
    s.flowFields false p ++ [(4, zeroAt p 4 4), (8, decide (f.pt < 128)), (16, f.isAudio || decide (f.rateN ≠ 0)), (20, f.isAudio || decide (f.rateD ≠ 0)),
      (24, f.playoutOk), (30, zeroAt p 30 2)]
  units _ p := flowUnits false p
  locked _ _ := false
  cruise := true
  run s _ p :=
    let f := flowOfPayload false p s.now
    match s.freeFlow false, s.pickEngine f with
    | none, _ => Done.err s stResource 0xFFFF
    | _, none => ⟨s, stNotReady, detail 0xFFFF 0x18 0xFFFFFFFF, []⟩
    | some i, some e =>
      let f1 := { f with index := i, engine := e }
      let f2 := { f1 with legs := f1.legs.map fun (g : FlowLeg) => if isGroup f.ipv6 g.dest then { g with reports := 1, reportAt := s.now } else g }
      let s1 := { s with net := { s.net with flows := s.net.flows ++ [f2], lastFlow := f2.handle } }
      let s2 := if f.onSlot ∧ !f.isAudio then (s1.flowMembers f2).foldl (fun t m => t.beginMeasure (slotKey m f.quarter)) s1 else s1
      let s3 := f2.legs.foldl (fun t g => t.sendReport f2 g (if f2.opt then 5 else 4)) s2
      Done.ok s3 (s3.flowReply f2)

/-! ### NET_FLOW_TX (R276) -/

/-- Do two send legs break R266: the same port for one side? -/
def Flow.sidesOk (f : Flow) : Bool :=
  match f.legs with
  | [a, b] => a.port != b.port || (Nat.land a.sides b.sides == 0)
  | _ => true

def opNetFlowTx : OpSpec where
  code := 0x0502
  cls := .c
  keys := false
  length p := p.length == 176
  fields s p :=
    let f := flowOfPayload true p 0
    let tro := f.troMin (s.flowMembers f).length (s.genN (s.flowGen f)) (s.genD (s.flowGen f))
    let coded := f.kind == 2 || f.kind == 7 || f.kind == 8
    s.flowFields true p ++ [(4, if coded then s.encoderKnown f.kind f.encoder else decide (f.encoder = 0)), (8, decide (96 ≤ f.pt ∧ f.pt ≤ 127)), (16, zeroAt p 16 8),
      (24, if coded ∨ f.isAudio then decide (f.timing ≤ 40000) else decide (f.timing = 0 ∨ (tro ≤ f.timing ∧ f.timing ≤ 40000))),
      (28, !(f.kind == 1 && f.opt) || decide (f.lmax % 180 = 0)), (30, f.srtp || zeroAt p 30 2), (32, coded || zeroAt p 32 4),
      (36, f.srtp || zeroAt p 36 12), (63, f.sidesOk)]
  units _ p := flowUnits true p
  locked _ _ := false
  cruise := true
  run s _ p :=
    let f := flowOfPayload true p s.now
    let st := if f.srtp then s.slotStatus f.vslot .srtp else 0
    if st ≠ 0 then Done.err s st (if st = stBadParam then 54 else 0xFFFF)
    else
      match s.freeFlow true, s.pickEngine f with
      | none, _ => Done.err s stResource 0xFFFF
      | _, none => ⟨s, stNotReady, detail 0xFFFF 0x18 0xFFFFFFFF, []⟩
      | some i, some e =>
        let f1 := { f with index := i, engine := e, startAt := s.leadEnd, vgen := if f.srtp then (s.slot f.vslot).gen else 0 }
        let s1 := { s with net := { s.net with flows := s.net.flows ++ [f1], lastFlow := f1.handle } }
        Done.ok s1 (s1.flowReply f1)

/-! ### NET_FLOW_DEL (R277) -/

/-- The flow of a handle. -/
def State.flowByHandle (s : State) (h : Nat) : Option Flow := s.net.flows.find? fun f => f.handle == h

/-- Is a frame of a flow in progress? -/
def Flow.busy (f : Flow) : Bool :=
  if f.tx then (match f.next with
    | some (_, i) => decide (0 < i)
    | none => false)
  else f.releasing.isSome

def opNetFlowDel : OpSpec where
  code := 0x0503
  cls := .c
  keys := false
  length p := p.length == 8
  fields s p :=
    [(0, match s.flowByHandle (u32 p 0) with
      | none => false
      | some f => !(f.kind == 2 && !f.tx && s.decoderNames f.handle)),
     (4, decide (u8 p 4 < 2) && (u8 p 4 == 0 || ((s.flowByHandle (u32 p 0)).map fun (f : Flow) => f.legs.length == 2).getD false)), (5, zeroAt p 5 3)]
  units _ _ := []
  locked _ _ := false
  cruise := false
  run s x p :=
    match s.flowByHandle (u32 p 0) with
    | none => Done.err s stBadParam 24
    | some f =>
      let legB := u8 p 4 == 1
      if f.deleting.isSome then Done.err s stBusy 0xFFFF
      else if f.busy then
        Done.pending ((s.putFlow { f with deleting := some legB }).await ⟨x.tag, x.session, x.entry, .object 9 f.handle, none⟩) []
      else Done.pending ((s.removeFlow f legB).await ⟨x.tag, x.session, x.entry, .instant s.now, none⟩) []

def execNetFlowRx (dt : Nat) (rq : Req) (s : State) : Host.Outcome State Fault Refusal := .next (serve opNetFlowRx dt rq s)

def execNetFlowTx (dt : Nat) (rq : Req) (s : State) : Host.Outcome State Fault Refusal := .next (serve opNetFlowTx dt rq s)

def execNetFlowDel (dt : Nat) (rq : Req) (s : State) : Host.Outcome State Fault Refusal := .next (serve opNetFlowDel dt rq s)

/-! ### Receiving (R254-R261) -/

/-- A UDP payload that is RTCP, which the part discards (R247): a packet to the port of a flow whose second byte is 192 to 223, as RFC 5761 has
them apart. RTCP to another port belongs to no flow (DESIGN CHOICE, log entry 134). -/
def isRtcp (u : List Byte) : Bool := decide (192 ≤ u8 u 1 ∧ u8 u 1 ≤ 223)

/-- FLOW_PACKET_RECEIVE (R256): a frame, FCS included, whose headers name a leg of a receive flow. `full`: the engine's
input has no room for it; `given`: what the payload of kinds 2, 5 and 6 says under its own format. -/
def execFlowPacketReceive (dt p : Nat) (bytes : List Byte) (full : Bool) (given : Given) (s : State) : Host.Outcome State Fault Refusal :=
  let s1 := s.elapse dt
  .next (if !s1.portOn p ∨ !s1.linkUp p then s1
    else
      let r := s1.macTake p bytes full
      match r.2 with
      | none => r.1
      | some b =>
        let m := r.1.macsecTake p b
        match m.2 with
        | none => m.1
        | some (c, _, _) =>
          match m.1.flowOf p c with
          | none => m.1
          | some (f, leg) =>
            let h := headers c
            let u := bytesAt c (h.l4 + 8) (u16 c (h.l4 + 4) - 8)
            if isRtcp u then m.1
            else
              let g := f.modLeg leg fun l => { l with packets := l.packets + 1 }
              if !ipCsumOk c ∨ !l4CsumOk c then (m.1.putFlow { g with c5 := g.c5 + 1 }).flowEvent g 0x2608 0
              else m.1.flowTake g leg u given)

/-- The next line period that a receive flow releases. -/
def Flow.coming (f : Flow) : Option (Nat × Nat) :=
  match f.releasing with
  | some r => some r
  | none => f.frames.head?.map fun (y : Nat × Option Nat) => (y.1, 0)

/-- Line periods of a frame. -/
def Flow.periods (f : Flow) : Nat := vTotal f.height

/-- The frame of a video flow has been released: its media is gone, and a deletion that waited for it follows. -/
def State.frameReleased (s : State) (f : Flow) (frame : Nat) : State :=
  let g := { f with releasing := none, cells := [], cellNo := 0, store := f.store.filter fun p => decide (frame < p.frame), frames := f.frames.filter fun x => x.1 != frame }
  (s.putFlow g).flowEnded g

/-- The next line period of a video flow is released, when its time has come and the last one is written: its packets are judged, and
its cells fall due. -/
def State.nextLine (s : State) (x : Flow) : State :=
  match x.coming with
  | none => s
  | some (fr, i) =>
    let ta := ((x.frames.find? fun y => y.1 == fr).map fun (y : Nat × Option Nat) => y.2).getD none
    if !x.cells.isEmpty ∨ s.chrono < x.release fr ta i then s
    else
      let j := x.judge fr i
      let s1 := if 0 < j.2 then (s.putFlow j.1).flowEvent x 0x2605 0 else s.putFlow j.1
      s1.releaseLine j.1 fr i

/-- A video flow whose last line period is written has released its frame. -/
def State.frameOver (s : State) (x : Flow) : State :=
  match x.releasing with
  | none => s
  | some (fr, i) => if x.cells.isEmpty && decide (x.periods ≤ i) then s.frameReleased x fr else s

/-- Carry on with a receive flow as it stands. -/
def State.withFlow (s : State) (i : Nat) (g : State → Flow → State) : State :=
  match s.flow false i with
  | none => s
  | some x => g s x

/-- FLOW_LINE_RELEASE (R255, R257): the cells of a video flow that are due are written, and its next line period is released when its
time has come; or the due samples of an audio flow are handed over. Sequence numbers that neither leg delivered by then count as LOST. -/
def execFlowLineRelease (dt f : Nat) (s : State) : Host.Outcome State Fault Refusal :=
  let s1 := s.elapse dt
  .next (match s1.flow false f with
    | none => s1
    | some x =>
      if x.isAudio then
        let due := x.got.filter fun y => decide (x.sampleRelease y.2.1 ≤ s1.chrono)
        let k := due.foldl (fun m y => max m y.2.1) 0
        let j := x.judge (k + 1) 0
        let s2 := if due.isEmpty then s1 else s1.putFlow j.1
        let s3 := if 0 < j.2 then s2.flowEvent x 0x2605 0 else s2
        s3.releaseAudio ((s3.flow false f).getD x)
      else
        let s2 := (s1.writeCells x).withFlow f State.nextLine
        (s2.withFlow f State.writeCells).withFlow f State.frameOver)

/-- FLOW_LOSS (R260): no packet of a receive flow has been accepted for the loss time; its slot delivers slot-idle. -/
def execFlowLoss (dt f : Nat) (s : State) : Host.Outcome State Fault Refusal :=
  let s1 := s.elapse dt
  .next (match s1.flow false f with
    | none => s1
    | some x => if s1.now < x.lastAccept + x.lossTime then s1 else ((s1.putFlow { x with loss := true }).flowEvent x 0x2601 0).flowIdle x)

/-! ### Sending (R262-R268) -/

/-- The place in the stream from which sending starts at `t`: the first frame whose Meridian lies at or after it, or the first packet
whose first sample lies at or after that Meridian; IP channels, which no output carries, start at `t` itself (R276). -/
def State.flowStart (s : State) (f : Flow) (t : Nat) : Nat × Nat :=
  let g := s.flowGen f
  let m := s.target g t
  let first := if f.isAudio && f.assoc then meridianAt (s.genN g) (s.genD g) m else t
  if f.isAudio then ((countAt first f.fs + f.perPacket - 1) / max 1 f.perPacket, 0) else (m, 0)

/-- The X cells that packet `i` of a kind 5 frame carries, in the order of their emission: those of a quarter of the line periods of its field
(R263). -/
def Flow.ancCells (f : Flow) (frame i : Nat) : List (List Byte) :=
  let vt := vTotal f.height
  let per : Nat := if f.interlaced then 2 else 1
  let base : Nat := if f.interlaced ∧ 4 ≤ i then 563 else 0
  ((f.store.filter fun p => p.kind == 2 && p.frame == frame && decide (base ≤ p.line) && decide (i % 4 * vt ≤ (p.line - base) * 4 * per) &&
    decide ((p.line - base) * 4 * per < (i % 4 + 1) * vt)).map fun (p : Piece) => p.bytes).reverse

/-- How many of the X cells of a packet fit L_max; the others are dropped (R263). -/
def Flow.ancFit (f : Flow) (cells : List (List Byte)) : Nat :=
  (List.range (cells.length + 1)).foldl (fun b k => if (Config.ancData (cells.take k)).length ≤ f.lmax then k else b) 0

/-- The payload of packet `i` of a kind 5 frame: the extended number, Length, ANC_Count and F, and the ANC data; ANC_Count 0 where there is
none (R263; PRESUMED: RFC 8331, log entry 32). -/
def Flow.ancPayload (f : Flow) (n d frame i : Nat) : List Byte :=
  let cells := (f.ancCells frame i).take (f.ancFit (f.ancCells frame i))
  let data := if cells.isEmpty then [] else (Config.ancData cells).take f.lmax
  be16 (f.seqOf n d frame i / 65536) ++ be16 data.length ++ be8 (if cells.isEmpty then 0 else (Config.ancCount cells).toNat) ++
    be8 (if f.interlaced then (if 4 ≤ i then 0xC0 else 0x80) else 0) ++ be16 0 ++ data

/-- The X cells that packet `i` of a frame drops. -/
def Flow.ancDropped (f : Flow) (frame i : Nat) : Nat := if f.kind = 5 then (f.ancCells frame i).length - f.ancFit (f.ancCells frame i) else 0

/-- The payload of packet `i` of a kind 6 frame: the raster rebuilt from the cells up to the line that it ends in, under an HBRMT header in which
the part names its clock (R249, R263). -/
def Flow.sdiPayload (f : Flow) (n d frame i : Nat) : List Byte :=
  let cf : Nat := if d = 1001 then 3 else 2
  let last := (11008 * (i + 1) - 1) / 20 / (sdiBits n d / 22500)
  let cells := ((f.store.filter fun p => p.frame == frame && decide (p.line ≤ last)).map fun (p : Piece) => (p.kind, p.line, p.off, p.bytes)).reverse
  let b := Config.sdiPacket n d frame i cells
  putAt b 2 (be16 (u16 b 2 / 512 * 512 + 32 * cf + u16 b 2 % 32))

/-- The RTP payload of packet `i` of frame `frame`, made of the cells that the output has emitted (R248, R249, R263). -/
def Flow.payload (f : Flow) (n d frame i : Nat) : List Byte :=
  if f.kind = 1 then f.videoPayload n d frame i
  else if f.isAudio then f.audioPayload frame
  else if f.kind = 5 then f.ancPayload n d frame i
  else f.sdiPayload n d frame i

/-- The place after packet `i` of a frame. -/
def Flow.after (f : Flow) (n d frame i : Nat) : Nat × Nat :=
  if f.isAudio ∨ f.packets n d ≤ i + 1 then (frame + 1, 0) else (frame, i + 1)

/-- The flow goes on to a place; past the frame that a step has made long, sending resumes at the new Meridian (R267). -/
def Flow.goOn (f : Flow) (place : Nat × Nat) : Flow :=
  match f.moved with
  | some (last, _) => if last < place.1 then { f with next := none, moved := none } else { f with next := some place }
  | none => { f with next := some place }

/-- FLOW_PACKET_LAUNCH (R263-R267): the next packet of a send flow of kinds 1, 3, 4, 5 and 6 is built and goes to its
legs, at its launch time or as soon after it as the engine can. -/
def execFlowPacketLaunch (dt f : Nat) (s : State) : Host.Outcome State Fault Refusal :=
  let s1 := s.elapse dt
  .next (match s1.flow true f with
    | none => s1
    | some x =>
      if x.kind = 2 ∨ x.kind = 7 ∨ x.kind = 8 then s1
      else
        let n := s1.genN (s1.flowGen x)
        let d := s1.genD (s1.flowGen x)
        let place := x.next.getD (s1.flowStart x x.startAt)
        let launch := s1.launchAt x place.1 place.2
        if s1.chrono < launch then s1
        else
          let y := x.goOn (x.after n d place.1 place.2)
          let idle := x.onSlot && s1.outputIdle x.slotKey
          let frame := if x.isAudio then frameAt n d launch else place.1
          let s2 :=
            if idle then
              s1.putFlow { y with c6 := y.c6 + b01 (y.idleFrame != some frame), idleFrame := some frame }
            else if launch + 40000 ≤ s1.chrono then ((s1.schedule y).modSend f fun z => { z with c1 := z.c1 + 1 }).flowEvent y 0x2609 0
            else s1.sendPacket { y with ancBad := y.ancBad + x.ancDropped place.1 place.2 } (!x.isAudio && x.marker n d place.2)
              (x.seqOf n d place.1 place.2) (x.tsOf n d place.1 place.2) launch (x.payload n d place.1 place.2)
          if (x.after n d place.1 place.2).2 = 0 then s2.flowEnded ((s2.flow true f).getD y) else s2)

/-- The packets of leg `leg` of send flow `f` that still wait 40 000 ns after their launch time, by number. -/
def State.latePackets (s : State) (f leg : Nat) (g : FlowLeg) : List Nat :=
  (s.netPort g.port).queues.filterMap fun q => match q.flow with
    | some (i, l, n) => if q.queue = 6 ∧ i = f ∧ l = leg ∧ q.launch.getD 0 + 40000 ≤ s.chrono then some n else none
    | none => none

/-- Late packets of a flow or a leg that has been deleted meanwhile are discarded; no counter of theirs is left. -/
def State.dropStale (s : State) (f : Nat) : State :=
  let n := ((s.flow true f).map fun (x : Flow) => x.legs.length).getD 0
  (List.range 64).foldl (fun t p =>
    let stale := fun (q : TxFrame) => match q.flow with
      | some (i, l, _) => i == f && decide (n ≤ l) && decide (q.launch.getD 0 + 40000 ≤ s.chrono)
      | none => false
    if (t.netPort p).queues.any stale then t.modNetPort p fun (y : PortRec) => { y with queues := y.queues.filter fun q => !stale q } else t) s

/-- TX_BEHIND (R267, R268): packets of a send flow that still wait 40 000 ns after their launch time are discarded. A packet that no leg
of the card has sent is counted SKIP; one that another leg has sent, or whose other leg was down, counts LINKDOWN for the leg that was late,
so that the counters of each leg balance (DESIGN CHOICE, log entry 113). -/
def execTxBehind (dt f : Nat) (s : State) : Host.Outcome State Fault Refusal :=
  let s1 := (s.elapse dt).dropStale f
  .next (match s1.flow true f with
    | none => s1
    | some x =>
      let legs := (x.legs.zipIdx.filter fun g => s1.sendsLeg g.1).map fun (g : FlowLeg × Nat) => (g.2, s1.latePackets f g.2 g.1)
      let late := fun (leg n : Nat) => legs.any fun l => l.1 == leg && l.2.contains n
      let skip := ((legs.head?).map fun (l : Nat × List Nat) => l.2.filter fun n => legs.all fun m => m.2.contains n).getD []
      if legs.all fun l => l.2.isEmpty then s1
      else
        let s2 := x.legs.zipIdx.foldl (fun t g => t.modNetPort g.1.port fun (y : PortRec) => { y with queues := y.queues.filter fun q => match q.flow with
          | some (i, l, n) => !(i == f && l == g.2 && late l n)
          | none => true }) s1
        let y := { x with c1 := x.c1 + skip.length, legs := x.legs.zipIdx.map fun g =>
          let mine := (legs.filter fun l => l.1 == g.2).flatMap fun l => l.2
          { g.1 with packets := g.1.packets - mine.length, linkDown := g.1.linkDown + (mine.filter fun n => !skip.contains n).length } }
        (s2.putFlow y).flowEvent y 0x2609 0)

/-! ### Membership and addresses (R253) -/

/-- MEMBERSHIP_REPORT_SEND (R253): the second unsolicited report of a receive leg, 1 s after the first. -/
def execMembershipReportSend (dt f leg : Nat) (s : State) : Host.Outcome State Fault Refusal :=
  let s1 := s.elapse dt
  .next (match s1.flow false f with
    | none => s1
    | some x =>
      match x.legs[leg]? with
      | none => s1
      | some g =>
        if g.reports = 1 ∧ g.reportAt + 10 ^ 9 ≤ s1.now then
          (s1.putFlow (x.modLeg leg fun l => { l with reports := 2, reportAt := s1.now })).sendReport x g (if x.opt then 5 else 4)
        else s1)

/-- The neighbour advertisement that answers a solicitation for `own`. -/
def neighbourAdvert (p peer peerAddr own tci : Nat) : List Byte :=
  let icmp := be8 136 ++ be8 0 ++ be16 0 ++ be32 0x60000000 ++ beBytes 16 own ++ be8 2 ++ be8 1 ++ beBytes 6 (macAddress p)
  let pseudo := beBytes 16 own ++ beBytes 16 peerAddr ++ be32 icmp.length ++ be32 58
  etherHeader peer (macAddress p) tci 0x86DD ++ ipv6Header 0 255 58 own peerAddr icmp.length ++ putAt icmp 2 (be16 (checksum (pseudo ++ icmp)))

/-- MEMBERSHIP_QUERY_RECEIVE (R253): ranger firmware answers a membership query, an ARP request or a neighbour
solicitation that arrives at a media port. -/
def execMembershipQueryReceive (dt p : Nat) (bytes : List Byte) (s : State) : Host.Outcome State Fault Refusal :=
  let s1 := s.elapse dt
  .next (if !s1.portOn p ∨ !s1.linkUp p then s1
    else
      let r := s1.macTake p bytes false
      match r.2 with
      | none => r.1
      | some b0 =>
        let m := r.1.macsecTake p b0
        match m.2 with
        | none => m.1
        | some (b, _, _) =>
          let h := headers b
          if !m.1.mediaService p b then m.1
          else if h.etype = 0x0806 then
            let own := u32 b (h.l3 + 24)
            let body := be16 1 ++ be16 0x0800 ++ be8 6 ++ be8 4 ++ be16 2 ++ beBytes 6 (macAddress p) ++ be32 own ++ bytesAt b (h.l3 + 8) 10
            m.1.queueFrame p (firmwareFrame 5 (etherHeader (u48 b 6) (macAddress p) h.tci 0x0806 ++ body))
          else if h.v6 ∧ h.proto = 58 then
            m.1.queueFrame p (firmwareFrame 5 (neighbourAdvert p (u48 b 6) (h.source b) (beNat (bytesAt b (h.l4 + 8) 16)) h.tci))
          else if h.v4 ∧ u8 b h.l4 ≠ 0x11 then m.1
          else
            let group := if h.v4 then u32 b (h.l4 + 4) else beNat (bytesAt b (h.l3 + 56) 16)
            (m.1.net.flows.filter fun f => !f.tx && f.ipv6 == h.v6).foldl (fun t f =>
              (f.legs.filter fun g => g.port == p && (group == 0 || g.dest == group)).foldl (fun u g => u.sendReport f g (if f.opt then 1 else 2)) t) m.1)

/-! ### Registers (R273) -/

/-- The margins of a flow over the last second: least margin and greatest hold. -/
def Flow.spread (f : Flow) (now : Nat) : Int × Int :=
  let ms := f.margins.filter fun x => decide (now < x.1 + 10 ^ 9)
  match ms with
  | [] => (0, 0)
  | m :: r => (r.foldl (fun a x => min a x.2.1) m.2.1, r.foldl (fun a x => max a x.2.2) m.2.2)

/-- NET_FLOW_STAT of the selected flow. -/
def State.flowStat (s : State) : Nat :=
  match s.flow (s.flag Reg.NET_FLOW_SEL_TX) (s.rd Reg.NET_FLOW_SEL_INDEX) with
  | none => 0
  | some f =>
    let leg := fun (i : Nat) => b01 (!f.tx && s.causePresent 0x2602 f.src (f.index + 65536 * i))
    1 + 2 * b01 (f.legs.length == 2) + 4 * b01 (!f.tx && s.causePresent 0x2601 f.src f.index) + 8 * leg 0 + 16 * leg 1 + 256 * f.engine + 65536 * f.kind

/-- NET_FLOW_SEL.SNAP captures every counter of the selected flow (R261, Table 9.4). -/
def State.flowSnap (s : State) : State :=
  match s.flow (s.flag Reg.NET_FLOW_SEL_TX) (s.rd Reg.NET_FLOW_SEL_INDEX) with
  | none => s
  | some f =>
    let leg := fun (i : Nat) => ((f.legs[i]?).map fun (g : FlowLeg) => g.packets).getD f.legBGone.1
    let down := fun (i : Nat) => ((f.legs[i]?).map fun (g : FlowLeg) => g.linkDown).getD f.legBGone.2
    let sp := f.spread s.now
    (((((((((((s.wr Reg.NET_FLOW_PKT_A_COUNT (leg 0)).wr Reg.NET_FLOW_PKT_B_COUNT (leg 1)).wr Reg.NET_FLOW_C0_COUNT f.c0).wr
      Reg.NET_FLOW_C1_COUNT f.c1).wr Reg.NET_FLOW_C2_COUNT (if f.tx then down 0 else f.c2)).wr
      Reg.NET_FLOW_C3_COUNT (if f.tx then down 1 else f.c3)).wr Reg.NET_FLOW_C4_COUNT f.c4).wr Reg.NET_FLOW_C5_COUNT f.c5).wr
      Reg.NET_FLOW_C6_COUNT (if f.tx then f.c6 else 0)).wr Reg.NET_FLOW_TS_TS f.ts).wrInt Reg.NET_FLOW_MARGIN_NS sp.1).wrInt Reg.NET_FLOW_HOLD_NS sp.2

end Sys2Proof.Machine
end

