-- ==== Sys2Proof/Machine/AudCmds.lean ====
section
/-!
DEFINITION. The AUD commands (R297-R299) and the events of the audio crosspoint and the TDM ports (R282-R295).
-/
namespace Sys2Proof.Machine

/-! ### AUD_ROUTE (R297) -/

/-- The gain that stands for unity, and the greatest. -/
def gainMax : Nat := 0x02000000

/-- The entries of a route, as offsets. -/
def audEntries (p : List Byte) : List Nat := (List.range (u16 p 0)).map fun i => 16 + 12 * i

/-- The field checks of one entry. -/
def State.audEntryFields (s : State) (p : List Byte) (o : Nat) : List (Nat × Bool) :=
  let m := u16 p o
  let n := u16 p (o + 2)
  let follow := bit (u8 p (o + 8)) 0
  [(o, s.audioNumber m && !((audEntries p).any fun a => decide (a < o) && u16 p a == m)),
   (o + 2, follow || (s.audioSourceOk n && (n == 0xFFFF || s.sourceFs n == s.sinkFs m))),
   (o + 4, decide (u32 p (o + 4) ≤ gainMax)), (o + 8, decide (u8 p (o + 8) < 32) && (!follow || decide (m < 18432))),
   (o + 9, decide (u8 p (o + 9) ≤ 20)), (o + 10, zeroAt p (o + 10) 2)]

/-- The first 48 kHz count whose evaluation instant lies at least 200 µs ahead (R286). -/
def State.routeCount (s : State) : Nat :=
  let x := s.rd Reg.AUD_CTL_XDELAY * 125000
  countAt (s.leadEnd - x) 48000

/-- The mode that an entry's flags name: 0 the CROSSFADE of R137, 1 CUT, 2 DIP. -/
def audMode (fl : Nat) : Nat := if !bit fl 4 then 0 else if bit fl 2 then 1 else if bit fl 3 then 2 else 0

/-- The change that an entry asks for. -/
def audChange (p : List Byte) (o k order : Nat) : SinkChange :=
  ⟨k, order, if bit (u8 p (o + 8)) 0 then none else some (u16 p (o + 2)), u32 p (o + 4), bit (u8 p (o + 8)) 1, audMode (u8 p (o + 8)), u8 p (o + 9)⟩

def opAudRoute : OpSpec where
  code := 0x0600
  cls := .c
  keys := false
  length p := decide (16 ≤ p.length) && p.length == 16 + 12 * u16 p 0
  fields s p := [(0, decide (1 ≤ u16 p 0 ∧ u16 p 0 ≤ 680)), (2, decide (u16 p 2 < 2)), (4, zeroAt p 4 4)] ++ (audEntries p).flatMap (s.audEntryFields p)
  own s p := [(8, u16 p 2 == 0 || decide (s.leadEnd ≤ s.evalInstant (u64 p 8) 48000))]
  units s p := (audEntries p).map fun o => (0x0D, s.dspOf (u16 p o))
  locked _ _ := false
  cruise := true
  run s x p :=
    let k := if u16 p 2 = 1 then u64 p 8 else (x.targets.head?.map fun r => r.2).getD s.routeCount
    let order := s.eph.lastOrder + 1
    let s1 := { s with eph := { s.eph with lastOrder := order } }
    let s2 := (audEntries p).foldl (fun t o =>
      let y := t.sink (u16 p o)
      t.putSink { y with changes := y.changes ++ [audChange p o k order] }) s1
    Done.pending (s2.await ⟨x.tag, x.session, x.entry, .object 10 k, none⟩) (be64 k)

/-! ### AUD_PORT_CONFIG (R298) -/

/-- The offsets of the records; a record's length byte counts the whole record. -/
def audRecords (p : List Byte) : Nat → Nat → List Nat
  | 0, _ => []
  | n + 1, o => if p.length ≤ o then [] else o :: audRecords p n (o + u8 p (o + 1))

/-- Do `n` records fill the payload from offset `o`, each of its type's length? -/
def audRecordsFit (p : List Byte) : Nat → Nat → Bool
  | 0, o => o == p.length
  | n + 1, o => decide (o + 4 ≤ p.length) && decide (4 ≤ u8 p (o + 1) ∧ u8 p (o + 1) % 4 = 0) && audRecordsFit p n (o + u8 p (o + 1))

/-- Is any port enabled? -/
def State.tdmEnabled (s : State) : Bool :=
  (List.range 8).any fun p => s.flag (Reg.AUD_PORT_CTL_SDI_EN p) || s.flag (Reg.AUD_PORT_CTL_SDO_EN p)

/-- Are sources or sinks of a slot routed (R298)? -/
def State.slotRouted (s : State) (n : Nat) (out : Bool) : Bool :=
  if out then (List.range 16).any fun e => s.sinkSource (16 * n + e) != 0xFFFF || !(s.sink (16 * n + e)).changes.isEmpty
  else s.sinkNums.any fun m =>
    (decide (s.sinkSource m ≠ 0xFFFF) && s.sinkSource m / 16 == n && decide (s.sinkSource m < 18432)) ||
      (s.sink m).changes.any fun c => (match c.source with
        | some v => decide (v < 18432) && v / 16 == n
        | none => false)

/-- Does some route, in force or still to apply, use an IP source whose playout offset exceeds X − 125 µs? `x` in µs. -/
def State.playoutOver (s : State) (x : Nat) : Bool :=
  s.sinkNums.any fun m => (s.sinkSource m :: (s.sink m).changes.filterMap fun (c : SinkChange) => c.source).any fun n =>
    decide (18432 ≤ n ∧ n < 26624) && ((s.audioFlow false (n - 18432)).map fun (f : Flow) => decide ((x - 125) * 1000 < f.timing)).getD false

/-- The field checks of one record (Table 10.7). -/
def State.audRecordFields (s : State) (p : List Byte) (o : Nat) : List (Nat × Bool) :=
  let b := o + 4
  let body := fun (n : Nat) => (o + 1, u8 p (o + 1) == 4 + n)
  (o + 2, zeroAt p (o + 2) 2) :: match u8 p o with
  | 1 => [body 4, (b, decide (u8 p b < 16) && (bit (u8 p b) 2 == s.flag Reg.AUD_CLK_RATE96 || !s.tdmEnabled) && (bit (u8 p b) 0 || !s.flag Reg.AUD_CLK_EN || !s.tdmEnabled)),
      (b + 1, zeroAt p (b + 1) 3)]
  | 2 => [body 8, (b, decide (u8 p b < 8)), (b + 1, decide (u8 p (b + 1) < 4)), (b + 2, decide (2 ≤ u8 p (b + 2) ∧ u8 p (b + 2) ≤ 16)),
      (b + 3, zeroAt p (b + 3) 1), (b + 4, !s.flag Reg.AUD_CLK_RATE96 || decide (u32 p (b + 4) < 2 ^ 16))]
  | 3 =>
    let n := u16 p b
    let out := bit (u8 p (b + 2)) 1
    let changes := s.slotShare n out != u8 p (b + 3) || s.slotRate96 n out != bit (u8 p (b + 2)) 0
    [body 4, (b, decide (n < s.externalSlots)), (b + 2, decide (u8 p (b + 2) < 4) && !(changes && s.slotRouted n out)), (b + 3, decide (u8 p (b + 3) ≤ 4))]
  | 4 => [body 12, (b, decide (u8 p b < 64)), (b + 1, decide (u8 p (b + 1) < 2)), (b + 2, decide (u16 p (b + 2) ≤ 20000)),
      (b + 4, decide (u32 p (b + 4) ≤ gainMax)), (b + 8, zeroAt p (b + 8) 4)]
  | 5 => [body 4, (b, decide (250 ≤ u16 p b ∧ u16 p b ≤ 5000 ∧ u16 p b % 125 = 0) && !s.playoutOver (u16 p b)), (b + 2, zeroAt p (b + 2) 2)]
  | _ => [(o, false)]

/-- One record takes effect. -/
def State.applyAudRecord (s : State) (p : List Byte) (o : Nat) : State :=
  let b := o + 4
  match u8 p o with
  | 1 =>
    let fl := u8 p b
    let s1 := (((s.wr Reg.AUD_CLK_EN (fl % 2)).wr Reg.AUD_CLK_SLAVE (fl / 2)).wr Reg.AUD_CLK_RATE96 (fl / 4)).wr Reg.AUD_CLK_DELAY1 (fl / 8)
    s1.audClkChanged (s.rd Reg.AUD_CLK_EN) (s.rd Reg.AUD_CLK_RATE96)
  | 2 =>
    let i := u8 p b
    (((s.wr (Reg.AUD_PORT_CTL_SDI_EN i) (u8 p (b + 1))).wr (Reg.AUD_PORT_CTL_SDO_EN i) (u8 p (b + 1) / 2)).wr (Reg.AUD_PORT_CTL_PRIME i) (u8 p (b + 2))).wr
      (Reg.AUD_PORT_SLOTS_MASK i) (u32 p (b + 4))
  | 3 =>
    let key := (u16 p b, bit (u8 p (b + 2)) 1)
    { s with aud := { s.aud with slotSets := (key, u8 p (b + 3), bit (u8 p (b + 2)) 0) :: s.aud.slotSets.filter fun x => x.1 != key } }
  | 4 => { s with aud := { s.aud with tones := (u8 p b, u16 p (b + 2), u32 p (b + 4), bit (u8 p (b + 1)) 0) :: s.aud.tones.filter fun x => x.1 != u8 p b } }
  | _ => s.wr Reg.AUD_CTL_XDELAY (u16 p b / 125)

/-- The checks of a list of records, each against what those before it leave. -/
def State.audListFields (s : State) (p : List Byte) : List Nat → List (Nat × Bool)
  | [] => []
  | o :: r => s.audRecordFields p o ++ (s.applyAudRecord p o).audListFields p r

def opAudPortConfig : OpSpec where
  code := 0x0601
  cls := .c
  keys := false
  length p := decide (4 ≤ p.length) && audRecordsFit p (u16 p 0) 4
  fields s p := [(0, decide (1 ≤ u16 p 0 ∧ u16 p 0 ≤ 64)), (2, zeroAt p 2 2)] ++ s.audListFields p (audRecords p (u16 p 0) 4)
  units _ _ := [(0x0D, 0)]
  locked _ _ := false
  cruise := true
  run s _ p := Done.ok ((audRecords p (u16 p 0) 4).foldl (fun t o => t.applyAudRecord p o) s) []

/-! ### AUD_RATE_STATUS (R299) -/

/-- The declared rate class of a measured group. -/
def State.declaredClass (s : State) (kind i : Nat) : Nat :=
  if kind = 0 then (if s.slotRate96 i false then 2 else 1)
  else if kind = 1 then (match s.flow false i with
    | some f => if f.kind = 3 ∨ f.kind = 4 then f.fs / 48000 else 0
    | none => 0)
  else if s.clk96 then 2 else 1

def opAudRateStatus : OpSpec where
  code := 0x0602
  cls := .q
  keys := false
  length p := p.length == 8
  fields s p :=
    let top : Nat := ([s.externalSlots, 2048, 1] : List Nat).getD (u8 p 0) 0
    [(0, decide (u8 p 0 < 3)), (1, zeroAt p 1 1), (2, decide (u16 p 2 < top)), (4, decide (1 ≤ u16 p 4 ∧ u16 p 4 ≤ 255 ∧ u16 p 2 + u16 p 4 ≤ top)), (6, zeroAt p 6 2)]
  units _ _ := [(0x0D, 0)]
  locked _ _ := false
  cruise := false
  run s _ p :=
    Done.ok s (be32 (u16 p 4) ++ (List.range (u16 p 4)).flatMap fun i =>
      let r := s.rateRec (u8 p 0) (u16 p 2 + i)
      be16 (u16 p 2 + i) ++ be8 (s.declaredClass (u8 p 0) (u16 p 2 + i)) ++ be8 r.cls ++ be32 r.count ++ be32 (toBits 32 r.offset))

def execAudRoute (dt : Nat) (rq : Req) (s : State) : Host.Outcome State Fault Refusal := .next (serve opAudRoute dt rq s)

def execAudPortConfig (dt : Nat) (rq : Req) (s : State) : Host.Outcome State Fault Refusal := .next (serve opAudPortConfig dt rq s)

def execAudRateStatus (dt : Nat) (rq : Req) (s : State) : Host.Outcome State Fault Refusal := .next (serve opAudRateStatus dt rq s)

/-! ### Events -/

/-- Are the audio DSPs running: PD40 on? -/
def State.audioRuns (s : State) : Bool := s.domOn 40 && !s.shutIn 0x0D 0

/-- AUDIO_SAMPLE_EVALUATE (R282): the evaluation instant of sample `k` of the sinks of one rate has come. -/
def execAudioSampleEvaluate (dt : Nat) (rate96 : Bool) (k : Nat) (s : State) : Host.Outcome State Fault Refusal :=
  let s1 := s.elapse dt
  let last := if rate96 then s1.aud.last96 else s1.aud.last48
  let fs : Nat := if rate96 then 96000 else 48000
  .next (if s1.audioRuns ∧ s1.evalInstant k fs ≤ s1.chrono ∧ (last.map fun n => decide (n < k)).getD true then s1.evaluate rate96 k else s1)

/-- When the frame that is due began: in MASTER mode at the first tick at or after the last sample instant, in SLAVE mode with its FCLK (R125,
R291). -/
def State.fclkAt (s : State) : Nat :=
  let fs : Nat := if s.clk96 then 96000 else 48000
  if s.flag Reg.AUD_CLK_SLAVE then s.now else s.now - (s.chrono - (s.chrono * fs / 10 ^ 9 * 10 ^ 9 + (fs - 1)) / fs)

/-- Has the instant of a frame come: with the clocks running, at each FCLK in SLAVE mode; in MASTER mode at the next
sample instant, after a step at the first that lies at least one frame after the last frame, each counted to its tick (R291)? -/
def State.frameDue (s : State) : Bool :=
  let fs : Nat := if s.clk96 then 96000 else 48000
  s.rd Reg.AUD_CLK_STATE != 0 && (s.flag Reg.AUD_CLK_SLAVE ||
    (decide (s.aud.lastFclk < s.fclkAt) && (!s.aud.stepped || decide (10 ^ 9 ≤ (s.fclkAt + 1 - s.aud.lastFclk) * fs))))

/-- The counts of a frame that has passed: whole frames, frames since the last port stopped, the last FCLK. -/
def State.countFrame (s : State) (good running stopped : Bool) : State :=
  let idle : Option Nat := if running then none else if stopped then some 1 else s.aud.idleFrames.map fun n => n + 1
  { s with aud := { s.aud with frames := s.aud.frames + b01 good, idleFrames := idle, lastFclk := s.fclkAt, stepped := false } }

/-- A frame whose BCLK count is wrong counts on every port. -/
def State.countBad (s : State) (good : Bool) : State :=
  if good then s
  else { s with aud := { s.aud with ports := s.aud.ports.map fun (p : TdmPort) => { p with frameErr := p.frameErr + 1 } } }

/-- TDM_FRAME (R291-R293): an FCLK frame of `bclks` bit clocks, with what the SDI pins carry. -/
def execTdmFrame (dt : Nat) (sdi : List (List Int)) (bclks : Nat) (s : State) : Host.Outcome State Fault Refusal :=
  let s1 := s.elapse dt
  .next (if !s1.audioRuns ∨ !s1.frameDue then s1
    else
      let fs : Nat := if s1.clk96 then 96000 else 48000
      let j : Nat := s1.chrono * fs / 10 ^ 9
      let good : Bool := !s1.flag Reg.AUD_CLK_SLAVE || bclks == (if s1.clk96 then 512 else 1024)
      let ready : Bool := decide (64 ≤ s1.aud.frames) && s1.rd Reg.AUD_CLK_STATE != 3
      let s2 := (List.range 8).foldl (fun t p => t.portBoundary ready p) s1
      let s3 := if s1.flag Reg.AUD_CLK_SLAVE then (s2.countBad good).noteSamples 2 0 1 else s2
      let s4 := (List.range 8).foldl (fun t p => t.portFrame p j good (sdi.getD p [])) s3
      let s5 := s4.countFrame good s4.tdmRunning (s1.tdmRunning && !s2.tdmRunning)
      let s6 := if s5.rd Reg.AUD_CLK_STATE = 1 ∧ 64 ≤ s5.aud.frames then s5.wr Reg.AUD_CLK_STATE 2 else s5
      s6.endCause 0x2706 srcAudioBlock 0)

/-- AUD_CLK_LOSS (R291): no FCLK has come for 1 ms in SLAVE mode; the ports stop. -/
def execAudClkLoss (dt : Nat) (s : State) : Host.Outcome State Fault Refusal :=
  let s1 := s.elapse dt
  .next (if !s1.audioRuns ∨ !s1.flag Reg.AUD_CLK_SLAVE ∨ s1.rd Reg.AUD_CLK_STATE = 0 ∨ s1.now < s1.aud.lastFclk + 10 ^ 6 then s1
    else
      let ports := s1.aud.ports.map fun (p : TdmPort) => { p with sdi := p.sdi.stop, sdo := p.sdo.stop }
      ({ s1 with aud := { s1.aud with frames := 0, ports := ports } }).raise 0x2706 srcAudioBlock 0)

/-- TDM_CLOCK_STOP (R292, R301): 64 frames have passed since the last port stopped; the clocks stop, and start again where
the rate changed. -/
def execTdmClockStop (dt : Nat) (s : State) : Host.Outcome State Fault Refusal :=
  let s1 := s.elapse dt
  .next (if s1.rd Reg.AUD_CLK_STATE = 0 ∨ s1.tdmRunning ∨ s1.aud.idleFrames.getD 0 < 64 then s1
    else if s1.aud.restarting ∧ s1.flag Reg.AUD_CLK_EN then s1.startClocks
    else (s1.wr Reg.AUD_CLK_STATE 0).endCause 0x2706 srcAudioBlock 0)

/-- The offset of a group over the last measurements, up to 10 s, in 1/16 ppm of the nominal rate of its class; of its declared rate where it has
none (log entry 39). -/
def State.rateOffset (s : State) (x : RateRec) (cls : Nat) : Int :=
  let fs := 48000 * (if cls = 1 ∨ cls = 2 then cls else s.declaredClass x.kind x.index)
  match x.past.getLast? with
  | none => 0
  | some p => if x.lastAt ≤ p.2 ∨ fs = 0 then 0
    else Int.tdiv ((((x.total - p.1) * 10 ^ 9 : Nat) - (fs * (x.lastAt - p.2) : Nat)) * 16000000) (fs * (x.lastAt - p.2) : Nat)

/-- One rate measurement (R295): the samples since the last one, a second ago, and the offset. Object of the events: 65 536 × kind + index. -/
def State.measureRate (s : State) (kind i : Nat) : State :=
  let x := s.rateRec kind i
  let count := x.total - ((x.past.head?).map fun p => p.1).getD 0
  let cls := rateClass count
  let offset := s.rateOffset x cls
  let obj := 65536 * kind + i
  let outside : Bool := decide (16 * s.rd Reg.AUD_RATE_TH_PPM < offset.natAbs)
  let s1 := s.putRate { x with cls := cls, count := count, offset := offset, outside := outside, past := ((x.total, x.lastAt) :: x.past).take 10, measuredAt := s.chrono }
  let s2 := if cls ≠ x.cls ∨ outside ≠ x.outside then s1.raise 0x2703 srcAudioBlock obj else s1
  if cls ≠ 0 ∧ cls ≠ s.declaredClass kind i then s2.raise 0x2704 srcAudioBlock obj else s2.endCause 0x2704 srcAudioBlock obj

/-- Does a group's second end now: it has carried samples, a second has passed since its last measurement, and the clock set, which is
group kind 2, is measured in SLAVE mode only (R295)? -/
def State.rateDue (s : State) (g : Nat × Nat) : Bool :=
  (s.aud.rates.any fun r => r.kind == g.1 && r.index == g.2 && decide (r.measuredAt + 10 ^ 9 ≤ s.chrono)) && (decide (g.1 < 2) || s.flag Reg.AUD_CLK_SLAVE)

/-- AUDIO_RATE_MEASURE (R295): the groups, by kind and index, whose second ends at this instant are measured. At which instants the second
of a group ends the spec does not say (log entry 39). -/
def execAudioRateMeasure (dt : Nat) (groups : List (Nat × Nat)) (s : State) : Host.Outcome State Fault Refusal :=
  let s1 := s.elapse dt
  .next (if s1.audioRuns then groups.foldl (fun t g => if t.rateDue g then t.measureRate g.1 g.2 else t) s1 else s1)

/-- AUD_SNAP.GO captures every counter and fill (R294). -/
def State.audSnap (s : State) : State :=
  (List.range 8).foldl (fun t p =>
    let x := t.tdm p
    ((((((((((t.wr (Reg.AUD_SDI_IN_COUNT p) x.sdi.ins).wr (Reg.AUD_SDI_OUT_COUNT p) x.sdi.outs).wr (Reg.AUD_SDI_REPEAT_COUNT p) x.sdi.repeats).wr
      (Reg.AUD_SDI_DROP_COUNT p) x.sdi.drops).wr (Reg.AUD_SDO_IN_COUNT p) x.sdo.ins).wr (Reg.AUD_SDO_OUT_COUNT p) x.sdo.outs).wr
      (Reg.AUD_SDO_REPEAT_COUNT p) x.sdo.repeats).wr (Reg.AUD_SDO_DROP_COUNT p) x.sdo.drops).wr (Reg.AUD_FILL_SDI p) x.sdi.fifo.length).wr
      (Reg.AUD_FILL_SDO p) x.sdo.fifo.length).wr (Reg.AUD_FRAME_ERR_COUNT p) x.frameErr) s

end Sys2Proof.Machine
end

