-- ==== Sys2Proof/Machine/EphCmds.lean ====
section
/-!
DEFINITION. The EPH commands (R146-R150), the Meridian and the loader as commands of the block, and what register
writes do to a generator (R153).
-/
namespace Sys2Proof.Machine

/-! ### Timed takes -/

/-- Is a target time allowed: at most a year ahead, and not late when REJECT_LATE is set (R132)? -/
def State.timeAllowed (s : State) (t : Nat) (reject : Bool) : Bool :=
  decide (t ≤ s.cyx.origin + 31536000 * 10 ^ 9) && (!reject || decide (s.leadEnd ≤ t))

/-- The target time that a take uses: an earlier one counts as immediate (R132). -/
def State.takeTime (s : State) (t : Nat) : Nat := max t s.leadEnd

/-- The frame that BY_FRAME names, unless its Meridian lies too early (R132, R146). -/
def State.namedFrame (s : State) (g f : Nat) : Nat :=
  if s.leadEnd ≤ meridianAt (s.genN g) (s.genD g) f then f else s.target g s.leadEnd

/-- Audio mode of a take: 0 default, 1 CUT, 2 DIP, 3 CROSSFADE, from the flags of Table 5.4. Of CUT and DIP together CUT counts, as in
EPH_GEN_CTL (DESIGN CHOICE, log entry 90). -/
def takeMode (fl : Nat) : Nat := if !bit fl 4 then 0 else if bit fl 2 then 1 else if bit fl 3 then 2 else 3

/-- Too few free entries or records: BUSY with the Ephemeris capability (R139). -/
def Done.ephBusy (s : State) : Done := ⟨s, stBusy, detail 0xFFFF 0x0B 0xFFFFFFFF, []⟩

/-- Is there room for one more entry with `n` records (R139)? -/
def EphState.room (e : EphState) (n : Nat) : Bool := decide (e.entries < 16384) && decide (e.records + n ≤ 65536)

/-- The handle of a new entry: the holder's for a mirrored one (R144). -/
def State.newHandle (s : State) (x : Ctx) : Nat := if x.mirrored then x.handle else s.eph.nextHandle

/-- Store an entry of the Ephemeris. -/
def State.storeEntry (s : State) (x : Ctx) (t : Take) : State :=
  ({ s with eph := { s.eph with lastHandle := max s.eph.lastHandle t.handle } }).takeRoutes x t

/-- EPH_SCHEDULE (R146). A late take that is handled as immediate (R132) keeps its handle and its entry of the Ephemeris (DESIGN CHOICE,
log entry 122). -/
def opEphSchedule : OpSpec where
  code := 0x0300
  cls := .c
  keys := false
  length p := p.length == 36
  fields s p :=
    timeOk p 0 ++ [(13, zeroAt p 13 3), (24, decide (u8 p 24 < 32)), (25, decide (u8 p 25 ≤ 20)), (26, zeroAt p 26 2)] ++ s.routeFields p 28
  own s p :=
    let byFrame := bit (u8 p 24) 0
    let g := s.routeGen p 28
    [(12, !byFrame || u8 p 12 == g),
     (if byFrame then 12 else 0,
       s.timeAllowed (if byFrame then meridianAt (s.genN g) (s.genD g) (u64 p 16) else timeAt p 0) (bit (u8 p 24) 1)),
     (28, s.splitSettled p 28 (if byFrame then meridianAt (s.genN g) (s.genD g) (s.namedFrame g (u64 p 16)) else s.routeTime p 28 (s.takeTime (timeAt p 0))))]
  units s p := s.routeUnits p 28
  locked _ _ := false
  cruise := true
  run s x p :=
    if !s.eph.room 1 then Done.ephBusy s
    else
      let byFrame := bit (u8 p 24) 0
      let g := s.routeGen p 28
      let t := timeAt p 0
      let f := if byFrame then ((x.targets.find? fun r => r.1 == g).map fun r => r.2).getD (s.namedFrame g (u64 p 16)) else s.routeFrame x g (s.takeTime t)
      let h := s.newHandle x
      let k : Take := { takeOf [s.routeRec p 28 f] with
        handle := h, byFrame := byFrame, time := if byFrame then 0 else t, mode := takeMode (u8 p 24), ramp := u8 p 25 }
      Done.pending (s.storeEntry x k) (be32 h ++ frameRefBytes g f)

/-- EPH_SALVO (R147). -/
def opEphSalvo : OpSpec where
  code := 0x0303
  cls := .c
  keys := false
  length p := decide (16 ≤ p.length) && p.length == 16 + 8 * u16 p 12
  fields s p :=
    let os := blockOffsets 16 (u16 p 12)
    timeOk p 0 ++ [(12, decide (1 ≤ u16 p 12 ∧ u16 p 12 ≤ 997)), (14, decide (u8 p 14 < 32) && !bit (u8 p 14) 0),
      (15, decide (u8 p 15 ≤ 20))] ++ os.flatMap (fun o => s.routeFields p o) ++ outputsOnce p os
  own s p := (0, s.timeAllowed (timeAt p 0) (bit (u8 p 14) 1)) ::
    (blockOffsets 16 (u16 p 12)).map fun o => (o, s.splitSettled p o (s.routeTime p o (s.takeTime (timeAt p 0))))
  units s p := (blockOffsets 16 (u16 p 12)).flatMap fun o => s.routeUnits p o
  locked _ _ := false
  cruise := true
  run s x p :=
    if !s.eph.room (u16 p 12) then Done.ephBusy s
    else
      let t := s.takeTime (timeAt p 0)
      let rs := (blockOffsets 16 (u16 p 12)).map fun o => s.routeRec p o (s.routeFrame x (s.routeGen p o) t)
      let h := s.newHandle x
      let gs := genFrames rs
      let k : Take := { takeOf rs with handle := h, salvo := true, time := timeAt p 0, mode := takeMode (u8 p 14), ramp := u8 p 15 }
      Done.pending (s.storeEntry x k) (be32 h ++ be16 gs.length ++ zeros 2 ++ gs.flatMap fun r => frameRefBytes r.1 r.2)

/-! ### EPH_CANCEL, EPH_LIST -/

/-- May a record still be removed: its target Meridian lies at least 200 µs ahead and it is not loaded (R141)? -/
def State.cancellable (s : State) (r : RouteRec) : Bool :=
  !r.loaded && decide (s.leadEnd ≤ meridianAt (s.genN r.gen) (s.genD r.gen) r.frame)

/-- Mark the entries that Cruise projects over a capacity, and raise EPH_AT_RISK for those newly so (R142; that those marked before do
not raise it again is a DESIGN CHOICE, log entry 128). -/
def State.markRisk (s : State) : State :=
  let risky := s.riskyTakes
  let new : List Take := s.eph.takes.filter fun t => t.handle != 0 && !t.atRisk && risky.contains t.handle
  let ts := s.eph.takes.map fun t => { t with atRisk := t.handle != 0 && risky.contains t.handle }
  { s with eph := { s.eph with takes := ts } }.raiseAll 0x2203 srcEph (new.map fun (t : Take) => t.handle)

/-- EPH_CANCEL (R141, R142, R148). A mirrored one carries no trailer: the partner judges the 200 µs by its own origin (DESIGN CHOICE, log entry
91). An entry whose last records it removes sends neither COMPLETE nor FAILED (DESIGN CHOICE, log entry 92). -/
def opEphCancel : OpSpec where
  code := 0x0301
  cls := .c
  keys := false
  length p := p.length == 8
  fields s p := [(0, decide (u32 p 0 ≠ 0) && s.eph.takes.any fun t => t.handle == u32 p 0), (4, zeroAt p 4 4)]
  units _ _ := [(0x0B, 0)]
  locked _ _ := false
  cruise := false
  run s _ p :=
    let h := u32 p 0
    let mine := (s.eph.takes.filter fun t => t.handle == h).flatMap (·.routes)
    let gone := mine.filter s.cancellable
    let ts := s.eph.takes.map fun t =>
      if t.handle = h ∧ !gone.isEmpty then { t with routes := t.routes.filter fun r => !s.cancellable r, partly := true } else t
    let s1 := { s with eph := { s.eph with takes := ts.filter fun t => !t.routes.isEmpty } }.ephCount
    Done.ok s1.markRisk (be32 gone.length ++ be32 (mine.length - gone.length))

/-- When a record applies next: at the first Meridian whose frame count reaches its target (R130, R149). -/
def State.applyTime (s : State) (r : RouteRec) : Nat := meridianAt (s.genN r.gen) (s.genD r.gen) (max r.frame (s.nextFrame r.gen))

/-- The earliest pending part of an entry: instant of its next application, generator, target frame. -/
def State.nextPart (s : State) (t : Take) : Nat × Nat × Nat :=
  (t.routes.map fun r => (s.applyTime r, r.gen, r.frame)).foldl
    (fun (b : Option (Nat × Nat × Nat)) x => match b with
      | none => some x
      | some y => if x.1 < y.1 then some x else some y) none |>.getD (0, 0, 0)

/-- Insert an entry in order of next application, ties by handle (R149). -/
def State.insertEntry (s : State) (t : Take) : List Take → List Take
  | [] => [t]
  | u :: r =>
    let a := (s.nextPart t).1
    let b := (s.nextPart u).1
    if a < b ∨ (a = b ∧ t.handle < u.handle) then t :: u :: r else u :: s.insertEntry t r

/-- One EPH_LIST entry (Table 5.5). -/
def State.listEntry (s : State) (t : Take) : List Byte :=
  let n := s.nextPart t
  be32 t.handle ++ be8 (b01 t.salvo) ++ be8 (b01 t.byFrame + 2 * b01 t.partly + 4 * b01 t.atRisk + 8 * b01 t.mirrored) ++
    be16 t.routes.length ++ be16 (if t.mirrored then 0xFFFF else t.session) ++ be8 n.2.1 ++ be8 0 ++
    (if t.byFrame then zeros 12 else timeBytes t.time) ++ be64 n.2.2

/-- EPH_LIST (R149). -/
def opEphList : OpSpec where
  code := 0x0302
  cls := .q
  keys := false
  length p := p.length == 8
  fields _ p := [(4, decide (1 ≤ u16 p 4 ∧ u16 p 4 ≤ 255)), (6, zeroAt p 6 2)]
  units _ _ := [(0x0B, 0)]
  locked _ _ := false
  cruise := false
  run s _ p :=
    let sorted := (s.eph.takes.filter fun t => t.handle != 0).foldl (fun l t => s.insertEntry t l) []
    let es := (sorted.drop (u32 p 0)).take (u16 p 4)
    Done.ok s (be32 es.length ++ es.flatMap s.listEntry)

/-! ### EPH_GEN_CONFIG and generator registers (R129, R150, R153) -/

/-- Does a configuration change the rate or the enable of its generator? -/
def State.genChanges (s : State) (p : List Byte) : Bool :=
  u32 p 4 != s.genN (u8 p 0) || u32 p 8 != s.genD (u8 p 0) || bit (u8 p 1) 0 != s.genOn (u8 p 0)

/-- The next Meridian of a generator is the first after now on its present rate, with no minimum length of the frame in progress (R153). -/
def State.genRestart (s : State) (g : Nat) : State := s.putGenerator g { s.generator g with frame := none, shift := 0, since := s.chrono }

/-- Does a configuration change the rate of its generator or disable it (R129)? -/
def State.genForbids (s : State) (p : List Byte) : Bool :=
  u32 p 4 != s.genN (u8 p 0) || u32 p 8 != s.genD (u8 p 0) || (s.genOn (u8 p 0) && !bit (u8 p 1) 0)

/-- EPH_GEN_CONFIG (R129, R150). The rate goes into the staged registers too (DESIGN CHOICE, log entry 127). -/
def opEphGenConfig : OpSpec where
  code := 0x0304
  cls := .c
  keys := false
  length p := p.length == 12
  fields _ p :=
    [(0, decide (u8 p 0 < 16)), (1, decide (u8 p 1 < 8) && decide (u8 p 1 < 6)), (2, decide (1 ≤ u8 p 2 ∧ u8 p 2 ≤ 20)),
     (3, zeroAt p 3 1), (4, rateOk (u32 p 4) (u32 p 8))]
  own s p := [(4, !s.genForbids p || !(s.genBound (u8 p 0) || s.genTargeted (u8 p 0)))]
  units _ p := [(0x0B, u8 p 0)]
  locked _ _ := false
  cruise := true
  run s x p :=
    let g := u8 p 0
    let rephased := x.mirrored && s.genChanges p && s.genBound g
    let s1 := ((s.wr (Reg.EPH_GEN_N_N g) (u32 p 4)).wr (Reg.EPH_GEN_D_D g) (u32 p 8)).wr (Reg.EPH_GEN_CUR_N_N g) (u32 p 4)
    let s2 := ((s1.wr (Reg.EPH_GEN_CUR_D_D g) (u32 p 8)).wr (Reg.EPH_GEN_CTL_EN g) (b01 (bit (u8 p 1) 0))).wr
      (Reg.EPH_GEN_CTL_CUT g) (b01 (bit (u8 p 1) 1))
    let s3 := (s2.wr (Reg.EPH_GEN_CTL_DIP g) (b01 (bit (u8 p 1) 2))).wr (Reg.EPH_GEN_CTL_RAMP_MS g) (u8 p 2)
    let s3 := if s.genChanges p then s3.genRestart g else s3
    let s4 := (if rephased then s3.rephase g false else s3).endFreeRuns
    Done.ok s4 (frameRefBytes g (s4.nextFrame g))

/-- A write of 1 to EPH_GEN_CTL.LOAD (R153): the staged rate comes into force, or the write is ignored. -/
def State.genLoad (s : State) (g : Nat) : State :=
  let n := s.rd (Reg.EPH_GEN_N_N g)
  let d := s.rd (Reg.EPH_GEN_D_D g)
  if !rateOk n d then s
  else
    let s1 := ((s.wr (Reg.EPH_GEN_CUR_N_N g) n).wr (Reg.EPH_GEN_CUR_D_D g) d).genRestart g
    if s.genBound g then s1.rephase g true else s1

/-- A change of EPH_GEN_CTL.EN from `old` (R153): an enabled generator resumes at its next Meridian, a disabled one no longer free-runs. -/
def State.genEnabled (s : State) (g : Nat) (old : Nat) : State :=
  if old = s.rd (Reg.EPH_GEN_CTL_EN g) then s
  else
    let s1 := if old = 0 then s.genRestart g else s.endFreeRuns
    if s.genBound g then s1.rephase g true else s1

/-! ### Commands of the block -/

/-- EPH_SCHEDULE. -/
def execEphSchedule (dt : Nat) (rq : Req) (s : State) : Host.Outcome State Fault Refusal := .next (serve opEphSchedule dt rq s)

/-- EPH_CANCEL. -/
def execEphCancel (dt : Nat) (rq : Req) (s : State) : Host.Outcome State Fault Refusal := .next (serve opEphCancel dt rq s)

/-- EPH_LIST. -/
def execEphList (dt : Nat) (rq : Req) (s : State) : Host.Outcome State Fault Refusal := .next (serve opEphList dt rq s)

/-- EPH_SALVO. -/
def execEphSalvo (dt : Nat) (rq : Req) (s : State) : Host.Outcome State Fault Refusal := .next (serve opEphSalvo dt rq s)

/-- EPH_GEN_CONFIG. -/
def execEphGenConfig (dt : Nat) (rq : Req) (s : State) : Host.Outcome State Fault Refusal := .next (serve opEphGenConfig dt rq s)

/-- MERIDIAN (R106, R125): the Chronograph has reached the next Meridian of generator `g`. A disabled generator's
outputs emit IDLE from it on (R153). -/
def execMeridian (dt g : Nat) (s : State) : Host.Outcome State Fault Refusal :=
  let s1 := s.elapse dt
  let f := frameAt (s1.genN g) (s1.genD g) s1.chrono
  let m := meridianAt (s1.genN g) (s1.genD g) f
  let x := s1.generator g
  let due := decide (s1.leastFrame g ≤ f) && (if x.frame.isSome then true else decide (x.since < m ∨ x.since = 0)) && decide ((x.lastAt.map fun l => decide (l < m)).getD true)
  .next (if !s1.domOn 36 ∨ s1.shutIn 0x0B g ∨ 16 ≤ g ∨ !due then s1
    else if s1.genOn g then s1.meridian g f m
    else s1.putGenerator g { x with lastAt := some m, frame := some f, shift := 0, stopped := true })

/-- EPH_LOADER_WRITE (R134): between M0 − 100 µs and M0 − 5 µs the loader writes the records due at M0. -/
def execEphLoaderWrite (dt g : Nat) (s : State) : Host.Outcome State Fault Refusal :=
  let s1 := s.elapse dt
  let m := s1.nextMeridian g
  .next (if s1.domOn 36 ∧ g < 16 ∧ m ≤ s1.chrono + 100000 ∧ s1.chrono + 5000 ≤ m then s1.loadDue g (s1.nextFrame g) else s1)

end Sys2Proof.Machine
end

