-- ==== Sys2Proof/Machine/MvwCmds.lean ====
section
/-!
DEFINITION. The MVW commands (R321-R329) and the events of the multiviewer: head Meridians, bands, rows, layer frames
and loads (R303, R304, R312, R319).
-/
namespace Sys2Proof.Machine

/-! ### MVW_LAYER_SET (R306, R308, R309, R327) -/

/-- A valid COLOUR field. -/
def colourOk (c : Nat) : Bool :=
  let ok := fun (v : Nat) => decide (4 ≤ v ∧ v ≤ 1019)
  decide (c < 2 ^ 30) && ok (c / 2 ^ 20) && ok (c / 2 ^ 10 % 1024) && ok (c % 1024)

/-- The video settings of an entry at offset `o`. -/
def vidEntry (p : List Byte) (o : Nat) : VidSet where
  en := bit (u8 p (o + 2)) 0
  decim := bit (u8 p (o + 2)) 1
  source := slotKey (u16 p (o + 12)) (bit (u8 p (o + 2)) 2)
  interlaced := bit (u8 p (o + 2)) 3
  s444 := bit (u8 p (o + 2)) 4
  z := u8 p (o + 3)
  x := u16 p (o + 4)
  y := u16 p (o + 6)
  w := u16 p (o + 8)
  h := u16 p (o + 10)
  hold := u8 p (o + 14)
  hset := u8 p (o + 15) % 16
  vset := u8 p (o + 15) / 16
  cx := u16 p (o + 16)
  cy := u16 p (o + 18)
  cw := u16 p (o + 20)
  ch := u16 p (o + 22)
  rateN := u32 p (o + 24)
  rateD := u32 p (o + 28)
  alpha := u16 p (o + 32)
  fill := u32 p (o + 36)
  wide := 0
  high := 0

/-- The graphic settings of an entry. -/
def gfxEntry (p : List Byte) (o : Nat) : GfxSet :=
  ⟨bit (u8 p (o + 2)) 0, bit (u8 p (o + 2)) 1, u8 p (o + 3), u16 p (o + 4), u16 p (o + 6), u16 p (o + 8), u16 p (o + 10), u32 p (o + 12)⟩

/-- The meter settings of an entry. -/
def metEntry (p : List Byte) (o : Nat) : MetSet where
  en := bit (u8 p (o + 2)) 0
  horizontal := bit (u8 p (o + 2)) 1
  x := u16 p (o + 4)
  y := u16 p (o + 6)
  w := u16 p (o + 8)
  h := u16 p (o + 10)
  source := u16 p (o + 12)
  fall := u8 p (o + 14)
  hold := u8 p (o + 15)
  floor := u8 p (o + 16)
  warn := sext 16 (u16 p (o + 18))
  alarm := sext 16 (u16 p (o + 20))
  colours := (List.range 5).map fun i => u32 p (o + 24 + 4 * i)

/-- A window of even X and W that lies wholly inside a head of a format. -/
def windowFits (fmt x y w h : Nat) : Bool :=
  x % 2 == 0 && w % 2 == 0 && decide (0 < w ∧ 0 < h) && decide (x + w ≤ headWidth fmt ∧ y + h ≤ headHeight fmt)

/-- The source of a video layer may be named, and its declaration is one that a slot of its kind carries (R307, log
entry 40). -/
def State.layerSourceOk (s : State) (v : VidSet) : Bool :=
  s.sourceNamed v.source &&
    (match s.bondOf (fullSlot v.source) with
     | some b => !b.rx || b.members.head? == some v.source
     | none => true) &&
    (s.vidSize v).isSome

/-- The geometry of a video layer, as offsets in its entry (R306, R308, R309). -/
def State.vidChecks (s : State) (fmt : Nat) (u : VidSet) : List (Nat × Bool) :=
  let v := s.declare u
  [(4, windowFits fmt v.x v.y v.w v.h && decide (16 ≤ v.w ∧ 16 ≤ v.h)), (12, s.layerSourceOk u),
   (16, v.cx % 2 == 0 && v.cw % 2 == 0 && decide (0 < v.cw ∧ 0 < v.ch) && decide (v.cx + v.cw ≤ v.wide ∧ v.cy + v.ch ≤ v.lines)),
   (20, decide (v.win ≤ 16 * v.w ∧ v.hin ≤ 16 * v.h))]

/-- A graphic layer: its object is held, of the size of the window, and may be shown so (R319, R327). -/
def State.gfxChecks (s : State) (fmt : Nat) (g : GfxSet) : List (Nat × Bool) :=
  [(4, windowFits fmt g.x g.y g.w g.h),
   (12, match s.graphic g.handle with
    | some o => o.ready && o.w == g.w && o.h == g.h && (g.premul || !o.premulOnly)
    | none => false)]

/-- An entry of MVW_LAYER_SET: kind, index, flags, Z, and the fields of its body. -/
def State.layerEntryOk (s : State) (fmt : Nat) (p : List Byte) (o : Nat) : List (Nat × Bool) :=
  let kind := u8 p o
  let fl := u8 p (o + 2)
  let shift := fun (l : List (Nat × Bool)) => l.map fun c => (o + c.1, c.2)
  [(o, decide (kind < 3)), (o + 1, decide (u8 p (o + 1) < ([64, 16, 128] : List Nat).getD kind 0)),
   (o + 2, decide (fl < ([32, 4, 4] : List Nat).getD kind 0)), (o + 3, if kind = 2 then u8 p (o + 3) == 0 else decide (u8 p (o + 3) < 80))] ++
  (if kind = 0 then
    let v := vidEntry p o
    [(o + 15, decide (v.hset < 4 ∧ v.vset < 4)), (o + 24, rateOk v.rateN v.rateD), (o + 32, decide (v.alpha < 1024)), (o + 34, zeroAt p (o + 34) 2),
     (o + 36, colourOk v.fill), (o + 40, zeroAt p (o + 40) 8)] ++ shift (s.vidChecks fmt v)
  else if kind = 1 then
    let g := gfxEntry p o
    (o + 16, zeroAt p (o + 16) 32) :: shift (s.gfxChecks fmt g)
  else
    let m := metEntry p o
    [(o + 4, windowFits fmt m.x m.y m.w m.h), (o + 12, m.source == 0xFFFF || s.audioSourceOk m.source), (o + 14, decide (1 ≤ m.fall ∧ m.fall ≤ 60)),
     (o + 15, decide (m.hold ≤ 100)), (o + 16, decide (20 ≤ m.floor ∧ m.floor ≤ 90)), (o + 17, zeroAt p (o + 17) 1), (o + 22, zeroAt p (o + 22) 2)] ++
      (m.colours.zipIdx.map fun c => (o + 24 + 4 * c.2, colourOk c.1)) ++ [(o + 44, zeroAt p (o + 44) 4)])

/-- Put a setting under its index. -/
def setAt {α : Type} (l : List (Nat × α)) (i : Nat) (v : α) : List (Nat × α) := (l.filter fun x => x.1 != i) ++ [(i, v)]

/-- Apply an entry to the shadow settings; a video layer with its declared size (R330). -/
def State.layerEntry (s : State) (p : List Byte) (x : HeadSet) (o : Nat) : HeadSet :=
  let i := u8 p (o + 1)
  if u8 p o = 0 then { x with vid := setAt x.vid i (s.declare (vidEntry p o)) }
  else if u8 p o = 1 then { x with gfx := setAt x.gfx i (gfxEntry p o) }
  else { x with met := setAt x.met i (metEntry p o) }

/-- CLEAR: every layer and bar is disabled. -/
def HeadSet.clear (x : HeadSet) : HeadSet :=
  ⟨x.vid.map fun v => (v.1, { v.2 with en := false }), x.gfx.map fun g => (g.1, { g.2 with en := false }),
   x.met.map fun m => (m.1, { m.2 with en := false })⟩

/-- Offsets of the entries of an MVW_LAYER_SET. -/
def layerOffsets (n : Nat) : List Nat := (List.range n).map fun i => 8 + 48 * i

/-- MVW_LAYER_SET (R327). -/
def opMvwLayerSet : OpSpec where
  code := 0x0701
  cls := .c
  keys := false
  length p := decide (8 ≤ p.length) && p.length == 8 + 48 * u8 p 1
  fields s p :=
    [(0, decide (u8 p 0 < 16)), (1, decide (1 ≤ u8 p 1 ∧ u8 p 1 ≤ 170)), (2, decide (u8 p 2 < 2)), (3, zeroAt p 3 5)] ++
      (layerOffsets (u8 p 1)).flatMap fun o => s.layerEntryOk (s.headNext (u8 p 0)).2.1 p o
  units _ p := [(0x0E, u8 p 0)]
  locked _ _ := false
  cruise := false
  run s _ p :=
    let x := s.head (u8 p 0)
    let base := if bit (u8 p 2) 0 then x.shadow.clear else x.shadow
    Done.ok (s.putHead { x with shadow := (layerOffsets (u8 p 1)).foldl (s.layerEntry p) base }) []

/-! ### Ports, buffers and engines of a head -/

/-- Consumer identifiers of a layer: its port and buffer in force, and those of settings that wait. -/
def layerUser (h l : Nat) (waits : Bool) : Nat := (if waits then 8192 else 4096) + 64 * h + l

/-- Kind and number of the window buffers that a waiting change holds for a layer: 6 for a commit, of which a head has one, 8 for a
configuration. -/
def HeadChange.bufferKey (w : HeadChange) (h l : Nat) : Nat × Nat := if w.config.isSome then (8, 1024 * w.id + 64 * h + l) else (6, 64 * h + l)

/-- Is a buffer of a kind and number held? -/
def State.holds (s : State) (k : Nat × Nat) : Bool := s.mem.bufs.any fun (x : Buffer) => x.kind == k.1 && x.id == k.2

/-- The window buffers that a layer has once the changes `cs` of its head have applied: the newest taken for one of them, else its own. -/
def State.layerBuffer (s : State) (h l : Nat) (cs : List HeadChange) : Option Buffer :=
  let held := fun (k : Nat × Nat) => s.mem.bufs.find? fun (b : Buffer) => b.kind == k.1 && b.id == k.2
  (cs.reverse.findSome? fun w => held (w.bufferKey h l)).or (held (2, 64 * h + l))

/-- Take window buffers in channel set `n` for the video layers of settings `y` that stand once change `c` has applied after `cs`, where those
that they have cannot stay: their size or set is another (R311). -/
def State.holdBuffers (s : State) (h n : Nat) (cs : List HeadChange) (c : HeadChange) (y : HeadSet) : State :=
  y.videos.foldl (fun t v =>
    let k := c.bufferKey h v.1
    if (t.layerBuffer h v.1 cs).any fun b => b.set == n && b.size == 2 * v.2.bufferBytes then t
    else (t.allocBuffer k.1 k.2 n (2 * v.2.bufferBytes)).2) s

/-- The engines that settings need under a format and generator (R305). -/
def State.needEngines (s : State) (fmt g : Nat) (y : HeadSet) : Nat :=
  enginesNeeded fmt y.videos (canopyOf fmt (s.laysOf y.vid y.gfx)) (s.genN g) (s.genD g)

/-- The first frame of a generator whose head Meridian lies at or after `t`. -/
def State.headFrame (s : State) (fmt g t : Nat) : Nat := s.target g (t + s.advanceOf fmt g)

/-- The head Meridian at which a change applies. -/
def State.changeAt (s : State) (c : HeadChange) : Nat := s.headMeridian c.gen (s.advanceOf c.fmt c.gen) c.frame

/-- A number for a change that no waiting one has. -/
def State.changeId (s : State) : Nat :=
  (s.mvw.heads.flatMap fun (x : Head) => x.waiting.map fun (w : HeadChange) => w.id).foldl max 0 + 1

/-- What a head is at its first head Meridian at or after `t`, from the form `p` on: the changes whose head Meridians come no later have
applied. -/
def State.formAt (s : State) (t : Nat) (p : HeadForm) : List HeadChange → HeadForm
  | [] => p
  | w :: r =>
    if s.headMeridian p.gen (s.advanceOf p.fmt p.gen) (s.headFrame p.fmt p.gen t) < s.changeAt w then p else s.formAt t (p.take w) r

/-- The form of head `h` at its first head Meridian at or after `t`. -/
def State.headAt (s : State) (h t : Nat) : HeadForm := s.formAt t (s.headForm h []) (s.head h).waiting

/-- Put a change among those that wait, in the order in which they apply. -/
def State.insertChange (s : State) (c : HeadChange) : List HeadChange → List HeadChange
  | [] => [c]
  | w :: r => if s.changeAt c < s.changeAt w then c :: w :: r else w :: s.insertChange c r

/-- What the waiting change at place `i` of a head holds: the engines that the settings then in force need, and the window buffers that those
settings lack. A commit that comes after a change of format or generator takes the first head Meridian of the new ones (R305, R311, R322,
R324). -/
def State.settleChange (s : State) (h i : Nat) : State :=
  let x := s.head h
  match x.waiting[i]? with
  | none => s
  | some w =>
    let pre := x.waiting.take i
    let old := s.headForm h pre
    let p := old.take w
    let s0 := (List.range 64).foldl (fun t l => t.freeBuffer (w.bufferKey h l).1 (w.bufferKey h l).2) (s.putHead { x with waiting := x.waiting.set i { w with engines := [] } })
    let own := ((pre.getLast?).map fun (c : HeadChange) => c.engines).getD x.engines
    let es := if p.on then s0.grantEngines own (s0.needEngines p.fmt p.gen p.sets) else []
    let moved := w.config.isNone && (w.fmt, w.gen) != (old.fmt, old.gen)
    let w1 := if moved then { w with engines := es, frame := s.headFrame old.fmt old.gen w.time, fmt := old.fmt, gen := old.gen } else { w with engines := es }
    let s1 := s0.putHead { x with waiting := x.waiting.set i w1 }
    if p.on then s1.holdBuffers h p.chan pre w1 p.sets else s1

/-- A change of a head waits for its frame; it and those that apply after it hold what they need. -/
def State.admitChange (s : State) (h : Nat) (c : HeadChange) : State :=
  let x := s.head h
  let ws := s.insertChange c x.waiting
  let s1 := (s.putHead { x with waiting := ws }).wr (Reg.MVW_H_STAT_PENDING h) (b01 (c.commit.isSome || s.flag (Reg.MVW_H_STAT_PENDING h)))
  ((List.range ws.length).filter fun i => decide (ws.findIdx (· == c) ≤ i)).foldl (fun t i => t.settleChange h i) s1

/-- The engines that a waiting change of a head holds. -/
def State.changeEngines (s : State) (h id : Nat) : Nat :=
  (((s.head h).waiting.find? fun w => w.id == id).map fun (w : HeadChange) => w.engines.length).getD 0

/-! ### MVW_HEAD_CONFIG (R324, R326) -/

/-- Do committed settings fit a format? -/
def HeadSet.fits (y : HeadSet) (fmt : Nat) : Bool :=
  (y.vid.all fun v => !v.2.en || windowFits fmt v.2.x v.2.y v.2.w v.2.h) && (y.gfx.all fun g => !g.2.en || windowFits fmt g.2.x g.2.y g.2.w g.2.h)

/-- The change that an MVW_HEAD_CONFIG is: it applies at the first head Meridian at least 200 µs after reception, of the format and generator
that it gives the head, or that the head has where it disables it. -/
def State.configChange (s : State) (p : List Byte) : HeadChange :=
  let en := bit (u8 p 1) 0
  let old := s.headAt (u8 p 0) s.leadEnd
  let fmt : Nat := if en then u8 p 2 else old.fmt
  let g : Nat := if en then u8 p 3 else old.gen
  ⟨s.headFrame fmt g s.leadEnd, s.changeId, some (en, u8 p 2, u8 p 3, u8 p 4, u32 p 8), none, [], fmt, g, s.leadEnd⟩

/-- The changes of a head that apply before another one. -/
def State.changesBefore (s : State) (h : Nat) (c : HeadChange) : List HeadChange := (s.head h).waiting.takeWhile fun w => decide (s.changeAt w ≤ s.changeAt c)

/-- Do the committed layers of a head, those in force when a configuration applies and those that a later commit brings, fit its format? -/
def State.configFits (s : State) (p : List Byte) : Bool :=
  let h := u8 p 0
  (s.headForm h (s.changesBefore h (s.configChange p))).sets.fits (u8 p 2) && (s.headCommitted h).fits (u8 p 2)

/-- MVW_HEAD_CONFIG. -/
def opMvwHeadConfig : OpSpec where
  code := 0x0700
  cls := .c
  keys := false
  length p := p.length == 16
  fields s p :=
    let en := bit (u8 p 1) 0
    let g := u8 p 3
    [(0, decide (u8 p 0 < 16)), (1, decide (u8 p 1 < 2)), (2, decide (u8 p 2 < 2) && s.configFits p),
     (3, decide (g < 16) && decide (s.genN g ≤ 60 * s.genD g) && (!en || s.genOn g)), (4, !en || s.setUsable (u8 p 4)), (5, zeroAt p 5 3),
     (8, colourOk (u32 p 8)), (12, zeroAt p 12 4)]
  units s p := [(0x0E, u8 p 0)] ++ if bit (u8 p 1) 0 then (0x0B, u8 p 3) :: s.setUnits (u8 p 4) else []
  locked _ _ := false
  cruise := true
  run s x p :=
    let h := u8 p 0
    let c := s.configChange p
    let y := (s.headForm h (s.changesBefore h c)).sets
    let s1 := s.admitChange h c
    let s2 := if bit (u8 p 1) 0 then y.videos.foldl (fun t v => t.takePorts 2 (layerUser h v.1 false) true v.2.source c.gen) s1 else s1
    Done.pending (s2.await ⟨x.tag, x.session, x.entry, .object 12 c.id, none⟩)
      (frameRefBytes c.gen c.frame ++ be8 (s1.changeEngines h c.id) ++ zeros 3 ++ be16 (slotNo (headSlot h (u8 p 2))) ++ zeros 2)

/-! ### MVW_COMMIT (R322, R323, R328) -/

/-- The heads of a mask, ascending. -/
def maskHeads (m : Nat) : List Nat := (List.range 16).filter fun h => bit m h

/-- Do no two enabled video and graphic layers share a Z? -/
def HeadSet.distinctZ (y : HeadSet) : Bool :=
  let zs := ((y.vid.filter fun v => v.2.en).map fun (v : Nat × VidSet) => v.2.z) ++ ((y.gfx.filter fun g => g.2.en).map fun (g : Nat × GfxSet) => g.2.z)
  zs.eraseDups.length == zs.length

/-- The shadow settings still stand as R306-R309 and R327 ask at the commit. -/
def State.shadowOk (s : State) (h : Nat) : Bool :=
  let y := (s.head h).shadow
  let fmt := (s.headNext h).2.1
  (y.vid.all fun v => !v.2.en || (s.vidChecks fmt v.2).all fun c => c.2) && y.gfx.all fun g => !g.2.en || (s.gfxChecks fmt g.2).all fun c => c.2

/-- Admit the commit of one head on the clock of `p`: its shadow settings are captured, with the size of each source as declared, and take their
ports and buffers (R307, R311, R322). -/
def State.admitHead (s : State) (h f id t : Nat) (p : HeadForm) : State :=
  let x := (s.head h).shadow
  let y : HeadSet := { x with vid := x.vid.map fun (v : Nat × VidSet) => (v.1, s.declare v.2) }
  (y.videos.foldl (fun u v => u.takePorts 2 (layerUser h v.1 true) true v.2.source p.gen) s).admitChange h ⟨f, id, none, some y, [], p.fmt, p.gen, t⟩

/-- MVW_COMMIT. -/
def opMvwCommit : OpSpec where
  code := 0x0702
  cls := .c
  keys := false
  length p := p.length == 16
  fields s p :=
    let hs := maskHeads (u16 p 0)
    [(0, !hs.isEmpty && hs.all fun h => !s.present 0x0E h || (s.headNext h).1 && (s.head h).shadow.distinctZ && s.shadowOk h), (2, decide (u8 p 2 < 4)), (3, zeroAt p 3 1)] ++
      if bit (u8 p 2) 0 then timeOk p 4 else []
  own s p := [(4, !bit (u8 p 2) 0 || s.timeAllowed (timeAt p 4) (bit (u8 p 2) 1))]
  units s p := (maskHeads (u16 p 0)).flatMap fun h => (0x0E, h) :: (0x0B, (s.headNext h).2.2) :: s.setUnits (s.headSetNo h)
  locked _ _ := false
  cruise := true
  run s x p :=
    let hs := maskHeads (u16 p 0)
    if hs.any fun h => (s.head h).waiting.any fun (w : HeadChange) => w.commit.isSome then Done.err s stBusy 0xFFFF
    else
      let t : Nat := if bit (u8 p 2) 0 then s.takeTime (timeAt p 4) else s.leadEnd
      let id := s.changeId
      let frames := hs.zipIdx.map fun h =>
        let form := s.headAt h.1 t
        (h.1, form, ((x.targets[h.2]?).map fun r => r.2).getD (s.headFrame form.fmt form.gen t))
      let s1 := frames.foldl (fun u r => u.admitHead r.1 r.2.2 id t r.2.1) s
      let s2 := (s1.await ⟨x.tag, x.session, x.entry, .object 11 id, none⟩).mirrorLate x
      let reply := be32 hs.length ++ frames.flatMap fun r => be8 r.1 ++ be8 (s2.changeEngines r.1 id) ++ zeros 2 ++ frameRefBytes r.2.1.gen r.2.2
      { Done.pending s2 reply with stamp := [] }

/-! ### MVW_GRAPHIC_LOAD (R319, R329) -/

/-- Is a coefficient set in use by a current, committed or pending layer? -/
def State.coefUsed (s : State) (h : Nat) (horizontal : Bool) (n : Nat) : Bool :=
  (s.headSets h).any fun y => y.vid.any fun v => v.2.en && (if horizontal then v.2.hset else v.2.vset) == n

/-- Is a graphic in use by a current, committed or pending layer? -/
def State.graphicUsed (s : State) (o : Nat) : Bool :=
  (List.range 16).any fun h => (s.headSets h).any fun y => y.gfx.any fun g => g.2.en && g.2.handle == o

/-- May the target of a load be loaded or deleted? -/
def State.loadTargetOk (s : State) (p : List Byte) : Bool :=
  let t := u32 p 4
  if u8 p 0 = 0 then
    if t = 0 then !bit (u8 p 1) 0
    else (match s.graphic t with
      | some o => o.ready && !s.graphicUsed t
      | none => false)
  else decide (t / 256 < 16) && decide (1 ≤ t % 256 ∧ t % 256 ≤ 3) && !s.coefUsed (t / 256) (u8 p 0 == 1) (t % 256)

/-- MVW_GRAPHIC_LOAD. A load creates its object at once; buffers of a load in progress are of kind 7. -/
def opMvwGraphicLoad : OpSpec where
  code := 0x0703
  cls := .c
  keys := false
  length p := p.length == 32
  fields s p :=
    let gfx := u8 p 0 == 0
    let del := bit (u8 p 1) 0
    let w := u16 p 8
    let h := u16 p 10
    [(0, decide (u8 p 0 < 3)), (1, decide (u8 p 1 < 2) && (gfx || !del)), (2, zeroAt p 2 2), (4, s.loadTargetOk p),
     (8, if gfx && !del then w % 2 == 0 && decide (2 ≤ w ∧ w ≤ 3840 ∧ 1 ≤ h ∧ h ≤ 2160) else zeroAt p 8 4),
     (12, if gfx && !del then s.setUsable (u8 p 12) else gfx || zeroAt p 12 1), (13, zeroAt p 13 3),
     (24, if gfx && !del then decide (4 * w ≤ u32 p 24) else gfx || zeroAt p 24 4), (28, zeroAt p 28 4)]
  units s p := if u8 p 0 = 0 then (if bit (u8 p 1) 0 then [] else s.setUnits (u8 p 12)) else [(0x0E, u32 p 4 / 256)]
  locked _ _ := false
  cruise := true
  run s x p :=
    let t := u32 p 4
    let id := (s.mvw.loads.map fun (l : GfxLoad) => l.id).foldl max 0 + 1
    if s.mvw.loads.any fun l => l.kind == u8 p 0 && l.target == t then Done.err s stBusy 0xFFFF
    else if u8 p 0 = 0 ∧ bit (u8 p 1) 0 then
      let gs := s.mvw.graphics.filter fun g => g.handle != t
      Done.pending (({ s with mvw := { s.mvw with graphics := gs } }.freeBuffer 3 t).await ⟨x.tag, x.session, x.entry, .instant s.now, none⟩) (be32 t)
    else if u8 p 0 = 0 ∧ t = 0 ∧ 1024 ≤ s.mvw.graphics.length then Done.err s stBusy 0xFFFF
    else
      let o : Nat := if u8 p 0 = 0 ∧ t = 0 then s.mvw.lastGraphic + 1 else t
      let ld : GfxLoad := ⟨u8 p 0, o, u16 p 8, u16 p 10, u64 p 16, u32 p 24, id⟩
      let new : List Graphic := if u8 p 0 = 0 ∧ t = 0 then [⟨o, u16 p 8, u16 p 10, [], false, false⟩] else []
      let m := { s.mvw with graphics := s.mvw.graphics ++ new, lastGraphic := max s.mvw.lastGraphic (if u8 p 0 = 0 then o else 0), loads := s.mvw.loads ++ [ld] }
      let s1 := { s with mvw := m }
      let s2 := if u8 p 0 = 0 then (s1.allocBuffer 7 o (u8 p 12) (u16 p 8 * u16 p 10 * 4)).2 else s1
      Done.pending (s2.await ⟨x.tag, x.session, x.entry, .object 13 id, none⟩) (be32 o)

/-- A word of a graphic: its Y, C and A. -/
def wordY (w : Nat) : Nat := w / 2 ^ 22
def wordC (w : Nat) : Nat := w / 2 ^ 12 % 1024
def wordA (w : Nat) : Nat := w / 4 % 1024

/-- Does a word keep R319; does it keep it for a straight blend too? -/
def wordOk (w : Nat) : Bool :=
  let low := min 4 ((4 * wordA w + 1022) / 1023)
  w % 4 == 0 && decide (wordY w ≤ 1019 ∧ wordC w ≤ 1019) && decide (low ≤ wordY w ∧ low ≤ wordC w)
def wordStraight (w : Nat) : Bool := decide (4 ≤ wordY w ∧ 4 ≤ wordC w)

/-- The words of a row of bytes. -/
def rowWords (b : List Byte) : List Nat := (List.range (b.length / 4)).map fun i => beNat (bytesAt b (4 * i) 4).reverse

/-- Kind of a tile from its alphas: 1 OPAQUE, 2 CLEAR, 0 mixed. -/
def tileKind (rows : List (List Nat)) (tx ty : Nat) : Nat :=
  let ws := ((rows.drop (64 * ty)).take 64).flatMap fun r => (r.drop (64 * tx)).take 64
  if ws.all fun w => wordA w == 1023 then 1 else if ws.all fun w => wordA w == 0 then 2 else 0

/-- The load of a graphic ends: its words are checked, and it takes the place of what the object held. -/
def State.endGraphic (s : State) (l : GfxLoad) : State × Bool :=
  let rows := (List.range l.h).map fun r => s.memRead (l.source + r * l.pitch) (4 * l.w)
  let words := rows.map rowWords
  if words.all fun r => r.all wordOk then
    let tiles := (List.range ((l.h + 63) / 64)).flatMap fun ty => (List.range ((l.w + 63) / 64)).map fun tx => tileKind words tx ty
    let premul := !(words.all fun r => r.all wordStraight)
    let s1 := s.memWrite (s.bufferAt 7 l.target) rows.flatten
    let s2 := s1.freeBuffer 3 l.target
    let bs := s2.mem.bufs.map fun (b : Buffer) => if b.kind = 7 ∧ b.id = l.target then { b with kind := 3 } else b
    let gs := s2.mvw.graphics.map fun (g : Graphic) => if g.handle = l.target then ⟨l.target, l.w, l.h, tiles, premul, true⟩ else g
    ({ s2 with mem := { s2.mem with bufs := bs }, mvw := { s2.mvw with graphics := gs } }, true)
  else
    let gs := s.mvw.graphics.filter fun g => !(g.handle == l.target && !g.ready)
    ({ s with mvw := { s.mvw with graphics := gs } }.freeBuffer 7 l.target, false)

/-- The load of a coefficient set ends: every coefficient is a signed 12-bit value, every phase sums to 1 024 (R310). -/
def State.endCoefs (s : State) (l : GfxLoad) : State × Bool :=
  let taps : Nat := if l.kind = 1 then 8 else 6
  let b := s.memRead l.source (128 * taps)
  let cs := (List.range (64 * taps)).map fun i => sext 16 (beNat (bytesAt b (2 * i) 2).reverse)
  let ok := (cs.all fun c => decide (-2048 ≤ c ∧ c ≤ 2047)) &&
    (List.range 64).all fun ph => decide (((cs.drop (taps * ph)).take taps).foldl (fun (a : Int) (c : Int) => a + c) 0 = 1024)
  let key := (l.target / 256, l.kind == 1, l.target % 256)
  if ok then ({ s with mvw := { s.mvw with coefs := (key, cs) :: s.mvw.coefs.filter fun c => c.1 != key } }, true) else (s, false)

/-! ### The head Meridian (R303, R314, R316, R321, R324) -/

/-- Does a layer go on with its window buffers across a change of settings: same source, declaration, crop and size? -/
def VidSet.continues (a b : VidSet) : Bool :=
  a.en && b.en && { a with z := b.z, x := b.x, y := b.y, hold := b.hold, hset := b.hset, vset := b.vset, alpha := b.alpha, fill := b.fill } == b

/-- A layer starts anew: no frame has been available. -/
def State.startLayer (s : State) (h l : Nat) : State :=
  let i := 64 * h + l
  let s1 := s.putLayer ⟨i, [], 0, 0, true, false, [], [], none, none, none, 0, false, false, none, []⟩
  [(Reg.MVW_L_STAT_LATE i, 0), (Reg.MVW_L_STAT_NEVER i, 1), (Reg.MVW_L_STAT_IDLE i, 0), (Reg.MVW_L_STAT_HOLD_EXP i, 0)].foldl (fun t p => t.wr p.1 p.2) s1
    |>.endCause 0x2805 (srcHead h) i

/-- The window buffers that waited for layer `i` under `k` become the layer's, and those it had are free (R311). -/
def State.swapBuffer (s : State) (i : Nat) (k : Nat × Nat) (en : Bool) : State :=
  let s1 := if s.holds k || !en then s.freeBuffer 2 i else s
  let bs := s1.mem.bufs.map fun (x : Buffer) => if x.kind = k.1 ∧ x.id = k.2 then { x with kind := 2, id := i } else x
  let s2 := { s1 with mem := { s1.mem with bufs := bs } }
  if en then s2.wr64 (Reg.MVW_L_BUF_LO_ADDR i) (Reg.MVW_L_BUF_HI_ADDR i) (s2.bufferAt 2 i) else s2

/-- A head that goes to another channel set has the window buffers of its layers there; no frame has been available in them yet (DEDUCED,
log entry 96). -/
def State.moveBuffers (s : State) (h : Nat) (c : HeadChange) : State :=
  ((s.currentVid h).filter fun v => s.holds (c.bufferKey h v.1)).foldl
    (fun t v => (t.swapBuffer (64 * h + v.1) (c.bufferKey h v.1) true).startLayer h v.1) s

/-- The port and buffers that waited for a layer become the layer's. -/
def State.swapLayer (s : State) (h l : Nat) (c : HeadChange) (v : VidSet) : State :=
  let i := 64 * h + l
  let a := layerUser h l false
  let b := layerUser h l true
  let s1 := s.freePort 2 a
  let pool := s1.fab.pool.map fun (p : IntPort) => { p with users := p.users.map fun u => if u = (2, b) then (2, a) else u }
  { s1 with fab := { s1.fab with pool := pool } }.swapBuffer i (c.bufferKey h l) v.en

/-- A commit applies: the captured shadows of the head become current, all together; the shadow of a layer that no command set holds the reset
values (R321). -/
def State.applyCommit (s : State) (h f : Nat) (c : HeadChange) (y : HeadSet) : State :=
  let unset := ((List.range 64).filter fun l => !(y.vid.any fun v => v.1 == l) && s.vid h l != VidSet.unset).map fun l => (l, VidSet.unset)
  let s1 := (y.vid ++ unset).foldl (fun t v =>
    let old := t.vid h v.1
    let t1 := (t.swapLayer h v.1 c v.2).putVid h v.1 v.2
    if old.continues v.2 && !t.holds (c.bufferKey h v.1) then t1 else t1.startLayer h v.1) s
  let x := s1.head h
  let s2 := s1.putHead { x with cur := y, engines := c.engines }
  (s2.wr64 (Reg.MVW_H_FC_LO_F h) (Reg.MVW_H_FC_HI_F h) f).wr (Reg.MVW_H_STAT_PENDING h) 0

/-- A head has been enabled or goes to another format or generator, by its configuration or a register write: bands of earlier frames that have
not started are given up, a SEQ_RESYNC cell goes before the first frame after those in emission, and where its slot is new the measurement of
the slot begins (R71, R302, R324, log entry 51). `old` is the state before. -/
def State.headTurns (old s : State) (h : Nat) : State :=
  let x := s.head h
  let slot := old.headOn h && old.headFmt h == s.headFmt h
  if !s.headOn h ∨ (slot ∧ old.headGen h = s.headGen h) then s
  else
    let s1 := s.putHead { x with late := [], frame := none, resync := some ((x.emit.map fun (e : OutFrame) => e.m0 + 1).foldl max 0) }
    if slot then s1 else s1.beginMeasure (headSlot h (s.headFmt h))

/-- A head configuration applies (R324). -/
def State.applyConfig (s : State) (h : Nat) (c : HeadChange) (k : Bool × Nat × Nat × Nat × Nat) : State :=
  let s1 := [(Reg.MVW_H_CTL_EN h, b01 k.1), (Reg.MVW_H_CTL_FMT h, k.2.1), (Reg.MVW_H_CTL_GEN h, k.2.2.1), (Reg.MVW_H_BG_COLOUR h, k.2.2.2.2)].foldl
    (fun t p => t.wr p.1 p.2) s
  let x := s1.head h
  if k.1 then (State.headTurns s (s1.putHead { x with set := k.2.2.2.1, engines := c.engines }) h).moveBuffers h c
  else
    let s2 := s1.putHead { x with set := k.2.2.2.1, engines := [], emit := [], store := [], band := none, frame := none, late := [] }
    (List.range 64).foldl (fun t l => t.freePort 2 (layerUser h l false)) s2

/-- Apply one change of a head, and end its command when no head waits for it any more. -/
def State.applyHeadChange (s : State) (h f : Nat) (c : HeadChange) : State :=
  let x := s.head h
  let s1 := s.putHead { x with waiting := x.waiting.filter fun w => w != c }
  let s2 := match c.config with
    | some k => s1.applyConfig h c k
    | none => s1
  let s3 := match c.commit with
    | some y => s2.applyCommit h f c y
    | none => s2
  let left := s3.mvw.heads.any fun (y : Head) => y.waiting.any fun (w : HeadChange) => w.id == c.id
  if left then s3 else (s3.endWait (.object 11 c.id) 0).endWait (.object 12 c.id) 0

/-- Frame `f` of a head begins at `mh`: layers are selected, the Canopy map computed, the bars moved. -/
def State.beginHead (s : State) (h f mh : Nat) : State :=
  let fmt := s.headFmt h
  let g := s.headGen h
  let s1 := (s.newHeadFrame h).wr (Reg.MVW_H_ADV_NS h) (s.advanceOf fmt g)
  let x := s1.head h
  let canopy := canopyOf fmt (s1.laysOf (s1.currentVid h) x.cur.gfx)
  let ls := (s1.currentVid h).map fun (v : Nat × VidSet) => v.1
  let late := (x.frame.toList.filter fun _ => decide (x.nextBand < headBands fmt)).map fun e => (e, x.mh, x.nextBand)
  let s2 := s1.putHead { x with canopy := canopy, late := x.late ++ late, frame := some f, mh := mh, nextBand := 0, emit := x.emit ++ [⟨f, meridianAt (s1.genN g) (s1.genD g) f, 0, fmt, s1.genN g, s1.genD g⟩] }
  let s3 := ls.foldl (fun t l => (t.hideLayer (64 * h + l) (!(tilesOf canopy l).isEmpty)).selectLayer h l mh) s2
  let ms := x.cur.met.filter fun m => m.2.en
  ms.foldl (fun t m => t.moveMeter h mh m.1 m.2) s3

/-- The first waiting change of a head that has come due. -/
def State.dueChange (s : State) (h : Nat) : Option HeadChange := (s.head h).waiting.find? fun c => decide (s.changeAt c ≤ s.chrono)

/-- Apply the due changes of a head, each when its own head Meridian has come; fuel bounds their number. -/
def State.applyDue (s : State) (h : Nat) : Nat → State
  | 0 => s
  | n + 1 =>
    match s.dueChange h with
    | none => s
    | some c => (s.applyHeadChange h c.frame c).applyDue h n

/-- HEAD_MERIDIAN: the head Meridian of head `h` that the Chronograph has reached. -/
def State.headMeridianReached (s : State) (h : Nat) : State :=
  let s1 := (s.applyDue h 16).engineRegs
  let fmt := s1.headFmt h
  let g := s1.headGen h
  let a := s1.advanceOf fmt g
  let f := frameAt (s1.genN g) (s1.genD g) (s1.chrono + a)
  let mh := s1.headMeridian g a f
  let x := s1.head h
  if !s1.headOn h ∨ (x.frame.isSome ∧ mh ≤ x.mh) ∨ meridianAt (s1.genN g) (s1.genD g) f < s1.notBefore g then s1
  else if x.frame = some f then s1
  else s1.beginHead h f mh

/-! ### Commands of the block -/

/-- MVW_HEAD_CONFIG. -/
def execMvwHeadConfig (dt : Nat) (rq : Req) (s : State) : Host.Outcome State Fault Refusal := .next (serve opMvwHeadConfig dt rq s)

/-- MVW_LAYER_SET. -/
def execMvwLayerSet (dt : Nat) (rq : Req) (s : State) : Host.Outcome State Fault Refusal := .next (serve opMvwLayerSet dt rq s)

/-- MVW_COMMIT. -/
def execMvwCommit (dt : Nat) (rq : Req) (s : State) : Host.Outcome State Fault Refusal := .next (serve opMvwCommit dt rq s)

/-- MVW_GRAPHIC_LOAD. -/
def execMvwGraphicLoad (dt : Nat) (rq : Req) (s : State) : Host.Outcome State Fault Refusal := .next (serve opMvwGraphicLoad dt rq s)

/-- GRAPHIC_LOAD_DONE (R329): the oldest load ends and is checked. -/
def execGraphicLoadDone (dt : Nat) (s : State) : Host.Outcome State Fault Refusal :=
  let s1 := s.elapse dt
  .next (match s1.mvw.loads with
    | [] => s1
    | l :: r =>
      let s2 := { s1 with mvw := { s1.mvw with loads := r } }
      let e := if l.kind = 0 then s2.endGraphic l else s2.endCoefs l
      e.1.endWait (.object 13 l.id) (if e.2 then 0 else stBadParam))

/-- Is head `h` powered? -/
def State.headRuns (s : State) (h : Nat) : Bool := decide (h < 16) && s.isReady 0x0E h

/-- HEAD_MERIDIAN (R303). -/
def execHeadMeridian (dt h : Nat) (s : State) : Host.Outcome State Fault Refusal :=
  let s1 := (s.elapse dt).followReads
  .next (if s1.headRuns h then s1.headMeridianReached h else s1)

/-- BAND_START (R304): the next band starts, no earlier than its window, when no band runs and the store of four bands has
room. -/
def execBandStart (dt h : Nat) (s : State) : Host.Outcome State Fault Refusal :=
  let s1 := (s.elapse dt).followReads
  let x := s1.head h
  let g := s1.headGen h
  let hh := headHeight (s1.headFmt h)
  let used := (x.store.map fun (r : Nat × Nat × List Byte) => (r.1, r.2.1 / 64)).eraseDups.length
  .next (match x.nextUp with
    | some (f, mh, b) =>
      let open_ := decide (64 * b * s1.genD g * 10 ^ 9 ≤ (s1.chrono - mh) * s1.genN g * hh)
      if s1.headRuns h ∧ s1.headOn h ∧ x.band.isNone ∧ b < headBands (s1.headFmt h) ∧ mh ≤ s1.chrono ∧ open_ ∧ used < 4 then s1.composeBand h f b
      else s1
    | none => s1)

/-- BAND_COMPLETE (R304): the band in composition is finished; its rows go to the output store, but for those whose time
has passed. -/
def execBandComplete (dt h : Nat) (s : State) : Host.Outcome State Fault Refusal :=
  let s1 := (s.elapse dt).followReads
  let x := s1.head h
  .next (match x.band with
    | some (f, _, rows) =>
      let due := fun (y : Nat) => x.emit.any fun (e : OutFrame) => e.frame == f && decide (e.row ≤ y)
      let keep := (rows.filter fun r => due r.1).map fun (r : Nat × List Byte) => (f, r.1, r.2)
      s1.putHead { x with band := none, store := x.store ++ keep }
    | none => s1)

/-- HEAD_ROW_EMIT (R304): a row leaves the store into cells at M0 − 13 000 ns + L × T_h / V_total; a row that is not
composed is counted. -/
def execHeadRowEmit (dt h : Nat) (s : State) : Host.Outcome State Fault Refusal :=
  let s1 := (s.elapse dt).followReads
  let x := s1.head h
  .next (match x.nextOut with
    | none => s1
    | some e =>
      if (s1.chrono + 13000) * e.scale < e.due ∨ !s1.headRuns h then s1
      else
        let y := x.tookRow e
        match x.store.find? fun r => r.1 == e.frame && r.2.1 == e.row with
        | some r => (s1.putHead { y with store := x.store.filter fun z => !(z.1 == e.frame && z.2.1 == e.row) }).emitRow h e r.2.2
        | none => (((s1.putHead y).bump (Reg.MVW_H_OVERRUN_COUNT h) 1).wr (Reg.MVW_H_STAT_OVERRUN h) 1).headEvent h 0x2806 h)

/-- LAYER_SOF_WRITE (R312): the writer of layer `l` of head `h` takes up the source frame whose SOF has been written. -/
def execLayerSofWrite (dt h l : Nat) (s : State) : Host.Outcome State Fault Refusal :=
  let s1 := (s.elapse dt).followReads
  let x := s1.layer (64 * h + l)
  .next (if s1.headRuns h ∧ s1.headOn h ∧ l < 64 ∧ s1.flag (Reg.MVW_L_CTL_EN (64 * h + l)) ∧ !x.taken ∧ x.sofAt ≤ s1.chrono then s1.takeFrame h l else s1)

end Sys2Proof.Machine
end

