-- ==== Sys2Proof/Machine/LanCmds.lean ====
section
/-!
DEFINITION. The LAN commands (R175-R179, R208), the events of lanes and Stave links, and what writes of the LNQ
registers do (R181, R192, R210).
-/
namespace Sys2Proof.Machine

/-! ### LAN_CONFIG (R155, R170, R175, R212) -/

/-- The port of 1, 2 or 4 lanes that a lane belongs to: first lane and number of lanes. -/
def State.portOfLane (s : State) (l : Nat) : Option (Nat × Nat) :=
  let size := fun (p : Nat) => ([0, 1, 1, 2, 4] : List Nat).getD (s.rd (Reg.NET_CTL_MODE p)) 0
  if 64 ≤ l then none
  else ((List.range 4).map fun i => l - i).findSome? fun p => if p ≤ l ∧ l < p + size p then some (p, size p) else none

/-- Program a lane as a LAN_CONFIG payload says. A mode, precoding or enable change restarts the affected directions
from cold. -/
def State.applyLaneConfig (s : State) (p : List Byte) : State :=
  let l := u16 p 0
  let fl := u8 p 3
  let m := u8 p 2
  let recode := fun (f : FieldRef) (b : Nat) => m != 2 && s.flag f != bit fl b
  let txNew := s.laneMode l != m || s.flag (Reg.LNQ_LCFG_TX_EN l) != bit fl 0 || recode (Reg.LNQ_LCFG_TX_PRECODE l) 2
  let rxNew := s.laneMode l != m || s.flag (Reg.LNQ_LCFG_RX_EN l) != bit fl 1 || recode (Reg.LNQ_LCFG_RX_PRECODE l) 3
  let s1 := ((s.wr (Reg.LNQ_LCFG_MODE l) m).wr (Reg.LNQ_LCFG_TX_EN l) (b01 (bit fl 0))).wr (Reg.LNQ_LCFG_RX_EN l) (b01 (bit fl 1))
  let s2 := if m = 2 then s1 else
    (s1.wr (Reg.LNQ_LCFG_TX_PRECODE l) (b01 (bit fl 2))).wr (Reg.LNQ_LCFG_RX_PRECODE l) (b01 (bit fl 3))
  let s3 := (s2.wr (Reg.LNQ_LCFG_TX_INV l) (b01 (bit fl 4))).wr (Reg.LNQ_LCFG_RX_INV l) (b01 (bit fl 5))
  let s4 := if bit fl 6 ∧ m ≠ 2 then
      (((((s3.wr (Reg.LNQ_TXFFE_CM3 l) (u8 p 4)).wr (Reg.LNQ_TXFFE_CM2 l) (u8 p 5)).wr (Reg.LNQ_TXFFE_CM1 l) (u8 p 6)).wr
        (Reg.LNQ_TXFFE_CP1 l) (u8 p 7)).deriveC0 l).wr (Reg.LNQ_STX_CTL_EQ_ACCEPT l) 0
    else s3
  let s5 := s4.wr (Reg.LNQ_TXAMP_CODE l) (u8 p 8)
  let s6 := if u8 p 10 = 0 then s5 else s5.wr (Reg.LNQ_FOMTH_WARN l) (u8 p 10)
  let s7 := if u8 p 11 = 0 then s6 else s6.wr (Reg.LNQ_FOMTH_FAIL l) (u8 p 11)
  let s8 := if rxNew then (s7.rxCauses l).coldRx l else s7.clampDfe l
  let s9 := if bit fl 7 then (s8.wr (Reg.LNQ_RXCTLE_PEAK l) (u8 p 9)).wr (Reg.LNQ_ADAPT_CTLE_EN l) 0 else s8
  let s10 := if m = 1 ∧ bit fl 0 then s9.wr (Reg.LNQ_STX_CTL_EN l) 1 else s9
  let s11 := if txNew then (s10.setTxReady l false) else s10
  s11.refreshLane l

/-- The settings of a port return to their defaults: those of NET_CTL, NET_PAUSE_WD, NET_PFC_MAP and NET_FECTH, and MACsec without SAs. The start
thresholds of its queues stay, which fall by register write only (R220). -/
def State.portDefaults (s : State) (p : Nat) : State :=
  ([Reg.NET_CTL_AN p, Reg.NET_CTL_FC_MODE p, Reg.NET_CTL_MACSEC_EN p, Reg.NET_CTL_PTP_CLEAR p, Reg.NET_PAUSE_WD_MS p,
    Reg.NET_PAUSE_WD_HOLD_MS p, Reg.NET_PFC_MAP_MAP p, Reg.NET_FECTH_CW p].foldl (fun t f => t.wr f f.reset) s).defaultMacsec p

/-- A LAN_CONFIG that selects mode 2 on a lane of no port forms a 100GBASE-KR1 port with default settings, with both directions of the lane
enabled (R212); it comes up where the command enables the lane (DESIGN CHOICE, log entry 112). Another mode ends such a port. -/
def State.formKr1 (s : State) (l m : Nat) (enable : Bool) : State :=
  if 64 ≤ l then s
  else if m = 2 then
    if (s.portOfLane l).isSome then s
    else
      let s1 := ((s.wr (Reg.LNQ_LCFG_TX_EN l) 1).wr (Reg.LNQ_LCFG_RX_EN l) 1).refreshLane l
      (((s1.portDefaults l).wr (Reg.NET_CTL_MODE l) 1).wr (Reg.NET_CTL_EN l) (b01 enable)).restartPort l
  else if (s.portOfLane l) = some (l, 1) then ((s.wr (Reg.NET_CTL_MODE l) 0).wr (Reg.NET_CTL_EN l) 0).restartPort l
  else s

/-- LAN_CONFIG (R175). -/
def opLanConfig : OpSpec where
  code := 0x0400
  cls := .c
  keys := false
  length p := p.length == 16
  fields s p :=
    let l := u16 p 0
    let fl := u8 p 3
    let warn : Nat := if u8 p 10 = 0 then s.rd (Reg.LNQ_FOMTH_WARN l) else u8 p 10
    let fail : Nat := if u8 p 11 = 0 then s.rd (Reg.LNQ_FOMTH_FAIL l) else u8 p 11
    let ffe := bit fl 6 && u8 p 2 != 2
    [(0, decide (l < 128) && !((s.portOfLane l).any fun x => decide (1 < x.2))),
     (2, decide (u8 p 2 ≤ 2) && (u8 p 2 != 2 || decide (l < 64)) && (!s.partnerLane l || u8 p 2 == s.laneMode l)),
     (3, (u8 p 2 != 2 || bit fl 0 == bit fl 1) && (!s.partnerLane l || (bit fl 0 && bit fl 1))),
     (4, !ffe || decide (u8 p 4 ≤ 4)), (5, !ffe || decide (u8 p 5 ≤ 8)), (6, !ffe || decide (u8 p 6 ≤ 22)),
     (7, !ffe || (decide (u8 p 7 ≤ 13) && decide (u8 p 4 + u8 p 5 + u8 p 6 + u8 p 7 ≤ 32))), (8, decide (u8 p 8 ≤ 24)),
     (9, !bit fl 7 || decide (u8 p 9 ≤ 48)), (11, decide (fail < warn)), (12, zeroAt p 12 4)]
  units _ p := [(0x11, u16 p 0)]
  locked _ _ := false
  cruise := true
  run s _ p :=
    let l := u16 p 0
    let s1 := (s.applyLaneConfig p).formKr1 l (u8 p 2) (bit (u8 p 3) 0)
    Done.ok ((s1.modLane l fun x => { x with kept := some p })) []

/-! ### LAN_STATUS, LAN_FOM (R177, R178) -/

/-- Bits of the present causes of a lane's events 0x2301-0x2308: for PLL_UNLOCK, of the PLL of its quad that its mode uses. -/
def State.laneCauses (s : State) (l : Nat) : Nat :=
  let here := fun (i : Nat) =>
    if i = 5 then s.causePresent 0x2306 (srcLane (l / 4 * 4)) (l / 4 + 65536 * b01 (s.laneMode l == 2)) else s.causePresent (0x2301 + i) (srcLane l) l
  ((List.range 8).map fun i => if here i then 2 ^ i else 0).sum

/-- One LAN_STATUS entry (Table 6.7). -/
def State.laneEntry (s : State) (l : Nat) : List Byte :=
  let st := s.rd (Reg.LNQ_LSTAT_BITS l) + 32 * s.rd (Reg.LNQ_LCFG_TX_PRECODE l) + 64 * s.rd (Reg.LNQ_LCFG_RX_PRECODE l) +
    128 * s.rd (Reg.LNQ_ADAPT_FREEZE l)
  let up : Nat := ((s.lane l).rxReadySince.map fun t => (s.now - t) / 10 ^ 9).getD 0
  be16 l ++ be8 (s.laneMode l) ++ be8 st ++ be8 (s.rd (Reg.LNQ_FOM_FOM l)) ++ be8 (s.rd (Reg.LNQ_FOM_MIN l)) ++
    be8 (s.rd (Reg.LNQ_RXCTLE_PEAK l)) ++ be8 (s.rd (Reg.LNQ_SLEEP_TX_STATE l) + 16 * s.rd (Reg.LNQ_SLEEP_RX_STATE l)) ++
    be16 (s.laneCauses l) ++ zeros 2 ++ be32 (min up (2 ^ 32 - 1))

/-- The lanes of a range, as units. -/
def laneRange (first count : Nat) : List (Nat × Nat) := (List.range count).map fun i => (0x11, first + i)

/-- LAN_STATUS (R177). -/
def opLanStatus : OpSpec where
  code := 0x0401
  cls := .q
  keys := false
  length p := p.length == 4
  fields _ p := [(0, decide (u16 p 0 < 128)), (2, decide (1 ≤ u16 p 2 ∧ u16 p 2 ≤ 128) && decide (u16 p 0 + u16 p 2 ≤ 128))]
  units _ p := laneRange (u16 p 0) (u16 p 2)
  locked _ _ := false
  cruise := false
  run s _ p := Done.ok s (be32 (u16 p 2) ++ (List.range (u16 p 2)).flatMap fun i => s.laneEntry (u16 p 0 + i))

/-- LAN_FOM (R178). -/
def opLanFom : OpSpec where
  code := 0x0402
  cls := .q
  keys := false
  length p := p.length == 4
  fields _ p := [(0, decide (u16 p 0 < 128)), (2, decide (u8 p 2 < 2)), (3, zeroAt p 3 1)]
  units _ p := [(0x11, u16 p 0)]
  locked _ _ := false
  cruise := false
  run s _ p :=
    let l := u16 p 0
    let x := s.lane l
    let body := be8 (s.rd (Reg.LNQ_FOM_FOM l)) ++ be8 (s.rd (Reg.LNQ_FOM_MIN l)) ++ be8 x.fomMax ++ be8 (s.rd (Reg.LNQ_RXCTLE_PEAK l)) ++
      be16 (toBits 16 (s.rdInt (Reg.LNQ_DFE_TAP l))) ++ be16 (s.rd (Reg.LNQ_TXFFE_C0 l)) ++ x.ffe.flatMap fun c => be16 (toBits 16 c)
    Done.ok (if bit (u8 p 2) 0 then (s.wr (Reg.LNQ_FOM_MIN l) 255).modLane l fun y => { y with fomMax := 0 } else s) body

/-! ### LAN_SLEEP (R179) -/

/-- Ask the states of one lane's directions; 0xFF leaves one unchanged. -/
def State.sleepLane (s : State) (l tx rx : Nat) (sig : Bool) : State :=
  let s1 := if tx = 0xFF then s else (s.wr (Reg.LNQ_SLEEP_TX l) tx).requestSleep l true tx
  let s2 := if rx = 0xFF then s1 else (s1.wr (Reg.LNQ_SLEEP_RX l) rx).requestSleep l false rx
  let s3 := s2.wr (Reg.LNQ_SLEEP_WAKE_ON_SIG l) (b01 sig)
  s3.modLane l fun x => { x with keptSleep := some (if tx = 0xFF then (x.keptSleep.map (·.1)).getD 0xFF else tx,
    if rx = 0xFF then (x.keptSleep.map (·.2.1)).getD 0xFF else rx, b01 sig) }

/-- Is a lane's domain on? -/
def State.laneOn (s : State) (l : Nat) : Bool := decide (l < 128) && s.present 0x11 l && s.domOn (4 + l / 4) && !s.shutIn 0x11 l

/-- A direction whose transition is due completes it and acts on any held request (R171). A receiver that leaves deep sleep starts from its
stored coefficients (R169). -/
def State.sleepEnd (s : State) (l : Nat) (tx : Bool) : State :=
  let d := if tx then (s.lane l).tx else (s.lane l).rx
  match d.endsAt with
  | none => s
  | some e =>
    if s.now < e then s
    else
      let reg := if tx then Reg.LNQ_SLEEP_TX_STATE l else Reg.LNQ_SLEEP_RX_STATE l
      let was := s.rd reg
      let done : LaneDir := ⟨d.target, none, none⟩
      let s1 := (s.wr reg d.target).modLane l fun x => if tx then { x with tx := done } else { x with rx := done, stored := x.stored || was == 2 }
      let s2 := match d.held with
        | some t => s1.requestSleep l tx t
        | none => s1
      s2.refreshLane l

/-- Until when a direction of some lane of a list is in transition. -/
def State.transitionsEnd (s : State) (lanes : List Nat) : Nat :=
  (lanes.flatMap fun l => [(s.lane l).tx.endsAt.getD 0, (s.lane l).rx.endsAt.getD 0]).foldl max s.now

/-- The time passes until the lanes of a list have completed their entries, the one in progress and then the one that is held (R171, R179). -/
def State.entriesDone (s : State) (lanes : List Nat) : State :=
  (List.range 2).foldl (fun t _ =>
    lanes.foldl (fun u l => (u.sleepEnd l true).sleepEnd l false) (t.elapse (t.transitionsEnd lanes - t.now))) s

/-- LAN_SLEEP (R179). A request that only puts directions to sleep is answered once their entry is complete (DESIGN CHOICE, log entry 99). -/
def opLanSleep : OpSpec where
  code := 0x0403
  cls := .c
  keys := false
  length p := p.length == 8
  fields s p :=
    let lanes := (List.range (u16 p 2)).map fun i => u16 p 0 + i
    let inRange := decide (1 ≤ u16 p 2 ∧ u16 p 2 ≤ 128) && decide (u16 p 0 + u16 p 2 ≤ 128)
    [(0, decide (u16 p 0 < 128)),
     (2, inRange && (lanes.all fun l => match s.portOfLane l with
        | some (f, n) => decide (n < 2) || (decide (u16 p 0 ≤ f) && decide (f + n ≤ u16 p 0 + u16 p 2))
        | none => true)),
     (4, (decide (u8 p 4 ≤ 2) || u8 p 4 == 0xFF) && (u8 p 4 == 0 || u8 p 4 == 0xFF || !lanes.any s.partnerLane)),
     (5, (decide (u8 p 5 ≤ 2) || u8 p 5 == 0xFF) && (u8 p 5 == 0 || u8 p 5 == 0xFF || !lanes.any s.partnerLane)),
     (6, decide (u8 p 6 < 2)), (7, zeroAt p 7 1)]
  units _ p := laneRange (u16 p 0) (u16 p 2)
  locked _ _ := false
  cruise := true
  run s x p :=
    let lanes := (List.range (u16 p 2)).map fun i => u16 p 0 + i
    let wakesTx := if u8 p 4 = 0 then lanes.filter fun l => s.rd (Reg.LNQ_SLEEP_TX_STATE l) != 0 || (s.lane l).tx.endsAt.isSome else []
    let wakesRx := if u8 p 5 = 0 then lanes.filter fun l => s.rd (Reg.LNQ_SLEEP_RX_STATE l) != 0 || (s.lane l).rx.endsAt.isSome else []
    let s1 := lanes.foldl (fun t l => t.sleepLane l (u8 p 4) (u8 p 5) (bit (u8 p 6) 0)) s
    if wakesTx.isEmpty ∧ wakesRx.isEmpty then Done.ok (s1.entriesDone lanes) []
    else
      Done.pending (s1.await ⟨x.tag, x.session, x.entry, .lanes wakesTx wakesRx, if wakesRx.isEmpty then none else some (s.now + 20000000)⟩) []

/-! ### LAN_SLOTMASK (R208) -/

/-- Is a position of a lane used, as an output or a source, by a route, bond or flow? -/
def State.positionUsed (s : State) (n : Nat) : Bool :=
  (s.connected.any fun q => q / 4 == n || fullSlot (s.selCur q).src == n) ||
    (s.eph.takes.any fun t => t.routes.any fun r => fullSlot r.out == n || (r.valid && fullSlot r.source == n)) ||
    (s.fab.bonds.any fun b => b.members.contains n) || s.net.flows.any fun f => f.onSlot && fullSlot f.slotKey == n

/-- LAN_SLOTMASK (R208). -/
def opLanSlotmask : OpSpec where
  code := 0x0404
  cls := .c
  keys := false
  length p := p.length == 16
  fields s p :=
    let l := u16 p 0
    let manual := bit (u8 p 2) 0
    let y : Layout := ⟨u16 p 6, u16 p 4, u64 p 8⟩
    let old := s.outQmap l
    [(0, decide (l < 128) && (!s.present 0x11 l || s.laneMode l == 1)), (2, decide (u8 p 2 < 2)), (3, zeroAt p 3 1),
     (4, decide (u16 p 4 < 512) && (List.range 9).all fun i => bit (u16 p 4) i == bit old i || !(s.connected.any fun q => q / 4 == 9 * l + i) &&
        !(s.eph.takes.any fun t => t.routes.any fun r => fullSlot r.out == 9 * l + i) &&
        !(s.fab.bonds.any fun b => b.members.contains (9 * l + i)) && !(s.net.flows.any fun f => f.tx && f.onSlot && fullSlot f.slotKey == 9 * l + i)),
     (6, if manual then decide (u16 p 6 < 512) && (s.connected.all fun q => q / 36 != l ||
          (if bit (u16 p 4) (q / 4 % 9) then true else bit (u16 p 6) (q / 4 % 9))) else u16 p 6 == 0),
     (8, if manual then decide (u64 p 8 < 2 ^ 36) && (List.range 36).all (fun i => !bit (u64 p 8) i || bit (u16 p 4) (i / 4)) &&
          (s.connected.all fun q => q / 36 != l || !bit (u16 p 4) (q / 4 % 9) || y.active (q % 36)) else u64 p 8 == 0)]
  units _ p := [(0x11, u16 p 0)]
  locked _ _ := false
  cruise := true
  run s _ p :=
    let l := u16 p 0
    let manual := bit (u8 p 2) 0
    let y : Layout := if manual then ⟨u16 p 6, u16 p 4, u64 p 8⟩ else s.autoLayout l (u16 p 4)
    let s1 := s.modLane l fun x => { x with forward := if manual then some y else none, manual := manual, qmapSet := u16 p 4 }
    let s2 := (s1.wr (Reg.LNQ_STX_MASK_SLOTS l) y.slots).wr (Reg.LNQ_STX_MASK_QMAP l) y.qmap
    let s3 := ((s2.wr (Reg.LNQ_STX_QACT_LO_Q l) y.qact).wr (Reg.LNQ_STX_QACT_HI_Q l) (y.qact / 2 ^ 32)).wr (Reg.LNQ_STX_CTL_AUTO l) (b01 (!manual))
    Done.ok s3 (be64 s.nextSuperframe)

/-- LAN_CONFIG. -/
def execLanConfig (dt : Nat) (rq : Req) (s : State) : Host.Outcome State Fault Refusal := .next (serve opLanConfig dt rq s)

/-- LAN_STATUS. -/
def execLanStatus (dt : Nat) (rq : Req) (s : State) : Host.Outcome State Fault Refusal := .next (serve opLanStatus dt rq s)

/-- LAN_FOM. -/
def execLanFom (dt : Nat) (rq : Req) (s : State) : Host.Outcome State Fault Refusal := .next (serve opLanFom dt rq s)

/-- LAN_SLEEP. -/
def execLanSleep (dt : Nat) (rq : Req) (s : State) : Host.Outcome State Fault Refusal := .next (serve opLanSleep dt rq s)

/-- LAN_SLOTMASK. -/
def execLanSlotmask (dt : Nat) (rq : Req) (s : State) : Host.Outcome State Fault Refusal := .next (serve opLanSlotmask dt rq s)

/-! ### Events of lanes -/

/-- SLEEP_TRANSITION_END (R171): a direction completes its entry or exit and acts on any held request. -/
def execSleepTransitionEnd (dt l : Nat) (tx : Bool) (s : State) : Host.Outcome State Fault Refusal :=
  let s1 := s.elapse dt
  .next (if s1.laneOn l then (s1.sleepEnd l tx).settle else s1)

/-- LANE_SIGNAL_DETECT (R169): the signal detector asserts. A sleeping receiver with WAKE_ON_SIG wakes. -/
def execLaneSignalDetect (dt l : Nat) (s : State) : Host.Outcome State Fault Refusal :=
  let s1 := s.elapse dt
  .next (if !s1.laneOn l then s1
    else
      let s2 := (s1.setLstat l 0 true).endCause 0x2301 (srcLane l) l
      if s2.rd (Reg.LNQ_SLEEP_RX_STATE l) ≠ 0 ∧ s2.flag (Reg.LNQ_SLEEP_WAKE_ON_SIG l) then
        ((s2.wr (Reg.LNQ_SLEEP_RX l) 0).requestSleep l false 0).laneEvent 0x2307 l
      else s2.refreshLane l)

/-- LN_LOS (R174): the signal detector deasserts; an enabled receiver that is awake raises its event. -/
def execLnLos (dt l : Nat) (s : State) : Host.Outcome State Fault Refusal :=
  let s1 := s.elapse dt
  .next (if !s1.laneOn l ∨ !s1.lstat l 0 then s1
    else
      let s2 := (((s1.setLstat l 0 false).setLstat l 1 false).endCause 0x2302 (srcLane l) l).wr (Reg.LNQ_FOM_FOM l) 0
      (if s2.rd (Reg.LNQ_SLEEP_RX_STATE l) = 0 ∧ s2.flag (Reg.LNQ_LCFG_RX_EN l) ∧ s2.laneMode l ≠ 0 then s2.laneEvent 0x2301 l else s2).refreshLane l)

/-- LN_CDR_UNLOCK (R174): CDR lock is lost while signal is present. -/
def execLnCdrUnlock (dt l : Nat) (s : State) : Host.Outcome State Fault Refusal :=
  let s1 := s.elapse dt
  .next (if !s1.laneOn l ∨ !s1.lstat l 0 ∨ !s1.lstat l 1 then s1
    else (((s1.setLstat l 1 false).wr (Reg.LNQ_FOM_FOM l) 0).laneEvent 0x2302 l).refreshLane l)

/-- CDR_LOCK (R168): the CDR of an enabled receiver locks on the incoming signal. -/
def execCdrLock (dt l : Nat) (s : State) : Host.Outcome State Fault Refusal :=
  let s1 := s.elapse dt
  .next (if !s1.laneOn l ∨ !s1.lstat l 0 ∨ !s1.flag (Reg.LNQ_LCFG_RX_EN l) ∨ s1.laneMode l = 0 then s1
    else (((s1.setLstat l 1 true).endCause 0x2302 (srcLane l) l).refreshLane l).settle)

/-- PLL_UNLOCK (R174): a PLL in use loses lock; its transmitters idle until it locks again. -/
def execPllUnlock (dt quad : Nat) (b : Bool) (s : State) : Host.Outcome State Fault Refusal :=
  let s1 := s.elapse dt
  .next (if !s1.laneOn (4 * quad) ∨ !s1.flag (pllLock quad b) then s1
    else ((s1.wr (pllLock quad b) 0).raise 0x2306 (srcLane (4 * quad)) (quad + 65536 * b01 b)).refreshQuad quad)

/-- PLL_LOCK (R174): a PLL in use reaches lock; its transmitters become READY. -/
def execPllLock (dt quad : Nat) (b : Bool) (s : State) : Host.Outcome State Fault Refusal :=
  let s1 := s.elapse dt
  .next (if !s1.laneOn (4 * quad) ∨ !((List.range 4).any fun i => s1.usesPll (4 * quad + i) b) then s1
    else (((s1.wr (pllLock quad b) 1).endCause 0x2306 (srcLane (4 * quad)) (quad + 65536 * b01 b)).refreshQuad quad).settle)

/-- The end of a FOM window (R164-R167): `e` is the mean square error in 2^-20, `move` the CTLE step that adaptation
takes, up or down, if any. -/
def State.fomWindow (s : State) (l e : Nat) (move : Option Bool) : State :=
  let x := s.lane l
  let fom := fomOf e
  let foms := (fom :: x.foms).take 8
  let s1 := (s.wr (Reg.LNQ_FOM_FOM l) fom).wr (Reg.LNQ_FOM_MIN l) (min (s.rd (Reg.LNQ_FOM_MIN l)) fom)
  let w := s1.fomThreshold l 0x2303 (s.rd (Reg.LNQ_FOMTH_WARN l)) (x.runs.getD 0 0) (x.runs.getD 1 0) fom
  let f := w.1.fomThreshold l 0x2304 (s.rd (Reg.LNQ_FOMTH_FAIL l)) (x.runs.getD 2 0) (x.runs.getD 3 0) fom
  let s2 := f.1.modLane l fun y => { y with
    foms := foms, fomMax := max y.fomMax fom, runs := [w.2.1, w.2.2, f.2.1, f.2.2], eqWindows := y.eqWindows + 1
    barred := (y.barred.map fun b => (b.1, b.2 - 1)).filter fun b => b.2 != 0 }
  if x.stored ∧ fom < s.rd (Reg.LNQ_FOMTH_FAIL l) then s2.coldRx l
  else
    let s3 := s2.modLane l fun y => { y with stored := false }
    let peak := s3.rd (Reg.LNQ_RXCTLE_PEAK l)
    -- a step in evaluation: undone when the FOM fell by more than 2 units, unless FREEZE keeps it or the CTLE adapts no more
    let s4 := match x.step with
      | none => s3
      | some (up, before) =>
        let t := s3.modLane l fun y => { y with step := none }
        if fom + 2 < before ∧ !x.freezing ∧ t.flag (Reg.LNQ_ADAPT_CTLE_EN l) then
          (t.wr (Reg.LNQ_RXCTLE_PEAK l) (if up then peak - 1 else min 48 (peak + 1))).modLane l fun y => { y with barred := (up, 16) :: y.barred.filter fun b => b.1 != up }
        else t
    let free := !s4.flag (Reg.LNQ_ADAPT_FREEZE l) && s4.flag (Reg.LNQ_ADAPT_CTLE_EN l) && x.step.isNone
    let p4 := s4.rd (Reg.LNQ_RXCTLE_PEAK l)
    let s5 := match move with
      | none => s4
      | some up =>
        let ok := free && !((s4.lane l).barred.any fun b => b.1 == up) && (if up then decide (p4 < 48) else decide (0 < p4))
        if ok then (s4.wr (Reg.LNQ_RXCTLE_PEAK l) (if up then p4 + 1 else p4 - 1)).modLane l fun y => { y with step := some (up, fom) } else s4
    let hi := foms.foldl max 0
    let lo := foms.foldl min 255
    let s6 := if foms.length = 8 ∧ hi ≤ lo + 1 then s5.setLstat l 2 true else s5
    let runs := List.zipWith (fun (b : Bool) n => if b then n + 1 else 0) (s6.limits l) x.limitRuns
    let s7 := s6.modLane l fun y => { y with limitRuns := runs, freezing := false }
    let s8 := if runs.contains 16 then s7.laneEvent 0x2305 l
      else if runs.all fun n => decide (n < 16) then s7.endCause 0x2305 (srcLane l) l else s7
    (s8.refreshLane l).settle

/-- The receiver runs: awake, enabled, CDR locked. -/
def State.rxRuns (s : State) (l : Nat) : Bool :=
  s.laneOn l && s.flag (Reg.LNQ_LCFG_RX_EN l) && s.rd (Reg.LNQ_SLEEP_RX_STATE l) == 0 && s.lstat l 1

/-- The part as requester makes one equalisation request while its receiver is UP and its transmitter sends superframes (R206): tap and
action of Table 7.5. -/
def State.eqAsk (s : State) (l : Nat) (eq : Option (Nat × Nat)) (finished : Bool) : State :=
  let x := s.lane l
  if s.rd (Reg.LNQ_SRX_STAT_STATE l) ≠ 3 ∨ !s.staveSends l ∨ !s.flag (Reg.LNQ_STX_CTL_EQ_REQ l) ∨ x.eqDone then s
  else if finished then s.putLane { x with eqDone := true, eqRequest := 0 }
  else match eq with
    | none => s
    | some (tap, act) =>
      if x.eqWindows < 4 ∨ 256 ≤ x.eqCount ∨ tap = 0 ∨ 5 < tap ∨ 3 < act then s
      else s.putLane { x with eqReqSeq := (x.eqReqSeq + 1) % 256, eqCount := x.eqCount + 1, eqWindows := 0, eqRequest := tap + 16 * act }

/-- FOM_WINDOW_END (R164): a window of 2^24 symbols ends. `errors` are the bit errors that the pattern checker, where it is on, has found
in the window (Table 6.8). -/
def execFomWindowEnd (dt l : Nat) (e : WindowCount) (move : Option Bool) (eq : Option (Nat × Nat)) (finished : Bool) (s : State) :
    Host.Outcome State Fault Refusal :=
  let s1 := s.elapse dt
  .next (if s1.rxRuns l then
      let s2 := if s1.rd (Reg.LNQ_PRBS_RX_CHK l) = 0 then s1 else s1.bumpSat (Reg.LNQ_PRBS_ERR_COUNT l) e.pattern
      (s2.fomWindow l e.meanSquare move).eqAsk l eq finished
    else s1.wr (Reg.LNQ_FOM_FOM l) 0)

/-- A sign-sign step of a coefficient, held in `[-lim, hi]`. -/
def lmsStep (c sign : Int) (lim hi : Int) : Int :=
  let d : Int := if 0 < sign then 1 else if sign < 0 then -1 else 0
  max (-lim) (min hi (c + d))

/-- ADAPT_LMS_UPDATE (R166): FFE and DFE taps take a sign-sign step, at most 1/256 each; the main cursor never moves. -/
def execAdaptLmsUpdate (dt l : Nat) (signs : List Int) (dfe : Int) (s : State) : Host.Outcome State Fault Refusal :=
  let s1 := s.elapse dt
  .next (if !s1.rxRuns l ∨ s1.flag (Reg.LNQ_ADAPT_FREEZE l) then s1
    else
      let x := s1.lane l
      let s2 := if s1.flag (Reg.LNQ_ADAPT_FFE_EN l) then
          s1.putLane { x with ffe := x.ffe.zipIdx.map fun c => if c.2 = 4 then 256 else lmsStep c.1 (signs.getD c.2 0) 512 511 }
        else s1
      if s2.flag (Reg.LNQ_ADAPT_DFE_EN l) then
        let lim : Int := s2.dfeLimit l
        s2.wrInt (Reg.LNQ_DFE_TAP l) (lmsStep (s2.rdInt (Reg.LNQ_DFE_TAP l)) dfe lim lim)
      else s2)

/-! ### Superframes -/

/-- Is now S0 − 1.000 µs of a superframe that is sent, within the 2 ns of R184 (R192, R198)? -/
def State.latchNow (s : State) : Bool :=
  decide ((s.chrono + 1002) % 125000 ≤ 4) && decide (s.tim.superAfter ≤ (s.chrono + 1002) / 125000 * 125000)

/-- STX_LAYOUT_LATCH (R192, R193): at S0 − 1 µs the transmitter latches the layout last put forward for the superframe that begins at S0.
Under AUTO ranger firmware keeps slot mask and quarter-active set, save for one superframe those that a MASK_GO put forward, and the quarter
map is that of LAN_SLOTMASK (DEDUCED, log entry 95). At any other instant, and once a superframe has its layout, nothing is latched. -/
def execStxLayoutLatch (dt l : Nat) (s : State) : Host.Outcome State Fault Refusal :=
  let s1 := s.elapse dt
  .next (if !s1.laneOn l ∨ s1.laneMode l ≠ 1 ∨ !s1.latchNow ∨ (s1.lane l).latched.isSome then s1
    else
      let x := s1.lane l
      let auto := s1.flag (Reg.LNQ_STX_CTL_AUTO l)
      let y := x.forward.getD (if auto then s1.autoLayout l x.qmapSet else (x.latched.getD (s1.layoutCur l)))
      s1.putLane { x with forward := none, latched := some (if auto then { y with qmap := x.qmapSet } else y) })

/-- Apply a far-end request to the transmit equaliser and answer it (R206): 0 done, 1 at maximum, 2 at minimum,
3 refused. A preset sets the named TAP alone to its reset value, a swing to the reset value of LNQ_TXAMP.CODE (DESIGN CHOICE, log entry
118). -/
def State.eqApply (s : State) (l request : Nat) : State × Nat :=
  let tap := request % 16
  let act := request / 16 % 4
  let field : Option (FieldRef × Nat) :=
    if tap = 1 then some (Reg.LNQ_TXFFE_CM3 l, 4) else if tap = 2 then some (Reg.LNQ_TXFFE_CM2 l, 8)
    else if tap = 3 then some (Reg.LNQ_TXFFE_CM1 l, 22) else if tap = 4 then some (Reg.LNQ_TXFFE_CP1 l, 13)
    else if tap = 5 then some (Reg.LNQ_TXAMP_CODE l, 24) else none
  match field with
  | none => (s, 3)
  | some (f, hi) =>
    let v := s.rd f
    let side := s.rd (Reg.LNQ_TXFFE_CM3 l) + s.rd (Reg.LNQ_TXFFE_CM2 l) + s.rd (Reg.LNQ_TXFFE_CM1 l) + s.rd (Reg.LNQ_TXFFE_CP1 l)
    if act = 0 then (s, 0)
    else if act = 1 then
      if hi ≤ v then (s, 1) else if tap ≤ 4 ∧ 32 ≤ side then (s, 3) else ((s.wr f (v + 1)).deriveC0 l, 0)
    else if act = 2 then (if v = 0 then (s, 2) else ((s.wr f (v - 1)).deriveC0 l, 0))
    else if tap ≤ 4 ∧ 32 < side - v + f.reset then (s, 3) else ((s.wr f f.reset).deriveC0 l, 0)

/-- Chronograph time with its fraction, in units of 2^-8 ns and of 2^-16 ns. -/
def State.chrono8 (s : State) : Nat := s.chrono * 2 ^ 8 + s.tim.frac / 2 ^ 24
def State.chrono16 (s : State) : Nat := s.chrono * 2 ^ 16 + s.tim.frac / 2 ^ 16

/-- The superframe whose S0 lies nearest (R184). -/
def State.nearSuperframe (s : State) : Nat := (s.chrono + 62500) / 125000

/-- Is now S0 of superframe `k` on a lane: within 2 ns of k × 125 000 ns, not sent before, and on the grid after a step (R184, R198)? -/
def State.startsNow (s : State) (l k : Nat) : Bool :=
  decide (k * 125000 ≤ s.chrono + 2 ∧ s.chrono ≤ k * 125000 + 2) && decide (s.tim.superAfter ≤ k * 125000) &&
    ((s.lane l).sentS0.head?.map fun x => x.1) != some k

/-- The header block of superframe `k` that starts now (Table 7.2). MSG_READY is set while the lane's own receiver is UP (DESIGN CHOICE, log
entry 117). -/
def State.staveHeader (s : State) (l k : Nat) : List Byte :=
  let x := s.lane l
  let y := s.layoutCur l
  let up := s.rd (Reg.LNQ_SRX_STAT_STATE l) == 3
  let fl := s.rd Reg.TIM_STAT_TIME_VALID + 2 * b01 (s.rd Reg.REF_STAT_STATE == 3) + 4 * b01 s.freeRun + 8 * b01 (!up) +
    16 * b01 (s.partnerLane l) + 32 * b01 x.farS0.isSome
  let s0 := k * 125000
  let off : Int := (s.chrono16 : Int) - (s0 * 2 ^ 16 : Nat)
  let id : Nat := if s.twn.pairId = 0 then 0 else s.twn.pairId * 2 + s.rd Reg.TWN_CTL_SIDE_B
  let eq := x.eqRequest + 256 * x.eqReqSeq + 65536 * x.eqAck + 2 ^ 24 * x.eqStat + 2 ^ 30 * b01 x.eqDone
  let h := be16 0x5354 ++ be8 1 ++ be8 fl ++ be16 l ++ be16 id ++ be64 k ++ be16 y.slots ++ be16 y.qmap ++ be8 x.creditsOut ++
    be8 (b01 up) ++ be16 (if x.farS0.isSome then x.lastK.getD 0 else 0) ++ be64 y.qact ++ timeBytes s0 ++
    be32 (s.rd (Reg.LNQ_STV_PATH_DELAY l)) ++ be64 (toBits 64 off) ++ be32 ((x.farS0.map fun t => s.chrono8 - t).getD 0) ++ be32 eq ++
    be32 (s.rd (Reg.LNQ_STV_ASYM_DELAY l)) ++ zeros 8
  h ++ be32 (crc32c h).toNat

/-- The far end's equalisation request is applied, where the lane accepts it, and acknowledged (R206). -/
def State.answerEq (s : State) (l : Nat) : State :=
  if !s.flag (Reg.LNQ_STX_CTL_EQ_ACCEPT l) then s
  else
    match (s.lane l).eqPending with
    | none => s
    | some q =>
      let r := s.eqApply l q.1
      (if r.2 ≠ 0 then r.1.raise 0x240A (srcLane l) l else r.1).modLane l fun y => { y with eqStat := r.2, eqAck := q.2, eqPending := none }

/-- The layout latched comes into force with the superframe; the places that it makes active carry SEQ_RESYNC first (R189, R192). -/
def State.beginLayout (s : State) (l : Nat) : State :=
  let x := s.lane l
  let cur := s.layoutCur l
  let y := x.latched.getD cur
  ((s.wr (Reg.LNQ_STX_CUR_SLOTS l) y.slots).wr (Reg.LNQ_STX_CUR_QMAP l) y.qmap).putLane
    { x with latched := none, qactCur := y.qact, newlyActive := y.fresh cur }

/-- Superframe `k` starts, after what was on the line before it: the alignment block, the header area, the 24 message cells, empty where the
credits allow none, SEQ_RESYNC in the places that become active, and IDLE cells in the inactive ones (R182, R186, R188, R189, R200, R201). The last
8 departures of S0 are kept: an echo that names an older one gives no sample (DESIGN CHOICE, log entry 131). -/
def State.sendSuperframe (s0 : State) (l k : Nat) : State :=
  let s := s0.takeLinkBox l
  let x := s.lane l
  let opens := s.flag (Reg.LNQ_SRX_STAT_MSG_READY l) && s.rd (Reg.LNQ_SRX_STAT_STATE l) == 3 && !s.flag (Reg.LNQ_SRX_STAT_RDI l)
  let y : Lane := { x with sentS0 := ((k, s.chrono8) :: x.sentS0).take 8, msgOpen := x.msgOpen || opens }
  let c := y.sendCells 24
  let messages := c.2 ++ List.replicate (24 - c.2.length) (emptyMessage c.1.msgSent)
  let cur := s.layoutCur l
  let resync := x.newlyActive.map fun i =>
    let split := bit cur.qmap (i / 4)
    (i, if split then i % 4 else 0, controlCell l i 2 (placeSequence split k (if split then i % 4 else 0)) split)
  let placed := messages.zipIdx.map (fun m => (k, 289 * m.2, m.1)) ++ resync.map fun r => (k, positionCell (r.1 / 4) r.2.1, r.2.2)
  let area := headerArea ((s.putLane c.1).staveHeader l k)
  let t := (s.putLane { c.1 with onLine := some (k, area), placed := placed ++ c.1.placed }).wr (Reg.LNQ_STV_MSG_CREDITS l) c.1.credits
  let idle := Out.staveIdle l k (cur.places.filter fun i => !cur.active i)
  { t with sent := (messages.map fun b => Out.stave l b).reverse ++ (resync.map fun r => Out.cell (36 * l + r.1) r.2.2) ++
      idle :: .stave l area :: .alignment l (polarity (t.flag (Reg.LNQ_LCFG_TX_INV l)) alignmentBlock) :: t.sent }

/-- STAVE_SUPERFRAME_START (R184, R189, R206): at S0 the latched layout comes into force and a READY Stave transmitter sends its
superframe; a far-end equalisation request is applied and acknowledged. A transmitter with a test pattern sends that instead (R181). -/
def execStaveSuperframeStart (dt l : Nat) (s : State) : Host.Outcome State Fault Refusal :=
  let s1 := s.elapse dt
  let k := s1.nearSuperframe
  .next (if !s1.laneOn l ∨ s1.laneMode l ≠ 1 ∨ !s1.startsNow l k then s1
    else
      let s2 := (s1.endLine l 8000000).beginLayout l
      if s2.staveSends l then (s2.answerEq l).sendSuperframe l k else s2.sendPattern l)

/-- The header copy that a receiver uses: the first whose CRC, magic and version pass (R187). -/
def goodHeader (cs : List (List Byte)) : Option (List Byte) :=
  cs.find? fun h => h.length == 80 && u16 h 0 == 0x5354 && u8 h 2 == 1 && u32 h 76 == (crc32c (h.take 76)).toNat

/-- The round trip and one-way delay that a header's echo gives, in 2^-16 ns (R196); none without an echo of a superframe that this
transmitter has sent. -/
def State.echoDelay (s : State) (l : Nat) (h : List Byte) (arrival : Nat) : Option Int :=
  if !bit (u8 h 3) 5 then none
  else ((s.lane l).sentS0.find? fun x => x.1 % 65536 == u16 h 22).map fun x =>
    ((arrival : Int) - x.2 - (u32 h 56 : Int) + s.rdInt (Reg.LNQ_STV_ASYM_DELAY l)) * 128

/-- Path delay is the mean of 64 samples; it is 0 until the first 64 have been taken and while the far end sends no echo (R196). -/
def State.takeEcho (s : State) (l : Nat) (h : List Byte) (arrival : Nat) : State :=
  if !bit (u8 h 3) 5 then (s.wr (Reg.LNQ_STV_PATH_DELAY l) 0).modLane l fun y => { y with echoes := [] }
  else
    match s.echoDelay l h arrival with
    | none => s
    | some d =>
      let echoes := d :: (s.lane l).echoes
      if echoes.length < 64 then s.modLane l fun y => { y with echoes := echoes }
      else (s.wrInt (Reg.LNQ_STV_PATH_DELAY l) (echoes.sum / 64)).modLane l fun y => { y with echoes := [] }

/-- A good header while UP: layout, count, RDI, credits, echo and time (R187, R190, R195-R197, R203, R206). The message channel runs only while
the far end's receiver is UP too: RDI resets it (R204). `frac` is the arrival's fraction of a ns in 2^-8. -/
def State.takeHeader (s : State) (l : Nat) (h : List Byte) (frac : Nat) : State :=
  let x := s.lane l
  let k := u64 h 8
  let fl := u8 h 3
  let s1 := match x.lastK with
    | some j => if k ≠ j + 1 then s.raise 0x2409 (srcLane l) l else s
    | none => s
  let was := s1.layoutIn l
  let now : Layout := ⟨u16 h 16 % 512, u16 h 18 % 512, u64 h 24 % 2 ^ 36⟩
  let s2 := ((((s1.wr64 (Reg.LNQ_SRX_SFC_LO_K l) (Reg.LNQ_SRX_SFC_HI_K l) k).wr (Reg.LNQ_SRX_STAT_SLOTS l) now.slots).wr
    (Reg.LNQ_SRX_QACT_HI_QMAP l) now.qmap).wr (Reg.LNQ_SRX_QACT_LO_Q l) now.qact).wr (Reg.LNQ_SRX_QACT_HI_Q l) (now.qact / 2 ^ 32)
  let off := (was.places.filter fun i => was.active i && (!now.active i || bit now.qmap (i / 4) != bit was.qmap (i / 4))).foldl
    (fun t i => t.slotIdle (was.slotAt l i)) s2
  let s3 := (now.places.filter fun i => now.active i && (!was.active i || bit now.qmap (i / 4) != bit was.qmap (i / 4))).foldl
    (fun t i => t.beginMeasure (now.slotAt l i)) off
  let s4 := (s3.wr (Reg.LNQ_SRX_STAT_RDI l) (b01 (bit fl 3))).wr (Reg.LNQ_SRX_STAT_MSG_READY l) (u8 h 21 % 2)
  let s5 := if bit fl 3 then (s4.raise 0x2405 (srcLane l) l).resetMessages l
    else (s4.endCause 0x2405 (srcLane l) l).endCause 0x2401 (srcLane l) l
  let arrival := s5.chrono * 256 + frac
  -- credits returned for our cells
  let bad := x.msgOpen && !bit fl 3 && decide (32 < (x.msgSent + 256 - u8 h 20) % 256)
  let s6 := if bad then (s5.raise 0x2408 (srcLane l) l).resetMessages l else s5.modLane l fun y => { y with creditsIn := u8 h 20 }
  let s7 := s6.wr (Reg.LNQ_STV_MSG_CREDITS l) (s6.lane l).credits
  let s8 := s7.takeEcho l h arrival
  -- received time less own time
  let told : Int := ((timeAt h 32 : Nat) : Int) + (sext 64 (u64 h 48) + (u32 h 44 : Int)) / 65536
  let gain := (x.lastK.bind fun j => x.farS0.map fun a => clockGain j k a arrival).getD 0
  let s9 := (if bit fl 0 then (s8.wrInt (Reg.LNQ_STV_RXOFS_NS l) (told - s8.chrono)).partnerTime l (told - s8.chrono) else s8).partnerSample l gain
  -- a new equalisation request of the far end
  let req := u32 h 60
  let s10 := s9.modLane l fun y => { y with
    farS0 := some arrival, lastK := some k
    eqPending := if req % 16 ≠ 0 ∧ req / 256 % 256 ≠ y.eqAck then some (req % 64, req / 256 % 256) else y.eqPending }
  s10

/-- The receiver misses an alignment block (Table 7.4). -/
def State.missBlock (s : State) (l : Nat) : State :=
  let st := s.rd (Reg.LNQ_SRX_STAT_STATE l)
  let n := (s.lane l).missed + 1
  if st = 0 then s
  else if st = 2 then s.staveState l 1
  else if n < 3 then s.modLane l fun x => { x with missed := n, found := 0 }
  else (if st = 3 then s.staveState l 1 else s.modLane l fun x => { x with missed := 0, found := 0 }).raise 0x2402 (srcLane l) l

/-- With the near-end loop on, a receiver takes nothing but what its own transmitter sends (Table 6.8; log entry 100), where its precoding and
its polarity recover that (R159, R180). -/
def State.loopTakes (s : State) (l : Nat) (bytes : List Byte) : Bool :=
  s.rd (Reg.LNQ_LCFG_LOOP l) != 1 ||
    ((s.sent.any fun o => match o with
      | .stave m b => m == l && b.take bytes.length == bytes
      | .cell q b => q / 36 == l && b == bytes
      | _ => false) &&
      recovered (s.flag (Reg.LNQ_LCFG_TX_PRECODE l)) (s.flag (Reg.LNQ_LCFG_RX_PRECODE l)) (s.flag (Reg.LNQ_LCFG_TX_INV l))
        (s.flag (Reg.LNQ_LCFG_RX_INV l)) bytes == graySymbols (byteBits bytes))

/-- With the far-end loop on, a transmitter sends what its receiver recovers (Table 6.8; log entry 100). -/
def State.loopBack (s : State) (l : Nat) (bytes : List Byte) : State :=
  if s.rd (Reg.LNQ_LCFG_LOOP l) = 2 ∧ s.lstat l 3 then { s with sent := .stave l bytes :: s.sent } else s

/-- The FEC counts of a superframe (R185); more uncorrectable codewords than LNQ_STV_FECTH.CW raise STV_FEC_DEGRADE. -/
def State.fecCounts (s : State) (l corr cw uncorr : Nat) : State :=
  let s1 := ((s.bump (Reg.LNQ_SRX_FEC_CORR_COUNT l) corr).bump (Reg.LNQ_SRX_FEC_CW_COUNT l) cw).bump (Reg.LNQ_SRX_FEC_UNCORR_COUNT l) uncorr
  if s1.rd (Reg.LNQ_STV_FECTH_CW l) < uncorr then s1.raise 0x2403 (srcLane l) l else s1

/-- The header of a superframe is lost (R187). -/
def State.headerLost (s : State) (l : Nat) : State :=
  ((s.bump (Reg.LNQ_SRX_HDR_LOST l) 1).raise 0x2404 (srcLane l) l).modLane l fun x => { x with good := 0 }

/-- Superframes in a row over LNQ_STV_FECTH.CW take an UP receiver DOWN (Table 7.4). -/
def State.fecDown (s : State) (l uncorr : Nat) : State :=
  let run : Nat := if s.rd (Reg.LNQ_STV_FECTH_CW l) < uncorr then (s.lane l).fecRun + 1 else 0
  if s.rd (Reg.LNQ_SRX_STAT_STATE l) = 3 ∧ max 1 (s.rd (Reg.LNQ_STV_FECTH_DOWN_N l)) ≤ run then (s.staveState l 0).refreshLane l
  else s.modLane l fun x => { x with fecRun := run }

/-- Superframe times that have passed since the last alignment block, where the block found now lies on their grid: within the ±300 ppm that a
receiver tracks, 38 ns in each, and 1 ns of the clock (R156, R198, Table 7.4); 0 where it lies off the grid. -/
def State.blocksApart (s : State) (l : Nat) : Nat :=
  match (s.lane l).lastBlock with
  | none => 0
  | some t =>
    let n := (s.now - t + 62500) / 125000
    if s.now - t ≤ 125000 * n + 38 * n + 1 ∧ 125000 * n ≤ s.now - t + 38 * n + 1 then n else 0

/-- The receiver finds an alignment block off the grid of the one before it: the far end has stepped, and sends blocks until its next S0 (R198). -/
def State.farStep (s : State) (l : Nat) : State := (s.staveState l 1).raise 0x2402 (srcLane l) l

/-- STAVE_SUPERFRAME_RECEIVE (R187, R205): the receiver finds an alignment block, or misses one, and takes the header.
`copies` are the two header blocks; `corr`, `cw`, `uncorr` the FEC counts of the superframe. In FEC_SYNC and UP the codewords are decoded
and counted, and a superframe without a good header has lost it; a good one counts in UP though the alignment block is missed. A block off
the grid is one of the gap that a step of the far end leaves: alignment is lost there and then (R198), and no count has jumped (R207). -/
def execStaveSuperframeReceive (dt l : Nat) (aligned : Bool) (copies : List (List Byte)) (frac corr cw uncorr : Nat) (s : State) :
    Host.Outcome State Fault Refusal :=
  let s1 := s.elapse dt
  .next (if !s1.laneOn l ∨ s1.laneMode l ≠ 1 ∨ !s1.lstat l 4 then s1
    else
      let st := s1.rd (Reg.LNQ_SRX_STAT_STATE l)
      let hd := goodHeader (copies.filter (s1.loopTakes l))
      let s2 := if st = 2 ∨ st = 3 then (s1.fecCounts l corr cw uncorr).loopBack l (hd.getD []) else s1
      if !aligned then
        ((match hd with
          | some h => if st = 3 then (s2.modLane l fun x => { x with good := 1 }).takeHeader l h frac else s2
          | none => if st = 2 ∨ st = 3 then s2.headerLost l else s2).missBlock l).fecDown l uncorr
      else
        let apart := s1.blocksApart l
        let s3 := s2.modLane l fun x => { x with missed := 0, found := if apart = 1 then x.found + 1 else 1, lastBlock := some s1.now }
        if st = 1 then (if 2 ≤ (s3.lane l).found then s3.staveState l 2 else s3)
        else if apart = 0 ∧ (s1.lane l).lastBlock.isSome then (s3.farStep l).modLane l fun x => { x with found := 1 }
        else
          match hd with
          | none => (s3.headerLost l).fecDown l uncorr
          | some h =>
            if st = 3 then ((s3.modLane l fun x => { x with good := 1 }).takeHeader l h frac).fecDown l uncorr
            else if 4 ≤ (s3.lane l).good + 1 then (s3.staveState l 3).takeHeader l h frac
            else s3.modLane l fun x => { x with good := x.good + 1 })

/-- Slot position and quarter of cell `n` of a superframe (R183); none for a message cell. -/
def cellPosition (n : Nat) : Option (Nat × Nat) := (cellPlace n).map fun x => (x.1, x.2 % 4)

/-- STAVE_CELL_RECEIVE (R190): cell `n` of a superframe is delivered under its own slot, unless its position is
inactive, it overlaps an uncorrectable codeword (`lost`), or its slot is not that of its position. -/
def execStaveCellReceive (dt l n : Nat) (cell : List Byte) (lost : Bool) (s : State) : Host.Outcome State Fault Refusal :=
  let s1 := s.elapse dt
  .next (if !s1.laneOn l ∨ s1.rd (Reg.LNQ_SRX_STAT_STATE l) ≠ 3 ∨ lost ∨ !s1.loopTakes l cell then s1
    else match cellPosition n with
      | none => s1
      | some (p, q) =>
        let split := bit (s1.rd (Reg.LNQ_SRX_QACT_HI_QMAP l)) p
        let active := if split then bit (s1.rd64 (Reg.LNQ_SRX_QACT_LO_Q l) (Reg.LNQ_SRX_QACT_HI_Q l)) (4 * p + q)
          else bit (s1.rd (Reg.LNQ_SRX_STAT_SLOTS l)) p
        let place := if split then 0x10000 + 4 * (9 * l + p) + q else 9 * l + p
        let named := slotKey (u16 cell 2) (bit (u8 cell 1) 2)
        let crcOk := crc8 (cell.take 15) == BitVec.ofNat 8 (u8 cell 15)
        let s2 := s1.loopBack l cell
        if !active then s2
        else if crcOk ∧ (s2.lane l).good = 1 ∧ named ≠ place then
          (s2.bump (Reg.LNQ_SRX_HDR_POS_ERR l) 1).raise 0x2406 (srcLane l) l
        else if s2.fabricRuns then s2.fabricWrite (.receiver l p) cell else s2)

/-- Messages are lost with the cells that a gap of the Message sequence shows (R204). -/
def State.loseMessage (s : State) (l : Nat) : State :=
  (s.bump (Reg.LNQ_STV_MSG_LOST l) 1).raise 0x2407 (srcLane l) l

/-- Do a message's segments run from FIRST to LAST without one missing (R200)? -/
def MsgPart.complete (m : MsgPart) : Bool :=
  match m.last with
  | none => false
  | some n => (List.range (n + 1)).all fun i => m.segments.any fun g => g.1 == i

/-- The payload of a message, its segments in order. -/
def MsgPart.payload (m : MsgPart) : List Byte :=
  (List.range (m.last.getD 0 + 1)).flatMap fun i => ((m.segments.find? fun g => g.1 == i).map fun g => g.2).getD []

/-- The lane that keeps the messages in reassembly: the segments of one message may come over both partner lanes (R423). -/
def State.partLane (s : State) (l : Nat) : Nat := if s.partnerLane l then s.twn.lane0 else l

/-- How many messages of one channel are in reassembly at a time: a later one means that the one before it has lost a cell (log entry 119). -/
def State.partLimit (s : State) (l : Nat) : Nat := if s.partnerLane l then 2 else 1

/-- A segment joins its message; messages of other channels that it interrupts stay as they are. A complete one passes to its consumer
(R200-R202, R204). -/
def State.takeSegment (s : State) (l : Nat) (cell : List Byte) : State :=
  let home := s.partLane l
  let x := s.lane home
  let ch := u8 cell 0
  let old := x.msgParts.find? fun m => m.channel == ch && m.id == u32 cell 8
  let m0 : MsgPart := old.getD ⟨ch, u32 cell 8, [], none⟩
  let m : MsgPart := { m0 with segments := (u16 cell 12, bytesAt cell 16 (u16 cell 2)) :: m0.segments
                               last := if bit (u8 cell 1) 1 then some (u16 cell 12) else m0.last }
  let others := x.msgParts.filter fun y => !(y.channel == ch && y.id == u32 cell 8)
  if m.complete then s.putLane { x with msgParts := others, msgDone := (ch, m.payload) :: x.msgDone }
  else s.putLane { x with msgParts := m :: (others.filter fun y => y.channel == ch).take (s.partLimit l - 1) ++ others.filter fun y => y.channel != ch }

/-- MSG_CELL_RECEIVE (R201, R204): a message cell arrives while both directions are UP; its credit is returned, and so is one for each cell that
the Message sequence shows to be lost. A cell lost to FEC (`lost`) or to its header CRC shows in the sequence of the next one, empty or not, and
its message stays incomplete; an empty cell carries nothing and takes no credit. -/
def execMsgCellReceive (dt l : Nat) (cell : List Byte) (lost : Bool) (s : State) : Host.Outcome State Fault Refusal :=
  let s1 := s.elapse dt
  .next (if !s1.laneOn l ∨ s1.rd (Reg.LNQ_SRX_STAT_STATE l) ≠ 3 ∨ s1.flag (Reg.LNQ_SRX_STAT_RDI l) ∨ !s1.lstat l 3 ∨ !s1.loopTakes l cell ∨
        lost ∨ crc8 (cell.take 15) ≠ BitVec.ofNat 8 (u8 cell 15) then s1
    else
      let own : Nat := if u8 cell 0 = 0 then 0 else 1
      let gap := sub32 (sub32 (u32 cell 4) (s1.lane l).msgSeq) own
      let s2 := if gap = 0 then s1 else s1.loseMessage l
      let y := s2.lane l
      let s3 := s2.putLane { y with msgSeq := u32 cell 4, creditsOut := (y.creditsOut + own + gap) % 256 }
      if own = 0 then s3 else s3.takeSegment l cell)

/-! ### Register writes of a lane (R180, R181, R192) -/

/-- A mode or enable write of LNQ_LCFG restarts the lane, with LN_RESTART when slots are active (R181). -/
def State.onLcfgWrite (s : State) (l oldMode oldTx oldRx : Nat) : State :=
  let changed := oldMode != s.laneMode l || oldTx != s.rd (Reg.LNQ_LCFG_TX_EN l) || oldRx != s.rd (Reg.LNQ_LCFG_RX_EN l)
  let s0 := s.clampDfe l
  if !changed then s0
  else
    let s1 := if s0.laneActive l then s0.laneEvent 0x2308 l else s0
    let s2 := if oldMode ≠ s.laneMode l ∨ oldRx ≠ s.rd (Reg.LNQ_LCFG_RX_EN l) then (s1.rxCauses l).coldRx l else s1
    (s2.setTxReady l false).refreshLane l

/-- Writing LNQ_ADAPT: RESTART adapts from cold; FREEZE keeps a step in evaluation (R167). -/
def State.onAdaptWrite (s : State) (l : Nat) (restart : Bool) (oldFreeze : Nat) : State :=
  let s1 := if restart then (if s.laneActive l then s.laneEvent 0x2308 l else s).coldRx l else s
  if oldFreeze = 0 ∧ s1.flag (Reg.LNQ_ADAPT_FREEZE l) ∧ (s1.lane l).step.isSome then
    s1.modLane l fun x => { x with freezing := true }
  else s1

/-- Writing LNQ_SLEEP asks the states of both directions (R171). -/
def State.onSleepWrite (s : State) (l : Nat) : State :=
  (s.requestSleep l true (s.rd (Reg.LNQ_SLEEP_TX l))).requestSleep l false (s.rd (Reg.LNQ_SLEEP_RX l))

/-- Writing MASK_GO puts the staged layout forward; the last one before the latch wins (R192). -/
def State.onMaskGo (s : State) (l : Nat) : State :=
  let y : Layout :=
    ⟨s.rd (Reg.LNQ_STX_MASK_SLOTS l), s.rd (Reg.LNQ_STX_MASK_QMAP l), s.rd64 (Reg.LNQ_STX_QACT_LO_Q l) (Reg.LNQ_STX_QACT_HI_Q l)⟩
  s.modLane l fun x => { x with forward := some y }

end Sys2Proof.Machine
end

