-- ==== Sys2Proof/Machine/NetCmds.lean ====
section
/-!
DEFINITION. NET_PORT_CONFIG, NET_RING_SETUP and NET_MODULE_INFO (R241-R243), the events of ports, pauses, host frames
and modules (R213-R240), and what writes of the NET registers do (R246).
-/
namespace Sys2Proof.Machine

/-! ### NET_PORT_CONFIG (R212, R241) -/

/-- Offsets of the records of a NET_PORT_CONFIG payload. -/
def portRecords (p : List Byte) : Nat → Nat → List Nat
  | 0, _ => []
  | n + 1, o => o :: portRecords p n (o + u8 p (o + 1))

/-- Body bytes of a record type (Table 8.8). -/
def recordBody (t : Nat) : Nat := ([0, 4, 12, 8, 44, 20, 8] : List Nat).getD t 0

/-- Do the records fill the payload, each a multiple of 4 bytes? -/
def recordsFit (p : List Byte) : Nat → Nat → Bool
  | 0, o => decide (o = p.length)
  | n + 1, o => decide (o + 4 ≤ p.length) && decide (4 ≤ u8 p (o + 1)) && decide (u8 p (o + 1) % 4 = 0) && recordsFit p n (o + u8 p (o + 1))

/-- Flows bound to a port. -/
def State.portFlows (s : State) (p : Nat) : Bool := s.net.flows.any fun f => f.legs.any fun g => g.port == p

/-- Does a MODE record change or dissolve its port? -/
def State.modeChanges (s : State) (p mode fl : Nat) : Bool :=
  s.rd (Reg.NET_CTL_MODE p) != mode || s.flag (Reg.NET_CTL_AN p) != bit fl 0 || s.flag (Reg.NET_CTL_EN p) != bit fl 1

/-- May a MODE record take these lanes (R212)? -/
def State.modeLanesOk (s : State) (p mode : Nat) : Bool :=
  (List.range (modeLanes mode)).all fun i =>
    let l := p + i
    decide (l < 64) && !s.partnerLane l && !(s.laneMode l == 1 && s.laneActive l) &&
      (match s.portOfLane l with
       | some (f, _) => f == p
       | none => true)

/-- The field checks of one record at `o` for port `p`. -/
def State.recordFields (s : State) (p : List Byte) (o : Nat) : List (Nat × Bool) :=
  let port := u16 p 0
  let t := u8 p o
  let b := o + 4
  [(o, decide (1 ≤ t ∧ t ≤ 6)), (o + 1, u8 p (o + 1) == 4 + recordBody t), (o + 2, zeroAt p (o + 2) 2)] ++
  (if t = 1 then
    let m := u8 p b
    [(b, decide (port < 64) && decide (m ≤ 4) && (m != 3 || port % 2 == 0) && (m != 4 || port % 4 == 0) &&
        (!s.modeChanges port m (u8 p (b + 1)) || !s.portFlows port) && s.modeLanesOk port m &&
        (match s.portOfLane port with
         | some (f, _) => f == port
         | none => true)),
     (b + 1, decide (u8 p (b + 1) < 4)), (b + 2, zeroAt p (b + 2) 2)]
  else if t = 2 then
    [(b, decide (u8 p b ≤ 2)), (b + 1, zeroAt p (b + 1) 1), (b + 2, decide (1 ≤ u16 p (b + 2) ∧ u16 p (b + 2) ≤ 1023)),
     (b + 4, decide (1 ≤ u16 p (b + 4) ∧ u16 p (b + 4) ≤ 1023)), (b + 6, zeroAt p (b + 6) 2),
     (b + 8, (List.range 8).all fun i => let q := u32 p (b + 8) / 16 ^ i % 16; decide (q ≤ 5) || q == 15)]
  else if t = 3 then
    [(b, decide (port < 64) && decide (u8 p b < 2)), (b + 1, decide (u8 p (b + 1) ≤ 2)),
     (b + 2, [0, 30, 50].contains (u8 p (b + 2))), (b + 3, decide (u8 p (b + 3) < 2)), (b + 4, decide (u32 p (b + 4) ≤ 2 ^ 30))]
  else if t = 4 then
    let rx := u8 p b == 1
    [(b, decide (port < 64) && decide (u8 p b < 2)), (b + 1, decide (u8 p (b + 1) < if rx then 16 else 1)), (b + 2, decide (u8 p (b + 2) < 4)),
     (b + 3, decide (u8 p (b + 3) < 4)), (b + 12, bit (u8 p (b + 3)) 1 || s.slotStatus (u16 p (b + 12)) .macsec != 0x0040),
     (b + 14, zeroAt p (b + 14) 2), (b + 16, rx || !s.twinOn || u32 p (b + 16) != u32 p (b + 20)),
     (b + 20, !rx || u32 p (b + 20) == 0), (b + 36, rx || bit (u8 p (b + 3)) 1 || decide (1 ≤ u64 p (b + 36)))]
  else if t = 5 then
    [(b, decide (64 ≤ port)), (b + 8, decide (u8 p (b + 8) ≤ 32)), (b + 9, zeroAt p (b + 9) 3), (b + 16, decide (u16 p (b + 16) < 4095)),
     (b + 18, zeroAt p (b + 18) 2)]
  else
    [(b, decide (u8 p b < 16)), (b + 1, [0, 1, 2, 4].contains (u8 p (b + 1)) && (u8 p (b + 1) == 0 || decide (port + u8 p (b + 1) ≤ 64))),
     (b + 2, decide (u8 p (b + 2) < 2)), (b + 3, decide (1 ≤ u8 p (b + 3) ∧ u8 p (b + 3) ≤ 50))])

/-- Put a lane into a mode, both directions enabled in Ethernet mode (R212). -/
def State.setLaneMode (s : State) (l m : Nat) : State :=
  if s.laneMode l = m ∧ (m ≠ 2 ∨ (s.flag (Reg.LNQ_LCFG_TX_EN l) ∧ s.flag (Reg.LNQ_LCFG_RX_EN l))) then s
  else
    let s1 := ((s.wr (Reg.LNQ_LCFG_MODE l) m).wr (Reg.LNQ_LCFG_TX_EN l) (b01 (m == 2))).wr (Reg.LNQ_LCFG_RX_EN l) (b01 (m == 2))
    (((s1.rxCauses l).coldRx l).setTxReady l false).refreshLane l

/-- Apply a MODE record (R212). -/
def State.applyMode (s : State) (p mode fl : Nat) : State :=
  if !s.modeChanges p mode fl then s
  else
    let old := modeLanes (s.rd (Reg.NET_CTL_MODE p))
    let s1 := (List.range old).foldl (fun t i => if modeLanes mode ≤ i then t.setLaneMode (p + i) 0 else t) s
    let s2 := (List.range (modeLanes mode)).foldl (fun t i => t.setLaneMode (p + i) 2) s1
    let s3 := ((s2.wr (Reg.NET_CTL_MODE p) mode).wr (Reg.NET_CTL_AN p) (b01 (bit fl 0))).wr (Reg.NET_CTL_EN p) (b01 (bit fl 1 && mode != 0))
    s3.restartPort p

/-- The SA that a MACSEC_SA record at body `b` describes. -/
def State.recordSa (s : State) (p : List Byte) (b : Nat) : SecAssoc :=
  ⟨u8 p b == 1, u8 p (b + 1), u8 p (b + 2), bit (u8 p (b + 3)) 0, u64 p (b + 4), u16 p (b + 12), (s.slot (u16 p (b + 12))).gen,
    u32 p (b + 16), u32 p (b + 20), bytesAt p (b + 24) 12, u64 p (b + 36)⟩

/-- Install or delete an SA; an active one takes the place of the channel's active SA, and a transmit SA may begin near the end of its
packet numbers (R230). -/
def State.applySa (s : State) (port : Nat) (a : SecAssoc) (delete : Bool) : State :=
  let s1 := s.modNetPort port fun x =>
    let rest := x.assocs.filter fun y => !(y.rx == a.rx && y.channel == a.channel && y.an == a.an)
    if delete then { x with assocs := rest }
    else
      let others := if a.active then rest.map fun y => if y.rx == a.rx && y.channel == a.channel then { y with active := false } else y else rest
      { x with assocs := a :: others }
  if delete || a.rx then s1 else s1.pnNear port a 0

/-- A module bus. -/
def State.bus (s : State) (m : Nat) : ModuleBus := s.net.buses.getD m (ModuleBus.reset m)

/-- CMIS_OK: a module whose revision byte is 0x40 or above (R236). -/
def ModuleId.cmisOk (x : ModuleId) : Bool := decide (0x40 ≤ x.revision)

/-- The part writes one byte to the module of a bus (R235). -/
def State.moduleWrite (s : State) (m offset data : Nat) : State := { s with sent := .module m false offset data :: s.sent }

/-- With AUTO_INIT, a module is brought to ModuleReady: its low-power request is cleared, byte 26 of the global controls (R235; PRESUMED:
CMIS, log entry 111). -/
def State.autoInit (s : State) (m : Nat) : State :=
  if (s.bus m).autoInit && (s.bus m).seen.any ModuleId.cmisOk then s.moduleWrite m 26 0 else s

/-- Apply one record. AUTO_INIT acts on a module that is present already (R235). -/
def State.applyRecord (s : State) (p : List Byte) (o : Nat) : State :=
  let port := u16 p 0
  let b := o + 4
  match u8 p o with
  | 1 => s.applyMode port (u8 p b) (u8 p (b + 1))
  | 2 =>
    (((s.wr (Reg.NET_CTL_FC_MODE port) (u8 p b)).wr (Reg.NET_PAUSE_WD_MS port) (u16 p (b + 2))).wr
      (Reg.NET_PAUSE_WD_HOLD_MS port) (u16 p (b + 4))).wr (Reg.NET_PFC_MAP_MAP port) (u32 p (b + 8))
  | 3 =>
    let s1 := (s.wr (Reg.NET_CTL_MACSEC_EN port) (u8 p b)).wr (Reg.NET_CTL_PTP_CLEAR port) (u8 p (b + 3))
    s1.modNetPort port fun x => { x with validate := u8 p (b + 1), confOffset := u8 p (b + 2), replayWindow := u32 p (b + 4) }
  | 4 => s.applySa port (s.recordSa p b) (bit (u8 p (b + 3)) 1)
  | 5 => s.modNetPort port fun x => { x with mgtIp := some (u32 p b, u32 p (b + 4), u8 p (b + 8), u32 p (b + 12), u16 p (b + 16)) }
  | _ =>
    let n := u8 p b
    let bs := s.net.buses.map fun (x : ModuleBus) => if x.bus == n then
      { x with firstLane := port, lanes := u8 p (b + 1), autoInit := bit (u8 p (b + 2)) 0, warn := u8 p (b + 3), rated := u32 p (b + 4) } else x
    { s with net := { s.net with buses := bs } }.autoInit n

/-- A MODE record with ENABLE waits for the link: while it is down the 5 s of R213 run. -/
def State.linkAwaited (s : State) (p : Nat) : State :=
  s.modNetPort p fun x => { x with bringUp := if s.linkUp p then none else some (x.bringUp.getD s.now) }

/-- Mark a CONFIG record of the settings store as changed (R565). -/
def State.storeChanged (s : State) : State :=
  { s with boot := { s.boot with storeDue := some (s.boot.storeDue.getD s.now) } }

/-- NET_PORT_CONFIG (R241). -/
def opNetPortConfig : OpSpec where
  code := 0x0500
  cls := .c
  keys := false
  length p := decide (8 ≤ p.length) && recordsFit p (u8 p 2) 8
  fields s p :=
    [(0, decide (u16 p 0 < 66)), (2, decide (1 ≤ u8 p 2 ∧ u8 p 2 ≤ 16)), (3, zeroAt p 3 5)] ++
      (portRecords p (u8 p 2) 8).flatMap fun o => s.recordFields p o
  units _ p :=
    let rs := portRecords p (u8 p 2) 8
    [if u16 p 0 < 64 then (0x13, u16 p 0) else (0x14, u16 p 0 - 64)] ++
      rs.flatMap (fun o => if u8 p o = 1 then (List.range (modeLanes (u8 p (o + 4)))).map fun i => (0x11, u16 p 0 + i)
        else if u8 p o = 3 ∧ u8 p (o + 4) = 0 then [] else if u8 p o = 3 ∨ u8 p o = 4 then [(5, 0)] else [])
  locked _ _ := false
  cruise := true
  run s x p :=
    let rs := portRecords p (u8 p 2) 8
    match rs.find? fun o => u8 p o == 4 && !bit (u8 p (o + 7)) 1 && s.slotStatus (u16 p (o + 16)) .macsec != 0 with
    | some o => Done.err s stKeyRevoked (24 + o + 16)
    | none =>
      let s1 := rs.foldl (fun t o => t.applyRecord p o) s
      let s2 := if rs.any fun o => u8 p o == 5 || u8 p o == 6 then s1.storeChanged else s1
      if rs.any fun o => u8 p o == 1 && bit (u8 p (o + 5)) 1 then
        Done.pending ((s2.linkAwaited (u16 p 0)).await ⟨x.tag, x.session, x.entry, .linkUp (u16 p 0) s.now, some (s.now + 5 * 10 ^ 9 - 1)⟩) []
      else Done.ok s2 []

/-! ### NET_RING_SETUP (R242) -/

/-- A ring is set to a size: its indices return to 0, and transmit frames not yet started are discarded. -/
def State.ringResize (s : State) (p k l : Nat) : State :=
  let v := if 4 ≤ l ∧ l ≤ 12 then l else 0
  let s1 := ((s.wr (Reg.NET_RING_SIZE_LOG2 p k) v).wr (Reg.NET_RING_PI_IDX p k) 0).wr (Reg.NET_RING_CI_IDX p k) 0
  if k < 5 then s1.modNetPort p fun x => { x with queues := x.queues.filter fun f => f.ring != some k } else s1

/-- NET_RING_SETUP (R242). -/
def opNetRingSetup : OpSpec where
  code := 0x0504
  cls := .l
  keys := false
  length p := p.length == 24
  fields _ p :=
    let kind := u8 p 2
    [(0, decide (u16 p 0 < 66)), (2, decide (kind ≤ 2)), (3, decide (u8 p 3 < ([5, 4, 8] : List Nat).getD kind 0)),
     (4, kind == 2 || u64 p 4 % 64 == 0), (12, kind == 2 || u8 p 12 == 0 || decide (4 ≤ u8 p 12 ∧ u8 p 12 ≤ 12)),
     (13, kind == 2 || decide (u8 p 13 < 8)), (17, kind != 2 || decide (u8 p 17 < 4) || u8 p 17 == 0xFF), (20, zeroAt p 20 4)]
  units _ p := [if u16 p 0 < 64 then (0x13, u16 p 0) else (0x14, u16 p 0 - 64)]
  locked _ _ := false
  cruise := false
  run s _ p :=
    let port := u16 p 0
    let i := u8 p 3
    if u8 p 2 = 2 then
      Done.ok ((((s.wr (Reg.NET_STEER_ETYPE port i) (u16 p 14)).wr (Reg.NET_STEER_PROTO port i) (u8 p 16)).wr
        (Reg.NET_STEER_RING port i) (u8 p 17)).wr (Reg.NET_STEER_L4PORT port i) (u16 p 18)) []
    else
      let k := if u8 p 2 = 0 then i else 5 + i
      let s1 := (s.wr64 (Reg.NET_RING_BASE_LO_ADDR port k) (Reg.NET_RING_BASE_HI_ADDR port k) (u64 p 4)).wr (Reg.NET_RING_IRQ_EN_CORE port k) (u8 p 13)
      Done.ok (s1.ringResize port k (u8 p 12)) []

/-! ### NET_MODULE_INFO (R243) and accounts (R237-R239) -/

/-- Store a module bus. -/
def State.putBus (s : State) (x : ModuleBus) : State := { s with net := { s.net with buses := s.net.buses.set x.bus x } }

/-- The account of a module. -/
def State.account (s : State) (x : ModuleId) : Option ModuleAccount :=
  s.net.accounts.find? fun a => a.oui == x.oui && a.serial == x.serial

/-- Is the settings store READY? -/
def State.storeReady (s : State) : Bool := s.isReady 0x1C 0

/-- An account is written to the settings store (R239). -/
def ModuleAccount.write (a : ModuleAccount) : ModuleAccount := { a with stored := some (a.laser, a.weighted) }

/-- Store an account as the one seen last; a full store evicts the one seen least recently (R239). -/
def State.putAccount (s : State) (a : ModuleAccount) : State :=
  let last := (s.net.accounts.map fun (b : ModuleAccount) => b.seen).foldl max 0
  let rest := s.net.accounts.filter fun b => !(b.oui == a.oui && b.serial == a.serial)
  let put := fun (l : List ModuleAccount) => { s with net := { s.net with accounts := { a with seen := last + 1 } :: l } }
  if rest.length < 1024 then put rest
  else
    let oldest := (rest.map fun (b : ModuleAccount) => b.seen).foldl min last
    (put (match rest.find? fun b => b.seen == oldest with
      | some b => rest.erase b
      | none => rest)).raise 0x2511 (srcPort 64) 0

/-- Rated seconds of a bus's module, in half-seconds. -/
def ModuleBus.ratedHalves (x : ModuleBus) : Nat := x.rated * 7200

/-- Remaining half-seconds of an account. -/
def ModuleBus.remaining (x : ModuleBus) (a : ModuleAccount) : Nat := x.ratedHalves - a.weighted

/-- Is the remaining life below the warn percent of the rated hours; is it over (R238)? -/
def ModuleBus.lifeWarn (x : ModuleBus) (a : ModuleAccount) : Bool := decide (100 * x.remaining a < x.warn * x.ratedHalves)
def ModuleBus.eol (x : ModuleBus) (a : ModuleAccount) : Bool := x.remaining a == 0

/-- NET_MODULE_INFO (R243). With rated hours of 0 the per mille has no value: it reads 0 (DESIGN CHOICE, log entry 110). -/
def opNetModuleInfo : OpSpec where
  code := 0x0505
  cls := .q
  keys := false
  length p := p.length == 4
  fields _ p := [(0, decide (u8 p 0 < 16)), (1, zeroAt p 1 3)]
  units _ _ := []
  locked _ _ := false
  cruise := false
  run s _ p :=
    let x := s.bus (u8 p 0)
    match x.seen with
    | none => Done.ok s (zeros 88)
    | some m =>
      let a := (s.account m).getD ⟨m.oui, m.serial, 0, 0, 0, none⟩
      let has := (s.account m).isSome
      let st := 1 + 2 * b01 m.cmisOk + 4 * b01 x.laserOn + 8 * b01 (has && !s.storeReady) + 16 * b01 (has && x.lifeWarn a) + 32 * b01 (has && x.eol a)
      let fit := fun (n : Nat) (b : List Byte) => b.take n ++ zeros (n - b.length)
      Done.ok s (be8 (u8 p 0) ++ be8 st ++ be8 m.identifier ++ be8 m.revision ++ fit 16 m.vendor ++ fit 3 m.oui ++ be8 0 ++ fit 16 m.part ++
        fit 2 m.partRev ++ zeros 2 ++ fit 16 m.serial ++ fit 8 m.date ++ be16 (toBits 16 x.temperature) ++ zeros 2 ++
        be32 (a.laser / 3600) ++ be32 (a.weighted / 7200) ++ be32 x.rated ++
        be16 (if x.rated = 0 then 0 else 1000 * x.remaining a / x.ratedHalves) ++ zeros 2)

/-- NET_PORT_CONFIG. -/
def execNetPortConfig (dt : Nat) (rq : Req) (s : State) : Host.Outcome State Fault Refusal := .next (serve opNetPortConfig dt rq s)

/-- NET_RING_SETUP. -/
def execNetRingSetup (dt : Nat) (rq : Req) (s : State) : Host.Outcome State Fault Refusal := .next (serve opNetRingSetup dt rq s)

/-- NET_MODULE_INFO. -/
def execNetModuleInfo (dt : Nat) (rq : Req) (s : State) : Host.Outcome State Fault Refusal := .next (serve opNetModuleInfo dt rq s)

/-! ### Links (R213, R240) -/

/-- The transmit taps of a lane have followed the far end's coefficient requests within Table 6.3 and R160, and its precoding is what was
negotiated (R159, R161, R163). -/
def State.trainLane (s : State) (l : Nat) (t : LaneTraining) : State :=
  let s1 := (((s.wr (Reg.LNQ_TXFFE_CM3 l) (min 4 t.cm3)).wr (Reg.LNQ_TXFFE_CM2 l) (min 8 t.cm2)).wr (Reg.LNQ_TXFFE_CM1 l) (min 22 t.cm1)).wr
    (Reg.LNQ_TXFFE_CP1 l) (min 13 t.cp1)
  (((s1.deriveC0 l).wr (Reg.LNQ_LCFG_TX_PRECODE l) (b01 t.txPrecode)).wr (Reg.LNQ_LCFG_RX_PRECODE l) (b01 t.rxPrecode)).clampDfe l

/-- The legs of send flows on a port whose link is up have no TX_LINK_DOWN (R272). -/
def State.legsUp (s : State) (p : Nat) : State :=
  (s.net.flows.filter fun (f : Flow) => f.tx).foldl (fun t f => f.legs.zipIdx.foldl (fun u g =>
    if g.1.port = p then u.endCause 0x260A f.src (f.index + 65536 * g.2) else u) t) s

/-- ETH_LINK_UP (R213): training, FEC and PCS alignment of an enabled port finish; COMPLETE follows. `trained` says what training has settled
on each of its lanes. -/
def execEthLinkUp (dt : Nat) (link : LinkTraining) (s : State) : Host.Outcome State Fault Refusal :=
  let s1 := s.elapse dt
  let p := link.port
  .next (if !s1.portFormed p ∨ !s1.portOn p ∨ !s1.flag (Reg.NET_CTL_EN p) ∨ s1.linkUp p then s1
    else
      let s0 := (link.lanes.take (s1.portLanes p)).zipIdx.foldl (fun t x => t.trainLane (p + x.2) x.1) s1
      let s2 := ((s0.wr (Reg.NET_STAT_LINK p) 1).wr (Reg.NET_STAT_AN_DONE p) 1).wr (Reg.NET_STAT_FEC_LOCK p) 1
      (((s2.modNetPort p fun x => { x with bringUp := none }).endCause 0x2501 (srcPort p) p).legsUp p).settle)

/-- ETH_LINK_DOWN (R213): a port loses its link; its queued frames are discarded. -/
def execEthLinkDown (dt p : Nat) (s : State) : Host.Outcome State Fault Refusal :=
  let s1 := s.elapse dt
  .next (if 64 ≤ p ∨ !s1.linkUp p then s1 else (s1.linkLost p).raiseLinkDown p)

/-- The start of the next bring-up of a port that a command waits for, after the one that began at `t` (R213). -/
def State.nextBringUp (s : State) (p t : Nat) : Option Nat :=
  (s.cyx.pendings.filterMap fun (x : Pending) => match x.waits with
    | .linkUp q since => if q = p ∧ t < since then some since else none
    | _ => none).foldl (fun b since => some (min (b.getD since) since)) none

/-- ETH_AN_FAIL (R213): a link not up within 5 s; a command that has waited for it so long fails with NOT_READY, and a later one has its own
5 s. -/
def execEthAnFail (dt p : Nat) (s : State) : Host.Outcome State Fault Refusal :=
  let s1 := s.elapse dt
  .next (match (s1.netPort p).bringUp with
    | none => s1
    | some t =>
      if 64 ≤ p ∨ s1.linkUp p ∨ s1.now < t + 5 * 10 ^ 9 then s1
      else ((s1.raise 0x2502 (srcPort p) p).modNetPort p fun x => { x with bringUp := s1.nextBringUp p t }).settle)

/-- MGT_LINK_UP (R240): the SGMII link of a management port comes up. NET_CTL.EN of a management port gates nothing (DESIGN CHOICE, log entry
132). -/
def execMgtLinkUp (dt m : Nat) (s : State) : Host.Outcome State Fault Refusal :=
  let s1 := s.elapse dt
  .next (if 2 ≤ m ∨ !s1.portOn (64 + m) then s1 else (s1.wr (Reg.NET_STAT_LINK (64 + m)) 1).endCause 0x250C (srcPort (64 + m)) (64 + m))

/-- MGT_LINK_DOWN (R240): the SGMII link of a management port is lost. -/
def execMgtLinkDown (dt m : Nat) (s : State) : Host.Outcome State Fault Refusal :=
  let s1 := s.elapse dt
  .next (if 2 ≤ m ∨ !s1.linkUp (64 + m) then s1 else (s1.linkLost (64 + m)).raiseLinkDown (64 + m))

/-- ETH_FEC_DEGRADE (R240): at the end of a second a port had `codewords` uncorrectable codewords. -/
def execEthFecDegrade (dt p codewords : Nat) (s : State) : Host.Outcome State Fault Refusal :=
  let s1 := s.elapse dt
  .next (if s1.portFormed p ∧ s1.portOn p ∧ s1.rd (Reg.NET_FECTH_CW p) < codewords then s1.raise 0x2503 (srcPort p) p else s1)

/-! ### Pause (R221, R222) -/

/-- Stop queue `q` for a priority until `t` ps, or resume it when `t` is none; a queue in its hold is not stopped, but the frame is noted
(R222). -/
def PortRec.pause (x : PortRec) (now prio q : Nat) (t : Option Nat) : PortRec :=
  let others := fun (l : List Pause) => l.filter fun a => !(a.prio == prio && a.queue == q)
  if x.holds.any fun h => h.1 == q then
    { x with ignored := others x.ignored ++ (t.map fun e => ⟨prio, q, now, e⟩).toList }
  else
    let since := ((x.pauses.find? fun a => a.queue == q).map fun (a : Pause) => a.since).getD now
    { x with pauses := (t.map fun e => ⟨prio, q, since, e⟩).toList ++ others x.pauses }

/-- The cause of a storm persists while pause frames keep arriving in the hold: until the time of the last one runs out (DESIGN CHOICE, log
entry 109). -/
def State.stormCauses (s : State) (p : Nat) : State :=
  (List.range 6).foldl (fun t q => if (s.netPort p).ignored.any fun a => a.queue == q then t else t.endCause 0x2504 (srcPort p) q) s

/-- What a PAUSE or PFC frame asks of the queues of a port (R221): its time counts from the end of the frame in progress, which lies before
the gap of 12 bytes. -/
def State.takePause (s : State) (p : Nat) (b : List Byte) : State :=
  let mode := s.rd (Reg.NET_CTL_FC_MODE p)
  let start := max (s.now * 1000) ((s.netPort p).busy - bitTime 96 (s.portRate p))
  let till := fun (quanta : Nat) => if quanta = 0 then none else some (start + bitTime (512 * quanta) (s.portRate p))
  if mode = 1 ∧ u16 b 14 = 0x0001 then
    (s.modNetPort p fun x => (List.range 6).foldl (fun y q => y.pause s.now 8 q (till (u16 b 16))) x).stormCauses p
  else if mode = 2 ∧ u16 b 14 = 0x0101 then
    (s.modNetPort p fun x => (List.range 8).foldl (fun y prio =>
      let q := s.rd (Reg.NET_PFC_MAP_MAP p) / 16 ^ prio % 16
      if bit (u16 b 16) prio ∧ q ≤ 5 then y.pause s.now prio q (till (u16 b (18 + 2 * prio))) else y) x).stormCauses p
  else s

/-- Is a frame a PAUSE or PFC frame (R221)? -/
def isPause (b : List Byte) : Bool := u16 b 12 == 0x8808 && (u16 b 14 == 0x0001 || u16 b 14 == 0x0101)

/-- A PAUSE or PFC frame is counted and acted on as FC_MODE says, and goes no further (R221). -/
def State.countPause (s : State) (p : Nat) (b : List Byte) : State := (s.bump (Reg.NET_PAUSE_RX_COUNT p) 1).takePause p b

/-! ### Frames (R214-R227) -/

/-- HOST_FRAME_RECEIVE (R224): a frame, FCS included, arrives that no flow or service claims; one of flow control is not delivered (R221). `full`: the receive
buffer has no room for it. -/
def execHostFrameReceive (dt p : Nat) (bytes : List Byte) (full : Bool) (s : State) : Host.Outcome State Fault Refusal :=
  let s1 := s.elapse dt
  .next (if !s1.portOn p ∨ !s1.linkUp p then s1
    else
      let r := s1.macTake p bytes full
      match r.2 with
      | none => r.1
      | some b =>
        if isPause b then r.1.countPause p b
        else
        let m := r.1.macsecTake p b
        match m.2 with
        | none => m.1
        | some (c, verified, failed) => if (m.1.flowOf p c).isSome ∨ m.1.serviceOf p c then m.1 else m.1.deliver p c verified failed)

/-- Raise the start threshold of a queue after an underrun (R220). -/
def State.underrun (s : State) (p q : Nat) : State :=
  let v := min 9216 (s.rd (Reg.NET_TXSTART_BYTES p q) + 256)
  ((s.bump (Reg.NET_TX_UNDERRUN_COUNT p) 1).wr (Reg.NET_TXSTART_BYTES p q) v).raise 0x2505 (srcPort p) q

/-- The completion of queue `q`'s chain notes an error: it stands on the chain's last frame (R220). -/
def PortRec.markError (x : PortRec) (q error : Nat) : PortRec :=
  { x with queues := x.queues.map fun f => if f.queue == q && f.ring == some q then
      { f with done := f.done.map fun c => { c with error := error } } else f }

/-- MAC_FRAME_TRANSMIT (R218-R220): the MAC starts its next frame, in strict priority and within the guard of Q6.
`starved`: a host frame's data is not there when the MAC needs it, which cannot be where the frame was stored whole before it starts. While the link is down, frames of Q0-Q5 and Q7 are
discarded at the head of their queue. -/
def execMacFrameTransmit (dt p : Nat) (starved : Bool) (s : State) : Host.Outcome State Fault Refusal :=
  let s1 := s.elapse dt
  .next (if !s1.portOn p ∨ s1.now * 1000 < (s1.netPort p).busy then s1
    else
      let s2 := ([4, 3, 2, 1, 0] : List Nat).foldl (fun t k => t.fetchHost p k) (s1.joinQueue p)
      if !s2.linkUp p then
        match (s2.netPort p).queues.find? fun f => f.queue != 6 with
        | none => s2
        | some f => ((s2.bump (Reg.NET_TX_LINKDOWN_DROP_COUNT p) 1).modNetPort p fun x => { x with queues := x.queues.erase f }).dropFrame p f 3
      else
        match s2.nextQueue p with
        | none => s2
        | some q =>
          let under := starved && decide (q < 5) &&
            (s2.netPort p).queues.any (fun f => f.queue == q && decide (s2.rd (Reg.NET_TXSTART_BYTES p q) < f.bytes.length))
          let s3 := if under then (s2.underrun p q).modNetPort p fun x => x.markError q 1 else s2
          match (s3.netPort p).queues.find? fun f => f.queue == q with
          | none => s3
          | some f => (s3.modNetPort p fun x => x.popQueue q).sendFrame p f under)

/-- NET_RING_PI_WRITE's effect (R224, R244): host software hands descriptors to the part. The register holds the value written; within the
ring it counts modulo the entries (`State.ringPosted`). -/
def State.ringPi (s : State) (p k v : Nat) : State := s.wr (Reg.NET_RING_PI_IDX p k) v

/-! ### Pause frames -/

/-- PAUSE_FRAME_RECEIVE (R215, R221): a MAC Control frame, FCS included, with opcode 0x0001 or 0x0101, that passes the MAC's checks. -/
def execPauseFrameReceive (dt p : Nat) (bytes : List Byte) (s : State) : Host.Outcome State Fault Refusal :=
  let s1 := s.elapse dt
  .next (if !s1.portOn p ∨ !s1.linkUp p then s1
    else
      let r := s1.macTake p bytes false
      match r.2 with
      | none => r.1
      | some b =>
        if isPause b then r.1.countPause p b else r.1)

/-- PAUSE_EXPIRY (R221): the pause time of a stopped queue elapses, or of a frame that a queue in its hold has ignored. -/
def execPauseExpiry (dt p q : Nat) (s : State) : Host.Outcome State Fault Refusal :=
  let s1 := s.elapse dt
  let elapsed := fun (a : Pause) => a.queue == q && decide (a.endsAt ≤ s1.now * 1000)
  .next (if ((s1.netPort p).pauses ++ (s1.netPort p).ignored).any elapsed then
      (s1.modNetPort p fun x => { x with pauses := x.pauses.filter fun a => !elapsed a, ignored := x.ignored.filter fun a => !elapsed a }).stormCauses p
    else s1)

/-- ETH_PAUSE_STORM (R222): a queue has been stopped for the watchdog time; it resumes and ignores pause frames for
the hold. -/
def execEthPauseStorm (dt p q : Nat) (s : State) : Host.Outcome State Fault Refusal :=
  let s1 := s.elapse dt
  .next (if (s1.netPort p).pauses.any fun a => a.queue == q && decide (a.since + s1.rd (Reg.NET_PAUSE_WD_MS p) * 10 ^ 6 ≤ s1.now) then
      let hold := s1.now + s1.rd (Reg.NET_PAUSE_WD_HOLD_MS p) * 10 ^ 6
      (s1.modNetPort p fun x => { x with
        pauses := x.pauses.filter fun a => a.queue != q, holds := (q, hold) :: x.holds
        ignored := x.ignored ++ x.pauses.filter fun a => a.queue == q }).raise 0x2504 (srcPort p) q
    else s1)

/-- PAUSE_HOLD_EXPIRY (R222): the hold of a queue ends, and with it the cause of its storm. -/
def execPauseHoldExpiry (dt p q : Nat) (s : State) : Host.Outcome State Fault Refusal :=
  let s1 := s.elapse dt
  .next (if (s1.netPort p).holds.any fun h => h.1 == q && decide (h.2 ≤ s1.now) then
      (s1.modNetPort p fun x => { x with holds := x.holds.filter fun h => h.1 != q, ignored := x.ignored.filter fun a => a.queue != q }).endCause 0x2504 (srcPort p) q
    else s1)

/-! ### Services of the management ports (R233) -/

/-- MGT_SERVICE_FRAME (R35, R233): ranger firmware answers an ARP request or an ICMP echo for the port's address; an IPv4 fragment for
the Cyxel port is discarded and counted. -/
def execMgtServiceFrame (dt m : Nat) (bytes : List Byte) (s : State) : Host.Outcome State Fault Refusal :=
  let s1 := s.elapse dt
  let p := 64 + m
  .next (if 2 ≤ m ∨ !s1.linkUp p ∨ s1.mgtAddress p = 0 then s1
    else
      let r := s1.macTake p bytes false
      match r.2 with
      | none => r.1
      | some b =>
        let h := headers b
        let own := s1.mgtAddress p
        let peer := u48 b 6
        if h.etype = 0x0806 ∧ u16 b (h.l3 + 6) = 1 ∧ u32 b (h.l3 + 24) = own then
          let body := be16 1 ++ be16 0x0800 ++ be8 6 ++ be8 4 ++ be16 2 ++ beBytes 6 (macAddress p) ++ be32 own ++ bytesAt b (h.l3 + 8) 10
          r.1.queueFrame p (firmwareFrame 5 (etherHeader peer (macAddress p) h.tci 0x0806 ++ body))
        else if h.v4 ∧ h.proto = 1 ∧ u8 b h.l4 = 8 ∧ h.dest b = own then
          let icmp := be8 0 ++ be8 0 ++ be16 0 ++ bytesAt b (h.l4 + 4) (h.l4len - 4)
          let body := putAt icmp 2 (be16 (checksum icmp))
          r.1.queueFrame p (firmwareFrame 5 (putIpCsum (etherHeader peer (macAddress p) h.tci 0x0800 ++
            ipv4Header 0 64 1 own (h.source b) body.length ++ body)))
        else if r.1.cyxelPiece p b then r.1.bump Reg.CYX_DISCARD_COUNT 1
        else r.1)

/-! ### Modules (R235-R239) -/

/-- What a poll keeps of a module. -/
def moduleOf (r : ModuleRead) : ModuleId :=
  ⟨r.identifier, r.revision, r.vendor, r.oui, r.part, r.partRev, r.serial, r.date⟩

/-- A module is gone from a bus: its life events end, its account is written (R236, R238, R239). -/
def State.moduleGone (s : State) (m : Nat) : State :=
  let x := s.bus m
  match x.seen with
  | none => s
  | some i =>
    let s1 := (s.endCause 0x250F (srcPort 64) m).endCause 0x2510 (srcPort 64) m
    let s2 := match s.account i with
      | some a => s1.putAccount (if s1.storeReady then a.write else a)
      | none => s1
    (s2.putBus { x with seen := none, laserOn := false, temperature := 0 }).raise 0x250D (srcPort 64) m

/-- A module is found on a bus: upper page 00h is selected, its identity is read, it is brought up where AUTO_INIT is set, and a CMIS module
has an account (R235, R236, R239). -/
def State.moduleFound (s : State) (m : Nat) (r : ModuleRead) : State :=
  let i := moduleOf r
  let s1 := ((s.moduleWrite m 127 0).putBus { s.bus m with seen := some i }).autoInit m
  let s2 := if !i.cmisOk then s1 else
    match s1.account i with
    | some a => s1.putAccount a
    | none => s1.putAccount ⟨i.oui, i.serial, 0, 0, 0, none⟩
  s2.raise 0x250D (srcPort 64) m

/-- One bus of a poll cycle (R235, R236). -/
def State.pollBus (s : State) (m : Nat) (r : ModuleRead) : State :=
  match (s.bus m).seen with
  | none => if r.ack then s.moduleFound m r else s
  | some i =>
    if !r.ack then (s.raise 0x250E (srcPort 64) m).moduleGone m
    else if i.serial ≠ r.serial then (s.moduleGone m).moduleFound m r
    else s

/-- One poll cycle over the module buses. -/
def State.pollModules (s : State) (reads : List ModuleRead) : State :=
  (reads.take 16).zipIdx.foldl (fun t x => t.pollBus x.2 x.1) s

/-- MODULE_POLL (R235): each second the part polls every bus, unless HOLD defers it. -/
def execModulePoll (dt : Nat) (reads : List ModuleRead) (s : State) : Host.Outcome State Fault Refusal :=
  let s1 := s.elapse dt
  .next (if !s1.domOn 1 ∨ s1.boot.firmwareSince.isNone then s1
    else if s1.flag Reg.MOD_CTL_HOLD then { s1 with net := { s1.net with holdSince := some (s1.net.holdSince.getD s1.now) } }
    else { s1 with net := { s1.net with holdSince := none } }.pollModules reads)

/-- MODULE_HOLD_EXPIRY (R235): after 5 s of HOLD the part runs one poll cycle, and then honours HOLD again. -/
def execModuleHoldExpiry (dt : Nat) (reads : List ModuleRead) (s : State) : Host.Outcome State Fault Refusal :=
  let s1 := s.elapse dt
  .next (match s1.net.holdSince with
    | none => s1
    | some t =>
      if s1.flag Reg.MOD_CTL_HOLD ∧ t + 5 * 10 ^ 9 ≤ s1.now then
        { s1 with net := { s1.net with holdSince := some s1.now } }.pollModules reads
      else s1)

/-- Twice the temperature weight of Table 8.6, for a temperature in 1/256 °C. -/
def weightHalves (t : Int) : Nat :=
  if t ≤ 45 * 256 then 2 else if t ≤ 50 * 256 then 3 else if t ≤ 55 * 256 then 4 else if t ≤ 60 * 256 then 6
  else if t ≤ 65 * 256 then 8 else if t ≤ 70 * 256 then 12 else 16

/-- LASER_ON: the module is in ModuleReady with at least one bound lane enabled. Bit `i` of `disables` is the module's transmitter disable
of the lane bound `i`-th (R237). -/
def ModuleBus.lit (x : ModuleBus) (ready : Bool) (disables : Nat) : Bool := ready && (List.range x.lanes).any fun i => !bit disables i

/-- One module's sample (R237, R238): bus, temperature in 1/256 °C, whether it is in ModuleReady, and its transmitter disables. -/
def State.lifeSample (s : State) (m : Nat) (temp : Int) (ready : Bool) (disables : Nat) : State :=
  let x := s.bus m
  let laser := x.lit ready disables
  match x.seen.bind s.account with
  | none => s
  | some a =>
    let b : ModuleAccount := if laser then { a with laser := a.laser + 60, weighted := a.weighted + 60 * weightHalves temp } else a
    let s1 := (s.putBus { x with temperature := temp, laserOn := laser }).putAccount b
    let s2 := if x.lifeWarn b ∧ !s1.causePresent 0x250F (srcPort 64) m then s1.raise 0x250F (srcPort 64) m else s1
    if x.eol b ∧ !s2.causePresent 0x2510 (srcPort 64) m then s2.raise 0x2510 (srcPort 64) m else s2

/-- MODULE_LIFE_SAMPLE (R237): every 60 s the part samples each module with an account. -/
def execModuleLifeSample (dt : Nat) (samples : List (Nat × Int × Bool × Nat)) (s : State) : Host.Outcome State Fault Refusal :=
  let s1 := s.elapse dt
  .next (if !s1.domOn 1 ∨ s1.boot.firmwareSince.isNone then s1
    else (samples.filter fun x => decide (x.1 < 16)).foldl (fun t x => t.lifeSample x.1 x.2.1 x.2.2.1 x.2.2.2) s1)

/-- MODULE_ACCOUNT_WRITE (R239): each hour the accounts are written to the settings store, while it is READY. -/
def execModuleAccountWrite (dt : Nat) (s : State) : Host.Outcome State Fault Refusal :=
  let s1 := s.elapse dt
  let all := s1.net.accounts.map fun (a : ModuleAccount) => a.write
  .next (if s1.storeReady then { s1 with net := { s1.net with accounts := all } } else s1)

/-! ### What register writes do (R235, R242, R246) -/

/-- A write of NET_CTL from its old enable and mode (R246): the port restarts when either changed. -/
def State.onNetCtl (s : State) (p oldEn oldMode : Nat) : State :=
  if s.rd (Reg.NET_CTL_EN p) ≠ oldEn ∨ s.rd (Reg.NET_CTL_MODE p) ≠ oldMode then s.restartPort p else s

/-- MOD_XFER.GO (R235): a one-byte transfer starts on the bus, while HOLD is set. -/
def State.onModXfer (s : State) : State :=
  if s.flag Reg.MOD_CTL_HOLD then
    let s1 := (s.wr Reg.MOD_XFER_DONE 0).wr Reg.MOD_XFER_NAK 0
    { s1 with
      net := { s1.net with transfer := true }
      sent := .module (s.rd Reg.MOD_XFER_BUS) (s.flag Reg.MOD_XFER_RD) (s.rd Reg.MOD_XFER_OFFSET) (s.rd Reg.MOD_XFER_DATA) :: s1.sent }
  else s

/-- MOD_XFER_DONE (R235): the transfer in progress ends, with the byte read, without acknowledge, or by a time-out, which shows as a missing
acknowledge too (DESIGN CHOICE, log entry 111) and raises MOD_BUS_ERR. -/
def execModXferDone (dt : Nat) (ends : TransferEnd) (data : Nat) (s : State) : Host.Outcome State Fault Refusal :=
  let s1 := s.elapse dt
  .next (if !s1.net.transfer ∨ !s1.domOn 1 then s1
    else
      let s2 := ({ s1 with net := { s1.net with transfer := false } }.wr Reg.MOD_XFER_DONE 1).wr Reg.MOD_XFER_NAK (b01 (decide (ends ≠ TransferEnd.acked)))
      match ends with
      | .acked => if s2.flag Reg.MOD_XFER_RD then s2.wr Reg.MOD_XFER_DATA data else s2
      | .nak => s2
      | .timedOut => s2.raise 0x250E (srcPort 64) (s2.rd Reg.MOD_XFER_BUS))

end Sys2Proof.Machine
end

