-- ==== Sys2Proof/Machine/TimCmds.lean ====
section
/-!
DEFINITION. The TIM commands (R386-R389), PTP messages and the transparent-clock relay (R372-R381), the events of the Chronograph,
and what the writes of R390 and R391 do. The layouts of PTP messages are those of IEEE 1588-2019 (PRESUMED, log entry 45).
-/
namespace Sys2Proof.Machine

/-! ### PTP messages -/

/-- Offset of the PTP message in a frame; none for a frame that carries none over UDP. -/
def ptpAt (b : List Byte) : Option Nat :=
  let h := headers b
  if (h.v4 || h.v6) && h.proto == 17 && (h.dport b == 319 || h.dport b == 320) && u8 b (h.l4 + 9) % 16 == 2 then some (h.l4 + 8) else none

/-- Fields of a message at offset `o`. -/
def ptpType (b : List Byte) (o : Nat) : Nat := u8 b o % 16
def ptpDomainOf (b : List Byte) (o : Nat) : Nat := u8 b (o + 4)
def ptpSource (b : List Byte) (o : Nat) : Nat := beNat (bytesAt b (o + 20) 10)
def ptpSeq (b : List Byte) (o : Nat) : Nat := u16 b (o + 30)
def ptpLog (b : List Byte) (o : Nat) : Int := sext 8 (u8 b (o + 33))
def ptpTwoStep (b : List Byte) (o : Nat) : Bool := bit (u8 b (o + 6)) 1
/-- correctionField in ns, and a timestamp in ns. -/
def ptpCorrection (b : List Byte) (o : Nat) : Int := (sext 64 (u64 b (o + 8))).tdiv 65536
def ptpStamp (b : List Byte) (o : Nat) : Int := ((u48 b o * 10 ^ 9 + u32 b (o + 6) : Nat) : Int)

/-- A frame passes the MAC and MACsec. -/
def State.frameTaken (s : State) (p : Nat) (bytes : List Byte) : State × Option (List Byte) :=
  if !s.portOn p || !s.linkUp p then (s, none)
  else
    let r := s.macTake p bytes false
    match r.2 with
    | none => (r.1, none)
    | some b =>
      let m := r.1.macsecTake p b
      match m.2 with
      | none => (m.1, none)
      | some (c, _, _) => (m.1, some c)

/-- Do the checksums of a frame hold (R215)? -/
def csumOk (b : List Byte) : Bool := ipCsumOk b && l4CsumOk b

/-- A frame passes the MAC, MACsec and the checksums of R215. -/
def State.frameIn (s : State) (p : Nat) (bytes : List Byte) : State × Option (List Byte) :=
  let r := s.frameTaken p bytes
  (r.1, r.2.filter csumOk)

/-- delayAsymmetry of a port. -/
def State.asymmetry (s : State) (p : Nat) : Int := s.rdInt (Reg.TIM_ASYM_NS p)

/-- The part's port identity on port `p`. -/
def ownIdentity (p : Nat) : Nat :=
  let m := macAddress 0
  ((m / 2 ^ 24) * 2 ^ 40 + 0xFFFE * 2 ^ 24 + m % 2 ^ 24) * 2 ^ 16 + (p + 1)

/-- The domain that hears a message on port `p`. -/
def State.ptpHears (s : State) (p : Nat) (b : List Byte) (o : Nat) : Option Nat :=
  ([0, 1] : List Nat).find? fun d =>
    let x := s.ptp d
    x.enabled && x.ports.contains p && x.number == ptpDomainOf b o && x.ipv6 == (headers b).v6 && x.vlan == (headers b).tci % 4096

/-- A PTP frame of the part: from a domain's or relay's address to a group or peer. -/
def ptpFrame (p vlan : Nat) (ipv6 : Bool) (dst dstMac src : Nat) (event : Bool) (msg : List Byte) : List Byte :=
  let port : Nat := if event then 319 else 320
  let u := udpHeader port port msg.length ++ msg
  let ip := if ipv6 then ipv6Header 0 64 17 src dst u.length else ipv4Header 0 64 17 src dst u.length
  putL4Csum (putIpCsum (etherHeader dstMac (macAddress p) vlan (if ipv6 then 0x86DD else 0x0800) ++ ip ++ u))

/-- The group of messages: 224.0.1.129 or FF0E::181; of Pdelay messages 224.0.0.107 or FF02::6B. -/
def ptpGroup (ipv6 peer : Bool) : Nat :=
  if peer then (if ipv6 then 0xFF02 * 2 ^ 112 + 0x6B else 0xE000006B) else if ipv6 then 0xFF0E * 2 ^ 112 + 0x181 else 0xE0000181

/-- A message of the part: type, domain, first flag byte, correction, port, sequence, body. -/
def ptpMessage (type domain flags : Nat) (corr : Int) (p seq : Nat) (body : List Byte) : List Byte :=
  be8 type ++ be8 2 ++ be16 (34 + body.length) ++ be8 domain ++ be8 0 ++ be8 flags ++ be8 0 ++ be64 (toBits 64 (corr * 65536)) ++ zeros 4 ++
    beBytes 10 (ownIdentity p) ++ be16 seq ++ be8 (if type = 1 then 1 else 5) ++ be8 0x7F ++ body

/-! ### Masters (R372) -/

/-- Does a data set precede another? -/
def vecLt : List Nat → List Nat → Bool
  | a :: r, b :: t => decide (a < b) || (a == b && vecLt r t)
  | _, _ => false

/-- The best Announce of a list. -/
def bestAnnounce : List Announce → Option Announce
  | [] => none
  | a :: r =>
    match bestAnnounce r with
    | none => some a
    | some b => some (if vecLt b.vec a.vec then b else a)

/-- Syncs of a domain are missing (R372). -/
def PtpDomain.syncMissing (d : PtpDomain) (now : Nat) : Bool :=
  match d.lastSync with
  | none => false
  | some t =>
    let iv : Nat := if 0 ≤ d.syncLog then 10 ^ 9 * 2 ^ d.syncLog.toNat else 10 ^ 9 / 2 ^ (-d.syncLog).toNat
    decide (t + 3 * iv ≤ now)

/-- Judge the Heliostat entry of a domain. -/
def State.ptpCheck (s : State) (d : Nat) : State :=
  match s.entryOf d with
  | some i => s.refCheck i
  | none => s

/-- Select the master of a domain again. -/
def State.selectMaster (s : State) (d : Nat) : State :=
  let x := s.ptp d
  let m := (bestAnnounce x.announces).map fun (a : Announce) => a.source
  let s1 := if m = x.master then s else s.modPtp d fun y => { y with master := m, waiting := none, pdelayResp := none, delayLog := none, delayAt := none }
  s1.ptpCheck d

/-- Messages have returned: TIM_PTP_LOSS ends. -/
def State.ptpBack (s : State) (d : Nat) : State :=
  let x := s.ptp d
  if x.lost ∧ x.master.isSome ∧ !x.syncMissing s.now then
    ((s.modPtp d fun y => { y with lost := false }).endCause 0x2A05 srcTim d).ptpCheck d
  else s

/-- A θ sample of a domain (R373). -/
def State.theta (s : State) (d : Nat) (v : Int) (freq : Option Int) : State :=
  let f := if d = 0 then Reg.TIM_OFS_A_NS else Reg.TIM_OFS_B_NS
  let s1 := (s.modPtp d fun x => { x with thetas := ((v, s.now) :: x.thetas).take 16, sampled := true }).wrInt f (satNs v)
  match s1.entryOf d with
  | some i => s1.refSample i v freq
  | none => s1

/-- t1 of a Sync is known: the offset sample is formed once a path delay has been measured. -/
def State.syncDone (s : State) (d : Nat) (t2 t1 corr : Int) (freq : Option Int) : State :=
  let s1 := s.modPtp d fun x => { x with diff := some (t2 - t1 - corr), waiting := none }
  let x := s1.ptp d
  if x.delays.isEmpty then s1 else s1.theta d (t2 - t1 - corr - meanInt x.delays) freq

/-- A path delay measurement of a domain. -/
def State.addDelay (s : State) (d : Nat) (v : Int) : State :=
  s.modPtp d fun x => { x with delays := (v :: x.delays).take 16, delayReq := none, pdelayResp := none }

/-! ### Events of PTP -/

/-- PTP_SYNC_RECEIVE (R373): a Sync of a domain's master. `freq` is the frequency of the input over the last 10 s, once measured. -/
def execPtpSyncReceive (dt p : Nat) (bytes : List Byte) (freq : Option Int) (s : State) : Host.Outcome State Fault Refusal :=
  let r := (s.elapse dt).frameIn p bytes
  .next (match r.2 with
    | none => r.1
    | some b =>
      match ptpAt b with
      | none => r.1
      | some o =>
        match r.1.ptpHears p b o with
        | none => r.1
        | some d =>
          let x := r.1.ptp d
          let lg := ptpLog b o
          if ptpType b o ≠ 0 ∨ x.master ≠ some (ptpSource b o) ∨ lg < -7 ∨ 1 < lg then r.1
          else
            let t2 := r.1.ingress p
            let corr := ptpCorrection b o + r.1.asymmetry p
            let s1 := (r.1.modPtp d fun y => { y with syncLog := lg, lastSync := some r.1.now }).ptpBack d
            if ptpTwoStep b o then s1.modPtp d fun y => { y with waiting := some (ptpSeq b o, t2, corr) }
            else s1.syncDone d t2 (ptpStamp b (o + 34)) corr freq)

/-- PTP_FOLLOW_UP_RECEIVE (R372): the Follow_Up of a two-step Sync. -/
def execPtpFollowUpReceive (dt p : Nat) (bytes : List Byte) (freq : Option Int) (s : State) : Host.Outcome State Fault Refusal :=
  let r := (s.elapse dt).frameIn p bytes
  .next (match r.2 with
    | none => r.1
    | some b =>
      match ptpAt b with
      | none => r.1
      | some o =>
        match r.1.ptpHears p b o with
        | none => r.1
        | some d =>
          let x := r.1.ptp d
          match x.waiting with
          | none => r.1
          | some w =>
            if ptpType b o ≠ 8 ∨ x.master ≠ some (ptpSource b o) ∨ w.1 ≠ ptpSeq b o then r.1
            else r.1.syncDone d w.2.1 (ptpStamp b (o + 34)) (w.2.2 + ptpCorrection b o) freq)

/-- The Announce that a message carries. -/
def announceOf (b : List Byte) (o p now : Nat) : Announce :=
  let lg := ptpLog b o
  let iv : Nat := if 0 ≤ lg then 10 ^ 9 * 2 ^ lg.toNat else 10 ^ 9 / 2 ^ (-lg).toNat
  let gm := u64 b (o + 53)
  let h := headers b
  ⟨[u8 b (o + 47), u8 b (o + 48), u8 b (o + 49), u16 b (o + 50), u8 b (o + 52), gm, u16 b (o + 61), ptpSource b o, p], ptpSource b o, p,
    h.source b, u48 b 6, gm, u16 b (o + 44), u8 b (o + 48), now + 3 * iv⟩

/-- PTP_ANNOUNCE_RECEIVE (R372): an Announce of a domain; the BMCA selects the domain's master. -/
def execPtpAnnounceReceive (dt p : Nat) (bytes : List Byte) (s : State) : Host.Outcome State Fault Refusal :=
  let r := (s.elapse dt).frameIn p bytes
  .next (match r.2 with
    | none => r.1
    | some b =>
      match ptpAt b with
      | none => r.1
      | some o =>
        match r.1.ptpHears p b o with
        | none => r.1
        | some d =>
          let lg := ptpLog b o
          if ptpType b o ≠ 11 ∨ lg < -3 ∨ 1 < lg then r.1
          else
            let a := announceOf b o p r.1.now
            let s1 := r.1.modPtp d fun x => { x with announces := a :: x.announces.filter fun y =>
              !(y.source == a.source && y.port == p) && decide (r.1.now < y.expires) }
            (s1.selectMaster d).ptpBack d)

/-- The link of a relay port. -/
def State.relayLink (s : State) (p : Nat) : RelayLink := (s.tim.relayLinks.find? fun x => x.port == p).getD ⟨p, [], 0, none, none⟩
def State.putRelayLink (s : State) (x : RelayLink) : State :=
  s.modTim fun t => { t with relayLinks := x :: t.relayLinks.filter fun y => y.port != x.port }

/-- A Pdelay response to a request `q`, with a response `w` that waits for its follow-up: what is known now, as the delay, or the
response that waits. The port's delayAsymmetry `asym` adds to the correctionField of a Pdelay_Resp (R380). -/
def pdelayOf (b : List Byte) (o : Nat) (t4 asym : Int) (q : Option (Nat × Int)) (w : Option (Nat × Int × Int)) : Option Int × Option (Nat × Int × Int) :=
  match q with
  | none => (none, none)
  | some (seq, t1) =>
    if ptpSeq b o ≠ seq then (none, w)
    else if ptpType b o = 3 then
      if ptpTwoStep b o then (none, some (seq, t4, ptpStamp b (o + 34) - ptpCorrection b o - asym))
      else (some ((t4 - t1 - ptpCorrection b o - asym).tdiv 2), none)
    else
      match w with
      | some x => (some (((x.2.1 - t1) - (ptpStamp b (o + 34) + ptpCorrection b o - x.2.2)).tdiv 2), none)
      | none => (none, none)

/-- A Delay_Resp or Pdelay response for a domain. -/
def State.delayFor (s : State) (d p : Nat) (b : List Byte) (o : Nat) : State :=
  let x := s.ptp d
  if ptpType b o = 9 then
    match x.delayReq, x.diff with
    | some (seq, t3), some diff =>
      if x.p2p || seq != ptpSeq b o || x.master != some (ptpSource b o) then s
      else (s.modPtp d fun y => { y with delayLog := some (ptpLog b o) }).addDelay d ((diff + (ptpStamp b (o + 34) - t3 - ptpCorrection b o)).tdiv 2)
    | _, _ => s
  else if !x.p2p then s
  else
    let r := pdelayOf b o (s.ingress p) (s.asymmetry p) x.delayReq x.pdelayResp
    match r.1 with
    | some v => s.addDelay d v
    | none => s.modPtp d fun y => { y with pdelayResp := r.2 }

/-- A Pdelay response for the relay. -/
def State.delayForRelay (s : State) (p : Nat) (b : List Byte) (o : Nat) : State :=
  let x := s.relayLink p
  let r := pdelayOf b o (s.ingress p) (s.asymmetry p) x.req x.resp
  match r.1 with
  | some v => s.putRelayLink { x with delays := (v :: x.delays).take 16, req := none, resp := none }
  | none => s.putRelayLink { x with resp := r.2 }

/-- Is a port one of the relay's, with the relay in P2P mode? -/
def State.relayPeer (s : State) (p : Nat) : Bool := s.tim.relayOn && s.tim.relayP2p && (s.tim.relayUp == p || s.tim.relayDown.contains p)

/-- PTP_DELAY_RESP_RECEIVE (R373): a delay response, addressed to the part's own port. -/
def execPtpDelayRespReceive (dt p : Nat) (bytes : List Byte) (s : State) : Host.Outcome State Fault Refusal :=
  let r := (s.elapse dt).frameIn p bytes
  .next (match r.2 with
    | none => r.1
    | some b =>
      match ptpAt b with
      | none => r.1
      | some o =>
        if !(([9, 3, 10] : List Nat).contains (ptpType b o)) ∨ beNat (bytesAt b (o + 44) 10) ≠ ownIdentity p then r.1
        else match r.1.ptpHears p b o with
          | some d => r.1.delayFor d p b o
          | none => if r.1.relayPeer p ∧ ptpDomainOf b o = r.1.tim.relayDomain ∧ ptpType b o ≠ 9 then r.1.delayForRelay p b o else r.1)

/-- The part's address in a domain, for its side. -/
def State.ptpAddress (s : State) (x : PtpDomain) : Nat := if s.sideB then x.addrB else x.addrA

/-- Is a Delay_Req not due yet, by the interval that the master has given (R372)? -/
def PtpDomain.delayEarly (x : PtpDomain) (now : Nat) : Bool :=
  match x.delayLog, x.delayAt with
  | some lg, some t => decide (now < t + if 0 ≤ lg then 10 ^ 9 * 2 ^ lg.toNat else 10 ^ 9 / 2 ^ (-lg).toNat)
  | _, _ => false

/-- PTP_DELAY_REQ_SEND (R372): a Delay_Req or Pdelay_Req of domain `target` leaves on its master's port; for target 2, a
Pdelay_Req of the relay on `port`. -/
def execPtpDelayReqSend (dt target port : Nat) (s : State) : Host.Outcome State Fault Refusal :=
  let s1 := s.elapse dt
  .next (if !s1.domOn 39 then s1
    else if target = 2 then
      if !s1.relayPeer port ∨ !s1.linkUp port then s1
      else
        let x := s1.relayLink port
        let msg := ptpMessage 2 s1.tim.relayDomain 0 (-(s1.asymmetry port)) port x.seq (zeros 20)
        let v6 := s1.tim.relayIpv6
        let fr := ptpFrame port s1.tim.relayVlan v6 (ptpGroup v6 true) (groupMac v6 (ptpGroup v6 true)) (s1.mgtAddress port) true msg
        (s1.putRelayLink { x with seq := (x.seq + 1) % 65536, req := some (x.seq, s1.egress port), resp := none }).queueFrame port (firmwareFrame 7 fr)
    else
      let x := s1.ptp target
      match x.best with
      | none => s1
      | some a =>
        if !x.enabled ∨ 2 ≤ target ∨ !s1.linkUp a.port ∨ (!x.p2p ∧ x.delayEarly s1.now) then s1
        else
          let uni := x.hybrid && !x.p2p
          let msg := if x.p2p then ptpMessage 2 x.number 0 (-(s1.asymmetry a.port)) a.port x.delaySeq (zeros 20)
            else ptpMessage 1 x.number (if uni then 4 else 0) (-(s1.asymmetry a.port)) a.port x.delaySeq (zeros 10)
          let g := ptpGroup x.ipv6 x.p2p
          let fr := ptpFrame a.port x.vlan x.ipv6 (if uni then a.ip else g) (if uni then a.mac else groupMac x.ipv6 g) (s1.ptpAddress x) true msg
          (s1.modPtp target fun y => { y with delaySeq := (y.delaySeq + 1) % 65536, delayReq := some (y.delaySeq, s1.egress a.port), pdelayResp := none, delayAt := some s1.now }).queueFrame
            a.port (firmwareFrame 7 fr))

/-- PTP_PDELAY_REQ_RECEIVE (R372): a Pdelay_Req is answered in one step, its turnaround in the correction. -/
def execPtpPdelayReqReceive (dt p : Nat) (bytes : List Byte) (s : State) : Host.Outcome State Fault Refusal :=
  let r := (s.elapse dt).frameIn p bytes
  .next (match r.2 with
    | none => r.1
    | some b =>
      match ptpAt b with
      | none => r.1
      | some o =>
        let h := headers b
        let dom := (r.1.ptpHears p b o).filter fun d => (r.1.ptp d).p2p
        let relay := r.1.relayPeer p && ptpDomainOf b o == r.1.tim.relayDomain
        if ptpType b o ≠ 2 ∨ (dom.isNone ∧ !relay) then r.1
        else
          let turn : Int := r.1.egress p - r.1.ingress p
          let msg := ptpMessage 3 (ptpDomainOf b o) 0 (ptpCorrection b o + turn) p (ptpSeq b o) (zeros 10 ++ bytesAt b (o + 20) 10)
          let src : Nat := match dom with
            | some d => r.1.ptpAddress (r.1.ptp d)
            | none => r.1.mgtAddress p
          let g := ptpGroup h.v6 true
          r.1.queueFrame p (firmwareFrame 7 (ptpFrame p (h.tci % 4096) h.v6 g (groupMac h.v6 g) src true msg)))

/-- TIM_PTP_LOSS (R372, R397): Syncs are missing for 3 intervals, or the master's Announce has timed out. -/
def execTimPtpLoss (dt d : Nat) (s : State) : Host.Outcome State Fault Refusal :=
  let s1 := s.elapse dt
  let x := s1.ptp d
  let dead := (x.best.map fun (a : Announce) => decide (a.expires ≤ s1.now)).getD false
  .next (if 2 ≤ d ∨ !x.enabled ∨ !s1.domOn 39 ∨ x.lost ∨ !(x.syncMissing s1.now || dead) then s1
    else
      let s2 := (s1.modPtp d fun y => { y with lost := true, announces := y.announces.filter fun a => decide (s1.now < a.expires) }).raise 0x2A05 srcTim d
      let s3 := match s2.entryOf d with
        | some i => s2.refLost i
        | none => s2
      s3.selectMaster d)

/-- A message that the relay forwards from port `p` to port `q`, `residence` ns after it came in: an event message gains the residence, on a Sync of a
P2P relay the ingress link delay, and the delayAsymmetry as IEEE 1588-2019 has it: of the ingress port on Sync and Pdelay_Resp, less that
of the egress port on Delay_Req and Pdelay_Req (R380, R381). -/
def State.relayed (s : State) (p q : Nat) (b : List Byte) (o residence : Nat) : List Byte :=
  let ty := ptpType b o
  let link : Int := if s.tim.relayP2p ∧ ty = 0 then meanInt (s.relayLink p).delays else 0
  let asym : Int := if ty = 0 ∨ ty = 3 then s.asymmetry p else -(s.asymmetry q)
  let corr : Int := sext 64 (u64 b (o + 8)) + ((residence : Int) + link + asym) * 65536
  if ty < 4 then putL4Csum (putAt b (o + 8) (be64 (toBits 64 corr))) else b

/-- A frame of the relay that came in on port `p` is dropped and counted (R381). -/
def State.relayDrop (s : State) (p : Nat) : State := (s.bump Reg.TIM_TC_DROP_COUNT 1).raise 0x2A07 srcTim p

/-- TC_RELAY_FORWARD (R381): a PTP message of the relayed domain; `residence` is what its copy to each egress port takes from ingress to egress
timestamp, in ns, in the order of the ports. -/
def execTcRelayForward (dt p : Nat) (bytes : List Byte) (residence : List Nat) (s : State) : Host.Outcome State Fault Refusal :=
  let s1 := s.elapse dt
  let t := s1.tim
  let outs := if p = t.relayUp then t.relayDown else if t.relayDown.contains p then [t.relayUp] else []
  .next (if !t.relayOn ∨ outs.isEmpty ∨ !s1.domOn 39 then s1
    else
      let r := s1.frameTaken p bytes
      match r.2 with
      | none => r.1
      | some b =>
        match ptpAt b with
        | none => r.1
        | some o =>
          let ty := ptpType b o
          if ptpDomainOf b o ≠ t.relayDomain then r.1
          else if !csumOk b then r.1.relayDrop p
          else if t.relayP2p ∧ (ty = 2 ∨ ty = 3 ∨ ty = 10) then r.1
          else
            outs.zipIdx.foldl (fun u q =>
              let res := residence.getD q.2 0
              if 1000000 < res then u.relayDrop p
              else u.queueFrame q.1 (firmwareFrame (if ty < 4 then 7 else 5) (u.relayed p q.1 b o res))) r.1)

/-! ### The Chronograph's own events -/

/-- The domains' offsets of the second are compared (R374). -/
def State.domainSplit (s : State) : State :=
  let a := s.tim.domA
  let b := s.tim.domB
  let diff : Int := ((a.thetas.head?.map fun (x : Int × Nat) => x.1).getD 0) - ((b.thetas.head?.map fun (x : Int × Nat) => x.1).getD 0)
  let s1 := if a.sampled ∧ b.sampled then
      (if s.rd Reg.TIM_SPLIT_NS < diff.natAbs then s.raise 0x2A03 srcTim 0 else s.endCause 0x2A03 srcTim 0) else s
  (s1.modPtp 0 fun x => { x with sampled := false }).modPtp 1 fun x => { x with sampled := false }

/-- The mean of y over the second is recorded where an input was selected all through it, without holdover, and y_h formed (R403). -/
def State.recordMean (s : State) (second : Nat) : State :=
  let s1 := s.setY s.freqWord
  let m := s1.ref.ySum.tdiv (10 ^ 9)
  let selected := s1.activeEntry.isSome && s1.rd Reg.REF_STAT_STATE != 3
  let s2 := s1.modRef fun r => { r with ySum := 0, whole := selected }
  if s1.ref.whole ∧ selected then (s2.modRef fun r => { r with means := ((m, second) :: r.means).take 80 }).formYh else s2

/-- The mean of the partner lanes' time offsets over the second (R440). -/
def State.timeSplit (s : State) : State :=
  if s.twn.ofsCount = 0 then s
  else
    let m := s.twn.ofsSum.tdiv s.twn.ofsCount
    let s1 := { s with twn := { s.twn with ofsSum := 0, ofsCount := 0 } }
    if s.rd Reg.TWN_TIME_SPLIT_NS < m.natAbs then s1.raise 0x2C0B srcTwin 0 else s1.endCause 0x2C0B srcTwin 0

/-- TIM_SECOND_TICK (R374): a second of Chronograph time ends. -/
def execTimSecondTick (dt : Nat) (s : State) : Host.Outcome State Fault Refusal :=
  let s1 := s.elapse dt
  let k := s1.chrono / 10 ^ 9
  .next (if !s1.domOn 39 ∨ k ≤ s1.tim.lastSecond then s1
    else ((((s1.modTim fun t => { t with lastSecond := k }).domainSplit).retireBias).recordMean k).timeSplit)

/-- CHRONOGRAPH_STEP (R376): the tick of a decided step. -/
def execChronographStep (dt : Nat) (s : State) : Host.Outcome State Fault Refusal :=
  let s1 := s.elapse dt
  .next (match s1.tim.stepAt with
    | none => s1
    | some t =>
      if s1.chrono < t ∨ !s1.domOn 39 then s1
      else
        let cmd := s1.tim.stepCmd
        let s2 := s1.stepTo (toBits 64 ((s1.tim.count : Int) - s1.filteredTheta))
        let s3 := (((s2.modTim fun x => { x with stepAt := none, stepCmd := none, locked := true }).timState 2).modRef fun r => { r with takeover := true }).endFreeRuns
        match cmd with
        | some c => s3.finish c.1 c.2 0 0
        | none => s3)

/-- May the program in force still start a pulse at `t`: no other takes over by then? -/
def PulseOut.mayStart (x : PulseOut) (t : Nat) : Bool := x.waiting.all fun w => decide (t < w.1)

/-- Does the next edge of the program fall within the pulse in progress, so that the output stays active (R391)? -/
def PulseOut.held (x : PulseOut) (e : Nat) : Bool :=
  match x.prog with
  | some g => g.periodic && decide (g.edge g.next ≤ e) && x.mayStart (g.edge g.next)
  | none => false

/-- A pulse in progress ends. -/
def State.tpEnd (s : State) (p : Nat) : State :=
  let x := s.tp p
  match x.endsAt with
  | none => s
  | some e =>
    if s.chrono < e then s
    else
      let s1 := s.modTp p fun y => { y with endsAt := none }
      if x.held e then s1 else s1.tpLevel p false x.low

/-- A program that waits takes over, at its time and after the pulse that was in progress has ended at `busy` (R383). -/
def State.tpTake (s : State) (p busy : Nat) : State :=
  let x := s.tp p
  match x.waiting with
  | [] => s
  | (t, g) :: r =>
    if s.chrono < max t busy ∨ x.endsAt.isSome then s
    else ((s.modTp p fun y => { y with prog := some (g.resume (max t busy)), waiting := r, low := g.activeLow }).wr (Reg.TIM_PULSE_STAT_ARMED p) 1).tpLevel p false
      g.activeLow

/-- An edge that is due asserts (R382). -/
def State.tpEdge (s : State) (p : Nat) : State :=
  match (s.tp p).prog with
  | none => s
  | some g => if (g.periodic ∨ !g.fired) ∧ g.edge g.next ≤ s.chrono ∧ (s.tp p).mayStart (g.edge g.next) then s.tpFire p (g.edge g.next) g else s

/-- What is due on TP_OUT[p]: the end of a pulse, the change to a new program, an edge. -/
def State.tpDue (s : State) (p : Nat) : State := ((s.tpEnd p).tpTake p ((s.tp p).endsAt.getD 0)).tpEdge p

/-- TIME_PULSE_EDGE (R382). -/
def execTimePulseEdge (dt p : Nat) (s : State) : Host.Outcome State Fault Refusal :=
  let s1 := s.elapse dt
  .next (if 8 ≤ p ∨ !s1.chronoOn then s1 else s1.tpDue p)

/-! ### Commands (R386-R389) -/

/-- The port list of TIM_DOMAIN_CONFIG: the entries used. -/
def domainPorts (p : List Byte) : List Nat := (List.range (u8 p 3)).map fun i => u16 p (4 + 2 * i)

/-- An unenabled domain forgets what it measured; a changed one starts again (R373). -/
def PtpDomain.restart (x : PtpDomain) : PtpDomain :=
  { PtpDomain.reset x.number with
    enabled := x.enabled, ports := x.ports, vlan := x.vlan, addrA := x.addrA, addrB := x.addrB, ipv6 := x.ipv6, p2p := x.p2p, hybrid := x.hybrid }

/-- Configure domain `d` (R373, R386). -/
def State.configDomain (s : State) (d : Nat) (p : List Byte) : State :=
  let x := s.ptp d
  let f := u8 p 2
  let y : PtpDomain := { x with
    enabled := bit f 0, number := u8 p 1, ports := domainPorts p, vlan := u16 p 38, addrA := beNat (bytesAt p 40 16)
    addrB := beNat (bytesAt p 56 16), ipv6 := bit f 1, p2p := bit f 2, hybrid := bit f 3 }
  let same := y.enabled == x.enabled && y.number == x.number && y.ports == x.ports && y.vlan == x.vlan && y.ipv6 == x.ipv6 &&
    y.p2p == x.p2p && y.hybrid == x.hybrid
  let s1 := s.wr Reg.TIM_BIAS_HOLD (b01 (bit f 4))
  if same then s1.modPtp d fun _ => y
  else
    let s2 := ((s1.modPtp d fun _ => y.restart).wr (if d = 0 then Reg.TIM_OFS_A_NS else Reg.TIM_OFS_B_NS) 0x7FFFFFFF).endCause 0x2A05 srcTim d
    match s2.entryOf d with
    | some i => s2.entryChanged i true
    | none => s2

/-- Configure the relay (R381). -/
def State.configRelay (s : State) (p : List Byte) : State :=
  let ps := domainPorts p
  s.modTim fun t => { t with
    relayOn := bit (u8 p 2) 0, relayDomain := u8 p 1, relayUp := ps.headD 0, relayDown := ps.drop 1, relayP2p := bit (u8 p 2) 2
    relayVlan := u16 p 38, relayIpv6 := bit (u8 p 2) 1, relayLinks := [] }

/-- TIM_DOMAIN_CONFIG (R386). -/
def opTimDomainConfig : OpSpec where
  code := 0x0900
  cls := .c
  keys := false
  length p := p.length == 72
  fields s p :=
    let t := u8 p 0
    let n := u8 p 3
    let ps := domainPorts p
    [(0, decide (t < 3)), (1, decide (u8 p 1 < 128) && (decide (2 ≤ t) || u8 p 1 != (s.ptp (1 - t)).number)),
     (2, decide (u8 p 2 < if t < 2 then 32 else 16)), (3, if t < 2 then decide (1 ≤ n ∧ n ≤ 4) else decide (2 ≤ n ∧ n ≤ 17)),
     (4, ps.all (fun q => decide (q < 66)) && ps.eraseDups.length == ps.length && (List.range (17 - n)).all fun i => u16 p (4 + 2 * (n + i)) == 0xFFFF),
     (38, decide (u16 p 38 < 4096)), (40, t == 2 || bit (u8 p 2) 1 || zeroAt p 40 12), (56, t == 2 || bit (u8 p 2) 1 || zeroAt p 56 12)]
  units _ _ := [(7, 0)]
  locked _ _ := false
  cruise := false
  run s _ p := Done.ok (if u8 p 0 < 2 then s.configDomain (u8 p 0) p else s.configRelay p) []

/-- TIM_STATUS (R387). -/
def opTimStatus : OpSpec where
  code := 0x0901
  cls := .q
  keys := false
  length p := p.isEmpty
  fields _ _ := []
  units _ _ := [(7, 0)]
  locked _ _ := false
  cruise := false
  run s _ _ :=
    let t := s.tim
    let sel := s.rd Reg.TIM_STAT_SEL
    let utc := fun (d : PtpDomain) => (d.best.map fun (a : Announce) => a.utcOffset).getD 0
    let gm : Nat := if sel = 1 ∨ sel = 2 then (((s.ptp (sel - 1)).best).map fun (a : Announce) => a.gm).getD 0 else 0
    Done.ok s (be8 (s.rd Reg.TIM_STAT_STATE) ++ be8 sel ++
      be8 (s.rd Reg.TIM_STAT_TIME_VALID + 2 * s.rd Reg.TIM_BIAS_HOLD + 4 * b01 (s.causePresent 0x2A03 srcTim 0) + 8 * b01 t.stepAt.isSome) ++ be8 0 ++
      timeBytes s.chrono ++ be32 (s.rd Reg.TIM_OFS_A_NS) ++ be32 (s.rd Reg.TIM_OFS_B_NS) ++ be32 (toBits 32 (meanInt t.domA.delays)) ++
      be32 (toBits 32 (meanInt t.domB.delays)) ++ be32 (toBits 32 t.bias) ++ be32 (s.rd Reg.TIM_INC_Y) ++ be64 (toBits 64 t.lastStep) ++
      be16 (utc t.domA) ++ be16 (utc t.domB) ++ be64 gm ++ be32 t.steps)

/-- The program of a TIM_PULSE_PROGRAM payload. -/
def pulseOf (p : List Byte) : PulseProg :=
  ⟨bit (u8 p 1) 1, timeAt p 4, u32 p 16, u32 p 20, u32 p 24, bit (u8 p 1) 2, 0, false⟩

/-- The limits of R382 on a program. -/
def PulseProg.ok (g : PulseProg) : Bool :=
  decide (8 ≤ g.width ∧ g.width ≤ 10 ^ 9) &&
    (!g.periodic || (decide (1 ≤ g.num ∧ 1 ≤ g.den ∧ g.den ≤ 65535 ∧ g.num ≤ 10 ^ 7 * g.den) && decide ((g.width + 8) * g.num ≤ g.den * 10 ^ 9)))

/-- Write a program into the block's registers. -/
def State.tpRegs (s : State) (p : Nat) (en : Bool) (g : PulseProg) : State :=
  [(Reg.TIM_PULSE_CTL_EN p, b01 en), (Reg.TIM_PULSE_CTL_PERIODIC p, b01 g.periodic), (Reg.TIM_PULSE_CTL_ACTIVE_LOW p, b01 g.activeLow),
   (Reg.TIM_PULSE_START_LO_NS p, g.start), (Reg.TIM_PULSE_START_HI_NS p, g.start / 2 ^ 32), (Reg.TIM_PULSE_N_N p, g.num),
   (Reg.TIM_PULSE_D_D p, max 1 g.den), (Reg.TIM_PULSE_WIDTH_NS p, g.width)].foldl (fun t v => t.wr v.1 v.2) s

/-- TIM_PULSE_PROGRAM (R382, R383, R388). -/
def opTimPulseProgram : OpSpec where
  code := 0x0902
  cls := .c
  keys := false
  length p := p.length == 32
  fields _ p :=
    let g := pulseOf p
    let en := bit (u8 p 1) 0
    [(0, decide (u8 p 0 < 8)), (1, decide (u8 p 1 < 8)), (2, zeroAt p 2 2)] ++ timeOk p 4 ++
      [(16, !en || (if g.periodic then decide (1 ≤ g.num ∧ 1 ≤ g.den ∧ g.den ≤ 65535 ∧ g.num ≤ 10 ^ 7 * g.den) else g.num == 0 && g.den == 0)),
       (24, !en || g.ok), (28, zeroAt p 28 4)]
  own s p := [(4, !bit (u8 p 1) 0 || bit (u8 p 1) 1 || decide (max s.leadEnd ((s.tp (u8 p 0)).busyAt (timeAt p 4)) ≤ timeAt p 4))]
  units _ _ := [(7, 0)]
  locked _ _ := false
  cruise := false
  run s _ p :=
    let o := u8 p 0
    let x := s.tp o
    let g := pulseOf p
    if bit (u8 p 1) 0 then
      let first := g.edge (g.resume s.leadEnd).next
      let at_ := max first (x.busyAt first)
      let w := g.resume at_
      Done.ok ((s.tpRegs o true g).modTp o fun y => { y with waiting := (x.waiting.filter fun v => decide (v.1 < at_)) ++ [(at_, w)] })
        (timeBytes (w.edge w.next) ++ zeros 4)
    else
      let s1 := (s.wr (Reg.TIM_PULSE_CTL_EN o) 0).wr (Reg.TIM_PULSE_STAT_ARMED o) 0
      Done.ok (s1.modTp o fun y => { y with prog := none, waiting := [] }) (timeBytes 0 ++ zeros 4)

/-- TIM_RESTEP (R379, R389). Its mirror carries the whole second of the step, at which the other card steps too (log entry 139). -/
def opTimRestep : OpSpec where
  code := 0x0903
  cls := .c
  keys := false
  length p := p.length == 4
  fields _ p := [(0, zeroAt p 0 4)]
  units _ _ := [(7, 0)]
  locked _ _ := false
  cruise := false
  run s x _ :=
    let sel := s.rd Reg.TIM_STAT_SEL
    if s.rd Reg.TIM_STAT_STATE < 2 ∨ ¬(sel = 1 ∨ sel = 2) then Done.err s stNotReady 0xFFFF
    else if s.tim.stepAt.isSome then Done.err s stBusy 0xFFFF
    else
      let s1 := s.decideStep (some (x.session, x.tag)) ((x.targets.head?).map fun r => r.2 * 10 ^ 9)
      { Done.pending s1 [] with stamp := be16 1 ++ zeros 2 ++ be32 0 ++ frameRefBytes 0 (s1.tim.stepAt.getD 0 / 10 ^ 9) }

/-- TIM_DOMAIN_CONFIG. -/
def execTimDomainConfig (dt : Nat) (rq : Req) (s : State) : Host.Outcome State Fault Refusal := .next (serve opTimDomainConfig dt rq s)
/-- TIM_STATUS. -/
def execTimStatus (dt : Nat) (rq : Req) (s : State) : Host.Outcome State Fault Refusal := .next (serve opTimStatus dt rq s)
/-- TIM_PULSE_PROGRAM. -/
def execTimPulseProgram (dt : Nat) (rq : Req) (s : State) : Host.Outcome State Fault Refusal := .next (serve opTimPulseProgram dt rq s)
/-- TIM_RESTEP. -/
def execTimRestep (dt : Nat) (rq : Req) (s : State) : Host.Outcome State Fault Refusal := .next (serve opTimRestep dt rq s)

/-! ### What register writes do (R390, R391) -/

/-- TIM_SNAP.GO: count and fraction are captured in one cycle. -/
def State.timSnap (s : State) : State :=
  (s.wr64 Reg.TIM_SNAP_LO_NS Reg.TIM_SNAP_HI_NS s.tim.count).wr Reg.TIM_SNAP_FRAC_F s.tim.frac

/-- TIM_SET_GO: the count takes TIM_SET at once, as a step that leaves the state as it is. -/
def State.timSetGo (s : State) : State := s.stepTo (s.rd64 Reg.TIM_SET_LO_NS Reg.TIM_SET_HI_NS)

/-- TIM_PULSE_CTL.LOAD: the block's values take effect at once, its inactive level too; a pulse in progress ends (log entry 143). -/
def State.timPulseLoad (s : State) (p : Nat) : State :=
  let g : PulseProg := ⟨s.flag (Reg.TIM_PULSE_CTL_PERIODIC p), s.rd64 (Reg.TIM_PULSE_START_LO_NS p) (Reg.TIM_PULSE_START_HI_NS p), s.rd (Reg.TIM_PULSE_N_N p),
    s.rd (Reg.TIM_PULSE_D_D p), s.rd (Reg.TIM_PULSE_WIDTH_NS p), s.flag (Reg.TIM_PULSE_CTL_ACTIVE_LOW p), 0, false⟩
  let off := fun (t : State) (on : Nat) =>
    ((t.wr (Reg.TIM_PULSE_STAT_ARMED p) on).modTp p fun y => { y with prog := none, waiting := [], endsAt := none, low := g.activeLow }).tpLevel p false g.activeLow
  if !s.flag (Reg.TIM_PULSE_CTL_EN p) then off s 0
  else
    let s1 := off s 1
    if g.periodic then s1.modTp p fun y => { y with prog := some (g.resume s.chrono) }
    else if g.start < s.chrono then ((s1.tpFire p s.chrono g).wr (Reg.TIM_PULSE_STAT_LATE p) 1).raise 0x2A06 srcTim p
    else s1.modTp p fun y => { y with prog := some g }

end Sys2Proof.Machine
end

