-- ==== Sys2Proof/Machine/RefCmds.lean ====
section
/-!
DEFINITION. The REF commands (R414-R416) and the events of the Heliostat: passes, arrivals, qualification, loss, and the edges of
frame pulses (R392-R410).
-/
namespace Sys2Proof.Machine

/-! ### Events -/

/-- REF_SELECTION_PASS (R398). -/
def execRefSelectionPass (dt : Nat) (s : State) : Host.Outcome State Fault Refusal :=
  let s1 := s.elapse dt
  .next (if s1.helioOn then s1.refPass else s1)

/-- Note whether the H pulses of a frame are as many as the entry asks (R393). -/
def State.countLines (s : State) (i h : Nat) : State :=
  let n := s.rd (Reg.REF_E_LINES_COUNT i)
  s.modRefIn i fun x => { x with formatError := n != 0 && h != n }

/-- REF_PULSE_ARRIVAL (R392): an F pulse of REF_IN (inputs 2-5) after `h` H pulses, or a PPS pulse (input 7), arrives now. `freq` is
the input's frequency over the last 10 s, once measured. -/
def execRefPulseArrival (dt input h : Nat) (freq : Option Int) (s : State) : Host.Outcome State Fault Refusal :=
  let s1 := s.elapse dt
  .next (if !s1.helioOn ∨ ¬(2 ≤ input ∧ input ≤ 5 ∨ input = 7) then s1
    else match s1.entryOf input with
      | none => s1.notePulse input
      | some i =>
        let r := s1.entryRate i
        let e := foldPhase r.1 r.2 (phaseOn r.1 r.2 s1.chrono - s1.rdInt (Reg.REF_E_DLY_NS i))
        let s2 := if input = 7 then s1 else s1.countLines i h
        (s2.notePulse input).refSample i e freq)

/-- CLK10M_PHASE_DETECTOR (R392): a phase-detector period of CLK10M_IN ends; `phase` is what the input has gained on the Chronograph
since it was selected, in ns. -/
def execClk10mPhaseDetector (dt : Nat) (phase : Int) (freq : Option Int) (s : State) : Host.Outcome State Fault Refusal :=
  let s1 := s.elapse dt
  .next (if !s1.helioOn then s1
    else match s1.entryOf 6 with
      | none => s1
      | some i => s1.refSample i phase freq)

/-- REF_QUALIFIED (R397): an input has stayed valid for REF_QUAL.S seconds. -/
def execRefQualified (dt i : Nat) (s : State) : Host.Outcome State Fault Refusal :=
  let s1 := s.elapse dt
  let x := s1.refIn i
  .next (match x.validSince with
    | none => s1
    | some t =>
      if 8 ≤ i ∨ x.qualified ∨ !s1.helioOn ∨ !s1.refValid i ∨ s1.now < t + s1.rd Reg.REF_QUAL_S * 10 ^ 9 then s1
      else ((s1.modRefIn i fun y => { y with qualified := true }).wr (Reg.REF_E_HIST_QUALIFIED i) 1).raise 0x2B03 srcRef i)

/-- Time between expected events of an entry's input, other than PTP, in ns (R397). -/
def State.eventPeriod (s : State) (i : Nat) : Nat :=
  let c := s.entryInput i
  if c = 6 then 10 ^ 6 else if c = 8 then 125000 else (s.entryRate i).2 * 10 ^ 9 / (s.entryRate i).1

/-- REF_LOSS (R397): three expected events of an input in a row are missing. PTP inputs lose activity at TIM_PTP_LOSS. -/
def execRefLoss (dt i : Nat) (s : State) : Host.Outcome State Fault Refusal :=
  let s1 := s.elapse dt
  .next (match (s1.refIn i).lastEvent with
    | none => s1
    | some t => if 8 ≤ i ∨ s1.entryInput i ≤ 1 ∨ !s1.helioOn ∨ s1.now ≤ t + 3 * s1.eventPeriod i then s1 else s1.refLost i)

/-- FRAME_PULSE_EDGE (R409, R410): what is due on FP_OUT[p]: the end of a pulse, unless the next falls within it (R418), or a pulse at its predicted
instant. -/
def execFramePulseEdge (dt p : Nat) (s : State) : Host.Outcome State Fault Refusal :=
  let s1 := s.elapse dt
  let x := s1.fpOut p
  .next (if 4 ≤ p ∨ !s1.helioOn then s1
    else
      let s2 := match x.endsAt with
        | none => s1
        | some e =>
          if s1.chrono < e then s1
          else
            let t := s1.modFp p fun y => { y with endsAt := none }
            if x.next ≠ 0 ∧ x.next ≤ e then t else t.fpLevel p false
      if x.next = 0 ∨ s2.chrono < x.next ∨ !s2.flag (Reg.REF_FP_CTL_EN p) then s2
      else
        let s3 := (s2.modFp p fun y => { y with
          phase := s2.fpPhase p, last := some x.next, endsAt := some (x.next + s2.rd (Reg.REF_FP_WIDTH_NS p)) }).fpLevel p true
        (s3.modFp p fun y => { y with next := s3.fpNext p x.next }).fpStat p)

/-- The Heliostat interrupt: asserted while a REF_ALARM bit whose REF_ALARM_EN bit is set stands at 1 (R407). -/
def State.heliostatIrq (s : State) : Bool := (List.range 8).any fun b => bit (s.rd Reg.REF_ALARM_BITS) b && bit (s.rd Reg.REF_ALARM_EN_MASK) b

/-! ### Commands -/

/-- Offset of an entry of REF_TABLE_SET. -/
def tableEntry (i : Nat) : Nat := 16 + 20 * i

/-- The checks of one entry (R396, Table 14.6). -/
def tableChecks (p : List Byte) (i : Nat) : List (Nat × Bool) :=
  let o := tableEntry i
  let c := u8 p o
  let free := c == 15
  let dup := !free && (List.range i).any fun j => u8 p (tableEntry j) == c
  let refIn := decide (2 ≤ c ∧ c ≤ 5)
  [(o, (decide (c ≤ 8) || free) && !dup), (o + 1, free || decide (1 ≤ u8 p (o + 1) ∧ u8 p (o + 1) ≤ 15)),
   (o + 2, free || decide (1 ≤ u16 p (o + 2) ∧ u16 p (o + 2) ≤ 1000)), (o + 4, decide (c ≤ 1) || free || u8 p (o + 4) == 0),
   (o + 5, decide (u8 p (o + 5) < 2)), (o + 6, decide (u16 p (o + 6) < 8192) && (refIn || free || u16 p (o + 6) == 0)),
   (o + 8, if refIn then rateOk (u32 p (o + 8)) (u32 p (o + 12)) else free || zeroAt p (o + 8) 8)]

/-- REF_TABLE_SET (R395, R396, R414). -/
def opRefTableSet : OpSpec where
  code := 0x0A00
  cls := .c
  keys := false
  length p := p.length == 176
  fields _ p :=
    [(0, decide (u8 p 0 < 8)), (1, u8 p 1 == 8), (2, decide (1 ≤ u16 p 2 ∧ u16 p 2 ≤ 600)), (4, decide (10 ≤ u16 p 4 ∧ u16 p 4 ≤ 10000)),
     (6, decide (10 ≤ u16 p 6 ∧ u16 p 6 ≤ 10000)), (8, zeroAt p 8 8)] ++ (List.range 8).flatMap (tableChecks p)
  own s p := [(0, s.rd Reg.REF_STAT_STATE == 0 || (bit (u8 p 0) 1 == s.flag Reg.REF_CTL_USE_OCXO && bit (u8 p 0) 2 == s.flag Reg.REF_CTL_OCXO_20M))]
  units _ _ := [(8, 0)]
  locked _ _ := false
  cruise := false
  run s _ p := Done.ok (s.modRef fun r => { r with staged := some p }) []

/-- REF_STATUS (R415). -/
def opRefStatus : OpSpec where
  code := 0x0A01
  cls := .q
  keys := false
  length p := p.isEmpty
  fields _ _ := []
  units _ _ := [(8, 0)]
  locked _ _ := false
  cruise := false
  run s _ _ :=
    let t := s.entryStats
    let entry := fun (i : Nat) =>
      be8 (s.rd (Reg.REF_E_CFG_INPUT i)) ++ be8 (s.rd (Reg.REF_E_CFG_RANK i)) ++ be8 (t.rd (Reg.REF_E_STAT_STATE i)) ++
        be8 (s.rd (Reg.REF_E_HIST_LOST i) + 2 * s.rd (Reg.REF_E_HIST_QUALIFIED i) + 4 * s.rd (Reg.REF_E_HIST_DISQUALIFIED i) +
          8 * s.rd (Reg.REF_E_HIST_SELECTED i) + 16 * s.rd (Reg.REF_E_HIST_DESELECTED i) + 32 * s.rd (Reg.REF_E_HIST_DISCORD i)) ++
        be16 (t.rd (Reg.REF_E_STAT_QUAL_LEFT i)) ++ zeros 2 ++ be32 (s.rd (Reg.REF_E_FREQ_Y i)) ++ be32 (s.rd (Reg.REF_E_PHASE_NS i))
    Done.ok s (be8 (s.rd Reg.REF_STAT_STATE) ++ be8 (if s.flag Reg.REF_STAT_NONE then 0xFF else s.rd Reg.REF_STAT_ACTIVE) ++
      be8 (s.rd Reg.REF_CTL_REVERTIVE + 2 * s.rd Reg.REF_STAT_DISCORD + 4 * s.rd Reg.REF_STAT_HO_WEAK + 8 * s.rd Reg.REF_CTL_USE_OCXO) ++ be8 0 ++
      be32 (s.rd Reg.REF_YH_Y) ++ be32 (s.rd Reg.TIM_INC_Y) ++ be32 ((s.now - s.ref.since) / 10 ^ 9) ++ (List.range 8).flatMap entry)

/-- The period limits of a frame-pulse output: rate of the source that a payload names. -/
def State.pulseRate (s : State) (src : Nat) : Nat × Nat :=
  if 16 ≤ src then (s.genN (src - 16), s.genD (src - 16))
  else if src < 4 then s.inputRate (src + 2) else (1, 1)

/-- REF_FRAMEPULSE (R409-R413, R416). -/
def opRefFramepulse : OpSpec where
  code := 0x0A02
  cls := .c
  keys := false
  length p := p.length == 16
  fields s p :=
    let o := u8 p 0
    let c := u8 p 2
    let en := bit (u8 p 1) 0
    let r := s.pulseRate c
    let w := u32 p 4
    let rho := sext 32 (u32 p 8)
    let fp := decide (o < 4)
    [(0, decide (o ≤ 6)), (1, decide (u8 p 1 < 16) && (o == 4 || o == 5 || !bit (u8 p 1) 3)),
     (2, !en || (if o < 4 then decide (c < 4) || c == 7 || (decide (16 ≤ c ∧ c < 32) && s.genOn (c - 16)) else if o = 6 then decide (c ≤ 2) else decide (c ≤ 3))),
     (3, zeroAt p 3 1), (4, if fp then !en || (decide (8 ≤ w ∧ w ≤ 10 ^ 6) && decide ((w + 8) * r.1 ≤ r.2 * 10 ^ 9)) else w == 0),
     (8, if fp then !en || decide (rho.natAbs * r.1 < r.2 * 10 ^ 9) else u32 p 8 == 0), (12, zeroAt p 12 4)]
  units _ _ := [(8, 0)]
  locked _ _ := false
  cruise := false
  run s _ p :=
    let o := u8 p 0
    let f := u8 p 1
    if o < 4 then
      let s1 := [(Reg.REF_FP_CTL_EN o, f % 2), (Reg.REF_FP_CTL_ACTIVE_LOW o, f / 2 % 2), (Reg.REF_FP_CTL_JUMP o, f / 4 % 2), (Reg.REF_FP_CTL_SRC o, u8 p 2),
        (Reg.REF_FP_WIDTH_NS o, u32 p 4), (Reg.REF_FP_OFS_NS o, u32 p 8)].foldl (fun t v => t.wr v.1 v.2) s
      let s2 := State.fpChanged s s1 o
      Done.ok s2 (timeBytes (s2.fpOut o).next ++ zeros 4)
    else if o = 6 then Done.ok (State.clockChanged s ((s.wr Reg.REF_ACLK_EN (f % 2)).wr Reg.REF_ACLK_SEL (u8 p 2)) 2) []
    else
      let n := o - 4
      Done.ok (State.clockChanged s (((s.wr (Reg.REF_VCLK_EN n) (f % 2)).wr (Reg.REF_VCLK_FAMILY1 n) (f / 8 % 2)).wr (Reg.REF_VCLK_SEL n) (u8 p 2)) n) []

/-- REF_TABLE_SET. -/
def execRefTableSet (dt : Nat) (rq : Req) (s : State) : Host.Outcome State Fault Refusal := .next (serve opRefTableSet dt rq s)
/-- REF_STATUS. -/
def execRefStatus (dt : Nat) (rq : Req) (s : State) : Host.Outcome State Fault Refusal := .next (serve opRefStatus dt rq s)
/-- REF_FRAMEPULSE. -/
def execRefFramepulse (dt : Nat) (rq : Req) (s : State) : Host.Outcome State Fault Refusal := .next (serve opRefFramepulse dt rq s)

end Sys2Proof.Machine
end

