-- ==== Sys2Proof/Machine/EncCmds.lean ====
section
/-!
DEFINITION. The ENC commands (R363-R367) and the events of the encoder and decoder engines (R342-R360).
-/
namespace Sys2Proof.Machine

/-! ### ENC_CHANNEL_CREATE (R332, R335, R339, R340, R348, R363) -/

/-- The channel that a payload describes. -/
def encOfPayload (p : List Byte) : EncChan where
  handle := 0
  codec := u8 p 0
  follow := bit (u8 p 1) 0
  bond := bit (u8 p 1) 2
  s444 := bit (u8 p 1) 3
  interlaced := bit (u8 p 1) 4
  source := if bit (u8 p 1) 0 then u16 p 2 else slotKey (u16 p 2) (bit (u8 p 1) 1)
  gen := u8 p 4
  set := u8 p 5
  width := u16 p 6
  height := u16 p 8
  n := if u8 p 10 = 0 ∧ u8 p 0 < 2 then 8 else u8 p 10
  qpMin := if u8 p 11 = 0 then 1 else u8 p 11
  qpStart := if u8 p 12 = 0 then 30 else u8 p 12
  rate := u64 p 16
  f0 := 0
  engines := []
  lost := []
  pic := 0
  frame := 0
  m0 := 0
  row := 0
  period := none
  pc := 0
  books := []
  rows := []
  rates := []
  packets := []
  done := 0
  used := 0
  msgs := []
  matched := []
  counters := [0, 0, 0]
  deleting := none
  jump := none

/-- A rate that Table 12.2 and R348 allow for a channel. -/
def State.encRateOk (s : State) (x : EncChan) : Bool :=
  let n := s.encN x
  let d := s.encD x
  if x.codec < 2 then
    (hevcLevel x.codec x.width x.height n d x.rate).isSome &&
      decide (s.headerBits x + 56 * x.n + x.n * x.rowCount * (192 + 8 * x.cols) + 56 ≤ 8 * (x.rate * x.n * d / (8 * n)))
  else decide (0 < x.rate)

/-- The source that a channel may name (R335). -/
def State.encSourceOk (s : State) (x : EncChan) : Bool :=
  if x.follow then decide (x.source < s.externalSlots) && s.rd (Reg.FAB_SEL_CUR_GEN (4 * x.source)) == x.gen
  else s.sourceNamed x.source &&
    (if x.bond then !isQuarter x.source && ((s.bondNamed x.source).map fun (b : BondRec) => b.rx).getD false
     else match s.bondOf (fullSlot x.source) with
       | some b => !b.rx
       | none => true)

/-- Formats of a codec (Table 12.1): of those that slots and bonds carry (R22). -/
def State.encFormatOk (s : State) (x : EncChan) : Bool :=
  (decide (2 ≤ x.codec) || ([(1920, 1080), (3840, 2160), (7680, 4320)] : List (Nat × Nat)).contains (x.width, x.height)) &&
    (carriage x.width x.height x.interlaced x.s444 (s.encN x) (s.encD x)).isSome

/-- The units of an ENC command: the encoder engines, all of them where the part has none, or the first where none is READY (R9, R332). -/
def State.encUnits (s : State) : List (Nat × Nat) :=
  if capCount s.variant 0x0F = 0 then [(0x0F, 0xFFFF)] else if s.readyCount 0x0F = 0 then [(0x0F, 0)] else []

/-- A handle that names a channel; on a part without engines the handle is not judged, for the command is answered NOT_PRESENT (R3, R332). -/
def State.encHandleOk (s : State) (ok : Bool) : Bool := ok || capCount s.variant 0x0F == 0

/-- The lowest free handle of a channel. -/
def State.freeEnc (s : State) (hevc : Bool) : Option Nat :=
  if hevc then ((List.range 48).map fun c => 0x30000 + c).find? fun h => (s.encChan h).isNone
  else ((List.range 64).map fun c => 0x40000 + c).find? fun h => (s.encChan h).isNone

/-- The trailer of a mirrored ENC command (R358). -/
def encTrailer (h g f : Nat) : List Byte := be16 1 ++ zeros 2 ++ be32 h ++ frameRefBytes g f

/-- The frame that a mirror stamps, else the first one 200 µs ahead. -/
def State.encFrame (s : State) (c : Ctx) (g : Nat) : Nat := ((c.targets.head?).map fun r => r.2).getD (s.target g s.leadEnd)

/-- Bytes of reference frames of an HEVC channel (Table 3.2): two frames over the CTU-padded area. -/
def EncChan.refBytes (x : EncChan) : Nat := if x.codec < 2 then 2 * (x.cols * 64 * (x.rowCount * 64) * (if x.codec = 0 then 20 else 15) / 8) else 0

/-- The level of a channel. -/
def State.encLevel (s : State) (x : EncChan) : Nat :=
  if x.codec < 2 then (s.hevcSettings x).level else (s.xsSettings x).level

/-- ENC_CHANNEL_CREATE. -/
def opEncChannelCreate : OpSpec where
  code := 0x0800
  cls := .c
  keys := false
  length p := p.length == 24
  fields s p :=
    let x := encOfPayload p
    let hevc := decide (x.codec < 2)
    [(0, decide (u8 p 0 < 4)), (1, decide (u8 p 1 < 32) && !(hevc && x.interlaced)), (2, s.encSourceOk x),
     (4, decide (x.gen < 16) && s.genOn x.gen), (5, if hevc then s.setUsable x.set else u8 p 5 == 0), (6, s.encFormatOk x),
     (10, if hevc then decide (2 ≤ x.n ∧ x.n ≤ min 64 x.cols) else u8 p 10 == 0), (11, decide (x.qpMin ≤ 51 ∧ x.qpMin ≤ x.qpStart)),
     (12, decide (x.qpStart ≤ 51)), (13, zeroAt p 13 3), (16, s.encRateOk x)]
  units s p :=
    let x := encOfPayload p
    s.encUnits ++ if s.readyCount 0x0F = 0 then [] else
      [(0x0B, x.gen)] ++ (if x.codec < 2 then s.setUnits x.set else []) ++
        if x.follow then [(0x11, x.source / 9)] else if fullSlot x.source < 1152 then [(0x11, fullSlot x.source / 9)] else []
  locked _ _ := false
  cruise := true
  run s c p :=
    let x := encOfPayload p
    let hevc := decide (x.codec < 2)
    match (if c.mirrored then some c.handle else s.freeEnc hevc) with
    | none => Done.err s stBusy 0xFFFF
    | some h =>
      let f0 := s.encFrame c x.gen
      let n := s.encN x
      let d := s.encD x
      let e : Nat := if hevc then enginesFor x.width x.height n d else 0
      let late := decide (meridianAt n d f0 < s.chrono)
      let per : Nat := if hevc then max 1 x.n else 1
      let skip : Nat := if late then (frameAt n d s.chrono + 1 - f0 + (per - 1)) / per * per else 0
      let y := { x with
        handle := h
        f0 := f0
        pic := skip
        start := skip
        pc := if hevc then skip / per else 0
        frame := f0 + skip
        m0 := meridianAt n d (f0 + skip)
        engines := s.encFree.take e }
      let s1 := { s with enc := { s.enc with chans := s.enc.chans ++ [y] } }
      let s2 := s1.takePorts y.user.1 y.user.2 false (s1.encSource y) y.gen
      let s3 := if hevc then (s2.allocBuffer 4 h y.set y.refBytes).2 else s2
      let s4 := ((s3.encRegs.wr (Reg.ENC_CH_STAT_ENGINES y.block) y.engines.length).wr (Reg.ENC_CH_STAT_DIVERGED y.block) (b01 (late && c.mirrored))).await
        ⟨c.tag, c.session, c.entry, .object 15 h, none⟩
      let m := teamSize e
      { Done.pending s4 (be32 h ++ be8 y.engines.length ++ be8 (if hevc then m else 0) ++ be8 (if hevc then e / max 1 m else 0) ++
          be8 (s.encLevel x) ++ frameRefBytes x.gen f0 ++ be32 (s4.encDelay y) ++ be16 (if hevc then s.headerBits x / 8 else 0) ++ zeros 2) with
        stamp := encTrailer h x.gen f0 }

/-! ### ENC_CHANNEL_DELETE (R364) -/

/-- A flow feeds a decoder while packets of it are accepted (DEDUCED, log entry 43). -/
def State.decoderFed (s : State) (x : XsDecoder) : Bool := s.net.flows.any fun f => !f.tx && f.handle == x.flow && !f.loss && decide (0 < f.c0)

/-- The first frame that a deleted channel does not code. -/
def EncChan.stopFrame (x : EncChan) (now_ : Bool) : Nat :=
  let begun := decide (0 < x.row) || (decide (x.codec < 2) && decide (x.period = some (x.pic / max 1 x.n)))
  if x.codec < 2 ∧ !now_ then (if begun then x.frame + (x.n - x.pic % max 1 x.n) else x.frame)
  else if 0 < x.row then x.frame + 1 else x.frame

/-- The decoder with a handle. -/
def State.decoder (s : State) (h : Nat) : Option XsDecoder := s.enc.decs.find? fun x => 0x50000 + x.d == h

/-- The picture index at a frame not before the picture in progress. -/
def EncChan.picAt (x : EncChan) (f : Nat) : Nat := x.pic + (f - x.frame)

/-- Remove a decoder. -/
def State.endDecoder (s : State) (d : Nat) : State :=
  let s1 := { s with enc := { s.enc with decs := s.enc.decs.filter fun y => y.d != d } }.encRegs.wr (Reg.ENC_CH_STAT_RUN (112 + d)) 0
  s1.endWait (.object 14 (0x50000 + d)) 0

/-- The generator that a decoder's FRAMEREF names: the lowest that runs at the rate of its flow, whose frames are numbered alike; 0 where none
does (DESIGN CHOICE, log entry 137). -/
def State.decoderGen (s : State) (x : Nat) : Nat :=
  match s.flowByHandle x with
  | some f => ((List.range 16).find? fun g => s.genN g * f.rateD == f.rateN * s.genD g).getD 0
  | none => 0

/-- The first frame of a decoder's format whose boundary lies at or after `t`. -/
def State.decoderFrame (s : State) (x t : Nat) : Nat := ((s.flowByHandle x).map fun (f : Flow) => targetFrame f.rateN f.rateD t).getD 0

/-- ENC_CHANNEL_DELETE. -/
def opEncChannelDelete : OpSpec where
  code := 0x0801
  cls := .c
  keys := false
  length p := p.length == 8
  fields s p :=
    [(0, s.encHandleOk (match s.encChan (u32 p 0), s.decoder (u32 p 0) with
      | some x, _ => (s.encFlows x.handle).isEmpty
      | none, some x => !s.decoderFed x
      | none, none => false)),
     (4, decide (u8 p 4 < 2)), (5, zeroAt p 5 3)]
  units s _ := s.encUnits
  locked _ _ := false
  cruise := false
  run s c p :=
    let h := u32 p 0
    let w : Machine.Pending := ⟨c.tag, c.session, c.entry, .object 14 h, none⟩
    match s.encChan h, s.decoder h with
    | some x, _ =>
      let f := ((c.targets.head?).map fun r => r.2).getD (x.stopFrame (bit (u8 p 4) 0))
      if x.deleting.isSome then Done.err s stBusy 0xFFFF
      else { Done.pending (((s.putEnc { x with deleting := some (x.picAt f) }).await w).endChannel h) [] with stamp := encTrailer h x.gen f }
    | none, some x =>
      let now_ := ((s.net.flows.find? fun f => !f.tx && f.handle == x.flow).bind fun (f : Flow) => f.releasing).map fun (r : Nat × Nat) => r.1
      let f := ((c.targets.head?).map fun r => r.2).getD ((now_.map fun (k : Nat) => k + 1).getD (s.decoderFrame x.flow s.chrono))
      let ds := s.enc.decs.map fun y => if y.d = x.d then { y with deleting := some f } else y
      let s1 := { s with enc := { s.enc with decs := ds } }.await w
      { Done.pending (if now_.isSome then s1 else s1.endDecoder x.d) [] with stamp := encTrailer h (s.decoderGen x.flow) f }
    | none, none => Done.err s stBadParam 24

/-! ### ENC_RATE_SET (R365) -/

/-- The frame at which a new rate applies: the first refresh period, or frame, that begins at least 200 µs ahead. -/
def State.rateFrame (s : State) (x : EncChan) : Nat :=
  let t := s.target x.gen s.leadEnd
  if 2 ≤ x.codec then t
  else
    let begun := x.period == some (x.pic / max 1 x.n)
    let q := if begun then x.frame + (x.n - x.pic % max 1 x.n) else x.frame
    q + (t - q + (x.n - 1)) / max 1 x.n * x.n

/-- ENC_RATE_SET. -/
def opEncRateSet : OpSpec where
  code := 0x0802
  cls := .c
  keys := false
  length p := p.length == 16
  fields s p :=
    let set := bit (u8 p 4) 0
    [(0, s.encHandleOk (s.encChan (u32 p 0)).isSome), (4, decide (u8 p 4 < 2)), (5, !set || decide (1 ≤ u8 p 5 ∧ u8 p 5 ≤ 51)), (6, zeroAt p 6 2),
     (8, s.encHandleOk (match s.encChan (u32 p 0) with
      | some x => s.encRateOk { x with rate := u64 p 8 }
      | none => false))]
  units s _ := s.encUnits
  locked _ _ := false
  cruise := true
  run s c p :=
    match s.encChan (u32 p 0) with
    | none => Done.err s stBadParam 24
    | some x =>
      let f := ((c.targets.head?).map fun r => r.2).getD (s.rateFrame x)
      let q : Option Nat := if bit (u8 p 4) 0 then some (u8 p 5) else none
      let id := (s.enc.chans.flatMap fun (y : EncChan) => y.rates.map fun (r : RateChange) => r.id).foldl max 0 + 1
      let s1 := (s.putEnc { x with rates := x.rates ++ [⟨u64 p 8, q, f, id⟩] }).await ⟨c.tag, c.session, c.entry, .object 18 id, none⟩
      { Done.pending s1 (frameRefBytes x.gen f) with stamp := encTrailer x.handle x.gen f }

/-! ### ENC_STATUS (R366) -/

/-- Counters of a block. -/
def encCounters (b : Nat) : List FieldRef :=
  [Reg.ENC_CH_CLAMP_COUNT b, Reg.ENC_CH_MIN_COUNT b, Reg.ENC_CH_LATE_COUNT b, Reg.ENC_CH_DIVERGE_COUNT b, Reg.ENC_CH_WITHHELD_COUNT b,
   Reg.ENC_CH_LOST_COUNT b]

/-- The reply of Table 12.9 for block `b`. -/
def State.encStatus (s : State) (h codec st engines level pics per budget used b delay : Nat) : List Byte :=
  be32 h ++ be8 codec ++ be8 st ++ be8 engines ++ be8 level ++ be64 pics ++ be64 per ++ be32 budget ++ be32 used ++
    be32 (s.rd (Reg.ENC_CH_CLAMP_COUNT b)) ++ be32 (s.rd (Reg.ENC_CH_MIN_COUNT b)) ++ be32 (s.rd (Reg.ENC_CH_LATE_COUNT b)) ++
    be32 (s.rd (Reg.ENC_CH_DIVERGE_COUNT b)) ++ be32 (s.rd (Reg.ENC_CH_WITHHELD_COUNT b)) ++ be32 delay ++ be32 (s.rd (Reg.ENC_CH_LOST_COUNT b)) ++
    zeros 4

/-- ENC_STATUS. -/
def opEncStatus : OpSpec where
  code := 0x0803
  cls := .q
  keys := false
  length p := p.length == 8
  fields s p :=
    [(0, (s.encChan (u32 p 0)).isSome || (s.decoder (u32 p 0)).isSome), (4, decide (u8 p 4 < 2)), (5, zeroAt p 5 3)]
  units _ _ := []
  locked _ _ := false
  cruise := false
  run s _ p :=
    let clear := fun (b : Nat) => if bit (u8 p 4) 0 then (encCounters b).foldl (fun t f => t.wr f 0) s else s
    match s.encChan (u32 p 0), s.decoder (u32 p 0) with
    | some x, _ =>
      let started := s.flag (Reg.ENC_CH_STAT_RUN x.block)
      let st := b01 started + 2 * b01 s.authority + 4 * b01 (s.diverged x) + 8 * b01 (s.flag (Reg.ENC_CH_STAT_DEGRADED x.block)) + 16 * b01 (!started)
      Done.ok (clear x.block) (s.encStatus x.handle x.codec st x.engines.length (s.encLevel x) x.done ((x.shownBook.map fun (b : Book) => b.period).getD 0)
        (s.rd (Reg.ENC_CH_BUDGET_BYTES x.block)) (s.rd (Reg.ENC_CH_USED_BYTES x.block)) x.block (s.encDelay x))
    | none, some x =>
      let f := s.net.flows.find? fun f => !f.tx && f.handle == x.flow
      let codec : Nat := if ((f.map fun (f : Flow) => f.sampling).getD 0) = 0 then 2 else 3
      Done.ok (clear (112 + x.d)) (s.encStatus (0x50000 + x.d) codec (b01 x.next.isSome + 2 * b01 s.authority + 16 * b01 x.next.isNone) 0 0 0 0 0 0
        (112 + x.d) ((f.map fun (f : Flow) => f.timing).getD 0))
    | none, none => Done.err s stBadParam 24

/-! ### ENC_XS_DECODE_CREATE (R354, R367) -/

/-- Does a decoder accept a flow: kind 2, no decoder yet, a carriage of one full or one quarter slot, and P long enough? -/
def State.decodable (s : State) (f : Flow) : Bool :=
  !f.tx && f.kind == 2 && !s.decoderNames f.handle &&
    (match carriage f.width f.height f.interlaced (f.sampling != 0) f.rateN f.rateD with
     | some c => decide (c ≤ 1)
     | none => false) &&
    decide (32 * f.rateD * 10 ^ 9 + 20000 * (f.rateN * vTotal f.height) ≤ f.timing * (f.rateN * vTotal f.height))

/-- ENC_XS_DECODE_CREATE. -/
def opEncXsDecodeCreate : OpSpec where
  code := 0x0804
  cls := .c
  keys := false
  length p := p.length == 8
  fields s p :=
    [(0, ((s.flowByHandle (u32 p 0)).map s.decodable).getD false),
     (4, u8 p 4 == 0xFF || (decide (u8 p 4 < 64) && !(s.enc.decs.any fun x => x.d == u8 p 4))), (5, zeroAt p 5 3)]
  units s p := s.encUnits ++ if s.readyCount 0x0F = 0 ∨ u8 p 4 = 0xFF then [] else [(0x19, u8 p 4)]
  locked _ _ := false
  cruise := true
  run s c p :=
    let free := (List.range 64).find? fun d => !(s.enc.decs.any fun x => x.d == d) && s.isReady 0x19 d
    match (if c.mirrored then some (c.handle % 65536) else if u8 p 4 = 0xFF then free else some (u8 p 4) : Option Nat) with
    | none => Done.err s stBusy 0xFFFF
    | some d =>
      let f0 := ((c.targets.head?).map fun r => r.2).getD (s.decoderFrame (u32 p 0) s.leadEnd)
      let x : XsDecoder := ⟨d, u32 p 0, none, if s.twinOn then f0 else 0, none, none⟩
      let s1 := { s with enc := { s.enc with decs := s.enc.decs ++ [x] } }.encRegs
      let k := match s1.flowByHandle (u32 p 0) with
        | some f => (s1.asWriter f).slotKey
        | none => 1168 + d
      { (Done.ok (s1.beginMeasure k) (be32 (0x50000 + d) ++ be8 d ++ zeros 1 ++ be16 (slotNo k))) with stamp := encTrailer (0x50000 + d) (s.decoderGen (u32 p 0)) f0 }

/-! ### Rows of HEVC channels -/

/-- Is a channel's block powered? -/
def State.encRuns (s : State) : Bool := decide (0 < s.readyCount 0x0F)

/-- The lost engines of a channel that are replaced, each with the free one that takes its place: as many as Cruise admits, for each takes an
engine from the pool whose capacity XS_LOAD counts (R77, R360). -/
def State.engineSwaps (s : State) (x : EncChan) : List (Nat × Nat) :=
  let free := s.encFree
  x.lost.zip (free.take (free.length - up s.xsDemand 663552000))

/-- The rates of a channel that apply at frame `f`, those that wait on, and the channel under them: its rate and QP_min, and `p` as the period
from which the rate applies (R344, R365). -/
def EncChan.ratesDue (x : EncChan) (f : Nat) : List RateChange := x.rates.filter fun r => decide (r.frame ≤ f)
def EncChan.newRates (x : EncChan) (f p : Nat) : EncChan :=
  { ((x.ratesDue f).foldl (fun (y : EncChan) r => { y with rate := r.rate, qpMin := r.qpMin.getD y.qpMin, pc := p }) x) with
    rates := x.rates.filter fun r => decide (f < r.frame) }

/-- The commands whose rates apply at frame `f` are complete (R54, R365). -/
def State.ratesDone (s : State) (x : EncChan) (f : Nat) : State := (x.ratesDue f).foldl (fun t r => t.endWait (.object 18 r.id) 0) s

/-- ENC_REFRESH_PERIOD_START (R344, R360, R365): at the Meridian of picture 0 of a period the budget is set, a new rate
applies, and lost engines are replaced by free ones. -/
def State.startPeriod (s : State) (x : EncChan) : State :=
  let p := x.pic / max 1 x.n
  let swap := s.engineSwaps x
  let es := x.engines.map fun e => ((swap.find? fun w => w.1 == e).map fun (w : Nat × Nat) => w.2).getD e
  let left := x.lost.drop swap.length
  let y := x.newRates x.frame p
  let z := { y with period := some p, books := (⟨p, s.budget y p, [], none⟩ :: x.books).take 2, engines := es, lost := left }
  let s1 := (((s.putEnc z).showBook x.handle).wr (Reg.ENC_CH_STAT_RUN x.block) 1).ratesDone x x.frame
  let s2 := swap.foldl (fun t w => t.endCause 0x2903 (srcEncEngine w.1) w.1) s1
  (if left.isEmpty then s2.wr (Reg.ENC_CH_STAT_DEGRADED x.block) 0 else s2).encRegs

/-- The next row of a channel is due: its allocation and QP are fixed (R345, R346). A team that has lost an engine codes it in minimum mode from
its start (R360). -/
def State.startRow (s : State) (x : EncChan) : State :=
  let p := x.pic / max 1 x.n
  let j := x.pic % max 1 x.n * x.rowCount + x.row
  let a := s.allocate x p j
  let r : EncRow := ⟨x.frame, x.pic, x.m0, x.row, s.rowQp x x.row, a.1, a.2, none, [], 0, 0, false, false, ⟨[], [], []⟩, x.teamLost x.row, [], [], false⟩
  let over_ := decide (x.rowCount ≤ x.row + 1)
  let y := { x.modBook p fun b => { b with rows := b.rows ++ [⟨j, x.frame, x.row, a.2, none⟩] } with
    rows := (x.rows.filter fun z => decide (x.pic ≤ z.pic + 2)) ++ [r]
    row := if over_ then 0 else x.row + 1
    pic := if over_ then x.pic + 1 else x.pic
    frame := if over_ then x.jump.getD (x.frame + 1) else x.frame
    m0 := if over_ then meridianAt (s.encN x) (s.encD x) (x.jump.getD (x.frame + 1)) else x.m0
    jump := if over_ then none else x.jump }
  s.putEnc y

/-- The row of a channel that is coded next: rows are coded in order, each needing the one above it and the picture before (R339). -/
def EncChan.rowNext (x : EncChan) : Option EncRow := x.rows.find? fun r => r.bits.isNone

/-- A team has coded a row, or the lead has coded what was left of it at the cutoff, `coded` CTUs having been coded in time (R336, R347, R359,
R360). -/
def State.codeRow (s : State) (x : EncChan) (r : EncRow) (late : Option Nat) : State :=
  let r0 := { r with samples := x.rowSamples r.pic r.frame r.row }
  let g := s.guardRow x r0 (if r.least then 0 else late.getD x.cols)
  let b := fit (g.h / 8 - 4) (sliceNalHeader r.pic ++ Config.hevcSlice (s.hevcSettings x) r.pic r.row r.qp g.coder)
  let j := r.pic % max 1 x.n * x.rowCount + r.row
  let flags := b01 g.clamp + 2 * b01 (decide (0 < g.mins)) + 4 * b01 late.isSome + 8 * b01 (decide (r.row = 0 ∧ r.pic % max 1 x.n = 0))
  let r1 := { r0 with bits := some g.h, bytes := b, flags := flags, hash := rowHash b r.frame r.row, blocks := g.blocks, sync := g.sync }
  let y := x.modBook (r.pic / max 1 x.n) fun k => { k with rows := k.rows.map fun e => if e.j = j then { e with bits := some g.h } else e }
  let s1 := (s.putEnc y).rowDone y r1 (r.m0 + s.rowTime x (r.row + 5) + 40000)
  let s2 := ((s1.bump (Reg.ENC_CH_CLAMP_COUNT x.block) (b01 g.clamp)).bump (Reg.ENC_CH_MIN_COUNT x.block) g.mins).bump (Reg.ENC_CH_LATE_COUNT x.block) (b01 late.isSome)
  let s3 := if g.clamp then s2.encEvent x.handle 0x2901 r.frame else s2
  let s4 := if late.isSome then s3.encEvent x.handle 0x2902 r.frame else s3
  let s5 := (s4.wr (Reg.ENC_CH_STAT_QP x.block) r.qp).buildRows x.handle (3 * x.rowCount)
  ((s5.showBook x.handle).picturesGone x.handle).endChannel x.handle

/-! ### Commands of the block -/

/-- ENC_CHANNEL_CREATE. -/
def execEncChannelCreate (dt : Nat) (rq : Req) (s : State) : Host.Outcome State Fault Refusal := .next (serve opEncChannelCreate dt rq s)

/-- ENC_CHANNEL_DELETE. -/
def execEncChannelDelete (dt : Nat) (rq : Req) (s : State) : Host.Outcome State Fault Refusal := .next (serve opEncChannelDelete dt rq s)

/-- ENC_RATE_SET. -/
def execEncRateSet (dt : Nat) (rq : Req) (s : State) : Host.Outcome State Fault Refusal := .next (serve opEncRateSet dt rq s)

/-- ENC_STATUS. -/
def execEncStatus (dt : Nat) (rq : Req) (s : State) : Host.Outcome State Fault Refusal := .next (serve opEncStatus dt rq s)

/-- ENC_XS_DECODE_CREATE. -/
def execEncXsDecodeCreate (dt : Nat) (rq : Req) (s : State) : Host.Outcome State Fault Refusal := .next (serve opEncXsDecodeCreate dt rq s)

/-- ENC_REFRESH_PERIOD_START (R360). -/
def execEncRefreshPeriodStart (dt h : Nat) (s : State) : Host.Outcome State Fault Refusal :=
  let s1 := s.elapse dt
  .next (match s1.encChan h with
    | some x =>
      if s1.encRuns ∧ x.codec < 2 ∧ !x.atStop ∧ x.row = 0 ∧ x.pic % max 1 x.n = 0 ∧ x.period ≠ some (x.pic / max 1 x.n) ∧ x.m0 ≤ s1.chrono ∧ s1.genOn x.gen then
        s1.startPeriod x
      else s1
    | none => s1)

/-- ENC_ROW_DUE (R342, R345, R346): A(r) of the next row of channel `h` has come. -/
def execEncRowDue (dt h : Nat) (s : State) : Host.Outcome State Fault Refusal :=
  let s1 := s.elapse dt
  .next (match s1.encChan h with
    | some x =>
      if s1.encRuns ∧ x.codec < 2 ∧ !x.atStop ∧ x.period = some (x.pic / max 1 x.n) ∧ x.m0 + s1.rowTime x (x.row + 1) ≤ s1.chrono ∧ s1.genOn x.gen then
        s1.startRow x
      else s1
    | none => s1)

/-- ENC_ROW_CODED (R336, R347): row `r` of channel `h`, the next in order, is coded whole. -/
def execEncRowCoded (dt h r : Nat) (s : State) : Host.Outcome State Fault Refusal :=
  let s1 := s.elapse dt
  .next (match s1.encChan h with
    | some x =>
      match x.rowNext with
      | some y => if y.row = r ∧ s1.encRuns ∧ x.codec < 2 then s1.codeRow x y none else s1
      | none => s1
    | none => s1)

/-- ENC_DEADLINE (R359): the cutoff of row `r` of channel `h`, the next in order, with `coded` of its CTUs coded. -/
def execEncDeadline (dt h r coded : Nat) (s : State) : Host.Outcome State Fault Refusal :=
  let s1 := s.elapse dt
  .next (match s1.encChan h with
    | some x =>
      match x.rowNext with
      | some y => if y.row = r ∧ s1.encRuns ∧ x.codec < 2 ∧ y.m0 + s1.rowTime x (r + 5) + 8000 ≤ s1.chrono then s1.codeRow x y (some coded) else s1
      | none => s1
    | none => s1)

/-- The packet that launches next: of the earliest launch time. -/
def EncChan.nextPacket (x : EncChan) : Option EncPacket :=
  x.packets.foldl (fun (b : Option EncPacket) k => match b with
    | some y => if k.launch < y.launch then some k else some y
    | none => some k) none

/-- A built packet comes to its launch time: it goes to its flow, or is withheld by a follower (R343, R356). -/
def State.launchPacket (s : State) (x : EncChan) (k : EncPacket) : State :=
  let y := { x with packets := x.packets.erase k }
  let held := s.follower && (s.diverged x || x.rows.any fun r => r.frame == k.frame && r.row == k.row && r.withheld)
  let s1 := s.putEnc y
  match s1.flow true k.flow with
  | none => s1
  | some f =>
    if f.encoder ≠ x.handle then s1
    else if held then
      let s2 := (s1.schedule f).modSend k.flow fun g => { g with c4 := g.c4 + 1 }
      let last := !(y.packets.any fun z => z.frame == k.frame && z.row == k.row)
      let s3 := if last then s2.bump (Reg.ENC_CH_WITHHELD_COUNT x.block) 1 else s2
      if f.srtp then s3.flowEvent f 0x260C 0 else s3.encEvent x.handle 0x2904 k.frame
    else if k.launch + 40000 ≤ s.chrono then ((s1.schedule f).modSend k.flow fun g => { g with c1 := g.c1 + 1 }).flowEvent f 0x2609 0
    else s1.sendPacket f k.marker f.seq k.ts k.launch k.payload

/-- The last row or slice of a frame of a channel. -/
def EncChan.lastRow (x : EncChan) : Nat := (if x.codec < 2 then x.rowCount else x.slices * (1 + b01 x.interlaced)) - 1

/-- A packet of a channel has come to its launch: its flow is inside the frame until the frame's last packet, at which a deletion that
waits is carried out (R277). -/
def State.packetGone (s : State) (x : EncChan) (k : EncPacket) : State :=
  let last := k.row == x.lastRow && !((x.packets.erase k).any fun z => z.flow == k.flow && z.frame == k.frame && z.row == k.row)
  match s.flow true k.flow with
  | none => s
  | some f =>
    if f.encoder ≠ x.handle then s
    else
      let g := { f with next := if last then none else some (k.frame, 1) }
      if last then (s.putFlow g).flowEnded g else s.putFlow g

/-- ENC_PACKET_LAUNCH (R343): the next packet of channel `h` launches. -/
def execEncPacketLaunch (dt h : Nat) (s : State) : Host.Outcome State Fault Refusal :=
  let s1 := s.elapse dt
  .next (match s1.encChan h with
    | some x =>
      match x.nextPacket with
      | some k => if k.launch ≤ s1.chrono then (((s1.launchPacket x k).packetGone x k).picturesGone h).endChannel h else s1
      | none => s1
    | none => s1)

/-! ### JPEG XS -/

/-- Line periods of a JPEG XS channel's frame until the last line of its next slice has left the input port. -/
def EncChan.sliceEnd (x : EncChan) : Nat :=
  let n := max 1 x.slices
  min (16 * (x.row % n + 1)) (if x.interlaced then x.height / 2 else x.height) + 563 * (x.row / n)

/-- `k` line periods of a channel's format. -/
def State.lineTime (s : State) (x : EncChan) (k : Nat) : Nat := k * s.encD x * 10 ^ 9 / max 1 (s.encN x * vTotal x.height)

/-- XS_SLICE_EMIT (R352, R353): the next slice of a channel is emitted, the codestream's headers with slice 0, and padded to its share. One that
comes after its last byte should have left has missed its time: it is a slice of zero coefficients (R360). -/
def State.emitSlice (s : State) (x0 : EncChan) : State :=
  let x := if x0.row = 0 then x0.newRates x0.frame x0.pc else x0
  let set := s.xsSettings x
  let n := max 1 x.slices
  let field := x.row / n
  let i := x.row % n
  let total := s.xsBytes x x.frame field
  let header := Config.xsHeader set total
  let fin := x.m0 + s.lineTime x (x.sliceEnd + 32) + 20000
  let share := sliceShare total header.length n i
  let samples := (List.range (i + 1)).map fun k => x.sliceSamples x.frame field k
  let b := (if i = 0 then header else []) ++ fit share (Config.xsSlice set (if fin < s.chrono then [] else samples) i share)
  let r : EncRow := ⟨x.frame, x.pic, x.m0, x.row, 0, 0, 0, some (8 * b.length), b, 0, rowHash b x.frame x.row, false, true, x.sliceSamples x.frame field i, false, [], [], false⟩
  let end_ := decide (i + 1 = n)
  let l0 := x.m0 + s.lineTime x (x.sliceEnd + 16) + 20000
  let ps := (s.encFlows x.handle).flatMap fun f =>
    let qs := xsPackets (max 1 f.lmax) field i x.frame x.interlaced end_ b
    s.spreadPackets f l0 fin x.frame x.row (f.tsOf (s.encN x) (s.encD x) x.frame (field * (f.packets (s.encN x) (s.encD x) / 2)))
      (fun k => end_ && k + 1 == qs.length) qs
  let last := end_ && (!x.interlaced || field == 1)
  let y := { x with
    rows := (x.rows.filter fun z => decide (x.pic ≤ z.pic + 1)) ++ [r]
    packets := x.packets ++ ps
    used := if i = 0 then b.length else x.used + b.length
    row := if last then 0 else x.row + 1
    pic := if last then x.pic + 1 else x.pic
    frame := if last then x.jump.getD (x.frame + 1) else x.frame
    m0 := if last then meridianAt (s.encN x) (s.encD x) (x.jump.getD (x.frame + 1)) else x.m0
    jump := if last then none else x.jump }
  let s1 := (s.putEnc y).rowDone y r l0
  let s2 := ((s1.wr (Reg.ENC_CH_BUDGET_BYTES x.block) total).wr (Reg.ENC_CH_USED_BYTES x.block) y.used).wr (Reg.ENC_CH_STAT_RUN x.block) 1
  let s3 := if x0.row = 0 then s2.ratesDone x0 x0.frame else s2
  (s3.picturesGone x.handle).endChannel x.handle

/-- XS_SLICE_EMIT. -/
def execXsSliceEmit (dt h : Nat) (s : State) : Host.Outcome State Fault Refusal :=
  let s1 := s.elapse dt
  .next (match s1.encChan h with
    | some x =>
      if s1.encRuns ∧ 2 ≤ x.codec ∧ !x.atStop ∧ s1.genOn x.gen ∧ x.m0 + s1.lineTime x x.sliceEnd ≤ s1.chrono then s1.emitSlice x else s1
    | none => s1)

/-- The frame and slice of a decoder that comes to its deadline next. -/
def XsDecoder.place (x : XsDecoder) (f : Flow) : Option (Nat × Nat) :=
  match x.next with
  | some p => some p
  | none => ((f.frames.find? fun y => decide (x.since ≤ y.1))).map fun (y : Nat × Option Nat) => (y.1, 0)

/-- A slice of decoder `x` is at its deadline: where it lacks data it counts LOST, once an event for its frame; and the next slice is looked
to. The frame's last slice ends the frame, and the decoder where it is deleted (R354, R362, R364, R368). -/
def State.sliceJudged (s : State) (x : XsDecoder) (f : Flow) (fr i : Nat) : State :=
  let b := 112 + x.d
  let lacks := !(f.sliceWhole fr i)
  let nx : Nat × Nat := if i + 1 < f.sliceCount then (fr, i + 1) else (fr + 1, 0)
  let y := { x with next := some nx, lostFrame := if lacks then some fr else x.lostFrame }
  let s1 := { s with enc := { s.enc with decs := s.enc.decs.map fun (z : XsDecoder) => if z.d = x.d then y else z } }.wr (Reg.ENC_CH_STAT_RUN b) 1
  let s2 := if lacks then s1.bump (Reg.ENC_CH_LOST_COUNT b) 1 else s1
  let s3 := if lacks ∧ x.lostFrame ≠ some fr then s2.raiseWithin 0 0x2906 (srcDecoder x.d) x.d else s2
  let s4 := if nx.2 = 0 then s3.wr64 (Reg.ENC_CH_FC_LO_F b) (Reg.ENC_CH_FC_HI_F b) fr else s3
  if nx.2 = 0 ∧ x.deleting.any (fun k => decide (k ≤ nx.1)) then s4.endDecoder x.d else s4

/-- XS_SLICE_LOST (R354): the next slice of decoder `d` reaches its deadline, 16 line periods and 20 µs before its release. What is missing then
is decoded as zero coefficients when its lines are released. -/
def execXsSliceLost (dt d : Nat) (s : State) : Host.Outcome State Fault Refusal :=
  let s1 := s.elapse dt
  .next (match s1.decoder (0x50000 + d) with
    | none => s1
    | some x =>
      match s1.net.flows.find? fun f => !f.tx && f.handle == x.flow with
      | none => s1
      | some f =>
        match x.place f with
        | none => s1
        | some (fr, i) => if s1.chrono + f.sliceTime < f.sliceRelease fr i then s1 else s1.sliceJudged x f fr i)

/-! ### Twins (R355-R357) -/

/-- A twin message as it arrives: its body, where type, tag and Sequence are good (R422). Otherwise it is counted. -/
def State.twinTake (s : State) (type : Nat) (b : List Byte) : State × Option (List Byte) :=
  let n := u16 b 2
  let tag := Config.cmac s.twn.pairKey (b.take (8 + n))
  if !s.twinOn then (s, none)
  else if !s.pairKeyOk ∨ b.length ≠ n + 24 ∨ b.drop (8 + n) ≠ beBytes 16 tag.toNat ∨ u32 b 4 ≤ s.twn.seqAccepted then
    ((s.bump Reg.TWN_AUTH_FAIL_COUNT 1).raise 0x2C0D srcTwin 0, none)
  else
    let s1 := { s with twn := { s.twn with seqAccepted := u32 b 4 } }
    if u8 b 0 = type then (s1, some (bytesAt b 8 n)) else (s1, none)

/-- The row messages of a ROWS body. -/
def rowMessages (now : Nat) : Nat → List Byte → List RowMsg
  | 0, _ => []
  | n + 1, b =>
    if b.length < 32 then []
    else ⟨u32 b 0, u64 b 4, u16 b 12, u8 b 14, u8 b 15, u32 b 16, u32 b 20, u64 b 24, now⟩ :: rowMessages now n (b.drop 32)

/-- One row message: kept, and compared with the own row if that is coded. -/
def State.takeRow (s : State) (m : RowMsg) : State :=
  match s.encChan m.handle with
  | none => s
  | some x =>
    let y := { x with msgs := (m :: x.msgs).take 512 }
    let s1 := s.putEnc y
    match y.rows.find? fun r => r.frame == m.frame && r.row == m.row && r.bits.isSome with
    | some r => if s.follower then s1.compareRow y r m (r.m0 + s.rowTime x (r.row + 5) + 40000) else s1
    | none => s1

/-- ROWS_RECEIVE (R356): row hashes of the sequence authority. -/
def execRowsReceive (dt : Nat) (bytes : List Byte) (s : State) : Host.Outcome State Fault Refusal :=
  let r := (s.elapse dt).twinTake 2 bytes
  .next (match r.2 with
    | none => r.1
    | some b => (rowMessages r.1.chrono 64 b).foldl (fun t m => t.takeRow m) r.1)

end Sys2Proof.Machine
end

