-- ==== Sys2Proof/Machine/VltCmds.lean ====
section
/-!
DEFINITION. The Vault's commands (R478-R481; VLT_LIFECYCLE stands with the images it judges by, in BootCmds) and its events:
power-up, scrub, random bit generator, sweep (R458-R467).
-/
namespace Sys2Proof.Machine

/-- The Vault as the unit that its commands address (R9). -/
def vaultUnit : List (Nat × Nat) := [(5, 0)]

/-- One entry of VLT_SLOT_STATUS (Table 16.8). -/
def State.slotEntry (s : State) (i : Nat) : List Byte :=
  let x := s.slot i
  let label := if bit x.attrs 5 then x.legacyId else x.labelHash.toNat / 2 ^ 192
  be16 i ++ be8 x.state ++ be8 (if x.state = 0 then 0 else x.level) ++ be16 x.attrs ++ be16 x.cons ++ be16 x.parent ++ be16 0 ++
    be32 x.gen ++ be64 label

/-- VLT_SLOT_STATUS (R478). -/
def opVltSlotStatus : OpSpec where
  code := 0x0C00
  cls := .q
  keys := false
  length p := p.length == 4
  fields _ p := [(0, decide (u16 p 0 < 544)), (2, decide (1 ≤ u16 p 2 ∧ u16 p 2 ≤ 255))]
  units _ _ := vaultUnit
  locked _ _ := false
  cruise := false
  run s _ p :=
    let n := min (u16 p 2) (544 - u16 p 0)
    Done.ok s (be32 n ++ (List.range n).flatMap fun i => s.slotEntry (u16 p 0 + i))

/-- The reply of VLT_DERIVE and VLT_IMPORT (R479). -/
def State.slotReply (s : State) (i : Nat) : List Byte :=
  let x := s.slot i
  be16 i ++ be8 x.level ++ be8 0 ++ be32 x.gen ++ beBytes 32 x.labelHash.toNat

/-- The status of a slot as the parent of a derivation: OK, KEY_REVOKED or BAD_PARAM (R461, R469). -/
def State.parentStatus (s : State) (i : Nat) : Nat :=
  let x := s.slot i
  if 544 ≤ i then stBadParam
  else if x.state = 0 then (if x.cascaded then stKeyRevoked else stBadParam)
  else if x.state ≠ 1 ∨ !x.tagOk ∨ !s.ancestorsOk 9 x.parent x.parentGen then stKeyRevoked
  else if bit x.attrs 0 then stOk else stBadParam

/-- The slot that a target field selects; none when it asks for an EMPTY slot and there is none. -/
def State.targetSlot (s : State) (t : Nat) : Option Nat := if t = 0xFFFF then s.freeSlot else some t

/-- Are the bits of `a` among those of `b`? -/
def subsetBits (a b : Nat) : Bool := a &&& b == a

/-- VLT_DERIVE (R465, R479). With parent 0xFFFE the parent is the life-cycle root. -/
def opVltDerive : OpSpec where
  code := 0x0C01
  cls := .c
  keys := true
  length p := p.length == 76
  fields s p :=
    let par := u16 p 0
    let x := s.slot par
    let root := par == 0xFFFE
    let valid := !root && s.parentStatus par == stOk
    let n := u8 p 8
    [(0, root || s.parentStatus par != stBadParam && (!valid || decide (x.level < 8))),
     (2, u16 p 2 == 0xFFFF || (decide (u16 p 2 < 512) && (s.slot (u16 p 2)).state == 0)),
     (4, decide (u16 p 4 < 32) && (!valid || subsetBits (u16 p 4) x.attrs)),
     (6, decide (u16 p 6 < 64) && (!valid || subsetBits (u16 p 6) x.cons) && (!root || subsetBits (u16 p 6) 38)),
     (8, decide (1 ≤ n ∧ n ≤ 64)), (9, zeroAt p 9 3), (12, zeroAt p (12 + n) (64 - n))]
  units _ _ := vaultUnit
  locked _ _ := false
  cruise := false
  run s _ p :=
    let par := u16 p 0
    let root := par == 0xFFFE
    if !root && s.parentStatus par != stOk then Done.err s stKeyRevoked 24
    else
      match s.targetSlot (u16 p 2) with
      | none => Done.err s stBusy 26
      | some t =>
        let x := s.slot par
        let label := bytesAt p 12 (u8 p 8)
        let key := kdf256 (if root then s.vlt.root else x.key) label (be16 (u16 p 6) ++ be16 (u16 p 4))
        let y : Slot := ⟨key, u16 p 4, u16 p 6, par, if root then 1 else x.level + 1, 1, 0, if root then 0 else x.gen,
          Config.sha256 label, 0, true, false⟩
        let s1 := ((s.fillSlot t y).countSlots).refilled t
        Done.ok s1 (s1.slotReply t)

/-- Objects that use one of the slots and are not stopped: SAs, flows, sessions, twin keys (R480). -/
def State.keyUsers (s : State) (is : List Nat) : Nat :=
  let sas := (s.net.ports.map fun x => (x.assocs.filter fun a => is.contains a.slot && s.saUsable a).length).sum
  let flows := (s.net.flows.filter fun f => f.srtp && is.contains f.vslot && !f.revoked && s.boundOk f.vslot f.vgen .srtp).length
  let sess := (s.cyx.sessions.filter fun x => x.id != 0 && is.contains x.slot && !x.revoked).length
  let pair := b01 (s.twinOn && is.contains s.twn.pairSlot && s.pairKeyOk)
  let look := b01 (s.twinOn && is.contains s.twn.lookSlot && s.lookKeyOk)
  sas + flows + sess + pair + look

/-- Burn the revoke fuse of an OTP slot (R463). -/
def State.revokeOtp (s : State) (i : Nat) : State :=
  { s with vlt := { s.vlt with otp := s.vlt.otp.map fun r => if r.slot == i then { r with revoked := true } else r } }

/-- VLT_INVALIDATE (R467, R469, R480). -/
def opVltInvalidate : OpSpec where
  code := 0x0C02
  cls := .c
  keys := true
  length p := p.length == 4
  fields _ p := [(0, decide (u16 p 0 < 544)), (2, decide (u8 p 2 < 2) && (u8 p 2 == 0 || decide (512 ≤ u16 p 0))), (3, u8 p 3 == 0)]
  units _ _ := vaultUnit
  locked _ _ := false
  cruise := false
  run s _ p :=
    let i := u16 p 0
    let s0 := if bit (u8 p 2) 0 then s.revokeOtp i else s
    if (s.slot i).state = 0 then Done.ok s0 (be32 0 ++ be32 0)
    else
      let is := i :: s.descendants i
      Done.ok (s0.invalidate i) (be32 is.length ++ be32 (s.keyUsers is))

/-- Consumer bits that the usage of a PX6100 blob maps to (Table 16.6). -/
def legacyUsage (u : Nat) : Nat := 2 * b01 (bit u 0) + 4 * b01 (bit u 1)

/-- The status of a wrap slot: VALID with WRAP and DIRECT (R469, R470). -/
def State.wrapStatus (s : State) (i : Nat) : Nat :=
  let st := s.slotStatus i .wrap
  if st = stOk ∧ !bit (s.slot i).attrs 1 then stBadParam else st

/-- The key that an import brings: plaintext, or unwrapped. -/
def State.importKey (s : State) (p : List Byte) : Option Key :=
  if u8 p 0 = 0 then some (BitVec.ofNat 256 (beNat (bytesAt p 12 32)))
  else Config.unwrap (s.slot (u16 p 4)).key (if u8 p 0 = 1 then bytesAt p 12 40 else bytesAt p 28 40)

/-- LEGACY slots in use (R464). -/
def State.legacyCount (s : State) : Nat := s.rd Reg.VLT_USED_LEGACY

/-- VLT_IMPORT (R463, R464, R470, R481). -/
def opVltImport : OpSpec where
  code := 0x0C03
  cls := .c
  keys := true
  length p := p.length == 76
  fields s p :=
    let m := u8 p 0
    let otp := bit (u8 p 1) 0
    let t := u16 p 2
    let used := match m with
      | 0 => 32
      | 1 => 40
      | _ => 64
    [(0, decide (m ≤ 2)), (1, decide (u8 p 1 < 2) && (!otp || m != 2)),
     (2, if otp then decide (512 ≤ t ∧ t < 544) && (s.slot t).state == 0 && !(s.vlt.otp.any fun r => r.slot == t)
       else t == 0xFFFF || (decide (t < 512) && (s.slot t).state == 0)),
     (4, if m = 0 then u16 p 4 == 0xFFFF else s.wrapStatus (u16 p 4) != stBadParam),
     (6, decide (u16 p 6 < 32)), (8, decide (u16 p 8 < 64)), (10, zeroAt p 10 2)] ++
    (if m = 2 then
      [(12, u16 p 12 == 0x5836), (14, u8 p 14 == 2), (15, u8 p 15 == 0), (16, legacyUsage (u32 p 16) != 0), (68, zeroAt p 68 8)]
     else []) ++ [(12, zeroAt p (12 + used) (64 - used))]
  units _ _ := vaultUnit
  locked s p :=
    (u8 p 0 == 0 && (!(s.lifeCycle == 1 || s.lifeCycle == 2) || s.flag Reg.VLT_CTL_PLAIN_DIS)) ||
      (bit (u8 p 1) 0 && !decide (1 ≤ s.lifeCycle ∧ s.lifeCycle ≤ 3))
  cruise := false
  run s _ p :=
    let m := u8 p 0
    if m ≠ 0 ∧ s.wrapStatus (u16 p 4) ≠ stOk then Done.err s stKeyRevoked 28
    else
      match s.targetSlot (u16 p 2) with
      | none => Done.err s stBusy 26
      | some t =>
        if m = 2 ∧ 64 ≤ s.legacyCount then Done.err s stBusy 26
        else
          match s.importKey p with
          | none => Done.err (s.bump Reg.VLT_UNWRAP_ERR_COUNT 1) stBadParam 36
          | some k =>
            let otp := bit (u8 p 1) 0
            let attrs := if m = 2 then 34 else u16 p 6 + 64 * b01 otp
            let cons := if m = 2 then legacyUsage (u32 p 16) &&& u16 p 8 else u16 p 8
            let y : Slot := ⟨k, attrs, cons, 0xFFFF, 1, 1, 0, 0, 0, if m = 2 then u64 p 20 else 0, true, false⟩
            let s1 := if otp then { s with vlt := { s.vlt with otp := s.vlt.otp ++ [⟨t, k, attrs, cons, false⟩] } } else s
            let s2 := ((s1.fillSlot t y).countSlots).refilled t
            Done.ok s2 (s2.slotReply t)

/-! ### Events of the Vault -/

/-- The root of a life-cycle state (Table 16.1, R457). -/
def lifeRoot (lcs : Nat) : Key :=
  if lcs = 1 then Config.testRoot
  else if lcs = 2 then Config.developmentRoot
  else if lcs = 3 then kdf256 Config.pufKey (ascii "ROOT") (beBytes 32 Config.fuseSeed.toNat)
  else kdf256 Config.fuseSeed (ascii "RETN") []

/-- The boot nonce: 32 random bytes (Table 16.4). -/
def State.bootNonce (s : State) : List Byte × State :=
  let a := s.draw
  let b := a.2.draw
  (beBytes 16 a.1.toNat ++ beBytes 16 b.1.toNat, b.2)

/-- Form the root and the per-boot keys (R457, R458, Table 16.4). -/
def State.formKeys (s : State) : State :=
  let n := s.bootNonce
  let root := lifeRoot s.lifeCycle
  let d := kdf512 root (ascii "DRAM" ++ n.1) []
  let t := kdf256 Config.fuseSeed (ascii "STAG" ++ n.1) []
  { n.2 with vlt := { n.2.vlt with root := root, dramKey := d.1, dramTweak := d.2, tagKey := t } }

/-- Load one OTP-backed slot; a record that fails to decrypt is skipped (R463). -/
def State.loadOtp (bad : List Nat) (s : State) (r : OtpRecord) : State :=
  if r.revoked then s
  else if bad.contains r.slot then s.raise 0x2D06 srcVault r.slot
  else s.fillSlot r.slot ⟨r.key, r.attrs, r.cons, 0xFFFF, 1, 1, 0, 0, 0, 0, true, false⟩

/-- The Vault after a start that passed: keys, OTP slots, READY. -/
def State.vaultStart (s : State) (bad : List Nat) : State :=
  let s1 := s.formKeys
  let s2 := if s.lifeCycle = 4 then s1 else s1.vlt.otp.foldl (State.loadOtp bad) s1
  (((s2.countSlots).wr Reg.VLT_STAT_READY 1).wr Reg.VLT_STAT_TRNG_OK 1).setReady 5 0

/-- VAULT_POWER_UP (R458): PD57 is on and its start runs; in BLANK and RETIRED it takes no step. `tests` and `puf` say whether
the known-answer tests and the PUF reconstruction succeed, `bad` which OTP records fail to decrypt. -/
def execVaultPowerUp (dt : Nat) (tests puf : Bool) (bad : List Nat) (s : State) : Host.Outcome State Fault Refusal :=
  let s1 := s.elapse dt
  .next (
    if !s1.domOn 57 ∨ s1.vaultReady ∨ s1.causePresent 0x2D07 srcVault 0 ∨ s1.causePresent 0x2D04 srcVault 0 ∨ s1.lifeCycle = 0 ∨
      s1.lifeCycle = 5 then s1
    else if !tests then s1.raise 0x2D07 srcVault 0
    else if s1.lifeCycle = 3 then
      (if puf then (s1.wr Reg.VLT_STAT_PUF_OK 1).vaultStart bad else s1.raise 0x2D04 srcVault 0)
    else s1.vaultStart bad)

/-- VAULT_SCRUB (R460, R462): every slot's tag is checked; `hits` are the slots whose record was altered since the last. -/
def execVaultScrub (dt : Nat) (hits : List Nat) (s : State) : Host.Outcome State Fault Refusal :=
  let s1 := s.elapse dt
  .next (if s1.vaultReady then hits.foldl (fun t i => t.badSlot i) (s1.bump Reg.VLT_SCRUB_COUNT 1) else s1)

/-- VLT_TRNG_FAIL (R459): a continuous health test fails. -/
def execVltTrngFail (dt : Nat) (s : State) : Host.Outcome State Fault Refusal :=
  let s1 := s.elapse dt
  .next (if s1.vaultReady ∧ s1.trngOk then (s1.wr Reg.VLT_STAT_TRNG_OK 0).raise 0x2D03 srcVault 0 else s1)

/-- TRNG_RETRY (R459): the start-up tests run again. -/
def execTrngRetry (dt : Nat) (pass : Bool) (s : State) : Host.Outcome State Fault Refusal :=
  let s1 := s.elapse dt
  .next (if s1.vaultReady ∧ !s1.trngOk ∧ pass then (s1.wr Reg.VLT_STAT_TRNG_OK 1).endCause 0x2D03 srcVault 0 else s1)

/-- REVOKE_SWEEP (R467): every descendant that waits is zeroised, EMPTY, and reported. -/
def execRevokeSweep (dt : Nat) (s : State) : Host.Outcome State Fault Refusal :=
  let s1 := s.elapse dt
  let s2 := s1.vlt.sweep.foldl (fun t i => (t.emptySlot i true).raise 0x2D02 srcVault i) s1
  .next { s2 with vlt := { s2.vlt with sweep := [] } }.countSlots

/-! ### The rows -/

/-- VLT_SLOT_STATUS. -/
def execVltSlotStatus (dt : Nat) (rq : Req) (s : State) : Host.Outcome State Fault Refusal := .next (serve opVltSlotStatus dt rq s)

/-- VLT_DERIVE. -/
def execVltDerive (dt : Nat) (rq : Req) (s : State) : Host.Outcome State Fault Refusal := .next (serve opVltDerive dt rq s)

/-- VLT_INVALIDATE. -/
def execVltInvalidate (dt : Nat) (rq : Req) (s : State) : Host.Outcome State Fault Refusal := .next (serve opVltInvalidate dt rq s)

/-- VLT_IMPORT. -/
def execVltImport (dt : Nat) (rq : Req) (s : State) : Host.Outcome State Fault Refusal := .next (serve opVltImport dt rq s)

end Sys2Proof.Machine
end

