-- ==== Sys2Proof/Machine/Power.lean ====
section
/-!
DEFINITION. Shared operations over units and power domains: what a unit or a domain loses
when it is reset or turned off (R506, R542, R555), the device states (R538, R539), and the wake record (R547, R551).
-/
namespace Sys2Proof.Machine

/-- The register windows that lie in a domain (Table 21.6). -/
def domWindows (d : Nat) : List Nat :=
  if d = 1 then [0x00, 0x01, 0x02, 0x08, 0xA0, 0xA1, 0xB0] else if d = 3 then [0x05, 0x0F]
  else if 4 ≤ d ∧ d ≤ 35 then [0x10 + (d - 4)] else if d = 36 then [0x09, 0x0A, 0x0B]
  else if d = 39 then [0x06, 0x07] ++ (List.range 64).map fun p => 0x60 + p
  else if d = 40 then [0x0C] else if d = 41 then [0x0D] else if d = 47 then [0x0E]
  else if 53 ≤ d ∧ d ≤ 56 then (List.range 12).map fun c => 0x30 + 12 * (d - 53) + c
  else if d = 57 then [0x04] else []

/-- Registers of `[lo, hi)` return to their reset values (R590). -/
def State.dropRegs (s : State) (lo hi : Nat) : State := { s with regs := s.regs.dropRange lo hi }

/-- Every register of a window returns to its reset value. -/
def State.dropWindow (s : State) (w : Nat) : State :=
  (s.dropRegs (0x10000000 + 0x10000 * w) (0x10010000 + 0x10000 * w)).dropRegs (2 ^ 40 + w * 2 ^ 48) (2 ^ 40 + (w + 1) * 2 ^ 48)

/-! ### Skidway bursts (R505, R506) -/

/-- Release a transaction: its ID and its tracker entry. -/
def State.releaseBurst (s : State) (b : Burst) : State :=
  let s1 := { s with mem := { s.mem with outstanding := s.mem.outstanding.erase b } }
  if 3 ≤ b.target then s1.wr (Reg.DMC_ID_USED b.channel) (s1.rd (Reg.DMC_ID_USED b.channel) - 1) else s1

/-- The Skidway answers a master. -/
def State.respond (s : State) (m : Nat) (ok : Bool) (bytes : List Byte) : State := { s with sent := .response m ok bytes :: s.sent }

/-- A transaction of a reset master is released and counted (R505). -/
def State.orphan (s : State) (m : Nat) : State := (s.bump Reg.SKW_ORPHAN_COUNT 1).raise 0x2E08 (srcSkw m) m

/-- Each transaction of a reset master drains and is counted, those that still wait for a tracker entry too: their write beats change
nothing (R505). -/
def State.orphanMaster (s : State) (m : Nat) : State :=
  let s1 := (s.mem.outstanding.filter fun b => b.master == m).foldl (fun t b => (t.releaseBurst b).orphan m) s
  let s2 := { s1 with mem := { s1.mem with waiting := s1.mem.waiting.filter fun c => c.burst.master != m } }
  (s1.mem.waiting.filter fun c => c.burst.master == m).foldl (fun t _ => t.orphan m) s2

/-- The Skidway itself answers a transaction whose target is gone, with an error response and zero data, and counts it (R506). -/
def State.answerLost (s : State) (b : Burst) : State :=
  ((s.respond b.master false (zeros b.reads)).bump Reg.SKW_TGT_LOST_COUNT 1).raise 0x2E09 (srcSkw b.master) b.target

/-- The Skidway answers an outstanding transaction of a target that is gone (R506). -/
def State.loseTarget (s : State) (b : Burst) : State := (s.releaseBurst b).answerLost b

/-- Every transaction toward a target of which `p` holds, outstanding or waiting, is answered by the Skidway (R506). -/
def State.loseTargets (s : State) (p : Burst → Bool) : State :=
  let s1 := (s.mem.outstanding.filter p).foldl (fun t b => t.loseTarget b) s
  let s2 := { s1 with mem := { s1.mem with waiting := s1.mem.waiting.filter fun c => !p c.burst } }
  (s1.mem.waiting.filter fun c => p c.burst).foldl (fun t c => t.answerLost c.burst) s2

/-- Skidway masters that go with a domain (Table 17.3). -/
def domMasters (d : Nat) : List Nat :=
  if d = 1 then [8, 9, 10, 11, 31, 32] else if d = 2 then List.range 8 else if d = 57 then [33] else []

/-- A master is reset and waits for its drain (R505). -/
def State.resetMaster (s : State) (m : Nat) : State :=
  if ((s.mem.outstanding.any fun b => b.master == m) || s.mem.waiting.any fun c => c.burst.master == m) && !s.mem.draining.contains m then
    { s with mem := { s.mem with draining := s.mem.draining ++ [m] } }
  else s

/-! ### DRAM self-refresh (R493, R497, R498) -/

/-- A channel enters self-refresh: the segments that PASR masks lose their contents; all of them in a channel of no set. -/
def State.selfRefresh (s : State) (ch : Nat) : State :=
  let s1 := s.wr (Reg.DMC_STAT_SR ch) 1
  let seg := s.channelBytes / 8
  match s.setOfChannel ch with
  | none => s1.loseDram (dramKey ch 0) (dramKey ch s.channelBytes)
  | some n => ((List.range 8).filter fun k => bit (s.rd (Reg.MEM_SET_PASR_MASK n)) k).foldl
      (fun t k => t.loseDram (dramKey ch (k * seg)) (dramKey ch ((k + 1) * seg))) s1

/-! ### What a unit loses (R506, R555) -/

/-- End the pending commands of which `p` holds with FAILED, NOT_READY (R136, Table 18.4). -/
def State.failWaits (s : State) (p : Waits → Bool) : State :=
  ((s.cyx.pendings.map fun x => x.waits).filter p).foldl (fun t w => t.endWait w stNotReady) s

/-- Flows go without leave messages, because the unit that carries them is gone. -/
def State.dropFlows (s : State) (p : Flow → Bool) : State :=
  (s.net.flows.filter p).foldl (fun t f => (t.removeFlow f false).endWait (.object 9 f.handle) stNotReady) s

/-- The lane that a slot belongs to. -/
def slotLane (k : Nat) : Nat := fullSlot k / 9

/-- Routes to or from a lane cannot apply (R136). -/
def State.loseLaneRoutes (s : State) (l : Nat) : State :=
  s.loseRoutes fun r => slotLane r.out == l || (r.valid && slotLane r.source == l)

/-- The configuration and the adaptation of a lane are cleared. -/
def State.clearLane (s : State) (l : Nat) : State :=
  let w := 0x10100000 + 0x10000 * (l / 4)
  let s1 := (s.dropRegs (w + 0x100 + 0x100 * (l % 4)) (w + 0x200 + 0x100 * (l % 4))).dropRegs (w + 0x1000 + 0x100 * (l % 4)) (w + 0x1100 + 0x100 * (l % 4))
  s1.loseLaneRoutes l

/-- A lane loses its power, and its Stave receiver leaves UP (R205); but ranger firmware keeps its last configuration and the quarter map of LAN_SLOTMASK (R175, R193). -/
def State.laneOff (s : State) (l : Nat) : State :=
  let x := s.lane l
  ((s.staveState l 0).putLane { Lane.reset l with kept := x.kept, keptSleep := x.keptSleep, qmapSet := x.qmapSet }).clearLane l

/-- A lane is reset and its configuration cleared (R555); its Stave receiver leaves UP (R205). -/
def State.laneReset (s : State) (l : Nat) : State := ((s.staveState l 0).putLane (Lane.reset l)).clearLane l

/-- The port that starts at lane `p` is gone, with its queues, rings and counters. -/
def State.portOff (s : State) (p : Nat) : State :=
  let s1 := if s.linkUp p then (s.linkLost p).raise 0x2501 (srcPort p) p else s
  { s1 with net := { s1.net with ports := s1.net.ports.filter fun x => x.p != p } }.dropWindow (0x60 + p)

/-- A head is gone: its configuration, layers, ports and engines. -/
def State.headOff (s : State) (h : Nat) : State :=
  let c := (s.head h).waiting
  let s1 := { s with mvw := { s.mvw with
      heads := s.mvw.heads.filter fun x => x.h != h
      layers := s.mvw.layers.filter fun x => x.id / 64 != h
      coefs := s.mvw.coefs.filter fun x => x.1.1 != h } }
  let s2 := (List.range 64).foldl (fun t l => (((t.freePort 2 (layerUser h l false)).freePort 2 (layerUser h l true)).freeBuffer 2 (64 * h + l)).freeBuffer 6 (64 * h + l)) s1
  let s3 := (s2.dropRegs (0x100D0100 + 64 * h) (0x100D0140 + 64 * h)).dropRegs (0x100D1000 + 3072 * h) (0x100D1000 + 3072 * (h + 1))
  (c.foldl (fun t (w : HeadChange) => ((((List.range 64).foldl (fun u l => u.freeBuffer (w.bufferKey h l).1 (w.bufferKey h l).2) t)).endWait (.object 11 w.id) stNotReady).endWait (.object 12 w.id) stNotReady) s3).engineRegs

/-- A pixel engine is no longer held by its head. -/
def State.pixelOff (s : State) (e : Nat) : State :=
  { s with mvw := { s.mvw with heads := s.mvw.heads.map fun (x : Head) => { x with engines := x.engines.filter (· != e) } } }.engineRegs

/-- Every encoder channel is gone with the channel tables (PD47). -/
def State.encodersOff (s : State) : State :=
  let s1 := s.enc.chans.foldl (fun t (x : EncChan) =>
    x.rates.foldl (fun u (r : RateChange) => u.endWait (.object 18 r.id) stNotReady)
      (((t.freePort x.user.1 x.user.2).freeBuffer 4 x.handle).endWait (.object 14 x.handle) stNotReady |>.endWait (.object 15 x.handle) stNotReady)) s
  { s1 with enc := EncState.reset }

/-- A Landing channel is gone. -/
def State.landingGone (s : State) (chan : Nat) : State :=
  { s with fab := { s.fab with landing := s.fab.landing.filter fun c => c.chan != chan } }.freePort 1 chan |>.freeBuffer 1 chan

/-- The unit of a Landing channel is reset: an assignment of it, or of its group, that has not come about ends FAILED (R83, R121). -/
def State.landingOff (s : State) (chan : Nat) : State :=
  match s.fab.landing.find? fun x => x.chan == chan with
  | none => s
  | some c =>
    let s1 := s.releaseChannel { c with member := 0 }
    let ls := s1.fab.landing.map fun x => if c.inGroup x then { x with session := 0xFFFF, relSession := 0xFFFF } else x
    { s1 with fab := { s1.fab with landing := ls } }

/-- The fabric is reset: every entry of the Ephemeris is lost with FAILED, and every route, bond and Landing channel (R140). -/
def State.fabricOff (s : State) : State :=
  let s1 := s.loseRoutes fun _ => true
  let s2 := s1.fab.landing.foldl (fun t c => t.landingOff c.chan) s1
  (({ s2 with fab := FabState.reset }.dropWindow 0x09).dropWindow 0x0B).endFreeRuns

/-- The Chronograph is reset: it will load the backup counter (R371). A step decided is abandoned (R376), and the causes of its events end. -/
def State.timeOff (was : State) : State :=
  let s := ((((was.abandonStep).endCause 0x2A02 srcTim 0).endCause 0x2A03 srcTim 0).endCause 0x2A05 srcTim 0).endCause 0x2A05 srcTim 1
  let c := s.chrono
  { s with tim := { TimState.reset with count := c, backup := c } }.dropWindow 0x06

/-- The Heliostat is reset: it is in FREERUN, and the causes of its events end. -/
def State.refOff (s : State) : State :=
  let s1 := (List.range 8).foldl (fun t i => t.endCause 0x2B01 srcRef i) s
  let s2 := (List.range 16).foldl (fun t r => t.endCause 0x2B07 srcRef r) (s1.endCause 0x2B05 srcRef 0)
  let s3 := (List.range 4).foldl (fun t p => t.endCause 0x2B08 srcRef p) s2
  { s3 with ref := RefState.reset }

/-- The Vault is reset: every slot is emptied, and every session below one is revoked. -/
def State.vaultOff (s : State) : State :=
  let full := (s.vlt.slots.filter fun p => p.2.state != 0).map fun p => p.1
  let s1 := (full.foldl (fun t i => t.emptySlot i false) s).revokeSessions full
  let s2 := { s1 with vlt := { s1.vlt with sweep := [], root := 0, dramKey := 0, dramTweak := 0, tagKey := 0 } }
  ((([0x2D03, 0x2D04, 0x2D07] : List Nat).foldl (fun t c => t.endCause c srcVault 0) s2).dropWindow 0x04).readFuses

/-- A DRAM channel must train again. -/
def State.dramOff (s : State) (ch : Nat) : State := s.dropWindow (0x30 + ch)

/-- MEM_STAT.GROUP_READY follows the READY of the groups' channels. -/
def State.groupStat (s : State) : State :=
  s.wr Reg.MEM_STAT_GROUP_READY (((List.range 4).map fun g => 2 ^ g * b01 ((List.range 12).any fun i => s.isReady 0x12 (12 * g + i))).sum)

/-- The configuration of one unit is cleared, and the objects that used it end (R555). -/
def State.clearUnit (s : State) (cap i : Nat) : State :=
  match cap with
  | 0x05 => s.vaultOff
  | 0x06 => s.dropWindow 0x05
  | 0x07 => s.timeOff
  | 0x08 => s.refOff.dropWindow 0x07
  | 0x0A => s.fabricOff
  | 0x0B => { s with eph := { s.eph with gens := s.eph.gens.set i ⟨none, none, 0, 0, false⟩ } }.dropRegs (0x100A0100 + 64 * i) (0x100A0140 + 64 * i)
  | 0x0C => ((s.landingOff i).dropRegs (0x100B0100 + 32 * i) (0x100B0120 + 32 * i))
  | 0x0D => { s with aud := { s.aud with sinks := s.aud.sinks.filter fun x => s.dspOf x.num != i } }
  | 0x0E => s.headOff i
  | 0x0F => s.encEngineLost i
  | 0x10 => s.dropWindow 0x0F
  | 0x11 => s.laneReset i
  | 0x12 => (s.dramOff i).groupStat
  | 0x13 => s.portOff i
  | 0x17 => s.pixelOff i
  | 0x18 => s.dropFlows fun f => f.engine == i
  | 0x19 => (s.endDecoder i)
  | 0x1B => s.resetMaster i
  | _ => s

/-- A unit is reset: READY falls, its transactions drain, its configuration is cleared. -/
def State.resetUnit (s : State) (cap i : Nat) : State :=
  let s1 := s.unready cap i
  let s2 := if cap = 0x05 then s1.resetMaster 33 else s1
  let s3 := s2.clearUnit cap i
  let same := fun (k u : Nat) => (cap == 0x0F && k == 0 && u == i) || (cap == 0x17 && k == 1 && u == i) || (cap == 0x12 && k == 2 && u / 4096 == i)
  { s3 with twn := { s3.twn with failed := s3.twn.failed.filter fun p => !same p.1 p.2 }, isolated := s3.isolated.filter (· != cellKey cap i) }

/-! ### A domain goes off (R539, R542, R543) -/

/-- The interpreter, the collector and firmware stop with PD01; what PD00 holds of the lease stays (R432, R528, R547). -/
def State.controlOff (s : State) : State :=
  let keep := ([Reg.TWN_STAT_ROLE, Reg.TWN_STAT_LEASE, Reg.TWN_STAT_FENCE_PIN, Reg.TWN_LEASE_EPOCH_LO_E, Reg.TWN_LEASE_EPOCH_HI_E,
    Reg.TWN_LKO_MARK_TICKS, Reg.TWN_TALLY_MASK_LO_MASK, Reg.TWN_TALLY_MASK_HI_MASK, Reg.TWN_TALLY_SAFE_LO_LEVEL,
    Reg.TWN_TALLY_SAFE_HI_LEVEL, Reg.TWN_CTL_HOLD_LOW, Reg.TWN_LOCK_LOCK] : List FieldRef).map fun f => (f, s.rd f)
  let latch := s.regs.filter fun p => decide (0x10A00400 ≤ p.1 / 32 ∧ p.1 / 32 < 0x10A00600)
  let s1 := (domWindows 1).foldl (fun t w => t.dropWindow w) s
  let s2 := keep.foldl (fun t p => t.wr p.1 p.2) s1
  { s2 with
    pwr := { s2.pwr with wakeLatch := latch }
    flt := FaultState.reset
    cyx := CyxState.reset
    cru := CruState.reset
    boot := { s2.boot with firmwareSince := none, romServes := false, update := none, verify := none }
    twn := { TwnState.reset with expiry := s2.twn.expiry, maxEpoch := s2.twn.maxEpoch, requests := s2.twn.requests }
    net := { s2.net with ports := s2.net.ports.filter fun x => decide (x.p < 64) } }

/-- What the block of a domain loses beside its registers. -/
def State.domainLoss (s : State) (d : Nat) : State :=
  if d = 1 then s.controlOff
  else if 4 ≤ d ∧ d ≤ 35 then (List.range 4).foldl (fun t i => t.laneOff (4 * (d - 4) + i)) s
  else if d = 36 then { (s.fabricOff.modTim fun x => { x with backup := 0 }) with eph := { EphState.reset with lastHandle := s.eph.lastHandle, lastOrder := s.eph.lastOrder } }
  else if d = 37 ∨ d = 38 then s.dropFlows fun f => f.engine / 16 == d - 37
  else if d = 39 then ((List.range 64).foldl (fun t p => t.portOff p) (s.dropFlows fun _ => true)).timeOff.refOff
  else if d = 40 then { s with aud := AudState.reset }
  else if d = 41 then ((List.range 16).foldl (fun t h => t.headOff h) s)
  else if 42 ≤ d ∧ d ≤ 46 then (List.range 16).foldl (fun t i => t.pixelOff (16 * (d - 41) + i)) s
  else if d = 47 then s.encodersOff
  else if 48 ≤ d ∧ d ≤ 52 then (List.range 8).foldl (fun t i => t.encEngineLost (8 * (d - 47) + i)) s
  else if 53 ≤ d ∧ d ≤ 56 then s
  else if d = 57 then s.vaultOff
  else s

/-- The device state that the domains now on define (Table 19.2). -/
def State.deviceState (s : State) : Nat := if !s.domOn 1 then 1 else if s.domOn 3 && s.domOn 36 then 3 else 2

/-- PWR_STAT.STATE follows the domains. -/
def State.powerStat (s : State) : State := s.wr Reg.PWR_STAT_STATE s.deviceState

/-- A domain is off: transactions answered, units not READY, registers and state lost, PWR_DOM_ON clear. DRAM groups are put
into self-refresh first. -/
def State.domainOff (s : State) (d : Nat) : State :=
  let g := d - 53
  let dram := decide (53 ≤ d ∧ d ≤ 56)
  let s1 := if dram then (s.groupChannels g).foldl (fun t c => t.selfRefresh c) s
    else if d = 36 then (((List.range 4).filter fun k => s.domOn (53 + k)).flatMap s.groupChannels).foldl (fun t c => t.selfRefresh c) s
    else s
  let s2 := (domMasters d).foldl (fun t m => t.orphanMaster m) s1
  let s3 := s2.loseTargets fun b => (dram && b.target == 3 + g) || (d == 3)
  let s4 := (domainUnits s.variant d).foldl (fun t u => t.unready u.1 u.2) s3
  let s5 := s4.domainLoss d
  let s6 := if d = 1 then s5 else (domWindows d).foldl (fun t w => t.dropWindow w) s5
  let s7 := if d = 57 then s6.readFuses else s6
  let gone := ((domainUnits s.variant d).filterMap fun u => unitBlock u.1 u.2) ++ (domainUnits s.variant d).map fun u => cellKey u.1 u.2
  let s8 := { s7 with isolated := s7.isolated.filter fun b => !gone.contains b }
  ((s8.setDomOn d false).groupStat).powerStat

/-! ### A domain comes on (R540, R544) -/

/-- Ranger firmware programs the lanes of a quad again as it last did (R175). -/
def State.laneRestore (s : State) (l : Nat) : State :=
  let x := s.lane l
  let s1 := match x.kept with
    | some p => s.applyLaneConfig p
    | none => s
  match x.keptSleep with
  | some k => s1.sleepLane l k.1 k.2.1 (k.2.2 == 1)
  | none => s1

/-- A domain has turned on: PWR_DOM_ON set, its idle timer starts. -/
def State.domainOn (s : State) (d : Nat) : State :=
  let s1 := ((s.setDomOn d true).powerStat).endCause 0x3002 srcPower d
  let s2 := { s1 with pwr := { s1.pwr with
      upFailed := s1.pwr.upFailed.filter (· != d)
      idleSince := (d, s.now) :: s1.pwr.idleSince.filter fun p => p.1 != d } }
  if d = 39 then s2.modTim fun x => { x with count := x.backup, frac := 0 }
  else if 4 ≤ d ∧ d ≤ 35 then (List.range 4).foldl (fun t i => t.laneRestore (4 * (d - 4) + i)) s2
  else if d = 36 then (((List.range 4).filter fun k => s.domOn (53 + k)).flatMap s.groupChannels).foldl (fun t c => t.wr (Reg.DMC_STAT_SR c) 0) s2
  else if d = 57 then s2.readFuses
  else s2

/-! ### Changes of the enables, entries and wakes (R539, R541, R547, R551, R558) -/

/-- The domains that are on, as a mask. -/
def State.onMask (s : State) : Nat := s.rd64 Reg.PWR_DOM_ON_LO_ON Reg.PWR_DOM_ON_HI_ON

/-- The domains requested on, as a mask. -/
def State.enMask (s : State) : Nat := s.rd64 Reg.PWR_DOM_EN_LO_EN Reg.PWR_DOM_EN_HI_EN

/-- Is an entry to STANDBY or DORMANT in progress? -/
def State.entering (s : State) : Bool := (s.domOn 36 && !s.domEn 36) || (s.domOn 1 && !s.domEn 1)

/-- Is any domain on its way off? -/
def State.goingOff (s : State) : Bool := (List.range 58).any fun d => s.domOn d && !s.domEn d

/-- The requested set changes. An entry to STANDBY or DORMANT loads PWR_WAKE_SET with the domains that are on; the units of a
domain that will go off accept nothing more (R539, R542). -/
def State.setEnables (s : State) (mask : Nat) : State :=
  let m := if bit mask 0 then mask else mask + 1
  let s1 := (s.wr Reg.PWR_DOM_EN_LO_EN m).wr Reg.PWR_DOM_EN_HI_EN (m / 2 ^ 32)
  let s2 := if s1.entering && !s.entering then s1.wr64 Reg.PWR_WAKE_SET_LO_SET Reg.PWR_WAKE_SET_HI_SET s.onMask else s1
  let off := (List.range 58).filter fun d => s2.domOn d && !s2.domEn d
  let s3 := off.foldl (fun t d => (domainUnits s.variant d).foldl (fun u x => u.unready x.1 x.2) t) s2
  { s3 with pwr := { s3.pwr with upFailed := s3.pwr.upFailed.filter fun d => !bit m d || bit s.enMask d } }

/-- What the PD00 timer has left, in ms (R550). -/
def State.timerLeft (s : State) : Nat :=
  match s.pwr.timerAt with
  | some t => s.rd Reg.PWR_TIMER_MS - (s.now - t) / 10 ^ 6
  | none => s.rd Reg.PWR_TIMER_MS

/-- The timer stops with what it has left. -/
def State.timerStop (s : State) : State :=
  { s.wr Reg.PWR_TIMER_MS s.timerLeft with pwr := { s.pwr with timerAt := none } }

/-- The timer is loaded. -/
def State.timerLoad (s : State) (ms : Nat) : State :=
  { s.wr Reg.PWR_TIMER_MS ms with pwr := { s.pwr with timerAt := if ms = 0 then none else some s.now } }

/-- The lowest code in a mask of wake sources. -/
def lowestSource (mask : Nat) : Nat := (((List.range 7).find? fun c => bit mask c).getD 6) + 1

/-- A wake is recorded and turns on every domain of PWR_WAKE_SET (R547, R551). -/
def State.wakeNow (s : State) (mask : Nat) : State :=
  let src := lowestSource mask
  let s1 := ((s.wr Reg.PWR_WAKE_REC_SOURCE src).wr Reg.PWR_WAKE_REC_MASK mask).wr Reg.PWR_WAKE_REC_FROM s.deviceState
  let s2 := ((s1.bump Reg.PWR_WAKE_CNT_COUNT 1).wr64 Reg.PWR_WAKE_TICKS_LO_T Reg.PWR_WAKE_TICKS_HI_T s.ticks).timerStop
  let s3 := s2.setEnables (s.enMask ||| s.rd64 Reg.PWR_WAKE_SET_LO_SET Reg.PWR_WAKE_SET_HI_SET)
  if s.domOn 1 then s3.raise 0x3003 srcPower src
  else { s3 with pwr := { s3.pwr with wakeReport := some src }, boot := { s3.boot with nextCause := 4 } }

/-- A wake source fires: at once in DORMANT and STANDBY; during the power-down of an entry it waits for its end (R551). RST_N
low and a thermal trip leave no source armed (R604, R607). -/
def State.wake (s : State) (mask : Nat) : State :=
  if s.pwr.rstLow ∨ s.pwr.tripped ∨ !s.pwr.aon then s
  else if s.entering then
    { s with pwr := { s.pwr with wakeDue := some (lowestSource ((s.pwr.wakeDue.getD (0, 0)).2 ||| mask), (s.pwr.wakeDue.getD (0, 0)).2 ||| mask) } }
  else if s.deviceState = 3 then s
  else s.wakeNow mask

/-- Once nothing goes off any more, a wake that waits follows at once. -/
def State.wakeWaiting (s : State) : State :=
  match s.pwr.wakeDue with
  | some w => if s.goingOff then s else { s with pwr := { s.pwr with wakeDue := none } }.wakeNow w.2
  | none => s

/-- Is a wake source enabled (Table 19.6)? -/
def State.wakeEnabled (s : State) (b : Nat) : Bool := bit (s.rd Reg.PWR_WAKE_EN_BITS) b

end Sys2Proof.Machine
end

