-- ==== Sys2Proof/Machine/Skidway.lean ====
section
/-!
DEFINITION. The Skidway's transactions at a memory target: link ECC, tracker entries, and the arbitration of requests that wait for one
(R10, R12, R496, R501-R503).
-/
namespace Sys2Proof.Machine

/-- Link ECC of a DRAM channel (R496). -/
def State.linkEcc (s : State) (n : Nat) (fin : BurstEnd) : State :=
  match fin with
  | .corrected => (s.bump (Reg.DMC_LECC_CORR_COUNT n) 1).raise 0x2E03 (srcDram n) n
  | .lost => (s.bump (Reg.DMC_LECC_UNCORR_COUNT n) 1).raise 0x2E04 (srcDram n) n
  | _ => s

/-- Take a tracker entry and an ID for a transaction that stays outstanding (R502, R503). -/
def State.holdBurst (s : State) (b : Burst) : State :=
  let s1 := { s with mem := { s.mem with outstanding := s.mem.outstanding ++ [b] } }
  if 3 ≤ b.target then s1.wr (Reg.DMC_ID_USED b.channel) (s1.rd (Reg.DMC_ID_USED b.channel) + 1) else s1

/-- An outstanding transaction of the same master, ID and place has its response, and is released. -/
def State.endBurst (s : State) (b : Burst) : State := if s.mem.outstanding.contains b then s.releaseBurst b else s

/-- The data of a transaction at a memory target: the bytes supplied are stored, or the bytes are read; a lost word gives an error
response with zero data. `left` leaves it outstanding after so many beats. -/
def State.burstData (s : State) (b : Burst) (addr len : Nat) (data : Option (List Byte)) (fin : BurstEnd) : State :=
  match fin, data with
  | .left beats, some d => (s.memWrite addr (d.take (min len (64 * beats)))).holdBurst b
  | .left _, none => s.holdBurst b
  | _, some d => ((s.memWrite addr (d.take len)).endBurst b).respond b.master true []
  | .lost, none => (s.endBurst b).respond b.master false (zeros len)
  | _, none => (s.endBurst b).respond b.master true (s.memRead addr len)

/-! ### Arbitration (R10, R12, R501, R503) -/

/-- A target has served a master: it parks on it (R501). -/
def State.parked (s : State) (t m : Nat) : State :=
  { s with mem := { s.mem with served := (t, m) :: s.mem.served.filter fun p => p.1 != t } }

/-- A DRAM group has granted a channel (R10). -/
def State.tookTurn (s : State) (ch : Nat) : State :=
  { s with mem := { s.mem with turns := (ch / 12, ch) :: s.mem.turns.filter fun p => p.1 != ch / 12 } }

/-- A transaction that a DRAM channel accepts; while the pattern engine owns the channel it stays outstanding (R514). -/
def State.serveDram (s : State) (b : Burst) (addr len : Nat) (data : Option (List Byte)) (fin : BurstEnd) : State :=
  let s1 := (s.parked b.target b.master).tookTurn b.channel
  if s1.flag (Reg.DMC_PAT_CTL_EN b.channel) then (if s1.mem.outstanding.contains b then s1 else s1.holdBurst b)
  else (s1.linkEcc b.channel fin).burstData b addr len data fin

/-- The region of a region port. -/
def Claim.region (c : Claim) : Option Nat := if 34 ≤ c.burst.master then some (c.burst.master - 34) else none

/-- Has a request waited SKW_AGE.CYCLES cycles of the 1 GHz Ranger clock? -/
def State.aged (s : State) (c : Claim) : Bool := decide (c.since + max 1 (s.rd Reg.SKW_AGE_CYCLES) ≤ s.now)

/-- The priority of a request toward its target (R501). -/
def State.claimPriority (s : State) (c : Claim) : Nat :=
  if s.aged c then 15 else s.rd (Reg.SKW_PRIO_PRIO c.burst.master) / 2 ^ (4 * c.burst.target) % 16

/-- Places after the master that the target served last, in the round of the 42 masters. -/
def State.claimTurn (s : State) (c : Claim) : Nat :=
  (c.burst.master + 41 - ((s.mem.served.find? fun p => p.1 == c.burst.target).map fun p => p.2).getD 41) % 42

/-- The first of a list that no later one beats. -/
def foremost {α : Type} (beats : α → α → Bool) : List α → Option α
  | [] => none
  | c :: r => match foremost beats r with
    | none => some c
    | some x => if beats x c then some x else some c

/-- The first waiting request of each master toward a channel, in order of arrival: first come, first served within a master (R10). -/
def State.claimHeads (s : State) (ch : Nat) : List Claim :=
  (s.mem.waiting.filter fun c => c.burst.channel == ch).foldl (fun l c => if l.any fun x => x.burst.master == c.burst.master then l else l ++ [c]) []

/-- The weight of a region (R12). -/
def State.regionWeight (s : State) (r : Nat) : Nat := max 1 (s.rd (Reg.SKW_RWEIGHT_W r))

/-- The credits of the regions as they compete: each that requests gains its weight (log entry 98). -/
def State.regionCredit (s : State) (rs : List Nat) : List Int :=
  (List.range 8).map fun r => s.mem.credit.getD r 0 + if rs.contains r then (s.regionWeight r : Int) else 0

/-- The region that wins: most credit; of equals, the lower index (R12). -/
def regionWinner (credit : List Int) : List Nat → Option Nat
  | [] => none
  | r :: rs => match regionWinner credit rs with
    | none => some r
    | some x => if credit.getD r 0 < credit.getD x 0 ∨ (credit.getD r 0 = credit.getD x 0 ∧ x < r) then some x else some r

/-- The request that a channel grants next, with the regions' credits after it: of the masters' first requests, of those of regions only the
winner's and aged ones, the highest priority; equals round-robin. -/
def State.nextClaim (s : State) (ch : Nat) : Option (Claim × List Int) :=
  let heads := s.claimHeads ch
  let rs := heads.filterMap Claim.region
  let credit := s.regionCredit rs
  let win := regionWinner credit rs
  let run := heads.filter fun c => c.region.isNone || c.region == win || s.aged c
  let beats := fun (a b : Claim) => decide (s.claimPriority b < s.claimPriority a) || (s.claimPriority a == s.claimPriority b && decide (s.claimTurn a < s.claimTurn b))
  (foremost beats run).map fun c =>
    (c, if c.region.isSome ∧ c.region = win then credit.modify (win.getD 0) fun x => x - ((rs.map s.regionWeight).sum : Int) else s.mem.credit)

/-- A waiting request is granted when its channel has a tracker entry free. -/
def State.grantOne (s : State) (ch : Nat) : State :=
  if 1024 ≤ s.rd (Reg.DMC_ID_USED ch) then s
  else
    match s.nextClaim ch with
    | none => s
    | some g => { s with mem := { s.mem with waiting := s.mem.waiting.erase g.1, credit := g.2 } }.serveDram g.1.burst g.1.addr g.1.len g.1.data g.1.fin

/-- Places of a channel after the one that its group granted last, in the round of the group's 12 (R10). -/
def State.channelTurn (s : State) (ch : Nat) : Nat :=
  (ch % 12 + 11 - ((s.mem.turns.find? fun p => p.1 == ch / 12).map fun p => p.2 % 12).getD 11) % 12

/-- The channel that is granted next: of those with a request waiting and a tracker entry free, the first of its group's round; groups do not
compete with each other. -/
def State.nextChannel (s : State) : Option Nat :=
  foremost (fun a b => decide (s.channelTurn a < s.channelTurn b))
    ((s.mem.waiting.map fun c => c.burst.channel).filter fun ch => decide (s.rd (Reg.DMC_ID_USED ch) < 1024))

/-- Requests are granted, one channel of a group at a time, until nothing waits that could be. -/
def State.grantAll (s : State) : State :=
  s.mem.waiting.foldl (fun t _ => match t.nextChannel with
    | none => t
    | some ch => t.grantOne ch) s

/-- A request finds its channel's tracker full: it waits, is counted, and raises MEM_ID_WAIT (R503). -/
def State.awaitEntry (s : State) (c : Claim) : State :=
  ({ s with mem := { s.mem with waiting := s.mem.waiting ++ [c] } }.bump (Reg.DMC_ID_WAIT_COUNT c.burst.channel) 1).raise 0x2E06 (srcDram c.burst.channel) c.burst.channel

end Sys2Proof.Machine
end

