-- ==== Sys2Proof/Machine/MemCmds.lean ====
section
/-!
DEFINITION. The memory commands (R508-R510), DRAM training, tracking and refresh (R485, R494, R495), the pattern engine (R514),
channel sets and regions, drains of reset masters (R505), and units that become READY (R564, R611).
-/
namespace Sys2Proof.Machine

/-! ### Sets, regions and what their changes do to contents (R473, R474, R488-R493) -/

/-- Channels of set `n`. -/
def State.setChannelList (s : State) (n : Nat) : List Nat :=
  (List.range (s.rd (Reg.MEM_SET_CTL_COUNT n))).map fun i => s.rd (Reg.MEM_SET_CTL_FIRST n) + i

/-- Base and size of region `r`. -/
def State.regionBase (s : State) (r : Nat) : Nat := s.rd (Reg.MEM_REG_BASE_LO_ADDR r) * 65536 + s.rd (Reg.MEM_REG_BASE_HI_ADDR r) * 2 ^ 32
def State.regionSize (s : State) (r : Nat) : Nat := s.rd (Reg.MEM_REG_SIZE_LO_BYTES r) * 65536 + s.rd (Reg.MEM_REG_SIZE_HI_BYTES r) * 2 ^ 32
def State.regionOn (s : State) (r : Nat) : Bool := s.flag (Reg.MEM_REG_BASE_LO_EN r)

/-- The enabled set in which a range of system addresses wholly lies. -/
def State.setHolding (s : State) (a size : Nat) : Option Nat := (List.range 16).find? fun n =>
  s.flag (Reg.MEM_SET_CTL_EN n) && decide (s.setBase n ≤ a ∧ a + size ≤ s.setBase n + s.setBytes n)

/-- The bytes of a region lose their meaning: their key is gone, or they are now read under another one. Whole grains of the
set's channels are taken (log entry 46). -/
def State.loseRegion (s : State) (r : Nat) : State :=
  match s.setHolding (s.regionBase r) (s.regionSize r) with
  | none => s
  | some n =>
    let c := max 1 (s.rd (Reg.MEM_SET_CTL_COUNT n))
    let g := 2 ^ s.rd (Reg.MEM_SET_CTL_GRAIN n)
    let o := s.regionBase r - s.setBase n
    let lo := o / g / c * g
    let hi := ((o + s.regionSize r - 1) / g / c + 1) * g
    (s.setChannelList n).foldl (fun t ch => t.loseDram (dramKey ch lo) (dramKey ch hi)) s

/-- Is region `r` in force with protection? -/
def State.regionProtected (s : State) (r : Nat) : Bool := s.regionOn r && s.flag (Reg.MEM_REG_BASE_LO_PROTECTED r)

/-- Channels in a set leave self-refresh once their group is on and they are trained; a channel of no set is held in self-refresh
with its whole array masked (R493). MEM_SET_SIZE follows. -/
def State.refreshSets (s : State) : State :=
  let s1 := (List.range (capCount s.variant 0x12)).foldl (fun t ch =>
    if !t.domOn (capDomain 0x12 ch) ∨ !t.flag (Reg.DMC_STAT_TRAINED ch) then t
    else if (t.setOfChannel ch).isSome then t.wr (Reg.DMC_STAT_SR ch) 0
    else if t.flag (Reg.DMC_STAT_SR ch) then t else t.selfRefresh ch) s
  (List.range 16).foldl (fun t n => t.wr64 (Reg.MEM_SET_SIZE_LO_S n) (Reg.MEM_SET_SIZE_HI_S n)
    (if t.flag (Reg.MEM_SET_CTL_EN n) then t.setBytes n else 0)) s1

/-- Regions whose protection, place or existence differ from before lose their meaning under either key. -/
def State.regionChanges (old new : State) : State :=
  (List.range 32).foldl (fun t r =>
    if (old.regionProtected r || new.regionProtected r) && !(old.regionProtected r == new.regionProtected r &&
        old.regionBase r == new.regionBase r && old.regionSize r == new.regionSize r) then
      let t1 := if new.regionProtected r then t.loseRegion r else t
      if old.regionProtected r then
        { t1 with mem := (({ old with mem := t1.mem, fresh := t1.fresh } : State).loseRegion r).mem, fresh := t1.fresh + 64 } else t1
    else t) new

/-! ### MEM_MAP_SET (R488, R491, R492, R508) -/

/-- Channel counts of R488. -/
def setCounts : List Nat := [1, 2, 3, 4, 6, 8, 12, 16, 24, 48]

/-- Does a set hold a consumer buffer or a region (R492)? -/
def State.setHeld (s : State) (n : Nat) : Bool :=
  (s.mem.bufs.any fun b => b.set == n) || (List.range 32).any fun r => s.regionOn r && s.setHolding (s.regionBase r) (s.regionSize r) == some n

/-- The checks of one record in the state that the records before it give. -/
def State.mapChecks (s : State) (p : List Byte) (o : Nat) : List (Nat × Bool) :=
  let i := u8 p (o + 1)
  let fl := u8 p (o + 2)
  if u8 p o = 1 then
    let f := u8 p (o + 3)
    let c := u8 p (o + 4)
    let others := (List.range 16).filter fun n => n != i && s.flag (Reg.MEM_SET_CTL_EN n)
    let size := c * s.channelBytes
    let b := u64 p (o + 8)
    [(o + 1, decide (i < 16) && !s.setHeld i), (o + 2, decide (fl < 2))] ++
      (if bit fl 0 then [] else
        [(o + 3, decide (0 < c) && f % c == 0 && decide (f + c ≤ 48) && others.all fun n => (s.setChannelList n).all fun ch => !decide (f ≤ ch ∧ ch < f + c)),
         (o + 4, setCounts.contains c), (o + 5, decide (8 ≤ u8 p (o + 5) ∧ u8 p (o + 5) ≤ 16)), (o + 6, zeroAt p (o + 6) 2),
         (o + 8, b % 2 ^ 29 == 0 && decide (b + size ≤ 96 * 2 ^ 30) && others.all fun n =>
           decide (b + size ≤ s.setBase n - 0x1000000000) || decide (s.setBase n - 0x1000000000 + s.setBytes n ≤ b)),
         (o + 16, u64 p (o + 16) % 65536 == 0 && decide (u64 p (o + 16) ≤ size))])
  else if u8 p o = 2 then
    let b := u64 p (o + 8)
    let n := u64 p (o + 16)
    [(o + 1, decide (i < 32)), (o + 2, decide (fl < 4) && (!bit fl 1 || !(s.lifeCycle == 0 || s.lifeCycle == 5)))] ++
      (if bit fl 0 then [] else
        [(o + 3, u8 p (o + 3) == 0), (o + 4, u8 p (o + 4) == 0), (o + 5, u8 p (o + 5) == 0), (o + 6, zeroAt p (o + 6) 2),
         (o + 8, b % 65536 == 0), (o + 16, n % 65536 == 0 && decide (0 < n)),
         (o + 8, (s.setHolding b n).isSome && (List.range 32).all fun r => r == i || !s.regionOn r ||
           decide (b + n ≤ s.regionBase r) || decide (s.regionBase r + s.regionSize r ≤ b))])
  else [(o, false)]

/-- Apply one record. -/
def State.applyMap (s : State) (p : List Byte) (o : Nat) : State :=
  let i := u8 p (o + 1)
  let fl := u8 p (o + 2)
  if u8 p o = 1 then
    if bit fl 0 then s.wr (Reg.MEM_SET_CTL_EN i) 0
    else
      let s1 := ((s.wr (Reg.MEM_SET_CTL_FIRST i) (u8 p (o + 3))).wr (Reg.MEM_SET_CTL_COUNT i) (u8 p (o + 4))).wr (Reg.MEM_SET_CTL_GRAIN i) (u8 p (o + 5))
      let s2 := (s1.wr64 (Reg.MEM_SET_BASE_LO_B i) (Reg.MEM_SET_BASE_HI_B i) (u64 p (o + 8))).wr (Reg.MEM_SET_CTL_EN i) 1
      (s2.wr64 (Reg.MEM_SET_RSV_LO_BYTES i) (Reg.MEM_SET_RSV_HI_BYTES i) (u64 p (o + 16))).wr (Reg.MEM_SET_PASR_MASK i) 0
  else if bit fl 0 then s.wr (Reg.MEM_REG_BASE_LO_EN i) 0
  else
    let b := u64 p (o + 8)
    let n := u64 p (o + 16)
    let s1 := ((s.wr (Reg.MEM_REG_BASE_LO_ADDR i) (b / 65536)).wr (Reg.MEM_REG_BASE_HI_ADDR i) (b / 2 ^ 32)).wr (Reg.MEM_REG_SIZE_LO_BYTES i) (n / 65536)
    ((s1.wr (Reg.MEM_REG_SIZE_HI_BYTES i) (n / 2 ^ 32)).wr (Reg.MEM_REG_BASE_LO_PROTECTED i) (b01 (bit fl 1))).wr (Reg.MEM_REG_BASE_LO_EN i) 1

/-- The checks of `n` records from offset `o`, each in the state after those before it. -/
def State.mapFields (s : State) (p : List Byte) : Nat → Nat → List (Nat × Bool)
  | 0, _ => []
  | n + 1, o => s.mapChecks p o ++ State.mapFields (s.applyMap p o) p n (o + 24)

/-- Apply `n` records. -/
def State.mapAll (s : State) (p : List Byte) : Nat → Nat → State
  | 0, _ => s
  | n + 1, o => State.mapAll (s.applyMap p o) p n (o + 24)

/-- MEM_MAP_SET (R508). On the partner twin it applies to its own channels without refusal (R89). -/
def opMemMapSet : OpSpec where
  code := 0x0D00
  cls := .c
  keys := false
  length p := decide (1 ≤ u8 p 0 ∧ u8 p 0 ≤ 48) && p.length == 8 + 24 * u8 p 0
  fields _ p := [(1, zeroAt p 1 7)]
  own s p := s.mapFields p (u8 p 0) 8
  units _ p := (List.range (u8 p 0)).flatMap fun i =>
    let o := 8 + 24 * i
    if u8 p o = 1 ∧ !bit (u8 p (o + 2)) 0 then (List.range (u8 p (o + 4))).map fun k => (0x12, u8 p (o + 3) + k) else []
  locked _ _ := false
  cruise := true
  run s _ p :=
    let s1 := s.regionChanges (s.mapAll p (u8 p 0) 8)
    Done.ok s1.refreshSets.storeChanged []

/-- MEM_PASR_SET (R509). -/
def opMemPasrSet : OpSpec where
  code := 0x0D01
  cls := .c
  keys := false
  length p := p.length == 4
  fields s p := [(0, s.setUsable (u8 p 0)), (2, zeroAt p 2 2)]
  own s p :=
    let n := u8 p 0
    let seg := s.setBytes n / 8
    let masked := (List.range 8).filter fun k => bit (u8 p 1) k
    let clear := fun (lo hi : Nat) => masked.all fun k => decide (hi ≤ k * seg) || decide ((k + 1) * seg ≤ lo)
    [(1, (s.mem.bufs.all fun b => b.set != n || clear b.off (b.off + b.size)) && (List.range 32).all fun r =>
      !s.regionOn r || s.setHolding (s.regionBase r) (s.regionSize r) != some n ||
        clear (s.regionBase r - s.setBase n) (s.regionBase r - s.setBase n + s.regionSize r))]
  units s p := s.setUnits (u8 p 0)
  locked _ _ := false
  cruise := true
  run s _ p := Done.ok (s.wr (Reg.MEM_SET_PASR_MASK (u8 p 0)) (u8 p 1)) []

/-! ### Training (R485, R494, R510) -/

/-- One entry of a REPORT. -/
def State.trainEntry (s : State) (ch : Nat) : List Byte :=
  match s.mem.results.find? fun r => r.1 == ch with
  | some r => be8 ch ++ be8 r.2.1 ++ be8 r.2.2.1 ++ be8 0 ++ be16 r.2.2.2.1 ++ be16 r.2.2.2.2
  | none => be8 ch ++ be8 2 ++ be8 0 ++ be8 0 ++ be16 0 ++ be16 0

/-- Channels of a mask. -/
def maskChannels (m : Nat) : List Nat := (List.range 48).filter fun c => bit m c

/-- Training of channels `cs` starts, or their last results are read; `absent` and `off` are the first of them that is absent and
whose domain is off. -/
def State.startTraining (s : State) (x : Ctx) (p : List Byte) (cs : List Nat) (absent off : Option Nat) : Done :=
  match absent with
  | some c => ⟨s, stNotPresent, detail 0xFFFF 0x12 c, []⟩
  | none =>
    if bit (u8 p 9) 2 then Done.ok s (be32 cs.length ++ cs.flatMap fun c => s.trainEntry c)
    else match off with
      | some c => ⟨s, stNotReady, detail 0xFFFF 0x12 c, []⟩
      | none =>
        if s.mem.training.isSome then ⟨s, stBusy, detail 0xFFFF 0x12 0xFFFFFFFF, []⟩
        else Done.pending { s with mem := { s.mem with training := some (x.tag, x.session, u64 p 0, u8 p 8, u8 p 9) } } []

/-- MEM_TRAIN (R510). -/
def opMemTrain : OpSpec where
  code := 0x0D02
  cls := .l
  keys := false
  length p := p.length == 16
  fields s p :=
    let fl := u8 p 9
    [(0, decide (u64 p 0 < 2 ^ 48) && decide (0 < u64 p 0) && (bit fl 2 || (maskChannels (u64 p 0)).all fun c => (s.setOfChannel c).isNone)),
     (8, decide (u8 p 8 < 32)), (9, decide (fl < 8)), (10, !bit fl 0 || bit fl 2 || decide (1 ≤ u16 p 10 ∧ u16 p 10 ≤ 10000)), (12, zeroAt p 12 4)]
  units _ _ := []
  locked _ _ := false
  cruise := false
  run s x p :=
    s.startTraining x p (maskChannels (u64 p 0)) ((maskChannels (u64 p 0)).find? fun c => !s.present 0x12 c)
      ((maskChannels (u64 p 0)).find? fun c => !s.domOn (capDomain 0x12 c))

/-- The outcome of training one channel: it passes and leaves FAILED, or is marked FAILED and out of service. -/
def State.trained (s : State) (ch : Nat) (pass : Bool) : State :=
  if pass then
    (((s.wr (Reg.DMC_STAT_TRAINED ch) 1).wr (Reg.DMC_STAT_FAILED ch) 0).endCause 0x2E01 (srcDram ch) ch).setReady 0x12 ch
  else (((s.wr (Reg.DMC_STAT_TRAINED ch) 0).wr (Reg.DMC_STAT_FAILED ch) 1).unready 0x12 ch).raise 0x2E01 (srcDram ch) ch

/-- Keep the result of a channel: result, failed step, margins. -/
def State.keepResult (s : State) (r : Nat × Nat × Nat × Nat × Nat) : State :=
  { s with mem := { s.mem with results := r :: s.mem.results.filter fun x => x.1 != r.1 } }

/-- Did a channel pass, by a list of results? One that gave none did not answer. -/
def passed (res : List (Nat × Nat × Nat × Nat × Nat)) (ch : Nat) : Bool := res.any fun r => r.1 == ch && r.2.1 == 0

/-- DRAM_TRAINING (R485, R494, R498): group `g` is on and its channels have trained. `dens` gives the density code of each channel
that answers, `res` each channel's result, failed step and margins. -/
def execDramTraining (dt g : Nat) (dens : List (Nat × Nat)) (res : List (Nat × Nat × Nat × Nat × Nat)) (s : State) :
    Host.Outcome State Fault Refusal :=
  let s1 := s.elapse dt
  let cs := (s1.groupChannels g).filter fun c => !s1.isReady 0x12 c
  .next (
    if 4 ≤ g ∨ !s1.domOn (53 + g) ∨ cs.isEmpty then s1
    else
      let first := (cs.filterMap fun c => (dens.find? fun d => d.1 == c).map fun (d : Nat × Nat) => d.2).head?
      let s2 := if s1.readyCount 0x12 = 0 then s1.wr Reg.MEM_STAT_DENSITY (first.getD 0) else s1
      let den := s2.rd Reg.MEM_STAT_DENSITY
      let s3 := (res.filter fun r => cs.contains r.1).foldl (fun t r => t.keepResult r) s2
      let s4 := cs.foldl (fun t c => t.trained c (passed res c && dens.contains (c, den))) s3
      s4.groupStat.refreshSets.settle)

/-- MEM_TRAIN_DONE (R510): the run of MEM_TRAIN, with its TEST pass, is over. -/
def execMemTrainDone (dt : Nat) (res : List (Nat × Nat × Nat × Nat × Nat)) (s : State) : Host.Outcome State Fault Refusal :=
  let s1 := s.elapse dt
  .next (
    match s1.mem.training with
    | none => s1
    | some (tag, session, mask, _, flags) =>
      let cs := maskChannels mask
      let s2 := { s1 with mem := { s1.mem with training := none } }
      let s3 := (res.filter fun r => cs.contains r.1).foldl (fun t r => t.keepResult r) s2
      let s4 := cs.foldl (fun t c => t.trained c (passed res c)) s3
      let s5 := if bit flags 0 then cs.foldl (fun t c => t.loseDram (dramKey c 0) (dramKey c t.channelBytes)) s4 else s4
      let s6 := if bit flags 1 then { s5 with boot := { s5.boot with trained := s5.boot.trained ++ (cs.filter (passed res)).filter fun c => !s5.boot.trained.contains c } } else s5
      (s6.groupStat.refreshSets).finish session tag (if cs.all (passed res) then 0 else stInternal) 0)

/-- DRAM_TRACKING (R495): the measured drift in 1/64 UI. -/
def execDramTracking (dt n : Nat) (drift : Int) (s : State) : Host.Outcome State Fault Refusal :=
  let s1 := s.elapse dt
  .next (
    if !s1.isReady 0x12 n ∨ drift.natAbs ≤ 4 then s1
    else
      let s2 := s1.bump (Reg.DMC_RETRAIN_COUNT n) 1
      if 8 < drift.natAbs then s2.raise 0x2E02 (srcDram n) n else s2)

/-- DRAM_REFRESH_CHECK (R495): the device asks for 2^rate times the nominal refresh rate. -/
def execDramRefreshCheck (dt n rate : Nat) (s : State) : Host.Outcome State Fault Refusal :=
  let s1 := s.elapse dt
  .next (
    if !s1.isReady 0x12 n then s1
    else
      let s2 := s1.wr (Reg.DMC_STAT_REFRATE n) (min rate 7)
      if rate = 0 then s2.endCause 0x2E05 (srcDram n) n
      else if s2.causePresent 0x2E05 (srcDram n) n then s2 else s2.raise 0x2E05 (srcDram n) n)

/-! ### The pattern engine (R514) -/

/-- A pass starts: DONE falls; target 4 overwrites the array. -/
def State.patGo (s : State) (n : Nat) : State :=
  if !s.flag (Reg.DMC_PAT_CTL_EN n) then s
  else
    let s1 := s.wr (Reg.DMC_PAT_CTL_DONE n) 0
    if s.rd (Reg.DMC_PAT_CTL_TARGET n) = 4 then s1.loseDram (dramKey n 0) (dramKey n s1.channelBytes) else s1

/-- DMC_PAT_DONE: a pass ends with its bit errors and the lanes that failed. -/
def execDmcPatDone (dt n errors lanes : Nat) (s : State) : Host.Outcome State Fault Refusal :=
  let s1 := s.elapse dt
  .next (
    if !s1.domOn (capDomain 0x12 n) ∨ !s1.present 0x12 n ∨ !s1.flag (Reg.DMC_PAT_CTL_EN n) ∨ s1.flag (Reg.DMC_PAT_CTL_DONE n) then s1
    else ((s1.wr (Reg.DMC_PAT_CTL_DONE n) 1).wr (Reg.DMC_CMP_ERR_COUNT n) (min errors (2 ^ 32 - 1))).wr (Reg.DMC_CMP_LANE_MASK n) lanes)

/-! ### Drains and units that become READY -/

/-- MASTER_RESET_DRAIN (R505): a reset master's outstanding bursts complete; write beats that it had not supplied change nothing. -/
def execMasterResetDrain (dt m : Nat) (s : State) : Host.Outcome State Fault Refusal :=
  let s1 := s.elapse dt
  .next (
    if s1.mem.draining.contains m then
      let s2 := s1.orphanMaster m
      { s2 with mem := { s2.mem with draining := s2.mem.draining.filter (· != m) } }.grantAll
    else s1)

/-- Units that come up without an image: not the Vault, DRAM, the microcoded engines and the host cores (R458, R494, R563). -/
def plainUnit (cap : Nat) : Bool := !([0x05, 0x0D, 0x0F, 0x12, 0x15, 0x17, 0x18, 0x1B] : List Nat).contains cap

/-- UNIT_READY (R564, R611): a unit without microcode has initialised. -/
def execUnitReady (dt cap i : Nat) (s : State) : Host.Outcome State Fault Refusal :=
  let s1 := s.elapse dt
  .next (
    if plainUnit cap && s1.present cap i && s1.domOn (capDomain cap i) && s1.domEn (capDomain cap i) && !s1.shutIn cap i && s1.boot.firmwareSince.isSome then
      (s1.setReady cap i).settle
    else s1)

/-! ### The rows -/

/-- MEM_MAP_SET. -/
def execMemMapSet (dt : Nat) (rq : Req) (s : State) : Host.Outcome State Fault Refusal := .next (serve opMemMapSet dt rq s)

/-- MEM_PASR_SET. -/
def execMemPasrSet (dt : Nat) (rq : Req) (s : State) : Host.Outcome State Fault Refusal := .next (serve opMemPasrSet dt rq s)

/-- MEM_TRAIN. -/
def execMemTrain (dt : Nat) (rq : Req) (s : State) : Host.Outcome State Fault Refusal := .next (serve opMemTrain dt rq s)

end Sys2Proof.Machine
end

