-- ==== Sys2Proof/Machine/TwnCmds.lean ====
section
/-!
DEFINITION. The twin controller (chapter 15): roles and the lease, the Lookout, heartbeats and the partner state, checks on the
partner, background tests, resynchronisation, and its commands (R419-R453). The snapshot is applied in SnapCmds.
-/
namespace Sys2Proof.Machine

/-! ### Roles and the lease (R429-R433) -/

/-- Class C commands that wait and have not started are answered without being executed (R431). -/
def State.dropQueued (s : State) (status : Nat) : State :=
  let waiting := (s.cyx.sessions.flatMap fun x => x.queue.filter fun e => classC e.1) ++ s.cyx.linkQueue.filter fun e => classC e.1
  let s1 := { s with cyx := { s.cyx with
    sessions := s.cyx.sessions.map fun x => { x with queue := x.queue.filter fun e => !classC e.1 }
    linkQueue := s.cyx.linkQueue.filter fun e => !classC e.1 } }
  waiting.foldl (fun t e => t.answer e.1 e.2.1 status (detail 0xFFFF 0 0xFFFFFFFF)) s1

/-- The pin LKO_HOLD, and GPIO `n`, in `Out.pin`. -/
def pinHold : Nat := 0x300

/-- Is a lease valid: HOLDER, or SOLO while LKO_FENCE_N is high (R432, R433)? -/
def State.leaseValid (s : State) : Bool := s.role == roleHolder || (s.role == roleSolo && !s.flag Reg.TWN_STAT_FENCE_PIN)

/-- TWN_STAT.LEASE and LKO_HOLD follow the lease (R432). -/
def State.leaseGates (s : State) : State :=
  (s.wr Reg.TWN_STAT_LEASE (b01 s.leaseValid)).pin pinHold (b01 (s.leaseValid != s.flag Reg.TWN_CTL_HOLD_LOW))

/-- The level that GPIO `n` drives, if it drives one: its safe level while the lease gates it, else its own setting (R432). -/
def State.gpioDrive (s : State) (n : Nat) : Option Nat :=
  let pick := fun (lo hi : FieldRef) => if n < 32 then bit (s.rd lo) n else bit (s.rd hi) (n - 32)
  if !s.flag Reg.TWN_STAT_LEASE && pick Reg.TWN_TALLY_MASK_LO_MASK Reg.TWN_TALLY_MASK_HI_MASK then
    some (b01 (pick Reg.TWN_TALLY_SAFE_LO_LEVEL Reg.TWN_TALLY_SAFE_HI_LEVEL))
  else if pick Reg.SYS_GPIO_OE_LO_EN Reg.SYS_GPIO_OE_HI_EN then some (b01 (pick Reg.SYS_GPIO_OUT_LO_LEVEL Reg.SYS_GPIO_OUT_HI_LEVEL))
  else none

/-- Raise a twin event while PD01 runs; PD00 acts alone without it (R432). -/
def State.twinEvent (s : State) (code obj : Nat) : State := if s.domOn 1 then s.raise code srcTwin obj else s

/-- Pending lease requests end with a role change (R450). -/
def State.endLeaseWaits (s : State) : State :=
  (s.cyx.pendings.filterMap fun p => match p.waits with
    | .object 16 t => some t
    | _ => none).foldl (fun t k => t.endWait (.object 16 k) stOk) s

/-- Pending lease requests whose time has passed fail (R450). -/
def State.lateLeaseWaits (s : State) : State :=
  (s.cyx.pendings.filterMap fun p => match p.waits with
    | .object 16 t => if t < s.now then some t else none
    | _ => none).foldl (fun t k => t.endWait (.object 16 k) stLeaseNotHeld) s

/-- A role change: registers, gates, SYS_EVENT kind 4, pending requests (R433); the cause of a VOTE_LOST of ROLE or LEASE ends (R585). -/
def State.setRole (s : State) (r : Nat) : State :=
  if s.role = r then s.leaseGates
  else
    let s0 := s.wr Reg.TWN_STAT_ROLE r
    let s1 := { s0.endCause 0x2F03 (srcOf 7 12 0xFFFF) 0x80014 with flt := { (s0.endCause 0x2F03 (srcOf 7 12 0xFFFF) 0x80014).flt with
      voteLost := s0.flt.voteLost.filter fun p => p.1 / 32 != 0x10080014 } }.leaseGates
    let s2 := if r = roleFenced then s1 else s1.endCause 0x2C03 srcTwin 0
    let s3 := if r = roleHolder ∨ r = roleSolo then s2.endTests else s2
    (s3.publish ⟨4, 0, s3.rd Reg.TWN_LEASE_EPOCH_LO_E, s3.chrono, 0, 0⟩).endLeaseWaits

/-- The lease ends: the timer stops, no epoch is held, the role changes, and waiting commands are answered (R431-R433). -/
def State.endLease (s : State) (role status : Nat) : State :=
  let s1 := { s with twn := { s.twn with expiry := none } }.wr64 Reg.TWN_LEASE_EPOCH_LO_E Reg.TWN_LEASE_EPOCH_HI_E 0
  (s1.setRole role).dropQueued status

/-- TWN_STAT.AUTHORITY and TIME_ORIGIN show the claim (R438). -/
def State.setClaim (s : State) (epoch : Nat) : State :=
  ({ s with twn := { s.twn with claim := epoch } }.wr Reg.TWN_STAT_AUTHORITY (b01 (epoch != 0))).wr Reg.TWN_STAT_TIME_ORIGIN (b01 (epoch != 0))

/-- The epoch held. -/
def State.leaseEpoch (s : State) : Nat := s.rd64 Reg.TWN_LEASE_EPOCH_LO_E Reg.TWN_LEASE_EPOCH_HI_E

/-- Is the partner PRESENT (Table 15.3)? -/
def State.partnerPresent (s : State) : Bool := s.rd Reg.TWN_STAT_PARTNER == 1

/-- A HOLDER that does not claim claims authority and time origin while the partner is not PRESENT or claims neither (R438). -/
def State.makeClaim (s : State) : State :=
  if s.role = roleHolder ∧ s.twn.claim = 0 ∧ (!s.partnerPresent ∨ s.twn.partner.claim = 0) then s.setClaim s.leaseEpoch else s

/-- Both cards claim: the lower claim epoch is dropped, and every encoder channel of that card diverges (R438). -/
def State.claimConflict (s : State) : State :=
  if s.partnerPresent ∧ s.twn.claim ≠ 0 ∧ s.twn.claim < s.twn.partner.claim then
    let s1 := (s.setClaim 0).twinEvent 0x2C0C 0
    s1.enc.chans.foldl (fun t (x : EncChan) => t.wr (Reg.ENC_CH_STAT_DIVERGED x.block) 1) s1
  else s

/-- The expiry of a lease of `v` ms from a mark, in always-on ticks (R429). -/
def leaseExpiry (mark v : Nat) : Nat := mark + 48000 * v - 48000 * v / 8192

/-- The lease timer is armed with mark, V and epoch: an equal epoch extends, a new one replaces the lease, any other is ignored and
counted; nothing happens while LKO_FENCE_N is low (R429, R432). -/
def State.armLease (s : State) (mark v epoch : Nat) : State :=
  let e := leaseExpiry mark v
  if s.flag Reg.TWN_STAT_FENCE_PIN ∨ !s.twinOn then s
  else if s.role = roleHolder ∧ epoch = s.leaseEpoch then
    { s with twn := { s.twn with expiry := s.twn.expiry.map fun x => max x e } }
  else if s.twn.maxEpoch < epoch then
    let s1 := { s with twn := { s.twn with expiry := some e, maxEpoch := epoch } }.wr64 Reg.TWN_LEASE_EPOCH_LO_E Reg.TWN_LEASE_EPOCH_HI_E epoch
    ((s1.setRole roleHolder).makeClaim)
  else { s with twn := { s.twn with ignoredGrants := s.twn.ignoredGrants + 1 } }

/-- The always-on tick whose low 32 bits TWN_LKO_MARK holds. -/
def State.markTick (s : State) : Nat := s.ticks - sub32 (s.ticks % 2 ^ 32) (s.rd Reg.TWN_LKO_MARK_TICKS)

/-- The lease is lost: the card is FENCED, and TWIN_LEASE_LOST is raised (Table 15.5). -/
def State.loseLease (s : State) : State := if s.role = roleHolder then (s.endLease roleFenced stFenced).twinEvent 0x2C03 0 else s

/-! ### The Lookout (R426-R430) -/

/-- The card ID (R419). -/
def State.cardId (s : State) : Nat := s.twn.pairId * 2 + s.rd Reg.TWN_CTL_SIDE_B

/-- Is a partner lane UP? -/
def State.laneUp (s : State) (l : Nat) : Bool := s.rd (Reg.LNQ_SRX_STAT_STATE l) == 3

/-- Is an event of class DEGRADED or above present, other than TWIN_PARTNER_FAIL (R443)? -/
def State.degraded (s : State) : Bool := s.flt.uncleared.any fun e => e.active && decide (3 ≤ e.cls) && e.code != 0x2C01

/-- Is the card HEALTHY (R443)? -/
def State.healthy (s : State) : Bool :=
  s.flag Reg.TWN_STAT_LKO_OK && s.laneUp s.twn.lane0 && s.laneUp s.twn.lane1 &&
    (s.rd Reg.TWN_STAT_RESYNC == 5 || s.role == roleHolder) &&
    (match s.twn.divergeAt with
     | some t => decide (t + 10 ^ 9 ≤ s.now)
     | none => true) && !s.degraded

/-- What the lease timer has left, in µs; 0 when there is no timed lease. -/
def State.leaseLeft (s : State) : Nat :=
  match s.twn.expiry with
  | some e => (e - s.ticks) / 48
  | none => 0

/-- The Lookout message of a type and epoch (Table 15.4). -/
def State.lookoutMessage (s : State) (type epoch nonce : Nat) : List Byte :=
  let fl := s.rd Reg.TWN_CTL_HOME + 2 * b01 s.healthy + 4 * b01 s.partnerPresent + 8 * b01 (s.partnerPresent && s.twn.partner.role == roleHolder)
  let b := be16 0x4C4B ++ be8 1 ++ be8 type ++ be16 s.cardId ++ be16 fl ++ be64 epoch ++ be64 nonce ++ be32 0 ++ be16 0 ++ zeros 18
  b ++ beBytes 16 (Config.cmac s.twn.lookKey b).toNat

/-- The last request stays unanswered when the next one goes; at three in a row the Lookout is unreachable (R428). -/
def State.countUnanswered (s : State) : State :=
  match s.twn.recent with
  | [] => s
  | r :: _ =>
    if r.answered then s
    else
      let s1 := { s with twn := { s.twn with unanswered := s.twn.unanswered + 1, unansweredRun := s.twn.unansweredRun + 1 } }
      if 3 ≤ s1.twn.unansweredRun then (s1.wr Reg.TWN_STAT_LKO_OK 0).twinEvent 0x2C05 0 else s1

/-- A Lookout message leaves on both planes: it enters Q5 of management port 0 for the plane A address and of port 1 for the plane B address
(R218, R426). -/
def State.lookoutOut (s : State) (b : List Byte) : State :=
  ({ s with sent := .lookout b :: s.sent }.sendDatagram 0 s.twn.addrA 7212 s.twn.lookPort b).sendDatagram 1 s.twn.addrB 7212 s.twn.lookPort b

/-- Send a request on both management ports, with the mark captured (R426, R429). Without a valid Lookout key it is not sent, and
stays unanswered (R421). -/
def State.lookoutSend (s0 : State) (type : Nat) : State :=
  let s := s0.countUnanswered
  let n := s.twn.requests + 1
  let epoch : Nat := if type = 1 then 0 else s.leaseEpoch
  let r : LookoutReq := ⟨n, s.ticks, type, s.now, false⟩
  let s1 := { s with twn := { s.twn with requests := n, recent := (r :: s.twn.recent).take 8 } }.wr Reg.TWN_LKO_MARK_TICKS s.ticks
  if s.lookKeyOk then s1.lookoutOut (s.lookoutMessage type epoch n) else s1

/-- When the next request is due (R428); none while LKO_FENCE_N is low or twin operation is off. -/
def State.requestDue (s : State) : Option Nat :=
  let last := (s.twn.recent.head?.map fun (r : LookoutReq) => r.sentAt).getD 0
  let answered := (s.twn.recent.head?.map fun (r : LookoutReq) => r.answered).getD true
  if !s.twinOn ∨ s.flag Reg.TWN_STAT_FENCE_PIN then none
  else if s.role = roleHolder then some (if answered then s.twn.lastGrantReq + s.twn.renewMs * 10 ^ 6 else last + 5 * 10 ^ 6)
  else if s.twn.recent.isEmpty then some s.now
  else if !s.partnerPresent ∨ s.twn.partner.role ≠ roleHolder then some (last + 5 * 10 ^ 6)
  else some (last + 10 ^ 9)

/-- LOOKOUT_REQUEST_SEND (R428). -/
def execLookoutRequestSend (dt : Nat) (s : State) : Host.Outcome State Fault Refusal :=
  let s1 := s.elapse dt
  .next (match s1.requestDue with
    | none => s1
    | some t => if t ≤ s1.now ∧ s1.domOn 1 then (s1.lookoutSend (if s1.role = roleHolder then 2 else 1)).lateLeaseWaits else s1)

/-- The holder releases its lease: waiting class C commands are answered LEASE_NOT_HELD, and RELEASE is sent (R441). -/
def State.releaseLease (s : State) : State :=
  if s.role = roleHolder then (s.lookoutSend 3).endLease roleStandby stLeaseNotHeld else s

/-- The request that a reply answers: one of the last 8, with the reply's Nonce. -/
def State.requestOf (s : State) (nonce : Nat) : Option LookoutReq := s.twn.recent.find? fun r => r.nonce == nonce

/-- Is a Lookout reply valid (R426)? -/
def State.replyValid (s : State) (b : List Byte) : Bool :=
  s.twinOn && s.lookKeyOk && b.length == 64 && u16 b 0 == 0x4C4B && u8 b 2 == 1 && decide (0x81 ≤ u8 b 3 ∧ u8 b 3 ≤ 0x83) &&
    u16 b 4 == s.cardId && (s.requestOf (u64 b 16)).isSome && b.drop 48 == beBytes 16 (Config.cmac s.twn.lookKey (b.take 48)).toNat

/-- A request is answered: reachability, round trip (R428, R443). -/
def State.requestAnswered (s : State) (r : LookoutReq) : State :=
  let rs := s.twn.recent.map fun (x : LookoutReq) => if x.nonce = r.nonce then { x with answered := true } else x
  let s1 := { s with twn := { s.twn with recent := rs, unansweredRun := 0, lookoutRtt := (s.now - r.sentAt) / 1000 } }
  let s2 := if s.now ≤ r.sentAt + 5 * 10 ^ 6 then s1.wr Reg.TWN_STAT_LKO_OK 1 else s1
  s2.endCause 0x2C05 srcTwin 0

/-- A valid GRANT: while LKO_FENCE_N is low it is answered with RELEASE, else the timer is armed with the lesser validity. -/
def State.takeGrant (s : State) (r : LookoutReq) (b : List Byte) : State :=
  if s.flag Reg.TWN_STAT_FENCE_PIN then
    let n := s.twn.requests + 1
    let rec1 : LookoutReq := ⟨n, s.ticks, 3, s.now, false⟩
    let s0 : State := { s with twn := { s.twn with requests := n, recent := (rec1 :: s.twn.recent).take 8 } }
    let s1 : State := s0.wr Reg.TWN_LKO_MARK_TICKS s.ticks
    s1.lookoutOut (s.lookoutMessage 3 (u64 b 8) n)
  else { s with twn := { s.twn with lastGrantReq := r.sentAt } }.armLease r.mark (min (u32 b 24) s.twn.validityMs) (u64 b 8)

/-- A DENY: it ends the lease when it answers a RENEW, and a FENCED card becomes STANDBY (Table 15.5). -/
def State.takeDeny (s : State) (r : LookoutReq) : State :=
  if s.role = roleHolder ∧ r.type = 2 then s.loseLease
  else if s.role = roleFenced ∧ !s.flag Reg.TWN_STAT_FENCE_PIN then s.setRole roleStandby else s

/-- LOOKOUT_REPLY_RECEIVE (R426, R429, R433): the first valid reply answers its request. -/
def execLookoutReplyReceive (dt : Nat) (bytes : List Byte) (s : State) : Host.Outcome State Fault Refusal :=
  let s1 := s.elapse dt
  .next (match s1.requestOf (u64 bytes 16) with
    | none => s1
    | some r =>
      if !s1.replyValid bytes ∨ r.answered ∨ !s1.domOn 1 then s1
      else
        let s2 := s1.requestAnswered r
        if u8 bytes 3 = 0x81 then s2.takeGrant r bytes else if u8 bytes 3 = 0x82 then s2.takeDeny r else s2)

/-- LEASE_EXPIRY (R429): the lease timer reaches its expiry. -/
def execLeaseExpiry (dt : Nat) (s : State) : Host.Outcome State Fault Refusal :=
  let s1 := s.elapse dt
  .next (match s1.twn.expiry with
    | some e => if e ≤ s1.ticks then s1.loseLease else s1
    | none => s1)

/-- LKO_FENCE_LOW (R432, R433): the lease ends, and the gates apply; a SOLO card stays SOLO. -/
def execLkoFenceLow (dt : Nat) (s : State) : Host.Outcome State Fault Refusal :=
  let s1 := ((s.elapse dt).wr Reg.TWN_STAT_FENCE_PIN 1).twinEvent 0x2C04 0
  .next (if s1.role = roleStandby ∨ s1.role = roleHolder then s1.endLease roleFenced stFenced else s1.leaseGates.dropQueued stFenced)

/-- LKO_FENCE_HIGH (R432, R447). -/
def execLkoFenceHigh (dt : Nat) (s : State) : Host.Outcome State Fault Refusal :=
  .next ((((s.elapse dt).wr Reg.TWN_STAT_FENCE_PIN 0).endCause 0x2C04 srcTwin 0).leaseGates)

/-- TWN_LEASE_ARM.GO as the timer sees it: V and epoch from the registers, the mark of the last request (R429). -/
def State.leaseArmGo (s : State) (v : Nat) : State :=
  s.armLease s.markTick v (s.rd64 Reg.TWN_ARM_EPOCH_LO_E Reg.TWN_ARM_EPOCH_HI_E)

/-! ### Heartbeats and the partner state (R424, R425) -/

/-- Flags of Table 15.2. -/
def State.twinFlags (s : State) : Nat :=
  s.rd Reg.TWN_CTL_HOME + 2 * b01 s.healthy + 4 * b01 (s.twn.claim != 0) + 8 * b01 (s.twn.claim != 0) + 16 * s.rd Reg.TIM_STAT_TIME_VALID +
    32 * s.rd Reg.TWN_STAT_LKO_OK + 64 * s.rd Reg.TWN_STAT_FENCE_PIN + 128 * b01 (s.rd Reg.TWN_STAT_RESYNC == 5)

/-- HEARTBEAT body (Table 15.2). -/
def State.heartbeat (s : State) (count : Nat) : List Byte :=
  be16 s.cardId ++ be8 s.role ++ be8 s.twinFlags ++ be32 count ++ be64 s.leaseEpoch ++ be32 s.leaseLeft ++ be32 (s.rd Reg.TWN_GEN_GEN) ++
    be64 s.twn.claim ++ be8 (s.rd Reg.TIM_STAT_SEL) ++ be8 (s.rd Reg.TWN_STAT_RESYNC) ++ zeros 6

/-- Send a twin message on one lane, ahead of what waits there (R424). -/
def State.twinSendOn (s : State) (l type : Nat) (body : List Byte) : State :=
  if !s.pairKeyOk then s
  else
    let n := s.twn.seqSent + 1
    let b := be8 type ++ be8 0 ++ be16 body.length ++ be32 n ++ body
    let m := b ++ beBytes 16 (Config.cmac s.twn.pairKey b).toNat
    { s with twn := { s.twn with seqSent := n }, sent := .twin 2 m :: s.sent }.modLane l fun x =>
      { x with msgQueue := ⟨2, x.nextMsg, 0, m⟩ :: x.msgQueue, nextMsg := (x.nextMsg + 1) % 2 ^ 32 }

/-- HEARTBEAT_SEND (R424): at an even superframe, on each UP partner lane. -/
def execHeartbeatSend (dt : Nat) (s : State) : Host.Outcome State Fault Refusal :=
  let s1 := s.elapse dt
  .next (if !s1.twinOn ∨ !s1.domOn 1 ∨ s1.chrono / 125000 % 2 = 1 then s1
    else
      let n := s1.twn.hbCount + 1
      let body := s1.heartbeat n
      ([s1.twn.lane0, s1.twn.lane1].filter s1.laneUp).foldl (fun t l => t.twinSendOn l 1 body) { s1 with twn := { s1.twn with hbCount := n } })

/-- The revert conditions of the home card hold, or the hold-off starts anew (R441). -/
def State.noteRevert (s : State) : State :=
  let ok := s.twinOn && s.flag Reg.TWN_CTL_HOME && s.role == roleStandby && s.rd Reg.TWN_STAT_RESYNC == 5 && s.healthy &&
    s.partnerPresent && s.twn.partner.role == roleHolder
  { s with twn := { s.twn with revertSince := if ok then some (s.twn.revertSince.getD s.now) else none } }

/-- A non-holder whose holder reports a higher pair generation notes since when (R436). -/
def State.noteGap (s : State) : State :=
  let gap := s.compares && s.partnerPresent && s.twn.partner.role == roleHolder && decide (s.rd Reg.TWN_GEN_GEN < s.rd Reg.TWN_PGEN_GEN)
  { s with twn := { s.twn with gapSince := if gap then some (s.twn.gapSince.getD s.now) else none } }

/-- APPLY ends when the pair generation equals the holder's (Table 15.8). -/
def State.tryConverge (s : State) : State :=
  if s.rd Reg.TWN_STAT_RESYNC = 3 ∧ s.rd Reg.TWN_GEN_GEN = s.rd Reg.TWN_PGEN_GEN then
    { s with twn := { s.twn with convergeAt := s.now } }.wr Reg.TWN_STAT_RESYNC 4
  else s

/-- HEARTBEAT_RECEIVE (R422, R425). -/
def execHeartbeatReceive (dt : Nat) (bytes : List Byte) (s : State) : Host.Outcome State Fault Refusal :=
  let r := (s.elapse dt).twinTake 1 bytes
  .next (match r.2 with
    | none => r.1
    | some b =>
      let s1 := r.1
      if b.length ≠ 40 ∨ u16 b 0 ≠ s1.twn.pairId * 2 + (1 - s1.rd Reg.TWN_CTL_SIDE_B) ∨ u32 b 4 ≤ s1.twn.hbAccepted then s1
      else
        let was := s1.twn.partner.role
        let v : PartnerView := ⟨u16 b 0, u8 b 2, u8 b 3, u64 b 8, u64 b 24, u8 b 32, u8 b 33⟩
        let s2 := { s1 with twn := { s1.twn with hbAccepted := u32 b 4, hbSeen := true, partner := v } }.wr Reg.TWN_PGEN_GEN (u32 b 20)
        let s3 := ((((s2.claimConflict).makeClaim).noteGap).tryConverge).noteRevert
        if was = roleHolder ∧ v.role = roleStandby ∧ s3.flag Reg.TWN_CTL_HOME ∧ s3.role = roleStandby ∧ !s3.flag Reg.TWN_STAT_FENCE_PIN
        then s3.lookoutSend 1 else s3)

/-- The partner becomes PRESENT (R425, R438, R445). -/
def State.partnerComes (s : State) : State :=
  let s1 := (((s.wr Reg.TWN_STAT_PARTNER 1).endCause 0x2C01 srcTwin 0).claimConflict).makeClaim
  if s1.flag Reg.TWN_CTL_AUTO_RESYNC then s1.startResync else s1

/-- TWIN_LANE_DOWN while one partner lane is not UP and the other is; its cause ends when both are UP (R425, R447). -/
def State.laneCheck (s : State) : State :=
  let a := s.laneUp s.twn.lane0
  let b := s.laneUp s.twn.lane1
  if a && b then (s.endCause 0x2C02 srcTwin s.twn.lane0).endCause 0x2C02 srcTwin s.twn.lane1
  else if a then s.raise 0x2C02 srcTwin s.twn.lane1 else if b then s.raise 0x2C02 srcTwin s.twn.lane0 else s

/-- The partner state after an interval with or without a valid heartbeat (Table 15.3). -/
def State.partnerInterval (s : State) : State :=
  let seen := s.twn.hbSeen
  let t := { s.twn with
    hbSeen := false
    missedRun := if seen then 0 else s.twn.missedRun + 1
    validRun := if seen then s.twn.validRun + 1 else 0 }
  let s1 := if seen then { s with twn := t } else { s with twn := t }.bump Reg.TWN_HB_MISSED_COUNT 1
  if s1.partnerPresent then
    if 4 ≤ t.missedRun then (((s1.wr Reg.TWN_STAT_PARTNER 2).raise 0x2C01 srcTwin 0).makeClaim) else s1
  else if 16 ≤ t.validRun then s1.partnerComes else s1

/-- HEARTBEAT_INTERVAL_END (R425): a 250 µs interval ends. -/
def execHeartbeatIntervalEnd (dt : Nat) (s : State) : Host.Outcome State Fault Refusal :=
  let s1 := s.elapse dt
  .next (if !s1.twinOn ∨ !s1.domOn 1 then s1
    else
      let s2 := s1.partnerInterval.laneCheck
      let s3 := if s2.twn.resyncWanted then s2.startResync else s2
      (s3.noteRevert).lateLeaseWaits)

/-! ### Checks on the partner (R442, R443) -/

/-- Insert a hash by ascending slot. -/
def insertHash (x : HashRec) : List HashRec → List HashRec
  | [] => [x]
  | y :: r => if x.slot < y.slot then x :: y :: r else y :: insertHash x r

/-- The hash of a frame: the register closed with the frame count (R442). -/
def HashRec.value (r : HashRec) : Nat :=
  ((be64 r.frame).foldl (crcByte 0xC96C5795D7870F42#64) r.crc ^^^ 0xFFFFFFFFFFFFFFFF#64).toNat

/-- OUTHASH bodies of a generator and frame, at most 678 entries each (Table 15.6); fuel bounds the parts. -/
def outhashBodies (g frame : Nat) : Nat → Nat → List HashRec → List (List Byte)
  | 0, _, _ => []
  | n + 1, part, rs =>
    if rs.isEmpty then []
    else
      let now := rs.take 678
      let rest := rs.drop 678
      (be8 g ++ be8 (b01 rest.isEmpty) ++ be16 0 ++ be64 frame ++ be16 now.length ++ be16 part ++
        now.flatMap fun r => be16 r.slot ++ be16 r.flags ++ be64 r.value) :: outhashBodies g frame n (part + 1) rest

/-- OUTHASH_SEND (R442): the holder's hashes of the frame that the last Meridian of a generator ended. -/
def execOuthashSend (dt g : Nat) (s : State) : Host.Outcome State Fault Refusal :=
  let s1 := s.elapse dt
  .next (if !s1.twinOn ∨ s1.role ≠ roleHolder ∨ 16 ≤ g ∨ !s1.genOn g ∨ !s1.domOn 1 then s1
    else
      let frame := frameAt (s1.genN g) (s1.genD g) s1.chrono - 1
      let rs := (s1.twn.hashes.filter fun r => r.gen == g && r.frame == frame).foldl (fun l r => insertHash r l) []
      let s2 := { s1 with twn := { s1.twn with hashes := s1.twn.hashes.filter fun r => !(r.gen == g && decide (r.frame ≤ frame)) } }
      (outhashBodies g frame 10 0 rs).foldl (fun t b => t.twinSend 3 b) s2)

/-- One hash of the holder against the own one: a mismatch is counted and TWIN_DIVERGE raised (R442). -/
def State.compareHash (s : State) (g frame slot hash : Nat) : State :=
  match s.twn.hashes.find? fun r => r.gen == g && r.frame == frame && r.slot == slot with
  | none => s
  | some r =>
    let s1 := { s with twn := { s.twn with hashes := s.twn.hashes.filter fun x => x != r } }
    if r.value = hash then s1
    else ({ s1 with twn := { s1.twn with outDivSec := s1.twn.outDivSec + 1 } }.bump Reg.TWN_OUT_DIVERGE_COUNT 1).twinDiverge slot

/-- OUTHASH_RECEIVE (R442). -/
def execOuthashReceive (dt : Nat) (bytes : List Byte) (s : State) : Host.Outcome State Fault Refusal :=
  let r := (s.elapse dt).twinTake 3 bytes
  .next (match r.2 with
    | none => r.1
    | some b =>
      let s1 := r.1
      let g := u8 b 0
      if !s1.compares ∨ 16 ≤ g then s1
      else
        let s2 := s1.pruneHashes g (frameAt (s1.genN g) (s1.genD g) s1.chrono)
        (List.range (min (u16 b 12) ((b.length - 16) / 12))).foldl (fun t i =>
          t.compareHash g (u64 b 4) (u16 b (16 + 12 * i)) (u64 b (20 + 12 * i))) s2)

/-- The highest class of uncleared events (Table 15.7). -/
def State.highestClass (s : State) : Nat := (s.flt.uncleared.map fun (e : Event) => e.cls).foldl max 0

/-- Lowest FOM of the partner lanes over the windows kept. -/
def State.partnerFom (s : State) : Nat :=
  ([s.twn.lane0, s.twn.lane1].flatMap fun l => s.rd (Reg.LNQ_FOM_FOM l) :: (s.lane l).foms).foldl min 255

/-- HEALTH body (Table 15.7). -/
def State.health (s : State) : List Byte :=
  be16 s.cardId ++ be8 s.role ++ be8 s.twinFlags ++ be32 ((s.now - s.pwr.resetAt) / 10 ^ 9) ++ be32 s.twn.outDivSec ++ be32 s.twn.rowDivSec ++
    be16 ((s.cru.above.head?.map fun (x : Nat × Nat) => x.1).getD 0) ++ be8 s.highestClass ++ be8 s.partnerFom ++
    be32 (s.rd Reg.TWN_BIST_PASS_COUNT) ++ be32 (s.rd Reg.TWN_BIST_FAIL_COUNT) ++ be32 s.twn.lookoutRtt

/-- HEALTH_SEND (R443): at each whole second of Chronograph time. -/
def execHealthSend (dt : Nat) (s : State) : Host.Outcome State Fault Refusal :=
  let s1 := s.elapse dt
  .next (if !s1.twinOn ∨ !s1.domOn 1 then s1
    else
      let h := s1.health
      { s1 with twn := { s1.twn with healthSent := h, outDivSec := 0, rowDivSec := 0 } }.twinSend 4 h)

/-- HEALTH_RECEIVE (R443). -/
def execHealthReceive (dt : Nat) (bytes : List Byte) (s : State) : Host.Outcome State Fault Refusal :=
  let r := (s.elapse dt).twinTake 4 bytes
  .next (match r.2 with
    | none => r.1
    | some b => { r.1 with twn := { r.1.twn with healthSeen := b } })

/-- MIRROR_REPLY_RECEIVE (R437): an answer on session 0xFFFF whose status is neither OK nor ACCEPTED_PENDING is counted. -/
def execMirrorReplyReceive (dt : Nat) (bytes : List Byte) (s : State) : Host.Outcome State Fault Refusal :=
  let s1 := s.elapse dt
  let n := u16 bytes 18
  let ok := s1.twinOn && s1.role == roleHolder && s1.pairKeyOk && bytes.length == 40 + n && u16 bytes 0 == 0x4358 && bit (u8 bytes 3) 1 &&
    u16 bytes 16 == 0xFFFF && u32 bytes 20 == (crc32c (bytes.take 20)).toNat &&
    bytes.drop (24 + n) == beBytes 16 (Config.cmac s1.twn.pairKey (bytes.take (24 + n))).toNat
  .next (if ok && decide (2 ≤ u16 bytes 6) then { s1 with twn := { s1.twn with mirrorErrors := s1.twn.mirrorErrors + 1 } } else s1)

/-! ### Return of the lease (R441) -/

/-- REVERT_HOLDOFF_EXPIRY (R441): the conditions have held for the hold-off. -/
def execRevertHoldoffExpiry (dt : Nat) (s : State) : Host.Outcome State Fault Refusal :=
  let s1 := (s.elapse dt).noteRevert
  .next (match s1.twn.revertSince with
    | some t => if t + s1.twn.holdoffS * 10 ^ 9 ≤ s1.now then
        { s1 with twn := { s1.twn with revertSince := some s1.now } }.twinSend 6 [] else s1
    | none => s1)

/-- REVERT_RECEIVE (R441): a holder that is not the home card releases the lease. -/
def execRevertReceive (dt : Nat) (bytes : List Byte) (s : State) : Host.Outcome State Fault Refusal :=
  let r := (s.elapse dt).twinTake 6 bytes
  .next (if r.2.isSome ∧ !r.1.flag Reg.TWN_CTL_HOME then r.1.releaseLease else r.1)

/-! ### Resynchronisation (R436, R445) -/

/-- Is a snapshot being asked, transferred or applied? -/
def State.resyncing (s : State) : Bool := decide (1 ≤ s.rd Reg.TWN_STAT_RESYNC ∧ s.rd Reg.TWN_STAT_RESYNC ≤ 3)

/-- TWIN_GEN_GAP (R436): the holder has reported a higher pair generation for 2 ms. -/
def execTwinGenGap (dt : Nat) (s : State) : Host.Outcome State Fault Refusal :=
  let s1 := (s.elapse dt).noteGap
  .next (match s1.twn.gapSince with
    | some t => if t + 2 * 10 ^ 6 ≤ s1.now ∧ !s1.resyncing ∧ s1.rd Reg.TWN_STAT_RESYNC ≠ 6 then (s1.raise 0x2C07 srcTwin 0).startResync else s1
    | none => s1)

/-- RESYNC_CONVERGE_END (R445): a second without divergence. -/
def execResyncConvergeEnd (dt : Nat) (s : State) : Host.Outcome State Fault Refusal :=
  let s1 := s.elapse dt
  .next (if s1.rd Reg.TWN_STAT_RESYNC = 4 ∧ s1.twn.convergeAt + 10 ^ 9 ≤ s1.now ∧ !s1.enc.chans.any s1.diverged
    then (s1.wr Reg.TWN_STAT_RESYNC 5).endWait (.object 17 0) stOk else s1)

/-- TWIN_RESYNC_FAIL (R445): REQUEST to APPLY took over 60 s. -/
def execTwinResyncFail (dt : Nat) (s : State) : Host.Outcome State Fault Refusal :=
  let s1 := s.elapse dt
  .next (if s1.resyncing ∧ s1.twn.resyncAt + 60 * 10 ^ 9 < s1.now then s1.resyncFail else s1)

/-- RESYNC_RETRY (R445): 10 s after a failure, with AUTO_RESYNC. -/
def execResyncRetry (dt : Nat) (s : State) : Host.Outcome State Fault Refusal :=
  let s1 := s.elapse dt
  .next (if s1.rd Reg.TWN_STAT_RESYNC = 6 ∧ s1.flag Reg.TWN_CTL_AUTO_RESYNC ∧ s1.twn.resyncAt + 10 ^ 10 ≤ s1.now then s1.startResync else s1)

/-! ### Background tests (R444) -/

/-- The key range of a 1 MiB channel block, and its stripe of a set as offsets. -/
def blockKey (b : Nat) : Nat := b * 2 ^ 20

/-- Is a DRAM block outside every buffer, reserve, masked segment and protected region (R444)? -/
def State.blockIdle (s : State) (b : Nat) : Bool :=
  let ch := b / 4096
  match s.setOfChannel ch with
  | none => s.isReady 0x12 ch
  | some n =>
    let c := s.rd (Reg.MEM_SET_CTL_COUNT n)
    let lo := b % 4096 * c * 2 ^ 20
    let hi := lo + c * 2 ^ 20
    let base := s.setBase n
    s.isReady 0x12 ch && decide (b % 4096 * 2 ^ 20 + 2 ^ 20 ≤ s.channelBytes) && ((s.setClosed n).all fun r => decide (r.2 ≤ lo ∨ hi ≤ r.1)) &&
      ((s.mem.bufs.filter fun x => x.set == n).all fun (x : Buffer) => decide (x.off + x.size ≤ lo ∨ hi ≤ x.off)) &&
      (List.range 32).all fun r => !s.regionOn r || decide (base + hi ≤ s.regionBase r ∨ s.regionBase r + s.regionSize r ≤ base + lo)

/-- May a unit be tested: kind 0 an encoder engine, 1 a pixel engine, 2 a DRAM block; idle, and alone in its cluster? -/
def State.testable (s : State) (kind i : Nat) : Bool :=
  let alone := fun (n : Nat) => !s.twn.testing.any fun t => t.1.1 == kind && t.1.2 / n == i / n
  if kind = 0 then s.encFree.contains i && decide (up s.xsDemand 663552000 + (s.twn.testing.filter fun t => t.1.1 == 0).length < s.encFree.length) && alone 8
  else if kind = 1 then s.isReady 0x17 i && !s.heldEngines.contains i && !s.twn.failed.contains (1, i) && alone 16
  else kind == 2 && s.blockIdle i && !s.twn.failed.contains (2, i) && alone 4096

/-- BIST_TEST_START (R444). -/
def execBistTestStart (dt kind i : Nat) (s : State) : Host.Outcome State Fault Refusal :=
  let s1 := s.elapse dt
  let last := (s1.twn.tested.find? fun t => t.1 == (kind, i)).map fun (t : (Nat × Nat) × Nat) => t.2
  let due : Bool := match last with
    | some t => decide (t + s1.rd Reg.TWN_BIST_PERIOD_S * 10 ^ 9 ≤ s1.now)
    | none => true
  .next (if (s1.role = roleStandby ∨ s1.role = roleFenced) ∧ s1.flag Reg.TWN_BIST_EN ∧ s1.testable kind i ∧ due ∧ s1.domOn 1 then
      { s1 with twn := { s1.twn with
          testing := ((kind, i), s1.now) :: s1.twn.testing
          tested := ((kind, i), s1.now) :: s1.twn.tested.filter fun t => t.1 != (kind, i) } }
    else s1)

/-- Has a unit under test been given work meanwhile, so that its test was abandoned (R444)? -/
def State.testLost (s : State) (kind i : Nat) : Bool :=
  if kind = 0 then s.encHeld.contains i else if kind = 1 then s.heldEngines.contains i else !s.blockIdle i

/-- BIST_TEST_DONE (R444). A tested DRAM block no longer holds what it held. -/
def execBistTestDone (dt kind i : Nat) (pass : Bool) (s : State) : Host.Outcome State Fault Refusal :=
  let s1 := s.elapse dt
  .next (if !s1.twn.testing.any fun t => t.1 == (kind, i) then s1
    else
      let s2 := { s1 with twn := { s1.twn with testing := s1.twn.testing.filter fun t => t.1 != (kind, i) } }
      if s1.testLost kind i then s2
      else
        let s3 := if kind = 2 then s2.loseDram (blockKey i) (blockKey (i + 1)) else s2
        if pass then s3.bump Reg.TWN_BIST_PASS_COUNT 1
        else ({ s3 with twn := { s3.twn with failed := (kind, i) :: s3.twn.failed } }.bump Reg.TWN_BIST_FAIL_COUNT 1).raise 0x2C0A srcTwin i)

/-! ### TWN_CONFIG (R419-R421, R448) -/

/-- The partner lane that a byte names; 0xFF selects the default. -/
def laneField (v dflt : Nat) : Nat := if v = 0xFF then dflt else v

/-- A field that 0 sets to its default. -/
def dflt (v d : Nat) : Nat := if v = 0 then d else v

/-- A partner lane runs in Stave mode, both directions enabled, slot masks 0, PARTNER set (R420). -/
def State.takePartnerLane (s : State) (l : Nat) : State :=
  let new := s.laneMode l != 1 || !s.flag (Reg.LNQ_LCFG_TX_EN l) || !s.flag (Reg.LNQ_LCFG_RX_EN l)
  let s0 := s.formKr1 l 1 true
  let s1 := ((((s0.wr (Reg.LNQ_LCFG_MODE l) 1).wr (Reg.LNQ_LCFG_TX_EN l) 1).wr (Reg.LNQ_LCFG_RX_EN l) 1).wr (Reg.LNQ_STX_CTL_EN l) 1).wr
    (Reg.LNQ_STX_CTL_PARTNER l) 1
  let s2 := if new then (s1.coldRx l).setTxReady l false else s1
  ((s2.requestSleep l true 0).requestSleep l false 0).refreshLane l

/-- The registers and fields that TWN_CONFIG sets whether or not it changes ENABLE. -/
def State.twinSettings (s : State) (p : List Byte) : State :=
  let v := dflt (u16 p 44) 100
  let s1 := { s with twn := { s.twn with
    pairId := u16 p 2
    lane0 := laneField (u8 p 4) 126
    lane1 := laneField (u8 p 5) 127
    pairSlot := u16 p 6
    lookSlot := u16 p 8
    lookPort := dflt (u16 p 10) 7212
    addrA := beNat (bytesAt p 12 16)
    addrB := beNat (bytesAt p 28 16)
    validityMs := v
    renewMs := dflt (u16 p 46) 25
    holdoffS := dflt (u16 p 48) 30 } }
  let fl := u8 p 0
  let s2 := ((s1.wr Reg.TWN_CTL_SIDE_B (b01 (bit fl 0 && bit fl 1))).wr Reg.TWN_CTL_HOME (b01 (bit fl 2))).wr Reg.TWN_CTL_AUTO_RESYNC (b01 (bit fl 3))
  let s3 := if s2.flag Reg.TWN_LOCK_LOCK then s2 else s2.wr64 Reg.TWN_TALLY_MASK_LO_MASK Reg.TWN_TALLY_MASK_HI_MASK (u64 p 52)
  s3.storeChanged

/-- Twin operation starts: STANDBY, the lease dropped, the partner ABSENT, the twin messages counted anew (R419, Table 15.5). -/
def State.twinStart (s : State) : State :=
  let s1 := ((s.wr Reg.TWN_CTL_EN 1).formPairKey).formLookKey
  let s2 := { s1 with twn := { s1.twn with
    hbCount := 0, hbAccepted := 0, hbSeen := false, missedRun := 0, validRun := 0, seqSent := 0, seqAccepted := 0
    partner := ⟨0, 0, 0, 0, 0, 0, 0⟩, hashes := [], resyncWanted := false, mirrorQueue := [] } }
  let s3 := ((s2.wr Reg.TWN_STAT_PARTNER 0).wr Reg.TWN_STAT_RESYNC 0).setClaim 0
  ((s3.takePartnerLane s3.twn.lane0).takePartnerLane s3.twn.lane1).endLease roleStandby stLeaseNotHeld

/-- Twin operation ends: a HOLDER sends RELEASE, and the card is SOLO (R419, Table 15.5). -/
def State.twinStop (s : State) : State :=
  let s1 := if s.role = roleHolder then s.lookoutSend 3 else s
  let s2 := ([0x2C01, 0x2C03, 0x2C05, 0x2C0B] : List Nat).foldl (fun t c => t.endCause c srcTwin 0) s1
  let s3 := [s.twn.lane0, s.twn.lane1].foldl (fun t l => (t.wr (Reg.LNQ_STX_CTL_PARTNER l) 0).endCause 0x2C02 srcTwin l) s2
  let s4 := (((s3.wr Reg.TWN_CTL_EN 0).wr Reg.TWN_STAT_PARTNER 0).wr Reg.TWN_STAT_RESYNC 0).wr Reg.TWN_CTL_SIDE_B 0
  let s5 := { s4 with twn := { s4.twn with expiry := none, hashes := [], testing := [], mirrorQueue := [], resyncWanted := false } }.setClaim 0
  ((s5.wr64 Reg.TWN_LEASE_EPOCH_LO_E Reg.TWN_LEASE_EPOCH_HI_E 0).wr Reg.TWN_STAT_LKO_OK 0).setRole roleSolo

/-- Does a lane lie in an Ethernet port of more than one lane? -/
def State.inWidePort (s : State) (l : Nat) : Bool := (s.portOfLane l).any fun x => decide (1 < x.2)

/-- TWN_CONFIG (R448). With ENABLE clear the lanes that it names need not be there: it stores them and addresses none (R3, R420; DESIGN CHOICE,
log entry 126). -/
def opTwnConfig : OpSpec where
  code := 0x0B00
  cls := .l
  keys := false
  length p := p.length == 64
  fields s p :=
    let fl := u8 p 0
    let on := s.twinOn && bit fl 0
    let same := fun (b : Bool) => !on || b
    let l0 := laneField (u8 p 4) 126
    let l1 := laneField (u8 p 5) 127
    let v := dflt (u16 p 44) 100
    let lane := fun (l : Nat) => decide (l < 128) && (on || !bit fl 0 || (!s.laneActive l && !s.inWidePort l))
    [(0, decide (fl < 16) && same (bit fl 1 == s.flag Reg.TWN_CTL_SIDE_B)), (1, zeroAt p 1 1),
     (2, decide (1 ≤ u16 p 2 ∧ u16 p 2 ≤ 32767) && same (u16 p 2 == s.twn.pairId)),
     (4, lane l0 && same (l0 == s.twn.lane0)), (5, lane l1 && l1 != l0 && same (l1 == s.twn.lane1)),
     (6, (!bit fl 0 || s.slotStatus (u16 p 6) .twin != stBadParam) && same (u16 p 6 == s.twn.pairSlot)),
     (8, (!bit fl 0 || s.slotStatus (u16 p 8) .lookout != stBadParam) && same (u16 p 8 == s.twn.lookSlot)),
     (44, decide (20 ≤ v ∧ v ≤ 1000)), (46, decide (5 ≤ dflt (u16 p 46) 25 ∧ 2 * dflt (u16 p 46) 25 ≤ v)),
     (48, decide (dflt (u16 p 48) 30 ≤ 3600)), (50, zeroAt p 50 2), (60, zeroAt p 60 4)]
  units _ p := if bit (u8 p 0) 0 then [(5, 0), (0x11, laneField (u8 p 4) 126), (0x11, laneField (u8 p 5) 127)] else []
  locked _ _ := false
  cruise := false
  run s _ p :=
    if bit (u8 p 0) 0 then
      if s.slotStatus (u16 p 6) .twin = stKeyRevoked then Done.err s stKeyRevoked 30
      else if s.slotStatus (u16 p 8) .lookout = stKeyRevoked then Done.err s stKeyRevoked 32
      else if s.twinOn then Done.ok (s.twinSettings p) []
      else Done.ok (s.twinSettings p).twinStart []
    else if s.twinOn then Done.ok (s.twinStop.twinSettings p) []
    else Done.ok (s.twinSettings p) []

/-! ### TWN_STATUS, TWN_LEASE_REQUEST, TWN_RESYNC (R449-R451) -/

/-- TWN_STATUS (R449). -/
def opTwnStatus : OpSpec where
  code := 0x0B01
  cls := .q
  keys := false
  length p := p.isEmpty
  fields _ _ := []
  units _ _ := []
  locked _ _ := false
  cruise := false
  run s _ _ :=
    Done.ok s (be8 s.role ++ be8 (s.rd Reg.TWN_STAT_PARTNER) ++ be8 (s.rd Reg.TWN_STAT_RESYNC) ++ be8 s.twinFlags ++
      be16 (if s.twn.pairId = 0 then 0 else s.cardId) ++ be16 s.twn.partner.card ++ be64 s.leaseEpoch ++ be32 s.leaseLeft ++
      be32 (s.rd Reg.TWN_GEN_GEN) ++ be32 (s.rd Reg.TWN_PGEN_GEN) ++ be64 s.twn.claim ++ be32 (s.rd Reg.TWN_HB_MISSED_COUNT) ++
      be32 (s.rd Reg.TWN_MIRROR_DROP_COUNT) ++ be32 s.twn.mirrorErrors ++ be32 (s.rd Reg.TWN_OUT_DIVERGE_COUNT) ++ be32 s.twn.hashMisses ++
      be32 s.twn.unanswered ++ be32 0 ++ fit 32 s.twn.healthSent ++ fit 32 s.twn.healthSeen)

/-- TWN_LEASE_REQUEST (R450). -/
def opTwnLeaseRequest : OpSpec where
  code := 0x0B02
  cls := .l
  keys := false
  length p := p.length == 4
  fields s p :=
    let f := u8 p 0
    [(0, s.role != roleSolo && (f == 1 || (f == 2 && s.role == roleHolder) || (f == 4 && s.flag Reg.TWN_CTL_HOME))), (1, zeroAt p 1 3)]
  units _ _ := []
  locked _ _ := false
  cruise := false
  run s x p :=
    let w : Pending := ⟨x.tag, x.session, x.entry, .object 16 (s.now + s.twn.validityMs * 10 ^ 6 + 10 ^ 7), none⟩
    if u8 p 0 = 2 then Done.pending (s.releaseLease.await { w with waits := .instant s.now }) []
    else if u8 p 0 = 1 then Done.pending ((if s.flag Reg.TWN_STAT_FENCE_PIN then s else s.lookoutSend 1).await w) []
    else Done.pending ((s.twinSend 6 []).await w) []

/-- TWN_RESYNC (R451). -/
def opTwnResync : OpSpec where
  code := 0x0B03
  cls := .l
  keys := false
  length p := p.length == 4
  fields s p := [(0, s.role != roleSolo && s.role != roleHolder && (u8 p 0 == 1 || u8 p 0 == 2)), (1, zeroAt p 1 3)]
  units _ _ := []
  locked _ _ := false
  cruise := false
  run s x p :=
    if u8 p 0 = 1 then Done.pending (s.startResync.await ⟨x.tag, x.session, x.entry, .object 17 0, none⟩) []
    else Done.ok ({ s with twn := { s.twn with mirrorQueue := [], resyncWanted := false } }.wr Reg.TWN_STAT_RESYNC 0) []

/-- TWN_CONFIG. -/
def execTwnConfig (dt : Nat) (rq : Req) (s : State) : Host.Outcome State Fault Refusal := .next (serve opTwnConfig dt rq s)
/-- TWN_STATUS. -/
def execTwnStatus (dt : Nat) (rq : Req) (s : State) : Host.Outcome State Fault Refusal := .next (serve opTwnStatus dt rq s)
/-- TWN_LEASE_REQUEST. -/
def execTwnLeaseRequest (dt : Nat) (rq : Req) (s : State) : Host.Outcome State Fault Refusal := .next (serve opTwnLeaseRequest dt rq s)
/-- TWN_RESYNC. -/
def execTwnResync (dt : Nat) (rq : Req) (s : State) : Host.Outcome State Fault Refusal := .next (serve opTwnResync dt rq s)

end Sys2Proof.Machine
end

