-- ==== Sys2Proof/Machine/FltCmds.lean ====
section
/-!
DEFINITION. The fault collector (chapter 18): records, first-error capture, history, uncleared table and ERR_N; reactions by class;
shedding; isolation; and its commands (R515-R536).
-/
namespace Sys2Proof.Machine

/-! ### Sources (Table 18.8, R610) -/

/-- The Almanac instances that an event's Source names. -/
def sourceUnits (v : Variant) (src : Nat) : List (Nat × Nat) :=
  let region := src / 2 ^ 29
  let b := src / 2 ^ 16 % 256
  let cell := src % 2 ^ 16
  let cells := fun (cap first n : Nat) => if cell = 0xFFFF then (List.range n).map fun i => (cap, first + i) else [(cap, first + cell)]
  let all := fun (cap : Nat) => (List.range (capMax cap)).map fun i => (cap, i)
  let us : List (Nat × Nat) :=
    if region < 4 then cells 0x11 (4 * (8 * region + b)) 4
    else if region = 4 then (if b = 0 then [(0x0A, 0)] else if b = 1 then all 0x0B else if b = 2 then all 0x0C else [])
    else if region = 5 then
      if b < 2 then cells 0x18 (16 * b) 16 else if b = 2 then cells 0x13 0 64 else if b = 3 then cells 0x0D 0 4
      else if b = 4 then [(7, 0)] else if b = 5 then [(8, 0)] else []
    else if region = 6 then
      if b < 6 then cells 0x17 (16 * b) 16 else if b < 12 then cells 0x0F (8 * (b - 6)) 8 else if b = 12 then cells 0x0E 0 16
      else if b = 13 then cells 0x19 0 64 else []
    else if b = 0 then cells 0x1A 0 4 else if b = 1 then cells 0x1B 0 8 else if b = 2 then [(6, 0)] else if b = 3 then [(5, 0)]
    else if b < 8 then cells 0x12 (12 * (b - 4)) 12 else if b = 8 then [(3, 0)] else if b = 9 then [(4, 0)]
    else if b = 10 then cells 0x14 0 2 else if b = 11 ∨ b = 13 then [(0x15, 0)] else if b = 12 then [(9, 0)]
    else if b = 14 then [(0x16, 0)] else if b = 15 then [(2, 0), (1, 0)] else if b = 16 then [(0x10, 0)] else []
  us.filter fun u => decide (u.2 < capCount v u.1)

/-- The Source of a block as a whole. -/
def blockSource (k : Nat) : Nat := srcOf (k / 256) (k % 256) 0xFFFF

/-! ### ERR_N and records (R526-R529) -/

/-- Pins ERR_N and THERM_N, in `Out.pin`. -/
def pinErr : Nat := 0x400
def pinTherm : Nat := 0x401

/-- The highest class uncleared, OVF_CLASS included. -/
def State.errClass (s : State) : Nat := max ((s.flt.uncleared.map fun (e : Event) => e.cls).foldl max 0) (s.rd Reg.FLT_STAT_OVF_CLASS)

/-- ERR_N is low while an uncleared event of class at or above THRESH exists (R528). -/
def State.errPin (s : State) : State :=
  let h := s.errClass
  let low := decide (0 < h ∧ s.rd Reg.FLT_CTL_THRESH ≤ h)
  let s1 := (s.wr Reg.FLT_STAT_HIGHEST h).wr Reg.FLT_UNCLR_COUNT s.flt.uncleared.length
  if s.flag Reg.FLT_STAT_ERR = low then s1 else (s1.wr Reg.FLT_STAT_ERR (b01 low)).pin pinErr (1 - b01 low)

/-- The registers of the first-error capture. -/
def State.firstRegs (s : State) : State :=
  let e := s.flt.firstError.getD ⟨0, 0, 0, 0, 0, 0, false, false, false, false, 0⟩
  let s1 := ((s.wr Reg.FLT_STAT_FIRST_VALID (b01 s.flt.firstError.isSome)).wr Reg.FLT_FIRST_CODE_CODE e.code).wr Reg.FLT_FIRST_CODE_CLASS e.cls
  (((s1.wr Reg.FLT_FIRST_SRC_SRC e.src).wr Reg.FLT_FIRST_OBJ_OBJ e.obj).wr Reg.FLT_FIRST_NUM_NUM e.num).wr64
    Reg.FLT_FIRST_TS_LO_NS Reg.FLT_FIRST_TS_HI_NS e.time

/-- Do two events have the same code, source and object? -/
def Event.same (a b : Event) : Bool := a.code == b.code && a.src == b.src && a.obj == b.obj

/-- The history takes a record; the oldest of 33 is lost and counted (R527). -/
def State.historyPut (s : State) (e : Event) : State :=
  if s.flt.history.length < 32 then { s with flt := { s.flt with history := s.flt.history ++ [e] } }
  else ({ s with flt := { s.flt with history := s.flt.history.drop 1 ++ [e] } }.wr Reg.FLT_STAT_HISTORY_LOST 1).bump Reg.FLT_HIST_LOST_COUNT 1

/-- An entry of the uncleared table after another raise of its event. -/
def Event.again (e x : Event) : Event :=
  if e.same x then { x with num := e.num, time := e.time, repeats := x.repeats + 1, active := e.active } else x

/-- The uncleared table takes a raise (R529). -/
def State.unclearedPut (s : State) (e : Event) : State :=
  if s.flt.uncleared.any e.same then
    { s with flt := { s.flt with uncleared := s.flt.uncleared.map e.again } }
  else if s.flt.uncleared.length < 1024 then { s with flt := { s.flt with uncleared := s.flt.uncleared ++ [e] } }
  else (s.wr Reg.FLT_STAT_OVF 1).wr Reg.FLT_STAT_OVF_CLASS (max (s.rd Reg.FLT_STAT_OVF_CLASS) e.cls)

/-- The first-error capture takes an event at or above THRESH while it is armed (R526). -/
def State.firstPut (s : State) (e : Event) : State :=
  if s.flt.armed ∧ s.rd Reg.FLT_CTL_THRESH ≤ e.cls then
    { s with flt := { s.flt with firstError := some { e with first := true }, armed := false } }.firstRegs
  else s

/-! ### The reaction queue (R519, R522-R525) -/

/-- A firmware reaction joins: it pre-empts a less severe running one, else waits; a full queue raises FLT_QUEUE_OVF. -/
def State.react (s : State) (e : Event) : State :=
  let r : Reaction := ⟨e.num, e.code, e.cls, e.src, e.obj, 0⟩
  if s.boot.firmwareSince.isNone ∨ s.flt.halted then s
  else
    match s.flt.running with
    | [] => { s with flt := { s.flt with running := [r] } }
    | x :: _ =>
      if x.cls < e.cls then
        { s with flt := { s.flt with
            running := r :: s.flt.running
            uncleared := s.flt.uncleared.map fun (y : Event) => if y.num = x.num then { y with preempted := true } else y } }
      else if s.flt.queue.length < 256 then { s with flt := { s.flt with queue := s.flt.queue ++ [r] } }
      else s.raise 0x2F0B srcCollector 0

/-- A FATAL event: on a twin the lease ends; the third within 600 s of the first stops the ranger cores for good, any other calls
for a control restart (R519, R522, R523). -/
def State.fatal (s : State) : State :=
  let times := (s.flt.fatalTimes.filter fun t => decide (s.now ≤ t + 600 * 10 ^ 9)) ++ [s.now]
  let s1 := if s.twinOn then s.loseLease else s
  let s2 := { s1 with flt := { s1.flt with fatalTimes := times } }.wr Reg.FLT_STAT_RESTARTS times.length
  if 3 ≤ times.length then
    { s2 with flt := { s2.flt with halted := true, restartDue := false, queue := [], running := [] }, boot := { s2.boot with firmwareSince := none } }
  else { s2 with flt := { s2.flt with restartDue := true } }

/-- The collector records an event under the next number, with the hardware steps of its class (R517, R519). -/
def State.recordEvent (s : State) (e0 : Event) : State :=
  let n := s.flt.lastNum + 1
  let keeps := eventPersists e0.code && s.causePresent e0.code e0.src e0.obj
  let takes := s.flt.armed && decide (s.rd Reg.FLT_CTL_THRESH ≤ e0.cls)
  let e : Event := { e0 with num := n, active := keeps, first := takes }
  let s1 := { s with flt := { s.flt with lastNum := n } }.bump (Reg.FLT_CNT_COUNT (e.cls - 1)) 1
  let s2 := (((s1.firstPut e).historyPut e).unclearedPut e).errPin
  let s3 := s2.react e
  if e.cls = 6 then s3.fatal else s3

/-- Is event `a` numbered before `b`: earlier detection, then more severe class, ascending source, ascending code (R517)? -/
def Event.before (a b : Event) : Bool :=
  if a.time ≠ b.time then decide (a.time < b.time)
  else if a.cls ≠ b.cls then decide (b.cls < a.cls)
  else if a.src ≠ b.src then decide (a.src < b.src)
  else decide (a.code < b.code)

/-- The detected event that is numbered next. -/
def nextEvent : List Event → Option Event
  | [] => none
  | e :: r => match nextEvent r with
    | none => some e
    | some x => if x.before e then some x else some e

/-- FAULT_EVENT_RECORD (R517). -/
def execFaultEventRecord (dt : Nat) (s : State) : Host.Outcome State Fault Refusal :=
  let s1 := s.elapse dt
  .next (match nextEvent s1.flt.detected with
    | none => s1
    | some e =>
      if !s1.domOn 1 then s1
      else { s1 with flt := { s1.flt with detected := s1.flt.detected.erase e } }.recordEvent e)

/-- Ephemeris parts and commands that need a lost unit end with FAILED, NOT_READY (R136, Table 18.4). -/
def State.unitGone (s : State) (cap i : Nat) : State :=
  let fromSlot := fun (t : State) (n : Nat) => t.loseRoutes fun r => r.valid && fullSlot r.source == n
  let s1 := s.failWaits fun w => match w with
    | .unit c k => c == cap && k == i
    | .linkUp p _ => cap == 0x13 && p == i
    | .lanes tx rx => cap == 0x11 && (tx.contains i || rx.contains i)
    | _ => false
  match cap with
  | 0x0A => s1.loseRoutes fun _ => true
  | 0x0B => s1.loseRoutes fun r => r.gen == i
  | 0x0C => fromSlot s1 (1232 + i)
  | 0x0E => fromSlot s1 (1152 + i)
  | 0x11 => s1.loseLaneRoutes i
  | 0x19 => fromSlot s1 (1168 + i)
  | 0x1D => fromSlot s1 (1296 + i)
  | _ => s1

/-- The fields of a VOTE_LOST event are written with the values configured before the upset; TWN_STAT is not written (Table 18.4,
R585). The object holds the window in [31:16] and the address in it in [15:0]. -/
def State.voteRewrite (s : State) (src obj : Nat) : State :=
  let addr := 0x10000000 + obj
  let mine := s.flt.voteLost.filter fun p => p.1 / 32 == addr && addr != 0x10080014
  if mine.isEmpty then s
  else
    let s1 := mine.foldl (fun t p => { t with regs := t.regs.ins p.1 p.2 }) s
    ({ s1 with flt := { s1.flt with voteLost := s1.flt.voteLost.filter fun p => !mine.contains p } }.endCause 0x2F03 src obj).errPin

/-- The steps of the firmware reaction of a class (Table 18.4); `none` says that the reaction has ended. Step 0 sends the event. -/
def State.reactionStep (s : State) (r : Reaction) : State × Option Nat :=
  if r.step = 0 then
    let t := (s.flt.history.find? fun (e : Event) => e.num == r.num).map fun (e : Event) => e.time
    (s.publish ⟨3, 0, r.code, t.getD s.chrono, r.cls, 0⟩, if r.cls < 4 then none else some 1)
  else if r.cls = 4 then
    if r.code = 0x2F03 then (s.voteRewrite r.src r.obj, none)
    else if r.step = 1 then ((sourceUnits s.variant r.src).foldl (fun t u => t.unready u.1 u.2) s, some 2)
    else (((sourceUnits s.variant r.src).foldl (fun t u => t.unitGone u.1 u.2) s).noteOver, none)
  else if r.cls = 5 then
    if r.step = 1 then
      (if s.role = roleHolder ∧ s.partnerPresent ∧ bit s.twn.partner.flags 1 then s.releaseLease else s, if r.code = 0x2F0D then some 2 else none)
    else (s, if s.flt.shedding.isSome then some 2 else none)
  else ({ s with flt := { s.flt with restartDue := !s.flt.halted } }, none)

/-- FAULT_REACTION (R519, R524): one step of the running reaction; when it ends, the pre-empted one goes on, else the next of the
queue starts. -/
def execFaultReaction (dt : Nat) (s : State) : Host.Outcome State Fault Refusal :=
  let s1 := s.elapse dt
  .next (if s1.boot.firmwareSince.isNone ∨ s1.flt.halted then s1
    else
      match s1.flt.running with
      | [] => (match s1.flt.queue with
        | [] => s1
        | q :: qs => { s1 with flt := { s1.flt with running := [q], queue := qs } })
      | r :: rest =>
        let d := s1.reactionStep r
        match d.2 with
        | some n => { d.1 with flt := { d.1.flt with running := { r with step := n } :: rest } }
        | none =>
          if !rest.isEmpty then { d.1 with flt := { d.1.flt with running := rest } }
          else { d.1 with flt := { d.1.flt with running := d.1.flt.queue.take 1, queue := d.1.flt.queue.drop 1 } })

/-! ### Temperature and shedding (R521, R532) -/

/-- Domains in the order in which they are shed. -/
def shedOrder : List Nat :=
  [52, 51, 50, 49, 48, 47, 46, 45, 44, 43, 42, 41, 2, 38, 37, 40, 56, 55, 54, 53, 39, 57] ++ (List.range 32).map fun i => 35 - i

/-- The next domain to shed: on, and outside the smallest service set. -/
def State.nextShed (s : State) : Option Nat := shedOrder.find? fun d => s.domOn d && !s.smallestSet.contains d

/-- One domain is shed, or shedding ends because only the smallest service set remains. -/
def State.shedOne (s : State) : State :=
  match s.nextShed with
  | none => { s with flt := { s.flt with shedding := none } }
  | some d =>
    let s1 := ((s.setDomEn d false).domainOff d).noteOver
    { s1 with flt := { s1.flt with shedding := some s1.now } }

/-- The highest of the sensors. -/
def maxTemp : List Int → Int
  | [] => 0
  | [t] => t
  | t :: r => max t (maxTemp r)

/-- Raise a thermal event as Tj reaches its level from below. -/
def State.thermRise (s : State) (code : Nat) (old new level : Int) : State :=
  if level ≤ new ∧ (old < level ∨ !s.causePresent code srcCollector 0) then s.raise code srcCollector 0 else s

/-- THERMAL_SENSOR_SAMPLE (R521, R606): Tj against WARN_C and SHED_C. -/
def execThermalSensorSample (dt : Nat) (temps : List Int) (s : State) : Host.Outcome State Fault Refusal :=
  let s1 := s.elapse dt
  let tj := maxTemp temps
  let old := s1.rdInt Reg.FLT_TJ_C
  let warn : Int := s1.rd Reg.FLT_THERM_WARN_C
  let shed : Int := s1.rd Reg.FLT_THERM_SHED_C
  .next (if !s1.domOn 1 ∨ temps.isEmpty then s1
    else
      let s2 := s1.wrInt Reg.FLT_TJ_C tj
      if tj < warn - 3 then
        let s3 : State := (s2.endCause 0x2F0C srcCollector 0).endCause 0x2F0D srcCollector 0
        { s3 with flt := { s3.flt with shedding := none } }
      else if tj < warn then { s2 with flt := { s2.flt with shedding := none } }
      else
        let s3 := s2.thermRise 0x2F0C old tj warn
        if shed ≤ tj ∧ s3.flt.shedding.isNone then (s3.thermRise 0x2F0D old tj shed).shedOne else s3)

/-- SHED_STEP (R521): 100 ms after a shed, while Tj is still at or above WARN_C. -/
def execShedStep (dt : Nat) (s : State) : Host.Outcome State Fault Refusal :=
  let s1 := s.elapse dt
  .next (match s1.flt.shedding with
    | none => s1
    | some t =>
      if s1.now < t + 10 ^ 8 then s1
      else if s1.rdInt Reg.FLT_TJ_C < (s1.rd Reg.FLT_THERM_WARN_C : Int) then { s1 with flt := { s1.flt with shedding := none } }
      else s1.shedOne)

/-! ### Isolation and watchdogs (R11, R518, R532) -/

/-- What a unit's neighbours see when a boundary closes on it: it is not READY and counts as absent. Its transactions as a Skidway master
drain (R505), those toward it as a target are answered (R506), an engine is no longer held, a MAC has no link. -/
def State.firebreak (s : State) (cap i : Nat) : State :=
  let s1 := s.unready cap i
  match cap with
  | 0x05 => s1.resetMaster 33
  | 0x06 => s1.loseTargets fun _ => true
  | 0x0F => s1.encEngineLost i
  | 0x12 => (s1.loseTargets fun b => decide (3 ≤ b.target) && b.channel == i).groupStat
  | 0x13 => if s1.linkUp i then s1.linkLost i else s1
  | 0x14 => s1.resetMaster (31 + i)
  | 0x17 => s1.pixelOff i
  | 0x1A => s1.resetMaster (8 + i)
  | 0x1B => s1.resetMaster i
  | _ => s1

/-- BLOCK_ISOLATES_ITSELF (R11, R518): `whole` says that the block isolates itself, else the cell that the Source names does,
behind its own boundary with the same clamps. -/
def execBlockIsolatesItself (dt src : Nat) (whole : Bool) (s : State) : Host.Outcome State Fault Refusal :=
  let s1 := s.elapse dt
  let k := src / 2 ^ 29 * 256 + src / 2 ^ 16 % 256
  let source := if whole then blockSource k else src
  let us := sourceUnits s1.variant source
  .next (if us.isEmpty then s1
    else
      let s2 := us.foldl (fun t u => t.firebreak u.1 u.2) s1
      let keys := (if whole then [k] else us.map fun u => cellKey u.1 u.2).filter fun x => !s2.isolated.contains x
      let s3 := { s2 with isolated := keys ++ s2.isolated }
      s3.raise 0x2F05 source 0)

/-- WATCHDOG_EXPIRY (R518, R532). -/
def execWatchdogExpiry (dt : Nat) (dog : Watchdog) (s : State) : Host.Outcome State Fault Refusal :=
  let s1 := s.elapse dt
  match dog with
  | .ranger c => .next ((s1.resetMaster (8 + c)).raise 0x2F06 (srcOf 7 0 c) c)
  | .host c => .next ((s1.resetMaster c).raise 0x2F07 (srcOf 7 1 c) c)
  | .block src => execBlockIsolatesItself dt src true s

/-! ### FLT_QUERY, FLT_CLEAR, FLT_HISTORY (R533-R535) -/

/-- A record (Table 18.2). -/
def Event.record (e : Event) (repeats : Nat) : List Byte :=
  be16 e.code ++ be8 e.cls ++ be8 (b01 e.active + 2 * b01 e.cleared + 4 * b01 e.preempted + 8 * b01 e.first) ++ be32 e.src ++ be32 e.obj ++
    be32 e.num ++ timeBytes e.time ++ be32 repeats

/-- Insert by ascending event number. -/
def insertEvent (x : Event) : List Event → List Event
  | [] => [x]
  | y :: r => if x.num < y.num then x :: y :: r else y :: insertEvent x r

/-- The uncleared entries in ascending event number. -/
def State.unclearedSorted (s : State) : List Event := s.flt.uncleared.foldl (fun l e => insertEvent e l) []

/-- FLT_QUERY (R533). -/
def opFltQuery : OpSpec where
  code := 0x0E00
  cls := .q
  keys := false
  length p := p.length == 8
  fields _ p := [(4, decide (1 ≤ u16 p 4 ∧ u16 p 4 ≤ 255)), (6, decide (u8 p 6 ≤ 6)), (7, zeroAt p 7 1)]
  units _ _ := []
  locked _ _ := false
  cruise := false
  run s _ p :=
    let es := s.unclearedSorted.filter fun e => decide (u8 p 6 ≤ e.cls)
    let page := (es.drop (u32 p 0)).take (u16 p 4)
    Done.ok s (be32 es.length ++ be32 page.length ++ page.flatMap fun e => e.record e.repeats)

/-- Entries are cleared: their records in the history are marked, and the first-error capture is armed again when the event it
holds has no uncleared entry any more (R526, R527, R530). -/
def State.clearEntries (s : State) (p : Event → Bool) : State :=
  let gone := s.flt.uncleared.filter p
  let left := s.flt.uncleared.filter fun e => !p e
  let hist := s.flt.history.map fun (e : Event) => if gone.any e.same then { e with cleared := true } else e
  let s1 := { s with flt := { s.flt with uncleared := left, history := hist } }
  let s2 := match s1.flt.firstError with
    | some f => if left.any f.same then s1 else { s1 with flt := { s1.flt with firstError := none, armed := true } }.firstRegs
    | none => s1
  s2.errPin

/-- FLT_CLEAR (R530, R534). -/
def opFltClear : OpSpec where
  code := 0x0E01
  cls := .l
  keys := false
  length p := p.length == 8
  fields s p := [(0, bit (u8 p 4) 0 || s.flt.uncleared.any fun e => e.num == u32 p 0), (4, decide (u8 p 4 < 2)), (5, zeroAt p 5 3)]
  units _ _ := []
  locked _ _ := false
  cruise := false
  run s _ p :=
    let n := s.flt.uncleared.length
    let reply := fun (t : State) => be32 (n - t.flt.uncleared.length) ++ be32 t.flt.uncleared.length
    if bit (u8 p 4) 0 then
      let s1 := ((s.wr Reg.FLT_STAT_OVF 0).wr Reg.FLT_STAT_OVF_CLASS 0).clearEntries fun e => !e.active
      Done.ok s1 (reply s1)
    else if s.flt.uncleared.any fun e => e.num == u32 p 0 && e.active then Done.err s stStillActive 24
    else
      let s1 := s.clearEntries fun e => e.num == u32 p 0
      Done.ok s1 (reply s1)

/-- FLT_HISTORY (R535). -/
def opFltHistory : OpSpec where
  code := 0x0E02
  cls := .q
  keys := false
  length p := p.length == 4
  fields _ p := [(0, decide (u8 p 0 < 2)), (1, zeroAt p 1 3)]
  units _ _ := []
  locked _ _ := false
  cruise := false
  run s _ p :=
    let first := match s.flt.firstError with
      | some e => e.record 0
      | none => zeros 32
    let body := be8 (s.rd Reg.FLT_STAT_HISTORY_LOST + 2 * b01 s.flt.firstError.isSome) ++ be8 s.flt.history.length ++ be16 0 ++
      be32 (s.rd Reg.FLT_HIST_LOST_COUNT) ++ first ++ s.flt.history.flatMap fun e => e.record 0
    Done.ok (if bit (u8 p 0) 0 then s.wr Reg.FLT_STAT_HISTORY_LOST 0 else s) body

/-- FLT_QUERY. -/
def execFltQuery (dt : Nat) (rq : Req) (s : State) : Host.Outcome State Fault Refusal := .next (serve opFltQuery dt rq s)
/-- FLT_CLEAR. -/
def execFltClear (dt : Nat) (rq : Req) (s : State) : Host.Outcome State Fault Refusal := .next (serve opFltClear dt rq s)
/-- FLT_HISTORY. -/
def execFltHistory (dt : Nat) (rq : Req) (s : State) : Host.Outcome State Fault Refusal := .next (serve opFltHistory dt rq s)

/-- FLT_INJECT (R532): 1-6 raises FLT_TEST of that class. -/
def State.injectFault (s : State) (cls : Nat) : State := if 1 ≤ cls ∧ cls ≤ 6 then s.raise (0x2FF0 + cls) srcCollector cls else s

end Sys2Proof.Machine
end

