-- ==== Sys2Proof/Machine/PwrCmds.lean ====
section
/-!
DEFINITION. Power commands and events: PWR_DOMAIN_SET, PWR_IDLE_TIMER and PWR_WAKE_RECORD (R552-R554), domains that come on and
go off (R540-R544), idle expiry (R545, R546) and the wake sources (R547-R551, R234).
-/
namespace Sys2Proof.Machine

/-! ### PWR_DOMAIN_SET (R552) -/

/-- The domains of a mask with everything that they require. -/
def closeUp (mask : Nat) : Nat :=
  (((List.range 58).filter fun d => bit mask d).flatMap domNeeds).foldl (fun m d => if bit m d then m else m + 2 ^ d) mask

/-- The requested set that a change of the domains in `change` to `on` gives: the newly requested ones with what they require. -/
def State.plannedSet (s : State) (on change : Nat) : Nat :=
  let old := s.enMask
  let kept := ((List.range 58).filter fun d => bit old d && !bit change d).foldl (fun m d => m + 2 ^ d) 0
  let asked := ((List.range 58).filter fun d => bit change d && bit on d).foldl (fun m d => m + 2 ^ d) 0
  let new := ((List.range 58).filter fun d => bit asked d && !bit old d).foldl (fun m d => m + 2 ^ d) 0
  kept ||| asked ||| closeUp new

/-- The wake enables after WAKE_CFG. -/
def State.wakeAfter (s : State) (p : List Byte) : Nat := if bit (u8 p 17) 0 then u8 p 16 else s.rd Reg.PWR_WAKE_EN_BITS

/-- WAKE_CFG: the wake enables, the comparator and the timer. -/
def State.wakeConfig (s : State) (p : List Byte) : State :=
  if bit (u8 p 17) 0 then
    (((s.wr Reg.PWR_WAKE_EN_BITS (u8 p 16)).wr Reg.PWR_CMP_FALLING (b01 (bit (u8 p 17) 1))).wr Reg.PWR_CMP_THRESH_MV (u16 p 18)).timerLoad (u32 p 20)
  else s

/-- May the set be requested: no domain left on requires one turned off, the smallest service set keeps its quad while PD36 is
on, and twin operation keeps PD01 and PD36 (R537, R541, R552)? -/
def State.setAllowed (s : State) (p : List Byte) : Bool :=
  let m := s.plannedSet (u64 p 0) (u64 p 8)
  let off := (List.range 58).filter fun d => bit (u64 p 8) d && !bit (u64 p 0) d
  (off.all fun d => !bit m d && (domUsers d).all fun x => !bit m x) &&
    (!bit m 36 || !off.contains (4 + s.keepQuad)) &&
    (!off.contains 1 || decide (s.wakeAfter p ≠ 0)) &&
    (!s.twinOn || !(off.contains 1 || off.contains 36))

/-- PWR_DOMAIN_SET (R552). -/
def opPwrDomainSet : OpSpec where
  code := 0x0F00
  cls := .c
  keys := false
  length p := p.length == 32
  fields s p :=
    let cfg := bit (u8 p 17) 0
    [(0, s.setAllowed p), (8, decide (u64 p 8 < 2 ^ 58) && !bit (u64 p 8) 0 && (List.range 58).all fun d => !bit (u64 p 8) d || domPresent s.variant d),
     (16, !cfg || decide (u8 p 16 < 16)), (17, decide (u8 p 17 < 4)),
     (18, !cfg || (decide (100 ≤ u16 p 18 ∧ u16 p 18 ≤ 1200) && u16 p 18 % 10 == 0)), (24, zeroAt p 24 8)]
  units _ _ := []
  locked _ _ := false
  cruise := true
  run s x p :=
    let m := s.plannedSet (u64 p 0) (u64 p 8)
    let s1 := (s.wakeConfig p).setEnables m
    if bit (u64 p 8) 1 && !bit m 1 then Done.ok { s1 with pwr := { s1.pwr with pd01OffAt := some (s.now + 10 ^ 6) } } []
    else Done.pending (s1.await ⟨x.tag, x.session, x.entry, .domains m (u64 p 8 ||| (m ^^^ s.enMask)), none⟩) []

/-- PWR_IDLE_TIMER (R553). -/
def opPwrIdleTimer : OpSpec where
  code := 0x0F01
  cls := .c
  keys := false
  length p := p.length == 8
  fields s p :=
    [(0, decide (u8 p 0 < 58) && (List.range (u8 p 1)).all fun i => s.hasIdleTimer (u8 p 0 + i)),
     (1, decide (1 ≤ u8 p 1 ∧ u8 p 0 + u8 p 1 ≤ 58)), (2, zeroAt p 2 2), (4, decide (u32 p 4 ≤ 65535))]
  units _ _ := []
  locked _ _ := false
  cruise := false
  run s _ p :=
    let ds := (List.range (u8 p 1)).map fun i => u8 p 0 + i
    let s1 := ds.foldl (fun t d => t.wr (Reg.PWR_IDLE_S d) (u32 p 4)) s
    Done.ok { s1 with pwr := { s1.pwr with idleSince := s1.pwr.idleSince.map fun e => if ds.contains e.1 then (e.1, s.now) else e } } []

/-- PWR_WAKE_RECORD (R554). -/
def opPwrWakeRecord : OpSpec where
  code := 0x0F02
  cls := .q
  keys := false
  length p := p.isEmpty
  fields _ _ := []
  units _ _ := []
  locked _ _ := false
  cruise := false
  run s _ _ :=
    Done.ok s (be8 (s.rd Reg.PWR_WAKE_REC_SOURCE) ++ be8 (s.rd Reg.PWR_WAKE_REC_MASK) ++ be8 (s.rd Reg.PWR_WAKE_REC_FROM) ++ be8 0 ++
      be32 (s.rd Reg.PWR_WAKE_CNT_COUNT) ++ be64 (s.rd64 Reg.PWR_WAKE_TICKS_LO_T Reg.PWR_WAKE_TICKS_HI_T))

/-- PWR_DOMAIN_SET. -/
def execPwrDomainSet (dt : Nat) (rq : Req) (s : State) : Host.Outcome State Fault Refusal := .next (serve opPwrDomainSet dt rq s)
/-- PWR_IDLE_TIMER. -/
def execPwrIdleTimer (dt : Nat) (rq : Req) (s : State) : Host.Outcome State Fault Refusal := .next (serve opPwrIdleTimer dt rq s)
/-- PWR_WAKE_RECORD. -/
def execPwrWakeRecord (dt : Nat) (rq : Req) (s : State) : Host.Outcome State Fault Refusal := .next (serve opPwrWakeRecord dt rq s)

/-! ### Domains that come on and go off -/

/-- Are the monitored rails that feed a domain good (R600)? -/
def State.railsGood (s : State) (d : Nat) : Bool :=
  s.pwr.coreGood && s.pwr.sramGood && (!decide (4 ≤ d ∧ d ≤ 35) || s.pwr.laneGood) && (!decide (53 ≤ d ∧ d ≤ 56) || s.pwr.dramGood)

/-- May the power controller turn domains on at all (R600, R604, R607)? -/
def State.powerRuns (s : State) : Bool := s.pwr.aon && !s.pwr.rstLow && !s.pwr.tripped && s.pwr.coreGood && s.pwr.sramGood

/-- The domain that is turned on next: requested, off, all that it requires on; the lowest number first (R541). -/
def State.nextUp (s : State) : Option Nat :=
  if s.powerRuns then (List.range 58).find? fun d =>
    s.domEn d && !s.domOn d && domPresent s.variant d && !s.pwr.upFailed.contains d && (domRequires d).all s.domOn
  else none

/-- The VDD_CORE target in mV, within its range of 0.65 V to 0.80 V (Table 22.2). -/
def coreTarget : Nat := min 800 (650 + 5 * Config.otpCoreTarget.toNat)

/-- Before PD36 first turns on, ranger firmware leads VDD_CORE from 0.80 V to the target of OTP by AVSBus Voltage writes in steps of 5 mV.
Where the regulator does not acknowledge, it stays at 0.80 V, and nothing is written again (R598; DEDUCED, log entry 97). -/
def State.scaleCore (s : State) (ack : Bool) : State :=
  if s.pwr.avsDone || s.boot.firmwareSince.isNone then s
  else
    let down := (List.range ((800 - coreTarget) / 5)).map fun i => 795 - 5 * i
    let sent := ((if ack then down else down.take 1).map Out.avsWrite).reverse
    { s with sent := sent ++ s.sent, pwr := { s.pwr with avsDone := true, vddCore := if ack then coreTarget else s.pwr.vddCore } }

/-- A power-up of a domain ends: it is on, or power-good was not seen and it stays off (R540, R544). -/
def State.powerUp (s : State) (d : Nat) (good : Bool) : State :=
  if good && s.railsGood d then
    let s1 := s.domainOn d
    match s1.pwr.wakeReport, d with
    | some src, 1 => ({ s1 with pwr := { s1.pwr with wakeReport := none } }.raise 0x3003 srcPower src).settle
    | _, _ => s1.settle
  else { s with pwr := { s.pwr with upFailed := d :: s.pwr.upFailed } }.raise 0x3002 srcPower d

/-- DOMAIN_POWER_UP (R540, R541, R544, R598): `good` says that power-good is seen by the isolation release, `ack` that the regulator of
VDD_CORE acknowledges. -/
def execDomainPowerUp (dt d : Nat) (good : PowerGood) (s : State) : Host.Outcome State Fault Refusal :=
  let s1 := s.elapse dt
  .next (if s1.nextUp = some d then (if d = 36 then s1.scaleCore good.ack else s1).powerUp d good.good else s1)

/-- The domain that is turned off next: no longer requested, none that requires it on; the highest number first (R541). A
PWR_DOMAIN_SET that turns PD01 off acts 1 ms after its reply (R552). -/
def State.nextDown (s : State) : Option Nat :=
  if (s.pwr.pd01OffAt.map fun t => decide (s.now < t)).getD false then none
  else (List.range 58).reverse.find? fun d => s.domOn d && !s.domEn d && (domUsers d).all fun x => !s.domOn x

/-- DOMAIN_POWER_DOWN (R539, R541-R543). -/
def execDomainPowerDown (dt d : Nat) (s : State) : Host.Outcome State Fault Refusal :=
  let s1 := s.elapse dt
  .next (if s1.nextDown = some d then
      let s2 := s1.domainOff d
      let s3 := if d = 1 then { s2 with pwr := { s2.pwr with pd01OffAt := none } } else s2.noteOver
      s3.wakeWaiting.settle
    else s1)

/-- IDLE_TIMER_EXPIRY (R545, R546): a domain has been on without assigned work for its time. -/
def execIdleTimerExpiry (dt d : Nat) (s : State) : Host.Outcome State Fault Refusal :=
  let s1 := s.arrive dt
  let t := s1.rd (Reg.PWR_IDLE_S d)
  let past := s1.pwr.idleSince.any fun e => e.1 == d && decide (e.2 + t * 10 ^ 9 ≤ s1.now)
  .next (if s1.hasIdleTimer d && s1.domOn d && s1.domEn d && decide (t ≠ 0) && past && !s1.assigned d then
      ((s1.setEnables (s1.enMask ^^^ 2 ^ d)).noteOver).raise 0x3001 srcPower d
    else s1)

/-! ### Wake sources (Table 19.6) -/

/-- A bit of the wake detector's settings: the latched ones while PD01 is off (R234). -/
def State.wakeSetting (s : State) (f : FieldRef) : Nat := if s.domOn 1 then s.rd f else s.pwr.wakeLatch.get f

/-- Those of a mask of sources 1-5 that their enables let act. -/
def State.armedSources (s : State) (mask : Nat) : Nat :=
  let on := fun (b : Nat) => match b with
    | 0 => s.wakeEnabled 0
    | 1 => s.wakeEnabled 1
    | 2 => s.wakeEnabled 2 && !s.domOn 1 && s.wakeSetting Reg.MGT_WAKE_MAGIC == 1
    | 3 => s.wakeEnabled 2 && !s.domOn 1 && s.wakeSetting Reg.MGT_WAKE_PATTERN == 1
    | 4 => s.wakeEnabled 3
    | _ => false
  ((List.range 5).filter fun b => bit mask b && on b).foldl (fun m b => m + 2 ^ b) 0

/-- Sources of `mask` fire, and in the same always-on cycle those of `also`: the part wakes when one of the first is armed. -/
def State.fire (s : State) (mask also : Nat) : State :=
  if s.armedSources mask = 0 then s else s.wake (s.armedSources (mask ||| also))

/-- SIDEBAND_ADDRESS_MATCH (R548). -/
def execSidebandAddressMatch (dt addr also : Nat) (s : State) : Host.Outcome State Fault Refusal :=
  let s1 := s.elapse dt
  .next (if addr = s1.rd Reg.PWR_SB_ADDR then s1.fire 1 also else s1)

/-- COMPARATOR_WAKE (R549): the comparator output has stayed asserted for 1 ms. -/
def execComparatorWake (dt also : Nat) (s : State) : Host.Outcome State Fault Refusal :=
  let s1 := s.elapse dt
  .next ((s1.wr Reg.PWR_CMP_LEVEL 1).fire 2 also)

/-- PWR_TIMER_EXPIRY (R550): in SERVICE it does nothing. -/
def execPwrTimerExpiry (dt also : Nat) (s : State) : Host.Outcome State Fault Refusal :=
  let s1 := s.elapse dt
  .next (if s1.pwr.timerAt.isSome ∧ s1.timerLeft = 0 then s1.timerStop.fire 16 also else s1)

/-- The magic pattern of a management port: 6 bytes of 0xFF, then 16 copies of its MAC address. -/
def magicPattern (port : Nat) : List Byte :=
  List.replicate 6 0xFF ++ (List.replicate 16 (beBytes 6 (macAddress (64 + port)))).flatten

/-- Does a frame hold the pattern, anywhere? -/
def holdsAt (pat : List Byte) : List Byte → Bool
  | [] => pat.isEmpty
  | b :: r => ((b :: r).take pat.length == pat) || holdsAt pat r

/-- Do the frame bytes that MGT_WAKE_MASK selects match MGT_WAKE_PAT? -/
def State.patternMatch (s : State) (b : List Byte) : Bool :=
  (List.range 128).all fun k =>
    !bit (s.wakeSetting (Reg.MGT_WAKE_MASK_BITS (k / 32))) (k % 32) ||
      (decide (k < b.length) && u8 b k == s.wakeSetting (Reg.MGT_WAKE_PAT_BYTES (k / 4)) / 256 ^ (k % 4) % 256)

/-- MGT_WAKE_FRAME (R234): a frame, FCS included, at the wake detector of a management port. -/
def execMgtWakeFrame (dt port : Nat) (bytes : List Byte) (also : Nat) (s : State) : Host.Outcome State Fault Refusal :=
  let s1 := s.elapse dt
  let b := bytes.take (bytes.length - 4)
  .next (if s1.domOn 1 ∨ s1.wakeSetting Reg.MGT_WAKE_PORT ≠ port ∨ fcsBytes b ≠ bytes.drop (bytes.length - 4) then s1
    else s1.fire (4 * b01 (holdsAt (magicPattern port) b) + 8 * b01 (s1.patternMatch bytes)) also)

end Sys2Proof.Machine
end

