-- ==== Sys2Proof/Machine/BootCmds.lean ====
section
/-!
DEFINITION. Reset, rails, start-up, firmware update and the life-cycle step (R455, R456, R471, R472, R559-R574, R598-R607), and the
control restart (R522).
-/
namespace Sys2Proof.Machine

/-- Source of the boot and update events: system control (Table 18.3). -/
def srcSystem : Nat := srcOf 7 15 0

/-! ### Reset (R559, R604, R605) -/

/-- The boot state after an update is cut short: its bank is EMPTY (R568). -/
def BootState.abandon (b : BootState) : BootState := match b.update with
  | some u => b.dropUpdate u.session
  | none => b

/-- What flash keeps across a reset (R559). -/
def BootState.kept (b0 : BootState) (cause : Nat) : BootState :=
  let b := b0.abandon
  { BootState.reset with
    bankA := b.bankA, bankB := b.bankB, trialStarts := b.trialStarts, dirSeq := b.dirSeq, config := b.config
    configFormat := b.configFormat, configValid := b.configValid, trained := b.trained, storeCopy := b.storeCopy, nextCause := cause }

/-- What OTP keeps across a reset. -/
def VaultState.kept (v : VaultState) : VaultState :=
  { VaultState.reset with
    otp := v.otp, lcs := v.lcs, floor := v.floor, keyRev := v.keyRev, devSteps := v.devSteps, everDeployed := v.everDeployed, drawn := v.drawn }

/-- The mask of the domains that a variant has. -/
def presentMask (v : Variant) : Nat := ((List.range 58).filter fun d => domPresent v d).foldl (fun m d => m + 2 ^ d) 0

/-- The values that registers take from fuses and straps, and only PD00 on. -/
def State.freshRegs (s : State) : State :=
  let m := presentMask s.variant
  let s1 := ({ s with regs := [] }.wr64 Reg.PWR_DOM_PRESENT_LO_P Reg.PWR_DOM_PRESENT_HI_P m).readFuses
  ((s1.wr Reg.PWR_DOM_ON_LO_ON 1).wr Reg.PWR_DOM_ON_HI_ON 0).powerStat

/-- The memories after a reset that keeps none of them: DRAM contents are lost. -/
def MemState.after (fresh : Nat) : MemState := { MemState.reset with lost := [(0, 48 * 2 ^ 32, fresh)] }

/-- The module accounts after a reset: what the settings store holds of them. A reset that the part performs itself, with a cause above 1,
writes them first while the store is READY (R239). -/
def State.accountsKept (s : State) (cause : Nat) : List ModuleAccount :=
  (if 2 ≤ cause ∧ s.storeReady then s.net.accounts.map ModuleAccount.write else s.net.accounts).filterMap fun a =>
    a.stored.map fun k => { a with laser := k.1, weighted := k.2 }

/-- Every unit is reset, PD00 included; OTP, flash and the trip latch keep their contents, and PD01 and PD03 come up (R538, R559). -/
def State.fullReset (s : State) (cause : Nat) (recovery : Bool) : State :=
  let p : PowerState := { PowerState.reset with
    coreGood := s.pwr.coreGood, sramGood := s.pwr.sramGood, laneGood := s.pwr.laneGood, dramGood := s.pwr.dramGood
    ioGood := s.pwr.ioGood, rstLow := s.pwr.rstLow, tripped := s.pwr.tripped, thermN := s.pwr.thermN, recovery := recovery, vddCore := s.pwr.vddCore }
  let s1 : State := { State.reset with
    pending := s.pending, fresh := s.fresh + 1, variant := s.variant, sent := s.sent, boot := s.boot.kept cause
    net := { NetState.reset with accounts := s.accountsKept cause }, vlt := s.vlt.kept, mem := MemState.after s.fresh, pwr := p }
  let s2 := s1.freshRegs.wr Reg.TWN_STAT_FENCE_PIN (s.rd Reg.TWN_STAT_FENCE_PIN)
  if s.pwr.rstLow then (s2.wr Reg.TWN_STAT_LEASE 0).pin pinHold 0 else s2.leaseGates

/-- POWER_ON (R538, R600): VDD_AON becomes good and the power-on reset of PD00 runs; at its end RECOVERY_N is sampled. -/
def execPowerOn (dt : Nat) (recovery : Bool) (s : State) : Host.Outcome State Fault Refusal :=
  let s1 := s.elapse dt
  let p := { s1.pwr with coreGood := false, sramGood := false, laneGood := false, dramGood := false, ioGood := true, tripped := false, thermN := true, vddCore := 800 }
  .next ({ s1 with pwr := p }.fullReset 0 recovery)

/-- CORE_RAILS_GOOD (R600). -/
def execCoreRailsGood (dt : Nat) (s : State) : Host.Outcome State Fault Refusal :=
  let s1 := s.elapse dt
  .next { s1 with pwr := { s1.pwr with coreGood := true, sramGood := true, laneGood := true, dramGood := true, ioGood := true } }

/-- RST_N_ASSERT (R604): every domain is held in reset. -/
def execRstNAssert (dt : Nat) (s : State) : Host.Outcome State Fault Refusal :=
  let s1 := s.elapse dt
  .next (if s1.pwr.rstLow then s1 else { s1 with pwr := { s1.pwr with rstLow := true } }.fullReset 1 false)

/-- RST_N_RELEASE (R559, R604, R607): after a trip the part starts only once its sensor has cooled. -/
def execRstNRelease (dt : Nat) (recovery cooled : Bool) (s : State) : Host.Outcome State Fault Refusal :=
  let s1 := s.elapse dt
  .next (
    if !s1.pwr.rstLow then s1
    else if s1.pwr.tripped ∧ !cooled then { s1 with pwr := { s1.pwr with rstLow := false } }.leaseGates
    else
      let cause := if s1.pwr.tripped then 6 else 1
      let s2 := { s1 with
        pwr := { s1.pwr with rstLow := false, tripped := false, thermN := true, recovery := recovery }, boot := { s1.boot with nextCause := cause } }
      (if s1.pwr.tripped then s2.pin pinTherm 1 else s2).leaseGates)

/-- Every domain but PD00 is clamped and reset at once, with no drain: PD00 keeps the power registers and the lease (R600, R605,
R607). PD01 and PD03 are what the next start turns on. -/
def State.clampAll (s : State) : State :=
  let c := s.controlOff
  let keep := c.regs.filter fun q =>
    decide (0x10030000 ≤ q.1 / 32 ∧ q.1 / 32 < 0x10040000) || decide (0x10080000 ≤ q.1 / 32 ∧ q.1 / 32 < 0x10090000)
  let s1 := s.fullReset 0 false
  let p := { s.pwr with idleSince := [], pd01OffAt := none, wakeDue := none, wakeReport := none, posted := [], landing := [], upFailed := [], resetAt := s.now, avsDone := false }
  let s2 := { s1 with regs := keep, now := s.now, twn := c.twn, pwr := p, sent := s.sent }.readFuses
  (((s2.wr Reg.PWR_DOM_EN_LO_EN 0xB).wr Reg.PWR_DOM_EN_HI_EN 0).wr64 Reg.PWR_DOM_ON_LO_ON Reg.PWR_DOM_ON_HI_ON 1).powerStat

/-- A domain goes off because its rail is lost, and stays off until it is turned on again (R600). -/
def State.railOff (s : State) (d : Nat) : State :=
  if !s.domOn d then s
  else
    let s1 := s.domainOff d
    { s1 with pwr := { s1.pwr with upFailed := d :: s1.pwr.upFailed } }.raise 0x3002 srcPower d

/-- RAIL_LOSS (R600). -/
def execRailLoss (dt : Nat) (rail : Rail) (s : State) : Host.Outcome State Fault Refusal :=
  let s1 := s.elapse dt
  .next (
    match rail with
    | .core =>
      let c := s1.clampAll
      { c with pwr := { c.pwr with coreGood := false, vddCore := 800 } }
    | .sram =>
      let c := s1.clampAll
      { c with pwr := { c.pwr with sramGood := false } }
    | .laneAnalog =>
      let c := (List.range 32).foldl (fun t q => t.railOff (4 + q)) s1
      { c with pwr := { c.pwr with laneGood := false } }.noteOver
    | .dramIo =>
      let c := (List.range 4).foldl (fun t g => (t.railOff (53 + g)).loseDram (dramKey (12 * g) 0) (dramKey (12 * g + 12) 0)) s1
      { c with pwr := { c.pwr with dramGood := false } }.noteOver
    | .io => { s1 with pwr := { s1.pwr with ioGood := false } })

/-- THERMAL_TRIP (R607). -/
def execThermalTrip (dt : Nat) (s : State) : Host.Outcome State Fault Refusal :=
  let s1 := s.elapse dt
  .next (
    if s1.pwr.tripped then s1
    else
      let c := if s1.pwr.rstLow then s1 else s1.clampAll
      { c with pwr := { c.pwr with tripped := true, thermN := false } }.pin pinTherm 0)

/-! ### Images and banks (R471, R561, R562) -/

/-- An image of a bank: where its header starts, and the fields of Table 20.3 that the part uses. -/
structure Image where
  at_ : Nat
  type : Nat
  key : Nat
  security : Nat
  length : Nat
  version : Nat
  format : Nat
  protocol : Nat
  deriving DecidableEq, Repr

/-- The image whose header starts at offset `o`. -/
def imageAt (b : List Byte) (o : Nat) : Image :=
  ⟨o, u8 b (o + 2), u8 b (o + 3), u32 b (o + 4), u32 b (o + 8), u32 b (o + 12), u16 b (o + 16), u16 b (o + 18)⟩

/-- Largest body of an image type. -/
def imageMax (type : Nat) : Nat := if type = 1 then 4 * 2 ^ 20 else if type = 6 then 16 * 2 ^ 20 else 2 ^ 20

/-- Is the header of an image as Table 20.3 requires, and its body inside the bank? -/
def Image.sound (i : Image) (b : List Byte) : Bool :=
  u16 b i.at_ == 0x4958 && decide (1 ≤ i.type ∧ i.type ≤ 6) && decide (i.key < 4) && decide (i.security ≤ 64) && i.length % 4 == 0 &&
    decide (i.length ≤ imageMax i.type) && (i.type == 1 || (i.format == 0 && i.protocol == 0)) && zeroAt b (i.at_ + 20) 12 &&
    zeroAt b (i.at_ + 129) 31 && decide (i.at_ + 256 + i.length ≤ b.length)

/-- The images of a bank, back to back, each on a 256-byte boundary; fuel bounds their number. None when one is unsound. -/
def imagesFrom (b : List Byte) : Nat → Nat → Option (List Image)
  | 0, o => if b.length ≤ o then some [] else none
  | n + 1, o =>
    if b.length ≤ o then some []
    else
      let i := imageAt b o
      if i.sound b then (imagesFrom b n ((o + 256 + i.length + 255) / 256 * 256)).map fun r => i :: r else none

/-- The images of a bank: exactly one of each type 1-6, in any order. -/
def bankImages (b : List Byte) : Option (List Image) :=
  match imagesFrom b 6 0 with
  | some is => if is.length = 6 ∧ (List.range 6).all fun t => is.any fun i => i.type == t + 1 then some is else none
  | none => none

/-- The body of an image. -/
def Image.body (i : Image) (b : List Byte) : List Byte := bytesAt b (i.at_ + 256) i.length

/-- The Vault accepts an image: its public key hashes to the unrevoked key index that it names, its signature verifies, and its
security version is at least the floor (R471). -/
def State.imageOk (s : State) (b : List Byte) (i : Image) : Bool :=
  let pub := bytesAt b (i.at_ + 32) 97
  i.sound b && !bit s.vlt.keyRev i.key && Config.keyHash pub == Config.otpKeyHash i.key && decide (s.vlt.floor ≤ i.security) &&
    Config.verifyImage pub (bytesAt b (i.at_ + 160) 96) (bytesAt b i.at_ 160 ++ i.body b)

/-- A bank by its number: 0 A, 1 B. -/
def BootState.bank (b : BootState) (n : Nat) : Bank := if n = 0 then b.bankA else b.bankB

/-- Change a bank, and write the directory (R561). -/
def BootState.putBank (b : BootState) (n : Nat) (x : Bank) : BootState :=
  if n = 0 then { b with bankA := x, dirSeq := b.dirSeq + 1 } else { b with bankB := x, dirSeq := b.dirSeq + 1 }

/-- Does every image of a bank verify (R471, R562)? -/
def State.bankOk (s : State) (n : Nat) : Bool :=
  let b := (s.boot.bank n).bytes
  match bankImages b with
  | some is => is.all (s.imageOk b)
  | none => false

/-- The image of a type in a bank, where the bank holds images at all. -/
def BootState.imageOf (b : BootState) (n type : Nat) : Option Image :=
  ((bankImages (b.bank n).bytes).getD []).find? fun i => i.type == type

/-- The bank that is running. -/
def State.runningBank (s : State) : Nat := s.rd Reg.SYS_BOOT_BANK

/-! ### The settings store (R565, R566) -/

/-- Is a register field part of the stored CONFIG: the memory map, FLT_KEEP.QUAD or FLT_CTL.THRESH? -/
def storedField (key : Nat) : Bool :=
  let a := key / 32
  (decide (0x100F0100 ≤ a ∧ a < 0x100F0300) && a % 32 != 0x0C && a % 32 != 0x10 && a % 32 != 0x1C) ||
    decide (0x100F0400 ≤ a ∧ a < 0x100F0600) || key == Reg.FLT_KEEP_QUAD.key || key == Reg.FLT_CTL_THRESH.key

/-- TWN_CONFIG as its payload, from the settings in force. -/
def State.twinPayload (s : State) : List Byte :=
  if s.twn.pairId = 0 then []
  else
    let fl := b01 s.twinOn + 2 * s.rd Reg.TWN_CTL_SIDE_B + 4 * s.rd Reg.TWN_CTL_HOME + 8 * s.rd Reg.TWN_CTL_AUTO_RESYNC
    be8 fl ++ be8 0 ++ be16 s.twn.pairId ++ be8 s.twn.lane0 ++ be8 s.twn.lane1 ++ be16 s.twn.pairSlot ++ be16 s.twn.lookSlot ++
      be16 s.twn.lookPort ++ beBytes 16 s.twn.addrA ++ beBytes 16 s.twn.addrB ++ be16 s.twn.validityMs ++ be16 s.twn.renewMs ++
      be16 s.twn.holdoffS ++ zeros 2 ++ be64 (s.rd64 Reg.TWN_TALLY_MASK_LO_MASK Reg.TWN_TALLY_MASK_HI_MASK) ++ zeros 4

/-- The CONFIG section as the settings in force make it. -/
def State.currentConfig (s : State) : StoredConfig :=
  ⟨s.regs.filter fun q => storedField q.1,
   s.net.ports.filterMap fun (x : PortRec) => x.mgtIp.map fun m => (x.p, m),
   s.twinPayload⟩

/-- SETTINGS_STORE_WRITE (R565): the copies are written alternately, in the format of the running ranger image. -/
def execSettingsStoreWrite (dt : Nat) (s : State) : Host.Outcome State Fault Refusal :=
  let s1 := s.elapse dt
  .next (
    if s1.boot.storeDue.isNone ∨ s1.boot.firmwareSince.isNone then s1
    else { s1 with boot := { s1.boot with
      config := s1.currentConfig, configFormat := s1.boot.format, configValid := true, storeCopy := 1 - s1.boot.storeCopy, storeDue := none } })

/-- Ranger firmware takes its settings from the store, or uses the defaults when the store does not fit (R566). -/
def State.loadConfig (s : State) : State :=
  if !s.boot.configValid ∨ s.boot.configFormat ≠ s.boot.format then s.raise 0x3105 srcSystem 0
  else
    let c := s.boot.config
    let s1 := { s with regs := c.regs.foldl (fun (r : RegFile) (q : Nat × Nat) => r.ins q.1 q.2) s.regs }
    let s2 := c.mgt.foldl (fun t m => t.modNetPort m.1 fun x => { x with mgtIp := some m.2 }) s1
    let s3 := if c.twin.isEmpty then s2
      else if bit (u8 c.twin 0) 0 then (s2.twinSettings c.twin).twinStart else s2.twinSettings c.twin
    { s3 with boot := { s3.boot with storeDue := s.boot.storeDue } }

/-! ### The boot ROM (R560, R562, R571) -/

/-- The ROM enters recovery mode. -/
def State.recoveryMode (s : State) : State :=
  let s1 := s.wr Reg.SYS_BOOT_RECOVERY 1
  { s1 with boot := { s1.boot with romServes := true } }.raise 0x3103 srcSystem 0

/-- The banks that the ROM tries, in order: the TRIAL bank, then CONFIRMED ones by commit count. -/
def BootState.choice (b : BootState) : List Nat :=
  let trial := (List.range 2).filter fun n => (b.bank n).state == 2
  let good := (List.range 2).filter fun n => (b.bank n).state == 3
  trial ++ (if b.bankA.commit < b.bankB.commit then good.reverse else good)

/-- A TRIAL bank that would be started a third time is REJECTED. -/
def State.rejectTrial (s : State) : State :=
  match (List.range 2).find? fun n => (s.boot.bank n).state == 2 && decide (2 ≤ s.boot.trialStarts) with
  | some n =>
    let x := s.boot.bank n
    ({ s with boot := s.boot.putBank n { x with state := 4 } }.raise 0x3102 srcSystem n).wr Reg.SYS_BOOT_FALLBACK 1
  | none => s

/-- The ranger image of bank `n` starts: it lies in control SRAM at address 0, with REMAP set. -/
def State.startBank (s : State) (n : Nat) : State :=
  let x := s.boot.bank n
  let i := ((s.boot.imageOf n 1).getD ⟨0, 1, 0, 0, 0, 0, 0, 0⟩)
  let trial := x.state == 2
  let b0 := s.boot
  let b1 := if trial then { b0 with trialStarts := b0.trialStarts + 1, dirSeq := b0.dirSeq + 1 } else b0
  let b2 := { b1 with version := i.version, format := i.format, protocol := i.protocol, firmwareSince := some s.now }
  let s1 := (({ s with boot := b2 }.wr Reg.SYS_CTL_REMAP 1).memWrite 0 (i.body x.bytes)).wr Reg.SYS_BOOT_BANK n
  ((s1.wr Reg.SYS_BOOT_TRIAL (b01 trial)).wr Reg.SYS_BOOT_TRIALS b2.trialStarts).loadConfig

/-- The ROM tries banks in order; when all fail it enters recovery mode. -/
def State.tryBanks (s : State) : List Nat → State
  | [] => s.recoveryMode
  | n :: r => if s.bankOk n then s.startBank n else ((s.raise 0x3101 srcSystem n).wr Reg.SYS_BOOT_FALLBACK 1).tryBanks r

/-- ROM_BOOT (R560): ranger core 0 runs the boot ROM. -/
def execRomBoot (dt : Nat) (s : State) : Host.Outcome State Fault Refusal :=
  let s1 := s.elapse dt
  .next (
    if !s1.domOn 1 ∨ s1.boot.firmwareSince.isSome ∨ s1.boot.romServes ∨ s1.flt.halted then s1
    else
      let s2 := (s1.setEnables (s1.enMask ||| 2 ^ 57)).readFuses.wr Reg.SYS_BOOT_CAUSE s1.boot.nextCause
      if s2.vlt.lcs = 0 then s2
      else if s2.vlt.lcs = 5 then { s2 with boot := { s2.boot with romServes := true } }
      else if s2.pwr.recovery then s2.recoveryMode
      else
        let s3 := s2.rejectTrial
        s3.tryBanks s3.boot.choice)

/-- The unit type that an image serves, where it needs DRAM group 0, and the domains it serves (R563, Table 20.4). -/
def imageUnits (type : Nat) : Nat × Bool × (Nat → Bool) :=
  match type with
  | 2 => (0x17, true, fun d => decide (41 ≤ d ∧ d ≤ 46))
  | 3 => (0x0F, true, fun d => decide (47 ≤ d ∧ d ≤ 52))
  | 4 => (0x18, false, fun d => d == 37 || d == 38)
  | 5 => (0x0D, false, fun d => d == 40)
  | 6 => (0x1B, true, fun d => d == 2)
  | _ => (0, false, fun _ => false)

/-- Source of BOOT_IMAGE_FAIL: the block whose units an image of domain `d` serves, as a whole. -/
def imageSource (d : Nat) : Nat :=
  if d = 2 then srcOf 7 1 0xFFFF else if d = 40 then srcOf 5 3 0xFFFF else if d < 41 then srcOf 5 (d - 37) 0xFFFF else srcOf 6 (d - 41) 0xFFFF

/-- The engines of a domain report READY; the host image is first copied to offset 0 of set 0. -/
def State.imageRuns (s : State) (type d : Nat) (i : Image) : State :=
  let u := imageUnits type
  let s1 := if type = 6 then s.memWrite (s.setBase 0) (i.body (s.boot.bank s.runningBank).bytes) else s
  let us := (domainUnits s.variant d).filter fun x => x.1 == u.1 && !s.shutIn x.1 x.2 && !s.isReady x.1 x.2
  ((us.foldl (fun t x => t.setReady x.1 x.2) s1).endCause 0x3104 (imageSource d) type).settle

/-- IMAGE_LOAD (R563, R611): the images of the bank that was started are verified once more. -/
def execImageLoad (dt type domain : Nat) (s : State) : Host.Outcome State Fault Refusal :=
  let s1 := s.elapse dt
  let u := imageUnits type
  .next (
    if s1.boot.firmwareSince.isNone ∨ !u.2.2 domain ∨ !s1.domOn domain ∨ !s1.domEn domain ∨ (u.2.1 ∧ s1.rd Reg.MEM_STAT_GROUP_READY % 2 = 0) then s1
    else
      match s1.boot.imageOf s1.runningBank type with
      | some i => if s1.imageOk (s1.boot.bank s1.runningBank).bytes i then s1.imageRuns type domain i else s1.raise 0x3104 (imageSource domain) type
      | none => s1.raise 0x3104 (imageSource domain) type)

/-- TRIAL_CONFIRM (R562): the interpreter of a TRIAL bank has been READY for 60 s with no FATAL event. -/
def execTrialConfirm (dt : Nat) (s : State) : Host.Outcome State Fault Refusal :=
  let s1 := s.elapse dt
  .next (
    match s1.boot.firmwareSince with
    | none => s1
    | some t =>
      let n := s1.runningBank
      let x := s1.boot.bank n
      if x.state ≠ 2 ∨ s1.now < t + 60 * 10 ^ 9 ∨ s1.flt.restartDue ∨ (s1.flt.fatalTimes.any fun f => decide (t ≤ f)) then s1
      else { s1 with boot := s1.boot.putBank n { x with state := 3 } }.wr Reg.SYS_BOOT_TRIAL 0)

/-- ACTIVATE_RESET (R569): 100 ms after the COMPLETE of a UPD_COMMIT with ACTIVATE. -/
def execActivateReset (dt : Nat) (s : State) : Host.Outcome State Fault Refusal :=
  let s1 := s.elapse dt
  .next (if s1.boot.activateAt.any fun t => decide (t ≤ s1.now) then s1.fullReset 3 false else s1)

/-- LIFECYCLE_RESET (R456): 10 ms after the reply of a life-cycle transition. -/
def execLifecycleReset (dt : Nat) (s : State) : Host.Outcome State Fault Refusal :=
  let s1 := s.elapse dt
  .next (if s1.boot.lifecycleAt.any fun t => decide (t ≤ s1.now) then s1.fullReset 2 false else s1)

/-! ### Updates (R567-R570, R572) -/

/-- The bank that UPD_BEGIN selects: the one not running; in recovery one that is not CONFIRMED, or A when both are. -/
def State.updateTarget (s : State) : Nat :=
  if s.boot.romServes then (if s.boot.bankA.state ≠ 3 then 0 else if s.boot.bankB.state ≠ 3 then 1 else 0)
  else 1 - s.runningBank

/-- UPD_BEGIN (R567). -/
def opUpdBegin : OpSpec where
  code := 0x1000
  cls := .l
  keys := false
  length p := p.length == 8
  fields _ p := [(0, u32 p 0 % 4 == 0 && decide (u32 p 0 ≤ 26 * 2 ^ 20)), (4, zeroAt p 4 4)]
  units _ _ := []
  locked _ _ := false
  cruise := false
  run s x p :=
    let other := s.boot.update.any fun u => u.session != x.session
    if other ∨ s.boot.verify.isSome ∨ (!s.boot.romServes ∧ (s.boot.bank s.runningBank).state = 2) then
      ⟨s, stBusy, detail 0xFFFF 0 0xFFFFFFFF, []⟩
    else
      let n := s.updateTarget
      let b := s.boot.putBank n ⟨1, [], u32 p 0, 0⟩
      Done.ok { s with boot := { b with update := some ⟨x.session, n, u32 p 0, 0, s.now⟩ } } (be8 n ++ zeros 3)

/-- The open update of a session, while no verification runs. -/
def State.openUpdate (s : State) (session : Nat) : Option Update :=
  if s.boot.verify.isSome then none else s.boot.update.filter fun u => u.session == session

/-- UPD_DATA (R568). -/
def opUpdData : OpSpec where
  code := 0x1001
  cls := .l
  keys := false
  length p := decide (8 ≤ p.length ∧ p.length ≤ 8192)
  fields _ _ := []
  units _ _ := []
  locked _ _ := false
  cruise := false
  run s x p :=
    match s.openUpdate x.session with
    | none => Done.err s stBadParam 24
    | some u =>
      let data := p.drop 4
      if u32 p 0 ≠ u.received ∨ u.declared < u.received + data.length then Done.err s stBadParam 24
      else
        let k := s.boot.bank u.target
        let b := if u.target = 0 then { s.boot with bankA := { k with bytes := k.bytes ++ data } } else { s.boot with bankB := { k with bytes := k.bytes ++ data } }
        Done.ok { s with boot := { b with update := some { u with received := u.received + data.length, lastData := s.now } } } []

/-- UPD_COMMIT (R569). -/
def opUpdCommit : OpSpec where
  code := 0x1002
  cls := .l
  keys := false
  length p := p.length == 4
  fields _ p := [(0, decide (u8 p 0 < 2)), (1, zeroAt p 1 3)]
  units _ _ := []
  locked _ _ := false
  cruise := false
  run s x p :=
    match s.openUpdate x.session with
    | none => Done.err s stBadParam 24
    | some u =>
      if u.received < u.declared then Done.err s stBadParam 24
      else Done.pending { s with boot := { s.boot with verify := some (x.tag, x.session, bit (u8 p 0) 0) } } []

/-- UPD_STATUS (R570). -/
def opUpdStatus : OpSpec where
  code := 0x1003
  cls := .q
  keys := false
  length p := p.isEmpty
  fields _ _ := []
  units _ _ := []
  locked _ _ := false
  cruise := false
  run s _ _ :=
    let st := if s.boot.verify.isSome then 2 else if s.boot.update.isSome then 1 else 0
    let n := s.runningBank
    let other := s.boot.bank (1 - n)
    let ov := if other.state = 0 then 0 else ((s.boot.imageOf (1 - n) 1).map fun (i : Image) => i.version).getD 0
    let got := (s.boot.update.map fun (u : Update) => (u.received, u.declared)).getD (0, 0)
    Done.ok s (be8 st ++ be8 n ++ be8 s.boot.bankA.state ++ be8 s.boot.bankB.state ++ be32 got.1 ++ be32 got.2 ++ be32 s.boot.version ++
      be32 ov ++ be8 s.vlt.floor ++ be8 s.boot.trialStarts ++ zeros 2)

/-- UPD_BEGIN. -/
def execUpdBegin (dt : Nat) (rq : Req) (s : State) : Host.Outcome State Fault Refusal := .next (serve opUpdBegin dt rq s)
/-- UPD_DATA. -/
def execUpdData (dt : Nat) (rq : Req) (s : State) : Host.Outcome State Fault Refusal := .next (serve opUpdData dt rq s)
/-- UPD_COMMIT. -/
def execUpdCommit (dt : Nat) (rq : Req) (s : State) : Host.Outcome State Fault Refusal := .next (serve opUpdCommit dt rq s)
/-- UPD_STATUS. -/
def execUpdStatus (dt : Nat) (rq : Req) (s : State) : Host.Outcome State Fault Refusal := .next (serve opUpdStatus dt rq s)

/-- The verification of an update ends: the bank becomes TRIAL, or is EMPTY again. -/
def State.updateVerified (s : State) (u : Update) (tag session : Nat) (activate : Bool) : State :=
  let x := s.boot.bank u.target
  let other := s.boot.bank (1 - u.target)
  if s.bankOk u.target then
    let b := s.boot.putBank u.target { x with state := 2, commit := other.commit + 1 }
    { s with boot := { b with trialStarts := 0, update := none, verify := none, activateAt := if activate then some (s.now + 10 ^ 8) else none } }.finish
      session tag stOk 0
  else { s with boot := { s.boot.putBank u.target Bank.empty with update := none, verify := none } }.finish session tag stBadParam 0

/-- UPD_VERIFY_DONE (R569, R471). -/
def execUpdVerifyDone (dt : Nat) (s : State) : Host.Outcome State Fault Refusal :=
  let s1 := s.elapse dt
  .next (match s1.boot.verify, s1.boot.update with
    | some v, some u => s1.updateVerified u v.1 v.2.1 v.2.2
    | _, _ => s1)

/-- UPD_DATA_TIMEOUT (R568): 60 s without an UPD_DATA. -/
def execUpdDataTimeout (dt : Nat) (s : State) : Host.Outcome State Fault Refusal :=
  let s1 := s.elapse dt
  .next (match s1.boot.update with
    | some u => if s1.boot.verify.isNone ∧ u.lastData + 60 * 10 ^ 9 ≤ s1.now then { s1 with boot := s1.boot.dropUpdate u.session } else s1
    | none => s1)

/-! ### VLT_LIFECYCLE (R455, R456, R472, R482) -/

/-- The transitions that R455 permits. -/
def State.transitionOk (s : State) (target : Nat) : Bool :=
  let l := s.lifeCycle
  (l == 0 && target == 1) || (l == 1 && (target == 2 || target == 3)) || (l == 2 && target == 3) ||
    (l == 2 && target == 1 && !s.vlt.everDeployed && decide (s.vlt.devSteps < 4)) || (l == 3 && target == 4) ||
    (l != 0 && l != 5 && target == 5)

/-- The images of both banks. -/
def State.flashImages (s : State) : List Image := [s.boot.bankA, s.boot.bankB].flatMap fun (x : Bank) => (bankImages x.bytes).getD []

/-- May the argument of VLT_LIFECYCLE be done? -/
def State.lifecycleOk (s : State) (op arg : Nat) : Bool :=
  if op = 0 then s.transitionOk arg
  else if op = 1 then decide (arg < 4) && (s.flashImages.all fun i => i.key != arg) && (List.range 4).any fun k => k != arg && !bit s.vlt.keyRev k
  else decide (s.vlt.floor ≤ arg ∧ arg ≤ 64) && s.flashImages.all fun i => decide (arg ≤ i.security)

/-- VLT_LIFECYCLE: `fuses` says whether the fuse programming verifies. -/
def opVltLifecycle (fuses : Bool) : OpSpec where
  code := 0x0C04
  cls := .l
  keys := true
  length p := p.length == 12
  fields s p := [(0, decide (u8 p 0 < 3)), (1, s.lifecycleOk (u8 p 0) (u8 p 1)), (2, zeroAt p 2 2), (4, u64 p 4 == Config.otpSerial.toNat)]
  units s p := if s.lifeCycle = 0 ∧ u8 p 0 = 0 then [] else vaultUnit
  locked s p := s.lifeCycle == 0 && u8 p 0 == 0 && u8 p 1 == 1
  cruise := false
  run s _ p :=
    let v := s.vlt
    let a := u8 p 1
    if !fuses then ⟨s, stInternal, detail 0xFFFF 0 0xFFFFFFFF, []⟩
    else if u8 p 0 = 0 then
      let w := { v with lcs := a, devSteps := v.devSteps + b01 (v.lcs == 2 && a == 1), everDeployed := v.everDeployed || a == 3 }
      Done.ok { s with vlt := w, boot := { s.boot with lifecycleAt := some (s.now + 10 ^ 7) } } []
    else if u8 p 0 = 1 then
      let k := if bit v.keyRev a then v.keyRev else v.keyRev + 2 ^ a
      Done.ok ({ s with vlt := { v with keyRev := k } }.wr Reg.VLT_STAT_KEYREV k) []
    else Done.ok ({ s with vlt := { v with floor := a } }.wr Reg.VLT_STAT_FLOOR a) []

/-- VLT_LIFECYCLE. -/
def execVltLifecycle (dt : Nat) (rq : Req) (fuses : Bool) (s : State) : Host.Outcome State Fault Refusal :=
  .next (serve (opVltLifecycle fuses) dt rq s)

/-! ### The control restart (R522, R524, R562) -/

/-- What the interpreter keeps across a control restart: mailbox halts and the sequences of SYS_SESSION_OPEN. -/
def State.loseSessions (s : State) : State :=
  let ids := (s.cyx.sessions.filter fun x => x.id != 0).map fun (x : Session) => x.id
  let s1 := ids.foldl (fun t i => t.closeSession i) s
  { s1 with cyx := { CyxState.reset with halted := s1.cyx.halted, openSeq := s1.cyx.openSeq } }

/-- The UNIT_LOST reactions of the uncleared table start again at their first step after the event was sent; the queue takes 256 of
them (R524). -/
def State.redoLost (s : State) : State :=
  let es := (s.unclearedSorted.filter fun e => e.cls == 4).map fun (e : Event) => (⟨e.num, e.code, e.cls, e.src, e.obj, 1⟩ : Reaction)
  { s with flt := { s.flt with running := es.take 1, queue := (es.drop 1).take 256, restartDue := false } }

/-- The ranger cores start again from the bank that runs. -/
def State.controlRestart (s : State) : State :=
  let trial := (s.boot.bank s.runningBank).state == 2
  let s1 := ([8, 9, 10, 11] : List Nat).foldl (fun t m => t.resetMaster m) s.loseSessions
  let b := s1.boot
  let b1 := if trial then { b with trialStarts := b.trialStarts + 1, dirSeq := b.dirSeq + 1 } else b
  let s2 := { s1 with boot := { b1 with update := none, verify := none, firmwareSince := some s.now }, cru := { s1.cru with reports := [] } }
  let s3 := (s2.wr Reg.SYS_BOOT_TRIALS b1.trialStarts).bump Reg.FLT_RESTART_COUNT 1
  (s3.redoLost.raise 0x2F0E srcCollector 0).noteOver

/-- CONTROL_RESTART (R522): a TRIAL bank that would be started a third time calls for a full reset in place of the restart (R562). -/
def execControlRestart (dt : Nat) (s : State) : Host.Outcome State Fault Refusal :=
  let s1 := s.elapse dt
  .next (
    if !s1.flt.restartDue ∨ s1.flt.halted ∨ !s1.domOn 1 then s1
    else if (s1.boot.bank s1.runningBank).state = 2 ∧ 2 ≤ s1.boot.trialStarts then s1.fullReset 5 false
    else s1.controlRestart)

end Sys2Proof.Machine
end

