-- ==== Sys2Proof/Machine/SysCmds.lean ====
section
/-!
DEFINITION. The SYS commands (R58-R62, R41, R45, R56, R555), the ends of sessions and partial messages (R33, R40), and the sideband's
block read (R36).
-/
namespace Sys2Proof.Machine

/-! ### SYS_NOP, SYS_INFO (R60, R61) -/

/-- SYS_NOP (R60). -/
def opSysNop : OpSpec where
  code := 1
  cls := .q
  keys := false
  length _ := true
  fields _ _ := []
  units _ _ := []
  locked _ _ := false
  cruise := false
  run s _ p := Done.ok s p

/-- The part number by variant. -/
def partNumber : Variant → Nat
  | .px7210 => 0x7210
  | .px7206 => 0x7206
  | .px7203 => 0x7203

/-- The window of a capability: base, log2 of the span, and how instances share windows (Table 21.4). -/
def capWindow (cap : Nat) : Nat × Nat × Nat :=
  match cap with
  | 0x01 => (0x10000000, 12, 0)
  | 0x02 => (0x10010000, 12, 0)
  | 0x03 => (0x10020000, 16, 0)
  | 0x04 => (0x10030000, 16, 0)
  | 0x05 => (0x10040000, 16, 0)
  | 0x06 => (0x10050000, 16, 0)
  | 0x07 => (0x10060000, 16, 0)
  | 0x08 => (0x10070000, 16, 0)
  | 0x09 => (0x10080000, 16, 0)
  | 0x0A => (0x10090000, 16, 0)
  | 0x0B => (0x100A0000, 16, 0)
  | 0x0C => (0x100B0000, 14, 0)
  | 0x0D => (0x100C0000, 12, 0)
  | 0x0E => (0x100D0000, 16, 0)
  | 0x0F => (0x100E0000, 16, 0)
  | 0x10 => (0x100F0000, 16, 0)
  | 0x11 => (0x10100000, 16, 2)
  | 0x12 => (0x10300000, 12, 1)
  | 0x13 => (0x10600000, 16, 1)
  | 0x14 => (0x10A00000, 16, 1)
  | 0x15 => (0x10B00000, 12, 0)
  | _ => (0, 0, 0)

/-- The entries of the Almanac, as capability and DRAM group, in list order (R591, Table 21.4). -/
def almanacList : List (Nat × Nat) :=
  (List.range 30).flatMap fun c => if c = 0 then [] else if c = 0x12 then (List.range 4).map fun g => (c, g) else [(c, 0)]

/-- The instances that an Almanac entry stands for. -/
def State.entryUnits (s : State) (e : Nat × Nat) : List Nat :=
  if e.1 = 0x12 then ((List.range 12).map fun i => 12 * e.2 + i).filter fun i => s.present 0x12 i else List.range (capCount s.variant e.1)

/-- What an Almanac entry reports: instances present, instances READY, window base, log2 of the span, windows. -/
def State.almanac (s : State) (e : Nat × Nat) : Nat × Nat × Nat × Nat × Nat :=
  let us := s.entryUnits e
  let w := capWindow e.1
  (us.length, (us.filter fun i => s.isReady e.1 i).length, w.1 + 0xC0000 * e.2, w.2.1, w.2.2)

/-- An entry as SYS_ALMANAC_READ returns it (Table 2.14). -/
def State.almanacEntry (s : State) (e : Nat × Nat) : List Byte :=
  let a := s.almanac e
  be16 e.1 ++ be8 1 ++ be8 (b01 (a.1 != 0) + 2 * b01 (a.1 != 0 && a.2.1 == a.1)) ++ be16 a.1 ++ be16 a.2.1 ++ be32 a.2.2.1 ++
    be32 (if a.2.2.1 = 0 then 0 else 2 ^ a.2.2.2.1)

/-- SYS_INFO (R61): in the ROM the fields that it cannot know are 0. -/
def opSysInfo : OpSpec where
  code := 2
  cls := .q
  keys := false
  length p := p.isEmpty
  fields _ _ := []
  units _ _ := []
  locked _ _ := false
  cruise := false
  run s _ _ :=
    let fw := s.boot.firmwareSince.isSome
    let know := fun (n : Nat) => if fw then n else 0
    let fl := s.rd Reg.SYS_BOOT_TRIAL + 2 * s.rd Reg.SYS_BOOT_RECOVERY + 4 * b01 s.twinOn + 8 * b01 (s.twinOn && s.flag Reg.TWN_CTL_SIDE_B) +
      16 * know (b01 s.holdsLease)
    Done.ok s (be16 (partNumber s.variant) ++ be8 (s.rd Reg.SYS_PART_REV) ++ be8 s.lifeCycle ++ be64 Config.otpSerial.toNat ++
      be32 (know s.boot.version) ++ be8 s.runningBank ++ be8 fl ++ be16 (if s.twinOn then s.cardId else 0) ++ be16 (know s.boot.format) ++
      be16 (know s.boot.protocol) ++ be16 (know 1) ++ be16 almanacList.length ++ be32 ((s.now - s.pwr.resetAt) / 10 ^ 9) ++
      timeBytes (know s.chrono) ++ be32 s.powerLimit ++ zeros 16)

/-- SYS_ALMANAC_READ (R58). -/
def opSysAlmanacRead : OpSpec where
  code := 3
  cls := .q
  keys := false
  length p := p.length == 4
  fields _ p := [(2, decide (1 ≤ u16 p 2 ∧ u16 p 2 ≤ 255))]
  units _ _ := []
  locked _ _ := false
  cruise := false
  run s _ p :=
    let es := (almanacList.drop (u16 p 0)).take (u16 p 2)
    Done.ok s (be32 es.length ++ es.flatMap s.almanacEntry)

/-! ### SYS_RESET_UNIT (R555) -/

/-- The units that a SYS_RESET_UNIT names. -/
def State.namedUnits (s : State) (cap inst : Nat) : List (Nat × Nat) :=
  if inst = 0xFFFF then (List.range (capCount s.variant cap)).map fun i => (cap, i) else [(cap, inst)]

/-- The domains of a list of units. -/
def unitDomains (us : List (Nat × Nat)) : List Nat := (us.map fun u => capDomain u.1 u.2).eraseDups

/-- Do the units make up whole domains? -/
def State.wholeDomains (s : State) (us : List (Nat × Nat)) : Bool :=
  (unitDomains us).all fun d => (domainUnits s.variant d).all fun u => us.contains u

/-- A block that isolated itself is reset as a whole, and rejoins (R11, R555). -/
def State.rejoin (s : State) (b : Nat) : State :=
  let us := sourceUnits s.variant (blockSource b)
  let s1 := us.foldl (fun t u => t.resetUnit u.1 u.2) s
  { s1 with isolated := s1.isolated.filter (· != b) }

/-- The causes of UNIT_ISOLATED end whose units are all reset and behind no closed Firebreak. -/
def State.endIsolation (s : State) (us : List (Nat × Nat)) : State :=
  let gone := (s.flt.causes.map fun c => c.1).filter fun c => c.1 == 0x2F05 &&
    (sourceUnits s.variant c.2.1).all fun u => us.contains u && !s.shutIn u.1 u.2
  gone.foldl (fun t c => t.endCause c.1 c.2.1 c.2.2) s

/-- Reset units: each alone, or its whole block when that has isolated itself. -/
def State.resetUnits (s : State) (us : List (Nat × Nat)) : State :=
  let shut := ((us.filter fun u => s.blockShut u.1 u.2).filterMap fun u => unitBlock u.1 u.2).eraseDups
  let all := us ++ shut.flatMap fun b => sourceUnits s.variant (blockSource b)
  let s1 := (us.filter fun u => !s.blockShut u.1 u.2).foldl (fun t u => t.resetUnit u.1 u.2) s
  (shut.foldl (fun t b => t.rejoin b) s1).endIsolation all

/-- SYS_RESET_UNIT (R555). -/
def opSysResetUnit : OpSpec where
  code := 4
  cls := .c
  keys := false
  length p := p.length == 8
  fields s p :=
    let c := u16 p 0
    let i := u16 p 2
    let us := s.namedUnits c i
    let inPd := fun (d : Nat) => us.any fun u => capDomain u.1 u.2 == d
    let cycle := bit (u8 p 4) 0
    [(0, decide (1 ≤ c ∧ c < 30)), (2, i == 0xFFFF || decide (i < capMax c)), (0, !(inPd 0 || inPd 1 || inPd 3)), (4, decide (u8 p 4 < 2)),
     (4, !cycle || (s.wholeDomains us && (unitDomains us).all fun d => !s.smallestSet.contains d)), (5, zeroAt p 5 3)]
  units _ _ := []
  locked _ _ := false
  cruise := false
  run s x p :=
    let c := u16 p 0
    let i := u16 p 2
    let us := (s.namedUnits c i).filter fun u => s.present u.1 u.2
    let inst := if i = 0xFFFF then 0xFFFFFFFF else i
    if us.isEmpty then ⟨s, stNotPresent, detail 0xFFFF c inst, []⟩
    else match us.find? fun u => !s.domOn (capDomain u.1 u.2) with
      | some u => ⟨s, stNotReady, detail 0xFFFF u.1 u.2, []⟩
      | none =>
        let s1 := if bit (u8 p 4) 0 then ((unitDomains us).foldl (fun t d => t.domainOff d) s).endIsolation us else s.resetUnits us
        Done.pending ((s1.noteOver).await ⟨x.tag, x.session, x.entry, .unit c i, none⟩) []

/-! ### Sessions (R41, R45, R56, R62) -/

/-- The lowest session ID that is not open; one whose packets are answered KEY_REVOKED is taken only when no other is free (R41, R45). -/
def State.freeSession (s : State) : Nat :=
  let free := ((List.range (min 65534 (65 + s.cyx.revoked.length))).map (· + 1)).find? fun i => (s.session i).isNone && !s.cyx.revoked.contains i
  match free with
  | some i => i
  | none => (s.cyx.revoked.getLast?).getD 1

/-- The rights of a parent slot, as bits 0-2. -/
def slotRights (attrs : Nat) : Nat := attrs / 4 % 8

/-- Open a session under a parent slot; the session slot is a child of it, and reports of a session that had its ID before are forgotten
(R41, R85, R466, Table 16.4). -/
def State.openSession (s : State) (t : Nat) (p : List Byte) : State × List Byte :=
  let par := u16 p 0
  let x := s.slot par
  let id := s.freeSession
  let d := s.draw
  let nonce := beBytes 16 d.1.toNat
  let key := kdf256 x.key (ascii "CYXS" ++ be16 id ++ bytesAt p 8 16 ++ nonce) []
  let rights := u16 p 2 &&& slotRights x.attrs
  let y : Slot := ⟨key, 2 + 4 * rights, 1, par, x.level + 1, 1, 0, x.gen, Config.sha256 (ascii "CYXS" ++ be16 id ++ bytesAt p 8 16 ++ nonce), 0, true, false⟩
  let idle := if u16 p 4 = 0 then 60 else u16 p 4
  let z : Session := ⟨id, rights, par, t, key, idle, s.now, 0, [], (0, 0, []), [], 0, .sideband, [], 0, 0, [], false⟩
  let s1 := (d.2.fillSlot t y).countSlots
  ({ s1 with
      cyx := { s1.cyx with sessions := s1.cyx.sessions ++ [z], revoked := s1.cyx.revoked.filter (· != id) }
      cru := { s1.cru with reports := s1.cru.reports.filter fun r => r.session != id } }, be16 id ++ be16 rights ++ zeros 4 ++ nonce)

/-- SYS_SESSION_OPEN (R40, R41, R459). -/
def opSysSessionOpen : OpSpec where
  code := 5
  cls := .s
  keys := false
  length p := p.length == 24
  fields s p :=
    [(0, !s.vaultReady || decide ((s.slot (u16 p 0)).level < 8)), (2, decide (u16 p 2 < 8)), (4, decide (u16 p 4 ≤ 3600)), (6, zeroAt p 6 2)]
  units _ _ := vaultUnit
  locked _ _ := false
  cruise := false
  run s x p :=
    if x.session ≠ 0 then Done.err s stBadParam 16
    else if !s.trngOk then ⟨s, stNotReady, detail 0xFFFF 5 0, []⟩
    else if 64 ≤ (s.cyx.sessions.filter fun y => y.id != 0).length then ⟨s, stBusy, detail 0xFFFF 0 0xFFFFFFFF, []⟩
    else match s.freeSlot with
      | none => ⟨s, stBusy, detail 0xFFFF 0 0xFFFFFFFF, []⟩
      | some t =>
        let r := s.openSession t p
        Done.ok r.1 r.2

/-- SYS_SESSION_CLOSE (R45, R62): the session is closed once its reply is sent. -/
def opSysSessionClose : OpSpec where
  code := 6
  cls := .s
  keys := false
  length p := p.length == 4
  fields _ p := [(0, zeroAt p 0 4)]
  units _ _ := []
  locked _ _ := false
  cruise := false
  run s x _ :=
    match s.session x.session with
    | none => Done.err s stBadParam 16
    | some y =>
      if y.id = 0 then Done.err s stBadParam 16
      else
        let s1 := (if y.revoked then s else s.invalidate y.slot).modSession y.id fun z => { z with queue := [], revoked := true }
        Done.ok s1 (be32 y.queue.length)

/-- SYS_SUBSCRIBE (R56). -/
def opSysSubscribe : OpSpec where
  code := 8
  cls := .s
  keys := false
  length p := p.length == 4
  fields _ p := [(0, decide (u32 p 0 < 64))]
  units _ _ := []
  locked _ _ := false
  cruise := false
  run s x p := Done.ok (s.modSession x.session fun y => { y with mask := u32 p 0 }) []

/-- SYS_NOP. -/
def execSysNop (dt : Nat) (rq : Req) (s : State) : Host.Outcome State Fault Refusal := .next (serve opSysNop dt rq s)
/-- SYS_INFO. -/
def execSysInfo (dt : Nat) (rq : Req) (s : State) : Host.Outcome State Fault Refusal := .next (serve opSysInfo dt rq s)
/-- SYS_ALMANAC_READ. -/
def execSysAlmanacRead (dt : Nat) (rq : Req) (s : State) : Host.Outcome State Fault Refusal := .next (serve opSysAlmanacRead dt rq s)
/-- SYS_RESET_UNIT. -/
def execSysResetUnit (dt : Nat) (rq : Req) (s : State) : Host.Outcome State Fault Refusal := .next (serve opSysResetUnit dt rq s)
/-- SYS_SESSION_OPEN. -/
def execSysSessionOpen (dt : Nat) (rq : Req) (s : State) : Host.Outcome State Fault Refusal := .next (serve opSysSessionOpen dt rq s)
/-- SYS_SESSION_CLOSE. -/
def execSysSessionClose (dt : Nat) (rq : Req) (s : State) : Host.Outcome State Fault Refusal := .next (serve opSysSessionClose dt rq s)
/-- SYS_SUBSCRIBE. -/
def execSysSubscribe (dt : Nat) (rq : Req) (s : State) : Host.Outcome State Fault Refusal := .next (serve opSysSubscribe dt rq s)

/-! ### Time-outs and the sideband -/

/-- REASSEMBLY_TIMEOUT (R33): a partial message without a fragment for 100 ms is abandoned and answered BAD_LENGTH. -/
def execReassemblyTimeout (dt : Nat) (via : Transport) (session : Nat) (s : State) : Host.Outcome State Fault Refusal :=
  let s1 := s.elapse dt
  let rq : Req := ⟨via, 1, 0, 0, 0, 0, session, [], 0⟩
  .next (
    match s1.partialOf rq with
    | none => s1
    | some q =>
      if s1.now < q.last + 10 ^ 8 then s1
      else
        (s1.dropPartial rq).abandon q rq)

/-- SESSION_IDLE_TIMEOUT (R40): an opened session without an accepted packet for its idle time is closed. -/
def execSessionIdleTimeout (dt session : Nat) (s : State) : Host.Outcome State Fault Refusal :=
  let s1 := s.elapse dt
  .next (
    match s1.session session with
    | some x => if x.id = 0 ∨ s1.now < x.last + x.idle * 10 ^ 9 then s1 else s1.closeSession x.id
    | none => s1)

/-- A block read returns a byte count and bytes, with the PEC of the transfer: the CRC-8 over the address with the write bit, the command
code 0xC1, the address with the read bit, the count and the bytes, as SMBus has it (R36; log entry 81). -/
def State.blockRead (s : State) (b : List Byte) : State :=
  let a := 2 * s.rd Reg.PWR_SB_ADDR
  { s with sent := .blockRead b (crc8 (be8 a ++ be8 0xC1 ++ be8 (a + 1) ++ be8 b.length ++ b)) :: s.sent }

/-- The next event that waits on the sideband, as the fragment that carries it; a count of 0 without one. -/
def State.sidebandEvent (s : State) : State :=
  match s.cyx.sessions.find? fun x => x.transport == .sideband && !x.events.isEmpty with
  | none => s.blockRead []
  | some x =>
    match x.events with
    | [] => s.blockRead []
    | m :: r => ((s.countEvent x m).modSession x.id fun y => { y with events := r }).blockRead (x.eventBytes m)

/-- SIDEBAND_BLOCK_READ (R36): the next reply or event fragment, or a count of 0; before the interpreter is READY nothing is acknowledged
(R548). Which of a waiting reply and a waiting event comes first the spec does not say: replies come first, then events in the order of
the sessions (DESIGN CHOICE, log entry 106). -/
def execSidebandBlockRead (dt : Nat) (s : State) : Host.Outcome State Fault Refusal :=
  let s1 := s.elapse dt
  .next (
    if !s1.serves .sideband then { s1 with sent := .nack :: s1.sent }
    else match s1.cyx.sideband with
      | b :: r => { s1 with cyx := { s1.cyx with sideband := r } }.blockRead b
      | [] => s1.sidebandEvent)

end Sys2Proof.Machine
end

