-- ==== Sys2Proof/Machine/CruCmds.lean ====
section
/-!
DEFINITION. Change lists (R82, R83): CRU_CHECK, CRU_COMMIT and CRU_REPORT (R85), the class C opcodes that a list or a mirror may
carry, and packets that end before an opcode acts (R28-R33, R46).
-/
namespace Sys2Proof.Machine

/-! ### Opcodes by code -/

/-- The class C opcodes that a change list may hold (R82). -/
def listOp (code : Nat) : Option OpSpec :=
  ([opFabRoute, opFabRouteBatch, opFabBondDefine, opFabSyncAssign, opEphSchedule, opEphCancel, opEphSalvo, opEphGenConfig,
    opLanConfig, opLanSleep, opLanSlotmask, opNetPortConfig, opNetFlowRx, opNetFlowTx, opNetFlowDel, opAudRoute, opAudPortConfig,
    opMvwHeadConfig, opMvwLayerSet, opMvwCommit, opMvwGraphicLoad, opEncChannelCreate, opEncChannelDelete, opEncRateSet,
    opEncXsDecodeCreate, opTimDomainConfig, opTimPulseProgram, opTimRestep, opRefTableSet, opRefFramepulse, opMemMapSet,
    opMemPasrSet, opPwrDomainSet, opPwrIdleTimer] : List OpSpec).find? fun op => op.code == code

/-! ### Change lists -/

/-- The entries of a change list: opcode, offset of the entry, payload (Table 3.3). -/
def listEntries (p : List Byte) : Nat → Nat → List (Nat × Nat × List Byte)
  | 0, _ => []
  | n + 1, o => (u16 p o, o, bytesAt p (o + 4) (u16 p (o + 2))) :: listEntries p n (o + 4 + u16 p (o + 2))

/-- The checks of the list itself: count, flags, and of each entry its opcode and the multiple of 4 of its length. -/
def listFields (p : List Byte) : List (Nat × Bool) :=
  [(0, decide (1 ≤ u16 p 0 ∧ u16 p 0 ≤ 64)), (2, decide (u16 p 2 < 2))] ++
    (listEntries p (min (u16 p 0) 64) 4).flatMap fun e => [(e.2.1, (listOp e.1).isSome), (e.2.1 + 2, e.2.2.length % 4 == 0)]

/-- Is the payload of a change list as long as its entries? -/
def listLengthOk (p : List Byte) : Bool := decide (4 ≤ p.length) && (decide (64 < u16 p 0) || listLength p (u16 p 0) 4 == p.length)

/-- An error of an entry, with its field offset counted in the list. -/
def entryError (o status : Nat) (det : List Byte) : Nat × List Byte :=
  let f := u16 det 0
  let g := if status = stBadLength then 24 + o + 2 else if f = 0xFFFF ∨ f < 24 then f else f + o + 4
  (status, be16 g ++ det.drop 2)

/-- The trailer of an entry that is a take, for the list's mirror (R144, log entry 48). That of an AUD_ROUTE carries its target sample in the place
of a frame count (R286). -/
def entryTrailer (code : Nat) (p reply stamp : List Byte) : List Byte :=
  match takeLength code p with
  | none => []
  | some _ =>
    let t := if code = 0x0600 then be16 1 ++ zeros 6 ++ zeros 4 ++ reply else mirrorTrailer code reply ++ stamp
    if t.isEmpty then zeros 8 else t

/-- What the entries of a list give: the state, the states after each, the trailers, whether some effect is pending; or the first
error. -/
structure ListRun where
  state : State
  prefixes : List State
  trail : List Byte
  waits : Bool
  error : Option (Nat × List Byte)

/-- Run the entries of a list in order, each through steps 12-16 of Table 2.7 in the state after those before it. -/
def runEntries (x : Ctx) : Nat → List (Nat × Nat × List Byte) → List Byte → ListRun → ListRun
  | _, [], _, r => r
  | i, e :: es, trail, r =>
    match listOp e.1 with
    | none => { r with error := some (entryError e.2.1 stBadParam (detail 0 0 0xFFFFFFFF)) }
    | some op =>
      let isTake := x.mirrored && (takeLength e.1 e.2.2).isSome
      let k := if isTake then 8 + 12 * u16 trail 0 else 0
      let y : Ctx := { x with entry := i, handle := if isTake then u32 trail 4 else 0, targets := if isTake then frameRefs trail (u16 trail 0) 8 else [], trail := [] }
      match op.refusal r.state x.mirrored e.2.2 with
      | some f => { r with error := some (entryError e.2.1 f.1 f.2) }
      | none =>
        let d := op.run r.state y e.2.2
        if 2 ≤ d.status then { r with error := some (entryError e.2.1 d.status d.payload) }
        else
          runEntries x (i + 1) es (trail.drop k)
            ⟨d.state, r.prefixes ++ [d.state], r.trail ++ entryTrailer e.1 e.2.2 d.payload d.stamp, r.waits || d.status == stPending, none⟩

/-- A change list: run, then evaluated as one change. -/
def changeList (s : State) (x : Ctx) (p : List Byte) : Done :=
  let r := runEntries x 1 (listEntries p (u16 p 0) 4) x.trail ⟨s, [], [], false, none⟩
  match r.error with
  | some e => ⟨s, e.1, e.2, []⟩
  | none => weighChange s x ⟨r.state, if r.waits then stPending else stOk, [], r.trail⟩ r.prefixes (bit (u16 p 2) 0) false

/-- CRU_CHECK (R83): what CRU_COMMIT would answer; only the report and the count of refusals are kept. -/
def opCruCheck : OpSpec where
  code := 0x0100
  cls := .q
  keys := false
  length := listLengthOk
  fields _ p := listFields p
  units _ _ := []
  locked _ _ := false
  cruise := false
  run s x p :=
    let a := changeList s x p
    if 2 ≤ a.status then a
    else { a with status := stOk, stamp := [], state := { s with cru := { s.cru with reports := a.state.cru.reports, lastId := a.state.cru.lastId } } }

/-- CRU_COMMIT (R82, R83). -/
def opCruCommit : OpSpec where
  code := 0x0101
  cls := .c
  keys := false
  length := listLengthOk
  fields _ p := listFields p
  units _ _ := []
  locked _ _ := false
  cruise := false
  run s x p := changeList s x p

/-- An entry of a report (Table 3.6). -/
def CruEntry.bytes (e : CruEntry) : List Byte :=
  be16 e.res ++ be16 e.flags ++ be32 e.inst ++ be64 e.demand ++ be64 e.cap ++ be32 e.handle ++ be16 e.change ++ zeros 2

/-- The report that CRU_REPORT selects: by ID, or the latest of the session. -/
def State.reportOf (s : State) (session id : Nat) : Option CruReport :=
  if id = 0 then s.cru.reports.find? fun r => r.session == session else s.cru.reports.find? fun r => r.id == id

/-- CRU_REPORT (R85). -/
def opCruReport : OpSpec where
  code := 0x0102
  cls := .q
  keys := false
  length p := p.length == 4
  fields _ _ := []
  units _ _ := []
  locked _ _ := false
  cruise := false
  run s x p :=
    match s.reportOf x.session (u32 p 0) with
    | none => Done.err s stBadParam 24
    | some r =>
      let es := r.entries.take 255
      Done.ok s (be32 r.id ++ be16 1 ++ be16 es.length ++ be32 r.changes ++ zeros 4 ++ es.flatMap fun (e : CruEntry) => e.bytes)

/-- CRU_CHECK. -/
def execCruCheck (dt : Nat) (rq : Req) (s : State) : Host.Outcome State Fault Refusal := .next (serve opCruCheck dt rq s)
/-- CRU_COMMIT. -/
def execCruCommit (dt : Nat) (rq : Req) (s : State) : Host.Outcome State Fault Refusal := .next (serve opCruCommit dt rq s)
/-- CRU_REPORT. -/
def execCruReport (dt : Nat) (rq : Req) (s : State) : Host.Outcome State Fault Refusal := .next (serve opCruReport dt rq s)

/-! ### Packets that end before an opcode acts -/

/-- The opcode of a packet's bytes. -/
def packetOpcode (b : List Byte) : Nat := u16 b 4

/-- The request that a packet's bytes hold (Table 2.1). -/
def packetReq (via : Transport) (b : List Byte) : Req :=
  ⟨via, u8 b 2, u8 b 3, u16 b 6, u32 b 8, u32 b 12, u16 b 16, bytesAt b 24 (u16 b 18), BitVec.ofNat 128 (beNat (b.drop (24 + u16 b 18)))⟩

/-- Are magic, header CRC and length consistent (R29)? -/
def packetSound (b : List Byte) : Bool :=
  decide (24 ≤ b.length) && u16 b 0 == 0x4358 && u32 b 20 == (crc32c (b.take 20)).toNat && decide (u16 b 18 ≤ 8192) &&
    b.length == 24 + u16 b 18 + 16 * b01 (bit (u8 b 3) 0)

/-- A description of any opcode for the steps before it acts. -/
def gateOp (code : Nat) : OpSpec where
  code := code
  cls := (opcodeClass code).1
  keys := (opcodeClass code).2
  length _ := true
  fields _ _ := []
  units _ _ := []
  locked _ _ := false
  cruise := false
  run s _ _ := ⟨s, stOk, [], []⟩

/-- CYXEL_FRAGMENT (R28-R33, R36, R37, R46): a packet that is no last fragment, or that is discarded or refused before its opcode acts. A
packet whose opcode would act has a row of its own, and changes nothing here. A sideband write with a bad PEC, and one that comes before
the interpreter is READY (R548), is not acknowledged and does not count as received. -/
def execCyxelFragment (dt : Nat) (via : Transport) (bytes : List Byte) (pecOk : Bool) (s : State) : Host.Outcome State Fault Refusal :=
  let s1 := s.elapse dt
  .next (
    if via = .sideband ∧ (!pecOk ∨ !s1.serves via) then { s1 with sent := .nack :: s1.sent }
    else if !s1.serves via then s1
    else
      match s1.consume via bytes with
      | none => s1
      | some s2 =>
        let rq := packetReq via bytes
        let op := gateOp (packetOpcode bytes)
        if !packetSound bytes then s2.bump Reg.CYX_DISCARD_COUNT 1
        else if rq.more then s2.fragment op.code rq
        else
          match s2.newRequest op rq with
          | .ended s3 => s3
          | .start _ _ => s1)

end Sys2Proof.Machine
end

