-- ==== Sys2Proof/Machine/RegTable.lean ====
section
/-!
DEFINITION. The register tables as data for the register bus: for each block, its registers (offset, stride and
number of copies) and the type of every field (Table 0.3), with what a written value is stored as.
-/
namespace Sys2Proof.Machine

/-- Field types of Table 0.3. `wl` names the key of the lock bit of the field. -/
inductive FieldType
  | rw
  | ro
  | w1c
  | wo
  | w1
  | wl (lock : Nat)
  deriving DecidableEq, Repr

/-- What a written value is stored as, where the table says so. -/
inductive StoredAs
  | any
  | atLeast (lo : Nat)
  | atMost (hi : Nat)
  | clamp (lo hi : Nat)
  | under (bound other : Nat)
  | within (lo hi other : Nat)
  | keepIf (v : Nat)
  | inputCode
  deriving DecidableEq, Repr

/-- The value that a field holds after a write of `v` over `old`. -/
def StoredAs.apply : StoredAs → Nat → Nat → Nat
  | .any, _, v => v
  | .atLeast lo, _, v => if v < lo then lo else v
  | .atMost hi, _, v => if hi < v then hi else v
  | .clamp lo hi, _, v => if v < lo then lo else if hi < v then hi else v
  | .under b o, _, v => if v < b then v else o
  | .within lo hi o, _, v => if lo ≤ v ∧ v ≤ hi then v else o
  | .keepIf x, old, v => if v = x then old else v
  | .inputCode, _, v => if 9 ≤ v ∧ v ≤ 14 then 15 else v

/-- One field of a register in its block. -/
structure FieldDef where
  lsb : Nat
  width : Nat
  type : FieldType
  triple : Bool
  safe : Nat
  stored : StoredAs
  reset : Nat → Nat → Nat

/-- One register of a block: its offset in the window, the stride and number of its copies. -/
structure RegDef where
  off : Nat
  stride : Nat
  count : Nat
  fields : List FieldDef

def regsCYX0 : List RegDef := [
  ⟨0x10, 0x4, 1, [⟨0, 32, .ro, false, 0, .any, fun _ _ => 0⟩]⟩,
  ⟨0x14, 0x4, 1, [⟨0, 32, .ro, false, 0, .any, fun _ _ => 0⟩]⟩,
  ⟨0x100, 0x40, 8, [⟨0, 32, .rw, false, 0, .any, fun _ _ => 0⟩]⟩,
  ⟨0x104, 0x40, 8, [⟨0, 32, .rw, false, 0, .any, fun _ _ => 0⟩]⟩,
  ⟨0x108, 0x40, 8, [⟨0, 4, .rw, false, 0, .any, fun _ _ => 0⟩]⟩,
  ⟨0x10c, 0x40, 8, [⟨0, 32, .rw, false, 0, .any, fun _ _ => 0⟩]⟩,
  ⟨0x110, 0x40, 8, [⟨0, 32, .rw, false, 0, .any, fun _ _ => 0⟩]⟩,
  ⟨0x114, 0x40, 8, [⟨0, 6, .rw, false, 0, .any, fun _ _ => 0⟩]⟩,
  ⟨0x118, 0x40, 8, [⟨0, 6, .ro, false, 0, .any, fun _ _ => 0⟩]⟩,
  ⟨0x11c, 0x40, 8, [⟨0, 6, .ro, false, 0, .any, fun _ _ => 0⟩]⟩,
  ⟨0x120, 0x40, 8, [⟨0, 6, .rw, false, 0, .any, fun _ _ => 0⟩]⟩,
  ⟨0x124, 0x40, 8, [⟨0, 1, .w1c, false, 0, .any, fun _ _ => 0⟩, ⟨1, 1, .w1c, false, 0, .any, fun _ _ => 0⟩, ⟨2, 1, .w1c, false, 0, .any, fun _ _ => 0⟩, ⟨3, 1, .w1c, false, 0, .any, fun _ _ => 0⟩]⟩]

def regsCYX1 : List RegDef := [
  ⟨0x128, 0x40, 8, [⟨0, 4, .rw, false, 0, .any, fun _ _ => 0⟩]⟩]

/-- Registers of the CYX block. -/
def regsCYX : List RegDef := regsCYX0 ++ regsCYX1

def regsSYS0 : List RegDef := [
  ⟨0x8, 0x4, 1, [⟨0, 16, .ro, false, 0, .any, fun _ _ => 0x7210⟩, ⟨16, 8, .ro, false, 0, .any, fun _ _ => 0⟩]⟩,
  ⟨0x10, 0x4, 1, [⟨0, 1, .rw, true, 0, .any, fun _ _ => 0⟩]⟩,
  ⟨0x18, 0x4, 1, [⟨0, 32, .ro, false, 0, .any, fun _ _ => 0⟩]⟩,
  ⟨0x1c, 0x4, 1, [⟨0, 32, .ro, false, 0, .any, fun _ _ => 0⟩]⟩,
  ⟨0x20, 0x4, 1, [⟨0, 1, .w1c, false, 0, .any, fun _ _ => 0⟩, ⟨16, 16, .ro, false, 0, .any, fun _ _ => 0⟩]⟩,
  ⟨0x24, 0x4, 1, [⟨0, 32, .ro, false, 0, .any, fun _ _ => 0⟩]⟩,
  ⟨0x28, 0x4, 1, [⟨0, 6, .ro, false, 0, .any, fun _ _ => 0⟩]⟩,
  ⟨0x2c, 0x4, 1, [⟨0, 32, .ro, false, 0, .any, fun _ _ => 0⟩]⟩,
  ⟨0x40, 0x4, 1, [⟨0, 16, (.wl 8592033823), false, 0, .any, fun _ _ => 250⟩, ⟨31, 1, .w1, true, 0, .any, fun _ _ => 0⟩]⟩,
  ⟨0x44, 0x4, 1, [⟨0, 1, .ro, false, 0, .any, fun _ _ => 0⟩, ⟨1, 1, .w1c, false, 0, .any, fun _ _ => 0⟩, ⟨16, 16, .ro, false, 0, .any, fun _ _ => 0⟩]⟩,
  ⟨0x50, 0x4, 1, [⟨0, 1, .ro, false, 0, .any, fun _ _ => 0⟩, ⟨1, 1, .ro, false, 0, .any, fun _ _ => 0⟩, ⟨2, 1, .ro, false, 0, .any, fun _ _ => 0⟩, ⟨3, 1, .ro, false, 0, .any, fun _ _ => 0⟩, ⟨4, 3, .ro, false, 0, .any, fun _ _ => 0⟩, ⟨8, 8, .ro, false, 0, .any, fun _ _ => 0⟩]⟩,
  ⟨0x80, 0x4, 1, [⟨0, 32, .rw, false, 0, .any, fun _ _ => 0⟩]⟩]

def regsSYS1 : List RegDef := [
  ⟨0x84, 0x4, 1, [⟨0, 32, .rw, false, 0, .any, fun _ _ => 0⟩]⟩,
  ⟨0x88, 0x4, 1, [⟨0, 32, .rw, false, 0, .any, fun _ _ => 0⟩]⟩,
  ⟨0x8c, 0x4, 1, [⟨0, 32, .rw, false, 0, .any, fun _ _ => 0⟩]⟩,
  ⟨0x90, 0x4, 1, [⟨0, 32, .ro, false, 0, .any, fun _ _ => 0⟩]⟩,
  ⟨0x94, 0x4, 1, [⟨0, 32, .ro, false, 0, .any, fun _ _ => 0⟩]⟩]

/-- Registers of the SYS block. -/
def regsSYS : List RegDef := regsSYS0 ++ regsSYS1

def regsFAB0 : List RegDef := [
  ⟨0x14, 0x4, 1, [⟨0, 16, .rw, false, 0, (.atMost 12000), fun _ _ => 10000⟩]⟩,
  ⟨0x18, 0x4, 1, [⟨0, 13, .w1c, false, 0, .any, fun _ _ => 0⟩]⟩,
  ⟨0x1c, 0x4, 1, [⟨0, 13, .rw, false, 0, .any, fun _ _ => 0⟩]⟩,
  ⟨0x20, 0x4, 1, [⟨0, 1, .wo, false, 0, .any, fun _ _ => 0⟩]⟩,
  ⟨0x24, 0x4, 1, [⟨0, 19, .ro, false, 0, .any, fun _ _ => 0⟩]⟩,
  ⟨0x28, 0x4, 1, [⟨0, 19, .ro, false, 0, .any, fun _ _ => 262144⟩]⟩,
  ⟨0x2c, 0x4, 1, [⟨0, 19, .ro, false, 0, .any, fun _ _ => 262144⟩]⟩,
  ⟨0x30, 0x4, 1, [⟨0, 32, .ro, false, 0, .any, fun _ _ => 0⟩]⟩,
  ⟨0x34, 0x4, 1, [⟨0, 32, .ro, false, 0, .any, fun _ _ => 0⟩]⟩,
  ⟨0x38, 0x4, 1, [⟨0, 32, .ro, false, 0, .any, fun _ _ => 0⟩]⟩,
  ⟨0x3c, 0x4, 1, [⟨0, 4, .rw, false, 0, .any, fun _ _ => 0⟩, ⟨4, 2, .rw, false, 0, .any, fun _ _ => 0⟩]⟩,
  ⟨0x100, 0x4, 48, [⟨0, 32, .rw, true, 0, .any, fun _ _ => 0⟩]⟩]

def regsFAB1 : List RegDef := [
  ⟨0x1000, 0x4, 6144, [⟨0, 13, .rw, false, 0, .any, fun _ _ => 0⟩, ⟨13, 1, .rw, false, 0, .any, fun _ _ => 0⟩, ⟨14, 1, .rw, false, 0, .any, fun _ _ => 0⟩, ⟨16, 4, .rw, false, 0, .any, fun _ _ => 0⟩]⟩,
  ⟨0x7000, 0x4, 6144, [⟨0, 13, .rw, false, 0, .any, fun _ _ => 0⟩, ⟨13, 1, .rw, false, 0, .any, fun _ _ => 0⟩, ⟨14, 1, .rw, false, 0, .any, fun _ _ => 0⟩, ⟨16, 4, .rw, false, 0, .any, fun _ _ => 0⟩, ⟨15, 1, .rw, false, 0, .any, fun _ _ => 0⟩]⟩,
  ⟨0xd000, 0x4, 1536, [⟨0, 32, .ro, false, 0, .any, fun _ _ => 2147483647⟩]⟩,
  ⟨0xe800, 0x4, 1536, [⟨0, 32, .ro, false, 0, .any, fun _ _ => 0⟩]⟩]

/-- Registers of the FAB block. -/
def regsFAB : List RegDef := regsFAB0 ++ regsFAB1

def regsLDG0 : List RegDef := [
  ⟨0x100, 0x20, 64, [⟨0, 1, .rw, false, 0, .any, fun _ _ => 0⟩, ⟨1, 1, .rw, false, 0, .any, fun _ _ => 0⟩, ⟨4, 4, .rw, false, 0, .any, fun _ _ => 0⟩]⟩,
  ⟨0x104, 0x20, 64, [⟨0, 13, .rw, false, 0, .any, fun _ _ => 0⟩]⟩,
  ⟨0x108, 0x20, 64, [⟨0, 32, .rw, false, 0, .any, fun _ _ => 0⟩]⟩,
  ⟨0x10c, 0x20, 64, [⟨0, 32, .rw, false, 0, .any, fun _ _ => 0⟩]⟩,
  ⟨0x110, 0x20, 64, [⟨0, 32, .rw, false, 0, .any, fun _ _ => 0⟩]⟩,
  ⟨0x114, 0x20, 64, [⟨0, 32, .ro, false, 0, .any, fun _ _ => 0⟩]⟩,
  ⟨0x118, 0x20, 64, [⟨0, 32, .ro, false, 0, .any, fun _ _ => 0⟩]⟩,
  ⟨0x11c, 0x20, 64, [⟨0, 4, .w1c, false, 0, .any, fun _ _ => 0⟩]⟩,
  ⟨0x1000, 0x20, 256, [⟨0, 1, .rw, false, 0, .any, fun _ _ => 0⟩, ⟨1, 1, .rw, false, 0, .any, fun _ _ => 0⟩, ⟨4, 4, .rw, false, 0, .any, fun _ _ => 0⟩]⟩,
  ⟨0x1004, 0x20, 256, [⟨0, 13, .rw, false, 0, .any, fun _ _ => 0⟩]⟩,
  ⟨0x1008, 0x20, 256, [⟨0, 32, .rw, false, 0, .any, fun _ _ => 0⟩]⟩,
  ⟨0x100c, 0x20, 256, [⟨0, 32, .rw, false, 0, .any, fun _ _ => 0⟩]⟩]

def regsLDG1 : List RegDef := [
  ⟨0x1010, 0x20, 256, [⟨0, 32, .rw, false, 0, .any, fun _ _ => 0⟩]⟩,
  ⟨0x1014, 0x20, 256, [⟨0, 32, .ro, false, 0, .any, fun _ _ => 0⟩]⟩,
  ⟨0x1018, 0x20, 256, [⟨0, 32, .ro, false, 0, .any, fun _ _ => 0⟩]⟩,
  ⟨0x101c, 0x20, 256, [⟨0, 4, .w1c, false, 0, .any, fun _ _ => 0⟩]⟩,
  ⟨0x3000, 0x8, 64, [⟨0, 32, .ro, false, 0, .any, fun _ _ => 0⟩]⟩,
  ⟨0x3004, 0x8, 64, [⟨0, 32, .ro, false, 0, .any, fun _ _ => 0⟩]⟩,
  ⟨0x3200, 0x8, 256, [⟨0, 32, .ro, false, 0, .any, fun _ _ => 0⟩]⟩,
  ⟨0x3204, 0x8, 256, [⟨0, 32, .ro, false, 0, .any, fun _ _ => 0⟩]⟩]

/-- Registers of the LDG block. -/
def regsLDG : List RegDef := regsLDG0 ++ regsLDG1

def regsEPH0 : List RegDef := [
  ⟨0x10, 0x4, 1, [⟨0, 15, .ro, false, 0, .any, fun _ _ => 0⟩]⟩,
  ⟨0x14, 0x4, 1, [⟨0, 17, .ro, false, 0, .any, fun _ _ => 0⟩]⟩,
  ⟨0x18, 0x4, 1, [⟨0, 7, .w1c, false, 0, .any, fun _ _ => 0⟩]⟩,
  ⟨0x1c, 0x4, 1, [⟨0, 7, .rw, false, 0, .any, fun _ _ => 0⟩]⟩,
  ⟨0x20, 0x4, 1, [⟨0, 32, .ro, false, 0, .any, fun _ _ => 0⟩]⟩,
  ⟨0x24, 0x4, 1, [⟨0, 32, .ro, false, 0, .any, fun _ _ => 0⟩]⟩,
  ⟨0x28, 0x4, 1, [⟨0, 32, .ro, false, 0, .any, fun _ _ => 0⟩]⟩,
  ⟨0x30, 0x4, 1, [⟨0, 17, .rw, false, 0, .any, fun _ _ => 0⟩]⟩,
  ⟨0x34, 0x4, 1, [⟨0, 32, .rw, false, 0, .any, fun _ _ => 0⟩]⟩,
  ⟨0x100, 0x40, 16, [⟨0, 1, .rw, false, 0, .any, fun _ _ => 1⟩, ⟨1, 1, .wo, false, 0, .any, fun _ _ => 0⟩, ⟨2, 1, .rw, false, 0, .any, fun _ _ => 0⟩, ⟨3, 1, .rw, false, 0, .any, fun _ _ => 0⟩, ⟨8, 5, .rw, false, 0, (.clamp 1 20), fun _ _ => 5⟩]⟩,
  ⟨0x104, 0x40, 16, [⟨0, 32, .rw, false, 0, .any, fun _ _ => 60000⟩]⟩,
  ⟨0x108, 0x40, 16, [⟨0, 16, .rw, false, 0, .any, fun _ _ => 1001⟩]⟩]

def regsEPH1 : List RegDef := [
  ⟨0x10c, 0x40, 16, [⟨0, 32, .ro, false, 0, .any, fun _ _ => 60000⟩]⟩,
  ⟨0x110, 0x40, 16, [⟨0, 16, .ro, false, 0, .any, fun _ _ => 1001⟩]⟩,
  ⟨0x114, 0x40, 16, [⟨0, 32, .ro, false, 0, .any, fun _ _ => 0⟩]⟩,
  ⟨0x118, 0x40, 16, [⟨0, 32, .ro, false, 0, .any, fun _ _ => 0⟩]⟩,
  ⟨0x11c, 0x40, 16, [⟨0, 32, .ro, false, 0, .any, fun _ _ => 0⟩]⟩,
  ⟨0x120, 0x40, 16, [⟨0, 32, .ro, false, 0, .any, fun _ _ => 0⟩]⟩,
  ⟨0x124, 0x40, 16, [⟨0, 32, .ro, false, 0, .any, fun _ _ => 0⟩]⟩,
  ⟨0x128, 0x40, 16, [⟨0, 1, .ro, false, 0, .any, fun _ _ => 1⟩, ⟨1, 1, .w1c, false, 0, .any, fun _ _ => 0⟩, ⟨2, 1, .w1c, false, 0, .any, fun _ _ => 0⟩, ⟨3, 1, .ro, false, 0, .any, fun _ _ => 0⟩]⟩]

/-- Registers of the EPH block. -/
def regsEPH : List RegDef := regsEPH0 ++ regsEPH1

def regsLNQ0 : List RegDef := [
  ⟨0x10, 0x4, 1, [⟨0, 1, .ro, false, 0, .any, fun _ _ => 0⟩, ⟨1, 1, .ro, false, 0, .any, fun _ _ => 0⟩, ⟨2, 1, .ro, false, 0, .any, fun w _ => (if w < 16 then 1 else 0)⟩]⟩,
  ⟨0x100, 0x100, 4, [⟨0, 2, .rw, false, 0, (.under 3 0), fun _ _ => 0⟩, ⟨4, 1, .rw, false, 0, .any, fun _ _ => 0⟩, ⟨5, 1, .rw, false, 0, .any, fun _ _ => 0⟩, ⟨8, 1, .rw, false, 0, .any, fun _ _ => 1⟩, ⟨9, 1, .rw, false, 0, .any, fun _ _ => 1⟩, ⟨10, 1, .rw, false, 0, .any, fun _ _ => 0⟩, ⟨11, 1, .rw, false, 0, .any, fun _ _ => 0⟩, ⟨12, 2, .rw, false, 0, (.under 3 0), fun _ _ => 0⟩]⟩,
  ⟨0x104, 0x100, 4, [⟨0, 3, .rw, false, 0, .any, fun _ _ => 0⟩, ⟨4, 4, .rw, false, 0, .any, fun _ _ => 2⟩, ⟨8, 5, .rw, false, 0, .any, fun _ _ => 10⟩, ⟨16, 4, .rw, false, 0, .any, fun _ _ => 4⟩, ⟨20, 7, .ro, false, 0, .any, fun _ _ => 48⟩]⟩,
  ⟨0x108, 0x100, 4, [⟨0, 5, .rw, false, 0, .any, fun _ _ => 16⟩]⟩,
  ⟨0x10c, 0x100, 4, [⟨0, 6, .rw, false, 0, .any, fun _ _ => 24⟩]⟩,
  ⟨0x110, 0x100, 4, [⟨0, 1, .rw, false, 0, .any, fun _ _ => 0⟩, ⟨1, 1, .rw, false, 0, .any, fun _ _ => 1⟩, ⟨2, 1, .rw, false, 0, .any, fun _ _ => 1⟩, ⟨3, 1, .rw, false, 0, .any, fun _ _ => 1⟩, ⟨4, 1, .wo, false, 0, .any, fun _ _ => 0⟩]⟩,
  ⟨0x114, 0x100, 4, [⟨0, 8, .ro, false, 0, .any, fun _ _ => 0⟩, ⟨8, 8, .ro, false, 0, .any, fun _ _ => 255⟩, ⟨31, 1, .wo, false, 0, .any, fun _ _ => 0⟩]⟩,
  ⟨0x118, 0x100, 4, [⟨0, 8, .rw, false, 0, .any, fun _ _ => 152⟩, ⟨8, 8, .rw, false, 0, .any, fun _ _ => 140⟩]⟩,
  ⟨0x11c, 0x100, 4, [⟨0, 2, .rw, false, 0, (.keepIf 3), fun _ _ => 0⟩, ⟨4, 2, .rw, false, 0, (.keepIf 3), fun _ _ => 0⟩, ⟨8, 1, .rw, false, 0, .any, fun _ _ => 0⟩, ⟨16, 2, .ro, false, 0, .any, fun _ _ => 0⟩, ⟨20, 2, .ro, false, 0, .any, fun _ _ => 0⟩]⟩,
  ⟨0x120, 0x100, 4, [⟨0, 5, .ro, false, 0, .any, fun _ _ => 0⟩]⟩,
  ⟨0x124, 0x100, 4, [⟨0, 8, .w1c, false, 0, .any, fun _ _ => 0⟩]⟩,
  ⟨0x128, 0x100, 4, [⟨0, 8, .rw, false, 0, .any, fun _ _ => 0⟩]⟩]

def regsLNQ1 : List RegDef := [
  ⟨0x12c, 0x100, 4, [⟨0, 9, .ro, false, 0, .any, fun _ _ => 0⟩]⟩,
  ⟨0x130, 0x100, 4, [⟨0, 5, .rw, false, 0, .any, fun _ _ => 0⟩]⟩,
  ⟨0x134, 0x100, 4, [⟨0, 10, .ro, false, 0, .any, fun _ _ => 0⟩]⟩,
  ⟨0x140, 0x100, 4, [⟨0, 2, .rw, false, 0, .any, fun _ _ => 0⟩, ⟨4, 2, .rw, false, 0, .any, fun _ _ => 0⟩]⟩,
  ⟨0x144, 0x100, 4, [⟨0, 32, .ro, false, 0, .any, fun _ _ => 0⟩]⟩,
  ⟨0x1000, 0x100, 4, [⟨0, 1, .rw, false, 0, .any, fun _ _ => 0⟩, ⟨1, 1, .rw, false, 0, .any, fun _ _ => 1⟩, ⟨2, 1, .wo, false, 0, .any, fun _ _ => 0⟩, ⟨3, 1, .rw, false, 0, .any, fun _ _ => 1⟩, ⟨4, 1, .rw, false, 0, .any, fun _ _ => 1⟩, ⟨5, 1, .ro, false, 0, .any, fun _ _ => 0⟩]⟩,
  ⟨0x1004, 0x100, 4, [⟨0, 9, .rw, false, 0, .any, fun _ _ => 0⟩, ⟨16, 9, .rw, false, 0, .any, fun _ _ => 0⟩]⟩,
  ⟨0x1008, 0x100, 4, [⟨0, 32, .rw, false, 0, .any, fun _ _ => 0⟩]⟩,
  ⟨0x100c, 0x100, 4, [⟨0, 4, .rw, false, 0, .any, fun _ _ => 0⟩]⟩,
  ⟨0x1010, 0x100, 4, [⟨0, 9, .ro, false, 0, .any, fun _ _ => 0⟩, ⟨16, 9, .ro, false, 0, .any, fun _ _ => 0⟩]⟩,
  ⟨0x1014, 0x100, 4, [⟨0, 2, .ro, false, 0, .any, fun _ _ => 0⟩, ⟨4, 1, .ro, false, 0, .any, fun _ _ => 0⟩, ⟨5, 1, .ro, false, 0, .any, fun _ _ => 0⟩, ⟨16, 9, .ro, false, 0, .any, fun _ _ => 0⟩]⟩,
  ⟨0x1018, 0x100, 4, [⟨0, 32, .ro, false, 0, .any, fun _ _ => 0⟩]⟩]

def regsLNQ2 : List RegDef := [
  ⟨0x101c, 0x100, 4, [⟨0, 4, .ro, false, 0, .any, fun _ _ => 0⟩, ⟨16, 9, .ro, false, 0, .any, fun _ _ => 0⟩]⟩,
  ⟨0x1020, 0x100, 4, [⟨0, 32, .ro, false, 0, .any, fun _ _ => 0⟩]⟩,
  ⟨0x1024, 0x100, 4, [⟨0, 32, .ro, false, 0, .any, fun _ _ => 0⟩]⟩,
  ⟨0x1028, 0x100, 4, [⟨0, 32, .ro, false, 0, .any, fun _ _ => 0⟩]⟩,
  ⟨0x102c, 0x100, 4, [⟨0, 16, .ro, false, 0, .any, fun _ _ => 0⟩, ⟨16, 16, .ro, false, 0, .any, fun _ _ => 0⟩]⟩,
  ⟨0x1030, 0x100, 4, [⟨0, 32, .ro, false, 0, .any, fun _ _ => 0⟩]⟩,
  ⟨0x1034, 0x100, 4, [⟨0, 32, .ro, false, 0, .any, fun _ _ => 0⟩]⟩,
  ⟨0x1038, 0x100, 4, [⟨0, 32, .ro, false, 0, .any, fun _ _ => 0⟩]⟩,
  ⟨0x103c, 0x100, 4, [⟨0, 32, .ro, false, 0, .any, fun _ _ => 2147483647⟩]⟩,
  ⟨0x1040, 0x100, 4, [⟨0, 6, .ro, false, 0, .any, fun _ _ => 0⟩, ⟨8, 6, .ro, false, 0, .any, fun _ _ => 0⟩, ⟨16, 16, .ro, false, 0, .any, fun _ _ => 0⟩]⟩,
  ⟨0x1044, 0x100, 4, [⟨0, 10, .w1c, false, 0, .any, fun _ _ => 0⟩]⟩,
  ⟨0x1048, 0x100, 4, [⟨0, 10, .rw, false, 0, .any, fun _ _ => 0⟩]⟩]

def regsLNQ3 : List RegDef := [
  ⟨0x104c, 0x100, 4, [⟨0, 12, .rw, false, 0, .any, fun _ _ => 32⟩, ⟨16, 4, .rw, false, 0, (.atLeast 1), fun _ _ => 4⟩]⟩,
  ⟨0x1050, 0x100, 4, [⟨0, 32, .rw, false, 0, .any, fun _ _ => 0⟩]⟩,
  ⟨0x1054, 0x100, 4, [⟨0, 32, .ro, false, 0, .any, fun _ _ => 0⟩]⟩]

/-- Registers of the LNQ block. -/
def regsLNQ : List RegDef := regsLNQ0 ++ regsLNQ1 ++ regsLNQ2 ++ regsLNQ3

def regsNET0 : List RegDef := [
  ⟨0x10, 0x4, 1, [⟨0, 1, .rw, false, 0, .any, fun _ _ => 0⟩, ⟨4, 3, .rw, false, 0, (.under 5 0), fun _ _ => 0⟩, ⟨8, 1, .rw, false, 0, .any, fun _ _ => 1⟩, ⟨12, 2, .rw, false, 0, (.under 3 0), fun _ _ => 0⟩, ⟨16, 1, .rw, true, 1, .any, fun _ _ => 0⟩, ⟨17, 1, .rw, false, 0, .any, fun _ _ => 0⟩]⟩,
  ⟨0x14, 0x4, 1, [⟨0, 1, .ro, false, 0, .any, fun _ _ => 0⟩, ⟨1, 1, .ro, false, 0, .any, fun _ _ => 0⟩, ⟨2, 1, .ro, false, 0, .any, fun _ _ => 0⟩, ⟨8, 6, .ro, false, 0, .any, fun _ _ => 0⟩]⟩,
  ⟨0x18, 0x4, 1, [⟨0, 17, .w1c, false, 0, .any, fun _ _ => 0⟩]⟩,
  ⟨0x1c, 0x4, 1, [⟨0, 17, .rw, false, 0, .any, fun _ _ => 0⟩]⟩,
  ⟨0x20, 0x4, 1, [⟨0, 10, .rw, false, 0, (.atLeast 1), fun _ _ => 10⟩, ⟨16, 10, .rw, false, 0, (.atLeast 1), fun _ _ => 1000⟩]⟩,
  ⟨0x24, 0x4, 1, [⟨0, 32, .rw, false, 0, .any, fun _ _ => 4283707920⟩]⟩,
  ⟨0x28, 0x4, 1, [⟨0, 16, .rw, false, 0, .any, fun _ _ => 16⟩]⟩,
  ⟨0x30, 0x4, 5, [⟨0, 14, .rw, false, 0, (.clamp 64 9216), fun _ _ => 512⟩]⟩,
  ⟨0x60, 0x4, 1, [⟨0, 32, .ro, false, 0, .any, fun _ _ => 0⟩]⟩,
  ⟨0x64, 0x4, 1, [⟨0, 32, .ro, false, 0, .any, fun _ _ => 0⟩]⟩,
  ⟨0x68, 0x4, 1, [⟨0, 32, .ro, false, 0, .any, fun _ _ => 0⟩]⟩,
  ⟨0x6c, 0x4, 1, [⟨0, 32, .ro, false, 0, .any, fun _ _ => 0⟩]⟩]

def regsNET1 : List RegDef := [
  ⟨0x70, 0x4, 1, [⟨0, 32, .ro, false, 0, .any, fun _ _ => 0⟩]⟩,
  ⟨0x74, 0x4, 1, [⟨0, 32, .ro, false, 0, .any, fun _ _ => 0⟩]⟩,
  ⟨0x78, 0x4, 1, [⟨0, 32, .ro, false, 0, .any, fun _ _ => 0⟩]⟩,
  ⟨0x7c, 0x4, 1, [⟨0, 32, .ro, false, 0, .any, fun _ _ => 0⟩]⟩,
  ⟨0x80, 0x4, 1, [⟨0, 32, .ro, false, 0, .any, fun _ _ => 0⟩]⟩,
  ⟨0x84, 0x4, 1, [⟨0, 32, .ro, false, 0, .any, fun _ _ => 0⟩]⟩,
  ⟨0x88, 0x4, 1, [⟨0, 32, .ro, false, 0, .any, fun _ _ => 0⟩]⟩,
  ⟨0xc0, 0x4, 1, [⟨0, 16, .rw, false, 0, .any, fun _ _ => 0⟩]⟩,
  ⟨0xc4, 0x4, 1, [⟨0, 32, .rw, false, 0, .any, fun _ _ => 0⟩]⟩,
  ⟨0x100, 0x20, 9, [⟨0, 32, .rw, false, 0, .any, fun _ _ => 0⟩]⟩,
  ⟨0x104, 0x20, 9, [⟨0, 32, .rw, false, 0, .any, fun _ _ => 0⟩]⟩,
  ⟨0x108, 0x20, 9, [⟨0, 4, .rw, false, 0, (.within 4 12 0), fun _ _ => 0⟩]⟩]

def regsNET2 : List RegDef := [
  ⟨0x10c, 0x20, 9, [⟨0, 12, .rw, false, 0, .any, fun _ _ => 0⟩]⟩,
  ⟨0x110, 0x20, 9, [⟨0, 12, .ro, false, 0, .any, fun _ _ => 0⟩]⟩,
  ⟨0x114, 0x20, 9, [⟨0, 1, .w1c, false, 0, .any, fun _ _ => 0⟩, ⟨1, 1, .w1c, false, 0, .any, fun _ _ => 0⟩, ⟨2, 1, .w1c, false, 0, .any, fun _ _ => 0⟩]⟩,
  ⟨0x118, 0x20, 9, [⟨0, 3, .rw, false, 0, .any, fun _ _ => 0⟩, ⟨8, 3, .rw, false, 0, .any, fun _ _ => 0⟩]⟩,
  ⟨0x300, 0x8, 8, [⟨0, 16, .rw, false, 0, .any, fun _ _ => 0⟩, ⟨16, 8, .rw, false, 0, .any, fun _ _ => 0⟩, ⟨24, 8, .rw, false, 0, .any, fun _ _ => 255⟩]⟩,
  ⟨0x304, 0x8, 8, [⟨0, 16, .rw, false, 0, .any, fun _ _ => 0⟩]⟩]

/-- Registers of the NET block. -/
def regsNET : List RegDef := regsNET0 ++ regsNET1 ++ regsNET2

def regsMGT00 : List RegDef := [
  ⟨0x400, 0x4, 1, [⟨0, 1, .rw, false, 0, .any, fun _ _ => 0⟩, ⟨1, 1, .rw, false, 0, .any, fun _ _ => 0⟩, ⟨4, 1, .rw, false, 0, .any, fun _ _ => 0⟩]⟩,
  ⟨0x500, 0x4, 32, [⟨0, 32, .rw, false, 0, .any, fun _ _ => 0⟩]⟩,
  ⟨0x580, 0x4, 4, [⟨0, 32, .rw, false, 0, .any, fun _ _ => 0⟩]⟩,
  ⟨0x600, 0x4, 1, [⟨0, 1, .rw, false, 0, .any, fun _ _ => 0⟩, ⟨1, 1, .ro, false, 0, .any, fun _ _ => 0⟩]⟩,
  ⟨0x604, 0x4, 1, [⟨0, 4, .rw, false, 0, .any, fun _ _ => 0⟩, ⟨4, 1, .rw, false, 0, .any, fun _ _ => 0⟩, ⟨5, 1, .wo, false, 0, .any, fun _ _ => 0⟩, ⟨6, 1, .ro, false, 0, .any, fun _ _ => 0⟩, ⟨7, 1, .ro, false, 0, .any, fun _ _ => 0⟩, ⟨8, 8, .rw, false, 0, .any, fun _ _ => 0⟩, ⟨16, 8, .rw, false, 0, .any, fun _ _ => 0⟩]⟩]

/-- Registers of the MGT0 block. -/
def regsMGT0 : List RegDef := regsMGT00

def regsNETFLOW0 : List RegDef := [
  ⟨0x800, 0x4, 1, [⟨0, 12, .rw, false, 0, .any, fun _ _ => 0⟩, ⟨12, 1, .rw, false, 0, .any, fun _ _ => 0⟩, ⟨31, 1, .wo, false, 0, .any, fun _ _ => 0⟩]⟩,
  ⟨0x804, 0x4, 1, [⟨0, 1, .ro, false, 0, .any, fun _ _ => 0⟩, ⟨1, 1, .ro, false, 0, .any, fun _ _ => 0⟩, ⟨2, 1, .ro, false, 0, .any, fun _ _ => 0⟩, ⟨3, 2, .ro, false, 0, .any, fun _ _ => 0⟩, ⟨8, 5, .ro, false, 0, .any, fun _ _ => 0⟩, ⟨16, 4, .ro, false, 0, .any, fun _ _ => 0⟩]⟩,
  ⟨0x808, 0x4, 1, [⟨0, 32, .ro, false, 0, .any, fun _ _ => 0⟩]⟩,
  ⟨0x80c, 0x4, 1, [⟨0, 32, .ro, false, 0, .any, fun _ _ => 0⟩]⟩,
  ⟨0x810, 0x4, 1, [⟨0, 32, .ro, false, 0, .any, fun _ _ => 0⟩]⟩,
  ⟨0x814, 0x4, 1, [⟨0, 32, .ro, false, 0, .any, fun _ _ => 0⟩]⟩,
  ⟨0x818, 0x4, 1, [⟨0, 32, .ro, false, 0, .any, fun _ _ => 0⟩]⟩,
  ⟨0x81c, 0x4, 1, [⟨0, 32, .ro, false, 0, .any, fun _ _ => 0⟩]⟩,
  ⟨0x820, 0x4, 1, [⟨0, 32, .ro, false, 0, .any, fun _ _ => 0⟩]⟩,
  ⟨0x824, 0x4, 1, [⟨0, 32, .ro, false, 0, .any, fun _ _ => 0⟩]⟩,
  ⟨0x828, 0x4, 1, [⟨0, 32, .ro, false, 0, .any, fun _ _ => 0⟩]⟩,
  ⟨0x830, 0x4, 1, [⟨0, 32, .ro, false, 0, .any, fun _ _ => 0⟩]⟩]

def regsNETFLOW1 : List RegDef := [
  ⟨0x834, 0x4, 1, [⟨0, 32, .ro, false, 0, .any, fun _ _ => 0⟩]⟩,
  ⟨0x838, 0x4, 1, [⟨0, 32, .ro, false, 0, .any, fun _ _ => 0⟩]⟩,
  ⟨0x840, 0x4, 1, [⟨0, 13, .w1c, false, 0, .any, fun _ _ => 0⟩]⟩,
  ⟨0x844, 0x4, 1, [⟨0, 13, .rw, false, 0, .any, fun _ _ => 0⟩]⟩,
  ⟨0x880, 0x4, 1, [⟨0, 16, .rw, false, 0, .any, fun _ _ => 0⟩]⟩,
  ⟨0x884, 0x4, 1, [⟨0, 32, .rw, false, 0, .any, fun _ _ => 0⟩]⟩]

/-- Registers of the NETFLOW block. -/
def regsNETFLOW : List RegDef := regsNETFLOW0 ++ regsNETFLOW1

def regsAUD0 : List RegDef := [
  ⟨0x10, 0x4, 1, [⟨0, 6, .rw, false, 0, (.clamp 2 40), fun _ _ => 8⟩]⟩,
  ⟨0x14, 0x4, 1, [⟨0, 1, .rw, false, 0, .any, fun _ _ => 0⟩, ⟨1, 1, .rw, false, 0, .any, fun _ _ => 0⟩, ⟨2, 1, .rw, false, 0, .any, fun _ _ => 0⟩, ⟨3, 1, .rw, false, 0, .any, fun _ _ => 0⟩, ⟨8, 2, .ro, false, 0, .any, fun _ _ => 0⟩]⟩,
  ⟨0x18, 0x4, 1, [⟨0, 8, .w1c, false, 0, .any, fun _ _ => 0⟩]⟩,
  ⟨0x1c, 0x4, 1, [⟨0, 8, .rw, false, 0, .any, fun _ _ => 0⟩]⟩,
  ⟨0x20, 0x4, 1, [⟨0, 16, .rw, false, 0, .any, fun _ _ => 50⟩]⟩,
  ⟨0x24, 0x4, 1, [⟨0, 1, .wo, false, 0, .any, fun _ _ => 0⟩]⟩,
  ⟨0x30, 0x4, 4, [⟨0, 32, .ro, false, 0, .any, fun _ _ => 0⟩]⟩,
  ⟨0x80, 0x4, 1, [⟨0, 16, .rw, false, 0, .any, fun _ _ => 0⟩]⟩,
  ⟨0x84, 0x4, 1, [⟨0, 32, .rw, false, 0, .any, fun _ _ => 0⟩]⟩,
  ⟨0x100, 0x40, 8, [⟨0, 1, .rw, false, 0, .any, fun _ _ => 0⟩, ⟨1, 1, .rw, false, 0, .any, fun _ _ => 0⟩, ⟨8, 5, .rw, false, 0, (.within 2 16 8), fun _ _ => 8⟩]⟩,
  ⟨0x104, 0x40, 8, [⟨0, 32, .rw, false, 0, .any, fun _ _ => 0⟩]⟩,
  ⟨0x108, 0x40, 8, [⟨0, 32, .ro, false, 0, .any, fun _ _ => 0⟩]⟩]

def regsAUD1 : List RegDef := [
  ⟨0x10c, 0x40, 8, [⟨0, 32, .ro, false, 0, .any, fun _ _ => 0⟩]⟩,
  ⟨0x110, 0x40, 8, [⟨0, 32, .ro, false, 0, .any, fun _ _ => 0⟩]⟩,
  ⟨0x114, 0x40, 8, [⟨0, 32, .ro, false, 0, .any, fun _ _ => 0⟩]⟩,
  ⟨0x118, 0x40, 8, [⟨0, 32, .ro, false, 0, .any, fun _ _ => 0⟩]⟩,
  ⟨0x11c, 0x40, 8, [⟨0, 32, .ro, false, 0, .any, fun _ _ => 0⟩]⟩,
  ⟨0x120, 0x40, 8, [⟨0, 32, .ro, false, 0, .any, fun _ _ => 0⟩]⟩,
  ⟨0x124, 0x40, 8, [⟨0, 32, .ro, false, 0, .any, fun _ _ => 0⟩]⟩,
  ⟨0x128, 0x40, 8, [⟨0, 6, .ro, false, 0, .any, fun _ _ => 0⟩, ⟨16, 6, .ro, false, 0, .any, fun _ _ => 0⟩]⟩,
  ⟨0x12c, 0x40, 8, [⟨0, 32, .ro, false, 0, .any, fun _ _ => 0⟩]⟩]

/-- Registers of the AUD block. -/
def regsAUD : List RegDef := regsAUD0 ++ regsAUD1

def regsMVW0 : List RegDef := [
  ⟨0x10, 0x4, 1, [⟨0, 6, .w1c, false, 0, .any, fun _ _ => 0⟩]⟩,
  ⟨0x14, 0x4, 1, [⟨0, 6, .rw, false, 0, .any, fun _ _ => 0⟩]⟩,
  ⟨0x18, 0x4, 1, [⟨0, 32, .ro, false, 0, .any, fun _ _ => 0⟩]⟩,
  ⟨0x20, 0x4, 1, [⟨0, 20, .rw, false, 0, .any, fun _ _ => 0⟩]⟩,
  ⟨0x24, 0x4, 1, [⟨0, 32, .rw, false, 0, .any, fun _ _ => 0⟩]⟩,
  ⟨0x28, 0x4, 1, [⟨0, 7, .ro, false, 0, .any, fun _ _ => 96⟩]⟩,
  ⟨0x100, 0x40, 16, [⟨0, 1, .rw, false, 0, .any, fun _ _ => 0⟩, ⟨1, 1, .rw, false, 0, .any, fun _ _ => 0⟩, ⟨4, 4, .rw, false, 0, .any, fun _ _ => 0⟩]⟩,
  ⟨0x104, 0x40, 16, [⟨0, 30, .rw, false, 0, .any, fun _ _ => 67633664⟩]⟩,
  ⟨0x108, 0x40, 16, [⟨0, 7, .ro, false, 0, .any, fun _ _ => 0⟩]⟩,
  ⟨0x10c, 0x40, 16, [⟨0, 32, .ro, false, 0, .any, fun _ _ => 0⟩]⟩,
  ⟨0x110, 0x40, 16, [⟨0, 32, .ro, false, 0, .any, fun _ _ => 0⟩]⟩,
  ⟨0x114, 0x40, 16, [⟨0, 32, .ro, false, 0, .any, fun _ _ => 0⟩]⟩]

def regsMVW1 : List RegDef := [
  ⟨0x118, 0x40, 16, [⟨0, 32, .ro, false, 0, .any, fun _ _ => 0⟩]⟩,
  ⟨0x11c, 0x40, 16, [⟨0, 1, .ro, false, 0, .any, fun _ _ => 0⟩, ⟨1, 1, .w1c, false, 0, .any, fun _ _ => 0⟩]⟩,
  ⟨0x120, 0x40, 16, [⟨0, 32, .ro, false, 0, .any, fun _ _ => 0⟩]⟩,
  ⟨0x124, 0x40, 16, [⟨0, 32, .ro, false, 0, .any, fun _ _ => 0⟩]⟩,
  ⟨0x128, 0x40, 16, [⟨0, 32, .ro, false, 0, .any, fun _ _ => 0⟩]⟩,
  ⟨0x1000, 0x30, 1024, [⟨0, 1, .rw, false, 0, .any, fun _ _ => 0⟩, ⟨1, 1, .rw, false, 0, .any, fun _ _ => 0⟩, ⟨2, 1, .rw, false, 0, .any, fun _ _ => 0⟩, ⟨3, 1, .rw, false, 0, .any, fun _ _ => 0⟩, ⟨4, 1, .rw, false, 0, .any, fun _ _ => 0⟩, ⟨8, 2, .rw, false, 0, .any, fun _ _ => 0⟩, ⟨12, 2, .rw, false, 0, .any, fun _ _ => 0⟩, ⟨16, 7, .rw, false, 0, .any, fun _ _ => 0⟩, ⟨24, 8, .rw, false, 0, .any, fun _ _ => 0⟩]⟩,
  ⟨0x1004, 0x30, 1024, [⟨0, 13, .rw, false, 0, .any, fun _ _ => 0⟩]⟩,
  ⟨0x1008, 0x30, 1024, [⟨0, 13, .rw, false, 0, .any, fun _ _ => 0⟩, ⟨16, 13, .rw, false, 0, .any, fun _ _ => 0⟩]⟩,
  ⟨0x100c, 0x30, 1024, [⟨0, 13, .rw, false, 0, .any, fun _ _ => 0⟩, ⟨16, 13, .rw, false, 0, .any, fun _ _ => 0⟩]⟩,
  ⟨0x1010, 0x30, 1024, [⟨0, 12, .rw, false, 0, .any, fun _ _ => 0⟩, ⟨16, 12, .rw, false, 0, .any, fun _ _ => 0⟩]⟩,
  ⟨0x1014, 0x30, 1024, [⟨0, 12, .rw, false, 0, .any, fun _ _ => 0⟩, ⟨16, 12, .rw, false, 0, .any, fun _ _ => 0⟩]⟩,
  ⟨0x1018, 0x30, 1024, [⟨0, 10, .rw, false, 0, .any, fun _ _ => 1023⟩]⟩]

def regsMVW2 : List RegDef := [
  ⟨0x101c, 0x30, 1024, [⟨0, 30, .rw, false, 0, .any, fun _ _ => 67633664⟩]⟩,
  ⟨0x1020, 0x30, 1024, [⟨0, 32, .rw, false, 0, .any, fun _ _ => 0⟩]⟩,
  ⟨0x1024, 0x30, 1024, [⟨0, 32, .rw, false, 0, .any, fun _ _ => 0⟩]⟩,
  ⟨0x1028, 0x30, 1024, [⟨0, 1, .ro, false, 0, .any, fun _ _ => 0⟩, ⟨1, 1, .ro, false, 0, .any, fun _ _ => 1⟩, ⟨2, 1, .ro, false, 0, .any, fun _ _ => 0⟩, ⟨3, 1, .w1c, false, 0, .any, fun _ _ => 0⟩, ⟨4, 1, .w1c, false, 0, .any, fun _ _ => 0⟩, ⟨5, 1, .w1c, false, 0, .any, fun _ _ => 0⟩, ⟨6, 1, .ro, false, 0, .any, fun _ _ => 0⟩]⟩,
  ⟨0x102c, 0x30, 1024, [⟨0, 16, .ro, false, 0, .any, fun _ _ => 0⟩, ⟨16, 16, .ro, false, 0, .any, fun _ _ => 0⟩]⟩]

/-- Registers of the MVW block. -/
def regsMVW : List RegDef := regsMVW0 ++ regsMVW1 ++ regsMVW2

def regsENC0 : List RegDef := [
  ⟨0x10, 0x4, 1, [⟨0, 6, .w1c, false, 0, .any, fun _ _ => 0⟩]⟩,
  ⟨0x14, 0x4, 1, [⟨0, 6, .rw, false, 0, .any, fun _ _ => 0⟩]⟩,
  ⟨0x20, 0x4, 1, [⟨0, 32, .rw, false, 0, .any, fun _ _ => 4294967295⟩]⟩,
  ⟨0x24, 0x4, 1, [⟨0, 16, .rw, false, 0, .any, fun _ _ => 65535⟩]⟩,
  ⟨0x28, 0x4, 1, [⟨0, 32, .ro, false, 0, .any, fun _ _ => 0⟩]⟩,
  ⟨0x2c, 0x4, 1, [⟨0, 16, .ro, false, 0, .any, fun _ _ => 0⟩]⟩,
  ⟨0x30, 0x4, 1, [⟨0, 6, .ro, false, 0, .any, fun _ _ => 48⟩]⟩,
  ⟨0x34, 0x4, 1, [⟨0, 32, .ro, false, 0, .any, fun _ _ => 0⟩]⟩,
  ⟨0x40, 0x4, 1, [⟨0, 20, .rw, false, 0, .any, fun _ _ => 0⟩]⟩,
  ⟨0x44, 0x4, 1, [⟨0, 32, .rw, false, 0, .any, fun _ _ => 0⟩]⟩,
  ⟨0x100, 0x40, 48, [⟨0, 1, .ro, false, 0, .any, fun _ _ => 0⟩, ⟨1, 1, .ro, false, 0, .any, fun _ _ => 0⟩, ⟨2, 1, .ro, false, 0, .any, fun _ _ => 0⟩, ⟨3, 1, .ro, false, 0, .any, fun _ _ => 0⟩, ⟨8, 6, .ro, false, 0, .any, fun _ _ => 0⟩, ⟨16, 6, .ro, false, 0, .any, fun _ _ => 0⟩]⟩,
  ⟨0x104, 0x40, 48, [⟨0, 32, .ro, false, 0, .any, fun _ _ => 0⟩]⟩]

def regsENC1 : List RegDef := [
  ⟨0x108, 0x40, 48, [⟨0, 32, .ro, false, 0, .any, fun _ _ => 0⟩]⟩,
  ⟨0x10c, 0x40, 48, [⟨0, 32, .ro, false, 0, .any, fun _ _ => 0⟩]⟩,
  ⟨0x110, 0x40, 48, [⟨0, 32, .ro, false, 0, .any, fun _ _ => 0⟩]⟩,
  ⟨0x114, 0x40, 48, [⟨0, 32, .ro, false, 0, .any, fun _ _ => 0⟩]⟩,
  ⟨0x118, 0x40, 48, [⟨0, 32, .ro, false, 0, .any, fun _ _ => 0⟩]⟩,
  ⟨0x11c, 0x40, 48, [⟨0, 32, .ro, false, 0, .any, fun _ _ => 0⟩]⟩,
  ⟨0x120, 0x40, 48, [⟨0, 32, .ro, false, 0, .any, fun _ _ => 0⟩]⟩,
  ⟨0x124, 0x40, 48, [⟨0, 32, .ro, false, 0, .any, fun _ _ => 0⟩]⟩,
  ⟨0x128, 0x40, 48, [⟨0, 32, .ro, false, 0, .any, fun _ _ => 0⟩]⟩,
  ⟨0x1000, 0x40, 64, [⟨0, 1, .ro, false, 0, .any, fun _ _ => 0⟩, ⟨1, 1, .ro, false, 0, .any, fun _ _ => 0⟩, ⟨2, 1, .ro, false, 0, .any, fun _ _ => 0⟩, ⟨3, 1, .ro, false, 0, .any, fun _ _ => 0⟩, ⟨8, 6, .ro, false, 0, .any, fun _ _ => 0⟩, ⟨16, 6, .ro, false, 0, .any, fun _ _ => 0⟩]⟩,
  ⟨0x1004, 0x40, 64, [⟨0, 32, .ro, false, 0, .any, fun _ _ => 0⟩]⟩,
  ⟨0x1008, 0x40, 64, [⟨0, 32, .ro, false, 0, .any, fun _ _ => 0⟩]⟩]

def regsENC2 : List RegDef := [
  ⟨0x100c, 0x40, 64, [⟨0, 32, .ro, false, 0, .any, fun _ _ => 0⟩]⟩,
  ⟨0x1010, 0x40, 64, [⟨0, 32, .ro, false, 0, .any, fun _ _ => 0⟩]⟩,
  ⟨0x1014, 0x40, 64, [⟨0, 32, .ro, false, 0, .any, fun _ _ => 0⟩]⟩,
  ⟨0x1018, 0x40, 64, [⟨0, 32, .ro, false, 0, .any, fun _ _ => 0⟩]⟩,
  ⟨0x101c, 0x40, 64, [⟨0, 32, .ro, false, 0, .any, fun _ _ => 0⟩]⟩,
  ⟨0x1020, 0x40, 64, [⟨0, 32, .ro, false, 0, .any, fun _ _ => 0⟩]⟩,
  ⟨0x1024, 0x40, 64, [⟨0, 32, .ro, false, 0, .any, fun _ _ => 0⟩]⟩,
  ⟨0x1028, 0x40, 64, [⟨0, 32, .ro, false, 0, .any, fun _ _ => 0⟩]⟩,
  ⟨0x2000, 0x40, 64, [⟨0, 1, .ro, false, 0, .any, fun _ _ => 0⟩, ⟨1, 1, .ro, false, 0, .any, fun _ _ => 0⟩, ⟨2, 1, .ro, false, 0, .any, fun _ _ => 0⟩, ⟨3, 1, .ro, false, 0, .any, fun _ _ => 0⟩, ⟨8, 6, .ro, false, 0, .any, fun _ _ => 0⟩, ⟨16, 6, .ro, false, 0, .any, fun _ _ => 0⟩]⟩,
  ⟨0x2004, 0x40, 64, [⟨0, 32, .ro, false, 0, .any, fun _ _ => 0⟩]⟩,
  ⟨0x2008, 0x40, 64, [⟨0, 32, .ro, false, 0, .any, fun _ _ => 0⟩]⟩,
  ⟨0x200c, 0x40, 64, [⟨0, 32, .ro, false, 0, .any, fun _ _ => 0⟩]⟩]

def regsENC3 : List RegDef := [
  ⟨0x2010, 0x40, 64, [⟨0, 32, .ro, false, 0, .any, fun _ _ => 0⟩]⟩,
  ⟨0x2014, 0x40, 64, [⟨0, 32, .ro, false, 0, .any, fun _ _ => 0⟩]⟩,
  ⟨0x2018, 0x40, 64, [⟨0, 32, .ro, false, 0, .any, fun _ _ => 0⟩]⟩,
  ⟨0x201c, 0x40, 64, [⟨0, 32, .ro, false, 0, .any, fun _ _ => 0⟩]⟩,
  ⟨0x2020, 0x40, 64, [⟨0, 32, .ro, false, 0, .any, fun _ _ => 0⟩]⟩,
  ⟨0x2024, 0x40, 64, [⟨0, 32, .ro, false, 0, .any, fun _ _ => 0⟩]⟩,
  ⟨0x2028, 0x40, 64, [⟨0, 32, .ro, false, 0, .any, fun _ _ => 0⟩]⟩]

/-- Registers of the ENC block. -/
def regsENC : List RegDef := regsENC0 ++ regsENC1 ++ regsENC2 ++ regsENC3

def regsTIM0 : List RegDef := [
  ⟨0x10, 0x4, 1, [⟨0, 3, .ro, false, 0, .any, fun _ _ => 0⟩, ⟨4, 1, .ro, false, 0, .any, fun _ _ => 0⟩, ⟨5, 1, .ro, false, 0, .any, fun _ _ => 0⟩, ⟨8, 2, .ro, false, 0, .any, fun _ _ => 0⟩]⟩,
  ⟨0x14, 0x4, 1, [⟨0, 7, .w1c, false, 0, .any, fun _ _ => 0⟩]⟩,
  ⟨0x18, 0x4, 1, [⟨0, 7, .rw, false, 0, .any, fun _ _ => 0⟩]⟩,
  ⟨0x20, 0x4, 1, [⟨0, 32, .ro, false, 0, .any, fun _ _ => 0⟩]⟩,
  ⟨0x24, 0x4, 1, [⟨0, 32, .ro, false, 0, .any, fun _ _ => 0⟩]⟩,
  ⟨0x28, 0x4, 1, [⟨0, 1, .wo, false, 0, .any, fun _ _ => 0⟩]⟩,
  ⟨0x2c, 0x4, 1, [⟨0, 32, .ro, false, 0, .any, fun _ _ => 0⟩]⟩,
  ⟨0x30, 0x4, 1, [⟨0, 32, .ro, false, 0, .any, fun _ _ => 0⟩]⟩,
  ⟨0x34, 0x4, 1, [⟨0, 32, .ro, false, 0, .any, fun _ _ => 0⟩]⟩,
  ⟨0x38, 0x4, 1, [⟨0, 32, .ro, false, 0, .any, fun _ _ => 0⟩]⟩,
  ⟨0x3c, 0x4, 1, [⟨0, 16, .rw, false, 0, (.clamp 1 10000), fun _ _ => 500⟩, ⟨16, 8, .rw, false, 0, (.clamp 1 200), fun _ _ => 10⟩]⟩,
  ⟨0x40, 0x4, 1, [⟨0, 20, .rw, false, 0, (.atLeast 200), fun _ _ => 1000⟩]⟩]

def regsTIM1 : List RegDef := [
  ⟨0x44, 0x4, 1, [⟨0, 20, .rw, false, 0, .any, fun _ _ => 1000⟩]⟩,
  ⟨0x48, 0x4, 1, [⟨0, 16, .rw, false, 0, (.atLeast 1), fun _ _ => 100⟩, ⟨31, 1, .rw, false, 0, .any, fun _ _ => 0⟩]⟩,
  ⟨0x50, 0x4, 1, [⟨0, 32, .ro, false, 0, .any, fun _ _ => 2147483647⟩]⟩,
  ⟨0x54, 0x4, 1, [⟨0, 32, .ro, false, 0, .any, fun _ _ => 2147483647⟩]⟩,
  ⟨0x58, 0x4, 1, [⟨0, 32, .ro, false, 0, .any, fun _ _ => 0⟩]⟩,
  ⟨0x60, 0x4, 1, [⟨0, 32, .rw, false, 0, .any, fun _ _ => 0⟩]⟩,
  ⟨0x64, 0x4, 1, [⟨0, 32, .rw, false, 0, .any, fun _ _ => 0⟩]⟩,
  ⟨0x68, 0x4, 1, [⟨0, 1, .wo, false, 0, .any, fun _ _ => 0⟩]⟩,
  ⟨0x70, 0x4, 2, [⟨0, 16, .rw, false, 0, .any, fun _ _ => 0⟩, ⟨16, 16, .rw, false, 0, .any, fun _ _ => 0⟩]⟩,
  ⟨0x80, 0x4, 1, [⟨0, 32, .ro, false, 0, .any, fun _ _ => 0⟩]⟩,
  ⟨0x100, 0x20, 8, [⟨0, 1, .rw, false, 0, .any, fun _ _ => 0⟩, ⟨1, 1, .rw, false, 0, .any, fun _ _ => 0⟩, ⟨2, 1, .rw, false, 0, .any, fun _ _ => 0⟩, ⟨3, 1, .wo, false, 0, .any, fun _ _ => 0⟩]⟩,
  ⟨0x104, 0x20, 8, [⟨0, 32, .rw, false, 0, .any, fun _ _ => 0⟩]⟩]

def regsTIM2 : List RegDef := [
  ⟨0x108, 0x20, 8, [⟨0, 32, .rw, false, 0, .any, fun _ _ => 0⟩]⟩,
  ⟨0x10c, 0x20, 8, [⟨0, 32, .rw, false, 0, .any, fun _ _ => 0⟩]⟩,
  ⟨0x110, 0x20, 8, [⟨0, 16, .rw, false, 0, (.atLeast 1), fun _ _ => 1⟩]⟩,
  ⟨0x114, 0x20, 8, [⟨0, 30, .rw, false, 0, (.atLeast 8), fun _ _ => 8⟩]⟩,
  ⟨0x118, 0x20, 8, [⟨0, 1, .ro, false, 0, .any, fun _ _ => 0⟩, ⟨1, 1, .w1c, false, 0, .any, fun _ _ => 0⟩, ⟨2, 1, .ro, false, 0, .any, fun _ _ => 0⟩]⟩,
  ⟨0x200, 0x4, 66, [⟨0, 16, .rw, false, 0, .any, fun _ _ => 0⟩]⟩]

/-- Registers of the TIM block. -/
def regsTIM : List RegDef := regsTIM0 ++ regsTIM1 ++ regsTIM2

def regsREF0 : List RegDef := [
  ⟨0x10, 0x4, 1, [⟨0, 1, .rw, false, 0, .any, fun _ _ => 1⟩, ⟨1, 1, .rw, false, 0, .any, fun _ _ => 0⟩, ⟨2, 1, .rw, false, 0, .any, fun _ _ => 0⟩, ⟨3, 1, .rw, false, 0, .any, fun _ _ => 0⟩, ⟨4, 3, .rw, false, 0, .any, fun _ _ => 0⟩]⟩,
  ⟨0x14, 0x4, 1, [⟨0, 2, .ro, false, 0, .any, fun _ _ => 0⟩, ⟨4, 3, .ro, false, 0, .any, fun _ _ => 0⟩, ⟨7, 1, .ro, false, 0, .any, fun _ _ => 1⟩, ⟨8, 1, .ro, false, 0, .any, fun _ _ => 0⟩, ⟨9, 1, .ro, false, 0, .any, fun _ _ => 0⟩]⟩,
  ⟨0x18, 0x4, 1, [⟨0, 8, .w1c, false, 0, .any, fun _ _ => 0⟩]⟩,
  ⟨0x1c, 0x4, 1, [⟨0, 8, .rw, false, 0, .any, fun _ _ => 0⟩]⟩,
  ⟨0x20, 0x4, 1, [⟨0, 10, .rw, false, 0, (.clamp 1 600), fun _ _ => 10⟩]⟩,
  ⟨0x24, 0x4, 1, [⟨0, 14, .rw, false, 0, .any, fun _ _ => 200⟩]⟩,
  ⟨0x28, 0x4, 1, [⟨0, 14, .rw, false, 0, .any, fun _ _ => 1000⟩]⟩,
  ⟨0x2c, 0x4, 1, [⟨0, 32, .ro, false, 0, .any, fun _ _ => 0⟩]⟩,
  ⟨0x100, 0x40, 8, [⟨0, 4, .rw, false, 0, .inputCode, fun _ i => refInputReset i⟩, ⟨8, 4, .rw, false, 0, (.atLeast 1), fun _ i => refRankReset i⟩, ⟨12, 1, .rw, false, 0, .any, fun _ _ => 0⟩, ⟨16, 8, .rw, false, 0, .any, fun _ _ => 7⟩]⟩,
  ⟨0x104, 0x40, 8, [⟨0, 10, .rw, false, 0, (.atLeast 1), fun _ i => refBwReset i⟩]⟩,
  ⟨0x108, 0x40, 8, [⟨0, 32, .rw, false, 0, .any, fun _ _ => 60000⟩]⟩,
  ⟨0x10c, 0x40, 8, [⟨0, 16, .rw, false, 0, (.atLeast 1), fun _ _ => 1001⟩]⟩]

def regsREF1 : List RegDef := [
  ⟨0x110, 0x40, 8, [⟨0, 13, .rw, false, 0, .any, fun _ _ => 0⟩]⟩,
  ⟨0x114, 0x40, 8, [⟨0, 32, .rw, false, 0, .any, fun _ _ => 0⟩]⟩,
  ⟨0x118, 0x40, 8, [⟨0, 3, .ro, false, 0, .any, fun _ _ => 0⟩, ⟨16, 10, .ro, false, 0, .any, fun _ _ => 0⟩]⟩,
  ⟨0x11c, 0x40, 8, [⟨0, 1, .w1c, false, 0, .any, fun _ _ => 0⟩, ⟨1, 1, .w1c, false, 0, .any, fun _ _ => 0⟩, ⟨2, 1, .w1c, false, 0, .any, fun _ _ => 0⟩, ⟨3, 1, .w1c, false, 0, .any, fun _ _ => 0⟩, ⟨4, 1, .w1c, false, 0, .any, fun _ _ => 0⟩, ⟨5, 1, .w1c, false, 0, .any, fun _ _ => 0⟩]⟩,
  ⟨0x120, 0x40, 8, [⟨0, 32, .ro, false, 0, .any, fun _ _ => 0⟩]⟩,
  ⟨0x124, 0x40, 8, [⟨0, 32, .ro, false, 0, .any, fun _ _ => 2147483647⟩]⟩,
  ⟨0x400, 0x20, 4, [⟨0, 1, .rw, false, 0, .any, fun _ _ => 0⟩, ⟨1, 1, .rw, false, 0, .any, fun _ _ => 0⟩, ⟨2, 1, .rw, false, 0, .any, fun _ _ => 0⟩, ⟨8, 5, .rw, false, 0, .any, fun _ _ => 0⟩]⟩,
  ⟨0x404, 0x20, 4, [⟨0, 32, .rw, false, 0, .any, fun _ _ => 0⟩]⟩,
  ⟨0x408, 0x20, 4, [⟨0, 20, .rw, false, 0, (.atLeast 8), fun _ _ => 8⟩]⟩,
  ⟨0x40c, 0x20, 4, [⟨0, 1, .ro, false, 0, .any, fun _ _ => 0⟩, ⟨1, 1, .ro, false, 0, .any, fun _ _ => 0⟩]⟩,
  ⟨0x500, 0x4, 2, [⟨0, 1, .rw, false, 0, .any, fun _ _ => 0⟩, ⟨1, 1, .rw, false, 0, .any, fun _ _ => 0⟩, ⟨4, 2, .rw, false, 0, .any, fun _ _ => 0⟩]⟩,
  ⟨0x508, 0x4, 1, [⟨0, 1, .rw, false, 0, .any, fun _ _ => 0⟩, ⟨4, 2, .rw, false, 0, (.under 3 0), fun _ _ => 0⟩]⟩]

/-- Registers of the REF block. -/
def regsREF : List RegDef := regsREF0 ++ regsREF1

def regsTWN0 : List RegDef := [
  ⟨0x10, 0x4, 1, [⟨0, 1, .ro, false, 0, .any, fun _ _ => 0⟩, ⟨1, 1, .ro, false, 0, .any, fun _ _ => 0⟩, ⟨2, 1, .ro, false, 0, .any, fun _ _ => 0⟩, ⟨3, 1, .ro, false, 0, .any, fun _ _ => 1⟩, ⟨8, 1, (.wl 8606714368), false, 0, .any, fun _ _ => 0⟩]⟩,
  ⟨0x14, 0x4, 1, [⟨0, 2, .ro, true, 3, .any, fun _ _ => 0⟩, ⟨2, 1, .ro, true, 0, .any, fun _ _ => 1⟩, ⟨4, 2, .ro, false, 0, .any, fun _ _ => 0⟩, ⟨8, 3, .ro, false, 0, .any, fun _ _ => 0⟩, ⟨12, 1, .ro, false, 0, .any, fun _ _ => 0⟩, ⟨13, 1, .ro, false, 0, .any, fun _ _ => 0⟩, ⟨14, 1, .ro, false, 0, .any, fun _ _ => 0⟩, ⟨15, 1, .ro, false, 0, .any, fun _ _ => 0⟩]⟩,
  ⟨0x18, 0x4, 1, [⟨0, 13, .w1c, false, 0, .any, fun _ _ => 0⟩]⟩,
  ⟨0x1c, 0x4, 1, [⟨0, 13, .rw, false, 0, .any, fun _ _ => 0⟩]⟩,
  ⟨0x20, 0x4, 1, [⟨0, 32, .ro, false, 0, .any, fun _ _ => 0⟩]⟩,
  ⟨0x24, 0x4, 1, [⟨0, 32, .ro, false, 0, .any, fun _ _ => 0⟩]⟩,
  ⟨0x28, 0x4, 1, [⟨0, 20, .ro, false, 0, .any, fun _ _ => 0⟩]⟩,
  ⟨0x2c, 0x4, 1, [⟨0, 32, .ro, false, 0, .any, fun _ _ => 0⟩]⟩,
  ⟨0x30, 0x4, 1, [⟨0, 10, .wo, false, 0, .any, fun _ _ => 0⟩, ⟨31, 1, .wo, false, 0, .any, fun _ _ => 0⟩]⟩,
  ⟨0x34, 0x4, 1, [⟨0, 32, .rw, false, 0, .any, fun _ _ => 0⟩]⟩,
  ⟨0x38, 0x4, 1, [⟨0, 32, .rw, false, 0, .any, fun _ _ => 0⟩]⟩,
  ⟨0x3c, 0x4, 1, [⟨0, 1, .wo, false, 0, .any, fun _ _ => 0⟩]⟩]

def regsTWN1 : List RegDef := [
  ⟨0x40, 0x4, 1, [⟨0, 32, (.wl 8606714368), true, 0xFFFFFFFF, .any, fun _ _ => 0⟩]⟩,
  ⟨0x44, 0x4, 1, [⟨0, 32, (.wl 8606714368), true, 0xFFFFFFFF, .any, fun _ _ => 0⟩]⟩,
  ⟨0x48, 0x4, 1, [⟨0, 32, (.wl 8606714368), false, 0, .any, fun _ _ => 0⟩]⟩,
  ⟨0x4c, 0x4, 1, [⟨0, 32, (.wl 8606714368), false, 0, .any, fun _ _ => 0⟩]⟩,
  ⟨0x50, 0x4, 1, [⟨0, 1, .w1, true, 0, .any, fun _ _ => 0⟩]⟩,
  ⟨0x54, 0x4, 1, [⟨0, 32, .ro, false, 0, .any, fun _ _ => 0⟩]⟩,
  ⟨0x58, 0x4, 1, [⟨0, 32, .ro, false, 0, .any, fun _ _ => 0⟩]⟩,
  ⟨0x5c, 0x4, 1, [⟨0, 32, .ro, false, 0, .any, fun _ _ => 0⟩]⟩,
  ⟨0x60, 0x4, 1, [⟨0, 32, .ro, false, 0, .any, fun _ _ => 0⟩]⟩,
  ⟨0x64, 0x4, 1, [⟨0, 32, .ro, false, 0, .any, fun _ _ => 0⟩]⟩,
  ⟨0x68, 0x4, 1, [⟨0, 32, .ro, false, 0, .any, fun _ _ => 0⟩]⟩,
  ⟨0x6c, 0x4, 1, [⟨0, 16, .rw, false, 0, (.atLeast 1), fun _ _ => 500⟩]⟩]

def regsTWN2 : List RegDef := [
  ⟨0x70, 0x4, 1, [⟨0, 1, .rw, false, 0, .any, fun _ _ => 1⟩, ⟨8, 8, .rw, false, 0, (.atLeast 1), fun _ _ => 60⟩]⟩,
  ⟨0x74, 0x4, 1, [⟨0, 32, .ro, false, 0, .any, fun _ _ => 0⟩]⟩,
  ⟨0x78, 0x4, 1, [⟨0, 32, .ro, false, 0, .any, fun _ _ => 0⟩]⟩]

/-- Registers of the TWN block. -/
def regsTWN : List RegDef := regsTWN0 ++ regsTWN1 ++ regsTWN2

def regsVLT0 : List RegDef := [
  ⟨0x10, 0x4, 1, [⟨0, 1, .ro, false, 0, .any, fun _ _ => 0⟩, ⟨4, 3, .ro, false, 0, .any, fun _ _ => 1⟩, ⟨8, 1, .ro, false, 0, .any, fun _ _ => 0⟩, ⟨9, 1, .ro, false, 0, .any, fun _ _ => 0⟩, ⟨16, 7, .ro, false, 0, .any, fun _ _ => 0⟩, ⟨24, 4, .ro, false, 0, .any, fun _ _ => 0⟩, ⟨28, 3, .ro, false, 0, .any, fun _ _ => 0⟩]⟩,
  ⟨0x14, 0x4, 1, [⟨0, 7, .w1c, false, 0, .any, fun _ _ => 0⟩]⟩,
  ⟨0x18, 0x4, 1, [⟨0, 7, .rw, false, 0, .any, fun _ _ => 0⟩]⟩,
  ⟨0x1c, 0x4, 1, [⟨0, 1, .w1, true, 0, .any, fun _ _ => 0⟩]⟩,
  ⟨0x20, 0x4, 1, [⟨0, 10, .ro, false, 0, .any, fun _ _ => 0⟩, ⟨16, 6, .ro, false, 0, .any, fun _ _ => 0⟩, ⟨24, 7, .ro, false, 0, .any, fun _ _ => 0⟩]⟩,
  ⟨0x24, 0x4, 1, [⟨0, 32, .ro, false, 0, .any, fun _ _ => 0⟩]⟩,
  ⟨0x28, 0x4, 1, [⟨0, 32, .ro, false, 0, .any, fun _ _ => 0⟩]⟩,
  ⟨0x2c, 0x4, 1, [⟨0, 32, .ro, false, 0, .any, fun _ _ => 0⟩]⟩,
  ⟨0x30, 0x4, 1, [⟨0, 2, .ro, false, 0, .any, fun _ _ => 0⟩]⟩,
  ⟨0x80, 0x4, 1, [⟨0, 16, .rw, false, 0, .any, fun _ _ => 0⟩]⟩,
  ⟨0x84, 0x4, 1, [⟨0, 32, .rw, false, 0, .any, fun _ _ => 0⟩]⟩]

/-- Registers of the VLT block. -/
def regsVLT : List RegDef := regsVLT0

def regsMEM0 : List RegDef := [
  ⟨0x10, 0x4, 1, [⟨0, 4, .ro, false, 0, .any, fun _ _ => 0⟩, ⟨8, 2, .ro, false, 0, .any, fun _ _ => 0⟩]⟩,
  ⟨0x14, 0x4, 1, [⟨0, 9, .w1c, false, 0, .any, fun _ _ => 0⟩]⟩,
  ⟨0x18, 0x4, 1, [⟨0, 9, .rw, false, 0, .any, fun _ _ => 0⟩]⟩,
  ⟨0x100, 0x20, 16, [⟨0, 6, .rw, false, 0, .any, fun _ i => memFirstReset i⟩, ⟨8, 6, .rw, false, 0, .any, fun _ i => memCountReset i⟩, ⟨16, 4, .rw, false, 0, (.clamp 8 16), fun _ _ => 12⟩, ⟨31, 1, .rw, false, 0, .any, fun _ i => memEnReset i⟩]⟩,
  ⟨0x104, 0x20, 16, [⟨0, 32, .rw, false, 0, .any, fun _ i => memBaseReset i % 2 ^ 32⟩]⟩,
  ⟨0x108, 0x20, 16, [⟨0, 7, .rw, false, 0, .any, fun _ i => memBaseReset i / 2 ^ 32⟩]⟩,
  ⟨0x10c, 0x20, 16, [⟨0, 32, .ro, false, 0, .any, fun _ _ => 0⟩]⟩,
  ⟨0x110, 0x20, 16, [⟨0, 7, .ro, false, 0, .any, fun _ _ => 0⟩]⟩,
  ⟨0x114, 0x20, 16, [⟨0, 32, .rw, false, 0, .any, fun _ i => memRsvReset i⟩]⟩,
  ⟨0x118, 0x20, 16, [⟨0, 7, .rw, false, 0, .any, fun _ _ => 0⟩]⟩,
  ⟨0x11c, 0x20, 16, [⟨0, 8, .rw, false, 0, .any, fun _ _ => 0⟩]⟩,
  ⟨0x400, 0x10, 32, [⟨0, 1, .rw, false, 0, .any, fun _ _ => 0⟩, ⟨1, 1, .rw, true, 0, .any, fun _ _ => 0⟩, ⟨16, 16, .rw, false, 0, .any, fun _ _ => 0⟩]⟩]

def regsMEM1 : List RegDef := [
  ⟨0x404, 0x10, 32, [⟨0, 32, .rw, false, 0, .any, fun _ _ => 0⟩]⟩,
  ⟨0x408, 0x10, 32, [⟨16, 16, .rw, false, 0, .any, fun _ _ => 0⟩]⟩,
  ⟨0x40c, 0x10, 32, [⟨0, 7, .rw, false, 0, .any, fun _ _ => 0⟩]⟩]

/-- Registers of the MEM block. -/
def regsMEM : List RegDef := regsMEM0 ++ regsMEM1

def regsDMC0 : List RegDef := [
  ⟨0x10, 0x4, 1, [⟨0, 1, .ro, false, 0, .any, fun _ _ => 0⟩, ⟨1, 1, .ro, false, 0, .any, fun _ _ => 0⟩, ⟨2, 1, .ro, false, 0, .any, fun _ _ => 1⟩, ⟨4, 3, .ro, false, 0, .any, fun _ _ => 0⟩]⟩,
  ⟨0x14, 0x4, 1, [⟨0, 11, .ro, false, 0, .any, fun _ _ => 0⟩]⟩,
  ⟨0x18, 0x4, 1, [⟨0, 32, .ro, false, 0, .any, fun _ _ => 0⟩]⟩,
  ⟨0x1c, 0x4, 1, [⟨0, 32, .ro, false, 0, .any, fun _ _ => 0⟩]⟩,
  ⟨0x20, 0x4, 1, [⟨0, 32, .ro, false, 0, .any, fun _ _ => 0⟩]⟩,
  ⟨0x24, 0x4, 1, [⟨0, 32, .ro, false, 0, .any, fun _ _ => 0⟩]⟩,
  ⟨0x40, 0x4, 1, [⟨0, 1, .rw, false, 0, .any, fun _ _ => 0⟩, ⟨1, 2, .rw, false, 0, .any, fun _ _ => 0⟩, ⟨4, 3, .rw, false, 0, .any, fun _ _ => 0⟩, ⟨8, 1, .wo, false, 0, .any, fun _ _ => 0⟩, ⟨9, 1, .ro, false, 0, .any, fun _ _ => 0⟩]⟩,
  ⟨0x80, 0x4, 16, [⟨0, 32, .rw, false, 0, .any, fun _ _ => 0⟩]⟩,
  ⟨0xc0, 0x4, 1, [⟨0, 32, .ro, false, 0, .any, fun _ _ => 0⟩]⟩,
  ⟨0xc4, 0x4, 1, [⟨0, 18, .ro, false, 0, .any, fun _ _ => 0⟩]⟩,
  ⟨0xd0, 0x4, 1, [⟨0, 8, .rw, false, 0, .any, fun _ _ => 0⟩]⟩,
  ⟨0xd4, 0x4, 1, [⟨0, 16, .rw, false, 0, .any, fun _ _ => 0⟩]⟩]

/-- Registers of the DMC block. -/
def regsDMC : List RegDef := regsDMC0

def regsSKW0 : List RegDef := [
  ⟨0x10, 0x4, 1, [⟨0, 11, .rw, false, 0, (.atLeast 1), fun _ _ => 1024⟩]⟩,
  ⟨0x14, 0x4, 1, [⟨0, 3, .w1c, false, 0, .any, fun _ _ => 0⟩]⟩,
  ⟨0x18, 0x4, 1, [⟨0, 3, .rw, false, 0, .any, fun _ _ => 0⟩]⟩,
  ⟨0x20, 0x4, 1, [⟨0, 32, .ro, false, 0, .any, fun _ _ => 0⟩]⟩,
  ⟨0x24, 0x4, 1, [⟨0, 32, .ro, false, 0, .any, fun _ _ => 0⟩]⟩,
  ⟨0x28, 0x4, 1, [⟨0, 6, .ro, false, 0, .any, fun _ _ => 0⟩, ⟨8, 3, .ro, false, 0, .any, fun _ _ => 0⟩, ⟨12, 2, .ro, false, 0, .any, fun _ _ => 0⟩]⟩,
  ⟨0x30, 0x4, 1, [⟨0, 32, .ro, false, 0, .any, fun _ _ => 0⟩]⟩,
  ⟨0x34, 0x4, 1, [⟨0, 32, .ro, false, 0, .any, fun _ _ => 0⟩]⟩,
  ⟨0x80, 0x4, 8, [⟨0, 4, .rw, false, 0, (.atLeast 1), fun _ i => skwWeightReset i⟩]⟩,
  ⟨0x100, 0x4, 42, [⟨0, 28, .rw, false, 0, .any, fun _ i => skwPrioReset i⟩]⟩]

/-- Registers of the SKW block. -/
def regsSKW : List RegDef := regsSKW0

def regsFLT0 : List RegDef := [
  ⟨0x10, 0x4, 1, [⟨0, 1, .ro, false, 0, .any, fun _ _ => 0⟩, ⟨4, 3, .ro, false, 0, .any, fun _ _ => 0⟩, ⟨8, 1, .w1c, false, 0, .any, fun _ _ => 0⟩, ⟨9, 1, .ro, false, 0, .any, fun _ _ => 0⟩, ⟨12, 3, .ro, false, 0, .any, fun _ _ => 0⟩, ⟨16, 1, .ro, false, 0, .any, fun _ _ => 0⟩, ⟨17, 2, .ro, false, 0, .any, fun _ _ => 0⟩]⟩,
  ⟨0x14, 0x4, 1, [⟨0, 3, .rw, true, 3, (.clamp 1 6), fun _ _ => 3⟩]⟩,
  ⟨0x18, 0x4, 1, [⟨0, 16, .ro, false, 0, .any, fun _ _ => 0⟩, ⟨16, 3, .ro, false, 0, .any, fun _ _ => 0⟩]⟩,
  ⟨0x1c, 0x4, 1, [⟨0, 32, .ro, false, 0, .any, fun _ _ => 0⟩]⟩,
  ⟨0x20, 0x4, 1, [⟨0, 32, .ro, false, 0, .any, fun _ _ => 0⟩]⟩,
  ⟨0x24, 0x4, 1, [⟨0, 32, .ro, false, 0, .any, fun _ _ => 0⟩]⟩,
  ⟨0x28, 0x4, 1, [⟨0, 32, .ro, false, 0, .any, fun _ _ => 0⟩]⟩,
  ⟨0x2c, 0x4, 1, [⟨0, 32, .ro, false, 0, .any, fun _ _ => 0⟩]⟩,
  ⟨0x30, 0x4, 1, [⟨0, 8, .rw, false, 0, .any, fun _ _ => 0⟩]⟩,
  ⟨0x34, 0x4, 1, [⟨0, 32, .ro, false, 0, .any, fun _ _ => 0⟩]⟩,
  ⟨0x38, 0x4, 1, [⟨0, 32, .ro, false, 0, .any, fun _ _ => 0⟩]⟩,
  ⟨0x40, 0x4, 6, [⟨0, 32, .ro, false, 0, .any, fun _ _ => 0⟩]⟩]

def regsFLT1 : List RegDef := [
  ⟨0x60, 0x4, 1, [⟨0, 11, .ro, false, 0, .any, fun _ _ => 0⟩]⟩,
  ⟨0x64, 0x4, 1, [⟨0, 32, .ro, false, 0, .any, fun _ _ => 0⟩]⟩,
  ⟨0x70, 0x4, 1, [⟨0, 5, .rw, true, 0, .any, fun _ _ => 0⟩]⟩,
  ⟨0x74, 0x4, 1, [⟨0, 8, (.wl 8594132639), false, 0, .any, fun _ _ => 100⟩, ⟨8, 8, (.wl 8594132639), false, 0, (.atMost 105), fun _ _ => 105⟩, ⟨31, 1, .w1, true, 0, .any, fun _ _ => 0⟩]⟩,
  ⟨0x78, 0x4, 1, [⟨0, 8, .ro, false, 0, .any, fun _ _ => 0⟩]⟩,
  ⟨0x80, 0x4, 1, [⟨0, 3, .wo, false, 0, .any, fun _ _ => 0⟩]⟩]

/-- Registers of the FLT block. -/
def regsFLT : List RegDef := regsFLT0 ++ regsFLT1

def regsPWR0 : List RegDef := [
  ⟨0x10, 0x4, 1, [⟨0, 2, .ro, false, 0, .any, fun _ _ => 2⟩]⟩,
  ⟨0x14, 0x4, 1, [⟨0, 4, .w1c, false, 0, .any, fun _ _ => 0⟩]⟩,
  ⟨0x18, 0x4, 1, [⟨0, 4, .rw, false, 0, .any, fun _ _ => 0⟩]⟩,
  ⟨0x20, 0x4, 1, [⟨0, 32, .rw, true, 0, .any, fun _ _ => 11⟩]⟩,
  ⟨0x24, 0x4, 1, [⟨0, 26, .rw, true, 0, .any, fun _ _ => 0⟩]⟩,
  ⟨0x28, 0x4, 1, [⟨0, 32, .ro, false, 0, .any, fun _ _ => 11⟩]⟩,
  ⟨0x2c, 0x4, 1, [⟨0, 26, .ro, false, 0, .any, fun _ _ => 0⟩]⟩,
  ⟨0x30, 0x4, 1, [⟨0, 32, .ro, false, 0, .any, fun _ _ => 0xFFFFFFFF⟩]⟩,
  ⟨0x34, 0x4, 1, [⟨0, 26, .ro, false, 0, .any, fun _ _ => 0x3FFFFFF⟩]⟩,
  ⟨0x40, 0x4, 1, [⟨0, 4, .rw, false, 0, .any, fun _ _ => 3⟩]⟩,
  ⟨0x44, 0x4, 1, [⟨0, 11, .rw, false, 0, (.clamp 100 1200), fun _ _ => 600⟩, ⟨16, 1, .rw, false, 0, .any, fun _ _ => 0⟩, ⟨31, 1, .ro, false, 0, .any, fun _ _ => 0⟩]⟩,
  ⟨0x48, 0x4, 1, [⟨0, 32, .rw, false, 0, .any, fun _ _ => 0⟩]⟩]

def regsPWR1 : List RegDef := [
  ⟨0x4c, 0x4, 1, [⟨0, 7, (.wl 8596228511), false, 0, .any, fun _ _ => 0x20⟩, ⟨31, 1, .w1, true, 0, .any, fun _ _ => 0⟩]⟩,
  ⟨0x50, 0x4, 1, [⟨0, 32, .rw, false, 0, .any, fun _ _ => 10⟩]⟩,
  ⟨0x54, 0x4, 1, [⟨0, 26, .rw, false, 0, .any, fun _ _ => 0⟩]⟩,
  ⟨0x60, 0x4, 1, [⟨0, 3, .ro, false, 0, .any, fun _ _ => 7⟩, ⟨8, 7, .ro, false, 0, .any, fun _ _ => 64⟩, ⟨16, 2, .ro, false, 0, .any, fun _ _ => 0⟩]⟩,
  ⟨0x64, 0x4, 1, [⟨0, 32, .ro, false, 0, .any, fun _ _ => 0⟩]⟩,
  ⟨0x68, 0x4, 1, [⟨0, 32, .ro, false, 0, .any, fun _ _ => 0⟩]⟩,
  ⟨0x6c, 0x4, 1, [⟨0, 32, .ro, false, 0, .any, fun _ _ => 0⟩]⟩,
  ⟨0x100, 0x4, 58, [⟨0, 16, .rw, false, 0, .any, fun _ i => idleReset i⟩]⟩]

/-- Registers of the PWR block. -/
def regsPWR : List RegDef := regsPWR0 ++ regsPWR1

end Sys2Proof.Machine
end

