-- ==== Sys2Proof/Machine/SnapCmds.lean ====
section
/-!
DEFINITION. The snapshot of resynchronisation (R445, R446): what the holder sends, and how a non-holder applies it and the
mirrors that it queued meanwhile.
-/
namespace Sys2Proof.Machine

/-! ### What a snapshot holds -/

/-- The register fields of port `p` that NET_PORT_CONFIG sets. -/
def portFields (p : Nat) : List FieldRef :=
  [Reg.NET_CTL_MODE p, Reg.NET_CTL_AN p, Reg.NET_CTL_EN p, Reg.NET_CTL_FC_MODE p, Reg.NET_CTL_MACSEC_EN p, Reg.NET_CTL_PTP_CLEAR p,
    Reg.NET_PAUSE_WD_MS p, Reg.NET_PAUSE_WD_HOLD_MS p, Reg.NET_PFC_MAP_MAP p]

/-- The register fields of generator `g`. -/
def genFields (g : Nat) : List FieldRef :=
  [Reg.EPH_GEN_N_N g, Reg.EPH_GEN_D_D g, Reg.EPH_GEN_CUR_N_N g, Reg.EPH_GEN_CUR_D_D g, Reg.EPH_GEN_CTL_EN g, Reg.EPH_GEN_CTL_CUT g,
    Reg.EPH_GEN_CTL_DIP g, Reg.EPH_GEN_CTL_RAMP_MS g]

/-- The register fields of audio ports and clocks. -/
def audioFields : List FieldRef :=
  [Reg.AUD_CLK_EN, Reg.AUD_CLK_SLAVE, Reg.AUD_CLK_RATE96, Reg.AUD_CLK_DELAY1, Reg.AUD_CTL_XDELAY] ++
    (List.range 8).flatMap fun i => [Reg.AUD_PORT_CTL_SDI_EN i, Reg.AUD_PORT_CTL_SDO_EN i, Reg.AUD_PORT_CTL_PRIME i, Reg.AUD_PORT_SLOTS_MASK i]

/-- The register fields of heads. -/
def headFields (h : Nat) : List FieldRef := [Reg.MVW_H_CTL_EN h, Reg.MVW_H_CTL_FMT h, Reg.MVW_H_CTL_GEN h, Reg.MVW_H_BG_COLOUR h]

/-- The register fields of REF_TABLE_SET and REF_FRAMEPULSE. -/
def refFields : List FieldRef :=
  [Reg.REF_CTL_REVERTIVE, Reg.REF_CTL_USE_OCXO, Reg.REF_CTL_OCXO_20M, Reg.REF_QUAL_S, Reg.REF_CONCORD_CPPM, Reg.REF_FLIMIT_CPPM, Reg.REF_ACLK_EN,
    Reg.REF_ACLK_SEL] ++
    ((List.range 2).flatMap fun n => [Reg.REF_VCLK_EN n, Reg.REF_VCLK_FAMILY1 n, Reg.REF_VCLK_SEL n]) ++
    ((List.range 8).flatMap fun i => [Reg.REF_E_CFG_INPUT i, Reg.REF_E_CFG_RANK i, Reg.REF_E_CFG_CLASS i, Reg.REF_E_CFG_ACTIVE_LOW i, Reg.REF_E_BW_DHZ i,
      Reg.REF_E_LINES_COUNT i, Reg.REF_E_N_N i, Reg.REF_E_D_D i, Reg.REF_E_DLY_NS i]) ++
    (List.range 4).flatMap fun o => [Reg.REF_FP_CTL_EN o, Reg.REF_FP_CTL_ACTIVE_LOW o, Reg.REF_FP_CTL_JUMP o, Reg.REF_FP_CTL_SRC o, Reg.REF_FP_WIDTH_NS o,
      Reg.REF_FP_OFS_NS o]

/-- The register fields of time pulses, power domains and PASR masks. -/
def otherFields : List FieldRef :=
  [Reg.TIM_BIAS_HOLD, Reg.PWR_DOM_EN_LO_EN, Reg.PWR_DOM_EN_HI_EN, Reg.PWR_WAKE_EN_BITS, Reg.PWR_CMP_THRESH_MV, Reg.PWR_CMP_FALLING] ++
    ((List.range 8).map Reg.TIM_PULSE_CTL_EN) ++ ((List.range 58).map Reg.PWR_IDLE_S) ++ (List.range 16).map Reg.MEM_SET_PASR_MASK

/-- Every listed register field that class C commands set, beside the selections and the memory map. -/
def classFields : List FieldRef :=
  (List.range 66).flatMap portFields ++ (List.range 16).flatMap genFields ++ audioFields ++ (List.range 16).flatMap headFields ++ refFields ++ otherFields

/-- Is a field one of the fabric's selections or a field of the memory map? -/
def mappedField (key : Nat) : Bool :=
  decide (32 * 0x10091000 ≤ key ∧ key < 32 * 0x1009D000) || (storedField key && key / 32 / 65536 == 0x100F)

/-- The pixels of the ready graphic objects that are not 0. -/
def State.graphicPixels (s : State) : List (Nat × Nat × Byte) :=
  (s.mvw.graphics.filter fun g => g.ready).flatMap fun (g : Graphic) =>
    let a := s.bufferAt 3 g.handle
    (List.range (g.w * g.h * 4)).filterMap fun i => if s.memByte (a + i) = 0 then none else some (g.handle, i, s.memByte (a + i))

/-- The settings of a lane: its last LAN_CONFIG, LAN_SLEEP and LAN_SLOTMASK, of which a manual layout stands staged. -/
def State.laneSettings (s : State) (x : Lane) : LaneSet :=
  let y := (x.manual, x.qmapSet, s.rd (Reg.LNQ_STX_MASK_SLOTS x.l), s.rd64 (Reg.LNQ_STX_QACT_LO_Q x.l) (Reg.LNQ_STX_QACT_HI_Q x.l))
  ⟨x.l, x.kept, x.keptSleep, if x.manual || x.qmapSet != 0 then some y else none⟩

/-- The heads with the video settings in force beside the graphic ones. -/
def State.headSettings (s : State) : List Head :=
  s.mvw.heads.map fun (x : Head) => { x with cur := { x.cur with vid := s.currentVid x.h } }

/-- The snapshot of the card (R446). -/
def State.snapshot (s : State) : Snapshot where
  gen := s.rd Reg.TWN_GEN_GEN
  regs := s.regs.filter fun q => mappedField q.1 || classFields.any fun f => f.key == q.1
  fab := s.fab
  eph := s.eph
  net := s.net
  aud := s.aud
  mvw := { s.mvw with heads := s.headSettings }
  enc := s.enc
  tim := s.tim
  ref := s.ref
  lanes := s.lan.lanes.map s.laneSettings
  bufs := s.mem.bufs
  pixels := s.graphicPixels

/-- The value of a field in a snapshot. -/
def Snapshot.rd (x : Snapshot) (f : FieldRef) : Nat := x.regs.get f

/-! ### Applying it -/

/-- The context of what a snapshot applies: mirrored, for no session. -/
def snapCtx : Ctx := ⟨0xFFFF, 0, 0, true, 0, [], []⟩

/-- Power domains, wake settings and idle timeouts. -/
def State.snapPower (s : State) (x : Snapshot) : State :=
  let s1 := ([Reg.PWR_WAKE_EN_BITS, Reg.PWR_CMP_THRESH_MV, Reg.PWR_CMP_FALLING] ++ (List.range 58).map Reg.PWR_IDLE_S).foldl (fun t f => t.wr f (x.rd f)) s
  s1.setEnables (x.rd Reg.PWR_DOM_EN_LO_EN + x.rd Reg.PWR_DOM_EN_HI_EN * 2 ^ 32)

/-- The memory map. -/
def State.snapMemory (s : State) (x : Snapshot) : State :=
  let own := s.regs.filter fun q => !(mappedField q.1 && q.1 / 32 / 65536 == 0x100F)
  let new := (x.regs.filter fun q => q.1 / 32 / 65536 == 0x100F).foldl (fun (r : RegFile) (q : Nat × Nat) => r.ins q.1 q.2) own
  let s1 := { s with regs := new }
  let s2 := (List.range 16).foldl (fun t n => t.wr (Reg.MEM_SET_PASR_MASK n) (x.rd (Reg.MEM_SET_PASR_MASK n))) s1
  (s.regionChanges s2).refreshSets.storeChanged

/-- A lane takes its settings as a mirrored LAN_CONFIG, LAN_SLEEP and LAN_SLOTMASK (R176); a partner lane keeps its own. -/
def State.snapLane (s : State) (y : LaneSet) : State :=
  if s.partnerLane y.l then s
  else
    let s1 := match y.config with
      | some p => (opLanConfig.run s snapCtx p).state
      | none => s
    let s2 := match y.sleep with
      | some k => s1.sleepLane y.l k.1 k.2.1 (k.2.2 == 1)
      | none => s1
    match y.layout with
    | some k => (opLanSlotmask.run s2 snapCtx (be16 y.l ++ be8 (b01 k.1) ++ be8 0 ++ be16 k.2.1 ++ be16 k.2.2.1 ++ be64 k.2.2.2)).state
    | none => s2

/-- A port takes its settings as a mirrored NET_PORT_CONFIG (R241). An SA that names a Vault slot not held valid never runs. -/
def State.snapPort (s : State) (x : Snapshot) (p : Nat) : State :=
  let y := ((x.net.ports.find? fun z => z.p == p).getD ⟨p, [], 0, [], [], none, 0, 0, 0, [], none, []⟩ : PortRec)
  let s1 := s.applyMode p (x.rd (Reg.NET_CTL_MODE p)) (x.rd (Reg.NET_CTL_AN p) + 2 * x.rd (Reg.NET_CTL_EN p))
  let s2 := ((portFields p).drop 3).foldl (fun t f => t.wr f (x.rd f)) s1
  let as := y.assocs.map fun (a : SecAssoc) => { a with gen := (s.slot a.slot).gen }
  s2.modNetPort p fun z => { z with validate := y.validate, confOffset := y.confOffset, replayWindow := y.replayWindow, assocs := as, mgtIp := y.mgtIp }

/-- The module buses take their bindings and settings. -/
def State.snapBuses (s : State) (x : Snapshot) : State :=
  x.net.buses.foldl (fun t (b : ModuleBus) =>
    let o := t.bus b.bus
    t.putBus { o with firstLane := b.firstLane, lanes := b.lanes, autoInit := b.autoInit, warn := b.warn, rated := b.rated }) s

/-- The generators take their rates, enables and modes. -/
def State.snapGenerator (s : State) (x : Snapshot) (g : Nat) : State :=
  let changed := ([Reg.EPH_GEN_CUR_N_N g, Reg.EPH_GEN_CUR_D_D g, Reg.EPH_GEN_CTL_EN g] : List FieldRef).any fun f => s.rd f != x.rd f
  let bound := s.genBound g
  let s1 := (genFields g).foldl (fun t f => t.wr f (x.rd f)) s
  if changed && bound then s1.rephase g false else s1

/-- What class C objects the card held goes, before those of the snapshot come: takes, Landing channels, bonds, heads, graphics,
encoder channels, decoders and flows, with their ports and buffers. -/
def State.snapClear (s : State) : State :=
  let s1 := s.fab.landing.foldl (fun t c => t.landingGone c.chan) s
  let s2 := (s1.mvw.heads.map fun (h : Head) => h.h).foldl (fun t h => t.headOff h) s1
  let s3 := s2.encodersOff
  let s4 := s3.net.flows.foldl (fun t f => t.removeFlow f false) s3
  let bufs := s4.mem.bufs.filter fun (b : Buffer) => !(b.kind == 3 || b.kind == 7)
  { s4 with
    eph := { s4.eph with takes := [] }
    fab := { s4.fab with bonds := [] }
    mvw := { s4.mvw with graphics := [], loads := [], coefs := [] }
    mem := { s4.mem with bufs := bufs } }

/-- Landing channels are assigned as their commands did; none has a frame yet. -/
def State.snapLanding (s : State) (x : Snapshot) : State :=
  (x.fab.landing.filter fun c => !c.releasing).foldl (fun t (c : Landing) =>
    t.assignChannel { c with
      session := 0xFFFF, through := false, changeAt := t.chrono, reading := none, done := [], ahead := [], writing := none, lastSof := some t.now, ancBuf := none, lost := none,
      black := false, anc := [] }) s

/-- The first Meridian of generator `g` at least 200 µs from now, as a frame. -/
def State.snapFrame (s : State) (g : Nat) : Nat := s.target g (s.chrono + 200000)

/-- The selection of port `q` in a snapshot. -/
def Snapshot.sel (x : Snapshot) (q : Nat) : Sel :=
  ⟨slotKey (x.rd (Reg.FAB_SEL_CUR_SRC q)) (x.rd (Reg.FAB_SEL_CUR_SRCQ q) == 1), x.rd (Reg.FAB_SEL_CUR_VALID q) == 1, x.rd (Reg.FAB_SEL_CUR_GEN q)⟩

/-- The selections of external outputs become one mirrored take, at the first allowed Meridian of each generator. -/
def State.snapRoutes (s : State) (x : Snapshot) : State :=
  let qs := (List.range 4608).filter fun q => s.selCur q != x.sel q
  let s1 := qs.foldl (fun t q => t.wr (Reg.FAB_SEL_CUR_GEN q) (x.sel q).gen) s
  let rs := (qs.filter fun q => (s.selCur q).valid || (x.sel q).valid).map fun q =>
    let y := x.sel q
    (⟨s1.outKey q, y.src, y.valid, false, false, !bit (x.rd (Reg.FAB_OUTEN_EN (q / 128))) (q / 4 % 32), y.gen, s1.snapFrame y.gen, 0, 0, false, false⟩ : RouteRec)
  if rs.isEmpty then s1 else s1.takeRoutes snapCtx (takeOf rs)

/-- The takes of the snapshot keep their handles and stamped frames, unless those lie less than 200 µs ahead. -/
def State.snapTakes (s : State) (x : Snapshot) : State :=
  let s1 := x.eph.takes.foldl (fun t (k : Take) =>
    t.addTake { k with
      session := 0xFFFF, mirrored := true
      routes := k.routes.map fun (r : RouteRec) => { r with frame := max r.frame (t.snapFrame r.gen), loaded := false, late := false } }) s
  { s1 with eph := { s1.eph with lastHandle := x.eph.lastHandle } }

/-- A flow of the partner as the card creates it: its own counters and stores are empty, its legs have heard nothing. An SRTP flow
whose slot is not held valid is created stopped (R270). -/
def State.snapFlow (s : State) (f : Flow) : State :=
  let legs := f.legs.map fun (g : FlowLeg) => { g with packets := 0, linkDown := 0, lastAccept := s.now, reports := 0, reportAt := s.now }
  let st := if f.srtp then s.slotStatus f.vslot .srtp else 0
  let y : Flow := { f with
    legs := legs, vgen := (s.slot f.vslot).gen, revoked := st != 0
    c0 := 0, c1 := 0, c2 := 0, c3 := 0, c4 := 0, c5 := 0, c6 := 0, margins := [], judged := none, got := [], highest := 0
    lastAccept := s.now, lastTa := none, loss := false, store := [], frames := [], releasing := none, next := none
    startAt := s.chrono + 200000, idleFrame := none, deleting := none }
  let s1 := { s with net := { s.net with flows := s.net.flows ++ [y], lastFlow := y.handle } }
  let s2 := if !f.tx && f.onSlot && !f.isAudio then (s1.flowMembers y).foldl (fun t m => t.beginMeasure (slotKey m f.quarter)) s1 else s1
  if f.tx then s2 else y.legs.foldl (fun t g => t.sendReport y g (if y.opt then 5 else 4)) s2

/-- Audio routes, sharing, tones, ports and clocks (R298). -/
def State.snapAudio (s : State) (x : Snapshot) : State :=
  let sinks := x.aud.sinks.map fun (k : Sink) => { k with fades := [], gainRamp := none, sample := 0, due := [], clip := 0, mismatch := 0, takes := [] }
  let s1 := { s with aud := { s.aud with sinks := sinks, tones := x.aud.tones, slotSets := x.aud.slotSets } }
  let s2 := audioFields.foldl (fun t f => t.wr f (x.rd f)) s1
  s2.audClkChanged (s.rd Reg.AUD_CLK_EN) (s.rd Reg.AUD_CLK_RATE96)

/-- A ready graphic object comes with its pixels. -/
def State.snapGraphic (s : State) (x : Snapshot) (g : Graphic) : State :=
  let set := ((x.bufs.find? fun b => b.kind == 3 && b.id == g.handle).map fun (b : Buffer) => b.set).getD 0
  let al := s.allocBuffer 3 g.handle set (g.w * g.h * 4)
  let s1 := (List.range (g.w * g.h * 4)).foldl (fun t i => t.memPut (al.1 + i) 0) al.2
  let s2 := (x.pixels.filter fun k => k.1 == g.handle).foldl (fun t k => t.memPut (al.1 + k.2.1) k.2.2) s1
  { s2 with mvw := { s2.mvw with graphics := s2.mvw.graphics ++ [g] } }

/-- One commit of a head as its settings say, at frame `f` at the earliest. -/
def State.snapCommit (s : State) (h f : Nat) (y : HeadSet) : State :=
  let s1 := s.putHead { s.head h with shadow := y }
  let n := s1.headAt h (s1.chrono + 200000)
  s1.admitHead h (max f (s1.headFrame n.fmt n.gen (s1.chrono + 200000))) s1.changeId (s1.chrono + 200000) n

/-- A head: its configuration, the settings in force, the changes that wait, and its shadow settings. Its engines are the card's
own choice (R89, R323). -/
def State.snapHead (s : State) (x : Snapshot) (y : Head) : State :=
  let config := fun (t : State) (k : Bool × Nat × Nat × Nat × Nat) =>
    (opMvwHeadConfig.run t snapCtx (be8 y.h ++ be8 (b01 k.1) ++ be8 k.2.1 ++ be8 k.2.2.1 ++ be8 k.2.2.2.1 ++ zeros 3 ++ be32 k.2.2.2.2 ++ zeros 4)).state
  let s1 := config s (x.rd (Reg.MVW_H_CTL_EN y.h) == 1, x.rd (Reg.MVW_H_CTL_FMT y.h), x.rd (Reg.MVW_H_CTL_GEN y.h), y.set, x.rd (Reg.MVW_H_BG_COLOUR y.h))
  let s2 := s1.snapCommit y.h 0 y.cur
  let s3 := y.waiting.foldl (fun t (c : HeadChange) =>
    let t1 := match c.config with
      | some k => config t k
      | none => t
    match c.commit with
    | some z => t1.snapCommit y.h c.frame z
    | none => t1) s2
  s3.putHead { s3.head y.h with shadow := y.shadow }

/-- An encoder channel starts at its next refresh period, DIVERGED (R357). -/
def State.snapChannel (s : State) (x : EncChan) : State :=
  let n := s.encN x
  let d := s.encD x
  let hevc := decide (x.codec < 2)
  let per : Nat := if hevc then max 1 x.n else 1
  let soon := frameAt n d s.chrono + 1
  let at_ := x.pic + (soon - x.frame)
  let pic := if soon ≤ x.frame then x.pic else (at_ + per - 1) / per * per
  let f := x.frame + (pic - x.pic)
  let e : Nat := if hevc then enginesFor x.width x.height n d else 0
  let y : EncChan := { x with
    engines := s.encFree.take e, lost := [], pic := pic, frame := f, m0 := meridianAt n d f, row := 0, period := none
    books := [], rows := [], packets := [], done := 0, used := 0, msgs := [], matched := [], jump := none, start := pic, opening := false, raised := [] }
  let s1 := { s with enc := { s.enc with chans := s.enc.chans ++ [y] } }
  let s2 := s1.takePorts y.user.1 y.user.2 false (s1.encSource y) y.gen
  let s3 := if hevc then (s2.allocBuffer 4 x.handle y.set y.refBytes).2 else s2
  (s3.encRegs.wr (Reg.ENC_CH_STAT_ENGINES y.block) y.engines.length).wr (Reg.ENC_CH_STAT_DIVERGED y.block) 1

/-- A decoder, fed by its flow. -/
def State.snapDecoder (s : State) (x : XsDecoder) : State :=
  let s1 := { s with enc := { s.enc with decs := s.enc.decs ++ [{ x with next := none, lostFrame := none }] } }.encRegs
  s1.beginMeasure (match s1.flowByHandle x.flow with
    | some f => (s1.asWriter f).slotKey
    | none => 1168 + x.d)

/-- A PTP domain takes its settings for the card's own ports and side (R386). -/
def State.snapDomain (s : State) (d : Nat) (y : PtpDomain) : State :=
  let o := s.ptp d
  let z : PtpDomain := { o with
    enabled := y.enabled, number := y.number, ports := y.ports, vlan := y.vlan, addrA := y.addrA, addrB := y.addrB, ipv6 := y.ipv6, p2p := y.p2p, hybrid := y.hybrid }
  if z = o then s
  else
    let s1 := ((s.modPtp d fun _ => z.restart).wr (if d = 0 then Reg.TIM_OFS_A_NS else Reg.TIM_OFS_B_NS) 0x7FFFFFFF).endCause 0x2A05 srcTim d
    match s1.entryOf d with
    | some i => s1.entryChanged i true
    | none => s1

/-- The domains, the relay and the time pulses. -/
def State.snapTime (s : State) (x : Snapshot) : State :=
  let s1 := ((s.snapDomain 0 x.tim.domA).snapDomain 1 x.tim.domB).wr Reg.TIM_BIAS_HOLD (x.rd Reg.TIM_BIAS_HOLD)
  let s2 := s1.modTim fun t => { t with
    relayOn := x.tim.relayOn, relayDomain := x.tim.relayDomain, relayUp := x.tim.relayUp, relayDown := x.tim.relayDown, relayP2p := x.tim.relayP2p
    relayVlan := x.tim.relayVlan, relayIpv6 := x.tim.relayIpv6, relayLinks := [] }
  x.tim.pulses.zipIdx.foldl (fun t k =>
    let en := x.rd (Reg.TIM_PULSE_CTL_EN k.2) == 1
    let y := ((t.modTp k.2 fun _ => { k.1 with prog := k.1.prog.map fun g => g.resume t.chrono, endsAt := none, lastEdge := none }).wr
      (Reg.TIM_PULSE_STAT_ARMED k.2) (b01 k.1.prog.isSome)).tpLevel k.2 false k.1.low
    match ((k.1.waiting.getLast?).map fun w => w.2).orElse fun _ => k.1.prog with
    | some g => y.tpRegs k.2 en g
    | none => y.wr (Reg.TIM_PULSE_CTL_EN k.2) (b01 en)) s2

/-- The priority table as the payload of REF_TABLE_SET. -/
def Snapshot.refTable (x : Snapshot) : List Byte :=
  be8 (x.rd Reg.REF_CTL_REVERTIVE + 2 * x.rd Reg.REF_CTL_USE_OCXO + 4 * x.rd Reg.REF_CTL_OCXO_20M) ++ be8 8 ++ be16 (x.rd Reg.REF_QUAL_S) ++
    be16 (x.rd Reg.REF_CONCORD_CPPM) ++ be16 (x.rd Reg.REF_FLIMIT_CPPM) ++ zeros 8 ++ (List.range 8).flatMap fun i =>
      be8 (x.rd (Reg.REF_E_CFG_INPUT i)) ++ be8 (x.rd (Reg.REF_E_CFG_RANK i)) ++ be16 (x.rd (Reg.REF_E_BW_DHZ i)) ++ be8 (x.rd (Reg.REF_E_CFG_CLASS i)) ++
        be8 (x.rd (Reg.REF_E_CFG_ACTIVE_LOW i)) ++ be16 (x.rd (Reg.REF_E_LINES_COUNT i)) ++ be32 (x.rd (Reg.REF_E_N_N i)) ++ be32 (x.rd (Reg.REF_E_D_D i)) ++
        be32 (x.rd (Reg.REF_E_DLY_NS i))

/-- The references of the card's own inputs and pins (R414, R416). -/
def State.snapRef (s : State) (x : Snapshot) : State :=
  let s1 := s.modRef fun r => { r with staged := some (x.ref.staged.getD x.refTable) }
  let fp := fun (o : Nat) =>
    be8 o ++ be8 (x.rd (Reg.REF_FP_CTL_EN o) + 2 * x.rd (Reg.REF_FP_CTL_ACTIVE_LOW o) + 4 * x.rd (Reg.REF_FP_CTL_JUMP o)) ++ be8 (x.rd (Reg.REF_FP_CTL_SRC o)) ++ be8 0 ++
      be32 (x.rd (Reg.REF_FP_WIDTH_NS o)) ++ be32 (x.rd (Reg.REF_FP_OFS_NS o)) ++ zeros 4
  let s2 := (List.range 4).foldl (fun t o => (opRefFramepulse.run t snapCtx (fp o)).state) s1
  let vclk := fun (n : Nat) => be8 (4 + n) ++ be8 (x.rd (Reg.REF_VCLK_EN n) + 8 * x.rd (Reg.REF_VCLK_FAMILY1 n)) ++ be8 (x.rd (Reg.REF_VCLK_SEL n)) ++ zeros 13
  let s3 := (List.range 2).foldl (fun t n => (opRefFramepulse.run t snapCtx (vclk n)).state) s2
  (opRefFramepulse.run s3 snapCtx (be8 6 ++ be8 (x.rd Reg.REF_ACLK_EN) ++ be8 (x.rd Reg.REF_ACLK_SEL) ++ zeros 13)).state

/-- The whole snapshot, as a mirror without refusal (R446). -/
def State.applySnapshot (s : State) (x : Snapshot) : State :=
  let s1 := (s.snapPower x).snapMemory x
  let s2 := (x.lanes.foldl (fun t y => t.snapLane y) s1.snapClear)
  let s3 := ((List.range 66).foldl (fun t p => t.snapPort x p) s2).snapBuses x
  let s4 := (List.range 16).foldl (fun t g => t.snapGenerator x g) s3
  let s5 := { s4 with fab := { s4.fab with bonds := x.fab.bonds } }.snapLanding x
  let s6 := (s5.snapRoutes x).snapTakes x
  let s7 := (x.net.flows.foldl (fun t f => t.snapFlow f) s6).snapAudio x
  let s8 := (x.mvw.graphics.filter fun g => g.ready).foldl (fun t g => t.snapGraphic x g) s7
  let s9 := { s8 with mvw := { s8.mvw with coefs := x.mvw.coefs, lastGraphic := x.mvw.lastGraphic } }
  let s10 := x.mvw.heads.foldl (fun t y => t.snapHead x y) s9
  let s11 := x.enc.decs.foldl (fun t y => t.snapDecoder y) (x.enc.chans.foldl (fun t y => t.snapChannel y) s10)
  ((s11.snapTime x).snapRef x).noteOver

/-! ### Queued mirrors -/

/-- The opcodes that a mirror may carry. -/
def mirrorOp (code : Nat) : Option OpSpec :=
  if code = 0x0101 then some opCruCommit else if code = 0x0004 then some opSysResetUnit else if code = 0x0C01 then some opVltDerive
  else if code = 0x0C02 then some opVltInvalidate else if code = 0x0C03 then some opVltImport else listOp code

/-- A queued mirror is applied and answered. -/
def State.applyMirror (s : State) (e : Nat × Req) : State :=
  match mirrorOp e.1 with
  | none => s
  | some op =>
    let p := e.2.payload
    let t := trailerOf op.code p
    let own := p.take ((takeLength op.code p).getD p.length)
    State.conclude op e.2 own (op.perform (s.served e.2.session s.chrono) ⟨e.2.session, e.2.tag, 0, true, t.1, t.2, p.drop own.length⟩ own)

/-- The last segment has passed: the snapshot and the queued mirrors above it are applied, and the pair generation is G plus their
count (R446). -/
def State.takeSnapshot (s : State) (x : Snapshot) : State :=
  let s1 := (s.wr Reg.TWN_STAT_RESYNC 3).applySnapshot x
  let later := s.twn.mirrorQueue.filter fun e => decide (x.gen < e.2.seq)
  let s2 := later.foldl (fun t e => t.applyMirror e) { s1 with twn := { s1.twn with mirrorQueue := [] } }
  (s2.wr Reg.TWN_GEN_GEN (x.gen + later.length)).tryConverge

/-- SNAPSHOT_RECEIVE (R445, R446): a holder answers the request with the snapshot of its pair generation; a non-holder that has
asked takes the segments. -/
def execSnapshotReceive (dt : Nat) (bytes : List Byte) (seg : SnapPart) (s : State) : Host.Outcome State Fault Refusal :=
  let r := (s.elapse dt).twinTake 5 bytes
  let s1 := r.1
  .next (match r.2, seg with
    | none, _ => s1
    | some _, .request =>
      if s1.role = roleHolder then { s1 with sent := .snapshot s1.snapshot :: s1.sent, fresh := s1.fresh + 1 }.twinSend 5 (Config.snapshotBody s1.fresh) else s1
    | some _, .part => if s1.rd Reg.TWN_STAT_RESYNC = 1 then s1.wr Reg.TWN_STAT_RESYNC 2 else s1
    | some _, .last x => if s1.rd Reg.TWN_STAT_RESYNC = 1 ∨ s1.rd Reg.TWN_STAT_RESYNC = 2 then s1.takeSnapshot x else s1)

end Sys2Proof.Machine
end

