-- ==== Sys2Proof/Machine/RegBus.lean ====
section
/-!
DEFINITION. The register space (R575-R594): which window belongs to which block, what a block's registers read, and what a
write does to each field by its type (R6, R584-R589).
-/
namespace Sys2Proof.Machine

/-! ### Windows (R575-R577, Table 21.6) -/

/-- The capability whose block owns a window; none for an unassigned window. -/
def windowCap (w : Nat) : Option Nat :=
  if w < 0x10 then some (w + 1) else if w < 0x30 then some 0x11 else if w < 0x60 then some 0x12 else if w < 0xA0 then some 0x13
  else if w < 0xA2 then some 0x14 else if w = 0xB0 then some 0x15 else none

/-- The index of a window among those of its block. -/
def windowIndex (w : Nat) : Nat :=
  if w < 0x10 then 0 else if w < 0x30 then w - 0x10 else if w < 0x60 then w - 0x30 else if w < 0xA0 then w - 0x60 else if w < 0xA2 then w - 0xA0 else 0

/-- The first instance of the capability that a window serves. -/
def windowUnit (w : Nat) : Nat := if 0x10 ≤ w ∧ w < 0x30 then 4 * (w - 0x10) else windowIndex w

/-- The power domain of a window's block. -/
def windowDomain (w : Nat) : Nat := (windowCap w).elim 0 fun c => capDomain c (windowUnit w)

/-- The block that owns a window, as region * 256 + block (R609). -/
def windowBlock (w : Nat) : Option Nat := if w = 0x0E then some (6 * 256 + 13) else (windowCap w).bind fun c => unitBlock c (windowUnit w)

/-- The Source of an event raised for a window as a whole (R609). -/
def windowSource (w : Nat) : Nat :=
  if 0x30 ≤ w ∧ w < 0x60 then srcDram (w - 0x30)
  else if 0x60 ≤ w ∧ w < 0xA0 then srcPort (w - 0x60)
  else if 0xA0 ≤ w ∧ w < 0xA2 then srcPort (64 + w - 0xA0)
  else (windowBlock w).elim 0 blockSource

/-- Bytes that a block decodes (Table 21.6). -/
def windowSpan (w : Nat) : Nat :=
  if w = 0 ∨ w = 1 ∨ w = 0x0C ∨ w = 0xB0 ∨ (0x30 ≤ w ∧ w < 0x60) then 0x1000 else if w = 0x0B then 0x4000 else 0x10000

/-- Is a window's unit present on the variant (R576)? -/
def State.windowPresent (s : State) (w : Nat) : Bool := (windowCap w).elim false fun c => s.present c (windowUnit w)

/-- Is a window's block isolated behind its Firebreak (R590)? -/
def State.windowShut (s : State) (w : Nat) : Bool := (windowBlock w).elim false fun b => s.isolated.contains b

/-- Are the writes of a block posted (R13, Table 21.6)? -/
def postedWindow (w : Nat) : Bool := w == 3 || w == 6 || decide (0x10 ≤ w ∧ w < 0x60)

/-- Does a posted write to a block still travel: BLK_STAT.WPEND (R14)? -/
def State.writePending (s : State) (w : Nat) : Bool :=
  (s.pwr.posted.any fun p => p.1 == w) || s.pwr.landing.any fun p => p.1 == w && decide (s.now < p.2)

/-- The longest time that a posted write travels to a block, in ns (Table 1.5). -/
def postedTime (w : Nat) : Nat := if w = 3 then 250 else if w = 6 then 12 else if w < 0x30 then 24 else 16

/-- Is a window one of the other lanes of an Ethernet port, which hold only BLK_STAT (R211)? -/
def State.laneOfPort (s : State) (w : Nat) : Bool :=
  decide (0x60 ≤ w ∧ w < 0xA0) && (List.range 4).any fun k =>
    decide (k ≠ 0 ∧ k ≤ w - 0x60) && decide (w - 0x60 < (w - 0x60 - k) + ([0, 1, 1, 2, 4] : List Nat).getD (s.rd (Reg.NET_CTL_MODE (w - 0x60 - k))) 0)

/-- The registers of a window's block, beside BLK_ID and BLK_STAT. -/
def windowRegs (w : Nat) : List RegDef :=
  if w = 1 then regsSYS else if w = 2 then regsFLT else if w = 3 then regsPWR else if w = 4 then regsVLT else if w = 5 then regsSKW
  else if w = 6 then regsTIM else if w = 7 then regsREF else if w = 8 then regsTWN else if w = 9 then regsFAB else if w = 0x0A then regsEPH
  else if w = 0x0B then regsLDG else if w = 0x0C then regsAUD else if w = 0x0D then regsMVW else if w = 0x0E then regsENC
  else if w = 0x0F then regsMEM else if w < 0x10 then [] else if w < 0x30 then regsLNQ else if w < 0x60 then regsDMC
  else if w = 0x60 then regsNET ++ regsNETFLOW else if w < 0xA0 then regsNET else if w = 0xA0 then regsNET ++ regsMGT0
  else if w = 0xA1 then regsNET else if w = 0xB0 then regsCYX else []

/-- Which copy of a register lies at an offset. -/
def RegDef.copyAt (r : RegDef) (off : Nat) : Option Nat :=
  if r.off ≤ off ∧ (off - r.off) % r.stride = 0 ∧ (off - r.off) / r.stride < r.count then some ((off - r.off) / r.stride) else none

/-- Fields that a management port's window does not have (R245): MODE, AN, MACSEC_EN, PTP_CLEAR, FEC_LOCK, NET_FECTH and the MACsec
registers. -/
def mgtReserved (off lsb : Nat) : Bool :=
  (off == 0x10 && (lsb == 4 || lsb == 8 || lsb == 16 || lsb == 17)) || (off == 0x14 && lsb == 2) || off == 0x28 || off == 0x84 || off == 0x88 ||
    off == 0xC0 || off == 0xC4

/-- The register at an offset of a window: its fields with their names in the register file. -/
def registerAt (w off : Nat) : List (FieldDef × FieldRef) :=
  match (windowRegs w).findSome? fun r => (r.copyAt off).map fun i => (r, i) with
  | none => []
  | some (r, i) =>
    let fs := if 0xA0 ≤ w ∧ w < 0xA2 then r.fields.filter fun d => !mgtReserved off d.lsb else r.fields
    fs.map fun d => (d, ⟨32 * (0x10000000 + 0x10000 * w + off) + d.lsb, d.width, d.reset (windowIndex w) i⟩)

/-! ### Reads -/

/-- A word of the Almanac window (R591, Table 21.6a). -/
def State.almanacWord (s : State) (off : Nat) : Nat :=
  let n := almanacList.length
  if off = 8 then 0x100 + n * 2 ^ 16
  else if off < 0x100 ∨ 0x100 + 16 * n ≤ off then 0
  else
    let k := (off - 0x100) / 16
    match almanacList[k]? with
    | none => 0
    | some e =>
      let a := s.almanac e
      let ready := b01 (a.1 != 0 && a.2.1 == a.1)
      match off % 16 with
      | 0 => e.1 + 2 ^ 16 + b01 (a.1 != 0) * 2 ^ 24 + ready * 2 ^ 25
      | 4 => a.1 + a.2.1 * 2 ^ 16
      | 8 => a.2.2.1
      | 12 => a.2.2.2.1 + a.2.2.2.2 * 32 + (if k + 1 < n then (0x110 + 16 * k) * 2 ^ 16 else 0)
      | _ => 0

/-- BLK_ID and BLK_STAT (Table 21.1). -/
def State.blkWord (s : State) (w off : Nat) : Nat :=
  if off = 0 then (windowCap w).getD 0 + 2 ^ 16 + w * 2 ^ 24
  else
    b01 (s.writePending w) + 2 * s.rd (Reg.BLK_STAT_WDROP w) + 4 * s.rd (Reg.BLK_STAT_ACCERR w) + 8 * s.rd (Reg.BLK_STAT_LOCKVIOL w) +
      16 * s.rd (Reg.BLK_STAT_VOTEFIX w) + 32 * s.rd (Reg.BLK_STAT_VOTELOST w) + 64 * b01 (s.windowShut w)

/-- The delay elements of a DRAM channel, one field each, at offsets that the 4 KiB span does not decode (R512). -/
def dmcDelay (n i : Nat) : FieldRef := ⟨32 * (0x10308000 + 0x10000 * n + 4 * i), 16, 0⟩

/-- SYS_PWR_LIMIT.WATTS holds the reset value of the variant until it is written (Table 3.7). -/
def State.listLimit (s : State) : State := s.wr Reg.SYS_PWR_LIMIT_WATTS s.powerLimit

/-- Registers whose value is worked out when they are read: they are brought up to date first. -/
def State.freshen (s : State) (w off : Nat) : State :=
  let i := windowIndex w
  if w = 0x01 then
    if off = 0x08 then s.wr Reg.SYS_PART_NUMBER (partNumber s.variant)
    else if off = 0x40 then s.listLimit
    else if off = 0x18 ∨ off = 0x1C then s.wr64 Reg.SYS_SERIAL_LO_SN Reg.SYS_SERIAL_HI_SN Config.otpSerial.toNat
    else if off = 0x90 ∨ off = 0x94 then
      let lo := if off = 0x90 then 0 else 32
      let float := s.freeWord
      let level := ((List.range 32).map fun k => match s.gpioDrive (lo + k) with
        | some v => v * 2 ^ k
        | none => float.1 / 2 ^ k % 2 * 2 ^ k).sum
      float.2.wr (if off = 0x90 then Reg.SYS_GPIO_IN_LO_LEVEL else Reg.SYS_GPIO_IN_HI_LEVEL) level
    else s
  else if w = 0x02 then
    if off = 0x34 then
      let x := s.rd Reg.FLT_HIST_IDX_IDX
      match s.flt.history[x / 8]? with
      | some e => s.wr Reg.FLT_HIST_DATA_DATA (beNat (bytesAt (e.record 0) (4 * (x % 8)) 4))
      | none => s.wr Reg.FLT_HIST_DATA_DATA 0
    else s
  else if w = 0x06 then (if off = 0x20 ∨ off = 0x24 then s.wr64 Reg.TIM_NS_LO_NS Reg.TIM_NS_HI_NS s.tim.count else s)
  else if w = 0x07 then s.entryStats
  else if w = 0x08 then (if off = 0x28 then s.wr Reg.TWN_LEASE_LEFT_US s.leaseLeft else s)
  else if w = 0x09 then
    if 0xD000 ≤ off ∧ off < 0xD000 + 4 * 1536 then
      let n := (off - 0xD000) / 4
      let k := if s.srcSplit n then 0x10000 + 4 * n + s.rd Reg.FAB_OFS_GEN_QSEL else n
      s.wrInt (Reg.FAB_SRC_OFS_NS n) ((s.offset k (s.rd Reg.FAB_OFS_GEN_GEN)).getD offsetLost)
    else s
  else if w = 0x0A then
    if 0x100 ≤ off ∧ off < 0x100 + 16 * 0x40 then
      let g := (off - 0x100) / 0x40
      ((s.wr (Reg.EPH_GEN_NEXT_NS g) (s.nextMeridian g - s.chrono)).wr (Reg.EPH_GEN_STAT_FREERUN g) (b01 s.freeRun)).wr (Reg.EPH_GEN_STAT_BOUND g)
        (b01 (s.genBound g))
    else s
  else if w = 0x0E then
    (s.enc.chans.map (fun (x : EncChan) => x.block) ++ s.enc.decs.map fun (x : XsDecoder) => 112 + x.d).foldl
      (fun t b => t.wr (Reg.ENC_CH_STAT_AUTHORITY b) (s.rd Reg.TWN_STAT_AUTHORITY)) s
  else if w = 0x03 then (if off = 0x48 then s.wr Reg.PWR_TIMER_MS s.timerLeft else s)
  else if 0x10 ≤ w ∧ w < 0x30 then
    if 0x100 ≤ off ∧ off < 0x500 ∧ off % 0x100 = 0x34 then
      let l := 4 * i + (off / 0x100 - 1)
      s.wrInt (Reg.LNQ_FFE_DATA_C l) ((s.lane l).ffe.getD (min 23 (s.rd (Reg.LNQ_FFE_IDX_IDX l))) 0)
    else s
  else if 0x30 ≤ w ∧ w < 0x60 then
    if off = 0xD4 then
      let k := s.rd (Reg.DMC_DLY_IDX_IDX i)
      let v : Nat := match s.regs.find (dmcDelay i k).key with
        | some v => v
        | none => if s.flag (Reg.DMC_STAT_TRAINED i) then (Config.indirectWord (i * 256 + k) (s.rd (Reg.DMC_RETRAIN_COUNT i))).toNat else 0
      s.wr (Reg.DMC_DLY_DATA_VAL i) v
    else s
  else if w = 0x60 ∧ off = 0x804 then
    let v := s.flowStat
    (((((s.wr Reg.NET_FLOW_STAT_VALID v).wr Reg.NET_FLOW_STAT_LEG_B (v / 2)).wr Reg.NET_FLOW_STAT_LOSS (v / 4)).wr Reg.NET_FLOW_STAT_LEG_LOSS (v / 8)).wr
      Reg.NET_FLOW_STAT_ENGINE (v / 256)).wr Reg.NET_FLOW_STAT_KIND (v / 65536)
  else s

/-- Registers that only ranger cores may access: the indirect pairs, and the lease arm registers (R143, R274, R330, R361, R452, R483,
Tables 8.11 and 10.8). -/
def rangerOnly (w : Nat) : List Nat :=
  if w = 4 then [0x80, 0x84] else if w = 8 then [0x30, 0x34, 0x38] else if w = 0x0A then [0x30, 0x34] else if w = 0x0C then [0x80, 0x84]
  else if w = 0x0D then [0x20, 0x24] else if w = 0x0E then [0x40, 0x44] else if w = 0x60 then [0xC0, 0xC4, 0x880, 0x884]
  else if 0x60 ≤ w ∧ w < 0xA0 then [0xC0, 0xC4] else []

/-- The data registers of the indirect pairs: the spec gives the tables behind them no layout. -/
def indirectData (w off : Nat) : Bool := w != 8 && (rangerOnly w).contains off && (off % 8 == 4)

/-- The index that the index register of an indirect pair holds. -/
def State.indirectIndex (s : State) (w off : Nat) : Nat := ((registerAt w (off - 4)).map fun x => s.rd x.2 * 2 ^ x.1.lsb).sum % 2 ^ 32

/-- The index register of an indirect pair names this word behind it: a place of its own beside the register addresses, by block, register and
index. -/
def State.indirectPlace (s : State) (w off : Nat) : FieldRef :=
  ⟨32 * (2 ^ 40 + (w * 65536 + off) * 2 ^ 32 + s.indirectIndex w off), 32, 0⟩

/-- A coefficient that a table word gives a set of a head (sets 1-3; set 0 is fixed), beside those it has (R310, R330). -/
def State.putCoef (s : State) (c : Nat × Bool × Nat × Nat × Int) : State :=
  if c.2.2.1 < 1 ∨ 3 < c.2.2.1 then s
  else
    let key := (c.1, c.2.1, c.2.2.1)
    { s with mvw := { s.mvw with coefs := (key, (s.coefs c.1 c.2.1 c.2.2.1).set c.2.2.2.1 c.2.2.2.2) :: s.mvw.coefs.filter fun x => x.1 != key } }

/-- A word written behind the MVW pair reaches the shadows, graphic layers, meter bars, declared formats and coefficient sets, by a layout that
the spec does not give (R330, log entry 58). -/
def State.mvwIndirect (s : State) (index v : Nat) : State :=
  let s1 := (List.range 16).foldl (fun t h =>
    let x := t.head h
    match Config.mvwHeadWord index v h x.shadow x.cur with
    | some y => t.putHead { x with shadow := y.1, cur := y.2 }
    | none => t) s
  match Config.mvwCoefWord index v with
  | some c => s1.putCoef c
  | none => s1

/-- Is the table behind an indirect pair as at reset: no slot record, take, sink, layer, channel, MACsec association or flow? -/
def State.tableEmpty (s : State) (w off : Nat) : Bool :=
  if w = 4 then s.vlt.slots.isEmpty else if w = 0x0A then s.eph.takes.isEmpty else if w = 0x0C then s.aud.sinks.isEmpty
  else if w = 0x0D then s.mvw.heads.isEmpty && s.mvw.graphics.isEmpty else if w = 0x0E then s.enc.chans.isEmpty
  else if off = 0x884 then s.net.flows.isEmpty else s.net.ports.all fun x => x.assocs.isEmpty

/-- A word behind an indirect pair (Table 0.3): what a ranger core wrote there; else 0 while the table is as at reset, and a free value once it
holds records, whose layout the spec does not give (log entry 58). -/
def State.indirectWord (s : State) (w off : Nat) : Nat × State :=
  match s.regs.find (s.indirectPlace w off).key with
  | some v => (v, s)
  | none => if s.tableEmpty w off then (0, s) else s.freeWord

/-- What a register reads, brought up to date; WO fields read 0, and so do reserved bits and offsets (R577). -/
def State.registerWord (s : State) (w off : Nat) : Nat × State :=
  if s.laneOfPort w && off != 4 then (0, s)
  else if off < 8 then (s.blkWord w off, s)
  else if w = 0 then (s.almanacWord off, s)
  else if indirectData w off then s.indirectWord w off
  else
    let s1 := s.freshen w off
    let held := fun (x : FieldDef × FieldRef) => if x.1.type = .wo then 0 else s1.rd x.2 * 2 ^ x.1.lsb
    let word := ((registerAt w off).map held).sum
    if w = 3 ∧ off = 0x20 then (s1.pwr.lowEn.getD word, s1) else if w = 3 ∧ off = 0x50 then (s1.pwr.lowSet.getD word, s1)
    else if w = 5 ∧ off = 0x24 then (word, { s1 with mem := { s1.mem with captureArmed := true } })
    else (word, s1)

/-! ### Writes to fields (R584-R588) -/

/-- Does a write of `v` meet a field that may not change, with another value: a W1 field after its first write, a WL field while its
lock bit is set? The lock is seen as it was before the access. -/
def State.fieldBlocked (s : State) (x : FieldDef × FieldRef) (v : Nat) : Bool :=
  match x.1.type with
  | .w1 => s.rd x.2 != x.2.reset && v != s.rd x.2
  | .wl lock => s.regs.find lock == some 1 && v != s.rd x.2
  | _ => false

/-- Does a PWR_IDLE field of a domain without a timer stand at an offset: RO 0 (Table 19.9)? -/
def noIdleField (w off : Nat) : Bool :=
  w == 3 && decide (0x100 ≤ off ∧ off < 0x100 + 4 * 58) &&
    !(decide (4 ≤ (off - 0x100) / 4 ∧ (off - 0x100) / 4 ≤ 35) || decide (37 ≤ (off - 0x100) / 4 ∧ (off - 0x100) / 4 ≤ 56))

/-- Fields of LNQ_LCFG that are RO in Ethernet mode: both precoders (Table 6.8). -/
def State.fixedField (s : State) (w off lsb : Nat) : Bool :=
  noIdleField w off ||
    (decide (0x10 ≤ w ∧ w < 0x30) && decide (0x100 ≤ off ∧ off < 0x500) && off % 0x100 == 0 && (lsb == 8 || lsb == 9) &&
      s.laneMode (4 * (w - 0x10) + (off / 0x100 - 1)) == 2)

/-- A written field of type -T has its three copies alike again, and the cause of VOTE_LOST ends (R585). -/
def State.voteWritten (s : State) (w off : Nat) (x : FieldDef × FieldRef) : State :=
  if x.1.triple && s.flt.voteLost.any fun p => p.1 == x.2.key then
    { s with flt := { s.flt with voteLost := s.flt.voteLost.filter fun p => p.1 != x.2.key } }.endCause 0x2F03 (windowSource w) (w * 65536 + off)
  else s

/-- What a write does to one field, by its type; `old` is the state before the access. -/
def State.writeField (old : State) (w off v : Nat) (s : State) (x : FieldDef × FieldRef) : State :=
  let u := v / 2 ^ x.1.lsb % 2 ^ x.1.width
  if old.fixedField w off x.1.lsb then s
  else match x.1.type with
    | .ro | .wo => s
    | .w1c => s.wr x.2 (s.rd x.2 &&& (2 ^ x.1.width - 1 - u))
    | .rw | .w1 | .wl _ =>
      if old.fieldBlocked x u then s else (s.wr x.2 (x.1.stored.apply (old.rd x.2) u)).voteWritten w off x

/-- LOCKVIOL (R588, R589, Table 21.5). -/
def State.lockViolation (s : State) (m w off v : Nat) : State :=
  let s1 := (s.wr (Reg.BLK_STAT_LOCKVIOL w) 1).bumpSat Reg.SYS_LOCKVIOL_COUNT 1
  let s2 := if s.flag Reg.SYS_LOCKVIOL_LV then s1
    else (((s1.wr Reg.SYS_LOCKVIOL_LV 1).wr Reg.SYS_LOCKVIOL_ADDR_ADDR (0x10000000 + 0x10000 * w + off)).wr Reg.SYS_LOCKVIOL_INFO_MASTER m).wr
      Reg.SYS_LOCKVIOL_DATA_DATA v
  s2.raise 0x2F04 (windowSource w) (w * 65536 + off)

/-- The fields of a register take a written word. -/
def State.writeFields (s : State) (m w off v : Nat) : State :=
  let fs := registerAt w off
  let s1 := fs.foldl (fun t x => State.writeField s w off v t x) s
  if fs.any fun x => s.fieldBlocked x (v / 2 ^ x.1.lsb % 2 ^ x.1.width) then s1.lockViolation m w off v else s1

end Sys2Proof.Machine
end

