-- ==== Sys2Proof/Machine/RegFx.lean ====
section
/-!
DEFINITION. What register writes do beside storing their fields (R87, R107, R153, R181, R210, R246, R301, R330, R361, R390, R391, R418,
R453, R514, R557, R558): one definition per block, `old` being the state before the access.
-/
namespace Sys2Proof.Machine

/-! ### Power (R557, R558) -/

/-- The domains of a mask, as a number. -/
def maskOf (ds : List Nat) : Nat := ds.eraseDups.foldl (fun m d => m + 2 ^ d) 0

/-- PWR_DOM_EN takes a mask: what newly enabled domains require is turned on, and then what requires a cleared domain goes off; each
domain changed so is a PWR_CASCADE (R558). -/
def State.enableMask (s : State) (m : Nat) : State :=
  let all := List.range 58
  let asked := all.filter fun d => bit m d
  let news := asked.filter fun d => !bit s.enMask d
  let up := (news.flatMap domNeeds).eraseDups.filter fun d => !bit m d
  let want := asked ++ up
  let cleared := all.filter fun d => bit s.enMask d && !want.contains d
  let down := (cleared.flatMap domUsers).eraseDups.filter fun d => want.contains d
  (s.setEnables (maskOf (want.filter fun d => !down.contains d))).raiseAll 0x3004 srcPower
    (up.filter (fun d => !bit s.enMask d) ++ down.filter fun d => bit s.enMask d)

/-- The enables were written: their copies agree again (R585). -/
def State.enablesWritten (s : State) : State :=
  ([0x20, 0x24] : List Nat).foldl (fun t off => (registerAt 3 off).foldl (fun u x => u.voteWritten 3 off x) t) s

/-- A word written to PWR_DOM_EN or PWR_WAKE_SET: the low word acts only when the high word lands. -/
def State.powerMask (s : State) (off v : Nat) : State :=
  if off = 0x20 then { s with pwr := { s.pwr with lowEn := some v } }
  else if off = 0x50 then { s with pwr := { s.pwr with lowSet := some v } }
  else if off = 0x24 then
    let lo := s.pwr.lowEn.getD (s.rd Reg.PWR_DOM_EN_LO_EN)
    ({ s with pwr := { s.pwr with lowEn := none } }.enablesWritten).enableMask (lo + v % 2 ^ 26 * 2 ^ 32)
  else
    let lo := s.pwr.lowSet.getD (s.rd Reg.PWR_WAKE_SET_LO_SET)
    { s with pwr := { s.pwr with lowSet := none } }.wr64 Reg.PWR_WAKE_SET_LO_SET Reg.PWR_WAKE_SET_HI_SET (lo + v % 2 ^ 26 * 2 ^ 32)

/-- Other PWR registers. -/
def State.pwrWritten (s : State) (off v : Nat) : State := if off = 0x48 then s.timerLoad v else s

/-! ### Control region -/

/-- SYS registers: SYS_PWR_LIMIT.WATTS above the variant's maximum is stored as that maximum, and a limit that Cruise counts more than
shows in SYS_CRU_STAT.OVER (R86). -/
def State.sysWritten (s : State) (off : Nat) : State :=
  if off = 0x40 then (s.wr Reg.SYS_PWR_LIMIT_WATTS (min (s.rd Reg.SYS_PWR_LIMIT_WATTS) (powerLimitMax s.variant))).noteOver else s

/-- FLT registers: ERR_N follows THRESH, WARN_C is at most SHED_C, and FLT_INJECT raises FLT_TEST (R528, R532, R536). -/
def State.fltWritten (s : State) (off v : Nat) : State :=
  if off = 0x14 then s.errPin
  else if off = 0x74 then s.wr Reg.FLT_THERM_WARN_C (min (s.rd Reg.FLT_THERM_WARN_C) (s.rd Reg.FLT_THERM_SHED_C))
  else if off = 0x80 then s.injectFault (v % 8)
  else s

/-- TWN registers: LEASE_ARM.GO, LEASE_DROP, the gates and the stored settings (R429, R432, R453, R565). -/
def State.twnWritten (s : State) (off v : Nat) : State :=
  if off = 0x10 then s.leaseGates
  else if off = 0x30 then (if bit v 31 then s.leaseArmGo (v % 1024) else s)
  else if off = 0x3C then (if bit v 0 then s.loseLease else s)
  else if off = 0x40 ∨ off = 0x44 then s.storeChanged
  else s

/-- MEM registers: the decoding changes for the next transaction; contents under other keys are lost, and the change is stored (R475,
R493, R514, R565). -/
def State.memWritten (old s : State) (off : Nat) : State :=
  if off < 0x100 then s else ((regionChanges old s).refreshSets).storeChanged

/-- One mailbox ring pair (R37, R38). An index that sets RINGERR is not taken: CYX_RQ_PI keeps the one it had (DESIGN CHOICE, log entry
82). -/
def State.cyxWritten (old s : State) (off v : Nat) : State :=
  if off < 0x100 ∨ 0x300 ≤ off then s
  else
    let n := (off - 0x100) / 0x40
    let r := off % 0x40
    if r = 0x08 then
      let s1 := ((s.wr (Reg.CYX_RQ_PI_IDX n) 0).wr (Reg.CYX_RQ_CI_IDX n) 0).wr (Reg.CYX_RP_PI_IDX n) 0
      let s2 := s1.wr (Reg.CYX_RP_CI_IDX n) 0
      { s2 with cyx := { s2.cyx with halted := s2.cyx.halted.filter (· != n) } }.pushHeld n
    else if r = 0x14 then
      let size := old.ringSize n
      let pi := old.rd (Reg.CYX_RQ_PI_IDX n)
      let ci := old.rd (Reg.CYX_RQ_CI_IDX n)
      let u := v % 64
      let room := size - 1 - (pi + size - ci) % size
      if old.cyx.halted.contains n ∨ size = 0 then s
      else if size ≤ u ∨ room < (u + size - pi) % size then
        { (s.wr (Reg.CYX_RQ_PI_IDX n) pi).wr (Reg.CYX_IRQ_RINGERR n) 1 with cyx := { s.cyx with halted := n :: s.cyx.halted } }
      else s
    else if r = 0x20 then s.pushHeld n
    else s

/-! ### Fabric region -/

/-- The LDG registers of a channel: its record follows them; a channel that is off neither writes nor reads (log entries 25 and 103). -/
def State.ldgWritten (s : State) (off : Nat) : State :=
  let chan := if off < 0x1000 then (off - 0x100) / 0x20 else 0x100 + (off - 0x1000) / 0x20
  let r := fun (a b : Nat → FieldRef) => ldgReg a b chan
  let on := s.flag (r Reg.LDG_CTL_EN Reg.LDQ_CTL_EN)
  if off < 0x100 ∨ 0x3000 ≤ off then s
  else
    { s with fab := { s.fab with landing := s.fab.landing.map fun (c : Landing) =>
      if c.chan == chan then
        { c with gen := s.rd (r Reg.LDG_CTL_GEN Reg.LDQ_CTL_GEN), lossBlack := s.flag (r Reg.LDG_CTL_LOSS_BLACK Reg.LDQ_CTL_LOSS_BLACK),
                 source := slotKey (s.rd (r Reg.LDG_SRC_SLOT Reg.LDQ_SRC_SLOT)) (decide (0x100 ≤ chan)),
                 writing := if on then c.writing else none, reading := if on then c.reading else none, done := if on then c.done else [],
                 ahead := if on then c.ahead else [] }
      else c } }

/-- FAB_LD_SNAP.GO (R98). -/
def State.deckSnap (s : State) : State :=
  let s1 := s.deckSweep
  ((s1.wr Reg.FAB_LD_ALLOC_CELLS (262144 - s1.deckFree)).wr Reg.FAB_LD_FREE_CELLS s1.deckFree).wr Reg.FAB_LD_MINFREE_CELLS s1.deckFree

/-- FAB registers: a snapshot, a current selection that changes in mid-frame, and a shadow (R98, R106, R107). -/
def State.fabWritten (old s : State) (off v : Nat) : State :=
  if off = 0x20 then (if bit v 0 then s.deckSnap else s)
  else if 0x1000 ≤ off ∧ off < 0x7000 then
    let q := (off - 0x1000) / 4
    let a := old.selCur q
    let b := s.selCur q
    if a == b then s
    else
      let s1 := if a.valid == b.valid then s else s.putPort { s.port q with raster := none, whole := !s.outSplit (q / 4) }
      (s1.bump Reg.FAB_DIRTY_COUNT 1).raiseWithin (s.frameGap b.gen) 0x200D srcFabric (slotObject (s.outKey q))
  else if 0x7000 ≤ off ∧ off < 0xD000 then State.shadowWritten old s ((off - 0x7000) / 4)
  else s

/-- EPH registers: the enable, then LOAD, of a generator (R153). -/
def State.ephWritten (old s : State) (off v : Nat) : State :=
  if 0x100 ≤ off ∧ off < 0x500 ∧ off % 0x40 = 0 then
    let g := (off - 0x100) / 0x40
    let s1 := s.genEnabled g (old.rd (Reg.EPH_GEN_CTL_EN g))
    if bit v 1 then s1.genLoad g else s1
  else s

/-! ### Lanes and ports -/

/-- LNQ registers of lane `l` at offset `r` of its block; `stave` tells the blocks of the Stave link layer (R161, R162, R180, R181, R192).
A side tap outside Table 6.3's range is stored as it is written while c0 comes out at 32 or more (DESIGN CHOICE, log entry 116). -/
def State.lnqWritten (old s : State) (l r v : Nat) (stave : Bool) : State :=
  if stave then (if r = 0 ∧ bit v 2 then s.onMaskGo l else s)
  else if r = 0x00 then s.onLcfgWrite l (old.laneMode l) (old.rd (Reg.LNQ_LCFG_TX_EN l)) (old.rd (Reg.LNQ_LCFG_RX_EN l))
  else if r = 0x04 then s.deriveC0 l
  else if r = 0x08 then s.wr (Reg.LNQ_TXAMP_CODE l) (min 24 (s.rd (Reg.LNQ_TXAMP_CODE l)))
  else if r = 0x0C then s.wr (Reg.LNQ_RXCTLE_PEAK l) (min 48 (s.rd (Reg.LNQ_RXCTLE_PEAK l)))
  else if r = 0x10 then s.onAdaptWrite l (bit v 4) (old.rd (Reg.LNQ_ADAPT_FREEZE l))
  else if r = 0x14 then (if bit v 31 then s.wr (Reg.LNQ_FOM_MIN l) 255 else s)
  else if r = 0x1C then s.onSleepWrite l
  else if r = 0x40 then (s.wr (Reg.LNQ_PRBS_ERR_COUNT l) 0).sendPattern l
  else s

/-- NET and MGT registers of port `p` (R224, R235, R242, R246, R261). -/
def State.netWritten (old s : State) (p off v : Nat) : State :=
  if off = 0x10 then s.onNetCtl p (old.rd (Reg.NET_CTL_EN p)) (old.rd (Reg.NET_CTL_MODE p))
  else if 0x100 ≤ off ∧ off < 0x100 + 9 * 0x20 ∧ off % 0x20 = 0x08 then s.ringResize p ((off - 0x100) / 0x20) (v % 16)
  else if 0x100 ≤ off ∧ off < 0x100 + 9 * 0x20 ∧ off % 0x20 = 0x0C then s.ringPi p ((off - 0x100) / 0x20) (v % 4096)
  else if p = 0 ∧ off = 0x800 ∧ bit v 31 then s.flowSnap
  else if p = 64 ∧ off = 0x604 ∧ bit v 5 then s.onModXfer
  else s

/-! ### Media and compute regions -/

/-- AUD registers: the clocks, and the snapshot (R292, R294, R301). -/
def State.audWritten (old s : State) (off v : Nat) : State :=
  if off = 0x14 then s.audClkChanged (old.rd Reg.AUD_CLK_EN) (old.rd Reg.AUD_CLK_RATE96)
  else if off = 0x24 then (if bit v 0 then s.audSnap else s)
  else s

/-- MVW registers: a write to a current register of a head or layer acts from the next band, and is counted (R321). -/
def State.mvwWritten (old s : State) (off : Nat) : State :=
  let head := decide (0x100 ≤ off ∧ off < 0x500) && decide (off % 0x40 < 8)
  let layer := decide (0x1000 ≤ off ∧ off < 0x1000 + 0x30 * 1024) && decide ((off - 0x1000) % 0x30 < 0x28)
  let h := (off - 0x100) / 0x40
  let s1 := if head then State.headTurns old (s.putHead (s.head h)) h else s
  if head ∨ layer then s1.bump Reg.MVW_DIRTY_COUNT 1 else s1

/-- ENC_ENG_EN: a held engine whose bit is cleared is lost (R360, R361). -/
def State.encWritten (old s : State) (off : Nat) : State :=
  if off = 0x20 ∨ off = 0x24 then
    let on := fun (t : State) (e : Nat) => if e < 32 then bit (t.rd Reg.ENC_ENG_EN_LO_EN) e else bit (t.rd Reg.ENC_ENG_EN_HI_EN) (e - 32)
    ((List.range 48).filter fun e => on old e && !on s e && s.encHeld.contains e).foldl (fun t e => t.encEngineLost e) s
  else s

/-- TIM registers: snapshot, count load and pulse load (R390, R391). -/
def State.timWritten (s : State) (off v : Nat) : State :=
  if off = 0x28 then (if bit v 0 then s.timSnap else s)
  else if off = 0x68 then (if bit v 0 then s.timSetGo else s)
  else if 0x100 ≤ off ∧ off < 0x200 ∧ off % 0x20 = 0 then (if bit v 3 then s.timPulseLoad ((off - 0x100) / 0x20) else s)
  else s

/-- REF registers: a forced entry is selected at once; a changed entry restarts; outputs follow their new settings (R397, R400, R409-R413,
R418). -/
def State.refWritten (old s : State) (off : Nat) : State :=
  if off = 0x10 then
    let e := s.rd Reg.REF_CTL_FORCE_ENTRY
    if s.flag Reg.REF_CTL_FORCE ∧ s.activeEntry ≠ some e ∧ s.entryInput e ≠ 15 then s.selectEntry e else s
  else if off = 0x28 then s.refCheckAll
  else if 0x100 ≤ off ∧ off < 0x300 then (if off % 0x40 < 0x18 then State.entriesChanged old s else s)
  else if 0x400 ≤ off ∧ off < 0x480 then State.fpChanged old s ((off - 0x400) / 0x20)
  else if off = 0x500 then State.clockChanged old s 0
  else if off = 0x504 then State.clockChanged old s 1
  else if off = 0x508 then State.clockChanged old s 2
  else s

/-- DMC registers: the pattern engine, and the delay element that DMC_DLY_IDX names (R512, R514). -/
def State.dmcWritten (s : State) (n off v : Nat) : State :=
  if off = 0x40 then (if bit v 8 then s.patGo n else s)
  else if off = 0xD4 then s.wr (dmcDelay n (s.rd (Reg.DMC_DLY_IDX_IDX n))) v
  else s

/-- What a written register does beside storing its fields. -/
def State.written (old s : State) (w off v : Nat) : State :=
  let i := windowIndex w
  if w = 1 then s.sysWritten off else if w = 2 then s.fltWritten off v else if w = 3 then s.pwrWritten off v
  else if w = 6 then s.timWritten off v else if w = 7 then State.refWritten old s off else if w = 8 then s.twnWritten off v
  else if w = 9 then State.fabWritten old s off v else if w = 0x0A then State.ephWritten old s off v else if w = 0x0B then s.ldgWritten off
  else if w = 0x0C then State.audWritten old s off v else if w = 0x0D then State.mvwWritten old s off else if w = 0x0E then State.encWritten old s off
  else if w = 0x0F then State.memWritten old s off
  else if 0x10 ≤ w ∧ w < 0x30 then
    if 0x100 ≤ off ∧ off < 0x500 then State.lnqWritten old s (4 * i + (off / 0x100 - 1)) (off % 0x100) v false
    else if 0x1000 ≤ off ∧ off < 0x1400 then State.lnqWritten old s (4 * i + (off / 0x100 - 0x10)) (off % 0x100) v true
    else s
  else if 0x30 ≤ w ∧ w < 0x60 then s.dmcWritten i off v
  else if 0x60 ≤ w ∧ w < 0xA0 then State.netWritten old s i off v
  else if 0xA0 ≤ w ∧ w < 0xA2 then State.netWritten old s (64 + i) off v
  else if w = 0xB0 then State.cyxWritten old s off v
  else s

end Sys2Proof.Machine
end

