-- ==== Sys2Proof/Machine/RegCmds.lean ====
section
/-!
DEFINITION. Accesses to the register space (R499, R504, R575-R590) and every register row of the command table; the vote of
triplicated fields (R585).
-/
namespace Sys2Proof.Machine

/-! ### Masters (Table 17.3) -/

/-- The domain that a Skidway master lies in. -/
def masterDomain (m : Nat) : Nat :=
  if m < 8 then 2 else if m < 12 then 1 else if m < 28 then 3 else if m < 31 then 36 else if m < 33 then 1 else if m = 33 then 57 else 36

/-- The blocks whose Firebreaks a master's traffic leaves by (Tables 17.3, 18.3): host and ranger cores, the control masters of the pixel, encoder
and packet engines, management MACs, the Vault, and of the region ports those that carry Landing, packet-engine, pixel and encoder traffic. The
Yarders and the other region ports lie behind none. -/
def masterBlocks (m : Nat) : List Nat :=
  let pixel := (List.range 6).map fun k => 6 * 256 + k
  let encoder := (List.range 6).map fun k => 6 * 256 + 6 + k
  let packet := [5 * 256, 5 * 256 + 1]
  if m < 8 then (unitBlock 0x1B m).toList else if m < 12 then (unitBlock 0x1A (m - 8)).toList else if m = 28 then pixel
  else if m = 29 then encoder else if m = 30 then packet else if m = 31 ∨ m = 32 then (unitBlock 0x14 (m - 31)).toList
  else if m = 33 then (unitBlock 0x05 0).toList else if m = 38 then [4 * 256 + 2] else if m = 39 then packet
  else if m = 40 then pixel ++ encoder else []

/-- Has every block that a master's traffic leaves by closed its Firebreak (R11)? -/
def State.masterShut (s : State) (m : Nat) : Bool := !(masterBlocks m).isEmpty && (masterBlocks m).all fun b => s.isolated.contains b

/-- Does a master exist, run, hold no drain (R505), and lie behind no closed Firebreak (R11)? -/
def State.masterRuns (s : State) (m : Nat) : Bool :=
  decide (m < 42) && s.domOn (masterDomain m) && !s.mem.draining.contains m && !s.masterShut m

/-- Can master `m` reach target `t` (R499)? -/
def reachesTarget (m t : Nat) : Bool :=
  if m < 12 then true else if m < 31 then decide (1 ≤ t) else if m < 34 then t == 1 || decide (3 ≤ t) else decide (3 ≤ t)

/-- Is a master a ranger core? -/
def isRanger (m : Nat) : Bool := decide (8 ≤ m ∧ m < 12)

/-- SKW_ACCESS_ERR: the first error since SKW_ERR_ADDR was last read is captured (R504, Table 17.9). -/
def State.accessError (s : State) (m addr target kind : Nat) : State :=
  if !s.domOn 3 then s
  else
    let s1 := if s.mem.captureArmed then
        { (((s.wr64 Reg.SKW_ERR_ADDR_LO_ADDR Reg.SKW_ERR_ADDR_HI_ADDR addr).wr Reg.SKW_ERR_INFO_MASTER m).wr Reg.SKW_ERR_INFO_TARGET target).wr
            Reg.SKW_ERR_INFO_KIND kind with mem := { s.mem with captureArmed := false } }
      else s
    s1.raise 0x2E07 (srcSkw m) m

/-! ### What refuses a register access (R575, R581, R590) -/

/-- The registers that take single bytes (R581). -/
def byteWritable (w off : Nat) : Bool :=
  (w == 1 && (off == 0x80 || off == 0x84)) || (w == 0xA0 && decide (0x500 ≤ off ∧ off < 0x580)) || (decide (0x30 ≤ w ∧ w < 0x60) && decide (0x80 ≤ off ∧ off < 0xC0))

/-- Does an access get an error response: with SKW_ACCESS_ERR of a KIND (`some k`), or with ACCERR only (`none`)? `off` lies inside the
span. -/
def State.registerRefusal (s : State) (m addr off bits : Nat) (write : Bool) : Option (Option Nat) :=
  let w := addr / 65536 % 256
  if (windowCap w).isNone then some (some 0)
  else if !reachesTarget m 2 then some (some 1)
  else if !s.windowPresent w then none
  else if !s.domOn (windowDomain w) then some (some 1)
  else if !([8, 16, 32, 64] : List Nat).contains bits then some (some 2)
  else if addr % (bits / 8) ≠ 0 then some none
  else if write && s.windowShut w && off / 4 != 1 then some none
  else if write && decide (bits < 32) && !byteWritable w (off / 4 * 4) then some none
  else if !isRanger m && !s.laneOfPort w && ((rangerOnly w).contains (off / 4 * 4) || (bits == 64 && (rangerOnly w).contains (off + 4))) then some none
  else none

/-- An access is refused: it changes nothing. -/
def State.refuseAccess (s : State) (m addr : Nat) (kind : Option Nat) : State :=
  match kind with
  | some k => s.accessError m addr 2 k
  | none => s.wr (Reg.BLK_STAT_ACCERR (addr / 65536 % 256)) 1

/-! ### Writes -/

/-- Windows whose configuration registers Cruise accounts for (R87): FAB, EPH, LDG, MVW, ENC, AUD, NET, LNQ, MEM, DMC and PWR. -/
def cruiseWindow (w : Nat) : Bool := w == 3 || decide (9 ≤ w ∧ w ≤ 0x0F) || decide (0x10 ≤ w ∧ w < 0xA0)

/-- Does a register carry configuration: has it a field that software sets and that stays? -/
def configRegister (w off : Nat) : Bool := (registerAt w off).any fun x => match x.1.type with
  | .rw | .w1 | .wl _ => true
  | _ => false

/-- A write past Cruise: BYPASS is set, and Cruise rebuilds its accounts from the registers (R87). -/
def State.noteBypass (s : State) (m w off : Nat) : State :=
  if !isRanger m && cruiseWindow w && configRegister w off then (s.wr Reg.SYS_CRU_STAT_BYPASS 1).noteOver else s

/-- A write to BLK_STAT clears the written W1C bits (R579). -/
def State.blkStatWrite (s : State) (w v : Nat) : State :=
  [(1, Reg.BLK_STAT_WDROP w), (2, Reg.BLK_STAT_ACCERR w), (3, Reg.BLK_STAT_LOCKVIOL w), (4, Reg.BLK_STAT_VOTEFIX w), (5, Reg.BLK_STAT_VOTELOST w)].foldl
    (fun t b => if bit v b.1 then t.wr b.2 0 else t) s

/-- A written word reaches its register. -/
def State.putWord (s : State) (m w off v : Nat) : State :=
  if off = 4 then s.blkStatWrite w v
  else if off = 0 ∨ w = 0 ∨ s.laneOfPort w then s
  else if indirectData w off then
    (if w = 0x0D then (s.wr (s.indirectPlace w off) v).mvwIndirect (s.indirectIndex w off) v else s.wr (s.indirectPlace w off) v).noteBypass m w off
  else if w = 1 ∧ off = 0x40 then
    (State.written s.listLimit (s.listLimit.writeFields m w off v) w off v).noteBypass m w off
  else if w = 3 ∧ ([0x20, 0x24, 0x50, 0x54] : List Nat).contains off then (s.powerMask off v).noteBypass m w off
  else (State.written s (s.writeFields m w off v) w off v).noteBypass m w off

/-- A write of 8 to 64 bits reaches its registers: a narrow one keeps the other bytes, a wide one writes low word, then high (R581). -/
def State.putBits (s : State) (m w off bits v : Nat) : State :=
  if bits = 64 then (s.putWord m w off (v % 2 ^ 32)).putWord m w (off + 4) (v / 2 ^ 32 % 2 ^ 32)
  else if bits = 32 then s.putWord m w off (v % 2 ^ 32)
  else
    let sh := 8 * (off % 4)
    let old := (s.registerWord w (off / 4 * 4)).1
    s.putWord m w (off / 4 * 4) (old - old / 2 ^ sh % 2 ^ bits * 2 ^ sh + v % 2 ^ bits * 2 ^ sh)

/-- The pending posted write of a block lands (R14, R580). -/
def State.landPosted (s : State) (w : Nat) : State :=
  match s.pwr.posted.find? fun p => p.1 == w with
  | none => s
  | some p => { s with pwr := { s.pwr with posted := s.pwr.posted.erase p } }.putBits p.2.1 w p.2.2.1 p.2.2.2.1 p.2.2.2.2

/-- WPEND of a block stays set for the time that a posted write travels; `postedDone` ends it (R14, R580). -/
def State.travel (s : State) (w : Nat) : State :=
  { s with pwr := { s.pwr with landing := (w, s.now + postedTime w) :: s.pwr.landing.filter fun p => p.1 != w } }
def State.postedDone (s : State) (w : Nat) : State := { s with pwr := { s.pwr with landing := s.pwr.landing.filter fun p => p.1 != w } }

/-- A write access of a master that runs. A posted block takes it to land later, or drops it while another one travels. -/
def State.registerWrite (s : State) (m addr bits v : Nat) : State :=
  let w := addr / 65536 % 256
  let off := addr % 65536 % windowSpan w
  match s.registerRefusal m addr off bits true with
  | some k => (s.refuseAccess m addr k).respond m false []
  | none =>
    (if !s.windowPresent w then s
     else if postedWindow w && decide (8 ≤ off) then
       if s.writePending w then s.wr (Reg.BLK_STAT_WDROP w) 1
       else { s with pwr := { s.pwr with posted := s.pwr.posted ++ [(w, m, off, bits, v)] } }
     else s.putBits m w off bits v).respond m true []

/-- A read access: a posted block's pending write lands first (R580). -/
def State.registerRead (s : State) (m addr bits : Nat) : State :=
  let w := addr / 65536 % 256
  let off := addr % 65536 % windowSpan w
  match s.registerRefusal m addr off bits false with
  | some k => (s.refuseAccess m addr k).respond m false (zeros (bits / 8))
  | none =>
    if !s.windowPresent w then s.respond m true (zeros (bits / 8))
    else
      let s1 := if 8 ≤ off then (s.landPosted w).postedDone w else s
      let lo := s1.registerWord w (off / 4 * 4)
      let hi := if bits = 64 then lo.2.registerWord w (off + 4) else (0, lo.2)
      hi.2.respond m true (leBytes (bits / 8) ((lo.1 + hi.1 * 2 ^ 32) / 2 ^ (8 * (off % 4))))

/-- The address of a register. -/
def regAddr (w off : Nat) : Nat := 0x10000000 + 0x10000 * w + off

/-- A 32-bit write by a row of its own: in a posted block its effect comes within the step, and WPEND stays set for the time of Table 1.5; while
another write travels it is dropped (R14, log entry 59). -/
def State.rowWrite (s : State) (m w off v : Nat) : State :=
  if !s.masterRuns m then s
  else
    let t := s.registerWrite m (regAddr w off) 32 v
    if s.writePending w || !postedWindow w || !t.pwr.posted.any (fun p => p.1 == w) then t else (t.landPosted w).travel w

/-! ### Rows of the bus -/

/-- REGISTER_WRITE (R6, R581). -/
def execRegisterWrite (dt master addr bits value : Nat) (s : State) : Host.Outcome State Fault Refusal :=
  let s1 := s.elapse dt
  .next (if s1.masterRuns master ∧ 0x10000000 ≤ addr ∧ addr < 0x11000000 then s1.registerWrite master addr bits value else s1)

/-- POSTED_WRITE_LAND (R14). -/
def execPostedWriteLand (dt w : Nat) (s : State) : Host.Outcome State Fault Refusal := .next ((s.elapse dt).landPosted w)

/-- BLK_STAT_WRITE (R579). -/
def execBlkStatWrite (dt master w value : Nat) (s : State) : Host.Outcome State Fault Refusal :=
  .next (if w < 0x100 then (s.elapse dt).rowWrite master w 4 value else s.elapse dt)

/-- SKW_ERR_ADDR_HI_READ (Table 17.9): the read re-arms the capture. -/
def execSkwErrAddrHiRead (dt master : Nat) (s : State) : Host.Outcome State Fault Refusal :=
  let s1 := s.elapse dt
  .next (if s1.masterRuns master then s1.registerRead master (regAddr 5 0x24) 32 else s1)

/-! ### Rows of the registers with an effect of their own -/

/-- SYS_CTL_REMAP_WRITE (R487). -/
def execSysCtlRemapWrite (dt master value : Nat) (s : State) : Host.Outcome State Fault Refusal := .next ((s.elapse dt).rowWrite master 1 0x10 value)

/-- FAB_SEL_CUR_WRITE (R107). -/
def execFabSelCurWrite (dt master q value : Nat) (s : State) : Host.Outcome State Fault Refusal :=
  .next (if q < 6144 then (s.elapse dt).rowWrite master 9 (0x1000 + 4 * q) value else s.elapse dt)

/-- FAB_LD_SNAP (R98). -/
def execFabLdSnap (dt master value : Nat) (s : State) : Host.Outcome State Fault Refusal := .next ((s.elapse dt).rowWrite master 9 0x20 value)

/-- EPH_GEN_LOAD (R153). -/
def execEphGenLoad (dt master g value : Nat) (s : State) : Host.Outcome State Fault Refusal :=
  .next (if g < 16 then (s.elapse dt).rowWrite master 0x0A (0x100 + 0x40 * g) value else s.elapse dt)

/-- EPH_GEN_EN_WRITE (R153). -/
def execEphGenEnWrite (dt master g value : Nat) (s : State) : Host.Outcome State Fault Refusal :=
  .next (if g < 16 then (s.elapse dt).rowWrite master 0x0A (0x100 + 0x40 * g) value else s.elapse dt)

/-- A write to a register of lane `l`, at offset `r` of its block (R180). -/
def State.laneRow (s : State) (m l r v : Nat) : State :=
  if l < 128 then s.rowWrite m (0x10 + l / 4) (0x100 + l % 4 * 0x100 + r) v else s

/-- LNQ_SLEEP_WRITE (R171, R181). -/
def execLnqSleepWrite (dt master l value : Nat) (s : State) : Host.Outcome State Fault Refusal := .next ((s.elapse dt).laneRow master l 0x1C value)

/-- LNQ_LCFG_WRITE (R159, R181). -/
def execLnqLcfgWrite (dt master l value : Nat) (s : State) : Host.Outcome State Fault Refusal := .next ((s.elapse dt).laneRow master l 0x00 value)

/-- LNQ_ADAPT_RESTART (R167). -/
def execLnqAdaptRestart (dt master l value : Nat) (s : State) : Host.Outcome State Fault Refusal := .next ((s.elapse dt).laneRow master l 0x10 value)

/-- LNQ_ADAPT_FREEZE (R167). -/
def execLnqAdaptFreeze (dt master l value : Nat) (s : State) : Host.Outcome State Fault Refusal := .next ((s.elapse dt).laneRow master l 0x10 value)

/-- LNQ_FOM_MINCLR (R180). -/
def execLnqFomMinclr (dt master l value : Nat) (s : State) : Host.Outcome State Fault Refusal := .next ((s.elapse dt).laneRow master l 0x14 value)

/-- LNQ_PRBS_WRITE (R181). -/
def execLnqPrbsWrite (dt master l value : Nat) (s : State) : Host.Outcome State Fault Refusal := .next ((s.elapse dt).laneRow master l 0x40 value)

/-- LNQ_STX_MASK_GO (R192). -/
def execLnqStxMaskGo (dt master l value : Nat) (s : State) : Host.Outcome State Fault Refusal := .next ((s.elapse dt).laneRow master l 0xF00 value)

/-- A write to a register of port `p`. -/
def State.portRow (s : State) (m p off v : Nat) : State := if p < 66 then s.rowWrite m (0x60 + p) off v else s

/-- NET_RING_SIZE_WRITE (R242). -/
def execNetRingSizeWrite (dt master p k value : Nat) (s : State) : Host.Outcome State Fault Refusal :=
  .next (if k < 9 then (s.elapse dt).portRow master p (0x108 + 0x20 * k) value else s.elapse dt)

/-- NET_RING_PI_WRITE (R224). -/
def execNetRingPiWrite (dt master p k value : Nat) (s : State) : Host.Outcome State Fault Refusal :=
  .next (if k < 9 then (s.elapse dt).portRow master p (0x10C + 0x20 * k) value else s.elapse dt)

/-- NET_CTL_WRITE (R246). -/
def execNetCtlWrite (dt master p value : Nat) (s : State) : Host.Outcome State Fault Refusal := .next ((s.elapse dt).portRow master p 0x10 value)

/-- NET_FLOW_SNAP (R261). -/
def execNetFlowSnap (dt master value : Nat) (s : State) : Host.Outcome State Fault Refusal := .next ((s.elapse dt).rowWrite master 0x60 0x800 value)

/-- MOD_XFER_GO (R235). -/
def execModXferGo (dt master value : Nat) (s : State) : Host.Outcome State Fault Refusal := .next ((s.elapse dt).rowWrite master 0xA0 0x604 value)

/-- A write to a register of mailbox ring pair `n` (R37). -/
def State.ringRow (s : State) (m n r v : Nat) : State := if n < 8 then s.rowWrite m 0xB0 (0x100 + 0x40 * n + r) v else s

/-- CYX_RQ_PI_WRITE (R38). -/
def execCyxRqPiWrite (dt master n value : Nat) (s : State) : Host.Outcome State Fault Refusal := .next ((s.elapse dt).ringRow master n 0x14 value)

/-- CYX_RING_SIZE_WRITE (R38). -/
def execCyxRingSizeWrite (dt master n value : Nat) (s : State) : Host.Outcome State Fault Refusal := .next ((s.elapse dt).ringRow master n 0x08 value)

/-- CYX_RP_CI_WRITE (R37, R38). -/
def execCyxRpCiWrite (dt master n value : Nat) (s : State) : Host.Outcome State Fault Refusal := .next ((s.elapse dt).ringRow master n 0x20 value)

/-- AUD_SNAP (R294). -/
def execAudSnap (dt master value : Nat) (s : State) : Host.Outcome State Fault Refusal := .next ((s.elapse dt).rowWrite master 0x0C 0x24 value)

/-- AUD_CLK_WRITE (R292, R301). -/
def execAudClkWrite (dt master value : Nat) (s : State) : Host.Outcome State Fault Refusal := .next ((s.elapse dt).rowWrite master 0x0C 0x14 value)

/-- TIM_SNAP (R390). -/
def execTimSnap (dt master value : Nat) (s : State) : Host.Outcome State Fault Refusal := .next ((s.elapse dt).rowWrite master 6 0x28 value)

/-- TIM_SET_GO (R391). -/
def execTimSetGo (dt master value : Nat) (s : State) : Host.Outcome State Fault Refusal := .next ((s.elapse dt).rowWrite master 6 0x68 value)

/-- TIM_PULSE_LOAD (R391). -/
def execTimPulseLoad (dt master p value : Nat) (s : State) : Host.Outcome State Fault Refusal :=
  .next (if p < 8 then (s.elapse dt).rowWrite master 6 (0x100 + 0x20 * p) value else s.elapse dt)

/-- REF_CTL_FORCE_WRITE (R418). -/
def execRefCtlForceWrite (dt master value : Nat) (s : State) : Host.Outcome State Fault Refusal := .next ((s.elapse dt).rowWrite master 7 0x10 value)

/-- MVW_CURRENT_WRITE (R321, R331): `addr` is an offset in the MVW window. -/
def execMvwCurrentWrite (dt master addr value : Nat) (s : State) : Host.Outcome State Fault Refusal :=
  .next (if addr < 0x10000 then (s.elapse dt).rowWrite master 0x0D addr value else s.elapse dt)

/-- ENC_ENG_EN_WRITE (R361). -/
def execEncEngEnWrite (dt master : Nat) (hi : Bool) (value : Nat) (s : State) : Host.Outcome State Fault Refusal :=
  .next ((s.elapse dt).rowWrite master 0x0E (if hi then 0x24 else 0x20) value)

/-- TWN_LEASE_ARM (R429, R452). -/
def execTwnLeaseArm (dt master value : Nat) (s : State) : Host.Outcome State Fault Refusal := .next ((s.elapse dt).rowWrite master 8 0x30 value)

/-- TWN_LEASE_DROP (R453). -/
def execTwnLeaseDrop (dt master value : Nat) (s : State) : Host.Outcome State Fault Refusal := .next ((s.elapse dt).rowWrite master 8 0x3C value)

/-- PWR_DOM_EN_WRITE (R557, R558). -/
def execPwrDomEnWrite (dt master : Nat) (hi : Bool) (value : Nat) (s : State) : Host.Outcome State Fault Refusal :=
  .next ((s.elapse dt).rowWrite master 3 (if hi then 0x24 else 0x20) value)

/-- DMC_PAT_GO (R514). -/
def execDmcPatGo (dt master n value : Nat) (s : State) : Host.Outcome State Fault Refusal :=
  .next (if n < 48 then (s.elapse dt).rowWrite master (0x30 + n) 0x40 value else s.elapse dt)

/-- MEM_SET_WRITE (R514): `addr` is an offset in the MEM window. -/
def execMemSetWrite (dt master addr value : Nat) (s : State) : Host.Outcome State Fault Refusal :=
  .next (if addr < 0x10000 then (s.elapse dt).rowWrite master 0x0F addr value else s.elapse dt)

/-- FLT_INJECT (R532, R536). -/
def execFltInject (dt master value : Nat) (s : State) : Host.Outcome State Fault Refusal := .next ((s.elapse dt).rowWrite master 2 0x80 value)

/-! ### The vote (R585, R586) -/

/-- The value of the field that two of three copies agree on. -/
def majority (a b c : Nat) : Option Nat := if a = b ∨ a = c then some a else if b = c then some b else none

/-- The safe default of a triplicated field (Table 21.3): PWR_DOM_EN keeps each domain as it is. -/
def State.safeDefault (s : State) (w off : Nat) (d : FieldDef) : Nat :=
  if w = 3 ∧ off = 0x20 then s.rd Reg.PWR_DOM_ON_LO_ON else if w = 3 ∧ off = 0x24 then s.rd Reg.PWR_DOM_ON_HI_ON else d.safe

/-- A voted value reaches the hardware. -/
def State.voteInto (s : State) (w off v : Nat) (x : FieldDef × FieldRef) : State :=
  if w = 3 ∧ (off = 0x20 ∨ off = 0x24) then
    s.setEnables (if off = 0x20 then v + s.rd Reg.PWR_DOM_EN_HI_EN * 2 ^ 32 else s.rd Reg.PWR_DOM_EN_LO_EN + v * 2 ^ 32)
  else if w = 8 ∧ off = 0x14 ∧ x.1.lsb = 0 then (if v = s.role then s else if v = roleFenced then s.endLease roleFenced stFenced else s.setRole v)
  else
    let s1 := s.wr x.2 v
    if s.rd x.2 = s1.rd x.2 then s1
    else if w = 2 ∧ off = 0x14 then s1.errPin else if w = 0x0F then State.memWritten s s1 off else s1

/-- One triplicated field as its block finds it. -/
def State.voteField (s : State) (w : Nat) (u : Upset) : State :=
  let off := u.key / 32 - regAddr w 0
  match (registerAt w off).find? fun x => x.1.triple && x.2.key == u.key with
  | none => s
  | some x =>
    let c := fun (v : Nat) => v % 2 ^ x.1.width
    let obj := w * 65536 + off
    match majority (c u.c0) (c u.c1) (c u.c2) with
    | some v =>
      let s1 := s.voteInto w off v x
      if c u.c0 = v ∧ c u.c1 = v ∧ c u.c2 = v then s1
      else (s1.wr (Reg.BLK_STAT_VOTEFIX w) 1).raise 0x2F02 (windowSource w) obj
    | none =>
      let lost := (u.key, s.rd x.2) :: s.flt.voteLost.filter fun p => p.1 != u.key
      let s1 := (s.voteInto w off (s.safeDefault w off x.1) x).wr (Reg.BLK_STAT_VOTELOST w) 1
      { s1 with flt := { s1.flt with voteLost := lost } }.raise 0x2F03 (windowSource w) obj

/-- VOTE_SCRUB (R585): a block votes all its triplicated fields; `upsets` are those whose copies an upset has reached. -/
def execVoteScrub (dt w : Nat) (upsets : List Upset) (s : State) : Host.Outcome State Fault Refusal :=
  let s1 := s.elapse dt
  .next (if s1.windowPresent w && s1.domOn (windowDomain w) then upsets.foldl (fun t u => t.voteField w u) s1 else s1)

end Sys2Proof.Machine
end

