-- ==== Sys2Proof/Machine/SkwCmds.lean ====
section
/-!
DEFINITION. SKIDWAY_TRANSACTION: a burst or register access of a Skidway master (R486-R489, R496, R499-R506).
-/
namespace Sys2Proof.Machine

/-- The core that a master is, for the events of control SRAM: its Source and number. -/
def masterCore (m : Nat) : Option (Nat × Nat) := if m < 8 then some (srcOf 7 1 m, m) else if m < 12 then some (srcOf 7 0 (m - 8), m - 8) else none

/-- Control SRAM ECC: corrected, or lost (Table 18.6), for the core whose access meets it. -/
def State.sramEcc (s : State) (m : Nat) (fin : BurstEnd) : State :=
  match masterCore m, fin with
  | some c, .corrected => s.raise 0x2F08 c.1 c.2
  | some c, .lost => s.raise 0x2F09 c.1 c.2
  | _, _ => s

/-- A transaction that the Skidway refuses: an error response, with zero data for a read. -/
def State.refuseBurst (s : State) (m addr len target kind : Nat) (data : Option (List Byte)) : State :=
  (s.accessError m addr target kind).respond m false (if data.isSome then [] else zeros len)

/-- A transaction to a DRAM channel (R496, R500, R503, R514). -/
def State.dramBurst (s : State) (m id addr len ch : Nat) (data : Option (List Byte)) (fin : BurstEnd) : State :=
  let t := 3 + ch / 12
  let b : Burst := ⟨m, id, t, ch, if data.isSome then 0 else len⟩
  if !reachesTarget m t ∨ !s.present 0x12 ch ∨ !s.domOn (53 + ch / 12) ∨ s.flag (Reg.DMC_STAT_FAILED ch) ∨ s.shutIn 0x12 ch then s.refuseBurst m addr len t 1 data
  else if 256 < addr % 256 + len then s.refuseBurst m addr len t 2 data
  else if 1024 ≤ s.rd (Reg.DMC_ID_USED ch) ∧ !s.mem.outstanding.contains b then s.awaitEntry ⟨b, addr, len, data, fin, s.now⟩
  else (s.serveDram b addr len data fin).grantAll

/-- A transaction, decoded and served (R486, R499, R500, R504). -/
def State.skidway (s : State) (m id addr len : Nat) (data : Option (List Byte)) (fin : BurstEnd) : State :=
  match s.decode addr with
  | .unmapped =>
    let free := s.freeWord
    free.2.refuseBurst m addr len (free.1 % 8) 0 data
  | .register a =>
    match data with
    | some d => s.registerWrite m a (8 * len) (leNat (d.take len))
    | none => s.registerRead m a (8 * len)
  | .rom _ =>
    if !reachesTarget m 0 then s.refuseBurst m addr len 0 1 data
    else if 256 < addr % 256 + len then s.refuseBurst m addr len 0 2 data
    else if data.isSome then s.refuseBurst m addr len 0 3 data
    else s.burstData ⟨m, id, 0, 0, len⟩ addr len none fin
  | .sram _ =>
    if !reachesTarget m 1 then s.refuseBurst m addr len 1 1 data
    else if 256 < addr % 256 + len then s.refuseBurst m addr len 1 2 data
    else (s.sramEcc m fin).burstData ⟨m, id, 1, 0, if data.isSome then 0 else len⟩ addr len data fin
  | .dram _ ch _ => s.dramBurst m id addr len ch data fin

/-- SKIDWAY_TRANSACTION (R500). While the Skidway's own domain is off nothing is decoded, and only register accesses of the ranger cores are
served. -/
def execSkidwayTransaction (dt master id addr len : Nat) (data : Option (List Byte)) (fin : BurstEnd) (s : State) : Host.Outcome State Fault Refusal :=
  let s1 := s.elapse dt
  let register := decide (0x10000000 ≤ addr ∧ addr < 0x11000000)
  .next (if !s1.masterRuns master ∨ 256 ≤ id ∨ len = 0 then s1
    else if s1.domOn 3 ∨ (isRanger master ∧ register) then s1.skidway master id addr len data fin
    else s1.respond master false (if data.isSome then [] else zeros len))

end Sys2Proof.Machine
end

