-- ==== Sys2Proof/Machine/Dispatch.lean ====
section
/-!
DEFINITION. The effect of every command on everything but the queue: one arm per constructor of `Instr`, each one
direct call of that command's meaning.
-/
namespace Sys2Proof.Machine

def exec (i : Instr) (s : State) : Host.Outcome State Fault Refusal :=
  match i with
  | .powerOn dt recovery => Sys2Proof.Machine.execPowerOn dt recovery s
  | .coreRailsGood dt => Sys2Proof.Machine.execCoreRailsGood dt s
  | .rstNAssert dt => Sys2Proof.Machine.execRstNAssert dt s
  | .rstNRelease dt recovery cooled => Sys2Proof.Machine.execRstNRelease dt recovery cooled s
  | .railLoss dt rail => Sys2Proof.Machine.execRailLoss dt rail s
  | .thermalTrip dt => Sys2Proof.Machine.execThermalTrip dt s
  | .romBoot dt => Sys2Proof.Machine.execRomBoot dt s
  | .imageLoad dt type domain => Sys2Proof.Machine.execImageLoad dt type domain s
  | .trialConfirm dt => Sys2Proof.Machine.execTrialConfirm dt s
  | .activateReset dt => Sys2Proof.Machine.execActivateReset dt s
  | .lifecycleReset dt => Sys2Proof.Machine.execLifecycleReset dt s
  | .settingsStoreWrite dt => Sys2Proof.Machine.execSettingsStoreWrite dt s
  | .updDataTimeout dt => Sys2Proof.Machine.execUpdDataTimeout dt s
  | .domainPowerUp dt d good => Sys2Proof.Machine.execDomainPowerUp dt d good s
  | .domainPowerDown dt d => Sys2Proof.Machine.execDomainPowerDown dt d s
  | .idleTimerExpiry dt d => Sys2Proof.Machine.execIdleTimerExpiry dt d s
  | .sidebandAddressMatch dt addr also => Sys2Proof.Machine.execSidebandAddressMatch dt addr also s
  | .comparatorWake dt also => Sys2Proof.Machine.execComparatorWake dt also s
  | .pwrTimerExpiry dt also => Sys2Proof.Machine.execPwrTimerExpiry dt also s
  | .mgtWakeFrame dt port bytes also => Sys2Proof.Machine.execMgtWakeFrame dt port bytes also s
  | .thermalSensorSample dt temps => Sys2Proof.Machine.execThermalSensorSample dt temps s
  | .shedStep dt => Sys2Proof.Machine.execShedStep dt s
  | .faultEventRecord dt => Sys2Proof.Machine.execFaultEventRecord dt s
  | .faultReaction dt => Sys2Proof.Machine.execFaultReaction dt s
  | .controlRestart dt => Sys2Proof.Machine.execControlRestart dt s
  | .voteScrub dt w upsets => Sys2Proof.Machine.execVoteScrub dt w upsets s
  | .registerWrite dt master addr bits value => Sys2Proof.Machine.execRegisterWrite dt master addr bits value s
  | .postedWriteLand dt w => Sys2Proof.Machine.execPostedWriteLand dt w s
  | .blkStatWrite dt master w value => Sys2Proof.Machine.execBlkStatWrite dt master w value s
  | .sysCtlRemapWrite dt master value => Sys2Proof.Machine.execSysCtlRemapWrite dt master value s
  | .fabSelCurWrite dt master q value => Sys2Proof.Machine.execFabSelCurWrite dt master q value s
  | .fabLdSnap dt master value => Sys2Proof.Machine.execFabLdSnap dt master value s
  | .ephGenLoad dt master g value => Sys2Proof.Machine.execEphGenLoad dt master g value s
  | .ephGenEnWrite dt master g value => Sys2Proof.Machine.execEphGenEnWrite dt master g value s
  | .lnqSleepWrite dt master l value => Sys2Proof.Machine.execLnqSleepWrite dt master l value s
  | .lnqLcfgWrite dt master l value => Sys2Proof.Machine.execLnqLcfgWrite dt master l value s
  | .lnqAdaptRestart dt master l value => Sys2Proof.Machine.execLnqAdaptRestart dt master l value s
  | .lnqAdaptFreeze dt master l value => Sys2Proof.Machine.execLnqAdaptFreeze dt master l value s
  | .lnqFomMinclr dt master l value => Sys2Proof.Machine.execLnqFomMinclr dt master l value s
  | .lnqPrbsWrite dt master l value => Sys2Proof.Machine.execLnqPrbsWrite dt master l value s
  | .lnqStxMaskGo dt master l value => Sys2Proof.Machine.execLnqStxMaskGo dt master l value s
  | .netRingSizeWrite dt master p k value => Sys2Proof.Machine.execNetRingSizeWrite dt master p k value s
  | .netRingPiWrite dt master p k value => Sys2Proof.Machine.execNetRingPiWrite dt master p k value s
  | .netCtlWrite dt master p value => Sys2Proof.Machine.execNetCtlWrite dt master p value s
  | .netFlowSnap dt master value => Sys2Proof.Machine.execNetFlowSnap dt master value s
  | .modXferGo dt master value => Sys2Proof.Machine.execModXferGo dt master value s
  | .modXferDone dt ends data => Sys2Proof.Machine.execModXferDone dt ends data s
  | .cyxRqPiWrite dt master n value => Sys2Proof.Machine.execCyxRqPiWrite dt master n value s
  | .cyxRingSizeWrite dt master n value => Sys2Proof.Machine.execCyxRingSizeWrite dt master n value s
  | .cyxRpCiWrite dt master n value => Sys2Proof.Machine.execCyxRpCiWrite dt master n value s
  | .audSnap dt master value => Sys2Proof.Machine.execAudSnap dt master value s
  | .audClkWrite dt master value => Sys2Proof.Machine.execAudClkWrite dt master value s
  | .timSnap dt master value => Sys2Proof.Machine.execTimSnap dt master value s
  | .timSetGo dt master value => Sys2Proof.Machine.execTimSetGo dt master value s
  | .timPulseLoad dt master p value => Sys2Proof.Machine.execTimPulseLoad dt master p value s
  | .refCtlForceWrite dt master value => Sys2Proof.Machine.execRefCtlForceWrite dt master value s
  | .mvwCurrentWrite dt master addr value => Sys2Proof.Machine.execMvwCurrentWrite dt master addr value s
  | .encEngEnWrite dt master hi value => Sys2Proof.Machine.execEncEngEnWrite dt master hi value s
  | .twnLeaseArm dt master value => Sys2Proof.Machine.execTwnLeaseArm dt master value s
  | .twnLeaseDrop dt master value => Sys2Proof.Machine.execTwnLeaseDrop dt master value s
  | .pwrDomEnWrite dt master hi value => Sys2Proof.Machine.execPwrDomEnWrite dt master hi value s
  | .dmcPatGo dt master n value => Sys2Proof.Machine.execDmcPatGo dt master n value s
  | .dmcPatDone dt n errors lanes => Sys2Proof.Machine.execDmcPatDone dt n errors lanes s
  | .memSetWrite dt master addr value => Sys2Proof.Machine.execMemSetWrite dt master addr value s
  | .skwErrAddrHiRead dt master => Sys2Proof.Machine.execSkwErrAddrHiRead dt master s
  | .fltInject dt master value => Sys2Proof.Machine.execFltInject dt master value s
  | .cyxelFragment dt via bytes pecOk => Sys2Proof.Machine.execCyxelFragment dt via bytes pecOk s
  | .reassemblyTimeout dt via session => Sys2Proof.Machine.execReassemblyTimeout dt via session s
  | .sessionIdleTimeout dt session => Sys2Proof.Machine.execSessionIdleTimeout dt session s
  | .sidebandBlockRead dt => Sys2Proof.Machine.execSidebandBlockRead dt s
  | .sysNop dt rq => Sys2Proof.Machine.execSysNop dt rq s
  | .sysInfo dt rq => Sys2Proof.Machine.execSysInfo dt rq s
  | .sysAlmanacRead dt rq => Sys2Proof.Machine.execSysAlmanacRead dt rq s
  | .sysResetUnit dt rq => Sys2Proof.Machine.execSysResetUnit dt rq s
  | .sysSessionOpen dt rq => Sys2Proof.Machine.execSysSessionOpen dt rq s
  | .sysSessionClose dt rq => Sys2Proof.Machine.execSysSessionClose dt rq s
  | .sysSubscribe dt rq => Sys2Proof.Machine.execSysSubscribe dt rq s
  | .cruCheck dt rq => Sys2Proof.Machine.execCruCheck dt rq s
  | .cruCommit dt rq => Sys2Proof.Machine.execCruCommit dt rq s
  | .cruReport dt rq => Sys2Proof.Machine.execCruReport dt rq s
  | .fabRoute dt rq => Sys2Proof.Machine.execFabRoute dt rq s
  | .fabRouteBatch dt rq => Sys2Proof.Machine.execFabRouteBatch dt rq s
  | .fabBondDefine dt rq => Sys2Proof.Machine.execFabBondDefine dt rq s
  | .fabQuery dt rq => Sys2Proof.Machine.execFabQuery dt rq s
  | .fabWindowStatus dt rq => Sys2Proof.Machine.execFabWindowStatus dt rq s
  | .fabSyncAssign dt rq => Sys2Proof.Machine.execFabSyncAssign dt rq s
  | .ephSchedule dt rq => Sys2Proof.Machine.execEphSchedule dt rq s
  | .ephCancel dt rq => Sys2Proof.Machine.execEphCancel dt rq s
  | .ephList dt rq => Sys2Proof.Machine.execEphList dt rq s
  | .ephSalvo dt rq => Sys2Proof.Machine.execEphSalvo dt rq s
  | .ephGenConfig dt rq => Sys2Proof.Machine.execEphGenConfig dt rq s
  | .lanConfig dt rq => Sys2Proof.Machine.execLanConfig dt rq s
  | .lanStatus dt rq => Sys2Proof.Machine.execLanStatus dt rq s
  | .lanFom dt rq => Sys2Proof.Machine.execLanFom dt rq s
  | .lanSleep dt rq => Sys2Proof.Machine.execLanSleep dt rq s
  | .lanSlotmask dt rq => Sys2Proof.Machine.execLanSlotmask dt rq s
  | .netPortConfig dt rq => Sys2Proof.Machine.execNetPortConfig dt rq s
  | .netFlowRx dt rq => Sys2Proof.Machine.execNetFlowRx dt rq s
  | .netFlowTx dt rq => Sys2Proof.Machine.execNetFlowTx dt rq s
  | .netFlowDel dt rq => Sys2Proof.Machine.execNetFlowDel dt rq s
  | .netRingSetup dt rq => Sys2Proof.Machine.execNetRingSetup dt rq s
  | .netModuleInfo dt rq => Sys2Proof.Machine.execNetModuleInfo dt rq s
  | .audRoute dt rq => Sys2Proof.Machine.execAudRoute dt rq s
  | .audPortConfig dt rq => Sys2Proof.Machine.execAudPortConfig dt rq s
  | .audRateStatus dt rq => Sys2Proof.Machine.execAudRateStatus dt rq s
  | .mvwHeadConfig dt rq => Sys2Proof.Machine.execMvwHeadConfig dt rq s
  | .mvwLayerSet dt rq => Sys2Proof.Machine.execMvwLayerSet dt rq s
  | .mvwCommit dt rq => Sys2Proof.Machine.execMvwCommit dt rq s
  | .mvwGraphicLoad dt rq => Sys2Proof.Machine.execMvwGraphicLoad dt rq s
  | .graphicLoadDone dt => Sys2Proof.Machine.execGraphicLoadDone dt s
  | .encChannelCreate dt rq => Sys2Proof.Machine.execEncChannelCreate dt rq s
  | .encChannelDelete dt rq => Sys2Proof.Machine.execEncChannelDelete dt rq s
  | .encRateSet dt rq => Sys2Proof.Machine.execEncRateSet dt rq s
  | .encStatus dt rq => Sys2Proof.Machine.execEncStatus dt rq s
  | .encXsDecodeCreate dt rq => Sys2Proof.Machine.execEncXsDecodeCreate dt rq s
  | .timDomainConfig dt rq => Sys2Proof.Machine.execTimDomainConfig dt rq s
  | .timStatus dt rq => Sys2Proof.Machine.execTimStatus dt rq s
  | .timPulseProgram dt rq => Sys2Proof.Machine.execTimPulseProgram dt rq s
  | .timRestep dt rq => Sys2Proof.Machine.execTimRestep dt rq s
  | .refTableSet dt rq => Sys2Proof.Machine.execRefTableSet dt rq s
  | .refStatus dt rq => Sys2Proof.Machine.execRefStatus dt rq s
  | .refFramepulse dt rq => Sys2Proof.Machine.execRefFramepulse dt rq s
  | .twnConfig dt rq => Sys2Proof.Machine.execTwnConfig dt rq s
  | .twnStatus dt rq => Sys2Proof.Machine.execTwnStatus dt rq s
  | .twnLeaseRequest dt rq => Sys2Proof.Machine.execTwnLeaseRequest dt rq s
  | .twnResync dt rq => Sys2Proof.Machine.execTwnResync dt rq s
  | .vltSlotStatus dt rq => Sys2Proof.Machine.execVltSlotStatus dt rq s
  | .vltDerive dt rq => Sys2Proof.Machine.execVltDerive dt rq s
  | .vltInvalidate dt rq => Sys2Proof.Machine.execVltInvalidate dt rq s
  | .vltImport dt rq => Sys2Proof.Machine.execVltImport dt rq s
  | .vltLifecycle dt rq fuses => Sys2Proof.Machine.execVltLifecycle dt rq fuses s
  | .memMapSet dt rq => Sys2Proof.Machine.execMemMapSet dt rq s
  | .memPasrSet dt rq => Sys2Proof.Machine.execMemPasrSet dt rq s
  | .memTrain dt rq => Sys2Proof.Machine.execMemTrain dt rq s
  | .fltQuery dt rq => Sys2Proof.Machine.execFltQuery dt rq s
  | .fltClear dt rq => Sys2Proof.Machine.execFltClear dt rq s
  | .fltHistory dt rq => Sys2Proof.Machine.execFltHistory dt rq s
  | .pwrDomainSet dt rq => Sys2Proof.Machine.execPwrDomainSet dt rq s
  | .pwrIdleTimer dt rq => Sys2Proof.Machine.execPwrIdleTimer dt rq s
  | .pwrWakeRecord dt rq => Sys2Proof.Machine.execPwrWakeRecord dt rq s
  | .updBegin dt rq => Sys2Proof.Machine.execUpdBegin dt rq s
  | .updData dt rq => Sys2Proof.Machine.execUpdData dt rq s
  | .updCommit dt rq => Sys2Proof.Machine.execUpdCommit dt rq s
  | .updVerifyDone dt => Sys2Proof.Machine.execUpdVerifyDone dt s
  | .updStatus dt rq => Sys2Proof.Machine.execUpdStatus dt rq s
  | .meridian dt g => Sys2Proof.Machine.execMeridian dt g s
  | .ephLoaderWrite dt g => Sys2Proof.Machine.execEphLoaderWrite dt g s
  | .landingFrameSelect dt chan => Sys2Proof.Machine.execLandingFrameSelect dt chan s
  | .outputCellRead dt q line index type => Sys2Proof.Machine.execOutputCellRead dt q line index type s
  | .fabricCellWrite dt w cell => Sys2Proof.Machine.execFabricCellWrite dt w cell s
  | .cellAgeExpiry dt => Sys2Proof.Machine.execCellAgeExpiry dt s
  | .sourceNoSignal dt n quarter => Sys2Proof.Machine.execSourceNoSignal dt n quarter s
  | .ldgLoss dt chan => Sys2Proof.Machine.execLdgLoss dt chan s
  | .staveSuperframeStart dt l => Sys2Proof.Machine.execStaveSuperframeStart dt l s
  | .stxLayoutLatch dt l => Sys2Proof.Machine.execStxLayoutLatch dt l s
  | .staveSuperframeReceive dt l aligned copies frac corr cw uncorr => Sys2Proof.Machine.execStaveSuperframeReceive dt l aligned copies frac corr cw uncorr s
  | .staveCellReceive dt l n cell lost => Sys2Proof.Machine.execStaveCellReceive dt l n cell lost s
  | .msgCellReceive dt l cell lost => Sys2Proof.Machine.execMsgCellReceive dt l cell lost s
  | .fomWindowEnd dt l e move eq finished => Sys2Proof.Machine.execFomWindowEnd dt l e move eq finished s
  | .adaptLmsUpdate dt l signs dfe => Sys2Proof.Machine.execAdaptLmsUpdate dt l signs dfe s
  | .sleepTransitionEnd dt l tx => Sys2Proof.Machine.execSleepTransitionEnd dt l tx s
  | .laneSignalDetect dt l => Sys2Proof.Machine.execLaneSignalDetect dt l s
  | .lnLos dt l => Sys2Proof.Machine.execLnLos dt l s
  | .lnCdrUnlock dt l => Sys2Proof.Machine.execLnCdrUnlock dt l s
  | .pllUnlock dt quad b => Sys2Proof.Machine.execPllUnlock dt quad b s
  | .ethLinkUp dt p => Sys2Proof.Machine.execEthLinkUp dt p s
  | .ethLinkDown dt p => Sys2Proof.Machine.execEthLinkDown dt p s
  | .ethAnFail dt p => Sys2Proof.Machine.execEthAnFail dt p s
  | .hostFrameReceive dt p bytes full => Sys2Proof.Machine.execHostFrameReceive dt p bytes full s
  | .macFrameTransmit dt p starved => Sys2Proof.Machine.execMacFrameTransmit dt p starved s
  | .pauseFrameReceive dt p bytes => Sys2Proof.Machine.execPauseFrameReceive dt p bytes s
  | .pauseExpiry dt p q => Sys2Proof.Machine.execPauseExpiry dt p q s
  | .ethPauseStorm dt p q => Sys2Proof.Machine.execEthPauseStorm dt p q s
  | .pauseHoldExpiry dt p q => Sys2Proof.Machine.execPauseHoldExpiry dt p q s
  | .mgtServiceFrame dt m bytes => Sys2Proof.Machine.execMgtServiceFrame dt m bytes s
  | .modulePoll dt reads => Sys2Proof.Machine.execModulePoll dt reads s
  | .moduleHoldExpiry dt reads => Sys2Proof.Machine.execModuleHoldExpiry dt reads s
  | .moduleLifeSample dt samples => Sys2Proof.Machine.execModuleLifeSample dt samples s
  | .moduleAccountWrite dt => Sys2Proof.Machine.execModuleAccountWrite dt s
  | .flowPacketReceive dt p bytes full given => Sys2Proof.Machine.execFlowPacketReceive dt p bytes full given s
  | .flowLineRelease dt f => Sys2Proof.Machine.execFlowLineRelease dt f s
  | .flowLoss dt f => Sys2Proof.Machine.execFlowLoss dt f s
  | .flowPacketLaunch dt f => Sys2Proof.Machine.execFlowPacketLaunch dt f s
  | .txBehind dt f => Sys2Proof.Machine.execTxBehind dt f s
  | .membershipQueryReceive dt p bytes => Sys2Proof.Machine.execMembershipQueryReceive dt p bytes s
  | .membershipReportSend dt f leg => Sys2Proof.Machine.execMembershipReportSend dt f leg s
  | .audioSampleEvaluate dt rate96 k => Sys2Proof.Machine.execAudioSampleEvaluate dt rate96 k s
  | .tdmFrame dt sdi bclks => Sys2Proof.Machine.execTdmFrame dt sdi bclks s
  | .audClkLoss dt => Sys2Proof.Machine.execAudClkLoss dt s
  | .tdmClockStop dt => Sys2Proof.Machine.execTdmClockStop dt s
  | .audioRateMeasure dt groups => Sys2Proof.Machine.execAudioRateMeasure dt groups s
  | .headMeridian dt h => Sys2Proof.Machine.execHeadMeridian dt h s
  | .bandStart dt h => Sys2Proof.Machine.execBandStart dt h s
  | .bandComplete dt h => Sys2Proof.Machine.execBandComplete dt h s
  | .headRowEmit dt h => Sys2Proof.Machine.execHeadRowEmit dt h s
  | .layerSofWrite dt h l => Sys2Proof.Machine.execLayerSofWrite dt h l s
  | .encRowDue dt h => Sys2Proof.Machine.execEncRowDue dt h s
  | .encRowCoded dt h r => Sys2Proof.Machine.execEncRowCoded dt h r s
  | .encDeadline dt h r coded => Sys2Proof.Machine.execEncDeadline dt h r coded s
  | .encPacketLaunch dt h => Sys2Proof.Machine.execEncPacketLaunch dt h s
  | .encRefreshPeriodStart dt h => Sys2Proof.Machine.execEncRefreshPeriodStart dt h s
  | .xsSliceEmit dt h => Sys2Proof.Machine.execXsSliceEmit dt h s
  | .xsSliceLost dt d => Sys2Proof.Machine.execXsSliceLost dt d s
  | .ptpSyncReceive dt p bytes freq => Sys2Proof.Machine.execPtpSyncReceive dt p bytes freq s
  | .ptpAnnounceReceive dt p bytes => Sys2Proof.Machine.execPtpAnnounceReceive dt p bytes s
  | .ptpDelayRespReceive dt p bytes => Sys2Proof.Machine.execPtpDelayRespReceive dt p bytes s
  | .ptpDelayReqSend dt target port => Sys2Proof.Machine.execPtpDelayReqSend dt target port s
  | .ptpPdelayReqReceive dt p bytes => Sys2Proof.Machine.execPtpPdelayReqReceive dt p bytes s
  | .timPtpLoss dt d => Sys2Proof.Machine.execTimPtpLoss dt d s
  | .timSecondTick dt => Sys2Proof.Machine.execTimSecondTick dt s
  | .chronographStep dt => Sys2Proof.Machine.execChronographStep dt s
  | .tcRelayForward dt p bytes residence => Sys2Proof.Machine.execTcRelayForward dt p bytes residence s
  | .timePulseEdge dt p => Sys2Proof.Machine.execTimePulseEdge dt p s
  | .refSelectionPass dt => Sys2Proof.Machine.execRefSelectionPass dt s
  | .refPulseArrival dt input h freq => Sys2Proof.Machine.execRefPulseArrival dt input h freq s
  | .refQualified dt e => Sys2Proof.Machine.execRefQualified dt e s
  | .refLoss dt e => Sys2Proof.Machine.execRefLoss dt e s
  | .framePulseEdge dt p => Sys2Proof.Machine.execFramePulseEdge dt p s
  | .heartbeatSend dt => Sys2Proof.Machine.execHeartbeatSend dt s
  | .heartbeatIntervalEnd dt => Sys2Proof.Machine.execHeartbeatIntervalEnd dt s
  | .heartbeatReceive dt bytes => Sys2Proof.Machine.execHeartbeatReceive dt bytes s
  | .rowsReceive dt bytes => Sys2Proof.Machine.execRowsReceive dt bytes s
  | .outhashSend dt g => Sys2Proof.Machine.execOuthashSend dt g s
  | .outhashReceive dt bytes => Sys2Proof.Machine.execOuthashReceive dt bytes s
  | .healthSend dt => Sys2Proof.Machine.execHealthSend dt s
  | .healthReceive dt bytes => Sys2Proof.Machine.execHealthReceive dt bytes s
  | .snapshotReceive dt bytes seg => Sys2Proof.Machine.execSnapshotReceive dt bytes seg s
  | .revertReceive dt bytes => Sys2Proof.Machine.execRevertReceive dt bytes s
  | .revertHoldoffExpiry dt => Sys2Proof.Machine.execRevertHoldoffExpiry dt s
  | .twinGenGap dt => Sys2Proof.Machine.execTwinGenGap dt s
  | .resyncConvergeEnd dt => Sys2Proof.Machine.execResyncConvergeEnd dt s
  | .twinResyncFail dt => Sys2Proof.Machine.execTwinResyncFail dt s
  | .resyncRetry dt => Sys2Proof.Machine.execResyncRetry dt s
  | .lookoutRequestSend dt => Sys2Proof.Machine.execLookoutRequestSend dt s
  | .lookoutReplyReceive dt bytes => Sys2Proof.Machine.execLookoutReplyReceive dt bytes s
  | .leaseExpiry dt => Sys2Proof.Machine.execLeaseExpiry dt s
  | .lkoFenceLow dt => Sys2Proof.Machine.execLkoFenceLow dt s
  | .bistTestStart dt kind n => Sys2Proof.Machine.execBistTestStart dt kind n s
  | .bistTestDone dt kind n pass => Sys2Proof.Machine.execBistTestDone dt kind n pass s
  | .vaultPowerUp dt tests puf bad => Sys2Proof.Machine.execVaultPowerUp dt tests puf bad s
  | .vaultScrub dt hits => Sys2Proof.Machine.execVaultScrub dt hits s
  | .vltTrngFail dt => Sys2Proof.Machine.execVltTrngFail dt s
  | .trngRetry dt pass => Sys2Proof.Machine.execTrngRetry dt pass s
  | .revokeSweep dt => Sys2Proof.Machine.execRevokeSweep dt s
  | .dramTraining dt g dens res => Sys2Proof.Machine.execDramTraining dt g dens res s
  | .dramTracking dt n drift => Sys2Proof.Machine.execDramTracking dt n drift s
  | .dramRefreshCheck dt n rate => Sys2Proof.Machine.execDramRefreshCheck dt n rate s
  | .skidwayTransaction dt master id addr len data fin => Sys2Proof.Machine.execSkidwayTransaction dt master id addr len data fin s
  | .masterResetDrain dt m => Sys2Proof.Machine.execMasterResetDrain dt m s
  | .cdrLock dt l => Sys2Proof.Machine.execCdrLock dt l s
  | .pllLock dt quad b => Sys2Proof.Machine.execPllLock dt quad b s
  | .mgtLinkDown dt m => Sys2Proof.Machine.execMgtLinkDown dt m s
  | .mgtLinkUp dt m => Sys2Proof.Machine.execMgtLinkUp dt m s
  | .ptpFollowUpReceive dt p bytes freq => Sys2Proof.Machine.execPtpFollowUpReceive dt p bytes freq s
  | .clk10mPhaseDetector dt phase freq => Sys2Proof.Machine.execClk10mPhaseDetector dt phase freq s
  | .ethFecDegrade dt p codewords => Sys2Proof.Machine.execEthFecDegrade dt p codewords s
  | .mirrorReplyReceive dt bytes => Sys2Proof.Machine.execMirrorReplyReceive dt bytes s
  | .memTrainDone dt res => Sys2Proof.Machine.execMemTrainDone dt res s
  | .unitReady dt cap n => Sys2Proof.Machine.execUnitReady dt cap n s
  | .watchdogExpiry dt dog => Sys2Proof.Machine.execWatchdogExpiry dt dog s
  | .blockIsolatesItself dt src whole => Sys2Proof.Machine.execBlockIsolatesItself dt src whole s
  | .lkoFenceHigh dt => Sys2Proof.Machine.execLkoFenceHigh dt s

end Sys2Proof.Machine
end

