-- ==== Sys2Proof/Safety.lean ====
section
/-!
DEFINITION. What counts as a safe run of the block: every step answers a next state, and the invariants of the state
hold in it.
-/
namespace Sys2Proof.Machine

/-- The event collector holds no more than its tables have room for: 32 history records (R527), 1 024 uncleared
events (R529) and 256 events waiting for their reaction (R524). -/
def FaultState.bounded (f : FaultState) : Bool :=
  decide (f.history.length ≤ 32) && decide (f.uncleared.length ≤ 1024) && decide (f.queue.length ≤ 256)

/-- The invariant of the state: registers and memories are in their canonical form, and the collector is within bounds. -/
def State.inv (s : State) : Bool := s.regs.wf && s.mem.sram.wf && s.mem.dram.wf && s.flt.bounded

/-- A step is safe at a state when it answers a next state that meets the invariant. -/
def State.safeStep (s : State) : Prop := ∃ t, step s = .next t ∧ t.inv = true

/-! ### What a command that passes every check does -/

/-- What lies outside the interpreter: everything but registers, memories, the event collector, sessions, the Vault, what the boot
ROM and an update hold, and what was sent. -/
def State.outside (s : State) : State :=
  { s with regs := [], mem := MemState.reset, flt := FaultState.reset, cyx := CyxState.reset, vlt := VaultState.reset, boot := BootState.reset, sent := [] }

/-- The context of a request that a controller sends. -/
def ctxOf (rq : Req) : Ctx := ⟨rq.session, rq.tag, 0, false, 0, [], []⟩

/-- A request of a controller passes the checks of Table 2.7 up to execution: `dt` ns after `s` its packet starts the command in
state `u` with the whole payload `p`, and steps 12 to 16 refuse nothing. -/
structure Admits (op : OpSpec) (dt : Nat) (rq : Req) (s u : State) (p : List Byte) : Prop where
  own : rq.transport ≠ .partner
  started : (s.arrive dt).gate op rq = .start u p
  passed : op.refusal u false p = none

/-- What a request of a controller meets when nothing stands in its way, from the state and its own fields alone (R28, R33, R42, R46,
R52): a datagram of one whole packet on session 0, sent while the firmware serves its port, before deployment, on a card without twin
whose fence is not pulled and with no command waiting. -/
structure Plain (u : State) (rq : Req) : Prop where
  datagram : ∃ m a n, rq.transport = .udp m a n
  served : u.serves rq.transport = true
  firmware : u.boot.romServes = false
  version : rq.version = 1
  flags : rq.flags = 0
  session : rq.session = 0
  zero : (u.session 0).isSome = true
  alone : ∀ x ∈ u.cyx.sessions, x.queue = []
  whole : u.partialOf rq = none
  short : rq.payload.length ≤ 8192
  words : rq.payload.length % 4 = 0
  life : u.lifeCycle < 3
  solo : u.role = roleSolo
  open_ : u.flag Reg.TWN_STAT_FENCE_PIN = false
  lasting : u.twn.expiry = none

/-- The state in which such a request is executed: session 0 has heard it, and its lead times count from now (R54). -/
def State.plainStart (u : State) (rq : Req) : State :=
  (u.hearOpen rq).served 0 (u.hearOpen rq).chrono

/-- What step 17 makes of an execution that Cruise admits: the change counts, what is over a capacity is marked, and the summary
answers a command whose own reply the spec does not define (`empty`: it defines it as empty, R84). -/
def weighed (u : State) (d : Done) (empty : Bool := false) : Done :=
  { d with
    state := { d.state with cru := { d.state.cru with changes := u.cru.changes + 1 } }.noteOver
    payload := if d.payload.isEmpty && !empty then (evaluate u d.state []).summary 0 else d.payload }

/-- The register bus takes a 32-bit write of master `m` at offset `off` of window `w`: the master runs, nothing refuses the access, the
block is there, it is not a lane that belongs to another lane's port, and no posted write to it still travels. -/
structure Accepts (u : State) (m w off : Nat) : Prop where
  runs : u.masterRuns m = true
  allowed : u.registerRefusal m (regAddr w off) off 32 true = none
  here : u.windowPresent w = true
  own : u.laneOfPort w = false
  quiet : u.writePending w = false

/-! ### Frames: everything but what a group of events may change. Registers and the event collector are left out of each, for an event
counts, shows its state and raises its alarms there. -/

/-- Everything but the lanes, what they send, the messages of Cyxel that wait for a partner lane, and the fabric's own records of their
sources. -/
def State.besideLanes (s : State) : State :=
  { s with
    regs := [], flt := FaultState.reset, lan := LanState.reset, fab := FabState.reset, cyx := { s.cyx with linkBox := [] }, sent := [] }

/-- Everything but the Ethernet ports, their flows and modules, what they send, the fabric's records of their sources, the datagrams that
wait for a management port, the rates that audio packets show, and the clocks that PTP drives. -/
def State.besideNet (s : State) : State :=
  { s with
    regs := [], flt := FaultState.reset, net := NetState.reset, tim := TimState.reset, ref := RefState.reset
    cyx := { s.cyx with outbox := [] }, fab := { s.fab with sources := [] }, aud := { s.aud with rates := [] }, sent := [] }

/-- Everything but audio, the multiviewer and the encoders. -/
def State.besideMedia (s : State) : State :=
  { s with regs := [], flt := FaultState.reset, aud := AudState.reset, mvw := MvwState.reset, enc := EncState.reset }

/-- Everything but the fabric and the Ephemeris. -/
def State.besideFabric (s : State) : State := { s with regs := [], flt := FaultState.reset, fab := FabState.reset, eph := EphState.reset }

/-- Everything but the Vault. -/
def State.besideVault (s : State) : State := { s with regs := [], flt := FaultState.reset, vlt := VaultState.reset }

/-- Everything but the clocks, the references, the offset that a twin reports, and the pins. -/
def State.besideTime (s : State) : State :=
  { s with regs := [], flt := FaultState.reset, tim := TimState.reset, ref := RefState.reset, twn := TwnState.reset, sent := [] }

/-- Everything but the twin, and what its partner lanes, its pins and its management ports send. -/
def State.besideTwin (s : State) : State :=
  { s with regs := [], flt := FaultState.reset, twn := TwnState.reset, lan := LanState.reset, cyx := { s.cyx with outbox := [] }, sent := [] }

/-- Everything but registers, the event collector and what was sent. -/
def State.besideRegisters (s : State) : State := { s with regs := [], flt := FaultState.reset, sent := [] }

/-- A next state agrees with `u` in what `view` shows. -/
def Leaves (view : State → State) (u : State) (o : Host.Outcome State Fault Refusal) : Prop := ∀ t, o = .next t → view t = view u

/-- A view without what a message to a session changes: the sessions and transports of Cyxel, the rings of the host in memory, and what
was sent. -/
def untold (view : State → State) (s : State) : State := { view s with cyx := CyxState.reset, mem := MemState.reset, sent := [] }

/-- The frame of an event that may tell a session how its command has ended (R54): while `silent` holds it tells none and leaves the
whole view, and otherwise all of it but what such a message changes. -/
def LeavesOrTells (silent : Prop) (view : State → State) (u : State) (o : Host.Outcome State Fault Refusal) : Prop :=
  (silent → Leaves view u o) ∧ Leaves (untold view) u o

end Sys2Proof.Machine
end

