-- ==== Sys2Proof/Certificates/Slice0/Obligations.lean ====
section
/-!
DEFINITION. The statements for the provers.
-/
open Sys2Proof Sys2Proof.Machine

/-- Every command at the front of the queue runs as exec on the state with the rest of the queue. The queue is the model's own
(log entry 1). -/
def Obligations.StepRunsFront : Prop :=
  ∀ (s : State) (c : Instr) (cs : List Instr), s.pending = c :: cs → step s = exec c { s with pending := cs }

/-- On an empty queue the block idles: the model's choice (log entry 1). -/
def Obligations.EmptyQueueIdles : Prop := ∀ s : State, s.pending = [] → step s = .next s

/-- Every step keeps the invariant: the register file and the memories stay in their canonical form, and the history, the uncleared
table and the reaction queue stay within 32, 1 024 and 256 (R524, R527, R529). -/
def Obligations.StepKeepsInvariant : Prop := ∀ s t : State, s.inv = true → step s = .next t → t.inv = true

/-- The state after reset meets the invariant. -/
def Obligations.ResetMeetsInvariant : Prop := State.reset.inv = true

/-- No command stops the block: every step answers a next state. -/
def Obligations.EveryStepAnswers : Prop := ∀ s : State, ∃ t, step s = .next t

/-- A request that the checks of Table 2.7 end or refuse changes nothing outside the interpreter, and a refused one is answered
with the status and detail of the first check that fails (R46, R57, R66). -/
def Obligations.RefusedRequestLeavesTheRest : Prop :=
  ∀ (op : OpSpec) (dt : Nat) (rq : Req) (s : State), rq.transport ≠ .partner →
    (∀ u, (s.arrive dt).gate op rq = .ended u → serve op dt rq s = u ∧ u.outside = (s.arrive dt).outside) ∧
    (∀ u p st e, (s.arrive dt).gate op rq = .start u p → op.refusal u false p = some (st, e) → 2 ≤ st →
      (serve op dt rq s).outside = (s.arrive dt).outside ∧ ∃ k, Out.reply (rq.reply op.code st e k) ∈ (serve op dt rq s).sent)

/-- Every request that passes the checks is executed, and its reply carries the status and payload that execution gave (R46, R54). -/
def Obligations.AdmittedRequestIsAnswered : Prop :=
  ∀ (op : OpSpec) (dt : Nat) (rq : Req) (s u : State) (p : List Byte), Admits op dt rq s u p → op.cruise = false →
    ∃ k, Out.reply (rq.reply op.code (op.run u (ctxOf rq) p).status (op.run u (ctxOf rq) p).payload k) ∈ (serve op dt rq s).sent

/-- The SYS commands, each executed and answered (R41, R45, R56, R58, R60-R62, R555). -/
def Obligations.SystemCommandsComplete : Prop :=
  ∀ (dt : Nat) (rq : Req) (s u : State) (p : List Byte),
    (Admits opSysNop dt rq s u p → exec (.sysNop dt rq) s = .next (State.conclude opSysNop rq p (Done.ok u p))) ∧
    (Admits opSysInfo dt rq s u p → ∃ pl, pl.length = 64 ∧ pl.take 2 = be16 (partNumber u.variant) ∧
      exec (.sysInfo dt rq) s = .next (State.conclude opSysInfo rq p (Done.ok u pl))) ∧
    (Admits opSysAlmanacRead dt rq s u p → ∀ es, es = (almanacList.drop (u16 p 0)).take (u16 p 2) →
      exec (.sysAlmanacRead dt rq) s = .next (State.conclude opSysAlmanacRead rq p (Done.ok u (be32 es.length ++ es.flatMap u.almanacEntry)))) ∧
    (Admits opSysSubscribe dt rq s u p → exec (.sysSubscribe dt rq) s =
      .next (State.conclude opSysSubscribe rq p (Done.ok (u.modSession rq.session fun y => { y with mask := u32 p 0 }) []))) ∧
    (Admits opSysSessionClose dt rq s u p → ∀ y, u.session rq.session = some y → y.id ≠ 0 → exec (.sysSessionClose dt rq) s =
      .next (State.conclude opSysSessionClose rq p
        (Done.ok ((if y.revoked then u else u.invalidate y.slot).modSession y.id fun z => { z with queue := [], revoked := true })
          (be32 y.queue.length)))) ∧
    (Admits opSysSessionOpen dt rq s u p → rq.session = 0 → u.trngOk = true → (u.cyx.sessions.filter fun y => y.id != 0).length < 64 →
      ∀ n, u.freeSlot = some n →
        (u.openSession n p).1.cyx.sessions.length = u.cyx.sessions.length + 1 ∧
        exec (.sysSessionOpen dt rq) s =
          .next (State.conclude opSysSessionOpen rq p (Done.ok (u.openSession n p).1 (u.openSession n p).2))) ∧
    (Admits opSysResetUnit dt rq s u p → ∀ us, us = (u.namedUnits (u16 p 0) (u16 p 2)).filter (fun x => u.present x.1 x.2) → us ≠ [] →
      (us.find? fun x => !u.domOn (capDomain x.1 x.2)) = none →
      ∃ v, v = (if bit (u8 p 4) 0 then ((unitDomains us).foldl (fun t d => t.domainOff d) u).endIsolation us else u.resetUnits us) ∧
        exec (.sysResetUnit dt rq) s = .next (State.conclude opSysResetUnit rq p
          (Done.pending (v.noteOver.await ⟨rq.tag, rq.session, 0, .unit (u16 p 0) (u16 p 2), none⟩) [])))

/-- The Cruise commands, each executed and answered (R82, R83, R85). -/
def Obligations.CruiseCommandsComplete : Prop :=
  ∀ (dt : Nat) (rq : Req) (s u : State) (p : List Byte),
    (Admits opCruCheck dt rq s u p → (changeList u (ctxOf rq) p).status < 2 → ∃ pl c, exec (.cruCheck dt rq) s =
      .next (State.conclude opCruCheck rq p (Done.ok { u with cru := c } pl)) ∧ pl = (changeList u (ctxOf rq) p).payload) ∧
    (Admits opCruCommit dt rq s u p → exec (.cruCommit dt rq) s = .next (State.conclude opCruCommit rq p (changeList u (ctxOf rq) p))) ∧
    (Admits opCruReport dt rq s u p → ∀ r, u.reportOf rq.session (u32 p 0) = some r → exec (.cruReport dt rq) s =
      .next (State.conclude opCruReport rq p (Done.ok u (be32 r.id ++ be16 1 ++ be16 (r.entries.take 255).length ++ be32 r.changes ++ zeros 4 ++
        (r.entries.take 255).flatMap fun e => e.bytes))))

/-- PWR_WAKE_RECORD (R554): an empty payload, and 16 bytes that hold the wake record. -/
def Obligations.WakeRecordReplies : Prop :=
  (∀ p, opPwrWakeRecord.length p = true ↔ p = []) ∧
  ∀ (dt : Nat) (rq : Req) (s u : State) (p : List Byte), Admits opPwrWakeRecord dt rq s u p →
    ∃ pl, pl.length = 16 ∧ pl = be8 (u.rd Reg.PWR_WAKE_REC_SOURCE) ++ be8 (u.rd Reg.PWR_WAKE_REC_MASK) ++
        be8 (u.rd Reg.PWR_WAKE_REC_FROM) ++ be8 0 ++ be32 (u.rd Reg.PWR_WAKE_CNT_COUNT) ++
        be64 (u.rd64 Reg.PWR_WAKE_TICKS_LO_T Reg.PWR_WAKE_TICKS_HI_T) ∧
      exec (.pwrWakeRecord dt rq) s = .next (State.conclude opPwrWakeRecord rq p (Done.ok u pl))

/-- PWR_IDLE_TIMER (R553): the fields that it checks, the refusal of a range with a domain that has no timer, and the effect. -/
def Obligations.IdleTimerIsSet : Prop :=
  (∀ u p, opPwrIdleTimer.refusal u false p = none →
    p.length = 8 ∧ 1 ≤ u8 p 1 ∧ u8 p 0 + u8 p 1 ≤ 58 ∧ zeroAt p 2 2 = true ∧ u32 p 4 ≤ 65535) ∧
  (∀ u p i, p.length = 8 → i < u8 p 1 → u.hasIdleTimer (u8 p 0 + i) = false →
    opPwrIdleTimer.refusal u false p = some (stBadParam, detail 24 0 0xFFFFFFFF)) ∧
  ∀ (dt : Nat) (rq : Req) (s u : State) (p : List Byte), Admits opPwrIdleTimer dt rq s u p →
    ∀ ds, ds = (List.range (u8 p 1)).map (fun i => u8 p 0 + i) →
    ∀ v, v = ds.foldl (fun t d => t.wr (Reg.PWR_IDLE_S d) (u32 p 4)) u →
    ∀ w, w = u.pwr.idleSince.map (fun e => if ds.contains e.1 then (e.1, u.now) else e) →
      v = { u with regs := v.regs } ∧
      exec (.pwrIdleTimer dt rq) s = .next (State.conclude opPwrIdleTimer rq p (Done.ok { v with pwr := { u.pwr with idleSince := w } } []))

/-- PWR_DOMAIN_SET and the UPD commands, each executed and answered (R552, R567-R570). -/
def Obligations.PowerAndUpdateCommandsComplete : Prop :=
  ∀ (dt : Nat) (rq : Req) (s u : State) (p : List Byte),
    (Admits opPwrDomainSet dt rq s u p → ∀ m v, m = u.plannedSet (u64 p 0) (u64 p 8) → v = (u.wakeConfig p).setEnables m →
      ∀ d, d = (if bit (u64 p 8) 1 && !bit m 1 then Done.ok { v with pwr := { v.pwr with pd01OffAt := some (u.now + 1000000) } } []
        else Done.pending (v.await ⟨rq.tag, rq.session, 0, .domains m (u64 p 8 ||| (m ^^^ u.enMask)), none⟩) []) →
      (evaluate u d.state []).fails = 0 →
      exec (.pwrDomainSet dt rq) s = .next (State.conclude opPwrDomainSet rq p (weighed u d))) ∧
    (Admits opUpdBegin dt rq s u p → (u.boot.update.any fun w => w.session != rq.session) = false → u.boot.verify = none →
      (u.boot.romServes = true ∨ (u.boot.bank u.runningBank).state ≠ 2) →
      exec (.updBegin dt rq) s = .next (State.conclude opUpdBegin rq p
        (Done.ok { u with boot := { u.boot.putBank u.updateTarget ⟨1, [], u32 p 0, 0⟩ with
            update := some ⟨rq.session, u.updateTarget, u32 p 0, 0, u.now⟩ } } (be8 u.updateTarget ++ zeros 3)))) ∧
    (Admits opUpdData dt rq s u p → ∀ w, u.openUpdate rq.session = some w → u32 p 0 = w.received →
      w.received + (p.drop 4).length ≤ w.declared →
      ∀ k b, k = { u.boot.bank w.target with bytes := (u.boot.bank w.target).bytes ++ p.drop 4 } →
        b = (if w.target = 0 then { u.boot with bankA := k } else { u.boot with bankB := k }) →
        exec (.updData dt rq) s = .next (State.conclude opUpdData rq p
          (Done.ok { u with boot := { b with update := some { w with received := w.received + (p.drop 4).length, lastData := u.now } } } []))) ∧
    (Admits opUpdCommit dt rq s u p → ∀ w, u.openUpdate rq.session = some w → w.declared ≤ w.received →
      exec (.updCommit dt rq) s = .next (State.conclude opUpdCommit rq p
        (Done.pending { u with boot := { u.boot with verify := some (rq.tag, rq.session, bit (u8 p 0) 0) } } []))) ∧
    (Admits opUpdStatus dt rq s u p → ∃ pl, pl.length = 24 ∧
      pl.take 1 = be8 (if u.boot.verify.isSome then 2 else if u.boot.update.isSome then 1 else 0) ∧
      exec (.updStatus dt rq) s = .next (State.conclude opUpdStatus rq p (Done.ok u pl)))

/-- FLT_HISTORY (R535): its fields, its reply, and what ACK clears. -/
def Obligations.FaultHistoryReplies : Prop :=
  (∀ u p, opFltHistory.refusal u false p = none → p.length = 4 ∧ u8 p 0 < 2 ∧ zeroAt p 1 3 = true) ∧
  ∀ (dt : Nat) (rq : Req) (s u : State) (p : List Byte), Admits opFltHistory dt rq s u p →
    ∀ header first, header = be8 (u.rd Reg.FLT_STAT_HISTORY_LOST + 2 * b01 u.flt.firstError.isSome) ++ be8 u.flt.history.length ++ be16 0 ++
        be32 (u.rd Reg.FLT_HIST_LOST_COUNT) →
      (u.flt.firstError = none → first = zeros 32) → (∀ e, u.flt.firstError = some e → first = e.record 0) →
      header.length = 8 ∧ first.length = 32 ∧
      exec (.fltHistory dt rq) s = .next (State.conclude opFltHistory rq p
        (Done.ok (if bit (u8 p 0) 0 then u.wr Reg.FLT_STAT_HISTORY_LOST 0 else u) (header ++ first ++ u.flt.history.flatMap fun e => e.record 0)))

/-- FLT_QUERY and FLT_CLEAR, each executed and answered (R529, R530, R533, R534). -/
def Obligations.FaultCommandsComplete : Prop :=
  ∀ (dt : Nat) (rq : Req) (s u : State) (p : List Byte),
    (Admits opFltQuery dt rq s u p → ∀ es page, es = u.unclearedSorted.filter (fun e => decide (u8 p 6 ≤ e.cls)) →
      page = (es.drop (u32 p 0)).take (u16 p 4) →
      exec (.fltQuery dt rq) s = .next (State.conclude opFltQuery rq p
        (Done.ok u (be32 es.length ++ be32 page.length ++ page.flatMap fun e => e.record e.repeats)))) ∧
    (Admits opFltClear dt rq s u p → bit (u8 p 4) 0 = true →
      ∀ v, v = ((u.wr Reg.FLT_STAT_OVF 0).wr Reg.FLT_STAT_OVF_CLASS 0).clearEntries (fun e => !e.active) →
      exec (.fltClear dt rq) s = .next (State.conclude opFltClear rq p
        (Done.ok v (be32 (u.flt.uncleared.length - v.flt.uncleared.length) ++ be32 v.flt.uncleared.length)))) ∧
    (Admits opFltClear dt rq s u p → bit (u8 p 4) 0 = false → (∀ e ∈ u.flt.uncleared, e.num = u32 p 0 → e.active = false) →
      ∀ v, v = u.clearEntries (fun e => e.num == u32 p 0) →
      exec (.fltClear dt rq) s = .next (State.conclude opFltClear rq p
        (Done.ok v (be32 (u.flt.uncleared.length - v.flt.uncleared.length) ++ be32 v.flt.uncleared.length)))) ∧
    (Admits opFltClear dt rq s u p → bit (u8 p 4) 0 = false → (∃ e ∈ u.flt.uncleared, e.num = u32 p 0 ∧ e.active = true) →
      exec (.fltClear dt rq) s = .next (State.conclude opFltClear rq p ⟨u, stStillActive, detail 24 0 0xFFFFFFFF, []⟩))

/-- The VLT commands, each executed and answered (R463-R467, R478-R482). -/
def Obligations.VaultCommandsComplete : Prop :=
  ∀ (dt : Nat) (rq : Req) (s u : State) (p : List Byte),
    (Admits opVltSlotStatus dt rq s u p → ∀ n, n = min (u16 p 2) (544 - u16 p 0) →
      exec (.vltSlotStatus dt rq) s = .next (State.conclude opVltSlotStatus rq p
        (Done.ok u (be32 n ++ (List.range n).flatMap fun i => u.slotEntry (u16 p 0 + i))))) ∧
    (Admits opVltDerive dt rq s u p → u16 p 0 ≠ 0xFFFE → u.parentStatus (u16 p 0) = stOk → ∀ t, u.targetSlot (u16 p 2) = some t →
      ∀ y : Slot, y.key = kdf256 (u.slot (u16 p 0)).key (bytesAt p 12 (u8 p 8)) (be16 (u16 p 6) ++ be16 (u16 p 4)) →
        y = ⟨y.key, u16 p 4, u16 p 6, u16 p 0, (u.slot (u16 p 0)).level + 1, 1, 0, (u.slot (u16 p 0)).gen,
          Config.sha256 (bytesAt p 12 (u8 p 8)), 0, true, false⟩ →
        ∀ v, v = (u.fillSlot t y).countSlots.refilled t →
        exec (.vltDerive dt rq) s = .next (State.conclude opVltDerive rq p (Done.ok v (v.slotReply t)))) ∧
    (Admits opVltDerive dt rq s u p → u16 p 0 = 0xFFFE → ∀ t, u.targetSlot (u16 p 2) = some t →
      ∀ y : Slot, y.key = kdf256 u.vlt.root (bytesAt p 12 (u8 p 8)) (be16 (u16 p 6) ++ be16 (u16 p 4)) →
        y = ⟨y.key, u16 p 4, u16 p 6, 0xFFFE, 1, 1, 0, 0, Config.sha256 (bytesAt p 12 (u8 p 8)), 0, true, false⟩ →
        ∀ v, v = (u.fillSlot t y).countSlots.refilled t →
        exec (.vltDerive dt rq) s = .next (State.conclude opVltDerive rq p (Done.ok v (v.slotReply t)))) ∧
    (Admits opVltImport dt rq s u p → u8 p 0 < 2 → (u8 p 0 ≠ 0 → u.wrapStatus (u16 p 4) = stOk) → bit (u8 p 1) 0 = false →
      ∀ t, u.targetSlot (u16 p 2) = some t → ∀ k, u.importKey p = some k →
        ∀ v, v = (u.fillSlot t ⟨k, u16 p 6, u16 p 8, 0xFFFF, 1, 1, 0, 0, 0, 0, true, false⟩).countSlots.refilled t →
        exec (.vltImport dt rq) s = .next (State.conclude opVltImport rq p (Done.ok v (v.slotReply t)))) ∧
    (Admits opVltInvalidate dt rq s u p → ∀ v, v = (if bit (u8 p 2) 0 then u.revokeOtp (u16 p 0) else u) →
      ((u.slot (u16 p 0)).state = 0 → exec (.vltInvalidate dt rq) s =
        .next (State.conclude opVltInvalidate rq p (Done.ok v (be32 0 ++ be32 0)))) ∧
      ((u.slot (u16 p 0)).state ≠ 0 → exec (.vltInvalidate dt rq) s =
        .next (State.conclude opVltInvalidate rq p (Done.ok (v.invalidate (u16 p 0))
          (be32 ((u.descendants (u16 p 0)).length + 1) ++ be32 (u.keyUsers (u16 p 0 :: u.descendants (u16 p 0)))))))) ∧
    (∀ fuses, Admits (opVltLifecycle fuses) dt rq s u p →
      (fuses = false → exec (.vltLifecycle dt rq fuses) s =
        .next (State.conclude (opVltLifecycle fuses) rq p ⟨u, stInternal, detail 0xFFFF 0 0xFFFFFFFF, []⟩)) ∧
      (fuses = true → u8 p 0 = 0 → 
        ∀ w, w = { u.vlt with lcs := u8 p 1, everDeployed := u.vlt.everDeployed || u8 p 1 == 3, devSteps := u.vlt.devSteps + b01 (u.vlt.lcs == 2 && u8 p 1 == 1) } →
        exec (.vltLifecycle dt rq fuses) s = .next (State.conclude (opVltLifecycle fuses) rq p
          (Done.ok { u with vlt := w, boot := { u.boot with lifecycleAt := some (u.now + 10000000) } } []))) ∧
      (fuses = true → u8 p 0 = 1 → ∀ k, k = (if bit u.vlt.keyRev (u8 p 1) then u.vlt.keyRev else u.vlt.keyRev + 2 ^ u8 p 1) →
        exec (.vltLifecycle dt rq fuses) s = .next (State.conclude (opVltLifecycle fuses) rq p
          (Done.ok ({ u with vlt := { u.vlt with keyRev := k } }.wr Reg.VLT_STAT_KEYREV k) []))) ∧
      (fuses = true → u8 p 0 = 2 → exec (.vltLifecycle dt rq fuses) s = .next (State.conclude (opVltLifecycle fuses) rq p
        (Done.ok ({ u with vlt := { u.vlt with floor := u8 p 1 } }.wr Reg.VLT_STAT_FLOOR (u8 p 1)) []))))

/-- The FAB commands, each executed and answered (R116-R121). -/
def Obligations.FabricCommandsComplete : Prop :=
  ∀ (dt : Nat) (rq : Req) (s u : State) (p : List Byte),
    (Admits opFabRoute dt rq s u p → u.eph.staged < 8192 → ∀ g f, g = u.routeGen p 0 → f = u.routeFrame (ctxOf rq) g u.leadEnd →
      ∀ v, v = u.takeRoutes (ctxOf rq) (takeOf [u.routeRec p 0 f]) → (evaluate u v []).fails = 0 →
      exec (.fabRoute dt rq) s = .next (State.conclude opFabRoute rq p (weighed u (Done.pending v (frameRefBytes g f))))) ∧
    (Admits opFabRouteBatch dt rq s u p → u.eph.staged + u16 p 0 ≤ 8192 →
      ∀ rs, rs = (blockOffsets 8 (u16 p 0)).map (fun o => u.routeRec p o (u.routeFrame (ctxOf rq) (u.routeGen p o) u.leadEnd)) →
      ∀ v, v = u.takeRoutes (ctxOf rq) (takeOf rs) → (evaluate u v []).fails = 0 →
      exec (.fabRouteBatch dt rq) s = .next (State.conclude opFabRouteBatch rq p (weighed u (Done.pending v
        (be32 (genFrames rs).length ++ (genFrames rs).flatMap fun r => frameRefBytes r.1 r.2))))) ∧
    (Admits opFabBondDefine dt rq s u p →
      ∀ bs, bs = (if bit (u8 p 1) 0 then u.fab.bonds.filter fun b => b.members.head? != some (u16 p 4)
          else u.fab.bonds ++ [⟨bondMembers p, bit (u8 p 1) 1, bit (u8 p 1) 2⟩]) →
      ∀ v, v = { u with fab := { u.fab with bonds := bs } } → (evaluate u v []).fails = 0 →
      exec (.fabBondDefine dt rq) s = .next (State.conclude opFabBondDefine rq p (weighed u (Done.ok v []) true))) ∧
    (Admits opFabQuery dt rq s u p → ∀ es, es = u.queryRun (u16 p 2) (u16 p 0) 511 →
      exec (.fabQuery dt rq) s = .next (State.conclude opFabQuery rq p (Done.ok u (be32 es.length ++ es.flatten)))) ∧
    (Admits opFabWindowStatus dt rq s u p →
      ∀ es, es = ((List.range (u16 p 2)).flatMap fun i => if u.srcSplit (u16 p 0 + i)
          then (List.range 4).map fun q => u.windowEntry (0x10000 + 4 * (u16 p 0 + i) + q) (u8 p 4) else [u.windowEntry (u16 p 0 + i) (u8 p 4)]).take 341 →
      exec (.fabWindowStatus dt rq) s = .next (State.conclude opFabWindowStatus rq p
        (Done.ok u (be16 es.length ++ be8 (u8 p 4) ++ be8 0 ++ be32 (u.rd (Reg.EPH_GEN_FC_LO_F (u8 p 4))) ++ es.flatten)))) ∧
    (Admits opFabSyncAssign dt rq s u p → bit (u8 p 5) 1 = true →
      ∀ ls, ls = (u.fab.landing.map fun y => if (u.released (syncChan p)).contains y
          then { y with releasing := true, relAt := u.leadEnd, relSession := rq.session, relTag := rq.tag, relEntry := 0 } else y) →
      ∀ v, v = { u with fab := { u.fab with landing := ls } } → (evaluate u v []).fails = 0 →
      exec (.fabSyncAssign dt rq) s = .next (State.conclude opFabSyncAssign rq p (weighed u
        (Done.pending v (be32 (0x00060000 + syncChan p) ++ be16 (slotNo (landingSlot (syncChan p))) ++ zeros 2))))) ∧
    (Admits opFabSyncAssign dt rq s u p → bit (u8 p 5) 1 = false →
      ∀ ms c, ms = (if bit (u8 p 5) 3 then ((u.bondNamed (u16 p 0)).map (·.members)).getD [] else [syncSource p]) → c = syncChan p →
      ∀ v, v = ms.zipIdx.foldl (fun t m => t.assignChannel
          ⟨c + m.2, m.1, u8 p 4, bit (u8 p 5) 2, c, u.syncSize p, m.2, u8 p 6, u16 p 8, u16 p 10, u8 p 12 == 1, u8 p 13 == 1, u32 p 16, u32 p 20,
            0x00060000 + c, rq.session, rq.tag, false, u.leadEnd, false, 0xFFFF, 0, 0, none, [], [], none, some u.now, none, false, [], none, 0, 0⟩) u →
      (evaluate u v []).fails = 0 →
      exec (.fabSyncAssign dt rq) s = .next (State.conclude opFabSyncAssign rq p (weighed u
        (Done.pending v (be32 (0x00060000 + c) ++ be16 (slotNo (landingSlot c)) ++ zeros 2)))))

/-- The EPH commands, each executed and answered (R139, R141, R142, R146-R150). -/
def Obligations.EphemerisCommandsComplete : Prop :=
  ∀ (dt : Nat) (rq : Req) (s u : State) (p : List Byte),
    (Admits opEphSchedule dt rq s u p → u.eph.room 1 = true → ∀ g t f h, g = u.routeGen p 28 →
      t = timeAt p 0 → f = (if bit (u8 p 24) 0 then u.namedFrame g (u64 p 16) else u.routeFrame (ctxOf rq) g (u.takeTime t)) →
      h = u.newHandle (ctxOf rq) →
      ∀ z, z = (if bit (u8 p 24) 0 then 0 else t) →
      ∀ k, k = { takeOf [u.routeRec p 28 f] with
        handle := h, byFrame := bit (u8 p 24) 0, time := z, mode := takeMode (u8 p 24), ramp := u8 p 25 } →
      (evaluate u (u.storeEntry (ctxOf rq) k) []).fails = 0 → exec (.ephSchedule dt rq) s =
        .next (State.conclude opEphSchedule rq p (weighed u (Done.pending (u.storeEntry (ctxOf rq) k) (be32 h ++ frameRefBytes g f))))) ∧
    (Admits opEphSalvo dt rq s u p → u.eph.room (u16 p 12) = true → ∀ rs h, h = u.newHandle (ctxOf rq) →
      rs = (blockOffsets 16 (u16 p 12)).map (fun o => u.routeRec p o (u.routeFrame (ctxOf rq) (u.routeGen p o) (u.takeTime (timeAt p 0)))) →
      ∀ k, k = { takeOf rs with handle := h, salvo := true, time := timeAt p 0, mode := takeMode (u8 p 14), ramp := u8 p 15 } →
      (evaluate u (u.storeEntry (ctxOf rq) k) []).fails = 0 → exec (.ephSalvo dt rq) s =
        .next (State.conclude opEphSalvo rq p (weighed u (Done.pending (u.storeEntry (ctxOf rq) k)
          (be32 h ++ be16 (genFrames rs).length ++ zeros 2 ++ (genFrames rs).flatMap fun r => frameRefBytes r.1 r.2))))) ∧
    (Admits opEphCancel dt rq s u p → ∀ mine gone, mine = (u.eph.takes.filter fun t => t.handle == u32 p 0).flatMap (·.routes) →
      gone = mine.filter u.cancellable →
      ∀ ts, ts = (u.eph.takes.map fun t => if t.handle = u32 p 0 ∧ !gone.isEmpty
        then { t with routes := t.routes.filter fun r => !u.cancellable r, partly := true } else t) →
      exec (.ephCancel dt rq) s = .next (State.conclude opEphCancel rq p
        (Done.ok ({ u with eph := { u.eph with takes := ts.filter fun t => !t.routes.isEmpty } }.ephCount.markRisk)
          (be32 gone.length ++ be32 (mine.length - gone.length))))) ∧
    (Admits opEphList dt rq s u p →
      ∀ es, es = (((u.eph.takes.filter fun t => t.handle != 0).foldl (fun l t => u.insertEntry t l) []).drop (u32 p 0)).take (u16 p 4) →
      exec (.ephList dt rq) s = .next (State.conclude opEphList rq p (Done.ok u (be32 es.length ++ es.flatMap u.listEntry)))) ∧
    (Admits opEphGenConfig dt rq s u p → ∀ g v, g = u8 p 0 →
      v = [(Reg.EPH_GEN_N_N g, u32 p 4), (Reg.EPH_GEN_D_D g, u32 p 8), (Reg.EPH_GEN_CUR_N_N g, u32 p 4), (Reg.EPH_GEN_CUR_D_D g, u32 p 8),
        (Reg.EPH_GEN_CTL_EN g, b01 (bit (u8 p 1) 0)), (Reg.EPH_GEN_CTL_CUT g, b01 (bit (u8 p 1) 1)),
        (Reg.EPH_GEN_CTL_DIP g, b01 (bit (u8 p 1) 2)), (Reg.EPH_GEN_CTL_RAMP_MS g, u8 p 2)].foldl (fun t w => t.wr w.1 w.2) u →
      ∀ w, w = (if u.genChanges p then v.genRestart g else v).endFreeRuns →
      (evaluate u w []).fails = 0 → exec (.ephGenConfig dt rq) s =
        .next (State.conclude opEphGenConfig rq p (weighed u (Done.ok w (frameRefBytes g (w.nextFrame g))))))

/-- The LAN commands, each executed and answered (R175, R177-R179, R208). -/
def Obligations.LaneCommandsComplete : Prop :=
  ∀ (dt : Nat) (rq : Req) (s u : State) (p : List Byte),
    (Admits opLanConfig dt rq s u p →
      ∀ v, v = ((u.applyLaneConfig p).formKr1 (u16 p 0) (u8 p 2) (bit (u8 p 3) 0)).modLane (u16 p 0) (fun x => { x with kept := some p }) →
      (evaluate u v []).fails = 0 → exec (.lanConfig dt rq) s = .next (State.conclude opLanConfig rq p (weighed u (Done.ok v [])))) ∧
    (Admits opLanStatus dt rq s u p → exec (.lanStatus dt rq) s = .next (State.conclude opLanStatus rq p
      (Done.ok u (be32 (u16 p 2) ++ (List.range (u16 p 2)).flatMap fun i => u.laneEntry (u16 p 0 + i))))) ∧
    (Admits opLanFom dt rq s u p → ∀ l pl, l = u16 p 0 →
      pl = be8 (u.rd (Reg.LNQ_FOM_FOM l)) ++ be8 (u.rd (Reg.LNQ_FOM_MIN l)) ++ be8 (u.lane l).fomMax ++ be8 (u.rd (Reg.LNQ_RXCTLE_PEAK l)) ++
        be16 (toBits 16 (u.rdInt (Reg.LNQ_DFE_TAP l))) ++ be16 (u.rd (Reg.LNQ_TXFFE_C0 l)) ++ (u.lane l).ffe.flatMap (fun c => be16 (toBits 16 c)) →
      exec (.lanFom dt rq) s = .next (State.conclude opLanFom rq p (Done.ok (if bit (u8 p 2) 0
        then (u.wr (Reg.LNQ_FOM_MIN l) 255).modLane l fun y => { y with fomMax := 0 } else u) pl))) ∧
    (Admits opLanSleep dt rq s u p → ∀ lanes v tx rx, lanes = (List.range (u16 p 2)).map (fun i => u16 p 0 + i) →
      tx = (if u8 p 4 = 0 then lanes.filter fun l => u.rd (Reg.LNQ_SLEEP_TX_STATE l) != 0 || (u.lane l).tx.endsAt.isSome else []) →
      rx = (if u8 p 5 = 0 then lanes.filter fun l => u.rd (Reg.LNQ_SLEEP_RX_STATE l) != 0 || (u.lane l).rx.endsAt.isSome else []) →
      v = lanes.foldl (fun t l => t.sleepLane l (u8 p 4) (u8 p 5) (bit (u8 p 6) 0)) u →
      ∀ d, d = (if tx.isEmpty ∧ rx.isEmpty then Done.ok (v.entriesDone lanes) []
        else Done.pending (v.await ⟨rq.tag, rq.session, 0, .lanes tx rx, if rx.isEmpty then none else some (u.now + 20000000)⟩) []) → (evaluate u d.state []).fails = 0 →
      exec (.lanSleep dt rq) s = .next (State.conclude opLanSleep rq p (weighed u d))) ∧
    (Admits opLanSlotmask dt rq s u p → ∀ l y v, l = u16 p 0 →
      y = (if bit (u8 p 2) 0 then ⟨u16 p 6, u16 p 4, u64 p 8⟩ else u.autoLayout l (u16 p 4)) →
      v = [(Reg.LNQ_STX_MASK_SLOTS l, y.slots), (Reg.LNQ_STX_MASK_QMAP l, y.qmap), (Reg.LNQ_STX_QACT_LO_Q l, y.qact),
        (Reg.LNQ_STX_QACT_HI_Q l, y.qact / 2 ^ 32), (Reg.LNQ_STX_CTL_AUTO l, b01 (!bit (u8 p 2) 0))].foldl (fun t w => t.wr w.1 w.2)
          (u.modLane l fun x => { x with forward := if bit (u8 p 2) 0 then some y else none, manual := bit (u8 p 2) 0, qmapSet := u16 p 4 }) →
      (evaluate u v []).fails = 0 →
      exec (.lanSlotmask dt rq) s = .next (State.conclude opLanSlotmask rq p (weighed u (Done.ok v (be64 u.nextSuperframe)))))

/-- NET_PORT_CONFIG, NET_RING_SETUP and NET_MODULE_INFO, each executed and answered (R241-R243). -/
def Obligations.EthernetCommandsComplete : Prop :=
  ∀ (dt : Nat) (rq : Req) (s u : State) (p : List Byte),
    (Admits opNetPortConfig dt rq s u p → ∀ rs, rs = portRecords p (u8 p 2) 8 →
      (∀ o ∈ rs, u8 p o = 4 → bit (u8 p (o + 7)) 1 = false → u.slotStatus (u16 p (o + 16)) .macsec = 0) →
      ∀ v, v = (if rs.any fun o => u8 p o == 5 || u8 p o == 6 then (rs.foldl (fun t o => t.applyRecord p o) u).storeChanged
        else rs.foldl (fun t o => t.applyRecord p o) u) →
      ∀ d, d = (if rs.any fun o => u8 p o == 1 && bit (u8 p (o + 5)) 1
        then Done.pending ((v.linkAwaited (u16 p 0)).await ⟨rq.tag, rq.session, 0, .linkUp (u16 p 0) u.now, some (u.now + 5 * 10 ^ 9 - 1)⟩) []
        else Done.ok v []) →
      (evaluate u d.state []).fails = 0 →
      exec (.netPortConfig dt rq) s = .next (State.conclude opNetPortConfig rq p (weighed u d))) ∧
    (Admits opNetRingSetup dt rq s u p → u8 p 2 = 2 → ∀ n i, n = u16 p 0 → i = u8 p 3 →
      exec (.netRingSetup dt rq) s = .next (State.conclude opNetRingSetup rq p (Done.ok
        ((((u.wr (Reg.NET_STEER_ETYPE n i) (u16 p 14)).wr (Reg.NET_STEER_PROTO n i) (u8 p 16)).wr
          (Reg.NET_STEER_RING n i) (u8 p 17)).wr (Reg.NET_STEER_L4PORT n i) (u16 p 18)) []))) ∧
    (Admits opNetRingSetup dt rq s u p → u8 p 2 ≠ 2 → ∀ n k, n = u16 p 0 → k = (if u8 p 2 = 0 then u8 p 3 else 5 + u8 p 3) →
      exec (.netRingSetup dt rq) s = .next (State.conclude opNetRingSetup rq p (Done.ok
        (((u.wr64 (Reg.NET_RING_BASE_LO_ADDR n k) (Reg.NET_RING_BASE_HI_ADDR n k) (u64 p 4)).wr (Reg.NET_RING_IRQ_EN_CORE n k) (u8 p 13)).ringResize
          n k (u8 p 12)) []))) ∧
    (Admits opNetModuleInfo dt rq s u p → ∀ pl, pl = (opNetModuleInfo.run u (ctxOf rq) p).payload → pl.length = 88 ∧
      ((u.bus (u8 p 0)).seen = none → pl = zeros 88) ∧ ((u.bus (u8 p 0)).seen ≠ none → pl.take 1 = be8 (u8 p 0)) ∧
      exec (.netModuleInfo dt rq) s = .next (State.conclude opNetModuleInfo rq p (Done.ok u pl)))

/-- The NET_FLOW commands, each executed and answered. -/
def Obligations.FlowCommandsComplete : Prop :=
  ∀ (dt : Nat) (rq : Req) (s u : State) (p : List Byte),
    (Admits opNetFlowRx dt rq s u p → ∀ f i e, f = flowOfPayload false p u.now → u.freeFlow false = some i → u.pickEngine f = some e →
      ∀ legs, legs = (f.legs.map fun (l : FlowLeg) => if isGroup f.ipv6 l.dest then { l with reports := 1, reportAt := u.now } else l) →
      ∀ g, g = { f with index := i, engine := e, legs := legs } →
      ∀ t, t = { u with net := { u.net with flows := u.net.flows ++ [g], lastFlow := g.handle } } →
      ∀ v, v = g.legs.foldl (fun t l => t.sendReport g l (if g.opt then 5 else 4)) (if g.onSlot ∧ !g.isAudio
        then (t.flowMembers g).foldl (fun t m => t.beginMeasure (slotKey m f.quarter)) t else t) →
      (evaluate u v []).fails = 0 →
      exec (.netFlowRx dt rq) s = .next (State.conclude opNetFlowRx rq p (weighed u (Done.ok v (v.flowReply g))))) ∧
    (Admits opNetFlowTx dt rq s u p → ∀ f i e, f = flowOfPayload true p u.now → (f.srtp = true → u.slotStatus f.vslot .srtp = 0) →
      u.freeFlow true = some i → u.pickEngine f = some e →
      ∀ g, g = { f with index := i, engine := e, startAt := u.leadEnd, vgen := if f.srtp then (u.slot f.vslot).gen else 0 } →
      ∀ v, v = { u with net := { u.net with flows := u.net.flows ++ [g], lastFlow := g.handle } } →
      (evaluate u v []).fails = 0 →
      exec (.netFlowTx dt rq) s = .next (State.conclude opNetFlowTx rq p (weighed u (Done.ok v (v.flowReply g))))) ∧
    (Admits opNetFlowDel dt rq s u p → ∀ f, u.flowByHandle (u32 p 0) = some f → f.deleting = none →
      exec (.netFlowDel dt rq) s = .next (State.conclude opNetFlowDel rq p (if f.busy
        then Done.pending ((u.putFlow { f with deleting := some (u8 p 4 == 1) }).await ⟨rq.tag, rq.session, 0, .object 9 f.handle, none⟩) []
        else Done.pending ((u.removeFlow f (u8 p 4 == 1)).await ⟨rq.tag, rq.session, 0, .instant u.now, none⟩) [])))

/-- The AUD commands, each executed and answered. -/
def Obligations.AudioCommandsComplete : Prop :=
  ∀ (dt : Nat) (rq : Req) (s u : State) (p : List Byte),
    (Admits opAudRoute dt rq s u p → ∀ k n, k = (if u16 p 2 = 1 then u64 p 8 else u.routeCount) → n = u.eph.lastOrder + 1 →
      ∀ v, v = (audEntries p).foldl (fun t o => t.putSink { t.sink (u16 p o) with changes := (t.sink (u16 p o)).changes ++ [audChange p o k n] })
        { u with eph := { u.eph with lastOrder := n } } →
      ∀ w, w = v.await ⟨rq.tag, rq.session, 0, .object 10 k, none⟩ → (evaluate u w []).fails = 0 →
      exec (.audRoute dt rq) s = .next (State.conclude opAudRoute rq p (weighed u (Done.pending w (be64 k))))) ∧
    (Admits opAudPortConfig dt rq s u p → ∀ v, v = (audRecords p (u16 p 0) 4).foldl (fun t o => t.applyAudRecord p o) u →
      (evaluate u v []).fails = 0 →
      exec (.audPortConfig dt rq) s = .next (State.conclude opAudPortConfig rq p (weighed u (Done.ok v [])))) ∧
    (Admits opAudRateStatus dt rq s u p → ∀ entry : Nat → List Byte, (∀ n, entry n = be16 n ++ be8 (u.declaredClass (u8 p 0) n) ++
        be8 (u.rateRec (u8 p 0) n).cls ++ be32 (u.rateRec (u8 p 0) n).count ++ be32 (toBits 32 (u.rateRec (u8 p 0) n).offset)) →
      exec (.audRateStatus dt rq) s = .next (State.conclude opAudRateStatus rq p
        (Done.ok u (be32 (u16 p 4) ++ (List.range (u16 p 4)).flatMap fun i => entry (u16 p 2 + i)))))

/-- The MVW commands, each executed and answered with the state, status and payload written out.
What an entry with ENABLE clear is checked for is the model's choice of log entry 51. -/
def Obligations.MultiviewerCommandsComplete : Prop :=
  ∀ (dt : Nat) (rq : Req) (s u : State) (p : List Byte),
    (Admits opMvwLayerSet dt rq s u p → ∀ x base, x = u.head (u8 p 0) → base = (if bit (u8 p 2) 0 then x.shadow.clear else x.shadow) →
      exec (.mvwLayerSet dt rq) s = .next (State.conclude opMvwLayerSet rq p
        (Done.ok (u.putHead { x with shadow := (layerOffsets (u8 p 1)).foldl (u.layerEntry p) base }) []))) ∧
    (Admits opMvwHeadConfig dt rq s u p → ∀ h en fmt g c, h = u8 p 0 → en = bit (u8 p 1) 0 →
      fmt = (if en then u8 p 2 else (u.headAt h u.leadEnd).fmt) → g = (if en then u8 p 3 else (u.headAt h u.leadEnd).gen) →
      c = (⟨u.headFrame fmt g u.leadEnd, u.changeId, some (en, u8 p 2, u8 p 3, u8 p 4, u32 p 8), none, [], fmt, g, u.leadEnd⟩ : HeadChange) →
      ∀ v w, v = u.admitChange h c →
      w = (if en then (u.headForm h (u.changesBefore h c)).sets.videos.foldl (fun t x => t.takePorts 2 (layerUser h x.1 false) true x.2.source g) v
        else v).await ⟨rq.tag, rq.session, 0, .object 12 u.changeId, none⟩ → (evaluate u w []).fails = 0 →
      exec (.mvwHeadConfig dt rq) s = .next (State.conclude opMvwHeadConfig rq p (weighed u (Done.pending w
        (frameRefBytes g c.frame ++ be8 (v.changeEngines h u.changeId) ++ zeros 3 ++ be16 (slotNo (headSlot h (u8 p 2))) ++ zeros 2))))) ∧
    (Admits opMvwCommit dt rq s u p → ∀ hs, hs = maskHeads (u16 p 0) →
      (hs.any fun h => (u.head h).waiting.any fun (w : HeadChange) => w.commit.isSome) = true →
      exec (.mvwCommit dt rq) s = .next (State.conclude opMvwCommit rq p (Done.err u stBusy 0xFFFF))) ∧
    (Admits opMvwCommit dt rq s u p → ∀ hs at_ id, hs = maskHeads (u16 p 0) → at_ = (if bit (u8 p 2) 0 then u.takeTime (timeAt p 4) else u.leadEnd) →
      id = u.changeId → (hs.any fun h => (u.head h).waiting.any fun (w : HeadChange) => w.commit.isSome) = false →
      ∀ f : Nat → Nat, (∀ h, f h = u.headFrame (u.headAt h at_).fmt (u.headAt h at_).gen at_) →
      ∀ w, w = (hs.foldl (fun t h => t.admitHead h (f h) id at_ (u.headAt h at_)) u).await ⟨rq.tag, rq.session, 0, .object 11 id, none⟩ →
      (evaluate u w []).fails = 0 →
      exec (.mvwCommit dt rq) s = .next (State.conclude opMvwCommit rq p (weighed u (Done.pending w (be32 hs.length ++
        hs.flatMap fun h => be8 h ++ be8 (w.changeEngines h id) ++ zeros 2 ++ frameRefBytes (u.headAt h at_).gen (f h)))))) ∧
    (Admits opMvwGraphicLoad dt rq s u p → (u.mvw.loads.any fun l => l.kind == u8 p 0 && l.target == u32 p 4) = true →
      exec (.mvwGraphicLoad dt rq) s = .next (State.conclude opMvwGraphicLoad rq p (Done.err u stBusy 0xFFFF))) ∧
    (Admits opMvwGraphicLoad dt rq s u p → (u.mvw.loads.any fun l => l.kind == u8 p 0 && l.target == u32 p 4) = false →
      u8 p 0 = 0 → bit (u8 p 1) 0 = true →
      ∀ v, v = { u with mvw := { u.mvw with graphics := u.mvw.graphics.filter fun g => g.handle != u32 p 4 } }.freeBuffer 3 (u32 p 4) →
      ∀ w, w = v.await ⟨rq.tag, rq.session, 0, .instant u.now, none⟩ → (evaluate u w []).fails = 0 →
      exec (.mvwGraphicLoad dt rq) s = .next (State.conclude opMvwGraphicLoad rq p (weighed u (Done.pending w (be32 (u32 p 4)))))) ∧
    (Admits opMvwGraphicLoad dt rq s u p → (u.mvw.loads.any fun l => l.kind == u8 p 0 && l.target == u32 p 4) = false →
      u8 p 0 ≠ 0 → ∀ id, id = (u.mvw.loads.map fun (l : GfxLoad) => l.id).foldl max 0 + 1 →
      ∀ m, m = { u.mvw with loads := u.mvw.loads ++ [⟨u8 p 0, u32 p 4, u16 p 8, u16 p 10, u64 p 16, u32 p 24, id⟩] } →
      ∀ w, w = { u with mvw := m }.await ⟨rq.tag, rq.session, 0, .object 13 id, none⟩ → (evaluate u w []).fails = 0 →
      exec (.mvwGraphicLoad dt rq) s = .next (State.conclude opMvwGraphicLoad rq p (weighed u (Done.pending w (be32 (u32 p 4)))))) ∧
    (Admits opMvwGraphicLoad dt rq s u p → (u.mvw.loads.any fun l => l.kind == u8 p 0 && l.target == u32 p 4) = false →
      u8 p 0 = 0 → bit (u8 p 1) 0 = false → u32 p 4 = 0 → 1024 ≤ u.mvw.graphics.length →
      exec (.mvwGraphicLoad dt rq) s = .next (State.conclude opMvwGraphicLoad rq p (Done.err u stBusy 0xFFFF))) ∧
    (Admits opMvwGraphicLoad dt rq s u p → (u.mvw.loads.any fun l => l.kind == u8 p 0 && l.target == u32 p 4) = false →
      u8 p 0 = 0 → bit (u8 p 1) 0 = false → (u32 p 4 = 0 → u.mvw.graphics.length < 1024) →
      ∀ o id, o = (if u32 p 4 = 0 then u.mvw.lastGraphic + 1 else u32 p 4) → id = (u.mvw.loads.map fun (l : GfxLoad) => l.id).foldl max 0 + 1 →
      ∀ m, m = { u.mvw with
        graphics := u.mvw.graphics ++ if u32 p 4 = 0 then [⟨o, u16 p 8, u16 p 10, [], false, false⟩] else []
        lastGraphic := max u.mvw.lastGraphic o
        loads := u.mvw.loads ++ [⟨0, o, u16 p 8, u16 p 10, u64 p 16, u32 p 24, id⟩] } →
      ∀ w, w = ({ u with mvw := m }.allocBuffer 7 o (u8 p 12) (u16 p 8 * u16 p 10 * 4)).2.await ⟨rq.tag, rq.session, 0, .object 13 id, none⟩ →
      (evaluate u w []).fails = 0 →
      exec (.mvwGraphicLoad dt rq) s = .next (State.conclude opMvwGraphicLoad rq p (weighed u (Done.pending w (be32 o)))))

/-- The ENC commands, each executed and answered with the state, status and payload written out. -/
def Obligations.EncoderCommandsComplete : Prop :=
  ∀ (dt : Nat) (rq : Req) (s u : State) (p : List Byte),
    (Admits opEncChannelCreate dt rq s u p → u.freeEnc (decide ((encOfPayload p).codec < 2)) = none →
      exec (.encChannelCreate dt rq) s = .next (State.conclude opEncChannelCreate rq p (Done.err u stBusy 0xFFFF))) ∧
    (Admits opEncChannelCreate dt rq s u p → ∀ x h f0 n d per skip, x = encOfPayload p → u.freeEnc (decide (x.codec < 2)) = some h →
      f0 = u.target x.gen u.leadEnd → n = u.encN x → d = u.encD x → per = (if x.codec < 2 then max 1 x.n else 1) →
      skip = (if meridianAt n d f0 < u.chrono then (frameAt n d u.chrono + 1 - f0 + (per - 1)) / per * per else 0) →
      ∀ e y, e = (if x.codec < 2 then enginesFor x.width x.height n d else 0) →
      y = { x with handle := h, f0 := f0, pic := skip, start := skip, pc := if x.codec < 2 then skip / per else 0, frame := f0 + skip
                   m0 := meridianAt n d (f0 + skip), engines := u.encFree.take e } →
      ∀ t v w, t = { u with enc := { u.enc with chans := u.enc.chans ++ [y] } } →
      v = t.takePorts (if x.codec < 2 then 3 else 4) h false (t.encSource y) x.gen →
      w = ((((if x.codec < 2 then (v.allocBuffer 4 h x.set y.refBytes).2 else v).encRegs.wr (Reg.ENC_CH_STAT_ENGINES y.block) y.engines.length).wr
        (Reg.ENC_CH_STAT_DIVERGED y.block) 0).await ⟨rq.tag, rq.session, 0, .object 15 h, none⟩) →
      (evaluate u w []).fails = 0 →
      exec (.encChannelCreate dt rq) s = .next (State.conclude opEncChannelCreate rq p (weighed u ⟨w, stPending,
        be32 h ++ be8 y.engines.length ++ be8 (if x.codec < 2 then teamSize e else 0) ++
          be8 (if x.codec < 2 then e / max 1 (teamSize e) else 0) ++ be8 (u.encLevel x) ++ frameRefBytes x.gen f0 ++ be32 (w.encDelay y) ++
          be16 (if x.codec < 2 then u.headerBits x / 8 else 0) ++ zeros 2, encTrailer h x.gen f0⟩))) ∧
    (Admits opEncChannelDelete dt rq s u p → ∀ x, u.encChan (u32 p 0) = some x → x.deleting.isSome = true →
      exec (.encChannelDelete dt rq) s = .next (State.conclude opEncChannelDelete rq p (Done.err u stBusy 0xFFFF))) ∧
    (Admits opEncChannelDelete dt rq s u p → ∀ x f, u.encChan (u32 p 0) = some x → x.deleting = none → f = x.stopFrame (bit (u8 p 4) 0) →
      exec (.encChannelDelete dt rq) s = .next (State.conclude opEncChannelDelete rq p
        ⟨((u.putEnc { x with deleting := some (x.pic + (f - x.frame)) }).await ⟨rq.tag, rq.session, 0, .object 14 (u32 p 0), none⟩).endChannel (u32 p 0),
          stPending, [], encTrailer (u32 p 0) x.gen f⟩)) ∧
    (Admits opEncChannelDelete dt rq s u p → ∀ x r f, u.encChan (u32 p 0) = none → u.decoder (u32 p 0) = some x →
      r = (u.net.flows.find? fun f => !f.tx && f.handle == x.flow).bind (fun (f : Flow) => f.releasing) →
      f = (match r with
        | some k => k.1 + 1
        | none => u.decoderFrame x.flow u.chrono) →
      ∀ ds, ds = (u.enc.decs.map fun (y : XsDecoder) => if y.d = x.d then { y with deleting := some f } else y) →
      ∀ v, v = { u with enc := { u.enc with decs := ds } }.await ⟨rq.tag, rq.session, 0, .object 14 (u32 p 0), none⟩ →
      exec (.encChannelDelete dt rq) s = .next (State.conclude opEncChannelDelete rq p
        ⟨if r.isSome then v else v.endDecoder x.d, stPending, [], encTrailer (u32 p 0) (u.decoderGen x.flow) f⟩)) ∧
    (Admits opEncRateSet dt rq s u p → ∀ x f q id, u.encChan (u32 p 0) = some x → f = u.rateFrame x → q = (if bit (u8 p 4) 0 then some (u8 p 5) else none) →
      id = (u.enc.chans.flatMap fun (y : EncChan) => y.rates.map fun (r : RateChange) => r.id).foldl max 0 + 1 →
      ∀ v, v = (u.putEnc { x with rates := x.rates ++ [⟨u64 p 8, q, f, id⟩] }).await ⟨rq.tag, rq.session, 0, .object 18 id, none⟩ →
      (evaluate u v []).fails = 0 →
      exec (.encRateSet dt rq) s = .next (State.conclude opEncRateSet rq p
        (weighed u ⟨v, stPending, frameRefBytes x.gen f, encTrailer x.handle x.gen f⟩))) ∧
    (Admits opEncStatus dt rq s u p → ∀ h v b delay head body, h = u32 p 0 → v = (if bit (u8 p 4) 0 then (encCounters b).foldl (fun t f => t.wr f 0) u else u) →
      body = be32 (u.rd (Reg.ENC_CH_CLAMP_COUNT b)) ++ be32 (u.rd (Reg.ENC_CH_MIN_COUNT b)) ++ be32 (u.rd (Reg.ENC_CH_LATE_COUNT b)) ++
        be32 (u.rd (Reg.ENC_CH_DIVERGE_COUNT b)) ++ be32 (u.rd (Reg.ENC_CH_WITHHELD_COUNT b)) ++ be32 delay ++ be32 (u.rd (Reg.ENC_CH_LOST_COUNT b)) ++ zeros 4 →
      (∀ x run, u.encChan h = some x → b = x.block → delay = u.encDelay x → run = u.flag (Reg.ENC_CH_STAT_RUN b) →
        head = be32 h ++ be8 x.codec ++
          be8 (b01 run + 2 * b01 u.authority + 4 * b01 (u.diverged x) + 8 * b01 (u.flag (Reg.ENC_CH_STAT_DEGRADED b)) + 16 * b01 (!run)) ++
          be8 x.engines.length ++ be8 (u.encLevel x) ++ be64 x.done ++ be64 ((x.shownBook.map fun (k : Book) => k.period).getD 0) ++
          be32 (u.rd (Reg.ENC_CH_BUDGET_BYTES b)) ++ be32 (u.rd (Reg.ENC_CH_USED_BYTES b)) →
        exec (.encStatus dt rq) s = .next (State.conclude opEncStatus rq p (Done.ok v (head ++ body)))) ∧
      (∀ x f, u.encChan h = none → u.decoder h = some x → b = 112 + x.d → f = u.net.flows.find? (fun f => !f.tx && f.handle == x.flow) →
        delay = (f.map fun (f : Flow) => f.timing).getD 0 →
        head = be32 h ++ be8 (if (f.map fun (f : Flow) => f.sampling).getD 0 = 0 then 2 else 3) ++
          be8 (b01 x.next.isSome + 2 * b01 u.authority + 16 * b01 x.next.isNone) ++ zeros 2 ++ zeros 24 →
        exec (.encStatus dt rq) s = .next (State.conclude opEncStatus rq p (Done.ok v (head ++ body))))) ∧
    (Admits opEncXsDecodeCreate dt rq s u p → u8 p 4 = 0xFF →
      (List.range 64).find? (fun d => !(u.enc.decs.any fun x => x.d == d) && u.isReady 0x19 d) = none →
      exec (.encXsDecodeCreate dt rq) s = .next (State.conclude opEncXsDecodeCreate rq p (Done.err u stBusy 0xFFFF))) ∧
    (Admits opEncXsDecodeCreate dt rq s u p → ∀ n f0, (if u8 p 4 = 0xFF then (List.range 64).find? fun d =>
        !(u.enc.decs.any fun x => x.d == d) && u.isReady 0x19 d else some (u8 p 4)) = some n → f0 = u.decoderFrame (u32 p 0) u.leadEnd →
      ∀ (t : State) (k : Nat), t = { u with enc := { u.enc with decs := u.enc.decs ++
          [(⟨n, u32 p 0, none, if u.twinOn then f0 else 0, none, none⟩ : XsDecoder)] } }.encRegs →
      k = (match t.flowByHandle (u32 p 0) with
        | some f => (t.asWriter f).slotKey
        | none => 1168 + n) →
      (evaluate u (t.beginMeasure k) []).fails = 0 →
      exec (.encXsDecodeCreate dt rq) s = .next (State.conclude opEncXsDecodeCreate rq p (weighed u ⟨t.beginMeasure k, stOk,
        be32 (0x50000 + n) ++ be8 n ++ zeros 1 ++ be16 (slotNo k), encTrailer (0x50000 + n) (u.decoderGen (u32 p 0)) f0⟩)))

/-- The TIM commands, each executed and answered (R379, R382, R386-R389).
Log entries 139 and 143 are the model's choices here. -/
def Obligations.TimeCommandsComplete : Prop :=
  ∀ (dt : Nat) (rq : Req) (s u : State) (p : List Byte),
    (Admits opTimDomainConfig dt rq s u p → exec (.timDomainConfig dt rq) s = .next (State.conclude opTimDomainConfig rq p
      (Done.ok (if u8 p 0 < 2 then u.configDomain (u8 p 0) p else u.configRelay p) []))) ∧
    (Admits opTimStatus dt rq s u p → ∃ pl, pl.length = 64 ∧ pl.take 2 = be8 (u.rd Reg.TIM_STAT_STATE) ++ be8 (u.rd Reg.TIM_STAT_SEL) ∧
      exec (.timStatus dt rq) s = .next (State.conclude opTimStatus rq p (Done.ok u pl))) ∧
    (Admits opTimPulseProgram dt rq s u p → bit (u8 p 1) 0 = true → ∀ x g first k w, x = u.tp (u8 p 0) → g = pulseOf p →
      first = g.edge (g.resume u.leadEnd).next → k = max first (x.busyAt first) → w = g.resume k →
      exec (.timPulseProgram dt rq) s = .next (State.conclude opTimPulseProgram rq p (Done.ok
        ((u.tpRegs (u8 p 0) true g).modTp (u8 p 0) fun y => { y with waiting := (x.waiting.filter fun v => decide (v.1 < k)) ++ [(k, w)] })
        (timeBytes (w.edge w.next) ++ zeros 4)))) ∧
    (Admits opTimPulseProgram dt rq s u p → bit (u8 p 1) 0 = false →
      exec (.timPulseProgram dt rq) s = .next (State.conclude opTimPulseProgram rq p (Done.ok
        (((u.wr (Reg.TIM_PULSE_CTL_EN (u8 p 0)) 0).wr (Reg.TIM_PULSE_STAT_ARMED (u8 p 0)) 0).modTp (u8 p 0)
          fun y => { y with prog := none, waiting := [] }) (timeBytes 0 ++ zeros 4)))) ∧
    (Admits opTimRestep dt rq s u p → 2 ≤ u.rd Reg.TIM_STAT_STATE → (u.rd Reg.TIM_STAT_SEL = 1 ∨ u.rd Reg.TIM_STAT_SEL = 2) →
      u.tim.stepAt = none → ∀ v, v = u.decideStep (some (rq.session, rq.tag)) none →
      exec (.timRestep dt rq) s = .next (State.conclude opTimRestep rq p
        { Done.pending v [] with stamp := be16 1 ++ zeros 2 ++ be32 0 ++ frameRefBytes 0 (v.tim.stepAt.getD 0 / 1000000000) })) ∧
    (Admits opTimRestep dt rq s u p → (u.rd Reg.TIM_STAT_STATE < 2 ∨ u.rd Reg.TIM_STAT_SEL ≠ 1 ∧ u.rd Reg.TIM_STAT_SEL ≠ 2) →
      exec (.timRestep dt rq) s = .next (State.conclude opTimRestep rq p (Done.err u stNotReady 0xFFFF))) ∧
    (Admits opTimRestep dt rq s u p → 2 ≤ u.rd Reg.TIM_STAT_STATE → (u.rd Reg.TIM_STAT_SEL = 1 ∨ u.rd Reg.TIM_STAT_SEL = 2) →
      u.tim.stepAt.isSome = true → exec (.timRestep dt rq) s = .next (State.conclude opTimRestep rq p (Done.err u stBusy 0xFFFF)))

/-- The REF commands, each executed and answered (R409-R416). -/
def Obligations.ReferenceCommandsComplete : Prop :=
  ∀ (dt : Nat) (rq : Req) (s u : State) (p : List Byte),
    (Admits opRefTableSet dt rq s u p → exec (.refTableSet dt rq) s =
      .next (State.conclude opRefTableSet rq p (Done.ok (u.modRef fun r => { r with staged := some p }) []))) ∧
    (Admits opRefStatus dt rq s u p → ∃ pl, pl.length = 144 ∧ pl.take 1 = be8 (u.rd Reg.REF_STAT_STATE) ∧
      exec (.refStatus dt rq) s = .next (State.conclude opRefStatus rq p (Done.ok u pl))) ∧
    (Admits opRefFramepulse dt rq s u p → u8 p 0 = 6 → ∀ v, v = (u.wr Reg.REF_ACLK_EN (u8 p 1 % 2)).wr Reg.REF_ACLK_SEL (u8 p 2) →
      exec (.refFramepulse dt rq) s = .next (State.conclude opRefFramepulse rq p (Done.ok (State.clockChanged u v 2) []))) ∧
    (Admits opRefFramepulse dt rq s u p → ∀ n, u8 p 0 = 4 + n → n < 2 →
      ∀ v, v = ((u.wr (Reg.REF_VCLK_EN n) (u8 p 1 % 2)).wr (Reg.REF_VCLK_FAMILY1 n) (u8 p 1 / 8 % 2)).wr (Reg.REF_VCLK_SEL n) (u8 p 2) →
      exec (.refFramepulse dt rq) s = .next (State.conclude opRefFramepulse rq p (Done.ok (State.clockChanged u v n) []))) ∧
    (Admits opRefFramepulse dt rq s u p → ∀ o f, o = u8 p 0 → f = u8 p 1 → o < 4 →
      ∀ v, v = [(Reg.REF_FP_CTL_EN o, f % 2), (Reg.REF_FP_CTL_ACTIVE_LOW o, f / 2 % 2), (Reg.REF_FP_CTL_JUMP o, f / 4 % 2), (Reg.REF_FP_CTL_SRC o, u8 p 2),
        (Reg.REF_FP_WIDTH_NS o, u32 p 4), (Reg.REF_FP_OFS_NS o, u32 p 8)].foldl (fun t w => t.wr w.1 w.2) u →
      (v.flag (Reg.REF_FP_CTL_EN o) = true →
        ∀ w, w = (if u.rd (Reg.REF_FP_CTL_SRC o) = v.rd (Reg.REF_FP_CTL_SRC o) then v
          else ((v.modFp o fun x => { x with flywheel := false, broken := false }).endCause 0x2B08 srcRef o).fpRebase o) →
        ∀ z, z = (w.fpPlan o).fpLevel o (w.fpOut o).endsAt.isSome →
        exec (.refFramepulse dt rq) s = .next (State.conclude opRefFramepulse rq p (Done.ok z (timeBytes (z.fpOut o).next ++ zeros 4)))) ∧
      (v.flag (Reg.REF_FP_CTL_EN o) = false →
        ∀ z, z = (((v.modFp o fun _ => FpOut.reset).endCause 0x2B08 srcRef o).fpStat o).fpLevel o false →
        exec (.refFramepulse dt rq) s = .next (State.conclude opRefFramepulse rq p (Done.ok z (timeBytes (z.fpOut o).next ++ zeros 4)))))

/-- The MEM and TWN commands, each executed and answered (R448-R451, R508-R510). -/
def Obligations.MemoryAndTwinCommandsComplete : Prop :=
  ∀ (dt : Nat) (rq : Req) (s u : State) (p : List Byte),
    (Admits opMemMapSet dt rq s u p → ∀ v, v = (u.regionChanges (u.mapAll p (u8 p 0) 8)).refreshSets.storeChanged → (evaluate u v []).fails = 0 →
      exec (.memMapSet dt rq) s = .next (State.conclude opMemMapSet rq p (weighed u (Done.ok v [])))) ∧
    (Admits opMemPasrSet dt rq s u p → ∀ v, v = u.wr (Reg.MEM_SET_PASR_MASK (u8 p 0)) (u8 p 1) → (evaluate u v []).fails = 0 →
      exec (.memPasrSet dt rq) s = .next (State.conclude opMemPasrSet rq p (weighed u (Done.ok v [])))) ∧
    (Admits opMemTrain dt rq s u p → (∀ c ∈ maskChannels (u64 p 0), u.present 0x12 c = true ∧ u.domOn (capDomain 0x12 c) = true) →
      exec (.memTrain dt rq) s = .next (State.conclude opMemTrain rq p (u.startTraining (ctxOf rq) p (maskChannels (u64 p 0)) none none))) ∧
    (Admits opTwnConfig dt rq s u p → (bit (u8 p 0) 0 = true → u.slotStatus (u16 p 6) .twin ≠ stKeyRevoked ∧ u.slotStatus (u16 p 8) .lookout ≠ stKeyRevoked) →
      exec (.twnConfig dt rq) s = .next (State.conclude opTwnConfig rq p (Done.ok
        (if bit (u8 p 0) 0 = true ∧ u.twinOn = false then (u.twinSettings p).twinStart
          else if bit (u8 p 0) 0 = false ∧ u.twinOn = true then u.twinStop.twinSettings p else u.twinSettings p) []))) ∧
    (Admits opTwnStatus dt rq s u p → ∃ pl, pl.take 3 = be8 u.role ++ be8 (u.rd Reg.TWN_STAT_PARTNER) ++ be8 (u.rd Reg.TWN_STAT_RESYNC) ∧
      exec (.twnStatus dt rq) s = .next (State.conclude opTwnStatus rq p (Done.ok u pl))) ∧
    (Admits opTwnLeaseRequest dt rq s u p → ∀ w : Waits, w = .object 16 (u.now + u.twn.validityMs * 1000000 + 10000000) →
      exec (.twnLeaseRequest dt rq) s = .next (State.conclude opTwnLeaseRequest rq p (Done.pending
        (if u8 p 0 = 2 then u.releaseLease.await ⟨rq.tag, rq.session, 0, .instant u.now, none⟩
          else if u8 p 0 = 1 then (if u.flag Reg.TWN_STAT_FENCE_PIN then u else u.lookoutSend 1).await ⟨rq.tag, rq.session, 0, w, none⟩
          else (u.twinSend 6 []).await ⟨rq.tag, rq.session, 0, w, none⟩) []))) ∧
    (Admits opTwnResync dt rq s u p → exec (.twnResync dt rq) s = .next (State.conclude opTwnResync rq p (if u8 p 0 = 1
      then Done.pending (u.startResync.await ⟨rq.tag, rq.session, 0, .object 17 0, none⟩) []
      else Done.ok ({ u with twn := { u.twn with mirrorQueue := [], resyncWanted := false } }.wr Reg.TWN_STAT_RESYNC 0) [])))

/-- What a register write does that the bus takes, and one that it refuses (R6, R13, R14, R579-R581, R584).
What a write of MVW_IND_DATA reaches of a graphic layer, a bar and a coefficient set is the model's choice of log entry 58. -/
def Obligations.RegisterWritesReachTheirFields : Prop :=
  ∀ (dt m w off v : Nat) (s u : State), u = s.elapse dt → w < 256 → 8 ≤ off → off < windowSpan w →
    (Accepts u m w off → postedWindow w = false → w ≠ 0 → indirectData w off = false → ¬(w = 1 ∧ off = 0x40) → ∀ x, x = v % 2 ^ 32 →
      exec (.registerWrite dt m (regAddr w off) 32 v) s =
        .next (((State.written u (u.writeFields m w off x) w off x).noteBypass m w off).respond m true [])) ∧
    (Accepts u m 1 0x40 → ∀ x y, x = v % 2 ^ 32 → y = u.listLimit → exec (.registerWrite dt m (regAddr 1 0x40) 32 v) s =
      .next (((State.written y (y.writeFields m 1 0x40 x) 1 0x40 x).noteBypass m 1 0x40).respond m true [])) ∧
    (Accepts u m w off → postedWindow w = false → w ≠ 0 → indirectData w off = true → ∀ x y, x = v % 2 ^ 32 → y = u.wr (u.indirectPlace w off) x →
      exec (.registerWrite dt m (regAddr w off) 32 v) s =
        .next (((if w = 0x0D then y.mvwIndirect (u.indirectIndex w off) x else y).noteBypass m w off).respond m true [])) ∧
    (Accepts u m w off → postedWindow w = true →
      ∀ t, t = { u with pwr := { u.pwr with posted := u.pwr.posted ++ [(w, m, off, 32, v)] } }.respond m true [] →
      exec (.registerWrite dt m (regAddr w off) 32 v) s = .next t ∧
      t.landPosted w = (u.respond m true []).putWord m w off (v % 2 ^ 32)) ∧
    (u.masterRuns m = true → ∀ k, u.registerRefusal m (regAddr w off) off 32 true = some k →
      exec (.registerWrite dt m (regAddr w off) 32 v) s = .next ((u.refuseAccess m (regAddr w off) k).respond m false [])) ∧
    (∀ p, u.pwr.posted.find? (fun q => q.1 == w) = some p → exec (.postedWriteLand dt w) s =
      .next ({ u with pwr := { u.pwr with posted := u.pwr.posted.erase p } }.putBits p.2.1 w p.2.2.1 p.2.2.2.1 p.2.2.2.2)) ∧
    (u.pwr.posted.find? (fun q => q.1 == w) = none → exec (.postedWriteLand dt w) s = .next u) ∧
    (Accepts u m w 4 → postedWindow w = false → exec (.blkStatWrite dt m w v) s = .next ((u.blkStatWrite w (v % 2 ^ 32)).respond m true [])) ∧
    (∀ us, u.windowPresent w = true → u.domOn (windowDomain w) = true →
      exec (.voteScrub dt w us) s = .next (us.foldl (fun t e => t.voteField w e) u))

/-- The register rows of FAB, EPH, AUD, MVW, ENC and MEM (R98, R107, R153, R294, R301, R321, R361, R514).
The words behind the indirect pair of MVW lie as log entry 58 lays them out. -/
def Obligations.FabricAndMediaRegisterRows : Prop :=
  ∀ (dt m v x : Nat) (s u : State), u = s.elapse dt → x = v % 2 ^ 32 →
    (∀ q t, q < 6144 → Accepts u m 9 (0x1000 + 4 * q) → t = u.writeFields m 9 (0x1000 + 4 * q) x →
      ∀ a b, a = u.selCur q → b = t.selCur q →
      ((a == b) = true → exec (.fabSelCurWrite dt m q v) s = .next ((t.noteBypass m 9 (0x1000 + 4 * q)).respond m true [])) ∧
      ((a == b) = false → ∀ z, z = (if a.valid == b.valid then t else t.putPort { t.port q with raster := none, whole := !t.outSplit (q / 4) }) →
        exec (.fabSelCurWrite dt m q v) s = .next ((((z.bump Reg.FAB_DIRTY_COUNT 1).raiseWithin (t.frameGap b.gen) 0x200D srcFabric
          (slotObject (t.outKey q))).noteBypass m 9 (0x1000 + 4 * q)).respond m true []))) ∧
    (∀ t, Accepts u m 9 0x20 → t = u.writeFields m 9 0x20 x →
      exec (.fabLdSnap dt m v) s = .next (((if bit x 0 then t.deckSnap else t).noteBypass m 9 0x20).respond m true [])) ∧
    (∀ g t, g < 16 → Accepts u m 0x0A (0x100 + 0x40 * g) →
      t = (u.writeFields m 0x0A (0x100 + 0x40 * g) x).genEnabled g (u.rd (Reg.EPH_GEN_CTL_EN g)) →
      ∀ z : State, z = ((if bit x 1 then t.genLoad g else t).noteBypass m 0x0A (0x100 + 0x40 * g)).respond m true [] →
      exec (.ephGenLoad dt m g v) s = .next z ∧ exec (.ephGenEnWrite dt m g v) s = .next z) ∧
    (∀ t, Accepts u m 0x0C 0x24 → t = u.writeFields m 0x0C 0x24 x →
      exec (.audSnap dt m v) s = .next (((if bit x 0 then t.audSnap else t).noteBypass m 0x0C 0x24).respond m true [])) ∧
    (∀ t, Accepts u m 0x0C 0x14 → t = u.writeFields m 0x0C 0x14 x →
      exec (.audClkWrite dt m v) s = .next (((t.audClkChanged (u.rd Reg.AUD_CLK_EN) (u.rd Reg.AUD_CLK_RATE96)).noteBypass m 0x0C 0x14).respond m true [])) ∧
    (∀ a t, 8 ≤ a → a < 0x10000 → Accepts u m 0x0D a → indirectData 0x0D a = false → t = u.writeFields m 0x0D a x →
      exec (.mvwCurrentWrite dt m a v) s = .next (((State.mvwWritten u t a).noteBypass m 0x0D a).respond m true [])) ∧
    (∀ a, 8 ≤ a → a < 0x10000 → Accepts u m 0x0D a → indirectData 0x0D a = true →
      exec (.mvwCurrentWrite dt m a v) s =
        .next ((((u.wr (u.indirectPlace 0x0D a) x).mvwIndirect (u.indirectIndex 0x0D a) x).noteBypass m 0x0D a).respond m true [])) ∧
    (∀ hi off t, off = (if hi then 0x24 else 0x20) → Accepts u m 0x0E off → t = u.writeFields m 0x0E off x →
      exec (.encEngEnWrite dt m hi v) s = .next (((State.encWritten u t off).noteBypass m 0x0E off).respond m true [])) ∧
    (∀ a t, 0x100 ≤ a → a < 0x10000 → Accepts u m 0x0F a → t = u.writeFields m 0x0F a x →
      exec (.memSetWrite dt m a v) s = .next ((((State.regionChanges u t).refreshSets.storeChanged).noteBypass m 0x0F a).respond m true []))

/-- The register rows of LNQ, NET, MGT and CYX (R37, R38, R159, R167, R171, R180, R192, R224, R235, R242, R246, R261). -/
def Obligations.LaneAndPortRegisterRows : Prop :=
  ∀ (dt m v x : Nat) (s u w : State), u = s.elapse dt → x = v % 2 ^ 32 → w = u.respond m true [] →
    (∀ l, l < 128 →
      (∀ n off, n = 0x10 + l / 4 → off = 0x100 + l % 4 * 0x100 + 0x1C → Accepts u m n off →
        exec (.lnqSleepWrite dt m l v) s = .next ((((w.writeFields m n off x).onSleepWrite l).noteBypass m n off).travel n)) ∧
      (∀ n off, n = 0x10 + l / 4 → off = 0x100 + l % 4 * 0x100 → Accepts u m n off →
        exec (.lnqLcfgWrite dt m l v) s = .next ((((w.writeFields m n off x).onLcfgWrite l (u.laneMode l)
          (u.rd (Reg.LNQ_LCFG_TX_EN l)) (u.rd (Reg.LNQ_LCFG_RX_EN l))).noteBypass m n off).travel n)) ∧
      (∀ n off, n = 0x10 + l / 4 → off = 0x100 + l % 4 * 0x100 + 0x10 → Accepts u m n off →
        ∀ z, z = (((w.writeFields m n off x).onAdaptWrite l (bit x 4) (u.rd (Reg.LNQ_ADAPT_FREEZE l))).noteBypass m n off).travel n →
        exec (.lnqAdaptRestart dt m l v) s = .next z ∧ exec (.lnqAdaptFreeze dt m l v) s = .next z) ∧
      (∀ n off, n = 0x10 + l / 4 → off = 0x100 + l % 4 * 0x100 + 0x14 → Accepts u m n off → bit x 31 = true →
        exec (.lnqFomMinclr dt m l v) s = .next ((((w.writeFields m n off x).wr (Reg.LNQ_FOM_MIN l) 255).noteBypass m n off).travel n)) ∧
      (∀ n off, n = 0x10 + l / 4 → off = 0x100 + l % 4 * 0x100 + 0x40 → Accepts u m n off →
        exec (.lnqPrbsWrite dt m l v) s = .next (((((w.writeFields m n off x).wr (Reg.LNQ_PRBS_ERR_COUNT l) 0).sendPattern l).noteBypass m n off).travel n)) ∧
      (∀ n off, n = 0x10 + l / 4 → off = 0x1000 + l % 4 * 0x100 → Accepts u m n off →
        exec (.lnqStxMaskGo dt m l v) s = .next (((if bit x 2 then (w.writeFields m n off x).onMaskGo l else w.writeFields m n off x).noteBypass m n off).travel n))) ∧
    (∀ p, p < 66 →
      (∀ k off, k < 9 → off = 0x108 + 0x20 * k → Accepts u m (0x60 + p) off → exec (.netRingSizeWrite dt m p k v) s =
        .next ((((u.writeFields m (0x60 + p) off x).ringResize p k (x % 16)).noteBypass m (0x60 + p) off).respond m true [])) ∧
      (∀ k off, k < 9 → off = 0x10C + 0x20 * k → Accepts u m (0x60 + p) off → exec (.netRingPiWrite dt m p k v) s =
        .next ((((u.writeFields m (0x60 + p) off x).ringPi p k (x % 4096)).noteBypass m (0x60 + p) off).respond m true [])) ∧
      (Accepts u m (0x60 + p) 0x10 → exec (.netCtlWrite dt m p v) s = .next ((((u.writeFields m (0x60 + p) 0x10 x).onNetCtl p
        (u.rd (Reg.NET_CTL_EN p)) (u.rd (Reg.NET_CTL_MODE p))).noteBypass m (0x60 + p) 0x10).respond m true []))) ∧
    (Accepts u m 0x60 0x800 → exec (.netFlowSnap dt m v) s = .next (((if bit x 31 then (u.writeFields m 0x60 0x800 x).flowSnap
      else u.writeFields m 0x60 0x800 x).noteBypass m 0x60 0x800).respond m true [])) ∧
    (Accepts u m 0xA0 0x604 → exec (.modXferGo dt m v) s = .next (((if bit x 5 then (u.writeFields m 0xA0 0x604 x).onModXfer
      else u.writeFields m 0xA0 0x604 x).noteBypass m 0xA0 0x604).respond m true [])) ∧
    (∀ n off, n < 8 →
      (off = 0x114 + 0x40 * n → Accepts u m 0xB0 off → exec (.cyxRqPiWrite dt m n v) s =
        .next (((State.cyxWritten u (u.writeFields m 0xB0 off x) off x).noteBypass m 0xB0 off).respond m true [])) ∧
      (off = 0x108 + 0x40 * n → Accepts u m 0xB0 off → exec (.cyxRingSizeWrite dt m n v) s =
        .next (((State.cyxWritten u (u.writeFields m 0xB0 off x) off x).noteBypass m 0xB0 off).respond m true [])) ∧
      (off = 0x120 + 0x40 * n → Accepts u m 0xB0 off → exec (.cyxRpCiWrite dt m n v) s =
        .next (((State.cyxWritten u (u.writeFields m 0xB0 off x) off x).noteBypass m 0xB0 off).respond m true [])))

/-- The register rows of SYS, TIM, REF, TWN, PWR, DMC, FLT and SKW (R390, R391, R418, R429, R453, R487, R504, R514, R536, R557). -/
def Obligations.SystemRegisterRows : Prop :=
  ∀ (dt m v x : Nat) (s u w : State), u = s.elapse dt → x = v % 2 ^ 32 → w = u.respond m true [] →
    (Accepts u m 1 0x10 → exec (.sysCtlRemapWrite dt m v) s = .next (((u.writeFields m 1 0x10 x).noteBypass m 1 0x10).respond m true [])) ∧
    (∀ t, Accepts u m 6 0x28 → t = w.writeFields m 6 0x28 x → exec (.timSnap dt m v) s =
      .next (((if bit x 0 then t.timSnap else t).noteBypass m 6 0x28).travel 6)) ∧
    (∀ t, Accepts u m 6 0x68 → t = w.writeFields m 6 0x68 x → exec (.timSetGo dt m v) s =
      .next (((if bit x 0 then t.timSetGo else t).noteBypass m 6 0x68).travel 6)) ∧
    (∀ p t, p < 8 → Accepts u m 6 (0x100 + 0x20 * p) → t = w.writeFields m 6 (0x100 + 0x20 * p) x → exec (.timPulseLoad dt m p v) s =
      .next (((if bit x 3 then t.timPulseLoad p else t).noteBypass m 6 (0x100 + 0x20 * p)).travel 6)) ∧
    (∀ t, Accepts u m 7 0x10 → t = u.writeFields m 7 0x10 x → exec (.refCtlForceWrite dt m v) s =
      .next (((if t.flag Reg.REF_CTL_FORCE ∧ t.activeEntry ≠ some (t.rd Reg.REF_CTL_FORCE_ENTRY) ∧ t.entryInput (t.rd Reg.REF_CTL_FORCE_ENTRY) ≠ 15
        then t.selectEntry (t.rd Reg.REF_CTL_FORCE_ENTRY) else t).noteBypass m 7 0x10).respond m true [])) ∧
    (∀ t, Accepts u m 8 0x30 → t = u.writeFields m 8 0x30 x → exec (.twnLeaseArm dt m v) s =
      .next (((if bit x 31 then t.leaseArmGo (x % 1024) else t).noteBypass m 8 0x30).respond m true [])) ∧
    (∀ t, Accepts u m 8 0x3C → t = u.writeFields m 8 0x3C x → exec (.twnLeaseDrop dt m v) s =
      .next (((if bit x 0 then t.loseLease else t).noteBypass m 8 0x3C).respond m true [])) ∧
    (Accepts u m 3 0x20 → exec (.pwrDomEnWrite dt m false v) s = .next (({ w with pwr := { w.pwr with lowEn := some x } }.noteBypass m 3 0x20).travel 3)) ∧
    (Accepts u m 3 0x24 → exec (.pwrDomEnWrite dt m true v) s = .next (((({ w with pwr := { w.pwr with lowEn := none } }.enablesWritten).enableMask
      (w.pwr.lowEn.getD (w.rd Reg.PWR_DOM_EN_LO_EN) + x % 2 ^ 26 * 2 ^ 32)).noteBypass m 3 0x24).travel 3)) ∧
    (∀ n t, n < 48 → Accepts u m (0x30 + n) 0x40 → t = w.writeFields m (0x30 + n) 0x40 x → exec (.dmcPatGo dt m n v) s =
      .next (((if bit x 8 then t.patGo n else t).noteBypass m (0x30 + n) 0x40).travel (0x30 + n))) ∧
    (∀ t, Accepts u m 2 0x80 → t = u.writeFields m 2 0x80 x → exec (.fltInject dt m v) s =
      .next (((t.injectFault (x % 8)).noteBypass m 2 0x80).respond m true [])) ∧
    (u.masterRuns m = true → u.registerRefusal m (regAddr 5 0x24) 0x24 32 false = none → u.windowPresent 5 = true → u.writePending 5 = false →
      ∀ z, z = u.registerWord 5 0x24 → z.2 = { u with mem := { u.mem with captureArmed := true } } ∧
        exec (.skwErrAddrHiRead dt m) s = .next (z.2.respond m true (leBytes 4 z.1)))

/-- The power, reset and wake events (R234, R538-R550, R600-R607). -/
def Obligations.PowerEventsTakeEffect : Prop :=
  ∀ (dt : Nat) (s u : State), u = s.elapse dt →
    (∀ rec, exec (.powerOn dt rec) s = .next ({ u with pwr := { u.pwr with coreGood := false, sramGood := false, laneGood := false, dramGood := false, ioGood := true, tripped := false, thermN := true, vddCore := 800 } }.fullReset 0 rec)) ∧
    exec (.coreRailsGood dt) s = .next { u with pwr := { u.pwr with coreGood := true, sramGood := true, laneGood := true, dramGood := true, ioGood := true } } ∧
    (u.pwr.rstLow = false → exec (.rstNAssert dt) s = .next ({ u with pwr := { u.pwr with rstLow := true } }.fullReset 1 false)) ∧
    (u.pwr.rstLow = true → exec (.rstNAssert dt) s = .next u) ∧
    (∀ rec cool, u.pwr.rstLow = true → u.pwr.tripped = true → cool = false →
      exec (.rstNRelease dt rec cool) s = .next ({ u with pwr := { u.pwr with rstLow := false } }.leaseGates)) ∧
    (∀ rec cool, u.pwr.rstLow = true → u.pwr.tripped = false → exec (.rstNRelease dt rec cool) s = .next ({ u with
      pwr := { u.pwr with rstLow := false, tripped := false, thermN := true, recovery := rec }, boot := { u.boot with nextCause := 1 } }.leaseGates)) ∧
    (∀ rec, u.pwr.rstLow = true → u.pwr.tripped = true → exec (.rstNRelease dt rec true) s = .next (({ u with
      pwr := { u.pwr with rstLow := false, tripped := false, thermN := true, recovery := rec }, boot := { u.boot with nextCause := 6 } }.pin pinTherm 1).leaseGates)) ∧
    (exec (.railLoss dt .core) s = .next { u.clampAll with pwr := { u.clampAll.pwr with coreGood := false, vddCore := 800 } } ∧
      exec (.railLoss dt .sram) s = .next { u.clampAll with pwr := { u.clampAll.pwr with sramGood := false } } ∧
      exec (.railLoss dt .io) s = .next { u with pwr := { u.pwr with ioGood := false } } ∧
      (∀ v, v = (List.range 32).foldl (fun t q => t.railOff (4 + q)) u →
        exec (.railLoss dt .laneAnalog) s = .next { v with pwr := { v.pwr with laneGood := false } }.noteOver) ∧
      (∀ v, v = (List.range 4).foldl (fun t g => (t.railOff (53 + g)).loseDram (dramKey (12 * g) 0) (dramKey (12 * g + 12) 0)) u →
        exec (.railLoss dt .dramIo) s = .next { v with pwr := { v.pwr with dramGood := false } }.noteOver)) ∧
    (∀ v, u.pwr.tripped = false → v = (if u.pwr.rstLow then u else u.clampAll) →
      exec (.thermalTrip dt) s = .next ({ v with pwr := { v.pwr with tripped := true, thermN := false } }.pin pinTherm 0)) ∧
    (∀ d good, u.nextUp = some d → exec (.domainPowerUp dt d good) s = .next ((if d = 36 then u.scaleCore good.ack else u).powerUp d good.good)) ∧
    (∀ d, u.nextDown = some d → d ≠ 1 → exec (.domainPowerDown dt d) s = .next ((u.domainOff d).noteOver.wakeWaiting.settle)) ∧
    (∀ v, u.nextDown = some 1 → v = u.domainOff 1 →
      exec (.domainPowerDown dt 1) s = .next ({ v with pwr := { v.pwr with pd01OffAt := none } }.wakeWaiting.settle)) ∧
    (∀ d v, v = u.noteWork → v.hasIdleTimer d = true → v.domOn d = true → v.domEn d = true → v.assigned d = false → v.rd (Reg.PWR_IDLE_S d) ≠ 0 →
      (∃ e ∈ v.pwr.idleSince, e.1 = d ∧ e.2 + v.rd (Reg.PWR_IDLE_S d) * 10 ^ 9 ≤ v.now) →
      exec (.idleTimerExpiry dt d) s = .next (((v.setEnables (v.enMask ^^^ 2 ^ d)).noteOver).raise 0x3001 srcPower d)) ∧
    (∀ also, exec (.sidebandAddressMatch dt (u.rd Reg.PWR_SB_ADDR) also) s = .next (u.fire 1 also)) ∧
    (∀ also, exec (.comparatorWake dt also) s = .next ((u.wr Reg.PWR_CMP_LEVEL 1).fire 2 also)) ∧
    (∀ also, u.pwr.timerAt.isSome = true → u.timerLeft = 0 → exec (.pwrTimerExpiry dt also) s = .next (u.timerStop.fire 16 also)) ∧
    (∀ port bytes also b, b = bytes.take (bytes.length - 4) → u.domOn 1 = false → u.wakeSetting Reg.MGT_WAKE_PORT = port →
      fcsBytes b = bytes.drop (bytes.length - 4) → exec (.mgtWakeFrame dt port bytes also) s =
        .next (u.fire (4 * b01 (holdsAt (magicPattern port) b) + 8 * b01 (u.patternMatch bytes)) also))

/-- The boot, update and restart events (R456, R522, R560-R569, R611). -/
def Obligations.BootEventsTakeEffect : Prop :=
  ∀ (dt : Nat) (s u : State), u = s.elapse dt →
    (u.domOn 1 = true → u.boot.firmwareSince = none → u.boot.romServes = false → u.flt.halted = false →
      ∀ v, v = (u.setEnables (u.enMask ||| 2 ^ 57)).readFuses.wr Reg.SYS_BOOT_CAUSE u.boot.nextCause →
      exec (.romBoot dt) s = .next (if v.vlt.lcs = 0 then v else if v.vlt.lcs = 5 then { v with boot := { v.boot with romServes := true } }
        else if v.pwr.recovery then v.recoveryMode else v.rejectTrial.tryBanks v.rejectTrial.boot.choice)) ∧
    (∀ type d, u.boot.firmwareSince.isSome = true → (imageUnits type).2.2 d = true → u.domOn d = true → u.domEn d = true →
      ((imageUnits type).2.1 = true → u.rd Reg.MEM_STAT_GROUP_READY % 2 = 1) →
      (∀ i, u.boot.imageOf u.runningBank type = some i → u.imageOk (u.boot.bank u.runningBank).bytes i = true →
        exec (.imageLoad dt type d) s = .next (u.imageRuns type d i)) ∧
      (∀ i, u.boot.imageOf u.runningBank type = some i → u.imageOk (u.boot.bank u.runningBank).bytes i = false →
        exec (.imageLoad dt type d) s = .next (u.raise 0x3104 (imageSource d) type)) ∧
      (u.boot.imageOf u.runningBank type = none → exec (.imageLoad dt type d) s = .next (u.raise 0x3104 (imageSource d) type))) ∧
    (∀ t b, u.boot.firmwareSince = some t → b = u.boot.bank u.runningBank → b.state = 2 → t + 60 * 10 ^ 9 ≤ u.now → u.flt.restartDue = false →
      (∀ f ∈ u.flt.fatalTimes, f < t) →
      exec (.trialConfirm dt) s = .next ({ u with boot := u.boot.putBank u.runningBank { b with state := 3 } }.wr Reg.SYS_BOOT_TRIAL 0)) ∧
    (∀ t, u.boot.activateAt = some t → t ≤ u.now → exec (.activateReset dt) s = .next (u.fullReset 3 false)) ∧
    (∀ t, u.boot.lifecycleAt = some t → t ≤ u.now → exec (.lifecycleReset dt) s = .next (u.fullReset 2 false)) ∧
    (u.boot.storeDue.isSome = true → u.boot.firmwareSince.isSome = true → ∀ b, b = { u.boot with
        config := u.currentConfig, configFormat := u.boot.format, configValid := true, storeCopy := 1 - u.boot.storeCopy, storeDue := none } →
      exec (.settingsStoreWrite dt) s = .next { u with boot := b }) ∧
    (∀ v w, u.boot.verify = some v → u.boot.update = some w → exec (.updVerifyDone dt) s = .next (u.updateVerified w v.1 v.2.1 v.2.2)) ∧
    (∀ w, u.boot.update = some w → u.boot.verify = none → w.lastData + 60 * 10 ^ 9 ≤ u.now →
      exec (.updDataTimeout dt) s = .next { u with boot := u.boot.dropUpdate w.session }) ∧
    (u.flt.restartDue = true → u.flt.halted = false → u.domOn 1 = true → exec (.controlRestart dt) s =
      .next (if (u.boot.bank u.runningBank).state = 2 ∧ 2 ≤ u.boot.trialStarts then u.fullReset 5 false else u.controlRestart))

/-- The events of the collector, the sensors and the watchdogs (R11, R517-R524, R532, R564, R606). -/
def Obligations.FaultEventsTakeEffect : Prop :=
  ∀ (dt : Nat) (s u : State), u = s.elapse dt →
    (∀ e, nextEvent u.flt.detected = some e → u.domOn 1 = true →
      exec (.faultEventRecord dt) s = .next ({ u with flt := { u.flt with detected := u.flt.detected.erase e } }.recordEvent e)) ∧
    (u.boot.firmwareSince.isSome = true → u.flt.halted = false →
      (u.flt.running = [] → ∀ q qs, u.flt.queue = q :: qs →
        exec (.faultReaction dt) s = .next { u with flt := { u.flt with running := [q], queue := qs } }) ∧
      (∀ r rest, u.flt.running = r :: rest → ∀ v o, u.reactionStep r = (v, o) →
        (∀ n, o = some n → exec (.faultReaction dt) s = .next { v with flt := { v.flt with running := { r with step := n } :: rest } }) ∧
        (o = none → rest ≠ [] → exec (.faultReaction dt) s = .next { v with flt := { v.flt with running := rest } }) ∧
        (o = none → rest = [] → exec (.faultReaction dt) s =
          .next { v with flt := { v.flt with running := v.flt.queue.take 1, queue := v.flt.queue.drop 1 } }))) ∧
    (∀ temps tj, u.domOn 1 = true → temps ≠ [] → tj = maxTemp temps → tj < (u.rd Reg.FLT_THERM_WARN_C : Int) - 3 →
      ∀ v, v = (((u.wrInt Reg.FLT_TJ_C tj).endCause 0x2F0C srcCollector 0).endCause 0x2F0D srcCollector 0) →
      exec (.thermalSensorSample dt temps) s = .next { v with flt := { v.flt with shedding := none } }) ∧
    (∀ t, u.flt.shedding = some t → t + 100000000 ≤ u.now → (u.rd Reg.FLT_THERM_WARN_C : Int) ≤ u.rdInt Reg.FLT_TJ_C →
      exec (.shedStep dt) s = .next u.shedOne) ∧
    (∀ src us v, us = sourceUnits u.variant src → us ≠ [] → v = us.foldl (fun t x => t.firebreak x.1 x.2) u →
      ∀ ks, ks = (us.map fun x => cellKey x.1 x.2).filter (fun k => !v.isolated.contains k) → exec (.blockIsolatesItself dt src false) s =
      .next ({ v with isolated := ks ++ v.isolated }.raise 0x2F05 src 0)) ∧
    (∀ src k us v, k = src / 2 ^ 29 * 256 + src / 2 ^ 16 % 256 → us = sourceUnits u.variant (blockSource k) → us ≠ [] →
      v = us.foldl (fun t x => t.firebreak x.1 x.2) u →
      exec (.blockIsolatesItself dt src true) s =
        .next ({ v with isolated := if v.isolated.contains k then v.isolated else k :: v.isolated }.raise 0x2F05 (blockSource k) 0)) ∧
    (∀ c, exec (.watchdogExpiry dt (.ranger c)) s = .next ((u.resetMaster (8 + c)).raise 0x2F06 (srcOf 7 0 c) c) ∧
      exec (.watchdogExpiry dt (.host c)) s = .next ((u.resetMaster c).raise 0x2F07 (srcOf 7 1 c) c)) ∧
    (∀ c i, plainUnit c = true → u.present c i = true → u.domOn (capDomain c i) = true → u.domEn (capDomain c i) = true → u.shutIn c i = false →
      u.boot.firmwareSince.isSome = true → exec (.unitReady dt c i) s = .next (u.setReady c i).settle)

/-- The lane events (R164-R174, R193). -/
def Obligations.LaneEventsTakeEffect : Prop :=
  ∀ (dt l : Nat) (s u : State), u = s.elapse dt → u.laneOn l = true →
    (∀ e, (u.lane l).tx.endsAt = some e → e ≤ u.now →
      ∀ v w, v = (u.wr (Reg.LNQ_SLEEP_TX_STATE l) (u.lane l).tx.target).modLane l (fun x => { x with tx := ⟨(u.lane l).tx.target, none, none⟩ }) →
      ((u.lane l).tx.held = none → w = v) → (∀ t, (u.lane l).tx.held = some t → w = v.requestSleep l true t) →
      exec (.sleepTransitionEnd dt l true) s = .next (w.refreshLane l).settle) ∧
    (∀ e, (u.lane l).rx.endsAt = some e → e ≤ u.now →
      ∀ v w, v = (u.wr (Reg.LNQ_SLEEP_RX_STATE l) (u.lane l).rx.target).modLane l (fun x =>
        { x with rx := ⟨(u.lane l).rx.target, none, none⟩, stored := x.stored || u.rd (Reg.LNQ_SLEEP_RX_STATE l) == 2 }) →
      ((u.lane l).rx.held = none → w = v) → (∀ t, (u.lane l).rx.held = some t → w = v.requestSleep l false t) →
      exec (.sleepTransitionEnd dt l false) s = .next (w.refreshLane l).settle) ∧
    (∀ v, v = (u.setLstat l 0 true).endCause 0x2301 (srcLane l) l → exec (.laneSignalDetect dt l) s =
      .next (if v.rd (Reg.LNQ_SLEEP_RX_STATE l) ≠ 0 ∧ v.flag (Reg.LNQ_SLEEP_WAKE_ON_SIG l)
        then ((v.wr (Reg.LNQ_SLEEP_RX l) 0).requestSleep l false 0).laneEvent 0x2307 l else v.refreshLane l)) ∧
    (u.lstat l 0 = true → ∀ v, v = (((u.setLstat l 0 false).setLstat l 1 false).endCause 0x2302 (srcLane l) l).wr (Reg.LNQ_FOM_FOM l) 0 →
      exec (.lnLos dt l) s = .next ((if v.rd (Reg.LNQ_SLEEP_RX_STATE l) = 0 ∧ v.flag (Reg.LNQ_LCFG_RX_EN l) ∧ v.laneMode l ≠ 0
        then v.laneEvent 0x2301 l else v).refreshLane l)) ∧
    (u.lstat l 0 = true → u.lstat l 1 = true → exec (.lnCdrUnlock dt l) s =
      .next ((((u.setLstat l 1 false).wr (Reg.LNQ_FOM_FOM l) 0).laneEvent 0x2302 l).refreshLane l)) ∧
    (u.lstat l 0 = true → u.flag (Reg.LNQ_LCFG_RX_EN l) = true → u.laneMode l ≠ 0 → exec (.cdrLock dt l) s =
      .next (((u.setLstat l 1 true).endCause 0x2302 (srcLane l) l).refreshLane l).settle) ∧
    (∀ q b, l = 4 * q → u.flag (pllLock q b) = true → exec (.pllUnlock dt q b) s =
      .next (((u.wr (pllLock q b) 0).raise 0x2306 (srcLane (4 * q)) (q + 65536 * b01 b)).refreshQuad q)) ∧
    (∀ q b, l = 4 * q → (∃ i < 4, u.usesPll (4 * q + i) b = true) → exec (.pllLock dt q b) s =
      .next (((u.wr (Machine.pllLock q b) 1).endCause 0x2306 (srcLane (4 * q)) (q + 65536 * b01 b)).refreshQuad q).settle) ∧
    (∀ e move eq fin v, v = (if u.rd (Reg.LNQ_PRBS_RX_CHK l) = 0 then u else u.bumpSat (Reg.LNQ_PRBS_ERR_COUNT l) e.pattern) →
      exec (.fomWindowEnd dt l e move eq fin) s =
        .next (if u.rxRuns l then (v.fomWindow l e.meanSquare move).eqAsk l eq fin else u.wr (Reg.LNQ_FOM_FOM l) 0)) ∧
    (∀ (signs : List Int) (dfe : Int) (v : State), u.rxRuns l = true → u.flag (Reg.LNQ_ADAPT_FREEZE l) = false →
      ∀ taps, taps = ((u.lane l).ffe.zipIdx.map fun c => if c.2 = 4 then 256 else lmsStep c.1 (signs.getD c.2 0) 512 511) →
      v = (if u.flag (Reg.LNQ_ADAPT_FFE_EN l) then u.putLane { u.lane l with ffe := taps } else u) → v.flag (Reg.LNQ_ADAPT_DFE_EN l) = false →
      exec (.adaptLmsUpdate dt l signs dfe) s = .next v) ∧
    (∀ (signs : List Int) (dfe : Int) (v : State) (lim : Int), u.rxRuns l = true → u.flag (Reg.LNQ_ADAPT_FREEZE l) = false →
      ∀ taps, taps = ((u.lane l).ffe.zipIdx.map fun c => if c.2 = 4 then 256 else lmsStep c.1 (signs.getD c.2 0) 512 511) →
      v = (if u.flag (Reg.LNQ_ADAPT_FFE_EN l) then u.putLane { u.lane l with ffe := taps } else u) → v.flag (Reg.LNQ_ADAPT_DFE_EN l) = true →
      lim = v.dfeLimit l →
      exec (.adaptLmsUpdate dt l signs dfe) s = .next (v.wrInt (Reg.LNQ_DFE_TAP l) (lmsStep (v.rdInt (Reg.LNQ_DFE_TAP l)) dfe lim lim))) ∧
    ((u.latchNow = false ∨ (u.lane l).latched.isSome = true) → exec (.stxLayoutLatch dt l) s = .next u) ∧
    (u.laneMode l = 1 → u.latchNow = true → (u.lane l).latched = none → ∀ x y auto, x = u.lane l → auto = u.flag (Reg.LNQ_STX_CTL_AUTO l) →
      y = x.forward.getD (if auto then u.autoLayout l x.qmapSet else u.layoutCur l) →
      exec (.stxLayoutLatch dt l) s =
        .next (u.putLane { x with forward := none, latched := some (if auto then { y with qmap := x.qmapSet } else y) }))

/-- The Stave link events (R184-R205). How a message that lost a cell is counted is the model's choice (log entry 119). -/
def Obligations.StaveEventsTakeEffect : Prop :=
  ∀ (dt l : Nat) (s u : State), u = s.elapse dt → u.laneOn l = true → u.laneMode l = 1 →
    (∀ k v, k = u.nearSuperframe → v = (u.endLine l 8000000).beginLayout l →
      (u.startsNow l k = false → exec (.staveSuperframeStart dt l) s = .next u) ∧
      (u.startsNow l k = true → v.staveSends l = true → exec (.staveSuperframeStart dt l) s = .next ((v.answerEq l).sendSuperframe l k)) ∧
      (u.startsNow l k = true → v.staveSends l = false → v.lstat l 3 = true → v.rd (Reg.LNQ_PRBS_TX_PAT l) ≠ 0 →
        exec (.staveSuperframeStart dt l) s = .next { v with sent := .pattern l (v.rd (Reg.LNQ_PRBS_TX_PAT l)) :: v.sent }) ∧
      (u.startsNow l k = true → v.staveSends l = false → (v.lstat l 3 = false ∨ v.rd (Reg.LNQ_PRBS_TX_PAT l) = 0) →
        exec (.staveSuperframeStart dt l) s = .next v)) ∧
    (u.lstat l 4 = true → ∀ copies frac corr cw lost st hd v w, st = u.rd (Reg.LNQ_SRX_STAT_STATE l) → hd = goodHeader (copies.filter (u.loopTakes l)) →
      v = (if st = 2 ∨ st = 3 then (u.fecCounts l corr cw lost).loopBack l (hd.getD []) else u) →
      (∀ h, hd = some h → w = (if st = 3 then (v.modLane l fun x => { x with good := 1 }).takeHeader l h frac else v)) →
      (hd = none → w = (if st = 2 ∨ st = 3 then v.headerLost l else v)) →
      exec (.staveSuperframeReceive dt l false copies frac corr cw lost) s = .next ((w.missBlock l).fecDown l lost)) ∧
    (u.lstat l 4 = true → ∀ copies frac corr cw lost v,
      v = u.modLane l (fun x => { x with missed := 0, found := if u.blocksApart l = 1 then x.found + 1 else 1, lastBlock := some u.now }) →
      u.rd (Reg.LNQ_SRX_STAT_STATE l) = 1 → exec (.staveSuperframeReceive dt l true copies frac corr cw lost) s =
        .next (if 2 ≤ (v.lane l).found then v.staveState l 2 else v)) ∧
    (u.lstat l 4 = true → ∀ copies frac corr cw lost st hd v, st = u.rd (Reg.LNQ_SRX_STAT_STATE l) → (st = 2 ∨ st = 3) →
      hd = goodHeader (copies.filter (u.loopTakes l)) → v = ((u.fecCounts l corr cw lost).loopBack l (hd.getD [])).modLane l (fun x =>
        { x with missed := 0, found := if u.blocksApart l = 1 then x.found + 1 else 1, lastBlock := some u.now }) →
      (u.blocksApart l = 0 → (u.lane l).lastBlock.isSome = true → exec (.staveSuperframeReceive dt l true copies frac corr cw lost) s =
        .next ((v.farStep l).modLane l fun x => { x with found := 1 })) ∧
      ((u.blocksApart l ≠ 0 ∨ (u.lane l).lastBlock = none) →
        (hd = none → exec (.staveSuperframeReceive dt l true copies frac corr cw lost) s = .next ((v.headerLost l).fecDown l lost)) ∧
        (∀ h, hd = some h → st = 3 → exec (.staveSuperframeReceive dt l true copies frac corr cw lost) s =
          .next (((v.modLane l fun x => { x with good := 1 }).takeHeader l h frac).fecDown l lost)) ∧
        (∀ h, hd = some h → st = 2 → exec (.staveSuperframeReceive dt l true copies frac corr cw lost) s =
          .next (if 4 ≤ (v.lane l).good + 1 then (v.staveState l 3).takeHeader l h frac else v.modLane l fun x => { x with good := x.good + 1 })))) ∧
    (∀ n cell, exec (.staveCellReceive dt l n cell true) s = .next u) ∧
    (∀ n cell p q split place active v, u.rd (Reg.LNQ_SRX_STAT_STATE l) = 3 → cellPosition n = some (p, q) → u.loopTakes l cell = true →
      split = bit (u.rd (Reg.LNQ_SRX_QACT_HI_QMAP l)) p → place = (if split then 0x10000 + 4 * (9 * l + p) + q else 9 * l + p) →
      active = (if split then bit (u.rd64 (Reg.LNQ_SRX_QACT_LO_Q l) (Reg.LNQ_SRX_QACT_HI_Q l)) (4 * p + q)
        else bit (u.rd (Reg.LNQ_SRX_STAT_SLOTS l)) p) → v = u.loopBack l cell →
      (active = false → exec (.staveCellReceive dt l n cell false) s = .next v) ∧
      (active = true → slotKey (u16 cell 2) (bit (u8 cell 1) 2) = place → v.fabricRuns = true →
        exec (.staveCellReceive dt l n cell false) s = .next (v.fabricWrite (.receiver l p) cell)) ∧
      (active = true → slotKey (u16 cell 2) (bit (u8 cell 1) 2) ≠ place → crc8 (cell.take 15) = BitVec.ofNat 8 (u8 cell 15) →
        (v.lane l).good = 1 → exec (.staveCellReceive dt l n cell false) s =
          .next ((v.bump (Reg.LNQ_SRX_HDR_POS_ERR l) 1).raise 0x2406 (srcLane l) l))) ∧
    (∀ cell lost, u.rd (Reg.LNQ_SRX_STAT_STATE l) = 3 → u.lstat l 3 = true → u.loopTakes l cell = true →
      (u.flag (Reg.LNQ_SRX_STAT_RDI l) = true ∨ lost = true ∨ crc8 (cell.take 15) ≠ BitVec.ofNat 8 (u8 cell 15)) →
      exec (.msgCellReceive dt l cell lost) s = .next u) ∧
    (∀ cell g v y, u.rd (Reg.LNQ_SRX_STAT_STATE l) = 3 → u.flag (Reg.LNQ_SRX_STAT_RDI l) = false → u.lstat l 3 = true → u.loopTakes l cell = true →
      crc8 (cell.take 15) = BitVec.ofNat 8 (u8 cell 15) → u8 cell 0 = 0 →
      g = sub32 (sub32 (u32 cell 4) (u.lane l).msgSeq) 0 → v = (if g = 0 then u else u.loseMessage l) → y = v.lane l →
      exec (.msgCellReceive dt l cell false) s = .next (v.putLane { y with msgSeq := u32 cell 4, creditsOut := (y.creditsOut + g) % 256 })) ∧
    (∀ cell g v y w home x old m others, u.rd (Reg.LNQ_SRX_STAT_STATE l) = 3 → u.flag (Reg.LNQ_SRX_STAT_RDI l) = false → u.lstat l 3 = true →
      u.loopTakes l cell = true → crc8 (cell.take 15) = BitVec.ofNat 8 (u8 cell 15) → u8 cell 0 ≠ 0 →
      g = sub32 (sub32 (u32 cell 4) (u.lane l).msgSeq) 1 → v = (if g = 0 then u else u.loseMessage l) → y = v.lane l →
      w = v.putLane { y with msgSeq := u32 cell 4, creditsOut := (y.creditsOut + 1 + g) % 256 } → home = w.partLane l → x = w.lane home →
      old = (x.msgParts.find? fun z => z.channel == u8 cell 0 && z.id == u32 cell 8).getD ⟨u8 cell 0, u32 cell 8, [], none⟩ →
      m = { old with segments := (u16 cell 12, bytesAt cell 16 (u16 cell 2)) :: old.segments
                     last := if bit (u8 cell 1) 1 then some (u16 cell 12) else old.last } →
      others = (x.msgParts.filter fun z => !(z.channel == u8 cell 0 && z.id == u32 cell 8)) →
      (m.complete = true → exec (.msgCellReceive dt l cell false) s =
        .next (w.putLane { x with msgParts := others, msgDone := (u8 cell 0, m.payload) :: x.msgDone })) ∧
      (m.complete = false → ∀ ps, ps = m :: ((others.filter fun z => z.channel == u8 cell 0).take (w.partLimit l - 1) ++ others.filter fun z => z.channel != u8 cell 0) →
        exec (.msgCellReceive dt l cell false) s = .next (w.putLane { x with msgParts := ps })))

/-- The link, frame and pause events of the Ethernet ports (R213, R220-R224, R233, R240). Until when the cause of a storm lasts is the
model's choice (log entry 109). -/
def Obligations.EthernetEventsTakeEffect : Prop :=
  ∀ (dt p : Nat) (s u : State), u = s.elapse dt →
    (u.portFormed p = true → u.portOn p = true → u.flag (Reg.NET_CTL_EN p) = true → u.linkUp p = false → ∀ lanes v,
      v = ((lanes.take (u.portLanes p)).zipIdx.foldl (fun t x => t.trainLane (p + x.2) x.1) u) → exec (.ethLinkUp dt ⟨p, lanes⟩) s =
      .next ((((((v.wr (Reg.NET_STAT_LINK p) 1).wr (Reg.NET_STAT_AN_DONE p) 1).wr (Reg.NET_STAT_FEC_LOCK p) 1).modNetPort p
        fun x => { x with bringUp := none }).endCause 0x2501 (srcPort p) p).legsUp p).settle) ∧
    (p < 64 → u.linkUp p = true → exec (.ethLinkDown dt p) s = .next ((u.linkLost p).raise 0x2501 (srcPort p) p)) ∧
    (∀ t, (u.netPort p).bringUp = some t → p < 64 → u.linkUp p = false → t + 5 * 10 ^ 9 ≤ u.now → exec (.ethAnFail dt p) s =
      .next ((u.raise 0x2502 (srcPort p) p).modNetPort p fun x => { x with bringUp := u.nextBringUp p t }).settle) ∧
    (∀ m, m < 2 → u.portOn (64 + m) = true → exec (.mgtLinkUp dt m) s =
      .next ((u.wr (Reg.NET_STAT_LINK (64 + m)) 1).endCause 0x250C (srcPort (64 + m)) (64 + m))) ∧
    (∀ m, m < 2 → u.linkUp (64 + m) = true → exec (.mgtLinkDown dt m) s = .next ((u.linkLost (64 + m)).raise 0x250C (srcPort (64 + m)) (64 + m))) ∧
    (∀ n, u.portFormed p = true → u.portOn p = true → u.rd (Reg.NET_FECTH_CW p) < n → exec (.ethFecDegrade dt p n) s = .next (u.raise 0x2503 (srcPort p) p)) ∧
    (∀ bytes full v, u.portOn p = true → u.linkUp p = true →
      (u.macTake p bytes full = (v, none) → exec (.hostFrameReceive dt p bytes full) s = .next v) ∧
      (∀ b, u.macTake p bytes full = (v, some b) → isPause b = true →
        exec (.hostFrameReceive dt p bytes full) s = .next ((v.bump (Reg.NET_PAUSE_RX_COUNT p) 1).takePause p b)) ∧
      (∀ b w, u.macTake p bytes full = (v, some b) → isPause b = false → v.macsecTake p b = (w, none) →
        exec (.hostFrameReceive dt p bytes full) s = .next w) ∧
      (∀ b w c x y, u.macTake p bytes full = (v, some b) → isPause b = false → v.macsecTake p b = (w, some (c, x, y)) → (w.flowOf p c).isSome = false →
        w.serviceOf p c = false → exec (.hostFrameReceive dt p bytes full) s = .next (w.deliver p c x y))) ∧
    (∀ starved v, u.portOn p = true → (u.netPort p).busy ≤ u.now * 1000 → v = ([4, 3, 2, 1, 0] : List Nat).foldl (fun t k => t.fetchHost p k) (u.joinQueue p) →
      (v.linkUp p = true → v.nextQueue p = none → exec (.macFrameTransmit dt p starved) s = .next v) ∧
      (∀ q f, v.linkUp p = true → v.nextQueue p = some q → (v.netPort p).queues.find? (fun f => f.queue == q) = some f →
        (starved && decide (q < 5) && (v.netPort p).queues.any (fun g => g.queue == q && decide (v.rd (Reg.NET_TXSTART_BYTES p q) < g.bytes.length))) = false →
        exec (.macFrameTransmit dt p starved) s = .next ((v.modNetPort p fun x => x.popQueue q).sendFrame p f false)) ∧
      (∀ f, v.linkUp p = false → (v.netPort p).queues.find? (fun f => f.queue != 6) = some f → exec (.macFrameTransmit dt p starved) s =
        .next (((v.bump (Reg.NET_TX_LINKDOWN_DROP_COUNT p) 1).modNetPort p fun x => { x with queues := x.queues.erase f }).dropFrame p f 3))) ∧
    (∀ bytes v w b till, u.portOn p = true → u.linkUp p = true →
      till = (fun (quanta : Nat) => if quanta = 0 then none
        else some (max (w.now * 1000) ((w.netPort p).busy - bitTime 96 (w.portRate p)) + bitTime (512 * quanta) (w.portRate p))) →
      (u.macTake p bytes false = (v, none) → exec (.pauseFrameReceive dt p bytes) s = .next v) ∧
      (u.macTake p bytes false = (v, some b) → u16 b 12 = 0x8808 → w = v.bump (Reg.NET_PAUSE_RX_COUNT p) 1 →
        (u16 b 14 = 0x0001 → w.rd (Reg.NET_CTL_FC_MODE p) = 1 → exec (.pauseFrameReceive dt p bytes) s =
          .next ((w.modNetPort p fun x => (List.range 6).foldl (fun y q => y.pause w.now 8 q (till (u16 b 16))) x).stormCauses p)) ∧
        (u16 b 14 = 0x0001 → w.rd (Reg.NET_CTL_FC_MODE p) ≠ 1 → exec (.pauseFrameReceive dt p bytes) s = .next w) ∧
        (u16 b 14 = 0x0101 → w.rd (Reg.NET_CTL_FC_MODE p) ≠ 2 → exec (.pauseFrameReceive dt p bytes) s = .next w) ∧
        (u16 b 14 = 0x0101 → w.rd (Reg.NET_CTL_FC_MODE p) = 2 → exec (.pauseFrameReceive dt p bytes) s =
          .next ((w.modNetPort p fun x => (List.range 8).foldl (fun y n => if bit (u16 b 16) n ∧ w.rd (Reg.NET_PFC_MAP_MAP p) / 16 ^ n % 16 ≤ 5
            then y.pause w.now n (w.rd (Reg.NET_PFC_MAP_MAP p) / 16 ^ n % 16) (till (u16 b (18 + 2 * n))) else y) x).stormCauses p)))) ∧
    (∀ q live, live = (fun (a : Pause) => !(a.queue == q && decide (a.endsAt ≤ u.now * 1000))) →
      (∃ a ∈ (u.netPort p).pauses ++ (u.netPort p).ignored, a.queue = q ∧ a.endsAt ≤ u.now * 1000) → exec (.pauseExpiry dt p q) s =
        .next ((u.modNetPort p fun x => { x with pauses := x.pauses.filter live, ignored := x.ignored.filter live }).stormCauses p)) ∧
    (∀ q h, (∃ a ∈ (u.netPort p).pauses, a.queue = q ∧ a.since + u.rd (Reg.NET_PAUSE_WD_MS p) * 10 ^ 6 ≤ u.now) →
      h = u.now + u.rd (Reg.NET_PAUSE_WD_HOLD_MS p) * 10 ^ 6 → exec (.ethPauseStorm dt p q) s =
        .next ((u.modNetPort p fun x => { x with pauses := x.pauses.filter fun a => a.queue != q, holds := (q, h) :: x.holds
                                                 ignored := x.ignored ++ x.pauses.filter fun a => a.queue == q }).raise 0x2504 (srcPort p) q)) ∧
    (∀ q, (∃ a ∈ (u.netPort p).holds, a.1 = q ∧ a.2 ≤ u.now) → exec (.pauseHoldExpiry dt p q) s =
      .next ((u.modNetPort p fun x => { x with holds := x.holds.filter fun a => a.1 != q
                                               ignored := x.ignored.filter fun a => a.queue != q }).endCause 0x2504 (srcPort p) q))

/-- The service and module events (R233, R235, R237, R239).
The bytes of the module that a poll and AUTO_INIT use are those of log entry 111. -/
def Obligations.ModuleEventsTakeEffect : Prop :=
  ∀ (dt : Nat) (s u : State), u = s.elapse dt →
    (∀ m bytes v, m < 2 → u.linkUp (64 + m) = true → u.mgtAddress (64 + m) ≠ 0 →
      (u.macTake (64 + m) bytes false = (v, none) → exec (.mgtServiceFrame dt m bytes) s = .next v) ∧
      (∀ b h, u.macTake (64 + m) bytes false = (v, some b) → h = headers b → h.etype = 0x0806 → u16 b (h.l3 + 6) = 1 →
        u32 b (h.l3 + 24) = u.mgtAddress (64 + m) → exec (.mgtServiceFrame dt m bytes) s =
          .next (v.queueFrame (64 + m) (firmwareFrame 5 (etherHeader (u48 b 6) (macAddress (64 + m)) h.tci 0x0806 ++ (be16 1 ++ be16 0x0800 ++ be8 6 ++
            be8 4 ++ be16 2 ++ beBytes 6 (macAddress (64 + m)) ++ be32 (u.mgtAddress (64 + m)) ++ bytesAt b (h.l3 + 8) 10))))) ∧
      (∀ b, u.macTake (64 + m) bytes false = (v, some b) → (headers b).etype ≠ 0x0806 → (headers b).proto ≠ 1 → v.cyxelPiece (64 + m) b = true →
        exec (.mgtServiceFrame dt m bytes) s = .next (v.bump Reg.CYX_DISCARD_COUNT 1))) ∧
    (∀ reads, u.domOn 1 = true → u.boot.firmwareSince.isSome = true →
      (u.flag Reg.MOD_CTL_HOLD = true → exec (.modulePoll dt reads) s =
        .next { u with net := { u.net with holdSince := some (u.net.holdSince.getD u.now) } }) ∧
      (u.flag Reg.MOD_CTL_HOLD = false → exec (.modulePoll dt reads) s = .next ({ u with net := { u.net with holdSince := none } }.pollModules reads))) ∧
    (∀ reads t, u.net.holdSince = some t → u.flag Reg.MOD_CTL_HOLD = true → t + 5000000000 ≤ u.now →
      exec (.moduleHoldExpiry dt reads) s = .next ({ u with net := { u.net with holdSince := some u.now } }.pollModules reads)) ∧
    (∀ samples, u.domOn 1 = true → u.boot.firmwareSince.isSome = true → exec (.moduleLifeSample dt samples) s =
      .next ((samples.filter fun x => decide (x.1 < 16)).foldl (fun t x => t.lifeSample x.1 x.2.1 x.2.2.1 x.2.2.2) u)) ∧
    (∀ all, u.storeReady = true → all = (u.net.accounts.map fun (a : ModuleAccount) => { a with stored := some (a.laser, a.weighted) }) →
      exec (.moduleAccountWrite dt) s = .next { u with net := { u.net with accounts := all } }) ∧
    (∀ data v w, u.net.transfer = true → u.domOn 1 = true →
      v = { u with net := { u.net with transfer := false } }.wr Reg.MOD_XFER_DONE 1 → w = v.wr Reg.MOD_XFER_NAK 0 →
      exec (.modXferDone dt .acked data) s = .next (if w.flag Reg.MOD_XFER_RD then w.wr Reg.MOD_XFER_DATA data else w) ∧
      exec (.modXferDone dt .nak data) s = .next (v.wr Reg.MOD_XFER_NAK 1) ∧
      exec (.modXferDone dt .timedOut data) s =
        .next ((v.wr Reg.MOD_XFER_NAK 1).raise 0x250E (srcPort 64) ((v.wr Reg.MOD_XFER_NAK 1).rd Reg.MOD_XFER_BUS)))

/-- The packet events of the media flows (R253-R268). How a packet that is late on one leg only counts is the model's choice (log entry
113). -/
def Obligations.FlowEventsTakeEffect : Prop :=
  ∀ (dt : Nat) (s u : State), u = s.elapse dt →
    (∀ p bytes full given v b w c x y f leg g, u.portOn p = true → u.linkUp p = true → u.macTake p bytes full = (v, some b) →
      v.macsecTake p b = (w, some (c, x, y)) → w.flowOf p c = some (f, leg) → g = f.modLeg leg (fun l => { l with packets := l.packets + 1 }) →
      ∀ d, d = bytesAt c ((headers c).l4 + 8) (u16 c ((headers c).l4 + 4) - 8) → isRtcp d = false →
      (ipCsumOk c = true → l4CsumOk c = true → exec (.flowPacketReceive dt p bytes full given) s = .next (w.flowTake g leg d given)) ∧
      (ipCsumOk c = false → exec (.flowPacketReceive dt p bytes full given) s = .next ((w.putFlow { g with c5 := g.c5 + 1 }).flowEvent g 0x2608 0))) ∧
    (∀ f x due j v w, u.flow false f = some x → x.isAudio = true → due = x.got.filter (fun y => decide (x.sampleRelease y.2.1 ≤ u.chrono)) →
      j = x.judge (due.foldl (fun m y => max m y.2.1) 0 + 1) 0 → v = (if due.isEmpty then u else u.putFlow j.1) →
      w = (if 0 < j.2 then v.flowEvent x 0x2605 0 else v) → exec (.flowLineRelease dt f) s = .next (w.releaseAudio ((w.flow false f).getD x))) ∧
    (∀ f x v y w z, u.flow false f = some x → x.isAudio = false → v = u.writeCells x → v.flow false f = some y →
      (∀ fr i ta j, y.coming = some (fr, i) → y.cells = [] →
        ta = ((y.frames.find? fun g => g.1 == fr).map fun (g : Nat × Option Nat) => g.2).getD none → y.release fr ta i ≤ v.chrono → j = y.judge fr i →
        w = (if 0 < j.2 then (v.putFlow j.1).flowEvent y 0x2605 0 else v.putFlow j.1).releaseLine j.1 fr i →
        z = w.withFlow f State.writeCells → exec (.flowLineRelease dt f) s = .next (z.withFlow f State.frameOver)) ∧
      (y.coming = none ∨ y.cells ≠ [] → z = v.withFlow f State.writeCells → exec (.flowLineRelease dt f) s = .next (z.withFlow f State.frameOver))) ∧
    (∀ f x, u.flow false f = some x → x.lastAccept + x.lossTime ≤ u.now → exec (.flowLoss dt f) s =
      .next (((u.putFlow { x with loss := true }).flowEvent x 0x2601 0).flowIdle x)) ∧
    (∀ f x place launch n d y, u.flow true f = some x → x.kind ≠ 2 → x.kind ≠ 7 → x.kind ≠ 8 → n = u.genN (u.flowGen x) → d = u.genD (u.flowGen x) →
      place = x.next.getD (u.flowStart x x.startAt) → launch = u.launchAt x place.1 place.2 → y = x.goOn (x.after n d place.1 place.2) →
      (u.chrono < launch → exec (.flowPacketLaunch dt f) s = .next u) ∧
      ∀ v frame, frame = (if x.isAudio then frameAt n d launch else place.1) → launch ≤ u.chrono →
        ((x.onSlot && u.outputIdle x.slotKey) = true → v = u.putFlow { y with c6 := y.c6 + b01 (y.idleFrame != some frame), idleFrame := some frame }) →
        ((x.onSlot && u.outputIdle x.slotKey) = false → launch + 40000 ≤ u.chrono →
          v = ((u.schedule y).modSend f fun z => { z with c1 := z.c1 + 1 }).flowEvent y 0x2609 0) →
        ((x.onSlot && u.outputIdle x.slotKey) = false → u.chrono < launch + 40000 →
          v = u.sendPacket { y with ancBad := y.ancBad + x.ancDropped place.1 place.2 } (!x.isAudio && x.marker n d place.2)
            (x.seqOf n d place.1 place.2) (x.tsOf n d place.1 place.2) launch (x.payload n d place.1 place.2)) →
        exec (.flowPacketLaunch dt f) s =
          .next (if (x.after n d place.1 place.2).2 = 0 then v.flowEnded ((v.flow true f).getD y) else v)) ∧
    (∀ f v x ls skip w y, v = u.dropStale f → v.flow true f = some x →
      ls = ((x.legs.zipIdx.filter fun g => v.sendsLeg g.1).map fun (g : FlowLeg × Nat) => (g.2, v.latePackets f g.2 g.1)) →
      (ls.all fun l => l.2.isEmpty) = false →
      skip = ((ls.head?).map fun (l : Nat × List Nat) => l.2.filter fun n => ls.all fun m => m.2.contains n).getD [] →
      w = x.legs.zipIdx.foldl (fun t g => t.modNetPort g.1.port fun (r : PortRec) => { r with queues := r.queues.filter fun q => match q.flow with
        | some (i, l, n) => !(i == f && l == g.2 && ls.any fun k => k.1 == l && k.2.contains n)
        | none => true }) v →
      y = { x with c1 := x.c1 + skip.length, legs := x.legs.zipIdx.map fun g =>
        { g.1 with packets := g.1.packets - ((ls.filter fun l => l.1 == g.2).flatMap fun l => l.2).length,
                   linkDown := g.1.linkDown + (((ls.filter fun l => l.1 == g.2).flatMap fun l => l.2).filter fun n => !skip.contains n).length } } →
      exec (.txBehind dt f) s = .next ((w.putFlow y).flowEvent y 0x2609 0)) ∧
    (∀ f x leg g, u.flow false f = some x → x.legs[leg]? = some g → g.reports = 1 → g.reportAt + 1000000000 ≤ u.now →
      exec (.membershipReportSend dt f leg) s =
        .next ((u.putFlow (x.modLeg leg fun l => { l with reports := 2, reportAt := u.now })).sendReport x g (if x.opt then 5 else 4))) ∧
    (∀ p bytes v b0 w b x y group h, u.portOn p = true → u.linkUp p = true → u.macTake p bytes false = (v, some b0) →
      v.macsecTake p b0 = (w, some (b, x, y)) → w.mediaService p b = true → h = headers b → h.etype ≠ 0x0806 → h.v6 = false → h.v4 = true →
      u8 b h.l4 = 0x11 → group = u32 b (h.l4 + 4) → exec (.membershipQueryReceive dt p bytes) s =
        .next ((w.net.flows.filter fun f => !f.tx && f.ipv6 == false).foldl (fun t f =>
          (f.legs.filter fun g => g.port == p && (group == 0 || g.dest == group)).foldl (fun z g => z.sendReport f g (if f.opt then 1 else 2)) t) w))

/-- The audio and multiviewer events (R282-R329). At which instants a rate group's second ends, and that the events of heads first carry out
the reads of the follow ports, are the model's choices (log entries 39, 121). -/
def Obligations.AudioAndHeadEventsTakeEffect : Prop :=
  ∀ (dt : Nat) (s u r : State), u = s.elapse dt → r = u.followReads →
    (∀ r96 k fs, u.audioRuns = true → fs = (if r96 then 96000 else 48000) → u.evalInstant k fs ≤ u.chrono →
      (∀ n, (if r96 then u.aud.last96 else u.aud.last48) = some n → n < k) →
      exec (.audioSampleEvaluate dt r96 k) s = .next (u.evaluate r96 k)) ∧
    (∀ sdi n good ready v k w x y, u.audioRuns = true → u.frameDue = true →
      good = (!u.flag Reg.AUD_CLK_SLAVE || n == (if u.clk96 then 512 else 1024)) → ready = (decide (64 ≤ u.aud.frames) && u.rd Reg.AUD_CLK_STATE != 3) →
      v = (List.range 8).foldl (fun t p => t.portBoundary ready p) u → k = (if u.flag Reg.AUD_CLK_SLAVE then (v.countBad good).noteSamples 2 0 1 else v) →
      w = (List.range 8).foldl (fun t p => t.portFrame p (u.chrono * (if u.clk96 then 96000 else 48000) / 10 ^ 9) good (sdi.getD p [])) k →
      x = w.countFrame good w.tdmRunning (u.tdmRunning && !v.tdmRunning) →
      y = (if x.rd Reg.AUD_CLK_STATE = 1 ∧ 64 ≤ x.aud.frames then x.wr Reg.AUD_CLK_STATE 2 else x) →
      exec (.tdmFrame dt sdi n) s = .next (y.endCause 0x2706 srcAudioBlock 0)) ∧
    (∀ ports, u.audioRuns = true → u.flag Reg.AUD_CLK_SLAVE = true → u.rd Reg.AUD_CLK_STATE ≠ 0 → u.aud.lastFclk + 1000000 ≤ u.now →
      ports = (u.aud.ports.map fun (p : TdmPort) => { p with sdi := p.sdi.stop, sdo := p.sdo.stop }) →
      exec (.audClkLoss dt) s = .next ({ u with aud := { u.aud with frames := 0, ports := ports } }.raise 0x2706 srcAudioBlock 0)) ∧
    (u.rd Reg.AUD_CLK_STATE ≠ 0 → u.tdmRunning = false → 64 ≤ u.aud.idleFrames.getD 0 → exec (.tdmClockStop dt) s =
      .next (if u.aud.restarting ∧ u.flag Reg.AUD_CLK_EN then u.startClocks else (u.wr Reg.AUD_CLK_STATE 0).endCause 0x2706 srcAudioBlock 0)) ∧
    (∀ groups, u.audioRuns = true → exec (.audioRateMeasure dt groups) s =
      .next (groups.foldl (fun t g => if t.rateDue g then t.measureRate g.1 g.2 else t) u)) ∧
    (∀ l ls v e, u.mvw.loads = l :: ls → v = { u with mvw := { u.mvw with loads := ls } } → e = (if l.kind = 0 then v.endGraphic l else v.endCoefs l) →
      exec (.graphicLoadDone dt) s = .next (e.1.endWait (.object 13 l.id) (if e.2 then 0 else stBadParam))) ∧
    (∀ h, r.headRuns h = true → exec (.headMeridian dt h) s = .next (r.headMeridianReached h)) ∧
    (∀ h x f mh b, x = r.head h → x.nextUp = some (f, mh, b) → r.headRuns h = true → r.headOn h = true → x.band = none → b < headBands (r.headFmt h) →
      mh ≤ r.chrono → 64 * b * r.genD (r.headGen h) * 10 ^ 9 ≤ (r.chrono - mh) * r.genN (r.headGen h) * headHeight (r.headFmt h) →
      (x.store.map fun (y : Nat × Nat × List Byte) => (y.1, y.2.1 / 64)).eraseDups.length < 4 →
      exec (.bandStart dt h) s = .next (r.composeBand h f b)) ∧
    (∀ h x f n rows keep, x = r.head h → x.band = some (f, n, rows) →
      keep = ((rows.filter fun y => x.emit.any fun e => e.frame == f && decide (e.row ≤ y.1)).map fun (y : Nat × List Byte) => (f, y.1, y.2)) →
      exec (.bandComplete dt h) s = .next (r.putHead { x with band := none, store := x.store ++ keep })) ∧
    (∀ h x e y, x = r.head h → x.nextOut = some e → r.headRuns h = true → e.due ≤ (r.chrono + 13000) * e.scale → y = x.tookRow e →
      (∀ z, x.store.find? (fun v => v.1 == e.frame && v.2.1 == e.row) = some z → exec (.headRowEmit dt h) s =
        .next ((r.putHead { y with store := x.store.filter fun v => !(v.1 == e.frame && v.2.1 == e.row) }).emitRow h e z.2.2)) ∧
      (x.store.find? (fun v => v.1 == e.frame && v.2.1 == e.row) = none → exec (.headRowEmit dt h) s =
        .next ((((r.putHead y).bump (Reg.MVW_H_OVERRUN_COUNT h) 1).wr (Reg.MVW_H_STAT_OVERRUN h) 1).headEvent h 0x2806 h))) ∧
    (∀ h l, r.headRuns h = true → r.headOn h = true → l < 64 → r.flag (Reg.MVW_L_CTL_EN (64 * h + l)) = true → (r.layer (64 * h + l)).taken = false →
      (r.layer (64 * h + l)).sofAt ≤ r.chrono → exec (.layerSofWrite dt h l) s = .next (r.takeFrame h l))

/-- The encoder and decoder events (R336-R360). -/
def Obligations.EncoderEventsTakeEffect : Prop :=
  ∀ (dt : Nat) (s u : State), u = s.elapse dt →
    (∀ h x, u.encChan h = some x → u.encRuns = true → x.codec < 2 → x.atStop = false → u.genOn x.gen = true →
      (x.row = 0 → x.pic % max 1 x.n = 0 → x.period ≠ some (x.pic / max 1 x.n) → x.m0 ≤ u.chrono →
        exec (.encRefreshPeriodStart dt h) s = .next (u.startPeriod x)) ∧
      (x.period = some (x.pic / max 1 x.n) → x.m0 + u.rowTime x (x.row + 1) ≤ u.chrono → exec (.encRowDue dt h) s = .next (u.startRow x))) ∧
    (∀ h x y, u.encChan h = some x → u.encRuns = true → x.codec < 2 → x.rowNext = some y →
      exec (.encRowCoded dt h y.row) s = .next (u.codeRow x y none) ∧
      (∀ coded, y.m0 + u.rowTime x (y.row + 5) + 8000 ≤ u.chrono →
        exec (.encDeadline dt h y.row coded) s = .next (u.codeRow x y (some coded)))) ∧
    (∀ h x k, u.encChan h = some x → x.nextPacket = some k → k.launch ≤ u.chrono → exec (.encPacketLaunch dt h) s =
      .next ((((u.launchPacket x k).packetGone x k).picturesGone h).endChannel h)) ∧
    (∀ h x, u.encChan h = some x → u.encRuns = true → 2 ≤ x.codec → x.atStop = false → u.genOn x.gen = true →
      x.m0 + u.lineTime x x.sliceEnd ≤ u.chrono → exec (.xsSliceEmit dt h) s = .next (u.emitSlice x)) ∧
    (∀ d x f fr i, u.decoder (0x50000 + d) = some x → u.net.flows.find? (fun f => !f.tx && f.handle == x.flow) = some f → x.place f = some (fr, i) →
      (u.chrono + f.sliceTime < f.sliceRelease fr i → exec (.xsSliceLost dt d) s = .next u) ∧
      (f.sliceRelease fr i ≤ u.chrono + f.sliceTime →
        ∀ b nx ds lacks, b = 112 + x.d → nx = (if i + 1 < f.sliceCount then (fr, i + 1) else (fr + 1, 0)) → lacks = !f.sliceWhole fr i →
        ds = (u.enc.decs.map fun z => if z.d = x.d then { x with next := some nx, lostFrame := if lacks then some fr else x.lostFrame } else z) →
        ∀ v w y z, v = { u with enc := { u.enc with decs := ds } }.wr (Reg.ENC_CH_STAT_RUN b) 1 →
        w = (if lacks then v.bump (Reg.ENC_CH_LOST_COUNT b) 1 else v) →
        y = (if lacks = true ∧ x.lostFrame ≠ some fr then w.raiseWithin 0 0x2906 (srcDecoder x.d) x.d else w) →
        z = (if nx.2 = 0 then y.wr64 (Reg.ENC_CH_FC_LO_F b) (Reg.ENC_CH_FC_HI_F b) fr else y) →
        exec (.xsSliceLost dt d) s = .next (if nx.2 = 0 ∧ x.deleting.any (fun k => decide (k ≤ nx.1)) then z.endDecoder x.d else z))) ∧
    (∀ bytes v, (u.twinTake 2 bytes = (v, none) → exec (.rowsReceive dt bytes) s = .next v) ∧
      (∀ b, u.twinTake 2 bytes = (v, some b) → exec (.rowsReceive dt bytes) s = .next ((rowMessages v.chrono 64 b).foldl (fun t m => t.takeRow m) v)))

/-- The messages of the PTP engine (R372, R373). -/
def Obligations.PtpMessagesTakeEffect : Prop :=
  ∀ (dt : Nat) (s u v : State) (p : Nat) (bytes b : List Byte) (o : Nat), u = s.elapse dt → u.frameIn p bytes = (v, some b) → ptpAt b = some o →
    (∀ d w, v.ptpHears p b o = some d → ptpType b o = 11 → -3 ≤ ptpLog b o → ptpLog b o ≤ 1 →
      w = v.modPtp d (fun x => { x with announces := announceOf b o p v.now :: x.announces.filter fun y =>
        !(y.source == (announceOf b o p v.now).source && y.port == p) && decide (v.now < y.expires) }) →
      exec (.ptpAnnounceReceive dt p bytes) s = .next ((w.selectMaster d).ptpBack d)) ∧
    (∀ d freq corr w, v.ptpHears p b o = some d → ptpType b o = 0 → (v.ptp d).master = some (ptpSource b o) → -7 ≤ ptpLog b o → ptpLog b o ≤ 1 →
      corr = ptpCorrection b o + v.asymmetry p → w = (v.modPtp d fun y => { y with syncLog := ptpLog b o, lastSync := some v.now }).ptpBack d →
      (ptpTwoStep b o = false → exec (.ptpSyncReceive dt p bytes freq) s = .next (w.syncDone d (v.ingress p) (ptpStamp b (o + 34)) corr freq)) ∧
      (ptpTwoStep b o = true → exec (.ptpSyncReceive dt p bytes freq) s =
        .next (w.modPtp d fun y => { y with waiting := some (ptpSeq b o, v.ingress p, corr) }))) ∧
    (∀ d freq t2 corr, v.ptpHears p b o = some d → ptpType b o = 8 → (v.ptp d).master = some (ptpSource b o) →
      (v.ptp d).waiting = some (ptpSeq b o, t2, corr) →
      exec (.ptpFollowUpReceive dt p bytes freq) s = .next (v.syncDone d t2 (ptpStamp b (o + 34)) (corr + ptpCorrection b o) freq)) ∧
    (∀ d, v.ptpHears p b o = some d → (ptpType b o = 9 ∨ ptpType b o = 3 ∨ ptpType b o = 10) → beNat (bytesAt b (o + 44) 10) = ownIdentity p →
      exec (.ptpDelayRespReceive dt p bytes) s = .next (v.delayFor d p b o)) ∧
    (∀ d turn msg, v.ptpHears p b o = some d → (v.ptp d).p2p = true → ptpType b o = 2 → turn = v.egress p - v.ingress p →
      msg = ptpMessage 3 (ptpDomainOf b o) 0 (ptpCorrection b o + turn) p (ptpSeq b o) (zeros 10 ++ bytesAt b (o + 20) 10) →
      exec (.ptpPdelayReqReceive dt p bytes) s = .next (v.queueFrame p (firmwareFrame 7 (ptpFrame p ((headers b).tci % 4096) (headers b).v6
        (ptpGroup (headers b).v6 true) (groupMac (headers b).v6 (ptpGroup (headers b).v6 true)) (v.ptpAddress (v.ptp d)) true msg)))) ∧
    (∀ t x a, u.domOn 39 = true → t < 2 → x = u.ptp t → x.best = some a → x.enabled = true → u.linkUp a.port = true →
      (x.p2p = true → ∀ msg g w, msg = ptpMessage 2 x.number 0 (-(u.asymmetry a.port)) a.port x.delaySeq (zeros 20) → g = ptpGroup x.ipv6 true →
        w = u.modPtp t (fun y => { y with delaySeq := (y.delaySeq + 1) % 65536, delayReq := some (y.delaySeq, u.egress a.port), pdelayResp := none, delayAt := some u.now }) →
        exec (.ptpDelayReqSend dt t p) s =
          .next (w.queueFrame a.port (firmwareFrame 7 (ptpFrame a.port x.vlan x.ipv6 g (groupMac x.ipv6 g) (u.ptpAddress x) true msg)))) ∧
      (x.p2p = false → x.delayEarly u.now = false → x.hybrid = false → ∀ msg g w, msg = ptpMessage 1 x.number 0 (-(u.asymmetry a.port)) a.port x.delaySeq (zeros 10) →
        g = ptpGroup x.ipv6 false →
        w = u.modPtp t (fun y => { y with delaySeq := (y.delaySeq + 1) % 65536, delayReq := some (y.delaySeq, u.egress a.port), pdelayResp := none, delayAt := some u.now }) →
        exec (.ptpDelayReqSend dt t p) s =
          .next (w.queueFrame a.port (firmwareFrame 7 (ptpFrame a.port x.vlan x.ipv6 g (groupMac x.ipv6 g) (u.ptpAddress x) true msg)))) ∧
      (x.p2p = false → x.delayEarly u.now = false → x.hybrid = true → ∀ msg w, msg = ptpMessage 1 x.number 4 (-(u.asymmetry a.port)) a.port x.delaySeq (zeros 10) →
        w = u.modPtp t (fun y => { y with delaySeq := (y.delaySeq + 1) % 65536, delayReq := some (y.delaySeq, u.egress a.port), pdelayResp := none, delayAt := some u.now }) →
        exec (.ptpDelayReqSend dt t p) s =
          .next (w.queueFrame a.port (firmwareFrame 7 (ptpFrame a.port x.vlan x.ipv6 a.ip a.mac (u.ptpAddress x) true msg)))) ∧
      (x.p2p = false → x.delayEarly u.now = true → exec (.ptpDelayReqSend dt t p) s = .next u)) ∧
    (∀ x msg v6, u.domOn 39 = true → u.relayPeer p = true → u.linkUp p = true → x = u.relayLink p → v6 = u.tim.relayIpv6 →
      msg = ptpMessage 2 u.tim.relayDomain 0 (-(u.asymmetry p)) p x.seq (zeros 20) → exec (.ptpDelayReqSend dt 2 p) s =
        .next ((u.putRelayLink { x with seq := (x.seq + 1) % 65536, req := some (x.seq, u.egress p), resp := none }).queueFrame p
          (firmwareFrame 7 (ptpFrame p u.tim.relayVlan v6 (ptpGroup v6 true) (groupMac v6 (ptpGroup v6 true)) (u.mgtAddress p) true msg))))

/-- The events of TIM and of the pulse outputs (R372-R382, R409).
That an isolated Chronograph or Heliostat gives no event is read as log entry 102 says. -/
def Obligations.TimeEventsTakeEffect : Prop :=
  ∀ (dt : Nat) (s u : State), u = s.elapse dt → u.domOn 39 = true →
    (∀ d x v w, d < 2 → x = u.ptp d → x.enabled = true → x.lost = false →
      (x.syncMissing u.now = true ∨ ∃ a, x.best = some a ∧ a.expires ≤ u.now) →
      v = (u.modPtp d fun y => { y with lost := true, announces := y.announces.filter fun a => decide (u.now < a.expires) }).raise 0x2A05 srcTim d →
      w = (match v.entryOf d with | some i => v.refLost i | none => v) → exec (.timPtpLoss dt d) s = .next (w.selectMaster d)) ∧
    (∀ k, k = u.chrono / 1000000000 → u.tim.lastSecond < k → exec (.timSecondTick dt) s =
      .next ((((u.modTim fun t => { t with lastSecond := k }).domainSplit).retireBias).recordMean k).timeSplit) ∧
    (∀ t cmd v w, u.tim.stepAt = some t → t ≤ u.chrono → u.tim.stepCmd = cmd → v = u.stepTo (toBits 64 ((u.tim.count : Int) - u.filteredTheta)) →
      w = (((v.modTim fun x => { x with stepAt := none, stepCmd := none, locked := true }).timState 2).modRef
        (fun r => { r with takeover := true })).endFreeRuns →
      exec (.chronographStep dt) s = .next (match cmd with | some c => w.finish c.1 c.2 0 0 | none => w)) ∧
    (∀ p bytes residence v b o outs, u.tim.relayOn = true → outs = (if p = u.tim.relayUp then u.tim.relayDown else [u.tim.relayUp]) → outs ≠ [] →
      (p = u.tim.relayUp ∨ u.tim.relayDown.contains p = true) →
      u.frameTaken p bytes = (v, some b) → ptpAt b = some o → ptpDomainOf b o = u.tim.relayDomain →
      (csumOk b = false → exec (.tcRelayForward dt p bytes residence) s = .next ((v.bump Reg.TIM_TC_DROP_COUNT 1).raise 0x2A07 srcTim p)) ∧
      (csumOk b = true → u.tim.relayP2p = true → (ptpType b o = 2 ∨ ptpType b o = 3 ∨ ptpType b o = 10) →
        exec (.tcRelayForward dt p bytes residence) s = .next v) ∧
      (csumOk b = true → (u.tim.relayP2p = true → ptpType b o ≠ 2 ∧ ptpType b o ≠ 3 ∧ ptpType b o ≠ 10) →
        (4 ≤ ptpType b o → (∀ r ∈ residence, r ≤ 1000000) → exec (.tcRelayForward dt p bytes residence) s =
          .next (outs.foldl (fun t q => t.queueFrame q (firmwareFrame 5 b)) v)) ∧
        (ptpType b o < 4 → ∀ q r, outs = [q] → r = residence.getD 0 0 →
          (1000000 < r → exec (.tcRelayForward dt p bytes residence) s = .next ((v.bump Reg.TIM_TC_DROP_COUNT 1).raise 0x2A07 srcTim p)) ∧
          (r ≤ 1000000 → ∀ link asym corr, link = (if v.tim.relayP2p = true ∧ ptpType b o = 0 then meanInt (v.relayLink p).delays else 0) →
            asym = (if ptpType b o = 0 ∨ ptpType b o = 3 then v.asymmetry p else -(v.asymmetry q)) →
            corr = sext 64 (u64 b (o + 8)) + ((r : Int) + link + asym) * 65536 → exec (.tcRelayForward dt p bytes residence) s =
              .next (v.queueFrame q (firmwareFrame 7 (putL4Csum (putAt b (o + 8) (be64 (toBits 64 corr)))))))) ∧
        (ptpType b o < 4 → exec (.tcRelayForward dt p bytes residence) s = .next (outs.zipIdx.foldl (fun t q =>
          if 1000000 < residence.getD q.2 0 then (t.bump Reg.TIM_TC_DROP_COUNT 1).raise 0x2A07 srcTim p
          else t.queueFrame q.1 (firmwareFrame 7 (t.relayed p q.1 b o (residence.getD q.2 0)))) v)))) ∧
    (∀ p, p < 8 → u.chronoOn = true → exec (.timePulseEdge dt p) s = .next (((u.tpEnd p).tpTake p ((u.tp p).endsAt.getD 0)).tpEdge p)) ∧
    (∀ p x v w y, p < 4 → u.helioOn = true → x = u.fpOut p → w = u.modFp p (fun y => { y with endsAt := none }) →
      (∀ e, x.endsAt = some e → e ≤ u.chrono → v = (if x.next ≠ 0 ∧ x.next ≤ e then w else w.fpLevel p false)) →
      ((x.endsAt = none ∨ ∃ e, x.endsAt = some e ∧ u.chrono < e) → v = u) →
      ((x.next = 0 ∨ v.chrono < x.next ∨ v.flag (Reg.REF_FP_CTL_EN p) = false) → exec (.framePulseEdge dt p) s = .next v) ∧
      (v.flag (Reg.REF_FP_CTL_EN p) = true → x.next ≠ 0 → x.next ≤ v.chrono →
        y = (v.modFp p fun z => { z with phase := v.fpPhase p, last := some x.next, endsAt := some (x.next + v.rd (Reg.REF_FP_WIDTH_NS p)) }).fpLevel p true →
        exec (.framePulseEdge dt p) s = .next ((y.modFp p fun z => { z with next := y.fpNext p x.next }).fpStat p)))

/-- The events of REF (R392-R398).
That an isolated Heliostat takes no event is read as log entry 102 says. -/
def Obligations.ReferenceEventsTakeEffect : Prop :=
  ∀ (dt : Nat) (s u : State), u = s.elapse dt → u.domOn 39 = true → u.shutIn 0x08 0 = false →
    exec (.refSelectionPass dt) s = .next u.refPass ∧
    (∀ input h freq, (2 ≤ input ∧ input ≤ 5 ∨ input = 7) →
      (u.entryOf input = none → exec (.refPulseArrival dt input h freq) s = .next (u.notePulse input)) ∧
      (∀ i n d, u.entryOf input = some i → u.entryRate i = (n, d) →
        exec (.refPulseArrival dt input h freq) s = .next (((if input = 7 then u else u.countLines i h).notePulse input).refSample i
          (foldPhase n d (phaseOn n d u.chrono - u.rdInt (Reg.REF_E_DLY_NS i))) freq))) ∧
    (∀ phase freq, (∀ i, u.entryOf 6 = some i → exec (.clk10mPhaseDetector dt phase freq) s = .next (u.refSample i phase freq)) ∧
      (u.entryOf 6 = none → exec (.clk10mPhaseDetector dt phase freq) s = .next u)) ∧
    (∀ i t, i < 8 → (u.refIn i).validSince = some t → (u.refIn i).qualified = false → u.refValid i = true →
      t + u.rd Reg.REF_QUAL_S * 1000000000 ≤ u.now → exec (.refQualified dt i) s =
      .next (((u.modRefIn i fun y => { y with qualified := true }).wr (Reg.REF_E_HIST_QUALIFIED i) 1).raise 0x2B03 srcRef i)) ∧
    (∀ i t, i < 8 → (u.refIn i).lastEvent = some t → 2 ≤ u.entryInput i → t + 3 * u.eventPeriod i < u.now →
      exec (.refLoss dt i) s = .next (u.refLost i))

/-- The Lookout, the lease timer and the fence pin (R428-R433, R447). -/
def Obligations.LeaseEventsTakeEffect : Prop :=
  ∀ (dt : Nat) (s u : State), u = s.elapse dt →
    (∀ t, u.requestDue = some t → t ≤ u.now → u.domOn 1 = true → exec (.lookoutRequestSend dt) s =
      .next (u.lookoutSend (if u.role = roleHolder then 2 else 1)).lateLeaseWaits) ∧
    (∀ bytes r v, u.requestOf (u64 bytes 16) = some r → u.replyValid bytes = true → r.answered = false → u.domOn 1 = true → v = u.requestAnswered r →
      (u8 bytes 3 = 0x81 → exec (.lookoutReplyReceive dt bytes) s = .next (v.takeGrant r bytes)) ∧
      (u8 bytes 3 = 0x82 → exec (.lookoutReplyReceive dt bytes) s = .next (v.takeDeny r)) ∧
      (u8 bytes 3 ≠ 0x81 → u8 bytes 3 ≠ 0x82 → exec (.lookoutReplyReceive dt bytes) s = .next v)) ∧
    (∀ bytes r, u.requestOf (u64 bytes 16) = some r → (u.replyValid bytes = false ∨ r.answered = true) → exec (.lookoutReplyReceive dt bytes) s = .next u) ∧
    (∀ e, u.twn.expiry = some e → (e ≤ u.ticks → exec (.leaseExpiry dt) s = .next u.loseLease) ∧ (u.ticks < e → exec (.leaseExpiry dt) s = .next u)) ∧
    (∀ v, v = (u.wr Reg.TWN_STAT_FENCE_PIN 1).twinEvent 0x2C04 0 →
      (v.role = roleStandby ∨ v.role = roleHolder → exec (.lkoFenceLow dt) s = .next (v.endLease roleFenced stFenced)) ∧
      (v.role ≠ roleStandby → v.role ≠ roleHolder → exec (.lkoFenceLow dt) s = .next (v.leaseGates.dropQueued stFenced))) ∧
    exec (.lkoFenceHigh dt) s = .next (((u.wr Reg.TWN_STAT_FENCE_PIN 0).endCause 0x2C04 srcTwin 0).leaseGates)

/-- The messages of the twin link (R422-R443). -/
def Obligations.HeartbeatAndHashEventsTakeEffect : Prop :=
  ∀ (dt : Nat) (s u : State), u = s.elapse dt →
    (∀ n v, u.twinOn = true → u.domOn 1 = true → u.chrono / 125000 % 2 = 0 → n = u.twn.hbCount + 1 → v = { u with twn := { u.twn with hbCount := n } } →
      exec (.heartbeatSend dt) s = .next (([u.twn.lane0, u.twn.lane1].filter u.laneUp).foldl (fun t l => t.twinSendOn l 1 (u.heartbeat n)) v)) ∧
    (∀ v, u.twinOn = true → u.domOn 1 = true → v = u.partnerInterval.laneCheck → exec (.heartbeatIntervalEnd dt) s =
      .next (((if v.twn.resyncWanted then v.startResync else v).noteRevert).lateLeaseWaits)) ∧
    (∀ bytes v b p w x y, u.twinTake 1 bytes = (v, some b) → b.length = 40 → u16 b 0 = v.twn.pairId * 2 + (1 - v.rd Reg.TWN_CTL_SIDE_B) →
      v.twn.hbAccepted < u32 b 4 → p = (⟨u16 b 0, u8 b 2, u8 b 3, u64 b 8, u64 b 24, u8 b 32, u8 b 33⟩ : PartnerView) →
      w = { v with twn := { v.twn with hbAccepted := u32 b 4, hbSeen := true, partner := p } } → x = w.wr Reg.TWN_PGEN_GEN (u32 b 20) →
      y = ((((x.claimConflict).makeClaim).noteGap).tryConverge).noteRevert →
      exec (.heartbeatReceive dt bytes) s = .next (if v.twn.partner.role = roleHolder ∧ p.role = roleStandby ∧ y.flag Reg.TWN_CTL_HOME ∧ y.role = roleStandby ∧
        !y.flag Reg.TWN_STAT_FENCE_PIN then y.lookoutSend 1 else y)) ∧
    (∀ bytes v b, u.twinTake 1 bytes = (v, some b) → u32 b 4 ≤ v.twn.hbAccepted → exec (.heartbeatReceive dt bytes) s = .next v) ∧
    (∀ g frame rs v, u.twinOn = true → u.role = roleHolder → g < 16 → u.genOn g = true → u.domOn 1 = true →
      frame = frameAt (u.genN g) (u.genD g) u.chrono - 1 →
      rs = (u.twn.hashes.filter fun r => r.gen == g && r.frame == frame).foldl (fun l r => insertHash r l) [] →
      v = { u with twn := { u.twn with hashes := u.twn.hashes.filter fun r => !(r.gen == g && decide (r.frame ≤ frame)) } } →
      exec (.outhashSend dt g) s = .next ((outhashBodies g frame 10 0 rs).foldl (fun t b => t.twinSend 3 b) v)) ∧
    (∀ bytes v b g w, u.twinTake 3 bytes = (v, some b) → v.compares = true → g = u8 b 0 → g < 16 →
      w = v.pruneHashes g (frameAt (v.genN g) (v.genD g) v.chrono) → exec (.outhashReceive dt bytes) s =
      .next ((List.range (min (u16 b 12) ((b.length - 16) / 12))).foldl (fun t i => t.compareHash g (u64 b 4) (u16 b (16 + 12 * i)) (u64 b (20 + 12 * i))) w)) ∧
    (∀ h v, u.twinOn = true → u.domOn 1 = true → h = u.health → v = { u with twn := { u.twn with healthSent := h, outDivSec := 0, rowDivSec := 0 } } →
      exec (.healthSend dt) s = .next (v.twinSend 4 h)) ∧
    (∀ bytes v b, u.twinTake 4 bytes = (v, some b) → exec (.healthReceive dt bytes) s = .next { v with twn := { v.twn with healthSeen := b } }) ∧
    (∀ bytes n, u.twinOn = true → u.role = roleHolder → u.pairKeyOk = true → n = u16 bytes 18 → bytes.length = 40 + n → u16 bytes 0 = 0x4358 →
      bit (u8 bytes 3) 1 = true → u16 bytes 16 = 0xFFFF → u32 bytes 20 = (crc32c (bytes.take 20)).toNat →
      bytes.drop (24 + n) = beBytes 16 (Config.cmac u.twn.pairKey (bytes.take (24 + n))).toNat →
      exec (.mirrorReplyReceive dt bytes) s = .next (if 2 ≤ u16 bytes 6 then { u with twn := { u.twn with mirrorErrors := u.twn.mirrorErrors + 1 } } else u))

/-- Reversion, resynchronisation and the built-in tests (R436-R445). -/
def Obligations.RevertAndResyncEventsTakeEffect : Prop :=
  ∀ (dt : Nat) (s u : State), u = s.elapse dt →
    (∀ v t, v = u.noteRevert → v.twn.revertSince = some t → t + v.twn.holdoffS * 1000000000 ≤ v.now → exec (.revertHoldoffExpiry dt) s =
      .next ({ v with twn := { v.twn with revertSince := some v.now } }.twinSend 6 [])) ∧
    (∀ bytes v b, u.twinTake 6 bytes = (v, some b) → (v.flag Reg.TWN_CTL_HOME = false → exec (.revertReceive dt bytes) s = .next v.releaseLease) ∧
      (v.flag Reg.TWN_CTL_HOME = true → exec (.revertReceive dt bytes) s = .next v)) ∧
    (∀ v t, v = u.noteGap → v.twn.gapSince = some t → t + 2000000 ≤ v.now → v.resyncing = false → v.rd Reg.TWN_STAT_RESYNC ≠ 6 →
      exec (.twinGenGap dt) s = .next (v.raise 0x2C07 srcTwin 0).startResync) ∧
    (u.rd Reg.TWN_STAT_RESYNC = 4 → u.twn.convergeAt + 1000000000 ≤ u.now → u.enc.chans.any u.diverged = false → exec (.resyncConvergeEnd dt) s =
      .next ((u.wr Reg.TWN_STAT_RESYNC 5).endWait (.object 17 0) stOk)) ∧
    (u.resyncing = true → u.twn.resyncAt + 60000000000 < u.now → exec (.twinResyncFail dt) s = .next u.resyncFail) ∧
    (u.rd Reg.TWN_STAT_RESYNC = 6 → u.flag Reg.TWN_CTL_AUTO_RESYNC = true → u.twn.resyncAt + 10000000000 ≤ u.now →
      exec (.resyncRetry dt) s = .next u.startResync) ∧
    (∀ bytes v b, u.twinTake 5 bytes = (v, some b) →
      (∀ w, v.role = roleHolder → w = { v with sent := .snapshot v.snapshot :: v.sent, fresh := v.fresh + 1 } →
        exec (.snapshotReceive dt bytes .request) s = .next (w.twinSend 5 (Config.snapshotBody v.fresh))) ∧
      (v.rd Reg.TWN_STAT_RESYNC = 1 → exec (.snapshotReceive dt bytes .part) s = .next (v.wr Reg.TWN_STAT_RESYNC 2)) ∧
      (∀ x, v.rd Reg.TWN_STAT_RESYNC = 1 ∨ v.rd Reg.TWN_STAT_RESYNC = 2 → exec (.snapshotReceive dt bytes (.last x)) s = .next (v.takeSnapshot x))) ∧
    (∀ kind i ts td, u.role = roleStandby ∨ u.role = roleFenced → u.flag Reg.TWN_BIST_EN = true → u.testable kind i = true → u.domOn 1 = true →
      (∀ t ∈ u.twn.tested, t.1 = (kind, i) → t.2 + u.rd Reg.TWN_BIST_PERIOD_S * 1000000000 ≤ u.now) →
      ts = ((kind, i), u.now) :: u.twn.testing → td = ((kind, i), u.now) :: u.twn.tested.filter (fun t => t.1 != (kind, i)) →
      exec (.bistTestStart dt kind i) s = .next { u with twn := { u.twn with testing := ts, tested := td } }) ∧
    (∀ kind i pass v w x, (u.twn.testing.any fun t => t.1 == (kind, i)) = true →
      v = { u with twn := { u.twn with testing := u.twn.testing.filter fun t => t.1 != (kind, i) } } → u.testLost kind i = false →
      w = (if kind = 2 then v.loseDram (blockKey i) (blockKey (i + 1)) else v) → x = { w with twn := { w.twn with failed := (kind, i) :: w.twn.failed } } →
      exec (.bistTestDone dt kind i pass) s = .next (if pass then w.bump Reg.TWN_BIST_PASS_COUNT 1 else (x.bump Reg.TWN_BIST_FAIL_COUNT 1).raise 0x2C0A srcTwin i))

/-- The events of the fabric and the Ephemeris (R95-R134). That they first carry out the reads of the follow ports is the model's choice (log
entry 121). -/
def Obligations.FabricEventsTakeEffect : Prop :=
  ∀ (dt : Nat) (s e u : State), e = s.elapse dt → u = e.followReads →
    (∀ w cell, (u.fabricRuns = true → exec (.fabricCellWrite dt w cell) s = .next (u.fabricWrite w cell)) ∧
      (u.fabricRuns = false → u.domOn 36 = true → exec (.fabricCellWrite dt w cell) s = .next (u.boundaryLost cell))) ∧
    (∀ q line index type, u.fabricRuns = true → u.outputPresent (q / 4) = true → exec (.outputCellRead dt q line index type) s = .next (u.outputRead q line index type)) ∧
    (∀ v old kept w, v = u.deckSweep → old = v.fab.deck.filter (fun c => decide (c.arrival + 32000 ≤ v.now)) →
      kept = v.fab.deck.filter (fun c => !decide (c.arrival + 32000 ≤ v.now)) →
      w = { v with fab := { v.fab with deck := kept } } → exec (.cellAgeExpiry dt) s =
      .next ((old.filter fun c => !c.wasRead).foldl (fun t c => t.raiseWithin (t.sourceGap c.slot) 0x200A srcFabric (slotObject c.slot)) (w.bump Reg.FAB_LD_EXPIRED_COUNT old.length))) ∧
    (∀ n quarter k x t period v, k = slotKey n quarter → x = u.source k → x.lastSof = some t → x.carried = true →
      period = x.periods.headD ((u.timedGens k).head?.elim 16683334 u.genPeriod) → t + 2 * period ≤ u.now → v = u.putSource { x with noSignal := true } →
      exec (.sourceNoSignal dt n quarter) s = .next (if (v.readersNow k).isEmpty then v else v.raiseWithin period 0x2005 srcFabric (slotObject k))) ∧
    (∀ chan c, u.fab.landing.find? (fun c => c.chan == chan) = some c →
      (c.lost = none → (c.lastSof.getD 0) + 2 * u.genPeriod c.gen ≤ u.now → exec (.ldgLoss dt chan) s = .next ((u.landingAlarm 0x2101 chan).landingLost c u.now)) ∧
      (c.lost ≠ none → exec (.ldgLoss dt chan) s = .next u) ∧
      (c.member = 0 → u.fabricRuns = true → exec (.landingFrameSelect dt chan) s =
        .next ((u.fab.landing.filter fun x => x.first == c.first && x.gen == c.gen).foldl (fun t x => t.selectFrame x (u.groupFrame c.first c.gen)) u))) ∧
    (∀ g f m x, f = frameAt (e.genN g) (e.genD g) e.chrono → m = meridianAt (e.genN g) (e.genD g) f → x = e.generator g →
      e.domOn 36 = true → e.shutIn 0x0B g = false → g < 16 →
      (e.leastFrame g ≤ f → (x.frame.isSome = true ∨ x.since < m ∨ x.since = 0) → (∀ l, x.lastAt = some l → l < m) →
        (e.genOn g = true → exec (.meridian dt g) s = .next (e.meridian g f m)) ∧
        (e.genOn g = false → exec (.meridian dt g) s =
          .next (e.putGenerator g { x with lastAt := some m, frame := some f, shift := 0, stopped := true }))) ∧
      (f < e.leastFrame g → exec (.meridian dt g) s = .next e) ∧
      (∀ l, x.lastAt = some l → m ≤ l → exec (.meridian dt g) s = .next e)) ∧
    (∀ g, e.domOn 36 = true → g < 16 → e.nextMeridian g ≤ e.chrono + 100000 → e.chrono + 5000 ≤ e.nextMeridian g →
      exec (.ephLoaderWrite dt g) s = .next (e.loadDue g (e.nextFrame g)))

/-- The transports (R28-R46). -/
def Obligations.TransportEventsTakeEffect : Prop :=
  ∀ (dt : Nat) (s u : State), u = s.elapse dt →
    (∀ via bytes pec, via = .sideband → (pec = false ∨ u.serves via = false) → exec (.cyxelFragment dt via bytes pec) s =
      .next { u with sent := .nack :: u.sent }) ∧
    (∀ via bytes pec, via ≠ .sideband → u.serves via = false → exec (.cyxelFragment dt via bytes pec) s = .next u) ∧
    (∀ via bytes pec v, u.serves via = true → (via = .sideband → pec = true) → u.consume via bytes = some v → packetSound bytes = false →
      exec (.cyxelFragment dt via bytes pec) s = .next (v.bump Reg.CYX_DISCARD_COUNT 1)) ∧
    (∀ via bytes pec op rq v, u.serves via = true → (via = .sideband → pec = true) → packetSound bytes = true → rq = packetReq via bytes →
      op = gateOp (packetOpcode bytes) → u.consume via bytes = some v →
      (rq.more = true → exec (.cyxelFragment dt via bytes pec) s = .next (v.fragment op.code rq)) ∧
      (∀ w, rq.more = false → v.newRequest op rq = .ended w → exec (.cyxelFragment dt via bytes pec) s = .next w)) ∧
    (∀ via session rq q, rq = (⟨via, 1, 0, 0, 0, 0, session, [], 0⟩ : Req) → u.partialOf rq = some q →
      (u.now < q.last + 100000000 → exec (.reassemblyTimeout dt via session) s = .next u) ∧
      (q.last + 100000000 ≤ u.now → exec (.reassemblyTimeout dt via session) s = .next ((u.dropPartial rq).abandon q rq))) ∧
    (∀ session x, u.session session = some x → (x.id ≠ 0 → x.last + x.idle * 1000000000 ≤ u.now → exec (.sessionIdleTimeout dt session) s = .next (u.closeSession x.id)) ∧
      (x.id = 0 ∨ u.now < x.last + x.idle * 1000000000 → exec (.sessionIdleTimeout dt session) s = .next u)) ∧
    (u.serves .sideband = false → exec (.sidebandBlockRead dt) s = .next { u with sent := .nack :: u.sent }) ∧
    (u.serves .sideband = true → (∀ b r, u.cyx.sideband = b :: r → exec (.sidebandBlockRead dt) s =
        .next ({ u with cyx := { u.cyx with sideband := r } }.blockRead b)) ∧
      (u.cyx.sideband = [] → exec (.sidebandBlockRead dt) s = .next u.sidebandEvent))

/-- The events of the memory system and of the Vault (R458-R467, R494-R510). -/
def Obligations.MemoryAndVaultEventsTakeEffect : Prop :=
  ∀ (dt : Nat) (s u : State), u = s.elapse dt →
    (∀ m id addr len data fin, u.masterRuns m = true → id < 256 → len ≠ 0 →
      (u.domOn 3 = true ∨ isRanger m = true ∧ 0x10000000 ≤ addr ∧ addr < 0x11000000 →
        exec (.skidwayTransaction dt m id addr len data fin) s = .next (u.skidway m id addr len data fin)) ∧
      (u.domOn 3 = false → isRanger m = false →
        exec (.skidwayTransaction dt m id addr len data fin) s = .next (u.respond m false (if data.isSome then [] else zeros len)))) ∧
    (∀ m v, u.mem.draining.contains m = true → v = u.orphanMaster m → exec (.masterResetDrain dt m) s =
      .next { v with mem := { v.mem with draining := v.mem.draining.filter (· != m) } }.grantAll) ∧
    (∀ g dens res cs v w, g < 4 → u.domOn (53 + g) = true → cs = (u.groupChannels g).filter (fun c => !u.isReady 0x12 c) → cs ≠ [] →
      v = (if u.readyCount 0x12 = 0 then u.wr Reg.MEM_STAT_DENSITY
        ((cs.filterMap fun c => (dens.find? fun d => d.1 == c).map fun (d : Nat × Nat) => d.2).head?.getD 0) else u) →
      w = (res.filter fun r => cs.contains r.1).foldl (fun t r => t.keepResult r) v →
      exec (.dramTraining dt g dens res) s =
        .next ((cs.foldl (fun t c => t.trained c (passed res c && dens.contains (c, v.rd Reg.MEM_STAT_DENSITY))) w).groupStat.refreshSets.settle)) ∧
    (∀ res tag session mask at_ flags cs v w x y, u.mem.training = some (tag, session, mask, at_, flags) → cs = maskChannels mask →
      v = (res.filter fun r => cs.contains r.1).foldl (fun t r => t.keepResult r) { u with mem := { u.mem with training := none } } →
      w = cs.foldl (fun t c => t.trained c (passed res c)) v →
      x = (if bit flags 0 then cs.foldl (fun t c => t.loseDram (dramKey c 0) (dramKey c t.channelBytes)) w else w) →
      y = x.boot.trained ++ (cs.filter (passed res)).filter (fun c => !x.boot.trained.contains c) →
      exec (.memTrainDone dt res) s = .next (((if bit flags 1 then { x with boot := { x.boot with trained := y } } else x).groupStat.refreshSets).finish
        session tag (if cs.all (passed res) then 0 else stInternal) 0)) ∧
    (∀ n drift v, u.isReady 0x12 n = true → v = u.bump (Reg.DMC_RETRAIN_COUNT n) 1 →
      (Int.natAbs drift ≤ 4 → exec (.dramTracking dt n drift) s = .next u) ∧
      (4 < Int.natAbs drift → Int.natAbs drift ≤ 8 → exec (.dramTracking dt n drift) s = .next v) ∧
      (8 < Int.natAbs drift → exec (.dramTracking dt n drift) s = .next (v.raise 0x2E02 (srcDram n) n))) ∧
    (∀ n rate v, u.isReady 0x12 n = true → v = u.wr (Reg.DMC_STAT_REFRATE n) (min rate 7) →
      (rate = 0 → exec (.dramRefreshCheck dt n rate) s = .next (v.endCause 0x2E05 (srcDram n) n)) ∧
      (rate ≠ 0 → exec (.dramRefreshCheck dt n rate) s =
        .next (if v.causePresent 0x2E05 (srcDram n) n then v else v.raise 0x2E05 (srcDram n) n))) ∧
    (∀ n errors lanes, u.domOn (capDomain 0x12 n) = true → u.present 0x12 n = true → u.flag (Reg.DMC_PAT_CTL_EN n) = true → u.flag (Reg.DMC_PAT_CTL_DONE n) = false →
      exec (.dmcPatDone dt n errors lanes) s =
        .next (((u.wr (Reg.DMC_PAT_CTL_DONE n) 1).wr (Reg.DMC_CMP_ERR_COUNT n) (min errors 4294967295)).wr (Reg.DMC_CMP_LANE_MASK n) lanes)) ∧
    (∀ tests puf bad, u.domOn 57 = true → u.vaultReady = false → u.causePresent 0x2D07 srcVault 0 = false → u.causePresent 0x2D04 srcVault 0 = false →
      u.lifeCycle ≠ 0 → u.lifeCycle ≠ 5 →
      (tests = false → exec (.vaultPowerUp dt tests puf bad) s = .next (u.raise 0x2D07 srcVault 0)) ∧
      (tests = true → u.lifeCycle ≠ 3 → exec (.vaultPowerUp dt tests puf bad) s = .next (u.vaultStart bad)) ∧
      (tests = true → u.lifeCycle = 3 → exec (.vaultPowerUp dt tests puf bad) s =
        .next (if puf then (u.wr Reg.VLT_STAT_PUF_OK 1).vaultStart bad else u.raise 0x2D04 srcVault 0))) ∧
    (u.vaultReady = true → (∀ hits, exec (.vaultScrub dt hits) s = .next (hits.foldl (fun t i => t.badSlot i) (u.bump Reg.VLT_SCRUB_COUNT 1))) ∧
      (u.trngOk = true → exec (.vltTrngFail dt) s = .next ((u.wr Reg.VLT_STAT_TRNG_OK 0).raise 0x2D03 srcVault 0)) ∧
      (u.trngOk = false → exec (.trngRetry dt true) s = .next ((u.wr Reg.VLT_STAT_TRNG_OK 1).endCause 0x2D03 srcVault 0))) ∧
    (∀ v w, v = u.vlt.sweep.foldl (fun t i => (t.emptySlot i true).raise 0x2D02 srcVault i) u → w = { v with vlt := { v.vlt with sweep := [] } } →
      exec (.revokeSweep dt) s = .next w.countSlots)

/-- The frame of these events: what State.besideLanes shows does not change (R166, R169, 06_lane_phy.md, 07_stave_link.md). -/
def Obligations.LaneEventsLeaveTheRest : Prop :=
  ∀ (dt : Nat) (s u : State), u = s.elapse dt →
    (∀ l signs dfe, Leaves State.besideLanes u (exec (.adaptLmsUpdate dt l signs dfe) s)) ∧
    (∀ l, Leaves State.besideLanes u (exec (.stxLayoutLatch dt l) s)) ∧
    (∀ l, Leaves State.besideLanes u (exec (.staveSuperframeStart dt l) s)) ∧
    (∀ l cell lost, Leaves State.besideLanes u (exec (.msgCellReceive dt l cell lost) s)) ∧
    (∀ l, Leaves State.besideLanes u (exec (.laneSignalDetect dt l) s)) ∧
    (∀ l, Leaves State.besideLanes u (exec (.lnLos dt l) s)) ∧
    (∀ l, Leaves State.besideLanes u (exec (.lnCdrUnlock dt l) s)) ∧
    (∀ quad b, Leaves State.besideLanes u (exec (.pllUnlock dt quad b) s))

/-- The frame of these events: what State.besideNet shows does not change (R253, R372, R373, R381, 08_ethernet_ports.md, 09_ip_media.md);
only a message that ends a waiting TIM_RESTEP may change the interpreter beside it (R54, R376). -/
def Obligations.EthernetAndPtpEventsLeaveTheRest : Prop :=
  ∀ (dt : Nat) (s u : State), u = s.elapse dt →
    (∀ p codewords, Leaves State.besideNet u (exec (.ethFecDegrade dt p codewords) s)) ∧
    (∀ m, Leaves State.besideNet u (exec (.mgtLinkUp dt m) s)) ∧
    (∀ ends data, Leaves State.besideNet u (exec (.modXferDone dt ends data) s)) ∧
    (∀ p q, Leaves State.besideNet u (exec (.pauseExpiry dt p q) s)) ∧
    (∀ p bytes, Leaves State.besideNet u (exec (.pauseFrameReceive dt p bytes) s)) ∧
    (∀ m bytes, Leaves State.besideNet u (exec (.mgtServiceFrame dt m bytes) s)) ∧
    (∀ f leg, Leaves State.besideNet u (exec (.membershipReportSend dt f leg) s)) ∧
    (∀ p bytes, Leaves State.besideNet u (exec (.membershipQueryReceive dt p bytes) s)) ∧
    (∀ p q, Leaves State.besideNet u (exec (.ethPauseStorm dt p q) s)) ∧
    (∀ f, Leaves State.besideNet u (exec (.flowLoss dt f) s)) ∧
    (∀ p bytes full given, Leaves State.besideNet u (exec (.flowPacketReceive dt p bytes full given) s)) ∧
    (∀ f, Leaves State.besideNet u (exec (.txBehind dt f) s)) ∧
    (∀ reads, Leaves State.besideNet u (exec (.moduleHoldExpiry dt reads) s)) ∧
    (∀ samples, Leaves State.besideNet u (exec (.moduleLifeSample dt samples) s)) ∧
    (∀ reads, Leaves State.besideNet u (exec (.modulePoll dt reads) s)) ∧
    (Leaves State.besideNet u (exec (.moduleAccountWrite dt) s)) ∧
    (∀ p q, Leaves State.besideNet u (exec (.pauseHoldExpiry dt p q) s)) ∧
    (∀ target port, Leaves State.besideNet u (exec (.ptpDelayReqSend dt target port) s)) ∧
    (∀ p bytes, Leaves State.besideNet u (exec (.ptpDelayRespReceive dt p bytes) s)) ∧
    (∀ p bytes, Leaves State.besideNet u (exec (.ptpPdelayReqReceive dt p bytes) s)) ∧
    (∀ p bytes freq, LeavesOrTells (u.tim.stepCmd = none) State.besideNet u (exec (.ptpSyncReceive dt p bytes freq) s)) ∧
    (∀ p bytes freq, LeavesOrTells (u.tim.stepCmd = none) State.besideNet u (exec (.ptpFollowUpReceive dt p bytes freq) s)) ∧
    (∀ p bytes, LeavesOrTells (u.tim.stepCmd = none) State.besideNet u (exec (.ptpAnnounceReceive dt p bytes) s)) ∧
    (∀ p bytes residence, Leaves State.besideNet u (exec (.tcRelayForward dt p bytes residence) s))

/-- The frame of these events: what State.besideMedia shows does not change (R292, R295, 11_multiviewer.md, 12_encoding.md); the two
events of heads first carry out the reads of the follow ports (log entry 121), and only a message that ends a waiting ENC_RATE_SET may
change the interpreter beside it (R54, R365). -/
def Obligations.MediaEventsLeaveTheRest : Prop :=
  ∀ (dt : Nat) (s u : State), u = s.elapse dt →
    (Leaves State.besideMedia u (exec (.audClkLoss dt) s)) ∧
    (∀ groups, Leaves State.besideMedia u (exec (.audioRateMeasure dt groups) s)) ∧
    (Leaves State.besideMedia u (exec (.tdmClockStop dt) s)) ∧
    (∀ h, Leaves State.besideMedia u.followReads (exec (.bandStart dt h) s)) ∧
    (∀ h, Leaves State.besideMedia u.followReads (exec (.bandComplete dt h) s)) ∧
    (∀ h, Leaves State.besideMedia u (exec (.encRowDue dt h) s)) ∧
    (∀ h, LeavesOrTells (∀ x ∈ u.enc.chans, x.rates = []) State.besideMedia u (exec (.encRefreshPeriodStart dt h) s))

/-- The frame of these events: what State.besideFabric shows does not change (R97, R100, R113, R114, R134), but for what the reads of
the follow ports change that come first (log entry 121). -/
def Obligations.FabricEventsLeaveTheRest : Prop :=
  ∀ (dt : Nat) (s u : State), u = s.elapse dt →
    (Leaves State.besideFabric u.followReads (exec (.cellAgeExpiry dt) s)) ∧
    (∀ chan, Leaves State.besideFabric u.followReads (exec (.landingFrameSelect dt chan) s)) ∧
    (∀ chan, Leaves State.besideFabric u.followReads (exec (.ldgLoss dt chan) s)) ∧
    (∀ n quarter, Leaves State.besideFabric u.followReads (exec (.sourceNoSignal dt n quarter) s)) ∧
    (∀ g, Leaves State.besideFabric u (exec (.ephLoaderWrite dt g) s))

/-- The frame of these events: what State.besideVault shows does not change (R459, R467, R495). -/
def Obligations.VaultAndDramEventsLeaveTheRest : Prop :=
  ∀ (dt : Nat) (s u : State), u = s.elapse dt →
    (∀ pass, Leaves State.besideVault u (exec (.trngRetry dt pass) s)) ∧
    (Leaves State.besideVault u (exec (.vltTrngFail dt) s)) ∧
    (Leaves State.besideVault u (exec (.revokeSweep dt) s)) ∧
    (∀ n rate, Leaves State.besideVault u (exec (.dramRefreshCheck dt n rate) s)) ∧
    (∀ n drift, Leaves State.besideVault u (exec (.dramTracking dt n drift) s)) ∧
    (∀ n errors lanes, Leaves State.besideVault u (exec (.dmcPatDone dt n errors lanes) s))

/-- The frame of these events: what State.besideTime shows does not change (R374, R382, R392, R397, R409); only a message that ends a
waiting TIM_RESTEP may change the interpreter beside it (R54, R376). -/
def Obligations.ReferenceEventsLeaveTheRest : Prop :=
  ∀ (dt : Nat) (s u : State), u = s.elapse dt →
    (∀ phase freq, LeavesOrTells (u.tim.stepCmd = none) State.besideTime u (exec (.clk10mPhaseDetector dt phase freq) s)) ∧
    (∀ p, Leaves State.besideTime u (exec (.framePulseEdge dt p) s)) ∧
    (∀ e, LeavesOrTells (u.tim.stepCmd = none) State.besideTime u (exec (.refLoss dt e) s)) ∧
    (∀ input h freq, LeavesOrTells (u.tim.stepCmd = none) State.besideTime u (exec (.refPulseArrival dt input h freq) s)) ∧
    (∀ e, Leaves State.besideTime u (exec (.refQualified dt e) s)) ∧
    (∀ d, LeavesOrTells (u.tim.stepCmd = none) State.besideTime u (exec (.timPtpLoss dt d) s)) ∧
    (∀ p, Leaves State.besideTime u (exec (.timePulseEdge dt p) s)) ∧
    (Leaves State.besideTime u (exec (.timSecondTick dt) s))

/-- The frame of these events: what State.besideTwin shows does not change (R424, R425, R436, R441, R442, R443, R444). -/
def Obligations.TwinEventsLeaveTheRest : Prop :=
  ∀ (dt : Nat) (s u : State), u = s.elapse dt →
    (∀ bytes, Leaves State.besideTwin u (exec (.healthReceive dt bytes) s)) ∧
    (Leaves State.besideTwin u (exec (.healthSend dt) s)) ∧
    (Leaves State.besideTwin u (exec (.heartbeatSend dt) s)) ∧
    (∀ bytes, Leaves State.besideTwin u (exec (.heartbeatReceive dt bytes) s)) ∧
    (∀ bytes, Leaves State.besideTwin u (exec (.outhashReceive dt bytes) s)) ∧
    (∀ g, Leaves State.besideTwin u (exec (.outhashSend dt g) s)) ∧
    (Leaves State.besideTwin u (exec (.revertHoldoffExpiry dt) s)) ∧
    (∀ kind n, Leaves State.besideTwin u (exec (.bistTestStart dt kind n) s)) ∧
    (∀ bytes, Leaves State.besideTwin u (exec (.mirrorReplyReceive dt bytes) s)) ∧
    (Leaves State.besideTwin u (exec (.resyncRetry dt) s)) ∧
    (Leaves State.besideTwin u (exec (.twinGenGap dt) s)) ∧
    (Leaves State.besideTwin u (exec (.lkoFenceHigh dt) s))

/-- The frame of the queries: what lies outside the interpreter is as it was when the packet arrived (R46, R54). -/
def Obligations.QueriesLeaveTheRest : Prop :=
  ∀ (dt : Nat) (rq : Req) (s u : State) (p : List Byte),
    (Admits opSysNop dt rq s u p → ∃ t, exec (.sysNop dt rq) s = .next t ∧ t.outside = (s.arrive dt).outside) ∧
    (Admits opSysInfo dt rq s u p → ∃ t, exec (.sysInfo dt rq) s = .next t ∧ t.outside = (s.arrive dt).outside) ∧
    (Admits opSysAlmanacRead dt rq s u p → ∃ t, exec (.sysAlmanacRead dt rq) s = .next t ∧ t.outside = (s.arrive dt).outside) ∧
    (Admits opCruReport dt rq s u p → ∃ t, exec (.cruReport dt rq) s = .next t ∧ t.outside = (s.arrive dt).outside) ∧
    (Admits opFabQuery dt rq s u p → ∃ t, exec (.fabQuery dt rq) s = .next t ∧ t.outside = (s.arrive dt).outside) ∧
    (Admits opFabWindowStatus dt rq s u p → ∃ t, exec (.fabWindowStatus dt rq) s = .next t ∧ t.outside = (s.arrive dt).outside) ∧
    (Admits opEphList dt rq s u p → ∃ t, exec (.ephList dt rq) s = .next t ∧ t.outside = (s.arrive dt).outside) ∧
    (Admits opLanStatus dt rq s u p → ∃ t, exec (.lanStatus dt rq) s = .next t ∧ t.outside = (s.arrive dt).outside) ∧
    (Admits opNetModuleInfo dt rq s u p → ∃ t, exec (.netModuleInfo dt rq) s = .next t ∧ t.outside = (s.arrive dt).outside) ∧
    (Admits opAudRateStatus dt rq s u p → ∃ t, exec (.audRateStatus dt rq) s = .next t ∧ t.outside = (s.arrive dt).outside) ∧
    (Admits opEncStatus dt rq s u p → ∃ t, exec (.encStatus dt rq) s = .next t ∧ t.outside = (s.arrive dt).outside) ∧
    (Admits opTimStatus dt rq s u p → ∃ t, exec (.timStatus dt rq) s = .next t ∧ t.outside = (s.arrive dt).outside) ∧
    (Admits opRefStatus dt rq s u p → ∃ t, exec (.refStatus dt rq) s = .next t ∧ t.outside = (s.arrive dt).outside) ∧
    (Admits opTwnStatus dt rq s u p → ∃ t, exec (.twnStatus dt rq) s = .next t ∧ t.outside = (s.arrive dt).outside) ∧
    (Admits opVltSlotStatus dt rq s u p → ∃ t, exec (.vltSlotStatus dt rq) s = .next t ∧ t.outside = (s.arrive dt).outside) ∧
    (Admits opFltQuery dt rq s u p → ∃ t, exec (.fltQuery dt rq) s = .next t ∧ t.outside = (s.arrive dt).outside) ∧
    (Admits opFltHistory dt rq s u p → ∃ t, exec (.fltHistory dt rq) s = .next t ∧ t.outside = (s.arrive dt).outside) ∧
    (Admits opPwrWakeRecord dt rq s u p → ∃ t, exec (.pwrWakeRecord dt rq) s = .next t ∧ t.outside = (s.arrive dt).outside) ∧
    (Admits opUpdStatus dt rq s u p → ∃ t, exec (.updStatus dt rq) s = .next t ∧ t.outside = (s.arrive dt).outside)

/-- What a burst stores, and the frame of memory (R486, R500): the bytes from the address on, and no others. -/
def Obligations.MemoryBurstsStoreTheirBytes : Prop :=
  ∀ (dt m id a o : Nat) (d : List Byte) (s u : State), u = s.elapse dt → s.inv = true → u.masterRuns m = true → id < 256 →
    d ≠ [] → u.domOn 3 = true →
    (u.decode a = .sram o → reachesTarget m 1 = true → a % 256 + d.length ≤ 256 →
      ∃ t, exec (.skidwayTransaction dt m id a d.length (some d) .done) s = .next t ∧
        (∀ (i : Nat) (h : i < d.length), t.mem.sram.read (o + i) = d[i]) ∧
        (∀ y, y < o ∨ o + d.length ≤ y → t.mem.sram.read y = u.mem.sram.read y) ∧ t.mem.dram = u.mem.dram) ∧
    (u.decode a = .sram o → reachesTarget m 1 = true → a % 256 + d.length ≤ 256 →
      ∃ t, exec (.skidwayTransaction dt m id a d.length none .done) s = .next t ∧ t.mem.sram = u.mem.sram ∧ t.mem.dram = u.mem.dram ∧
        t.sent.head? = some (.response m true (u.memRead a d.length))) ∧
    (∀ t, (∀ r, u.decode a ≠ .register r) → u.mem.waiting = [] → exec (.skidwayTransaction dt m id a d.length (some d) .done) s = .next t →
      (∀ y, (∀ i < d.length, u.decode (a + i) ≠ .sram y) → t.mem.sram.read y = u.mem.sram.read y) ∧
      (∀ k, (∀ i < d.length, ∀ n ch x, u.decode (a + i) = .dram n ch x → dramKey ch x ≠ k) → t.dramByte k = u.dramByte k))

/-- The frame of the register writes (R6, R579, R584, R588). -/
def Obligations.RegisterWriteFrame : Prop :=
  ∀ (dt m w off v x : Nat) (s u : State), u = s.elapse dt → w < 256 → w ≠ 0 → off < windowSpan w → postedWindow w = false → x = v % 2 ^ 32 →
    (Accepts u m w off → 8 ≤ off → isRanger m = true → indirectData w off = false → ¬(w = 1 ∧ off = 0x40) →
      (∀ f ∈ registerAt w off, u.fieldBlocked f (x / 2 ^ f.1.lsb % 2 ^ f.1.width) = false) →
      State.written u (u.writeFields m w off x) w off x = u.writeFields m w off x →
      ∃ t, exec (.registerWrite dt m (regAddr w off) 32 v) s = .next t ∧
        (∀ g : FieldRef, (∀ f ∈ registerAt w off, g.key ≠ f.2.key) → t.rd g = u.rd g) ∧
        t.besideRegisters = u.besideRegisters) ∧
    (Accepts u m w 4 → ∃ t, exec (.blkStatWrite dt m w v) s = .next t ∧
      (∀ g : FieldRef, (∀ f ∈ [Reg.BLK_STAT_WDROP w, Reg.BLK_STAT_ACCERR w, Reg.BLK_STAT_LOCKVIOL w, Reg.BLK_STAT_VOTEFIX w, Reg.BLK_STAT_VOTELOST w],
        g.key ≠ f.key) → t.rd g = u.rd g) ∧
      t.besideRegisters = u.besideRegisters ∧ t.flt = u.flt)

/-- The FAB changes and the LAN commands from conditions on the state and the operands alone: a plain request that steps 12 to 16 do not
refuse is executed (R116-R118, R121, R175, R178, R179, R208). -/
def Obligations.PlainFabricAndLaneRequestsComplete : Prop :=
  ∀ (dt : Nat) (rq : Req) (s u : State) (p : List Byte), Plain (s.arrive dt) rq → u = (s.arrive dt).plainStart rq → p = rq.payload →
    (opFabRoute.refusal u false p = none → u.eph.staged < 8192 → ∀ g f, g = u.routeGen p 0 → f = u.routeFrame (ctxOf rq) g u.leadEnd →
      ∀ v, v = u.takeRoutes (ctxOf rq) (takeOf [u.routeRec p 0 f]) → (evaluate u v []).fails = 0 →
      exec (.fabRoute dt rq) s = .next (State.conclude opFabRoute rq p (weighed u (Done.pending v (frameRefBytes g f))))) ∧
    (opFabRouteBatch.refusal u false p = none → u.eph.staged + u16 p 0 ≤ 8192 →
      ∀ rs, rs = (blockOffsets 8 (u16 p 0)).map (fun o => u.routeRec p o (u.routeFrame (ctxOf rq) (u.routeGen p o) u.leadEnd)) →
      ∀ v, v = u.takeRoutes (ctxOf rq) (takeOf rs) → (evaluate u v []).fails = 0 →
      exec (.fabRouteBatch dt rq) s = .next (State.conclude opFabRouteBatch rq p (weighed u (Done.pending v
        (be32 (genFrames rs).length ++ (genFrames rs).flatMap fun r => frameRefBytes r.1 r.2))))) ∧
    (opFabBondDefine.refusal u false p = none →
      ∀ bs, bs = (if bit (u8 p 1) 0 then u.fab.bonds.filter fun b => b.members.head? != some (u16 p 4)
          else u.fab.bonds ++ [⟨bondMembers p, bit (u8 p 1) 1, bit (u8 p 1) 2⟩]) →
      ∀ v, v = { u with fab := { u.fab with bonds := bs } } → (evaluate u v []).fails = 0 →
      exec (.fabBondDefine dt rq) s = .next (State.conclude opFabBondDefine rq p (weighed u (Done.ok v []) true))) ∧
    (opFabSyncAssign.refusal u false p = none → ∀ d, d = opFabSyncAssign.run u (ctxOf rq) p →
      d.status = stPending ∧ d.payload = be32 (0x00060000 + syncChan p) ++ be16 (slotNo (landingSlot (syncChan p))) ++ zeros 2 ∧
      ((evaluate u d.state []).fails = 0 → exec (.fabSyncAssign dt rq) s = .next (State.conclude opFabSyncAssign rq p (weighed u d)))) ∧
    (opLanConfig.refusal u false p = none →
      ∀ v, v = ((u.applyLaneConfig p).formKr1 (u16 p 0) (u8 p 2) (bit (u8 p 3) 0)).modLane (u16 p 0) (fun x => { x with kept := some p }) →
      (evaluate u v []).fails = 0 → exec (.lanConfig dt rq) s = .next (State.conclude opLanConfig rq p (weighed u (Done.ok v [])))) ∧
    (opLanFom.refusal u false p = none → ∀ l pl, l = u16 p 0 →
      pl = be8 (u.rd (Reg.LNQ_FOM_FOM l)) ++ be8 (u.rd (Reg.LNQ_FOM_MIN l)) ++ be8 (u.lane l).fomMax ++ be8 (u.rd (Reg.LNQ_RXCTLE_PEAK l)) ++
        be16 (toBits 16 (u.rdInt (Reg.LNQ_DFE_TAP l))) ++ be16 (u.rd (Reg.LNQ_TXFFE_C0 l)) ++ (u.lane l).ffe.flatMap (fun c => be16 (toBits 16 c)) →
      exec (.lanFom dt rq) s = .next (State.conclude opLanFom rq p (Done.ok (if bit (u8 p 2) 0
        then (u.wr (Reg.LNQ_FOM_MIN l) 255).modLane l fun y => { y with fomMax := 0 } else u) pl))) ∧
    (opLanSleep.refusal u false p = none → ∀ lanes v, lanes = (List.range (u16 p 2)).map (fun i => u16 p 0 + i) →
      v = lanes.foldl (fun t l => t.sleepLane l (u8 p 4) (u8 p 5) (bit (u8 p 6) 0)) u →
      (u8 p 4 ≠ 0 → u8 p 5 ≠ 0 → (evaluate u (v.entriesDone lanes) []).fails = 0 →
        exec (.lanSleep dt rq) s = .next (State.conclude opLanSleep rq p (weighed u (Done.ok (v.entriesDone lanes) [])))) ∧
      (∀ tx w, u8 p 4 = 0 → u8 p 5 ≠ 0 → tx = (lanes.filter fun l => u.rd (Reg.LNQ_SLEEP_TX_STATE l) != 0 || (u.lane l).tx.endsAt.isSome) → tx ≠ [] →
        w = v.await ⟨rq.tag, rq.session, 0, .lanes tx [], none⟩ → (evaluate u w []).fails = 0 →
        exec (.lanSleep dt rq) s = .next (State.conclude opLanSleep rq p (weighed u (Done.pending w []))))) ∧
    (opLanSlotmask.refusal u false p = none → ∀ l y v, l = u16 p 0 →
      y = (if bit (u8 p 2) 0 then ⟨u16 p 6, u16 p 4, u64 p 8⟩ else u.autoLayout l (u16 p 4)) →
      v = [(Reg.LNQ_STX_MASK_SLOTS l, y.slots), (Reg.LNQ_STX_MASK_QMAP l, y.qmap), (Reg.LNQ_STX_QACT_LO_Q l, y.qact),
        (Reg.LNQ_STX_QACT_HI_Q l, y.qact / 2 ^ 32), (Reg.LNQ_STX_CTL_AUTO l, b01 (!bit (u8 p 2) 0))].foldl (fun t w => t.wr w.1 w.2)
          (u.modLane l fun x => { x with forward := if bit (u8 p 2) 0 then some y else none, manual := bit (u8 p 2) 0, qmapSet := u16 p 4 }) →
      (evaluate u v []).fails = 0 →
      exec (.lanSlotmask dt rq) s = .next (State.conclude opLanSlotmask rq p (weighed u (Done.ok v (be64 u.nextSuperframe)))))
end

