-- ==== Sys2Proof/Laws/RegFile.lean ====
section
/-!
SUPPORT. Laws of the register file: a field reads what was last put there, a put leaves every other field alone, and
every operation keeps the keys strictly rising.
-/
namespace Sys2Proof.Machine

theorem RegFile.find_ins_self (r : RegFile) (x w : Nat) : (r.ins x w).find x = some w := by
  induction r with
  | nil => simp [RegFile.ins, RegFile.find]
  | cons p r ih =>
    obtain ⟨k, v⟩ := p
    rcases Nat.lt_trichotomy x k with h | h | h
    · simp [RegFile.ins, RegFile.find, h, h.ne]
    · simp [RegFile.ins, RegFile.find, h]
    · simp [RegFile.ins, RegFile.find, h.ne', Nat.not_lt.2 h.le, ih]

theorem RegFile.find_ins_other (r : RegFile) {x y : Nat} (w : Nat) (hxy : y ≠ x) : (r.ins x w).find y = r.find y := by
  induction r with
  | nil => simp [RegFile.ins, RegFile.find, hxy]
  | cons p r ih =>
    obtain ⟨k, v⟩ := p
    rcases Nat.lt_trichotomy x k with h | h | h
    · rw [RegFile.ins, if_neg h.ne, if_pos h, RegFile.find, if_neg hxy]
      split
      · rw [RegFile.find, if_neg (by omega), if_pos (by omega)]
      · rfl
    · subst h
      simp [RegFile.ins, RegFile.find, hxy]
    · rw [RegFile.ins, if_neg h.ne', if_neg (by omega), RegFile.find, RegFile.find, ih]

/-- A field reads back what was put into it, cut to its width. -/
@[simp] theorem RegFile.get_put_self (r : RegFile) (f : FieldRef) (v : Nat) : (r.put f v).get f = v % 2 ^ f.width := by
  simp [RegFile.get, RegFile.put, RegFile.find_ins_self]

/-- A put leaves every field of another key as it was. -/
theorem RegFile.get_put_other (r : RegFile) {f g : FieldRef} (v : Nat) (h : g.key ≠ f.key) : (r.put f v).get g = r.get g := by
  simp [RegFile.get, RegFile.put, RegFile.find_ins_other r _ h]

theorem RegFile.mem_ins {r : RegFile} {x w : Nat} {p : Nat × Nat} (h : p ∈ r.ins x w) : p = (x, w) ∨ p ∈ r := by
  induction r with
  | nil => simpa [RegFile.ins] using h
  | cons q r ih =>
    obtain ⟨k, v⟩ := q
    simp only [RegFile.ins] at h
    split at h
    · simp_all; tauto
    · split at h
      · simpa using h
      · rcases List.mem_cons.1 h with h | h
        · simp [h]
        · rcases ih h with h | h <;> simp [h]

/-- Putting a value under a key keeps the keys strictly rising. -/
theorem RegFile.wf_ins {r : RegFile} (x w : Nat) (h : r.wf = true) : (r.ins x w).wf = true := by
  induction r with
  | nil => simp [RegFile.ins, RegFile.wf]
  | cons p r ih =>
    obtain ⟨k, v⟩ := p
    have hw := h
    simp only [RegFile.wf, Bool.and_eq_true, List.all_eq_true, decide_eq_true_eq] at h
    rcases Nat.lt_trichotomy x k with hx | hx | hx
    · rw [RegFile.ins, if_neg hx.ne, if_pos hx, RegFile.wf, hw, Bool.and_true, List.all_eq_true]
      intro q hq
      rcases List.mem_cons.1 hq with rfl | hq
      · simpa using hx
      · simpa using hx.trans (h.1 q hq)
    · subst hx
      simpa [RegFile.ins, RegFile.wf] using h
    · rw [RegFile.ins, if_neg hx.ne', if_neg (by omega), RegFile.wf, ih h.2, Bool.and_true, List.all_eq_true]
      intro q hq
      rcases RegFile.mem_ins hq with rfl | hq
      · simpa using hx
      · simpa using h.1 q hq

theorem RegFile.wf_put {r : RegFile} (f : FieldRef) (v : Nat) (h : r.wf = true) : (r.put f v).wf = true :=
  RegFile.wf_ins _ _ h

/-- A register file from which entries are taken away is still in canonical form. -/
theorem RegFile.wf_filter {r : RegFile} (p : Nat × Nat → Bool) (h : r.wf = true) : RegFile.wf (r.filter p) = true := by
  induction r with
  | nil => rfl
  | cons q r ih =>
    simp only [RegFile.wf, Bool.and_eq_true, List.all_eq_true, decide_eq_true_eq] at h
    rw [List.filter_cons]
    split
    · simp only [RegFile.wf, Bool.and_eq_true, List.all_eq_true, decide_eq_true_eq]
      exact ⟨fun x hx => h.1 x (List.mem_filter.1 hx).1, ih h.2⟩
    · exact ih h.2

theorem RegFile.wf_dropRange {r : RegFile} (lo hi : Nat) (h : r.wf = true) : (r.dropRange lo hi).wf = true :=
  RegFile.wf_filter _ h

end Sys2Proof.Machine
end

