-- ==== Sys2Proof/Laws/State.lean ====
section
/-!
SUPPORT. What the named updates of the state leave alone, field by field; the register operations; the passing of time; and what
raising an event can change.
-/
namespace Sys2Proof.Machine
open Sys2Proof

/-! ### wr -/

@[simp] theorem State.wr_pending (s : State) (f : FieldRef) (v : Nat) : (s.wr f v).pending = s.pending := rfl
@[simp] theorem State.wr_now (s : State) (f : FieldRef) (v : Nat) : (s.wr f v).now = s.now := rfl
@[simp] theorem State.wr_fresh (s : State) (f : FieldRef) (v : Nat) : (s.wr f v).fresh = s.fresh := rfl
@[simp] theorem State.wr_variant (s : State) (f : FieldRef) (v : Nat) : (s.wr f v).variant = s.variant := rfl
@[simp] theorem State.wr_ready (s : State) (f : FieldRef) (v : Nat) : (s.wr f v).ready = s.ready := rfl
@[simp] theorem State.wr_isolated (s : State) (f : FieldRef) (v : Nat) : (s.wr f v).isolated = s.isolated := rfl
@[simp] theorem State.wr_flt (s : State) (f : FieldRef) (v : Nat) : (s.wr f v).flt = s.flt := rfl
@[simp] theorem State.wr_pwr (s : State) (f : FieldRef) (v : Nat) : (s.wr f v).pwr = s.pwr := rfl
@[simp] theorem State.wr_boot (s : State) (f : FieldRef) (v : Nat) : (s.wr f v).boot = s.boot := rfl
@[simp] theorem State.wr_cyx (s : State) (f : FieldRef) (v : Nat) : (s.wr f v).cyx = s.cyx := rfl
@[simp] theorem State.wr_fab (s : State) (f : FieldRef) (v : Nat) : (s.wr f v).fab = s.fab := rfl
@[simp] theorem State.wr_eph (s : State) (f : FieldRef) (v : Nat) : (s.wr f v).eph = s.eph := rfl
@[simp] theorem State.wr_lan (s : State) (f : FieldRef) (v : Nat) : (s.wr f v).lan = s.lan := rfl
@[simp] theorem State.wr_net (s : State) (f : FieldRef) (v : Nat) : (s.wr f v).net = s.net := rfl
@[simp] theorem State.wr_aud (s : State) (f : FieldRef) (v : Nat) : (s.wr f v).aud = s.aud := rfl
@[simp] theorem State.wr_mvw (s : State) (f : FieldRef) (v : Nat) : (s.wr f v).mvw = s.mvw := rfl
@[simp] theorem State.wr_enc (s : State) (f : FieldRef) (v : Nat) : (s.wr f v).enc = s.enc := rfl
@[simp] theorem State.wr_cru (s : State) (f : FieldRef) (v : Nat) : (s.wr f v).cru = s.cru := rfl
@[simp] theorem State.wr_tim (s : State) (f : FieldRef) (v : Nat) : (s.wr f v).tim = s.tim := rfl
@[simp] theorem State.wr_ref (s : State) (f : FieldRef) (v : Nat) : (s.wr f v).ref = s.ref := rfl
@[simp] theorem State.wr_mem (s : State) (f : FieldRef) (v : Nat) : (s.wr f v).mem = s.mem := rfl
@[simp] theorem State.wr_vlt (s : State) (f : FieldRef) (v : Nat) : (s.wr f v).vlt = s.vlt := rfl
@[simp] theorem State.wr_twn (s : State) (f : FieldRef) (v : Nat) : (s.wr f v).twn = s.twn := rfl
@[simp] theorem State.wr_sent (s : State) (f : FieldRef) (v : Nat) : (s.wr f v).sent = s.sent := rfl

/-! ### travel -/

@[simp] theorem State.travel_pending (s : State) (w : Nat) : (s.travel w).pending = s.pending := rfl
@[simp] theorem State.travel_now (s : State) (w : Nat) : (s.travel w).now = s.now := rfl
@[simp] theorem State.travel_fresh (s : State) (w : Nat) : (s.travel w).fresh = s.fresh := rfl
@[simp] theorem State.travel_variant (s : State) (w : Nat) : (s.travel w).variant = s.variant := rfl
@[simp] theorem State.travel_ready (s : State) (w : Nat) : (s.travel w).ready = s.ready := rfl
@[simp] theorem State.travel_isolated (s : State) (w : Nat) : (s.travel w).isolated = s.isolated := rfl
@[simp] theorem State.travel_regs (s : State) (w : Nat) : (s.travel w).regs = s.regs := rfl
@[simp] theorem State.travel_flt (s : State) (w : Nat) : (s.travel w).flt = s.flt := rfl
@[simp] theorem State.travel_boot (s : State) (w : Nat) : (s.travel w).boot = s.boot := rfl
@[simp] theorem State.travel_cyx (s : State) (w : Nat) : (s.travel w).cyx = s.cyx := rfl
@[simp] theorem State.travel_fab (s : State) (w : Nat) : (s.travel w).fab = s.fab := rfl
@[simp] theorem State.travel_eph (s : State) (w : Nat) : (s.travel w).eph = s.eph := rfl
@[simp] theorem State.travel_lan (s : State) (w : Nat) : (s.travel w).lan = s.lan := rfl
@[simp] theorem State.travel_net (s : State) (w : Nat) : (s.travel w).net = s.net := rfl
@[simp] theorem State.travel_aud (s : State) (w : Nat) : (s.travel w).aud = s.aud := rfl
@[simp] theorem State.travel_mvw (s : State) (w : Nat) : (s.travel w).mvw = s.mvw := rfl
@[simp] theorem State.travel_enc (s : State) (w : Nat) : (s.travel w).enc = s.enc := rfl
@[simp] theorem State.travel_cru (s : State) (w : Nat) : (s.travel w).cru = s.cru := rfl
@[simp] theorem State.travel_tim (s : State) (w : Nat) : (s.travel w).tim = s.tim := rfl
@[simp] theorem State.travel_ref (s : State) (w : Nat) : (s.travel w).ref = s.ref := rfl
@[simp] theorem State.travel_mem (s : State) (w : Nat) : (s.travel w).mem = s.mem := rfl
@[simp] theorem State.travel_vlt (s : State) (w : Nat) : (s.travel w).vlt = s.vlt := rfl
@[simp] theorem State.travel_twn (s : State) (w : Nat) : (s.travel w).twn = s.twn := rfl
@[simp] theorem State.travel_sent (s : State) (w : Nat) : (s.travel w).sent = s.sent := rfl

/-! ### postedDone -/

@[simp] theorem State.postedDone_pending (s : State) (w : Nat) : (s.postedDone w).pending = s.pending := rfl
@[simp] theorem State.postedDone_now (s : State) (w : Nat) : (s.postedDone w).now = s.now := rfl
@[simp] theorem State.postedDone_fresh (s : State) (w : Nat) : (s.postedDone w).fresh = s.fresh := rfl
@[simp] theorem State.postedDone_variant (s : State) (w : Nat) : (s.postedDone w).variant = s.variant := rfl
@[simp] theorem State.postedDone_ready (s : State) (w : Nat) : (s.postedDone w).ready = s.ready := rfl
@[simp] theorem State.postedDone_isolated (s : State) (w : Nat) : (s.postedDone w).isolated = s.isolated := rfl
@[simp] theorem State.postedDone_regs (s : State) (w : Nat) : (s.postedDone w).regs = s.regs := rfl
@[simp] theorem State.postedDone_flt (s : State) (w : Nat) : (s.postedDone w).flt = s.flt := rfl
@[simp] theorem State.postedDone_boot (s : State) (w : Nat) : (s.postedDone w).boot = s.boot := rfl
@[simp] theorem State.postedDone_cyx (s : State) (w : Nat) : (s.postedDone w).cyx = s.cyx := rfl
@[simp] theorem State.postedDone_fab (s : State) (w : Nat) : (s.postedDone w).fab = s.fab := rfl
@[simp] theorem State.postedDone_eph (s : State) (w : Nat) : (s.postedDone w).eph = s.eph := rfl
@[simp] theorem State.postedDone_lan (s : State) (w : Nat) : (s.postedDone w).lan = s.lan := rfl
@[simp] theorem State.postedDone_net (s : State) (w : Nat) : (s.postedDone w).net = s.net := rfl
@[simp] theorem State.postedDone_aud (s : State) (w : Nat) : (s.postedDone w).aud = s.aud := rfl
@[simp] theorem State.postedDone_mvw (s : State) (w : Nat) : (s.postedDone w).mvw = s.mvw := rfl
@[simp] theorem State.postedDone_enc (s : State) (w : Nat) : (s.postedDone w).enc = s.enc := rfl
@[simp] theorem State.postedDone_cru (s : State) (w : Nat) : (s.postedDone w).cru = s.cru := rfl
@[simp] theorem State.postedDone_tim (s : State) (w : Nat) : (s.postedDone w).tim = s.tim := rfl
@[simp] theorem State.postedDone_ref (s : State) (w : Nat) : (s.postedDone w).ref = s.ref := rfl
@[simp] theorem State.postedDone_mem (s : State) (w : Nat) : (s.postedDone w).mem = s.mem := rfl
@[simp] theorem State.postedDone_vlt (s : State) (w : Nat) : (s.postedDone w).vlt = s.vlt := rfl
@[simp] theorem State.postedDone_twn (s : State) (w : Nat) : (s.postedDone w).twn = s.twn := rfl
@[simp] theorem State.postedDone_sent (s : State) (w : Nat) : (s.postedDone w).sent = s.sent := rfl

/-! ### served -/

@[simp] theorem State.served_pending (s : State) (id origin : Nat) : (s.served id origin).pending = s.pending := rfl
@[simp] theorem State.served_now (s : State) (id origin : Nat) : (s.served id origin).now = s.now := rfl
@[simp] theorem State.served_fresh (s : State) (id origin : Nat) : (s.served id origin).fresh = s.fresh := rfl
@[simp] theorem State.served_variant (s : State) (id origin : Nat) : (s.served id origin).variant = s.variant := rfl
@[simp] theorem State.served_ready (s : State) (id origin : Nat) : (s.served id origin).ready = s.ready := rfl
@[simp] theorem State.served_isolated (s : State) (id origin : Nat) : (s.served id origin).isolated = s.isolated := rfl
@[simp] theorem State.served_regs (s : State) (id origin : Nat) : (s.served id origin).regs = s.regs := rfl
@[simp] theorem State.served_flt (s : State) (id origin : Nat) : (s.served id origin).flt = s.flt := rfl
@[simp] theorem State.served_pwr (s : State) (id origin : Nat) : (s.served id origin).pwr = s.pwr := rfl
@[simp] theorem State.served_boot (s : State) (id origin : Nat) : (s.served id origin).boot = s.boot := rfl
@[simp] theorem State.served_fab (s : State) (id origin : Nat) : (s.served id origin).fab = s.fab := rfl
@[simp] theorem State.served_eph (s : State) (id origin : Nat) : (s.served id origin).eph = s.eph := rfl
@[simp] theorem State.served_lan (s : State) (id origin : Nat) : (s.served id origin).lan = s.lan := rfl
@[simp] theorem State.served_net (s : State) (id origin : Nat) : (s.served id origin).net = s.net := rfl
@[simp] theorem State.served_aud (s : State) (id origin : Nat) : (s.served id origin).aud = s.aud := rfl
@[simp] theorem State.served_mvw (s : State) (id origin : Nat) : (s.served id origin).mvw = s.mvw := rfl
@[simp] theorem State.served_enc (s : State) (id origin : Nat) : (s.served id origin).enc = s.enc := rfl
@[simp] theorem State.served_cru (s : State) (id origin : Nat) : (s.served id origin).cru = s.cru := rfl
@[simp] theorem State.served_tim (s : State) (id origin : Nat) : (s.served id origin).tim = s.tim := rfl
@[simp] theorem State.served_ref (s : State) (id origin : Nat) : (s.served id origin).ref = s.ref := rfl
@[simp] theorem State.served_mem (s : State) (id origin : Nat) : (s.served id origin).mem = s.mem := rfl
@[simp] theorem State.served_vlt (s : State) (id origin : Nat) : (s.served id origin).vlt = s.vlt := rfl
@[simp] theorem State.served_twn (s : State) (id origin : Nat) : (s.served id origin).twn = s.twn := rfl
@[simp] theorem State.served_sent (s : State) (id origin : Nat) : (s.served id origin).sent = s.sent := rfl

/-! ### noteMirrored -/

@[simp] theorem State.noteMirrored_pending (s : State) (v : Verdict) : (s.noteMirrored v).pending = s.pending := rfl
@[simp] theorem State.noteMirrored_now (s : State) (v : Verdict) : (s.noteMirrored v).now = s.now := rfl
@[simp] theorem State.noteMirrored_fresh (s : State) (v : Verdict) : (s.noteMirrored v).fresh = s.fresh := rfl
@[simp] theorem State.noteMirrored_variant (s : State) (v : Verdict) : (s.noteMirrored v).variant = s.variant := rfl
@[simp] theorem State.noteMirrored_ready (s : State) (v : Verdict) : (s.noteMirrored v).ready = s.ready := rfl
@[simp] theorem State.noteMirrored_isolated (s : State) (v : Verdict) : (s.noteMirrored v).isolated = s.isolated := rfl
@[simp] theorem State.noteMirrored_regs (s : State) (v : Verdict) : (s.noteMirrored v).regs = s.regs := rfl
@[simp] theorem State.noteMirrored_flt (s : State) (v : Verdict) : (s.noteMirrored v).flt = s.flt := rfl
@[simp] theorem State.noteMirrored_pwr (s : State) (v : Verdict) : (s.noteMirrored v).pwr = s.pwr := rfl
@[simp] theorem State.noteMirrored_boot (s : State) (v : Verdict) : (s.noteMirrored v).boot = s.boot := rfl
@[simp] theorem State.noteMirrored_cyx (s : State) (v : Verdict) : (s.noteMirrored v).cyx = s.cyx := rfl
@[simp] theorem State.noteMirrored_fab (s : State) (v : Verdict) : (s.noteMirrored v).fab = s.fab := rfl
@[simp] theorem State.noteMirrored_eph (s : State) (v : Verdict) : (s.noteMirrored v).eph = s.eph := rfl
@[simp] theorem State.noteMirrored_lan (s : State) (v : Verdict) : (s.noteMirrored v).lan = s.lan := rfl
@[simp] theorem State.noteMirrored_net (s : State) (v : Verdict) : (s.noteMirrored v).net = s.net := rfl
@[simp] theorem State.noteMirrored_aud (s : State) (v : Verdict) : (s.noteMirrored v).aud = s.aud := rfl
@[simp] theorem State.noteMirrored_mvw (s : State) (v : Verdict) : (s.noteMirrored v).mvw = s.mvw := rfl
@[simp] theorem State.noteMirrored_enc (s : State) (v : Verdict) : (s.noteMirrored v).enc = s.enc := rfl
@[simp] theorem State.noteMirrored_tim (s : State) (v : Verdict) : (s.noteMirrored v).tim = s.tim := rfl
@[simp] theorem State.noteMirrored_ref (s : State) (v : Verdict) : (s.noteMirrored v).ref = s.ref := rfl
@[simp] theorem State.noteMirrored_mem (s : State) (v : Verdict) : (s.noteMirrored v).mem = s.mem := rfl
@[simp] theorem State.noteMirrored_vlt (s : State) (v : Verdict) : (s.noteMirrored v).vlt = s.vlt := rfl
@[simp] theorem State.noteMirrored_twn (s : State) (v : Verdict) : (s.noteMirrored v).twn = s.twn := rfl
@[simp] theorem State.noteMirrored_sent (s : State) (v : Verdict) : (s.noteMirrored v).sent = s.sent := rfl

/-! ### endCause -/

@[simp] theorem State.endCause_pending (s : State) (code : Nat) (src : Nat) (obj : Nat) : (s.endCause code src obj).pending = s.pending := rfl
@[simp] theorem State.endCause_now (s : State) (code : Nat) (src : Nat) (obj : Nat) : (s.endCause code src obj).now = s.now := rfl
@[simp] theorem State.endCause_fresh (s : State) (code : Nat) (src : Nat) (obj : Nat) : (s.endCause code src obj).fresh = s.fresh := rfl
@[simp] theorem State.endCause_variant (s : State) (code : Nat) (src : Nat) (obj : Nat) : (s.endCause code src obj).variant = s.variant := rfl
@[simp] theorem State.endCause_regs (s : State) (code : Nat) (src : Nat) (obj : Nat) : (s.endCause code src obj).regs = s.regs := rfl
@[simp] theorem State.endCause_ready (s : State) (code : Nat) (src : Nat) (obj : Nat) : (s.endCause code src obj).ready = s.ready := rfl
@[simp] theorem State.endCause_isolated (s : State) (code : Nat) (src : Nat) (obj : Nat) : (s.endCause code src obj).isolated = s.isolated := rfl
@[simp] theorem State.endCause_pwr (s : State) (code : Nat) (src : Nat) (obj : Nat) : (s.endCause code src obj).pwr = s.pwr := rfl
@[simp] theorem State.endCause_boot (s : State) (code : Nat) (src : Nat) (obj : Nat) : (s.endCause code src obj).boot = s.boot := rfl
@[simp] theorem State.endCause_cyx (s : State) (code : Nat) (src : Nat) (obj : Nat) : (s.endCause code src obj).cyx = s.cyx := rfl
@[simp] theorem State.endCause_fab (s : State) (code : Nat) (src : Nat) (obj : Nat) : (s.endCause code src obj).fab = s.fab := rfl
@[simp] theorem State.endCause_eph (s : State) (code : Nat) (src : Nat) (obj : Nat) : (s.endCause code src obj).eph = s.eph := rfl
@[simp] theorem State.endCause_lan (s : State) (code : Nat) (src : Nat) (obj : Nat) : (s.endCause code src obj).lan = s.lan := rfl
@[simp] theorem State.endCause_net (s : State) (code : Nat) (src : Nat) (obj : Nat) : (s.endCause code src obj).net = s.net := rfl
@[simp] theorem State.endCause_aud (s : State) (code : Nat) (src : Nat) (obj : Nat) : (s.endCause code src obj).aud = s.aud := rfl
@[simp] theorem State.endCause_mvw (s : State) (code : Nat) (src : Nat) (obj : Nat) : (s.endCause code src obj).mvw = s.mvw := rfl
@[simp] theorem State.endCause_enc (s : State) (code : Nat) (src : Nat) (obj : Nat) : (s.endCause code src obj).enc = s.enc := rfl
@[simp] theorem State.endCause_cru (s : State) (code : Nat) (src : Nat) (obj : Nat) : (s.endCause code src obj).cru = s.cru := rfl
@[simp] theorem State.endCause_tim (s : State) (code : Nat) (src : Nat) (obj : Nat) : (s.endCause code src obj).tim = s.tim := rfl
@[simp] theorem State.endCause_ref (s : State) (code : Nat) (src : Nat) (obj : Nat) : (s.endCause code src obj).ref = s.ref := rfl
@[simp] theorem State.endCause_mem (s : State) (code : Nat) (src : Nat) (obj : Nat) : (s.endCause code src obj).mem = s.mem := rfl
@[simp] theorem State.endCause_vlt (s : State) (code : Nat) (src : Nat) (obj : Nat) : (s.endCause code src obj).vlt = s.vlt := rfl
@[simp] theorem State.endCause_twn (s : State) (code : Nat) (src : Nat) (obj : Nat) : (s.endCause code src obj).twn = s.twn := rfl
@[simp] theorem State.endCause_sent (s : State) (code : Nat) (src : Nat) (obj : Nat) : (s.endCause code src obj).sent = s.sent := rfl
@[simp] theorem State.endCause_rd (s : State) (code : Nat) (src : Nat) (obj : Nat) (fr : FieldRef) : (s.endCause code src obj).rd fr = s.rd fr := rfl

/-! ### modRef -/

@[simp] theorem State.modRef_pending (s : State) (f : RefState → RefState) : (s.modRef f).pending = s.pending := rfl
@[simp] theorem State.modRef_now (s : State) (f : RefState → RefState) : (s.modRef f).now = s.now := rfl
@[simp] theorem State.modRef_fresh (s : State) (f : RefState → RefState) : (s.modRef f).fresh = s.fresh := rfl
@[simp] theorem State.modRef_variant (s : State) (f : RefState → RefState) : (s.modRef f).variant = s.variant := rfl
@[simp] theorem State.modRef_regs (s : State) (f : RefState → RefState) : (s.modRef f).regs = s.regs := rfl
@[simp] theorem State.modRef_ready (s : State) (f : RefState → RefState) : (s.modRef f).ready = s.ready := rfl
@[simp] theorem State.modRef_isolated (s : State) (f : RefState → RefState) : (s.modRef f).isolated = s.isolated := rfl
@[simp] theorem State.modRef_flt (s : State) (f : RefState → RefState) : (s.modRef f).flt = s.flt := rfl
@[simp] theorem State.modRef_pwr (s : State) (f : RefState → RefState) : (s.modRef f).pwr = s.pwr := rfl
@[simp] theorem State.modRef_boot (s : State) (f : RefState → RefState) : (s.modRef f).boot = s.boot := rfl
@[simp] theorem State.modRef_cyx (s : State) (f : RefState → RefState) : (s.modRef f).cyx = s.cyx := rfl
@[simp] theorem State.modRef_fab (s : State) (f : RefState → RefState) : (s.modRef f).fab = s.fab := rfl
@[simp] theorem State.modRef_eph (s : State) (f : RefState → RefState) : (s.modRef f).eph = s.eph := rfl
@[simp] theorem State.modRef_lan (s : State) (f : RefState → RefState) : (s.modRef f).lan = s.lan := rfl
@[simp] theorem State.modRef_net (s : State) (f : RefState → RefState) : (s.modRef f).net = s.net := rfl
@[simp] theorem State.modRef_aud (s : State) (f : RefState → RefState) : (s.modRef f).aud = s.aud := rfl
@[simp] theorem State.modRef_mvw (s : State) (f : RefState → RefState) : (s.modRef f).mvw = s.mvw := rfl
@[simp] theorem State.modRef_enc (s : State) (f : RefState → RefState) : (s.modRef f).enc = s.enc := rfl
@[simp] theorem State.modRef_cru (s : State) (f : RefState → RefState) : (s.modRef f).cru = s.cru := rfl
@[simp] theorem State.modRef_tim (s : State) (f : RefState → RefState) : (s.modRef f).tim = s.tim := rfl
@[simp] theorem State.modRef_mem (s : State) (f : RefState → RefState) : (s.modRef f).mem = s.mem := rfl
@[simp] theorem State.modRef_vlt (s : State) (f : RefState → RefState) : (s.modRef f).vlt = s.vlt := rfl
@[simp] theorem State.modRef_twn (s : State) (f : RefState → RefState) : (s.modRef f).twn = s.twn := rfl
@[simp] theorem State.modRef_sent (s : State) (f : RefState → RefState) : (s.modRef f).sent = s.sent := rfl
@[simp] theorem State.modRef_rd (s : State) (f : RefState → RefState) (fr : FieldRef) : (s.modRef f).rd fr = s.rd fr := rfl

/-! ### putFlow -/

@[simp] theorem State.putFlow_pending (s : State) (f : Flow) : (s.putFlow f).pending = s.pending := rfl
@[simp] theorem State.putFlow_now (s : State) (f : Flow) : (s.putFlow f).now = s.now := rfl
@[simp] theorem State.putFlow_fresh (s : State) (f : Flow) : (s.putFlow f).fresh = s.fresh := rfl
@[simp] theorem State.putFlow_variant (s : State) (f : Flow) : (s.putFlow f).variant = s.variant := rfl
@[simp] theorem State.putFlow_regs (s : State) (f : Flow) : (s.putFlow f).regs = s.regs := rfl
@[simp] theorem State.putFlow_ready (s : State) (f : Flow) : (s.putFlow f).ready = s.ready := rfl
@[simp] theorem State.putFlow_isolated (s : State) (f : Flow) : (s.putFlow f).isolated = s.isolated := rfl
@[simp] theorem State.putFlow_flt (s : State) (f : Flow) : (s.putFlow f).flt = s.flt := rfl
@[simp] theorem State.putFlow_pwr (s : State) (f : Flow) : (s.putFlow f).pwr = s.pwr := rfl
@[simp] theorem State.putFlow_boot (s : State) (f : Flow) : (s.putFlow f).boot = s.boot := rfl
@[simp] theorem State.putFlow_cyx (s : State) (f : Flow) : (s.putFlow f).cyx = s.cyx := rfl
@[simp] theorem State.putFlow_fab (s : State) (f : Flow) : (s.putFlow f).fab = s.fab := rfl
@[simp] theorem State.putFlow_eph (s : State) (f : Flow) : (s.putFlow f).eph = s.eph := rfl
@[simp] theorem State.putFlow_lan (s : State) (f : Flow) : (s.putFlow f).lan = s.lan := rfl
@[simp] theorem State.putFlow_aud (s : State) (f : Flow) : (s.putFlow f).aud = s.aud := rfl
@[simp] theorem State.putFlow_mvw (s : State) (f : Flow) : (s.putFlow f).mvw = s.mvw := rfl
@[simp] theorem State.putFlow_enc (s : State) (f : Flow) : (s.putFlow f).enc = s.enc := rfl
@[simp] theorem State.putFlow_cru (s : State) (f : Flow) : (s.putFlow f).cru = s.cru := rfl
@[simp] theorem State.putFlow_tim (s : State) (f : Flow) : (s.putFlow f).tim = s.tim := rfl
@[simp] theorem State.putFlow_ref (s : State) (f : Flow) : (s.putFlow f).ref = s.ref := rfl
@[simp] theorem State.putFlow_mem (s : State) (f : Flow) : (s.putFlow f).mem = s.mem := rfl
@[simp] theorem State.putFlow_vlt (s : State) (f : Flow) : (s.putFlow f).vlt = s.vlt := rfl
@[simp] theorem State.putFlow_twn (s : State) (f : Flow) : (s.putFlow f).twn = s.twn := rfl
@[simp] theorem State.putFlow_sent (s : State) (f : Flow) : (s.putFlow f).sent = s.sent := rfl
@[simp] theorem State.putFlow_rd (s : State) (f : Flow) (fr : FieldRef) : (s.putFlow f).rd fr = s.rd fr := rfl

/-! ### modTim -/

@[simp] theorem State.modTim_pending (s : State) (f : TimState → TimState) : (s.modTim f).pending = s.pending := rfl
@[simp] theorem State.modTim_now (s : State) (f : TimState → TimState) : (s.modTim f).now = s.now := rfl
@[simp] theorem State.modTim_fresh (s : State) (f : TimState → TimState) : (s.modTim f).fresh = s.fresh := rfl
@[simp] theorem State.modTim_variant (s : State) (f : TimState → TimState) : (s.modTim f).variant = s.variant := rfl
@[simp] theorem State.modTim_regs (s : State) (f : TimState → TimState) : (s.modTim f).regs = s.regs := rfl
@[simp] theorem State.modTim_ready (s : State) (f : TimState → TimState) : (s.modTim f).ready = s.ready := rfl
@[simp] theorem State.modTim_isolated (s : State) (f : TimState → TimState) : (s.modTim f).isolated = s.isolated := rfl
@[simp] theorem State.modTim_flt (s : State) (f : TimState → TimState) : (s.modTim f).flt = s.flt := rfl
@[simp] theorem State.modTim_pwr (s : State) (f : TimState → TimState) : (s.modTim f).pwr = s.pwr := rfl
@[simp] theorem State.modTim_boot (s : State) (f : TimState → TimState) : (s.modTim f).boot = s.boot := rfl
@[simp] theorem State.modTim_cyx (s : State) (f : TimState → TimState) : (s.modTim f).cyx = s.cyx := rfl
@[simp] theorem State.modTim_fab (s : State) (f : TimState → TimState) : (s.modTim f).fab = s.fab := rfl
@[simp] theorem State.modTim_eph (s : State) (f : TimState → TimState) : (s.modTim f).eph = s.eph := rfl
@[simp] theorem State.modTim_lan (s : State) (f : TimState → TimState) : (s.modTim f).lan = s.lan := rfl
@[simp] theorem State.modTim_net (s : State) (f : TimState → TimState) : (s.modTim f).net = s.net := rfl
@[simp] theorem State.modTim_aud (s : State) (f : TimState → TimState) : (s.modTim f).aud = s.aud := rfl
@[simp] theorem State.modTim_mvw (s : State) (f : TimState → TimState) : (s.modTim f).mvw = s.mvw := rfl
@[simp] theorem State.modTim_enc (s : State) (f : TimState → TimState) : (s.modTim f).enc = s.enc := rfl
@[simp] theorem State.modTim_cru (s : State) (f : TimState → TimState) : (s.modTim f).cru = s.cru := rfl
@[simp] theorem State.modTim_ref (s : State) (f : TimState → TimState) : (s.modTim f).ref = s.ref := rfl
@[simp] theorem State.modTim_mem (s : State) (f : TimState → TimState) : (s.modTim f).mem = s.mem := rfl
@[simp] theorem State.modTim_vlt (s : State) (f : TimState → TimState) : (s.modTim f).vlt = s.vlt := rfl
@[simp] theorem State.modTim_twn (s : State) (f : TimState → TimState) : (s.modTim f).twn = s.twn := rfl
@[simp] theorem State.modTim_sent (s : State) (f : TimState → TimState) : (s.modTim f).sent = s.sent := rfl
@[simp] theorem State.modTim_rd (s : State) (f : TimState → TimState) (fr : FieldRef) : (s.modTim f).rd fr = s.rd fr := rfl

/-! ### putHead -/

@[simp] theorem State.putHead_pending (s : State) (x : Head) : (s.putHead x).pending = s.pending := rfl
@[simp] theorem State.putHead_now (s : State) (x : Head) : (s.putHead x).now = s.now := rfl
@[simp] theorem State.putHead_fresh (s : State) (x : Head) : (s.putHead x).fresh = s.fresh := rfl
@[simp] theorem State.putHead_variant (s : State) (x : Head) : (s.putHead x).variant = s.variant := rfl
@[simp] theorem State.putHead_regs (s : State) (x : Head) : (s.putHead x).regs = s.regs := rfl
@[simp] theorem State.putHead_ready (s : State) (x : Head) : (s.putHead x).ready = s.ready := rfl
@[simp] theorem State.putHead_isolated (s : State) (x : Head) : (s.putHead x).isolated = s.isolated := rfl
@[simp] theorem State.putHead_flt (s : State) (x : Head) : (s.putHead x).flt = s.flt := rfl
@[simp] theorem State.putHead_pwr (s : State) (x : Head) : (s.putHead x).pwr = s.pwr := rfl
@[simp] theorem State.putHead_boot (s : State) (x : Head) : (s.putHead x).boot = s.boot := rfl
@[simp] theorem State.putHead_cyx (s : State) (x : Head) : (s.putHead x).cyx = s.cyx := rfl
@[simp] theorem State.putHead_fab (s : State) (x : Head) : (s.putHead x).fab = s.fab := rfl
@[simp] theorem State.putHead_eph (s : State) (x : Head) : (s.putHead x).eph = s.eph := rfl
@[simp] theorem State.putHead_lan (s : State) (x : Head) : (s.putHead x).lan = s.lan := rfl
@[simp] theorem State.putHead_net (s : State) (x : Head) : (s.putHead x).net = s.net := rfl
@[simp] theorem State.putHead_aud (s : State) (x : Head) : (s.putHead x).aud = s.aud := rfl
@[simp] theorem State.putHead_enc (s : State) (x : Head) : (s.putHead x).enc = s.enc := rfl
@[simp] theorem State.putHead_cru (s : State) (x : Head) : (s.putHead x).cru = s.cru := rfl
@[simp] theorem State.putHead_tim (s : State) (x : Head) : (s.putHead x).tim = s.tim := rfl
@[simp] theorem State.putHead_ref (s : State) (x : Head) : (s.putHead x).ref = s.ref := rfl
@[simp] theorem State.putHead_mem (s : State) (x : Head) : (s.putHead x).mem = s.mem := rfl
@[simp] theorem State.putHead_vlt (s : State) (x : Head) : (s.putHead x).vlt = s.vlt := rfl
@[simp] theorem State.putHead_twn (s : State) (x : Head) : (s.putHead x).twn = s.twn := rfl
@[simp] theorem State.putHead_sent (s : State) (x : Head) : (s.putHead x).sent = s.sent := rfl
@[simp] theorem State.putHead_rd (s : State) (x : Head) (fr : FieldRef) : (s.putHead x).rd fr = s.rd fr := rfl

/-! ### putEnc -/

@[simp] theorem State.putEnc_pending (s : State) (x : EncChan) : (s.putEnc x).pending = s.pending := rfl
@[simp] theorem State.putEnc_now (s : State) (x : EncChan) : (s.putEnc x).now = s.now := rfl
@[simp] theorem State.putEnc_fresh (s : State) (x : EncChan) : (s.putEnc x).fresh = s.fresh := rfl
@[simp] theorem State.putEnc_variant (s : State) (x : EncChan) : (s.putEnc x).variant = s.variant := rfl
@[simp] theorem State.putEnc_regs (s : State) (x : EncChan) : (s.putEnc x).regs = s.regs := rfl
@[simp] theorem State.putEnc_ready (s : State) (x : EncChan) : (s.putEnc x).ready = s.ready := rfl
@[simp] theorem State.putEnc_isolated (s : State) (x : EncChan) : (s.putEnc x).isolated = s.isolated := rfl
@[simp] theorem State.putEnc_flt (s : State) (x : EncChan) : (s.putEnc x).flt = s.flt := rfl
@[simp] theorem State.putEnc_pwr (s : State) (x : EncChan) : (s.putEnc x).pwr = s.pwr := rfl
@[simp] theorem State.putEnc_boot (s : State) (x : EncChan) : (s.putEnc x).boot = s.boot := rfl
@[simp] theorem State.putEnc_cyx (s : State) (x : EncChan) : (s.putEnc x).cyx = s.cyx := rfl
@[simp] theorem State.putEnc_fab (s : State) (x : EncChan) : (s.putEnc x).fab = s.fab := rfl
@[simp] theorem State.putEnc_eph (s : State) (x : EncChan) : (s.putEnc x).eph = s.eph := rfl
@[simp] theorem State.putEnc_lan (s : State) (x : EncChan) : (s.putEnc x).lan = s.lan := rfl
@[simp] theorem State.putEnc_net (s : State) (x : EncChan) : (s.putEnc x).net = s.net := rfl
@[simp] theorem State.putEnc_aud (s : State) (x : EncChan) : (s.putEnc x).aud = s.aud := rfl
@[simp] theorem State.putEnc_mvw (s : State) (x : EncChan) : (s.putEnc x).mvw = s.mvw := rfl
@[simp] theorem State.putEnc_cru (s : State) (x : EncChan) : (s.putEnc x).cru = s.cru := rfl
@[simp] theorem State.putEnc_tim (s : State) (x : EncChan) : (s.putEnc x).tim = s.tim := rfl
@[simp] theorem State.putEnc_ref (s : State) (x : EncChan) : (s.putEnc x).ref = s.ref := rfl
@[simp] theorem State.putEnc_mem (s : State) (x : EncChan) : (s.putEnc x).mem = s.mem := rfl
@[simp] theorem State.putEnc_vlt (s : State) (x : EncChan) : (s.putEnc x).vlt = s.vlt := rfl
@[simp] theorem State.putEnc_twn (s : State) (x : EncChan) : (s.putEnc x).twn = s.twn := rfl
@[simp] theorem State.putEnc_sent (s : State) (x : EncChan) : (s.putEnc x).sent = s.sent := rfl
@[simp] theorem State.putEnc_rd (s : State) (x : EncChan) (fr : FieldRef) : (s.putEnc x).rd fr = s.rd fr := rfl

/-! ### await -/

@[simp] theorem State.await_pending (s : State) (p : Pending) : (s.await p).pending = s.pending := rfl
@[simp] theorem State.await_now (s : State) (p : Pending) : (s.await p).now = s.now := rfl
@[simp] theorem State.await_fresh (s : State) (p : Pending) : (s.await p).fresh = s.fresh := rfl
@[simp] theorem State.await_variant (s : State) (p : Pending) : (s.await p).variant = s.variant := rfl
@[simp] theorem State.await_regs (s : State) (p : Pending) : (s.await p).regs = s.regs := rfl
@[simp] theorem State.await_ready (s : State) (p : Pending) : (s.await p).ready = s.ready := rfl
@[simp] theorem State.await_isolated (s : State) (p : Pending) : (s.await p).isolated = s.isolated := rfl
@[simp] theorem State.await_flt (s : State) (p : Pending) : (s.await p).flt = s.flt := rfl
@[simp] theorem State.await_pwr (s : State) (p : Pending) : (s.await p).pwr = s.pwr := rfl
@[simp] theorem State.await_boot (s : State) (p : Pending) : (s.await p).boot = s.boot := rfl
@[simp] theorem State.await_fab (s : State) (p : Pending) : (s.await p).fab = s.fab := rfl
@[simp] theorem State.await_eph (s : State) (p : Pending) : (s.await p).eph = s.eph := rfl
@[simp] theorem State.await_lan (s : State) (p : Pending) : (s.await p).lan = s.lan := rfl
@[simp] theorem State.await_net (s : State) (p : Pending) : (s.await p).net = s.net := rfl
@[simp] theorem State.await_aud (s : State) (p : Pending) : (s.await p).aud = s.aud := rfl
@[simp] theorem State.await_mvw (s : State) (p : Pending) : (s.await p).mvw = s.mvw := rfl
@[simp] theorem State.await_enc (s : State) (p : Pending) : (s.await p).enc = s.enc := rfl
@[simp] theorem State.await_cru (s : State) (p : Pending) : (s.await p).cru = s.cru := rfl
@[simp] theorem State.await_tim (s : State) (p : Pending) : (s.await p).tim = s.tim := rfl
@[simp] theorem State.await_ref (s : State) (p : Pending) : (s.await p).ref = s.ref := rfl
@[simp] theorem State.await_mem (s : State) (p : Pending) : (s.await p).mem = s.mem := rfl
@[simp] theorem State.await_vlt (s : State) (p : Pending) : (s.await p).vlt = s.vlt := rfl
@[simp] theorem State.await_twn (s : State) (p : Pending) : (s.await p).twn = s.twn := rfl
@[simp] theorem State.await_sent (s : State) (p : Pending) : (s.await p).sent = s.sent := rfl
@[simp] theorem State.await_rd (s : State) (p : Pending) (fr : FieldRef) : (s.await p).rd fr = s.rd fr := rfl

/-! ### putPort -/

@[simp] theorem State.putPort_pending (s : State) (x : OutPort) : (s.putPort x).pending = s.pending := rfl
@[simp] theorem State.putPort_now (s : State) (x : OutPort) : (s.putPort x).now = s.now := rfl
@[simp] theorem State.putPort_fresh (s : State) (x : OutPort) : (s.putPort x).fresh = s.fresh := rfl
@[simp] theorem State.putPort_variant (s : State) (x : OutPort) : (s.putPort x).variant = s.variant := rfl
@[simp] theorem State.putPort_regs (s : State) (x : OutPort) : (s.putPort x).regs = s.regs := rfl
@[simp] theorem State.putPort_ready (s : State) (x : OutPort) : (s.putPort x).ready = s.ready := rfl
@[simp] theorem State.putPort_isolated (s : State) (x : OutPort) : (s.putPort x).isolated = s.isolated := rfl
@[simp] theorem State.putPort_flt (s : State) (x : OutPort) : (s.putPort x).flt = s.flt := rfl
@[simp] theorem State.putPort_pwr (s : State) (x : OutPort) : (s.putPort x).pwr = s.pwr := rfl
@[simp] theorem State.putPort_boot (s : State) (x : OutPort) : (s.putPort x).boot = s.boot := rfl
@[simp] theorem State.putPort_cyx (s : State) (x : OutPort) : (s.putPort x).cyx = s.cyx := rfl
@[simp] theorem State.putPort_eph (s : State) (x : OutPort) : (s.putPort x).eph = s.eph := rfl
@[simp] theorem State.putPort_lan (s : State) (x : OutPort) : (s.putPort x).lan = s.lan := rfl
@[simp] theorem State.putPort_net (s : State) (x : OutPort) : (s.putPort x).net = s.net := rfl
@[simp] theorem State.putPort_aud (s : State) (x : OutPort) : (s.putPort x).aud = s.aud := rfl
@[simp] theorem State.putPort_mvw (s : State) (x : OutPort) : (s.putPort x).mvw = s.mvw := rfl
@[simp] theorem State.putPort_enc (s : State) (x : OutPort) : (s.putPort x).enc = s.enc := rfl
@[simp] theorem State.putPort_cru (s : State) (x : OutPort) : (s.putPort x).cru = s.cru := rfl
@[simp] theorem State.putPort_tim (s : State) (x : OutPort) : (s.putPort x).tim = s.tim := rfl
@[simp] theorem State.putPort_ref (s : State) (x : OutPort) : (s.putPort x).ref = s.ref := rfl
@[simp] theorem State.putPort_mem (s : State) (x : OutPort) : (s.putPort x).mem = s.mem := rfl
@[simp] theorem State.putPort_vlt (s : State) (x : OutPort) : (s.putPort x).vlt = s.vlt := rfl
@[simp] theorem State.putPort_twn (s : State) (x : OutPort) : (s.putPort x).twn = s.twn := rfl
@[simp] theorem State.putPort_sent (s : State) (x : OutPort) : (s.putPort x).sent = s.sent := rfl
@[simp] theorem State.putPort_rd (s : State) (x : OutPort) (fr : FieldRef) : (s.putPort x).rd fr = s.rd fr := rfl

/-! ### putLayer -/

@[simp] theorem State.putLayer_pending (s : State) (x : LayerRun) : (s.putLayer x).pending = s.pending := rfl
@[simp] theorem State.putLayer_now (s : State) (x : LayerRun) : (s.putLayer x).now = s.now := rfl
@[simp] theorem State.putLayer_fresh (s : State) (x : LayerRun) : (s.putLayer x).fresh = s.fresh := rfl
@[simp] theorem State.putLayer_variant (s : State) (x : LayerRun) : (s.putLayer x).variant = s.variant := rfl
@[simp] theorem State.putLayer_regs (s : State) (x : LayerRun) : (s.putLayer x).regs = s.regs := rfl
@[simp] theorem State.putLayer_ready (s : State) (x : LayerRun) : (s.putLayer x).ready = s.ready := rfl
@[simp] theorem State.putLayer_isolated (s : State) (x : LayerRun) : (s.putLayer x).isolated = s.isolated := rfl
@[simp] theorem State.putLayer_flt (s : State) (x : LayerRun) : (s.putLayer x).flt = s.flt := rfl
@[simp] theorem State.putLayer_pwr (s : State) (x : LayerRun) : (s.putLayer x).pwr = s.pwr := rfl
@[simp] theorem State.putLayer_boot (s : State) (x : LayerRun) : (s.putLayer x).boot = s.boot := rfl
@[simp] theorem State.putLayer_cyx (s : State) (x : LayerRun) : (s.putLayer x).cyx = s.cyx := rfl
@[simp] theorem State.putLayer_fab (s : State) (x : LayerRun) : (s.putLayer x).fab = s.fab := rfl
@[simp] theorem State.putLayer_eph (s : State) (x : LayerRun) : (s.putLayer x).eph = s.eph := rfl
@[simp] theorem State.putLayer_lan (s : State) (x : LayerRun) : (s.putLayer x).lan = s.lan := rfl
@[simp] theorem State.putLayer_net (s : State) (x : LayerRun) : (s.putLayer x).net = s.net := rfl
@[simp] theorem State.putLayer_aud (s : State) (x : LayerRun) : (s.putLayer x).aud = s.aud := rfl
@[simp] theorem State.putLayer_enc (s : State) (x : LayerRun) : (s.putLayer x).enc = s.enc := rfl
@[simp] theorem State.putLayer_cru (s : State) (x : LayerRun) : (s.putLayer x).cru = s.cru := rfl
@[simp] theorem State.putLayer_tim (s : State) (x : LayerRun) : (s.putLayer x).tim = s.tim := rfl
@[simp] theorem State.putLayer_ref (s : State) (x : LayerRun) : (s.putLayer x).ref = s.ref := rfl
@[simp] theorem State.putLayer_mem (s : State) (x : LayerRun) : (s.putLayer x).mem = s.mem := rfl
@[simp] theorem State.putLayer_vlt (s : State) (x : LayerRun) : (s.putLayer x).vlt = s.vlt := rfl
@[simp] theorem State.putLayer_twn (s : State) (x : LayerRun) : (s.putLayer x).twn = s.twn := rfl
@[simp] theorem State.putLayer_sent (s : State) (x : LayerRun) : (s.putLayer x).sent = s.sent := rfl
@[simp] theorem State.putLayer_rd (s : State) (x : LayerRun) (fr : FieldRef) : (s.putLayer x).rd fr = s.rd fr := rfl

/-! ### modSession -/

@[simp] theorem State.modSession_pending (s : State) (id : Nat) (f : Session → Session) : (s.modSession id f).pending = s.pending := rfl
@[simp] theorem State.modSession_now (s : State) (id : Nat) (f : Session → Session) : (s.modSession id f).now = s.now := rfl
@[simp] theorem State.modSession_fresh (s : State) (id : Nat) (f : Session → Session) : (s.modSession id f).fresh = s.fresh := rfl
@[simp] theorem State.modSession_variant (s : State) (id : Nat) (f : Session → Session) : (s.modSession id f).variant = s.variant := rfl
@[simp] theorem State.modSession_regs (s : State) (id : Nat) (f : Session → Session) : (s.modSession id f).regs = s.regs := rfl
@[simp] theorem State.modSession_ready (s : State) (id : Nat) (f : Session → Session) : (s.modSession id f).ready = s.ready := rfl
@[simp] theorem State.modSession_isolated (s : State) (id : Nat) (f : Session → Session) : (s.modSession id f).isolated = s.isolated := rfl
@[simp] theorem State.modSession_flt (s : State) (id : Nat) (f : Session → Session) : (s.modSession id f).flt = s.flt := rfl
@[simp] theorem State.modSession_pwr (s : State) (id : Nat) (f : Session → Session) : (s.modSession id f).pwr = s.pwr := rfl
@[simp] theorem State.modSession_boot (s : State) (id : Nat) (f : Session → Session) : (s.modSession id f).boot = s.boot := rfl
@[simp] theorem State.modSession_fab (s : State) (id : Nat) (f : Session → Session) : (s.modSession id f).fab = s.fab := rfl
@[simp] theorem State.modSession_eph (s : State) (id : Nat) (f : Session → Session) : (s.modSession id f).eph = s.eph := rfl
@[simp] theorem State.modSession_lan (s : State) (id : Nat) (f : Session → Session) : (s.modSession id f).lan = s.lan := rfl
@[simp] theorem State.modSession_net (s : State) (id : Nat) (f : Session → Session) : (s.modSession id f).net = s.net := rfl
@[simp] theorem State.modSession_aud (s : State) (id : Nat) (f : Session → Session) : (s.modSession id f).aud = s.aud := rfl
@[simp] theorem State.modSession_mvw (s : State) (id : Nat) (f : Session → Session) : (s.modSession id f).mvw = s.mvw := rfl
@[simp] theorem State.modSession_enc (s : State) (id : Nat) (f : Session → Session) : (s.modSession id f).enc = s.enc := rfl
@[simp] theorem State.modSession_cru (s : State) (id : Nat) (f : Session → Session) : (s.modSession id f).cru = s.cru := rfl
@[simp] theorem State.modSession_tim (s : State) (id : Nat) (f : Session → Session) : (s.modSession id f).tim = s.tim := rfl
@[simp] theorem State.modSession_ref (s : State) (id : Nat) (f : Session → Session) : (s.modSession id f).ref = s.ref := rfl
@[simp] theorem State.modSession_mem (s : State) (id : Nat) (f : Session → Session) : (s.modSession id f).mem = s.mem := rfl
@[simp] theorem State.modSession_vlt (s : State) (id : Nat) (f : Session → Session) : (s.modSession id f).vlt = s.vlt := rfl
@[simp] theorem State.modSession_twn (s : State) (id : Nat) (f : Session → Session) : (s.modSession id f).twn = s.twn := rfl
@[simp] theorem State.modSession_sent (s : State) (id : Nat) (f : Session → Session) : (s.modSession id f).sent = s.sent := rfl
@[simp] theorem State.modSession_rd (s : State) (id : Nat) (f : Session → Session) (fr : FieldRef) : (s.modSession id f).rd fr = s.rd fr := rfl

/-! ### freeBuffer -/

@[simp] theorem State.freeBuffer_pending (s : State) (kind : Nat) (id : Nat) : (s.freeBuffer kind id).pending = s.pending := rfl
@[simp] theorem State.freeBuffer_now (s : State) (kind : Nat) (id : Nat) : (s.freeBuffer kind id).now = s.now := rfl
@[simp] theorem State.freeBuffer_fresh (s : State) (kind : Nat) (id : Nat) : (s.freeBuffer kind id).fresh = s.fresh := rfl
@[simp] theorem State.freeBuffer_variant (s : State) (kind : Nat) (id : Nat) : (s.freeBuffer kind id).variant = s.variant := rfl
@[simp] theorem State.freeBuffer_regs (s : State) (kind : Nat) (id : Nat) : (s.freeBuffer kind id).regs = s.regs := rfl
@[simp] theorem State.freeBuffer_ready (s : State) (kind : Nat) (id : Nat) : (s.freeBuffer kind id).ready = s.ready := rfl
@[simp] theorem State.freeBuffer_isolated (s : State) (kind : Nat) (id : Nat) : (s.freeBuffer kind id).isolated = s.isolated := rfl
@[simp] theorem State.freeBuffer_flt (s : State) (kind : Nat) (id : Nat) : (s.freeBuffer kind id).flt = s.flt := rfl
@[simp] theorem State.freeBuffer_pwr (s : State) (kind : Nat) (id : Nat) : (s.freeBuffer kind id).pwr = s.pwr := rfl
@[simp] theorem State.freeBuffer_boot (s : State) (kind : Nat) (id : Nat) : (s.freeBuffer kind id).boot = s.boot := rfl
@[simp] theorem State.freeBuffer_cyx (s : State) (kind : Nat) (id : Nat) : (s.freeBuffer kind id).cyx = s.cyx := rfl
@[simp] theorem State.freeBuffer_fab (s : State) (kind : Nat) (id : Nat) : (s.freeBuffer kind id).fab = s.fab := rfl
@[simp] theorem State.freeBuffer_eph (s : State) (kind : Nat) (id : Nat) : (s.freeBuffer kind id).eph = s.eph := rfl
@[simp] theorem State.freeBuffer_lan (s : State) (kind : Nat) (id : Nat) : (s.freeBuffer kind id).lan = s.lan := rfl
@[simp] theorem State.freeBuffer_net (s : State) (kind : Nat) (id : Nat) : (s.freeBuffer kind id).net = s.net := rfl
@[simp] theorem State.freeBuffer_aud (s : State) (kind : Nat) (id : Nat) : (s.freeBuffer kind id).aud = s.aud := rfl
@[simp] theorem State.freeBuffer_mvw (s : State) (kind : Nat) (id : Nat) : (s.freeBuffer kind id).mvw = s.mvw := rfl
@[simp] theorem State.freeBuffer_enc (s : State) (kind : Nat) (id : Nat) : (s.freeBuffer kind id).enc = s.enc := rfl
@[simp] theorem State.freeBuffer_cru (s : State) (kind : Nat) (id : Nat) : (s.freeBuffer kind id).cru = s.cru := rfl
@[simp] theorem State.freeBuffer_tim (s : State) (kind : Nat) (id : Nat) : (s.freeBuffer kind id).tim = s.tim := rfl
@[simp] theorem State.freeBuffer_ref (s : State) (kind : Nat) (id : Nat) : (s.freeBuffer kind id).ref = s.ref := rfl
@[simp] theorem State.freeBuffer_vlt (s : State) (kind : Nat) (id : Nat) : (s.freeBuffer kind id).vlt = s.vlt := rfl
@[simp] theorem State.freeBuffer_twn (s : State) (kind : Nat) (id : Nat) : (s.freeBuffer kind id).twn = s.twn := rfl
@[simp] theorem State.freeBuffer_sent (s : State) (kind : Nat) (id : Nat) : (s.freeBuffer kind id).sent = s.sent := rfl
@[simp] theorem State.freeBuffer_rd (s : State) (kind : Nat) (id : Nat) (fr : FieldRef) : (s.freeBuffer kind id).rd fr = s.rd fr := rfl

/-! ### putLane -/

@[simp] theorem State.putLane_pending (s : State) (x : Lane) : (s.putLane x).pending = s.pending := rfl
@[simp] theorem State.putLane_now (s : State) (x : Lane) : (s.putLane x).now = s.now := rfl
@[simp] theorem State.putLane_fresh (s : State) (x : Lane) : (s.putLane x).fresh = s.fresh := rfl
@[simp] theorem State.putLane_variant (s : State) (x : Lane) : (s.putLane x).variant = s.variant := rfl
@[simp] theorem State.putLane_regs (s : State) (x : Lane) : (s.putLane x).regs = s.regs := rfl
@[simp] theorem State.putLane_ready (s : State) (x : Lane) : (s.putLane x).ready = s.ready := rfl
@[simp] theorem State.putLane_isolated (s : State) (x : Lane) : (s.putLane x).isolated = s.isolated := rfl
@[simp] theorem State.putLane_flt (s : State) (x : Lane) : (s.putLane x).flt = s.flt := rfl
@[simp] theorem State.putLane_pwr (s : State) (x : Lane) : (s.putLane x).pwr = s.pwr := rfl
@[simp] theorem State.putLane_boot (s : State) (x : Lane) : (s.putLane x).boot = s.boot := rfl
@[simp] theorem State.putLane_cyx (s : State) (x : Lane) : (s.putLane x).cyx = s.cyx := rfl
@[simp] theorem State.putLane_fab (s : State) (x : Lane) : (s.putLane x).fab = s.fab := rfl
@[simp] theorem State.putLane_eph (s : State) (x : Lane) : (s.putLane x).eph = s.eph := rfl
@[simp] theorem State.putLane_net (s : State) (x : Lane) : (s.putLane x).net = s.net := rfl
@[simp] theorem State.putLane_aud (s : State) (x : Lane) : (s.putLane x).aud = s.aud := rfl
@[simp] theorem State.putLane_mvw (s : State) (x : Lane) : (s.putLane x).mvw = s.mvw := rfl
@[simp] theorem State.putLane_enc (s : State) (x : Lane) : (s.putLane x).enc = s.enc := rfl
@[simp] theorem State.putLane_cru (s : State) (x : Lane) : (s.putLane x).cru = s.cru := rfl
@[simp] theorem State.putLane_tim (s : State) (x : Lane) : (s.putLane x).tim = s.tim := rfl
@[simp] theorem State.putLane_ref (s : State) (x : Lane) : (s.putLane x).ref = s.ref := rfl
@[simp] theorem State.putLane_mem (s : State) (x : Lane) : (s.putLane x).mem = s.mem := rfl
@[simp] theorem State.putLane_vlt (s : State) (x : Lane) : (s.putLane x).vlt = s.vlt := rfl
@[simp] theorem State.putLane_twn (s : State) (x : Lane) : (s.putLane x).twn = s.twn := rfl
@[simp] theorem State.putLane_sent (s : State) (x : Lane) : (s.putLane x).sent = s.sent := rfl
@[simp] theorem State.putLane_rd (s : State) (x : Lane) (fr : FieldRef) : (s.putLane x).rd fr = s.rd fr := rfl

/-! ### pin -/

@[simp] theorem State.pin_pending (s : State) (name : Nat) (level : Nat) : (s.pin name level).pending = s.pending := rfl
@[simp] theorem State.pin_now (s : State) (name : Nat) (level : Nat) : (s.pin name level).now = s.now := rfl
@[simp] theorem State.pin_fresh (s : State) (name : Nat) (level : Nat) : (s.pin name level).fresh = s.fresh := rfl
@[simp] theorem State.pin_variant (s : State) (name : Nat) (level : Nat) : (s.pin name level).variant = s.variant := rfl
@[simp] theorem State.pin_regs (s : State) (name : Nat) (level : Nat) : (s.pin name level).regs = s.regs := rfl
@[simp] theorem State.pin_ready (s : State) (name : Nat) (level : Nat) : (s.pin name level).ready = s.ready := rfl
@[simp] theorem State.pin_isolated (s : State) (name : Nat) (level : Nat) : (s.pin name level).isolated = s.isolated := rfl
@[simp] theorem State.pin_flt (s : State) (name : Nat) (level : Nat) : (s.pin name level).flt = s.flt := rfl
@[simp] theorem State.pin_pwr (s : State) (name : Nat) (level : Nat) : (s.pin name level).pwr = s.pwr := rfl
@[simp] theorem State.pin_boot (s : State) (name : Nat) (level : Nat) : (s.pin name level).boot = s.boot := rfl
@[simp] theorem State.pin_cyx (s : State) (name : Nat) (level : Nat) : (s.pin name level).cyx = s.cyx := rfl
@[simp] theorem State.pin_fab (s : State) (name : Nat) (level : Nat) : (s.pin name level).fab = s.fab := rfl
@[simp] theorem State.pin_eph (s : State) (name : Nat) (level : Nat) : (s.pin name level).eph = s.eph := rfl
@[simp] theorem State.pin_lan (s : State) (name : Nat) (level : Nat) : (s.pin name level).lan = s.lan := rfl
@[simp] theorem State.pin_net (s : State) (name : Nat) (level : Nat) : (s.pin name level).net = s.net := rfl
@[simp] theorem State.pin_aud (s : State) (name : Nat) (level : Nat) : (s.pin name level).aud = s.aud := rfl
@[simp] theorem State.pin_mvw (s : State) (name : Nat) (level : Nat) : (s.pin name level).mvw = s.mvw := rfl
@[simp] theorem State.pin_enc (s : State) (name : Nat) (level : Nat) : (s.pin name level).enc = s.enc := rfl
@[simp] theorem State.pin_cru (s : State) (name : Nat) (level : Nat) : (s.pin name level).cru = s.cru := rfl
@[simp] theorem State.pin_tim (s : State) (name : Nat) (level : Nat) : (s.pin name level).tim = s.tim := rfl
@[simp] theorem State.pin_ref (s : State) (name : Nat) (level : Nat) : (s.pin name level).ref = s.ref := rfl
@[simp] theorem State.pin_mem (s : State) (name : Nat) (level : Nat) : (s.pin name level).mem = s.mem := rfl
@[simp] theorem State.pin_vlt (s : State) (name : Nat) (level : Nat) : (s.pin name level).vlt = s.vlt := rfl
@[simp] theorem State.pin_twn (s : State) (name : Nat) (level : Nat) : (s.pin name level).twn = s.twn := rfl
@[simp] theorem State.pin_rd (s : State) (name : Nat) (level : Nat) (fr : FieldRef) : (s.pin name level).rd fr = s.rd fr := rfl

/-! ### putSink -/

@[simp] theorem State.putSink_pending (s : State) (x : Sink) : (s.putSink x).pending = s.pending := rfl
@[simp] theorem State.putSink_now (s : State) (x : Sink) : (s.putSink x).now = s.now := rfl
@[simp] theorem State.putSink_fresh (s : State) (x : Sink) : (s.putSink x).fresh = s.fresh := rfl
@[simp] theorem State.putSink_variant (s : State) (x : Sink) : (s.putSink x).variant = s.variant := rfl
@[simp] theorem State.putSink_regs (s : State) (x : Sink) : (s.putSink x).regs = s.regs := rfl
@[simp] theorem State.putSink_ready (s : State) (x : Sink) : (s.putSink x).ready = s.ready := rfl
@[simp] theorem State.putSink_isolated (s : State) (x : Sink) : (s.putSink x).isolated = s.isolated := rfl
@[simp] theorem State.putSink_flt (s : State) (x : Sink) : (s.putSink x).flt = s.flt := rfl
@[simp] theorem State.putSink_pwr (s : State) (x : Sink) : (s.putSink x).pwr = s.pwr := rfl
@[simp] theorem State.putSink_boot (s : State) (x : Sink) : (s.putSink x).boot = s.boot := rfl
@[simp] theorem State.putSink_cyx (s : State) (x : Sink) : (s.putSink x).cyx = s.cyx := rfl
@[simp] theorem State.putSink_fab (s : State) (x : Sink) : (s.putSink x).fab = s.fab := rfl
@[simp] theorem State.putSink_eph (s : State) (x : Sink) : (s.putSink x).eph = s.eph := rfl
@[simp] theorem State.putSink_lan (s : State) (x : Sink) : (s.putSink x).lan = s.lan := rfl
@[simp] theorem State.putSink_net (s : State) (x : Sink) : (s.putSink x).net = s.net := rfl
@[simp] theorem State.putSink_mvw (s : State) (x : Sink) : (s.putSink x).mvw = s.mvw := rfl
@[simp] theorem State.putSink_enc (s : State) (x : Sink) : (s.putSink x).enc = s.enc := rfl
@[simp] theorem State.putSink_cru (s : State) (x : Sink) : (s.putSink x).cru = s.cru := rfl
@[simp] theorem State.putSink_tim (s : State) (x : Sink) : (s.putSink x).tim = s.tim := rfl
@[simp] theorem State.putSink_ref (s : State) (x : Sink) : (s.putSink x).ref = s.ref := rfl
@[simp] theorem State.putSink_mem (s : State) (x : Sink) : (s.putSink x).mem = s.mem := rfl
@[simp] theorem State.putSink_vlt (s : State) (x : Sink) : (s.putSink x).vlt = s.vlt := rfl
@[simp] theorem State.putSink_twn (s : State) (x : Sink) : (s.putSink x).twn = s.twn := rfl
@[simp] theorem State.putSink_sent (s : State) (x : Sink) : (s.putSink x).sent = s.sent := rfl
@[simp] theorem State.putSink_rd (s : State) (x : Sink) (fr : FieldRef) : (s.putSink x).rd fr = s.rd fr := rfl

/-! ### storeChanged -/

@[simp] theorem State.storeChanged_pending (s : State) : (s.storeChanged).pending = s.pending := rfl
@[simp] theorem State.storeChanged_now (s : State) : (s.storeChanged).now = s.now := rfl
@[simp] theorem State.storeChanged_fresh (s : State) : (s.storeChanged).fresh = s.fresh := rfl
@[simp] theorem State.storeChanged_variant (s : State) : (s.storeChanged).variant = s.variant := rfl
@[simp] theorem State.storeChanged_regs (s : State) : (s.storeChanged).regs = s.regs := rfl
@[simp] theorem State.storeChanged_ready (s : State) : (s.storeChanged).ready = s.ready := rfl
@[simp] theorem State.storeChanged_isolated (s : State) : (s.storeChanged).isolated = s.isolated := rfl
@[simp] theorem State.storeChanged_flt (s : State) : (s.storeChanged).flt = s.flt := rfl
@[simp] theorem State.storeChanged_pwr (s : State) : (s.storeChanged).pwr = s.pwr := rfl
@[simp] theorem State.storeChanged_cyx (s : State) : (s.storeChanged).cyx = s.cyx := rfl
@[simp] theorem State.storeChanged_fab (s : State) : (s.storeChanged).fab = s.fab := rfl
@[simp] theorem State.storeChanged_eph (s : State) : (s.storeChanged).eph = s.eph := rfl
@[simp] theorem State.storeChanged_lan (s : State) : (s.storeChanged).lan = s.lan := rfl
@[simp] theorem State.storeChanged_net (s : State) : (s.storeChanged).net = s.net := rfl
@[simp] theorem State.storeChanged_aud (s : State) : (s.storeChanged).aud = s.aud := rfl
@[simp] theorem State.storeChanged_mvw (s : State) : (s.storeChanged).mvw = s.mvw := rfl
@[simp] theorem State.storeChanged_enc (s : State) : (s.storeChanged).enc = s.enc := rfl
@[simp] theorem State.storeChanged_cru (s : State) : (s.storeChanged).cru = s.cru := rfl
@[simp] theorem State.storeChanged_tim (s : State) : (s.storeChanged).tim = s.tim := rfl
@[simp] theorem State.storeChanged_ref (s : State) : (s.storeChanged).ref = s.ref := rfl
@[simp] theorem State.storeChanged_mem (s : State) : (s.storeChanged).mem = s.mem := rfl
@[simp] theorem State.storeChanged_vlt (s : State) : (s.storeChanged).vlt = s.vlt := rfl
@[simp] theorem State.storeChanged_twn (s : State) : (s.storeChanged).twn = s.twn := rfl
@[simp] theorem State.storeChanged_sent (s : State) : (s.storeChanged).sent = s.sent := rfl
@[simp] theorem State.storeChanged_rd (s : State) (fr : FieldRef) : (s.storeChanged).rd fr = s.rd fr := rfl

/-! ### loseDram -/

@[simp] theorem State.loseDram_pending (s : State) (lo : Nat) (hi : Nat) : (s.loseDram lo hi).pending = s.pending := rfl
@[simp] theorem State.loseDram_now (s : State) (lo : Nat) (hi : Nat) : (s.loseDram lo hi).now = s.now := rfl
@[simp] theorem State.loseDram_variant (s : State) (lo : Nat) (hi : Nat) : (s.loseDram lo hi).variant = s.variant := rfl
@[simp] theorem State.loseDram_regs (s : State) (lo : Nat) (hi : Nat) : (s.loseDram lo hi).regs = s.regs := rfl
@[simp] theorem State.loseDram_ready (s : State) (lo : Nat) (hi : Nat) : (s.loseDram lo hi).ready = s.ready := rfl
@[simp] theorem State.loseDram_isolated (s : State) (lo : Nat) (hi : Nat) : (s.loseDram lo hi).isolated = s.isolated := rfl
@[simp] theorem State.loseDram_flt (s : State) (lo : Nat) (hi : Nat) : (s.loseDram lo hi).flt = s.flt := rfl
@[simp] theorem State.loseDram_pwr (s : State) (lo : Nat) (hi : Nat) : (s.loseDram lo hi).pwr = s.pwr := rfl
@[simp] theorem State.loseDram_boot (s : State) (lo : Nat) (hi : Nat) : (s.loseDram lo hi).boot = s.boot := rfl
@[simp] theorem State.loseDram_cyx (s : State) (lo : Nat) (hi : Nat) : (s.loseDram lo hi).cyx = s.cyx := rfl
@[simp] theorem State.loseDram_fab (s : State) (lo : Nat) (hi : Nat) : (s.loseDram lo hi).fab = s.fab := rfl
@[simp] theorem State.loseDram_eph (s : State) (lo : Nat) (hi : Nat) : (s.loseDram lo hi).eph = s.eph := rfl
@[simp] theorem State.loseDram_lan (s : State) (lo : Nat) (hi : Nat) : (s.loseDram lo hi).lan = s.lan := rfl
@[simp] theorem State.loseDram_net (s : State) (lo : Nat) (hi : Nat) : (s.loseDram lo hi).net = s.net := rfl
@[simp] theorem State.loseDram_aud (s : State) (lo : Nat) (hi : Nat) : (s.loseDram lo hi).aud = s.aud := rfl
@[simp] theorem State.loseDram_mvw (s : State) (lo : Nat) (hi : Nat) : (s.loseDram lo hi).mvw = s.mvw := rfl
@[simp] theorem State.loseDram_enc (s : State) (lo : Nat) (hi : Nat) : (s.loseDram lo hi).enc = s.enc := rfl
@[simp] theorem State.loseDram_cru (s : State) (lo : Nat) (hi : Nat) : (s.loseDram lo hi).cru = s.cru := rfl
@[simp] theorem State.loseDram_tim (s : State) (lo : Nat) (hi : Nat) : (s.loseDram lo hi).tim = s.tim := rfl
@[simp] theorem State.loseDram_ref (s : State) (lo : Nat) (hi : Nat) : (s.loseDram lo hi).ref = s.ref := rfl
@[simp] theorem State.loseDram_vlt (s : State) (lo : Nat) (hi : Nat) : (s.loseDram lo hi).vlt = s.vlt := rfl
@[simp] theorem State.loseDram_twn (s : State) (lo : Nat) (hi : Nat) : (s.loseDram lo hi).twn = s.twn := rfl
@[simp] theorem State.loseDram_sent (s : State) (lo : Nat) (hi : Nat) : (s.loseDram lo hi).sent = s.sent := rfl
@[simp] theorem State.loseDram_rd (s : State) (lo : Nat) (hi : Nat) (fr : FieldRef) : (s.loseDram lo hi).rd fr = s.rd fr := rfl

/-! ### unready -/

@[simp] theorem State.unready_pending (s : State) (cap : Nat) (i : Nat) : (s.unready cap i).pending = s.pending := rfl
@[simp] theorem State.unready_now (s : State) (cap : Nat) (i : Nat) : (s.unready cap i).now = s.now := rfl
@[simp] theorem State.unready_fresh (s : State) (cap : Nat) (i : Nat) : (s.unready cap i).fresh = s.fresh := rfl
@[simp] theorem State.unready_variant (s : State) (cap : Nat) (i : Nat) : (s.unready cap i).variant = s.variant := rfl
@[simp] theorem State.unready_regs (s : State) (cap : Nat) (i : Nat) : (s.unready cap i).regs = s.regs := rfl
@[simp] theorem State.unready_isolated (s : State) (cap : Nat) (i : Nat) : (s.unready cap i).isolated = s.isolated := rfl
@[simp] theorem State.unready_flt (s : State) (cap : Nat) (i : Nat) : (s.unready cap i).flt = s.flt := rfl
@[simp] theorem State.unready_pwr (s : State) (cap : Nat) (i : Nat) : (s.unready cap i).pwr = s.pwr := rfl
@[simp] theorem State.unready_boot (s : State) (cap : Nat) (i : Nat) : (s.unready cap i).boot = s.boot := rfl
@[simp] theorem State.unready_cyx (s : State) (cap : Nat) (i : Nat) : (s.unready cap i).cyx = s.cyx := rfl
@[simp] theorem State.unready_fab (s : State) (cap : Nat) (i : Nat) : (s.unready cap i).fab = s.fab := rfl
@[simp] theorem State.unready_eph (s : State) (cap : Nat) (i : Nat) : (s.unready cap i).eph = s.eph := rfl
@[simp] theorem State.unready_lan (s : State) (cap : Nat) (i : Nat) : (s.unready cap i).lan = s.lan := rfl
@[simp] theorem State.unready_net (s : State) (cap : Nat) (i : Nat) : (s.unready cap i).net = s.net := rfl
@[simp] theorem State.unready_aud (s : State) (cap : Nat) (i : Nat) : (s.unready cap i).aud = s.aud := rfl
@[simp] theorem State.unready_mvw (s : State) (cap : Nat) (i : Nat) : (s.unready cap i).mvw = s.mvw := rfl
@[simp] theorem State.unready_enc (s : State) (cap : Nat) (i : Nat) : (s.unready cap i).enc = s.enc := rfl
@[simp] theorem State.unready_cru (s : State) (cap : Nat) (i : Nat) : (s.unready cap i).cru = s.cru := rfl
@[simp] theorem State.unready_tim (s : State) (cap : Nat) (i : Nat) : (s.unready cap i).tim = s.tim := rfl
@[simp] theorem State.unready_ref (s : State) (cap : Nat) (i : Nat) : (s.unready cap i).ref = s.ref := rfl
@[simp] theorem State.unready_mem (s : State) (cap : Nat) (i : Nat) : (s.unready cap i).mem = s.mem := rfl
@[simp] theorem State.unready_vlt (s : State) (cap : Nat) (i : Nat) : (s.unready cap i).vlt = s.vlt := rfl
@[simp] theorem State.unready_twn (s : State) (cap : Nat) (i : Nat) : (s.unready cap i).twn = s.twn := rfl
@[simp] theorem State.unready_sent (s : State) (cap : Nat) (i : Nat) : (s.unready cap i).sent = s.sent := rfl
@[simp] theorem State.unready_rd (s : State) (cap : Nat) (i : Nat) (fr : FieldRef) : (s.unready cap i).rd fr = s.rd fr := rfl

/-! ### respond -/

@[simp] theorem State.respond_pending (s : State) (m : Nat) (ok : Bool) (bytes : List Byte) : (s.respond m ok bytes).pending = s.pending := rfl
@[simp] theorem State.respond_now (s : State) (m : Nat) (ok : Bool) (bytes : List Byte) : (s.respond m ok bytes).now = s.now := rfl
@[simp] theorem State.respond_fresh (s : State) (m : Nat) (ok : Bool) (bytes : List Byte) : (s.respond m ok bytes).fresh = s.fresh := rfl
@[simp] theorem State.respond_variant (s : State) (m : Nat) (ok : Bool) (bytes : List Byte) : (s.respond m ok bytes).variant = s.variant := rfl
@[simp] theorem State.respond_regs (s : State) (m : Nat) (ok : Bool) (bytes : List Byte) : (s.respond m ok bytes).regs = s.regs := rfl
@[simp] theorem State.respond_ready (s : State) (m : Nat) (ok : Bool) (bytes : List Byte) : (s.respond m ok bytes).ready = s.ready := rfl
@[simp] theorem State.respond_isolated (s : State) (m : Nat) (ok : Bool) (bytes : List Byte) : (s.respond m ok bytes).isolated = s.isolated := rfl
@[simp] theorem State.respond_flt (s : State) (m : Nat) (ok : Bool) (bytes : List Byte) : (s.respond m ok bytes).flt = s.flt := rfl
@[simp] theorem State.respond_pwr (s : State) (m : Nat) (ok : Bool) (bytes : List Byte) : (s.respond m ok bytes).pwr = s.pwr := rfl
@[simp] theorem State.respond_boot (s : State) (m : Nat) (ok : Bool) (bytes : List Byte) : (s.respond m ok bytes).boot = s.boot := rfl
@[simp] theorem State.respond_cyx (s : State) (m : Nat) (ok : Bool) (bytes : List Byte) : (s.respond m ok bytes).cyx = s.cyx := rfl
@[simp] theorem State.respond_fab (s : State) (m : Nat) (ok : Bool) (bytes : List Byte) : (s.respond m ok bytes).fab = s.fab := rfl
@[simp] theorem State.respond_eph (s : State) (m : Nat) (ok : Bool) (bytes : List Byte) : (s.respond m ok bytes).eph = s.eph := rfl
@[simp] theorem State.respond_lan (s : State) (m : Nat) (ok : Bool) (bytes : List Byte) : (s.respond m ok bytes).lan = s.lan := rfl
@[simp] theorem State.respond_net (s : State) (m : Nat) (ok : Bool) (bytes : List Byte) : (s.respond m ok bytes).net = s.net := rfl
@[simp] theorem State.respond_aud (s : State) (m : Nat) (ok : Bool) (bytes : List Byte) : (s.respond m ok bytes).aud = s.aud := rfl
@[simp] theorem State.respond_mvw (s : State) (m : Nat) (ok : Bool) (bytes : List Byte) : (s.respond m ok bytes).mvw = s.mvw := rfl
@[simp] theorem State.respond_enc (s : State) (m : Nat) (ok : Bool) (bytes : List Byte) : (s.respond m ok bytes).enc = s.enc := rfl
@[simp] theorem State.respond_cru (s : State) (m : Nat) (ok : Bool) (bytes : List Byte) : (s.respond m ok bytes).cru = s.cru := rfl
@[simp] theorem State.respond_tim (s : State) (m : Nat) (ok : Bool) (bytes : List Byte) : (s.respond m ok bytes).tim = s.tim := rfl
@[simp] theorem State.respond_ref (s : State) (m : Nat) (ok : Bool) (bytes : List Byte) : (s.respond m ok bytes).ref = s.ref := rfl
@[simp] theorem State.respond_mem (s : State) (m : Nat) (ok : Bool) (bytes : List Byte) : (s.respond m ok bytes).mem = s.mem := rfl
@[simp] theorem State.respond_vlt (s : State) (m : Nat) (ok : Bool) (bytes : List Byte) : (s.respond m ok bytes).vlt = s.vlt := rfl
@[simp] theorem State.respond_twn (s : State) (m : Nat) (ok : Bool) (bytes : List Byte) : (s.respond m ok bytes).twn = s.twn := rfl
@[simp] theorem State.respond_rd (s : State) (m : Nat) (ok : Bool) (bytes : List Byte) (fr : FieldRef) : (s.respond m ok bytes).rd fr = s.rd fr := rfl

/-! ### dropRegs -/

@[simp] theorem State.dropRegs_pending (s : State) (lo : Nat) (hi : Nat) : (s.dropRegs lo hi).pending = s.pending := rfl
@[simp] theorem State.dropRegs_now (s : State) (lo : Nat) (hi : Nat) : (s.dropRegs lo hi).now = s.now := rfl
@[simp] theorem State.dropRegs_fresh (s : State) (lo : Nat) (hi : Nat) : (s.dropRegs lo hi).fresh = s.fresh := rfl
@[simp] theorem State.dropRegs_variant (s : State) (lo : Nat) (hi : Nat) : (s.dropRegs lo hi).variant = s.variant := rfl
@[simp] theorem State.dropRegs_ready (s : State) (lo : Nat) (hi : Nat) : (s.dropRegs lo hi).ready = s.ready := rfl
@[simp] theorem State.dropRegs_isolated (s : State) (lo : Nat) (hi : Nat) : (s.dropRegs lo hi).isolated = s.isolated := rfl
@[simp] theorem State.dropRegs_flt (s : State) (lo : Nat) (hi : Nat) : (s.dropRegs lo hi).flt = s.flt := rfl
@[simp] theorem State.dropRegs_pwr (s : State) (lo : Nat) (hi : Nat) : (s.dropRegs lo hi).pwr = s.pwr := rfl
@[simp] theorem State.dropRegs_boot (s : State) (lo : Nat) (hi : Nat) : (s.dropRegs lo hi).boot = s.boot := rfl
@[simp] theorem State.dropRegs_cyx (s : State) (lo : Nat) (hi : Nat) : (s.dropRegs lo hi).cyx = s.cyx := rfl
@[simp] theorem State.dropRegs_fab (s : State) (lo : Nat) (hi : Nat) : (s.dropRegs lo hi).fab = s.fab := rfl
@[simp] theorem State.dropRegs_eph (s : State) (lo : Nat) (hi : Nat) : (s.dropRegs lo hi).eph = s.eph := rfl
@[simp] theorem State.dropRegs_lan (s : State) (lo : Nat) (hi : Nat) : (s.dropRegs lo hi).lan = s.lan := rfl
@[simp] theorem State.dropRegs_net (s : State) (lo : Nat) (hi : Nat) : (s.dropRegs lo hi).net = s.net := rfl
@[simp] theorem State.dropRegs_aud (s : State) (lo : Nat) (hi : Nat) : (s.dropRegs lo hi).aud = s.aud := rfl
@[simp] theorem State.dropRegs_mvw (s : State) (lo : Nat) (hi : Nat) : (s.dropRegs lo hi).mvw = s.mvw := rfl
@[simp] theorem State.dropRegs_enc (s : State) (lo : Nat) (hi : Nat) : (s.dropRegs lo hi).enc = s.enc := rfl
@[simp] theorem State.dropRegs_cru (s : State) (lo : Nat) (hi : Nat) : (s.dropRegs lo hi).cru = s.cru := rfl
@[simp] theorem State.dropRegs_tim (s : State) (lo : Nat) (hi : Nat) : (s.dropRegs lo hi).tim = s.tim := rfl
@[simp] theorem State.dropRegs_ref (s : State) (lo : Nat) (hi : Nat) : (s.dropRegs lo hi).ref = s.ref := rfl
@[simp] theorem State.dropRegs_mem (s : State) (lo : Nat) (hi : Nat) : (s.dropRegs lo hi).mem = s.mem := rfl
@[simp] theorem State.dropRegs_vlt (s : State) (lo : Nat) (hi : Nat) : (s.dropRegs lo hi).vlt = s.vlt := rfl
@[simp] theorem State.dropRegs_twn (s : State) (lo : Nat) (hi : Nat) : (s.dropRegs lo hi).twn = s.twn := rfl
@[simp] theorem State.dropRegs_sent (s : State) (lo : Nat) (hi : Nat) : (s.dropRegs lo hi).sent = s.sent := rfl

/-! ### deckSweep -/

@[simp] theorem State.deckSweep_pending (s : State) : (s.deckSweep).pending = s.pending := rfl
@[simp] theorem State.deckSweep_now (s : State) : (s.deckSweep).now = s.now := rfl
@[simp] theorem State.deckSweep_fresh (s : State) : (s.deckSweep).fresh = s.fresh := rfl
@[simp] theorem State.deckSweep_variant (s : State) : (s.deckSweep).variant = s.variant := rfl
@[simp] theorem State.deckSweep_regs (s : State) : (s.deckSweep).regs = s.regs := rfl
@[simp] theorem State.deckSweep_ready (s : State) : (s.deckSweep).ready = s.ready := rfl
@[simp] theorem State.deckSweep_isolated (s : State) : (s.deckSweep).isolated = s.isolated := rfl
@[simp] theorem State.deckSweep_flt (s : State) : (s.deckSweep).flt = s.flt := rfl
@[simp] theorem State.deckSweep_pwr (s : State) : (s.deckSweep).pwr = s.pwr := rfl
@[simp] theorem State.deckSweep_boot (s : State) : (s.deckSweep).boot = s.boot := rfl
@[simp] theorem State.deckSweep_cyx (s : State) : (s.deckSweep).cyx = s.cyx := rfl
@[simp] theorem State.deckSweep_eph (s : State) : (s.deckSweep).eph = s.eph := rfl
@[simp] theorem State.deckSweep_lan (s : State) : (s.deckSweep).lan = s.lan := rfl
@[simp] theorem State.deckSweep_net (s : State) : (s.deckSweep).net = s.net := rfl
@[simp] theorem State.deckSweep_aud (s : State) : (s.deckSweep).aud = s.aud := rfl
@[simp] theorem State.deckSweep_mvw (s : State) : (s.deckSweep).mvw = s.mvw := rfl
@[simp] theorem State.deckSweep_enc (s : State) : (s.deckSweep).enc = s.enc := rfl
@[simp] theorem State.deckSweep_cru (s : State) : (s.deckSweep).cru = s.cru := rfl
@[simp] theorem State.deckSweep_tim (s : State) : (s.deckSweep).tim = s.tim := rfl
@[simp] theorem State.deckSweep_ref (s : State) : (s.deckSweep).ref = s.ref := rfl
@[simp] theorem State.deckSweep_mem (s : State) : (s.deckSweep).mem = s.mem := rfl
@[simp] theorem State.deckSweep_vlt (s : State) : (s.deckSweep).vlt = s.vlt := rfl
@[simp] theorem State.deckSweep_twn (s : State) : (s.deckSweep).twn = s.twn := rfl
@[simp] theorem State.deckSweep_sent (s : State) : (s.deckSweep).sent = s.sent := rfl
@[simp] theorem State.deckSweep_rd (s : State) (fr : FieldRef) : (s.deckSweep).rd fr = s.rd fr := rfl

/-! ### putSlot -/

@[simp] theorem State.putSlot_pending (s : State) (i : Nat) (x : Slot) : (s.putSlot i x).pending = s.pending := rfl
@[simp] theorem State.putSlot_now (s : State) (i : Nat) (x : Slot) : (s.putSlot i x).now = s.now := rfl
@[simp] theorem State.putSlot_fresh (s : State) (i : Nat) (x : Slot) : (s.putSlot i x).fresh = s.fresh := rfl
@[simp] theorem State.putSlot_variant (s : State) (i : Nat) (x : Slot) : (s.putSlot i x).variant = s.variant := rfl
@[simp] theorem State.putSlot_regs (s : State) (i : Nat) (x : Slot) : (s.putSlot i x).regs = s.regs := rfl
@[simp] theorem State.putSlot_ready (s : State) (i : Nat) (x : Slot) : (s.putSlot i x).ready = s.ready := rfl
@[simp] theorem State.putSlot_isolated (s : State) (i : Nat) (x : Slot) : (s.putSlot i x).isolated = s.isolated := rfl
@[simp] theorem State.putSlot_flt (s : State) (i : Nat) (x : Slot) : (s.putSlot i x).flt = s.flt := rfl
@[simp] theorem State.putSlot_pwr (s : State) (i : Nat) (x : Slot) : (s.putSlot i x).pwr = s.pwr := rfl
@[simp] theorem State.putSlot_boot (s : State) (i : Nat) (x : Slot) : (s.putSlot i x).boot = s.boot := rfl
@[simp] theorem State.putSlot_cyx (s : State) (i : Nat) (x : Slot) : (s.putSlot i x).cyx = s.cyx := rfl
@[simp] theorem State.putSlot_fab (s : State) (i : Nat) (x : Slot) : (s.putSlot i x).fab = s.fab := rfl
@[simp] theorem State.putSlot_eph (s : State) (i : Nat) (x : Slot) : (s.putSlot i x).eph = s.eph := rfl
@[simp] theorem State.putSlot_lan (s : State) (i : Nat) (x : Slot) : (s.putSlot i x).lan = s.lan := rfl
@[simp] theorem State.putSlot_net (s : State) (i : Nat) (x : Slot) : (s.putSlot i x).net = s.net := rfl
@[simp] theorem State.putSlot_aud (s : State) (i : Nat) (x : Slot) : (s.putSlot i x).aud = s.aud := rfl
@[simp] theorem State.putSlot_mvw (s : State) (i : Nat) (x : Slot) : (s.putSlot i x).mvw = s.mvw := rfl
@[simp] theorem State.putSlot_enc (s : State) (i : Nat) (x : Slot) : (s.putSlot i x).enc = s.enc := rfl
@[simp] theorem State.putSlot_cru (s : State) (i : Nat) (x : Slot) : (s.putSlot i x).cru = s.cru := rfl
@[simp] theorem State.putSlot_tim (s : State) (i : Nat) (x : Slot) : (s.putSlot i x).tim = s.tim := rfl
@[simp] theorem State.putSlot_ref (s : State) (i : Nat) (x : Slot) : (s.putSlot i x).ref = s.ref := rfl
@[simp] theorem State.putSlot_mem (s : State) (i : Nat) (x : Slot) : (s.putSlot i x).mem = s.mem := rfl
@[simp] theorem State.putSlot_twn (s : State) (i : Nat) (x : Slot) : (s.putSlot i x).twn = s.twn := rfl
@[simp] theorem State.putSlot_sent (s : State) (i : Nat) (x : Slot) : (s.putSlot i x).sent = s.sent := rfl
@[simp] theorem State.putSlot_rd (s : State) (i : Nat) (x : Slot) (fr : FieldRef) : (s.putSlot i x).rd fr = s.rd fr := rfl

/-! ### putSource -/

@[simp] theorem State.putSource_pending (s : State) (x : SourceRec) : (s.putSource x).pending = s.pending := rfl
@[simp] theorem State.putSource_now (s : State) (x : SourceRec) : (s.putSource x).now = s.now := rfl
@[simp] theorem State.putSource_fresh (s : State) (x : SourceRec) : (s.putSource x).fresh = s.fresh := rfl
@[simp] theorem State.putSource_variant (s : State) (x : SourceRec) : (s.putSource x).variant = s.variant := rfl
@[simp] theorem State.putSource_regs (s : State) (x : SourceRec) : (s.putSource x).regs = s.regs := rfl
@[simp] theorem State.putSource_ready (s : State) (x : SourceRec) : (s.putSource x).ready = s.ready := rfl
@[simp] theorem State.putSource_isolated (s : State) (x : SourceRec) : (s.putSource x).isolated = s.isolated := rfl
@[simp] theorem State.putSource_flt (s : State) (x : SourceRec) : (s.putSource x).flt = s.flt := rfl
@[simp] theorem State.putSource_pwr (s : State) (x : SourceRec) : (s.putSource x).pwr = s.pwr := rfl
@[simp] theorem State.putSource_boot (s : State) (x : SourceRec) : (s.putSource x).boot = s.boot := rfl
@[simp] theorem State.putSource_cyx (s : State) (x : SourceRec) : (s.putSource x).cyx = s.cyx := rfl
@[simp] theorem State.putSource_eph (s : State) (x : SourceRec) : (s.putSource x).eph = s.eph := rfl
@[simp] theorem State.putSource_lan (s : State) (x : SourceRec) : (s.putSource x).lan = s.lan := rfl
@[simp] theorem State.putSource_net (s : State) (x : SourceRec) : (s.putSource x).net = s.net := rfl
@[simp] theorem State.putSource_aud (s : State) (x : SourceRec) : (s.putSource x).aud = s.aud := rfl
@[simp] theorem State.putSource_mvw (s : State) (x : SourceRec) : (s.putSource x).mvw = s.mvw := rfl
@[simp] theorem State.putSource_enc (s : State) (x : SourceRec) : (s.putSource x).enc = s.enc := rfl
@[simp] theorem State.putSource_cru (s : State) (x : SourceRec) : (s.putSource x).cru = s.cru := rfl
@[simp] theorem State.putSource_tim (s : State) (x : SourceRec) : (s.putSource x).tim = s.tim := rfl
@[simp] theorem State.putSource_ref (s : State) (x : SourceRec) : (s.putSource x).ref = s.ref := rfl
@[simp] theorem State.putSource_mem (s : State) (x : SourceRec) : (s.putSource x).mem = s.mem := rfl
@[simp] theorem State.putSource_vlt (s : State) (x : SourceRec) : (s.putSource x).vlt = s.vlt := rfl
@[simp] theorem State.putSource_twn (s : State) (x : SourceRec) : (s.putSource x).twn = s.twn := rfl
@[simp] theorem State.putSource_sent (s : State) (x : SourceRec) : (s.putSource x).sent = s.sent := rfl
@[simp] theorem State.putSource_rd (s : State) (x : SourceRec) (fr : FieldRef) : (s.putSource x).rd fr = s.rd fr := rfl

/-! ### modTdm -/

@[simp] theorem State.modTdm_pending (s : State) (p : Nat) (f : TdmPort → TdmPort) : (s.modTdm p f).pending = s.pending := rfl
@[simp] theorem State.modTdm_now (s : State) (p : Nat) (f : TdmPort → TdmPort) : (s.modTdm p f).now = s.now := rfl
@[simp] theorem State.modTdm_fresh (s : State) (p : Nat) (f : TdmPort → TdmPort) : (s.modTdm p f).fresh = s.fresh := rfl
@[simp] theorem State.modTdm_variant (s : State) (p : Nat) (f : TdmPort → TdmPort) : (s.modTdm p f).variant = s.variant := rfl
@[simp] theorem State.modTdm_regs (s : State) (p : Nat) (f : TdmPort → TdmPort) : (s.modTdm p f).regs = s.regs := rfl
@[simp] theorem State.modTdm_ready (s : State) (p : Nat) (f : TdmPort → TdmPort) : (s.modTdm p f).ready = s.ready := rfl
@[simp] theorem State.modTdm_isolated (s : State) (p : Nat) (f : TdmPort → TdmPort) : (s.modTdm p f).isolated = s.isolated := rfl
@[simp] theorem State.modTdm_flt (s : State) (p : Nat) (f : TdmPort → TdmPort) : (s.modTdm p f).flt = s.flt := rfl
@[simp] theorem State.modTdm_pwr (s : State) (p : Nat) (f : TdmPort → TdmPort) : (s.modTdm p f).pwr = s.pwr := rfl
@[simp] theorem State.modTdm_boot (s : State) (p : Nat) (f : TdmPort → TdmPort) : (s.modTdm p f).boot = s.boot := rfl
@[simp] theorem State.modTdm_cyx (s : State) (p : Nat) (f : TdmPort → TdmPort) : (s.modTdm p f).cyx = s.cyx := rfl
@[simp] theorem State.modTdm_fab (s : State) (p : Nat) (f : TdmPort → TdmPort) : (s.modTdm p f).fab = s.fab := rfl
@[simp] theorem State.modTdm_eph (s : State) (p : Nat) (f : TdmPort → TdmPort) : (s.modTdm p f).eph = s.eph := rfl
@[simp] theorem State.modTdm_lan (s : State) (p : Nat) (f : TdmPort → TdmPort) : (s.modTdm p f).lan = s.lan := rfl
@[simp] theorem State.modTdm_net (s : State) (p : Nat) (f : TdmPort → TdmPort) : (s.modTdm p f).net = s.net := rfl
@[simp] theorem State.modTdm_mvw (s : State) (p : Nat) (f : TdmPort → TdmPort) : (s.modTdm p f).mvw = s.mvw := rfl
@[simp] theorem State.modTdm_enc (s : State) (p : Nat) (f : TdmPort → TdmPort) : (s.modTdm p f).enc = s.enc := rfl
@[simp] theorem State.modTdm_cru (s : State) (p : Nat) (f : TdmPort → TdmPort) : (s.modTdm p f).cru = s.cru := rfl
@[simp] theorem State.modTdm_tim (s : State) (p : Nat) (f : TdmPort → TdmPort) : (s.modTdm p f).tim = s.tim := rfl
@[simp] theorem State.modTdm_ref (s : State) (p : Nat) (f : TdmPort → TdmPort) : (s.modTdm p f).ref = s.ref := rfl
@[simp] theorem State.modTdm_mem (s : State) (p : Nat) (f : TdmPort → TdmPort) : (s.modTdm p f).mem = s.mem := rfl
@[simp] theorem State.modTdm_vlt (s : State) (p : Nat) (f : TdmPort → TdmPort) : (s.modTdm p f).vlt = s.vlt := rfl
@[simp] theorem State.modTdm_twn (s : State) (p : Nat) (f : TdmPort → TdmPort) : (s.modTdm p f).twn = s.twn := rfl
@[simp] theorem State.modTdm_sent (s : State) (p : Nat) (f : TdmPort → TdmPort) : (s.modTdm p f).sent = s.sent := rfl
@[simp] theorem State.modTdm_rd (s : State) (p : Nat) (f : TdmPort → TdmPort) (fr : FieldRef) : (s.modTdm p f).rd fr = s.rd fr := rfl

/-! ### putRate -/

@[simp] theorem State.putRate_pending (s : State) (x : RateRec) : (s.putRate x).pending = s.pending := rfl
@[simp] theorem State.putRate_now (s : State) (x : RateRec) : (s.putRate x).now = s.now := rfl
@[simp] theorem State.putRate_fresh (s : State) (x : RateRec) : (s.putRate x).fresh = s.fresh := rfl
@[simp] theorem State.putRate_variant (s : State) (x : RateRec) : (s.putRate x).variant = s.variant := rfl
@[simp] theorem State.putRate_regs (s : State) (x : RateRec) : (s.putRate x).regs = s.regs := rfl
@[simp] theorem State.putRate_ready (s : State) (x : RateRec) : (s.putRate x).ready = s.ready := rfl
@[simp] theorem State.putRate_isolated (s : State) (x : RateRec) : (s.putRate x).isolated = s.isolated := rfl
@[simp] theorem State.putRate_flt (s : State) (x : RateRec) : (s.putRate x).flt = s.flt := rfl
@[simp] theorem State.putRate_pwr (s : State) (x : RateRec) : (s.putRate x).pwr = s.pwr := rfl
@[simp] theorem State.putRate_boot (s : State) (x : RateRec) : (s.putRate x).boot = s.boot := rfl
@[simp] theorem State.putRate_cyx (s : State) (x : RateRec) : (s.putRate x).cyx = s.cyx := rfl
@[simp] theorem State.putRate_fab (s : State) (x : RateRec) : (s.putRate x).fab = s.fab := rfl
@[simp] theorem State.putRate_eph (s : State) (x : RateRec) : (s.putRate x).eph = s.eph := rfl
@[simp] theorem State.putRate_lan (s : State) (x : RateRec) : (s.putRate x).lan = s.lan := rfl
@[simp] theorem State.putRate_net (s : State) (x : RateRec) : (s.putRate x).net = s.net := rfl
@[simp] theorem State.putRate_mvw (s : State) (x : RateRec) : (s.putRate x).mvw = s.mvw := rfl
@[simp] theorem State.putRate_enc (s : State) (x : RateRec) : (s.putRate x).enc = s.enc := rfl
@[simp] theorem State.putRate_cru (s : State) (x : RateRec) : (s.putRate x).cru = s.cru := rfl
@[simp] theorem State.putRate_tim (s : State) (x : RateRec) : (s.putRate x).tim = s.tim := rfl
@[simp] theorem State.putRate_ref (s : State) (x : RateRec) : (s.putRate x).ref = s.ref := rfl
@[simp] theorem State.putRate_mem (s : State) (x : RateRec) : (s.putRate x).mem = s.mem := rfl
@[simp] theorem State.putRate_vlt (s : State) (x : RateRec) : (s.putRate x).vlt = s.vlt := rfl
@[simp] theorem State.putRate_twn (s : State) (x : RateRec) : (s.putRate x).twn = s.twn := rfl
@[simp] theorem State.putRate_sent (s : State) (x : RateRec) : (s.putRate x).sent = s.sent := rfl
@[simp] theorem State.putRate_rd (s : State) (x : RateRec) (fr : FieldRef) : (s.putRate x).rd fr = s.rd fr := rfl

/-! ### tookTurn -/

@[simp] theorem State.tookTurn_pending (s : State) (ch : Nat) : (s.tookTurn ch).pending = s.pending := rfl
@[simp] theorem State.tookTurn_now (s : State) (ch : Nat) : (s.tookTurn ch).now = s.now := rfl
@[simp] theorem State.tookTurn_fresh (s : State) (ch : Nat) : (s.tookTurn ch).fresh = s.fresh := rfl
@[simp] theorem State.tookTurn_variant (s : State) (ch : Nat) : (s.tookTurn ch).variant = s.variant := rfl
@[simp] theorem State.tookTurn_regs (s : State) (ch : Nat) : (s.tookTurn ch).regs = s.regs := rfl
@[simp] theorem State.tookTurn_ready (s : State) (ch : Nat) : (s.tookTurn ch).ready = s.ready := rfl
@[simp] theorem State.tookTurn_isolated (s : State) (ch : Nat) : (s.tookTurn ch).isolated = s.isolated := rfl
@[simp] theorem State.tookTurn_flt (s : State) (ch : Nat) : (s.tookTurn ch).flt = s.flt := rfl
@[simp] theorem State.tookTurn_pwr (s : State) (ch : Nat) : (s.tookTurn ch).pwr = s.pwr := rfl
@[simp] theorem State.tookTurn_boot (s : State) (ch : Nat) : (s.tookTurn ch).boot = s.boot := rfl
@[simp] theorem State.tookTurn_cyx (s : State) (ch : Nat) : (s.tookTurn ch).cyx = s.cyx := rfl
@[simp] theorem State.tookTurn_fab (s : State) (ch : Nat) : (s.tookTurn ch).fab = s.fab := rfl
@[simp] theorem State.tookTurn_eph (s : State) (ch : Nat) : (s.tookTurn ch).eph = s.eph := rfl
@[simp] theorem State.tookTurn_lan (s : State) (ch : Nat) : (s.tookTurn ch).lan = s.lan := rfl
@[simp] theorem State.tookTurn_net (s : State) (ch : Nat) : (s.tookTurn ch).net = s.net := rfl
@[simp] theorem State.tookTurn_aud (s : State) (ch : Nat) : (s.tookTurn ch).aud = s.aud := rfl
@[simp] theorem State.tookTurn_mvw (s : State) (ch : Nat) : (s.tookTurn ch).mvw = s.mvw := rfl
@[simp] theorem State.tookTurn_enc (s : State) (ch : Nat) : (s.tookTurn ch).enc = s.enc := rfl
@[simp] theorem State.tookTurn_cru (s : State) (ch : Nat) : (s.tookTurn ch).cru = s.cru := rfl
@[simp] theorem State.tookTurn_tim (s : State) (ch : Nat) : (s.tookTurn ch).tim = s.tim := rfl
@[simp] theorem State.tookTurn_ref (s : State) (ch : Nat) : (s.tookTurn ch).ref = s.ref := rfl
@[simp] theorem State.tookTurn_vlt (s : State) (ch : Nat) : (s.tookTurn ch).vlt = s.vlt := rfl
@[simp] theorem State.tookTurn_twn (s : State) (ch : Nat) : (s.tookTurn ch).twn = s.twn := rfl
@[simp] theorem State.tookTurn_sent (s : State) (ch : Nat) : (s.tookTurn ch).sent = s.sent := rfl
@[simp] theorem State.tookTurn_rd (s : State) (ch : Nat) (fr : FieldRef) : (s.tookTurn ch).rd fr = s.rd fr := rfl

/-! ### modNetPort -/

@[simp] theorem State.modNetPort_pending (s : State) (p : Nat) (f : PortRec → PortRec) : (s.modNetPort p f).pending = s.pending := rfl
@[simp] theorem State.modNetPort_now (s : State) (p : Nat) (f : PortRec → PortRec) : (s.modNetPort p f).now = s.now := rfl
@[simp] theorem State.modNetPort_fresh (s : State) (p : Nat) (f : PortRec → PortRec) : (s.modNetPort p f).fresh = s.fresh := rfl
@[simp] theorem State.modNetPort_variant (s : State) (p : Nat) (f : PortRec → PortRec) : (s.modNetPort p f).variant = s.variant := rfl
@[simp] theorem State.modNetPort_ready (s : State) (p : Nat) (f : PortRec → PortRec) : (s.modNetPort p f).ready = s.ready := rfl
@[simp] theorem State.modNetPort_isolated (s : State) (p : Nat) (f : PortRec → PortRec) : (s.modNetPort p f).isolated = s.isolated := rfl
@[simp] theorem State.modNetPort_flt (s : State) (p : Nat) (f : PortRec → PortRec) : (s.modNetPort p f).flt = s.flt := rfl
@[simp] theorem State.modNetPort_pwr (s : State) (p : Nat) (f : PortRec → PortRec) : (s.modNetPort p f).pwr = s.pwr := rfl
@[simp] theorem State.modNetPort_boot (s : State) (p : Nat) (f : PortRec → PortRec) : (s.modNetPort p f).boot = s.boot := rfl
@[simp] theorem State.modNetPort_cyx (s : State) (p : Nat) (f : PortRec → PortRec) : (s.modNetPort p f).cyx = s.cyx := rfl
@[simp] theorem State.modNetPort_fab (s : State) (p : Nat) (f : PortRec → PortRec) : (s.modNetPort p f).fab = s.fab := rfl
@[simp] theorem State.modNetPort_eph (s : State) (p : Nat) (f : PortRec → PortRec) : (s.modNetPort p f).eph = s.eph := rfl
@[simp] theorem State.modNetPort_lan (s : State) (p : Nat) (f : PortRec → PortRec) : (s.modNetPort p f).lan = s.lan := rfl
@[simp] theorem State.modNetPort_aud (s : State) (p : Nat) (f : PortRec → PortRec) : (s.modNetPort p f).aud = s.aud := rfl
@[simp] theorem State.modNetPort_mvw (s : State) (p : Nat) (f : PortRec → PortRec) : (s.modNetPort p f).mvw = s.mvw := rfl
@[simp] theorem State.modNetPort_enc (s : State) (p : Nat) (f : PortRec → PortRec) : (s.modNetPort p f).enc = s.enc := rfl
@[simp] theorem State.modNetPort_cru (s : State) (p : Nat) (f : PortRec → PortRec) : (s.modNetPort p f).cru = s.cru := rfl
@[simp] theorem State.modNetPort_tim (s : State) (p : Nat) (f : PortRec → PortRec) : (s.modNetPort p f).tim = s.tim := rfl
@[simp] theorem State.modNetPort_ref (s : State) (p : Nat) (f : PortRec → PortRec) : (s.modNetPort p f).ref = s.ref := rfl
@[simp] theorem State.modNetPort_mem (s : State) (p : Nat) (f : PortRec → PortRec) : (s.modNetPort p f).mem = s.mem := rfl
@[simp] theorem State.modNetPort_vlt (s : State) (p : Nat) (f : PortRec → PortRec) : (s.modNetPort p f).vlt = s.vlt := rfl
@[simp] theorem State.modNetPort_twn (s : State) (p : Nat) (f : PortRec → PortRec) : (s.modNetPort p f).twn = s.twn := rfl
@[simp] theorem State.modNetPort_sent (s : State) (p : Nat) (f : PortRec → PortRec) : (s.modNetPort p f).sent = s.sent := rfl

/-! ### moduleWrite -/

@[simp] theorem State.moduleWrite_pending (s : State) (m offset data : Nat) : (s.moduleWrite m offset data).pending = s.pending := rfl
@[simp] theorem State.moduleWrite_now (s : State) (m offset data : Nat) : (s.moduleWrite m offset data).now = s.now := rfl
@[simp] theorem State.moduleWrite_fresh (s : State) (m offset data : Nat) : (s.moduleWrite m offset data).fresh = s.fresh := rfl
@[simp] theorem State.moduleWrite_variant (s : State) (m offset data : Nat) : (s.moduleWrite m offset data).variant = s.variant := rfl
@[simp] theorem State.moduleWrite_regs (s : State) (m offset data : Nat) : (s.moduleWrite m offset data).regs = s.regs := rfl
@[simp] theorem State.moduleWrite_ready (s : State) (m offset data : Nat) : (s.moduleWrite m offset data).ready = s.ready := rfl
@[simp] theorem State.moduleWrite_isolated (s : State) (m offset data : Nat) : (s.moduleWrite m offset data).isolated = s.isolated := rfl
@[simp] theorem State.moduleWrite_flt (s : State) (m offset data : Nat) : (s.moduleWrite m offset data).flt = s.flt := rfl
@[simp] theorem State.moduleWrite_pwr (s : State) (m offset data : Nat) : (s.moduleWrite m offset data).pwr = s.pwr := rfl
@[simp] theorem State.moduleWrite_boot (s : State) (m offset data : Nat) : (s.moduleWrite m offset data).boot = s.boot := rfl
@[simp] theorem State.moduleWrite_cyx (s : State) (m offset data : Nat) : (s.moduleWrite m offset data).cyx = s.cyx := rfl
@[simp] theorem State.moduleWrite_fab (s : State) (m offset data : Nat) : (s.moduleWrite m offset data).fab = s.fab := rfl
@[simp] theorem State.moduleWrite_eph (s : State) (m offset data : Nat) : (s.moduleWrite m offset data).eph = s.eph := rfl
@[simp] theorem State.moduleWrite_lan (s : State) (m offset data : Nat) : (s.moduleWrite m offset data).lan = s.lan := rfl
@[simp] theorem State.moduleWrite_net (s : State) (m offset data : Nat) : (s.moduleWrite m offset data).net = s.net := rfl
@[simp] theorem State.moduleWrite_aud (s : State) (m offset data : Nat) : (s.moduleWrite m offset data).aud = s.aud := rfl
@[simp] theorem State.moduleWrite_mvw (s : State) (m offset data : Nat) : (s.moduleWrite m offset data).mvw = s.mvw := rfl
@[simp] theorem State.moduleWrite_enc (s : State) (m offset data : Nat) : (s.moduleWrite m offset data).enc = s.enc := rfl
@[simp] theorem State.moduleWrite_cru (s : State) (m offset data : Nat) : (s.moduleWrite m offset data).cru = s.cru := rfl
@[simp] theorem State.moduleWrite_tim (s : State) (m offset data : Nat) : (s.moduleWrite m offset data).tim = s.tim := rfl
@[simp] theorem State.moduleWrite_ref (s : State) (m offset data : Nat) : (s.moduleWrite m offset data).ref = s.ref := rfl
@[simp] theorem State.moduleWrite_mem (s : State) (m offset data : Nat) : (s.moduleWrite m offset data).mem = s.mem := rfl
@[simp] theorem State.moduleWrite_vlt (s : State) (m offset data : Nat) : (s.moduleWrite m offset data).vlt = s.vlt := rfl
@[simp] theorem State.moduleWrite_twn (s : State) (m offset data : Nat) : (s.moduleWrite m offset data).twn = s.twn := rfl
@[simp] theorem State.moduleWrite_rd (s : State) (m offset data : Nat) (fr : FieldRef) : (s.moduleWrite m offset data).rd fr = s.rd fr := rfl

/-! ### putBus -/

@[simp] theorem State.putBus_pending (s : State) (x : ModuleBus) : (s.putBus x).pending = s.pending := rfl
@[simp] theorem State.putBus_now (s : State) (x : ModuleBus) : (s.putBus x).now = s.now := rfl
@[simp] theorem State.putBus_fresh (s : State) (x : ModuleBus) : (s.putBus x).fresh = s.fresh := rfl
@[simp] theorem State.putBus_variant (s : State) (x : ModuleBus) : (s.putBus x).variant = s.variant := rfl
@[simp] theorem State.putBus_regs (s : State) (x : ModuleBus) : (s.putBus x).regs = s.regs := rfl
@[simp] theorem State.putBus_ready (s : State) (x : ModuleBus) : (s.putBus x).ready = s.ready := rfl
@[simp] theorem State.putBus_isolated (s : State) (x : ModuleBus) : (s.putBus x).isolated = s.isolated := rfl
@[simp] theorem State.putBus_flt (s : State) (x : ModuleBus) : (s.putBus x).flt = s.flt := rfl
@[simp] theorem State.putBus_pwr (s : State) (x : ModuleBus) : (s.putBus x).pwr = s.pwr := rfl
@[simp] theorem State.putBus_boot (s : State) (x : ModuleBus) : (s.putBus x).boot = s.boot := rfl
@[simp] theorem State.putBus_cyx (s : State) (x : ModuleBus) : (s.putBus x).cyx = s.cyx := rfl
@[simp] theorem State.putBus_fab (s : State) (x : ModuleBus) : (s.putBus x).fab = s.fab := rfl
@[simp] theorem State.putBus_eph (s : State) (x : ModuleBus) : (s.putBus x).eph = s.eph := rfl
@[simp] theorem State.putBus_lan (s : State) (x : ModuleBus) : (s.putBus x).lan = s.lan := rfl
@[simp] theorem State.putBus_aud (s : State) (x : ModuleBus) : (s.putBus x).aud = s.aud := rfl
@[simp] theorem State.putBus_mvw (s : State) (x : ModuleBus) : (s.putBus x).mvw = s.mvw := rfl
@[simp] theorem State.putBus_enc (s : State) (x : ModuleBus) : (s.putBus x).enc = s.enc := rfl
@[simp] theorem State.putBus_cru (s : State) (x : ModuleBus) : (s.putBus x).cru = s.cru := rfl
@[simp] theorem State.putBus_tim (s : State) (x : ModuleBus) : (s.putBus x).tim = s.tim := rfl
@[simp] theorem State.putBus_ref (s : State) (x : ModuleBus) : (s.putBus x).ref = s.ref := rfl
@[simp] theorem State.putBus_mem (s : State) (x : ModuleBus) : (s.putBus x).mem = s.mem := rfl
@[simp] theorem State.putBus_vlt (s : State) (x : ModuleBus) : (s.putBus x).vlt = s.vlt := rfl
@[simp] theorem State.putBus_twn (s : State) (x : ModuleBus) : (s.putBus x).twn = s.twn := rfl
@[simp] theorem State.putBus_sent (s : State) (x : ModuleBus) : (s.putBus x).sent = s.sent := rfl
@[simp] theorem State.putBus_rd (s : State) (x : ModuleBus) (fr : FieldRef) : (s.putBus x).rd fr = s.rd fr := rfl

/-! ### landingLost -/

@[simp] theorem State.landingLost_pending (s : State) (c : Landing) (t : Nat) : (s.landingLost c t).pending = s.pending := rfl
@[simp] theorem State.landingLost_now (s : State) (c : Landing) (t : Nat) : (s.landingLost c t).now = s.now := rfl
@[simp] theorem State.landingLost_fresh (s : State) (c : Landing) (t : Nat) : (s.landingLost c t).fresh = s.fresh := rfl
@[simp] theorem State.landingLost_variant (s : State) (c : Landing) (t : Nat) : (s.landingLost c t).variant = s.variant := rfl
@[simp] theorem State.landingLost_regs (s : State) (c : Landing) (t : Nat) : (s.landingLost c t).regs = s.regs := rfl
@[simp] theorem State.landingLost_ready (s : State) (c : Landing) (t : Nat) : (s.landingLost c t).ready = s.ready := rfl
@[simp] theorem State.landingLost_isolated (s : State) (c : Landing) (t : Nat) : (s.landingLost c t).isolated = s.isolated := rfl
@[simp] theorem State.landingLost_flt (s : State) (c : Landing) (t : Nat) : (s.landingLost c t).flt = s.flt := rfl
@[simp] theorem State.landingLost_pwr (s : State) (c : Landing) (t : Nat) : (s.landingLost c t).pwr = s.pwr := rfl
@[simp] theorem State.landingLost_boot (s : State) (c : Landing) (t : Nat) : (s.landingLost c t).boot = s.boot := rfl
@[simp] theorem State.landingLost_cyx (s : State) (c : Landing) (t : Nat) : (s.landingLost c t).cyx = s.cyx := rfl
@[simp] theorem State.landingLost_eph (s : State) (c : Landing) (t : Nat) : (s.landingLost c t).eph = s.eph := rfl
@[simp] theorem State.landingLost_lan (s : State) (c : Landing) (t : Nat) : (s.landingLost c t).lan = s.lan := rfl
@[simp] theorem State.landingLost_net (s : State) (c : Landing) (t : Nat) : (s.landingLost c t).net = s.net := rfl
@[simp] theorem State.landingLost_aud (s : State) (c : Landing) (t : Nat) : (s.landingLost c t).aud = s.aud := rfl
@[simp] theorem State.landingLost_mvw (s : State) (c : Landing) (t : Nat) : (s.landingLost c t).mvw = s.mvw := rfl
@[simp] theorem State.landingLost_enc (s : State) (c : Landing) (t : Nat) : (s.landingLost c t).enc = s.enc := rfl
@[simp] theorem State.landingLost_cru (s : State) (c : Landing) (t : Nat) : (s.landingLost c t).cru = s.cru := rfl
@[simp] theorem State.landingLost_tim (s : State) (c : Landing) (t : Nat) : (s.landingLost c t).tim = s.tim := rfl
@[simp] theorem State.landingLost_ref (s : State) (c : Landing) (t : Nat) : (s.landingLost c t).ref = s.ref := rfl
@[simp] theorem State.landingLost_mem (s : State) (c : Landing) (t : Nat) : (s.landingLost c t).mem = s.mem := rfl
@[simp] theorem State.landingLost_vlt (s : State) (c : Landing) (t : Nat) : (s.landingLost c t).vlt = s.vlt := rfl
@[simp] theorem State.landingLost_twn (s : State) (c : Landing) (t : Nat) : (s.landingLost c t).twn = s.twn := rfl
@[simp] theorem State.landingLost_sent (s : State) (c : Landing) (t : Nat) : (s.landingLost c t).sent = s.sent := rfl
@[simp] theorem State.landingLost_rd (s : State) (c : Landing) (t : Nat) (fr : FieldRef) : (s.landingLost c t).rd fr = s.rd fr := rfl

/-! ### dropPartial -/

@[simp] theorem State.dropPartial_pending (s : State) (rq : Req) : (s.dropPartial rq).pending = s.pending := rfl
@[simp] theorem State.dropPartial_now (s : State) (rq : Req) : (s.dropPartial rq).now = s.now := rfl
@[simp] theorem State.dropPartial_fresh (s : State) (rq : Req) : (s.dropPartial rq).fresh = s.fresh := rfl
@[simp] theorem State.dropPartial_variant (s : State) (rq : Req) : (s.dropPartial rq).variant = s.variant := rfl
@[simp] theorem State.dropPartial_regs (s : State) (rq : Req) : (s.dropPartial rq).regs = s.regs := rfl
@[simp] theorem State.dropPartial_ready (s : State) (rq : Req) : (s.dropPartial rq).ready = s.ready := rfl
@[simp] theorem State.dropPartial_isolated (s : State) (rq : Req) : (s.dropPartial rq).isolated = s.isolated := rfl
@[simp] theorem State.dropPartial_flt (s : State) (rq : Req) : (s.dropPartial rq).flt = s.flt := rfl
@[simp] theorem State.dropPartial_pwr (s : State) (rq : Req) : (s.dropPartial rq).pwr = s.pwr := rfl
@[simp] theorem State.dropPartial_boot (s : State) (rq : Req) : (s.dropPartial rq).boot = s.boot := rfl
@[simp] theorem State.dropPartial_fab (s : State) (rq : Req) : (s.dropPartial rq).fab = s.fab := rfl
@[simp] theorem State.dropPartial_eph (s : State) (rq : Req) : (s.dropPartial rq).eph = s.eph := rfl
@[simp] theorem State.dropPartial_lan (s : State) (rq : Req) : (s.dropPartial rq).lan = s.lan := rfl
@[simp] theorem State.dropPartial_net (s : State) (rq : Req) : (s.dropPartial rq).net = s.net := rfl
@[simp] theorem State.dropPartial_aud (s : State) (rq : Req) : (s.dropPartial rq).aud = s.aud := rfl
@[simp] theorem State.dropPartial_mvw (s : State) (rq : Req) : (s.dropPartial rq).mvw = s.mvw := rfl
@[simp] theorem State.dropPartial_enc (s : State) (rq : Req) : (s.dropPartial rq).enc = s.enc := rfl
@[simp] theorem State.dropPartial_cru (s : State) (rq : Req) : (s.dropPartial rq).cru = s.cru := rfl
@[simp] theorem State.dropPartial_tim (s : State) (rq : Req) : (s.dropPartial rq).tim = s.tim := rfl
@[simp] theorem State.dropPartial_ref (s : State) (rq : Req) : (s.dropPartial rq).ref = s.ref := rfl
@[simp] theorem State.dropPartial_mem (s : State) (rq : Req) : (s.dropPartial rq).mem = s.mem := rfl
@[simp] theorem State.dropPartial_vlt (s : State) (rq : Req) : (s.dropPartial rq).vlt = s.vlt := rfl
@[simp] theorem State.dropPartial_twn (s : State) (rq : Req) : (s.dropPartial rq).twn = s.twn := rfl
@[simp] theorem State.dropPartial_sent (s : State) (rq : Req) : (s.dropPartial rq).sent = s.sent := rfl
@[simp] theorem State.dropPartial_rd (s : State) (rq : Req) (fr : FieldRef) : (s.dropPartial rq).rd fr = s.rd fr := rfl

/-! ### noteRevert -/

@[simp] theorem State.noteRevert_pending (s : State) : (s.noteRevert).pending = s.pending := rfl
@[simp] theorem State.noteRevert_now (s : State) : (s.noteRevert).now = s.now := rfl
@[simp] theorem State.noteRevert_fresh (s : State) : (s.noteRevert).fresh = s.fresh := rfl
@[simp] theorem State.noteRevert_variant (s : State) : (s.noteRevert).variant = s.variant := rfl
@[simp] theorem State.noteRevert_regs (s : State) : (s.noteRevert).regs = s.regs := rfl
@[simp] theorem State.noteRevert_ready (s : State) : (s.noteRevert).ready = s.ready := rfl
@[simp] theorem State.noteRevert_isolated (s : State) : (s.noteRevert).isolated = s.isolated := rfl
@[simp] theorem State.noteRevert_flt (s : State) : (s.noteRevert).flt = s.flt := rfl
@[simp] theorem State.noteRevert_pwr (s : State) : (s.noteRevert).pwr = s.pwr := rfl
@[simp] theorem State.noteRevert_boot (s : State) : (s.noteRevert).boot = s.boot := rfl
@[simp] theorem State.noteRevert_cyx (s : State) : (s.noteRevert).cyx = s.cyx := rfl
@[simp] theorem State.noteRevert_fab (s : State) : (s.noteRevert).fab = s.fab := rfl
@[simp] theorem State.noteRevert_eph (s : State) : (s.noteRevert).eph = s.eph := rfl
@[simp] theorem State.noteRevert_lan (s : State) : (s.noteRevert).lan = s.lan := rfl
@[simp] theorem State.noteRevert_net (s : State) : (s.noteRevert).net = s.net := rfl
@[simp] theorem State.noteRevert_aud (s : State) : (s.noteRevert).aud = s.aud := rfl
@[simp] theorem State.noteRevert_mvw (s : State) : (s.noteRevert).mvw = s.mvw := rfl
@[simp] theorem State.noteRevert_enc (s : State) : (s.noteRevert).enc = s.enc := rfl
@[simp] theorem State.noteRevert_cru (s : State) : (s.noteRevert).cru = s.cru := rfl
@[simp] theorem State.noteRevert_tim (s : State) : (s.noteRevert).tim = s.tim := rfl
@[simp] theorem State.noteRevert_ref (s : State) : (s.noteRevert).ref = s.ref := rfl
@[simp] theorem State.noteRevert_mem (s : State) : (s.noteRevert).mem = s.mem := rfl
@[simp] theorem State.noteRevert_vlt (s : State) : (s.noteRevert).vlt = s.vlt := rfl
@[simp] theorem State.noteRevert_sent (s : State) : (s.noteRevert).sent = s.sent := rfl
@[simp] theorem State.noteRevert_rd (s : State) (fr : FieldRef) : (s.noteRevert).rd fr = s.rd fr := rfl

/-! ### putAudioSource -/

@[simp] theorem State.putAudioSource_pending (s : State) (x : AudioSource) : (s.putAudioSource x).pending = s.pending := rfl
@[simp] theorem State.putAudioSource_now (s : State) (x : AudioSource) : (s.putAudioSource x).now = s.now := rfl
@[simp] theorem State.putAudioSource_fresh (s : State) (x : AudioSource) : (s.putAudioSource x).fresh = s.fresh := rfl
@[simp] theorem State.putAudioSource_variant (s : State) (x : AudioSource) : (s.putAudioSource x).variant = s.variant := rfl
@[simp] theorem State.putAudioSource_regs (s : State) (x : AudioSource) : (s.putAudioSource x).regs = s.regs := rfl
@[simp] theorem State.putAudioSource_ready (s : State) (x : AudioSource) : (s.putAudioSource x).ready = s.ready := rfl
@[simp] theorem State.putAudioSource_isolated (s : State) (x : AudioSource) : (s.putAudioSource x).isolated = s.isolated := rfl
@[simp] theorem State.putAudioSource_flt (s : State) (x : AudioSource) : (s.putAudioSource x).flt = s.flt := rfl
@[simp] theorem State.putAudioSource_pwr (s : State) (x : AudioSource) : (s.putAudioSource x).pwr = s.pwr := rfl
@[simp] theorem State.putAudioSource_boot (s : State) (x : AudioSource) : (s.putAudioSource x).boot = s.boot := rfl
@[simp] theorem State.putAudioSource_cyx (s : State) (x : AudioSource) : (s.putAudioSource x).cyx = s.cyx := rfl
@[simp] theorem State.putAudioSource_fab (s : State) (x : AudioSource) : (s.putAudioSource x).fab = s.fab := rfl
@[simp] theorem State.putAudioSource_eph (s : State) (x : AudioSource) : (s.putAudioSource x).eph = s.eph := rfl
@[simp] theorem State.putAudioSource_lan (s : State) (x : AudioSource) : (s.putAudioSource x).lan = s.lan := rfl
@[simp] theorem State.putAudioSource_net (s : State) (x : AudioSource) : (s.putAudioSource x).net = s.net := rfl
@[simp] theorem State.putAudioSource_mvw (s : State) (x : AudioSource) : (s.putAudioSource x).mvw = s.mvw := rfl
@[simp] theorem State.putAudioSource_enc (s : State) (x : AudioSource) : (s.putAudioSource x).enc = s.enc := rfl
@[simp] theorem State.putAudioSource_cru (s : State) (x : AudioSource) : (s.putAudioSource x).cru = s.cru := rfl
@[simp] theorem State.putAudioSource_tim (s : State) (x : AudioSource) : (s.putAudioSource x).tim = s.tim := rfl
@[simp] theorem State.putAudioSource_ref (s : State) (x : AudioSource) : (s.putAudioSource x).ref = s.ref := rfl
@[simp] theorem State.putAudioSource_mem (s : State) (x : AudioSource) : (s.putAudioSource x).mem = s.mem := rfl
@[simp] theorem State.putAudioSource_vlt (s : State) (x : AudioSource) : (s.putAudioSource x).vlt = s.vlt := rfl
@[simp] theorem State.putAudioSource_twn (s : State) (x : AudioSource) : (s.putAudioSource x).twn = s.twn := rfl
@[simp] theorem State.putAudioSource_sent (s : State) (x : AudioSource) : (s.putAudioSource x).sent = s.sent := rfl
@[simp] theorem State.putAudioSource_rd (s : State) (x : AudioSource) (fr : FieldRef) : (s.putAudioSource x).rd fr = s.rd fr := rfl

/-! ### putLanding -/

@[simp] theorem State.putLanding_pending (s : State) (c : Landing) : (s.putLanding c).pending = s.pending := rfl
@[simp] theorem State.putLanding_now (s : State) (c : Landing) : (s.putLanding c).now = s.now := rfl
@[simp] theorem State.putLanding_fresh (s : State) (c : Landing) : (s.putLanding c).fresh = s.fresh := rfl
@[simp] theorem State.putLanding_variant (s : State) (c : Landing) : (s.putLanding c).variant = s.variant := rfl
@[simp] theorem State.putLanding_regs (s : State) (c : Landing) : (s.putLanding c).regs = s.regs := rfl
@[simp] theorem State.putLanding_ready (s : State) (c : Landing) : (s.putLanding c).ready = s.ready := rfl
@[simp] theorem State.putLanding_isolated (s : State) (c : Landing) : (s.putLanding c).isolated = s.isolated := rfl
@[simp] theorem State.putLanding_flt (s : State) (c : Landing) : (s.putLanding c).flt = s.flt := rfl
@[simp] theorem State.putLanding_pwr (s : State) (c : Landing) : (s.putLanding c).pwr = s.pwr := rfl
@[simp] theorem State.putLanding_boot (s : State) (c : Landing) : (s.putLanding c).boot = s.boot := rfl
@[simp] theorem State.putLanding_cyx (s : State) (c : Landing) : (s.putLanding c).cyx = s.cyx := rfl
@[simp] theorem State.putLanding_eph (s : State) (c : Landing) : (s.putLanding c).eph = s.eph := rfl
@[simp] theorem State.putLanding_lan (s : State) (c : Landing) : (s.putLanding c).lan = s.lan := rfl
@[simp] theorem State.putLanding_net (s : State) (c : Landing) : (s.putLanding c).net = s.net := rfl
@[simp] theorem State.putLanding_aud (s : State) (c : Landing) : (s.putLanding c).aud = s.aud := rfl
@[simp] theorem State.putLanding_mvw (s : State) (c : Landing) : (s.putLanding c).mvw = s.mvw := rfl
@[simp] theorem State.putLanding_enc (s : State) (c : Landing) : (s.putLanding c).enc = s.enc := rfl
@[simp] theorem State.putLanding_cru (s : State) (c : Landing) : (s.putLanding c).cru = s.cru := rfl
@[simp] theorem State.putLanding_tim (s : State) (c : Landing) : (s.putLanding c).tim = s.tim := rfl
@[simp] theorem State.putLanding_ref (s : State) (c : Landing) : (s.putLanding c).ref = s.ref := rfl
@[simp] theorem State.putLanding_mem (s : State) (c : Landing) : (s.putLanding c).mem = s.mem := rfl
@[simp] theorem State.putLanding_vlt (s : State) (c : Landing) : (s.putLanding c).vlt = s.vlt := rfl
@[simp] theorem State.putLanding_twn (s : State) (c : Landing) : (s.putLanding c).twn = s.twn := rfl
@[simp] theorem State.putLanding_sent (s : State) (c : Landing) : (s.putLanding c).sent = s.sent := rfl
@[simp] theorem State.putLanding_rd (s : State) (c : Landing) (fr : FieldRef) : (s.putLanding c).rd fr = s.rd fr := rfl

/-! ### putGenerator -/

@[simp] theorem State.putGenerator_pending (s : State) (g : Nat) (x : Generator) : (s.putGenerator g x).pending = s.pending := rfl
@[simp] theorem State.putGenerator_now (s : State) (g : Nat) (x : Generator) : (s.putGenerator g x).now = s.now := rfl
@[simp] theorem State.putGenerator_fresh (s : State) (g : Nat) (x : Generator) : (s.putGenerator g x).fresh = s.fresh := rfl
@[simp] theorem State.putGenerator_variant (s : State) (g : Nat) (x : Generator) : (s.putGenerator g x).variant = s.variant := rfl
@[simp] theorem State.putGenerator_regs (s : State) (g : Nat) (x : Generator) : (s.putGenerator g x).regs = s.regs := rfl
@[simp] theorem State.putGenerator_ready (s : State) (g : Nat) (x : Generator) : (s.putGenerator g x).ready = s.ready := rfl
@[simp] theorem State.putGenerator_isolated (s : State) (g : Nat) (x : Generator) : (s.putGenerator g x).isolated = s.isolated := rfl
@[simp] theorem State.putGenerator_flt (s : State) (g : Nat) (x : Generator) : (s.putGenerator g x).flt = s.flt := rfl
@[simp] theorem State.putGenerator_pwr (s : State) (g : Nat) (x : Generator) : (s.putGenerator g x).pwr = s.pwr := rfl
@[simp] theorem State.putGenerator_boot (s : State) (g : Nat) (x : Generator) : (s.putGenerator g x).boot = s.boot := rfl
@[simp] theorem State.putGenerator_cyx (s : State) (g : Nat) (x : Generator) : (s.putGenerator g x).cyx = s.cyx := rfl
@[simp] theorem State.putGenerator_fab (s : State) (g : Nat) (x : Generator) : (s.putGenerator g x).fab = s.fab := rfl
@[simp] theorem State.putGenerator_lan (s : State) (g : Nat) (x : Generator) : (s.putGenerator g x).lan = s.lan := rfl
@[simp] theorem State.putGenerator_net (s : State) (g : Nat) (x : Generator) : (s.putGenerator g x).net = s.net := rfl
@[simp] theorem State.putGenerator_aud (s : State) (g : Nat) (x : Generator) : (s.putGenerator g x).aud = s.aud := rfl
@[simp] theorem State.putGenerator_mvw (s : State) (g : Nat) (x : Generator) : (s.putGenerator g x).mvw = s.mvw := rfl
@[simp] theorem State.putGenerator_enc (s : State) (g : Nat) (x : Generator) : (s.putGenerator g x).enc = s.enc := rfl
@[simp] theorem State.putGenerator_cru (s : State) (g : Nat) (x : Generator) : (s.putGenerator g x).cru = s.cru := rfl
@[simp] theorem State.putGenerator_tim (s : State) (g : Nat) (x : Generator) : (s.putGenerator g x).tim = s.tim := rfl
@[simp] theorem State.putGenerator_ref (s : State) (g : Nat) (x : Generator) : (s.putGenerator g x).ref = s.ref := rfl
@[simp] theorem State.putGenerator_mem (s : State) (g : Nat) (x : Generator) : (s.putGenerator g x).mem = s.mem := rfl
@[simp] theorem State.putGenerator_vlt (s : State) (g : Nat) (x : Generator) : (s.putGenerator g x).vlt = s.vlt := rfl
@[simp] theorem State.putGenerator_twn (s : State) (g : Nat) (x : Generator) : (s.putGenerator g x).twn = s.twn := rfl
@[simp] theorem State.putGenerator_sent (s : State) (g : Nat) (x : Generator) : (s.putGenerator g x).sent = s.sent := rfl
@[simp] theorem State.putGenerator_rd (s : State) (g : Nat) (x : Generator) (fr : FieldRef) : (s.putGenerator g x).rd fr = s.rd fr := rfl

/-! ### Register operations -/

/-- A field reads back what was written to it, cut to its width. -/
@[simp] theorem State.rd_wr_self (s : State) (f : FieldRef) (v : Nat) : (s.wr f v).rd f = v % 2 ^ f.width := by
  simp [State.rd, State.wr]

/-- A write leaves every field of another key as it was. -/
theorem State.rd_wr_other (s : State) {f g : FieldRef} (v : Nat) (h : g.key ≠ f.key) : (s.wr f v).rd g = s.rd g :=
  RegFile.get_put_other s.regs v h

/-- What depends on the registers alone does not change while they do not. -/
theorem State.rd_congr {s t : State} (h : t.regs = s.regs) (f : FieldRef) : t.rd f = s.rd f := by
  simp [State.rd, h]

@[simp] theorem State.bump_pending (s : State) (f : FieldRef) (n : Nat) : (s.bump f n).pending = s.pending := rfl
@[simp] theorem State.bump_now (s : State) (f : FieldRef) (n : Nat) : (s.bump f n).now = s.now := rfl
@[simp] theorem State.bump_fresh (s : State) (f : FieldRef) (n : Nat) : (s.bump f n).fresh = s.fresh := rfl
@[simp] theorem State.bump_variant (s : State) (f : FieldRef) (n : Nat) : (s.bump f n).variant = s.variant := rfl
@[simp] theorem State.bump_ready (s : State) (f : FieldRef) (n : Nat) : (s.bump f n).ready = s.ready := rfl
@[simp] theorem State.bump_isolated (s : State) (f : FieldRef) (n : Nat) : (s.bump f n).isolated = s.isolated := rfl
@[simp] theorem State.bump_flt (s : State) (f : FieldRef) (n : Nat) : (s.bump f n).flt = s.flt := rfl
@[simp] theorem State.bump_pwr (s : State) (f : FieldRef) (n : Nat) : (s.bump f n).pwr = s.pwr := rfl
@[simp] theorem State.bump_boot (s : State) (f : FieldRef) (n : Nat) : (s.bump f n).boot = s.boot := rfl
@[simp] theorem State.bump_cyx (s : State) (f : FieldRef) (n : Nat) : (s.bump f n).cyx = s.cyx := rfl
@[simp] theorem State.bump_fab (s : State) (f : FieldRef) (n : Nat) : (s.bump f n).fab = s.fab := rfl
@[simp] theorem State.bump_eph (s : State) (f : FieldRef) (n : Nat) : (s.bump f n).eph = s.eph := rfl
@[simp] theorem State.bump_lan (s : State) (f : FieldRef) (n : Nat) : (s.bump f n).lan = s.lan := rfl
@[simp] theorem State.bump_net (s : State) (f : FieldRef) (n : Nat) : (s.bump f n).net = s.net := rfl
@[simp] theorem State.bump_aud (s : State) (f : FieldRef) (n : Nat) : (s.bump f n).aud = s.aud := rfl
@[simp] theorem State.bump_mvw (s : State) (f : FieldRef) (n : Nat) : (s.bump f n).mvw = s.mvw := rfl
@[simp] theorem State.bump_enc (s : State) (f : FieldRef) (n : Nat) : (s.bump f n).enc = s.enc := rfl
@[simp] theorem State.bump_cru (s : State) (f : FieldRef) (n : Nat) : (s.bump f n).cru = s.cru := rfl
@[simp] theorem State.bump_tim (s : State) (f : FieldRef) (n : Nat) : (s.bump f n).tim = s.tim := rfl
@[simp] theorem State.bump_ref (s : State) (f : FieldRef) (n : Nat) : (s.bump f n).ref = s.ref := rfl
@[simp] theorem State.bump_mem (s : State) (f : FieldRef) (n : Nat) : (s.bump f n).mem = s.mem := rfl
@[simp] theorem State.bump_vlt (s : State) (f : FieldRef) (n : Nat) : (s.bump f n).vlt = s.vlt := rfl
@[simp] theorem State.bump_twn (s : State) (f : FieldRef) (n : Nat) : (s.bump f n).twn = s.twn := rfl
@[simp] theorem State.bump_sent (s : State) (f : FieldRef) (n : Nat) : (s.bump f n).sent = s.sent := rfl

@[simp] theorem State.bumpSat_pending (s : State) (f : FieldRef) (n : Nat) : (s.bumpSat f n).pending = s.pending := rfl
@[simp] theorem State.bumpSat_now (s : State) (f : FieldRef) (n : Nat) : (s.bumpSat f n).now = s.now := rfl
@[simp] theorem State.bumpSat_fresh (s : State) (f : FieldRef) (n : Nat) : (s.bumpSat f n).fresh = s.fresh := rfl
@[simp] theorem State.bumpSat_variant (s : State) (f : FieldRef) (n : Nat) : (s.bumpSat f n).variant = s.variant := rfl
@[simp] theorem State.bumpSat_ready (s : State) (f : FieldRef) (n : Nat) : (s.bumpSat f n).ready = s.ready := rfl
@[simp] theorem State.bumpSat_isolated (s : State) (f : FieldRef) (n : Nat) : (s.bumpSat f n).isolated = s.isolated := rfl
@[simp] theorem State.bumpSat_flt (s : State) (f : FieldRef) (n : Nat) : (s.bumpSat f n).flt = s.flt := rfl
@[simp] theorem State.bumpSat_pwr (s : State) (f : FieldRef) (n : Nat) : (s.bumpSat f n).pwr = s.pwr := rfl
@[simp] theorem State.bumpSat_boot (s : State) (f : FieldRef) (n : Nat) : (s.bumpSat f n).boot = s.boot := rfl
@[simp] theorem State.bumpSat_cyx (s : State) (f : FieldRef) (n : Nat) : (s.bumpSat f n).cyx = s.cyx := rfl
@[simp] theorem State.bumpSat_fab (s : State) (f : FieldRef) (n : Nat) : (s.bumpSat f n).fab = s.fab := rfl
@[simp] theorem State.bumpSat_eph (s : State) (f : FieldRef) (n : Nat) : (s.bumpSat f n).eph = s.eph := rfl
@[simp] theorem State.bumpSat_lan (s : State) (f : FieldRef) (n : Nat) : (s.bumpSat f n).lan = s.lan := rfl
@[simp] theorem State.bumpSat_net (s : State) (f : FieldRef) (n : Nat) : (s.bumpSat f n).net = s.net := rfl
@[simp] theorem State.bumpSat_aud (s : State) (f : FieldRef) (n : Nat) : (s.bumpSat f n).aud = s.aud := rfl
@[simp] theorem State.bumpSat_mvw (s : State) (f : FieldRef) (n : Nat) : (s.bumpSat f n).mvw = s.mvw := rfl
@[simp] theorem State.bumpSat_enc (s : State) (f : FieldRef) (n : Nat) : (s.bumpSat f n).enc = s.enc := rfl
@[simp] theorem State.bumpSat_cru (s : State) (f : FieldRef) (n : Nat) : (s.bumpSat f n).cru = s.cru := rfl
@[simp] theorem State.bumpSat_tim (s : State) (f : FieldRef) (n : Nat) : (s.bumpSat f n).tim = s.tim := rfl
@[simp] theorem State.bumpSat_ref (s : State) (f : FieldRef) (n : Nat) : (s.bumpSat f n).ref = s.ref := rfl
@[simp] theorem State.bumpSat_mem (s : State) (f : FieldRef) (n : Nat) : (s.bumpSat f n).mem = s.mem := rfl
@[simp] theorem State.bumpSat_vlt (s : State) (f : FieldRef) (n : Nat) : (s.bumpSat f n).vlt = s.vlt := rfl
@[simp] theorem State.bumpSat_twn (s : State) (f : FieldRef) (n : Nat) : (s.bumpSat f n).twn = s.twn := rfl
@[simp] theorem State.bumpSat_sent (s : State) (f : FieldRef) (n : Nat) : (s.bumpSat f n).sent = s.sent := rfl

@[simp] theorem State.wrInt_pending (s : State) (f : FieldRef) (v : Int) : (s.wrInt f v).pending = s.pending := rfl
@[simp] theorem State.wrInt_now (s : State) (f : FieldRef) (v : Int) : (s.wrInt f v).now = s.now := rfl
@[simp] theorem State.wrInt_fresh (s : State) (f : FieldRef) (v : Int) : (s.wrInt f v).fresh = s.fresh := rfl
@[simp] theorem State.wrInt_variant (s : State) (f : FieldRef) (v : Int) : (s.wrInt f v).variant = s.variant := rfl
@[simp] theorem State.wrInt_ready (s : State) (f : FieldRef) (v : Int) : (s.wrInt f v).ready = s.ready := rfl
@[simp] theorem State.wrInt_isolated (s : State) (f : FieldRef) (v : Int) : (s.wrInt f v).isolated = s.isolated := rfl
@[simp] theorem State.wrInt_flt (s : State) (f : FieldRef) (v : Int) : (s.wrInt f v).flt = s.flt := rfl
@[simp] theorem State.wrInt_pwr (s : State) (f : FieldRef) (v : Int) : (s.wrInt f v).pwr = s.pwr := rfl
@[simp] theorem State.wrInt_boot (s : State) (f : FieldRef) (v : Int) : (s.wrInt f v).boot = s.boot := rfl
@[simp] theorem State.wrInt_cyx (s : State) (f : FieldRef) (v : Int) : (s.wrInt f v).cyx = s.cyx := rfl
@[simp] theorem State.wrInt_fab (s : State) (f : FieldRef) (v : Int) : (s.wrInt f v).fab = s.fab := rfl
@[simp] theorem State.wrInt_eph (s : State) (f : FieldRef) (v : Int) : (s.wrInt f v).eph = s.eph := rfl
@[simp] theorem State.wrInt_lan (s : State) (f : FieldRef) (v : Int) : (s.wrInt f v).lan = s.lan := rfl
@[simp] theorem State.wrInt_net (s : State) (f : FieldRef) (v : Int) : (s.wrInt f v).net = s.net := rfl
@[simp] theorem State.wrInt_aud (s : State) (f : FieldRef) (v : Int) : (s.wrInt f v).aud = s.aud := rfl
@[simp] theorem State.wrInt_mvw (s : State) (f : FieldRef) (v : Int) : (s.wrInt f v).mvw = s.mvw := rfl
@[simp] theorem State.wrInt_enc (s : State) (f : FieldRef) (v : Int) : (s.wrInt f v).enc = s.enc := rfl
@[simp] theorem State.wrInt_cru (s : State) (f : FieldRef) (v : Int) : (s.wrInt f v).cru = s.cru := rfl
@[simp] theorem State.wrInt_tim (s : State) (f : FieldRef) (v : Int) : (s.wrInt f v).tim = s.tim := rfl
@[simp] theorem State.wrInt_ref (s : State) (f : FieldRef) (v : Int) : (s.wrInt f v).ref = s.ref := rfl
@[simp] theorem State.wrInt_mem (s : State) (f : FieldRef) (v : Int) : (s.wrInt f v).mem = s.mem := rfl
@[simp] theorem State.wrInt_vlt (s : State) (f : FieldRef) (v : Int) : (s.wrInt f v).vlt = s.vlt := rfl
@[simp] theorem State.wrInt_twn (s : State) (f : FieldRef) (v : Int) : (s.wrInt f v).twn = s.twn := rfl
@[simp] theorem State.wrInt_sent (s : State) (f : FieldRef) (v : Int) : (s.wrInt f v).sent = s.sent := rfl

@[simp] theorem State.wr64_pending (s : State) (lo hi : FieldRef) (v : Nat) : (s.wr64 lo hi v).pending = s.pending := rfl
@[simp] theorem State.wr64_now (s : State) (lo hi : FieldRef) (v : Nat) : (s.wr64 lo hi v).now = s.now := rfl
@[simp] theorem State.wr64_fresh (s : State) (lo hi : FieldRef) (v : Nat) : (s.wr64 lo hi v).fresh = s.fresh := rfl
@[simp] theorem State.wr64_variant (s : State) (lo hi : FieldRef) (v : Nat) : (s.wr64 lo hi v).variant = s.variant := rfl
@[simp] theorem State.wr64_ready (s : State) (lo hi : FieldRef) (v : Nat) : (s.wr64 lo hi v).ready = s.ready := rfl
@[simp] theorem State.wr64_isolated (s : State) (lo hi : FieldRef) (v : Nat) : (s.wr64 lo hi v).isolated = s.isolated := rfl
@[simp] theorem State.wr64_flt (s : State) (lo hi : FieldRef) (v : Nat) : (s.wr64 lo hi v).flt = s.flt := rfl
@[simp] theorem State.wr64_pwr (s : State) (lo hi : FieldRef) (v : Nat) : (s.wr64 lo hi v).pwr = s.pwr := rfl
@[simp] theorem State.wr64_boot (s : State) (lo hi : FieldRef) (v : Nat) : (s.wr64 lo hi v).boot = s.boot := rfl
@[simp] theorem State.wr64_cyx (s : State) (lo hi : FieldRef) (v : Nat) : (s.wr64 lo hi v).cyx = s.cyx := rfl
@[simp] theorem State.wr64_fab (s : State) (lo hi : FieldRef) (v : Nat) : (s.wr64 lo hi v).fab = s.fab := rfl
@[simp] theorem State.wr64_eph (s : State) (lo hi : FieldRef) (v : Nat) : (s.wr64 lo hi v).eph = s.eph := rfl
@[simp] theorem State.wr64_lan (s : State) (lo hi : FieldRef) (v : Nat) : (s.wr64 lo hi v).lan = s.lan := rfl
@[simp] theorem State.wr64_net (s : State) (lo hi : FieldRef) (v : Nat) : (s.wr64 lo hi v).net = s.net := rfl
@[simp] theorem State.wr64_aud (s : State) (lo hi : FieldRef) (v : Nat) : (s.wr64 lo hi v).aud = s.aud := rfl
@[simp] theorem State.wr64_mvw (s : State) (lo hi : FieldRef) (v : Nat) : (s.wr64 lo hi v).mvw = s.mvw := rfl
@[simp] theorem State.wr64_enc (s : State) (lo hi : FieldRef) (v : Nat) : (s.wr64 lo hi v).enc = s.enc := rfl
@[simp] theorem State.wr64_cru (s : State) (lo hi : FieldRef) (v : Nat) : (s.wr64 lo hi v).cru = s.cru := rfl
@[simp] theorem State.wr64_tim (s : State) (lo hi : FieldRef) (v : Nat) : (s.wr64 lo hi v).tim = s.tim := rfl
@[simp] theorem State.wr64_ref (s : State) (lo hi : FieldRef) (v : Nat) : (s.wr64 lo hi v).ref = s.ref := rfl
@[simp] theorem State.wr64_mem (s : State) (lo hi : FieldRef) (v : Nat) : (s.wr64 lo hi v).mem = s.mem := rfl
@[simp] theorem State.wr64_vlt (s : State) (lo hi : FieldRef) (v : Nat) : (s.wr64 lo hi v).vlt = s.vlt := rfl
@[simp] theorem State.wr64_twn (s : State) (lo hi : FieldRef) (v : Nat) : (s.wr64 lo hi v).twn = s.twn := rfl
@[simp] theorem State.wr64_sent (s : State) (lo hi : FieldRef) (v : Nat) : (s.wr64 lo hi v).sent = s.sent := rfl

@[simp] theorem State.setBit_pending (s : State) (f : FieldRef) (b : Nat) : (s.setBit f b).pending = s.pending := by
  unfold State.setBit; split <;> rfl
@[simp] theorem State.setBit_now (s : State) (f : FieldRef) (b : Nat) : (s.setBit f b).now = s.now := by
  unfold State.setBit; split <;> rfl
@[simp] theorem State.setBit_fresh (s : State) (f : FieldRef) (b : Nat) : (s.setBit f b).fresh = s.fresh := by
  unfold State.setBit; split <;> rfl
@[simp] theorem State.setBit_variant (s : State) (f : FieldRef) (b : Nat) : (s.setBit f b).variant = s.variant := by
  unfold State.setBit; split <;> rfl
@[simp] theorem State.setBit_ready (s : State) (f : FieldRef) (b : Nat) : (s.setBit f b).ready = s.ready := by
  unfold State.setBit; split <;> rfl
@[simp] theorem State.setBit_isolated (s : State) (f : FieldRef) (b : Nat) : (s.setBit f b).isolated = s.isolated := by
  unfold State.setBit; split <;> rfl
@[simp] theorem State.setBit_flt (s : State) (f : FieldRef) (b : Nat) : (s.setBit f b).flt = s.flt := by
  unfold State.setBit; split <;> rfl
@[simp] theorem State.setBit_pwr (s : State) (f : FieldRef) (b : Nat) : (s.setBit f b).pwr = s.pwr := by
  unfold State.setBit; split <;> rfl
@[simp] theorem State.setBit_boot (s : State) (f : FieldRef) (b : Nat) : (s.setBit f b).boot = s.boot := by
  unfold State.setBit; split <;> rfl
@[simp] theorem State.setBit_cyx (s : State) (f : FieldRef) (b : Nat) : (s.setBit f b).cyx = s.cyx := by
  unfold State.setBit; split <;> rfl
@[simp] theorem State.setBit_fab (s : State) (f : FieldRef) (b : Nat) : (s.setBit f b).fab = s.fab := by
  unfold State.setBit; split <;> rfl
@[simp] theorem State.setBit_eph (s : State) (f : FieldRef) (b : Nat) : (s.setBit f b).eph = s.eph := by
  unfold State.setBit; split <;> rfl
@[simp] theorem State.setBit_lan (s : State) (f : FieldRef) (b : Nat) : (s.setBit f b).lan = s.lan := by
  unfold State.setBit; split <;> rfl
@[simp] theorem State.setBit_net (s : State) (f : FieldRef) (b : Nat) : (s.setBit f b).net = s.net := by
  unfold State.setBit; split <;> rfl
@[simp] theorem State.setBit_aud (s : State) (f : FieldRef) (b : Nat) : (s.setBit f b).aud = s.aud := by
  unfold State.setBit; split <;> rfl
@[simp] theorem State.setBit_mvw (s : State) (f : FieldRef) (b : Nat) : (s.setBit f b).mvw = s.mvw := by
  unfold State.setBit; split <;> rfl
@[simp] theorem State.setBit_enc (s : State) (f : FieldRef) (b : Nat) : (s.setBit f b).enc = s.enc := by
  unfold State.setBit; split <;> rfl
@[simp] theorem State.setBit_cru (s : State) (f : FieldRef) (b : Nat) : (s.setBit f b).cru = s.cru := by
  unfold State.setBit; split <;> rfl
@[simp] theorem State.setBit_tim (s : State) (f : FieldRef) (b : Nat) : (s.setBit f b).tim = s.tim := by
  unfold State.setBit; split <;> rfl
@[simp] theorem State.setBit_ref (s : State) (f : FieldRef) (b : Nat) : (s.setBit f b).ref = s.ref := by
  unfold State.setBit; split <;> rfl
@[simp] theorem State.setBit_mem (s : State) (f : FieldRef) (b : Nat) : (s.setBit f b).mem = s.mem := by
  unfold State.setBit; split <;> rfl
@[simp] theorem State.setBit_vlt (s : State) (f : FieldRef) (b : Nat) : (s.setBit f b).vlt = s.vlt := by
  unfold State.setBit; split <;> rfl
@[simp] theorem State.setBit_twn (s : State) (f : FieldRef) (b : Nat) : (s.setBit f b).twn = s.twn := by
  unfold State.setBit; split <;> rfl
@[simp] theorem State.setBit_sent (s : State) (f : FieldRef) (b : Nat) : (s.setBit f b).sent = s.sent := by
  unfold State.setBit; split <;> rfl

@[simp] theorem State.clrBit_pending (s : State) (f : FieldRef) (b : Nat) : (s.clrBit f b).pending = s.pending := by
  unfold State.clrBit; split <;> rfl
@[simp] theorem State.clrBit_now (s : State) (f : FieldRef) (b : Nat) : (s.clrBit f b).now = s.now := by
  unfold State.clrBit; split <;> rfl
@[simp] theorem State.clrBit_fresh (s : State) (f : FieldRef) (b : Nat) : (s.clrBit f b).fresh = s.fresh := by
  unfold State.clrBit; split <;> rfl
@[simp] theorem State.clrBit_variant (s : State) (f : FieldRef) (b : Nat) : (s.clrBit f b).variant = s.variant := by
  unfold State.clrBit; split <;> rfl
@[simp] theorem State.clrBit_ready (s : State) (f : FieldRef) (b : Nat) : (s.clrBit f b).ready = s.ready := by
  unfold State.clrBit; split <;> rfl
@[simp] theorem State.clrBit_isolated (s : State) (f : FieldRef) (b : Nat) : (s.clrBit f b).isolated = s.isolated := by
  unfold State.clrBit; split <;> rfl
@[simp] theorem State.clrBit_flt (s : State) (f : FieldRef) (b : Nat) : (s.clrBit f b).flt = s.flt := by
  unfold State.clrBit; split <;> rfl
@[simp] theorem State.clrBit_pwr (s : State) (f : FieldRef) (b : Nat) : (s.clrBit f b).pwr = s.pwr := by
  unfold State.clrBit; split <;> rfl
@[simp] theorem State.clrBit_boot (s : State) (f : FieldRef) (b : Nat) : (s.clrBit f b).boot = s.boot := by
  unfold State.clrBit; split <;> rfl
@[simp] theorem State.clrBit_cyx (s : State) (f : FieldRef) (b : Nat) : (s.clrBit f b).cyx = s.cyx := by
  unfold State.clrBit; split <;> rfl
@[simp] theorem State.clrBit_fab (s : State) (f : FieldRef) (b : Nat) : (s.clrBit f b).fab = s.fab := by
  unfold State.clrBit; split <;> rfl
@[simp] theorem State.clrBit_eph (s : State) (f : FieldRef) (b : Nat) : (s.clrBit f b).eph = s.eph := by
  unfold State.clrBit; split <;> rfl
@[simp] theorem State.clrBit_lan (s : State) (f : FieldRef) (b : Nat) : (s.clrBit f b).lan = s.lan := by
  unfold State.clrBit; split <;> rfl
@[simp] theorem State.clrBit_net (s : State) (f : FieldRef) (b : Nat) : (s.clrBit f b).net = s.net := by
  unfold State.clrBit; split <;> rfl
@[simp] theorem State.clrBit_aud (s : State) (f : FieldRef) (b : Nat) : (s.clrBit f b).aud = s.aud := by
  unfold State.clrBit; split <;> rfl
@[simp] theorem State.clrBit_mvw (s : State) (f : FieldRef) (b : Nat) : (s.clrBit f b).mvw = s.mvw := by
  unfold State.clrBit; split <;> rfl
@[simp] theorem State.clrBit_enc (s : State) (f : FieldRef) (b : Nat) : (s.clrBit f b).enc = s.enc := by
  unfold State.clrBit; split <;> rfl
@[simp] theorem State.clrBit_cru (s : State) (f : FieldRef) (b : Nat) : (s.clrBit f b).cru = s.cru := by
  unfold State.clrBit; split <;> rfl
@[simp] theorem State.clrBit_tim (s : State) (f : FieldRef) (b : Nat) : (s.clrBit f b).tim = s.tim := by
  unfold State.clrBit; split <;> rfl
@[simp] theorem State.clrBit_ref (s : State) (f : FieldRef) (b : Nat) : (s.clrBit f b).ref = s.ref := by
  unfold State.clrBit; split <;> rfl
@[simp] theorem State.clrBit_mem (s : State) (f : FieldRef) (b : Nat) : (s.clrBit f b).mem = s.mem := by
  unfold State.clrBit; split <;> rfl
@[simp] theorem State.clrBit_vlt (s : State) (f : FieldRef) (b : Nat) : (s.clrBit f b).vlt = s.vlt := by
  unfold State.clrBit; split <;> rfl
@[simp] theorem State.clrBit_twn (s : State) (f : FieldRef) (b : Nat) : (s.clrBit f b).twn = s.twn := by
  unfold State.clrBit; split <;> rfl
@[simp] theorem State.clrBit_sent (s : State) (f : FieldRef) (b : Nat) : (s.clrBit f b).sent = s.sent := by
  unfold State.clrBit; split <;> rfl

/-! ### Time -/

@[simp] theorem State.elapse_pending (s : State) (dt : Nat) : (s.elapse dt).pending = s.pending := by
  unfold State.elapse; split; · rfl
  split <;> rfl
@[simp] theorem State.elapse_fresh (s : State) (dt : Nat) : (s.elapse dt).fresh = s.fresh := by
  unfold State.elapse; split; · rfl
  split <;> rfl
@[simp] theorem State.elapse_variant (s : State) (dt : Nat) : (s.elapse dt).variant = s.variant := by
  unfold State.elapse; split; · rfl
  split <;> rfl
@[simp] theorem State.elapse_regs (s : State) (dt : Nat) : (s.elapse dt).regs = s.regs := by
  unfold State.elapse; split; · rfl
  split <;> rfl
@[simp] theorem State.elapse_ready (s : State) (dt : Nat) : (s.elapse dt).ready = s.ready := by
  unfold State.elapse; split; · rfl
  split <;> rfl
@[simp] theorem State.elapse_isolated (s : State) (dt : Nat) : (s.elapse dt).isolated = s.isolated := by
  unfold State.elapse; split; · rfl
  split <;> rfl
@[simp] theorem State.elapse_flt (s : State) (dt : Nat) : (s.elapse dt).flt = s.flt := by
  unfold State.elapse; split; · rfl
  split <;> rfl
@[simp] theorem State.elapse_pwr (s : State) (dt : Nat) : (s.elapse dt).pwr = s.pwr := by
  unfold State.elapse; split; · rfl
  split <;> rfl
@[simp] theorem State.elapse_boot (s : State) (dt : Nat) : (s.elapse dt).boot = s.boot := by
  unfold State.elapse; split; · rfl
  split <;> rfl
@[simp] theorem State.elapse_cyx (s : State) (dt : Nat) : (s.elapse dt).cyx = s.cyx := by
  unfold State.elapse; split; · rfl
  split <;> rfl
@[simp] theorem State.elapse_fab (s : State) (dt : Nat) : (s.elapse dt).fab = s.fab := by
  unfold State.elapse; split; · rfl
  split <;> rfl
@[simp] theorem State.elapse_eph (s : State) (dt : Nat) : (s.elapse dt).eph = s.eph := by
  unfold State.elapse; split; · rfl
  split <;> rfl
@[simp] theorem State.elapse_lan (s : State) (dt : Nat) : (s.elapse dt).lan = s.lan := by
  unfold State.elapse; split; · rfl
  split <;> rfl
@[simp] theorem State.elapse_net (s : State) (dt : Nat) : (s.elapse dt).net = s.net := by
  unfold State.elapse; split; · rfl
  split <;> rfl
@[simp] theorem State.elapse_aud (s : State) (dt : Nat) : (s.elapse dt).aud = s.aud := by
  unfold State.elapse; split; · rfl
  split <;> rfl
@[simp] theorem State.elapse_mvw (s : State) (dt : Nat) : (s.elapse dt).mvw = s.mvw := by
  unfold State.elapse; split; · rfl
  split <;> rfl
@[simp] theorem State.elapse_enc (s : State) (dt : Nat) : (s.elapse dt).enc = s.enc := by
  unfold State.elapse; split; · rfl
  split <;> rfl
@[simp] theorem State.elapse_cru (s : State) (dt : Nat) : (s.elapse dt).cru = s.cru := by
  unfold State.elapse; split; · rfl
  split <;> rfl
@[simp] theorem State.elapse_ref (s : State) (dt : Nat) : (s.elapse dt).ref = s.ref := by
  unfold State.elapse; split; · rfl
  split <;> rfl
@[simp] theorem State.elapse_mem (s : State) (dt : Nat) : (s.elapse dt).mem = s.mem := by
  unfold State.elapse; split; · rfl
  split <;> rfl
@[simp] theorem State.elapse_vlt (s : State) (dt : Nat) : (s.elapse dt).vlt = s.vlt := by
  unfold State.elapse; split; · rfl
  split <;> rfl
@[simp] theorem State.elapse_twn (s : State) (dt : Nat) : (s.elapse dt).twn = s.twn := by
  unfold State.elapse; split; · rfl
  split <;> rfl
@[simp] theorem State.elapse_sent (s : State) (dt : Nat) : (s.elapse dt).sent = s.sent := by
  unfold State.elapse; split; · rfl
  split <;> rfl
@[simp] theorem State.elapse_now (s : State) (dt : Nat) : (s.elapse dt).now = s.now + dt := by
  unfold State.elapse; split; · rfl
  split <;> rfl
@[simp] theorem State.elapse_rd (s : State) (dt : Nat) (f : FieldRef) : (s.elapse dt).rd f = s.rd f := State.rd_congr (State.elapse_regs s dt) f

@[simp] theorem State.arrive_pending (s : State) (dt : Nat) : (s.arrive dt).pending = s.pending := State.elapse_pending s dt
@[simp] theorem State.arrive_fresh (s : State) (dt : Nat) : (s.arrive dt).fresh = s.fresh := State.elapse_fresh s dt
@[simp] theorem State.arrive_variant (s : State) (dt : Nat) : (s.arrive dt).variant = s.variant := State.elapse_variant s dt
@[simp] theorem State.arrive_regs (s : State) (dt : Nat) : (s.arrive dt).regs = s.regs := State.elapse_regs s dt
@[simp] theorem State.arrive_ready (s : State) (dt : Nat) : (s.arrive dt).ready = s.ready := State.elapse_ready s dt
@[simp] theorem State.arrive_isolated (s : State) (dt : Nat) : (s.arrive dt).isolated = s.isolated := State.elapse_isolated s dt
@[simp] theorem State.arrive_flt (s : State) (dt : Nat) : (s.arrive dt).flt = s.flt := State.elapse_flt s dt
@[simp] theorem State.arrive_boot (s : State) (dt : Nat) : (s.arrive dt).boot = s.boot := State.elapse_boot s dt
@[simp] theorem State.arrive_cyx (s : State) (dt : Nat) : (s.arrive dt).cyx = s.cyx := State.elapse_cyx s dt
@[simp] theorem State.arrive_fab (s : State) (dt : Nat) : (s.arrive dt).fab = s.fab := State.elapse_fab s dt
@[simp] theorem State.arrive_eph (s : State) (dt : Nat) : (s.arrive dt).eph = s.eph := State.elapse_eph s dt
@[simp] theorem State.arrive_lan (s : State) (dt : Nat) : (s.arrive dt).lan = s.lan := State.elapse_lan s dt
@[simp] theorem State.arrive_net (s : State) (dt : Nat) : (s.arrive dt).net = s.net := State.elapse_net s dt
@[simp] theorem State.arrive_aud (s : State) (dt : Nat) : (s.arrive dt).aud = s.aud := State.elapse_aud s dt
@[simp] theorem State.arrive_mvw (s : State) (dt : Nat) : (s.arrive dt).mvw = s.mvw := State.elapse_mvw s dt
@[simp] theorem State.arrive_enc (s : State) (dt : Nat) : (s.arrive dt).enc = s.enc := State.elapse_enc s dt
@[simp] theorem State.arrive_cru (s : State) (dt : Nat) : (s.arrive dt).cru = s.cru := State.elapse_cru s dt
@[simp] theorem State.arrive_ref (s : State) (dt : Nat) : (s.arrive dt).ref = s.ref := State.elapse_ref s dt
@[simp] theorem State.arrive_mem (s : State) (dt : Nat) : (s.arrive dt).mem = s.mem := State.elapse_mem s dt
@[simp] theorem State.arrive_vlt (s : State) (dt : Nat) : (s.arrive dt).vlt = s.vlt := State.elapse_vlt s dt
@[simp] theorem State.arrive_twn (s : State) (dt : Nat) : (s.arrive dt).twn = s.twn := State.elapse_twn s dt
@[simp] theorem State.arrive_sent (s : State) (dt : Nat) : (s.arrive dt).sent = s.sent := State.elapse_sent s dt
@[simp] theorem State.arrive_now (s : State) (dt : Nat) : (s.arrive dt).now = s.now + dt := State.elapse_now s dt
@[simp] theorem State.arrive_rd (s : State) (dt : Nat) (f : FieldRef) : (s.arrive dt).rd f = s.rd f := State.rd_congr (State.arrive_regs s dt) f

/-! ### Raising an event: only the collector and the alarm bits of the registers change -/

/-- What every round of a fold leaves alone, the fold leaves alone. -/
theorem foldl_keeps {α β : Type} (get : State → β) (f : State → α → State) (hf : ∀ t a, get (f t a) = get t) (l : List α) (s : State) :
    get (l.foldl f s) = get s := by
  induction l generalizing s with
  | nil => rfl
  | cons a l ih => exact (ih (f s a)).trans (hf s a)

@[simp] theorem State.raiseWithin_pending (s : State) (gap code src obj : Nat) : (s.raiseWithin gap code src obj).pending = s.pending := by
  have h : (if eventPersists code then s.noteCause code src obj else s).pending = s.pending := by split <;> rfl
  unfold State.raiseWithin
  extract_lets s1 s2
  split
  · exact (foldl_keeps State.pending _ (fun t (p : FieldRef × Nat) => State.setBit_pending t p.1 p.2) _ s1).trans h
  · exact h
@[simp] theorem State.raise_pending (s : State) (code src obj : Nat) : (s.raise code src obj).pending = s.pending := State.raiseWithin_pending s _ _ _ _
@[simp] theorem State.raiseAll_pending (s : State) (code src : Nat) (objs : List Nat) : (s.raiseAll code src objs).pending = s.pending :=
  foldl_keeps State.pending _ (fun t o => State.raise_pending t code src o) objs s
@[simp] theorem State.raiseWithin_now (s : State) (gap code src obj : Nat) : (s.raiseWithin gap code src obj).now = s.now := by
  have h : (if eventPersists code then s.noteCause code src obj else s).now = s.now := by split <;> rfl
  unfold State.raiseWithin
  extract_lets s1 s2
  split
  · exact (foldl_keeps State.now _ (fun t (p : FieldRef × Nat) => State.setBit_now t p.1 p.2) _ s1).trans h
  · exact h
@[simp] theorem State.raise_now (s : State) (code src obj : Nat) : (s.raise code src obj).now = s.now := State.raiseWithin_now s _ _ _ _
@[simp] theorem State.raiseAll_now (s : State) (code src : Nat) (objs : List Nat) : (s.raiseAll code src objs).now = s.now :=
  foldl_keeps State.now _ (fun t o => State.raise_now t code src o) objs s
@[simp] theorem State.raiseWithin_fresh (s : State) (gap code src obj : Nat) : (s.raiseWithin gap code src obj).fresh = s.fresh := by
  have h : (if eventPersists code then s.noteCause code src obj else s).fresh = s.fresh := by split <;> rfl
  unfold State.raiseWithin
  extract_lets s1 s2
  split
  · exact (foldl_keeps State.fresh _ (fun t (p : FieldRef × Nat) => State.setBit_fresh t p.1 p.2) _ s1).trans h
  · exact h
@[simp] theorem State.raise_fresh (s : State) (code src obj : Nat) : (s.raise code src obj).fresh = s.fresh := State.raiseWithin_fresh s _ _ _ _
@[simp] theorem State.raiseAll_fresh (s : State) (code src : Nat) (objs : List Nat) : (s.raiseAll code src objs).fresh = s.fresh :=
  foldl_keeps State.fresh _ (fun t o => State.raise_fresh t code src o) objs s
@[simp] theorem State.raiseWithin_variant (s : State) (gap code src obj : Nat) : (s.raiseWithin gap code src obj).variant = s.variant := by
  have h : (if eventPersists code then s.noteCause code src obj else s).variant = s.variant := by split <;> rfl
  unfold State.raiseWithin
  extract_lets s1 s2
  split
  · exact (foldl_keeps State.variant _ (fun t (p : FieldRef × Nat) => State.setBit_variant t p.1 p.2) _ s1).trans h
  · exact h
@[simp] theorem State.raise_variant (s : State) (code src obj : Nat) : (s.raise code src obj).variant = s.variant := State.raiseWithin_variant s _ _ _ _
@[simp] theorem State.raiseAll_variant (s : State) (code src : Nat) (objs : List Nat) : (s.raiseAll code src objs).variant = s.variant :=
  foldl_keeps State.variant _ (fun t o => State.raise_variant t code src o) objs s
@[simp] theorem State.raiseWithin_ready (s : State) (gap code src obj : Nat) : (s.raiseWithin gap code src obj).ready = s.ready := by
  have h : (if eventPersists code then s.noteCause code src obj else s).ready = s.ready := by split <;> rfl
  unfold State.raiseWithin
  extract_lets s1 s2
  split
  · exact (foldl_keeps State.ready _ (fun t (p : FieldRef × Nat) => State.setBit_ready t p.1 p.2) _ s1).trans h
  · exact h
@[simp] theorem State.raise_ready (s : State) (code src obj : Nat) : (s.raise code src obj).ready = s.ready := State.raiseWithin_ready s _ _ _ _
@[simp] theorem State.raiseAll_ready (s : State) (code src : Nat) (objs : List Nat) : (s.raiseAll code src objs).ready = s.ready :=
  foldl_keeps State.ready _ (fun t o => State.raise_ready t code src o) objs s
@[simp] theorem State.raiseWithin_isolated (s : State) (gap code src obj : Nat) : (s.raiseWithin gap code src obj).isolated = s.isolated := by
  have h : (if eventPersists code then s.noteCause code src obj else s).isolated = s.isolated := by split <;> rfl
  unfold State.raiseWithin
  extract_lets s1 s2
  split
  · exact (foldl_keeps State.isolated _ (fun t (p : FieldRef × Nat) => State.setBit_isolated t p.1 p.2) _ s1).trans h
  · exact h
@[simp] theorem State.raise_isolated (s : State) (code src obj : Nat) : (s.raise code src obj).isolated = s.isolated := State.raiseWithin_isolated s _ _ _ _
@[simp] theorem State.raiseAll_isolated (s : State) (code src : Nat) (objs : List Nat) : (s.raiseAll code src objs).isolated = s.isolated :=
  foldl_keeps State.isolated _ (fun t o => State.raise_isolated t code src o) objs s
@[simp] theorem State.raiseWithin_pwr (s : State) (gap code src obj : Nat) : (s.raiseWithin gap code src obj).pwr = s.pwr := by
  have h : (if eventPersists code then s.noteCause code src obj else s).pwr = s.pwr := by split <;> rfl
  unfold State.raiseWithin
  extract_lets s1 s2
  split
  · exact (foldl_keeps State.pwr _ (fun t (p : FieldRef × Nat) => State.setBit_pwr t p.1 p.2) _ s1).trans h
  · exact h
@[simp] theorem State.raise_pwr (s : State) (code src obj : Nat) : (s.raise code src obj).pwr = s.pwr := State.raiseWithin_pwr s _ _ _ _
@[simp] theorem State.raiseAll_pwr (s : State) (code src : Nat) (objs : List Nat) : (s.raiseAll code src objs).pwr = s.pwr :=
  foldl_keeps State.pwr _ (fun t o => State.raise_pwr t code src o) objs s
@[simp] theorem State.raiseWithin_boot (s : State) (gap code src obj : Nat) : (s.raiseWithin gap code src obj).boot = s.boot := by
  have h : (if eventPersists code then s.noteCause code src obj else s).boot = s.boot := by split <;> rfl
  unfold State.raiseWithin
  extract_lets s1 s2
  split
  · exact (foldl_keeps State.boot _ (fun t (p : FieldRef × Nat) => State.setBit_boot t p.1 p.2) _ s1).trans h
  · exact h
@[simp] theorem State.raise_boot (s : State) (code src obj : Nat) : (s.raise code src obj).boot = s.boot := State.raiseWithin_boot s _ _ _ _
@[simp] theorem State.raiseAll_boot (s : State) (code src : Nat) (objs : List Nat) : (s.raiseAll code src objs).boot = s.boot :=
  foldl_keeps State.boot _ (fun t o => State.raise_boot t code src o) objs s
@[simp] theorem State.raiseWithin_cyx (s : State) (gap code src obj : Nat) : (s.raiseWithin gap code src obj).cyx = s.cyx := by
  have h : (if eventPersists code then s.noteCause code src obj else s).cyx = s.cyx := by split <;> rfl
  unfold State.raiseWithin
  extract_lets s1 s2
  split
  · exact (foldl_keeps State.cyx _ (fun t (p : FieldRef × Nat) => State.setBit_cyx t p.1 p.2) _ s1).trans h
  · exact h
@[simp] theorem State.raise_cyx (s : State) (code src obj : Nat) : (s.raise code src obj).cyx = s.cyx := State.raiseWithin_cyx s _ _ _ _
@[simp] theorem State.raiseAll_cyx (s : State) (code src : Nat) (objs : List Nat) : (s.raiseAll code src objs).cyx = s.cyx :=
  foldl_keeps State.cyx _ (fun t o => State.raise_cyx t code src o) objs s
@[simp] theorem State.raiseWithin_fab (s : State) (gap code src obj : Nat) : (s.raiseWithin gap code src obj).fab = s.fab := by
  have h : (if eventPersists code then s.noteCause code src obj else s).fab = s.fab := by split <;> rfl
  unfold State.raiseWithin
  extract_lets s1 s2
  split
  · exact (foldl_keeps State.fab _ (fun t (p : FieldRef × Nat) => State.setBit_fab t p.1 p.2) _ s1).trans h
  · exact h
@[simp] theorem State.raise_fab (s : State) (code src obj : Nat) : (s.raise code src obj).fab = s.fab := State.raiseWithin_fab s _ _ _ _
@[simp] theorem State.raiseAll_fab (s : State) (code src : Nat) (objs : List Nat) : (s.raiseAll code src objs).fab = s.fab :=
  foldl_keeps State.fab _ (fun t o => State.raise_fab t code src o) objs s
@[simp] theorem State.raiseWithin_eph (s : State) (gap code src obj : Nat) : (s.raiseWithin gap code src obj).eph = s.eph := by
  have h : (if eventPersists code then s.noteCause code src obj else s).eph = s.eph := by split <;> rfl
  unfold State.raiseWithin
  extract_lets s1 s2
  split
  · exact (foldl_keeps State.eph _ (fun t (p : FieldRef × Nat) => State.setBit_eph t p.1 p.2) _ s1).trans h
  · exact h
@[simp] theorem State.raise_eph (s : State) (code src obj : Nat) : (s.raise code src obj).eph = s.eph := State.raiseWithin_eph s _ _ _ _
@[simp] theorem State.raiseAll_eph (s : State) (code src : Nat) (objs : List Nat) : (s.raiseAll code src objs).eph = s.eph :=
  foldl_keeps State.eph _ (fun t o => State.raise_eph t code src o) objs s
@[simp] theorem State.raiseWithin_lan (s : State) (gap code src obj : Nat) : (s.raiseWithin gap code src obj).lan = s.lan := by
  have h : (if eventPersists code then s.noteCause code src obj else s).lan = s.lan := by split <;> rfl
  unfold State.raiseWithin
  extract_lets s1 s2
  split
  · exact (foldl_keeps State.lan _ (fun t (p : FieldRef × Nat) => State.setBit_lan t p.1 p.2) _ s1).trans h
  · exact h
@[simp] theorem State.raise_lan (s : State) (code src obj : Nat) : (s.raise code src obj).lan = s.lan := State.raiseWithin_lan s _ _ _ _
@[simp] theorem State.raiseAll_lan (s : State) (code src : Nat) (objs : List Nat) : (s.raiseAll code src objs).lan = s.lan :=
  foldl_keeps State.lan _ (fun t o => State.raise_lan t code src o) objs s
@[simp] theorem State.raiseWithin_net (s : State) (gap code src obj : Nat) : (s.raiseWithin gap code src obj).net = s.net := by
  have h : (if eventPersists code then s.noteCause code src obj else s).net = s.net := by split <;> rfl
  unfold State.raiseWithin
  extract_lets s1 s2
  split
  · exact (foldl_keeps State.net _ (fun t (p : FieldRef × Nat) => State.setBit_net t p.1 p.2) _ s1).trans h
  · exact h
@[simp] theorem State.raise_net (s : State) (code src obj : Nat) : (s.raise code src obj).net = s.net := State.raiseWithin_net s _ _ _ _
@[simp] theorem State.raiseAll_net (s : State) (code src : Nat) (objs : List Nat) : (s.raiseAll code src objs).net = s.net :=
  foldl_keeps State.net _ (fun t o => State.raise_net t code src o) objs s
@[simp] theorem State.raiseWithin_aud (s : State) (gap code src obj : Nat) : (s.raiseWithin gap code src obj).aud = s.aud := by
  have h : (if eventPersists code then s.noteCause code src obj else s).aud = s.aud := by split <;> rfl
  unfold State.raiseWithin
  extract_lets s1 s2
  split
  · exact (foldl_keeps State.aud _ (fun t (p : FieldRef × Nat) => State.setBit_aud t p.1 p.2) _ s1).trans h
  · exact h
@[simp] theorem State.raise_aud (s : State) (code src obj : Nat) : (s.raise code src obj).aud = s.aud := State.raiseWithin_aud s _ _ _ _
@[simp] theorem State.raiseAll_aud (s : State) (code src : Nat) (objs : List Nat) : (s.raiseAll code src objs).aud = s.aud :=
  foldl_keeps State.aud _ (fun t o => State.raise_aud t code src o) objs s
@[simp] theorem State.raiseWithin_mvw (s : State) (gap code src obj : Nat) : (s.raiseWithin gap code src obj).mvw = s.mvw := by
  have h : (if eventPersists code then s.noteCause code src obj else s).mvw = s.mvw := by split <;> rfl
  unfold State.raiseWithin
  extract_lets s1 s2
  split
  · exact (foldl_keeps State.mvw _ (fun t (p : FieldRef × Nat) => State.setBit_mvw t p.1 p.2) _ s1).trans h
  · exact h
@[simp] theorem State.raise_mvw (s : State) (code src obj : Nat) : (s.raise code src obj).mvw = s.mvw := State.raiseWithin_mvw s _ _ _ _
@[simp] theorem State.raiseAll_mvw (s : State) (code src : Nat) (objs : List Nat) : (s.raiseAll code src objs).mvw = s.mvw :=
  foldl_keeps State.mvw _ (fun t o => State.raise_mvw t code src o) objs s
@[simp] theorem State.raiseWithin_enc (s : State) (gap code src obj : Nat) : (s.raiseWithin gap code src obj).enc = s.enc := by
  have h : (if eventPersists code then s.noteCause code src obj else s).enc = s.enc := by split <;> rfl
  unfold State.raiseWithin
  extract_lets s1 s2
  split
  · exact (foldl_keeps State.enc _ (fun t (p : FieldRef × Nat) => State.setBit_enc t p.1 p.2) _ s1).trans h
  · exact h
@[simp] theorem State.raise_enc (s : State) (code src obj : Nat) : (s.raise code src obj).enc = s.enc := State.raiseWithin_enc s _ _ _ _
@[simp] theorem State.raiseAll_enc (s : State) (code src : Nat) (objs : List Nat) : (s.raiseAll code src objs).enc = s.enc :=
  foldl_keeps State.enc _ (fun t o => State.raise_enc t code src o) objs s
@[simp] theorem State.raiseWithin_cru (s : State) (gap code src obj : Nat) : (s.raiseWithin gap code src obj).cru = s.cru := by
  have h : (if eventPersists code then s.noteCause code src obj else s).cru = s.cru := by split <;> rfl
  unfold State.raiseWithin
  extract_lets s1 s2
  split
  · exact (foldl_keeps State.cru _ (fun t (p : FieldRef × Nat) => State.setBit_cru t p.1 p.2) _ s1).trans h
  · exact h
@[simp] theorem State.raise_cru (s : State) (code src obj : Nat) : (s.raise code src obj).cru = s.cru := State.raiseWithin_cru s _ _ _ _
@[simp] theorem State.raiseAll_cru (s : State) (code src : Nat) (objs : List Nat) : (s.raiseAll code src objs).cru = s.cru :=
  foldl_keeps State.cru _ (fun t o => State.raise_cru t code src o) objs s
@[simp] theorem State.raiseWithin_tim (s : State) (gap code src obj : Nat) : (s.raiseWithin gap code src obj).tim = s.tim := by
  have h : (if eventPersists code then s.noteCause code src obj else s).tim = s.tim := by split <;> rfl
  unfold State.raiseWithin
  extract_lets s1 s2
  split
  · exact (foldl_keeps State.tim _ (fun t (p : FieldRef × Nat) => State.setBit_tim t p.1 p.2) _ s1).trans h
  · exact h
@[simp] theorem State.raise_tim (s : State) (code src obj : Nat) : (s.raise code src obj).tim = s.tim := State.raiseWithin_tim s _ _ _ _
@[simp] theorem State.raiseAll_tim (s : State) (code src : Nat) (objs : List Nat) : (s.raiseAll code src objs).tim = s.tim :=
  foldl_keeps State.tim _ (fun t o => State.raise_tim t code src o) objs s
@[simp] theorem State.raiseWithin_ref (s : State) (gap code src obj : Nat) : (s.raiseWithin gap code src obj).ref = s.ref := by
  have h : (if eventPersists code then s.noteCause code src obj else s).ref = s.ref := by split <;> rfl
  unfold State.raiseWithin
  extract_lets s1 s2
  split
  · exact (foldl_keeps State.ref _ (fun t (p : FieldRef × Nat) => State.setBit_ref t p.1 p.2) _ s1).trans h
  · exact h
@[simp] theorem State.raise_ref (s : State) (code src obj : Nat) : (s.raise code src obj).ref = s.ref := State.raiseWithin_ref s _ _ _ _
@[simp] theorem State.raiseAll_ref (s : State) (code src : Nat) (objs : List Nat) : (s.raiseAll code src objs).ref = s.ref :=
  foldl_keeps State.ref _ (fun t o => State.raise_ref t code src o) objs s
@[simp] theorem State.raiseWithin_mem (s : State) (gap code src obj : Nat) : (s.raiseWithin gap code src obj).mem = s.mem := by
  have h : (if eventPersists code then s.noteCause code src obj else s).mem = s.mem := by split <;> rfl
  unfold State.raiseWithin
  extract_lets s1 s2
  split
  · exact (foldl_keeps State.mem _ (fun t (p : FieldRef × Nat) => State.setBit_mem t p.1 p.2) _ s1).trans h
  · exact h
@[simp] theorem State.raise_mem (s : State) (code src obj : Nat) : (s.raise code src obj).mem = s.mem := State.raiseWithin_mem s _ _ _ _
@[simp] theorem State.raiseAll_mem (s : State) (code src : Nat) (objs : List Nat) : (s.raiseAll code src objs).mem = s.mem :=
  foldl_keeps State.mem _ (fun t o => State.raise_mem t code src o) objs s
@[simp] theorem State.raiseWithin_vlt (s : State) (gap code src obj : Nat) : (s.raiseWithin gap code src obj).vlt = s.vlt := by
  have h : (if eventPersists code then s.noteCause code src obj else s).vlt = s.vlt := by split <;> rfl
  unfold State.raiseWithin
  extract_lets s1 s2
  split
  · exact (foldl_keeps State.vlt _ (fun t (p : FieldRef × Nat) => State.setBit_vlt t p.1 p.2) _ s1).trans h
  · exact h
@[simp] theorem State.raise_vlt (s : State) (code src obj : Nat) : (s.raise code src obj).vlt = s.vlt := State.raiseWithin_vlt s _ _ _ _
@[simp] theorem State.raiseAll_vlt (s : State) (code src : Nat) (objs : List Nat) : (s.raiseAll code src objs).vlt = s.vlt :=
  foldl_keeps State.vlt _ (fun t o => State.raise_vlt t code src o) objs s
@[simp] theorem State.raiseWithin_twn (s : State) (gap code src obj : Nat) : (s.raiseWithin gap code src obj).twn = s.twn := by
  have h : (if eventPersists code then s.noteCause code src obj else s).twn = s.twn := by split <;> rfl
  unfold State.raiseWithin
  extract_lets s1 s2
  split
  · exact (foldl_keeps State.twn _ (fun t (p : FieldRef × Nat) => State.setBit_twn t p.1 p.2) _ s1).trans h
  · exact h
@[simp] theorem State.raise_twn (s : State) (code src obj : Nat) : (s.raise code src obj).twn = s.twn := State.raiseWithin_twn s _ _ _ _
@[simp] theorem State.raiseAll_twn (s : State) (code src : Nat) (objs : List Nat) : (s.raiseAll code src objs).twn = s.twn :=
  foldl_keeps State.twn _ (fun t o => State.raise_twn t code src o) objs s
@[simp] theorem State.raiseWithin_sent (s : State) (gap code src obj : Nat) : (s.raiseWithin gap code src obj).sent = s.sent := by
  have h : (if eventPersists code then s.noteCause code src obj else s).sent = s.sent := by split <;> rfl
  unfold State.raiseWithin
  extract_lets s1 s2
  split
  · exact (foldl_keeps State.sent _ (fun t (p : FieldRef × Nat) => State.setBit_sent t p.1 p.2) _ s1).trans h
  · exact h
@[simp] theorem State.raise_sent (s : State) (code src obj : Nat) : (s.raise code src obj).sent = s.sent := State.raiseWithin_sent s _ _ _ _
@[simp] theorem State.raiseAll_sent (s : State) (code src : Nat) (objs : List Nat) : (s.raiseAll code src objs).sent = s.sent :=
  foldl_keeps State.sent _ (fun t o => State.raise_sent t code src o) objs s

/-! ### openAccepted -/

@[simp] theorem State.openAccepted_pending (s : State) (parent seq : Nat) : (s.openAccepted parent seq).pending = s.pending := rfl
@[simp] theorem State.openAccepted_now (s : State) (parent seq : Nat) : (s.openAccepted parent seq).now = s.now := rfl
@[simp] theorem State.openAccepted_fresh (s : State) (parent seq : Nat) : (s.openAccepted parent seq).fresh = s.fresh := rfl
@[simp] theorem State.openAccepted_variant (s : State) (parent seq : Nat) : (s.openAccepted parent seq).variant = s.variant := rfl
@[simp] theorem State.openAccepted_regs (s : State) (parent seq : Nat) : (s.openAccepted parent seq).regs = s.regs := rfl
@[simp] theorem State.openAccepted_ready (s : State) (parent seq : Nat) : (s.openAccepted parent seq).ready = s.ready := rfl
@[simp] theorem State.openAccepted_isolated (s : State) (parent seq : Nat) : (s.openAccepted parent seq).isolated = s.isolated := rfl
@[simp] theorem State.openAccepted_flt (s : State) (parent seq : Nat) : (s.openAccepted parent seq).flt = s.flt := rfl
@[simp] theorem State.openAccepted_pwr (s : State) (parent seq : Nat) : (s.openAccepted parent seq).pwr = s.pwr := rfl
@[simp] theorem State.openAccepted_boot (s : State) (parent seq : Nat) : (s.openAccepted parent seq).boot = s.boot := rfl
@[simp] theorem State.openAccepted_fab (s : State) (parent seq : Nat) : (s.openAccepted parent seq).fab = s.fab := rfl
@[simp] theorem State.openAccepted_eph (s : State) (parent seq : Nat) : (s.openAccepted parent seq).eph = s.eph := rfl
@[simp] theorem State.openAccepted_lan (s : State) (parent seq : Nat) : (s.openAccepted parent seq).lan = s.lan := rfl
@[simp] theorem State.openAccepted_net (s : State) (parent seq : Nat) : (s.openAccepted parent seq).net = s.net := rfl
@[simp] theorem State.openAccepted_aud (s : State) (parent seq : Nat) : (s.openAccepted parent seq).aud = s.aud := rfl
@[simp] theorem State.openAccepted_mvw (s : State) (parent seq : Nat) : (s.openAccepted parent seq).mvw = s.mvw := rfl
@[simp] theorem State.openAccepted_enc (s : State) (parent seq : Nat) : (s.openAccepted parent seq).enc = s.enc := rfl
@[simp] theorem State.openAccepted_cru (s : State) (parent seq : Nat) : (s.openAccepted parent seq).cru = s.cru := rfl
@[simp] theorem State.openAccepted_tim (s : State) (parent seq : Nat) : (s.openAccepted parent seq).tim = s.tim := rfl
@[simp] theorem State.openAccepted_ref (s : State) (parent seq : Nat) : (s.openAccepted parent seq).ref = s.ref := rfl
@[simp] theorem State.openAccepted_mem (s : State) (parent seq : Nat) : (s.openAccepted parent seq).mem = s.mem := rfl
@[simp] theorem State.openAccepted_vlt (s : State) (parent seq : Nat) : (s.openAccepted parent seq).vlt = s.vlt := rfl
@[simp] theorem State.openAccepted_twn (s : State) (parent seq : Nat) : (s.openAccepted parent seq).twn = s.twn := rfl
@[simp] theorem State.openAccepted_sent (s : State) (parent seq : Nat) : (s.openAccepted parent seq).sent = s.sent := rfl

/-! ### openAnswered -/

@[simp] theorem State.openAnswered_pending (s : State) (parent seq : Nat) (busy : Bool) : (s.openAnswered parent seq busy).pending = s.pending := rfl
@[simp] theorem State.openAnswered_now (s : State) (parent seq : Nat) (busy : Bool) : (s.openAnswered parent seq busy).now = s.now := rfl
@[simp] theorem State.openAnswered_fresh (s : State) (parent seq : Nat) (busy : Bool) : (s.openAnswered parent seq busy).fresh = s.fresh := rfl
@[simp] theorem State.openAnswered_variant (s : State) (parent seq : Nat) (busy : Bool) : (s.openAnswered parent seq busy).variant = s.variant := rfl
@[simp] theorem State.openAnswered_regs (s : State) (parent seq : Nat) (busy : Bool) : (s.openAnswered parent seq busy).regs = s.regs := rfl
@[simp] theorem State.openAnswered_ready (s : State) (parent seq : Nat) (busy : Bool) : (s.openAnswered parent seq busy).ready = s.ready := rfl
@[simp] theorem State.openAnswered_isolated (s : State) (parent seq : Nat) (busy : Bool) : (s.openAnswered parent seq busy).isolated = s.isolated := rfl
@[simp] theorem State.openAnswered_flt (s : State) (parent seq : Nat) (busy : Bool) : (s.openAnswered parent seq busy).flt = s.flt := rfl
@[simp] theorem State.openAnswered_pwr (s : State) (parent seq : Nat) (busy : Bool) : (s.openAnswered parent seq busy).pwr = s.pwr := rfl
@[simp] theorem State.openAnswered_boot (s : State) (parent seq : Nat) (busy : Bool) : (s.openAnswered parent seq busy).boot = s.boot := rfl
@[simp] theorem State.openAnswered_fab (s : State) (parent seq : Nat) (busy : Bool) : (s.openAnswered parent seq busy).fab = s.fab := rfl
@[simp] theorem State.openAnswered_eph (s : State) (parent seq : Nat) (busy : Bool) : (s.openAnswered parent seq busy).eph = s.eph := rfl
@[simp] theorem State.openAnswered_lan (s : State) (parent seq : Nat) (busy : Bool) : (s.openAnswered parent seq busy).lan = s.lan := rfl
@[simp] theorem State.openAnswered_net (s : State) (parent seq : Nat) (busy : Bool) : (s.openAnswered parent seq busy).net = s.net := rfl
@[simp] theorem State.openAnswered_aud (s : State) (parent seq : Nat) (busy : Bool) : (s.openAnswered parent seq busy).aud = s.aud := rfl
@[simp] theorem State.openAnswered_mvw (s : State) (parent seq : Nat) (busy : Bool) : (s.openAnswered parent seq busy).mvw = s.mvw := rfl
@[simp] theorem State.openAnswered_enc (s : State) (parent seq : Nat) (busy : Bool) : (s.openAnswered parent seq busy).enc = s.enc := rfl
@[simp] theorem State.openAnswered_cru (s : State) (parent seq : Nat) (busy : Bool) : (s.openAnswered parent seq busy).cru = s.cru := rfl
@[simp] theorem State.openAnswered_tim (s : State) (parent seq : Nat) (busy : Bool) : (s.openAnswered parent seq busy).tim = s.tim := rfl
@[simp] theorem State.openAnswered_ref (s : State) (parent seq : Nat) (busy : Bool) : (s.openAnswered parent seq busy).ref = s.ref := rfl
@[simp] theorem State.openAnswered_mem (s : State) (parent seq : Nat) (busy : Bool) : (s.openAnswered parent seq busy).mem = s.mem := rfl
@[simp] theorem State.openAnswered_vlt (s : State) (parent seq : Nat) (busy : Bool) : (s.openAnswered parent seq busy).vlt = s.vlt := rfl
@[simp] theorem State.openAnswered_twn (s : State) (parent seq : Nat) (busy : Bool) : (s.openAnswered parent seq busy).twn = s.twn := rfl
@[simp] theorem State.openAnswered_sent (s : State) (parent seq : Nat) (busy : Bool) : (s.openAnswered parent seq busy).sent = s.sent := rfl

/-! ### newHeadFrame -/

@[simp] theorem State.newHeadFrame_pending (s : State) (h : Nat) : (s.newHeadFrame h).pending = s.pending := rfl
@[simp] theorem State.newHeadFrame_now (s : State) (h : Nat) : (s.newHeadFrame h).now = s.now := rfl
@[simp] theorem State.newHeadFrame_fresh (s : State) (h : Nat) : (s.newHeadFrame h).fresh = s.fresh := rfl
@[simp] theorem State.newHeadFrame_variant (s : State) (h : Nat) : (s.newHeadFrame h).variant = s.variant := rfl
@[simp] theorem State.newHeadFrame_regs (s : State) (h : Nat) : (s.newHeadFrame h).regs = s.regs := rfl
@[simp] theorem State.newHeadFrame_ready (s : State) (h : Nat) : (s.newHeadFrame h).ready = s.ready := rfl
@[simp] theorem State.newHeadFrame_isolated (s : State) (h : Nat) : (s.newHeadFrame h).isolated = s.isolated := rfl
@[simp] theorem State.newHeadFrame_pwr (s : State) (h : Nat) : (s.newHeadFrame h).pwr = s.pwr := rfl
@[simp] theorem State.newHeadFrame_boot (s : State) (h : Nat) : (s.newHeadFrame h).boot = s.boot := rfl
@[simp] theorem State.newHeadFrame_cyx (s : State) (h : Nat) : (s.newHeadFrame h).cyx = s.cyx := rfl
@[simp] theorem State.newHeadFrame_fab (s : State) (h : Nat) : (s.newHeadFrame h).fab = s.fab := rfl
@[simp] theorem State.newHeadFrame_eph (s : State) (h : Nat) : (s.newHeadFrame h).eph = s.eph := rfl
@[simp] theorem State.newHeadFrame_lan (s : State) (h : Nat) : (s.newHeadFrame h).lan = s.lan := rfl
@[simp] theorem State.newHeadFrame_net (s : State) (h : Nat) : (s.newHeadFrame h).net = s.net := rfl
@[simp] theorem State.newHeadFrame_aud (s : State) (h : Nat) : (s.newHeadFrame h).aud = s.aud := rfl
@[simp] theorem State.newHeadFrame_mvw (s : State) (h : Nat) : (s.newHeadFrame h).mvw = s.mvw := rfl
@[simp] theorem State.newHeadFrame_enc (s : State) (h : Nat) : (s.newHeadFrame h).enc = s.enc := rfl
@[simp] theorem State.newHeadFrame_cru (s : State) (h : Nat) : (s.newHeadFrame h).cru = s.cru := rfl
@[simp] theorem State.newHeadFrame_tim (s : State) (h : Nat) : (s.newHeadFrame h).tim = s.tim := rfl
@[simp] theorem State.newHeadFrame_ref (s : State) (h : Nat) : (s.newHeadFrame h).ref = s.ref := rfl
@[simp] theorem State.newHeadFrame_mem (s : State) (h : Nat) : (s.newHeadFrame h).mem = s.mem := rfl
@[simp] theorem State.newHeadFrame_vlt (s : State) (h : Nat) : (s.newHeadFrame h).vlt = s.vlt := rfl
@[simp] theorem State.newHeadFrame_twn (s : State) (h : Nat) : (s.newHeadFrame h).twn = s.twn := rfl
@[simp] theorem State.newHeadFrame_sent (s : State) (h : Nat) : (s.newHeadFrame h).sent = s.sent := rfl

/-! ### noteCause -/

@[simp] theorem State.noteCause_pending (s : State) (code src obj : Nat) : (s.noteCause code src obj).pending = s.pending := rfl
@[simp] theorem State.noteCause_now (s : State) (code src obj : Nat) : (s.noteCause code src obj).now = s.now := rfl
@[simp] theorem State.noteCause_fresh (s : State) (code src obj : Nat) : (s.noteCause code src obj).fresh = s.fresh := rfl
@[simp] theorem State.noteCause_variant (s : State) (code src obj : Nat) : (s.noteCause code src obj).variant = s.variant := rfl
@[simp] theorem State.noteCause_regs (s : State) (code src obj : Nat) : (s.noteCause code src obj).regs = s.regs := rfl
@[simp] theorem State.noteCause_ready (s : State) (code src obj : Nat) : (s.noteCause code src obj).ready = s.ready := rfl
@[simp] theorem State.noteCause_isolated (s : State) (code src obj : Nat) : (s.noteCause code src obj).isolated = s.isolated := rfl
@[simp] theorem State.noteCause_pwr (s : State) (code src obj : Nat) : (s.noteCause code src obj).pwr = s.pwr := rfl
@[simp] theorem State.noteCause_boot (s : State) (code src obj : Nat) : (s.noteCause code src obj).boot = s.boot := rfl
@[simp] theorem State.noteCause_cyx (s : State) (code src obj : Nat) : (s.noteCause code src obj).cyx = s.cyx := rfl
@[simp] theorem State.noteCause_fab (s : State) (code src obj : Nat) : (s.noteCause code src obj).fab = s.fab := rfl
@[simp] theorem State.noteCause_eph (s : State) (code src obj : Nat) : (s.noteCause code src obj).eph = s.eph := rfl
@[simp] theorem State.noteCause_lan (s : State) (code src obj : Nat) : (s.noteCause code src obj).lan = s.lan := rfl
@[simp] theorem State.noteCause_net (s : State) (code src obj : Nat) : (s.noteCause code src obj).net = s.net := rfl
@[simp] theorem State.noteCause_aud (s : State) (code src obj : Nat) : (s.noteCause code src obj).aud = s.aud := rfl
@[simp] theorem State.noteCause_mvw (s : State) (code src obj : Nat) : (s.noteCause code src obj).mvw = s.mvw := rfl
@[simp] theorem State.noteCause_enc (s : State) (code src obj : Nat) : (s.noteCause code src obj).enc = s.enc := rfl
@[simp] theorem State.noteCause_cru (s : State) (code src obj : Nat) : (s.noteCause code src obj).cru = s.cru := rfl
@[simp] theorem State.noteCause_tim (s : State) (code src obj : Nat) : (s.noteCause code src obj).tim = s.tim := rfl
@[simp] theorem State.noteCause_ref (s : State) (code src obj : Nat) : (s.noteCause code src obj).ref = s.ref := rfl
@[simp] theorem State.noteCause_mem (s : State) (code src obj : Nat) : (s.noteCause code src obj).mem = s.mem := rfl
@[simp] theorem State.noteCause_vlt (s : State) (code src obj : Nat) : (s.noteCause code src obj).vlt = s.vlt := rfl
@[simp] theorem State.noteCause_twn (s : State) (code src obj : Nat) : (s.noteCause code src obj).twn = s.twn := rfl
@[simp] theorem State.noteCause_sent (s : State) (code src obj : Nat) : (s.noteCause code src obj).sent = s.sent := rfl

end Sys2Proof.Machine
end

