-- ==== Sys2Proof/Laws/Frame.lean ====
section
/-!
SUPPORT. How a frame of an event is shown: its next state agrees with the state that it met.
-/
namespace Sys2Proof.Machine
open Sys2Proof

/-- An event that answers a state which a view cannot tell from `u` leaves what the view shows. -/
theorem leaves_next {view : State → State} {u t : State} (h : view t = view u) : Leaves view u (.next t) := by
  intro x hx
  cases hx
  exact h

/-! ### A message to a session -/

/-- Everything but registers, the event collector and what a message to a session changes. -/
def State.besideTold (s : State) : State := untold State.besideRegisters s

theorem besideTold_ite {c : Prop} [Decidable c] {a b was : State} (ha : c → a.besideTold = was) (hb : ¬c → b.besideTold = was) : (if c then a else b).besideTold = was := by
  split
  · exact ha ‹_›
  · exact hb ‹_›
theorem State.memWrite_besideTold {s was : State} {a : Nat} {b : List Byte} (h : s.besideTold = was) : (s.memWrite a b).besideTold = was := by
  induction b generalizing s a with
  | nil => exact h
  | cons x b ih =>
    refine ih ?_
    unfold State.memPut
    split
    · exact h
    · exact h
    · exact h
theorem State.sendDatagram_besideTold {s was : State} {m dst sport dport : Nat} {b : List Byte} (h : s.besideTold = was) : (s.sendDatagram m dst sport dport b).besideTold = was := by
  unfold State.sendDatagram
  extract_lets
  exact besideTold_ite (fun _ => h) fun _ => h
theorem State.ringEvent_besideTold {s was : State} {n : Nat} {x : Session} {m : EvMsg} (h : s.besideTold = was) : (s.ringEvent n x m).besideTold = was := by
  unfold State.ringEvent
  refine besideTold_ite (fun _ => ?_) fun _ => h
  have h1 : (s.countEvent x m).besideTold = was := h
  exact State.memWrite_besideTold h1
theorem State.sendEventTo_besideTold {s was : State} {id : Nat} {m : EvMsg} (h : s.besideTold = was) : (s.sendEventTo id m).besideTold = was := by
  unfold State.sendEventTo
  split
  · exact h
  · split
    · exact State.sendDatagram_besideTold h
    · exact besideTold_ite (fun _ => h) fun _ => h
    · exact State.ringEvent_besideTold h
    · exact h
theorem State.finish_besideTold {s was : State} {session tag status entry : Nat} (h : s.besideTold = was) : (s.finish session tag status entry).besideTold = was := by
  unfold State.finish
  exact besideTold_ite (fun _ => h) fun _ => State.sendEventTo_besideTold h
theorem State.finishAll_besideTold {s was : State} {l : List (Nat × Nat × Nat × Nat)} (h : s.besideTold = was) : (s.finishAll l).besideTold = was := by
  induction l generalizing s with
  | nil => exact h
  | cons x l ih =>
    unfold State.finishAll
    exact besideTold_ite (fun _ => ih h) fun _ => ih (State.finish_besideTold h)
theorem State.endWait_besideTold {s was : State} {w : Waits} {status : Nat} (h : s.besideTold = was) : (s.endWait w status).besideTold = was := by
  unfold State.endWait
  exact State.finishAll_besideTold h

end Sys2Proof.Machine
end

