-- ==== Sys2Proof/Laws/FrameFabric.lean ====
section
/-!
SUPPORT. What `State.besideFabric` shows, the operations behind the events of its group leave as it is.
-/
namespace Sys2Proof.Machine
open Sys2Proof

theorem besideFabric_keep {s : State} {was} {regs flt fab eph} (h : s.besideFabric = was) : (State.mk s.pending s.now s.fresh s.variant regs s.ready s.isolated flt s.pwr s.boot s.cyx fab eph s.lan s.net s.aud s.mvw s.enc s.cru s.tim s.ref s.mem s.vlt s.twn s.sent).besideFabric = was := h
theorem besideFabric_ite {c : Prop} [Decidable c] {a b was : State} (ha : c → a.besideFabric = was) (hb : ¬c → b.besideFabric = was) : (if c then a else b).besideFabric = was := by
  split
  · exact ha ‹_›
  · exact hb ‹_›
theorem besideFabric_foldl {α : Type} {f : State → α → State} {l : List α} {s was : State} (hs : s.besideFabric = was) (hf : ∀ t a, t.besideFabric = was → (f t a).besideFabric = was) : (l.foldl f s).besideFabric = was := by
  induction l generalizing s with
  | nil => exact hs
  | cons x l ih => exact ih (hf s x hs)
theorem State.wr_besideFabric {s was : State} {f : FieldRef} {v : Nat} (h : s.besideFabric = was) : (s.wr f v).besideFabric = was := h
theorem State.wrInt_besideFabric {s was : State} {f : FieldRef} {v : Int} (h : s.besideFabric = was) : (s.wrInt f v).besideFabric = was := h
theorem State.bump_besideFabric {s was : State} {f : FieldRef} {v : Nat} (h : s.besideFabric = was) : (s.bump f v).besideFabric = was := h
theorem State.bumpSat_besideFabric {s was : State} {f : FieldRef} {v : Nat} (h : s.besideFabric = was) : (s.bumpSat f v).besideFabric = was := h
theorem State.wr64_besideFabric {s was : State} {lo hi : FieldRef} {v : Nat} (h : s.besideFabric = was) : (s.wr64 lo hi v).besideFabric = was := h
theorem State.setBit_besideFabric {s was : State} {f : FieldRef} {v : Nat} (h : s.besideFabric = was) : (s.setBit f v).besideFabric = was := by
  simpa [State.besideFabric] using h
theorem State.clrBit_besideFabric {s was : State} {f : FieldRef} {v : Nat} (h : s.besideFabric = was) : (s.clrBit f v).besideFabric = was := by
  simpa [State.besideFabric] using h
theorem State.raiseWithin_besideFabric {s was : State} {gap code src obj : Nat} (h : s.besideFabric = was) : (s.raiseWithin gap code src obj).besideFabric = was := by
  simpa [State.besideFabric] using h
theorem State.raise_besideFabric {s was : State} {code src obj : Nat} (h : s.besideFabric = was) : (s.raise code src obj).besideFabric = was := by
  simpa [State.besideFabric] using h
theorem State.endCause_besideFabric {s was : State} {code src obj : Nat} (h : s.besideFabric = was) : (s.endCause code src obj).besideFabric = was := h
theorem besideFabric_fst {α : Type} {p : State × α} {s was : State} {a : α} (e : p = (s, a)) (h : p.1.besideFabric = was) : s.besideFabric = was := by
  subst e; exact h
theorem besideFabric_snd {α : Type} {p : α × State} {s was : State} {a : α} (e : p = (a, s)) (h : p.2.besideFabric = was) : s.besideFabric = was := by
  subst e; exact h
theorem State.deckSweep_besideFabric {was : State} {s : State} (h : s.besideFabric = was) : (State.deckSweep s).besideFabric = was := by
  unfold State.deckSweep
  repeat' first | (with_reducible first | assumption | extract_lets | refine besideFabric_ite (fun _ => ?_) fun _ => ?_ | apply besideFabric_keep)
theorem State.ageCause_besideFabric {was : State} {s : State} {code : Nat} {src : Nat} {obj : Nat} {since : Nat} (h : s.besideFabric = was) : (State.ageCause s code src obj since).besideFabric = was := by
  unfold State.ageCause
  repeat' first | (with_reducible first | assumption | extract_lets | apply State.endCause_besideFabric | refine besideFabric_ite (fun _ => ?_) fun _ => ?_)
theorem State.putLanding_besideFabric {was : State} {s : State} {c : Landing} (h : s.besideFabric = was) : (State.putLanding s c).besideFabric = was := by
  unfold State.putLanding
  repeat' first | (with_reducible first | assumption | extract_lets | refine besideFabric_ite (fun _ => ?_) fun _ => ?_ | apply besideFabric_keep)
theorem State.selectFrame_besideFabric {was : State} {s : State} {c : Landing} {t : Option Nat} (h : s.besideFabric = was) : (State.selectFrame s c t).besideFabric = was := by
  unfold State.selectFrame
  repeat' first | (with_reducible first | assumption | extract_lets | apply State.ageCause_besideFabric | apply State.bump_besideFabric | apply State.putLanding_besideFabric | refine besideFabric_ite (fun _ => ?_) fun _ => ?_ | refine besideFabric_foldl ?_ fun _ _ _ => ?_) | split
theorem State.landingAlarm_besideFabric {was : State} {s : State} {code : Nat} {chan : Nat} (h : s.besideFabric = was) : (State.landingAlarm s code chan).besideFabric = was := by
  unfold State.landingAlarm
  repeat' first | (with_reducible first | assumption | extract_lets | apply State.raiseWithin_besideFabric | refine besideFabric_ite (fun _ => ?_) fun _ => ?_)
theorem State.landingLost_besideFabric {was : State} {s : State} {c : Landing} {t : Nat} (h : s.besideFabric = was) : (State.landingLost s c t).besideFabric = was := by
  unfold State.landingLost
  repeat' first | (with_reducible first | assumption | extract_lets | refine besideFabric_ite (fun _ => ?_) fun _ => ?_ | apply besideFabric_keep)
theorem State.putSource_besideFabric {was : State} {s : State} {x : SourceRec} (h : s.besideFabric = was) : (State.putSource s x).besideFabric = was := by
  unfold State.putSource
  repeat' first | (with_reducible first | assumption | extract_lets | refine besideFabric_ite (fun _ => ?_) fun _ => ?_ | apply besideFabric_keep)
theorem State.putShd_besideFabric {was : State} {s : State} {q : Nat} {x : Sel} (h : s.besideFabric = was) : (State.putShd s q x).besideFabric = was := by
  unfold State.putShd
  repeat' first | (with_reducible first | assumption | extract_lets | apply State.wr_besideFabric | refine besideFabric_ite (fun _ => ?_) fun _ => ?_)
theorem State.setOutEn_besideFabric {was : State} {s : State} {n : Nat} {on : Bool} (h : s.besideFabric = was) : (State.setOutEn s n on).besideFabric = was := by
  unfold State.setOutEn
  repeat' first | (with_reducible first | assumption | extract_lets | apply State.clrBit_besideFabric | apply State.setBit_besideFabric | refine besideFabric_ite (fun _ => ?_) fun _ => ?_)
theorem State.loadRoute_besideFabric {was : State} {s : State} {r : RouteRec} (h : s.besideFabric = was) : (State.loadRoute s r).besideFabric = was := by
  unfold State.loadRoute
  repeat' first | (with_reducible first | assumption | extract_lets | apply State.putShd_besideFabric | apply State.setOutEn_besideFabric | refine besideFabric_ite (fun _ => ?_) fun _ => ?_ | refine besideFabric_foldl ?_ fun _ _ _ => ?_)
theorem State.loadDue_besideFabric {was : State} {s : State} {g : Nat} {f : Nat} (h : s.besideFabric = was) : (State.loadDue s g f).besideFabric = was := by
  unfold State.loadDue
  repeat' first | (with_reducible first | assumption | extract_lets | apply State.bump_besideFabric | apply State.loadRoute_besideFabric | refine besideFabric_ite (fun _ => ?_) fun _ => ?_ | refine besideFabric_foldl ?_ fun _ _ _ => ?_ | apply besideFabric_keep)

end Sys2Proof.Machine
end

