-- ==== Sys2Proof/Laws/FrameLanes.lean ====
section
/-!
SUPPORT. What `State.besideLanes` shows, the operations behind the events of its group leave as it is.
-/
namespace Sys2Proof.Machine
open Sys2Proof

theorem besideLanes_keep {s : State} {was} {regs flt fab lan sent linkBox} (h : s.besideLanes = was) : (State.mk s.pending s.now s.fresh s.variant regs s.ready s.isolated flt s.pwr s.boot { s.cyx with linkBox := linkBox } fab s.eph lan s.net s.aud s.mvw s.enc s.cru s.tim s.ref s.mem s.vlt s.twn sent).besideLanes = was := h
theorem besideLanes_ite {c : Prop} [Decidable c] {a b was : State} (ha : c → a.besideLanes = was) (hb : ¬c → b.besideLanes = was) : (if c then a else b).besideLanes = was := by
  split
  · exact ha ‹_›
  · exact hb ‹_›
theorem besideLanes_foldl {α : Type} {f : State → α → State} {l : List α} {s was : State} (hs : s.besideLanes = was) (hf : ∀ t a, t.besideLanes = was → (f t a).besideLanes = was) : (l.foldl f s).besideLanes = was := by
  induction l generalizing s with
  | nil => exact hs
  | cons x l ih => exact ih (hf s x hs)
theorem State.wr_besideLanes {s was : State} {f : FieldRef} {v : Nat} (h : s.besideLanes = was) : (s.wr f v).besideLanes = was := h
theorem State.wrInt_besideLanes {s was : State} {f : FieldRef} {v : Int} (h : s.besideLanes = was) : (s.wrInt f v).besideLanes = was := h
theorem State.bump_besideLanes {s was : State} {f : FieldRef} {v : Nat} (h : s.besideLanes = was) : (s.bump f v).besideLanes = was := h
theorem State.bumpSat_besideLanes {s was : State} {f : FieldRef} {v : Nat} (h : s.besideLanes = was) : (s.bumpSat f v).besideLanes = was := h
theorem State.wr64_besideLanes {s was : State} {lo hi : FieldRef} {v : Nat} (h : s.besideLanes = was) : (s.wr64 lo hi v).besideLanes = was := h
theorem State.setBit_besideLanes {s was : State} {f : FieldRef} {v : Nat} (h : s.besideLanes = was) : (s.setBit f v).besideLanes = was := by
  simpa [State.besideLanes] using h
theorem State.clrBit_besideLanes {s was : State} {f : FieldRef} {v : Nat} (h : s.besideLanes = was) : (s.clrBit f v).besideLanes = was := by
  simpa [State.besideLanes] using h
theorem State.raiseWithin_besideLanes {s was : State} {gap code src obj : Nat} (h : s.besideLanes = was) : (s.raiseWithin gap code src obj).besideLanes = was := by
  simpa [State.besideLanes] using h
theorem State.raise_besideLanes {s was : State} {code src obj : Nat} (h : s.besideLanes = was) : (s.raise code src obj).besideLanes = was := by
  simpa [State.besideLanes] using h
theorem State.endCause_besideLanes {s was : State} {code src obj : Nat} (h : s.besideLanes = was) : (s.endCause code src obj).besideLanes = was := h
theorem besideLanes_fst {α : Type} {p : State × α} {s was : State} {a : α} (e : p = (s, a)) (h : p.1.besideLanes = was) : s.besideLanes = was := by
  subst e; exact h
theorem besideLanes_snd {α : Type} {p : α × State} {s was : State} {a : α} (e : p = (a, s)) (h : p.2.besideLanes = was) : s.besideLanes = was := by
  subst e; exact h
theorem besideLanes_sent {s : State} {was : State} {sent : List Out} (h : s.besideLanes = was) : ({ s with sent := sent } : State).besideLanes = was := h
theorem State.putLane_besideLanes {was : State} {s : State} {x : Lane} (h : s.besideLanes = was) : (State.putLane s x).besideLanes = was := by
  unfold State.putLane
  repeat' first | (with_reducible first | assumption | extract_lets | refine besideLanes_ite (fun _ => ?_) fun _ => ?_ | apply besideLanes_keep)
theorem State.deriveC0_besideLanes {was : State} {s : State} {l : Nat} (h : s.besideLanes = was) : (State.deriveC0 s l).besideLanes = was := by
  unfold State.deriveC0
  repeat' first | (with_reducible first | assumption | extract_lets | apply State.wr_besideLanes | refine besideLanes_ite (fun _ => ?_) fun _ => ?_)
theorem State.eqApply_besideLanes {was : State} {s : State} {l : Nat} {request : Nat} (h : s.besideLanes = was) : (State.eqApply s l request).1.besideLanes = was := by
  unfold State.eqApply
  repeat' first | (with_reducible first | assumption | extract_lets | apply State.deriveC0_besideLanes | apply State.wr_besideLanes | refine besideLanes_ite (fun _ => ?_) fun _ => ?_) | split | (with_reducible first | dsimp +zetaDelta only)
theorem State.modLane_besideLanes {was : State} {s : State} {l : Nat} {f : Lane → Lane} (h : s.besideLanes = was) : (State.modLane s l f).besideLanes = was := by
  unfold State.modLane
  repeat' first | (with_reducible first | assumption | extract_lets | apply State.putLane_besideLanes | refine besideLanes_ite (fun _ => ?_) fun _ => ?_)
theorem State.answerEq_besideLanes {was : State} {s : State} {l : Nat} (h : s.besideLanes = was) : (State.answerEq s l).besideLanes = was := by
  unfold State.answerEq
  repeat' first | (with_reducible first | assumption | extract_lets | apply State.eqApply_besideLanes | apply State.modLane_besideLanes | apply State.raise_besideLanes | refine besideLanes_ite (fun _ => ?_) fun _ => ?_ | refine besideLanes_fst (by assumption) ?_) | split
theorem State.beginLayout_besideLanes {was : State} {s : State} {l : Nat} (h : s.besideLanes = was) : (State.beginLayout s l).besideLanes = was := by
  unfold State.beginLayout
  repeat' first | (with_reducible first | assumption | extract_lets | apply State.putLane_besideLanes | apply State.wr_besideLanes | refine besideLanes_ite (fun _ => ?_) fun _ => ?_ | apply besideLanes_keep)
theorem State.endLine_besideLanes {was : State} {s : State} {l : Nat} {n : Nat} (h : s.besideLanes = was) : (State.endLine s l n).besideLanes = was := by
  unfold State.endLine
  extract_lets x
  split
  · exact h
  · exact besideLanes_sent (State.putLane_besideLanes h)
theorem State.sendPattern_besideLanes {was : State} {s : State} {l : Nat} (h : s.besideLanes = was) : (State.sendPattern s l).besideLanes = was := by
  unfold State.sendPattern
  with_reducible repeat' first | assumption | extract_lets | refine besideLanes_ite (fun _ => ?_) fun _ => ?_ | apply besideLanes_keep
theorem State.takeLinkBox_besideLanes {was : State} {s : State} {l : Nat} (h : s.besideLanes = was) : (State.takeLinkBox s l).besideLanes = was := by
  unfold State.takeLinkBox
  repeat' first | (with_reducible first | assumption | extract_lets | apply State.modLane_besideLanes | refine besideLanes_ite (fun _ => ?_) fun _ => ?_ | refine besideLanes_foldl ?_ fun _ _ _ => ?_ | apply besideLanes_keep) | split | (with_reducible first | dsimp +zetaDelta only)
theorem State.sendSuperframe_besideLanes {was : State} {s0 : State} {l : Nat} {k : Nat} (h : s0.besideLanes = was) : (State.sendSuperframe s0 l k).besideLanes = was := by
  unfold State.sendSuperframe
  with_reducible repeat' first | assumption | extract_lets | apply State.putLane_besideLanes | apply State.takeLinkBox_besideLanes | apply State.wr_besideLanes | refine besideLanes_ite (fun _ => ?_) fun _ => ?_ | apply besideLanes_keep
theorem State.loseMessage_besideLanes {was : State} {s : State} {l : Nat} (h : s.besideLanes = was) : (State.loseMessage s l).besideLanes = was := by
  unfold State.loseMessage
  repeat' first | (with_reducible first | assumption | extract_lets | apply State.bump_besideLanes | apply State.modLane_besideLanes | apply State.raise_besideLanes | refine besideLanes_ite (fun _ => ?_) fun _ => ?_ | apply besideLanes_keep)
theorem State.takeSegment_besideLanes {was : State} {s : State} {l : Nat} {cell : List Byte} (h : s.besideLanes = was) : (State.takeSegment s l cell).besideLanes = was := by
  unfold State.takeSegment
  repeat' first | (with_reducible first | assumption | extract_lets | apply State.putLane_besideLanes | refine besideLanes_ite (fun _ => ?_) fun _ => ?_)
theorem State.laneEvent_besideLanes {was : State} {s : State} {code : Nat} {l : Nat} (h : s.besideLanes = was) : (State.laneEvent s code l).besideLanes = was := by
  unfold State.laneEvent
  repeat' first | (with_reducible first | assumption | extract_lets | apply State.raiseWithin_besideLanes | refine besideLanes_ite (fun _ => ?_) fun _ => ?_)
theorem State.refreshPll_besideLanes {was : State} {s : State} {quad : Nat} (h : s.besideLanes = was) : (State.refreshPll s quad).besideLanes = was := by
  unfold State.refreshPll
  repeat' first | (with_reducible first | assumption | extract_lets | apply State.endCause_besideLanes | apply State.wr_besideLanes | refine besideLanes_ite (fun _ => ?_) fun _ => ?_ | refine besideLanes_foldl ?_ fun _ _ _ => ?_)
theorem State.setLstat_besideLanes {was : State} {s : State} {l : Nat} {b : Nat} {v : Bool} (h : s.besideLanes = was) : (State.setLstat s l b v).besideLanes = was := by
  unfold State.setLstat
  repeat' first | (with_reducible first | assumption | extract_lets | apply State.clrBit_besideLanes | apply State.setBit_besideLanes | refine besideLanes_ite (fun _ => ?_) fun _ => ?_)
theorem State.setTxReady_besideLanes {was : State} {s : State} {l : Nat} {v : Bool} (h : s.besideLanes = was) : (State.setTxReady s l v).besideLanes = was := by
  unfold State.setTxReady
  with_reducible repeat' first | assumption | extract_lets | apply State.endLine_besideLanes | apply State.modLane_besideLanes | apply State.sendPattern_besideLanes | apply State.setLstat_besideLanes | refine besideLanes_ite (fun _ => ?_) fun _ => ?_ | apply besideLanes_keep
theorem State.putSource_besideLanes {was : State} {s : State} {x : SourceRec} (h : s.besideLanes = was) : (State.putSource s x).besideLanes = was := by
  unfold State.putSource
  repeat' first | (with_reducible first | assumption | extract_lets | refine besideLanes_ite (fun _ => ?_) fun _ => ?_ | apply besideLanes_keep)
theorem State.beginMeasure_besideLanes {was : State} {s : State} {k : Nat} (h : s.besideLanes = was) : (State.beginMeasure s k).besideLanes = was := by
  unfold State.beginMeasure
  repeat' first | (with_reducible first | assumption | extract_lets | apply State.putSource_besideLanes | refine besideLanes_ite (fun _ => ?_) fun _ => ?_ | apply besideLanes_keep)
theorem State.resetMessages_besideLanes {was : State} {s : State} {l : Nat} (h : s.besideLanes = was) : (State.resetMessages s l).besideLanes = was := by
  unfold State.resetMessages
  repeat' first | (with_reducible first | assumption | extract_lets | apply State.modLane_besideLanes | apply State.wr_besideLanes | refine besideLanes_ite (fun _ => ?_) fun _ => ?_)
theorem State.slotIdle_besideLanes {was : State} {s : State} {k : Nat} (h : s.besideLanes = was) : (State.slotIdle s k).besideLanes = was := by
  unfold State.slotIdle
  repeat' first | (with_reducible first | assumption | extract_lets | apply State.putSource_besideLanes | refine besideLanes_ite (fun _ => ?_) fun _ => ?_ | apply besideLanes_keep)
theorem State.staveState_besideLanes {was : State} {s : State} {l : Nat} {st : Nat} (h : s.besideLanes = was) : (State.staveState s l st).besideLanes = was := by
  unfold State.staveState
  repeat' first | (with_reducible first | assumption | extract_lets | apply State.beginMeasure_besideLanes | apply State.endCause_besideLanes | apply State.modLane_besideLanes | apply State.raise_besideLanes | apply State.resetMessages_besideLanes | apply State.slotIdle_besideLanes | apply State.wr_besideLanes | refine besideLanes_ite (fun _ => ?_) fun _ => ?_ | refine besideLanes_foldl ?_ fun _ _ _ => ?_ | apply besideLanes_keep)
theorem State.refreshLane_besideLanes {was : State} {s : State} {l : Nat} (h : s.besideLanes = was) : (State.refreshLane s l).besideLanes = was := by
  unfold State.refreshLane
  repeat' first | (with_reducible first | assumption | extract_lets | apply State.modLane_besideLanes | apply State.refreshPll_besideLanes | apply State.setLstat_besideLanes | apply State.setTxReady_besideLanes | apply State.staveState_besideLanes | refine besideLanes_ite (fun _ => ?_) fun _ => ?_)
theorem State.rxAsleep_besideLanes {was : State} {s : State} {l : Nat} {goal : Nat} (h : s.besideLanes = was) : (State.rxAsleep s l goal).besideLanes = was := by
  unfold State.rxAsleep
  repeat' first | (with_reducible first | assumption | extract_lets | apply State.endCause_besideLanes | apply State.setLstat_besideLanes | apply State.wr_besideLanes | refine besideLanes_ite (fun _ => ?_) fun _ => ?_)
theorem State.requestSleep_besideLanes {was : State} {s : State} {l : Nat} {tx : Bool} {goal : Nat} (h : s.besideLanes = was) : (State.requestSleep s l tx goal).besideLanes = was := by
  unfold State.requestSleep
  repeat' first | (with_reducible first | assumption | extract_lets | apply State.modLane_besideLanes | apply State.refreshLane_besideLanes | apply State.rxAsleep_besideLanes | refine besideLanes_ite (fun _ => ?_) fun _ => ?_)
theorem State.refreshQuad_besideLanes {was : State} {s : State} {quad : Nat} (h : s.besideLanes = was) : (State.refreshQuad s quad).besideLanes = was := by
  unfold State.refreshQuad
  repeat' first | (with_reducible first | assumption | extract_lets | apply State.refreshLane_besideLanes | refine besideLanes_foldl ?_ fun _ _ _ => ?_)

end Sys2Proof.Machine
end

