-- ==== Sys2Proof/Laws/FrameMedia.lean ====
section
/-!
SUPPORT. What `State.besideMedia` shows, the operations behind the events of its group leave as it is.
-/
namespace Sys2Proof.Machine
open Sys2Proof

theorem besideMedia_keep {s : State} {was} {regs flt aud mvw enc} (h : s.besideMedia = was) : (State.mk s.pending s.now s.fresh s.variant regs s.ready s.isolated flt s.pwr s.boot s.cyx s.fab s.eph s.lan s.net aud mvw enc s.cru s.tim s.ref s.mem s.vlt s.twn s.sent).besideMedia = was := h
theorem besideMedia_ite {c : Prop} [Decidable c] {a b was : State} (ha : c → a.besideMedia = was) (hb : ¬c → b.besideMedia = was) : (if c then a else b).besideMedia = was := by
  split
  · exact ha ‹_›
  · exact hb ‹_›
theorem besideMedia_foldl {α : Type} {f : State → α → State} {l : List α} {s was : State} (hs : s.besideMedia = was) (hf : ∀ t a, t.besideMedia = was → (f t a).besideMedia = was) : (l.foldl f s).besideMedia = was := by
  induction l generalizing s with
  | nil => exact hs
  | cons x l ih => exact ih (hf s x hs)
theorem State.wr_besideMedia {s was : State} {f : FieldRef} {v : Nat} (h : s.besideMedia = was) : (s.wr f v).besideMedia = was := h
theorem State.wrInt_besideMedia {s was : State} {f : FieldRef} {v : Int} (h : s.besideMedia = was) : (s.wrInt f v).besideMedia = was := h
theorem State.bump_besideMedia {s was : State} {f : FieldRef} {v : Nat} (h : s.besideMedia = was) : (s.bump f v).besideMedia = was := h
theorem State.bumpSat_besideMedia {s was : State} {f : FieldRef} {v : Nat} (h : s.besideMedia = was) : (s.bumpSat f v).besideMedia = was := h
theorem State.wr64_besideMedia {s was : State} {lo hi : FieldRef} {v : Nat} (h : s.besideMedia = was) : (s.wr64 lo hi v).besideMedia = was := h
theorem State.setBit_besideMedia {s was : State} {f : FieldRef} {v : Nat} (h : s.besideMedia = was) : (s.setBit f v).besideMedia = was := by
  simpa [State.besideMedia] using h
theorem State.clrBit_besideMedia {s was : State} {f : FieldRef} {v : Nat} (h : s.besideMedia = was) : (s.clrBit f v).besideMedia = was := by
  simpa [State.besideMedia] using h
theorem State.raiseWithin_besideMedia {s was : State} {gap code src obj : Nat} (h : s.besideMedia = was) : (s.raiseWithin gap code src obj).besideMedia = was := by
  simpa [State.besideMedia] using h
theorem State.raise_besideMedia {s was : State} {code src obj : Nat} (h : s.besideMedia = was) : (s.raise code src obj).besideMedia = was := by
  simpa [State.besideMedia] using h
theorem State.endCause_besideMedia {s was : State} {code src obj : Nat} (h : s.besideMedia = was) : (s.endCause code src obj).besideMedia = was := h
theorem besideMedia_fst {α : Type} {p : State × α} {s was : State} {a : α} (e : p = (s, a)) (h : p.1.besideMedia = was) : s.besideMedia = was := by
  subst e; exact h
theorem besideMedia_snd {α : Type} {p : α × State} {s was : State} {a : α} (e : p = (a, s)) (h : p.2.besideMedia = was) : s.besideMedia = was := by
  subst e; exact h
theorem State.putRate_besideMedia {was : State} {s : State} {x : RateRec} (h : s.besideMedia = was) : (State.putRate s x).besideMedia = was := by
  unfold State.putRate
  repeat' first | (with_reducible first | assumption | extract_lets | apply besideMedia_keep)
theorem State.measureRate_besideMedia {was : State} {s : State} {kind : Nat} {i : Nat} (h : s.besideMedia = was) : (State.measureRate s kind i).besideMedia = was := by
  unfold State.measureRate
  repeat' first | (with_reducible first | assumption | extract_lets | apply State.endCause_besideMedia | apply State.putRate_besideMedia | apply State.raise_besideMedia | refine besideMedia_ite (fun _ => ?_) fun _ => ?_)
theorem State.startClocks_besideMedia {was : State} {s : State} (h : s.besideMedia = was) : (State.startClocks s).besideMedia = was := by
  unfold State.startClocks
  with_reducible repeat' first | assumption | extract_lets | apply State.wr_besideMedia | apply besideMedia_keep
theorem State.headEvent_besideMedia {was : State} {s : State} {h : ℕ} {code : ℕ} {obj : ℕ} (hi : s.besideMedia = was) : (State.headEvent s h code obj).besideMedia = was := by
  unfold State.headEvent
  with_reducible repeat' first | assumption | apply State.raiseWithin_besideMedia
theorem State.putHead_besideMedia {was : State} {s : State} {x : Head} (h : s.besideMedia = was) : (State.putHead s x).besideMedia = was := by
  unfold State.putHead
  with_reducible repeat' first | assumption | extract_lets | apply besideMedia_keep
theorem State.composeBand_besideMedia {was : State} {s : State} {h : ℕ} {f : ℕ} {b : ℕ} (hi : s.besideMedia = was) : (State.composeBand s h f b).besideMedia = was := by
  unfold State.composeBand
  with_reducible repeat' first | assumption | extract_lets | apply State.headEvent_besideMedia | apply State.wr_besideMedia | apply State.putHead_besideMedia | refine besideMedia_foldl ?_ fun _ _ _ => ?_
theorem State.putEnc_besideMedia {was : State} {s : State} {x : EncChan} (h : s.besideMedia = was) : (State.putEnc s x).besideMedia = was := by
  unfold State.putEnc
  with_reducible repeat' first | assumption | extract_lets | refine besideMedia_ite (fun _ => ?_) fun _ => ?_ | apply besideMedia_keep
theorem State.startRow_besideMedia {was : State} {s : State} {x : EncChan} (h : s.besideMedia = was) : (State.startRow s x).besideMedia = was := by
  unfold State.startRow
  with_reducible repeat' first | assumption | extract_lets | apply State.putEnc_besideMedia | refine besideMedia_ite (fun _ => ?_) fun _ => ?_
theorem State.encRegs_besideMedia {was : State} {s : State} (h : s.besideMedia = was) : (State.encRegs s).besideMedia = was := by
  unfold State.encRegs
  with_reducible repeat' first | assumption | extract_lets | apply State.wr_besideMedia
theorem State.showBook_besideMedia {was : State} {s : State} {h : Nat} (hi : s.besideMedia = was) : (State.showBook s h).besideMedia = was := by
  unfold State.showBook
  repeat' first | (with_reducible first | assumption | extract_lets | apply State.wr_besideMedia | refine besideMedia_ite (fun _ => ?_) fun _ => ?_ ) | split
theorem State.ratesDone_besideMedia {was : State} {s : State} {x : EncChan} {f : Nat} (h : s.besideMedia = was) (hr : x.rates = []) : (State.ratesDone s x f).besideMedia = was := by
  unfold State.ratesDone EncChan.ratesDue
  rw [hr]
  exact h
theorem State.startPeriod_besideMedia {was : State} {s : State} {x : EncChan} (h : s.besideMedia = was) (hr : x.rates = []) : (State.startPeriod s x).besideMedia = was := by
  unfold State.startPeriod
  with_reducible repeat' first | assumption | extract_lets | apply State.encRegs_besideMedia | apply State.endCause_besideMedia | apply State.putEnc_besideMedia | apply State.ratesDone_besideMedia | apply State.showBook_besideMedia | apply State.wr_besideMedia | refine besideMedia_ite (fun _ => ?_) fun _ => ?_ | refine besideMedia_foldl ?_ fun _ _ _ => ?_

/-! A period tells the sessions whose rates begin with it (R54, R365). -/

theorem untoldMedia_of {s t : State} {was : State} (e : t.besideMedia = s.besideMedia) (h : untold State.besideMedia s = was) : untold State.besideMedia t = was :=
  (congrArg (untold id) e).trans h
theorem untoldMedia_foldl {α : Type} {f : State → α → State} {l : List α} {s was : State} (hs : untold State.besideMedia s = was) (hf : ∀ t a, untold State.besideMedia t = was → untold State.besideMedia (f t a) = was) : untold State.besideMedia (l.foldl f s) = was := by
  induction l generalizing s with
  | nil => exact hs
  | cons x l ih => exact ih (hf s x hs)
theorem State.endWait_untoldMedia {was : State} {s : State} {w : Waits} {status : Nat} (h : untold State.besideMedia s = was) : untold State.besideMedia (s.endWait w status) = was :=
  (congrArg (untold State.besideMedia) (State.endWait_besideTold (was := s.besideTold) rfl)).trans h
theorem State.ratesDone_untoldMedia {was : State} {s : State} {x : EncChan} {f : Nat} (h : untold State.besideMedia s = was) : untold State.besideMedia (s.ratesDone x f) = was :=
  untoldMedia_foldl h fun _ _ ht => State.endWait_untoldMedia ht
theorem State.startPeriod_untoldMedia {was : State} {s : State} {x : EncChan} (h : untold State.besideMedia s = was) : untold State.besideMedia (s.startPeriod x) = was := by
  unfold State.startPeriod
  extract_lets p swap es left y z s1 s2
  have h1 : untold State.besideMedia s1 = was := State.ratesDone_untoldMedia
    (untoldMedia_of (State.wr_besideMedia (State.showBook_besideMedia (State.putEnc_besideMedia rfl))) h)
  have h2 : untold State.besideMedia s2 = was := untoldMedia_foldl h1 fun _ _ ht => untoldMedia_of (State.endCause_besideMedia rfl) ht
  exact untoldMedia_of (State.encRegs_besideMedia (besideMedia_ite (fun _ => State.wr_besideMedia rfl) fun _ => rfl)) h2

end Sys2Proof.Machine
end

