-- ==== Sys2Proof/Laws/FrameNet.lean ====
section
/-!
SUPPORT. What `State.besideNet` shows, the operations behind the events of its group leave as it is, but for the message that ends a
TIM_RESTEP which is abandoned (R376).
-/
namespace Sys2Proof.Machine
open Sys2Proof

/-- What an event of the group has changed since `u`: nothing that the view shows while it is `quiet`, and otherwise nothing but what a
message to a session changes. -/
structure NetFrame (quiet : Prop) (u s : State) : Prop where
  silent : quiet → s.besideNet = u.besideNet
  kept : u.tim.stepCmd = none → s.tim.stepCmd = none
  told : untold State.besideNet s = untold State.besideNet u
theorem netFrame_keep {q : Prop} {u₀ s : State} {regs flt net ref sent rates outbox sources} (h : NetFrame q u₀ s) : NetFrame q u₀ (State.mk s.pending s.now s.fresh s.variant regs s.ready s.isolated flt s.pwr s.boot { s.cyx with outbox := outbox } { s.fab with sources := sources } s.eph s.lan net { s.aud with rates := rates } s.mvw s.enc s.cru s.tim ref s.mem s.vlt s.twn sent) := ⟨h.1, h.2, h.3⟩
theorem netFrame_ite {q : Prop} {c : Prop} [Decidable c] {u₀ a b : State} (ha : c → NetFrame q u₀ a) (hb : ¬c → NetFrame q u₀ b) : NetFrame q u₀ (if c then a else b) := by
  split
  · exact ha ‹_›
  · exact hb ‹_›
theorem netFrame_foldl {q : Prop} {α : Type} {f : State → α → State} {l : List α} {u₀ s : State} (hs : NetFrame q u₀ s) (hf : ∀ t a, NetFrame q u₀ t → NetFrame q u₀ (f t a)) : NetFrame q u₀ (l.foldl f s) := by
  induction l generalizing s with
  | nil => exact hs
  | cons x l ih => exact ih (hf s x hs)
theorem State.wr_netFrame {q : Prop} {u₀ s : State} {f : FieldRef} {v : Nat} (h : NetFrame q u₀ s) : NetFrame q u₀ (s.wr f v) := ⟨h.1, h.2, h.3⟩
theorem State.wrInt_netFrame {q : Prop} {u₀ s : State} {f : FieldRef} {v : Int} (h : NetFrame q u₀ s) : NetFrame q u₀ (s.wrInt f v) := ⟨h.1, h.2, h.3⟩
theorem State.bump_netFrame {q : Prop} {u₀ s : State} {f : FieldRef} {v : Nat} (h : NetFrame q u₀ s) : NetFrame q u₀ (s.bump f v) := ⟨h.1, h.2, h.3⟩
theorem State.bumpSat_netFrame {q : Prop} {u₀ s : State} {f : FieldRef} {v : Nat} (h : NetFrame q u₀ s) : NetFrame q u₀ (s.bumpSat f v) := ⟨h.1, h.2, h.3⟩
theorem State.wr64_netFrame {q : Prop} {u₀ s : State} {lo hi : FieldRef} {v : Nat} (h : NetFrame q u₀ s) : NetFrame q u₀ (s.wr64 lo hi v) := ⟨h.1, h.2, h.3⟩
theorem State.endCause_netFrame {q : Prop} {u₀ s : State} {code src obj : Nat} (h : NetFrame q u₀ s) : NetFrame q u₀ (s.endCause code src obj) := ⟨h.1, h.2, h.3⟩
theorem State.setBit_netFrame {q : Prop} {u₀ s : State} {f : FieldRef} {v : Nat} (h : NetFrame q u₀ s) : NetFrame q u₀ (s.setBit f v) := by
  exact ⟨by simpa [State.besideNet] using h.1, by simpa using h.2, by simpa [untold, State.besideNet] using h.3⟩
theorem State.clrBit_netFrame {q : Prop} {u₀ s : State} {f : FieldRef} {v : Nat} (h : NetFrame q u₀ s) : NetFrame q u₀ (s.clrBit f v) := by
  exact ⟨by simpa [State.besideNet] using h.1, by simpa using h.2, by simpa [untold, State.besideNet] using h.3⟩
theorem State.raiseWithin_netFrame {q : Prop} {u₀ s : State} {gap code src obj : Nat} (h : NetFrame q u₀ s) : NetFrame q u₀ (s.raiseWithin gap code src obj) := by
  exact ⟨by simpa [State.besideNet] using h.1, by simpa using h.2, by simpa [untold, State.besideNet] using h.3⟩
theorem State.raise_netFrame {q : Prop} {u₀ s : State} {code src obj : Nat} (h : NetFrame q u₀ s) : NetFrame q u₀ (s.raise code src obj) := by
  exact ⟨by simpa [State.besideNet] using h.1, by simpa using h.2, by simpa [untold, State.besideNet] using h.3⟩
theorem netFrame_fst {q : Prop} {α : Type} {p : State × α} {u₀ s : State} {a : α} (e : p = (s, a)) (h : NetFrame q u₀ p.1) : NetFrame q u₀ s := by
  subst e; exact h
theorem netFrame_snd {q : Prop} {α : Type} {p : α × State} {u₀ s : State} {a : α} (e : p = (a, s)) (h : NetFrame q u₀ p.2) : NetFrame q u₀ s := by
  subst e; exact h
theorem State.modTim_netFrame {q : Prop} {u₀ s : State} {f : TimState → TimState} (h : NetFrame q u₀ s) (hf : s.tim.stepCmd = none → (f s.tim).stepCmd = none) : NetFrame q u₀ (s.modTim f) :=
  ⟨h.1, fun hu => hf (h.2 hu), h.3⟩
theorem State.finish_netFrame {q : Prop} {u₀ s : State} {session tag status entry : Nat} (h : NetFrame q u₀ s) (hq : ¬q) (hs : u₀.tim.stepCmd ≠ none) : NetFrame q u₀ (s.finish session tag status entry) :=
  ⟨fun hn => absurd hn hq, fun hn => absurd hn hs, (congrArg (untold State.besideNet) (State.finish_besideTold (was := s.besideTold) rfl)).trans h.3⟩
theorem State.abandonStep_netFrame {q : Prop} {u₀ s : State} (h : NetFrame q u₀ s) (hq : q → u₀.tim.stepCmd = none) : NetFrame q u₀ s.abandonStep := by
  have h1 : NetFrame q u₀ (s.modTim fun t => { t with stepAt := none, stepCmd := none }) := State.modTim_netFrame h fun _ => rfl
  unfold State.abandonStep
  extract_lets s1
  split
  · rename_i c hc
    have hs : u₀.tim.stepCmd ≠ none := fun hu => by simp [h.2 hu] at hc
    split
    · exact State.finish_netFrame h1 (fun hu => hs (hq hu)) hs
    · exact h1
  · exact h1
theorem State.putNetPort_netFrame {q : Prop} {u₀ : State} {s : State} {x : PortRec} (h : NetFrame q u₀ s) : NetFrame q u₀ (State.putNetPort s x) := by
  unfold State.putNetPort
  with_reducible repeat' first | assumption | extract_lets | apply State.wr_netFrame | apply netFrame_keep
theorem State.modNetPort_netFrame {q : Prop} {u₀ : State} {s : State} {p : Nat} {f : PortRec → PortRec} (h : NetFrame q u₀ s) : NetFrame q u₀ (State.modNetPort s p f) := by
  unfold State.modNetPort
  with_reducible repeat' first | assumption | extract_lets | apply State.putNetPort_netFrame
theorem State.stormCauses_netFrame {q : Prop} {u₀ : State} {s : State} {p : Nat} (h : NetFrame q u₀ s) : NetFrame q u₀ (State.stormCauses s p) := by
  unfold State.stormCauses
  with_reducible repeat' first | assumption | extract_lets | apply State.endCause_netFrame | refine netFrame_ite (fun _ => ?_) fun _ => ?_ | refine netFrame_foldl ?_ fun _ _ _ => ?_
theorem State.takePause_netFrame {q : Prop} {u₀ : State} {s : State} {p : Nat} {b : List Byte} (h : NetFrame q u₀ s) : NetFrame q u₀ (State.takePause s p b) := by
  unfold State.takePause
  with_reducible repeat' first | assumption | extract_lets | apply State.modNetPort_netFrame | apply State.stormCauses_netFrame | refine netFrame_ite (fun _ => ?_) fun _ => ?_ | refine netFrame_foldl ?_ fun _ _ _ => ?_
theorem State.countPause_netFrame {q : Prop} {u₀ : State} {s : State} {p : Nat} {b : List Byte} (h : NetFrame q u₀ s) : NetFrame q u₀ (State.countPause s p b) := by
  unfold State.countPause
  with_reducible repeat' first | assumption | extract_lets | apply State.bump_netFrame | apply State.takePause_netFrame
theorem State.portLoops_netFrame {q : Prop} {u₀ : State} {s : State} {p : Nat} {bytes : List Byte} (h : NetFrame q u₀ s) : NetFrame q u₀ (State.portLoops s p bytes) := by
  unfold State.portLoops
  with_reducible repeat' first | assumption | extract_lets | refine netFrame_ite (fun _ => ?_) fun _ => ?_ | apply netFrame_keep
theorem State.macTake_netFrame {q : Prop} {u₀ : State} {s : State} {p : Nat} {b : List Byte} {full : Bool} (h : NetFrame q u₀ s) : NetFrame q u₀ (State.macTake s p b full).1 := by
  unfold State.macTake
  repeat' first | (with_reducible first | assumption | extract_lets | apply State.bump_netFrame | apply State.portLoops_netFrame | refine netFrame_ite (fun _ => ?_) fun _ => ?_) | split | (with_reducible first | dsimp +zetaDelta only)
theorem State.joinQueue_netFrame {q : Prop} {u₀ : State} {s : State} {p : Nat} (h : NetFrame q u₀ s) : NetFrame q u₀ (State.joinQueue s p) := by
  unfold State.joinQueue
  with_reducible repeat' first | assumption | extract_lets | apply State.modNetPort_netFrame | refine netFrame_ite (fun _ => ?_) fun _ => ?_ | refine netFrame_fst (by assumption) ?_ | refine netFrame_snd (by assumption) ?_ | apply netFrame_keep
theorem State.queueFrame_netFrame {q : Prop} {u₀ : State} {s : State} {p : Nat} {f : TxFrame} (h : NetFrame q u₀ s) : NetFrame q u₀ (State.queueFrame s p f) := by
  unfold State.queueFrame
  with_reducible repeat' first | assumption | extract_lets | apply State.joinQueue_netFrame | apply State.modNetPort_netFrame | apply netFrame_keep
theorem State.putFlow_netFrame {q : Prop} {u₀ : State} {s : State} {f : Flow} (h : NetFrame q u₀ s) : NetFrame q u₀ (State.putFlow s f) := by
  unfold State.putFlow
  with_reducible repeat' first | assumption | extract_lets | refine netFrame_ite (fun _ => ?_) fun _ => ?_ | apply netFrame_keep
theorem State.sendReport_netFrame {q : Prop} {u₀ : State} {s : State} {f : Flow} {g : FlowLeg} {type : Nat} (h : NetFrame q u₀ s) : NetFrame q u₀ (State.sendReport s f g type) := by
  unfold State.sendReport
  with_reducible repeat' first | assumption | extract_lets | apply State.queueFrame_netFrame | refine netFrame_ite (fun _ => ?_) fun _ => ?_
theorem State.putAssoc_netFrame {q : Prop} {u₀ : State} {s : State} {p : Nat} {a : SecAssoc} (h : NetFrame q u₀ s) : NetFrame q u₀ (State.putAssoc s p a) := by
  unfold State.putAssoc
  with_reducible repeat' first | assumption | extract_lets | apply State.modNetPort_netFrame | refine netFrame_ite (fun _ => ?_) fun _ => ?_ | apply netFrame_keep
theorem State.macsecTake_netFrame {q : Prop} {u₀ : State} {s : State} {p : Nat} {b : List Byte} (h : NetFrame q u₀ s) : NetFrame q u₀ (State.macsecTake s p b).1 := by
  unfold State.macsecTake
  dsimp only
  repeat' first | (with_reducible first | assumption | extract_lets | apply State.raise_netFrame | apply State.bump_netFrame | apply State.putAssoc_netFrame | refine netFrame_ite (fun _ => ?_) fun _ => ?_) | split
theorem State.flowEvent_netFrame {q : Prop} {u₀ : State} {s : State} {f : Flow} {code : Nat} {leg : Nat} (h : NetFrame q u₀ s) : NetFrame q u₀ (State.flowEvent s f code leg) := by
  unfold State.flowEvent
  with_reducible repeat' first | assumption | extract_lets | apply State.raiseWithin_netFrame
theorem State.putSource_netFrame {q : Prop} {u₀ : State} {s : State} {x : SourceRec} (h : NetFrame q u₀ s) : NetFrame q u₀ (State.putSource s x) := by
  unfold State.putSource
  with_reducible repeat' first | assumption | extract_lets | apply netFrame_keep
theorem State.slotIdle_netFrame {q : Prop} {u₀ : State} {s : State} {k : Nat} (h : NetFrame q u₀ s) : NetFrame q u₀ (State.slotIdle s k) := by
  unfold State.slotIdle
  with_reducible repeat' first | assumption | extract_lets | apply State.putSource_netFrame | apply netFrame_keep
theorem State.flowIdle_netFrame {q : Prop} {u₀ : State} {s : State} {f : Flow} (h : NetFrame q u₀ s) : NetFrame q u₀ (State.flowIdle s f) := by
  unfold State.flowIdle
  with_reducible repeat' first | assumption | extract_lets | apply State.slotIdle_netFrame | refine netFrame_ite (fun _ => ?_) fun _ => ?_ | refine netFrame_foldl ?_ fun _ _ _ => ?_
theorem State.putRate_netFrame {q : Prop} {u₀ : State} {s : State} {x : RateRec} (h : NetFrame q u₀ s) : NetFrame q u₀ (State.putRate s x) := by
  unfold State.putRate
  with_reducible repeat' first | assumption | extract_lets | apply netFrame_keep
theorem State.noteSamples_netFrame {q : Prop} {u₀ : State} {s : State} {kind : Nat} {i : Nat} {n : Nat} (h : NetFrame q u₀ s) : NetFrame q u₀ (State.noteSamples s kind i n) := by
  unfold State.noteSamples
  with_reducible repeat' first | assumption | extract_lets | apply State.putRate_netFrame | apply netFrame_keep
theorem State.flowAccept_netFrame {q : Prop} {u₀ : State} {s : State} {f : Flow} {leg : Nat} {n : Nat} {ts : Nat} {bad : Bool} {m : Media} (h : NetFrame q u₀ s) : NetFrame q u₀ (State.flowAccept s f leg n ts bad m) := by
  unfold State.flowAccept
  repeat' first | (with_reducible first | assumption | extract_lets | apply State.endCause_netFrame | apply State.flowEvent_netFrame | apply State.noteSamples_netFrame | apply State.putFlow_netFrame | refine netFrame_ite (fun _ => ?_) fun _ => ?_ | refine netFrame_foldl ?_ fun _ _ _ => ?_ | refine netFrame_fst (by assumption) ?_ | refine netFrame_snd (by assumption) ?_ | apply netFrame_keep) | split
theorem State.flowCopy_netFrame {q : Prop} {u₀ : State} {s : State} {f : Flow} {leg : Nat} {n : Nat} {m : Media} (h : NetFrame q u₀ s) : NetFrame q u₀ (State.flowCopy s f leg n m) := by
  unfold State.flowCopy
  repeat' first | (with_reducible first | assumption | extract_lets | apply State.endCause_netFrame | apply State.putFlow_netFrame | refine netFrame_ite (fun _ => ?_) fun _ => ?_ | refine netFrame_foldl ?_ fun _ _ _ => ?_ | apply netFrame_keep) | split
theorem State.flowTake_netFrame {q : Prop} {u₀ : State} {s : State} {f : Flow} {leg : Nat} {u : List Byte} {given : Given} (h : NetFrame q u₀ s) : NetFrame q u₀ (State.flowTake s f leg u given) := by
  unfold State.flowTake
  with_reducible repeat' first | assumption | extract_lets | apply State.flowAccept_netFrame | apply State.flowCopy_netFrame | apply State.flowEvent_netFrame | apply State.putFlow_netFrame | refine netFrame_ite (fun _ => ?_) fun _ => ?_ | apply netFrame_keep
theorem State.dropStale_netFrame {q : Prop} {u₀ : State} {s : State} {f : Nat} (h : NetFrame q u₀ s) : NetFrame q u₀ (State.dropStale s f) := by
  unfold State.dropStale
  repeat' first | (with_reducible first | assumption | extract_lets | apply State.modNetPort_netFrame | refine netFrame_ite (fun _ => ?_) fun _ => ?_ | refine netFrame_foldl ?_ fun _ _ _ => ?_ | apply netFrame_keep) | split
theorem State.moduleWrite_netFrame {q : Prop} {u₀ : State} {s : State} {m : Nat} {offset : Nat} {data : Nat} (h : NetFrame q u₀ s) : NetFrame q u₀ (State.moduleWrite s m offset data) := by
  unfold State.moduleWrite
  with_reducible repeat' first | assumption | extract_lets | apply netFrame_keep
theorem State.autoInit_netFrame {q : Prop} {u₀ : State} {s : State} {m : Nat} (h : NetFrame q u₀ s) : NetFrame q u₀ (State.autoInit s m) := by
  unfold State.autoInit
  with_reducible repeat' first | assumption | extract_lets | apply State.moduleWrite_netFrame | refine netFrame_ite (fun _ => ?_) fun _ => ?_
theorem State.putAccount_netFrame {q : Prop} {u₀ : State} {s : State} {a : ModuleAccount} (h : NetFrame q u₀ s) : NetFrame q u₀ (State.putAccount s a) := by
  unfold State.putAccount
  repeat' first | (with_reducible first | assumption | extract_lets | apply State.raise_netFrame | refine netFrame_ite (fun _ => ?_) fun _ => ?_ | refine netFrame_foldl ?_ fun _ _ _ => ?_ | apply netFrame_keep) | split
theorem State.putBus_netFrame {q : Prop} {u₀ : State} {s : State} {x : ModuleBus} (h : NetFrame q u₀ s) : NetFrame q u₀ (State.putBus s x) := by
  unfold State.putBus
  with_reducible repeat' first | assumption | extract_lets | apply netFrame_keep
theorem State.moduleFound_netFrame {q : Prop} {u₀ : State} {s : State} {m : Nat} {r : ModuleRead} (h : NetFrame q u₀ s) : NetFrame q u₀ (State.moduleFound s m r) := by
  unfold State.moduleFound
  repeat' first | (with_reducible first | assumption | extract_lets | apply State.autoInit_netFrame | apply State.moduleWrite_netFrame | apply State.putAccount_netFrame | apply State.putBus_netFrame | apply State.raise_netFrame | refine netFrame_ite (fun _ => ?_) fun _ => ?_) | split | (with_reducible first | apply netFrame_keep)
theorem State.moduleGone_netFrame {q : Prop} {u₀ : State} {s : State} {m : Nat} (h : NetFrame q u₀ s) : NetFrame q u₀ (State.moduleGone s m) := by
  unfold State.moduleGone
  repeat' first | (with_reducible first | assumption | extract_lets | apply State.endCause_netFrame | apply State.putAccount_netFrame | apply State.putBus_netFrame | apply State.raise_netFrame | refine netFrame_ite (fun _ => ?_) fun _ => ?_) | split | (with_reducible first | apply netFrame_keep)
theorem State.pollBus_netFrame {q : Prop} {u₀ : State} {s : State} {m : Nat} {r : ModuleRead} (h : NetFrame q u₀ s) : NetFrame q u₀ (State.pollBus s m r) := by
  unfold State.pollBus
  repeat' first | (with_reducible first | assumption | extract_lets | apply State.moduleFound_netFrame | apply State.moduleGone_netFrame | apply State.raise_netFrame | refine netFrame_ite (fun _ => ?_) fun _ => ?_) | split
theorem State.pollModules_netFrame {q : Prop} {u₀ : State} {s : State} {reads : List ModuleRead} (h : NetFrame q u₀ s) : NetFrame q u₀ (State.pollModules s reads) := by
  unfold State.pollModules
  with_reducible repeat' first | assumption | extract_lets | apply State.pollBus_netFrame | refine netFrame_foldl ?_ fun _ _ _ => ?_
theorem State.lifeSample_netFrame {q : Prop} {u₀ : State} {s : State} {m : Nat} {temp : Int} {ready : Bool} {disables : Nat} (h : NetFrame q u₀ s) : NetFrame q u₀ (State.lifeSample s m temp ready disables) := by
  unfold State.lifeSample
  repeat' first | (with_reducible first | assumption | extract_lets | apply State.putAccount_netFrame | apply State.putBus_netFrame | apply State.raise_netFrame | refine netFrame_ite (fun _ => ?_) fun _ => ?_) | split | (with_reducible first | apply netFrame_keep)
theorem State.modPtp_netFrame {q : Prop} {u₀ : State} {s : State} {d : Nat} {f : PtpDomain → PtpDomain} (h : NetFrame q u₀ s) : NetFrame q u₀ (State.modPtp s d f) := by
  unfold State.modPtp
  repeat' first | (with_reducible first | assumption | extract_lets | refine State.modTim_netFrame ?_ fun hx => hx | refine netFrame_ite (fun _ => ?_) fun _ => ?_) | split | (with_reducible first | apply netFrame_keep) | (with_reducible first | dsimp +zetaDelta only)
theorem State.putRelayLink_netFrame {q : Prop} {u₀ : State} {s : State} {x : RelayLink} (h : NetFrame q u₀ s) : NetFrame q u₀ (State.putRelayLink s x) := by
  unfold State.putRelayLink
  with_reducible repeat' first | assumption | extract_lets | refine State.modTim_netFrame ?_ fun hx => hx | apply netFrame_keep
theorem State.addDelay_netFrame {q : Prop} {u₀ : State} {s : State} {d : Nat} {v : Int} (h : NetFrame q u₀ s) : NetFrame q u₀ (State.addDelay s d v) := by
  unfold State.addDelay
  with_reducible repeat' first | assumption | extract_lets | apply State.modPtp_netFrame | apply netFrame_keep
theorem State.delayFor_netFrame {q : Prop} {u₀ : State} {s : State} {d : Nat} {p : Nat} {b : List Byte} {o : Nat} (h : NetFrame q u₀ s) : NetFrame q u₀ (State.delayFor s d p b o) := by
  unfold State.delayFor
  repeat' first | (with_reducible first | assumption | extract_lets | apply State.addDelay_netFrame | apply State.modPtp_netFrame | refine netFrame_ite (fun _ => ?_) fun _ => ?_) | split | (with_reducible first | apply netFrame_keep)
theorem State.delayForRelay_netFrame {q : Prop} {u₀ : State} {s : State} {p : Nat} {b : List Byte} {o : Nat} (h : NetFrame q u₀ s) : NetFrame q u₀ (State.delayForRelay s p b o) := by
  unfold State.delayForRelay
  repeat' first | (with_reducible first | assumption | extract_lets | apply State.putRelayLink_netFrame) | split | (with_reducible first | apply netFrame_keep)
theorem State.frameTaken_netFrame {q : Prop} {u₀ : State} {s : State} {p : Nat} {bytes : List Byte} (h : NetFrame q u₀ s) : NetFrame q u₀ (State.frameTaken s p bytes).1 := by
  unfold State.frameTaken
  repeat' first | (with_reducible first | assumption | extract_lets | apply State.macTake_netFrame | apply State.macsecTake_netFrame | refine netFrame_ite (fun _ => ?_) fun _ => ?_) | split
theorem State.frameIn_netFrame {q : Prop} {u₀ : State} {s : State} {p : Nat} {bytes : List Byte} (h : NetFrame q u₀ s) : NetFrame q u₀ (State.frameIn s p bytes).1 := by
  unfold State.frameIn
  with_reducible repeat' first | assumption | extract_lets | apply State.frameTaken_netFrame
theorem State.modRef_netFrame {q : Prop} {u₀ : State} {s : State} {f : RefState → RefState} (h : NetFrame q u₀ s) : NetFrame q u₀ (State.modRef s f) := by
  unfold State.modRef
  with_reducible repeat' first | assumption | extract_lets | apply netFrame_keep
theorem State.modFp_netFrame {q : Prop} {u₀ : State} {s : State} {p : Nat} {f : FpOut → FpOut} (h : NetFrame q u₀ s) : NetFrame q u₀ (State.modFp s p f) := by
  unfold State.modFp
  with_reducible repeat' first | assumption | extract_lets | apply State.modRef_netFrame | apply netFrame_keep
theorem State.flywheel_netFrame {q : Prop} {u₀ : State} {s : State} {code : Nat} {broken : Bool} (h : NetFrame q u₀ s) : NetFrame q u₀ (State.flywheel s code broken) := by
  unfold State.flywheel
  with_reducible repeat' first | assumption | extract_lets | apply State.modFp_netFrame | apply State.raise_netFrame | apply State.wr_netFrame | refine netFrame_foldl ?_ fun _ _ _ => ?_ | apply netFrame_keep
theorem State.modRefIn_netFrame {q : Prop} {u₀ : State} {s : State} {i : Nat} {f : RefInput → RefInput} (h : NetFrame q u₀ s) : NetFrame q u₀ (State.modRefIn s i f) := by
  unfold State.modRefIn
  with_reducible repeat' first | assumption | extract_lets | apply State.modRef_netFrame | apply netFrame_keep
theorem State.disqualify_netFrame {q : Prop} {u₀ : State} {s : State} {i : Nat} {lost : Bool} (h : NetFrame q u₀ s) (hq : q → u₀.tim.stepCmd = none) : NetFrame q u₀ (State.disqualify s i lost) := by
  unfold State.disqualify
  with_reducible repeat' first | assumption | extract_lets | apply State.abandonStep_netFrame | apply State.flywheel_netFrame | apply State.modRefIn_netFrame | apply State.raise_netFrame | apply State.wr_netFrame | refine netFrame_ite (fun _ => ?_) fun _ => ?_ | apply netFrame_keep
theorem State.refCheck_netFrame {q : Prop} {u₀ : State} {s : State} {i : Nat} (h : NetFrame q u₀ s) (hq : q → u₀.tim.stepCmd = none) : NetFrame q u₀ (State.refCheck s i) := by
  unfold State.refCheck
  with_reducible repeat' first | assumption | extract_lets | apply State.disqualify_netFrame | apply State.modRefIn_netFrame | refine netFrame_ite (fun _ => ?_) fun _ => ?_ | apply netFrame_keep
theorem State.ptpCheck_netFrame {q : Prop} {u₀ : State} {s : State} {d : Nat} (h : NetFrame q u₀ s) (hq : q → u₀.tim.stepCmd = none) : NetFrame q u₀ (State.ptpCheck s d) := by
  unfold State.ptpCheck
  repeat' first | (with_reducible first | assumption | extract_lets | apply State.refCheck_netFrame) | split
theorem State.ptpBack_netFrame {q : Prop} {u₀ : State} {s : State} {d : Nat} (h : NetFrame q u₀ s) (hq : q → u₀.tim.stepCmd = none) : NetFrame q u₀ (State.ptpBack s d) := by
  unfold State.ptpBack
  with_reducible repeat' first | assumption | extract_lets | apply State.endCause_netFrame | apply State.modPtp_netFrame | apply State.ptpCheck_netFrame | refine netFrame_ite (fun _ => ?_) fun _ => ?_ | apply netFrame_keep
theorem State.setY_netFrame {q : Prop} {u₀ : State} {s : State} {y : Int} (h : NetFrame q u₀ s) : NetFrame q u₀ (State.setY s y) := by
  unfold State.setY
  with_reducible repeat' first | assumption | extract_lets | apply State.modRef_netFrame | apply State.wrInt_netFrame | apply netFrame_keep
theorem State.slewTo_netFrame {q : Prop} {u₀ : State} {s : State} {target : Int} {tau : Nat} (h : NetFrame q u₀ s) : NetFrame q u₀ (State.slewTo s target tau) := by
  unfold State.slewTo
  with_reducible repeat' first | assumption | extract_lets | apply State.modRef_netFrame | apply State.setY_netFrame | apply netFrame_keep
theorem State.loopStep_netFrame {q : Prop} {u₀ : State} {s : State} {i : Nat} {e : Int} {tau : Nat} (h : NetFrame q u₀ s) : NetFrame q u₀ (State.loopStep s i e tau) := by
  unfold State.loopStep
  with_reducible repeat' first | assumption | extract_lets | apply State.modRef_netFrame | apply State.slewTo_netFrame | refine netFrame_ite (fun _ => ?_) fun _ => ?_ | apply netFrame_keep
theorem State.refState_netFrame {q : Prop} {u₀ : State} {s : State} {st : Nat} (h : NetFrame q u₀ s) : NetFrame q u₀ (State.refState s st) := by
  unfold State.refState
  with_reducible repeat' first | assumption | extract_lets | apply State.modRef_netFrame | apply State.wr_netFrame | refine netFrame_ite (fun _ => ?_) fun _ => ?_ | apply netFrame_keep
theorem State.setBias_netFrame {q : Prop} {u₀ : State} {s : State} {o : Int} (h : NetFrame q u₀ s) : NetFrame q u₀ (State.setBias s o) := by
  unfold State.setBias
  with_reducible repeat' first | assumption | extract_lets | refine State.modTim_netFrame ?_ fun hx => hx | apply State.wr_netFrame | apply State.wrInt_netFrame | apply netFrame_keep
theorem State.retireBias_netFrame {q : Prop} {u₀ : State} {s : State} (h : NetFrame q u₀ s) : NetFrame q u₀ (State.retireBias s) := by
  unfold State.retireBias
  with_reducible repeat' first | assumption | extract_lets | refine State.modTim_netFrame ?_ fun hx => hx | apply State.refState_netFrame | apply State.setBias_netFrame | refine netFrame_ite (fun _ => ?_) fun _ => ?_ | apply netFrame_keep
theorem State.slewStep_netFrame {q : Prop} {u₀ : State} {s : State} {e : Int} {tau : Nat} (h : NetFrame q u₀ s) : NetFrame q u₀ (State.slewStep s e tau) := by
  unfold State.slewStep
  with_reducible repeat' first | assumption | extract_lets | apply State.slewTo_netFrame | refine netFrame_ite (fun _ => ?_) fun _ => ?_
theorem State.timState_netFrame {q : Prop} {u₀ : State} {s : State} {st : Nat} (h : NetFrame q u₀ s) : NetFrame q u₀ (State.timState s st) := by
  unfold State.timState
  with_reducible repeat' first | assumption | extract_lets | apply State.endCause_netFrame | refine State.modTim_netFrame ?_ fun hx => hx | apply State.raise_netFrame | apply State.wr_netFrame | refine netFrame_ite (fun _ => ?_) fun _ => ?_ | apply netFrame_keep
theorem State.helioSample_netFrame {q : Prop} {u₀ : State} {was : State} {i : Nat} {raw : Int} (h : NetFrame q u₀ was) : NetFrame q u₀ (State.helioSample was i raw) := by
  unfold State.helioSample
  with_reducible repeat' first | assumption | extract_lets | apply State.loopStep_netFrame | apply State.modRef_netFrame | apply State.retireBias_netFrame | apply State.slewStep_netFrame | apply State.timState_netFrame | apply State.wrInt_netFrame | refine netFrame_ite (fun _ => ?_) fun _ => ?_ | apply netFrame_keep
theorem State.refSample_netFrame {q : Prop} {u₀ : State} {s : State} {i : Nat} {raw : Int} {freq : Option Int} (h : NetFrame q u₀ s) (hq : q → u₀.tim.stepCmd = none) : NetFrame q u₀ (State.refSample s i raw freq) := by
  unfold State.refSample
  repeat' first | (with_reducible first | assumption | extract_lets | apply State.endCause_netFrame | apply State.helioSample_netFrame | apply State.modRefIn_netFrame | apply State.refCheck_netFrame | apply State.wrInt_netFrame | refine netFrame_ite (fun _ => ?_) fun _ => ?_) | split | (with_reducible first | apply netFrame_keep)
theorem State.theta_netFrame {q : Prop} {u₀ : State} {s : State} {d : Nat} {v : Int} {freq : Option Int} (h : NetFrame q u₀ s) (hq : q → u₀.tim.stepCmd = none) : NetFrame q u₀ (State.theta s d v freq) := by
  unfold State.theta
  repeat' first | (with_reducible first | assumption | extract_lets | apply State.modPtp_netFrame | apply State.refSample_netFrame | apply State.wrInt_netFrame | refine netFrame_ite (fun _ => ?_) fun _ => ?_) | split | (with_reducible first | apply netFrame_keep)
theorem State.syncDone_netFrame {q : Prop} {u₀ : State} {s : State} {d : Nat} {t2 : Int} {t1 : Int} {corr : Int} {freq : Option Int} (h : NetFrame q u₀ s) (hq : q → u₀.tim.stepCmd = none) : NetFrame q u₀ (State.syncDone s d t2 t1 corr freq) := by
  unfold State.syncDone
  with_reducible repeat' first | assumption | extract_lets | apply State.modPtp_netFrame | apply State.theta_netFrame | refine netFrame_ite (fun _ => ?_) fun _ => ?_ | apply netFrame_keep
theorem State.selectMaster_netFrame {q : Prop} {u₀ : State} {s : State} {d : Nat} (h : NetFrame q u₀ s) (hq : q → u₀.tim.stepCmd = none) : NetFrame q u₀ (State.selectMaster s d) := by
  unfold State.selectMaster
  with_reducible repeat' first | assumption | extract_lets | apply State.modPtp_netFrame | apply State.ptpCheck_netFrame | refine netFrame_ite (fun _ => ?_) fun _ => ?_ | apply netFrame_keep
theorem State.relayDrop_netFrame {q : Prop} {u₀ : State} {s : State} {p : Nat} (h : NetFrame q u₀ s) : NetFrame q u₀ (State.relayDrop s p) := by
  unfold State.relayDrop
  with_reducible repeat' first | assumption | extract_lets | apply State.bump_netFrame | apply State.raise_netFrame

end Sys2Proof.Machine
end

