-- ==== Sys2Proof/Laws/FrameTime.lean ====
section
/-!
SUPPORT. What `State.besideTime` shows, the operations behind the events of its group leave as it is, but for the message that ends a
TIM_RESTEP which is abandoned (R376).
-/
namespace Sys2Proof.Machine
open Sys2Proof

/-- What an event of the group has changed since `u`: nothing that the view shows while it is `quiet`, and otherwise nothing but what a
message to a session changes. -/
structure TimeFrame (quiet : Prop) (u s : State) : Prop where
  silent : quiet → s.besideTime = u.besideTime
  kept : u.tim.stepCmd = none → s.tim.stepCmd = none
  told : untold State.besideTime s = untold State.besideTime u
theorem timeFrame_keep {q : Prop} {u₀ s : State} {regs flt twn ref sent} (h : TimeFrame q u₀ s) : TimeFrame q u₀ (State.mk s.pending s.now s.fresh s.variant regs s.ready s.isolated flt s.pwr s.boot s.cyx s.fab s.eph s.lan s.net s.aud s.mvw s.enc s.cru s.tim ref s.mem s.vlt twn sent) := ⟨h.1, h.2, h.3⟩
theorem timeFrame_ite {q : Prop} {c : Prop} [Decidable c] {u₀ a b : State} (ha : c → TimeFrame q u₀ a) (hb : ¬c → TimeFrame q u₀ b) : TimeFrame q u₀ (if c then a else b) := by
  split
  · exact ha ‹_›
  · exact hb ‹_›
theorem timeFrame_foldl {q : Prop} {α : Type} {f : State → α → State} {l : List α} {u₀ s : State} (hs : TimeFrame q u₀ s) (hf : ∀ t a, TimeFrame q u₀ t → TimeFrame q u₀ (f t a)) : TimeFrame q u₀ (l.foldl f s) := by
  induction l generalizing s with
  | nil => exact hs
  | cons x l ih => exact ih (hf s x hs)
theorem State.wr_timeFrame {q : Prop} {u₀ s : State} {f : FieldRef} {v : Nat} (h : TimeFrame q u₀ s) : TimeFrame q u₀ (s.wr f v) := ⟨h.1, h.2, h.3⟩
theorem State.wrInt_timeFrame {q : Prop} {u₀ s : State} {f : FieldRef} {v : Int} (h : TimeFrame q u₀ s) : TimeFrame q u₀ (s.wrInt f v) := ⟨h.1, h.2, h.3⟩
theorem State.bump_timeFrame {q : Prop} {u₀ s : State} {f : FieldRef} {v : Nat} (h : TimeFrame q u₀ s) : TimeFrame q u₀ (s.bump f v) := ⟨h.1, h.2, h.3⟩
theorem State.bumpSat_timeFrame {q : Prop} {u₀ s : State} {f : FieldRef} {v : Nat} (h : TimeFrame q u₀ s) : TimeFrame q u₀ (s.bumpSat f v) := ⟨h.1, h.2, h.3⟩
theorem State.wr64_timeFrame {q : Prop} {u₀ s : State} {lo hi : FieldRef} {v : Nat} (h : TimeFrame q u₀ s) : TimeFrame q u₀ (s.wr64 lo hi v) := ⟨h.1, h.2, h.3⟩
theorem State.endCause_timeFrame {q : Prop} {u₀ s : State} {code src obj : Nat} (h : TimeFrame q u₀ s) : TimeFrame q u₀ (s.endCause code src obj) := ⟨h.1, h.2, h.3⟩
theorem State.setBit_timeFrame {q : Prop} {u₀ s : State} {f : FieldRef} {v : Nat} (h : TimeFrame q u₀ s) : TimeFrame q u₀ (s.setBit f v) := by
  exact ⟨by simpa [State.besideTime] using h.1, by simpa using h.2, by simpa [untold, State.besideTime] using h.3⟩
theorem State.clrBit_timeFrame {q : Prop} {u₀ s : State} {f : FieldRef} {v : Nat} (h : TimeFrame q u₀ s) : TimeFrame q u₀ (s.clrBit f v) := by
  exact ⟨by simpa [State.besideTime] using h.1, by simpa using h.2, by simpa [untold, State.besideTime] using h.3⟩
theorem State.raiseWithin_timeFrame {q : Prop} {u₀ s : State} {gap code src obj : Nat} (h : TimeFrame q u₀ s) : TimeFrame q u₀ (s.raiseWithin gap code src obj) := by
  exact ⟨by simpa [State.besideTime] using h.1, by simpa using h.2, by simpa [untold, State.besideTime] using h.3⟩
theorem State.raise_timeFrame {q : Prop} {u₀ s : State} {code src obj : Nat} (h : TimeFrame q u₀ s) : TimeFrame q u₀ (s.raise code src obj) := by
  exact ⟨by simpa [State.besideTime] using h.1, by simpa using h.2, by simpa [untold, State.besideTime] using h.3⟩
theorem timeFrame_fst {q : Prop} {α : Type} {p : State × α} {u₀ s : State} {a : α} (e : p = (s, a)) (h : TimeFrame q u₀ p.1) : TimeFrame q u₀ s := by
  subst e; exact h
theorem timeFrame_snd {q : Prop} {α : Type} {p : α × State} {u₀ s : State} {a : α} (e : p = (a, s)) (h : TimeFrame q u₀ p.2) : TimeFrame q u₀ s := by
  subst e; exact h
theorem State.modTim_timeFrame {q : Prop} {u₀ s : State} {f : TimState → TimState} (h : TimeFrame q u₀ s) (hf : s.tim.stepCmd = none → (f s.tim).stepCmd = none) : TimeFrame q u₀ (s.modTim f) :=
  ⟨h.1, fun hu => hf (h.2 hu), h.3⟩
theorem State.finish_timeFrame {q : Prop} {u₀ s : State} {session tag status entry : Nat} (h : TimeFrame q u₀ s) (hq : ¬q) (hs : u₀.tim.stepCmd ≠ none) : TimeFrame q u₀ (s.finish session tag status entry) :=
  ⟨fun hn => absurd hn hq, fun hn => absurd hn hs, (congrArg (untold State.besideTime) (State.finish_besideTold (was := s.besideTold) rfl)).trans h.3⟩
theorem State.abandonStep_timeFrame {q : Prop} {u₀ s : State} (h : TimeFrame q u₀ s) (hq : q → u₀.tim.stepCmd = none) : TimeFrame q u₀ s.abandonStep := by
  have h1 : TimeFrame q u₀ (s.modTim fun t => { t with stepAt := none, stepCmd := none }) := State.modTim_timeFrame h fun _ => rfl
  unfold State.abandonStep
  extract_lets s1
  split
  · rename_i c hc
    have hs : u₀.tim.stepCmd ≠ none := fun hu => by simp [h.2 hu] at hc
    split
    · exact State.finish_timeFrame h1 (fun hu => hs (hq hu)) hs
    · exact h1
  · exact h1
theorem State.modRef_timeFrame {q : Prop} {u₀ : State} {s : State} {f : RefState → RefState} (h : TimeFrame q u₀ s) : TimeFrame q u₀ (State.modRef s f) := by
  unfold State.modRef
  with_reducible repeat' first | assumption | extract_lets | apply timeFrame_keep
theorem State.setY_timeFrame {q : Prop} {u₀ : State} {s : State} {y : Int} (h : TimeFrame q u₀ s) : TimeFrame q u₀ (State.setY s y) := by
  unfold State.setY
  with_reducible repeat' first | assumption | extract_lets | apply State.modRef_timeFrame | apply State.wrInt_timeFrame | apply timeFrame_keep
theorem State.slewTo_timeFrame {q : Prop} {u₀ : State} {s : State} {target : Int} {tau : Nat} (h : TimeFrame q u₀ s) : TimeFrame q u₀ (State.slewTo s target tau) := by
  unfold State.slewTo
  with_reducible repeat' first | assumption | extract_lets | apply State.modRef_timeFrame | apply State.setY_timeFrame | apply timeFrame_keep
theorem State.loopStep_timeFrame {q : Prop} {u₀ : State} {s : State} {i : Nat} {e : Int} {tau : Nat} (h : TimeFrame q u₀ s) : TimeFrame q u₀ (State.loopStep s i e tau) := by
  unfold State.loopStep
  with_reducible repeat' first | assumption | extract_lets | apply State.modRef_timeFrame | apply State.slewTo_timeFrame | refine timeFrame_ite (fun _ => ?_) fun _ => ?_ | apply timeFrame_keep
theorem State.refState_timeFrame {q : Prop} {u₀ : State} {s : State} {st : Nat} (h : TimeFrame q u₀ s) : TimeFrame q u₀ (State.refState s st) := by
  unfold State.refState
  with_reducible repeat' first | assumption | extract_lets | apply State.modRef_timeFrame | apply State.wr_timeFrame | refine timeFrame_ite (fun _ => ?_) fun _ => ?_ | apply timeFrame_keep
theorem State.setBias_timeFrame {q : Prop} {u₀ : State} {s : State} {o : Int} (h : TimeFrame q u₀ s) : TimeFrame q u₀ (State.setBias s o) := by
  unfold State.setBias
  with_reducible repeat' first | assumption | extract_lets | refine State.modTim_timeFrame ?_ fun hx => hx | apply State.wr_timeFrame | apply State.wrInt_timeFrame | apply timeFrame_keep
theorem State.retireBias_timeFrame {q : Prop} {u₀ : State} {s : State} (h : TimeFrame q u₀ s) : TimeFrame q u₀ (State.retireBias s) := by
  unfold State.retireBias
  with_reducible repeat' first | assumption | extract_lets | refine State.modTim_timeFrame ?_ fun hx => hx | apply State.refState_timeFrame | apply State.setBias_timeFrame | refine timeFrame_ite (fun _ => ?_) fun _ => ?_ | apply timeFrame_keep
theorem State.slewStep_timeFrame {q : Prop} {u₀ : State} {s : State} {e : Int} {tau : Nat} (h : TimeFrame q u₀ s) : TimeFrame q u₀ (State.slewStep s e tau) := by
  unfold State.slewStep
  with_reducible repeat' first | assumption | extract_lets | apply State.slewTo_timeFrame | refine timeFrame_ite (fun _ => ?_) fun _ => ?_
theorem State.timState_timeFrame {q : Prop} {u₀ : State} {s : State} {st : Nat} (h : TimeFrame q u₀ s) : TimeFrame q u₀ (State.timState s st) := by
  unfold State.timState
  with_reducible repeat' first | assumption | extract_lets | apply State.endCause_timeFrame | refine State.modTim_timeFrame ?_ fun hx => hx | apply State.raise_timeFrame | apply State.wr_timeFrame | refine timeFrame_ite (fun _ => ?_) fun _ => ?_ | apply timeFrame_keep
theorem State.helioSample_timeFrame {q : Prop} {u₀ : State} {was : State} {i : Nat} {raw : Int} (h : TimeFrame q u₀ was) : TimeFrame q u₀ (State.helioSample was i raw) := by
  unfold State.helioSample
  with_reducible repeat' first | assumption | extract_lets | apply State.loopStep_timeFrame | apply State.modRef_timeFrame | apply State.retireBias_timeFrame | apply State.slewStep_timeFrame | apply State.timState_timeFrame | apply State.wrInt_timeFrame | refine timeFrame_ite (fun _ => ?_) fun _ => ?_ | apply timeFrame_keep
theorem State.modRefIn_timeFrame {q : Prop} {u₀ : State} {s : State} {i : Nat} {f : RefInput → RefInput} (h : TimeFrame q u₀ s) : TimeFrame q u₀ (State.modRefIn s i f) := by
  unfold State.modRefIn
  with_reducible repeat' first | assumption | extract_lets | apply State.modRef_timeFrame | apply timeFrame_keep
theorem State.modFp_timeFrame {q : Prop} {u₀ : State} {s : State} {p : Nat} {f : FpOut → FpOut} (h : TimeFrame q u₀ s) : TimeFrame q u₀ (State.modFp s p f) := by
  unfold State.modFp
  with_reducible repeat' first | assumption | extract_lets | apply State.modRef_timeFrame | apply timeFrame_keep
theorem State.flywheel_timeFrame {q : Prop} {u₀ : State} {s : State} {code : Nat} {broken : Bool} (h : TimeFrame q u₀ s) : TimeFrame q u₀ (State.flywheel s code broken) := by
  unfold State.flywheel
  with_reducible repeat' first | assumption | extract_lets | apply State.modFp_timeFrame | apply State.raise_timeFrame | apply State.wr_timeFrame | refine timeFrame_foldl ?_ fun _ _ _ => ?_ | apply timeFrame_keep
theorem State.disqualify_timeFrame {q : Prop} {u₀ : State} {s : State} {i : Nat} {lost : Bool} (h : TimeFrame q u₀ s) (hq : q → u₀.tim.stepCmd = none) : TimeFrame q u₀ (State.disqualify s i lost) := by
  unfold State.disqualify
  with_reducible repeat' first | assumption | extract_lets | apply State.abandonStep_timeFrame | apply State.flywheel_timeFrame | apply State.modRefIn_timeFrame | apply State.raise_timeFrame | apply State.wr_timeFrame | refine timeFrame_ite (fun _ => ?_) fun _ => ?_ | apply timeFrame_keep
theorem State.refCheck_timeFrame {q : Prop} {u₀ : State} {s : State} {i : Nat} (h : TimeFrame q u₀ s) (hq : q → u₀.tim.stepCmd = none) : TimeFrame q u₀ (State.refCheck s i) := by
  unfold State.refCheck
  with_reducible repeat' first | assumption | extract_lets | apply State.disqualify_timeFrame | apply State.modRefIn_timeFrame | refine timeFrame_ite (fun _ => ?_) fun _ => ?_ | apply timeFrame_keep
theorem State.refSample_timeFrame {q : Prop} {u₀ : State} {s : State} {i : Nat} {raw : Int} {freq : Option Int} (h : TimeFrame q u₀ s) (hq : q → u₀.tim.stepCmd = none) : TimeFrame q u₀ (State.refSample s i raw freq) := by
  unfold State.refSample
  extract_lets s1 s2 s3
  have h1 : TimeFrame q u₀ s1 := State.modRefIn_timeFrame (State.endCause_timeFrame h)
  have h2 : TimeFrame q u₀ s2 := by
    show TimeFrame q u₀ (match freq with | some f => s1.wrInt (Reg.REF_E_FREQ_Y i) f | none => s1)
    cases freq
    · exact h1
    · exact State.wrInt_timeFrame h1
  have h3 : TimeFrame q u₀ s3 := timeFrame_ite (fun _ => State.helioSample_timeFrame h2) fun _ => State.wrInt_timeFrame h2
  exact timeFrame_ite (fun _ => State.refCheck_timeFrame h3 hq) fun _ => h
theorem State.pin_timeFrame {q : Prop} {u₀ : State} {s : State} {name : Nat} {level : Nat} (h : TimeFrame q u₀ s) : TimeFrame q u₀ (State.pin s name level) := by
  unfold State.pin
  with_reducible repeat' first | assumption | extract_lets | apply timeFrame_keep
theorem State.fpLevel_timeFrame {q : Prop} {u₀ : State} {s : State} {p : Nat} {active : Bool} (h : TimeFrame q u₀ s) : TimeFrame q u₀ (State.fpLevel s p active) := by
  unfold State.fpLevel
  with_reducible repeat' first | assumption | extract_lets | apply State.pin_timeFrame
theorem State.fpStat_timeFrame {q : Prop} {u₀ : State} {s : State} {p : Nat} (h : TimeFrame q u₀ s) : TimeFrame q u₀ (State.fpStat s p) := by
  unfold State.fpStat
  repeat' first | (with_reducible first | assumption | extract_lets | apply State.flywheel_timeFrame | apply State.wr_timeFrame | refine timeFrame_fst (by assumption) ?_ | refine timeFrame_snd (by assumption) ?_) | split
theorem State.refLost_timeFrame {q : Prop} {u₀ : State} {s : State} {i : Nat} (h : TimeFrame q u₀ s) (hq : q → u₀.tim.stepCmd = none) : TimeFrame q u₀ (State.refLost s i) := by
  unfold State.refLost
  with_reducible repeat' first | assumption | extract_lets | apply State.disqualify_timeFrame | apply State.modRefIn_timeFrame | refine timeFrame_ite (fun _ => ?_) fun _ => ?_ | apply timeFrame_keep
theorem State.countLines_timeFrame {q : Prop} {u₀ : State} {s : State} {i : Nat} {h : Nat} (hi : TimeFrame q u₀ s) : TimeFrame q u₀ (State.countLines s i h) := by
  unfold State.countLines
  with_reducible repeat' first | assumption | extract_lets | apply State.modRefIn_timeFrame | apply timeFrame_keep
theorem State.fpPlan_timeFrame {q : Prop} {u₀ : State} {s : State} {p : Nat} (h : TimeFrame q u₀ s) : TimeFrame q u₀ (State.fpPlan s p) := by
  unfold State.fpPlan
  with_reducible repeat' first | assumption | extract_lets | apply State.fpStat_timeFrame | apply State.modFp_timeFrame | apply timeFrame_keep
theorem State.fpRebase_timeFrame {q : Prop} {u₀ : State} {s : State} {p : Nat} (h : TimeFrame q u₀ s) : TimeFrame q u₀ (State.fpRebase s p) := by
  unfold State.fpRebase
  with_reducible repeat' first | assumption | extract_lets | apply State.modFp_timeFrame | apply timeFrame_keep
theorem State.notePulse_timeFrame {q : Prop} {u₀ : State} {s : State} {code : Nat} (h : TimeFrame q u₀ s) : TimeFrame q u₀ (State.notePulse s code) := by
  unfold State.notePulse
  repeat' first | (with_reducible first | assumption | extract_lets | apply State.endCause_timeFrame | apply State.flywheel_timeFrame | apply State.fpPlan_timeFrame | apply State.fpRebase_timeFrame | apply State.modFp_timeFrame | apply State.modRef_timeFrame | refine timeFrame_ite (fun _ => ?_) fun _ => ?_ | refine timeFrame_foldl ?_ fun _ _ _ => ?_ | refine timeFrame_fst (by assumption) ?_ | refine timeFrame_snd (by assumption) ?_ | apply timeFrame_keep) | split
theorem State.modPtp_timeFrame {q : Prop} {u₀ : State} {s : State} {d : Nat} {f : PtpDomain → PtpDomain} (h : TimeFrame q u₀ s) : TimeFrame q u₀ (State.modPtp s d f) := by
  unfold State.modPtp
  refine State.modTim_timeFrame h fun hx => ?_
  split
  · exact hx
  · exact hx
theorem State.ptpCheck_timeFrame {q : Prop} {u₀ : State} {s : State} {d : Nat} (h : TimeFrame q u₀ s) (hq : q → u₀.tim.stepCmd = none) : TimeFrame q u₀ (State.ptpCheck s d) := by
  unfold State.ptpCheck
  repeat' first | (with_reducible first | assumption | extract_lets | apply State.refCheck_timeFrame) | split
theorem State.selectMaster_timeFrame {q : Prop} {u₀ : State} {s : State} {d : Nat} (h : TimeFrame q u₀ s) (hq : q → u₀.tim.stepCmd = none) : TimeFrame q u₀ (State.selectMaster s d) := by
  unfold State.selectMaster
  with_reducible repeat' first | assumption | extract_lets | apply State.modPtp_timeFrame | apply State.ptpCheck_timeFrame | refine timeFrame_ite (fun _ => ?_) fun _ => ?_ | apply timeFrame_keep
theorem State.modTp_timeFrame {q : Prop} {u₀ : State} {s : State} {p : Nat} {f : PulseOut → PulseOut} (h : TimeFrame q u₀ s) : TimeFrame q u₀ (State.modTp s p f) := by
  unfold State.modTp
  with_reducible repeat' first | assumption | extract_lets | refine State.modTim_timeFrame ?_ fun hx => hx | apply timeFrame_keep
theorem State.tpLevel_timeFrame {q : Prop} {u₀ : State} {s : State} {p : Nat} {active : Bool} {activeLow : Bool} (h : TimeFrame q u₀ s) : TimeFrame q u₀ (State.tpLevel s p active activeLow) := by
  unfold State.tpLevel
  with_reducible repeat' first | assumption | extract_lets | apply State.pin_timeFrame | apply State.wr_timeFrame
theorem State.tpFire_timeFrame {q : Prop} {u₀ : State} {s : State} {p : Nat} {t : Nat} {g : PulseProg} (h : TimeFrame q u₀ s) : TimeFrame q u₀ (State.tpFire s p t g) := by
  unfold State.tpFire
  with_reducible repeat' first | assumption | extract_lets | apply State.modTp_timeFrame | apply State.tpLevel_timeFrame | apply timeFrame_keep
theorem State.tpEdge_timeFrame {q : Prop} {u₀ : State} {s : State} {p : Nat} (h : TimeFrame q u₀ s) : TimeFrame q u₀ (State.tpEdge s p) := by
  unfold State.tpEdge
  repeat' first | (with_reducible first | assumption | extract_lets | apply State.tpFire_timeFrame | refine timeFrame_ite (fun _ => ?_) fun _ => ?_ | refine timeFrame_fst (by assumption) ?_ | refine timeFrame_snd (by assumption) ?_) | split
theorem State.tpEnd_timeFrame {q : Prop} {u₀ : State} {s : State} {p : Nat} (h : TimeFrame q u₀ s) : TimeFrame q u₀ (State.tpEnd s p) := by
  unfold State.tpEnd
  extract_lets x
  split
  · exact h
  · refine timeFrame_ite (fun _ => h) fun _ => ?_
    extract_lets s1
    exact timeFrame_ite (fun _ => State.modTp_timeFrame h) fun _ => State.tpLevel_timeFrame (State.modTp_timeFrame h)
theorem State.tpTake_timeFrame {q : Prop} {u₀ : State} {s : State} {p : Nat} {busy : Nat} (h : TimeFrame q u₀ s) : TimeFrame q u₀ (State.tpTake s p busy) := by
  unfold State.tpTake
  extract_lets x
  split
  · exact h
  · refine timeFrame_ite (fun _ => h) fun _ => ?_
    exact State.tpLevel_timeFrame (State.wr_timeFrame (State.modTp_timeFrame h))
theorem State.tpDue_timeFrame {q : Prop} {u₀ : State} {s : State} {p : Nat} (h : TimeFrame q u₀ s) : TimeFrame q u₀ (State.tpDue s p) := by
  unfold State.tpDue
  with_reducible repeat' first | assumption | extract_lets | apply State.tpEdge_timeFrame | apply State.tpEnd_timeFrame | apply State.tpTake_timeFrame
theorem State.domainSplit_timeFrame {q : Prop} {u₀ : State} {s : State} (h : TimeFrame q u₀ s) : TimeFrame q u₀ (State.domainSplit s) := by
  unfold State.domainSplit
  with_reducible repeat' first | assumption | extract_lets | apply State.endCause_timeFrame | apply State.modPtp_timeFrame | apply State.raise_timeFrame | refine timeFrame_ite (fun _ => ?_) fun _ => ?_ | refine timeFrame_fst (by assumption) ?_ | refine timeFrame_snd (by assumption) ?_ | apply timeFrame_keep
theorem State.refCheckAll_timeFrame {q : Prop} {u₀ : State} {s : State} (h : TimeFrame q u₀ s) (hq : q → u₀.tim.stepCmd = none) : TimeFrame q u₀ (State.refCheckAll s) := by
  unfold State.refCheckAll
  with_reducible repeat' first | assumption | extract_lets | apply State.refCheck_timeFrame | refine timeFrame_foldl ?_ fun _ _ _ => ?_
theorem State.formYh_timeFrame {q : Prop} {u₀ : State} {s : State} (h : TimeFrame q u₀ s) (hq : q → u₀.tim.stepCmd = none) : TimeFrame q u₀ (State.formYh s) := by
  unfold State.formYh
  with_reducible repeat' first | assumption | extract_lets | apply State.modRef_timeFrame | apply State.refCheckAll_timeFrame | apply State.wrInt_timeFrame | refine timeFrame_ite (fun _ => ?_) fun _ => ?_ | apply timeFrame_keep
theorem State.recordMean_timeFrame {q : Prop} {u₀ : State} {s : State} {second : Nat} (h : TimeFrame q u₀ s) (hq : q → u₀.tim.stepCmd = none) : TimeFrame q u₀ (State.recordMean s second) := by
  unfold State.recordMean
  with_reducible repeat' first | assumption | extract_lets | apply State.formYh_timeFrame | apply State.modRef_timeFrame | apply State.setY_timeFrame | refine timeFrame_ite (fun _ => ?_) fun _ => ?_ | apply timeFrame_keep
theorem State.timeSplit_timeFrame {q : Prop} {u₀ : State} {s : State} (h : TimeFrame q u₀ s) : TimeFrame q u₀ (State.timeSplit s) := by
  unfold State.timeSplit
  with_reducible repeat' first | assumption | extract_lets | apply State.endCause_timeFrame | apply State.raise_timeFrame | refine timeFrame_ite (fun _ => ?_) fun _ => ?_ | apply timeFrame_keep

end Sys2Proof.Machine
end

