-- ==== Sys2Proof/Laws/FrameTwin.lean ====
section
/-!
SUPPORT. What `State.besideTwin` shows, the operations behind the events of its group leave as it is.
-/
namespace Sys2Proof.Machine
open Sys2Proof

theorem besideTwin_keep {s : State} {was} {regs flt lan twn sent} (h : s.besideTwin = was) : (State.mk s.pending s.now s.fresh s.variant regs s.ready s.isolated flt s.pwr s.boot s.cyx s.fab s.eph lan s.net s.aud s.mvw s.enc s.cru s.tim s.ref s.mem s.vlt twn sent).besideTwin = was := h
theorem besideTwin_ite {c : Prop} [Decidable c] {a b was : State} (ha : c → a.besideTwin = was) (hb : ¬c → b.besideTwin = was) : (if c then a else b).besideTwin = was := by
  split
  · exact ha ‹_›
  · exact hb ‹_›
theorem besideTwin_foldl {α : Type} {f : State → α → State} {l : List α} {s was : State} (hs : s.besideTwin = was) (hf : ∀ t a, t.besideTwin = was → (f t a).besideTwin = was) : (l.foldl f s).besideTwin = was := by
  induction l generalizing s with
  | nil => exact hs
  | cons x l ih => exact ih (hf s x hs)
theorem State.wr_besideTwin {s was : State} {f : FieldRef} {v : Nat} (h : s.besideTwin = was) : (s.wr f v).besideTwin = was := h
theorem State.wrInt_besideTwin {s was : State} {f : FieldRef} {v : Int} (h : s.besideTwin = was) : (s.wrInt f v).besideTwin = was := h
theorem State.bump_besideTwin {s was : State} {f : FieldRef} {v : Nat} (h : s.besideTwin = was) : (s.bump f v).besideTwin = was := h
theorem State.bumpSat_besideTwin {s was : State} {f : FieldRef} {v : Nat} (h : s.besideTwin = was) : (s.bumpSat f v).besideTwin = was := h
theorem State.wr64_besideTwin {s was : State} {lo hi : FieldRef} {v : Nat} (h : s.besideTwin = was) : (s.wr64 lo hi v).besideTwin = was := h
theorem State.setBit_besideTwin {s was : State} {f : FieldRef} {v : Nat} (h : s.besideTwin = was) : (s.setBit f v).besideTwin = was := by
  simpa [State.besideTwin] using h
theorem State.clrBit_besideTwin {s was : State} {f : FieldRef} {v : Nat} (h : s.besideTwin = was) : (s.clrBit f v).besideTwin = was := by
  simpa [State.besideTwin] using h
theorem State.raiseWithin_besideTwin {s was : State} {gap code src obj : Nat} (h : s.besideTwin = was) : (s.raiseWithin gap code src obj).besideTwin = was := by
  simpa [State.besideTwin] using h
theorem State.raise_besideTwin {s was : State} {code src obj : Nat} (h : s.besideTwin = was) : (s.raise code src obj).besideTwin = was := by
  simpa [State.besideTwin] using h
theorem State.endCause_besideTwin {s was : State} {code src obj : Nat} (h : s.besideTwin = was) : (s.endCause code src obj).besideTwin = was := h
theorem besideTwin_fst {α : Type} {p : State × α} {s was : State} {a : α} (e : p = (s, a)) (h : p.1.besideTwin = was) : s.besideTwin = was := by
  subst e; exact h
theorem besideTwin_snd {α : Type} {p : α × State} {s was : State} {a : α} (e : p = (a, s)) (h : p.2.besideTwin = was) : s.besideTwin = was := by
  subst e; exact h
theorem State.twinTake_besideTwin {was : State} {s : State} {type : ℕ} {b : List Byte} (h : s.besideTwin = was) : (State.twinTake s type b).1.besideTwin = was := by
  unfold State.twinTake
  repeat' first | (with_reducible first | assumption | extract_lets | apply State.raise_besideTwin | apply State.bump_besideTwin | refine besideTwin_ite (fun _ => ?_) fun _ => ?_) | split | (with_reducible first | apply besideTwin_keep)
theorem State.putLane_besideTwin {was : State} {s : State} {x : Lane} (h : s.besideTwin = was) : (State.putLane s x).besideTwin = was := by
  unfold State.putLane
  with_reducible repeat' first | assumption | apply besideTwin_keep
theorem State.modLane_besideTwin {was : State} {s : State} {l : ℕ} {f : Lane → Lane} (h : s.besideTwin = was) : (State.modLane s l f).besideTwin = was := by
  unfold State.modLane
  with_reducible repeat' first | assumption | apply State.putLane_besideTwin
theorem State.partnerSend_besideTwin {was : State} {s : State} {kind : ℕ} {bytes : List Byte} (h : s.besideTwin = was) : (State.partnerSend s kind bytes).besideTwin = was := by
  unfold State.partnerSend
  repeat' first | (with_reducible first | assumption | extract_lets | apply State.modLane_besideTwin | refine besideTwin_ite (fun _ => ?_) fun _ => ?_) | split | (with_reducible first | apply besideTwin_keep)
theorem State.twinSend_besideTwin {was : State} {s : State} {type : ℕ} {body : List Byte} (h : s.besideTwin = was) : (State.twinSend s type body).besideTwin = was := by
  unfold State.twinSend
  with_reducible repeat' first | assumption | extract_lets | apply State.partnerSend_besideTwin | refine besideTwin_ite (fun _ => ?_) fun _ => ?_ | apply besideTwin_keep
theorem State.twinSendOn_besideTwin {was : State} {s : State} {l : ℕ} {type : ℕ} {body : List Byte} (h : s.besideTwin = was) : (State.twinSendOn s l type body).besideTwin = was := by
  unfold State.twinSendOn
  with_reducible repeat' first | assumption | extract_lets | apply State.modLane_besideTwin | refine besideTwin_ite (fun _ => ?_) fun _ => ?_ | apply besideTwin_keep
theorem State.setClaim_besideTwin {was : State} {s : State} {epoch : ℕ} (h : s.besideTwin = was) : (State.setClaim s epoch).besideTwin = was := by
  unfold State.setClaim
  with_reducible repeat' first | assumption | extract_lets | apply State.wr_besideTwin | apply besideTwin_keep
theorem State.twinEvent_besideTwin {was : State} {s : State} {code : ℕ} {obj : ℕ} (h : s.besideTwin = was) : (State.twinEvent s code obj).besideTwin = was := by
  unfold State.twinEvent
  with_reducible repeat' first | assumption | apply State.raise_besideTwin | refine besideTwin_ite (fun _ => ?_) fun _ => ?_
theorem State.claimConflict_besideTwin {was : State} {s : State} (h : s.besideTwin = was) : (State.claimConflict s).besideTwin = was := by
  unfold State.claimConflict
  with_reducible repeat' first | assumption | extract_lets | apply State.twinEvent_besideTwin | apply State.setClaim_besideTwin | apply State.wr_besideTwin | refine besideTwin_ite (fun _ => ?_) fun _ => ?_ | refine besideTwin_foldl ?_ fun _ _ _ => ?_
theorem State.countUnanswered_besideTwin {was : State} {s : State} (h : s.besideTwin = was) : (State.countUnanswered s).besideTwin = was := by
  unfold State.countUnanswered
  repeat' first | (with_reducible first | assumption | extract_lets | apply State.twinEvent_besideTwin | apply State.wr_besideTwin | refine besideTwin_ite (fun _ => ?_) fun _ => ?_) | split | (with_reducible first | apply besideTwin_keep)
theorem State.sendDatagram_besideTwin {was : State} {s : State} {m : Nat} {dst : Nat} {sport : Nat} {dport : Nat} {payload : List Byte} (h : s.besideTwin = was) : (State.sendDatagram s m dst sport dport payload).besideTwin = was := by
  unfold State.sendDatagram
  extract_lets
  exact besideTwin_ite (fun _ => h) fun _ => h
theorem State.lookoutOut_besideTwin {was : State} {s : State} {b : List Byte} (h : s.besideTwin = was) : (State.lookoutOut s b).besideTwin = was := by
  unfold State.lookoutOut
  repeat' first | (with_reducible first | assumption | extract_lets | apply State.sendDatagram_besideTwin | apply besideTwin_keep)
theorem State.lookoutSend_besideTwin {was : State} {s0 : State} {type : Nat} (h : s0.besideTwin = was) : (State.lookoutSend s0 type).besideTwin = was := by
  unfold State.lookoutSend
  repeat' first | (with_reducible first | assumption | extract_lets | apply State.countUnanswered_besideTwin | apply State.lookoutOut_besideTwin | apply State.wr_besideTwin | refine besideTwin_ite (fun _ => ?_) fun _ => ?_ | apply besideTwin_keep)
theorem State.makeClaim_besideTwin {was : State} {s : State} (h : s.besideTwin = was) : (State.makeClaim s).besideTwin = was := by
  unfold State.makeClaim
  with_reducible repeat' first | assumption | apply State.setClaim_besideTwin | refine besideTwin_ite (fun _ => ?_) fun _ => ?_
theorem State.noteGap_besideTwin {was : State} {s : State} (h : s.besideTwin = was) : (State.noteGap s).besideTwin = was := by
  unfold State.noteGap
  with_reducible repeat' first | assumption | extract_lets | refine besideTwin_ite (fun _ => ?_) fun _ => ?_ | apply besideTwin_keep
theorem State.noteRevert_besideTwin {was : State} {s : State} (h : s.besideTwin = was) : (State.noteRevert s).besideTwin = was := by
  unfold State.noteRevert
  with_reducible repeat' first | assumption | extract_lets | refine besideTwin_ite (fun _ => ?_) fun _ => ?_ | apply besideTwin_keep
theorem State.tryConverge_besideTwin {was : State} {s : State} (h : s.besideTwin = was) : (State.tryConverge s).besideTwin = was := by
  unfold State.tryConverge
  with_reducible repeat' first | assumption | extract_lets | apply State.wr_besideTwin | refine besideTwin_ite (fun _ => ?_) fun _ => ?_ | apply besideTwin_keep
theorem State.twinDiverge_besideTwin {was : State} {s : State} {obj : ℕ} (h : s.besideTwin = was) : (State.twinDiverge s obj).besideTwin = was := by
  unfold State.twinDiverge
  with_reducible repeat' first | assumption | extract_lets | apply State.raise_besideTwin | apply besideTwin_keep
theorem State.compareHash_besideTwin {was : State} {s : State} {g : ℕ} {frame : ℕ} {slot : ℕ} {hash : ℕ} (h : s.besideTwin = was) : (State.compareHash s g frame slot hash).besideTwin = was := by
  unfold State.compareHash
  repeat' first | (with_reducible first | assumption | extract_lets | apply State.twinDiverge_besideTwin | apply State.bump_besideTwin | refine besideTwin_ite (fun _ => ?_) fun _ => ?_) | split | (with_reducible first | apply besideTwin_keep)
theorem State.pruneHashes_besideTwin {was : State} {s : State} {g : ℕ} {frame : ℕ} (h : s.besideTwin = was) : (State.pruneHashes s g frame).besideTwin = was := by
  unfold State.pruneHashes
  with_reducible repeat' first | assumption | extract_lets | refine besideTwin_ite (fun _ => ?_) fun _ => ?_ | apply besideTwin_keep
theorem State.startResync_besideTwin {was : State} {s : State} (h : s.besideTwin = was) : (State.startResync s).besideTwin = was := by
  unfold State.startResync
  with_reducible repeat' first | assumption | extract_lets | apply State.twinSend_besideTwin | apply State.wr_besideTwin | refine besideTwin_ite (fun _ => ?_) fun _ => ?_ | apply besideTwin_keep
theorem State.pin_besideTwin {was : State} {s : State} {name : ℕ} {level : ℕ} (h : s.besideTwin = was) : (State.pin s name level).besideTwin = was := by
  unfold State.pin
  with_reducible repeat' first | assumption | apply besideTwin_keep
theorem State.leaseGates_besideTwin {was : State} {s : State} (h : s.besideTwin = was) : (State.leaseGates s).besideTwin = was := by
  unfold State.leaseGates
  with_reducible repeat' first | assumption | apply State.pin_besideTwin | apply State.wr_besideTwin

end Sys2Proof.Machine
end

