-- ==== Sys2Proof/Laws/FrameVault.lean ====
section
/-!
SUPPORT. What `State.besideVault` shows, the operations behind the events of its group leave as it is.
-/
namespace Sys2Proof.Machine
open Sys2Proof

theorem besideVault_keep {s : State} {was} {regs flt vlt} (h : s.besideVault = was) : (State.mk s.pending s.now s.fresh s.variant regs s.ready s.isolated flt s.pwr s.boot s.cyx s.fab s.eph s.lan s.net s.aud s.mvw s.enc s.cru s.tim s.ref s.mem vlt s.twn s.sent).besideVault = was := h
theorem besideVault_ite {c : Prop} [Decidable c] {a b was : State} (ha : c → a.besideVault = was) (hb : ¬c → b.besideVault = was) : (if c then a else b).besideVault = was := by
  split
  · exact ha ‹_›
  · exact hb ‹_›
theorem besideVault_foldl {α : Type} {f : State → α → State} {l : List α} {s was : State} (hs : s.besideVault = was) (hf : ∀ t a, t.besideVault = was → (f t a).besideVault = was) : (l.foldl f s).besideVault = was := by
  induction l generalizing s with
  | nil => exact hs
  | cons x l ih => exact ih (hf s x hs)
theorem State.wr_besideVault {s was : State} {f : FieldRef} {v : Nat} (h : s.besideVault = was) : (s.wr f v).besideVault = was := h
theorem State.wrInt_besideVault {s was : State} {f : FieldRef} {v : Int} (h : s.besideVault = was) : (s.wrInt f v).besideVault = was := h
theorem State.bump_besideVault {s was : State} {f : FieldRef} {v : Nat} (h : s.besideVault = was) : (s.bump f v).besideVault = was := h
theorem State.bumpSat_besideVault {s was : State} {f : FieldRef} {v : Nat} (h : s.besideVault = was) : (s.bumpSat f v).besideVault = was := h
theorem State.wr64_besideVault {s was : State} {lo hi : FieldRef} {v : Nat} (h : s.besideVault = was) : (s.wr64 lo hi v).besideVault = was := h
theorem State.setBit_besideVault {s was : State} {f : FieldRef} {v : Nat} (h : s.besideVault = was) : (s.setBit f v).besideVault = was := by
  simpa [State.besideVault] using h
theorem State.clrBit_besideVault {s was : State} {f : FieldRef} {v : Nat} (h : s.besideVault = was) : (s.clrBit f v).besideVault = was := by
  simpa [State.besideVault] using h
theorem State.raiseWithin_besideVault {s was : State} {gap code src obj : Nat} (h : s.besideVault = was) : (s.raiseWithin gap code src obj).besideVault = was := by
  simpa [State.besideVault] using h
theorem State.raise_besideVault {s was : State} {code src obj : Nat} (h : s.besideVault = was) : (s.raise code src obj).besideVault = was := by
  simpa [State.besideVault] using h
theorem State.endCause_besideVault {s was : State} {code src obj : Nat} (h : s.besideVault = was) : (s.endCause code src obj).besideVault = was := h
theorem besideVault_fst {α : Type} {p : State × α} {s was : State} {a : α} (e : p = (s, a)) (h : p.1.besideVault = was) : s.besideVault = was := by
  subst e; exact h
theorem besideVault_snd {α : Type} {p : α × State} {s was : State} {a : α} (e : p = (a, s)) (h : p.2.besideVault = was) : s.besideVault = was := by
  subst e; exact h
theorem State.countSlots_besideVault {was : State} {s : State} (h : s.besideVault = was) : (State.countSlots s).besideVault = was := by
  unfold State.countSlots
  with_reducible repeat' first | assumption | extract_lets | apply State.wr_besideVault
theorem State.putSlot_besideVault {was : State} {s : State} {i : ℕ} {x : Slot} (h : s.besideVault = was) : (State.putSlot s i x).besideVault = was := by
  unfold State.putSlot
  with_reducible repeat' first | assumption | extract_lets | apply besideVault_keep
theorem State.emptySlot_besideVault {was : State} {s : State} {i : ℕ} {byCascade : Bool} (h : s.besideVault = was) : (State.emptySlot s i byCascade).besideVault = was := by
  unfold State.emptySlot
  with_reducible repeat' first | assumption | extract_lets | apply State.endCause_besideVault | apply State.putSlot_besideVault | refine besideVault_ite (fun _ => ?_) fun _ => ?_

end Sys2Proof.Machine
end

