-- ==== Sys2Proof/Laws/Memory.lean ====
section
/-!
SUPPORT. Laws of the sparse memories: a byte reads what was last written there, a write leaves every other byte alone, and
every operation keeps the canonical form.
-/
namespace Sys2Proof.Machine

theorem Memory.wf_cons {c : Host.Cell} {m : Memory} :
    Memory.wf (c :: m) = true ↔ c.2 ≠ 0 ∧ (∀ d ∈ m, c.1 < d.1) ∧ Memory.wf m = true := by
  simp [Memory.wf, and_assoc]

/-- Below the first listed address a memory reads 0. -/
theorem Memory.read_below {m : Memory} {x : Nat} (h : ∀ d ∈ m, x < d.1) : m.read x = 0 := by
  cases m with
  | nil => rfl
  | cons c m =>
    have : x < c.1 := h c (by simp)
    simp [Memory.read, this, this.ne]

/-- A byte that was written reads back. -/
theorem Memory.read_write_self {m : Memory} (x : Nat) (v : Byte) (h : m.wf = true) : (m.write x v).read x = v := by
  induction m with
  | nil => by_cases hv : v = 0#8 <;> simp [Memory.write, Memory.read, hv]
  | cons c m ih =>
    obtain ⟨a, b⟩ := c
    obtain ⟨hb, ha, hm⟩ := Memory.wf_cons.1 h
    rcases Nat.lt_trichotomy x a with hx | hx | hx
    · by_cases hv : v = 0#8 <;> simp [Memory.write, Memory.read, hv, hx, hx.ne]
    · subst hx
      by_cases hv : v = 0#8
      · simp [Memory.write, hv, Memory.read_below ha]
      · simp [Memory.write, hv, Memory.read]
    · simp [Memory.write, Memory.read, hx.ne', Nat.not_lt.2 hx.le, ih hm]

/-- A write leaves every other byte as it was. -/
theorem Memory.read_write_other {m : Memory} {x y : Nat} (v : Byte) (h : m.wf = true) (hxy : y ≠ x) : (m.write x v).read y = m.read y := by
  induction m with
  | nil => by_cases hv : v = 0#8 <;> simp [Memory.write, Memory.read, hv, hxy]
  | cons c m ih =>
    obtain ⟨a, b⟩ := c
    obtain ⟨hb, ha, hm⟩ := Memory.wf_cons.1 h
    rcases Nat.lt_trichotomy x a with hx | hx | hx
    · rw [Memory.write, if_neg hx.ne, if_pos hx]
      split
      · rfl
      · rw [Memory.read, if_neg hxy]
        split
        · rw [Memory.read, if_neg (by omega), if_pos (by omega)]
        · rfl
    · subst hx
      rw [Memory.write, if_pos rfl]
      split
      · rw [Memory.read, if_neg hxy]
        split
        · exact Memory.read_below fun d hd => by have : x < d.1 := ha d hd; omega
        · rfl
      · simp [Memory.read, hxy]
    · rw [Memory.write, if_neg hx.ne', if_neg (by omega), Memory.read, Memory.read, ih hm]

theorem Memory.mem_write {m : Memory} {x : Nat} {v : Byte} {c : Host.Cell} (h : c ∈ m.write x v) : c = (x, v) ∨ c ∈ m := by
  induction m with
  | nil =>
    simp only [Memory.write] at h
    split at h
    · cases h
    · simpa using h
  | cons d m ih =>
    obtain ⟨a, b⟩ := d
    simp only [Memory.write] at h
    split at h
    · split at h
      · exact .inr (List.mem_cons_of_mem _ h)
      · rcases List.mem_cons.1 h with h | h <;> simp [h]
    · split at h
      · split at h
        · exact .inr h
        · simpa using h
      · rcases List.mem_cons.1 h with h | h
        · simp [h]
        · rcases ih h with h | h <;> simp [h]

/-- A write keeps the canonical form. -/
theorem Memory.wf_write {m : Memory} (x : Nat) (v : Byte) (h : m.wf = true) : (m.write x v).wf = true := by
  induction m with
  | nil => by_cases hv : v = 0#8 <;> simp [Memory.write, Memory.wf, hv]
  | cons c m ih =>
    obtain ⟨a, b⟩ := c
    obtain ⟨hb, ha, hm⟩ := Memory.wf_cons.1 h
    rcases Nat.lt_trichotomy x a with hx | hx | hx
    · rw [Memory.write, if_neg hx.ne, if_pos hx]
      split
      · exact h
      · next hv =>
        refine Memory.wf_cons.2 ⟨hv, fun d hd => ?_, h⟩
        rcases List.mem_cons.1 hd with rfl | hd
        · exact hx
        · exact hx.trans (ha d hd)
    · subst hx
      rw [Memory.write, if_pos rfl]
      split
      · exact hm
      · next hv => exact Memory.wf_cons.2 ⟨hv, ha, hm⟩
    · rw [Memory.write, if_neg hx.ne', if_neg (by omega)]
      refine Memory.wf_cons.2 ⟨hb, fun d hd => ?_, ih hm⟩
      rcases Memory.mem_write hd with rfl | hd
      · exact hx
      · exact ha d hd

theorem Memory.wf_writeN {m : Memory} (a : Nat) (bs : List Byte) (h : m.wf = true) : (m.writeN a bs).wf = true := by
  induction bs generalizing m a with
  | nil => exact h
  | cons b bs ih => exact ih _ (Memory.wf_write a b h)

theorem Memory.wf_filter {m : Memory} (p : Host.Cell → Bool) (h : m.wf = true) : Memory.wf (m.filter p) = true := by
  induction m with
  | nil => rfl
  | cons c m ih =>
    obtain ⟨hb, ha, hm⟩ := Memory.wf_cons.1 h
    rw [List.filter_cons]
    split
    · exact Memory.wf_cons.2 ⟨hb, fun d hd => ha d (List.mem_filter.1 hd).1, ih hm⟩
    · exact ih hm

theorem Memory.wf_dropRange {m : Memory} (lo hi : Nat) (h : m.wf = true) : (m.dropRange lo hi).wf = true :=
  Memory.wf_filter _ h

/-- Bytes outside the written range are as before. -/
theorem Memory.read_writeN_other {m : Memory} {a y : Nat} (bs : List Byte) (h : m.wf = true) (hy : y < a ∨ a + bs.length ≤ y) :
    (m.writeN a bs).read y = m.read y := by
  induction bs generalizing m a with
  | nil => rfl
  | cons b bs ih =>
    simp only [List.length_cons] at hy
    rw [Memory.writeN, ih (Memory.wf_write a b h) (by omega), Memory.read_write_other b h (by omega)]

end Sys2Proof.Machine
end

