-- ==== Sys2Proof/Laws/Inv.lean ====
section
/-!
SUPPORT. The invariant of the state, cut into what a record update can touch, with the lemmas that push it through the
shapes of a definition: a record update, a condition, a fold.
-/
namespace Sys2Proof.Machine

/-- The memories of a memory state are in canonical form. -/
def MemState.ok (m : MemState) : Prop := m.sram.wf = true ∧ m.dram.wf = true

/-- The collector is within bounds. -/
def FaultState.ok (f : FaultState) : Prop := f.history.length ≤ 32 ∧ f.uncleared.length ≤ 1024 ∧ f.queue.length ≤ 256

theorem State.inv_iff {s : State} : s.inv = true ↔ s.regs.wf = true ∧ s.mem.ok ∧ s.flt.ok := by
  simp [State.inv, MemState.ok, FaultState.ok, FaultState.bounded, and_assoc]

theorem State.inv_regs {s : State} (h : s.inv = true) : s.regs.wf = true := (State.inv_iff.1 h).1
theorem State.inv_mem {s : State} (h : s.inv = true) : s.mem.ok := (State.inv_iff.1 h).2.1
theorem State.inv_flt {s : State} (h : s.inv = true) : s.flt.ok := (State.inv_iff.1 h).2.2
theorem State.inv_sram {s : State} (h : s.inv = true) : s.mem.sram.wf = true := (State.inv_mem h).1
theorem State.inv_dram {s : State} (h : s.inv = true) : s.mem.dram.wf = true := (State.inv_mem h).2
theorem State.inv_history {s : State} (h : s.inv = true) : s.flt.history.length ≤ 32 := (State.inv_flt h).1
theorem State.inv_uncleared {s : State} (h : s.inv = true) : s.flt.uncleared.length ≤ 1024 := (State.inv_flt h).2.1
theorem State.inv_queue {s : State} (h : s.inv = true) : s.flt.queue.length ≤ 256 := (State.inv_flt h).2.2

theorem State.inv_uncleared_map {s : State} (f : Event → Event) (h : s.inv = true) : (s.flt.uncleared.map f).length ≤ 1024 := by
  simpa using State.inv_uncleared h

/-- A record update keeps the invariant when its registers, memories and collector do. -/
theorem State.inv_mk {pending now fresh variant regs ready isolated flt pwr boot cyx fab eph lan net aud mvw enc cru tim ref mem vlt twn sent}
    (hr : RegFile.wf regs = true) (hm : MemState.ok mem) (hf : FaultState.ok flt) :
    (State.mk pending now fresh variant regs ready isolated flt pwr boot cyx fab eph lan net aud mvw enc cru tim ref mem vlt twn sent).inv = true :=
  State.inv_iff.2 ⟨hr, hm, hf⟩

theorem MemState.ok_mk {sram dram outstanding captureArmed draining training lost results bufs waiting credit served turns} (hs : Memory.wf sram = true) (hd : Memory.wf dram = true) :
    (MemState.mk sram dram outstanding captureArmed draining training lost results bufs waiting credit served turns).ok := ⟨hs, hd⟩

theorem FaultState.ok_mk {detected causes lastRaise lastNum history uncleared firstError armed fatalTimes queue running restartDue halted shedding voteLost} (hh : List.length history ≤ 32) (hu : List.length uncleared ≤ 1024)
    (hq : List.length queue ≤ 256) : (FaultState.mk detected causes lastRaise lastNum history uncleared firstError armed fatalTimes queue running restartDue halted shedding voteLost).ok := ⟨hh, hu, hq⟩

/-- An update of other fields keeps the invariant. -/
theorem State.inv_keep {s : State} {pending now fresh variant ready isolated pwr boot cyx fab eph lan net aud mvw enc cru tim ref vlt twn sent} (h : s.inv = true) :
    (State.mk pending now fresh variant s.regs ready isolated s.flt pwr boot cyx fab eph lan net aud mvw enc cru tim ref s.mem vlt twn sent).inv = true := State.inv_iff.2 (State.inv_iff.1 h)

/-- An update of the memory state that leaves the memories themselves keeps the invariant. -/
theorem State.inv_keepMem {s : State} {pending now fresh variant ready isolated pwr boot cyx fab eph lan net aud mvw enc cru tim ref vlt twn sent} {outstanding captureArmed draining training lost results bufs waiting credit served turns} (h : s.inv = true) :
    (State.mk pending now fresh variant s.regs ready isolated s.flt pwr boot cyx fab eph lan net aud mvw enc cru tim ref (MemState.mk s.mem.sram s.mem.dram outstanding captureArmed draining training lost results bufs waiting credit served turns) vlt twn sent).inv = true := State.inv_iff.2 (State.inv_iff.1 h)

/-- An update of the collector that leaves its tables keeps the invariant. -/
theorem State.inv_keepFlt {s : State} {pending now fresh variant ready isolated pwr boot cyx fab eph lan net aud mvw enc cru tim ref vlt twn sent} {detected causes lastRaise lastNum firstError armed fatalTimes running restartDue halted shedding voteLost} (h : s.inv = true) :
    (State.mk pending now fresh variant s.regs ready isolated (FaultState.mk detected causes lastRaise lastNum s.flt.history s.flt.uncleared firstError armed fatalTimes s.flt.queue running restartDue halted shedding voteLost) pwr boot cyx fab eph lan net aud mvw enc cru tim ref s.mem vlt twn sent).inv = true := State.inv_iff.2 (State.inv_iff.1 h)

theorem State.inv_ite {c : Prop} [Decidable c] {a b : State} (ha : c → a.inv = true) (hb : ¬c → b.inv = true) :
    (if c then a else b).inv = true := by
  split
  · exact ha ‹_›
  · exact hb ‹_›

theorem inv_foldl {α : Type} {f : State → α → State} {l : List α} {s : State} (hs : s.inv = true)
    (hf : ∀ t a, t.inv = true → (f t a).inv = true) : (l.foldl f s).inv = true := by
  induction l generalizing s with
  | nil => exact hs
  | cons x l ih => exact ih (hf s x hs)

/-- The state of a gate keeps the invariant. -/
def Gate.inv : Gate → Prop
  | .ended s => s.inv = true
  | .start s _ => s.inv = true

theorem Gate.inv_ended {s : State} (h : s.inv = true) : (Gate.ended s).inv := h
theorem Gate.inv_start {s : State} {p : List Byte} (h : s.inv = true) : (Gate.start s p).inv := h

theorem Gate.ended_inv {g : Gate} {s : State} (e : g = .ended s) (h : g.inv) : s.inv = true := by
  subst e; exact h

theorem Gate.started_inv {g : Gate} {s : State} {p : List Byte} (e : g = .start s p) (h : g.inv) : s.inv = true := by
  subst e; exact h

theorem Done.mk_inv {s : State} {st : Nat} {p q : List Byte} (h : s.inv = true) : (Done.mk s st p q).state.inv = true := h

/-- Running an operation keeps the invariant. -/
def OpSpec.keeps (op : OpSpec) : Prop := ∀ s x p, s.inv = true → (op.run s x p).state.inv = true

theorem OpSpec.run_inv {op : OpSpec} {s : State} {x : Ctx} {p : List Byte} (ho : op.keeps) (h : s.inv = true) : (op.run s x p).state.inv = true :=
  ho s x p h

theorem OpSpec.keeps_mk {code : Nat} {cls : OpClass} {keys : Bool} {length fields own units locked} {cruise empty : Bool}
    {run : State → Ctx → List Byte → Done} (h : ∀ s x p, s.inv = true → (run s x p).state.inv = true) :
    (OpSpec.mk code cls keys length fields own units locked cruise empty run).keeps := h

/-- Whatever state an outcome answers meets the invariant. -/
def OutcomeInv (o : Host.Outcome State Fault Refusal) : Prop := ∀ t, o = .next t → t.inv = true

theorem outcome_next {t : State} (h : t.inv = true) : OutcomeInv (.next t) := by
  intro u hu
  cases hu
  exact h

theorem FaultState.ok_reset : FaultState.reset.ok := ⟨Nat.zero_le _, Nat.zero_le _, Nat.zero_le _⟩
theorem MemState.ok_after {n : Nat} : (MemState.after n).ok := ⟨rfl, rfl⟩

theorem RegFile.wf_foldl_ins {r : RegFile} {l : List (Nat × Nat)} (h : r.wf = true) : (l.foldl (fun (r : RegFile) (q : Nat × Nat) => r.ins q.1 q.2) r).wf = true := by
  induction l generalizing r with
  | nil => exact h
  | cons q l ih => exact ih (RegFile.wf_ins q.1 q.2 h)

theorem fst_inv {α : Type} {p : State × α} {s : State} {a : α} (e : p = (s, a)) (h : p.1.inv = true) : s.inv = true := by
  subst e; exact h

theorem snd_inv {α : Type} {p : α × State} {s : State} {a : α} (e : p = (a, s)) (h : p.2.inv = true) : s.inv = true := by
  subst e; exact h

end Sys2Proof.Machine
end

