-- ==== Sys2Proof/Laws/InvFlags.lean ====
section
/-!
SUPPORT. Every operation of Machine/Flags.lean keeps the invariant of the state.
-/
namespace Sys2Proof.Machine
open Sys2Proof

theorem State.wr_inv {s : State} {f : FieldRef} {v : ℕ} (h : s.inv = true) : (s.wr f v).inv = true :=
  State.inv_mk (RegFile.wf_put f v (State.inv_regs h)) (State.inv_mem h) (State.inv_flt h)

theorem State.bump_inv {s : State} {f : FieldRef} {n : ℕ} (h : s.inv = true) : (State.bump s f n).inv = true := by
  unfold State.bump
  with_reducible repeat' first | assumption | apply State.wr_inv

theorem State.bumpSat_inv {s : State} {f : FieldRef} {n : ℕ} (h : s.inv = true) : (State.bumpSat s f n).inv = true := by
  unfold State.bumpSat
  with_reducible repeat' first | assumption | apply State.wr_inv

theorem State.setBit_inv {s : State} {f : FieldRef} {b : ℕ} (h : s.inv = true) : (State.setBit s f b).inv = true := by
  unfold State.setBit
  with_reducible repeat' first | assumption | apply State.wr_inv | refine State.inv_ite (fun _ => ?_) fun _ => ?_

theorem State.clrBit_inv {s : State} {f : FieldRef} {b : ℕ} (h : s.inv = true) : (State.clrBit s f b).inv = true := by
  unfold State.clrBit
  with_reducible repeat' first | assumption | apply State.wr_inv | refine State.inv_ite (fun _ => ?_) fun _ => ?_

theorem State.wr64_inv {s : State} {lo : FieldRef} {hi : FieldRef} {v : ℕ} (h : s.inv = true) : (State.wr64 s lo hi v).inv = true := by
  unfold State.wr64
  with_reducible repeat' first | assumption | apply State.wr_inv

theorem State.wrInt_inv {s : State} {f : FieldRef} {v : ℤ} (h : s.inv = true) : (State.wrInt s f v).inv = true := by
  unfold State.wrInt
  with_reducible repeat' first | assumption | apply State.wr_inv

end Sys2Proof.Machine
end

