-- ==== Sys2Proof/Laws/InvOps.lean ====
section
/-!
SUPPORT. Every operation of Machine/Ops.lean keeps the invariant of the state.
-/
namespace Sys2Proof.Machine
open Sys2Proof

theorem State.setDomOn_inv {s : State} {d : ℕ} {on : Bool} (h : s.inv = true) : (State.setDomOn s d on).inv = true := by
  unfold State.setDomOn
  with_reducible repeat' first | assumption | extract_lets | apply State.setBit_inv | apply State.clrBit_inv | refine State.inv_ite (fun _ => ?_) fun _ => ?_

theorem State.setDomEn_inv {s : State} {d : ℕ} {on : Bool} (h : s.inv = true) : (State.setDomEn s d on).inv = true := by
  unfold State.setDomEn
  with_reducible repeat' first | assumption | extract_lets | apply State.setBit_inv | apply State.clrBit_inv | refine State.inv_ite (fun _ => ?_) fun _ => ?_

theorem State.unready_inv {s : State} {cap : ℕ} {i : ℕ} (h : s.inv = true) : (State.unready s cap i).inv = true := by
  unfold State.unready
  with_reducible repeat' first | assumption | apply State.inv_keep

theorem State.elapse_inv {dt : ℕ} {s : State} (h : s.inv = true) : (State.elapse dt s).inv = true := by
  unfold State.elapse
  with_reducible repeat' first | assumption | extract_lets | refine State.inv_ite (fun _ => ?_) fun _ => ?_ | apply State.inv_keep

theorem State.freeWord_inv {s : State} (h : s.inv = true) : (State.freeWord s).2.inv = true := by
  unfold State.freeWord
  with_reducible repeat' first | assumption | apply State.inv_keep

theorem State.noteCause_inv {s : State} {code : ℕ} {src : ℕ} {obj : ℕ} (h : s.inv = true) : (State.noteCause s code src obj).inv = true :=
  State.inv_mk (State.inv_regs h) (State.inv_mem h) ⟨State.inv_history h, State.inv_uncleared_map _ h, State.inv_queue h⟩

theorem State.endCause_inv {s : State} {code src obj : ℕ} (h : s.inv = true) : (s.endCause code src obj).inv = true :=
  State.inv_mk (State.inv_regs h) (State.inv_mem h) ⟨State.inv_history h, State.inv_uncleared_map _ h, State.inv_queue h⟩

theorem State.raiseWithin_inv {s : State} {gap : ℕ} {code : ℕ} {src : ℕ} {obj : ℕ} (h : s.inv = true) : (State.raiseWithin s gap code src obj).inv = true := by
  unfold State.raiseWithin
  with_reducible repeat' first | assumption | extract_lets | apply State.noteCause_inv | apply State.setBit_inv | refine State.inv_ite (fun _ => ?_) fun _ => ?_ | refine inv_foldl ?_ fun _ _ _ => ?_ | apply State.inv_keepFlt

theorem State.raise_inv {s : State} {code : ℕ} {src : ℕ} {obj : ℕ} (h : s.inv = true) : (State.raise s code src obj).inv = true := by
  unfold State.raise
  with_reducible repeat' first | assumption | apply State.raiseWithin_inv

theorem State.raiseAll_inv {s : State} {code : ℕ} {src : ℕ} {objs : List ℕ} (h : s.inv = true) : (State.raiseAll s code src objs).inv = true := by
  unfold State.raiseAll
  with_reducible repeat' first | assumption | apply State.raise_inv | refine inv_foldl ?_ fun _ _ _ => ?_

theorem State.allocBuffer_inv {s : State} {kind : ℕ} {id : ℕ} {n : ℕ} {size : ℕ} (h : s.inv = true) : (State.allocBuffer s kind id n size).2.inv = true := by
  unfold State.allocBuffer
  with_reducible repeat' first | assumption | extract_lets | apply State.inv_keepMem

theorem State.freeBuffer_inv {s : State} {kind : ℕ} {id : ℕ} (h : s.inv = true) : (State.freeBuffer s kind id).inv = true := by
  unfold State.freeBuffer
  with_reducible repeat' first | assumption | extract_lets | apply State.inv_keepMem

theorem State.dramPut_inv {s : State} {k : ℕ} {b : Byte} (h : s.inv = true) : (s.dramPut k b).inv = true :=
  State.inv_mk (State.inv_regs h) ⟨State.inv_sram h, Memory.wf_write k b (State.inv_dram h)⟩ (State.inv_flt h)

theorem State.loseDram_inv {s : State} {lo hi : ℕ} (h : s.inv = true) : (s.loseDram lo hi).inv = true :=
  State.inv_mk (State.inv_regs h) ⟨State.inv_sram h, Memory.wf_dropRange lo hi (State.inv_dram h)⟩ (State.inv_flt h)

theorem State.memPut_inv {s : State} {a : ℕ} {b : Byte} (h : s.inv = true) : (s.memPut a b).inv = true := by
  unfold State.memPut
  split
  · exact State.inv_mk (State.inv_regs h) ⟨Memory.wf_write _ b (State.inv_sram h), State.inv_dram h⟩ (State.inv_flt h)
  · exact State.dramPut_inv h
  · exact h

theorem State.memWrite_inv {s : State} {a : ℕ} {bs : List Byte} (h : s.inv = true) : (s.memWrite a bs).inv = true := by
  induction bs generalizing s a with
  | nil => exact h
  | cons b bs ih => exact ih (State.memPut_inv h)

theorem State.ringPush_inv {s : State} {n : ℕ} {irq : FieldRef} {bytes : List Byte} (h : s.inv = true) : (State.ringPush s n irq bytes).inv = true := by
  unfold State.ringPush
  with_reducible repeat' first | assumption | extract_lets | apply State.memWrite_inv | apply State.wr_inv

theorem State.modSession_inv {s : State} {id : ℕ} {f : Session → Session} (h : s.inv = true) : (State.modSession s id f).inv = true := by
  unfold State.modSession
  with_reducible repeat' first | assumption | extract_lets | refine State.inv_ite (fun _ => ?_) fun _ => ?_ | apply State.inv_keep

theorem State.sendDatagram_inv {s : State} {m : Nat} {dst : Nat} {sport : Nat} {dport : Nat} {payload : List Byte} (h : s.inv = true) : (State.sendDatagram s m dst sport dport payload).inv = true := by
  unfold State.sendDatagram
  repeat' first | (with_reducible first | assumption | extract_lets | refine State.inv_ite (fun _ => ?_) fun _ => ?_) | (with_reducible first | apply State.inv_keep)

theorem State.sendReply_inv {s : State} {r : Reply} (h : s.inv = true) : (State.sendReply s r).inv = true := by
  unfold State.sendReply
  repeat' first | (with_reducible first | assumption | extract_lets | apply State.ringPush_inv | apply State.sendDatagram_inv | refine fst_inv (by assumption) ?_ | refine snd_inv (by assumption) ?_ | refine State.inv_ite (fun _ => ?_) fun _ => ?_) | split | (with_reducible first | apply State.inv_keep)

theorem State.countEvent_inv {s : State} {x : Session} {m : EvMsg} (h : s.inv = true) : (State.countEvent s x m).inv = true := by
  unfold State.countEvent
  exact State.modSession_inv (State.inv_keep h)

theorem State.ringEvent_inv {s : State} {n : Nat} {x : Session} {m : EvMsg} (h : s.inv = true) : (State.ringEvent s n x m).inv = true := by
  unfold State.ringEvent
  with_reducible repeat' first | assumption | extract_lets | apply State.countEvent_inv | apply State.modSession_inv | apply State.ringPush_inv | apply State.wr_inv | refine State.inv_ite (fun _ => ?_) fun _ => ?_

theorem State.sendEventTo_inv {s : State} {id : Nat} {m : EvMsg} (h : s.inv = true) : (State.sendEventTo s id m).inv = true := by
  unfold State.sendEventTo
  repeat' first | (with_reducible first | assumption | extract_lets | apply State.countEvent_inv | apply State.modSession_inv | apply State.ringEvent_inv | apply State.sendDatagram_inv | refine State.inv_ite (fun _ => ?_) fun _ => ?_) | split | (with_reducible first | apply State.inv_keep)

theorem State.moveEvents_inv {s : State} {id : ℕ} (h : s.inv = true) : (State.moveEvents s id).inv = true := by
  unfold State.moveEvents
  repeat' first | (with_reducible first | assumption | apply State.sendEventTo_inv | apply State.modSession_inv | refine inv_foldl ?_ fun _ _ _ => ?_ | refine State.inv_ite (fun _ => ?_) fun _ => ?_) | split

theorem State.publish_inv {s : State} {m : EvMsg} (h : s.inv = true) : (State.publish s m).inv = true := by
  unfold State.publish
  with_reducible repeat' first | assumption | apply State.sendEventTo_inv | refine inv_foldl ?_ fun _ _ _ => ?_

theorem State.finish_inv {s : State} {session : ℕ} {tag : ℕ} {status : ℕ} {entry : ℕ} (h : s.inv = true) : (State.finish s session tag status entry).inv = true := by
  unfold State.finish
  with_reducible repeat' first | assumption | apply State.sendEventTo_inv | refine State.inv_ite (fun _ => ?_) fun _ => ?_

theorem State.finishAll_inv {s : State} {l : List (ℕ × ℕ × ℕ × ℕ)} (h : s.inv = true) : (s.finishAll l).inv = true := by
  induction l generalizing s with
  | nil => exact h
  | cons x l ih =>
    unfold State.finishAll
    split
    · exact ih h
    · exact ih (State.finish_inv h)

theorem State.ringReady_inv {s : State} {m : EvMsg} (h : s.inv = true) : (State.ringReady s m).inv = true := by
  unfold State.ringReady
  repeat' first | (with_reducible first | assumption | extract_lets | apply State.ringEvent_inv | refine State.inv_ite (fun _ => ?_) fun _ => ?_ | refine inv_foldl ?_ fun _ _ _ => ?_) | split

theorem State.pushHeld_inv {s : State} {n : Nat} (h : s.inv = true) : (State.pushHeld s n).inv = true := by
  unfold State.pushHeld
  repeat' first | (with_reducible first | assumption | extract_lets | apply State.ringPush_inv | refine State.inv_ite (fun _ => ?_) fun _ => ?_ | refine inv_foldl ?_ fun _ _ _ => ?_) | (with_reducible first | apply State.inv_keep)

theorem State.setReady_inv {s : State} {cap : ℕ} {i : ℕ} (h : s.inv = true) : (State.setReady s cap i).inv = true := by
  unfold State.setReady
  split
  · exact h
  · exact inv_foldl (State.ringReady_inv (State.publish_inv (State.inv_keep h))) fun _ _ ht => State.pushHeld_inv ht

theorem State.setReadyAll_inv {s : State} {cap : Nat} {n : Nat} (h : s.inv = true) : (State.setReadyAll s cap n).inv = true := by
  unfold State.setReadyAll
  with_reducible repeat' first | assumption | extract_lets | apply State.setReady_inv | refine inv_foldl ?_ fun _ _ _ => ?_

theorem State.await_inv {s : State} {p : Pending} (h : s.inv = true) : (State.await s p).inv = true := by
  unfold State.await
  with_reducible repeat' first | assumption | extract_lets | apply State.inv_keep

theorem State.settle_inv {s : State} (h : s.inv = true) : (State.settle s).inv = true := by
  unfold State.settle
  with_reducible repeat' first | assumption | extract_lets | apply State.finishAll_inv | refine State.inv_ite (fun _ => ?_) fun _ => ?_ | apply State.inv_keep

theorem State.endWait_inv {s : State} {w : Waits} {status : ℕ} (h : s.inv = true) : (State.endWait s w status).inv = true := by
  unfold State.endWait
  with_reducible repeat' first | assumption | extract_lets | apply State.finishAll_inv | apply State.inv_keep

end Sys2Proof.Machine
end

