-- ==== Sys2Proof/Laws/InvVaultOps.lean ====
section
/-!
SUPPORT. Every operation of Machine/VaultOps.lean keeps the invariant of the state.
-/
namespace Sys2Proof.Machine
open Sys2Proof

theorem State.putSlot_inv {s : State} {i : ℕ} {x : Slot} (h : s.inv = true) : (State.putSlot s i x).inv = true := by
  unfold State.putSlot
  with_reducible repeat' first | assumption | extract_lets | apply State.inv_keep

theorem State.draw_inv {s : State} (h : s.inv = true) : (State.draw s).2.inv = true := by
  unfold State.draw
  with_reducible repeat' first | assumption | extract_lets | apply State.inv_keep

theorem State.emptySlot_inv {s : State} {i : ℕ} {byCascade : Bool} (h : s.inv = true) : (State.emptySlot s i byCascade).inv = true := by
  unfold State.emptySlot
  with_reducible repeat' first | assumption | extract_lets | apply State.endCause_inv | apply State.putSlot_inv | refine State.inv_ite (fun _ => ?_) fun _ => ?_

theorem State.fillSlot_inv {s : State} {i : ℕ} {x : Slot} (h : s.inv = true) : (State.fillSlot s i x).inv = true := by
  unfold State.fillSlot
  with_reducible repeat' first | assumption | apply State.putSlot_inv

theorem State.countSlots_inv {s : State} (h : s.inv = true) : (State.countSlots s).inv = true := by
  unfold State.countSlots
  with_reducible repeat' first | assumption | extract_lets | apply State.wr_inv

theorem State.staleSlot_inv {s : State} {i : ℕ} (h : s.inv = true) : (State.staleSlot s i).inv = true := by
  unfold State.staleSlot
  with_reducible repeat' first | assumption | extract_lets | apply State.putSlot_inv | refine State.inv_ite (fun _ => ?_) fun _ => ?_

theorem State.revokeSessions_inv {s : State} {is : List ℕ} (h : s.inv = true) : (State.revokeSessions s is).inv = true := by
  unfold State.revokeSessions
  with_reducible repeat' first | assumption | extract_lets | refine State.inv_ite (fun _ => ?_) fun _ => ?_ | apply State.inv_keep

theorem State.cascade_inv {s : State} {i : ℕ} {ds : List ℕ} (h : s.inv = true) : (State.cascade s i ds).inv = true := by
  unfold State.cascade
  with_reducible repeat' first | assumption | extract_lets | apply State.staleSlot_inv | apply State.countSlots_inv | apply State.revokeSessions_inv | refine inv_foldl ?_ fun _ _ _ => ?_ | apply State.inv_keep

theorem State.invalidate_inv {s : State} {i : ℕ} (h : s.inv = true) : (State.invalidate s i).inv = true := by
  unfold State.invalidate
  with_reducible repeat' first | assumption | extract_lets | apply State.cascade_inv | apply State.emptySlot_inv

theorem State.badSlot_inv {s : State} {i : ℕ} (h : s.inv = true) : (State.badSlot s i).inv = true := by
  unfold State.badSlot
  with_reducible repeat' first | assumption | extract_lets | apply State.bump_inv | apply State.putSlot_inv | apply State.cascade_inv | apply State.raise_inv | refine State.inv_ite (fun _ => ?_) fun _ => ?_

theorem State.readFuses_inv {s : State} (h : s.inv = true) : (State.readFuses s).inv = true := by
  unfold State.readFuses
  with_reducible repeat' first | assumption | extract_lets | apply State.wr_inv

theorem State.formPairKey_inv {s : State} (h : s.inv = true) : (State.formPairKey s).inv = true := by
  unfold State.formPairKey
  with_reducible repeat' first | assumption | extract_lets | apply State.inv_keep

theorem State.formLookKey_inv {s : State} (h : s.inv = true) : (State.formLookKey s).inv = true := by
  unfold State.formLookKey
  with_reducible repeat' first | assumption | extract_lets | apply State.inv_keep

theorem State.refilled_inv {s : State} {i : ℕ} (h : s.inv = true) : (State.refilled s i).inv = true := by
  unfold State.refilled
  with_reducible repeat' first | assumption | extract_lets | apply State.formPairKey_inv | apply State.formLookKey_inv | refine State.inv_ite (fun _ => ?_) fun _ => ?_

end Sys2Proof.Machine
end

