-- ==== Sys2Proof/Laws/InvSlots.lean ====
section
/-!
SUPPORT. Every operation of Machine/Slots.lean keeps the invariant of the state.
-/
namespace Sys2Proof.Machine
open Sys2Proof

theorem State.putLane_inv {s : State} {x : Lane} (h : s.inv = true) : (State.putLane s x).inv = true := by
  unfold State.putLane
  with_reducible repeat' first | assumption | apply State.inv_keep

theorem State.putEnc_inv {s : State} {x : EncChan} (h : s.inv = true) : (State.putEnc s x).inv = true := by
  unfold State.putEnc
  with_reducible repeat' first | assumption | extract_lets | refine State.inv_ite (fun _ => ?_) fun _ => ?_ | apply State.inv_keep

theorem State.putCur_inv {s : State} {q : ℕ} {x : Sel} (h : s.inv = true) : (State.putCur s q x).inv = true := by
  unfold State.putCur
  with_reducible repeat' first | assumption | apply State.wr_inv

theorem State.putShd_inv {s : State} {q : ℕ} {x : Sel} (h : s.inv = true) : (State.putShd s q x).inv = true := by
  unfold State.putShd
  with_reducible repeat' first | assumption | apply State.wr_inv

theorem State.setOutEn_inv {s : State} {n : ℕ} {on : Bool} (h : s.inv = true) : (State.setOutEn s n on).inv = true := by
  unfold State.setOutEn
  with_reducible repeat' first | assumption | apply State.setBit_inv | apply State.clrBit_inv | refine State.inv_ite (fun _ => ?_) fun _ => ?_

theorem State.putSink_inv {s : State} {x : Sink} (h : s.inv = true) : (State.putSink s x).inv = true := by
  unfold State.putSink
  with_reducible repeat' first | assumption | extract_lets | apply State.inv_keep

end Sys2Proof.Machine
end

