-- ==== Sys2Proof/Laws/InvMeridians.lean ====
section
/-!
SUPPORT. Every operation of Machine/Meridians.lean keeps the invariant of the state.
-/
namespace Sys2Proof.Machine
open Sys2Proof

theorem State.putGenerator_inv {s : State} {g : ℕ} {x : Generator} (h : s.inv = true) : (State.putGenerator s g x).inv = true := by
  unfold State.putGenerator
  with_reducible repeat' first | assumption | extract_lets | apply State.inv_keep

theorem State.generatorsStep_inv {s : State} {old : ℕ} {new : ℕ} (h : s.inv = true) : (State.generatorsStep s old new).inv = true := by
  unfold State.generatorsStep
  repeat' first | (with_reducible first | assumption | extract_lets | apply State.raise_inv | apply State.wr_inv | apply State.putGenerator_inv | refine inv_foldl ?_ fun _ _ _ => ?_) | split

theorem State.ephCount_inv {s : State} (h : s.inv = true) : (State.ephCount s).inv = true := by
  unfold State.ephCount
  with_reducible repeat' first | assumption | extract_lets | apply State.wr_inv | apply State.raise_inv | apply State.endCause_inv | refine State.inv_ite (fun _ => ?_) fun _ => ?_

theorem State.addTake_inv {s : State} {t : Take} (h : s.inv = true) : (State.addTake s t).inv = true := by
  unfold State.addTake
  with_reducible repeat' first | assumption | extract_lets | apply State.ephCount_inv | apply State.inv_keep

theorem State.loadRoute_inv {s : State} {r : RouteRec} (h : s.inv = true) : (State.loadRoute s r).inv = true := by
  unfold State.loadRoute
  with_reducible repeat' first | assumption | extract_lets | apply State.putShd_inv | apply State.setOutEn_inv | refine State.inv_ite (fun _ => ?_) fun _ => ?_ | refine inv_foldl ?_ fun _ _ _ => ?_

theorem State.loadDue_inv {s : State} {g : ℕ} {f : ℕ} (h : s.inv = true) : (State.loadDue s g f).inv = true := by
  unfold State.loadDue
  with_reducible repeat' first | assumption | extract_lets | apply State.bump_inv | apply State.loadRoute_inv | refine State.inv_ite (fun _ => ?_) fun _ => ?_ | refine inv_foldl ?_ fun _ _ _ => ?_ | apply State.inv_keep

theorem State.audioTake_inv {s : State} {k : Nat} {old : Nat → Nat} {noFollow : Bool} {cut : Bool} {dip : Bool} {ms : Nat} {firstAt : Nat → Nat} {order : Nat} (h : s.inv = true) : (State.audioTake s k old noFollow cut dip ms firstAt order).inv = true := by
  unfold State.audioTake
  repeat' first | (with_reducible first | assumption | extract_lets | apply State.putSink_inv | refine fst_inv (by assumption) ?_ | refine snd_inv (by assumption) ?_ | refine State.inv_ite (fun _ => ?_) fun _ => ?_ | refine inv_foldl ?_ fun _ _ _ => ?_) | split | (with_reducible first | apply State.inv_keep | apply State.inv_keepMem | apply State.inv_keepFlt)

theorem State.putPort_inv {s : State} {x : OutPort} (h : s.inv = true) : (State.putPort s x).inv = true := by
  unfold State.putPort
  with_reducible repeat' first | assumption | extract_lets | apply State.inv_keep

theorem State.shadowWritten_inv {old : State} {s : State} {q : Nat} (h : old.inv = true) (h1 : s.inv = true) : (State.shadowWritten old s q).inv = true := by
  unfold State.shadowWritten
  repeat' first | (with_reducible first | assumption | extract_lets | refine fst_inv (by assumption) ?_ | refine snd_inv (by assumption) ?_ | refine State.inv_ite (fun _ => ?_) fun _ => ?_ | refine inv_foldl ?_ fun _ _ _ => ?_) | split | (with_reducible first | apply State.inv_keep | apply State.inv_keepMem | apply State.inv_keepFlt)

theorem State.applyShadow_inv {s : State} {g : Nat} {f : Nat} {q : Nat} (h : s.inv = true) : (State.applyShadow s g f q).inv = true := by
  unfold State.applyShadow
  repeat' first | (with_reducible first | assumption | extract_lets | apply State.audioTake_inv | apply State.putCur_inv | apply State.putPort_inv | apply State.wr_inv | refine fst_inv (by assumption) ?_ | refine snd_inv (by assumption) ?_ | refine State.inv_ite (fun _ => ?_) fun _ => ?_ | refine inv_foldl ?_ fun _ _ _ => ?_) | split | (with_reducible first | apply State.inv_keep | apply State.inv_keepMem | apply State.inv_keepFlt)

theorem State.freeLoaded_inv {s : State} {g : ℕ} (h : s.inv = true) : (State.freeLoaded s g).inv = true := by
  unfold State.freeLoaded
  with_reducible repeat' first | assumption | extract_lets | apply State.ephCount_inv | apply State.finishAll_inv | refine State.inv_ite (fun _ => ?_) fun _ => ?_ | apply State.inv_keep

theorem State.loseRoutes_inv {s : State} {lost : RouteRec → Bool} (h : s.inv = true) : (State.loseRoutes s lost).inv = true := by
  unfold State.loseRoutes
  with_reducible repeat' first | assumption | extract_lets | apply State.ephCount_inv | apply State.finishAll_inv | refine State.inv_ite (fun _ => ?_) fun _ => ?_ | apply State.inv_keep

theorem State.countLate_inv {s : State} {g : ℕ} {f : ℕ} (h : s.inv = true) : (State.countLate s g f).inv = true := by
  unfold State.countLate
  with_reducible repeat' first | assumption | extract_lets | apply State.raise_inv | apply State.bump_inv | refine State.inv_ite (fun _ => ?_) fun _ => ?_ | refine inv_foldl ?_ fun _ _ _ => ?_ | apply State.inv_keep


theorem State.ageCause_inv {s : State} {code : Nat} {src : Nat} {obj : Nat} {since : Nat} (h : s.inv = true) : (State.ageCause s code src obj since).inv = true := by
  unfold State.ageCause
  repeat' first | (with_reducible first | assumption | extract_lets | apply State.endCause_inv | refine fst_inv (by assumption) ?_ | refine snd_inv (by assumption) ?_ | refine State.inv_ite (fun _ => ?_) fun _ => ?_ | refine inv_foldl ?_ fun _ _ _ => ?_) | split | (with_reducible first | apply State.inv_keep | apply State.inv_keepMem | apply State.inv_keepFlt)

theorem State.endFrame_inv {s : State} {since : Nat} {q : Nat} (h : s.inv = true) : (State.endFrame s since q).inv = true := by
  unfold State.endFrame
  repeat' first | (with_reducible first | assumption | extract_lets | apply State.ageCause_inv | apply State.putPort_inv | refine fst_inv (by assumption) ?_ | refine snd_inv (by assumption) ?_ | refine State.inv_ite (fun _ => ?_) fun _ => ?_ | refine inv_foldl ?_ fun _ _ _ => ?_) | split | (with_reducible first | apply State.inv_keep | apply State.inv_keepMem | apply State.inv_keepFlt)

theorem State.closeOutput_inv {s : State} {q : ℕ} (h : s.inv = true) : (State.closeOutput s q).inv = true := by
  unfold State.closeOutput
  with_reducible repeat' first | assumption | extract_lets | apply State.setOutEn_inv | refine State.inv_ite (fun _ => ?_) fun _ => ?_

theorem State.freshPort_inv {s : State} {n : Nat} (h : s.inv = true) : (State.freshPort s n).inv = true := by
  unfold State.freshPort
  with_reducible repeat' first | assumption | extract_lets | apply State.putPort_inv

theorem State.freePort_inv {s : State} {kind : Nat} {id : Nat} (h : s.inv = true) : (State.freePort s kind id).inv = true := by
  unfold State.freePort
  repeat' first | (with_reducible first | assumption | extract_lets | apply State.freshPort_inv | apply State.setOutEn_inv | apply State.wr_inv | refine inv_foldl ?_ fun _ _ _ => ?_) | (with_reducible first | apply State.inv_keep)

theorem State.takePort_inv {s : State} {kind : Nat} {id : Nat} {follow : Bool} {k : Nat} {g : Nat} (h : s.inv = true) : (State.takePort s kind id follow k g).inv = true := by
  unfold State.takePort
  repeat' first | (with_reducible first | assumption | extract_lets | apply State.freshPort_inv | apply State.putCur_inv | apply State.setOutEn_inv | refine fst_inv (by assumption) ?_ | refine snd_inv (by assumption) ?_ | refine State.inv_ite (fun _ => ?_) fun _ => ?_) | split | (with_reducible first | apply State.inv_keep)

theorem State.takePorts_inv {s : State} {kind : ℕ} {id : ℕ} {follow : Bool} {k : ℕ} {g : ℕ} (h : s.inv = true) : (State.takePorts s kind id follow k g).inv = true := by
  unfold State.takePorts
  with_reducible repeat' first | assumption | apply State.takePort_inv | refine inv_foldl ?_ fun _ _ _ => ?_

theorem State.followOutputs_inv {s : State} {g : ℕ} (h : s.inv = true) : (State.followOutputs s g).inv = true := by
  unfold State.followOutputs
  with_reducible repeat' first | assumption | extract_lets | apply State.takePorts_inv | apply State.freePort_inv | refine State.inv_ite (fun _ => ?_) fun _ => ?_ | refine inv_foldl ?_ fun _ _ _ => ?_

theorem State.freshReaders_inv {s : State} {k : Nat} {g : Nat} (h : s.inv = true) : (State.freshReaders s k g).inv = true := by
  unfold State.freshReaders
  repeat' first | (with_reducible first | assumption | extract_lets | apply State.putPort_inv | refine fst_inv (by assumption) ?_ | refine snd_inv (by assumption) ?_ | refine State.inv_ite (fun _ => ?_) fun _ => ?_ | refine inv_foldl ?_ fun _ _ _ => ?_) | split | (with_reducible first | apply State.inv_keep | apply State.inv_keepMem | apply State.inv_keepFlt)

theorem State.releaseChannel_inv {s : State} {c : Landing} (h : s.inv = true) : (State.releaseChannel s c).inv = true := by
  unfold State.releaseChannel
  repeat' first | (with_reducible first | assumption | extract_lets | apply State.endCause_inv | apply State.finish_inv | apply State.freeBuffer_inv | apply State.freePort_inv | apply State.freshReaders_inv | apply State.wr_inv | refine State.inv_ite (fun _ => ?_) fun _ => ?_ | refine inv_foldl ?_ fun _ _ _ => ?_) | (with_reducible first | apply State.inv_keep | apply State.inv_keepMem)

theorem State.landingChange_inv {s : State} {g : Nat} (h : s.inv = true) : (State.landingChange s g).inv = true := by
  unfold State.landingChange
  repeat' first | (with_reducible first | assumption | extract_lets | apply State.finish_inv | apply State.freshReaders_inv | apply State.releaseChannel_inv | refine State.inv_ite (fun _ => ?_) fun _ => ?_ | refine inv_foldl ?_ fun _ _ _ => ?_) | (with_reducible first | apply State.inv_keep | apply State.inv_keepMem)

theorem State.endFreeRuns_inv {s : State} (h : s.inv = true) : (State.endFreeRuns s).inv = true := by
  unfold State.endFreeRuns
  repeat' first | (with_reducible first | assumption | extract_lets | apply State.endCause_inv | refine fst_inv (by assumption) ?_ | refine snd_inv (by assumption) ?_ | refine State.inv_ite (fun _ => ?_) fun _ => ?_ | refine inv_foldl ?_ fun _ _ _ => ?_) | split | (with_reducible first | apply State.inv_keep | apply State.inv_keepMem | apply State.inv_keepFlt)

theorem State.meridian_inv {s : State} {g : Nat} {f : Nat} {m : Nat} (h : s.inv = true) : (State.meridian s g f m).inv = true := by
  unfold State.meridian
  repeat' first | (with_reducible first | assumption | extract_lets | apply State.applyShadow_inv | apply State.closeOutput_inv | apply State.countLate_inv | apply State.endCause_inv | apply State.endFrame_inv | apply State.followOutputs_inv | apply State.freeLoaded_inv | apply State.landingChange_inv | apply State.putGenerator_inv | apply State.raise_inv | apply State.wr_inv | apply State.wr64_inv | refine fst_inv (by assumption) ?_ | refine snd_inv (by assumption) ?_ | refine State.inv_ite (fun _ => ?_) fun _ => ?_ | refine inv_foldl ?_ fun _ _ _ => ?_) | split | (with_reducible first | apply State.inv_keep | apply State.inv_keepMem | apply State.inv_keepFlt)

theorem State.rephase_inv {s : State} {g : ℕ} {counted : Bool} (h : s.inv = true) : (State.rephase s g counted).inv = true := by
  unfold State.rephase
  with_reducible repeat' first | assumption | extract_lets | apply State.raise_inv | apply State.wr_inv | apply State.bump_inv | refine State.inv_ite (fun _ => ?_) fun _ => ?_

end Sys2Proof.Machine
end

