-- ==== Sys2Proof/Laws/InvLayers.lean ====
section
/-!
SUPPORT. Every operation of Machine/Layers.lean keeps the invariant of the state.
-/
namespace Sys2Proof.Machine
open Sys2Proof

theorem State.putVid_inv {s : State} {h : ℕ} {l : ℕ} {v : VidSet} (hi : s.inv = true) : (State.putVid s h l v).inv = true := by
  unfold State.putVid
  with_reducible repeat' first | assumption | extract_lets | apply State.wr_inv | refine inv_foldl ?_ fun _ _ _ => ?_

theorem State.putLayer_inv {s : State} {x : LayerRun} (h : s.inv = true) : (State.putLayer s x).inv = true := by
  unfold State.putLayer
  with_reducible repeat' first | assumption | extract_lets | apply State.inv_keep

theorem State.headEvent_inv {s : State} {h : ℕ} {code : ℕ} {obj : ℕ} (hi : s.inv = true) : (State.headEvent s h code obj).inv = true := by
  unfold State.headEvent
  with_reducible repeat' first | assumption | apply State.raiseWithin_inv

theorem State.newHeadFrame_inv {s : State} {h : Nat} (hs : s.inv = true) : (State.newHeadFrame s h).inv = true := by
  unfold State.newHeadFrame
  repeat' first | (with_reducible first | assumption | extract_lets) | (with_reducible first | apply State.inv_keep | apply State.inv_keepFlt)

theorem State.writeRows_inv {s : State} {h : ℕ} {l : ℕ} {v : VidSet} {t a4 : ℕ} (hi : s.inv = true) : (State.writeRows s h l v t a4).inv = true := by
  induction a4 generalizing s with
  | zero => exact hi
  | succ n ih =>
    unfold State.writeRows
    repeat' first | (with_reducible first | assumption | apply ih | extract_lets | apply State.putLayer_inv | apply State.memWrite_inv | refine State.inv_ite (fun _ => ?_) fun _ => ?_ | refine inv_foldl ?_ fun _ _ _ => ?_) | split

theorem State.layerBad_inv {s : State} {h : ℕ} {l : ℕ} (hi : s.inv = true) : (State.layerBad s h l).inv = true := by
  unfold State.layerBad
  with_reducible repeat' first | assumption | extract_lets | apply State.headEvent_inv | apply State.wr_inv | apply State.putLayer_inv

theorem State.layerCell_inv {s : State} {h : ℕ} {l : ℕ} {v : VidSet} {member : ℕ} {sof : Bool} {f2 : Bool} {eol : Bool} {line : ℕ} {index t : ℕ} {payload : List Byte} (hi : s.inv = true) : (State.layerCell s h l v member sof f2 eol line index t payload).inv = true := by
  unfold State.layerCell
  repeat' first | (with_reducible first | assumption | extract_lets | apply State.layerBad_inv | apply State.putLayer_inv | apply State.headEvent_inv | apply State.wr_inv | apply State.writeRows_inv | refine State.inv_ite (fun _ => ?_) fun _ => ?_)

theorem State.layerWrite_inv {s : State} {k : ℕ} {sof : Bool} {f2 : Bool} {eol : Bool} {line : ℕ} {index t : ℕ} {payload : List Byte} (h : s.inv = true) : (State.layerWrite s k sof f2 eol line index t payload).inv = true := by
  unfold State.layerWrite
  repeat' first | (with_reducible first | assumption | extract_lets | apply State.layerCell_inv | refine State.inv_ite (fun _ => ?_) fun _ => ?_ | refine inv_foldl ?_ fun _ _ _ => ?_) | split

theorem State.takeFrame_inv {s : State} {h : ℕ} {l : ℕ} (hi : s.inv = true) : (State.takeFrame s h l).inv = true := by
  unfold State.takeFrame
  with_reducible repeat' first | assumption | extract_lets | apply State.wr_inv | apply State.putLayer_inv | apply State.bump_inv | apply State.writeRows_inv | refine State.inv_ite (fun _ => ?_) fun _ => ?_

end Sys2Proof.Machine
end

