-- ==== Sys2Proof/Laws/InvFabric.lean ====
section
/-!
SUPPORT. Every operation of Machine/Fabric.lean keeps the invariant of the state.
-/
namespace Sys2Proof.Machine
open Sys2Proof

theorem State.putSource_inv {s : State} {x : SourceRec} (h : s.inv = true) : (State.putSource s x).inv = true := by
  unfold State.putSource
  with_reducible repeat' first | assumption | extract_lets | apply State.inv_keep

theorem State.beginMeasure_inv {s : State} {k : ℕ} (h : s.inv = true) : (State.beginMeasure s k).inv = true := by
  unfold State.beginMeasure
  with_reducible repeat' first | assumption | extract_lets | apply State.putSource_inv

theorem State.slotIdle_inv {s : State} {k : Nat} (h : s.inv = true) : (State.slotIdle s k).inv = true := by
  unfold State.slotIdle
  repeat' first | (with_reducible first | assumption | extract_lets | apply State.putSource_inv | refine fst_inv (by assumption) ?_ | refine snd_inv (by assumption) ?_ | refine State.inv_ite (fun _ => ?_) fun _ => ?_ | refine inv_foldl ?_ fun _ _ _ => ?_) | split | (with_reducible first | apply State.inv_keep | apply State.inv_keepMem | apply State.inv_keepFlt)

theorem State.alarmIf_inv {s : State} {c : Bool} {code : Nat} {obj : Nat} (h : s.inv = true) : (State.alarmIf s c code obj).inv = true := by
  unfold State.alarmIf
  repeat' first | (with_reducible first | assumption | extract_lets | apply State.raiseWithin_inv | refine fst_inv (by assumption) ?_ | refine snd_inv (by assumption) ?_ | refine State.inv_ite (fun _ => ?_) fun _ => ?_ | refine inv_foldl ?_ fun _ _ _ => ?_) | split | (with_reducible first | apply State.inv_keep | apply State.inv_keepMem | apply State.inv_keepFlt)

theorem State.windowAlarms_inv {s : State} {k : ℕ} {o : Offset} (h : s.inv = true) : (State.windowAlarms s k o).inv = true := by
  unfold State.windowAlarms
  with_reducible repeat' first | assumption | extract_lets | apply State.alarmIf_inv

theorem State.sofArrives_inv {s : State} {k : Nat} {seq : Nat} (h : s.inv = true) : (State.sofArrives s k seq).inv = true := by
  unfold State.sofArrives
  repeat' first | (with_reducible first | assumption | extract_lets | apply State.ageCause_inv | apply State.putSource_inv | apply State.windowAlarms_inv | refine fst_inv (by assumption) ?_ | refine snd_inv (by assumption) ?_ | refine State.inv_ite (fun _ => ?_) fun _ => ?_ | refine inv_foldl ?_ fun _ _ _ => ?_) | split | (with_reducible first | apply State.inv_keep | apply State.inv_keepMem | apply State.inv_keepFlt)

theorem State.putLanding_inv {s : State} {c : Landing} (h : s.inv = true) : (State.putLanding s c).inv = true := by
  unfold State.putLanding
  with_reducible repeat' first | assumption | extract_lets | refine State.inv_ite (fun _ => ?_) fun _ => ?_ | apply State.inv_keep

theorem State.dropDone_inv {s : State} {c : Landing} (h : s.inv = true) : (State.dropDone s c).inv = true := by
  unfold State.dropDone
  repeat' first | (with_reducible first | assumption | extract_lets | apply State.bump_inv | refine fst_inv (by assumption) ?_ | refine snd_inv (by assumption) ?_ | refine State.inv_ite (fun _ => ?_) fun _ => ?_ | refine inv_foldl ?_ fun _ _ _ => ?_) | split | (with_reducible first | apply State.inv_keep | apply State.inv_keepMem | apply State.inv_keepFlt)

theorem State.landingLost_inv {s : State} {c : Landing} {t : Nat} (h : s.inv = true) : (State.landingLost s c t).inv = true := by
  unfold State.landingLost
  with_reducible repeat' first | assumption | extract_lets | refine State.inv_ite (fun _ => ?_) fun _ => ?_ | apply State.inv_keep

theorem State.landingAlarm_inv {s : State} {code : Nat} {chan : Nat} (h : s.inv = true) : (State.landingAlarm s code chan).inv = true := by
  unfold State.landingAlarm
  repeat' first | (with_reducible first | assumption | extract_lets | apply State.raiseWithin_inv | refine fst_inv (by assumption) ?_ | refine snd_inv (by assumption) ?_ | refine State.inv_ite (fun _ => ?_) fun _ => ?_ | refine inv_foldl ?_ fun _ _ _ => ?_) | split | (with_reducible first | apply State.inv_keep | apply State.inv_keepMem | apply State.inv_keepFlt)

theorem State.groupComplete_inv {s : State} {c : Landing} {tag : Nat} (h : s.inv = true) : (State.groupComplete s c tag).inv = true := by
  unfold State.groupComplete
  repeat' first | (with_reducible first | assumption | extract_lets | apply State.bump_inv | apply State.dropDone_inv | refine fst_inv (by assumption) ?_ | refine snd_inv (by assumption) ?_ | refine State.inv_ite (fun _ => ?_) fun _ => ?_ | refine inv_foldl ?_ fun _ _ _ => ?_) | split | (with_reducible first | apply State.inv_keep | apply State.inv_keepMem | apply State.inv_keepFlt)

theorem State.frameComplete_inv {s : State} {c : Landing} {tag : Nat} {buf : Nat} {sofAt : Nat} {t : Nat} (h : s.inv = true) : (State.frameComplete s c tag buf sofAt t).inv = true := by
  unfold State.frameComplete
  repeat' first | (with_reducible first | assumption | extract_lets | apply State.groupComplete_inv | apply State.putLanding_inv | refine fst_inv (by assumption) ?_ | refine snd_inv (by assumption) ?_ | refine State.inv_ite (fun _ => ?_) fun _ => ?_ | refine inv_foldl ?_ fun _ _ _ => ?_) | split | (with_reducible first | apply State.inv_keep | apply State.inv_keepMem | apply State.inv_keepFlt)

theorem State.landingFormat_inv {s : State} {c : Landing} {t : Nat} (h : s.inv = true) : (State.landingFormat s c t).inv = true := by
  unfold State.landingFormat
  repeat' first | (with_reducible first | assumption | extract_lets | apply State.landingAlarm_inv | apply State.landingLost_inv | apply State.putLanding_inv | refine fst_inv (by assumption) ?_ | refine snd_inv (by assumption) ?_ | refine State.inv_ite (fun _ => ?_) fun _ => ?_ | refine inv_foldl ?_ fun _ _ _ => ?_) | split | (with_reducible first | apply State.inv_keep | apply State.inv_keepMem | apply State.inv_keepFlt)

theorem State.landingExtra_inv {s : State} {c : Landing} {line : Nat} {tag : Nat} {t : Nat} (h : s.inv = true) : (State.landingExtra s c line tag t).inv = true := by
  unfold State.landingExtra
  repeat' first | (with_reducible first | assumption | extract_lets | apply State.dropDone_inv | apply State.landingFormat_inv | refine fst_inv (by assumption) ?_ | refine snd_inv (by assumption) ?_ | refine State.inv_ite (fun _ => ?_) fun _ => ?_ | refine inv_foldl ?_ fun _ _ _ => ?_) | split | (with_reducible first | apply State.inv_keep | apply State.inv_keepMem | apply State.inv_keepFlt)

theorem State.landingCell_inv {s : State} {c : Landing} {sof : Bool} {f2 : Bool} {line : Nat} {index : Nat} {tag : Nat} {t : Nat} {payload : List Byte} (h : s.inv = true) : (State.landingCell s c sof f2 line index tag t payload).inv = true := by
  unfold State.landingCell
  repeat' first | (with_reducible first | assumption | extract_lets | apply State.dropDone_inv | apply State.frameComplete_inv | apply State.freeBuffer_inv | apply State.landingExtra_inv | apply State.landingFormat_inv | apply State.memWrite_inv | apply State.putLanding_inv | refine fst_inv (by assumption) ?_ | refine snd_inv (by assumption) ?_ | refine State.inv_ite (fun _ => ?_) fun _ => ?_ | refine inv_foldl ?_ fun _ _ _ => ?_) | split | (with_reducible first | apply State.inv_keep | apply State.inv_keepMem | apply State.inv_keepFlt)

theorem State.landingAnc_inv {s : State} {c : Landing} {f2 : Bool} {line : Nat} {index : Nat} {payload : List Byte} (h : s.inv = true) : (State.landingAnc s c f2 line index payload).inv = true := by
  unfold State.landingAnc
  repeat' first | (with_reducible first | assumption | extract_lets | apply State.putLanding_inv | refine fst_inv (by assumption) ?_ | refine snd_inv (by assumption) ?_ | refine State.inv_ite (fun _ => ?_) fun _ => ?_ | refine inv_foldl ?_ fun _ _ _ => ?_) | split | (with_reducible first | apply State.inv_keep | apply State.inv_keepMem | apply State.inv_keepFlt)

theorem State.landingWrite_inv {s : State} {k : Nat} {kind : Nat} {sof : Bool} {f2 : Bool} {line : Nat} {index : Nat} {tag : Nat} {t : Nat} {payload : List Byte} (h : s.inv = true) : (State.landingWrite s k kind sof f2 line index tag t payload).inv = true := by
  unfold State.landingWrite
  repeat' first | (with_reducible first | assumption | extract_lets | apply State.landingAlarm_inv | apply State.landingAnc_inv | apply State.landingCell_inv | apply State.landingLost_inv | refine fst_inv (by assumption) ?_ | refine snd_inv (by assumption) ?_ | refine State.inv_ite (fun _ => ?_) fun _ => ?_ | refine inv_foldl ?_ fun _ _ _ => ?_) | split | (with_reducible first | apply State.inv_keep | apply State.inv_keepMem | apply State.inv_keepFlt)

theorem State.putAudioSource_inv {s : State} {x : AudioSource} (h : s.inv = true) : (State.putAudioSource s x).inv = true := by
  unfold State.putAudioSource
  with_reducible repeat' first | assumption | extract_lets | apply State.inv_keep

theorem State.audioPut_inv {s : State} {n : ℕ} {fs : ℕ} {k : ℕ} {v : ℤ} (h : s.inv = true) : (State.audioPut s n fs k v).inv = true := by
  unfold State.audioPut
  with_reducible repeat' first | assumption | extract_lets | apply State.raise_inv | apply State.putAudioSource_inv | refine State.inv_ite (fun _ => ?_) fun _ => ?_

theorem State.putRate_inv {s : State} {x : RateRec} (h : s.inv = true) : (State.putRate s x).inv = true := by
  unfold State.putRate
  repeat' first | (with_reducible first | assumption | extract_lets) | (with_reducible first | apply State.inv_keep)

theorem State.noteSamples_inv {s : State} {kind : Nat} {i : Nat} {n : Nat} (h : s.inv = true) : (State.noteSamples s kind i n).inv = true := by
  unfold State.noteSamples
  with_reducible repeat' first | assumption | extract_lets | apply State.putRate_inv

theorem State.deembed_inv {s : State} {k : Nat} {p : List Byte} (h : s.inv = true) : (State.deembed s k p).inv = true := by
  unfold State.deembed
  with_reducible repeat' first | assumption | extract_lets | apply State.audioPut_inv | apply State.noteSamples_inv | apply State.putAudioSource_inv | refine State.inv_ite (fun _ => ?_) fun _ => ?_ | refine inv_foldl ?_ fun _ _ _ => ?_

theorem State.pruneHashes_inv {s : State} {g : ℕ} {frame : ℕ} (h : s.inv = true) : (State.pruneHashes s g frame).inv = true := by
  unfold State.pruneHashes
  with_reducible repeat' first | assumption | extract_lets | refine State.inv_ite (fun _ => ?_) fun _ => ?_ | apply State.inv_keep

theorem State.hashCell_inv {s : State} {slot : ℕ} {g : ℕ} {cell : List Byte} (h : s.inv = true) : (State.hashCell s slot g cell).inv = true := by
  unfold State.hashCell
  with_reducible repeat' first | assumption | extract_lets | apply State.pruneHashes_inv | refine State.inv_ite (fun _ => ?_) fun _ => ?_ | refine inv_foldl ?_ fun _ _ _ => ?_ | apply State.inv_keep

theorem State.followCell_inv {s : State} {c : DeckCell} (h : s.inv = true) : (State.followCell s c).inv = true := by
  unfold State.followCell
  with_reducible repeat' first | assumption | extract_lets | apply State.landingWrite_inv | apply State.layerWrite_inv | refine State.inv_ite (fun _ => ?_) fun _ => ?_

theorem State.followReads_inv {s : State} (h : s.inv = true) : (State.followReads s).inv = true := by
  unfold State.followReads
  repeat' first | (with_reducible first | assumption | extract_lets | apply State.followCell_inv | refine State.inv_ite (fun _ => ?_) fun _ => ?_ | refine inv_foldl ?_ fun _ _ _ => ?_) | split | (with_reducible first | apply State.inv_keep)

theorem State.deckSweep_inv {s : State} (h : s.inv = true) : (State.deckSweep s).inv = true := by
  unfold State.deckSweep
  with_reducible repeat' first | assumption | extract_lets | apply State.inv_keep

theorem State.deckStore_inv {s0 : State} {w : Writer} {c : DeckCell} (h : s0.inv = true) : (State.deckStore s0 w c).inv = true := by
  unfold State.deckStore
  repeat' first | (with_reducible first | assumption | extract_lets | apply State.bump_inv | apply State.deckSweep_inv | apply State.raiseWithin_inv | apply State.wr_inv | refine fst_inv (by assumption) ?_ | refine snd_inv (by assumption) ?_ | refine State.inv_ite (fun _ => ?_) fun _ => ?_ | refine inv_foldl ?_ fun _ _ _ => ?_) | split | (with_reducible first | apply State.inv_keep | apply State.inv_keepMem | apply State.inv_keepFlt)

theorem State.landingBack_inv {s : State} {c : Landing} {kind : Nat} {f2 : Bool} {line : Nat} {index : Nat} (h : s.inv = true) : (State.landingBack s c kind f2 line index).2.inv = true := by
  unfold State.landingBack
  repeat' first | (with_reducible first | assumption | extract_lets | apply State.landingAlarm_inv | refine fst_inv (by assumption) ?_ | refine snd_inv (by assumption) ?_ | refine State.inv_ite (fun _ => ?_) fun _ => ?_ | refine inv_foldl ?_ fun _ _ _ => ?_) | split | (with_reducible first | apply State.inv_keep | apply State.inv_keepMem | apply State.inv_keepFlt)

theorem State.fabricTake_inv {s : State} {w : Writer} {cell : List Byte} (h : s.inv = true) : (State.fabricTake s w cell).inv = true := by
  unfold State.fabricTake
  repeat' first | (with_reducible first | assumption | extract_lets | apply State.deckStore_inv | apply State.deembed_inv | apply State.hashCell_inv | apply State.landingWrite_inv | apply State.layerWrite_inv | apply State.putSource_inv | apply State.raiseWithin_inv | apply State.slotIdle_inv | apply State.sofArrives_inv | refine fst_inv (by assumption) ?_ | refine snd_inv (by assumption) ?_ | refine State.inv_ite (fun _ => ?_) fun _ => ?_ | refine inv_foldl ?_ fun _ _ _ => ?_) | split | (with_reducible first | apply State.inv_keep | apply State.inv_keepMem | apply State.inv_keepFlt)

theorem State.boundaryLost_inv {s : State} {cell : List Byte} (h : s.inv = true) : (State.boundaryLost s cell).inv = true := by
  unfold State.boundaryLost
  with_reducible repeat' first | assumption | extract_lets | apply State.putSource_inv | refine State.inv_ite (fun _ => ?_) fun _ => ?_

theorem State.fabricWrite_inv {s : State} {w : Writer} {cell : List Byte} (h : s.inv = true) : (State.fabricWrite s w cell).inv = true := by
  unfold State.fabricWrite
  repeat' first | (with_reducible first | assumption | extract_lets | apply State.boundaryLost_inv | apply State.fabricTake_inv | apply State.landingBack_inv | refine State.inv_ite (fun _ => ?_) fun _ => ?_) | split

theorem State.deckMark_inv {s : State} {c : DeckCell} (h : s.inv = true) : (State.deckMark s c).inv = true := by
  unfold State.deckMark
  with_reducible repeat' first | assumption | extract_lets | refine State.inv_ite (fun _ => ?_) fun _ => ?_ | apply State.inv_keep

theorem State.feedEncoders_inv {s : State} {q : Nat} {bytes : List Byte} (h : s.inv = true) : (State.feedEncoders s q bytes).inv = true := by
  unfold State.feedEncoders
  repeat' first | (with_reducible first | assumption | extract_lets | refine fst_inv (by assumption) ?_ | refine snd_inv (by assumption) ?_ | refine State.inv_ite (fun _ => ?_) fun _ => ?_ | refine inv_foldl ?_ fun _ _ _ => ?_) | split | (with_reducible first | apply State.inv_keep | apply State.inv_keepMem | apply State.inv_keepFlt)

theorem State.feedFlows_inv {s : State} {q : Nat} {bytes : List Byte} (h : s.inv = true) : (State.feedFlows s q bytes).inv = true := by
  unfold State.feedFlows
  repeat' first | (with_reducible first | assumption | extract_lets | refine fst_inv (by assumption) ?_ | refine snd_inv (by assumption) ?_ | refine State.inv_ite (fun _ => ?_) fun _ => ?_ | refine inv_foldl ?_ fun _ _ _ => ?_) | split | (with_reducible first | apply State.inv_keep | apply State.inv_keepMem | apply State.inv_keepFlt)

theorem State.staveDrop_inv {s : State} {l : Nat} {cell : List Byte} (h : s.inv = true) : (State.staveDrop s l cell).inv = true := by
  unfold State.staveDrop
  repeat' first | (with_reducible first | assumption | extract_lets | apply State.bump_inv | refine fst_inv (by assumption) ?_ | refine snd_inv (by assumption) ?_ | refine State.inv_ite (fun _ => ?_) fun _ => ?_ | refine inv_foldl ?_ fun _ _ _ => ?_) | split | (with_reducible first | apply State.inv_keep | apply State.inv_keepMem | apply State.inv_keepFlt)

theorem State.staveSend_inv {s : State} {l : Nat} {i : Nat} {place : Nat × Nat} {cell : List Byte} (h : s.inv = true) : (State.staveSend s l i place cell).inv = true := by
  unfold State.staveSend
  repeat' first | (with_reducible first | assumption | extract_lets | apply State.putLane_inv) | (with_reducible first | apply State.inv_keep)

theorem State.staveCell_inv {s : State} {l : Nat} {i : Nat} {cell : List Byte} (h : s.inv = true) : (State.staveCell s l i cell).inv = true := by
  unfold State.staveCell
  with_reducible repeat' first | assumption | extract_lets | apply State.bump_inv | apply State.staveDrop_inv | apply State.staveSend_inv | refine State.inv_ite (fun _ => ?_) fun _ => ?_

theorem State.cellOut_inv {s : State} {q : Nat} {cell : List Byte} (h : s.inv = true) : (State.cellOut s q cell).inv = true := by
  unfold State.cellOut
  repeat' first | (with_reducible first | assumption | extract_lets | apply State.staveCell_inv | apply State.staveDrop_inv | refine State.inv_ite (fun _ => ?_) fun _ => ?_) | (with_reducible first | apply State.inv_keep)

theorem State.emitCell_inv {s : State} {q : Nat} {bytes : List Byte} (h : s.inv = true) : (State.emitCell s q bytes).inv = true := by
  unfold State.emitCell
  repeat' first | (with_reducible first | assumption | extract_lets | apply State.cellOut_inv | apply State.feedEncoders_inv | apply State.feedFlows_inv | apply State.hashCell_inv | refine fst_inv (by assumption) ?_ | refine snd_inv (by assumption) ?_ | refine State.inv_ite (fun _ => ?_) fun _ => ?_ | refine inv_foldl ?_ fun _ _ _ => ?_) | split | (with_reducible first | apply State.inv_keep | apply State.inv_keepMem | apply State.inv_keepFlt)

theorem State.emitAs_inv {s : State} {q : Nat} {typeByte : Nat} {flags : Nat} {line : Nat} {index : Nat} {payload : List Byte} (h : s.inv = true) : (State.emitAs s q typeByte flags line index payload).inv = true := by
  unfold State.emitAs
  repeat' first | (with_reducible first | assumption | extract_lets | apply State.emitCell_inv | refine fst_inv (by assumption) ?_ | refine snd_inv (by assumption) ?_ | refine State.inv_ite (fun _ => ?_) fun _ => ?_ | refine inv_foldl ?_ fun _ _ _ => ?_) | split | (with_reducible first | apply State.inv_keep | apply State.inv_keepMem | apply State.inv_keepFlt)

theorem State.emitIdle_inv {s : State} {q : Nat} {line : Nat} {index : Nat} (h : s.inv = true) : (State.emitIdle s q line index).inv = true := by
  unfold State.emitIdle
  repeat' first | (with_reducible first | assumption | extract_lets | apply State.emitAs_inv | refine fst_inv (by assumption) ?_ | refine snd_inv (by assumption) ?_ | refine State.inv_ite (fun _ => ?_) fun _ => ?_ | refine inv_foldl ?_ fun _ _ _ => ?_) | split | (with_reducible first | apply State.inv_keep | apply State.inv_keepMem | apply State.inv_keepFlt)

theorem State.emitFill_inv {s : State} {q : Nat} {line : Nat} {index : Nat} (h : s.inv = true) : (State.emitFill s q line index).inv = true := by
  unfold State.emitFill
  repeat' first | (with_reducible first | assumption | extract_lets | apply State.emitAs_inv | refine fst_inv (by assumption) ?_ | refine snd_inv (by assumption) ?_ | refine State.inv_ite (fun _ => ?_) fun _ => ?_ | refine inv_foldl ?_ fun _ _ _ => ?_) | split | (with_reducible first | apply State.inv_keep | apply State.inv_keepMem | apply State.inv_keepFlt)

theorem State.emitEcho_inv {s : State} {q : Nat} {src : Nat} {line : Nat} {index : Nat} {place : Nat} {total : Nat} (h : s.inv = true) : (State.emitEcho s q src line index place total).inv = true := by
  unfold State.emitEcho
  repeat' first | (with_reducible first | assumption | extract_lets | apply State.emitAs_inv | apply State.raiseWithin_inv | refine fst_inv (by assumption) ?_ | refine snd_inv (by assumption) ?_ | refine State.inv_ite (fun _ => ?_) fun _ => ?_ | refine inv_foldl ?_ fun _ _ _ => ?_) | split | (with_reducible first | apply State.inv_keep | apply State.inv_keepMem | apply State.inv_keepFlt)

theorem State.emitStored_inv {s : State} {q : Nat} {c : DeckCell} (h : s.inv = true) : (State.emitStored s q c).inv = true := by
  unfold State.emitStored
  repeat' first | (with_reducible first | assumption | extract_lets | apply State.deckMark_inv | apply State.emitAs_inv | apply State.putPort_inv | refine fst_inv (by assumption) ?_ | refine snd_inv (by assumption) ?_ | refine State.inv_ite (fun _ => ?_) fun _ => ?_ | refine inv_foldl ?_ fun _ _ _ => ?_) | split | (with_reducible first | apply State.inv_keep | apply State.inv_keepMem | apply State.inv_keepFlt)

theorem State.slip_inv {s : State} {q : ℕ} {j : ℕ} {bond : Bool} (h : s.inv = true) : (State.slip s q j bond).inv = true := by
  unfold State.slip
  with_reducible repeat' first | assumption | extract_lets | apply State.bump_inv | apply State.putPort_inv | apply State.raiseWithin_inv

theorem State.readV_inv {s : State} {q : Nat} {line : Nat} {index : Nat} (h : s.inv = true) : (State.readV s q line index).inv = true := by
  unfold State.readV
  repeat' first | (with_reducible first | assumption | extract_lets | apply State.emitEcho_inv | apply State.emitFill_inv | apply State.emitIdle_inv | apply State.emitStored_inv | apply State.putPort_inv | apply State.slip_inv | refine fst_inv (by assumption) ?_ | refine snd_inv (by assumption) ?_ | refine State.inv_ite (fun _ => ?_) fun _ => ?_ | refine inv_foldl ?_ fun _ _ _ => ?_) | split | (with_reducible first | apply State.inv_keep | apply State.inv_keepMem | apply State.inv_keepFlt)

theorem State.readBond_inv {s : State} {b : BondRec} {line index total i : Nat} {ms : List Nat} {f : Option Nat} (h : s.inv = true) :
    (s.readBond b line index total i ms f).inv = true := by
  induction ms generalizing s i f with
  | nil => exact h
  | cons x l ih =>
    unfold State.readBond
    repeat' first | (with_reducible first | assumption | apply ih | extract_lets | apply State.putPort_inv | apply State.emitEcho_inv | apply State.emitStored_inv | apply State.emitFill_inv | apply State.emitIdle_inv | apply State.slip_inv | refine State.inv_ite (fun _ => ?_) fun _ => ?_ | refine inv_foldl ?_ fun _ _ _ => ?_) | split

theorem State.dropAudio_inv {s : State} {k : Nat} (h : s.inv = true) : (State.dropAudio s k).inv = true := by
  unfold State.dropAudio
  with_reducible repeat' first | assumption | extract_lets | apply State.putSink_inv | refine State.inv_ite (fun _ => ?_) fun _ => ?_ | refine inv_foldl ?_ fun _ _ _ => ?_

theorem State.audioCell_inv {s : State} {k : ℕ} (h : s.inv = true) : ∀ t, s.audioCell k = some t → t.2.inv = true := by
  intro t ht
  unfold State.audioCell at ht
  extract_lets _ counts at ht
  clear_value counts
  split at ht
  · exact absurd ht (by simp)
  · extract_lets at ht
    rw [← Option.some.inj ht]
    exact inv_foldl h fun u p hu => State.putSink_inv hu

theorem State.periodOf_inv {s : State} {q : ℕ} {line : ℕ} (h : s.inv = true) : (State.periodOf s q line).inv = true := by
  unfold State.periodOf
  with_reducible repeat' first | assumption | extract_lets | apply State.putPort_inv | refine State.inv_ite (fun _ => ?_) fun _ => ?_

theorem State.outputRead_inv {s0 : State} {q line index type : Nat} (h : s0.inv = true) : (s0.outputRead q line index type).inv = true := by
  unfold State.outputRead
  extract_lets s x n src p
  have hs : s.inv = true := State.periodOf_inv (State.deckSweep_inv h)
  clear_value s
  refine State.inv_ite (fun _ => State.emitIdle_inv (State.dropAudio_inv hs)) fun _ => ?_
  split
  · split
    · exact State.readBond_inv (inv_foldl hs fun _ _ ht => State.putPort_inv ht)
    · exact hs
    · exact State.readV_inv hs
  · split
    · next hc =>
      split at hc
      · cases hc
      · exact State.emitAs_inv (State.audioCell_inv hs _ hc)
    · exact State.emitFill_inv hs
  · split
    · exact State.emitAs_inv (State.deckMark_inv hs)
    · exact State.emitFill_inv hs
  · exact State.emitFill_inv hs

end Sys2Proof.Machine
end

