-- ==== Sys2Proof/Laws/InvLanes.lean ====
section
/-!
SUPPORT. Every operation of Machine/Lanes.lean keeps the invariant of the state.
-/
namespace Sys2Proof.Machine
open Sys2Proof

theorem State.setLstat_inv {s : State} {l : ℕ} {b : ℕ} {v : Bool} (h : s.inv = true) : (State.setLstat s l b v).inv = true := by
  unfold State.setLstat
  with_reducible repeat' first | assumption | apply State.setBit_inv | apply State.clrBit_inv | refine State.inv_ite (fun _ => ?_) fun _ => ?_

theorem State.modLane_inv {s : State} {l : ℕ} {f : Lane → Lane} (h : s.inv = true) : (State.modLane s l f).inv = true := by
  unfold State.modLane
  with_reducible repeat' first | assumption | apply State.putLane_inv

theorem State.refreshPll_inv {s : State} {quad : Nat} (h : s.inv = true) : (State.refreshPll s quad).inv = true := by
  unfold State.refreshPll
  repeat' first | (with_reducible first | assumption | extract_lets | apply State.endCause_inv | apply State.wr_inv | refine fst_inv (by assumption) ?_ | refine snd_inv (by assumption) ?_ | refine State.inv_ite (fun _ => ?_) fun _ => ?_ | refine inv_foldl ?_ fun _ _ _ => ?_) | split | (with_reducible first | apply State.inv_keep | apply State.inv_keepMem | apply State.inv_keepFlt)

theorem State.resetMessages_inv {s : State} {l : ℕ} (h : s.inv = true) : (State.resetMessages s l).inv = true := by
  unfold State.resetMessages
  with_reducible repeat' first | assumption | extract_lets | apply State.modLane_inv | apply State.wr_inv

theorem State.staveState_inv {s : State} {l : Nat} {st : Nat} (h : s.inv = true) : (State.staveState s l st).inv = true := by
  unfold State.staveState
  repeat' first | (with_reducible first | assumption | extract_lets | apply State.beginMeasure_inv | apply State.endCause_inv | apply State.modLane_inv | apply State.raise_inv | apply State.resetMessages_inv | apply State.slotIdle_inv | apply State.wr_inv | refine fst_inv (by assumption) ?_ | refine snd_inv (by assumption) ?_ | refine State.inv_ite (fun _ => ?_) fun _ => ?_ | refine inv_foldl ?_ fun _ _ _ => ?_) | split | (with_reducible first | apply State.inv_keep | apply State.inv_keepMem | apply State.inv_keepFlt)

theorem State.endLine_inv {s : State} {l : Nat} {n : Nat} (h : s.inv = true) : (State.endLine s l n).inv = true := by
  unfold State.endLine
  repeat' first | (with_reducible first | assumption | extract_lets | apply State.putLane_inv | refine fst_inv (by assumption) ?_ | refine snd_inv (by assumption) ?_) | split | (with_reducible first | apply State.inv_keep)

theorem State.staveStep_inv {s : State} {old : Nat} {new : Nat} {l : Nat} (h : s.inv = true) : (State.staveStep s old new l).inv = true := by
  unfold State.staveStep
  repeat' first | (with_reducible first | assumption | extract_lets | apply State.endLine_inv | refine State.inv_ite (fun _ => ?_) fun _ => ?_) | (with_reducible first | apply State.inv_keep)

theorem State.sendPattern_inv {s : State} {l : Nat} (h : s.inv = true) : (State.sendPattern s l).inv = true := by
  unfold State.sendPattern
  repeat' first | (with_reducible first | assumption | extract_lets | refine State.inv_ite (fun _ => ?_) fun _ => ?_) | (with_reducible first | apply State.inv_keep)

theorem State.setTxReady_inv {s : State} {l : Nat} {v : Bool} (h : s.inv = true) : (State.setTxReady s l v).inv = true := by
  unfold State.setTxReady
  with_reducible repeat' first | assumption | extract_lets | apply State.endLine_inv | apply State.modLane_inv | apply State.sendPattern_inv | apply State.setLstat_inv | refine State.inv_ite (fun _ => ?_) fun _ => ?_

theorem State.refreshLane_inv {s : State} {l : Nat} (h : s.inv = true) : (State.refreshLane s l).inv = true := by
  unfold State.refreshLane
  with_reducible repeat' first | assumption | extract_lets | apply State.modLane_inv | apply State.refreshPll_inv | apply State.setLstat_inv | apply State.setTxReady_inv | apply State.staveState_inv | refine State.inv_ite (fun _ => ?_) fun _ => ?_

theorem State.refreshQuad_inv {s : State} {quad : ℕ} (h : s.inv = true) : (State.refreshQuad s quad).inv = true := by
  unfold State.refreshQuad
  with_reducible repeat' first | assumption | apply State.refreshLane_inv | refine inv_foldl ?_ fun _ _ _ => ?_

theorem State.rxAsleep_inv {s : State} {l : Nat} {goal : Nat} (h : s.inv = true) : (State.rxAsleep s l goal).inv = true := by
  unfold State.rxAsleep
  repeat' first | (with_reducible first | assumption | extract_lets | apply State.endCause_inv | apply State.setLstat_inv | apply State.wr_inv | refine fst_inv (by assumption) ?_ | refine snd_inv (by assumption) ?_ | refine State.inv_ite (fun _ => ?_) fun _ => ?_ | refine inv_foldl ?_ fun _ _ _ => ?_) | split | (with_reducible first | apply State.inv_keep | apply State.inv_keepMem | apply State.inv_keepFlt)

theorem State.requestSleep_inv {s : State} {l : Nat} {tx : Bool} {goal : Nat} (h : s.inv = true) : (State.requestSleep s l tx goal).inv = true := by
  unfold State.requestSleep
  repeat' first | (with_reducible first | assumption | extract_lets | apply State.modLane_inv | apply State.refreshLane_inv | apply State.rxAsleep_inv | refine fst_inv (by assumption) ?_ | refine snd_inv (by assumption) ?_ | refine State.inv_ite (fun _ => ?_) fun _ => ?_ | refine inv_foldl ?_ fun _ _ _ => ?_) | split | (with_reducible first | apply State.inv_keep | apply State.inv_keepMem | apply State.inv_keepFlt)

theorem State.deriveC0_inv {s : State} {l : ℕ} (h : s.inv = true) : (State.deriveC0 s l).inv = true := by
  unfold State.deriveC0
  with_reducible repeat' first | assumption | extract_lets | apply State.wr_inv | refine State.inv_ite (fun _ => ?_) fun _ => ?_

theorem State.coldRx_inv {s : State} {l : Nat} (h : s.inv = true) : (State.coldRx s l).inv = true := by
  unfold State.coldRx
  with_reducible repeat' first | assumption | extract_lets | apply State.endCause_inv | apply State.modLane_inv | apply State.refreshLane_inv | apply State.setLstat_inv | apply State.wr_inv

theorem State.rxCauses_inv {s : State} {l : Nat} (h : s.inv = true) : (State.rxCauses s l).inv = true := by
  unfold State.rxCauses
  with_reducible repeat' first | assumption | extract_lets | apply State.endCause_inv | refine State.inv_ite (fun _ => ?_) fun _ => ?_

theorem State.laneEvent_inv {s : State} {code : Nat} {l : Nat} (h : s.inv = true) : (State.laneEvent s code l).inv = true := by
  unfold State.laneEvent
  repeat' first | (with_reducible first | assumption | extract_lets | apply State.raiseWithin_inv | refine fst_inv (by assumption) ?_ | refine snd_inv (by assumption) ?_ | refine State.inv_ite (fun _ => ?_) fun _ => ?_ | refine inv_foldl ?_ fun _ _ _ => ?_) | split | (with_reducible first | apply State.inv_keep | apply State.inv_keepMem | apply State.inv_keepFlt)

theorem State.fomThreshold_inv {s : State} {l : ℕ} {code : ℕ} {thr : ℕ} {below : ℕ} {above : ℕ} {fom : ℕ} (h : s.inv = true) : (State.fomThreshold s l code thr below above fom).1.inv = true := by
  unfold State.fomThreshold
  repeat' first | (with_reducible first | assumption | extract_lets | apply State.laneEvent_inv | apply State.endCause_inv | refine State.inv_ite (fun _ => ?_) fun _ => ?_)

theorem State.clampDfe_inv {s : State} {l : Nat} (h : s.inv = true) : (State.clampDfe s l).inv = true := by
  unfold State.clampDfe
  repeat' first | (with_reducible first | assumption | extract_lets | apply State.wrInt_inv | refine fst_inv (by assumption) ?_ | refine snd_inv (by assumption) ?_ | refine State.inv_ite (fun _ => ?_) fun _ => ?_ | refine inv_foldl ?_ fun _ _ _ => ?_) | split | (with_reducible first | apply State.inv_keep | apply State.inv_keepMem | apply State.inv_keepFlt)

theorem State.partnerSend_inv {s : State} {kind : ℕ} {bytes : List Byte} (h : s.inv = true) : (State.partnerSend s kind bytes).inv = true := by
  unfold State.partnerSend
  repeat' first | (with_reducible first | assumption | extract_lets | apply State.modLane_inv | refine State.inv_ite (fun _ => ?_) fun _ => ?_) | split | (with_reducible first | apply State.inv_keep)

theorem State.takeLinkBox_inv {s : State} {l : Nat} (h : s.inv = true) : (State.takeLinkBox s l).inv = true := by
  unfold State.takeLinkBox
  repeat' first | (with_reducible first | assumption | extract_lets | apply State.modLane_inv | refine State.inv_ite (fun _ => ?_) fun _ => ?_ | refine inv_foldl ?_ fun _ _ _ => ?_) | (with_reducible first | apply State.inv_keep)

end Sys2Proof.Machine
end

