-- ==== Sys2Proof/Laws/InvEther.lean ====
section
/-!
SUPPORT. Every operation of Machine/Ether.lean keeps the invariant of the state.
-/
namespace Sys2Proof.Machine
open Sys2Proof

theorem State.putNetPort_inv {s : State} {x : PortRec} (h : s.inv = true) : (State.putNetPort s x).inv = true := by
  unfold State.putNetPort
  with_reducible repeat' first | assumption | extract_lets | apply State.wr_inv | apply State.inv_keep

theorem State.modNetPort_inv {s : State} {p : ℕ} {f : PortRec → PortRec} (h : s.inv = true) : (State.modNetPort s p f).inv = true := by
  unfold State.modNetPort
  with_reducible repeat' first | assumption | apply State.putNetPort_inv

theorem State.defaultMacsec_inv {s : State} {p : Nat} (h : s.inv = true) : (State.defaultMacsec s p).inv = true := by
  unfold State.defaultMacsec
  with_reducible repeat' first | assumption | extract_lets | apply State.modNetPort_inv

theorem State.portLoops_inv {s : State} {p : Nat} {bytes : List Byte} (h : s.inv = true) : (State.portLoops s p bytes).inv = true := by
  unfold State.portLoops
  repeat' first | (with_reducible first | assumption | extract_lets | refine State.inv_ite (fun _ => ?_) fun _ => ?_) | (with_reducible first | apply State.inv_keep)

theorem State.pnNear_inv {s : State} {p : Nat} {a : SecAssoc} {before : Nat} (h : s.inv = true) : (State.pnNear s p a before).inv = true := by
  unfold State.pnNear
  with_reducible repeat' first | assumption | extract_lets | apply State.raise_inv | refine State.inv_ite (fun _ => ?_) fun _ => ?_

theorem State.putAssoc_inv {s : State} {p : ℕ} {a : SecAssoc} (h : s.inv = true) : (State.putAssoc s p a).inv = true := by
  unfold State.putAssoc
  with_reducible repeat' first | assumption | apply State.modNetPort_inv

theorem State.macsecSend_inv {s : State} {p : Nat} {b : List Byte} (h : s.inv = true) : (State.macsecSend s p b).1.inv = true := by
  unfold State.macsecSend
  repeat' first | (with_reducible first | assumption | extract_lets | apply State.bump_inv | apply State.pnNear_inv | apply State.putAssoc_inv | apply State.raise_inv | refine State.inv_ite (fun _ => ?_) fun _ => ?_) | split

theorem State.macsecTake_inv {s : State} {p : ℕ} {b : List Byte} (h : s.inv = true) : (State.macsecTake s p b).1.inv = true := by
  unfold State.macsecTake
  dsimp only
  repeat' first | (with_reducible first | assumption | extract_lets | apply State.raise_inv | apply State.bump_inv | apply State.putAssoc_inv | refine State.inv_ite (fun _ => ?_) fun _ => ?_) | split

theorem State.ringAdvance_inv {s : State} {p : ℕ} {k : ℕ} {n : ℕ} (h : s.inv = true) : (State.ringAdvance s p k n).inv = true := by
  unfold State.ringAdvance
  with_reducible repeat' first | assumption | apply State.wr_inv

theorem State.completeTx_inv {s : State} {p : ℕ} {c : Completion} (h : s.inv = true) : (State.completeTx s p c).inv = true := by
  unfold State.completeTx
  with_reducible repeat' first | assumption | extract_lets | apply State.memWrite_inv | apply State.wr_inv | apply State.ringAdvance_inv | refine State.inv_ite (fun _ => ?_) fun _ => ?_ | refine inv_foldl ?_ fun _ _ _ => ?_

theorem State.fetchHost_inv {s : State} {p : ℕ} {k : ℕ} (h : s.inv = true) : (State.fetchHost s p k).inv = true := by
  unfold State.fetchHost
  repeat' first | (with_reducible first | assumption | extract_lets | apply State.completeTx_inv | apply State.bump_inv | apply State.modNetPort_inv | refine State.inv_ite (fun _ => ?_) fun _ => ?_) | split

theorem State.joinQueue_inv {s : State} {p : Nat} (h : s.inv = true) : (State.joinQueue s p).inv = true := by
  unfold State.joinQueue
  repeat' first | (with_reducible first | assumption | extract_lets | apply State.modNetPort_inv | refine State.inv_ite (fun _ => ?_) fun _ => ?_) | (with_reducible first | apply State.inv_keep)

theorem State.queueFrame_inv {s : State} {p : Nat} {f : TxFrame} (h : s.inv = true) : (State.queueFrame s p f).inv = true := by
  unfold State.queueFrame
  with_reducible repeat' first | assumption | extract_lets | apply State.joinQueue_inv | apply State.modNetPort_inv

theorem State.dropFrame_inv {s : State} {p : ℕ} {f : TxFrame} {error : ℕ} (h : s.inv = true) : (State.dropFrame s p f error).inv = true := by
  unfold State.dropFrame
  repeat' first | (with_reducible first | assumption | apply State.completeTx_inv | refine State.inv_ite (fun _ => ?_) fun _ => ?_) | split

theorem State.putFlow_inv {s : State} {f : Flow} (h : s.inv = true) : (State.putFlow s f).inv = true := by
  unfold State.putFlow
  with_reducible repeat' first | assumption | extract_lets | refine State.inv_ite (fun _ => ?_) fun _ => ?_ | apply State.inv_keep

theorem State.flowEvent_inv {s : State} {f : Flow} {code : ℕ} {leg : ℕ} (h : s.inv = true) : (State.flowEvent s f code leg).inv = true := by
  unfold State.flowEvent
  with_reducible repeat' first | assumption | apply State.raiseWithin_inv

theorem State.legDown_inv {s : State} {i : Nat} {leg : Nat} {queued : Bool} (h : s.inv = true) : (State.legDown s i leg queued).inv = true := by
  unfold State.legDown
  repeat' first | (with_reducible first | assumption | apply State.flowEvent_inv | apply State.putFlow_inv) | split

theorem State.linkLost_inv {s : State} {p : Nat} (h : s.inv = true) : (State.linkLost s p).inv = true := by
  unfold State.linkLost
  repeat' first | (with_reducible first | assumption | extract_lets | apply State.bump_inv | apply State.dropFrame_inv | apply State.joinQueue_inv | apply State.legDown_inv | apply State.modNetPort_inv | apply State.wr_inv | refine inv_foldl ?_ fun _ _ _ => ?_) | split

theorem State.raiseLinkDown_inv {s : State} {p : Nat} (h : s.inv = true) : (State.raiseLinkDown s p).inv = true := by
  unfold State.raiseLinkDown
  with_reducible repeat' first | assumption | extract_lets | apply State.raise_inv | refine State.inv_ite (fun _ => ?_) fun _ => ?_

theorem State.restartPort_inv {s : State} {p : ℕ} (h : s.inv = true) : (State.restartPort s p).inv = true := by
  unfold State.restartPort
  exact State.modNetPort_inv (State.inv_ite (fun _ => State.raiseLinkDown_inv (State.linkLost_inv h)) fun _ => h)

theorem State.sendFrame_inv {s : State} {p : ℕ} {f : TxFrame} {underrun : Bool} (h : s.inv = true) : (State.sendFrame s p f underrun).inv = true := by
  unfold State.sendFrame
  repeat' first | (with_reducible first | assumption | extract_lets | apply State.macsecSend_inv | apply State.dropFrame_inv | apply State.modNetPort_inv | apply State.completeTx_inv | refine fst_inv (by assumption) ?_ | refine State.inv_ite (fun _ => ?_) fun _ => ?_) | split | (with_reducible first | apply State.inv_keep)

theorem State.macTake_inv {s : State} {p : ℕ} {b : List Byte} {full : Bool} (h : s.inv = true) : (State.macTake s p b full).1.inv = true := by
  unfold State.macTake
  repeat' first | (with_reducible first | assumption | extract_lets | apply State.bump_inv | apply State.portLoops_inv | refine State.inv_ite (fun _ => ?_) fun _ => ?_) | split

theorem State.fillRx_inv {s : State} {p : ℕ} {k : ℕ} {a3 : ℕ} {a4 : ℕ} {a5 : List Byte} (h : s.inv = true) : (State.fillRx s p k a3 a4 a5).1.inv = true := by
  induction a3 generalizing s a4 a5 with
  | zero => exact h
  | succ n ih =>
    unfold State.fillRx
    repeat' first | (with_reducible first | assumption | apply ih | extract_lets | apply State.memWrite_inv | refine State.inv_ite (fun _ => ?_) fun _ => ?_ | refine inv_foldl ?_ fun _ _ _ => ?_) | split

theorem State.deliver_inv {s : State} {p : ℕ} {b : List Byte} {verified : Bool} {failed : Bool} (h : s.inv = true) : (State.deliver s p b verified failed).inv = true := by
  unfold State.deliver
  with_reducible repeat' first | assumption | extract_lets | apply State.raise_inv | apply State.wr_inv | apply State.bump_inv | apply State.fillRx_inv | apply State.memWrite_inv | apply State.ringAdvance_inv | refine fst_inv (by assumption) ?_ | refine State.inv_ite (fun _ => ?_) fun _ => ?_ | refine inv_foldl ?_ fun _ _ _ => ?_

end Sys2Proof.Machine
end

