-- ==== Sys2Proof/Laws/InvFlows.lean ====
section
/-!
SUPPORT. Every operation of Machine/Flows.lean keeps the invariant of the state.
-/
namespace Sys2Proof.Machine
open Sys2Proof

theorem State.flowAccept_inv {s : State} {f : Flow} {leg : Nat} {n : Nat} {ts : Nat} {bad : Bool} {m : Media} (h : s.inv = true) : (State.flowAccept s f leg n ts bad m).inv = true := by
  unfold State.flowAccept
  repeat' first | (with_reducible first | assumption | extract_lets | apply State.endCause_inv | apply State.flowEvent_inv | apply State.noteSamples_inv | apply State.putFlow_inv | refine State.inv_ite (fun _ => ?_) fun _ => ?_ | refine inv_foldl ?_ fun _ _ _ => ?_) | split

theorem State.flowCopy_inv {s : State} {f : Flow} {leg : Nat} {n : Nat} {m : Media} (h : s.inv = true) : (State.flowCopy s f leg n m).inv = true := by
  unfold State.flowCopy
  repeat' first | (with_reducible first | assumption | extract_lets | apply State.endCause_inv | apply State.putFlow_inv | refine State.inv_ite (fun _ => ?_) fun _ => ?_ | refine inv_foldl ?_ fun _ _ _ => ?_) | split

theorem State.flowTake_inv {s : State} {f : Flow} {leg : Nat} {u : List Byte} {given : Given} (h : s.inv = true) : (State.flowTake s f leg u given).inv = true := by
  unfold State.flowTake
  with_reducible repeat' first | assumption | extract_lets | apply State.flowAccept_inv | apply State.flowCopy_inv | apply State.flowEvent_inv | apply State.putFlow_inv | refine State.inv_ite (fun _ => ?_) fun _ => ?_

theorem State.releaseLine_inv {s : State} {f0 : Flow} {frame : ℕ} {i : ℕ} (h : s.inv = true) : (State.releaseLine s f0 frame i).inv = true := by
  unfold State.releaseLine
  with_reducible repeat' first | assumption | extract_lets | apply State.fabricWrite_inv | apply State.writeV_inv | apply State.writeAX_inv | apply State.putFlow_inv | refine State.inv_ite (fun _ => ?_) fun _ => ?_ | refine inv_foldl ?_ fun _ _ _ => ?_

theorem State.writeCells_inv {s : State} {f : Flow} (h : s.inv = true) : (State.writeCells s f).inv = true := by
  unfold State.writeCells
  with_reducible repeat' first | assumption | extract_lets | apply State.fabricWrite_inv | apply State.putFlow_inv | refine inv_foldl ?_ fun _ _ _ => ?_

theorem State.releaseAudio_inv {s : State} {f : Flow} (h : s.inv = true) : (State.releaseAudio s f).inv = true := by
  unfold State.releaseAudio
  with_reducible repeat' first | assumption | extract_lets | apply State.audioPut_inv | apply State.noteSamples_inv | apply State.putFlow_inv | refine State.inv_ite (fun _ => ?_) fun _ => ?_ | refine inv_foldl ?_ fun _ _ _ => ?_

theorem State.sendLeg_inv {s : State} {f : Flow} {i : Nat} {ts : Nat} {launch : Nat} {udp : List Byte} (h : s.inv = true) : (State.sendLeg s f i ts launch udp).inv = true := by
  unfold State.sendLeg
  repeat' first | (with_reducible first | assumption | extract_lets | apply State.endCause_inv | apply State.legDown_inv | apply State.putFlow_inv | apply State.queueFrame_inv | refine fst_inv (by assumption) ?_ | refine snd_inv (by assumption) ?_ | refine State.inv_ite (fun _ => ?_) fun _ => ?_) | split | (with_reducible first | apply State.inv_keep)

theorem State.schedule_inv {s : State} {f : Flow} (h : s.inv = true) : (State.schedule s f).inv = true := by
  unfold State.schedule
  with_reducible repeat' first | assumption | extract_lets | apply State.flowEvent_inv | apply State.putFlow_inv | refine State.inv_ite (fun _ => ?_) fun _ => ?_

theorem State.modSend_inv {s : State} {i : Nat} {g : Flow → Flow} (h : s.inv = true) : (State.modSend s i g).inv = true := by
  unfold State.modSend
  repeat' first | (with_reducible first | assumption | extract_lets | apply State.putFlow_inv) | split

theorem State.sendPacket_inv {s : State} {f : Flow} {marker : Bool} {seq : Nat} {ts : Nat} {launch : Nat} {payload : List Byte} (h : s.inv = true) : (State.sendPacket s f marker seq ts launch payload).inv = true := by
  unfold State.sendPacket
  repeat' first | (with_reducible first | assumption | extract_lets | apply State.flowEvent_inv | apply State.modSend_inv | apply State.schedule_inv | apply State.sendLeg_inv | refine State.inv_ite (fun _ => ?_) fun _ => ?_ | refine inv_foldl ?_ fun _ _ _ => ?_) | split

theorem State.sendReport_inv {s : State} {f : Flow} {g : FlowLeg} {type : ℕ} (h : s.inv = true) : (State.sendReport s f g type).inv = true := by
  unfold State.sendReport
  with_reducible repeat' first | assumption | apply State.queueFrame_inv | refine State.inv_ite (fun _ => ?_) fun _ => ?_

theorem State.flowIdle_inv {s : State} {f : Flow} (h : s.inv = true) : (State.flowIdle s f).inv = true := by
  unfold State.flowIdle
  repeat' first | (with_reducible first | assumption | extract_lets | apply State.slotIdle_inv | refine State.inv_ite (fun _ => ?_) fun _ => ?_ | refine inv_foldl ?_ fun _ _ _ => ?_) | split

theorem State.removeFlow_inv {s : State} {f : Flow} {legB : Bool} (h : s.inv = true) : (State.removeFlow s f legB).inv = true := by
  unfold State.removeFlow
  repeat' first | (with_reducible first | assumption | extract_lets | apply State.endCause_inv | apply State.flowIdle_inv | apply State.putFlow_inv | apply State.sendReport_inv | refine State.inv_ite (fun _ => ?_) fun _ => ?_ | refine inv_foldl ?_ fun _ _ _ => ?_) | (with_reducible first | apply State.inv_keep)

theorem State.flowEnded_inv {s : State} {f : Flow} (h : s.inv = true) : (State.flowEnded s f).inv = true := by
  unfold State.flowEnded
  repeat' first | (with_reducible first | assumption | extract_lets | apply State.endWait_inv | apply State.removeFlow_inv) | split

end Sys2Proof.Machine
end

