-- ==== Sys2Proof/Laws/InvAudio.lean ====
section
/-!
SUPPORT. Every operation of Machine/Audio.lean keeps the invariant of the state.
-/
namespace Sys2Proof.Machine
open Sys2Proof

theorem State.modTdm_inv {s : State} {p : ℕ} {f : TdmPort → TdmPort} (h : s.inv = true) : (State.modTdm s p f).inv = true := by
  unfold State.modTdm
  with_reducible repeat' first | assumption | extract_lets | refine State.inv_ite (fun _ => ?_) fun _ => ?_ | apply State.inv_keep

theorem State.slipTdm_inv {s : State} {p : ℕ} {dir : ℕ} (h : s.inv = true) : (State.slipTdm s p dir).inv = true := by
  unfold State.slipTdm
  with_reducible repeat' first | assumption | apply State.raise_inv

theorem State.pullSdi_inv {s : State} (h : s.inv = true) : (State.pullSdi s).inv = true := by
  unfold State.pullSdi
  with_reducible repeat' first | assumption | extract_lets | apply State.modTdm_inv | apply State.slipTdm_inv | refine State.inv_ite (fun _ => ?_) fun _ => ?_ | refine inv_foldl ?_ fun _ _ _ => ?_

theorem State.advanceSource_inv {s : State} {k : ℕ} {n : ℕ} (h : s.inv = true) : (State.advanceSource s k n).inv = true := by
  unfold State.advanceSource
  repeat' first | (with_reducible first | assumption | extract_lets | apply State.putAudioSource_inv | apply State.raise_inv | refine State.inv_ite (fun _ => ?_) fun _ => ?_) | split

theorem State.applyChange_inv {s : State} {fs : ℕ} {k : ℕ} {m : ℕ} {c : SinkChange} (h : s.inv = true) : (State.applyChange s fs k m c).inv = true := by
  unfold State.applyChange
  repeat' first | (with_reducible first | assumption | extract_lets | apply State.putSink_inv)

theorem State.applyTake_inv {s : State} {m : Nat} {c : TakeMark} (h : s.inv = true) : (State.applyTake s m c).inv = true := by
  unfold State.applyTake
  with_reducible repeat' first | assumption | extract_lets | apply State.putSink_inv | refine State.inv_ite (fun _ => ?_) fun _ => ?_

theorem State.applyChanges_inv {s : State} {fs : Nat} {k : Nat} {m : Nat} (h : s.inv = true) : (State.applyChanges s fs k m).inv = true := by
  unfold State.applyChanges
  repeat' first | (with_reducible first | assumption | extract_lets | apply State.applyChange_inv | apply State.applyTake_inv | refine inv_foldl ?_ fun _ _ _ => ?_) | split

theorem State.giveSample_inv {s : State} {fs : ℕ} {k : ℕ} {m : ℕ} {v : ℤ} (h : s.inv = true) : (State.giveSample s fs k m v).inv = true := by
  unfold State.giveSample
  repeat' first | (with_reducible first | assumption | extract_lets | apply State.putSink_inv | refine State.inv_ite (fun _ => ?_) fun _ => ?_) | split | (with_reducible first | apply State.inv_keep)

theorem State.evalSink_inv {s : State} {fs : ℕ} {k : ℕ} {m : ℕ} (h : s.inv = true) : (State.evalSink s fs k m).inv = true := by
  unfold State.evalSink
  with_reducible repeat' first | assumption | extract_lets | apply State.giveSample_inv | apply State.raise_inv | apply State.bump_inv | apply State.putSink_inv | apply State.endCause_inv | refine State.inv_ite (fun _ => ?_) fun _ => ?_

theorem State.pushSdo_inv {s : State} {k : Nat} (h : s.inv = true) : (State.pushSdo s k).inv = true := by
  unfold State.pushSdo
  with_reducible repeat' first | assumption | extract_lets | apply State.modTdm_inv | apply State.slipTdm_inv | refine State.inv_ite (fun _ => ?_) fun _ => ?_ | refine inv_foldl ?_ fun _ _ _ => ?_

theorem State.routesDone_inv {s : State} {k : ℕ} (h : s.inv = true) : (State.routesDone s k).inv = true := by
  unfold State.routesDone
  repeat' first | (with_reducible first | assumption | extract_lets | apply State.endWait_inv | refine State.inv_ite (fun _ => ?_) fun _ => ?_ | refine inv_foldl ?_ fun _ _ _ => ?_)

theorem State.dspEnds_inv {s : State} (h : s.inv = true) : (State.dspEnds s).inv = true := by
  unfold State.dspEnds
  with_reducible repeat' first | assumption | apply State.endCause_inv | refine State.inv_ite (fun _ => ?_) fun _ => ?_ | refine inv_foldl ?_ fun _ _ _ => ?_

theorem State.noteMeter_inv {s : State} {k : ℕ} {n : ℕ} (h : s.inv = true) : (State.noteMeter s k n).inv = true := by
  unfold State.noteMeter
  with_reducible repeat' first | assumption | extract_lets | apply State.putAudioSource_inv

theorem State.evaluate_inv {s : State} {rate96 : Bool} {k : ℕ} (h : s.inv = true) : (State.evaluate s rate96 k).inv = true := by
  unfold State.evaluate
  with_reducible repeat' first | assumption | extract_lets | apply State.applyChanges_inv | apply State.pullSdi_inv | apply State.noteMeter_inv | apply State.advanceSource_inv | apply State.evalSink_inv | apply State.pushSdo_inv | apply State.dspEnds_inv | apply State.routesDone_inv | refine State.inv_ite (fun _ => ?_) fun _ => ?_ | refine inv_foldl ?_ fun _ _ _ => ?_ | apply State.inv_keep

theorem State.stopPorts_inv {s : State} (h : s.inv = true) : (State.stopPorts s).inv = true := by
  unfold State.stopPorts
  with_reducible repeat' first | assumption | extract_lets | apply State.inv_keep

theorem State.startClocks_inv {s : State} (h : s.inv = true) : (State.startClocks s).inv = true := by
  unfold State.startClocks
  with_reducible repeat' first | assumption | extract_lets | apply State.wr_inv | apply State.inv_keep

theorem State.audClkChanged_inv {s : State} {en : ℕ} {rate : ℕ} (h : s.inv = true) : (State.audClkChanged s en rate).inv = true := by
  unfold State.audClkChanged
  with_reducible repeat' first | assumption | extract_lets | apply State.startClocks_inv | apply State.wr_inv | apply State.stopPorts_inv | refine State.inv_ite (fun _ => ?_) fun _ => ?_ | apply State.inv_keep

theorem State.portBoundary_inv {s : State} {ready : Bool} {p : ℕ} (h : s.inv = true) : (State.portBoundary s ready p).inv = true := by
  unfold State.portBoundary
  with_reducible repeat' first | assumption | extract_lets | apply State.modTdm_inv

theorem State.portFrame_inv {s : State} {p : ℕ} {j : ℕ} {good : Bool} {frame : List ℤ} (h : s.inv = true) : (State.portFrame s p j good frame).inv = true := by
  unfold State.portFrame
  with_reducible repeat' first | assumption | extract_lets | apply State.modTdm_inv | apply State.slipTdm_inv | apply State.audioPut_inv | refine State.inv_ite (fun _ => ?_) fun _ => ?_ | refine inv_foldl ?_ fun _ _ _ => ?_ | apply State.inv_keep

end Sys2Proof.Machine
end

