-- ==== Sys2Proof/Laws/InvHeads.lean ====
section
/-!
SUPPORT. Every operation of Machine/Heads.lean keeps the invariant of the state.
-/
namespace Sys2Proof.Machine
open Sys2Proof

theorem State.putHead_inv {s : State} {x : Head} (h : s.inv = true) : (State.putHead s x).inv = true := by
  unfold State.putHead
  with_reducible repeat' first | assumption | extract_lets | apply State.inv_keep

theorem State.engineRegs_inv {s : State} (h : s.inv = true) : (State.engineRegs s).inv = true := by
  unfold State.engineRegs
  with_reducible repeat' first | assumption | extract_lets | apply State.wr_inv | refine inv_foldl ?_ fun _ _ _ => ?_

theorem State.selectLayer_inv {s : State} {h : ℕ} {l : ℕ} {mh : ℕ} (hi : s.inv = true) : (State.selectLayer s h l mh).inv = true := by
  unfold State.selectLayer
  with_reducible repeat' first | assumption | extract_lets | apply State.endCause_inv | apply State.wr_inv | apply State.putLayer_inv | apply State.bump_inv | apply State.headEvent_inv | refine State.inv_ite (fun _ => ?_) fun _ => ?_

theorem State.hideLayer_inv {s : State} {i : ℕ} {fetched : Bool} (h : s.inv = true) : (State.hideLayer s i fetched).inv = true := by
  unfold State.hideLayer
  with_reducible repeat' first | assumption | extract_lets | apply State.putLayer_inv | refine State.inv_ite (fun _ => ?_) fun _ => ?_

theorem State.moveMeter_inv {s : State} {h : ℕ} {mh : ℕ} {i : ℕ} {m : MetSet} (hi : s.inv = true) : (State.moveMeter s h mh i m).inv = true := by
  unfold State.moveMeter
  with_reducible repeat' first | assumption | extract_lets | apply State.putHead_inv

theorem State.composeBand_inv {s : State} {h : ℕ} {f : ℕ} {b : ℕ} (hi : s.inv = true) : (State.composeBand s h f b).inv = true := by
  unfold State.composeBand
  with_reducible repeat' first | assumption | extract_lets | apply State.headEvent_inv | apply State.wr_inv | apply State.putHead_inv | refine inv_foldl ?_ fun _ _ _ => ?_

theorem State.emitRow_inv {s : State} {h : Nat} {e : OutFrame} {row : List Byte} (hs : s.inv = true) : (State.emitRow s h e row).inv = true := by
  unfold State.emitRow
  with_reducible repeat' first | assumption | extract_lets | apply State.fabricWrite_inv | apply State.putHead_inv | refine State.inv_ite (fun _ => ?_) fun _ => ?_ | refine inv_foldl ?_ fun _ _ _ => ?_

end Sys2Proof.Machine
end

