-- ==== Sys2Proof/Laws/InvEncoder.lean ====
section
/-!
SUPPORT. Every operation of Machine/Encoder.lean keeps the invariant of the state.
-/
namespace Sys2Proof.Machine
open Sys2Proof

theorem State.encEvent_inv {s : State} {h : Nat} {code : Nat} {frame : Nat} (hs : s.inv = true) : (State.encEvent s h code frame).inv = true := by
  unfold State.encEvent
  repeat' first | (with_reducible first | assumption | extract_lets | apply State.putEnc_inv | apply State.raiseWithin_inv | refine State.inv_ite (fun _ => ?_) fun _ => ?_) | split

theorem State.encRegs_inv {s : State} (h : s.inv = true) : (State.encRegs s).inv = true := by
  unfold State.encRegs
  with_reducible repeat' first | assumption | extract_lets | apply State.wr_inv

theorem State.encEngineLost_inv {s : State} {e : ℕ} (h : s.inv = true) : (State.encEngineLost s e).inv = true := by
  unfold State.encEngineLost
  repeat' first | (with_reducible first | assumption | apply State.raiseWithin_inv | apply State.wr_inv | apply State.putEnc_inv) | split

theorem State.twinSend_inv {s : State} {type : ℕ} {body : List Byte} (h : s.inv = true) : (State.twinSend s type body).inv = true := by
  unfold State.twinSend
  with_reducible repeat' first | assumption | extract_lets | apply State.partnerSend_inv | refine State.inv_ite (fun _ => ?_) fun _ => ?_ | apply State.inv_keep

theorem State.startResync_inv {s : State} (h : s.inv = true) : (State.startResync s).inv = true := by
  unfold State.startResync
  with_reducible repeat' first | assumption | extract_lets | apply State.twinSend_inv | apply State.wr_inv | refine State.inv_ite (fun _ => ?_) fun _ => ?_ | apply State.inv_keep

theorem State.resyncFail_inv {s : State} (h : s.inv = true) : (State.resyncFail s).inv = true := by
  unfold State.resyncFail
  with_reducible repeat' first | assumption | extract_lets | apply State.endWait_inv | apply State.raise_inv | apply State.wr_inv | apply State.inv_keep

theorem State.twinDiverge_inv {s : State} {obj : ℕ} (h : s.inv = true) : (State.twinDiverge s obj).inv = true := by
  unfold State.twinDiverge
  with_reducible repeat' first | assumption | extract_lets | apply State.raise_inv | apply State.inv_keep

theorem State.compareRow_inv {s : State} {x : EncChan} {r : EncRow} {m : RowMsg} {due : Nat} (h : s.inv = true) : (State.compareRow s x r m due).inv = true := by
  unfold State.compareRow
  repeat' first | (with_reducible first | assumption | extract_lets | apply State.bump_inv | apply State.encEvent_inv | apply State.putEnc_inv | apply State.twinDiverge_inv | apply State.wr_inv | refine fst_inv (by assumption) ?_ | refine snd_inv (by assumption) ?_ | refine State.inv_ite (fun _ => ?_) fun _ => ?_) | split | (with_reducible first | apply State.inv_keep)

theorem State.showBook_inv {s : State} {h : Nat} (hs : s.inv = true) : (State.showBook s h).inv = true := by
  unfold State.showBook
  repeat' first | (with_reducible first | assumption | extract_lets | apply State.wr_inv | refine State.inv_ite (fun _ => ?_) fun _ => ?_) | split

theorem State.picturesGone_inv {s : State} {h : Nat} (hs : s.inv = true) : (State.picturesGone s h).inv = true := by
  unfold State.picturesGone
  repeat' first | (with_reducible first | assumption | extract_lets | apply State.endWait_inv | apply State.putEnc_inv | apply State.wr64_inv | refine State.inv_ite (fun _ => ?_) fun _ => ?_) | split

theorem State.buildRows_inv {s : State} {h : ℕ} {a2 : ℕ} (hi : s.inv = true) : (State.buildRows s h a2).inv = true := by
  induction a2 generalizing s with
  | zero => exact hi
  | succ n ih =>
    unfold State.buildRows
    repeat' first | (with_reducible first | assumption | apply ih | extract_lets | apply State.putEnc_inv | apply State.wr_inv | refine State.inv_ite (fun _ => ?_) fun _ => ?_ | refine inv_foldl ?_ fun _ _ _ => ?_) | split

theorem State.rowDone_inv {s : State} {x : EncChan} {r : EncRow} {due : Nat} (h : s.inv = true) : (State.rowDone s x r due).inv = true := by
  unfold State.rowDone
  repeat' first | (with_reducible first | assumption | extract_lets | apply State.compareRow_inv | apply State.putEnc_inv | apply State.twinSend_inv | refine State.inv_ite (fun _ => ?_) fun _ => ?_) | split

theorem State.endChannel_inv {s : State} {h : ℕ} (hi : s.inv = true) : (State.endChannel s h).inv = true := by
  unfold State.endChannel
  repeat' first | (with_reducible first | assumption | extract_lets | apply State.encRegs_inv | apply State.freeBuffer_inv | apply State.freePort_inv | apply State.endCause_inv | apply State.wr_inv | apply State.endWait_inv | refine State.inv_ite (fun _ => ?_) fun _ => ?_ | refine inv_foldl ?_ fun _ _ _ => ?_) | split | (with_reducible first | apply State.inv_keep)

end Sys2Proof.Machine
end

