-- ==== Sys2Proof/Laws/InvClock.lean ====
section
/-!
SUPPORT. Every operation of Machine/Clock.lean keeps the invariant of the state.
-/
namespace Sys2Proof.Machine
open Sys2Proof

theorem State.modTim_inv {s : State} {f : TimState → TimState} (h : s.inv = true) : (State.modTim s f).inv = true := by
  unfold State.modTim
  with_reducible repeat' first | assumption | apply State.inv_keep

theorem State.modRef_inv {s : State} {f : RefState → RefState} (h : s.inv = true) : (State.modRef s f).inv = true := by
  unfold State.modRef
  with_reducible repeat' first | assumption | apply State.inv_keep

theorem State.setY_inv {s : State} {y : ℤ} (h : s.inv = true) : (State.setY s y).inv = true := by
  unfold State.setY
  with_reducible repeat' first | assumption | extract_lets | apply State.wrInt_inv | apply State.modRef_inv

theorem State.slewTo_inv {s : State} {target : Int} {tau : Nat} (h : s.inv = true) : (State.slewTo s target tau).inv = true := by
  unfold State.slewTo
  with_reducible repeat' first | assumption | extract_lets | apply State.modRef_inv | apply State.setY_inv

theorem State.modRefIn_inv {s : State} {i : ℕ} {f : RefInput → RefInput} (h : s.inv = true) : (State.modRefIn s i f).inv = true := by
  unfold State.modRefIn
  with_reducible repeat' first | assumption | apply State.modRef_inv

theorem State.modPtp_inv {s : State} {d : ℕ} {f : PtpDomain → PtpDomain} (h : s.inv = true) : (State.modPtp s d f).inv = true := by
  unfold State.modPtp
  with_reducible repeat' first | assumption | apply State.modTim_inv

theorem State.modFp_inv {s : State} {p : ℕ} {f : FpOut → FpOut} (h : s.inv = true) : (State.modFp s p f).inv = true := by
  unfold State.modFp
  with_reducible repeat' first | assumption | apply State.modRef_inv

theorem State.flywheel_inv {s : State} {code : Nat} {broken : Bool} (h : s.inv = true) : (State.flywheel s code broken).inv = true := by
  unfold State.flywheel
  with_reducible repeat' first | assumption | extract_lets | apply State.modFp_inv | apply State.raise_inv | apply State.wr_inv | refine inv_foldl ?_ fun _ _ _ => ?_

theorem State.decideStep_inv {s : State} {cmd : Option (Nat × Nat)} {at_ : Option Nat} (h : s.inv = true) : (State.decideStep s cmd at_).inv = true := by
  unfold State.decideStep
  with_reducible repeat' first | assumption | extract_lets | apply State.modTim_inv

theorem State.abandonStep_inv {s : State} (h : s.inv = true) : (State.abandonStep s).inv = true := by
  unfold State.abandonStep
  repeat' first | (with_reducible first | assumption | extract_lets | apply State.modTim_inv | apply State.finish_inv | refine State.inv_ite (fun _ => ?_) fun _ => ?_) | split

theorem State.disqualify_inv {s : State} {i : Nat} {lost : Bool} (h : s.inv = true) : (State.disqualify s i lost).inv = true := by
  unfold State.disqualify
  extract_lets was active s1 s2 s3
  have h1 : s1.inv = true := State.modRefIn_inv h
  clear_value s1
  have h2 : s2.inv = true := State.inv_ite (fun _ => State.inv_ite (fun _ => State.raise_inv (State.wr_inv h1)) fun _ => h1) fun _ =>
    State.inv_ite (fun _ => State.raise_inv (State.wr_inv h1)) fun _ => h1
  clear_value s2
  have h3 : s3.inv = true := State.inv_ite (fun _ => State.abandonStep_inv h2) fun _ => h2
  clear_value s3
  exact State.inv_ite (fun _ => State.flywheel_inv h3) fun _ => h3

theorem State.refCheck_inv {s : State} {i : Nat} (h : s.inv = true) : (State.refCheck s i).inv = true := by
  unfold State.refCheck
  repeat' first | (with_reducible first | assumption | extract_lets | apply State.disqualify_inv | apply State.modRefIn_inv | refine State.inv_ite (fun _ => ?_) fun _ => ?_) | (with_reducible first | apply State.inv_keep)

theorem State.refLost_inv {s : State} {i : Nat} (h : s.inv = true) : (State.refLost s i).inv = true := by
  unfold State.refLost
  repeat' first | (with_reducible first | assumption | extract_lets | apply State.disqualify_inv | apply State.modRefIn_inv | refine State.inv_ite (fun _ => ?_) fun _ => ?_) | (with_reducible first | apply State.inv_keep)

theorem State.refCheckAll_inv {s : State} (h : s.inv = true) : (State.refCheckAll s).inv = true := by
  unfold State.refCheckAll
  with_reducible repeat' first | assumption | extract_lets | apply State.refCheck_inv | refine inv_foldl ?_ fun _ _ _ => ?_

theorem State.entryChanged_inv {s : State} {i : ℕ} {input : Bool} (h : s.inv = true) : (State.entryChanged s i input).inv = true := by
  unfold State.entryChanged
  with_reducible repeat' first | assumption | extract_lets | apply State.modRefIn_inv | apply State.endCause_inv | apply State.wr_inv | apply State.refCheck_inv | refine State.inv_ite (fun _ => ?_) fun _ => ?_

theorem State.entriesChanged_inv {old : State} {s : State} (h : old.inv = true) (h1 : s.inv = true) : (State.entriesChanged old s).inv = true := by
  unfold State.entriesChanged
  repeat' first | (with_reducible first | assumption | extract_lets | apply State.entryChanged_inv | refine State.inv_ite (fun _ => ?_) fun _ => ?_ | refine inv_foldl ?_ fun _ _ _ => ?_) | split

theorem State.timState_inv {s : State} {st : ℕ} (h : s.inv = true) : (State.timState s st).inv = true := by
  unfold State.timState
  with_reducible repeat' first | assumption | extract_lets | apply State.wr_inv | apply State.modTim_inv | apply State.raise_inv | apply State.endCause_inv | refine State.inv_ite (fun _ => ?_) fun _ => ?_

theorem State.setBias_inv {s : State} {o : ℤ} (h : s.inv = true) : (State.setBias s o).inv = true := by
  unfold State.setBias
  with_reducible repeat' first | assumption | apply State.wr_inv | apply State.wrInt_inv | apply State.modTim_inv

theorem State.refState_inv {s : State} {st : ℕ} (h : s.inv = true) : (State.refState s st).inv = true := by
  unfold State.refState
  with_reducible repeat' first | assumption | apply State.modRef_inv | apply State.wr_inv | refine State.inv_ite (fun _ => ?_) fun _ => ?_

theorem State.retireBias_inv {s : State} (h : s.inv = true) : (State.retireBias s).inv = true := by
  unfold State.retireBias
  with_reducible repeat' first | assumption | extract_lets | apply State.modTim_inv | apply State.refState_inv | apply State.setBias_inv | refine State.inv_ite (fun _ => ?_) fun _ => ?_

theorem State.loopStep_inv {s : State} {i : Nat} {e : Int} {tau : Nat} (h : s.inv = true) : (State.loopStep s i e tau).inv = true := by
  unfold State.loopStep
  with_reducible repeat' first | assumption | extract_lets | apply State.modRef_inv | apply State.slewTo_inv | refine State.inv_ite (fun _ => ?_) fun _ => ?_

theorem State.slewStep_inv {s : State} {e : Int} {tau : Nat} (h : s.inv = true) : (State.slewStep s e tau).inv = true := by
  unfold State.slewStep
  with_reducible repeat' first | assumption | extract_lets | apply State.slewTo_inv | refine State.inv_ite (fun _ => ?_) fun _ => ?_

theorem State.helioSample_inv {was : State} {i : Nat} {raw : Int} (h : was.inv = true) : (State.helioSample was i raw).inv = true := by
  unfold State.helioSample
  with_reducible repeat' first | assumption | extract_lets | apply State.loopStep_inv | apply State.modRef_inv | apply State.retireBias_inv | apply State.slewStep_inv | apply State.timState_inv | apply State.wrInt_inv | refine State.inv_ite (fun _ => ?_) fun _ => ?_

theorem State.refSample_inv {s : State} {i : ℕ} {raw : ℤ} {freq : Option ℤ} (h : s.inv = true) : (State.refSample s i raw freq).inv = true := by
  unfold State.refSample
  repeat' first | (with_reducible first | assumption | extract_lets | apply State.modRefIn_inv | apply State.endCause_inv | apply State.wrInt_inv | apply State.helioSample_inv | apply State.refCheck_inv | refine State.inv_ite (fun _ => ?_) fun _ => ?_) | split | (with_reducible first | dsimp +zetaDelta only)

theorem State.fpStat_inv {s : State} {p : ℕ} (h : s.inv = true) : (State.fpStat s p).inv = true := by
  unfold State.fpStat
  repeat' first | (with_reducible first | assumption | extract_lets | apply State.wr_inv)

theorem State.fpPlan_inv {s : State} {p : Nat} (h : s.inv = true) : (State.fpPlan s p).inv = true := by
  unfold State.fpPlan
  with_reducible repeat' first | assumption | extract_lets | apply State.fpStat_inv | apply State.modFp_inv

theorem State.fpRebase_inv {s : State} {p : Nat} (h : s.inv = true) : (State.fpRebase s p).inv = true := by
  unfold State.fpRebase
  with_reducible repeat' first | assumption | extract_lets | apply State.modFp_inv

theorem State.notePulse_inv {s : State} {code : Nat} (h : s.inv = true) : (State.notePulse s code).inv = true := by
  unfold State.notePulse
  repeat' first | (with_reducible first | assumption | extract_lets | apply State.endCause_inv | apply State.flywheel_inv | apply State.fpPlan_inv | apply State.fpRebase_inv | apply State.modFp_inv | apply State.modRef_inv | refine State.inv_ite (fun _ => ?_) fun _ => ?_ | refine inv_foldl ?_ fun _ _ _ => ?_) | split

theorem State.flyPass_inv {s : State} (h : s.inv = true) : (State.flyPass s).inv = true := by
  unfold State.flyPass
  repeat' first | (with_reducible first | assumption | extract_lets | apply State.flywheel_inv | refine fst_inv (by assumption) ?_ | refine snd_inv (by assumption) ?_ | refine State.inv_ite (fun _ => ?_) fun _ => ?_ | refine inv_foldl ?_ fun _ _ _ => ?_) | split | (with_reducible first | apply State.inv_keep)

theorem State.pin_inv {s : State} {name : ℕ} {level : ℕ} (h : s.inv = true) : (State.pin s name level).inv = true := by
  unfold State.pin
  with_reducible repeat' first | assumption | apply State.inv_keep

theorem State.fpLevel_inv {s : State} {p : Nat} {active : Bool} (h : s.inv = true) : (State.fpLevel s p active).inv = true := by
  unfold State.fpLevel
  with_reducible repeat' first | assumption | extract_lets | apply State.pin_inv

theorem State.fpChanged_inv {old : State} {s : State} {p : Nat} (h : old.inv = true) (h1 : s.inv = true) : (State.fpChanged old s p).inv = true := by
  unfold State.fpChanged
  with_reducible repeat' first | assumption | extract_lets | apply State.endCause_inv | apply State.flywheel_inv | apply State.fpLevel_inv | apply State.fpPlan_inv | apply State.fpRebase_inv | apply State.fpStat_inv | apply State.modFp_inv | refine State.inv_ite (fun _ => ?_) fun _ => ?_

theorem State.clockHold_inv {s : State} {c : Nat} {was : Nat × Nat} {fall : Nat} (h : s.inv = true) : (State.clockHold s c was fall).inv = true := by
  unfold State.clockHold
  with_reducible repeat' first | assumption | extract_lets | apply State.modRef_inv | apply State.pin_inv

theorem State.clockChanged_inv {old : State} {s : State} {c : Nat} (h : old.inv = true) (h1 : s.inv = true) : (State.clockChanged old s c).inv = true := by
  unfold State.clockChanged
  with_reducible repeat' first | assumption | extract_lets | apply State.clockHold_inv | refine State.inv_ite (fun _ => ?_) fun _ => ?_

theorem State.clockStep_inv {s : State} {old : Nat} {new : Nat} {c : Nat} (h : s.inv = true) : (State.clockStep s old new c).inv = true := by
  unfold State.clockStep
  with_reducible repeat' first | assumption | extract_lets | apply State.clockHold_inv | refine State.inv_ite (fun _ => ?_) fun _ => ?_

theorem State.modTp_inv {s : State} {p : ℕ} {f : PulseOut → PulseOut} (h : s.inv = true) : (State.modTp s p f).inv = true := by
  unfold State.modTp
  with_reducible repeat' first | assumption | apply State.modTim_inv

theorem State.tpLevel_inv {s : State} {p : ℕ} {active : Bool} {activeLow : Bool} (h : s.inv = true) : (State.tpLevel s p active activeLow).inv = true := by
  unfold State.tpLevel
  with_reducible repeat' first | assumption | extract_lets | apply State.pin_inv | apply State.wr_inv

theorem State.tpFire_inv {s : State} {p : ℕ} {t : ℕ} {g : PulseProg} (h : s.inv = true) : (State.tpFire s p t g).inv = true := by
  unfold State.tpFire
  with_reducible repeat' first | assumption | apply State.tpLevel_inv | apply State.modTp_inv

theorem State.tpLate_inv {s : State} {old : Nat} {new : Nat} {p : Nat} {g : PulseProg} (h : s.inv = true) : (State.tpLate s old new p g).inv = true := by
  unfold State.tpLate
  with_reducible repeat' first | assumption | extract_lets | apply State.raise_inv | apply State.tpFire_inv | apply State.wr_inv | refine State.inv_ite (fun _ => ?_) fun _ => ?_

theorem State.tpStep_inv {s : State} {old : Nat} {new : Nat} {p : Nat} (h : s.inv = true) : (State.tpStep s old new p).inv = true := by
  unfold State.tpStep
  with_reducible repeat' first | assumption | extract_lets | apply State.modTp_inv | apply State.tpLate_inv | refine State.inv_ite (fun _ => ?_) fun _ => ?_ | refine inv_foldl ?_ fun _ _ _ => ?_

theorem State.refStep_inv {s : State} {old : Nat} {new : Nat} (h : s.inv = true) : (State.refStep s old new).inv = true := by
  unfold State.refStep
  with_reducible repeat' first | assumption | extract_lets | apply State.modRef_inv | refine State.inv_ite (fun _ => ?_) fun _ => ?_

theorem State.followStep_inv {s : State} {old : Nat} {new : Nat} (h : s.inv = true) : (State.followStep s old new).inv = true := by
  unfold State.followStep
  repeat' first | (with_reducible first | assumption | extract_lets | apply State.clockStep_inv | apply State.generatorsStep_inv | apply State.modFp_inv | apply State.modTim_inv | apply State.refStep_inv | apply State.staveStep_inv | apply State.tpStep_inv | refine State.inv_ite (fun _ => ?_) fun _ => ?_ | refine inv_foldl ?_ fun _ _ _ => ?_) | (with_reducible first | apply State.inv_keep)

theorem State.stepTo_inv {s : State} {new : ℕ} (h : s.inv = true) : (State.stepTo s new).inv = true := by
  unfold State.stepTo
  with_reducible repeat' first | assumption | extract_lets | apply State.setY_inv | apply State.modTim_inv | apply State.raise_inv | apply State.setBias_inv | apply State.modRef_inv | apply State.followStep_inv | apply State.refState_inv | refine State.inv_ite (fun _ => ?_) fun _ => ?_

theorem State.formYh_inv {s : State} (h : s.inv = true) : (State.formYh s).inv = true := by
  unfold State.formYh
  with_reducible repeat' first | assumption | extract_lets | apply State.modRef_inv | apply State.refCheckAll_inv | apply State.wrInt_inv | refine State.inv_ite (fun _ => ?_) fun _ => ?_

theorem State.enterHoldover_inv {s : State} (h : s.inv = true) : (State.enterHoldover s).inv = true := by
  unfold State.enterHoldover
  with_reducible repeat' first | assumption | extract_lets | apply State.setBias_inv | apply State.modRef_inv | apply State.formYh_inv | apply State.raise_inv | apply State.refState_inv | apply State.timState_inv | apply State.wr_inv | refine State.inv_ite (fun _ => ?_) fun _ => ?_

theorem State.dropActive_inv {s : State} (h : s.inv = true) : (State.dropActive s).inv = true := by
  unfold State.dropActive
  repeat' first | (with_reducible first | assumption | extract_lets | apply State.abandonStep_inv | apply State.modRef_inv | apply State.raise_inv | apply State.wr_inv) | split

theorem State.selectEntry_inv {s : State} {i : Nat} (h : s.inv = true) : (State.selectEntry s i).inv = true := by
  unfold State.selectEntry
  extract_lets prev c sel s1 s2 s3 s4 raw o t t1 s5
  have h1 : s1.inv = true := by
    cases hp : s.activeEntry with
    | some p => simpa only [s1, prev, hp] using State.wr_inv h
    | none => simpa only [s1, prev, hp] using h
  clear_value s1
  have h3 : s3.inv = true := State.raise_inv (State.modRef_inv (State.abandonStep_inv (State.wr_inv (State.wr_inv (State.wr_inv (State.wr_inv h1))))))
  clear_value s3
  have h4 : s4.inv = true := State.inv_ite (fun _ => State.raise_inv h3) fun _ => h3
  clear_value s4
  have ht : t.inv = true := State.modRef_inv (State.setBias_inv h4)
  have ht1 : t1.inv = true := State.inv_ite (fun _ => State.timState_inv ht) fun _ => ht
  clear_value t t1
  refine State.wr_inv (State.inv_ite (fun _ => State.refState_inv (State.inv_ite (fun _ => State.decideStep_inv h4) fun _ => h4)) fun _ => ?_)
  cases prev with
  | none => exact State.refState_inv (State.endCause_inv (State.timState_inv h4))
  | some p => exact State.refState_inv ht1

theorem State.discordPass_inv {s : State} (h : s.inv = true) : (State.discordPass s).inv = true := by
  unfold State.discordPass
  with_reducible repeat' first | assumption | extract_lets | apply State.endCause_inv | apply State.raise_inv | apply State.wr_inv | refine State.inv_ite (fun _ => ?_) fun _ => ?_ | refine inv_foldl ?_ fun _ _ _ => ?_

theorem State.loadTable_inv {s : State} {p : List Byte} (h : s.inv = true) : (State.loadTable s p).inv = true := by
  unfold State.loadTable
  with_reducible repeat' first | assumption | extract_lets | apply State.entriesChanged_inv | apply State.modRef_inv | apply State.wr_inv | refine State.inv_ite (fun _ => ?_) fun _ => ?_ | refine inv_foldl ?_ fun _ _ _ => ?_

theorem State.entryStats_inv {s : State} (h : s.inv = true) : (State.entryStats s).inv = true := by
  unfold State.entryStats
  repeat' first | (with_reducible first | assumption | extract_lets | apply State.wr_inv | refine State.inv_ite (fun _ => ?_) fun _ => ?_ | refine inv_foldl ?_ fun _ _ _ => ?_)

theorem State.actOn_inv {s : State} {prev : Option Nat} {choice : Option Nat} (h : s.inv = true) : (State.actOn s prev choice).inv = true := by
  unfold State.actOn
  repeat' first | (with_reducible first | assumption | extract_lets | apply State.dropActive_inv | apply State.enterHoldover_inv | apply State.refState_inv | apply State.selectEntry_inv | refine fst_inv (by assumption) ?_ | refine snd_inv (by assumption) ?_ | refine State.inv_ite (fun _ => ?_) fun _ => ?_) | split | (with_reducible first | apply State.inv_keep)

theorem State.acquiring_inv {s : State} (h : s.inv = true) : (State.acquiring s).inv = true := by
  unfold State.acquiring
  with_reducible repeat' first | assumption | apply State.timState_inv | refine State.inv_ite (fun _ => ?_) fun _ => ?_

theorem State.holdStep_inv {s : State} (h : s.inv = true) : (State.holdStep s).inv = true := by
  unfold State.holdStep
  with_reducible repeat' first | assumption | extract_lets | apply State.slewTo_inv | refine State.inv_ite (fun _ => ?_) fun _ => ?_

theorem State.takeTable_inv {s : State} (h : s.inv = true) : (State.takeTable s).inv = true := by
  unfold State.takeTable
  repeat' first | (with_reducible first | assumption | apply State.loadTable_inv) | split

theorem State.refPass_inv {s : State} (h : s.inv = true) : (State.refPass s).inv = true := by
  unfold State.refPass
  with_reducible repeat' first | assumption | extract_lets | apply State.acquiring_inv | apply State.actOn_inv | apply State.discordPass_inv | apply State.entryStats_inv | apply State.flyPass_inv | apply State.holdStep_inv | apply State.modRef_inv | apply State.refCheckAll_inv | apply State.retireBias_inv | apply State.takeTable_inv

theorem State.addOffset_inv {s : State} {ofs : ℤ} (h : s.inv = true) : (State.addOffset s ofs).inv = true := by
  unfold State.addOffset
  with_reducible repeat' first | assumption | extract_lets | apply State.inv_keep

theorem State.partnerPhase_inv {s : State} {i : ℕ} {ofs : ℤ} (h : s.inv = true) : (State.partnerPhase s i ofs).inv = true := by
  unfold State.partnerPhase
  with_reducible repeat' first | assumption | extract_lets | apply State.refSample_inv | apply State.modRef_inv

theorem State.partnerTime_inv {s : State} {l : Nat} {ofs : Int} (h : s.inv = true) : (State.partnerTime s l ofs).inv = true := by
  unfold State.partnerTime
  with_reducible repeat' first | assumption | extract_lets | apply State.addOffset_inv | refine State.inv_ite (fun _ => ?_) fun _ => ?_

theorem State.partnerSample_inv {s : State} {l : ℕ} {ofs : ℤ} (h : s.inv = true) : (State.partnerSample s l ofs).inv = true := by
  unfold State.partnerSample
  repeat' first | (with_reducible first | assumption | extract_lets | apply State.addOffset_inv | apply State.partnerPhase_inv | refine State.inv_ite (fun _ => ?_) fun _ => ?_) | split

end Sys2Proof.Machine
end

