-- ==== Sys2Proof/Laws/InvAccounts.lean ====
section
/-!
SUPPORT. Every operation of Machine/Accounts.lean keeps the invariant of the state.
-/
namespace Sys2Proof.Machine
open Sys2Proof

theorem State.applyRoute_inv {s : State} {r : RouteRec} (h : s.inv = true) : (State.applyRoute s r).inv = true := by
  unfold State.applyRoute
  with_reducible repeat' first | assumption | apply State.putCur_inv | refine inv_foldl ?_ fun _ _ _ => ?_

theorem State.keepReport_inv {s : State} {session : ℕ} {v : Verdict} (h : s.inv = true) : (State.keepReport s session v).2.inv = true := by
  unfold State.keepReport
  with_reducible repeat' first | assumption | extract_lets | apply State.inv_keep

theorem State.noteOver_inv {s : State} (h : s.inv = true) : (State.noteOver s).inv = true := by
  unfold State.noteOver
  with_reducible repeat' first | assumption | extract_lets | apply State.raiseAll_inv | apply State.wr_inv | apply State.endCause_inv | refine inv_foldl ?_ fun _ _ _ => ?_ | apply State.inv_keep

theorem State.noteMirrored_inv {s : State} {v : Verdict} (h : s.inv = true) : (State.noteMirrored s v).inv = true := by
  unfold State.noteMirrored
  repeat' first | (with_reducible first | assumption | extract_lets | refine fst_inv (by assumption) ?_ | refine snd_inv (by assumption) ?_ | refine State.inv_ite (fun _ => ?_) fun _ => ?_ | refine inv_foldl ?_ fun _ _ _ => ?_) | split | (with_reducible first | apply State.inv_keep | apply State.inv_keepMem | apply State.inv_keepFlt)

end Sys2Proof.Machine
end

