-- ==== Sys2Proof/Laws/InvWork.lean ====
section
/-!
SUPPORT. Every operation of Machine/Work.lean keeps the invariant of the state.
-/
namespace Sys2Proof.Machine
open Sys2Proof

theorem State.noteWork_inv {s : State} (h : s.inv = true) : (State.noteWork s).inv = true := by
  unfold State.noteWork
  with_reducible repeat' first | assumption | extract_lets | apply State.inv_keep

theorem State.arrive_inv {dt : ℕ} {s : State} (h : s.inv = true) : (State.arrive dt s).inv = true := by
  unfold State.arrive
  with_reducible repeat' first | assumption | apply State.noteWork_inv | apply State.elapse_inv

end Sys2Proof.Machine
end

