-- ==== Sys2Proof/Laws/InvCyxel.lean ====
section
/-!
SUPPORT. Every operation of Machine/Cyxel.lean keeps the invariant of the state.
-/
namespace Sys2Proof.Machine
open Sys2Proof

theorem Done.ok_inv {s : State} {payload : List Byte} (h : s.inv = true) : (Done.ok s payload).state.inv = true := by
  unfold Done.ok
  with_reducible repeat' first | assumption

theorem Done.pending_inv {s : State} {payload : List Byte} (h : s.inv = true) : (Done.pending s payload).state.inv = true := by
  unfold Done.pending
  with_reducible repeat' first | assumption

theorem Done.err_inv {s : State} {status : ℕ} {off : ℕ} (h : s.inv = true) : (Done.err s status off).state.inv = true := by
  unfold Done.err
  with_reducible repeat' first | assumption

theorem State.endTests_inv {s : State} (h : s.inv = true) : (State.endTests s).inv = true := by
  unfold State.endTests
  with_reducible repeat' first | assumption | extract_lets | apply State.inv_keep

theorem weighChange_inv {s : State} {x : Ctx} {d0 : Done} {prefixes : List State} {full empty : Bool} (hs : s.inv = true) (hd : d0.state.inv = true) :
    (weighChange s x d0 prefixes full empty).state.inv = true := by
  unfold weighChange
  extract_lets d v k src cru s1 s2 k2
  have hd' : d.state.inv = true := by
    show State.inv (Done.state (if _ then _ else _)) = true
    split
    · exact hd
    · exact State.endTests_inv hd
  have hk : k.2.inv = true := by
    show State.inv (Prod.snd (if _ then _ else _)) = true
    split
    · exact State.keepReport_inv hd'
    · exact hd'
  have hk2 : k2.2.inv = true := State.keepReport_inv hs
  clear_value k2
  have h1 : s1.inv = true := State.inv_keep hk
  clear_value s1
  have h2 : s2.inv = true := State.noteOver_inv (State.inv_ite (fun _ => h1) fun _ => State.noteMirrored_inv h1)
  clear_value s2
  split
  · exact h2
  · exact State.noteOver_inv (State.bumpSat_inv hk2)

theorem OpSpec.perform_inv {op : OpSpec} {s : State} {x : Ctx} {p : List Byte} (hop : op.keeps) (hs : s.inv = true) :
    (op.perform s x p).state.inv = true := by
  unfold OpSpec.perform
  split
  · exact hs
  · extract_lets d
    split
    · exact weighChange_inv hs (OpSpec.run_inv hop hs)
    · exact OpSpec.run_inv hop hs

theorem State.takeSeq_inv {s : State} {rq : Req} {first : Nat} (h : s.inv = true) : (State.takeSeq s rq first).inv = true := by
  unfold State.takeSeq
  with_reducible repeat' first | assumption | extract_lets | apply State.modSession_inv | apply State.moveEvents_inv | refine State.inv_ite (fun _ => ?_) fun _ => ?_

theorem State.openAccepted_inv {s : State} {parent : ℕ} {seq : ℕ} (h : s.inv = true) : (State.openAccepted s parent seq).inv = true := by
  unfold State.openAccepted
  with_reducible repeat' first | assumption | extract_lets | apply State.inv_keep

theorem State.openAnswered_inv {s : State} {parent : Nat} {seq : Nat} {busy : Bool} (h : s.inv = true) : (State.openAnswered s parent seq busy).inv = true := by
  unfold State.openAnswered
  repeat' first | (with_reducible first | assumption | extract_lets | apply State.busy_inv | refine State.inv_ite (fun _ => ?_) fun _ => ?_) | split | (with_reducible first | apply State.inv_keep)

theorem State.hearOpen_inv {s : State} {rq : Req} (h : s.inv = true) : (State.hearOpen s rq).inv = true := by
  unfold State.hearOpen
  with_reducible repeat' first | assumption | extract_lets | apply State.modSession_inv | apply State.moveEvents_inv

theorem State.authFail_inv {s : State} {opcode : ℕ} {rq : Req} (h : s.inv = true) : (State.authFail s opcode rq).inv = true := by
  unfold State.authFail
  with_reducible repeat' first | assumption | extract_lets | apply State.bumpSat_inv | apply State.sendReply_inv | refine State.inv_ite (fun _ => ?_) fun _ => ?_ | apply State.inv_keep

theorem State.closeSession_inv {s : State} {id : ℕ} (h : s.inv = true) : (State.closeSession s id).inv = true := by
  unfold State.closeSession
  repeat' first | (with_reducible first | assumption | extract_lets | apply State.invalidate_inv | refine State.inv_ite (fun _ => ?_) fun _ => ?_) | split | (with_reducible first | apply State.inv_keep)

theorem State.closeRevoked_inv {s : State} {id : Nat} (h : s.inv = true) : (State.closeRevoked s id).inv = true := by
  unfold State.closeRevoked
  repeat' first | (with_reducible first | assumption | extract_lets | apply State.closeSession_inv | refine fst_inv (by assumption) ?_ | refine snd_inv (by assumption) ?_ | refine State.inv_ite (fun _ => ?_) fun _ => ?_ | refine inv_foldl ?_ fun _ _ _ => ?_) | split | (with_reducible first | apply State.inv_keep | apply State.inv_keepMem | apply State.inv_keepFlt)

theorem State.setQueue_inv {s : State} {id : Nat} {q : List (Nat × Req × Nat)} (h : s.inv = true) : (State.setQueue s id q).inv = true := by
  unfold State.setQueue
  repeat' first | (with_reducible first | assumption | extract_lets | apply State.modSession_inv | refine State.inv_ite (fun _ => ?_) fun _ => ?_) | (with_reducible first | apply State.inv_keep)

theorem State.answer_inv {s : State} {opcode : ℕ} {rq : Req} {status : ℕ} {payload : List Byte} (h : s.inv = true) : (State.answer s opcode rq status payload).inv = true := by
  unfold State.answer
  with_reducible repeat' first | assumption | extract_lets | apply State.modSession_inv | apply State.sendReply_inv | refine State.inv_ite (fun _ => ?_) fun _ => ?_

theorem State.dropPartial_inv {s : State} {rq : Req} (h : s.inv = true) : (State.dropPartial s rq).inv = true := by
  unfold State.dropPartial
  with_reducible repeat' first | assumption | extract_lets | apply State.inv_keep

theorem State.abandon_inv {s : State} {q : Partial} {rq : Req} (h : s.inv = true) : (State.abandon s q rq).inv = true := by
  unfold State.abandon
  with_reducible repeat' first | assumption | extract_lets | apply State.modSession_inv | apply State.sendReply_inv | refine State.inv_ite (fun _ => ?_) fun _ => ?_

theorem State.breakPartial_inv {s : State} {opcode : Nat} {rq : Req} (h : s.inv = true) : (State.breakPartial s opcode rq).inv = true := by
  unfold State.breakPartial
  repeat' first | (with_reducible first | assumption | extract_lets | apply State.abandon_inv | apply State.dropPartial_inv | refine State.inv_ite (fun _ => ?_) fun _ => ?_) | split

theorem State.takeFragment_inv {s : State} {opcode : Nat} {rq : Req} (h : s.inv = true) : (State.takeFragment s opcode rq).inv = true := by
  unfold State.takeFragment
  repeat' first | (with_reducible first | assumption | extract_lets | apply State.dropPartial_inv | refine fst_inv (by assumption) ?_ | refine snd_inv (by assumption) ?_) | split | (with_reducible first | apply State.inv_keep)

theorem State.reassemble_inv {s : State} {opcode : Nat} {rq : Req} (h : s.inv = true) : (State.reassemble s opcode rq).1.inv = true := by
  unfold State.reassemble
  repeat' first | (with_reducible first | assumption | extract_lets | apply State.abandon_inv | apply State.dropPartial_inv | refine State.inv_ite (fun _ => ?_) fun _ => ?_) | split

theorem State.fragment_inv {s : State} {opcode : Nat} {rq : Req} (h : s.inv = true) : (State.fragment s opcode rq).inv = true := by
  unfold State.fragment
  with_reducible repeat' first | assumption | extract_lets | apply State.answer_inv | apply State.authFail_inv | apply State.breakPartial_inv | apply State.dropPartial_inv | apply State.takeFragment_inv | apply State.takeSeq_inv | refine State.inv_ite (fun _ => ?_) fun _ => ?_

theorem State.mirrorGate_inv {s : State} {opcode : ℕ} {rq : Req} (h : s.inv = true) : (State.mirrorGate s opcode rq).1.inv = true := by
  unfold State.mirrorGate
  repeat' first | (with_reducible first | assumption | extract_lets | apply State.raise_inv | apply State.resyncFail_inv | apply State.startResync_inv | apply State.wr_inv | refine State.inv_ite (fun _ => ?_) fun _ => ?_) | split | (with_reducible first | apply State.inv_keep)

theorem State.busy_inv {s : State} {opcode : Nat} {rq : Req} (h : s.inv = true) : (State.busy s opcode rq).inv = true := by
  unfold State.busy
  repeat' first | (with_reducible first | assumption | extract_lets | apply State.sendReply_inv | refine fst_inv (by assumption) ?_ | refine snd_inv (by assumption) ?_ | refine State.inv_ite (fun _ => ?_) fun _ => ?_ | refine inv_foldl ?_ fun _ _ _ => ?_) | split | (with_reducible first | apply State.inv_keep | apply State.inv_keepMem | apply State.inv_keepFlt)

theorem State.enqueue_inv {s : State} {b : State} {opcode : Nat} {rq : Req} (h : s.inv = true) (h1 : b.inv = true) : (State.enqueue s b opcode rq).inv = true := by
  unfold State.enqueue
  with_reducible repeat' first | assumption | extract_lets | apply State.busy_inv | apply State.setQueue_inv | refine State.inv_ite (fun _ => ?_) fun _ => ?_

theorem State.served_inv {s : State} {id : Nat} {origin : Nat} (h : s.inv = true) : (State.served s id origin).inv = true := by
  unfold State.served
  repeat' first | (with_reducible first | assumption | extract_lets | refine fst_inv (by assumption) ?_ | refine snd_inv (by assumption) ?_ | refine State.inv_ite (fun _ => ?_) fun _ => ?_ | refine inv_foldl ?_ fun _ _ _ => ?_) | split | (with_reducible first | apply State.inv_keep | apply State.inv_keepMem | apply State.inv_keepFlt)

theorem State.leaseGate_inv {s b : State} {op : OpSpec} {rq : Req} {p : List Byte} (h : s.inv = true) (hb : b.inv = true) : (State.leaseGate s b op rq p).inv := by
  unfold State.leaseGate
  repeat' first | (with_reducible first | assumption | extract_lets | apply State.answer_inv | apply State.mirrorGate_inv | apply State.enqueue_inv | apply State.busy_inv | apply State.served_inv | refine fst_inv (by assumption) ?_ | refine State.inv_ite (fun _ => ?_) fun _ => ?_) | split | (with_reducible first | apply Gate.inv_ended | apply Gate.inv_start)

theorem State.opcodeGate_inv {s b : State} {op : OpSpec} {rq : Req} {p : List Byte} (h : s.inv = true) (hb : b.inv = true) : (State.opcodeGate s b op rq p).inv := by
  unfold State.opcodeGate
  repeat' first | (with_reducible first | assumption | apply State.leaseGate_inv | apply State.answer_inv | refine Gate.ended_inv (by assumption) ?_ | refine Gate.started_inv (by assumption) ?_ | refine State.inv_ite (fun _ => ?_) fun _ => ?_) | split | (with_reducible first | apply Gate.inv_ended)

theorem State.lifeGate_inv {s b : State} {op : OpSpec} {rq : Req} {p : List Byte} (h : s.inv = true) (hb : b.inv = true) : (State.lifeGate s b op rq p).inv := by
  unfold State.lifeGate
  repeat' first | (with_reducible first | assumption | apply State.answer_inv | apply State.opcodeGate_inv | refine Gate.ended_inv (by assumption) ?_ | refine Gate.started_inv (by assumption) ?_ | refine State.inv_ite (fun _ => ?_) fun _ => ?_) | split | (with_reducible first | apply Gate.inv_ended)

theorem State.startQueued_inv {s : State} {op : OpSpec} {rq : Req} (h : s.inv = true) : (State.startQueued s op rq).inv := by
  unfold State.startQueued
  repeat' first | (with_reducible first | assumption | extract_lets | apply State.setQueue_inv | apply State.answer_inv | apply State.closeRevoked_inv | apply State.served_inv | refine State.inv_ite (fun _ => ?_) fun _ => ?_) | split | (with_reducible first | apply Gate.inv_ended | apply Gate.inv_start)

theorem State.keyRevoked_inv {s : State} {opcode : Nat} {rq : Req} (h : s.inv = true) : (State.keyRevoked s opcode rq).inv = true := by
  unfold State.keyRevoked
  repeat' first | (with_reducible first | assumption | extract_lets | apply State.sendReply_inv | refine fst_inv (by assumption) ?_ | refine snd_inv (by assumption) ?_ | refine State.inv_ite (fun _ => ?_) fun _ => ?_ | refine inv_foldl ?_ fun _ _ _ => ?_) | split | (with_reducible first | apply State.inv_keep | apply State.inv_keepMem | apply State.inv_keepFlt)

theorem State.sessionGate_inv {s : State} {op : OpSpec} {rq : Req} {p : List Byte} {first : Nat} (h : s.inv = true) : (State.sessionGate s op rq p first).inv := by
  unfold State.sessionGate
  repeat' first | (with_reducible first | assumption | extract_lets | apply State.authFail_inv | apply State.openAccepted_inv | apply State.hearOpen_inv | apply State.opcodeGate_inv | apply State.sendReply_inv | apply State.lifeGate_inv | apply State.modSession_inv | apply State.closeRevoked_inv | apply State.keyRevoked_inv | apply State.moveEvents_inv | apply State.takeSeq_inv | refine Gate.ended_inv (by assumption) ?_ | refine Gate.started_inv (by assumption) ?_ | refine State.inv_ite (fun _ => ?_) fun _ => ?_) | split | (with_reducible first | apply Gate.inv_ended)

theorem State.consume_inv {s : State} {t : Transport} {bytes : List Byte} (h : s.inv = true) : ∀ u, s.consume t bytes = some u → u.inv = true := by
  intro u hu
  unfold State.consume at hu
  split at hu
  · extract_lets i at hu
    split at hu
    · cases hu
    · cases hu
      exact State.wr_inv h
  · cases hu
    exact h

theorem State.newRequest_inv {s : State} {op : OpSpec} {rq : Req} (h : s.inv = true) : (State.newRequest s op rq).inv := by
  unfold State.newRequest
  repeat' first | (with_reducible first | assumption | extract_lets | apply State.takeSeq_inv | apply State.reassemble_inv | apply State.answer_inv | apply State.authFail_inv | apply State.busy_inv | apply State.sessionGate_inv | refine fst_inv (by assumption) ?_ | refine Gate.ended_inv (by assumption) ?_ | refine Gate.started_inv (by assumption) ?_ | refine State.inv_ite (fun _ => ?_) fun _ => ?_) | split | (with_reducible first | apply Gate.inv_ended | apply Gate.inv_start)

theorem State.gate_inv {s : State} {op : OpSpec} {rq : Req} (h : s.inv = true) : (State.gate s op rq).inv := by
  unfold State.gate
  repeat' first | (with_reducible first | assumption | apply State.startQueued_inv | apply State.fragment_inv | apply State.newRequest_inv | refine Gate.ended_inv (by assumption) ?_ | refine Gate.started_inv (by assumption) ?_ | refine State.consume_inv ?_ _ (by assumption) | refine State.inv_ite (fun _ => ?_) fun _ => ?_) | split | (with_reducible first | dsimp +zetaDelta only | apply Gate.inv_ended)

theorem State.mirrorOne_inv {s : State} {opcode : ℕ} {payload : List Byte} (h : s.inv = true) : (State.mirrorOne s opcode payload).inv = true := by
  unfold State.mirrorOne
  with_reducible repeat' first | assumption | extract_lets | apply State.wr_inv | apply State.partnerSend_inv | apply State.bump_inv | refine State.inv_ite (fun _ => ?_) fun _ => ?_

theorem State.mirror_inv {s : State} {opcode : ℕ} {payload : List Byte} {reply : List Byte} {stamp : List Byte} (h : s.inv = true) : (State.mirror s opcode payload reply stamp).inv = true := by
  unfold State.mirror
  with_reducible repeat' first | assumption | apply State.mirrorOne_inv | refine State.inv_ite (fun _ => ?_) fun _ => ?_ | refine inv_foldl ?_ fun _ _ _ => ?_

theorem State.closeOwn_inv {s : State} {opcode : Nat} {id : Nat} (h : s.inv = true) : (State.closeOwn s opcode id).inv = true := by
  unfold State.closeOwn
  repeat' first | (with_reducible first | assumption | extract_lets | apply State.closeRevoked_inv | apply State.closeSession_inv | refine fst_inv (by assumption) ?_ | refine snd_inv (by assumption) ?_ | refine State.inv_ite (fun _ => ?_) fun _ => ?_ | refine inv_foldl ?_ fun _ _ _ => ?_) | split | (with_reducible first | apply State.inv_keep | apply State.inv_keepMem | apply State.inv_keepFlt)

theorem State.answerDone_inv {s : State} {opcode : Nat} {rq : Req} {status : Nat} {payload : List Byte} (h : s.inv = true) : (State.answerDone s opcode rq status payload).inv = true := by
  unfold State.answerDone
  with_reducible repeat' first | assumption | extract_lets | apply State.answer_inv | apply State.modSession_inv | apply State.sendReply_inv | refine State.inv_ite (fun _ => ?_) fun _ => ?_

theorem State.conclude_inv {op : OpSpec} {rq : Req} {p : List Byte} {d : Done} (h : d.state.inv = true) : (State.conclude op rq p d).inv = true := by
  unfold State.conclude
  with_reducible repeat' first | assumption | extract_lets | apply State.mirror_inv | apply State.raise_inv | apply State.openAnswered_inv | apply State.closeOwn_inv | apply State.settle_inv | apply State.answerDone_inv | refine State.inv_ite (fun _ => ?_) fun _ => ?_

theorem serve_inv {op : OpSpec} {dt : ℕ} {rq : Req} {s : State} (hop : op.keeps) (hs : s.inv = true) : (serve op dt rq s).inv = true := by
  unfold serve
  repeat' first | (with_reducible first | assumption | extract_lets | apply State.gate_inv | apply State.arrive_inv | apply State.conclude_inv | apply OpSpec.perform_inv | refine Gate.ended_inv (by assumption) ?_ | refine Gate.started_inv (by assumption) ?_ | refine State.inv_ite (fun _ => ?_) fun _ => ?_) | split

end Sys2Proof.Machine
end

