-- ==== Sys2Proof/Laws/InvFabCmds.lean ====
section
/-!
SUPPORT. Every operation of Machine/FabCmds.lean keeps the invariant of the state.
-/
namespace Sys2Proof.Machine
open Sys2Proof

theorem State.bindOutput_inv {s : State} {r : RouteRec} (h : s.inv = true) : (State.bindOutput s r).inv = true := by
  unfold State.bindOutput
  with_reducible repeat' first | assumption | apply State.wr_inv | refine State.inv_ite (fun _ => ?_) fun _ => ?_ | refine inv_foldl ?_ fun _ _ _ => ?_

theorem State.mirrorLate_inv {s : State} {x : Ctx} (h : s.inv = true) : (State.mirrorLate s x).inv = true := by
  unfold State.mirrorLate
  with_reducible repeat' first | assumption | apply State.raise_inv | refine State.inv_ite (fun _ => ?_) fun _ => ?_ | refine inv_foldl ?_ fun _ _ _ => ?_

theorem State.countPassed_inv {s : State} {rs : List RouteRec} (h : s.inv = true) : (State.countPassed s rs).inv = true := by
  unfold State.countPassed
  repeat' first | (with_reducible first | assumption | extract_lets | apply State.bump_inv | apply State.raise_inv | refine fst_inv (by assumption) ?_ | refine snd_inv (by assumption) ?_ | refine State.inv_ite (fun _ => ?_) fun _ => ?_ | refine inv_foldl ?_ fun _ _ _ => ?_) | split | (with_reducible first | apply State.inv_keep | apply State.inv_keepMem | apply State.inv_keepFlt)

theorem State.takeRoutes_inv {s : State} {x : Ctx} {t : Take} (h : s.inv = true) : (State.takeRoutes s x t).inv = true := by
  unfold State.takeRoutes
  repeat' first | (with_reducible first | assumption | extract_lets | apply State.addTake_inv | apply State.bindOutput_inv | apply State.countPassed_inv | apply State.mirrorLate_inv | refine fst_inv (by assumption) ?_ | refine snd_inv (by assumption) ?_ | refine State.inv_ite (fun _ => ?_) fun _ => ?_ | refine inv_foldl ?_ fun _ _ _ => ?_) | split | (with_reducible first | apply State.inv_keep | apply State.inv_keepMem | apply State.inv_keepFlt)

theorem opFabRoute_inv : opFabRoute.keeps := by
  unfold opFabRoute
  apply OpSpec.keeps_mk
  intro s x p h
  repeat' first | (with_reducible first | assumption | extract_lets | apply Done.err_inv | apply Done.pending_inv | apply State.takeRoutes_inv | refine State.inv_ite (fun _ => ?_) fun _ => ?_) | split

theorem opFabRouteBatch_inv : opFabRouteBatch.keeps := by
  unfold opFabRouteBatch
  apply OpSpec.keeps_mk
  intro s x p h
  repeat' first | (with_reducible first | assumption | extract_lets | apply Done.err_inv | apply Done.pending_inv | apply State.takeRoutes_inv | refine State.inv_ite (fun _ => ?_) fun _ => ?_) | split

theorem opFabBondDefine_inv : opFabBondDefine.keeps := by
  unfold opFabBondDefine
  apply OpSpec.keeps_mk
  intro s x p h
  repeat' first | (with_reducible first | assumption | extract_lets | apply Done.ok_inv | refine State.inv_ite (fun _ => ?_) fun _ => ?_) | split | (with_reducible first | apply State.inv_keep)

theorem opFabQuery_inv : opFabQuery.keeps := by
  unfold opFabQuery
  apply OpSpec.keeps_mk
  intro s x p h
  with_reducible repeat' first | assumption | extract_lets | apply Done.ok_inv

theorem opFabWindowStatus_inv : opFabWindowStatus.keeps := by
  unfold opFabWindowStatus
  apply OpSpec.keeps_mk
  intro s x p h
  repeat' first | (with_reducible first | assumption | extract_lets | apply Done.ok_inv)

theorem State.assignChannel_inv {s0 : State} {c : Landing} (h : s0.inv = true) : (State.assignChannel s0 c).inv = true := by
  unfold State.assignChannel
  with_reducible repeat' first | assumption | extract_lets | apply State.allocBuffer_inv | apply State.wr_inv | apply State.wr64_inv | apply State.takePort_inv | apply State.beginMeasure_inv | refine snd_inv (by assumption) ?_ | apply State.inv_keep

theorem opFabSyncAssign_inv : opFabSyncAssign.keeps := by
  unfold opFabSyncAssign
  apply OpSpec.keeps_mk
  intro s x p h
  repeat' first | (with_reducible first | assumption | extract_lets | apply Done.pending_inv | apply State.assignChannel_inv | refine State.inv_ite (fun _ => ?_) fun _ => ?_ | refine inv_foldl ?_ fun _ _ _ => ?_) | split | (with_reducible first | apply State.inv_keep)

theorem execFabRoute_inv {dt : ℕ} {rq : Req} {s : State} (h : s.inv = true) : OutcomeInv (execFabRoute dt rq s) := by
  unfold execFabRoute
  with_reducible repeat' first | assumption | apply outcome_next | apply serve_inv | apply opFabRoute_inv

theorem execFabRouteBatch_inv {dt : ℕ} {rq : Req} {s : State} (h : s.inv = true) : OutcomeInv (execFabRouteBatch dt rq s) := by
  unfold execFabRouteBatch
  with_reducible repeat' first | assumption | apply outcome_next | apply serve_inv | apply opFabRouteBatch_inv

theorem execFabBondDefine_inv {dt : ℕ} {rq : Req} {s : State} (h : s.inv = true) : OutcomeInv (execFabBondDefine dt rq s) := by
  unfold execFabBondDefine
  with_reducible repeat' first | assumption | apply outcome_next | apply serve_inv | apply opFabBondDefine_inv

theorem execFabQuery_inv {dt : ℕ} {rq : Req} {s : State} (h : s.inv = true) : OutcomeInv (execFabQuery dt rq s) := by
  unfold execFabQuery
  with_reducible repeat' first | assumption | apply outcome_next | apply serve_inv | apply opFabQuery_inv

theorem execFabWindowStatus_inv {dt : ℕ} {rq : Req} {s : State} (h : s.inv = true) : OutcomeInv (execFabWindowStatus dt rq s) := by
  unfold execFabWindowStatus
  with_reducible repeat' first | assumption | apply outcome_next | apply serve_inv | apply opFabWindowStatus_inv

theorem execFabSyncAssign_inv {dt : ℕ} {rq : Req} {s : State} (h : s.inv = true) : OutcomeInv (execFabSyncAssign dt rq s) := by
  unfold execFabSyncAssign
  with_reducible repeat' first | assumption | apply outcome_next | apply serve_inv | apply opFabSyncAssign_inv

theorem execFabricCellWrite_inv {dt : Nat} {w : Writer} {cell : List Byte} {s : State} (h : s.inv = true) : OutcomeInv (execFabricCellWrite dt w cell s) := by
  unfold execFabricCellWrite
  with_reducible repeat' first | assumption | extract_lets | refine outcome_next ?_ | apply State.boundaryLost_inv | apply State.elapse_inv | apply State.fabricWrite_inv | apply State.followReads_inv | refine State.inv_ite (fun _ => ?_) fun _ => ?_

theorem execOutputCellRead_inv {dt : Nat} {q : Nat} {line : Nat} {index : Nat} {type : Nat} {s : State} (h : s.inv = true) : OutcomeInv (execOutputCellRead dt q line index type s) := by
  unfold execOutputCellRead
  with_reducible repeat' first | assumption | extract_lets | refine outcome_next ?_ | apply State.elapse_inv | apply State.followReads_inv | apply State.outputRead_inv | refine State.inv_ite (fun _ => ?_) fun _ => ?_

theorem execCellAgeExpiry_inv {dt : Nat} {s : State} (h : s.inv = true) : OutcomeInv (execCellAgeExpiry dt s) := by
  unfold execCellAgeExpiry
  repeat' first | (with_reducible first | assumption | extract_lets | refine outcome_next ?_ | apply State.bump_inv | apply State.deckSweep_inv | apply State.elapse_inv | apply State.followReads_inv | apply State.raiseWithin_inv | refine inv_foldl ?_ fun _ _ _ => ?_) | (with_reducible first | apply State.inv_keep)

theorem execSourceNoSignal_inv {dt : Nat} {n : Nat} {quarter : Bool} {s : State} (h : s.inv = true) : OutcomeInv (execSourceNoSignal dt n quarter s) := by
  unfold execSourceNoSignal
  repeat' first | (with_reducible first | assumption | extract_lets | refine outcome_next ?_ | apply State.elapse_inv | apply State.followReads_inv | apply State.putSource_inv | apply State.raiseWithin_inv | refine State.inv_ite (fun _ => ?_) fun _ => ?_) | split

theorem execLdgLoss_inv {dt : Nat} {chan : Nat} {s : State} (h : s.inv = true) : OutcomeInv (execLdgLoss dt chan s) := by
  unfold execLdgLoss
  repeat' first | (with_reducible first | assumption | extract_lets | refine outcome_next ?_ | apply State.elapse_inv | apply State.followReads_inv | apply State.landingAlarm_inv | apply State.landingLost_inv | refine State.inv_ite (fun _ => ?_) fun _ => ?_) | split

theorem State.selectFrame_inv {s : State} {c : Landing} {t : Option Nat} (h : s.inv = true) : (State.selectFrame s c t).inv = true := by
  unfold State.selectFrame
  repeat' first | (with_reducible first | assumption | extract_lets | apply State.ageCause_inv | apply State.bump_inv | apply State.putLanding_inv | refine fst_inv (by assumption) ?_ | refine snd_inv (by assumption) ?_ | refine State.inv_ite (fun _ => ?_) fun _ => ?_ | refine inv_foldl ?_ fun _ _ _ => ?_) | split | (with_reducible first | apply State.inv_keep | apply State.inv_keepMem | apply State.inv_keepFlt)

theorem execLandingFrameSelect_inv {dt : Nat} {chan : Nat} {s : State} (h : s.inv = true) : OutcomeInv (execLandingFrameSelect dt chan s) := by
  unfold execLandingFrameSelect
  repeat' first | (with_reducible first | assumption | extract_lets | refine outcome_next ?_ | apply State.elapse_inv | apply State.followReads_inv | apply State.selectFrame_inv | refine State.inv_ite (fun _ => ?_) fun _ => ?_ | refine inv_foldl ?_ fun _ _ _ => ?_) | split

end Sys2Proof.Machine
end

