-- ==== Sys2Proof/Laws/InvEphCmds.lean ====
section
/-!
SUPPORT. Every operation of Machine/EphCmds.lean keeps the invariant of the state.
-/
namespace Sys2Proof.Machine
open Sys2Proof

theorem Done.ephBusy_inv {s : State} (h : s.inv = true) : (Done.ephBusy s).state.inv = true := by
  unfold Done.ephBusy
  with_reducible repeat' first | assumption

theorem State.storeEntry_inv {s : State} {x : Ctx} {t : Take} (h : s.inv = true) : (State.storeEntry s x t).inv = true := by
  unfold State.storeEntry
  with_reducible repeat' first | assumption | extract_lets | apply State.takeRoutes_inv | apply State.inv_keep

theorem opEphSchedule_inv : opEphSchedule.keeps := by
  unfold opEphSchedule
  apply OpSpec.keeps_mk
  intro s x p h
  repeat' first | (with_reducible first | assumption | extract_lets | apply Done.ephBusy_inv | apply Done.pending_inv | apply State.storeEntry_inv | refine State.inv_ite (fun _ => ?_) fun _ => ?_) | split

theorem opEphSalvo_inv : opEphSalvo.keeps := by
  unfold opEphSalvo
  apply OpSpec.keeps_mk
  intro s x p h
  repeat' first | (with_reducible first | assumption | extract_lets | apply Done.ephBusy_inv | apply Done.pending_inv | apply State.storeEntry_inv | refine State.inv_ite (fun _ => ?_) fun _ => ?_) | split

theorem State.markRisk_inv {s : State} (h : s.inv = true) : (State.markRisk s).inv = true := by
  unfold State.markRisk
  with_reducible repeat' first | assumption | extract_lets | apply State.raiseAll_inv | apply State.inv_keep

theorem opEphCancel_inv : opEphCancel.keeps := by
  unfold opEphCancel
  apply OpSpec.keeps_mk
  intro s x p h
  repeat' first | (with_reducible first | assumption | extract_lets | apply State.ephCount_inv | apply Done.ok_inv | apply State.markRisk_inv | refine State.inv_ite (fun _ => ?_) fun _ => ?_) | split | (with_reducible first | apply State.inv_keep)

theorem opEphList_inv : opEphList.keeps := by
  unfold opEphList
  apply OpSpec.keeps_mk
  intro s x p h
  with_reducible repeat' first | assumption | extract_lets | apply Done.ok_inv

theorem State.genRestart_inv {s : State} {g : Nat} (h : s.inv = true) : (State.genRestart s g).inv = true := by
  unfold State.genRestart
  repeat' first | (with_reducible first | assumption | extract_lets | apply State.putGenerator_inv | refine fst_inv (by assumption) ?_ | refine snd_inv (by assumption) ?_ | refine State.inv_ite (fun _ => ?_) fun _ => ?_ | refine inv_foldl ?_ fun _ _ _ => ?_) | split | (with_reducible first | apply State.inv_keep | apply State.inv_keepMem | apply State.inv_keepFlt)

theorem opEphGenConfig_inv : opEphGenConfig.keeps := by
  unfold opEphGenConfig
  apply OpSpec.keeps_mk
  intro s x p h
  repeat' first | (with_reducible first | assumption | extract_lets | apply State.endFreeRuns_inv | apply State.genRestart_inv | apply Done.ok_inv | apply State.rephase_inv | apply State.wr_inv | refine State.inv_ite (fun _ => ?_) fun _ => ?_)

theorem State.genLoad_inv {s : State} {g : Nat} (h : s.inv = true) : (State.genLoad s g).inv = true := by
  unfold State.genLoad
  repeat' first | (with_reducible first | assumption | extract_lets | apply State.genRestart_inv | apply State.rephase_inv | apply State.wr_inv | refine fst_inv (by assumption) ?_ | refine snd_inv (by assumption) ?_ | refine State.inv_ite (fun _ => ?_) fun _ => ?_ | refine inv_foldl ?_ fun _ _ _ => ?_) | split | (with_reducible first | apply State.inv_keep | apply State.inv_keepMem | apply State.inv_keepFlt)

theorem State.genEnabled_inv {s : State} {g : Nat} {old : Nat} (h : s.inv = true) : (State.genEnabled s g old).inv = true := by
  unfold State.genEnabled
  repeat' first | (with_reducible first | assumption | extract_lets | apply State.endFreeRuns_inv | apply State.genRestart_inv | apply State.rephase_inv | refine fst_inv (by assumption) ?_ | refine snd_inv (by assumption) ?_ | refine State.inv_ite (fun _ => ?_) fun _ => ?_ | refine inv_foldl ?_ fun _ _ _ => ?_) | split | (with_reducible first | apply State.inv_keep | apply State.inv_keepMem | apply State.inv_keepFlt)

theorem execEphSchedule_inv {dt : ℕ} {rq : Req} {s : State} (h : s.inv = true) : OutcomeInv (execEphSchedule dt rq s) := by
  unfold execEphSchedule
  with_reducible repeat' first | assumption | apply outcome_next | apply serve_inv | apply opEphSchedule_inv

theorem execEphCancel_inv {dt : ℕ} {rq : Req} {s : State} (h : s.inv = true) : OutcomeInv (execEphCancel dt rq s) := by
  unfold execEphCancel
  with_reducible repeat' first | assumption | apply outcome_next | apply serve_inv | apply opEphCancel_inv

theorem execEphList_inv {dt : ℕ} {rq : Req} {s : State} (h : s.inv = true) : OutcomeInv (execEphList dt rq s) := by
  unfold execEphList
  with_reducible repeat' first | assumption | apply outcome_next | apply serve_inv | apply opEphList_inv

theorem execEphSalvo_inv {dt : ℕ} {rq : Req} {s : State} (h : s.inv = true) : OutcomeInv (execEphSalvo dt rq s) := by
  unfold execEphSalvo
  with_reducible repeat' first | assumption | apply outcome_next | apply serve_inv | apply opEphSalvo_inv

theorem execEphGenConfig_inv {dt : ℕ} {rq : Req} {s : State} (h : s.inv = true) : OutcomeInv (execEphGenConfig dt rq s) := by
  unfold execEphGenConfig
  with_reducible repeat' first | assumption | apply outcome_next | apply serve_inv | apply opEphGenConfig_inv

theorem execMeridian_inv {dt : ℕ} {g : ℕ} {s : State} (h : s.inv = true) : OutcomeInv (execMeridian dt g s) := by
  unfold execMeridian
  repeat' first | (with_reducible first | assumption | extract_lets | apply outcome_next | apply State.elapse_inv | apply State.meridian_inv | apply State.putGenerator_inv | refine State.inv_ite (fun _ => ?_) fun _ => ?_)

theorem execEphLoaderWrite_inv {dt : ℕ} {g : ℕ} {s : State} (h : s.inv = true) : OutcomeInv (execEphLoaderWrite dt g s) := by
  unfold execEphLoaderWrite
  with_reducible repeat' first | assumption | extract_lets | apply outcome_next | apply State.elapse_inv | apply State.loadDue_inv | refine State.inv_ite (fun _ => ?_) fun _ => ?_

end Sys2Proof.Machine
end

