-- ==== Sys2Proof/Laws/InvLanCmds.lean ====
section
/-!
SUPPORT. Every operation of Machine/LanCmds.lean keeps the invariant of the state.
-/
namespace Sys2Proof.Machine
open Sys2Proof

theorem State.applyLaneConfig_inv {s : State} {p : List Byte} (h : s.inv = true) : (State.applyLaneConfig s p).inv = true := by
  unfold State.applyLaneConfig
  repeat' first | (with_reducible first | assumption | extract_lets | apply State.clampDfe_inv | apply State.coldRx_inv | apply State.deriveC0_inv | apply State.refreshLane_inv | apply State.rxCauses_inv | apply State.setTxReady_inv | apply State.wr_inv | refine State.inv_ite (fun _ => ?_) fun _ => ?_) | split

theorem State.portDefaults_inv {s : State} {p : Nat} (h : s.inv = true) : (State.portDefaults s p).inv = true := by
  unfold State.portDefaults
  with_reducible repeat' first | assumption | extract_lets | apply State.defaultMacsec_inv | apply State.wr_inv | refine inv_foldl ?_ fun _ _ _ => ?_

theorem State.formKr1_inv {s : State} {l : Nat} {m : Nat} {enable : Bool} (h : s.inv = true) : (State.formKr1 s l m enable).inv = true := by
  unfold State.formKr1
  with_reducible repeat' first | assumption | extract_lets | apply State.portDefaults_inv | apply State.refreshLane_inv | apply State.restartPort_inv | apply State.wr_inv | refine State.inv_ite (fun _ => ?_) fun _ => ?_

theorem opLanConfig_inv : opLanConfig.keeps := by
  unfold opLanConfig
  apply OpSpec.keeps_mk
  intro s x p h
  repeat' first | (with_reducible first | assumption | extract_lets | apply State.applyLaneConfig_inv | apply State.formKr1_inv | apply State.modLane_inv | apply Done.ok_inv | refine State.inv_ite (fun _ => ?_) fun _ => ?_)

theorem opLanStatus_inv : opLanStatus.keeps := by
  unfold opLanStatus
  apply OpSpec.keeps_mk
  intro s x p h
  with_reducible repeat' first | assumption | apply Done.ok_inv

theorem opLanFom_inv : opLanFom.keeps := by
  unfold opLanFom
  apply OpSpec.keeps_mk
  intro s x p h
  repeat' first | (with_reducible first | assumption | extract_lets | apply Done.ok_inv | apply State.modLane_inv | apply State.wr_inv | refine State.inv_ite (fun _ => ?_) fun _ => ?_)

theorem State.sleepLane_inv {s : State} {l : ℕ} {tx : ℕ} {rx : ℕ} {sig : Bool} (h : s.inv = true) : (State.sleepLane s l tx rx sig).inv = true := by
  unfold State.sleepLane
  with_reducible repeat' first | assumption | extract_lets | apply State.requestSleep_inv | apply State.wr_inv | apply State.modLane_inv | refine State.inv_ite (fun _ => ?_) fun _ => ?_

theorem State.sleepEnd_inv {s : State} {l : Nat} {tx : Bool} (h : s.inv = true) : (State.sleepEnd s l tx).inv = true := by
  unfold State.sleepEnd
  repeat' first | (with_reducible first | assumption | extract_lets | apply State.modLane_inv | apply State.refreshLane_inv | apply State.requestSleep_inv | apply State.wr_inv | refine fst_inv (by assumption) ?_ | refine snd_inv (by assumption) ?_ | refine State.inv_ite (fun _ => ?_) fun _ => ?_ | refine inv_foldl ?_ fun _ _ _ => ?_) | split | (with_reducible first | apply State.inv_keep | apply State.inv_keepMem | apply State.inv_keepFlt)

theorem State.entriesDone_inv {s : State} {lanes : List Nat} (h : s.inv = true) : (State.entriesDone s lanes).inv = true := by
  unfold State.entriesDone
  repeat' first | (with_reducible first | assumption | extract_lets | apply State.elapse_inv | apply State.sleepEnd_inv | refine fst_inv (by assumption) ?_ | refine snd_inv (by assumption) ?_ | refine State.inv_ite (fun _ => ?_) fun _ => ?_ | refine inv_foldl ?_ fun _ _ _ => ?_) | split | (with_reducible first | apply State.inv_keep | apply State.inv_keepMem | apply State.inv_keepFlt)

theorem opLanSleep_inv : opLanSleep.keeps := by
  unfold opLanSleep
  apply OpSpec.keeps_mk
  intro s x p h
  extract_lets lanes wakesTx wakesRx s1
  have h1 : s1.inv = true := inv_foldl h fun _ _ ht => State.sleepLane_inv ht
  clear_value s1
  split
  · exact Done.ok_inv (State.entriesDone_inv h1)
  · exact Done.pending_inv (State.await_inv h1)

theorem opLanSlotmask_inv : opLanSlotmask.keeps := by
  unfold opLanSlotmask
  apply OpSpec.keeps_mk
  intro s x p h
  repeat' first | (with_reducible first | assumption | extract_lets | apply State.modLane_inv | apply State.wr_inv | apply Done.ok_inv)

theorem execLanConfig_inv {dt : ℕ} {rq : Req} {s : State} (h : s.inv = true) : OutcomeInv (execLanConfig dt rq s) := by
  unfold execLanConfig
  with_reducible repeat' first | assumption | apply outcome_next | apply serve_inv | apply opLanConfig_inv

theorem execLanStatus_inv {dt : ℕ} {rq : Req} {s : State} (h : s.inv = true) : OutcomeInv (execLanStatus dt rq s) := by
  unfold execLanStatus
  with_reducible repeat' first | assumption | apply outcome_next | apply serve_inv | apply opLanStatus_inv

theorem execLanFom_inv {dt : ℕ} {rq : Req} {s : State} (h : s.inv = true) : OutcomeInv (execLanFom dt rq s) := by
  unfold execLanFom
  with_reducible repeat' first | assumption | apply outcome_next | apply serve_inv | apply opLanFom_inv

theorem execLanSleep_inv {dt : ℕ} {rq : Req} {s : State} (h : s.inv = true) : OutcomeInv (execLanSleep dt rq s) := by
  unfold execLanSleep
  with_reducible repeat' first | assumption | apply outcome_next | apply serve_inv | apply opLanSleep_inv

theorem execLanSlotmask_inv {dt : ℕ} {rq : Req} {s : State} (h : s.inv = true) : OutcomeInv (execLanSlotmask dt rq s) := by
  unfold execLanSlotmask
  with_reducible repeat' first | assumption | apply outcome_next | apply serve_inv | apply opLanSlotmask_inv

theorem execSleepTransitionEnd_inv {dt : Nat} {l : Nat} {tx : Bool} {s : State} (h : s.inv = true) : OutcomeInv (execSleepTransitionEnd dt l tx s) := by
  unfold execSleepTransitionEnd
  repeat' first | (with_reducible first | assumption | extract_lets | refine outcome_next ?_ | apply State.elapse_inv | apply State.settle_inv | apply State.sleepEnd_inv | refine fst_inv (by assumption) ?_ | refine snd_inv (by assumption) ?_ | refine State.inv_ite (fun _ => ?_) fun _ => ?_ | refine inv_foldl ?_ fun _ _ _ => ?_) | split | (with_reducible first | apply State.inv_keep | apply State.inv_keepMem | apply State.inv_keepFlt)

theorem execLaneSignalDetect_inv {dt : ℕ} {l : ℕ} {s : State} (h : s.inv = true) : OutcomeInv (execLaneSignalDetect dt l s) := by
  unfold execLaneSignalDetect
  with_reducible repeat' first | assumption | extract_lets | apply outcome_next | apply State.elapse_inv | apply State.endCause_inv | apply State.setLstat_inv | apply State.laneEvent_inv | apply State.requestSleep_inv | apply State.wr_inv | apply State.refreshLane_inv | refine State.inv_ite (fun _ => ?_) fun _ => ?_

theorem execLnLos_inv {dt : ℕ} {l : ℕ} {s : State} (h : s.inv = true) : OutcomeInv (execLnLos dt l s) := by
  unfold execLnLos
  with_reducible repeat' first | assumption | extract_lets | apply outcome_next | apply State.elapse_inv | apply State.wr_inv | apply State.endCause_inv | apply State.setLstat_inv | apply State.refreshLane_inv | apply State.laneEvent_inv | refine State.inv_ite (fun _ => ?_) fun _ => ?_

theorem execLnCdrUnlock_inv {dt : ℕ} {l : ℕ} {s : State} (h : s.inv = true) : OutcomeInv (execLnCdrUnlock dt l s) := by
  unfold execLnCdrUnlock
  with_reducible repeat' first | assumption | extract_lets | apply outcome_next | apply State.elapse_inv | apply State.refreshLane_inv | apply State.laneEvent_inv | apply State.wr_inv | apply State.setLstat_inv | refine State.inv_ite (fun _ => ?_) fun _ => ?_

theorem execCdrLock_inv {dt : ℕ} {l : ℕ} {s : State} (h : s.inv = true) : OutcomeInv (execCdrLock dt l s) := by
  unfold execCdrLock
  with_reducible repeat' first | assumption | extract_lets | apply outcome_next | apply State.elapse_inv | apply State.settle_inv | apply State.refreshLane_inv | apply State.endCause_inv | apply State.setLstat_inv | refine State.inv_ite (fun _ => ?_) fun _ => ?_

theorem execPllUnlock_inv {dt : ℕ} {quad : ℕ} {b : Bool} {s : State} (h : s.inv = true) : OutcomeInv (execPllUnlock dt quad b s) := by
  unfold execPllUnlock
  with_reducible repeat' first | assumption | extract_lets | apply outcome_next | apply State.elapse_inv | apply State.refreshQuad_inv | apply State.raise_inv | apply State.wr_inv | refine State.inv_ite (fun _ => ?_) fun _ => ?_

theorem execPllLock_inv {dt : ℕ} {quad : ℕ} {b : Bool} {s : State} (h : s.inv = true) : OutcomeInv (execPllLock dt quad b s) := by
  unfold execPllLock
  with_reducible repeat' first | assumption | extract_lets | apply outcome_next | apply State.elapse_inv | apply State.settle_inv | apply State.refreshQuad_inv | apply State.endCause_inv | apply State.wr_inv | refine State.inv_ite (fun _ => ?_) fun _ => ?_

theorem State.fomWindow_inv {s : State} {l : Nat} {e : Nat} {move : Option Bool} (h : s.inv = true) : (State.fomWindow s l e move).inv = true := by
  unfold State.fomWindow
  repeat' first | (with_reducible first | assumption | extract_lets | apply State.coldRx_inv | apply State.endCause_inv | apply State.fomThreshold_inv | apply State.laneEvent_inv | apply State.modLane_inv | apply State.refreshLane_inv | apply State.setLstat_inv | apply State.settle_inv | apply State.wr_inv | refine fst_inv (by assumption) ?_ | refine snd_inv (by assumption) ?_ | refine State.inv_ite (fun _ => ?_) fun _ => ?_ | refine inv_foldl ?_ fun _ _ _ => ?_) | split | (with_reducible first | apply State.inv_keep | apply State.inv_keepMem | apply State.inv_keepFlt)

theorem State.eqAsk_inv {s : State} {l : ℕ} {eq : Option (ℕ × ℕ)} {finished : Bool} (h : s.inv = true) : (State.eqAsk s l eq finished).inv = true := by
  unfold State.eqAsk
  repeat' first | (with_reducible first | assumption | extract_lets | apply State.putLane_inv | refine State.inv_ite (fun _ => ?_) fun _ => ?_) | split

theorem execFomWindowEnd_inv {dt : Nat} {l : Nat} {e : WindowCount} {move : Option Bool} {eq : Option (Nat × Nat)} {finished : Bool} {s : State} (h : s.inv = true) : OutcomeInv (execFomWindowEnd dt l e move eq finished s) := by
  unfold execFomWindowEnd
  repeat' first | (with_reducible first | assumption | extract_lets | refine outcome_next ?_ | apply State.bumpSat_inv | apply State.elapse_inv | apply State.eqAsk_inv | apply State.fomWindow_inv | apply State.wr_inv | refine fst_inv (by assumption) ?_ | refine snd_inv (by assumption) ?_ | refine State.inv_ite (fun _ => ?_) fun _ => ?_ | refine inv_foldl ?_ fun _ _ _ => ?_) | split | (with_reducible first | apply State.inv_keep | apply State.inv_keepMem | apply State.inv_keepFlt)

theorem execAdaptLmsUpdate_inv {dt : ℕ} {l : ℕ} {signs : List ℤ} {dfe : ℤ} {s : State} (h : s.inv = true) : OutcomeInv (execAdaptLmsUpdate dt l signs dfe s) := by
  unfold execAdaptLmsUpdate
  with_reducible repeat' first | assumption | extract_lets | apply outcome_next | apply State.elapse_inv | apply State.putLane_inv | apply State.wrInt_inv | refine State.inv_ite (fun _ => ?_) fun _ => ?_

theorem execStxLayoutLatch_inv {dt : ℕ} {l : ℕ} {s : State} (h : s.inv = true) : OutcomeInv (execStxLayoutLatch dt l s) := by
  unfold execStxLayoutLatch
  with_reducible repeat' first | assumption | extract_lets | apply outcome_next | apply State.elapse_inv | apply State.putLane_inv | apply State.wr_inv | refine State.inv_ite (fun _ => ?_) fun _ => ?_

theorem State.eqApply_inv {s : State} {l : ℕ} {request : ℕ} (h : s.inv = true) : (State.eqApply s l request).1.inv = true := by
  unfold State.eqApply
  repeat' first | (with_reducible first | assumption | extract_lets | apply State.deriveC0_inv | apply State.wr_inv | refine State.inv_ite (fun _ => ?_) fun _ => ?_) | split | (with_reducible first | dsimp +zetaDelta only)

theorem State.answerEq_inv {s : State} {l : ℕ} (h : s.inv = true) : (State.answerEq s l).inv = true := by
  unfold State.answerEq
  repeat' first | (with_reducible first | assumption | extract_lets | apply State.eqApply_inv | apply State.modLane_inv | apply State.raise_inv | refine fst_inv (by assumption) ?_ | refine State.inv_ite (fun _ => ?_) fun _ => ?_) | split

theorem State.beginLayout_inv {s : State} {l : Nat} (h : s.inv = true) : (State.beginLayout s l).inv = true := by
  unfold State.beginLayout
  repeat' first | (with_reducible first | assumption | extract_lets | apply State.putLane_inv | apply State.wr_inv | refine fst_inv (by assumption) ?_ | refine snd_inv (by assumption) ?_ | refine State.inv_ite (fun _ => ?_) fun _ => ?_ | refine inv_foldl ?_ fun _ _ _ => ?_) | split | (with_reducible first | apply State.inv_keep | apply State.inv_keepMem | apply State.inv_keepFlt)

theorem State.sendSuperframe_inv {s0 : State} {l : Nat} {k : Nat} (h : s0.inv = true) : (State.sendSuperframe s0 l k).inv = true := by
  unfold State.sendSuperframe
  repeat' first | (with_reducible first | assumption | extract_lets | apply State.putLane_inv | apply State.takeLinkBox_inv | apply State.wr_inv | refine State.inv_ite (fun _ => ?_) fun _ => ?_) | split | (with_reducible first | apply State.inv_keep)

theorem execStaveSuperframeStart_inv {dt : Nat} {l : Nat} {s : State} (h : s.inv = true) : OutcomeInv (execStaveSuperframeStart dt l s) := by
  unfold execStaveSuperframeStart
  with_reducible repeat' first | assumption | extract_lets | refine outcome_next ?_ | apply State.answerEq_inv | apply State.beginLayout_inv | apply State.elapse_inv | apply State.endLine_inv | apply State.sendPattern_inv | apply State.sendSuperframe_inv | refine State.inv_ite (fun _ => ?_) fun _ => ?_

theorem State.takeEcho_inv {s : State} {l : Nat} {h : List Byte} {arrival : Nat} (hs : s.inv = true) : (State.takeEcho s l h arrival).inv = true := by
  unfold State.takeEcho
  repeat' first | (with_reducible first | assumption | extract_lets | apply State.modLane_inv | apply State.wr_inv | apply State.wrInt_inv | refine State.inv_ite (fun _ => ?_) fun _ => ?_) | split

theorem State.takeHeader_inv {s : State} {l : Nat} {h : List Byte} {frac : Nat} (hs : s.inv = true) : (State.takeHeader s l h frac).inv = true := by
  unfold State.takeHeader
  repeat' first | (with_reducible first | assumption | extract_lets | apply State.beginMeasure_inv | apply State.endCause_inv | apply State.modLane_inv | apply State.partnerSample_inv | apply State.partnerTime_inv | apply State.raise_inv | apply State.resetMessages_inv | apply State.slotIdle_inv | apply State.takeEcho_inv | apply State.wr_inv | apply State.wr64_inv | apply State.wrInt_inv | refine fst_inv (by assumption) ?_ | refine snd_inv (by assumption) ?_ | refine State.inv_ite (fun _ => ?_) fun _ => ?_ | refine inv_foldl ?_ fun _ _ _ => ?_) | split | (with_reducible first | apply State.inv_keep)

theorem State.missBlock_inv {s : State} {l : ℕ} (h : s.inv = true) : (State.missBlock s l).inv = true := by
  unfold State.missBlock
  with_reducible repeat' first | assumption | extract_lets | apply State.staveState_inv | apply State.modLane_inv | apply State.raise_inv | refine State.inv_ite (fun _ => ?_) fun _ => ?_

theorem State.loopBack_inv {s : State} {l : Nat} {bytes : List Byte} (h : s.inv = true) : (State.loopBack s l bytes).inv = true := by
  unfold State.loopBack
  repeat' first | (with_reducible first | assumption | extract_lets | refine fst_inv (by assumption) ?_ | refine snd_inv (by assumption) ?_ | refine State.inv_ite (fun _ => ?_) fun _ => ?_ | refine inv_foldl ?_ fun _ _ _ => ?_) | split | (with_reducible first | apply State.inv_keep | apply State.inv_keepMem | apply State.inv_keepFlt)

theorem State.fecCounts_inv {s : State} {l : Nat} {corr : Nat} {cw : Nat} {uncorr : Nat} (h : s.inv = true) : (State.fecCounts s l corr cw uncorr).inv = true := by
  unfold State.fecCounts
  repeat' first | (with_reducible first | assumption | extract_lets | apply State.bump_inv | apply State.raise_inv | refine fst_inv (by assumption) ?_ | refine snd_inv (by assumption) ?_ | refine State.inv_ite (fun _ => ?_) fun _ => ?_ | refine inv_foldl ?_ fun _ _ _ => ?_) | split | (with_reducible first | apply State.inv_keep | apply State.inv_keepMem | apply State.inv_keepFlt)

theorem State.headerLost_inv {s : State} {l : Nat} (h : s.inv = true) : (State.headerLost s l).inv = true := by
  unfold State.headerLost
  repeat' first | (with_reducible first | assumption | extract_lets | apply State.bump_inv | apply State.modLane_inv | apply State.raise_inv | refine fst_inv (by assumption) ?_ | refine snd_inv (by assumption) ?_ | refine State.inv_ite (fun _ => ?_) fun _ => ?_ | refine inv_foldl ?_ fun _ _ _ => ?_) | split | (with_reducible first | apply State.inv_keep | apply State.inv_keepMem | apply State.inv_keepFlt)

theorem State.fecDown_inv {s : State} {l : Nat} {uncorr : Nat} (h : s.inv = true) : (State.fecDown s l uncorr).inv = true := by
  unfold State.fecDown
  repeat' first | (with_reducible first | assumption | extract_lets | apply State.modLane_inv | apply State.refreshLane_inv | apply State.staveState_inv | refine fst_inv (by assumption) ?_ | refine snd_inv (by assumption) ?_ | refine State.inv_ite (fun _ => ?_) fun _ => ?_ | refine inv_foldl ?_ fun _ _ _ => ?_) | split | (with_reducible first | apply State.inv_keep | apply State.inv_keepMem | apply State.inv_keepFlt)

theorem State.farStep_inv {s : State} {l : Nat} (h : s.inv = true) : (State.farStep s l).inv = true := by
  unfold State.farStep
  with_reducible repeat' first | assumption | extract_lets | apply State.raise_inv | apply State.staveState_inv

theorem execStaveSuperframeReceive_inv {dt l : Nat} {aligned : Bool} {copies : List (List Byte)} {frac corr cw uncorr : Nat} {s : State} (h : s.inv = true) :
    OutcomeInv (execStaveSuperframeReceive dt l aligned copies frac corr cw uncorr s) := by
  unfold execStaveSuperframeReceive
  extract_lets s1 st hd s2 apart s3
  have h1 : s1.inv = true := State.elapse_inv h
  have h2 : s2.inv = true := State.inv_ite (fun _ => State.loopBack_inv (State.fecCounts_inv h1)) fun _ => h1
  have h3 : s3.inv = true := State.modLane_inv h2
  clear_value s3 s2 s1 hd
  refine outcome_next (State.inv_ite (fun _ => h1) fun _ => State.inv_ite (fun _ => ?_) fun _ => State.inv_ite (fun _ => ?_) fun _ => ?_)
  · refine State.fecDown_inv (State.missBlock_inv ?_)
    split
    · exact State.inv_ite (fun _ => State.takeHeader_inv (State.modLane_inv h2)) fun _ => h2
    · exact State.inv_ite (fun _ => State.headerLost_inv h2) fun _ => h2
  · exact State.inv_ite (fun _ => State.staveState_inv h3) fun _ => h3
  · refine State.inv_ite (fun _ => State.modLane_inv (State.farStep_inv h3)) fun _ => ?_
    split
    · exact State.fecDown_inv (State.headerLost_inv h3)
    · exact State.inv_ite (fun _ => State.fecDown_inv (State.takeHeader_inv (State.modLane_inv h3))) fun _ =>
        State.inv_ite (fun _ => State.takeHeader_inv (State.staveState_inv h3)) fun _ => State.modLane_inv h3

theorem execStaveCellReceive_inv {dt : Nat} {l : Nat} {n : Nat} {cell : List Byte} {lost : Bool} {s : State} (h : s.inv = true) : OutcomeInv (execStaveCellReceive dt l n cell lost s) := by
  unfold execStaveCellReceive
  repeat' first | (with_reducible first | assumption | extract_lets | refine outcome_next ?_ | apply State.bump_inv | apply State.elapse_inv | apply State.fabricWrite_inv | apply State.loopBack_inv | apply State.raise_inv | refine fst_inv (by assumption) ?_ | refine snd_inv (by assumption) ?_ | refine State.inv_ite (fun _ => ?_) fun _ => ?_ | refine inv_foldl ?_ fun _ _ _ => ?_) | split | (with_reducible first | apply State.inv_keep | apply State.inv_keepMem | apply State.inv_keepFlt)

theorem State.loseMessage_inv {s : State} {l : ℕ} (h : s.inv = true) : (State.loseMessage s l).inv = true := by
  unfold State.loseMessage
  with_reducible repeat' first | assumption | apply State.modLane_inv | apply State.raise_inv | apply State.bump_inv

theorem State.takeSegment_inv {s : State} {l : Nat} {cell : List Byte} (h : s.inv = true) : (State.takeSegment s l cell).inv = true := by
  unfold State.takeSegment
  with_reducible repeat' first | assumption | extract_lets | apply State.putLane_inv | refine State.inv_ite (fun _ => ?_) fun _ => ?_

theorem execMsgCellReceive_inv {dt : Nat} {l : Nat} {cell : List Byte} {lost : Bool} {s : State} (h : s.inv = true) : OutcomeInv (execMsgCellReceive dt l cell lost s) := by
  unfold execMsgCellReceive
  with_reducible repeat' first | assumption | extract_lets | refine outcome_next ?_ | apply State.elapse_inv | apply State.loseMessage_inv | apply State.putLane_inv | apply State.takeSegment_inv | refine State.inv_ite (fun _ => ?_) fun _ => ?_

theorem State.onLcfgWrite_inv {s : State} {l : Nat} {oldMode : Nat} {oldTx : Nat} {oldRx : Nat} (h : s.inv = true) : (State.onLcfgWrite s l oldMode oldTx oldRx).inv = true := by
  unfold State.onLcfgWrite
  repeat' first | (with_reducible first | assumption | extract_lets | apply State.clampDfe_inv | apply State.coldRx_inv | apply State.laneEvent_inv | apply State.refreshLane_inv | apply State.rxCauses_inv | apply State.setTxReady_inv | refine State.inv_ite (fun _ => ?_) fun _ => ?_) | split

theorem State.onAdaptWrite_inv {s : State} {l : ℕ} {restart : Bool} {oldFreeze : ℕ} (h : s.inv = true) : (State.onAdaptWrite s l restart oldFreeze).inv = true := by
  unfold State.onAdaptWrite
  with_reducible repeat' first | assumption | extract_lets | apply State.coldRx_inv | apply State.laneEvent_inv | apply State.modLane_inv | refine State.inv_ite (fun _ => ?_) fun _ => ?_

theorem State.onSleepWrite_inv {s : State} {l : ℕ} (h : s.inv = true) : (State.onSleepWrite s l).inv = true := by
  unfold State.onSleepWrite
  with_reducible repeat' first | assumption | apply State.requestSleep_inv

theorem State.onMaskGo_inv {s : State} {l : ℕ} (h : s.inv = true) : (State.onMaskGo s l).inv = true := by
  unfold State.onMaskGo
  with_reducible repeat' first | assumption | extract_lets | apply State.modLane_inv

end Sys2Proof.Machine
end

