-- ==== Sys2Proof/Laws/InvNetCmds.lean ====
section
/-!
SUPPORT. Every operation of Machine/NetCmds.lean keeps the invariant of the state.
-/
namespace Sys2Proof.Machine
open Sys2Proof

theorem State.setLaneMode_inv {s : State} {l : Nat} {m : Nat} (h : s.inv = true) : (State.setLaneMode s l m).inv = true := by
  unfold State.setLaneMode
  with_reducible repeat' first | assumption | extract_lets | apply State.coldRx_inv | apply State.refreshLane_inv | apply State.rxCauses_inv | apply State.setTxReady_inv | apply State.wr_inv | refine State.inv_ite (fun _ => ?_) fun _ => ?_

theorem State.applyMode_inv {s : State} {p : ℕ} {mode : ℕ} {fl : ℕ} (h : s.inv = true) : (State.applyMode s p mode fl).inv = true := by
  unfold State.applyMode
  with_reducible repeat' first | assumption | extract_lets | apply State.setLaneMode_inv | apply State.wr_inv | apply State.restartPort_inv | refine State.inv_ite (fun _ => ?_) fun _ => ?_ | refine inv_foldl ?_ fun _ _ _ => ?_

theorem State.applySa_inv {s : State} {port : Nat} {a : SecAssoc} {delete : Bool} (h : s.inv = true) : (State.applySa s port a delete).inv = true := by
  unfold State.applySa
  repeat' first | (with_reducible first | assumption | extract_lets | apply State.modNetPort_inv | apply State.pnNear_inv | refine State.inv_ite (fun _ => ?_) fun _ => ?_) | split

theorem State.moduleWrite_inv {s : State} {m : Nat} {offset : Nat} {data : Nat} (h : s.inv = true) : (State.moduleWrite s m offset data).inv = true := by
  unfold State.moduleWrite
  repeat' first | (with_reducible first | assumption | extract_lets) | (with_reducible first | apply State.inv_keep)

theorem State.autoInit_inv {s : State} {m : Nat} (h : s.inv = true) : (State.autoInit s m).inv = true := by
  unfold State.autoInit
  with_reducible repeat' first | assumption | extract_lets | apply State.moduleWrite_inv | refine State.inv_ite (fun _ => ?_) fun _ => ?_

theorem State.applyRecord_inv {s : State} {p : List Byte} {o : Nat} (h : s.inv = true) : (State.applyRecord s p o).inv = true := by
  unfold State.applyRecord
  extract_lets
  split
  · exact State.applyMode_inv h
  · exact State.wr_inv (State.wr_inv (State.wr_inv (State.wr_inv h)))
  · exact State.modNetPort_inv (State.wr_inv (State.wr_inv h))
  · exact State.applySa_inv h
  · exact State.modNetPort_inv h
  · exact State.autoInit_inv (State.inv_keep h)

theorem State.linkAwaited_inv {s : State} {p : Nat} (h : s.inv = true) : (State.linkAwaited s p).inv = true := by
  unfold State.linkAwaited
  with_reducible repeat' first | assumption | extract_lets | apply State.modNetPort_inv | refine State.inv_ite (fun _ => ?_) fun _ => ?_

theorem State.storeChanged_inv {s : State} (h : s.inv = true) : (State.storeChanged s).inv = true := by
  unfold State.storeChanged
  with_reducible repeat' first | assumption | extract_lets | apply State.inv_keep

theorem opNetPortConfig_inv : opNetPortConfig.keeps := by
  unfold opNetPortConfig
  apply OpSpec.keeps_mk
  intro s x p h
  repeat' first | (with_reducible first | assumption | extract_lets | apply State.applyRecord_inv | apply State.await_inv | apply Done.err_inv | apply State.linkAwaited_inv | apply Done.ok_inv | apply Done.pending_inv | apply State.storeChanged_inv | refine State.inv_ite (fun _ => ?_) fun _ => ?_ | refine inv_foldl ?_ fun _ _ _ => ?_) | split

theorem State.ringResize_inv {s : State} {p : ℕ} {k : ℕ} {l : ℕ} (h : s.inv = true) : (State.ringResize s p k l).inv = true := by
  unfold State.ringResize
  with_reducible repeat' first | assumption | extract_lets | apply State.wr_inv | apply State.modNetPort_inv | refine State.inv_ite (fun _ => ?_) fun _ => ?_

theorem opNetRingSetup_inv : opNetRingSetup.keeps := by
  unfold opNetRingSetup
  apply OpSpec.keeps_mk
  intro s x p h
  repeat' first | (with_reducible first | assumption | extract_lets | apply Done.ok_inv | apply State.wr_inv | apply State.wr64_inv | apply State.ringResize_inv | refine State.inv_ite (fun _ => ?_) fun _ => ?_) | split

theorem State.putBus_inv {s : State} {x : ModuleBus} (h : s.inv = true) : (State.putBus s x).inv = true := by
  unfold State.putBus
  with_reducible repeat' first | assumption | extract_lets | apply State.inv_keep

theorem State.putAccount_inv {s : State} {a : ModuleAccount} (h : s.inv = true) : (State.putAccount s a).inv = true := by
  unfold State.putAccount
  repeat' first | (with_reducible first | assumption | extract_lets | apply State.raise_inv | refine State.inv_ite (fun _ => ?_) fun _ => ?_ | refine inv_foldl ?_ fun _ _ _ => ?_) | split | (with_reducible first | apply State.inv_keep)

theorem opNetModuleInfo_inv : opNetModuleInfo.keeps := by
  unfold opNetModuleInfo
  apply OpSpec.keeps_mk
  intro s x p h
  repeat' first | (with_reducible first | assumption | extract_lets | apply Done.ok_inv | refine State.inv_ite (fun _ => ?_) fun _ => ?_) | split

theorem execNetPortConfig_inv {dt : ℕ} {rq : Req} {s : State} (h : s.inv = true) : OutcomeInv (execNetPortConfig dt rq s) := by
  unfold execNetPortConfig
  with_reducible repeat' first | assumption | apply outcome_next | apply serve_inv | apply opNetPortConfig_inv

theorem execNetRingSetup_inv {dt : ℕ} {rq : Req} {s : State} (h : s.inv = true) : OutcomeInv (execNetRingSetup dt rq s) := by
  unfold execNetRingSetup
  with_reducible repeat' first | assumption | apply outcome_next | apply serve_inv | apply opNetRingSetup_inv

theorem execNetModuleInfo_inv {dt : ℕ} {rq : Req} {s : State} (h : s.inv = true) : OutcomeInv (execNetModuleInfo dt rq s) := by
  unfold execNetModuleInfo
  with_reducible repeat' first | assumption | apply outcome_next | apply serve_inv | apply opNetModuleInfo_inv

theorem State.trainLane_inv {s : State} {l : Nat} {t : LaneTraining} (h : s.inv = true) : (State.trainLane s l t).inv = true := by
  unfold State.trainLane
  repeat' first | (with_reducible first | assumption | extract_lets | apply State.clampDfe_inv | apply State.deriveC0_inv | apply State.wr_inv | refine fst_inv (by assumption) ?_ | refine snd_inv (by assumption) ?_ | refine State.inv_ite (fun _ => ?_) fun _ => ?_ | refine inv_foldl ?_ fun _ _ _ => ?_) | split | (with_reducible first | apply State.inv_keep | apply State.inv_keepMem | apply State.inv_keepFlt)

theorem State.legsUp_inv {s : State} {p : Nat} (h : s.inv = true) : (State.legsUp s p).inv = true := by
  unfold State.legsUp
  with_reducible repeat' first | assumption | extract_lets | apply State.endCause_inv | refine State.inv_ite (fun _ => ?_) fun _ => ?_ | refine inv_foldl ?_ fun _ _ _ => ?_

theorem execEthLinkUp_inv {dt : Nat} {link : LinkTraining} {s : State} (h : s.inv = true) : OutcomeInv (execEthLinkUp dt link s) := by
  unfold execEthLinkUp
  with_reducible repeat' first | assumption | extract_lets | refine outcome_next ?_ | apply State.elapse_inv | apply State.endCause_inv | apply State.legsUp_inv | apply State.modNetPort_inv | apply State.settle_inv | apply State.trainLane_inv | apply State.wr_inv | refine State.inv_ite (fun _ => ?_) fun _ => ?_ | refine inv_foldl ?_ fun _ _ _ => ?_

theorem execEthLinkDown_inv {dt : Nat} {p : Nat} {s : State} (h : s.inv = true) : OutcomeInv (execEthLinkDown dt p s) := by
  unfold execEthLinkDown
  with_reducible repeat' first | assumption | extract_lets | refine outcome_next ?_ | apply State.elapse_inv | apply State.linkLost_inv | apply State.raiseLinkDown_inv | refine State.inv_ite (fun _ => ?_) fun _ => ?_

theorem execEthAnFail_inv {dt : Nat} {p : Nat} {s : State} (h : s.inv = true) : OutcomeInv (execEthAnFail dt p s) := by
  unfold execEthAnFail
  repeat' first | (with_reducible first | assumption | extract_lets | refine outcome_next ?_ | apply State.elapse_inv | apply State.modNetPort_inv | apply State.raise_inv | apply State.settle_inv | refine State.inv_ite (fun _ => ?_) fun _ => ?_) | split

theorem execMgtLinkUp_inv {dt : ℕ} {m : ℕ} {s : State} (h : s.inv = true) : OutcomeInv (execMgtLinkUp dt m s) := by
  unfold execMgtLinkUp
  with_reducible repeat' first | assumption | extract_lets | apply outcome_next | apply State.elapse_inv | apply State.endCause_inv | apply State.wr_inv | refine State.inv_ite (fun _ => ?_) fun _ => ?_

theorem execMgtLinkDown_inv {dt : Nat} {m : Nat} {s : State} (h : s.inv = true) : OutcomeInv (execMgtLinkDown dt m s) := by
  unfold execMgtLinkDown
  with_reducible repeat' first | assumption | extract_lets | refine outcome_next ?_ | apply State.elapse_inv | apply State.linkLost_inv | apply State.raiseLinkDown_inv | refine State.inv_ite (fun _ => ?_) fun _ => ?_

theorem execEthFecDegrade_inv {dt : ℕ} {p : ℕ} {codewords : ℕ} {s : State} (h : s.inv = true) : OutcomeInv (execEthFecDegrade dt p codewords s) := by
  unfold execEthFecDegrade
  with_reducible repeat' first | assumption | extract_lets | apply outcome_next | apply State.elapse_inv | apply State.raise_inv | refine State.inv_ite (fun _ => ?_) fun _ => ?_

theorem State.stormCauses_inv {s : State} {p : Nat} (h : s.inv = true) : (State.stormCauses s p).inv = true := by
  unfold State.stormCauses
  with_reducible repeat' first | assumption | extract_lets | apply State.endCause_inv | refine State.inv_ite (fun _ => ?_) fun _ => ?_ | refine inv_foldl ?_ fun _ _ _ => ?_

theorem State.takePause_inv {s : State} {p : Nat} {b : List Byte} (h : s.inv = true) : (State.takePause s p b).inv = true := by
  unfold State.takePause
  with_reducible repeat' first | assumption | extract_lets | apply State.busy_inv | apply State.modNetPort_inv | apply State.stormCauses_inv | refine State.inv_ite (fun _ => ?_) fun _ => ?_ | refine inv_foldl ?_ fun _ _ _ => ?_

theorem State.countPause_inv {s : State} {p : Nat} {b : List Byte} (h : s.inv = true) : (State.countPause s p b).inv = true := by
  unfold State.countPause
  with_reducible repeat' first | assumption | extract_lets | apply State.bump_inv | apply State.takePause_inv

theorem execHostFrameReceive_inv {dt : Nat} {p : Nat} {bytes : List Byte} {full : Bool} {s : State} (h : s.inv = true) : OutcomeInv (execHostFrameReceive dt p bytes full s) := by
  unfold execHostFrameReceive
  repeat' first | (with_reducible first | assumption | extract_lets | refine outcome_next ?_ | apply State.countPause_inv | apply State.deliver_inv | apply State.elapse_inv | apply State.macTake_inv | apply State.macsecTake_inv | refine State.inv_ite (fun _ => ?_) fun _ => ?_) | split

theorem State.underrun_inv {s : State} {p : ℕ} {q : ℕ} (h : s.inv = true) : (State.underrun s p q).inv = true := by
  unfold State.underrun
  with_reducible repeat' first | assumption | extract_lets | apply State.raise_inv | apply State.wr_inv | apply State.bump_inv

theorem execMacFrameTransmit_inv {dt : Nat} {p : Nat} {starved : Bool} {s : State} (h : s.inv = true) : OutcomeInv (execMacFrameTransmit dt p starved s) := by
  unfold execMacFrameTransmit
  repeat' first | (with_reducible first | assumption | extract_lets | refine outcome_next ?_ | apply State.bump_inv | apply State.busy_inv | apply State.dropFrame_inv | apply State.elapse_inv | apply State.fetchHost_inv | apply State.joinQueue_inv | apply State.modNetPort_inv | apply State.sendFrame_inv | apply State.underrun_inv | refine State.inv_ite (fun _ => ?_) fun _ => ?_ | refine inv_foldl ?_ fun _ _ _ => ?_) | split

theorem State.ringPi_inv {s : State} {p : ℕ} {k : ℕ} {v : ℕ} (h : s.inv = true) : (State.ringPi s p k v).inv = true := by
  unfold State.ringPi
  with_reducible repeat' first | assumption | apply State.wr_inv

theorem execPauseFrameReceive_inv {dt : Nat} {p : Nat} {bytes : List Byte} {s : State} (h : s.inv = true) : OutcomeInv (execPauseFrameReceive dt p bytes s) := by
  unfold execPauseFrameReceive
  repeat' first | (with_reducible first | assumption | extract_lets | refine outcome_next ?_ | apply State.countPause_inv | apply State.elapse_inv | apply State.macTake_inv | refine State.inv_ite (fun _ => ?_) fun _ => ?_) | split

theorem execPauseExpiry_inv {dt : Nat} {p : Nat} {q : Nat} {s : State} (h : s.inv = true) : OutcomeInv (execPauseExpiry dt p q s) := by
  unfold execPauseExpiry
  with_reducible repeat' first | assumption | extract_lets | refine outcome_next ?_ | apply State.elapse_inv | apply State.modNetPort_inv | apply State.stormCauses_inv | refine State.inv_ite (fun _ => ?_) fun _ => ?_

theorem execEthPauseStorm_inv {dt : ℕ} {p : ℕ} {q : ℕ} {s : State} (h : s.inv = true) : OutcomeInv (execEthPauseStorm dt p q s) := by
  unfold execEthPauseStorm
  with_reducible repeat' first | assumption | extract_lets | apply outcome_next | apply State.elapse_inv | apply State.raise_inv | apply State.modNetPort_inv | refine State.inv_ite (fun _ => ?_) fun _ => ?_

theorem execPauseHoldExpiry_inv {dt : ℕ} {p : ℕ} {q : ℕ} {s : State} (h : s.inv = true) : OutcomeInv (execPauseHoldExpiry dt p q s) := by
  unfold execPauseHoldExpiry
  with_reducible repeat' first | assumption | extract_lets | apply outcome_next | apply State.elapse_inv | apply State.endCause_inv | apply State.modNetPort_inv | refine State.inv_ite (fun _ => ?_) fun _ => ?_

theorem execMgtServiceFrame_inv {dt : Nat} {m : Nat} {bytes : List Byte} {s : State} (h : s.inv = true) : OutcomeInv (execMgtServiceFrame dt m bytes s) := by
  unfold execMgtServiceFrame
  repeat' first | (with_reducible first | assumption | extract_lets | refine outcome_next ?_ | apply State.bump_inv | apply State.elapse_inv | apply State.macTake_inv | apply State.queueFrame_inv | refine State.inv_ite (fun _ => ?_) fun _ => ?_) | split

theorem State.moduleGone_inv {s : State} {m : ℕ} (h : s.inv = true) : (State.moduleGone s m).inv = true := by
  unfold State.moduleGone
  repeat' first | (with_reducible first | assumption | extract_lets | apply State.endCause_inv | apply State.putAccount_inv | apply State.raise_inv | apply State.putBus_inv) | split | (with_reducible first | dsimp +zetaDelta only)

theorem State.moduleFound_inv {s : State} {m : Nat} {r : ModuleRead} (h : s.inv = true) : (State.moduleFound s m r).inv = true := by
  unfold State.moduleFound
  repeat' first | (with_reducible first | assumption | extract_lets | apply State.autoInit_inv | apply State.moduleWrite_inv | apply State.putAccount_inv | apply State.putBus_inv | apply State.raise_inv | refine State.inv_ite (fun _ => ?_) fun _ => ?_) | split

theorem State.pollBus_inv {s : State} {m : ℕ} {r : ModuleRead} (h : s.inv = true) : (State.pollBus s m r).inv = true := by
  unfold State.pollBus
  repeat' first | (with_reducible first | assumption | apply State.moduleFound_inv | apply State.moduleGone_inv | apply State.raise_inv | refine State.inv_ite (fun _ => ?_) fun _ => ?_) | split

theorem State.pollModules_inv {s : State} {reads : List ModuleRead} (h : s.inv = true) : (State.pollModules s reads).inv = true := by
  unfold State.pollModules
  with_reducible repeat' first | assumption | apply State.pollBus_inv | refine inv_foldl ?_ fun _ _ _ => ?_

theorem execModulePoll_inv {dt : ℕ} {reads : List ModuleRead} {s : State} (h : s.inv = true) : OutcomeInv (execModulePoll dt reads s) := by
  unfold execModulePoll
  with_reducible repeat' first | assumption | extract_lets | apply outcome_next | apply State.elapse_inv | apply State.pollModules_inv | refine State.inv_ite (fun _ => ?_) fun _ => ?_ | apply State.inv_keep

theorem execModuleHoldExpiry_inv {dt : ℕ} {reads : List ModuleRead} {s : State} (h : s.inv = true) : OutcomeInv (execModuleHoldExpiry dt reads s) := by
  unfold execModuleHoldExpiry
  repeat' first | (with_reducible first | assumption | extract_lets | apply outcome_next | apply State.elapse_inv | apply State.pollModules_inv | refine State.inv_ite (fun _ => ?_) fun _ => ?_) | split | (with_reducible first | apply State.inv_keep)

theorem State.lifeSample_inv {s : State} {m : Nat} {temp : Int} {ready : Bool} {disables : Nat} (h : s.inv = true) : (State.lifeSample s m temp ready disables).inv = true := by
  unfold State.lifeSample
  repeat' first | (with_reducible first | assumption | extract_lets | apply State.putAccount_inv | apply State.putBus_inv | apply State.raise_inv | refine State.inv_ite (fun _ => ?_) fun _ => ?_) | split

theorem execModuleLifeSample_inv {dt : Nat} {samples : List (Nat × Int × Bool × Nat)} {s : State} (h : s.inv = true) : OutcomeInv (execModuleLifeSample dt samples s) := by
  unfold execModuleLifeSample
  with_reducible repeat' first | assumption | extract_lets | apply outcome_next | apply State.elapse_inv | apply State.lifeSample_inv | refine State.inv_ite (fun _ => ?_) fun _ => ?_ | refine inv_foldl ?_ fun _ _ _ => ?_

theorem execModuleAccountWrite_inv {dt : ℕ} {s : State} (h : s.inv = true) : OutcomeInv (execModuleAccountWrite dt s) := by
  unfold execModuleAccountWrite
  with_reducible repeat' first | assumption | extract_lets | apply outcome_next | apply State.elapse_inv | refine State.inv_ite (fun _ => ?_) fun _ => ?_ | apply State.inv_keep

theorem State.onNetCtl_inv {s : State} {p : ℕ} {oldEn : ℕ} {oldMode : ℕ} (h : s.inv = true) : (State.onNetCtl s p oldEn oldMode).inv = true := by
  unfold State.onNetCtl
  with_reducible repeat' first | assumption | apply State.restartPort_inv | refine State.inv_ite (fun _ => ?_) fun _ => ?_

theorem State.onModXfer_inv {s : State} (h : s.inv = true) : (State.onModXfer s).inv = true := by
  unfold State.onModXfer
  repeat' first | (with_reducible first | assumption | extract_lets | apply State.wr_inv | refine State.inv_ite (fun _ => ?_) fun _ => ?_) | (with_reducible first | apply State.inv_keep)

theorem execModXferDone_inv {dt : Nat} {ends : TransferEnd} {data : Nat} {s : State} (h : s.inv = true) : OutcomeInv (execModXferDone dt ends data s) := by
  unfold execModXferDone
  repeat' first | (with_reducible first | assumption | extract_lets | refine outcome_next ?_ | apply State.elapse_inv | apply State.raise_inv | apply State.wr_inv | refine fst_inv (by assumption) ?_ | refine snd_inv (by assumption) ?_ | refine State.inv_ite (fun _ => ?_) fun _ => ?_) | split | (with_reducible first | apply State.inv_keep)

end Sys2Proof.Machine
end

