-- ==== Sys2Proof/Laws/InvFlowCmds.lean ====
section
/-!
SUPPORT. Every operation of Machine/FlowCmds.lean keeps the invariant of the state.
-/
namespace Sys2Proof.Machine
open Sys2Proof

theorem opNetFlowRx_inv : opNetFlowRx.keeps := by
  unfold opNetFlowRx
  apply OpSpec.keeps_mk
  intro s x p h
  repeat' first | (with_reducible first | assumption | extract_lets | apply Done.err_inv | apply State.beginMeasure_inv | apply State.sendReport_inv | apply Done.ok_inv | refine State.inv_ite (fun _ => ?_) fun _ => ?_ | refine inv_foldl ?_ fun _ _ _ => ?_) | split | (with_reducible first | dsimp -zeta only | apply State.inv_keep)

theorem opNetFlowTx_inv : opNetFlowTx.keeps := by
  unfold opNetFlowTx
  apply OpSpec.keeps_mk
  intro s x p h
  repeat' first | (with_reducible first | assumption | extract_lets | apply Done.err_inv | apply Done.ok_inv | refine State.inv_ite (fun _ => ?_) fun _ => ?_) | split | (with_reducible first | dsimp -zeta only | apply State.inv_keep)

theorem opNetFlowDel_inv : opNetFlowDel.keeps := by
  unfold opNetFlowDel
  apply OpSpec.keeps_mk
  intro s x p h
  repeat' first | (with_reducible first | assumption | extract_lets | apply Done.err_inv | apply Done.pending_inv | apply State.await_inv | apply State.putFlow_inv | apply State.removeFlow_inv | refine State.inv_ite (fun _ => ?_) fun _ => ?_) | split

theorem execNetFlowRx_inv {dt : ℕ} {rq : Req} {s : State} (h : s.inv = true) : OutcomeInv (execNetFlowRx dt rq s) := by
  unfold execNetFlowRx
  with_reducible repeat' first | assumption | apply outcome_next | apply serve_inv | apply opNetFlowRx_inv

theorem execNetFlowTx_inv {dt : ℕ} {rq : Req} {s : State} (h : s.inv = true) : OutcomeInv (execNetFlowTx dt rq s) := by
  unfold execNetFlowTx
  with_reducible repeat' first | assumption | apply outcome_next | apply serve_inv | apply opNetFlowTx_inv

theorem execNetFlowDel_inv {dt : ℕ} {rq : Req} {s : State} (h : s.inv = true) : OutcomeInv (execNetFlowDel dt rq s) := by
  unfold execNetFlowDel
  with_reducible repeat' first | assumption | apply outcome_next | apply serve_inv | apply opNetFlowDel_inv

theorem execFlowPacketReceive_inv {dt : ℕ} {p : ℕ} {bytes : List Byte} {full : Bool} {given : Given} {s : State} (h : s.inv = true) : OutcomeInv (execFlowPacketReceive dt p bytes full given s) := by
  unfold execFlowPacketReceive
  repeat' first | (with_reducible first | assumption | extract_lets | apply outcome_next | apply State.elapse_inv | apply State.macTake_inv | apply State.macsecTake_inv | apply State.flowEvent_inv | apply State.putFlow_inv | apply State.flowTake_inv | refine fst_inv (by assumption) ?_ | refine State.inv_ite (fun _ => ?_) fun _ => ?_) | split

theorem State.frameReleased_inv {s : State} {f : Flow} {frame : ℕ} (h : s.inv = true) : (State.frameReleased s f frame).inv = true := by
  unfold State.frameReleased
  with_reducible repeat' first | assumption | extract_lets | apply State.flowEnded_inv | apply State.putFlow_inv

theorem State.nextLine_inv {s : State} {x : Flow} (h : s.inv = true) : (State.nextLine s x).inv = true := by
  unfold State.nextLine
  repeat' first | (with_reducible first | assumption | extract_lets | apply State.flowEvent_inv | apply State.putFlow_inv | apply State.releaseLine_inv | refine State.inv_ite (fun _ => ?_) fun _ => ?_) | split

theorem State.frameOver_inv {s : State} {x : Flow} (h : s.inv = true) : (State.frameOver s x).inv = true := by
  unfold State.frameOver
  repeat' first | (with_reducible first | assumption | extract_lets | apply State.frameReleased_inv | refine State.inv_ite (fun _ => ?_) fun _ => ?_) | split

theorem State.withFlow_inv {s : State} {i : Nat} {g : State → Flow → State} (h : s.inv = true) (hg : ∀ x, (g s x).inv = true) : (State.withFlow s i g).inv = true := by
  unfold State.withFlow
  split
  · exact h
  · exact hg _

theorem execFlowLineRelease_inv {dt : Nat} {f : Nat} {s : State} (h : s.inv = true) : OutcomeInv (execFlowLineRelease dt f s) := by
  unfold execFlowLineRelease
  repeat' first | (with_reducible first | assumption | extract_lets | refine outcome_next ?_ | apply State.elapse_inv | apply State.flowEvent_inv | apply State.frameOver_inv | apply State.nextLine_inv | apply State.putFlow_inv | apply State.releaseAudio_inv | refine State.withFlow_inv ?_ fun _ => ?_ | apply State.writeCells_inv | refine State.inv_ite (fun _ => ?_) fun _ => ?_ | refine inv_foldl ?_ fun _ _ _ => ?_) | split

theorem execFlowLoss_inv {dt : Nat} {f : Nat} {s : State} (h : s.inv = true) : OutcomeInv (execFlowLoss dt f s) := by
  unfold execFlowLoss
  repeat' first | (with_reducible first | assumption | extract_lets | refine outcome_next ?_ | apply State.elapse_inv | apply State.flowEvent_inv | apply State.flowIdle_inv | apply State.putFlow_inv | refine State.inv_ite (fun _ => ?_) fun _ => ?_) | split

theorem execFlowPacketLaunch_inv {dt : Nat} {f : Nat} {s : State} (h : s.inv = true) : OutcomeInv (execFlowPacketLaunch dt f s) := by
  unfold execFlowPacketLaunch
  repeat' first | (with_reducible first | assumption | extract_lets | refine outcome_next ?_ | apply State.elapse_inv | apply State.flowEnded_inv | apply State.flowEvent_inv | apply State.modSend_inv | apply State.putFlow_inv | apply State.schedule_inv | apply State.sendPacket_inv | refine State.inv_ite (fun _ => ?_) fun _ => ?_) | split

theorem State.dropStale_inv {s : State} {f : Nat} (h : s.inv = true) : (State.dropStale s f).inv = true := by
  unfold State.dropStale
  repeat' first | (with_reducible first | assumption | extract_lets | apply State.modNetPort_inv | refine State.inv_ite (fun _ => ?_) fun _ => ?_ | refine inv_foldl ?_ fun _ _ _ => ?_) | split

theorem execTxBehind_inv {dt : Nat} {f : Nat} {s : State} (h : s.inv = true) : OutcomeInv (execTxBehind dt f s) := by
  unfold execTxBehind
  repeat' first | (with_reducible first | assumption | extract_lets | refine outcome_next ?_ | apply State.dropStale_inv | apply State.elapse_inv | apply State.flowEvent_inv | apply State.modNetPort_inv | apply State.putFlow_inv | refine State.inv_ite (fun _ => ?_) fun _ => ?_ | refine inv_foldl ?_ fun _ _ _ => ?_) | split

theorem execMembershipReportSend_inv {dt : ℕ} {f : ℕ} {leg : ℕ} {s : State} (h : s.inv = true) : OutcomeInv (execMembershipReportSend dt f leg s) := by
  unfold execMembershipReportSend
  repeat' first | (with_reducible first | assumption | extract_lets | apply outcome_next | apply State.elapse_inv | apply State.sendReport_inv | apply State.putFlow_inv | refine State.inv_ite (fun _ => ?_) fun _ => ?_) | split

theorem execMembershipQueryReceive_inv {dt : ℕ} {p : ℕ} {bytes : List Byte} {s : State} (h : s.inv = true) : OutcomeInv (execMembershipQueryReceive dt p bytes s) := by
  unfold execMembershipQueryReceive
  repeat' first | (with_reducible first | assumption | extract_lets | apply outcome_next | apply State.elapse_inv | apply State.macTake_inv | apply State.macsecTake_inv | apply State.queueFrame_inv | apply State.sendReport_inv | refine fst_inv (by assumption) ?_ | refine State.inv_ite (fun _ => ?_) fun _ => ?_ | refine inv_foldl ?_ fun _ _ _ => ?_) | split

theorem State.flowSnap_inv {s : State} (h : s.inv = true) : (State.flowSnap s).inv = true := by
  unfold State.flowSnap
  repeat' first | (with_reducible first | assumption | extract_lets | apply State.wrInt_inv | apply State.wr_inv | refine State.inv_ite (fun _ => ?_) fun _ => ?_) | split

end Sys2Proof.Machine
end

