-- ==== Sys2Proof/Laws/InvAudCmds.lean ====
section
/-!
SUPPORT. Every operation of Machine/AudCmds.lean keeps the invariant of the state.
-/
namespace Sys2Proof.Machine
open Sys2Proof

theorem opAudRoute_inv : opAudRoute.keeps := by
  unfold opAudRoute
  apply OpSpec.keeps_mk
  intro s x p h
  repeat' first | (with_reducible first | assumption | extract_lets | apply State.putSink_inv | apply Done.pending_inv | apply State.await_inv | refine State.inv_ite (fun _ => ?_) fun _ => ?_ | refine inv_foldl ?_ fun _ _ _ => ?_) | split | (with_reducible first | apply State.inv_keep)

theorem State.applyAudRecord_inv {s : State} {p : List Byte} {o : ℕ} (h : s.inv = true) : (State.applyAudRecord s p o).inv = true := by
  unfold State.applyAudRecord
  repeat' first | (with_reducible first | assumption | extract_lets | apply State.wr_inv | apply State.audClkChanged_inv) | split | (with_reducible first | apply State.inv_keep)

theorem opAudPortConfig_inv : opAudPortConfig.keeps := by
  unfold opAudPortConfig
  apply OpSpec.keeps_mk
  intro s x p h
  with_reducible repeat' first | assumption | apply Done.ok_inv | apply State.applyAudRecord_inv | refine inv_foldl ?_ fun _ _ _ => ?_

theorem opAudRateStatus_inv : opAudRateStatus.keeps := by
  unfold opAudRateStatus
  apply OpSpec.keeps_mk
  intro s x p h
  with_reducible repeat' first | assumption | extract_lets | apply Done.ok_inv

theorem execAudRoute_inv {dt : ℕ} {rq : Req} {s : State} (h : s.inv = true) : OutcomeInv (execAudRoute dt rq s) := by
  unfold execAudRoute
  with_reducible repeat' first | assumption | apply outcome_next | apply serve_inv | apply opAudRoute_inv

theorem execAudPortConfig_inv {dt : ℕ} {rq : Req} {s : State} (h : s.inv = true) : OutcomeInv (execAudPortConfig dt rq s) := by
  unfold execAudPortConfig
  with_reducible repeat' first | assumption | apply outcome_next | apply serve_inv | apply opAudPortConfig_inv

theorem execAudRateStatus_inv {dt : ℕ} {rq : Req} {s : State} (h : s.inv = true) : OutcomeInv (execAudRateStatus dt rq s) := by
  unfold execAudRateStatus
  with_reducible repeat' first | assumption | apply outcome_next | apply serve_inv | apply opAudRateStatus_inv

theorem execAudioSampleEvaluate_inv {dt : ℕ} {rate96 : Bool} {k : ℕ} {s : State} (h : s.inv = true) : OutcomeInv (execAudioSampleEvaluate dt rate96 k s) := by
  unfold execAudioSampleEvaluate
  with_reducible repeat' first | assumption | extract_lets | apply outcome_next | apply State.elapse_inv | apply State.evaluate_inv | refine State.inv_ite (fun _ => ?_) fun _ => ?_

theorem State.countFrame_inv {s : State} {good : Bool} {running : Bool} {stopped : Bool} (h : s.inv = true) : (State.countFrame s good running stopped).inv = true := by
  unfold State.countFrame
  with_reducible repeat' first | assumption | extract_lets | refine State.inv_ite (fun _ => ?_) fun _ => ?_ | apply State.inv_keep

theorem State.countBad_inv {s : State} {good : Bool} (h : s.inv = true) : (State.countBad s good).inv = true := by
  unfold State.countBad
  with_reducible repeat' first | assumption | extract_lets | refine State.inv_ite (fun _ => ?_) fun _ => ?_ | apply State.inv_keep

theorem execTdmFrame_inv {dt : Nat} {sdi : List (List Int)} {bclks : Nat} {s : State} (h : s.inv = true) : OutcomeInv (execTdmFrame dt sdi bclks s) := by
  unfold execTdmFrame
  repeat' first | (with_reducible first | assumption | extract_lets | refine outcome_next ?_ | apply State.countBad_inv | apply State.countFrame_inv | apply State.elapse_inv | apply State.endCause_inv | apply State.noteSamples_inv | apply State.portBoundary_inv | apply State.portFrame_inv | apply State.wr_inv | refine State.inv_ite (fun _ => ?_) fun _ => ?_ | refine inv_foldl ?_ fun _ _ _ => ?_) | split

theorem execAudClkLoss_inv {dt : ℕ} {s : State} (h : s.inv = true) : OutcomeInv (execAudClkLoss dt s) := by
  unfold execAudClkLoss
  with_reducible repeat' first | assumption | extract_lets | apply outcome_next | apply State.elapse_inv | apply State.raise_inv | refine State.inv_ite (fun _ => ?_) fun _ => ?_ | apply State.inv_keep

theorem execTdmClockStop_inv {dt : ℕ} {s : State} (h : s.inv = true) : OutcomeInv (execTdmClockStop dt s) := by
  unfold execTdmClockStop
  with_reducible repeat' first | assumption | extract_lets | apply outcome_next | apply State.elapse_inv | apply State.startClocks_inv | apply State.endCause_inv | apply State.wr_inv | refine State.inv_ite (fun _ => ?_) fun _ => ?_

theorem State.measureRate_inv {s : State} {kind : Nat} {i : Nat} (h : s.inv = true) : (State.measureRate s kind i).inv = true := by
  unfold State.measureRate
  with_reducible repeat' first | assumption | extract_lets | apply State.endCause_inv | apply State.putRate_inv | apply State.raise_inv | refine State.inv_ite (fun _ => ?_) fun _ => ?_

theorem execAudioRateMeasure_inv {dt : Nat} {groups : List (Nat × Nat)} {s : State} (h : s.inv = true) : OutcomeInv (execAudioRateMeasure dt groups s) := by
  unfold execAudioRateMeasure
  with_reducible repeat' first | assumption | extract_lets | refine outcome_next ?_ | apply State.elapse_inv | apply State.measureRate_inv | refine State.inv_ite (fun _ => ?_) fun _ => ?_ | refine inv_foldl ?_ fun _ _ _ => ?_

theorem State.audSnap_inv {s : State} (h : s.inv = true) : (State.audSnap s).inv = true := by
  unfold State.audSnap
  with_reducible repeat' first | assumption | extract_lets | apply State.wr_inv | refine inv_foldl ?_ fun _ _ _ => ?_

end Sys2Proof.Machine
end

