-- ==== Sys2Proof/Laws/InvMvwCmds.lean ====
section
/-!
SUPPORT. Every operation of Machine/MvwCmds.lean keeps the invariant of the state.
-/
namespace Sys2Proof.Machine
open Sys2Proof

theorem opMvwLayerSet_inv : opMvwLayerSet.keeps := by
  unfold opMvwLayerSet
  apply OpSpec.keeps_mk
  intro s x p h
  repeat' first | (with_reducible first | assumption | extract_lets | apply Done.ok_inv | apply State.putHead_inv)

theorem State.holdBuffers_inv {s : State} {h : Nat} {n : Nat} {cs : List HeadChange} {c : HeadChange} {y : HeadSet} (hs : s.inv = true) : (State.holdBuffers s h n cs c y).inv = true := by
  unfold State.holdBuffers
  with_reducible repeat' first | assumption | extract_lets | apply State.allocBuffer_inv | refine State.inv_ite (fun _ => ?_) fun _ => ?_ | refine inv_foldl ?_ fun _ _ _ => ?_

theorem State.settleChange_inv {s : State} {h : Nat} {i : Nat} (hs : s.inv = true) : (State.settleChange s h i).inv = true := by
  unfold State.settleChange
  repeat' first | (with_reducible first | assumption | extract_lets | apply State.freeBuffer_inv | apply State.holdBuffers_inv | apply State.putHead_inv | refine fst_inv (by assumption) ?_ | refine snd_inv (by assumption) ?_ | refine State.inv_ite (fun _ => ?_) fun _ => ?_ | refine inv_foldl ?_ fun _ _ _ => ?_) | split | (with_reducible first | apply State.inv_keep)

theorem State.admitChange_inv {s : State} {h : Nat} {c : HeadChange} (hs : s.inv = true) : (State.admitChange s h c).inv = true := by
  unfold State.admitChange
  repeat' first | (with_reducible first | assumption | extract_lets | apply State.putHead_inv | apply State.settleChange_inv | apply State.wr_inv | refine inv_foldl ?_ fun _ _ _ => ?_) | split

theorem opMvwHeadConfig_inv : opMvwHeadConfig.keeps := by
  unfold opMvwHeadConfig
  apply OpSpec.keeps_mk
  intro s x p h
  repeat' first | (with_reducible first | assumption | extract_lets | apply State.admitChange_inv | apply State.await_inv | apply Done.pending_inv | apply State.takePorts_inv | refine State.inv_ite (fun _ => ?_) fun _ => ?_ | refine inv_foldl ?_ fun _ _ _ => ?_)

theorem State.admitHead_inv {s : State} {h : Nat} {f : Nat} {id : Nat} {t : Nat} {p : HeadForm} (hs : s.inv = true) : (State.admitHead s h f id t p).inv = true := by
  unfold State.admitHead
  with_reducible repeat' first | assumption | extract_lets | apply State.admitChange_inv | apply State.takePorts_inv | refine inv_foldl ?_ fun _ _ _ => ?_

theorem opMvwCommit_inv : opMvwCommit.keeps := by
  unfold opMvwCommit
  apply OpSpec.keeps_mk
  intro s x p h
  by_cases hb : ((maskHeads (u16 p 0)).any fun h => (s.head h).waiting.any fun (w : HeadChange) => w.commit.isSome) = true
  · simpa only [if_pos hb] using Done.err_inv h
  · simpa only [if_neg hb] using Done.pending_inv (State.mirrorLate_inv (State.await_inv (inv_foldl h fun _ _ ht => State.admitHead_inv ht)))

theorem opMvwGraphicLoad_inv : opMvwGraphicLoad.keeps := by
  unfold opMvwGraphicLoad
  apply OpSpec.keeps_mk
  intro s x p h
  repeat' first | (with_reducible first | assumption | extract_lets | apply Done.err_inv | apply Done.pending_inv | apply State.await_inv | apply State.freeBuffer_inv | apply State.allocBuffer_inv | refine snd_inv (by assumption) ?_ | refine State.inv_ite (fun _ => ?_) fun _ => ?_ | refine inv_foldl ?_ fun _ _ _ => ?_) | split | (with_reducible first | apply State.inv_keep)

theorem State.endGraphic_inv {s : State} {l : GfxLoad} (h : s.inv = true) : (State.endGraphic s l).1.inv = true := by
  unfold State.endGraphic
  repeat' first | (with_reducible first | assumption | extract_lets | apply State.memWrite_inv | apply State.freeBuffer_inv | refine State.inv_ite (fun _ => ?_) fun _ => ?_) | split | (with_reducible first | apply State.inv_keepMem)

theorem State.endCoefs_inv {s : State} {l : GfxLoad} (h : s.inv = true) : (State.endCoefs s l).1.inv = true := by
  unfold State.endCoefs
  repeat' first | (with_reducible first | assumption | extract_lets | refine State.inv_ite (fun _ => ?_) fun _ => ?_ | refine inv_foldl ?_ fun _ _ _ => ?_) | split | (with_reducible first | apply State.inv_keep)

theorem State.startLayer_inv {s : State} {h : ℕ} {l : ℕ} (hi : s.inv = true) : (State.startLayer s h l).inv = true := by
  unfold State.startLayer
  with_reducible repeat' first | assumption | extract_lets | apply State.putLayer_inv | apply State.endCause_inv | apply State.wr_inv | refine inv_foldl ?_ fun _ _ _ => ?_

theorem State.swapBuffer_inv {s : State} {i : Nat} {k : Nat × Nat} {en : Bool} (h : s.inv = true) : (State.swapBuffer s i k en).inv = true := by
  unfold State.swapBuffer
  repeat' first | (with_reducible first | assumption | extract_lets | apply State.freeBuffer_inv | apply State.wr64_inv | refine fst_inv (by assumption) ?_ | refine snd_inv (by assumption) ?_ | refine State.inv_ite (fun _ => ?_) fun _ => ?_ | refine inv_foldl ?_ fun _ _ _ => ?_) | split | (with_reducible first | apply State.inv_keep | apply State.inv_keepMem | apply State.inv_keepFlt)

theorem State.moveBuffers_inv {s : State} {h : Nat} {c : HeadChange} (hs : s.inv = true) : (State.moveBuffers s h c).inv = true := by
  unfold State.moveBuffers
  with_reducible repeat' first | assumption | extract_lets | apply State.startLayer_inv | apply State.swapBuffer_inv | refine State.inv_ite (fun _ => ?_) fun _ => ?_ | refine inv_foldl ?_ fun _ _ _ => ?_

theorem State.swapLayer_inv {s : State} {h : Nat} {l : Nat} {c : HeadChange} {v : VidSet} (hs : s.inv = true) : (State.swapLayer s h l c v).inv = true := by
  unfold State.swapLayer
  repeat' first | (with_reducible first | assumption | extract_lets | apply State.freePort_inv | apply State.swapBuffer_inv | refine State.inv_ite (fun _ => ?_) fun _ => ?_) | (with_reducible first | apply State.inv_keep)

theorem State.applyCommit_inv {s : State} {h : ℕ} {f : ℕ} {c : HeadChange} {y : HeadSet} (hi : s.inv = true) : (State.applyCommit s h f c y).inv = true := by
  unfold State.applyCommit
  with_reducible repeat' first | assumption | extract_lets | apply State.putVid_inv | apply State.swapLayer_inv | apply State.startLayer_inv | apply State.putHead_inv | apply State.wr_inv | apply State.wr64_inv | refine State.inv_ite (fun _ => ?_) fun _ => ?_ | refine inv_foldl ?_ fun _ _ _ => ?_

theorem State.headTurns_inv {old : State} {s : State} {h : Nat} (hs : old.inv = true) (hs1 : s.inv = true) : (State.headTurns old s h).inv = true := by
  unfold State.headTurns
  with_reducible repeat' first | assumption | extract_lets | apply State.beginMeasure_inv | apply State.putHead_inv | refine State.inv_ite (fun _ => ?_) fun _ => ?_ | refine inv_foldl ?_ fun _ _ _ => ?_

theorem State.applyConfig_inv {s : State} {h : Nat} {c : HeadChange} {k : Bool × Nat × Nat × Nat × Nat} (hs : s.inv = true) : (State.applyConfig s h c k).inv = true := by
  unfold State.applyConfig
  with_reducible repeat' first | assumption | extract_lets | apply State.freePort_inv | apply State.headTurns_inv | apply State.moveBuffers_inv | apply State.putHead_inv | apply State.wr_inv | refine State.inv_ite (fun _ => ?_) fun _ => ?_ | refine inv_foldl ?_ fun _ _ _ => ?_

theorem State.applyHeadChange_inv {s : State} {h : ℕ} {f : ℕ} {c : HeadChange} (hi : s.inv = true) : (State.applyHeadChange s h f c).inv = true := by
  unfold State.applyHeadChange
  repeat' first | (with_reducible first | assumption | extract_lets | apply State.putHead_inv | apply State.applyConfig_inv | apply State.applyCommit_inv | apply State.endWait_inv | refine State.inv_ite (fun _ => ?_) fun _ => ?_) | split | (with_reducible first | dsimp +zetaDelta only)

theorem State.beginHead_inv {s : State} {h : Nat} {f : Nat} {mh : Nat} (hs : s.inv = true) : (State.beginHead s h f mh).inv = true := by
  unfold State.beginHead
  with_reducible repeat' first | assumption | extract_lets | apply State.hideLayer_inv | apply State.moveMeter_inv | apply State.newHeadFrame_inv | apply State.putHead_inv | apply State.selectLayer_inv | apply State.wr_inv | refine inv_foldl ?_ fun _ _ _ => ?_

theorem State.applyDue_inv {s : State} {h : ℕ} {a2 : ℕ} (hi : s.inv = true) : (State.applyDue s h a2).inv = true := by
  induction a2 generalizing s with
  | zero => exact hi
  | succ n ih =>
    unfold State.applyDue
    repeat' first | (with_reducible first | assumption | apply ih | extract_lets | apply State.applyHeadChange_inv | refine State.inv_ite (fun _ => ?_) fun _ => ?_ | refine inv_foldl ?_ fun _ _ _ => ?_) | split

theorem State.headMeridianReached_inv {s : State} {h : ℕ} (hi : s.inv = true) : (State.headMeridianReached s h).inv = true := by
  unfold State.headMeridianReached
  with_reducible repeat' first | assumption | extract_lets | apply State.engineRegs_inv | apply State.applyDue_inv | apply State.beginHead_inv | refine State.inv_ite (fun _ => ?_) fun _ => ?_

theorem execMvwHeadConfig_inv {dt : ℕ} {rq : Req} {s : State} (h : s.inv = true) : OutcomeInv (execMvwHeadConfig dt rq s) := by
  unfold execMvwHeadConfig
  with_reducible repeat' first | assumption | apply outcome_next | apply serve_inv | apply opMvwHeadConfig_inv

theorem execMvwLayerSet_inv {dt : ℕ} {rq : Req} {s : State} (h : s.inv = true) : OutcomeInv (execMvwLayerSet dt rq s) := by
  unfold execMvwLayerSet
  with_reducible repeat' first | assumption | apply outcome_next | apply serve_inv | apply opMvwLayerSet_inv

theorem execMvwCommit_inv {dt : ℕ} {rq : Req} {s : State} (h : s.inv = true) : OutcomeInv (execMvwCommit dt rq s) := by
  unfold execMvwCommit
  with_reducible repeat' first | assumption | apply outcome_next | apply serve_inv | apply opMvwCommit_inv

theorem execMvwGraphicLoad_inv {dt : ℕ} {rq : Req} {s : State} (h : s.inv = true) : OutcomeInv (execMvwGraphicLoad dt rq s) := by
  unfold execMvwGraphicLoad
  with_reducible repeat' first | assumption | apply outcome_next | apply serve_inv | apply opMvwGraphicLoad_inv

theorem execGraphicLoadDone_inv {dt : ℕ} {s : State} (h : s.inv = true) : OutcomeInv (execGraphicLoadDone dt s) := by
  unfold execGraphicLoadDone
  repeat' first | (with_reducible first | assumption | extract_lets | apply outcome_next | apply State.elapse_inv | apply State.endGraphic_inv | apply State.endCoefs_inv | apply State.endWait_inv | refine fst_inv (by assumption) ?_ | refine State.inv_ite (fun _ => ?_) fun _ => ?_) | split | (with_reducible first | dsimp +zetaDelta only | apply State.inv_keep)

theorem execHeadMeridian_inv {dt : Nat} {h : Nat} {s : State} (hs : s.inv = true) : OutcomeInv (execHeadMeridian dt h s) := by
  unfold execHeadMeridian
  with_reducible repeat' first | assumption | extract_lets | refine outcome_next ?_ | apply State.elapse_inv | apply State.followReads_inv | apply State.headMeridianReached_inv | refine State.inv_ite (fun _ => ?_) fun _ => ?_

theorem execBandStart_inv {dt : Nat} {h : Nat} {s : State} (hs : s.inv = true) : OutcomeInv (execBandStart dt h s) := by
  unfold execBandStart
  repeat' first | (with_reducible first | assumption | extract_lets | refine outcome_next ?_ | apply State.composeBand_inv | apply State.elapse_inv | apply State.followReads_inv | refine State.inv_ite (fun _ => ?_) fun _ => ?_) | split

theorem execBandComplete_inv {dt : Nat} {h : Nat} {s : State} (hs : s.inv = true) : OutcomeInv (execBandComplete dt h s) := by
  unfold execBandComplete
  repeat' first | (with_reducible first | assumption | extract_lets | refine outcome_next ?_ | apply State.elapse_inv | apply State.followReads_inv | apply State.putHead_inv) | split

theorem execHeadRowEmit_inv {dt : Nat} {h : Nat} {s : State} (hs : s.inv = true) : OutcomeInv (execHeadRowEmit dt h s) := by
  unfold execHeadRowEmit
  repeat' first | (with_reducible first | assumption | extract_lets | refine outcome_next ?_ | apply State.bump_inv | apply State.elapse_inv | apply State.emitRow_inv | apply State.followReads_inv | apply State.headEvent_inv | apply State.putHead_inv | apply State.wr_inv | refine State.inv_ite (fun _ => ?_) fun _ => ?_) | split

theorem execLayerSofWrite_inv {dt : Nat} {h : Nat} {l : Nat} {s : State} (hs : s.inv = true) : OutcomeInv (execLayerSofWrite dt h l s) := by
  unfold execLayerSofWrite
  with_reducible repeat' first | assumption | extract_lets | refine outcome_next ?_ | apply State.elapse_inv | apply State.followReads_inv | apply State.takeFrame_inv | refine State.inv_ite (fun _ => ?_) fun _ => ?_

end Sys2Proof.Machine
end

