-- ==== Sys2Proof/Laws/InvEncCmds.lean ====
section
/-!
SUPPORT. Every operation of Machine/EncCmds.lean keeps the invariant of the state.
-/
namespace Sys2Proof.Machine
open Sys2Proof

theorem opEncChannelCreate_inv : opEncChannelCreate.keeps := by
  unfold opEncChannelCreate
  apply OpSpec.keeps_mk
  intro s x p h
  repeat' first | (with_reducible first | assumption | extract_lets | apply Done.err_inv | apply State.takePorts_inv | apply State.allocBuffer_inv | apply State.await_inv | apply State.wr_inv | apply State.encRegs_inv | apply Done.pending_inv | refine snd_inv (by assumption) ?_ | refine State.inv_ite (fun _ => ?_) fun _ => ?_) | split | (with_reducible first | dsimp -zeta only | apply State.inv_keep)

theorem State.endDecoder_inv {s : State} {d : Nat} (h : s.inv = true) : (State.endDecoder s d).inv = true := by
  unfold State.endDecoder
  repeat' first | (with_reducible first | assumption | extract_lets | apply State.encRegs_inv | apply State.endWait_inv | apply State.wr_inv) | (with_reducible first | apply State.inv_keep)

theorem opEncChannelDelete_inv : opEncChannelDelete.keeps := by
  unfold opEncChannelDelete
  apply OpSpec.keeps_mk
  intro s x p h
  repeat' first | (with_reducible first | assumption | extract_lets | apply Done.err_inv | apply Done.pending_inv | apply State.endChannel_inv | apply State.await_inv | apply State.putEnc_inv | apply State.endDecoder_inv | refine State.inv_ite (fun _ => ?_) fun _ => ?_) | split | (with_reducible first | dsimp -zeta only | apply State.inv_keep)

theorem opEncRateSet_inv : opEncRateSet.keeps := by
  unfold opEncRateSet
  apply OpSpec.keeps_mk
  intro s x p h
  repeat' first | (with_reducible first | assumption | extract_lets | apply State.await_inv | apply Done.err_inv | apply Done.pending_inv | apply State.putEnc_inv | refine State.inv_ite (fun _ => ?_) fun _ => ?_ | refine inv_foldl ?_ fun _ _ _ => ?_) | split

theorem opEncStatus_inv : opEncStatus.keeps := by
  unfold opEncStatus
  apply OpSpec.keeps_mk
  intro s x p h
  repeat' first | (with_reducible first | assumption | extract_lets | apply State.wr_inv | apply Done.ok_inv | apply Done.err_inv | refine State.inv_ite (fun _ => ?_) fun _ => ?_ | refine inv_foldl ?_ fun _ _ _ => ?_) | split

theorem opEncXsDecodeCreate_inv : opEncXsDecodeCreate.keeps := by
  unfold opEncXsDecodeCreate
  apply OpSpec.keeps_mk
  intro s x p h
  repeat' first | (with_reducible first | assumption | extract_lets | apply Done.err_inv | apply State.encRegs_inv | apply Done.ok_inv | apply State.beginMeasure_inv | refine State.inv_ite (fun _ => ?_) fun _ => ?_) | split | (with_reducible first | dsimp -zeta only | apply State.inv_keep)

theorem State.ratesDone_inv {s : State} {x : EncChan} {f : Nat} (h : s.inv = true) : (State.ratesDone s x f).inv = true := by
  unfold State.ratesDone
  with_reducible repeat' first | assumption | extract_lets | apply State.endWait_inv | refine inv_foldl ?_ fun _ _ _ => ?_

theorem State.startPeriod_inv {s : State} {x : EncChan} (h : s.inv = true) : (State.startPeriod s x).inv = true := by
  unfold State.startPeriod
  with_reducible repeat' first | assumption | extract_lets | apply State.encRegs_inv | apply State.endCause_inv | apply State.putEnc_inv | apply State.ratesDone_inv | apply State.showBook_inv | apply State.wr_inv | refine State.inv_ite (fun _ => ?_) fun _ => ?_ | refine inv_foldl ?_ fun _ _ _ => ?_

theorem State.startRow_inv {s : State} {x : EncChan} (h : s.inv = true) : (State.startRow s x).inv = true := by
  unfold State.startRow
  with_reducible repeat' first | assumption | extract_lets | apply State.putEnc_inv

theorem State.codeRow_inv {s : State} {x : EncChan} {r : EncRow} {late : Option Nat} (h : s.inv = true) : (State.codeRow s x r late).inv = true := by
  unfold State.codeRow
  with_reducible repeat' first | assumption | extract_lets | apply State.buildRows_inv | apply State.bump_inv | apply State.encEvent_inv | apply State.endChannel_inv | apply State.picturesGone_inv | apply State.putEnc_inv | apply State.rowDone_inv | apply State.showBook_inv | apply State.wr_inv | refine State.inv_ite (fun _ => ?_) fun _ => ?_

theorem execEncChannelCreate_inv {dt : ℕ} {rq : Req} {s : State} (h : s.inv = true) : OutcomeInv (execEncChannelCreate dt rq s) := by
  unfold execEncChannelCreate
  with_reducible repeat' first | assumption | apply outcome_next | apply serve_inv | apply opEncChannelCreate_inv

theorem execEncChannelDelete_inv {dt : ℕ} {rq : Req} {s : State} (h : s.inv = true) : OutcomeInv (execEncChannelDelete dt rq s) := by
  unfold execEncChannelDelete
  with_reducible repeat' first | assumption | apply outcome_next | apply serve_inv | apply opEncChannelDelete_inv

theorem execEncRateSet_inv {dt : ℕ} {rq : Req} {s : State} (h : s.inv = true) : OutcomeInv (execEncRateSet dt rq s) := by
  unfold execEncRateSet
  with_reducible repeat' first | assumption | apply outcome_next | apply serve_inv | apply opEncRateSet_inv

theorem execEncStatus_inv {dt : ℕ} {rq : Req} {s : State} (h : s.inv = true) : OutcomeInv (execEncStatus dt rq s) := by
  unfold execEncStatus
  with_reducible repeat' first | assumption | apply outcome_next | apply serve_inv | apply opEncStatus_inv

theorem execEncXsDecodeCreate_inv {dt : ℕ} {rq : Req} {s : State} (h : s.inv = true) : OutcomeInv (execEncXsDecodeCreate dt rq s) := by
  unfold execEncXsDecodeCreate
  with_reducible repeat' first | assumption | apply outcome_next | apply serve_inv | apply opEncXsDecodeCreate_inv

theorem execEncRefreshPeriodStart_inv {dt : ℕ} {h : ℕ} {s : State} (hi : s.inv = true) : OutcomeInv (execEncRefreshPeriodStart dt h s) := by
  unfold execEncRefreshPeriodStart
  repeat' first | (with_reducible first | assumption | extract_lets | apply outcome_next | apply State.elapse_inv | apply State.startPeriod_inv | refine State.inv_ite (fun _ => ?_) fun _ => ?_) | split

theorem execEncRowDue_inv {dt : ℕ} {h : ℕ} {s : State} (hi : s.inv = true) : OutcomeInv (execEncRowDue dt h s) := by
  unfold execEncRowDue
  repeat' first | (with_reducible first | assumption | extract_lets | apply outcome_next | apply State.elapse_inv | apply State.startRow_inv | refine State.inv_ite (fun _ => ?_) fun _ => ?_) | split

theorem execEncRowCoded_inv {dt : Nat} {h : Nat} {r : Nat} {s : State} (hs : s.inv = true) : OutcomeInv (execEncRowCoded dt h r s) := by
  unfold execEncRowCoded
  repeat' first | (with_reducible first | assumption | extract_lets | refine outcome_next ?_ | apply State.codeRow_inv | apply State.elapse_inv | refine State.inv_ite (fun _ => ?_) fun _ => ?_) | split

theorem execEncDeadline_inv {dt : Nat} {h : Nat} {r : Nat} {coded : Nat} {s : State} (hs : s.inv = true) : OutcomeInv (execEncDeadline dt h r coded s) := by
  unfold execEncDeadline
  repeat' first | (with_reducible first | assumption | extract_lets | refine outcome_next ?_ | apply State.codeRow_inv | apply State.elapse_inv | refine State.inv_ite (fun _ => ?_) fun _ => ?_) | split

theorem State.launchPacket_inv {s : State} {x : EncChan} {k : EncPacket} (h : s.inv = true) : (State.launchPacket s x k).inv = true := by
  unfold State.launchPacket
  repeat' first | (with_reducible first | assumption | extract_lets | apply State.bump_inv | apply State.encEvent_inv | apply State.flowEvent_inv | apply State.modSend_inv | apply State.putEnc_inv | apply State.schedule_inv | apply State.sendPacket_inv | refine State.inv_ite (fun _ => ?_) fun _ => ?_) | split

theorem State.packetGone_inv {s : State} {x : EncChan} {k : EncPacket} (h : s.inv = true) : (State.packetGone s x k).inv = true := by
  unfold State.packetGone
  repeat' first | (with_reducible first | assumption | extract_lets | apply State.flowEnded_inv | apply State.putFlow_inv | refine State.inv_ite (fun _ => ?_) fun _ => ?_) | split

theorem execEncPacketLaunch_inv {dt : Nat} {h : Nat} {s : State} (hs : s.inv = true) : OutcomeInv (execEncPacketLaunch dt h s) := by
  unfold execEncPacketLaunch
  repeat' first | (with_reducible first | assumption | extract_lets | refine outcome_next ?_ | apply State.elapse_inv | apply State.endChannel_inv | apply State.launchPacket_inv | apply State.packetGone_inv | apply State.picturesGone_inv | refine State.inv_ite (fun _ => ?_) fun _ => ?_) | split

theorem State.emitSlice_inv {s : State} {x0 : EncChan} (h : s.inv = true) : (State.emitSlice s x0).inv = true := by
  unfold State.emitSlice
  repeat' first | (with_reducible first | assumption | extract_lets | apply State.endChannel_inv | apply State.picturesGone_inv | apply State.putEnc_inv | apply State.ratesDone_inv | apply State.rowDone_inv | apply State.wr_inv | refine State.inv_ite (fun _ => ?_) fun _ => ?_) | split

theorem execXsSliceEmit_inv {dt : Nat} {h : Nat} {s : State} (hs : s.inv = true) : OutcomeInv (execXsSliceEmit dt h s) := by
  unfold execXsSliceEmit
  repeat' first | (with_reducible first | assumption | extract_lets | refine outcome_next ?_ | apply State.elapse_inv | apply State.emitSlice_inv | refine State.inv_ite (fun _ => ?_) fun _ => ?_) | split

theorem State.sliceJudged_inv {s : State} {x : XsDecoder} {f : Flow} {fr : Nat} {i : Nat} (h : s.inv = true) : (State.sliceJudged s x f fr i).inv = true := by
  unfold State.sliceJudged
  repeat' first | (with_reducible first | assumption | extract_lets | apply State.bump_inv | apply State.endDecoder_inv | apply State.raiseWithin_inv | apply State.wr_inv | apply State.wr64_inv | refine State.inv_ite (fun _ => ?_) fun _ => ?_) | (with_reducible first | apply State.inv_keep)

theorem execXsSliceLost_inv {dt : Nat} {d : Nat} {s : State} (h : s.inv = true) : OutcomeInv (execXsSliceLost dt d s) := by
  unfold execXsSliceLost
  repeat' first | (with_reducible first | assumption | extract_lets | refine outcome_next ?_ | apply State.elapse_inv | apply State.sliceJudged_inv | refine State.inv_ite (fun _ => ?_) fun _ => ?_) | split

theorem State.twinTake_inv {s : State} {type : ℕ} {b : List Byte} (h : s.inv = true) : (State.twinTake s type b).1.inv = true := by
  unfold State.twinTake
  repeat' first | (with_reducible first | assumption | extract_lets | apply State.raise_inv | apply State.bump_inv | refine State.inv_ite (fun _ => ?_) fun _ => ?_) | split | (with_reducible first | apply State.inv_keep)

theorem State.takeRow_inv {s : State} {m : RowMsg} (h : s.inv = true) : (State.takeRow s m).inv = true := by
  unfold State.takeRow
  repeat' first | (with_reducible first | assumption | extract_lets | apply State.putEnc_inv | apply State.compareRow_inv | refine State.inv_ite (fun _ => ?_) fun _ => ?_) | split

theorem execRowsReceive_inv {dt : ℕ} {bytes : List Byte} {s : State} (h : s.inv = true) : OutcomeInv (execRowsReceive dt bytes s) := by
  unfold execRowsReceive
  repeat' first | (with_reducible first | assumption | extract_lets | apply outcome_next | apply State.twinTake_inv | apply State.elapse_inv | apply State.takeRow_inv | refine fst_inv (by assumption) ?_ | refine inv_foldl ?_ fun _ _ _ => ?_) | split

end Sys2Proof.Machine
end

