-- ==== Sys2Proof/Laws/InvTimCmds.lean ====
section
/-!
SUPPORT. Every operation of Machine/TimCmds.lean keeps the invariant of the state.
-/
namespace Sys2Proof.Machine
open Sys2Proof

theorem State.frameTaken_inv {s : State} {p : Nat} {bytes : List Byte} (h : s.inv = true) : (State.frameTaken s p bytes).1.inv = true := by
  unfold State.frameTaken
  repeat' first | (with_reducible first | assumption | extract_lets | apply State.macTake_inv | apply State.macsecTake_inv | refine State.inv_ite (fun _ => ?_) fun _ => ?_) | split

theorem State.frameIn_inv {s : State} {p : Nat} {bytes : List Byte} (h : s.inv = true) : (State.frameIn s p bytes).1.inv = true := by
  unfold State.frameIn
  with_reducible repeat' first | assumption | extract_lets | apply State.frameTaken_inv

theorem State.ptpCheck_inv {s : State} {d : ℕ} (h : s.inv = true) : (State.ptpCheck s d).inv = true := by
  unfold State.ptpCheck
  repeat' first | (with_reducible first | assumption | apply State.refCheck_inv) | split

theorem State.selectMaster_inv {s : State} {d : ℕ} (h : s.inv = true) : (State.selectMaster s d).inv = true := by
  unfold State.selectMaster
  with_reducible repeat' first | assumption | extract_lets | apply State.modPtp_inv | apply State.ptpCheck_inv | refine State.inv_ite (fun _ => ?_) fun _ => ?_

theorem State.ptpBack_inv {s : State} {d : ℕ} (h : s.inv = true) : (State.ptpBack s d).inv = true := by
  unfold State.ptpBack
  with_reducible repeat' first | assumption | extract_lets | apply State.ptpCheck_inv | apply State.endCause_inv | apply State.modPtp_inv | refine State.inv_ite (fun _ => ?_) fun _ => ?_

theorem State.theta_inv {s : State} {d : ℕ} {v : ℤ} {freq : Option ℤ} (h : s.inv = true) : (State.theta s d v freq).inv = true := by
  unfold State.theta
  repeat' first | (with_reducible first | assumption | extract_lets | apply State.wrInt_inv | apply State.modPtp_inv | apply State.refSample_inv | refine State.inv_ite (fun _ => ?_) fun _ => ?_) | split

theorem State.syncDone_inv {s : State} {d : ℕ} {t2 : ℤ} {t1 : ℤ} {corr : ℤ} {freq : Option ℤ} (h : s.inv = true) : (State.syncDone s d t2 t1 corr freq).inv = true := by
  unfold State.syncDone
  with_reducible repeat' first | assumption | extract_lets | apply State.modPtp_inv | apply State.theta_inv | refine State.inv_ite (fun _ => ?_) fun _ => ?_

theorem State.addDelay_inv {s : State} {d : ℕ} {v : ℤ} (h : s.inv = true) : (State.addDelay s d v).inv = true := by
  unfold State.addDelay
  with_reducible repeat' first | assumption | apply State.modPtp_inv

theorem execPtpSyncReceive_inv {dt : ℕ} {p : ℕ} {bytes : List Byte} {freq : Option ℤ} {s : State} (h : s.inv = true) : OutcomeInv (execPtpSyncReceive dt p bytes freq s) := by
  unfold execPtpSyncReceive
  repeat' first | (with_reducible first | assumption | extract_lets | apply outcome_next | apply State.frameIn_inv | apply State.elapse_inv | apply State.ptpBack_inv | apply State.modPtp_inv | apply State.syncDone_inv | refine fst_inv (by assumption) ?_ | refine State.inv_ite (fun _ => ?_) fun _ => ?_) | split

theorem execPtpFollowUpReceive_inv {dt : ℕ} {p : ℕ} {bytes : List Byte} {freq : Option ℤ} {s : State} (h : s.inv = true) : OutcomeInv (execPtpFollowUpReceive dt p bytes freq s) := by
  unfold execPtpFollowUpReceive
  repeat' first | (with_reducible first | assumption | extract_lets | apply outcome_next | apply State.frameIn_inv | apply State.elapse_inv | apply State.syncDone_inv | refine fst_inv (by assumption) ?_ | refine State.inv_ite (fun _ => ?_) fun _ => ?_) | split

theorem execPtpAnnounceReceive_inv {dt : ℕ} {p : ℕ} {bytes : List Byte} {s : State} (h : s.inv = true) : OutcomeInv (execPtpAnnounceReceive dt p bytes s) := by
  unfold execPtpAnnounceReceive
  repeat' first | (with_reducible first | assumption | extract_lets | apply outcome_next | apply State.frameIn_inv | apply State.elapse_inv | apply State.modPtp_inv | apply State.ptpBack_inv | apply State.selectMaster_inv | refine fst_inv (by assumption) ?_ | refine State.inv_ite (fun _ => ?_) fun _ => ?_) | split

theorem State.putRelayLink_inv {s : State} {x : RelayLink} (h : s.inv = true) : (State.putRelayLink s x).inv = true := by
  unfold State.putRelayLink
  with_reducible repeat' first | assumption | apply State.modTim_inv

theorem State.delayFor_inv {s : State} {d : ℕ} {p : ℕ} {b : List Byte} {o : ℕ} (h : s.inv = true) : (State.delayFor s d p b o).inv = true := by
  unfold State.delayFor
  repeat' first | (with_reducible first | assumption | extract_lets | apply State.addDelay_inv | apply State.modPtp_inv | refine State.inv_ite (fun _ => ?_) fun _ => ?_) | split

theorem State.delayForRelay_inv {s : State} {p : ℕ} {b : List Byte} {o : ℕ} (h : s.inv = true) : (State.delayForRelay s p b o).inv = true := by
  unfold State.delayForRelay
  repeat' first | (with_reducible first | assumption | extract_lets | apply State.putRelayLink_inv) | split

theorem execPtpDelayRespReceive_inv {dt : ℕ} {p : ℕ} {bytes : List Byte} {s : State} (h : s.inv = true) : OutcomeInv (execPtpDelayRespReceive dt p bytes s) := by
  unfold execPtpDelayRespReceive
  repeat' first | (with_reducible first | assumption | extract_lets | apply outcome_next | apply State.frameIn_inv | apply State.elapse_inv | apply State.delayFor_inv | apply State.delayForRelay_inv | refine fst_inv (by assumption) ?_ | refine State.inv_ite (fun _ => ?_) fun _ => ?_) | split

theorem execPtpDelayReqSend_inv {dt : ℕ} {target : ℕ} {port : ℕ} {s : State} (h : s.inv = true) : OutcomeInv (execPtpDelayReqSend dt target port s) := by
  unfold execPtpDelayReqSend
  repeat' first | (with_reducible first | assumption | extract_lets | apply outcome_next | apply State.elapse_inv | apply State.queueFrame_inv | apply State.putRelayLink_inv | apply State.modPtp_inv | refine State.inv_ite (fun _ => ?_) fun _ => ?_) | split

theorem execPtpPdelayReqReceive_inv {dt : ℕ} {p : ℕ} {bytes : List Byte} {s : State} (h : s.inv = true) : OutcomeInv (execPtpPdelayReqReceive dt p bytes s) := by
  unfold execPtpPdelayReqReceive
  repeat' first | (with_reducible first | assumption | extract_lets | apply outcome_next | apply State.frameIn_inv | apply State.elapse_inv | apply State.queueFrame_inv | refine fst_inv (by assumption) ?_ | refine State.inv_ite (fun _ => ?_) fun _ => ?_) | split

theorem execTimPtpLoss_inv {dt : Nat} {d : Nat} {s : State} (h : s.inv = true) : OutcomeInv (execTimPtpLoss dt d s) := by
  unfold execTimPtpLoss
  repeat' first | (with_reducible first | assumption | extract_lets | refine outcome_next ?_ | apply State.elapse_inv | apply State.modPtp_inv | apply State.raise_inv | apply State.refLost_inv | apply State.selectMaster_inv | refine fst_inv (by assumption) ?_ | refine snd_inv (by assumption) ?_ | refine State.inv_ite (fun _ => ?_) fun _ => ?_) | split | (with_reducible first | apply State.inv_keep)

theorem State.relayDrop_inv {s : State} {p : Nat} (h : s.inv = true) : (State.relayDrop s p).inv = true := by
  unfold State.relayDrop
  with_reducible repeat' first | assumption | extract_lets | apply State.bump_inv | apply State.raise_inv

theorem execTcRelayForward_inv {dt : Nat} {p : Nat} {bytes : List Byte} {residence : List Nat} {s : State} (h : s.inv = true) : OutcomeInv (execTcRelayForward dt p bytes residence s) := by
  unfold execTcRelayForward
  repeat' first | (with_reducible first | assumption | extract_lets | refine outcome_next ?_ | apply State.elapse_inv | apply State.frameTaken_inv | apply State.queueFrame_inv | apply State.relayDrop_inv | refine State.inv_ite (fun _ => ?_) fun _ => ?_ | refine inv_foldl ?_ fun _ _ _ => ?_) | split

theorem State.domainSplit_inv {s : State} (h : s.inv = true) : (State.domainSplit s).inv = true := by
  unfold State.domainSplit
  with_reducible repeat' first | assumption | extract_lets | apply State.raise_inv | apply State.endCause_inv | apply State.modPtp_inv | refine State.inv_ite (fun _ => ?_) fun _ => ?_

theorem State.recordMean_inv {s : State} {second : ℕ} (h : s.inv = true) : (State.recordMean s second).inv = true := by
  unfold State.recordMean
  with_reducible repeat' first | assumption | extract_lets | apply State.setY_inv | apply State.modRef_inv | apply State.formYh_inv | refine State.inv_ite (fun _ => ?_) fun _ => ?_

theorem State.timeSplit_inv {s : State} (h : s.inv = true) : (State.timeSplit s).inv = true := by
  unfold State.timeSplit
  with_reducible repeat' first | assumption | extract_lets | apply State.raise_inv | apply State.endCause_inv | refine State.inv_ite (fun _ => ?_) fun _ => ?_ | apply State.inv_keep

theorem execTimSecondTick_inv {dt : ℕ} {s : State} (h : s.inv = true) : OutcomeInv (execTimSecondTick dt s) := by
  unfold execTimSecondTick
  with_reducible repeat' first | assumption | extract_lets | apply outcome_next | apply State.elapse_inv | apply State.timeSplit_inv | apply State.recordMean_inv | apply State.retireBias_inv | apply State.domainSplit_inv | apply State.modTim_inv | refine State.inv_ite (fun _ => ?_) fun _ => ?_

theorem execChronographStep_inv {dt : Nat} {s : State} (h : s.inv = true) : OutcomeInv (execChronographStep dt s) := by
  unfold execChronographStep
  repeat' first | (with_reducible first | assumption | extract_lets | apply outcome_next | apply State.elapse_inv | apply State.stepTo_inv | apply State.endFreeRuns_inv | apply State.modRef_inv | apply State.timState_inv | apply State.modTim_inv | apply State.finish_inv | refine State.inv_ite (fun _ => ?_) fun _ => ?_) | split | (with_reducible first | dsimp +zetaDelta only)

theorem State.tpEnd_inv {s : State} {p : ℕ} (h : s.inv = true) : (State.tpEnd s p).inv = true := by
  unfold State.tpEnd
  repeat' first | (with_reducible first | assumption | extract_lets | apply State.tpLevel_inv | apply State.modTp_inv | refine State.inv_ite (fun _ => ?_) fun _ => ?_) | split

theorem State.tpTake_inv {s : State} {p : Nat} {busy : Nat} (h : s.inv = true) : (State.tpTake s p busy).inv = true := by
  unfold State.tpTake
  repeat' first | (with_reducible first | assumption | extract_lets | apply State.busy_inv | apply State.modTp_inv | apply State.tpLevel_inv | apply State.wr_inv | refine State.inv_ite (fun _ => ?_) fun _ => ?_) | split

theorem State.tpEdge_inv {s : State} {p : ℕ} (h : s.inv = true) : (State.tpEdge s p).inv = true := by
  unfold State.tpEdge
  repeat' first | (with_reducible first | assumption | apply State.tpFire_inv | refine State.inv_ite (fun _ => ?_) fun _ => ?_) | split

theorem State.tpDue_inv {s : State} {p : Nat} (h : s.inv = true) : (State.tpDue s p).inv = true := by
  unfold State.tpDue
  with_reducible repeat' first | assumption | extract_lets | apply State.tpEdge_inv | apply State.tpEnd_inv | apply State.tpTake_inv

theorem execTimePulseEdge_inv {dt : Nat} {p : Nat} {s : State} (h : s.inv = true) : OutcomeInv (execTimePulseEdge dt p s) := by
  unfold execTimePulseEdge
  with_reducible repeat' first | assumption | extract_lets | refine outcome_next ?_ | apply State.elapse_inv | apply State.tpDue_inv | refine State.inv_ite (fun _ => ?_) fun _ => ?_

theorem State.configDomain_inv {s : State} {d : ℕ} {p : List Byte} (h : s.inv = true) : (State.configDomain s d p).inv = true := by
  unfold State.configDomain
  repeat' first | (with_reducible first | assumption | extract_lets | apply State.wr_inv | apply State.modPtp_inv | apply State.endCause_inv | apply State.entryChanged_inv | refine State.inv_ite (fun _ => ?_) fun _ => ?_) | split

theorem State.configRelay_inv {s : State} {p : List Byte} (h : s.inv = true) : (State.configRelay s p).inv = true := by
  unfold State.configRelay
  with_reducible repeat' first | assumption | extract_lets | apply State.modTim_inv

theorem opTimDomainConfig_inv : opTimDomainConfig.keeps := by
  unfold opTimDomainConfig
  apply OpSpec.keeps_mk
  intro s x p h
  repeat' first | (with_reducible first | assumption | extract_lets | apply Done.ok_inv | apply State.configDomain_inv | apply State.configRelay_inv | refine State.inv_ite (fun _ => ?_) fun _ => ?_)

theorem opTimStatus_inv : opTimStatus.keeps := by
  unfold opTimStatus
  apply OpSpec.keeps_mk
  intro s x p h
  repeat' first | (with_reducible first | assumption | extract_lets | apply Done.ok_inv)

theorem State.tpRegs_inv {s : State} {p : ℕ} {en : Bool} {g : PulseProg} (h : s.inv = true) : (State.tpRegs s p en g).inv = true := by
  unfold State.tpRegs
  with_reducible repeat' first | assumption | apply State.wr_inv | refine inv_foldl ?_ fun _ _ _ => ?_

theorem opTimPulseProgram_inv : opTimPulseProgram.keeps := by
  unfold opTimPulseProgram
  apply OpSpec.keeps_mk
  intro s x p h
  repeat' first | (with_reducible first | assumption | extract_lets | apply State.tpRegs_inv | apply Done.ok_inv | apply State.modTp_inv | apply State.wr_inv | refine State.inv_ite (fun _ => ?_) fun _ => ?_) | split

theorem opTimRestep_inv : opTimRestep.keeps := by
  unfold opTimRestep
  apply OpSpec.keeps_mk
  intro s x p h
  repeat' first | (with_reducible first | assumption | extract_lets | apply Done.err_inv | apply Done.pending_inv | apply State.decideStep_inv | refine State.inv_ite (fun _ => ?_) fun _ => ?_) | split

theorem execTimDomainConfig_inv {dt : ℕ} {rq : Req} {s : State} (h : s.inv = true) : OutcomeInv (execTimDomainConfig dt rq s) := by
  unfold execTimDomainConfig
  with_reducible repeat' first | assumption | apply outcome_next | apply serve_inv | apply opTimDomainConfig_inv

theorem execTimStatus_inv {dt : ℕ} {rq : Req} {s : State} (h : s.inv = true) : OutcomeInv (execTimStatus dt rq s) := by
  unfold execTimStatus
  with_reducible repeat' first | assumption | apply outcome_next | apply serve_inv | apply opTimStatus_inv

theorem execTimPulseProgram_inv {dt : ℕ} {rq : Req} {s : State} (h : s.inv = true) : OutcomeInv (execTimPulseProgram dt rq s) := by
  unfold execTimPulseProgram
  with_reducible repeat' first | assumption | apply outcome_next | apply serve_inv | apply opTimPulseProgram_inv

theorem execTimRestep_inv {dt : ℕ} {rq : Req} {s : State} (h : s.inv = true) : OutcomeInv (execTimRestep dt rq s) := by
  unfold execTimRestep
  with_reducible repeat' first | assumption | apply outcome_next | apply serve_inv | apply opTimRestep_inv

theorem State.timSnap_inv {s : State} (h : s.inv = true) : (State.timSnap s).inv = true := by
  unfold State.timSnap
  with_reducible repeat' first | assumption | apply State.wr_inv | apply State.wr64_inv

theorem State.timSetGo_inv {s : State} (h : s.inv = true) : (State.timSetGo s).inv = true := by
  unfold State.timSetGo
  with_reducible repeat' first | assumption | apply State.stepTo_inv

theorem State.timPulseLoad_inv {s : State} {p : Nat} (h : s.inv = true) : (State.timPulseLoad s p).inv = true := by
  unfold State.timPulseLoad
  with_reducible repeat' first | assumption | extract_lets | apply State.modTp_inv | apply State.raise_inv | apply State.tpFire_inv | apply State.tpLevel_inv | apply State.wr_inv | refine State.inv_ite (fun _ => ?_) fun _ => ?_

end Sys2Proof.Machine
end

