-- ==== Sys2Proof/Laws/InvRefCmds.lean ====
section
/-!
SUPPORT. Every operation of Machine/RefCmds.lean keeps the invariant of the state.
-/
namespace Sys2Proof.Machine
open Sys2Proof

theorem execRefSelectionPass_inv {dt : ℕ} {s : State} (h : s.inv = true) : OutcomeInv (execRefSelectionPass dt s) := by
  unfold execRefSelectionPass
  with_reducible repeat' first | assumption | extract_lets | apply outcome_next | apply State.elapse_inv | apply State.refPass_inv | refine State.inv_ite (fun _ => ?_) fun _ => ?_

theorem State.countLines_inv {s : State} {i : ℕ} {h : ℕ} (hi : s.inv = true) : (State.countLines s i h).inv = true := by
  unfold State.countLines
  with_reducible repeat' first | assumption | extract_lets | apply State.modRefIn_inv

theorem execRefPulseArrival_inv {dt : ℕ} {input : ℕ} {h : ℕ} {freq : Option ℤ} {s : State} (hi : s.inv = true) : OutcomeInv (execRefPulseArrival dt input h freq s) := by
  unfold execRefPulseArrival
  repeat' first | (with_reducible first | assumption | extract_lets | apply outcome_next | apply State.elapse_inv | apply State.countLines_inv | apply State.refSample_inv | apply State.notePulse_inv | refine State.inv_ite (fun _ => ?_) fun _ => ?_) | split

theorem execClk10mPhaseDetector_inv {dt : ℕ} {phase : ℤ} {freq : Option ℤ} {s : State} (h : s.inv = true) : OutcomeInv (execClk10mPhaseDetector dt phase freq s) := by
  unfold execClk10mPhaseDetector
  repeat' first | (with_reducible first | assumption | extract_lets | apply outcome_next | apply State.elapse_inv | apply State.refSample_inv | refine State.inv_ite (fun _ => ?_) fun _ => ?_) | split

theorem execRefQualified_inv {dt : ℕ} {i : ℕ} {s : State} (h : s.inv = true) : OutcomeInv (execRefQualified dt i s) := by
  unfold execRefQualified
  repeat' first | (with_reducible first | assumption | extract_lets | apply outcome_next | apply State.elapse_inv | apply State.raise_inv | apply State.wr_inv | apply State.modRefIn_inv | refine State.inv_ite (fun _ => ?_) fun _ => ?_) | split

theorem execRefLoss_inv {dt : ℕ} {i : ℕ} {s : State} (h : s.inv = true) : OutcomeInv (execRefLoss dt i s) := by
  unfold execRefLoss
  repeat' first | (with_reducible first | assumption | extract_lets | apply outcome_next | apply State.elapse_inv | apply State.refLost_inv | refine State.inv_ite (fun _ => ?_) fun _ => ?_) | split


theorem execFramePulseEdge_inv {dt : Nat} {p : Nat} {s : State} (h : s.inv = true) : OutcomeInv (execFramePulseEdge dt p s) := by
  unfold execFramePulseEdge
  repeat' first | (with_reducible first | assumption | extract_lets | refine outcome_next ?_ | apply State.elapse_inv | apply State.fpLevel_inv | apply State.fpStat_inv | apply State.modFp_inv | refine fst_inv (by assumption) ?_ | refine snd_inv (by assumption) ?_ | refine State.inv_ite (fun _ => ?_) fun _ => ?_) | split | (with_reducible first | apply State.inv_keep)

theorem opRefTableSet_inv : opRefTableSet.keeps := by
  unfold opRefTableSet
  apply OpSpec.keeps_mk
  intro s x p h
  with_reducible repeat' first | assumption | apply Done.ok_inv | apply State.modRef_inv

theorem opRefStatus_inv : opRefStatus.keeps := by
  unfold opRefStatus
  apply OpSpec.keeps_mk
  intro s x p h
  repeat' first | (with_reducible first | assumption | extract_lets | apply State.entryStats_inv | apply Done.ok_inv)

theorem opRefFramepulse_inv : opRefFramepulse.keeps := by
  unfold opRefFramepulse
  apply OpSpec.keeps_mk
  intro s x p h
  repeat' first | (with_reducible first | assumption | extract_lets | apply Done.ok_inv | apply State.fpChanged_inv | apply State.clockChanged_inv | apply State.wr_inv | refine inv_foldl ?_ fun _ _ _ => ?_) | split

theorem execRefTableSet_inv {dt : ℕ} {rq : Req} {s : State} (h : s.inv = true) : OutcomeInv (execRefTableSet dt rq s) := by
  unfold execRefTableSet
  with_reducible repeat' first | assumption | apply outcome_next | apply serve_inv | apply opRefTableSet_inv

theorem execRefStatus_inv {dt : ℕ} {rq : Req} {s : State} (h : s.inv = true) : OutcomeInv (execRefStatus dt rq s) := by
  unfold execRefStatus
  with_reducible repeat' first | assumption | apply outcome_next | apply serve_inv | apply opRefStatus_inv

theorem execRefFramepulse_inv {dt : ℕ} {rq : Req} {s : State} (h : s.inv = true) : OutcomeInv (execRefFramepulse dt rq s) := by
  unfold execRefFramepulse
  with_reducible repeat' first | assumption | apply outcome_next | apply serve_inv | apply opRefFramepulse_inv

end Sys2Proof.Machine
end

