-- ==== Sys2Proof/Laws/InvVltCmds.lean ====
section
/-!
SUPPORT. Every operation of Machine/VltCmds.lean keeps the invariant of the state.
-/
namespace Sys2Proof.Machine
open Sys2Proof

theorem opVltSlotStatus_inv : opVltSlotStatus.keeps := by
  unfold opVltSlotStatus
  apply OpSpec.keeps_mk
  intro s x p h
  with_reducible repeat' first | assumption | extract_lets | apply Done.ok_inv

theorem opVltDerive_inv : opVltDerive.keeps := by
  unfold opVltDerive
  apply OpSpec.keeps_mk
  intro s x p h
  repeat' first | (with_reducible first | assumption | extract_lets | apply Done.err_inv | apply State.refilled_inv | apply State.countSlots_inv | apply State.fillSlot_inv | apply Done.ok_inv | refine State.inv_ite (fun _ => ?_) fun _ => ?_) | split

theorem State.revokeOtp_inv {s : State} {i : ℕ} (h : s.inv = true) : (State.revokeOtp s i).inv = true := by
  unfold State.revokeOtp
  with_reducible repeat' first | assumption | extract_lets | refine State.inv_ite (fun _ => ?_) fun _ => ?_ | apply State.inv_keep

theorem opVltInvalidate_inv : opVltInvalidate.keeps := by
  unfold opVltInvalidate
  apply OpSpec.keeps_mk
  intro s x p h
  repeat' first | (with_reducible first | assumption | extract_lets | apply State.revokeOtp_inv | apply Done.ok_inv | apply State.invalidate_inv | refine State.inv_ite (fun _ => ?_) fun _ => ?_) | split

theorem opVltImport_inv : opVltImport.keeps := by
  unfold opVltImport
  apply OpSpec.keeps_mk
  intro s x p h
  repeat' first | (with_reducible first | assumption | extract_lets | apply Done.err_inv | apply State.bump_inv | apply State.refilled_inv | apply State.countSlots_inv | apply State.fillSlot_inv | apply Done.ok_inv | refine State.inv_ite (fun _ => ?_) fun _ => ?_) | split | (with_reducible first | apply State.inv_keep)

theorem State.bootNonce_inv {s : State} (h : s.inv = true) : (State.bootNonce s).2.inv = true := by
  unfold State.bootNonce
  with_reducible repeat' first | assumption | extract_lets | apply State.draw_inv

theorem State.formKeys_inv {s : State} (h : s.inv = true) : (State.formKeys s).inv = true := by
  unfold State.formKeys
  with_reducible repeat' first | assumption | extract_lets | apply State.bootNonce_inv | refine snd_inv (by assumption) ?_ | apply State.inv_keep

theorem State.loadOtp_inv {bad : List ℕ} {s : State} {r : OtpRecord} (h : s.inv = true) : (State.loadOtp bad s r).inv = true := by
  unfold State.loadOtp
  with_reducible repeat' first | assumption | apply State.raise_inv | apply State.fillSlot_inv | refine State.inv_ite (fun _ => ?_) fun _ => ?_

theorem State.vaultStart_inv {s : State} {bad : List ℕ} (h : s.inv = true) : (State.vaultStart s bad).inv = true := by
  unfold State.vaultStart
  with_reducible repeat' first | assumption | extract_lets | apply State.formKeys_inv | apply State.loadOtp_inv | apply State.setReady_inv | apply State.wr_inv | apply State.countSlots_inv | refine State.inv_ite (fun _ => ?_) fun _ => ?_ | refine inv_foldl ?_ fun _ _ _ => ?_

theorem execVaultPowerUp_inv {dt : ℕ} {tests : Bool} {puf : Bool} {bad : List ℕ} {s : State} (h : s.inv = true) : OutcomeInv (execVaultPowerUp dt tests puf bad s) := by
  unfold execVaultPowerUp
  with_reducible repeat' first | assumption | extract_lets | apply outcome_next | apply State.elapse_inv | apply State.raise_inv | apply State.vaultStart_inv | apply State.wr_inv | refine State.inv_ite (fun _ => ?_) fun _ => ?_

theorem execVaultScrub_inv {dt : ℕ} {hits : List ℕ} {s : State} (h : s.inv = true) : OutcomeInv (execVaultScrub dt hits s) := by
  unfold execVaultScrub
  with_reducible repeat' first | assumption | extract_lets | apply outcome_next | apply State.elapse_inv | apply State.badSlot_inv | apply State.bump_inv | refine State.inv_ite (fun _ => ?_) fun _ => ?_ | refine inv_foldl ?_ fun _ _ _ => ?_

theorem execVltTrngFail_inv {dt : ℕ} {s : State} (h : s.inv = true) : OutcomeInv (execVltTrngFail dt s) := by
  unfold execVltTrngFail
  with_reducible repeat' first | assumption | extract_lets | apply outcome_next | apply State.elapse_inv | apply State.raise_inv | apply State.wr_inv | refine State.inv_ite (fun _ => ?_) fun _ => ?_

theorem execTrngRetry_inv {dt : ℕ} {pass : Bool} {s : State} (h : s.inv = true) : OutcomeInv (execTrngRetry dt pass s) := by
  unfold execTrngRetry
  with_reducible repeat' first | assumption | extract_lets | apply outcome_next | apply State.elapse_inv | apply State.endCause_inv | apply State.wr_inv | refine State.inv_ite (fun _ => ?_) fun _ => ?_

theorem execRevokeSweep_inv {dt : ℕ} {s : State} (h : s.inv = true) : OutcomeInv (execRevokeSweep dt s) := by
  unfold execRevokeSweep
  with_reducible repeat' first | assumption | extract_lets | apply outcome_next | apply State.elapse_inv | apply State.raise_inv | apply State.emptySlot_inv | apply State.countSlots_inv | refine inv_foldl ?_ fun _ _ _ => ?_ | apply State.inv_keep

theorem execVltSlotStatus_inv {dt : ℕ} {rq : Req} {s : State} (h : s.inv = true) : OutcomeInv (execVltSlotStatus dt rq s) := by
  unfold execVltSlotStatus
  with_reducible repeat' first | assumption | apply outcome_next | apply serve_inv | apply opVltSlotStatus_inv

theorem execVltDerive_inv {dt : ℕ} {rq : Req} {s : State} (h : s.inv = true) : OutcomeInv (execVltDerive dt rq s) := by
  unfold execVltDerive
  with_reducible repeat' first | assumption | apply outcome_next | apply serve_inv | apply opVltDerive_inv

theorem execVltInvalidate_inv {dt : ℕ} {rq : Req} {s : State} (h : s.inv = true) : OutcomeInv (execVltInvalidate dt rq s) := by
  unfold execVltInvalidate
  with_reducible repeat' first | assumption | apply outcome_next | apply serve_inv | apply opVltInvalidate_inv

theorem execVltImport_inv {dt : ℕ} {rq : Req} {s : State} (h : s.inv = true) : OutcomeInv (execVltImport dt rq s) := by
  unfold execVltImport
  with_reducible repeat' first | assumption | apply outcome_next | apply serve_inv | apply opVltImport_inv

end Sys2Proof.Machine
end

