-- ==== Sys2Proof/Laws/InvPower.lean ====
section
/-!
SUPPORT. Every operation of Machine/Power.lean keeps the invariant of the state.
-/
namespace Sys2Proof.Machine
open Sys2Proof

theorem State.dropRegs_inv {s : State} {lo hi : ℕ} (h : s.inv = true) : (s.dropRegs lo hi).inv = true :=
  State.inv_mk (RegFile.wf_dropRange lo hi (State.inv_regs h)) (State.inv_mem h) (State.inv_flt h)

theorem State.dropWindow_inv {s : State} {w : ℕ} (h : s.inv = true) : (State.dropWindow s w).inv = true := by
  unfold State.dropWindow
  with_reducible repeat' first | assumption | apply State.dropRegs_inv

theorem State.releaseBurst_inv {s : State} {b : Burst} (h : s.inv = true) : (State.releaseBurst s b).inv = true := by
  unfold State.releaseBurst
  with_reducible repeat' first | assumption | extract_lets | apply State.wr_inv | refine State.inv_ite (fun _ => ?_) fun _ => ?_ | apply State.inv_keepMem

theorem State.respond_inv {s : State} {m : ℕ} {ok : Bool} {bytes : List Byte} (h : s.inv = true) : (State.respond s m ok bytes).inv = true := by
  unfold State.respond
  with_reducible repeat' first | assumption | apply State.inv_keep

theorem State.orphan_inv {s : State} {m : Nat} (h : s.inv = true) : (State.orphan s m).inv = true := by
  unfold State.orphan
  with_reducible repeat' first | assumption | extract_lets | apply State.bump_inv | apply State.raise_inv

theorem State.orphanMaster_inv {s : State} {m : Nat} (h : s.inv = true) : (State.orphanMaster s m).inv = true := by
  unfold State.orphanMaster
  repeat' first | (with_reducible first | assumption | extract_lets | apply State.orphan_inv | apply State.releaseBurst_inv | refine inv_foldl ?_ fun _ _ _ => ?_) | (with_reducible first | apply State.inv_keep | apply State.inv_keepMem)

theorem State.answerLost_inv {s : State} {b : Burst} (h : s.inv = true) : (State.answerLost s b).inv = true := by
  unfold State.answerLost
  with_reducible repeat' first | assumption | extract_lets | apply State.bump_inv | apply State.raise_inv | apply State.respond_inv

theorem State.loseTarget_inv {s : State} {b : Burst} (h : s.inv = true) : (State.loseTarget s b).inv = true := by
  unfold State.loseTarget
  with_reducible repeat' first | assumption | extract_lets | apply State.answerLost_inv | apply State.releaseBurst_inv

theorem State.loseTargets_inv {s : State} {p : Burst → Bool} (h : s.inv = true) : (State.loseTargets s p).inv = true := by
  unfold State.loseTargets
  repeat' first | (with_reducible first | assumption | extract_lets | apply State.answerLost_inv | apply State.loseTarget_inv | refine inv_foldl ?_ fun _ _ _ => ?_) | (with_reducible first | apply State.inv_keep | apply State.inv_keepMem)

theorem State.resetMaster_inv {s : State} {m : ℕ} (h : s.inv = true) : (State.resetMaster s m).inv = true := by
  unfold State.resetMaster
  with_reducible repeat' first | assumption | extract_lets | refine State.inv_ite (fun _ => ?_) fun _ => ?_ | apply State.inv_keepMem

theorem State.selfRefresh_inv {s : State} {ch : ℕ} (h : s.inv = true) : (State.selfRefresh s ch).inv = true := by
  unfold State.selfRefresh
  repeat' first | (with_reducible first | assumption | extract_lets | apply State.wr_inv | apply State.loseDram_inv | refine inv_foldl ?_ fun _ _ _ => ?_) | split

theorem State.failWaits_inv {s : State} {p : Waits → Bool} (h : s.inv = true) : (State.failWaits s p).inv = true := by
  unfold State.failWaits
  with_reducible repeat' first | assumption | apply State.endWait_inv | refine inv_foldl ?_ fun _ _ _ => ?_

theorem State.dropFlows_inv {s : State} {p : Machine.Flow → Bool} (h : s.inv = true) : (State.dropFlows s p).inv = true := by
  unfold State.dropFlows
  with_reducible repeat' first | assumption | apply State.endWait_inv | apply State.removeFlow_inv | refine inv_foldl ?_ fun _ _ _ => ?_

theorem State.loseLaneRoutes_inv {s : State} {l : ℕ} (h : s.inv = true) : (State.loseLaneRoutes s l).inv = true := by
  unfold State.loseLaneRoutes
  with_reducible repeat' first | assumption | apply State.loseRoutes_inv

theorem State.clearLane_inv {s : State} {l : ℕ} (h : s.inv = true) : (State.clearLane s l).inv = true := by
  unfold State.clearLane
  with_reducible repeat' first | assumption | extract_lets | apply State.dropRegs_inv | apply State.loseLaneRoutes_inv

theorem State.laneOff_inv {s : State} {l : Nat} (h : s.inv = true) : (State.laneOff s l).inv = true := by
  unfold State.laneOff
  with_reducible repeat' first | assumption | extract_lets | apply State.clearLane_inv | apply State.putLane_inv | apply State.staveState_inv

theorem State.laneReset_inv {s : State} {l : Nat} (h : s.inv = true) : (State.laneReset s l).inv = true := by
  unfold State.laneReset
  with_reducible repeat' first | assumption | extract_lets | apply State.clearLane_inv | apply State.putLane_inv | apply State.staveState_inv

theorem State.portOff_inv {s : State} {p : ℕ} (h : s.inv = true) : (State.portOff s p).inv = true := by
  unfold State.portOff
  with_reducible repeat' first | assumption | extract_lets | apply State.raise_inv | apply State.linkLost_inv | apply State.dropWindow_inv | refine State.inv_ite (fun _ => ?_) fun _ => ?_ | apply State.inv_keep

theorem State.headOff_inv {s : State} {h : ℕ} (hi : s.inv = true) : (State.headOff s h).inv = true := by
  unfold State.headOff
  with_reducible repeat' first | assumption | extract_lets | apply State.freeBuffer_inv | apply State.freePort_inv | apply State.dropRegs_inv | apply State.engineRegs_inv | apply State.endWait_inv | refine inv_foldl ?_ fun _ _ _ => ?_ | apply State.inv_keep

theorem State.pixelOff_inv {s : State} {e : ℕ} (h : s.inv = true) : (State.pixelOff s e).inv = true := by
  unfold State.pixelOff
  with_reducible repeat' first | assumption | extract_lets | apply State.engineRegs_inv | apply State.inv_keep

theorem State.encodersOff_inv {s : State} (h : s.inv = true) : (State.encodersOff s).inv = true := by
  unfold State.encodersOff
  with_reducible repeat' first | assumption | extract_lets | apply State.endWait_inv | apply State.freeBuffer_inv | apply State.freePort_inv | refine inv_foldl ?_ fun _ _ _ => ?_ | apply State.inv_keep

theorem State.landingGone_inv {s : State} {chan : Nat} (h : s.inv = true) : (State.landingGone s chan).inv = true := by
  unfold State.landingGone
  repeat' first | (with_reducible first | assumption | extract_lets | apply State.freeBuffer_inv | apply State.freePort_inv) | (with_reducible first | apply State.inv_keep)

theorem State.landingOff_inv {s : State} {chan : Nat} (h : s.inv = true) : (State.landingOff s chan).inv = true := by
  unfold State.landingOff
  repeat' first | (with_reducible first | assumption | extract_lets | apply State.releaseChannel_inv | refine fst_inv (by assumption) ?_ | refine snd_inv (by assumption) ?_ | refine State.inv_ite (fun _ => ?_) fun _ => ?_) | split | (with_reducible first | apply State.inv_keep | apply State.inv_keepMem)

theorem State.fabricOff_inv {s : State} (h : s.inv = true) : (State.fabricOff s).inv = true := by
  unfold State.fabricOff
  repeat' first | (with_reducible first | assumption | extract_lets | apply State.dropWindow_inv | apply State.endFreeRuns_inv | apply State.landingOff_inv | apply State.loseRoutes_inv | refine inv_foldl ?_ fun _ _ _ => ?_) | (with_reducible first | apply State.inv_keep)

theorem State.timeOff_inv {was : State} (h : was.inv = true) : (State.timeOff was).inv = true := by
  unfold State.timeOff
  repeat' first | (with_reducible first | assumption | extract_lets | apply State.abandonStep_inv | apply State.dropWindow_inv | apply State.endCause_inv) | (with_reducible first | apply State.inv_keep)

theorem State.refOff_inv {s : State} (h : s.inv = true) : (State.refOff s).inv = true := by
  unfold State.refOff
  repeat' first | (with_reducible first | assumption | extract_lets | apply State.endCause_inv | refine inv_foldl ?_ fun _ _ _ => ?_) | (with_reducible first | apply State.inv_keep)

theorem State.vaultOff_inv {s : State} (h : s.inv = true) : (State.vaultOff s).inv = true := by
  unfold State.vaultOff
  with_reducible repeat' first | assumption | extract_lets | apply State.revokeSessions_inv | apply State.emptySlot_inv | apply State.readFuses_inv | apply State.dropWindow_inv | apply State.endCause_inv | refine inv_foldl ?_ fun _ _ _ => ?_ | apply State.inv_keep

theorem State.dramOff_inv {s : State} {ch : ℕ} (h : s.inv = true) : (State.dramOff s ch).inv = true := by
  unfold State.dramOff
  with_reducible repeat' first | assumption | apply State.dropWindow_inv

theorem State.groupStat_inv {s : State} (h : s.inv = true) : (State.groupStat s).inv = true := by
  unfold State.groupStat
  with_reducible repeat' first | assumption | apply State.wr_inv

theorem State.clearUnit_inv {s : State} {cap : Nat} {i : Nat} (h : s.inv = true) : (State.clearUnit s cap i).inv = true := by
  unfold State.clearUnit
  repeat' first | (with_reducible first | assumption | extract_lets | apply State.dramOff_inv | apply State.dropFlows_inv | apply State.dropRegs_inv | apply State.dropWindow_inv | apply State.encEngineLost_inv | apply State.endDecoder_inv | apply State.fabricOff_inv | apply State.groupStat_inv | apply State.headOff_inv | apply State.landingOff_inv | apply State.laneReset_inv | apply State.pixelOff_inv | apply State.portOff_inv | apply State.refOff_inv | apply State.resetMaster_inv | apply State.timeOff_inv | apply State.vaultOff_inv | refine fst_inv (by assumption) ?_ | refine snd_inv (by assumption) ?_) | split | (with_reducible first | apply State.inv_keep)

theorem State.resetUnit_inv {s : State} {cap : ℕ} {i : ℕ} (h : s.inv = true) : (State.resetUnit s cap i).inv = true := by
  unfold State.resetUnit
  with_reducible repeat' first | assumption | extract_lets | apply State.unready_inv | apply State.resetMaster_inv | apply State.clearUnit_inv | refine State.inv_ite (fun _ => ?_) fun _ => ?_ | apply State.inv_keep

theorem State.controlOff_inv {s : State} (h : s.inv = true) : s.controlOff.inv = true := by
  unfold State.controlOff
  extract_lets keep latch s1 s2
  have h2 : s2.inv = true := inv_foldl (inv_foldl h fun t w ht => State.dropWindow_inv ht) fun t p ht => State.wr_inv ht
  exact State.inv_mk (State.inv_regs h2) (State.inv_mem h2) FaultState.ok_reset

theorem State.domainLoss_inv {s : State} {d : Nat} (h : s.inv = true) : (State.domainLoss s d).inv = true := by
  unfold State.domainLoss
  repeat' first | (with_reducible first | assumption | extract_lets | apply State.controlOff_inv | apply State.dropFlows_inv | apply State.encEngineLost_inv | apply State.encodersOff_inv | apply State.fabricOff_inv | apply State.headOff_inv | apply State.laneOff_inv | apply State.modTim_inv | apply State.pixelOff_inv | apply State.portOff_inv | apply State.refOff_inv | apply State.timeOff_inv | apply State.vaultOff_inv | refine State.inv_ite (fun _ => ?_) fun _ => ?_ | refine inv_foldl ?_ fun _ _ _ => ?_) | (with_reducible first | apply State.inv_keep)

theorem State.powerStat_inv {s : State} (h : s.inv = true) : (State.powerStat s).inv = true := by
  unfold State.powerStat
  with_reducible repeat' first | assumption | apply State.wr_inv

theorem State.domainOff_inv {s : State} {d : Nat} (h : s.inv = true) : (State.domainOff s d).inv = true := by
  unfold State.domainOff
  repeat' first | (with_reducible first | assumption | extract_lets | apply State.domainLoss_inv | apply State.dropWindow_inv | apply State.groupStat_inv | apply State.loseTargets_inv | apply State.orphanMaster_inv | apply State.powerStat_inv | apply State.readFuses_inv | apply State.selfRefresh_inv | apply State.setDomOn_inv | apply State.unready_inv | refine State.inv_ite (fun _ => ?_) fun _ => ?_ | refine inv_foldl ?_ fun _ _ _ => ?_) | split | (with_reducible first | apply State.inv_keep)

theorem State.laneRestore_inv {s : State} {l : ℕ} (h : s.inv = true) : (State.laneRestore s l).inv = true := by
  unfold State.laneRestore
  repeat' first | (with_reducible first | assumption | extract_lets | apply State.applyLaneConfig_inv | apply State.sleepLane_inv) | split | (with_reducible first | dsimp +zetaDelta only)

theorem State.domainOn_inv {s : State} {d : ℕ} (h : s.inv = true) : (State.domainOn s d).inv = true := by
  unfold State.domainOn
  with_reducible repeat' first | assumption | extract_lets | apply State.endCause_inv | apply State.powerStat_inv | apply State.setDomOn_inv | apply State.modTim_inv | apply State.laneRestore_inv | apply State.wr_inv | apply State.readFuses_inv | refine State.inv_ite (fun _ => ?_) fun _ => ?_ | refine inv_foldl ?_ fun _ _ _ => ?_ | apply State.inv_keep

theorem State.setEnables_inv {s : State} {mask : ℕ} (h : s.inv = true) : (State.setEnables s mask).inv = true := by
  unfold State.setEnables
  with_reducible repeat' first | assumption | extract_lets | apply State.wr_inv | apply State.wr64_inv | apply State.unready_inv | refine State.inv_ite (fun _ => ?_) fun _ => ?_ | refine inv_foldl ?_ fun _ _ _ => ?_ | apply State.inv_keep

theorem State.timerStop_inv {s : State} (h : s.inv = true) : (State.timerStop s).inv = true := by
  unfold State.timerStop
  with_reducible repeat' first | assumption | extract_lets | apply State.wr_inv | apply State.inv_keep

theorem State.timerLoad_inv {s : State} {ms : ℕ} (h : s.inv = true) : (State.timerLoad s ms).inv = true := by
  unfold State.timerLoad
  with_reducible repeat' first | assumption | extract_lets | apply State.wr_inv | refine State.inv_ite (fun _ => ?_) fun _ => ?_ | apply State.inv_keep

theorem State.wakeNow_inv {s : State} {mask : ℕ} (h : s.inv = true) : (State.wakeNow s mask).inv = true := by
  unfold State.wakeNow
  with_reducible repeat' first | assumption | extract_lets | apply State.wr_inv | apply State.timerStop_inv | apply State.wr64_inv | apply State.bump_inv | apply State.setEnables_inv | apply State.raise_inv | refine State.inv_ite (fun _ => ?_) fun _ => ?_ | apply State.inv_keep

theorem State.wake_inv {s : State} {mask : ℕ} (h : s.inv = true) : (State.wake s mask).inv = true := by
  unfold State.wake
  with_reducible repeat' first | assumption | extract_lets | apply State.wakeNow_inv | refine State.inv_ite (fun _ => ?_) fun _ => ?_ | apply State.inv_keep

theorem State.wakeWaiting_inv {s : State} (h : s.inv = true) : (State.wakeWaiting s).inv = true := by
  unfold State.wakeWaiting
  repeat' first | (with_reducible first | assumption | extract_lets | apply State.wakeNow_inv | refine State.inv_ite (fun _ => ?_) fun _ => ?_) | split | (with_reducible first | apply State.inv_keep)

end Sys2Proof.Machine
end

