-- ==== Sys2Proof/Laws/InvSkidway.lean ====
section
/-!
SUPPORT. Machine/Skidway.lean keeps the invariant of the state.
-/
namespace Sys2Proof.Machine

theorem State.linkEcc_inv {s : State} {n : ℕ} {fin : BurstEnd} (h : s.inv = true) : (State.linkEcc s n fin).inv = true := by
  unfold State.linkEcc
  repeat' first | (with_reducible first | assumption | apply State.raise_inv | apply State.bump_inv) | split

theorem State.holdBurst_inv {s : State} {b : Burst} (h : s.inv = true) : (State.holdBurst s b).inv = true := by
  unfold State.holdBurst
  with_reducible repeat' first | assumption | extract_lets | apply State.wr_inv | refine State.inv_ite (fun _ => ?_) fun _ => ?_ | apply State.inv_keepMem

theorem State.endBurst_inv {s : State} {b : Burst} (h : s.inv = true) : (State.endBurst s b).inv = true := by
  unfold State.endBurst
  with_reducible repeat' first | assumption | apply State.releaseBurst_inv | refine State.inv_ite (fun _ => ?_) fun _ => ?_

theorem State.burstData_inv {s : State} {b : Burst} {addr : ℕ} {len : ℕ} {data : Option (List Byte)} {fin : BurstEnd} (h : s.inv = true) : (State.burstData s b addr len data fin).inv = true := by
  unfold State.burstData
  repeat' first | (with_reducible first | assumption | apply State.holdBurst_inv | apply State.memWrite_inv | apply State.respond_inv | apply State.endBurst_inv) | split

theorem State.parked_inv {s : State} {t : Nat} {m : Nat} (h : s.inv = true) : (State.parked s t m).inv = true := by
  unfold State.parked
  repeat' first | (with_reducible first | assumption | extract_lets | apply State.served_inv) | (with_reducible first | apply State.inv_keep | apply State.inv_keepMem)

theorem State.tookTurn_inv {s : State} {ch : Nat} (h : s.inv = true) : (State.tookTurn s ch).inv = true := by
  unfold State.tookTurn
  repeat' first | (with_reducible first | assumption | extract_lets) | (with_reducible first | apply State.inv_keep | apply State.inv_keepMem)

theorem State.serveDram_inv {s : State} {b : Burst} {addr : Nat} {len : Nat} {data : Option (List Byte)} {fin : BurstEnd} (h : s.inv = true) : (State.serveDram s b addr len data fin).inv = true := by
  unfold State.serveDram
  with_reducible repeat' first | assumption | extract_lets | apply State.burstData_inv | apply State.holdBurst_inv | apply State.linkEcc_inv | apply State.parked_inv | apply State.tookTurn_inv | refine State.inv_ite (fun _ => ?_) fun _ => ?_

theorem State.grantOne_inv {s : State} {ch : Nat} (h : s.inv = true) : (State.grantOne s ch).inv = true := by
  unfold State.grantOne
  repeat' first | (with_reducible first | assumption | extract_lets | apply State.serveDram_inv | refine fst_inv (by assumption) ?_ | refine snd_inv (by assumption) ?_ | refine State.inv_ite (fun _ => ?_) fun _ => ?_) | split | (with_reducible first | apply State.inv_keep | apply State.inv_keepMem)

theorem State.grantAll_inv {s : State} (h : s.inv = true) : (State.grantAll s).inv = true := by
  unfold State.grantAll
  repeat' first | (with_reducible first | assumption | extract_lets | apply State.grantOne_inv | refine inv_foldl ?_ fun _ _ _ => ?_) | split

theorem State.awaitEntry_inv {s : State} {c : Claim} (h : s.inv = true) : (State.awaitEntry s c).inv = true := by
  unfold State.awaitEntry
  repeat' first | (with_reducible first | assumption | extract_lets | apply State.bump_inv | apply State.raise_inv) | (with_reducible first | apply State.inv_keep | apply State.inv_keepMem)

end Sys2Proof.Machine
end

