-- ==== Sys2Proof/Laws/InvMemCmds.lean ====
section
/-!
SUPPORT. Every operation of Machine/MemCmds.lean keeps the invariant of the state.
-/
namespace Sys2Proof.Machine
open Sys2Proof

theorem State.loseRegion_inv {s : State} {r : ℕ} (h : s.inv = true) : (State.loseRegion s r).inv = true := by
  unfold State.loseRegion
  repeat' first | (with_reducible first | assumption | extract_lets | apply State.loseDram_inv | refine inv_foldl ?_ fun _ _ _ => ?_) | split

theorem State.refreshSets_inv {s : State} (h : s.inv = true) : (State.refreshSets s).inv = true := by
  unfold State.refreshSets
  with_reducible repeat' first | assumption | extract_lets | apply State.wr_inv | apply State.selfRefresh_inv | apply State.wr64_inv | refine State.inv_ite (fun _ => ?_) fun _ => ?_ | refine inv_foldl ?_ fun _ _ _ => ?_

theorem State.regionChanges_inv {old new : State} (hold : old.inv = true) (hnew : new.inv = true) :
    (State.regionChanges old new).inv = true := by
  unfold State.regionChanges
  refine inv_foldl hnew fun t r ht => State.inv_ite (fun _ => ?_) fun _ => ht
  extract_lets t1
  have h1 : t1.inv = true := State.inv_ite (fun _ => State.loseRegion_inv ht) fun _ => ht
  refine State.inv_ite (fun _ => ?_) fun _ => h1
  exact State.inv_mk (State.inv_regs h1)
    (State.inv_mem (State.loseRegion_inv (State.inv_mk (State.inv_regs hold) (State.inv_mem h1) (State.inv_flt hold)))) (State.inv_flt h1)

theorem State.applyMap_inv {s : State} {p : List Byte} {o : ℕ} (h : s.inv = true) : (State.applyMap s p o).inv = true := by
  unfold State.applyMap
  with_reducible repeat' first | assumption | extract_lets | apply State.wr_inv | apply State.wr64_inv | refine State.inv_ite (fun _ => ?_) fun _ => ?_

theorem State.mapAll_inv {s : State} {p : List Byte} {a2 : ℕ} {a3 : ℕ} (h : s.inv = true) : (State.mapAll s p a2 a3).inv = true := by
  induction a2 generalizing s a3 with
  | zero => exact h
  | succ n ih =>
    unfold State.mapAll
    repeat' first | (with_reducible first | assumption | apply ih | extract_lets | apply State.applyMap_inv)

theorem opMemMapSet_inv : opMemMapSet.keeps := by
  unfold opMemMapSet
  apply OpSpec.keeps_mk
  intro s x p h
  repeat' first | (with_reducible first | assumption | extract_lets | apply State.regionChanges_inv | apply State.mapAll_inv | apply Done.ok_inv | apply State.storeChanged_inv | apply State.refreshSets_inv)

theorem opMemPasrSet_inv : opMemPasrSet.keeps := by
  unfold opMemPasrSet
  apply OpSpec.keeps_mk
  intro s x p h
  with_reducible repeat' first | assumption | extract_lets | apply Done.ok_inv | apply State.wr_inv

theorem State.startTraining_inv {s : State} {x : Ctx} {p : List Byte} {cs : List ℕ} {absent off : Option ℕ} (h : s.inv = true) :
    (s.startTraining x p cs absent off).state.inv = true := by
  unfold State.startTraining
  split
  · exact h
  · split
    · exact Done.ok_inv h
    · split
      · exact h
      · split
        · exact h
        · exact Done.pending_inv (State.inv_keepMem h)

theorem opMemTrain_inv : opMemTrain.keeps := by
  intro s x p h
  unfold opMemTrain
  dsimp only
  exact State.startTraining_inv h

theorem State.trained_inv {s : State} {ch : ℕ} {pass : Bool} (h : s.inv = true) : (State.trained s ch pass).inv = true := by
  unfold State.trained
  with_reducible repeat' first | assumption | apply State.setReady_inv | apply State.endCause_inv | apply State.wr_inv | apply State.raise_inv | apply State.unready_inv | refine State.inv_ite (fun _ => ?_) fun _ => ?_

theorem State.keepResult_inv {s : State} {r : ℕ × ℕ × ℕ × ℕ × ℕ} (h : s.inv = true) : (State.keepResult s r).inv = true := by
  unfold State.keepResult
  with_reducible repeat' first | assumption | extract_lets | apply State.inv_keepMem

theorem execDramTraining_inv {dt : ℕ} {g : ℕ} {dens : List (ℕ × ℕ)} {res : List (ℕ × ℕ × ℕ × ℕ × ℕ)} {s : State} (h : s.inv = true) : OutcomeInv (execDramTraining dt g dens res s) := by
  unfold execDramTraining
  with_reducible repeat' first | assumption | extract_lets | apply outcome_next | apply State.elapse_inv | apply State.wr_inv | apply State.keepResult_inv | apply State.trained_inv | apply State.settle_inv | apply State.refreshSets_inv | apply State.groupStat_inv | refine State.inv_ite (fun _ => ?_) fun _ => ?_ | refine inv_foldl ?_ fun _ _ _ => ?_

theorem execMemTrainDone_inv {dt : ℕ} {res : List (ℕ × ℕ × ℕ × ℕ × ℕ)} {s : State} (h : s.inv = true) : OutcomeInv (execMemTrainDone dt res s) := by
  unfold execMemTrainDone
  repeat' first | (with_reducible first | assumption | extract_lets | apply outcome_next | apply State.elapse_inv | apply State.keepResult_inv | apply State.trained_inv | apply State.loseDram_inv | apply State.finish_inv | apply State.refreshSets_inv | apply State.groupStat_inv | refine State.inv_ite (fun _ => ?_) fun _ => ?_ | refine inv_foldl ?_ fun _ _ _ => ?_) | split | (with_reducible first | apply State.inv_keepMem)

theorem execDramTracking_inv {dt : ℕ} {n : ℕ} {drift : ℤ} {s : State} (h : s.inv = true) : OutcomeInv (execDramTracking dt n drift s) := by
  unfold execDramTracking
  with_reducible repeat' first | assumption | extract_lets | apply outcome_next | apply State.elapse_inv | apply State.bump_inv | apply State.raise_inv | refine State.inv_ite (fun _ => ?_) fun _ => ?_

theorem execDramRefreshCheck_inv {dt : ℕ} {n : ℕ} {rate : ℕ} {s : State} (h : s.inv = true) : OutcomeInv (execDramRefreshCheck dt n rate s) := by
  unfold execDramRefreshCheck
  with_reducible repeat' first | assumption | extract_lets | apply outcome_next | apply State.elapse_inv | apply State.wr_inv | apply State.endCause_inv | apply State.raise_inv | refine State.inv_ite (fun _ => ?_) fun _ => ?_

theorem State.patGo_inv {s : State} {n : ℕ} (h : s.inv = true) : (State.patGo s n).inv = true := by
  unfold State.patGo
  with_reducible repeat' first | assumption | extract_lets | apply State.wr_inv | apply State.loseDram_inv | refine State.inv_ite (fun _ => ?_) fun _ => ?_

theorem execDmcPatDone_inv {dt : ℕ} {n : ℕ} {errors : ℕ} {lanes : ℕ} {s : State} (h : s.inv = true) : OutcomeInv (execDmcPatDone dt n errors lanes s) := by
  unfold execDmcPatDone
  with_reducible repeat' first | assumption | extract_lets | apply outcome_next | apply State.elapse_inv | apply State.wr_inv | refine State.inv_ite (fun _ => ?_) fun _ => ?_

theorem execMasterResetDrain_inv {dt : Nat} {m : Nat} {s : State} (h : s.inv = true) : OutcomeInv (execMasterResetDrain dt m s) := by
  unfold execMasterResetDrain
  repeat' first | (with_reducible first | assumption | extract_lets | refine outcome_next ?_ | apply State.elapse_inv | apply State.grantAll_inv | apply State.orphanMaster_inv | refine State.inv_ite (fun _ => ?_) fun _ => ?_) | (with_reducible first | apply State.inv_keep | apply State.inv_keepMem)

theorem execUnitReady_inv {dt : ℕ} {cap : ℕ} {i : ℕ} {s : State} (h : s.inv = true) : OutcomeInv (execUnitReady dt cap i s) := by
  unfold execUnitReady
  with_reducible repeat' first | assumption | extract_lets | apply outcome_next | apply State.elapse_inv | apply State.settle_inv | apply State.setReady_inv | refine State.inv_ite (fun _ => ?_) fun _ => ?_

theorem execMemMapSet_inv {dt : ℕ} {rq : Req} {s : State} (h : s.inv = true) : OutcomeInv (execMemMapSet dt rq s) := by
  unfold execMemMapSet
  with_reducible repeat' first | assumption | apply outcome_next | apply serve_inv | apply opMemMapSet_inv

theorem execMemPasrSet_inv {dt : ℕ} {rq : Req} {s : State} (h : s.inv = true) : OutcomeInv (execMemPasrSet dt rq s) := by
  unfold execMemPasrSet
  with_reducible repeat' first | assumption | apply outcome_next | apply serve_inv | apply opMemPasrSet_inv

theorem execMemTrain_inv {dt : ℕ} {rq : Req} {s : State} (h : s.inv = true) : OutcomeInv (execMemTrain dt rq s) := by
  unfold execMemTrain
  with_reducible repeat' first | assumption | apply outcome_next | apply serve_inv | apply opMemTrain_inv

end Sys2Proof.Machine
end

