-- ==== Sys2Proof/Laws/InvTwnCmds.lean ====
section
/-!
SUPPORT. Every operation of Machine/TwnCmds.lean keeps the invariant of the state.
-/
namespace Sys2Proof.Machine
open Sys2Proof

theorem State.dropQueued_inv {s : State} {status : ℕ} (h : s.inv = true) : (State.dropQueued s status).inv = true := by
  unfold State.dropQueued
  with_reducible repeat' first | assumption | extract_lets | apply State.answer_inv | refine inv_foldl ?_ fun _ _ _ => ?_ | apply State.inv_keep

theorem State.leaseGates_inv {s : State} (h : s.inv = true) : (State.leaseGates s).inv = true := by
  unfold State.leaseGates
  with_reducible repeat' first | assumption | apply State.pin_inv | apply State.wr_inv

theorem State.twinEvent_inv {s : State} {code : ℕ} {obj : ℕ} (h : s.inv = true) : (State.twinEvent s code obj).inv = true := by
  unfold State.twinEvent
  with_reducible repeat' first | assumption | apply State.raise_inv | refine State.inv_ite (fun _ => ?_) fun _ => ?_

theorem State.endLeaseWaits_inv {s : State} (h : s.inv = true) : (State.endLeaseWaits s).inv = true := by
  unfold State.endLeaseWaits
  repeat' first | (with_reducible first | assumption | apply State.endWait_inv | refine inv_foldl ?_ fun _ _ _ => ?_)

theorem State.lateLeaseWaits_inv {s : State} (h : s.inv = true) : (State.lateLeaseWaits s).inv = true := by
  unfold State.lateLeaseWaits
  repeat' first | (with_reducible first | assumption | apply State.endWait_inv | refine State.inv_ite (fun _ => ?_) fun _ => ?_ | refine inv_foldl ?_ fun _ _ _ => ?_)

theorem State.setRole_inv {s : State} {r : ℕ} (h : s.inv = true) : (State.setRole s r).inv = true := by
  unfold State.setRole
  with_reducible repeat' first | assumption | extract_lets | apply State.leaseGates_inv | apply State.wr_inv | apply State.endCause_inv | apply State.endTests_inv | apply State.endLeaseWaits_inv | apply State.publish_inv | refine State.inv_ite (fun _ => ?_) fun _ => ?_ | apply State.inv_keepFlt

theorem State.endLease_inv {s : State} {role : ℕ} {status : ℕ} (h : s.inv = true) : (State.endLease s role status).inv = true := by
  unfold State.endLease
  with_reducible repeat' first | assumption | extract_lets | apply State.wr64_inv | apply State.dropQueued_inv | apply State.setRole_inv | apply State.inv_keep

theorem State.setClaim_inv {s : State} {epoch : ℕ} (h : s.inv = true) : (State.setClaim s epoch).inv = true := by
  unfold State.setClaim
  with_reducible repeat' first | assumption | extract_lets | apply State.wr_inv | apply State.inv_keep

theorem State.makeClaim_inv {s : State} (h : s.inv = true) : (State.makeClaim s).inv = true := by
  unfold State.makeClaim
  with_reducible repeat' first | assumption | apply State.setClaim_inv | refine State.inv_ite (fun _ => ?_) fun _ => ?_

theorem State.claimConflict_inv {s : State} (h : s.inv = true) : (State.claimConflict s).inv = true := by
  unfold State.claimConflict
  with_reducible repeat' first | assumption | extract_lets | apply State.twinEvent_inv | apply State.setClaim_inv | apply State.wr_inv | refine State.inv_ite (fun _ => ?_) fun _ => ?_ | refine inv_foldl ?_ fun _ _ _ => ?_

theorem State.armLease_inv {s : State} {mark : ℕ} {v : ℕ} {epoch : ℕ} (h : s.inv = true) : (State.armLease s mark v epoch).inv = true := by
  unfold State.armLease
  with_reducible repeat' first | assumption | extract_lets | apply State.wr64_inv | apply State.makeClaim_inv | apply State.setRole_inv | refine State.inv_ite (fun _ => ?_) fun _ => ?_ | apply State.inv_keep

theorem State.loseLease_inv {s : State} (h : s.inv = true) : (State.loseLease s).inv = true := by
  unfold State.loseLease
  with_reducible repeat' first | assumption | apply State.twinEvent_inv | apply State.endLease_inv | refine State.inv_ite (fun _ => ?_) fun _ => ?_

theorem State.countUnanswered_inv {s : State} (h : s.inv = true) : (State.countUnanswered s).inv = true := by
  unfold State.countUnanswered
  repeat' first | (with_reducible first | assumption | extract_lets | apply State.twinEvent_inv | apply State.wr_inv | refine State.inv_ite (fun _ => ?_) fun _ => ?_) | split | (with_reducible first | apply State.inv_keep)

theorem State.lookoutOut_inv {s : State} {bytes : List Byte} (h : s.inv = true) : (State.lookoutOut s bytes).inv = true := by
  unfold State.lookoutOut
  exact State.sendDatagram_inv (State.sendDatagram_inv (State.inv_keep h))

theorem State.lookoutSend_inv {s0 : State} {type : ℕ} (h : s0.inv = true) : (State.lookoutSend s0 type).inv = true := by
  unfold State.lookoutSend
  with_reducible repeat' first | assumption | extract_lets | apply State.countUnanswered_inv | apply State.lookoutOut_inv | apply State.wr_inv | refine State.inv_ite (fun _ => ?_) fun _ => ?_ | apply State.inv_keep

theorem execLookoutRequestSend_inv {dt : ℕ} {s : State} (h : s.inv = true) : OutcomeInv (execLookoutRequestSend dt s) := by
  unfold execLookoutRequestSend
  repeat' first | (with_reducible first | assumption | extract_lets | apply outcome_next | apply State.elapse_inv | apply State.lateLeaseWaits_inv | apply State.lookoutSend_inv | refine State.inv_ite (fun _ => ?_) fun _ => ?_) | split

theorem State.releaseLease_inv {s : State} (h : s.inv = true) : (State.releaseLease s).inv = true := by
  unfold State.releaseLease
  with_reducible repeat' first | assumption | apply State.endLease_inv | apply State.lookoutSend_inv | refine State.inv_ite (fun _ => ?_) fun _ => ?_

theorem State.requestAnswered_inv {s : State} {r : LookoutReq} (h : s.inv = true) : (State.requestAnswered s r).inv = true := by
  unfold State.requestAnswered
  with_reducible repeat' first | assumption | extract_lets | apply State.wr_inv | apply State.endCause_inv | refine State.inv_ite (fun _ => ?_) fun _ => ?_ | apply State.inv_keep

theorem State.takeGrant_inv {s : State} {r : LookoutReq} {b : List Byte} (h : s.inv = true) : (State.takeGrant s r b).inv = true := by
  unfold State.takeGrant
  with_reducible repeat' first | assumption | extract_lets | apply State.lookoutOut_inv | apply State.wr_inv | apply State.armLease_inv | refine State.inv_ite (fun _ => ?_) fun _ => ?_ | apply State.inv_keep

theorem State.takeDeny_inv {s : State} {r : LookoutReq} (h : s.inv = true) : (State.takeDeny s r).inv = true := by
  unfold State.takeDeny
  with_reducible repeat' first | assumption | apply State.loseLease_inv | apply State.setRole_inv | refine State.inv_ite (fun _ => ?_) fun _ => ?_

theorem execLookoutReplyReceive_inv {dt : ℕ} {bytes : List Byte} {s : State} (h : s.inv = true) : OutcomeInv (execLookoutReplyReceive dt bytes s) := by
  unfold execLookoutReplyReceive
  repeat' first | (with_reducible first | assumption | extract_lets | apply outcome_next | apply State.elapse_inv | apply State.requestAnswered_inv | apply State.takeGrant_inv | apply State.takeDeny_inv | refine State.inv_ite (fun _ => ?_) fun _ => ?_) | split

theorem execLeaseExpiry_inv {dt : ℕ} {s : State} (h : s.inv = true) : OutcomeInv (execLeaseExpiry dt s) := by
  unfold execLeaseExpiry
  repeat' first | (with_reducible first | assumption | extract_lets | apply outcome_next | apply State.elapse_inv | apply State.loseLease_inv | refine State.inv_ite (fun _ => ?_) fun _ => ?_) | split

theorem execLkoFenceLow_inv {dt : ℕ} {s : State} (h : s.inv = true) : OutcomeInv (execLkoFenceLow dt s) := by
  unfold execLkoFenceLow
  with_reducible repeat' first | assumption | extract_lets | apply outcome_next | apply State.twinEvent_inv | apply State.wr_inv | apply State.elapse_inv | apply State.endLease_inv | apply State.dropQueued_inv | apply State.leaseGates_inv | refine State.inv_ite (fun _ => ?_) fun _ => ?_

theorem execLkoFenceHigh_inv {dt : ℕ} {s : State} (h : s.inv = true) : OutcomeInv (execLkoFenceHigh dt s) := by
  unfold execLkoFenceHigh
  with_reducible repeat' first | assumption | apply outcome_next | apply State.leaseGates_inv | apply State.endCause_inv | apply State.wr_inv | apply State.elapse_inv

theorem State.leaseArmGo_inv {s : State} {v : ℕ} (h : s.inv = true) : (State.leaseArmGo s v).inv = true := by
  unfold State.leaseArmGo
  with_reducible repeat' first | assumption | apply State.armLease_inv

theorem State.twinSendOn_inv {s : State} {l : ℕ} {type : ℕ} {body : List Byte} (h : s.inv = true) : (State.twinSendOn s l type body).inv = true := by
  unfold State.twinSendOn
  with_reducible repeat' first | assumption | extract_lets | apply State.modLane_inv | refine State.inv_ite (fun _ => ?_) fun _ => ?_ | apply State.inv_keep

theorem execHeartbeatSend_inv {dt : ℕ} {s : State} (h : s.inv = true) : OutcomeInv (execHeartbeatSend dt s) := by
  unfold execHeartbeatSend
  with_reducible repeat' first | assumption | extract_lets | apply outcome_next | apply State.elapse_inv | apply State.twinSendOn_inv | refine State.inv_ite (fun _ => ?_) fun _ => ?_ | refine inv_foldl ?_ fun _ _ _ => ?_ | apply State.inv_keep

theorem State.noteRevert_inv {s : State} (h : s.inv = true) : (State.noteRevert s).inv = true := by
  unfold State.noteRevert
  with_reducible repeat' first | assumption | extract_lets | refine State.inv_ite (fun _ => ?_) fun _ => ?_ | apply State.inv_keep

theorem State.noteGap_inv {s : State} (h : s.inv = true) : (State.noteGap s).inv = true := by
  unfold State.noteGap
  with_reducible repeat' first | assumption | extract_lets | refine State.inv_ite (fun _ => ?_) fun _ => ?_ | apply State.inv_keep

theorem State.tryConverge_inv {s : State} (h : s.inv = true) : (State.tryConverge s).inv = true := by
  unfold State.tryConverge
  with_reducible repeat' first | assumption | extract_lets | apply State.wr_inv | refine State.inv_ite (fun _ => ?_) fun _ => ?_ | apply State.inv_keep

theorem execHeartbeatReceive_inv {dt : ℕ} {bytes : List Byte} {s : State} (h : s.inv = true) : OutcomeInv (execHeartbeatReceive dt bytes s) := by
  unfold execHeartbeatReceive
  repeat' first | (with_reducible first | assumption | extract_lets | apply outcome_next | apply State.twinTake_inv | apply State.elapse_inv | apply State.wr_inv | apply State.noteRevert_inv | apply State.tryConverge_inv | apply State.noteGap_inv | apply State.makeClaim_inv | apply State.claimConflict_inv | apply State.lookoutSend_inv | refine fst_inv (by assumption) ?_ | refine State.inv_ite (fun _ => ?_) fun _ => ?_) | split | (with_reducible first | apply State.inv_keep)

theorem State.partnerComes_inv {s : State} (h : s.inv = true) : (State.partnerComes s).inv = true := by
  unfold State.partnerComes
  with_reducible repeat' first | assumption | extract_lets | apply State.makeClaim_inv | apply State.claimConflict_inv | apply State.endCause_inv | apply State.wr_inv | apply State.startResync_inv | refine State.inv_ite (fun _ => ?_) fun _ => ?_

theorem State.laneCheck_inv {s : State} (h : s.inv = true) : (State.laneCheck s).inv = true := by
  unfold State.laneCheck
  with_reducible repeat' first | assumption | extract_lets | apply State.endCause_inv | apply State.raise_inv | refine State.inv_ite (fun _ => ?_) fun _ => ?_

theorem State.partnerInterval_inv {s : State} (h : s.inv = true) : (State.partnerInterval s).inv = true := by
  unfold State.partnerInterval
  with_reducible repeat' first | assumption | extract_lets | apply State.bump_inv | apply State.makeClaim_inv | apply State.raise_inv | apply State.wr_inv | apply State.partnerComes_inv | refine State.inv_ite (fun _ => ?_) fun _ => ?_ | apply State.inv_keep

theorem execHeartbeatIntervalEnd_inv {dt : ℕ} {s : State} (h : s.inv = true) : OutcomeInv (execHeartbeatIntervalEnd dt s) := by
  unfold execHeartbeatIntervalEnd
  with_reducible repeat' first | assumption | extract_lets | apply outcome_next | apply State.elapse_inv | apply State.laneCheck_inv | apply State.partnerInterval_inv | apply State.startResync_inv | apply State.lateLeaseWaits_inv | apply State.noteRevert_inv | refine State.inv_ite (fun _ => ?_) fun _ => ?_

theorem execOuthashSend_inv {dt : ℕ} {g : ℕ} {s : State} (h : s.inv = true) : OutcomeInv (execOuthashSend dt g s) := by
  unfold execOuthashSend
  with_reducible repeat' first | assumption | extract_lets | apply outcome_next | apply State.elapse_inv | apply State.twinSend_inv | refine State.inv_ite (fun _ => ?_) fun _ => ?_ | refine inv_foldl ?_ fun _ _ _ => ?_ | apply State.inv_keep

theorem State.compareHash_inv {s : State} {g : ℕ} {frame : ℕ} {slot : ℕ} {hash : ℕ} (h : s.inv = true) : (State.compareHash s g frame slot hash).inv = true := by
  unfold State.compareHash
  repeat' first | (with_reducible first | assumption | extract_lets | apply State.twinDiverge_inv | apply State.bump_inv | refine State.inv_ite (fun _ => ?_) fun _ => ?_) | split | (with_reducible first | apply State.inv_keep)

theorem execOuthashReceive_inv {dt : ℕ} {bytes : List Byte} {s : State} (h : s.inv = true) : OutcomeInv (execOuthashReceive dt bytes s) := by
  unfold execOuthashReceive
  repeat' first | (with_reducible first | assumption | extract_lets | apply outcome_next | apply State.twinTake_inv | apply State.elapse_inv | apply State.pruneHashes_inv | apply State.compareHash_inv | refine fst_inv (by assumption) ?_ | refine State.inv_ite (fun _ => ?_) fun _ => ?_ | refine inv_foldl ?_ fun _ _ _ => ?_) | split

theorem execHealthSend_inv {dt : ℕ} {s : State} (h : s.inv = true) : OutcomeInv (execHealthSend dt s) := by
  unfold execHealthSend
  with_reducible repeat' first | assumption | extract_lets | apply outcome_next | apply State.elapse_inv | apply State.twinSend_inv | refine State.inv_ite (fun _ => ?_) fun _ => ?_ | apply State.inv_keep

theorem execHealthReceive_inv {dt : ℕ} {bytes : List Byte} {s : State} (h : s.inv = true) : OutcomeInv (execHealthReceive dt bytes s) := by
  unfold execHealthReceive
  repeat' first | (with_reducible first | assumption | extract_lets | apply outcome_next | apply State.twinTake_inv | apply State.elapse_inv | refine fst_inv (by assumption) ?_) | split | (with_reducible first | apply State.inv_keep)

theorem execMirrorReplyReceive_inv {dt : ℕ} {bytes : List Byte} {s : State} (h : s.inv = true) : OutcomeInv (execMirrorReplyReceive dt bytes s) := by
  unfold execMirrorReplyReceive
  with_reducible repeat' first | assumption | extract_lets | apply outcome_next | apply State.elapse_inv | refine State.inv_ite (fun _ => ?_) fun _ => ?_ | apply State.inv_keep

theorem execRevertHoldoffExpiry_inv {dt : ℕ} {s : State} (h : s.inv = true) : OutcomeInv (execRevertHoldoffExpiry dt s) := by
  unfold execRevertHoldoffExpiry
  repeat' first | (with_reducible first | assumption | extract_lets | apply outcome_next | apply State.noteRevert_inv | apply State.elapse_inv | apply State.twinSend_inv | refine State.inv_ite (fun _ => ?_) fun _ => ?_) | split | (with_reducible first | apply State.inv_keep)

theorem execRevertReceive_inv {dt : ℕ} {bytes : List Byte} {s : State} (h : s.inv = true) : OutcomeInv (execRevertReceive dt bytes s) := by
  unfold execRevertReceive
  with_reducible repeat' first | assumption | extract_lets | apply outcome_next | apply State.twinTake_inv | apply State.elapse_inv | apply State.releaseLease_inv | refine fst_inv (by assumption) ?_ | refine State.inv_ite (fun _ => ?_) fun _ => ?_

theorem execTwinGenGap_inv {dt : ℕ} {s : State} (h : s.inv = true) : OutcomeInv (execTwinGenGap dt s) := by
  unfold execTwinGenGap
  repeat' first | (with_reducible first | assumption | extract_lets | apply outcome_next | apply State.noteGap_inv | apply State.elapse_inv | apply State.startResync_inv | apply State.raise_inv | refine State.inv_ite (fun _ => ?_) fun _ => ?_) | split

theorem execResyncConvergeEnd_inv {dt : ℕ} {s : State} (h : s.inv = true) : OutcomeInv (execResyncConvergeEnd dt s) := by
  unfold execResyncConvergeEnd
  with_reducible repeat' first | assumption | extract_lets | apply outcome_next | apply State.elapse_inv | apply State.endWait_inv | apply State.wr_inv | refine State.inv_ite (fun _ => ?_) fun _ => ?_

theorem execTwinResyncFail_inv {dt : ℕ} {s : State} (h : s.inv = true) : OutcomeInv (execTwinResyncFail dt s) := by
  unfold execTwinResyncFail
  with_reducible repeat' first | assumption | extract_lets | apply outcome_next | apply State.elapse_inv | apply State.resyncFail_inv | refine State.inv_ite (fun _ => ?_) fun _ => ?_

theorem execResyncRetry_inv {dt : ℕ} {s : State} (h : s.inv = true) : OutcomeInv (execResyncRetry dt s) := by
  unfold execResyncRetry
  with_reducible repeat' first | assumption | extract_lets | apply outcome_next | apply State.elapse_inv | apply State.startResync_inv | refine State.inv_ite (fun _ => ?_) fun _ => ?_

theorem execBistTestStart_inv {dt : ℕ} {kind : ℕ} {i : ℕ} {s : State} (h : s.inv = true) : OutcomeInv (execBistTestStart dt kind i s) := by
  unfold execBistTestStart
  repeat' first | (with_reducible first | assumption | extract_lets | apply outcome_next | apply State.elapse_inv | refine State.inv_ite (fun _ => ?_) fun _ => ?_) | split | (with_reducible first | apply State.inv_keep)

theorem execBistTestDone_inv {dt : ℕ} {kind : ℕ} {i : ℕ} {pass : Bool} {s : State} (h : s.inv = true) : OutcomeInv (execBistTestDone dt kind i pass s) := by
  unfold execBistTestDone
  with_reducible repeat' first | assumption | extract_lets | apply outcome_next | apply State.elapse_inv | apply State.loseDram_inv | apply State.bump_inv | apply State.raise_inv | refine State.inv_ite (fun _ => ?_) fun _ => ?_ | apply State.inv_keep

theorem State.takePartnerLane_inv {s : State} {l : ℕ} (h : s.inv = true) : (State.takePartnerLane s l).inv = true := by
  unfold State.takePartnerLane
  with_reducible repeat' first | assumption | extract_lets | apply State.formKr1_inv | apply State.wr_inv | apply State.setLstat_inv | apply State.coldRx_inv | apply State.setTxReady_inv | apply State.refreshLane_inv | apply State.requestSleep_inv | refine State.inv_ite (fun _ => ?_) fun _ => ?_

theorem State.twinSettings_inv {s : State} {p : List Byte} (h : s.inv = true) : (State.twinSettings s p).inv = true := by
  unfold State.twinSettings
  with_reducible repeat' first | assumption | extract_lets | apply State.wr_inv | apply State.wr64_inv | apply State.storeChanged_inv | refine State.inv_ite (fun _ => ?_) fun _ => ?_ | apply State.inv_keep

theorem State.twinStart_inv {s : State} (h : s.inv = true) : (State.twinStart s).inv = true := by
  unfold State.twinStart
  with_reducible repeat' first | assumption | extract_lets | apply State.formLookKey_inv | apply State.formPairKey_inv | apply State.wr_inv | apply State.setClaim_inv | apply State.endLease_inv | apply State.takePartnerLane_inv | apply State.inv_keep

theorem State.twinStop_inv {s : State} (h : s.inv = true) : (State.twinStop s).inv = true := by
  unfold State.twinStop
  with_reducible repeat' first | assumption | extract_lets | apply State.lookoutSend_inv | apply State.endCause_inv | apply State.wr_inv | apply State.setClaim_inv | apply State.setRole_inv | apply State.wr64_inv | refine State.inv_ite (fun _ => ?_) fun _ => ?_ | refine inv_foldl ?_ fun _ _ _ => ?_ | apply State.inv_keep

theorem opTwnConfig_inv : opTwnConfig.keeps := by
  unfold opTwnConfig
  apply OpSpec.keeps_mk
  intro s x p h
  repeat' first | (with_reducible first | assumption | extract_lets | apply Done.err_inv | apply Done.ok_inv | apply State.twinSettings_inv | apply State.twinStart_inv | apply State.twinStop_inv | refine State.inv_ite (fun _ => ?_) fun _ => ?_) | split

theorem opTwnStatus_inv : opTwnStatus.keeps := by
  unfold opTwnStatus
  apply OpSpec.keeps_mk
  intro s x p h
  repeat' first | (with_reducible first | assumption | apply Done.ok_inv)

theorem opTwnLeaseRequest_inv : opTwnLeaseRequest.keeps := by
  unfold opTwnLeaseRequest
  apply OpSpec.keeps_mk
  intro s x p h
  repeat' first | (with_reducible first | assumption | extract_lets | apply Done.pending_inv | apply State.await_inv | apply State.releaseLease_inv | apply State.lookoutSend_inv | apply State.twinSend_inv | refine State.inv_ite (fun _ => ?_) fun _ => ?_) | split

theorem opTwnResync_inv : opTwnResync.keeps := by
  unfold opTwnResync
  apply OpSpec.keeps_mk
  intro s x p h
  repeat' first | (with_reducible first | assumption | extract_lets | apply Done.pending_inv | apply State.await_inv | apply State.startResync_inv | apply Done.ok_inv | apply State.wr_inv | refine State.inv_ite (fun _ => ?_) fun _ => ?_) | split | (with_reducible first | apply State.inv_keep)

theorem execTwnConfig_inv {dt : ℕ} {rq : Req} {s : State} (h : s.inv = true) : OutcomeInv (execTwnConfig dt rq s) := by
  unfold execTwnConfig
  with_reducible repeat' first | assumption | apply outcome_next | apply serve_inv | apply opTwnConfig_inv

theorem execTwnStatus_inv {dt : ℕ} {rq : Req} {s : State} (h : s.inv = true) : OutcomeInv (execTwnStatus dt rq s) := by
  unfold execTwnStatus
  with_reducible repeat' first | assumption | apply outcome_next | apply serve_inv | apply opTwnStatus_inv

theorem execTwnLeaseRequest_inv {dt : ℕ} {rq : Req} {s : State} (h : s.inv = true) : OutcomeInv (execTwnLeaseRequest dt rq s) := by
  unfold execTwnLeaseRequest
  with_reducible repeat' first | assumption | apply outcome_next | apply serve_inv | apply opTwnLeaseRequest_inv

theorem execTwnResync_inv {dt : ℕ} {rq : Req} {s : State} (h : s.inv = true) : OutcomeInv (execTwnResync dt rq s) := by
  unfold execTwnResync
  with_reducible repeat' first | assumption | apply outcome_next | apply serve_inv | apply opTwnResync_inv

end Sys2Proof.Machine
end

