-- ==== Sys2Proof/Laws/InvFltCmds.lean ====
section
/-!
SUPPORT. Every operation of Machine/FltCmds.lean keeps the invariant of the state.
-/
namespace Sys2Proof.Machine
open Sys2Proof

theorem State.errPin_inv {s : State} (h : s.inv = true) : (State.errPin s).inv = true := by
  unfold State.errPin
  with_reducible repeat' first | assumption | extract_lets | apply State.wr_inv | apply State.pin_inv | refine State.inv_ite (fun _ => ?_) fun _ => ?_

theorem State.firstRegs_inv {s : State} (h : s.inv = true) : (State.firstRegs s).inv = true := by
  unfold State.firstRegs
  with_reducible repeat' first | assumption | extract_lets | apply State.wr_inv | apply State.wr64_inv

theorem State.historyPut_inv {s : State} {e : Event} (h : s.inv = true) : (s.historyPut e).inv = true := by
  unfold State.historyPut
  refine State.inv_ite (fun hl => State.inv_mk (State.inv_regs h) (State.inv_mem h) ⟨?_, State.inv_uncleared h, State.inv_queue h⟩) fun _ => ?_
  · simp; omega
  · refine State.bump_inv (State.wr_inv (State.inv_mk (State.inv_regs h) (State.inv_mem h) ⟨?_, State.inv_uncleared h, State.inv_queue h⟩))
    have := State.inv_history h
    simp; omega

theorem State.unclearedPut_inv {s : State} {e : Event} (h : s.inv = true) : (s.unclearedPut e).inv = true := by
  unfold State.unclearedPut
  refine State.inv_ite (fun _ => ?_) fun _ => State.inv_ite (fun hl => ?_) fun _ => State.wr_inv (State.wr_inv h)
  · exact State.inv_mk (State.inv_regs h) (State.inv_mem h) ⟨State.inv_history h, State.inv_uncleared_map _ h, State.inv_queue h⟩
  · refine State.inv_mk (State.inv_regs h) (State.inv_mem h) ⟨State.inv_history h, ?_, State.inv_queue h⟩
    simp; omega

theorem State.firstPut_inv {s : State} {e : Event} (h : s.inv = true) : (State.firstPut s e).inv = true := by
  unfold State.firstPut
  with_reducible repeat' first | assumption | extract_lets | apply State.firstRegs_inv | refine State.inv_ite (fun _ => ?_) fun _ => ?_ | apply State.inv_keepFlt

theorem State.react_inv {s : State} {e : Event} (h : s.inv = true) : (s.react e).inv = true := by
  unfold State.react
  extract_lets r
  refine State.inv_ite (fun _ => h) fun _ => ?_
  split
  · exact State.inv_keepFlt h
  · refine State.inv_ite (fun _ => ?_) fun _ => State.inv_ite (fun hl => ?_) fun _ => State.raise_inv h
    · exact State.inv_mk (State.inv_regs h) (State.inv_mem h) ⟨State.inv_history h, State.inv_uncleared_map _ h, State.inv_queue h⟩
    · refine State.inv_mk (State.inv_regs h) (State.inv_mem h) ⟨State.inv_history h, State.inv_uncleared h, ?_⟩
      simp; omega

theorem State.fatal_inv {s : State} (h : s.inv = true) : s.fatal.inv = true := by
  unfold State.fatal
  extract_lets times s1 _ s2
  have h1 : s1.inv = true := State.inv_ite (fun _ => State.loseLease_inv h) fun _ => h
  have h2 : s2.inv = true := State.wr_inv (State.inv_keepFlt h1)
  refine State.inv_ite (fun _ => ?_) fun _ => State.inv_keepFlt h2
  exact State.inv_mk (State.inv_regs h2) (State.inv_mem h2) ⟨State.inv_history h2, State.inv_uncleared h2, Nat.zero_le _⟩

theorem State.recordEvent_inv {s : State} {e0 : Event} (h : s.inv = true) : (State.recordEvent s e0).inv = true := by
  unfold State.recordEvent
  with_reducible repeat' first | assumption | extract_lets | apply State.bump_inv | apply State.errPin_inv | apply State.unclearedPut_inv | apply State.historyPut_inv | apply State.firstPut_inv | apply State.react_inv | apply State.fatal_inv | refine State.inv_ite (fun _ => ?_) fun _ => ?_ | apply State.inv_keepFlt

theorem execFaultEventRecord_inv {dt : ℕ} {s : State} (h : s.inv = true) : OutcomeInv (execFaultEventRecord dt s) := by
  unfold execFaultEventRecord
  repeat' first | (with_reducible first | assumption | extract_lets | apply outcome_next | apply State.elapse_inv | apply State.recordEvent_inv | refine State.inv_ite (fun _ => ?_) fun _ => ?_) | split | (with_reducible first | apply State.inv_keepFlt)

theorem State.unitGone_inv {s : State} {cap : ℕ} {i : ℕ} (h : s.inv = true) : (State.unitGone s cap i).inv = true := by
  unfold State.unitGone
  repeat' first | (with_reducible first | assumption | extract_lets | apply State.loseRoutes_inv | apply State.failWaits_inv | apply State.loseLaneRoutes_inv) | split

theorem State.voteRewrite_inv {s : State} {src obj : ℕ} (h : s.inv = true) : (s.voteRewrite src obj).inv = true := by
  unfold State.voteRewrite
  extract_lets addr mine s1
  refine State.inv_ite (fun _ => h) fun _ => ?_
  have h1 : s1.inv = true := inv_foldl h fun t p ht => State.inv_mk (RegFile.wf_ins _ _ (State.inv_regs ht)) (State.inv_mem ht) (State.inv_flt ht)
  exact State.errPin_inv (State.endCause_inv (State.inv_keepFlt h1))

theorem State.reactionStep_inv {s : State} {r : Reaction} (h : s.inv = true) : (State.reactionStep s r).1.inv = true := by
  unfold State.reactionStep
  repeat' first | (with_reducible first | assumption | extract_lets | apply State.publish_inv | apply State.voteRewrite_inv | apply State.unready_inv | apply State.noteOver_inv | apply State.unitGone_inv | apply State.releaseLease_inv | refine State.inv_ite (fun _ => ?_) fun _ => ?_ | refine inv_foldl ?_ fun _ _ _ => ?_) | split | (with_reducible first | apply State.inv_keepFlt)

theorem execFaultReaction_inv {dt : ℕ} {s : State} (h : s.inv = true) : OutcomeInv (execFaultReaction dt s) := by
  unfold execFaultReaction
  extract_lets s1
  apply outcome_next
  have h1 : s1.inv = true := State.elapse_inv h
  refine State.inv_ite (fun _ => h1) fun _ => ?_
  split
  · split
    · exact h1
    · next q qs hq =>
      refine State.inv_mk (State.inv_regs h1) (State.inv_mem h1) ⟨State.inv_history h1, State.inv_uncleared h1, ?_⟩
      have := State.inv_queue h1
      rw [hq, List.length_cons] at this
      show qs.length ≤ 256
      omega
  · extract_lets d
    have hd : d.1.inv = true := State.reactionStep_inv h1
    clear_value d
    split
    · exact State.inv_keepFlt hd
    · refine State.inv_ite (fun _ => State.inv_keepFlt hd) fun _ => ?_
      refine State.inv_mk (State.inv_regs hd) (State.inv_mem hd) ⟨State.inv_history hd, State.inv_uncleared hd, ?_⟩
      have := State.inv_queue hd
      show (d.1.flt.queue.drop 1).length ≤ 256
      rw [List.length_drop]
      omega

theorem State.shedOne_inv {s : State} (h : s.inv = true) : (State.shedOne s).inv = true := by
  unfold State.shedOne
  repeat' first | (with_reducible first | assumption | extract_lets | apply State.noteOver_inv | apply State.domainOff_inv | apply State.setDomEn_inv) | split | (with_reducible first | apply State.inv_keepFlt)

theorem State.thermRise_inv {s : State} {code : ℕ} {old : ℤ} {new : ℤ} {level : ℤ} (h : s.inv = true) : (State.thermRise s code old new level).inv = true := by
  unfold State.thermRise
  with_reducible repeat' first | assumption | apply State.raise_inv | refine State.inv_ite (fun _ => ?_) fun _ => ?_

theorem execThermalSensorSample_inv {dt : ℕ} {temps : List ℤ} {s : State} (h : s.inv = true) : OutcomeInv (execThermalSensorSample dt temps s) := by
  unfold execThermalSensorSample
  with_reducible repeat' first | assumption | extract_lets | apply outcome_next | apply State.elapse_inv | apply State.wrInt_inv | apply State.endCause_inv | apply State.thermRise_inv | apply State.shedOne_inv | refine State.inv_ite (fun _ => ?_) fun _ => ?_ | apply State.inv_keepFlt

theorem execShedStep_inv {dt : ℕ} {s : State} (h : s.inv = true) : OutcomeInv (execShedStep dt s) := by
  unfold execShedStep
  repeat' first | (with_reducible first | assumption | extract_lets | apply outcome_next | apply State.elapse_inv | apply State.shedOne_inv | refine State.inv_ite (fun _ => ?_) fun _ => ?_) | split | (with_reducible first | apply State.inv_keepFlt)

theorem State.firebreak_inv {s : State} {cap : Nat} {i : Nat} (h : s.inv = true) : (State.firebreak s cap i).inv = true := by
  unfold State.firebreak
  repeat' first | (with_reducible first | assumption | extract_lets | apply State.encEngineLost_inv | apply State.groupStat_inv | apply State.linkLost_inv | apply State.loseTargets_inv | apply State.pixelOff_inv | apply State.resetMaster_inv | apply State.unready_inv | refine State.inv_ite (fun _ => ?_) fun _ => ?_) | split

theorem execBlockIsolatesItself_inv {dt : ℕ} {src : ℕ} {whole : Bool} {s : State} (h : s.inv = true) : OutcomeInv (execBlockIsolatesItself dt src whole s) := by
  unfold execBlockIsolatesItself
  with_reducible repeat' first | assumption | extract_lets | apply outcome_next | apply State.elapse_inv | apply State.firebreak_inv | apply State.raise_inv | refine State.inv_ite (fun _ => ?_) fun _ => ?_ | refine inv_foldl ?_ fun _ _ _ => ?_ | apply State.inv_keep

theorem execWatchdogExpiry_inv {dt : ℕ} {dog : Watchdog} {s : State} (h : s.inv = true) : OutcomeInv (execWatchdogExpiry dt dog s) := by
  unfold execWatchdogExpiry
  repeat' first | (with_reducible first | assumption | extract_lets | apply outcome_next | apply State.elapse_inv | apply State.raise_inv | apply State.resetMaster_inv | apply execBlockIsolatesItself_inv) | split

theorem opFltQuery_inv : opFltQuery.keeps := by
  unfold opFltQuery
  apply OpSpec.keeps_mk
  intro s x p h
  with_reducible repeat' first | assumption | extract_lets | apply Done.ok_inv

theorem State.clearEntries_inv {s : State} {p : Event → Bool} (h : s.inv = true) : (s.clearEntries p).inv = true := by
  unfold State.clearEntries
  extract_lets gone left hist _ s1 _ s2
  have h1 : s1.inv = true := by
    refine State.inv_mk (State.inv_regs h) (State.inv_mem h) ⟨?_, ?_, State.inv_queue h⟩
    · show (List.map _ _).length ≤ 32
      rw [List.length_map]
      exact State.inv_history h
    · exact (List.length_filter_le _ _).trans (State.inv_uncleared h)
  have h2 : s2.inv = true := by
    show State.inv (match s1.flt.firstError with | some f => _ | none => _) = true
    split
    · exact State.inv_ite (fun _ => h1) fun _ => State.firstRegs_inv (State.inv_keepFlt h1)
    · exact h1
  exact State.errPin_inv h2

theorem opFltClear_inv : opFltClear.keeps := by
  unfold opFltClear
  apply OpSpec.keeps_mk
  intro s x p h
  repeat' first | (with_reducible first | assumption | extract_lets | apply State.clearEntries_inv | apply State.wr_inv | apply Done.ok_inv | apply Done.err_inv | refine State.inv_ite (fun _ => ?_) fun _ => ?_) | split

theorem opFltHistory_inv : opFltHistory.keeps := by
  unfold opFltHistory
  apply OpSpec.keeps_mk
  intro s x p h
  repeat' first | (with_reducible first | assumption | extract_lets | apply Done.ok_inv | apply State.wr_inv | refine State.inv_ite (fun _ => ?_) fun _ => ?_)

theorem execFltQuery_inv {dt : ℕ} {rq : Req} {s : State} (h : s.inv = true) : OutcomeInv (execFltQuery dt rq s) := by
  unfold execFltQuery
  with_reducible repeat' first | assumption | apply outcome_next | apply serve_inv | apply opFltQuery_inv

theorem execFltClear_inv {dt : ℕ} {rq : Req} {s : State} (h : s.inv = true) : OutcomeInv (execFltClear dt rq s) := by
  unfold execFltClear
  with_reducible repeat' first | assumption | apply outcome_next | apply serve_inv | apply opFltClear_inv

theorem execFltHistory_inv {dt : ℕ} {rq : Req} {s : State} (h : s.inv = true) : OutcomeInv (execFltHistory dt rq s) := by
  unfold execFltHistory
  with_reducible repeat' first | assumption | apply outcome_next | apply serve_inv | apply opFltHistory_inv

theorem State.injectFault_inv {s : State} {cls : ℕ} (h : s.inv = true) : (State.injectFault s cls).inv = true := by
  unfold State.injectFault
  with_reducible repeat' first | assumption | apply State.raise_inv | refine State.inv_ite (fun _ => ?_) fun _ => ?_

end Sys2Proof.Machine
end

