-- ==== Sys2Proof/Laws/InvPwrCmds.lean ====
section
/-!
SUPPORT. Every operation of Machine/PwrCmds.lean keeps the invariant of the state.
-/
namespace Sys2Proof.Machine
open Sys2Proof

theorem State.wakeConfig_inv {s : State} {p : List Byte} (h : s.inv = true) : (State.wakeConfig s p).inv = true := by
  unfold State.wakeConfig
  with_reducible repeat' first | assumption | apply State.timerLoad_inv | apply State.wr_inv | refine State.inv_ite (fun _ => ?_) fun _ => ?_

theorem opPwrDomainSet_inv : opPwrDomainSet.keeps := by
  intro s x p h
  unfold opPwrDomainSet
  dsimp -zeta only
  repeat' first | (with_reducible first | assumption | extract_lets | apply State.setEnables_inv | apply State.wakeConfig_inv | apply Done.ok_inv | apply Done.pending_inv | apply State.await_inv | refine State.inv_ite (fun _ => ?_) fun _ => ?_) | split | (with_reducible first | apply State.inv_keep)

theorem opPwrIdleTimer_inv : opPwrIdleTimer.keeps := by
  unfold opPwrIdleTimer
  apply OpSpec.keeps_mk
  intro s x p h
  repeat' first | (with_reducible first | assumption | extract_lets | apply State.wr_inv | apply Done.ok_inv | refine State.inv_ite (fun _ => ?_) fun _ => ?_ | refine inv_foldl ?_ fun _ _ _ => ?_) | split | (with_reducible first | apply State.inv_keep)

theorem opPwrWakeRecord_inv : opPwrWakeRecord.keeps := by
  unfold opPwrWakeRecord
  apply OpSpec.keeps_mk
  intro s x p h
  with_reducible repeat' first | assumption | apply Done.ok_inv

theorem execPwrDomainSet_inv {dt : ℕ} {rq : Req} {s : State} (h : s.inv = true) : OutcomeInv (execPwrDomainSet dt rq s) := by
  unfold execPwrDomainSet
  with_reducible repeat' first | assumption | apply outcome_next | apply serve_inv | apply opPwrDomainSet_inv

theorem execPwrIdleTimer_inv {dt : ℕ} {rq : Req} {s : State} (h : s.inv = true) : OutcomeInv (execPwrIdleTimer dt rq s) := by
  unfold execPwrIdleTimer
  with_reducible repeat' first | assumption | apply outcome_next | apply serve_inv | apply opPwrIdleTimer_inv

theorem execPwrWakeRecord_inv {dt : ℕ} {rq : Req} {s : State} (h : s.inv = true) : OutcomeInv (execPwrWakeRecord dt rq s) := by
  unfold execPwrWakeRecord
  with_reducible repeat' first | assumption | apply outcome_next | apply serve_inv | apply opPwrWakeRecord_inv

theorem State.scaleCore_inv {s : State} {ack : Bool} (h : s.inv = true) : (State.scaleCore s ack).inv = true := by
  unfold State.scaleCore
  repeat' first | (with_reducible first | assumption | extract_lets | refine State.inv_ite (fun _ => ?_) fun _ => ?_) | split | (with_reducible first | apply State.inv_keep)

theorem State.powerUp_inv {s : State} {d : ℕ} {good : Bool} (h : s.inv = true) : (State.powerUp s d good).inv = true := by
  unfold State.powerUp
  repeat' first | (with_reducible first | assumption | extract_lets | apply State.domainOn_inv | apply State.settle_inv | apply State.raise_inv | refine State.inv_ite (fun _ => ?_) fun _ => ?_) | split | (with_reducible first | apply State.inv_keep)

theorem execDomainPowerUp_inv {dt : Nat} {d : Nat} {good : PowerGood} {s : State} (h : s.inv = true) : OutcomeInv (execDomainPowerUp dt d good s) := by
  unfold execDomainPowerUp
  with_reducible repeat' first | assumption | extract_lets | refine outcome_next ?_ | apply State.elapse_inv | apply State.powerUp_inv | apply State.scaleCore_inv | refine State.inv_ite (fun _ => ?_) fun _ => ?_

theorem execDomainPowerDown_inv {dt : ℕ} {d : ℕ} {s : State} (h : s.inv = true) : OutcomeInv (execDomainPowerDown dt d s) := by
  unfold execDomainPowerDown
  with_reducible repeat' first | assumption | extract_lets | apply outcome_next | apply State.elapse_inv | apply State.domainOff_inv | apply State.noteOver_inv | apply State.settle_inv | apply State.wakeWaiting_inv | refine State.inv_ite (fun _ => ?_) fun _ => ?_ | apply State.inv_keep

theorem execIdleTimerExpiry_inv {dt : ℕ} {d : ℕ} {s : State} (h : s.inv = true) : OutcomeInv (execIdleTimerExpiry dt d s) := by
  unfold execIdleTimerExpiry
  with_reducible repeat' first | assumption | extract_lets | apply outcome_next | apply State.arrive_inv | apply State.raise_inv | apply State.noteOver_inv | apply State.setEnables_inv | refine State.inv_ite (fun _ => ?_) fun _ => ?_

theorem State.fire_inv {s : State} {mask : ℕ} {also : ℕ} (h : s.inv = true) : (State.fire s mask also).inv = true := by
  unfold State.fire
  with_reducible repeat' first | assumption | apply State.wake_inv | refine State.inv_ite (fun _ => ?_) fun _ => ?_

theorem execSidebandAddressMatch_inv {dt : ℕ} {addr : ℕ} {also : ℕ} {s : State} (h : s.inv = true) : OutcomeInv (execSidebandAddressMatch dt addr also s) := by
  unfold execSidebandAddressMatch
  with_reducible repeat' first | assumption | extract_lets | apply outcome_next | apply State.elapse_inv | apply State.fire_inv | refine State.inv_ite (fun _ => ?_) fun _ => ?_

theorem execComparatorWake_inv {dt : ℕ} {also : ℕ} {s : State} (h : s.inv = true) : OutcomeInv (execComparatorWake dt also s) := by
  unfold execComparatorWake
  with_reducible repeat' first | assumption | extract_lets | apply outcome_next | apply State.elapse_inv | apply State.fire_inv | apply State.wr_inv

theorem execPwrTimerExpiry_inv {dt : ℕ} {also : ℕ} {s : State} (h : s.inv = true) : OutcomeInv (execPwrTimerExpiry dt also s) := by
  unfold execPwrTimerExpiry
  with_reducible repeat' first | assumption | extract_lets | apply outcome_next | apply State.elapse_inv | apply State.fire_inv | apply State.timerStop_inv | refine State.inv_ite (fun _ => ?_) fun _ => ?_

theorem execMgtWakeFrame_inv {dt : ℕ} {port : ℕ} {bytes : List Byte} {also : ℕ} {s : State} (h : s.inv = true) : OutcomeInv (execMgtWakeFrame dt port bytes also s) := by
  unfold execMgtWakeFrame
  with_reducible repeat' first | assumption | extract_lets | apply outcome_next | apply State.elapse_inv | apply State.fire_inv | refine State.inv_ite (fun _ => ?_) fun _ => ?_

end Sys2Proof.Machine
end

