-- ==== Sys2Proof/Laws/InvBootCmds.lean ====
section
/-!
SUPPORT. Every operation of Machine/BootCmds.lean keeps the invariant of the state.
-/
namespace Sys2Proof.Machine
open Sys2Proof

theorem State.freshRegs_inv {s : State} (h : s.inv = true) : s.freshRegs.inv = true :=
  State.powerStat_inv (State.wr_inv (State.wr_inv (State.readFuses_inv (State.wr64_inv
    (State.inv_mk rfl (State.inv_mem h) (State.inv_flt h))))))

theorem State.fullReset_inv {s : State} {cause : ℕ} {recovery : Bool} : (s.fullReset cause recovery).inv = true := by
  unfold State.fullReset
  extract_lets _ p _ _ s1 s2
  have h1 : s1.inv = true := State.inv_iff.2 ⟨rfl, MemState.ok_after, FaultState.ok_reset⟩
  have h2 : s2.inv = true := State.wr_inv (State.freshRegs_inv h1)
  exact State.inv_ite (fun _ => State.pin_inv (State.wr_inv h2)) fun _ => State.leaseGates_inv h2

theorem execPowerOn_inv {dt : ℕ} {recovery : Bool} {s : State} (h : s.inv = true) : OutcomeInv (execPowerOn dt recovery s) := by
  unfold execPowerOn
  with_reducible repeat' first | assumption | extract_lets | apply outcome_next | apply State.elapse_inv | apply State.fullReset_inv

theorem execCoreRailsGood_inv {dt : ℕ} {s : State} (h : s.inv = true) : OutcomeInv (execCoreRailsGood dt s) := by
  unfold execCoreRailsGood
  with_reducible repeat' first | assumption | extract_lets | apply outcome_next | apply State.elapse_inv | apply State.inv_keep

theorem execRstNAssert_inv {dt : ℕ} {s : State} (h : s.inv = true) : OutcomeInv (execRstNAssert dt s) := by
  unfold execRstNAssert
  with_reducible repeat' first | assumption | extract_lets | apply outcome_next | apply State.elapse_inv | apply State.fullReset_inv | refine State.inv_ite (fun _ => ?_) fun _ => ?_

theorem execRstNRelease_inv {dt : ℕ} {recovery : Bool} {cooled : Bool} {s : State} (h : s.inv = true) : OutcomeInv (execRstNRelease dt recovery cooled s) := by
  unfold execRstNRelease
  with_reducible repeat' first | assumption | extract_lets | apply outcome_next | apply State.elapse_inv | apply State.leaseGates_inv | apply State.pin_inv | refine State.inv_ite (fun _ => ?_) fun _ => ?_ | apply State.inv_keep

theorem State.clampAll_inv {s : State} (h : s.inv = true) : s.clampAll.inv = true := by
  unfold State.clampAll
  extract_lets c keep s1 _ p s2
  have h1 : s1.inv = true := State.fullReset_inv
  have hk : RegFile.wf keep = true := RegFile.wf_filter _ (State.inv_regs (State.controlOff_inv h))
  clear_value keep s1
  have h2 : s2.inv = true := State.readFuses_inv (State.inv_mk hk (State.inv_mem h1) (State.inv_flt h1))
  exact State.powerStat_inv (State.wr64_inv (State.wr_inv (State.wr_inv h2)))

theorem State.railOff_inv {s : State} {d : ℕ} (h : s.inv = true) : (State.railOff s d).inv = true := by
  unfold State.railOff
  with_reducible repeat' first | assumption | extract_lets | apply State.domainOff_inv | apply State.raise_inv | refine State.inv_ite (fun _ => ?_) fun _ => ?_ | apply State.inv_keep

theorem execRailLoss_inv {dt : ℕ} {rail : Rail} {s : State} (h : s.inv = true) : OutcomeInv (execRailLoss dt rail s) := by
  unfold execRailLoss
  repeat' first | (with_reducible first | assumption | extract_lets | apply outcome_next | apply State.elapse_inv | apply State.clampAll_inv | apply State.railOff_inv | apply State.noteOver_inv | apply State.loseDram_inv | refine inv_foldl ?_ fun _ _ _ => ?_) | split | (with_reducible first | apply State.inv_keep)

theorem execThermalTrip_inv {dt : ℕ} {s : State} (h : s.inv = true) : OutcomeInv (execThermalTrip dt s) := by
  unfold execThermalTrip
  with_reducible repeat' first | assumption | extract_lets | apply outcome_next | apply State.elapse_inv | apply State.clampAll_inv | apply State.pin_inv | refine State.inv_ite (fun _ => ?_) fun _ => ?_ | apply State.inv_keep

theorem execSettingsStoreWrite_inv {dt : ℕ} {s : State} (h : s.inv = true) : OutcomeInv (execSettingsStoreWrite dt s) := by
  unfold execSettingsStoreWrite
  with_reducible repeat' first | assumption | extract_lets | apply outcome_next | apply State.elapse_inv | refine State.inv_ite (fun _ => ?_) fun _ => ?_ | apply State.inv_keep

theorem State.loadConfig_inv {s : State} (h : s.inv = true) : s.loadConfig.inv = true := by
  unfold State.loadConfig
  refine State.inv_ite (fun _ => State.raise_inv h) fun _ => ?_
  extract_lets c s1 s2 s3
  have h1 : s1.inv = true := State.inv_mk (RegFile.wf_foldl_ins (State.inv_regs h)) (State.inv_mem h) (State.inv_flt h)
  have h2 : s2.inv = true := inv_foldl h1 fun t m ht => State.modNetPort_inv ht
  have h3 : s3.inv = true := State.inv_ite (fun _ => h2) fun _ => State.inv_ite (fun _ => State.twinStart_inv (State.twinSettings_inv h2))
    fun _ => State.twinSettings_inv h2
  exact State.inv_keep h3

theorem State.recoveryMode_inv {s : State} (h : s.inv = true) : (State.recoveryMode s).inv = true := by
  unfold State.recoveryMode
  with_reducible repeat' first | assumption | extract_lets | apply State.wr_inv | apply State.raise_inv | apply State.inv_keep

theorem State.rejectTrial_inv {s : State} (h : s.inv = true) : (State.rejectTrial s).inv = true := by
  unfold State.rejectTrial
  repeat' first | (with_reducible first | assumption | extract_lets | apply State.wr_inv | apply State.raise_inv) | split | (with_reducible first | apply State.inv_keep)

theorem State.startBank_inv {s : State} {n : ℕ} (h : s.inv = true) : (State.startBank s n).inv = true := by
  unfold State.startBank
  with_reducible repeat' first | assumption | extract_lets | apply State.wr_inv | apply State.memWrite_inv | apply State.loadConfig_inv | refine State.inv_ite (fun _ => ?_) fun _ => ?_ | apply State.inv_keep

theorem State.tryBanks_inv {s : State} {l : List ℕ} (h : s.inv = true) : (s.tryBanks l).inv = true := by
  induction l generalizing s with
  | nil => exact State.recoveryMode_inv h
  | cons n l ih =>
    unfold State.tryBanks
    exact State.inv_ite (fun _ => State.startBank_inv h) fun _ => ih (State.wr_inv (State.raise_inv h))

theorem execRomBoot_inv {dt : ℕ} {s : State} (h : s.inv = true) : OutcomeInv (execRomBoot dt s) := by
  unfold execRomBoot
  with_reducible repeat' first | assumption | extract_lets | apply outcome_next | apply State.elapse_inv | apply State.wr_inv | apply State.readFuses_inv | apply State.setEnables_inv | apply State.recoveryMode_inv | apply State.rejectTrial_inv | apply State.tryBanks_inv | refine State.inv_ite (fun _ => ?_) fun _ => ?_ | apply State.inv_keep

theorem State.imageRuns_inv {s : State} {type : ℕ} {d : ℕ} {i : Image} (h : s.inv = true) : (State.imageRuns s type d i).inv = true := by
  unfold State.imageRuns
  with_reducible repeat' first | assumption | extract_lets | apply State.memWrite_inv | apply State.settle_inv | apply State.endCause_inv | apply State.setReady_inv | refine State.inv_ite (fun _ => ?_) fun _ => ?_ | refine inv_foldl ?_ fun _ _ _ => ?_

theorem execImageLoad_inv {dt : ℕ} {type : ℕ} {domain : ℕ} {s : State} (h : s.inv = true) : OutcomeInv (execImageLoad dt type domain s) := by
  unfold execImageLoad
  repeat' first | (with_reducible first | assumption | extract_lets | apply outcome_next | apply State.elapse_inv | apply State.imageRuns_inv | apply State.raise_inv | refine State.inv_ite (fun _ => ?_) fun _ => ?_) | split

theorem execTrialConfirm_inv {dt : ℕ} {s : State} (h : s.inv = true) : OutcomeInv (execTrialConfirm dt s) := by
  unfold execTrialConfirm
  repeat' first | (with_reducible first | assumption | extract_lets | apply outcome_next | apply State.elapse_inv | apply State.wr_inv | refine State.inv_ite (fun _ => ?_) fun _ => ?_) | split | (with_reducible first | apply State.inv_keep)

theorem execActivateReset_inv {dt : ℕ} {s : State} (h : s.inv = true) : OutcomeInv (execActivateReset dt s) := by
  unfold execActivateReset
  with_reducible repeat' first | assumption | extract_lets | apply outcome_next | apply State.elapse_inv | apply State.fullReset_inv | refine State.inv_ite (fun _ => ?_) fun _ => ?_

theorem execLifecycleReset_inv {dt : ℕ} {s : State} (h : s.inv = true) : OutcomeInv (execLifecycleReset dt s) := by
  unfold execLifecycleReset
  with_reducible repeat' first | assumption | extract_lets | apply outcome_next | apply State.elapse_inv | apply State.fullReset_inv | refine State.inv_ite (fun _ => ?_) fun _ => ?_

theorem opUpdBegin_inv : opUpdBegin.keeps := by
  unfold opUpdBegin
  apply OpSpec.keeps_mk
  intro s x p h
  repeat' first | (with_reducible first | assumption | extract_lets | apply Done.ok_inv | refine State.inv_ite (fun _ => ?_) fun _ => ?_) | split | (with_reducible first | dsimp -zeta only | apply State.inv_keep)

theorem opUpdData_inv : opUpdData.keeps := by
  unfold opUpdData
  apply OpSpec.keeps_mk
  intro s x p h
  repeat' first | (with_reducible first | assumption | extract_lets | apply Done.err_inv | apply Done.ok_inv | refine State.inv_ite (fun _ => ?_) fun _ => ?_) | split | (with_reducible first | apply State.inv_keep)

theorem opUpdCommit_inv : opUpdCommit.keeps := by
  unfold opUpdCommit
  apply OpSpec.keeps_mk
  intro s x p h
  repeat' first | (with_reducible first | assumption | extract_lets | apply Done.err_inv | apply Done.pending_inv | refine State.inv_ite (fun _ => ?_) fun _ => ?_) | split | (with_reducible first | apply State.inv_keep)

theorem opUpdStatus_inv : opUpdStatus.keeps := by
  unfold opUpdStatus
  apply OpSpec.keeps_mk
  intro s x p h
  repeat' first | (with_reducible first | assumption | extract_lets | apply Done.ok_inv)

theorem execUpdBegin_inv {dt : ℕ} {rq : Req} {s : State} (h : s.inv = true) : OutcomeInv (execUpdBegin dt rq s) := by
  unfold execUpdBegin
  with_reducible repeat' first | assumption | apply outcome_next | apply serve_inv | apply opUpdBegin_inv

theorem execUpdData_inv {dt : ℕ} {rq : Req} {s : State} (h : s.inv = true) : OutcomeInv (execUpdData dt rq s) := by
  unfold execUpdData
  with_reducible repeat' first | assumption | apply outcome_next | apply serve_inv | apply opUpdData_inv

theorem execUpdCommit_inv {dt : ℕ} {rq : Req} {s : State} (h : s.inv = true) : OutcomeInv (execUpdCommit dt rq s) := by
  unfold execUpdCommit
  with_reducible repeat' first | assumption | apply outcome_next | apply serve_inv | apply opUpdCommit_inv

theorem execUpdStatus_inv {dt : ℕ} {rq : Req} {s : State} (h : s.inv = true) : OutcomeInv (execUpdStatus dt rq s) := by
  unfold execUpdStatus
  with_reducible repeat' first | assumption | apply outcome_next | apply serve_inv | apply opUpdStatus_inv

theorem State.updateVerified_inv {s : State} {u : Update} {tag : ℕ} {session : ℕ} {activate : Bool} (h : s.inv = true) : (State.updateVerified s u tag session activate).inv = true := by
  unfold State.updateVerified
  with_reducible repeat' first | assumption | extract_lets | apply State.finish_inv | refine State.inv_ite (fun _ => ?_) fun _ => ?_ | apply State.inv_keep

theorem execUpdVerifyDone_inv {dt : ℕ} {s : State} (h : s.inv = true) : OutcomeInv (execUpdVerifyDone dt s) := by
  unfold execUpdVerifyDone
  repeat' first | (with_reducible first | assumption | extract_lets | apply outcome_next | apply State.elapse_inv | apply State.updateVerified_inv) | split

theorem execUpdDataTimeout_inv {dt : ℕ} {s : State} (h : s.inv = true) : OutcomeInv (execUpdDataTimeout dt s) := by
  unfold execUpdDataTimeout
  repeat' first | (with_reducible first | assumption | extract_lets | apply outcome_next | apply State.elapse_inv | refine State.inv_ite (fun _ => ?_) fun _ => ?_) | split | (with_reducible first | apply State.inv_keep)

theorem opVltLifecycle_inv {fuses : Bool}  : (opVltLifecycle fuses).keeps := by
  unfold opVltLifecycle
  apply OpSpec.keeps_mk
  intro s x p h
  repeat' first | (with_reducible first | assumption | extract_lets | apply Done.ok_inv | apply State.wr_inv | refine State.inv_ite (fun _ => ?_) fun _ => ?_) | split | (with_reducible first | dsimp -zeta only | apply State.inv_keep)

theorem execVltLifecycle_inv {dt : ℕ} {rq : Req} {fuses : Bool} {s : State} (h : s.inv = true) : OutcomeInv (execVltLifecycle dt rq fuses s) := by
  unfold execVltLifecycle
  with_reducible repeat' first | assumption | apply outcome_next | apply serve_inv | apply opVltLifecycle_inv

theorem State.loseSessions_inv {s : State} (h : s.inv = true) : (State.loseSessions s).inv = true := by
  unfold State.loseSessions
  with_reducible repeat' first | assumption | extract_lets | apply State.closeSession_inv | refine inv_foldl ?_ fun _ _ _ => ?_ | apply State.inv_keep

theorem State.redoLost_inv {s : State} (h : s.inv = true) : s.redoLost.inv = true :=
  State.inv_mk (State.inv_regs h) (State.inv_mem h) ⟨State.inv_history h, State.inv_uncleared h, List.length_take_le _ _⟩

theorem State.controlRestart_inv {s : State} (h : s.inv = true) : (State.controlRestart s).inv = true := by
  unfold State.controlRestart
  with_reducible repeat' first | assumption | extract_lets | apply State.resetMaster_inv | apply State.loseSessions_inv | apply State.bump_inv | apply State.wr_inv | apply State.noteOver_inv | apply State.raise_inv | apply State.redoLost_inv | refine State.inv_ite (fun _ => ?_) fun _ => ?_ | refine inv_foldl ?_ fun _ _ _ => ?_ | apply State.inv_keep

theorem execControlRestart_inv {dt : ℕ} {s : State} (h : s.inv = true) : OutcomeInv (execControlRestart dt s) := by
  unfold execControlRestart
  with_reducible repeat' first | assumption | extract_lets | apply outcome_next | apply State.elapse_inv | apply State.fullReset_inv | apply State.controlRestart_inv | refine State.inv_ite (fun _ => ?_) fun _ => ?_

end Sys2Proof.Machine
end

