-- ==== Sys2Proof/Laws/InvSysCmds.lean ====
section
/-!
SUPPORT. Every operation of Machine/SysCmds.lean keeps the invariant of the state.
-/
namespace Sys2Proof.Machine
open Sys2Proof

theorem opSysNop_inv : opSysNop.keeps := by
  unfold opSysNop
  apply OpSpec.keeps_mk
  intro s x p h
  with_reducible repeat' first | assumption | apply Done.ok_inv

theorem opSysInfo_inv : opSysInfo.keeps := by
  unfold opSysInfo
  apply OpSpec.keeps_mk
  intro s x p h
  repeat' first | (with_reducible first | assumption | extract_lets | apply Done.ok_inv)

theorem opSysAlmanacRead_inv : opSysAlmanacRead.keeps := by
  unfold opSysAlmanacRead
  apply OpSpec.keeps_mk
  intro s x p h
  with_reducible repeat' first | assumption | extract_lets | apply Done.ok_inv

theorem State.rejoin_inv {s : State} {b : ℕ} (h : s.inv = true) : (State.rejoin s b).inv = true := by
  unfold State.rejoin
  with_reducible repeat' first | assumption | extract_lets | apply State.resetUnit_inv | refine inv_foldl ?_ fun _ _ _ => ?_ | apply State.inv_keep

theorem State.endIsolation_inv {s : State} {us : List (ℕ × ℕ)} (h : s.inv = true) : (State.endIsolation s us).inv = true := by
  unfold State.endIsolation
  with_reducible repeat' first | assumption | extract_lets | apply State.endCause_inv | refine inv_foldl ?_ fun _ _ _ => ?_

theorem State.resetUnits_inv {s : State} {us : List (ℕ × ℕ)} (h : s.inv = true) : (State.resetUnits s us).inv = true := by
  unfold State.resetUnits
  with_reducible repeat' first | assumption | extract_lets | apply State.resetUnit_inv | apply State.endIsolation_inv | apply State.rejoin_inv | refine inv_foldl ?_ fun _ _ _ => ?_

theorem opSysResetUnit_inv : opSysResetUnit.keeps := by
  unfold opSysResetUnit
  apply OpSpec.keeps_mk
  intro s x p h
  repeat' first | (with_reducible first | assumption | extract_lets | apply State.endIsolation_inv | apply State.domainOff_inv | apply State.resetUnits_inv | apply Done.pending_inv | apply State.await_inv | apply State.noteOver_inv | refine State.inv_ite (fun _ => ?_) fun _ => ?_ | refine inv_foldl ?_ fun _ _ _ => ?_) | split | (with_reducible first | dsimp -zeta only)

theorem State.openSession_inv {s : State} {t : ℕ} {p : List Byte} (h : s.inv = true) : (State.openSession s t p).1.inv = true := by
  unfold State.openSession
  repeat' first | (with_reducible first | assumption | extract_lets | apply State.draw_inv | apply State.countSlots_inv | apply State.fillSlot_inv | refine snd_inv (by assumption) ?_ | refine State.inv_ite (fun _ => ?_) fun _ => ?_) | split | (with_reducible first | apply State.inv_keep)

theorem opSysSessionOpen_inv : opSysSessionOpen.keeps := by
  unfold opSysSessionOpen
  apply OpSpec.keeps_mk
  intro s x p h
  repeat' first | (with_reducible first | assumption | extract_lets | apply Done.err_inv | apply State.openSession_inv | apply Done.ok_inv | refine fst_inv (by assumption) ?_ | refine State.inv_ite (fun _ => ?_) fun _ => ?_) | split | (with_reducible first | dsimp -zeta only)

theorem opSysSessionClose_inv : opSysSessionClose.keeps := by
  unfold opSysSessionClose
  apply OpSpec.keeps_mk
  intro s x p h
  repeat' first | (with_reducible first | assumption | extract_lets | apply Done.err_inv | apply State.modSession_inv | apply State.invalidate_inv | apply Done.ok_inv | refine State.inv_ite (fun _ => ?_) fun _ => ?_) | split

theorem opSysSubscribe_inv : opSysSubscribe.keeps := by
  unfold opSysSubscribe
  apply OpSpec.keeps_mk
  intro s x p h
  with_reducible repeat' first | assumption | apply Done.ok_inv | apply State.modSession_inv

theorem execSysNop_inv {dt : ℕ} {rq : Req} {s : State} (h : s.inv = true) : OutcomeInv (execSysNop dt rq s) := by
  unfold execSysNop
  with_reducible repeat' first | assumption | apply outcome_next | apply serve_inv | apply opSysNop_inv

theorem execSysInfo_inv {dt : ℕ} {rq : Req} {s : State} (h : s.inv = true) : OutcomeInv (execSysInfo dt rq s) := by
  unfold execSysInfo
  with_reducible repeat' first | assumption | apply outcome_next | apply serve_inv | apply opSysInfo_inv

theorem execSysAlmanacRead_inv {dt : ℕ} {rq : Req} {s : State} (h : s.inv = true) : OutcomeInv (execSysAlmanacRead dt rq s) := by
  unfold execSysAlmanacRead
  with_reducible repeat' first | assumption | apply outcome_next | apply serve_inv | apply opSysAlmanacRead_inv

theorem execSysResetUnit_inv {dt : ℕ} {rq : Req} {s : State} (h : s.inv = true) : OutcomeInv (execSysResetUnit dt rq s) := by
  unfold execSysResetUnit
  with_reducible repeat' first | assumption | apply outcome_next | apply serve_inv | apply opSysResetUnit_inv

theorem execSysSessionOpen_inv {dt : ℕ} {rq : Req} {s : State} (h : s.inv = true) : OutcomeInv (execSysSessionOpen dt rq s) := by
  unfold execSysSessionOpen
  with_reducible repeat' first | assumption | apply outcome_next | apply serve_inv | apply opSysSessionOpen_inv

theorem execSysSessionClose_inv {dt : ℕ} {rq : Req} {s : State} (h : s.inv = true) : OutcomeInv (execSysSessionClose dt rq s) := by
  unfold execSysSessionClose
  with_reducible repeat' first | assumption | apply outcome_next | apply serve_inv | apply opSysSessionClose_inv

theorem execSysSubscribe_inv {dt : ℕ} {rq : Req} {s : State} (h : s.inv = true) : OutcomeInv (execSysSubscribe dt rq s) := by
  unfold execSysSubscribe
  with_reducible repeat' first | assumption | apply outcome_next | apply serve_inv | apply opSysSubscribe_inv

theorem execReassemblyTimeout_inv {dt : Nat} {via : Transport} {session : Nat} {s : State} (h : s.inv = true) : OutcomeInv (execReassemblyTimeout dt via session s) := by
  unfold execReassemblyTimeout
  repeat' first | (with_reducible first | assumption | extract_lets | refine outcome_next ?_ | apply State.abandon_inv | apply State.dropPartial_inv | apply State.elapse_inv | refine State.inv_ite (fun _ => ?_) fun _ => ?_) | split

theorem execSessionIdleTimeout_inv {dt : ℕ} {session : ℕ} {s : State} (h : s.inv = true) : OutcomeInv (execSessionIdleTimeout dt session s) := by
  unfold execSessionIdleTimeout
  repeat' first | (with_reducible first | assumption | extract_lets | apply outcome_next | apply State.elapse_inv | apply State.closeSession_inv | refine State.inv_ite (fun _ => ?_) fun _ => ?_) | split

theorem State.blockRead_inv {s : State} {b : List Byte} (h : s.inv = true) : (State.blockRead s b).inv = true := by
  unfold State.blockRead
  repeat' first | (with_reducible first | assumption | extract_lets) | (with_reducible first | apply State.inv_keep)

theorem State.sidebandEvent_inv {s : State} (h : s.inv = true) : (State.sidebandEvent s).inv = true := by
  unfold State.sidebandEvent
  repeat' first | (with_reducible first | assumption | extract_lets | apply State.blockRead_inv | apply State.countEvent_inv | apply State.modSession_inv) | split

theorem execSidebandBlockRead_inv {dt : Nat} {s : State} (h : s.inv = true) : OutcomeInv (execSidebandBlockRead dt s) := by
  unfold execSidebandBlockRead
  repeat' first | (with_reducible first | assumption | extract_lets | refine outcome_next ?_ | apply State.blockRead_inv | apply State.elapse_inv | apply State.sidebandEvent_inv | refine fst_inv (by assumption) ?_ | refine snd_inv (by assumption) ?_ | refine State.inv_ite (fun _ => ?_) fun _ => ?_) | split | (with_reducible first | apply State.inv_keep)

end Sys2Proof.Machine
end

