-- ==== Sys2Proof/Laws/InvCruCmds.lean ====
section
/-!
SUPPORT. Every operation of Machine/CruCmds.lean keeps the invariant of the state.
-/
namespace Sys2Proof.Machine
open Sys2Proof

theorem listOp_inv {code : ℕ} : ∀ u, listOp code = some u → u.keeps := by
  intro u hu
  have hm := List.mem_of_find?_eq_some hu
  simp only [List.mem_cons, List.not_mem_nil, or_false] at hm
  rcases hm with rfl | rfl | rfl | rfl | rfl | rfl | rfl | rfl | rfl | rfl | rfl | rfl | rfl | rfl | rfl | rfl | rfl | rfl | rfl | rfl | rfl | rfl | rfl | rfl | rfl | rfl | rfl | rfl | rfl | rfl | rfl | rfl | rfl | rfl
  exacts [opFabRoute_inv, opFabRouteBatch_inv, opFabBondDefine_inv, opFabSyncAssign_inv, opEphSchedule_inv,
    opEphCancel_inv, opEphSalvo_inv, opEphGenConfig_inv, opLanConfig_inv, opLanSleep_inv,
    opLanSlotmask_inv, opNetPortConfig_inv, opNetFlowRx_inv, opNetFlowTx_inv, opNetFlowDel_inv,
    opAudRoute_inv, opAudPortConfig_inv, opMvwHeadConfig_inv, opMvwLayerSet_inv, opMvwCommit_inv,
    opMvwGraphicLoad_inv, opEncChannelCreate_inv, opEncChannelDelete_inv, opEncRateSet_inv, opEncXsDecodeCreate_inv,
    opTimDomainConfig_inv, opTimPulseProgram_inv, opTimRestep_inv, opRefTableSet_inv, opRefFramepulse_inv,
    opMemMapSet_inv, opMemPasrSet_inv, opPwrDomainSet_inv, opPwrIdleTimer_inv]

theorem runEntries_inv {x : Ctx} {i : ℕ} {l : List (ℕ × ℕ × List Byte)} {trail : List Byte} {r : ListRun} (h : r.state.inv = true) :
    (runEntries x i l trail r).state.inv = true := by
  induction l generalizing i trail r with
  | nil => exact h
  | cons e l ih =>
    unfold runEntries
    split
    · exact h
    · next op hop =>
      extract_lets isTake k y d
      split
      · exact h
      · split
        · exact h
        · exact ih (listOp_inv op hop _ _ _ h)

theorem changeList_inv {s : State} {x : Ctx} {p : List Byte} (h : s.inv = true) : (changeList s x p).state.inv = true := by
  unfold changeList
  repeat' first | (with_reducible first | assumption | extract_lets | apply runEntries_inv | apply weighChange_inv | refine State.inv_ite (fun _ => ?_) fun _ => ?_) | split | (with_reducible first | dsimp -zeta only)

theorem opCruCheck_inv : opCruCheck.keeps := by
  unfold opCruCheck
  apply OpSpec.keeps_mk
  intro s x p h
  repeat' first | (with_reducible first | assumption | extract_lets | apply changeList_inv | refine State.inv_ite (fun _ => ?_) fun _ => ?_) | split | (with_reducible first | dsimp -zeta only | apply State.inv_keep)

theorem opCruCommit_inv : opCruCommit.keeps := by
  unfold opCruCommit
  apply OpSpec.keeps_mk
  intro s x p h
  with_reducible repeat' first | assumption | apply changeList_inv

theorem opCruReport_inv : opCruReport.keeps := by
  unfold opCruReport
  apply OpSpec.keeps_mk
  intro s x p h
  repeat' first | (with_reducible first | assumption | extract_lets | apply Done.err_inv | apply Done.ok_inv) | split

theorem execCruCheck_inv {dt : ℕ} {rq : Req} {s : State} (h : s.inv = true) : OutcomeInv (execCruCheck dt rq s) := by
  unfold execCruCheck
  with_reducible repeat' first | assumption | apply outcome_next | apply serve_inv | apply opCruCheck_inv

theorem execCruCommit_inv {dt : ℕ} {rq : Req} {s : State} (h : s.inv = true) : OutcomeInv (execCruCommit dt rq s) := by
  unfold execCruCommit
  with_reducible repeat' first | assumption | apply outcome_next | apply serve_inv | apply opCruCommit_inv

theorem execCruReport_inv {dt : ℕ} {rq : Req} {s : State} (h : s.inv = true) : OutcomeInv (execCruReport dt rq s) := by
  unfold execCruReport
  with_reducible repeat' first | assumption | apply outcome_next | apply serve_inv | apply opCruReport_inv

theorem gateOp_inv {code : ℕ}  : (gateOp code).keeps := by
  unfold gateOp
  apply OpSpec.keeps_mk
  intro s x p h
  with_reducible repeat' first | assumption


theorem execCyxelFragment_inv {dt : Nat} {via : Transport} {bytes : List Byte} {pecOk : Bool} {s : State} (h : s.inv = true) : OutcomeInv (execCyxelFragment dt via bytes pecOk s) := by
  unfold execCyxelFragment
  extract_lets s1 rq op
  have h1 : s1.inv = true := State.elapse_inv h
  clear_value s1
  refine outcome_next (State.inv_ite (fun _ => State.inv_keep h1) fun _ => State.inv_ite (fun _ => h1) fun _ => ?_)
  split
  · exact h1
  · next s2 e =>
    have h2 : s2.inv = true := State.consume_inv h1 _ e
    refine State.inv_ite (fun _ => State.bump_inv h2) fun _ => State.inv_ite (fun _ => State.fragment_inv h2) fun _ => ?_
    split
    · exact Gate.ended_inv (by assumption) (State.newRequest_inv h2)
    · exact h1

end Sys2Proof.Machine
end

