-- ==== Sys2Proof/Laws/InvSnapCmds.lean ====
section
/-!
SUPPORT. Every operation of Machine/SnapCmds.lean keeps the invariant of the state.
-/
namespace Sys2Proof.Machine
open Sys2Proof

theorem State.snapPower_inv {s : State} {x : Snapshot} (h : s.inv = true) : (State.snapPower s x).inv = true := by
  unfold State.snapPower
  with_reducible repeat' first | assumption | extract_lets | apply State.wr_inv | apply State.setEnables_inv | refine inv_foldl ?_ fun _ _ _ => ?_

theorem State.snapMemory_inv {s : State} {x : Snapshot} (h : s.inv = true) : (s.snapMemory x).inv = true := by
  unfold State.snapMemory
  extract_lets own new s1 s2
  have h1 : s1.inv = true := State.inv_mk (RegFile.wf_foldl_ins (RegFile.wf_filter _ (State.inv_regs h))) (State.inv_mem h) (State.inv_flt h)
  have h2 : s2.inv = true := inv_foldl h1 fun t n ht => State.wr_inv ht
  exact State.storeChanged_inv (State.refreshSets_inv (State.regionChanges_inv h h2))

theorem State.snapLane_inv {s : State} {y : LaneSet} (h : s.inv = true) : (State.snapLane s y).inv = true := by
  unfold State.snapLane
  repeat' first | (with_reducible first | assumption | extract_lets | apply opLanConfig_inv | apply State.sleepLane_inv | apply opLanSlotmask_inv | apply OpSpec.run_inv | refine State.inv_ite (fun _ => ?_) fun _ => ?_) | split | (with_reducible first | dsimp +zetaDelta only)

theorem State.snapPort_inv {s : State} {x : Snapshot} {p : ℕ} (h : s.inv = true) : (State.snapPort s x p).inv = true := by
  unfold State.snapPort
  with_reducible repeat' first | assumption | extract_lets | apply State.applyMode_inv | apply State.wr_inv | apply State.modNetPort_inv | refine inv_foldl ?_ fun _ _ _ => ?_

theorem State.snapBuses_inv {s : State} {x : Snapshot} (h : s.inv = true) : (State.snapBuses s x).inv = true := by
  unfold State.snapBuses
  with_reducible repeat' first | assumption | extract_lets | apply State.putBus_inv | refine inv_foldl ?_ fun _ _ _ => ?_

theorem State.snapGenerator_inv {s : State} {x : Snapshot} {g : ℕ} (h : s.inv = true) : (State.snapGenerator s x g).inv = true := by
  unfold State.snapGenerator
  with_reducible repeat' first | assumption | extract_lets | apply State.wr_inv | apply State.rephase_inv | refine State.inv_ite (fun _ => ?_) fun _ => ?_ | refine inv_foldl ?_ fun _ _ _ => ?_

theorem State.snapClear_inv {s : State} (h : s.inv = true) : (State.snapClear s).inv = true := by
  unfold State.snapClear
  repeat' first | (with_reducible first | assumption | extract_lets | apply State.encodersOff_inv | apply State.headOff_inv | apply State.landingGone_inv | apply State.removeFlow_inv | refine inv_foldl ?_ fun _ _ _ => ?_) | split | (with_reducible first | apply State.inv_keep | apply State.inv_keepMem)

theorem State.snapLanding_inv {s : State} {x : Snapshot} (h : s.inv = true) : (State.snapLanding s x).inv = true := by
  unfold State.snapLanding
  with_reducible repeat' first | assumption | apply State.assignChannel_inv | refine inv_foldl ?_ fun _ _ _ => ?_

theorem State.snapRoutes_inv {s : State} {x : Snapshot} (h : s.inv = true) : (State.snapRoutes s x).inv = true := by
  unfold State.snapRoutes
  with_reducible repeat' first | assumption | extract_lets | apply State.wr_inv | apply State.takeRoutes_inv | refine State.inv_ite (fun _ => ?_) fun _ => ?_ | refine inv_foldl ?_ fun _ _ _ => ?_

theorem State.snapTakes_inv {s : State} {x : Snapshot} (h : s.inv = true) : (State.snapTakes s x).inv = true := by
  unfold State.snapTakes
  with_reducible repeat' first | assumption | extract_lets | apply State.addTake_inv | refine inv_foldl ?_ fun _ _ _ => ?_ | apply State.inv_keep

theorem State.snapFlow_inv {s : State} {f : Flow} (h : s.inv = true) : (State.snapFlow s f).inv = true := by
  unfold State.snapFlow
  with_reducible repeat' first | assumption | extract_lets | apply State.beginMeasure_inv | apply State.sendReport_inv | refine State.inv_ite (fun _ => ?_) fun _ => ?_ | refine inv_foldl ?_ fun _ _ _ => ?_ | apply State.inv_keep

theorem State.snapAudio_inv {s : State} {x : Snapshot} (h : s.inv = true) : (State.snapAudio s x).inv = true := by
  unfold State.snapAudio
  with_reducible repeat' first | assumption | extract_lets | apply State.wr_inv | apply State.audClkChanged_inv | refine inv_foldl ?_ fun _ _ _ => ?_ | apply State.inv_keep

theorem State.snapGraphic_inv {s : State} {x : Snapshot} {g : Graphic} (h : s.inv = true) : (State.snapGraphic s x g).inv = true := by
  unfold State.snapGraphic
  with_reducible repeat' first | assumption | extract_lets | apply State.allocBuffer_inv | apply State.memPut_inv | refine snd_inv (by assumption) ?_ | refine inv_foldl ?_ fun _ _ _ => ?_ | apply State.inv_keep

theorem State.snapCommit_inv {s : State} {h : ℕ} {f : ℕ} {y : HeadSet} (hi : s.inv = true) : (State.snapCommit s h f y).inv = true := by
  unfold State.snapCommit
  with_reducible repeat' first | assumption | extract_lets | apply State.putHead_inv | apply State.admitHead_inv

theorem State.snapHead_inv {s : State} {x : Snapshot} {y : Head} (h : s.inv = true) : (State.snapHead s x y).inv = true := by
  unfold State.snapHead
  repeat' first | (with_reducible first | assumption | extract_lets | apply opMvwHeadConfig_inv | apply State.snapCommit_inv | apply State.putHead_inv | apply OpSpec.run_inv | refine inv_foldl ?_ fun _ _ _ => ?_) | split | (with_reducible first | dsimp +zetaDelta only)

theorem State.snapChannel_inv {s : State} {x : EncChan} (h : s.inv = true) : (State.snapChannel s x).inv = true := by
  unfold State.snapChannel
  with_reducible repeat' first | assumption | extract_lets | apply State.takePorts_inv | apply State.allocBuffer_inv | apply State.wr_inv | apply State.encRegs_inv | refine snd_inv (by assumption) ?_ | refine State.inv_ite (fun _ => ?_) fun _ => ?_ | apply State.inv_keep

theorem State.snapDecoder_inv {s : State} {x : XsDecoder} (h : s.inv = true) : (State.snapDecoder s x).inv = true := by
  unfold State.snapDecoder
  repeat' first | (with_reducible first | assumption | extract_lets | apply State.encRegs_inv | apply State.beginMeasure_inv) | split | (with_reducible first | apply State.inv_keep)

theorem State.snapDomain_inv {s : State} {d : ℕ} {y : PtpDomain} (h : s.inv = true) : (State.snapDomain s d y).inv = true := by
  unfold State.snapDomain
  repeat' first | (with_reducible first | assumption | extract_lets | apply State.endCause_inv | apply State.wr_inv | apply State.modPtp_inv | apply State.entryChanged_inv | refine State.inv_ite (fun _ => ?_) fun _ => ?_) | split

theorem State.snapTime_inv {s : State} {x : Snapshot} (h : s.inv = true) : (State.snapTime s x).inv = true := by
  unfold State.snapTime
  repeat' first | (with_reducible first | assumption | extract_lets | apply State.modTim_inv | apply State.modTp_inv | apply State.snapDomain_inv | apply State.tpLevel_inv | apply State.tpRegs_inv | apply State.wr_inv | refine inv_foldl ?_ fun _ _ _ => ?_) | split

theorem State.snapRef_inv {s : State} {x : Snapshot} (h : s.inv = true) : (State.snapRef s x).inv = true := by
  unfold State.snapRef
  with_reducible repeat' first | assumption | extract_lets | apply State.modRef_inv | apply opRefFramepulse_inv | apply OpSpec.run_inv | refine inv_foldl ?_ fun _ _ _ => ?_

theorem State.applySnapshot_inv {s : State} {x : Snapshot} (h : s.inv = true) : (State.applySnapshot s x).inv = true := by
  unfold State.applySnapshot
  with_reducible repeat' first | assumption | extract_lets | apply State.snapMemory_inv | apply State.snapPower_inv | apply State.snapLane_inv | apply State.snapClear_inv | apply State.snapBuses_inv | apply State.snapPort_inv | apply State.snapGenerator_inv | apply State.snapLanding_inv | apply State.snapTakes_inv | apply State.snapRoutes_inv | apply State.snapAudio_inv | apply State.snapFlow_inv | apply State.snapGraphic_inv | apply State.snapHead_inv | apply State.snapDecoder_inv | apply State.snapChannel_inv | apply State.noteOver_inv | apply State.snapRef_inv | apply State.snapTime_inv | refine inv_foldl ?_ fun _ _ _ => ?_ | apply State.inv_keep

theorem mirrorOp_inv {code : ℕ} : ∀ u, mirrorOp code = some u → u.keeps := by
  intro u hu
  unfold mirrorOp at hu
  split_ifs at hu
  · cases hu; exact opCruCommit_inv
  · cases hu; exact opSysResetUnit_inv
  · cases hu; exact opVltDerive_inv
  · cases hu; exact opVltInvalidate_inv
  · cases hu; exact opVltImport_inv
  · exact listOp_inv u hu

theorem State.applyMirror_inv {s : State} {e : Nat × Req} (h : s.inv = true) : (State.applyMirror s e).inv = true := by
  unfold State.applyMirror
  repeat' first | (with_reducible first | assumption | extract_lets | apply State.conclude_inv | apply OpSpec.perform_inv | apply State.served_inv | exact mirrorOp_inv _ (by assumption)) | split

theorem State.takeSnapshot_inv {s : State} {x : Snapshot} (h : s.inv = true) : (State.takeSnapshot s x).inv = true := by
  unfold State.takeSnapshot
  with_reducible repeat' first | assumption | extract_lets | apply State.applySnapshot_inv | apply State.wr_inv | apply State.applyMirror_inv | apply State.tryConverge_inv | refine inv_foldl ?_ fun _ _ _ => ?_ | apply State.inv_keep

theorem execSnapshotReceive_inv {dt : ℕ} {bytes : List Byte} {seg : SnapPart} {s : State} (h : s.inv = true) : OutcomeInv (execSnapshotReceive dt bytes seg s) := by
  unfold execSnapshotReceive
  repeat' first | (with_reducible first | assumption | extract_lets | apply outcome_next | apply State.twinTake_inv | apply State.elapse_inv | apply State.twinSend_inv | apply State.wr_inv | apply State.takeSnapshot_inv | refine fst_inv (by assumption) ?_ | refine State.inv_ite (fun _ => ?_) fun _ => ?_) | split | (with_reducible first | apply State.inv_keep)

end Sys2Proof.Machine
end

