-- ==== Sys2Proof/Laws/InvRegBus.lean ====
section
/-!
SUPPORT. Every operation of Machine/RegBus.lean keeps the invariant of the state.
-/
namespace Sys2Proof.Machine
open Sys2Proof

theorem State.listLimit_inv {s : State} (h : s.inv = true) : (State.listLimit s).inv = true := by
  unfold State.listLimit
  with_reducible repeat' first | assumption | extract_lets | apply State.wr_inv

theorem State.freshen_inv {s : State} {w : Nat} {off : Nat} (h : s.inv = true) : (State.freshen s w off).inv = true := by
  unfold State.freshen
  repeat' first | (with_reducible first | assumption | extract_lets | apply State.entryStats_inv | apply State.freeWord_inv | apply State.indirectWord_inv | apply State.listLimit_inv | apply State.wr_inv | apply State.wr64_inv | apply State.wrInt_inv | refine State.inv_ite (fun _ => ?_) fun _ => ?_ | refine inv_foldl ?_ fun _ _ _ => ?_) | split

theorem State.putCoef_inv {s : State} {c : Nat × Bool × Nat × Nat × Int} (h : s.inv = true) : (State.putCoef s c).inv = true := by
  unfold State.putCoef
  repeat' first | (with_reducible first | assumption | extract_lets | refine State.inv_ite (fun _ => ?_) fun _ => ?_) | (with_reducible first | apply State.inv_keep)

theorem State.mvwIndirect_inv {s : State} {index : Nat} {v : Nat} (h : s.inv = true) : (State.mvwIndirect s index v).inv = true := by
  unfold State.mvwIndirect
  repeat' first | (with_reducible first | assumption | extract_lets | apply State.putCoef_inv | apply State.putHead_inv | refine inv_foldl ?_ fun _ _ _ => ?_) | split

theorem State.indirectWord_inv {s : State} {w : Nat} {off : Nat} (h : s.inv = true) : (State.indirectWord s w off).2.inv = true := by
  unfold State.indirectWord
  repeat' first | (with_reducible first | assumption | extract_lets | apply State.freeWord_inv | refine State.inv_ite (fun _ => ?_) fun _ => ?_) | split

theorem State.registerWord_inv {s : State} {w : Nat} {off : Nat} (h : s.inv = true) : (State.registerWord s w off).2.inv = true := by
  unfold State.registerWord
  repeat' first | (with_reducible first | assumption | extract_lets | apply State.indirectWord_inv | apply State.freshen_inv | refine State.inv_ite (fun _ => ?_) fun _ => ?_) | split | (with_reducible first | apply State.inv_keepMem)

theorem State.voteWritten_inv {s : State} {w : ℕ} {off : ℕ} {x : FieldDef × FieldRef} (h : s.inv = true) : (State.voteWritten s w off x).inv = true := by
  unfold State.voteWritten
  with_reducible repeat' first | assumption | extract_lets | apply State.endCause_inv | refine State.inv_ite (fun _ => ?_) fun _ => ?_ | apply State.inv_keepFlt

theorem State.writeField_inv {old : State} {w : ℕ} {off : ℕ} {v : ℕ} {s : State} {x : FieldDef × FieldRef} (hold : old.inv = true) (hs : s.inv = true) : (State.writeField old w off v s x).inv = true := by
  unfold State.writeField
  repeat' first | (with_reducible first | assumption | extract_lets | apply State.wr_inv | apply State.voteWritten_inv | refine State.inv_ite (fun _ => ?_) fun _ => ?_) | split

theorem State.lockViolation_inv {s : State} {m : ℕ} {w : ℕ} {off : ℕ} {v : ℕ} (h : s.inv = true) : (State.lockViolation s m w off v).inv = true := by
  unfold State.lockViolation
  with_reducible repeat' first | assumption | extract_lets | apply State.bumpSat_inv | apply State.wr_inv | apply State.raise_inv | refine State.inv_ite (fun _ => ?_) fun _ => ?_

theorem State.writeFields_inv {s : State} {m : ℕ} {w : ℕ} {off : ℕ} {v : ℕ} (h : s.inv = true) : (State.writeFields s m w off v).inv = true := by
  unfold State.writeFields
  with_reducible repeat' first | assumption | extract_lets | apply State.writeField_inv | apply State.lockViolation_inv | refine State.inv_ite (fun _ => ?_) fun _ => ?_ | refine inv_foldl ?_ fun _ _ _ => ?_

end Sys2Proof.Machine
end

