-- ==== Sys2Proof/Laws/InvRegFx.lean ====
section
/-!
SUPPORT. Every operation of Machine/RegFx.lean keeps the invariant of the state.
-/
namespace Sys2Proof.Machine
open Sys2Proof

theorem State.enableMask_inv {s : State} {m : ℕ} (h : s.inv = true) : (State.enableMask s m).inv = true := by
  unfold State.enableMask
  with_reducible repeat' first | assumption | extract_lets | apply State.raiseAll_inv | apply State.setEnables_inv

theorem State.enablesWritten_inv {s : State} (h : s.inv = true) : (State.enablesWritten s).inv = true := by
  unfold State.enablesWritten
  with_reducible repeat' first | assumption | apply State.voteWritten_inv | refine inv_foldl ?_ fun _ _ _ => ?_

theorem State.powerMask_inv {s : State} {off : ℕ} {v : ℕ} (h : s.inv = true) : (State.powerMask s off v).inv = true := by
  unfold State.powerMask
  with_reducible repeat' first | assumption | extract_lets | apply State.enableMask_inv | apply State.enablesWritten_inv | apply State.wr64_inv | refine State.inv_ite (fun _ => ?_) fun _ => ?_ | apply State.inv_keep

theorem State.pwrWritten_inv {s : State} {off : ℕ} {v : ℕ} (h : s.inv = true) : (State.pwrWritten s off v).inv = true := by
  unfold State.pwrWritten
  with_reducible repeat' first | assumption | apply State.timerLoad_inv | refine State.inv_ite (fun _ => ?_) fun _ => ?_

theorem State.sysWritten_inv {s : State} {off : Nat} (h : s.inv = true) : (State.sysWritten s off).inv = true := by
  unfold State.sysWritten
  with_reducible repeat' first | assumption | extract_lets | apply State.noteOver_inv | apply State.wr_inv | refine State.inv_ite (fun _ => ?_) fun _ => ?_

theorem State.fltWritten_inv {s : State} {off : ℕ} {v : ℕ} (h : s.inv = true) : (State.fltWritten s off v).inv = true := by
  unfold State.fltWritten
  with_reducible repeat' first | assumption | apply State.errPin_inv | apply State.wr_inv | apply State.injectFault_inv | refine State.inv_ite (fun _ => ?_) fun _ => ?_

theorem State.twnWritten_inv {s : State} {off : ℕ} {v : ℕ} (h : s.inv = true) : (State.twnWritten s off v).inv = true := by
  unfold State.twnWritten
  with_reducible repeat' first | assumption | apply State.leaseGates_inv | apply State.leaseArmGo_inv | apply State.loseLease_inv | apply State.storeChanged_inv | refine State.inv_ite (fun _ => ?_) fun _ => ?_

theorem State.memWritten_inv {old : State} {s : State} {off : ℕ} (hold : old.inv = true) (hs : s.inv = true) : (State.memWritten old s off).inv = true := by
  unfold State.memWritten
  with_reducible repeat' first | assumption | apply State.storeChanged_inv | apply State.refreshSets_inv | apply State.regionChanges_inv | refine State.inv_ite (fun _ => ?_) fun _ => ?_


theorem State.cyxWritten_inv {old : State} {s : State} {off : ℕ} {v : ℕ} (hold : old.inv = true) (hs : s.inv = true) : (State.cyxWritten old s off v).inv = true := by
  unfold State.cyxWritten
  with_reducible repeat' first | assumption | extract_lets | apply State.wr_inv | apply State.pushHeld_inv | refine State.inv_ite (fun _ => ?_) fun _ => ?_ | apply State.inv_keep

theorem State.ldgWritten_inv {s : State} {off : ℕ} (h : s.inv = true) : (State.ldgWritten s off).inv = true := by
  unfold State.ldgWritten
  with_reducible repeat' first | assumption | extract_lets | refine State.inv_ite (fun _ => ?_) fun _ => ?_ | apply State.inv_keep

theorem State.deckSnap_inv {s : State} (h : s.inv = true) : (State.deckSnap s).inv = true := by
  unfold State.deckSnap
  with_reducible repeat' first | assumption | extract_lets | apply State.deckSweep_inv | apply State.wr_inv | apply State.inv_keep

theorem State.fabWritten_inv {old : State} {s : State} {off : Nat} {v : Nat} (h : old.inv = true) (h1 : s.inv = true) : (State.fabWritten old s off v).inv = true := by
  unfold State.fabWritten
  with_reducible repeat' first | assumption | extract_lets | apply State.bump_inv | apply State.deckSnap_inv | apply State.putPort_inv | apply State.raiseWithin_inv | apply State.shadowWritten_inv | refine State.inv_ite (fun _ => ?_) fun _ => ?_

theorem State.ephWritten_inv {old : State} {s : State} {off : ℕ} {v : ℕ} (hold : old.inv = true) (hs : s.inv = true) : (State.ephWritten old s off v).inv = true := by
  unfold State.ephWritten
  with_reducible repeat' first | assumption | extract_lets | apply State.genEnabled_inv | apply State.genLoad_inv | refine State.inv_ite (fun _ => ?_) fun _ => ?_

theorem State.lnqWritten_inv {old : State} {s : State} {l : Nat} {r : Nat} {v : Nat} {stave : Bool} (h : old.inv = true) (h1 : s.inv = true) : (State.lnqWritten old s l r v stave).inv = true := by
  unfold State.lnqWritten
  with_reducible repeat' first | assumption | extract_lets | apply State.deriveC0_inv | apply State.onAdaptWrite_inv | apply State.onLcfgWrite_inv | apply State.onMaskGo_inv | apply State.onSleepWrite_inv | apply State.sendPattern_inv | apply State.wr_inv | refine State.inv_ite (fun _ => ?_) fun _ => ?_

theorem State.netWritten_inv {old : State} {s : State} {p : ℕ} {off : ℕ} {v : ℕ} (hold : old.inv = true) (hs : s.inv = true) : (State.netWritten old s p off v).inv = true := by
  unfold State.netWritten
  with_reducible repeat' first | assumption | apply State.onNetCtl_inv | apply State.ringResize_inv | apply State.ringPi_inv | apply State.flowSnap_inv | apply State.onModXfer_inv | refine State.inv_ite (fun _ => ?_) fun _ => ?_

theorem State.audWritten_inv {old : State} {s : State} {off : ℕ} {v : ℕ} (hold : old.inv = true) (hs : s.inv = true) : (State.audWritten old s off v).inv = true := by
  unfold State.audWritten
  with_reducible repeat' first | assumption | apply State.audClkChanged_inv | apply State.audSnap_inv | refine State.inv_ite (fun _ => ?_) fun _ => ?_

theorem State.mvwWritten_inv {old : State} {s : State} {off : Nat} (h : old.inv = true) (h1 : s.inv = true) : (State.mvwWritten old s off).inv = true := by
  unfold State.mvwWritten
  with_reducible repeat' first | assumption | extract_lets | apply State.bump_inv | apply State.headTurns_inv | apply State.putHead_inv | refine State.inv_ite (fun _ => ?_) fun _ => ?_

theorem State.encWritten_inv {old : State} {s : State} {off : ℕ} (hold : old.inv = true) (hs : s.inv = true) : (State.encWritten old s off).inv = true := by
  unfold State.encWritten
  with_reducible repeat' first | assumption | extract_lets | apply State.encEngineLost_inv | refine State.inv_ite (fun _ => ?_) fun _ => ?_ | refine inv_foldl ?_ fun _ _ _ => ?_

theorem State.timWritten_inv {s : State} {off : ℕ} {v : ℕ} (h : s.inv = true) : (State.timWritten s off v).inv = true := by
  unfold State.timWritten
  with_reducible repeat' first | assumption | apply State.timSnap_inv | apply State.timSetGo_inv | apply State.timPulseLoad_inv | refine State.inv_ite (fun _ => ?_) fun _ => ?_

theorem State.refWritten_inv {old : State} {s : State} {off : Nat} (h : old.inv = true) (h1 : s.inv = true) : (State.refWritten old s off).inv = true := by
  unfold State.refWritten
  with_reducible repeat' first | assumption | extract_lets | apply State.clockChanged_inv | apply State.entriesChanged_inv | apply State.fpChanged_inv | apply State.refCheckAll_inv | apply State.selectEntry_inv | refine State.inv_ite (fun _ => ?_) fun _ => ?_

theorem State.dmcWritten_inv {s : State} {n : ℕ} {off : ℕ} {v : ℕ} (h : s.inv = true) : (State.dmcWritten s n off v).inv = true := by
  unfold State.dmcWritten
  with_reducible repeat' first | assumption | apply State.patGo_inv | apply State.wr_inv | refine State.inv_ite (fun _ => ?_) fun _ => ?_

theorem State.written_inv {old : State} {s : State} {w : ℕ} {off : ℕ} {v : ℕ} (hold : old.inv = true) (hs : s.inv = true) : (State.written old s w off v).inv = true := by
  unfold State.written
  with_reducible repeat' first | assumption | extract_lets | apply State.sysWritten_inv | apply State.fltWritten_inv | apply State.pwrWritten_inv | apply State.timWritten_inv | apply State.refWritten_inv | apply State.twnWritten_inv | apply State.fabWritten_inv | apply State.ephWritten_inv | apply State.ldgWritten_inv | apply State.audWritten_inv | apply State.mvwWritten_inv | apply State.encWritten_inv | apply State.memWritten_inv | apply State.lnqWritten_inv | apply State.dmcWritten_inv | apply State.netWritten_inv | apply State.cyxWritten_inv | refine State.inv_ite (fun _ => ?_) fun _ => ?_

end Sys2Proof.Machine
end

