-- ==== Sys2Proof/Laws/InvRegCmds.lean ====
section
/-!
SUPPORT. Every operation of Machine/RegCmds.lean keeps the invariant of the state.
-/
namespace Sys2Proof.Machine
open Sys2Proof

theorem State.accessError_inv {s : State} {m addr target kind : ℕ} (h : s.inv = true) : (s.accessError m addr target kind).inv = true := by
  unfold State.accessError
  extract_lets a c s1
  have ha : a.inv = true := State.wr_inv (State.wr_inv (State.wr_inv (State.wr64_inv h)))
  have h1 : s1.inv = true := State.inv_ite (fun _ => State.inv_mk (State.inv_regs ha) (State.inv_mem h) (State.inv_flt ha)) fun _ => h
  exact State.inv_ite (fun _ => h) fun _ => State.raise_inv h1

theorem State.refuseAccess_inv {s : State} {m : ℕ} {addr : ℕ} {kind : Option ℕ} (h : s.inv = true) : (State.refuseAccess s m addr kind).inv = true := by
  unfold State.refuseAccess
  repeat' first | (with_reducible first | assumption | apply State.accessError_inv | apply State.wr_inv) | split

theorem State.noteBypass_inv {s : State} {m : ℕ} {w : ℕ} {off : ℕ} (h : s.inv = true) : (State.noteBypass s m w off).inv = true := by
  unfold State.noteBypass
  with_reducible repeat' first | assumption | apply State.noteOver_inv | apply State.wr_inv | refine State.inv_ite (fun _ => ?_) fun _ => ?_

theorem State.blkStatWrite_inv {s : State} {w : ℕ} {v : ℕ} (h : s.inv = true) : (State.blkStatWrite s w v).inv = true := by
  unfold State.blkStatWrite
  with_reducible repeat' first | assumption | apply State.wr_inv | refine State.inv_ite (fun _ => ?_) fun _ => ?_ | refine inv_foldl ?_ fun _ _ _ => ?_

theorem State.putWord_inv {s : State} {m : Nat} {w : Nat} {off : Nat} {v : Nat} (h : s.inv = true) : (State.putWord s m w off v).inv = true := by
  unfold State.putWord
  with_reducible repeat' first | assumption | extract_lets | apply State.blkStatWrite_inv | apply State.listLimit_inv | apply State.mvwIndirect_inv | apply State.noteBypass_inv | apply State.powerMask_inv | apply State.wr_inv | apply State.writeFields_inv | apply State.written_inv | refine State.inv_ite (fun _ => ?_) fun _ => ?_

theorem State.putBits_inv {s : State} {m : ℕ} {w : ℕ} {off : ℕ} {bits : ℕ} {v : ℕ} (h : s.inv = true) : (State.putBits s m w off bits v).inv = true := by
  unfold State.putBits
  with_reducible repeat' first | assumption | extract_lets | apply State.putWord_inv | apply State.registerWord_inv | refine snd_inv (by assumption) ?_ | refine State.inv_ite (fun _ => ?_) fun _ => ?_

theorem State.landPosted_inv {s : State} {w : ℕ} (h : s.inv = true) : (State.landPosted s w).inv = true := by
  unfold State.landPosted
  repeat' first | (with_reducible first | assumption | extract_lets | apply State.putBits_inv) | split | (with_reducible first | apply State.inv_keep)

theorem State.travel_inv {s : State} {w : Nat} (h : s.inv = true) : (State.travel s w).inv = true := by
  unfold State.travel
  repeat' first | (with_reducible first | assumption | extract_lets) | (with_reducible first | apply State.inv_keep)

theorem State.postedDone_inv {s : State} {w : Nat} (h : s.inv = true) : (State.postedDone s w).inv = true := by
  unfold State.postedDone
  repeat' first | (with_reducible first | assumption | extract_lets) | (with_reducible first | apply State.inv_keep)

theorem State.registerWrite_inv {s : State} {m : ℕ} {addr : ℕ} {bits : ℕ} {v : ℕ} (h : s.inv = true) : (State.registerWrite s m addr bits v).inv = true := by
  unfold State.registerWrite
  repeat' first | (with_reducible first | assumption | extract_lets | apply State.respond_inv | apply State.refuseAccess_inv | apply State.wr_inv | apply State.putBits_inv | refine State.inv_ite (fun _ => ?_) fun _ => ?_) | split | (with_reducible first | apply State.inv_keep)

theorem State.registerRead_inv {s : State} {m : Nat} {addr : Nat} {bits : Nat} (h : s.inv = true) : (State.registerRead s m addr bits).inv = true := by
  unfold State.registerRead
  repeat' first | (with_reducible first | assumption | extract_lets | apply State.respond_inv | apply State.refuseAccess_inv | apply State.landPosted_inv | apply State.postedDone_inv | apply State.registerWord_inv | refine snd_inv (by assumption) ?_ | refine State.inv_ite (fun _ => ?_) fun _ => ?_) | split | (with_reducible first | dsimp +zetaDelta only)

theorem State.rowWrite_inv {s : State} {m : Nat} {w : Nat} {off : Nat} {v : Nat} (h : s.inv = true) : (State.rowWrite s m w off v).inv = true := by
  unfold State.rowWrite
  repeat' first | (with_reducible first | assumption | extract_lets | apply State.landPosted_inv | apply State.registerWrite_inv | apply State.travel_inv | refine State.inv_ite (fun _ => ?_) fun _ => ?_) | split

theorem execRegisterWrite_inv {dt : ℕ} {master : ℕ} {addr : ℕ} {bits : ℕ} {value : ℕ} {s : State} (h : s.inv = true) : OutcomeInv (execRegisterWrite dt master addr bits value s) := by
  unfold execRegisterWrite
  with_reducible repeat' first | assumption | extract_lets | apply outcome_next | apply State.elapse_inv | apply State.registerWrite_inv | refine State.inv_ite (fun _ => ?_) fun _ => ?_

theorem execPostedWriteLand_inv {dt : ℕ} {w : ℕ} {s : State} (h : s.inv = true) : OutcomeInv (execPostedWriteLand dt w s) := by
  unfold execPostedWriteLand
  with_reducible repeat' first | assumption | apply outcome_next | apply State.landPosted_inv | apply State.elapse_inv

theorem execBlkStatWrite_inv {dt : ℕ} {master : ℕ} {w : ℕ} {value : ℕ} {s : State} (h : s.inv = true) : OutcomeInv (execBlkStatWrite dt master w value s) := by
  unfold execBlkStatWrite
  with_reducible repeat' first | assumption | apply outcome_next | apply State.rowWrite_inv | apply State.elapse_inv | refine State.inv_ite (fun _ => ?_) fun _ => ?_

theorem execSkwErrAddrHiRead_inv {dt : Nat} {master : Nat} {s : State} (h : s.inv = true) : OutcomeInv (execSkwErrAddrHiRead dt master s) := by
  unfold execSkwErrAddrHiRead
  with_reducible repeat' first | assumption | extract_lets | refine outcome_next ?_ | apply State.elapse_inv | apply State.registerRead_inv | refine State.inv_ite (fun _ => ?_) fun _ => ?_

theorem execSysCtlRemapWrite_inv {dt : ℕ} {master : ℕ} {value : ℕ} {s : State} (h : s.inv = true) : OutcomeInv (execSysCtlRemapWrite dt master value s) := by
  unfold execSysCtlRemapWrite
  with_reducible repeat' first | assumption | apply outcome_next | apply State.rowWrite_inv | apply State.elapse_inv

theorem execFabSelCurWrite_inv {dt : ℕ} {master : ℕ} {q : ℕ} {value : ℕ} {s : State} (h : s.inv = true) : OutcomeInv (execFabSelCurWrite dt master q value s) := by
  unfold execFabSelCurWrite
  with_reducible repeat' first | assumption | apply outcome_next | apply State.rowWrite_inv | apply State.elapse_inv | refine State.inv_ite (fun _ => ?_) fun _ => ?_

theorem execFabLdSnap_inv {dt : ℕ} {master : ℕ} {value : ℕ} {s : State} (h : s.inv = true) : OutcomeInv (execFabLdSnap dt master value s) := by
  unfold execFabLdSnap
  with_reducible repeat' first | assumption | apply outcome_next | apply State.rowWrite_inv | apply State.elapse_inv

theorem execEphGenLoad_inv {dt : ℕ} {master : ℕ} {g : ℕ} {value : ℕ} {s : State} (h : s.inv = true) : OutcomeInv (execEphGenLoad dt master g value s) := by
  unfold execEphGenLoad
  with_reducible repeat' first | assumption | apply outcome_next | apply State.rowWrite_inv | apply State.elapse_inv | refine State.inv_ite (fun _ => ?_) fun _ => ?_

theorem execEphGenEnWrite_inv {dt : ℕ} {master : ℕ} {g : ℕ} {value : ℕ} {s : State} (h : s.inv = true) : OutcomeInv (execEphGenEnWrite dt master g value s) := by
  unfold execEphGenEnWrite
  with_reducible repeat' first | assumption | apply outcome_next | apply State.rowWrite_inv | apply State.elapse_inv | refine State.inv_ite (fun _ => ?_) fun _ => ?_

theorem State.laneRow_inv {s : State} {m : ℕ} {l : ℕ} {r : ℕ} {v : ℕ} (h : s.inv = true) : (State.laneRow s m l r v).inv = true := by
  unfold State.laneRow
  with_reducible repeat' first | assumption | apply State.rowWrite_inv | refine State.inv_ite (fun _ => ?_) fun _ => ?_

theorem execLnqSleepWrite_inv {dt : ℕ} {master : ℕ} {l : ℕ} {value : ℕ} {s : State} (h : s.inv = true) : OutcomeInv (execLnqSleepWrite dt master l value s) := by
  unfold execLnqSleepWrite
  with_reducible repeat' first | assumption | apply outcome_next | apply State.laneRow_inv | apply State.elapse_inv

theorem execLnqLcfgWrite_inv {dt : ℕ} {master : ℕ} {l : ℕ} {value : ℕ} {s : State} (h : s.inv = true) : OutcomeInv (execLnqLcfgWrite dt master l value s) := by
  unfold execLnqLcfgWrite
  with_reducible repeat' first | assumption | apply outcome_next | apply State.laneRow_inv | apply State.elapse_inv

theorem execLnqAdaptRestart_inv {dt : ℕ} {master : ℕ} {l : ℕ} {value : ℕ} {s : State} (h : s.inv = true) : OutcomeInv (execLnqAdaptRestart dt master l value s) := by
  unfold execLnqAdaptRestart
  with_reducible repeat' first | assumption | apply outcome_next | apply State.laneRow_inv | apply State.elapse_inv

theorem execLnqAdaptFreeze_inv {dt : ℕ} {master : ℕ} {l : ℕ} {value : ℕ} {s : State} (h : s.inv = true) : OutcomeInv (execLnqAdaptFreeze dt master l value s) := by
  unfold execLnqAdaptFreeze
  with_reducible repeat' first | assumption | apply outcome_next | apply State.laneRow_inv | apply State.elapse_inv

theorem execLnqFomMinclr_inv {dt : ℕ} {master : ℕ} {l : ℕ} {value : ℕ} {s : State} (h : s.inv = true) : OutcomeInv (execLnqFomMinclr dt master l value s) := by
  unfold execLnqFomMinclr
  with_reducible repeat' first | assumption | apply outcome_next | apply State.laneRow_inv | apply State.elapse_inv

theorem execLnqPrbsWrite_inv {dt : ℕ} {master : ℕ} {l : ℕ} {value : ℕ} {s : State} (h : s.inv = true) : OutcomeInv (execLnqPrbsWrite dt master l value s) := by
  unfold execLnqPrbsWrite
  with_reducible repeat' first | assumption | apply outcome_next | apply State.laneRow_inv | apply State.elapse_inv

theorem execLnqStxMaskGo_inv {dt : ℕ} {master : ℕ} {l : ℕ} {value : ℕ} {s : State} (h : s.inv = true) : OutcomeInv (execLnqStxMaskGo dt master l value s) := by
  unfold execLnqStxMaskGo
  with_reducible repeat' first | assumption | apply outcome_next | apply State.laneRow_inv | apply State.elapse_inv

theorem State.portRow_inv {s : State} {m : ℕ} {p : ℕ} {off : ℕ} {v : ℕ} (h : s.inv = true) : (State.portRow s m p off v).inv = true := by
  unfold State.portRow
  with_reducible repeat' first | assumption | apply State.rowWrite_inv | refine State.inv_ite (fun _ => ?_) fun _ => ?_

theorem execNetRingSizeWrite_inv {dt : ℕ} {master : ℕ} {p : ℕ} {k : ℕ} {value : ℕ} {s : State} (h : s.inv = true) : OutcomeInv (execNetRingSizeWrite dt master p k value s) := by
  unfold execNetRingSizeWrite
  with_reducible repeat' first | assumption | apply outcome_next | apply State.portRow_inv | apply State.elapse_inv | refine State.inv_ite (fun _ => ?_) fun _ => ?_

theorem execNetRingPiWrite_inv {dt : ℕ} {master : ℕ} {p : ℕ} {k : ℕ} {value : ℕ} {s : State} (h : s.inv = true) : OutcomeInv (execNetRingPiWrite dt master p k value s) := by
  unfold execNetRingPiWrite
  with_reducible repeat' first | assumption | apply outcome_next | apply State.portRow_inv | apply State.elapse_inv | refine State.inv_ite (fun _ => ?_) fun _ => ?_

theorem execNetCtlWrite_inv {dt : ℕ} {master : ℕ} {p : ℕ} {value : ℕ} {s : State} (h : s.inv = true) : OutcomeInv (execNetCtlWrite dt master p value s) := by
  unfold execNetCtlWrite
  with_reducible repeat' first | assumption | apply outcome_next | apply State.portRow_inv | apply State.elapse_inv

theorem execNetFlowSnap_inv {dt : ℕ} {master : ℕ} {value : ℕ} {s : State} (h : s.inv = true) : OutcomeInv (execNetFlowSnap dt master value s) := by
  unfold execNetFlowSnap
  with_reducible repeat' first | assumption | apply outcome_next | apply State.rowWrite_inv | apply State.elapse_inv

theorem execModXferGo_inv {dt : ℕ} {master : ℕ} {value : ℕ} {s : State} (h : s.inv = true) : OutcomeInv (execModXferGo dt master value s) := by
  unfold execModXferGo
  with_reducible repeat' first | assumption | apply outcome_next | apply State.rowWrite_inv | apply State.elapse_inv

theorem State.ringRow_inv {s : State} {m : ℕ} {n : ℕ} {r : ℕ} {v : ℕ} (h : s.inv = true) : (State.ringRow s m n r v).inv = true := by
  unfold State.ringRow
  with_reducible repeat' first | assumption | apply State.rowWrite_inv | refine State.inv_ite (fun _ => ?_) fun _ => ?_

theorem execCyxRqPiWrite_inv {dt : ℕ} {master : ℕ} {n : ℕ} {value : ℕ} {s : State} (h : s.inv = true) : OutcomeInv (execCyxRqPiWrite dt master n value s) := by
  unfold execCyxRqPiWrite
  with_reducible repeat' first | assumption | apply outcome_next | apply State.ringRow_inv | apply State.elapse_inv

theorem execCyxRingSizeWrite_inv {dt : ℕ} {master : ℕ} {n : ℕ} {value : ℕ} {s : State} (h : s.inv = true) : OutcomeInv (execCyxRingSizeWrite dt master n value s) := by
  unfold execCyxRingSizeWrite
  with_reducible repeat' first | assumption | apply outcome_next | apply State.ringRow_inv | apply State.elapse_inv

theorem execCyxRpCiWrite_inv {dt : ℕ} {master : ℕ} {n : ℕ} {value : ℕ} {s : State} (h : s.inv = true) : OutcomeInv (execCyxRpCiWrite dt master n value s) := by
  unfold execCyxRpCiWrite
  with_reducible repeat' first | assumption | apply outcome_next | apply State.ringRow_inv | apply State.elapse_inv

theorem execAudSnap_inv {dt : ℕ} {master : ℕ} {value : ℕ} {s : State} (h : s.inv = true) : OutcomeInv (execAudSnap dt master value s) := by
  unfold execAudSnap
  with_reducible repeat' first | assumption | apply outcome_next | apply State.rowWrite_inv | apply State.elapse_inv

theorem execAudClkWrite_inv {dt : ℕ} {master : ℕ} {value : ℕ} {s : State} (h : s.inv = true) : OutcomeInv (execAudClkWrite dt master value s) := by
  unfold execAudClkWrite
  with_reducible repeat' first | assumption | apply outcome_next | apply State.rowWrite_inv | apply State.elapse_inv

theorem execTimSnap_inv {dt : ℕ} {master : ℕ} {value : ℕ} {s : State} (h : s.inv = true) : OutcomeInv (execTimSnap dt master value s) := by
  unfold execTimSnap
  with_reducible repeat' first | assumption | apply outcome_next | apply State.rowWrite_inv | apply State.elapse_inv

theorem execTimSetGo_inv {dt : ℕ} {master : ℕ} {value : ℕ} {s : State} (h : s.inv = true) : OutcomeInv (execTimSetGo dt master value s) := by
  unfold execTimSetGo
  with_reducible repeat' first | assumption | apply outcome_next | apply State.rowWrite_inv | apply State.elapse_inv

theorem execTimPulseLoad_inv {dt : ℕ} {master : ℕ} {p : ℕ} {value : ℕ} {s : State} (h : s.inv = true) : OutcomeInv (execTimPulseLoad dt master p value s) := by
  unfold execTimPulseLoad
  with_reducible repeat' first | assumption | apply outcome_next | apply State.rowWrite_inv | apply State.elapse_inv | refine State.inv_ite (fun _ => ?_) fun _ => ?_

theorem execRefCtlForceWrite_inv {dt : ℕ} {master : ℕ} {value : ℕ} {s : State} (h : s.inv = true) : OutcomeInv (execRefCtlForceWrite dt master value s) := by
  unfold execRefCtlForceWrite
  with_reducible repeat' first | assumption | apply outcome_next | apply State.rowWrite_inv | apply State.elapse_inv

theorem execMvwCurrentWrite_inv {dt : ℕ} {master : ℕ} {addr : ℕ} {value : ℕ} {s : State} (h : s.inv = true) : OutcomeInv (execMvwCurrentWrite dt master addr value s) := by
  unfold execMvwCurrentWrite
  with_reducible repeat' first | assumption | apply outcome_next | apply State.rowWrite_inv | apply State.elapse_inv | refine State.inv_ite (fun _ => ?_) fun _ => ?_

theorem execEncEngEnWrite_inv {dt : ℕ} {master : ℕ} {hi : Bool} {value : ℕ} {s : State} (h : s.inv = true) : OutcomeInv (execEncEngEnWrite dt master hi value s) := by
  unfold execEncEngEnWrite
  with_reducible repeat' first | assumption | apply outcome_next | apply State.rowWrite_inv | apply State.elapse_inv

theorem execTwnLeaseArm_inv {dt : ℕ} {master : ℕ} {value : ℕ} {s : State} (h : s.inv = true) : OutcomeInv (execTwnLeaseArm dt master value s) := by
  unfold execTwnLeaseArm
  with_reducible repeat' first | assumption | apply outcome_next | apply State.rowWrite_inv | apply State.elapse_inv

theorem execTwnLeaseDrop_inv {dt : ℕ} {master : ℕ} {value : ℕ} {s : State} (h : s.inv = true) : OutcomeInv (execTwnLeaseDrop dt master value s) := by
  unfold execTwnLeaseDrop
  with_reducible repeat' first | assumption | apply outcome_next | apply State.rowWrite_inv | apply State.elapse_inv

theorem execPwrDomEnWrite_inv {dt : ℕ} {master : ℕ} {hi : Bool} {value : ℕ} {s : State} (h : s.inv = true) : OutcomeInv (execPwrDomEnWrite dt master hi value s) := by
  unfold execPwrDomEnWrite
  with_reducible repeat' first | assumption | apply outcome_next | apply State.rowWrite_inv | apply State.elapse_inv

theorem execDmcPatGo_inv {dt : ℕ} {master : ℕ} {n : ℕ} {value : ℕ} {s : State} (h : s.inv = true) : OutcomeInv (execDmcPatGo dt master n value s) := by
  unfold execDmcPatGo
  with_reducible repeat' first | assumption | apply outcome_next | apply State.rowWrite_inv | apply State.elapse_inv | refine State.inv_ite (fun _ => ?_) fun _ => ?_

theorem execMemSetWrite_inv {dt : ℕ} {master : ℕ} {addr : ℕ} {value : ℕ} {s : State} (h : s.inv = true) : OutcomeInv (execMemSetWrite dt master addr value s) := by
  unfold execMemSetWrite
  with_reducible repeat' first | assumption | apply outcome_next | apply State.rowWrite_inv | apply State.elapse_inv | refine State.inv_ite (fun _ => ?_) fun _ => ?_

theorem execFltInject_inv {dt : ℕ} {master : ℕ} {value : ℕ} {s : State} (h : s.inv = true) : OutcomeInv (execFltInject dt master value s) := by
  unfold execFltInject
  with_reducible repeat' first | assumption | apply outcome_next | apply State.rowWrite_inv | apply State.elapse_inv

theorem State.voteInto_inv {s : State} {w : ℕ} {off : ℕ} {v : ℕ} {x : FieldDef × FieldRef} (h : s.inv = true) : (State.voteInto s w off v x).inv = true := by
  unfold State.voteInto
  with_reducible repeat' first | assumption | extract_lets | apply State.setEnables_inv | apply State.endLease_inv | apply State.setRole_inv | apply State.wr_inv | apply State.errPin_inv | apply State.memWritten_inv | refine State.inv_ite (fun _ => ?_) fun _ => ?_

theorem State.voteField_inv {s : State} {w : ℕ} {u : Upset} (h : s.inv = true) : (State.voteField s w u).inv = true := by
  unfold State.voteField
  repeat' first | (with_reducible first | assumption | extract_lets | apply State.voteInto_inv | apply State.raise_inv | apply State.wr_inv | refine State.inv_ite (fun _ => ?_) fun _ => ?_) | split | (with_reducible first | apply State.inv_keepFlt)

theorem execVoteScrub_inv {dt : ℕ} {w : ℕ} {upsets : List Upset} {s : State} (h : s.inv = true) : OutcomeInv (execVoteScrub dt w upsets s) := by
  unfold execVoteScrub
  with_reducible repeat' first | assumption | extract_lets | apply outcome_next | apply State.elapse_inv | apply State.voteField_inv | refine State.inv_ite (fun _ => ?_) fun _ => ?_ | refine inv_foldl ?_ fun _ _ _ => ?_

end Sys2Proof.Machine
end

