-- ==== Sys2Proof/Laws/InvSkwCmds.lean ====
section
/-!
SUPPORT. Every operation of Machine/SkwCmds.lean keeps the invariant of the state.
-/
namespace Sys2Proof.Machine
open Sys2Proof

theorem State.sramEcc_inv {s : State} {m : ℕ} {fin : BurstEnd} (h : s.inv = true) : (State.sramEcc s m fin).inv = true := by
  unfold State.sramEcc
  repeat' first | (with_reducible first | assumption | apply State.raise_inv) | split

theorem State.refuseBurst_inv {s : State} {m : ℕ} {addr : ℕ} {len : ℕ} {target : ℕ} {kind : ℕ} {data : Option (List Byte)} (h : s.inv = true) : (State.refuseBurst s m addr len target kind data).inv = true := by
  unfold State.refuseBurst
  with_reducible repeat' first | assumption | apply State.respond_inv | apply State.accessError_inv

theorem State.dramBurst_inv {s : State} {m : Nat} {id : Nat} {addr : Nat} {len : Nat} {ch : Nat} {data : Option (List Byte)} {fin : BurstEnd} (h : s.inv = true) : (State.dramBurst s m id addr len ch data fin).inv = true := by
  unfold State.dramBurst
  with_reducible repeat' first | assumption | extract_lets | apply State.awaitEntry_inv | apply State.grantAll_inv | apply State.refuseBurst_inv | apply State.serveDram_inv | refine State.inv_ite (fun _ => ?_) fun _ => ?_

theorem State.skidway_inv {s : State} {m : ℕ} {id : ℕ} {addr : ℕ} {len : ℕ} {data : Option (List Byte)} {fin : BurstEnd} (h : s.inv = true) : (State.skidway s m id addr len data fin).inv = true := by
  unfold State.skidway
  repeat' first | (with_reducible first | assumption | extract_lets | apply State.freeWord_inv | apply State.refuseBurst_inv | apply State.registerWrite_inv | apply State.registerRead_inv | apply State.burstData_inv | apply State.sramEcc_inv | apply State.dramBurst_inv | refine snd_inv (by assumption) ?_ | refine State.inv_ite (fun _ => ?_) fun _ => ?_) | split

theorem execSkidwayTransaction_inv {dt : ℕ} {master : ℕ} {id : ℕ} {addr : ℕ} {len : ℕ} {data : Option (List Byte)} {fin : BurstEnd} {s : State} (h : s.inv = true) : OutcomeInv (execSkidwayTransaction dt master id addr len data fin s) := by
  unfold execSkidwayTransaction
  with_reducible repeat' first | assumption | extract_lets | apply outcome_next | apply State.elapse_inv | apply State.skidway_inv | apply State.respond_inv | refine State.inv_ite (fun _ => ?_) fun _ => ?_

end Sys2Proof.Machine
end

