-- ==== Sys2Proof/Laws/Serve.lean ====
section
/-!
SUPPORT. What the shared operation of the opcode rows does with a request that passes the checks, and with one that does not.
-/
namespace Sys2Proof.Machine
open Sys2Proof

/-- Only the partner mirrors. -/
theorem isMirror_own {rq : Req} (h : rq.transport ≠ .partner) : rq.isMirror = false := by simp [Req.isMirror, h]

/-- A command outside Cruise that passes the checks is executed and answered. -/
theorem serve_admitted {op : OpSpec} {dt : Nat} {rq : Req} {s u : State} {p : List Byte} (h : Admits op dt rq s u p)
    (hc : op.cruise = false) : serve op dt rq s = State.conclude op rq p (op.run u (ctxOf rq) p) := by
  simp [serve, h.started, isMirror_own h.own, OpSpec.perform, h.passed, hc, ctxOf]

/-- A change that passes the checks and that Cruise admits is executed, counted and answered. -/
theorem serve_weighed {op : OpSpec} {dt : Nat} {rq : Req} {s u : State} {p : List Byte} (h : Admits op dt rq s u p)
    (hc : op.cruise = true) {d : Done} (hd : op.run u (ctxOf rq) p = d) (hs : d.status < 2)
    (hv : (evaluate u d.state []).fails = 0) : serve op dt rq s = State.conclude op rq p (weighed u d op.emptyReply) := by
  subst hd
  simp only [ctxOf] at hs hv
  simp [serve, h.started, isMirror_own h.own, OpSpec.perform, h.passed, hc, ctxOf, weighChange, hv, hs, weighed]

/-- A command that a check of steps 12 to 16 refuses is answered with the error and leaves the state that the gate gave. -/
theorem serve_refused {op : OpSpec} {dt : Nat} {rq : Req} {s u : State} {p : List Byte} {st : Nat} {e : List Byte}
    (ho : rq.transport ≠ .partner) (hg : (s.arrive dt).gate op rq = .start u p) (hr : op.refusal u false p = some (st, e)) :
    serve op dt rq s = State.conclude op rq p ⟨u, st, e, []⟩ := by
  simp [serve, hg, isMirror_own ho, OpSpec.perform, hr]

/-- A packet that the gate ends is answered, or not, by the gate alone. -/
theorem serve_ended {op : OpSpec} {dt : Nat} {rq : Req} {s u : State} (hg : (s.arrive dt).gate op rq = .ended u) :
    serve op dt rq s = u := by
  simp [serve, hg]

/-- No field fails its check exactly when every check holds. -/
theorem firstBad_none (l : List (Nat × Bool)) : firstBad l = none ↔ ∀ e ∈ l, e.2 = true := by
  induction l with
  | nil => simp [firstBad]
  | cons a l ih => cases h : a.2 <;> simp [firstBad, h, ih]

/-- Steps 12 to 16 pass exactly when the length, every field, presence, readiness and the locks do. -/
theorem refusal_none (op : OpSpec) (u : State) (p : List Byte) : op.refusal u false p = none ↔
    op.length p = true ∧ (∀ e ∈ op.fields u p ++ op.own u p, e.2 = true) ∧ u.firstAbsent (op.units u p) = none ∧
      u.firstUnready (op.units u p) = none ∧ op.locked u p = false := by
  rw [← firstBad_none]
  unfold OpSpec.refusal
  cases op.length p <;> simp
  cases firstBad (op.fields u p ++ op.own u p) <;> simp
  cases u.firstAbsent (op.units u p) <;> simp
  cases u.firstUnready (op.units u p) <;> simp

/-- Without a waiting command it is everybody's turn. -/
theorem hasTurn_alone {u : State} (h : ∀ x ∈ u.cyx.sessions, x.queue = []) (id : Nat) (b : Bool) : u.hasTurn id b = true := by
  have hw : u.waitingTurns = [] := by
    unfold State.waitingTurns
    rw [List.filterMap_eq_nil_iff]
    intro x hx
    simp [startOrder, h x hx]
  simp [State.hasTurn, hw]

/-- What the gate reads of a state, as session 0 hears a datagram in it: the registers and the twin are those of `u`, no session has a waiting
command, and session 0 answers by a datagram. -/
structure Hears (u v : State) : Prop where
  regs : v.regs = u.regs
  twn : v.twn = u.twn
  alone : ∀ x ∈ v.cyx.sessions, x.queue = []
  datagram : ∀ x ∈ v.cyx.sessions, x.id = 0 → ∃ m a n, x.transport = .udp m a n

/-- A change of sessions that keeps their numbers, queues and transports. -/
theorem Hears.modSession {u v : State} (h : Hears u v) (id : Nat) {f : Session → Session}
    (hq : ∀ x, (f x).queue = x.queue) (hi : ∀ x, (f x).id = x.id) (ht : ∀ x, (f x).transport = x.transport) : Hears u (v.modSession id f) := by
  refine ⟨h.regs, h.twn, ?_, ?_⟩
  · intro x hx
    simp only [State.modSession, List.mem_map] at hx
    obtain ⟨y, hy, rfl⟩ := hx
    split
    · rw [hq]; exact h.alone y hy
    · exact h.alone y hy
  · intro x hx h0
    simp only [State.modSession, List.mem_map] at hx
    obtain ⟨y, hy, rfl⟩ := hx
    by_cases hc : (y.id == id) = true
    · rw [if_pos hc] at h0 ⊢
      rw [hi] at h0; rw [ht]; exact h.datagram y hy h0
    · rw [if_neg hc] at h0 ⊢
      exact h.datagram y hy h0

/-- An event that goes to session 0 leaves it so. -/
theorem Hears.sendEventTo {u v : State} (h : Hears u v) (m : EvMsg) : Hears u (v.sendEventTo 0 m) := by
  unfold State.sendEventTo
  split
  · exact h
  · rename_i x hx
    obtain ⟨k, a, n, ht⟩ := h.datagram x (List.mem_of_find?_eq_some hx) (by simpa using List.find?_some hx)
    rw [ht]
    have h1 : Hears u (v.countEvent x m) :=
      Hears.modSession (v := { v with sent := .event x.id { m with lost := min x.lost 65535 } :: v.sent }) ⟨h.regs, h.twn, h.alone, h.datagram⟩ x.id
        (f := fun y => { y with sentCount := y.sentCount + 1, lost := 0 }) (fun _ => rfl) (fun _ => rfl) fun _ => rfl
    show Hears u ((v.countEvent x m).sendDatagram k a 7210 n _)
    simp only [State.sendDatagram]
    split
    · exact h1
    · exact ⟨h1.regs, h1.twn, h1.alone, h1.datagram⟩

/-- Session 0 hears a datagram. -/
theorem hearOpen_hears {u : State} {rq : Req} (h : ∀ x ∈ u.cyx.sessions, x.queue = []) {m a n : Nat} (ht : rq.transport = .udp m a n) :
    Hears u (u.hearOpen rq) := by
  have h1 : Hears u (u.modSession 0 fun y => { y with last := u.now, transport := rq.transport }) := by
    refine ⟨rfl, rfl, ?_, ?_⟩
    · intro x hx
      simp only [State.modSession, List.mem_map] at hx
      obtain ⟨y, hy, rfl⟩ := hx
      split <;> simp [h y hy]
    · intro x hx h0
      simp only [State.modSession, List.mem_map] at hx
      obtain ⟨y, hy, rfl⟩ := hx
      by_cases hc : (y.id == 0) = true
      · rw [if_pos hc]; exact ⟨m, a, n, ht⟩
      · rw [if_neg hc] at h0; simp [h0] at hc
  have hf : ∀ (l : List EvMsg) (v : State), Hears u v → Hears u (l.foldl (fun t e => t.sendEventTo 0 e) v) := by
    intro l
    induction l with
    | nil => intro v hv; exact hv
    | cons e l ih => intro v hv; exact ih _ (hv.sendEventTo e)
  unfold State.hearOpen State.moveEvents
  split
  · exact h1
  · split
    · exact h1
    · exact hf _ _ (h1.modSession 0 (fun _ => rfl) (fun _ => rfl) fun _ => rfl)

/-- A plain request that steps 12 to 16 do not refuse is admitted. -/
theorem admits_plain {op : OpSpec} {dt : Nat} {rq : Req} {s : State} (h : Plain (s.arrive dt) rq) (hd : opcodeDefined op.code = true)
    (h5 : op.code ≠ 5) (hr : op.refusal ((s.arrive dt).plainStart rq) false rq.payload = none) :
    Admits op dt rq s ((s.arrive dt).plainStart rq) rq.payload := by
  obtain ⟨m, a, n, ht⟩ := h.datagram
  have hne : rq.transport ≠ .partner := by simp [ht]
  refine ⟨hne, ?_, hr⟩
  generalize s.arrive dt = u at h hr ⊢
  obtain ⟨x, hx⟩ := Option.isSome_iff_exists.1 h.zero
  have hxm : x ∈ u.cyx.sessions := List.mem_of_find?_eq_some hx
  have hx0 : x.id = 0 := by simpa using List.find?_some hx
  have hq : u.isQueued op.code rq = false := by
    simp [State.isQueued, State.queueOf, h.session, hx, h.alone x hxm]
  have hauth : rq.auth = false := by simp [Req.auth, h.flags, bit]
  have hurg : rq.urgent = false := by simp [Req.urgent, h.flags, bit]
  have hmore : rq.more = false := by simp [Req.more, h.flags, bit]
  have hbf : rq.badFlags = false := by simp [Req.badFlags, h.flags, bit, Req.urgent, Req.mirrored]
  have hlong : rq.tooLong = false := by
    have := h.short
    simp [Req.tooLong, ht, hauth, b01]; omega
  unfold State.gate
  rw [hq, h.served]
  simp only [Bool.and_false, Bool.not_true, Bool.false_eq_true, if_false, State.consume, ht, hmore]
  unfold State.newRequest
  have hl := h.life
  rw [if_neg (by simp [h.version]), if_neg (by simp [hbf])]
  simp only [State.reassemble, h.whole]
  rw [if_neg (by have := h.short; simp [hlong, h.words]; omega)]
  simp only [h.firmware, Bool.false_eq_true, if_false]
  unfold State.sessionGate
  simp only [hauth, Bool.and_false, Bool.false_eq_true, if_false]
  have hok : u.authOk op.code op.cls op.keys rq rq.payload = true := by
    simp [State.authOk, ht, h.session, h5, hauth, hl]
  rw [hok, if_neg (by simp), if_neg (by simp [h.session]), h.session, hx]
  simp only [hx0, if_true]
  rw [if_neg (by simp [h5]), if_neg h5]
  have hv := hearOpen_hears h.alone ht
  unfold State.plainStart
  generalize u.hearOpen rq = v at hv ⊢
  have hrd : ∀ f : FieldRef, v.rd f = u.rd f := fun f => by unfold State.rd; rw [hv.regs]
  have hlv : v.lifeCycle = u.lifeCycle := hrd _
  unfold State.lifeGate State.opcodeGate State.leaseGate
  rw [if_neg (by rw [hlv]; omega), hd]
  simp only [if_true]
  have hlr : v.leaseRefusal op.cls rq = none := by
    have hr : v.role = roleSolo := (hrd _).trans h.solo
    have hf : v.flag Reg.TWN_STAT_FENCE_PIN = false := by
      have := h.open_
      unfold State.flag at this ⊢
      rwa [hrd]
    simp [State.leaseRefusal, hr, hf, State.holdsLease, roleSolo, roleFenced]
  rw [hlr]
  have hmg : v.mirrorGate op.code rq = (v, true) := by simp [State.mirrorGate, isMirror_own hne]
  have hmw : v.mustWait op.cls rq = false := by
    have ha := hv.alone
    have hturn := hasTurn_alone ha rq.session rq.urgent
    have he : v.twn.expiry = none := by rw [hv.twn]; exact h.lasting
    have hw : v.queueOf rq.session = [] := by
      unfold State.queueOf
      rw [if_neg (by rw [h.session]; decide)]
      cases hs : v.session rq.session with
      | none => rfl
      | some y => exact ha y (List.mem_of_find?_eq_some hs)
    simp [State.mustWait, State.leaseTooShort, he, hw, hturn]
  show (if (!(v.mirrorGate op.code rq).2) = true then Gate.ended (v.mirrorGate op.code rq).1
    else if rq.transport = .sideband ∧ 4 ≤ v.sidebandOutstanding then _
    else if v.mustWait op.cls rq = true then _ else Gate.start ((v.mirrorGate op.code rq).1.served rq.session (v.mirrorGate op.code rq).1.chrono) rq.payload) = _
  rw [hmg, hmw, if_neg (by simp), if_neg (by simp [ht]), if_neg (by simp), h.session]

/-- Insertion by margin keeps what was there and adds its argument. -/
theorem insertTight_mem (j : Judged) : ∀ (l : List Judged) (k : Judged), k ∈ insertTight j l → k = j ∨ k ∈ l
  | [], k, h => by simpa [insertTight] using h
  | x :: r, k, h => by
    unfold insertTight at h
    split at h
    · simpa using h
    · rcases List.mem_cons.1 h with h | h
      · exact .inr (by simp [h])
      · exact (insertTight_mem j r k h).imp id fun h => List.mem_cons_of_mem _ h

/-- A judgement that none of the list nor the new one fails leaves none failing. -/
theorem mergeJudged_fits {l : List Judged} {j : Judged} (hl : ∀ k ∈ l, k.fail = false) (hj : j.fail = false) : ∀ k ∈ mergeJudged l j, k.fail = false := by
  intro k hk
  unfold mergeJudged at hk
  split at hk
  · rcases List.mem_append.1 hk with h | h
    · exact hl k h
    · rw [List.mem_singleton.1 h]; exact hj
  · split at hk
    · exact hl k hk
    · obtain ⟨y, hy, rfl⟩ := List.mem_map.1 hk
      split
      · exact hj
      · exact hl y hy

/-- Cruise admits a change after which no account of any coming configuration, of lanes that turn to Ethernet neither, is over its capacity
(R65, R66, R170). -/
theorem evaluate_fits {old new : State} {ps : List State} (h : ∀ st ∈ new.stages, ∀ a ∈ st.ether ++ st.accounts, a.excess = false) :
    (evaluate old new ps).fails = 0 := by
  have hj : ∀ k ∈ judge old.stages new.stages, k.fail = false := by
    have : ∀ (js l : List Judged), (∀ k ∈ js, k.fail = false) → (∀ k ∈ l, k.fail = false) → ∀ k ∈ js.foldl mergeJudged l, k.fail = false := by
      intro js
      induction js with
      | nil => intro l _ hl; exact hl
      | cons j js ih => intro l hjs hl; exact ih _ (fun k hk => hjs k (by simp [hk])) (mergeJudged_fits hl (hjs j (by simp)))
    refine this _ _ (fun k hk => ?_) (by simp)
    obtain ⟨st, hst, hk⟩ := List.mem_flatMap.1 hk
    obtain ⟨a, ha, rfl⟩ := List.mem_map.1 hk
    have ha : a.excess = false := h st hst a ((List.mem_append.1 ha).elim (fun x => List.mem_append_left _ (List.mem_of_mem_filter x)) (List.mem_append_right _))
    simp [ha]
  have hr : ∀ k ∈ reportOrder (judge old.stages new.stages), k.fail = false := by
    generalize judge old.stages new.stages = js at hj
    have hf : (js.filter fun j => j.fail) = [] := by simpa using hj
    have : ∀ (ks l : List Judged), (∀ k ∈ ks, k.fail = false) → (∀ k ∈ l, k.fail = false) → ∀ k ∈ ks.foldl (fun l j => insertTight j l) l, k.fail = false := by
      intro ks
      induction ks with
      | nil => intro l _ hl; exact hl
      | cons j ks ih =>
        intro l hks hl
        refine ih _ (fun k hk => hks k (by simp [hk])) fun k hk => ?_
        rcases insertTight_mem j l k hk with rfl | hk
        · exact hks _ (by simp)
        · exact hl k hk
    rw [reportOrder, hf]
    simpa using this _ [] (fun k hk => hj k (List.mem_of_mem_filter hk)) (by simp)
  simpa [evaluate] using hr
end Sys2Proof.Machine
end

