-- ==== Sys2Proof/Laws/Reply.lean ====
section
/-!
SUPPORT. Receiving, checking, answering and closing change nothing outside the interpreter.
-/
namespace Sys2Proof.Machine
open Sys2Proof

@[simp] theorem State.outside_wr (s : State) (f : FieldRef) (v : Nat) : (s.wr f v).outside = s.outside := rfl
@[simp] theorem State.outside_modSession (s : State) (id : Nat) (f : Session → Session) : (s.modSession id f).outside = s.outside := rfl
@[simp] theorem State.outside_dropPartial (s : State) (rq : Req) : (s.dropPartial rq).outside = s.outside := rfl
@[simp] theorem State.outside_openAccepted (s : State) (a b : Nat) : (s.openAccepted a b).outside = s.outside := rfl
@[simp] theorem State.outside_bumpSat (s : State) (f : FieldRef) (n : Nat) : (s.bumpSat f n).outside = s.outside := rfl

@[simp] theorem State.outside_memPut (s : State) (a : Nat) (b : Byte) : (s.memPut a b).outside = s.outside := by
  unfold State.memPut; split <;> rfl

@[simp] theorem State.outside_memWrite (s : State) (a : Nat) (bs : List Byte) : (s.memWrite a bs).outside = s.outside := by
  induction bs generalizing s a with
  | nil => rfl
  | cons b bs ih => exact (ih _ _).trans (State.outside_memPut s a b)

@[simp] theorem State.outside_ringPush (s : State) (n : Nat) (irq : FieldRef) (bs : List Byte) : (s.ringPush n irq bs).outside = s.outside :=
  State.outside_memWrite s _ bs

@[simp] theorem State.outside_sendDatagram (s : State) (m a x y : Nat) (b : List Byte) : (s.sendDatagram m a x y b).outside = s.outside := by
  unfold State.sendDatagram
  extract_lets
  split <;> rfl

@[simp] theorem State.outside_sendReply (s : State) (r : Reply) : (s.sendReply r).outside = s.outside := by
  unfold State.sendReply
  extract_lets s1
  split
  · exact State.outside_sendDatagram s1 _ _ _ _ _
  · rfl
  · split
    · exact State.outside_ringPush s1 _ _ _
    · rfl
  · rfl

@[simp] theorem State.outside_countEvent (s : State) (x : Session) (m : EvMsg) : (s.countEvent x m).outside = s.outside := rfl

@[simp] theorem State.outside_ringEvent (s : State) (n : Nat) (x : Session) (m : EvMsg) : (s.ringEvent n x m).outside = s.outside := by
  unfold State.ringEvent
  split
  · exact State.outside_ringPush _ _ _ _
  · rfl

@[simp] theorem State.outside_sendEventTo (s : State) (id : Nat) (m : EvMsg) : (s.sendEventTo id m).outside = s.outside := by
  unfold State.sendEventTo
  split
  · rfl
  · split
    · exact State.outside_sendDatagram _ _ _ _ _ _
    · split <;> rfl
    · exact State.outside_ringEvent _ _ _ _
    · rfl

@[simp] theorem State.outside_moveEvents (s : State) (id : Nat) : (s.moveEvents id).outside = s.outside := by
  unfold State.moveEvents
  split
  · rfl
  · split
    · rfl
    · generalize (‹Session› : Session).events = l
      have : ∀ (l : List EvMsg) (t : State), (l.foldl (fun t m => t.sendEventTo id m) t).outside = t.outside := by
        intro l
        induction l with
        | nil => intro t; rfl
        | cons m l ih => intro t; exact (ih _).trans (State.outside_sendEventTo t id m)
      exact this l _

@[simp] theorem State.outside_hearOpen (s : State) (rq : Req) : (s.hearOpen rq).outside = s.outside := State.outside_moveEvents _ _

@[simp] theorem State.outside_finish (s : State) (se tag st en : Nat) : (s.finish se tag st en).outside = s.outside := by
  unfold State.finish
  split
  · rfl
  · exact State.outside_sendEventTo s _ _

@[simp] theorem State.outside_finishAll (s : State) (l : List (Nat × Nat × Nat × Nat)) : (s.finishAll l).outside = s.outside := by
  induction l generalizing s with
  | nil => rfl
  | cons x l ih =>
    unfold State.finishAll
    split
    · exact ih s
    · exact (ih _).trans (State.outside_finish s _ _ _ _)

@[simp] theorem State.outside_settle (s : State) : s.settle.outside = s.outside := State.outside_finishAll _ _

@[simp] theorem State.outside_answer (s : State) (opcode : Nat) (rq : Req) (st : Nat) (p : List Byte) :
    (s.answer opcode rq st p).outside = s.outside := by
  unfold State.answer
  extract_lets r k s1
  refine (State.outside_sendReply s1 r).trans ?_
  show State.outside (if _ then s else _) = s.outside
  split <;> rfl

@[simp] theorem State.outside_authFail (s : State) (opcode : Nat) (rq : Req) : (s.authFail opcode rq).outside = s.outside := by
  unfold State.authFail
  extract_lets n sec cur
  split
  · rfl
  · exact State.outside_sendReply _ _

/-- What every round of a fold leaves outside, the fold leaves. -/
theorem foldl_outside {α : Type} (f : State → α → State) (hf : ∀ t a, (f t a).outside = t.outside) (l : List α) (s : State) :
    (l.foldl f s).outside = s.outside := by
  induction l generalizing s with
  | nil => rfl
  | cons a l ih => exact (ih (f s a)).trans (hf s a)

@[simp] theorem State.outside_endCause (s : State) (code src obj : Nat) : (s.endCause code src obj).outside = s.outside := rfl

@[simp] theorem State.outside_raise (s : State) (code src obj : Nat) : (s.raise code src obj).outside = s.outside := by
  simp [State.outside]

@[simp] theorem State.outside_emptySlot (s : State) (i : Nat) (b : Bool) : (s.emptySlot i b).outside = s.outside := by
  unfold State.emptySlot
  extract_lets x
  split <;> rfl

@[simp] theorem State.outside_staleSlot (s : State) (i : Nat) : (s.staleSlot i).outside = s.outside := by
  unfold State.staleSlot
  extract_lets x
  split <;> rfl

@[simp] theorem State.outside_cascade (s : State) (i : Nat) (ds : List Nat) : (s.cascade i ds).outside = s.outside :=
  foldl_outside _ (fun t d => State.outside_staleSlot t d) ds s

@[simp] theorem State.outside_invalidate (s : State) (i : Nat) : (s.invalidate i).outside = s.outside := by
  simp [State.invalidate]

@[simp] theorem State.outside_closeSession (s : State) (id : Nat) : (s.closeSession id).outside = s.outside := by
  unfold State.closeSession
  split
  · rfl
  · extract_lets s1
    show State.outside (if _ then s else _) = s.outside
    split
    · rfl
    · exact State.outside_invalidate s _

@[simp] theorem State.outside_closeRevoked (s : State) (id : Nat) : (s.closeRevoked id).outside = s.outside :=
  State.outside_closeSession _ id

@[simp] theorem State.outside_closeOwn (s : State) (opcode id : Nat) : (s.closeOwn opcode id).outside = s.outside := by
  unfold State.closeOwn
  split
  · split
    · rfl
    · split
      · exact State.outside_closeSession s id
      · exact State.outside_closeRevoked s id
  · rfl

@[simp] theorem State.outside_takeSeq (s : State) (rq : Req) (n : Nat) : (s.takeSeq rq n).outside = s.outside := by
  unfold State.takeSeq
  split
  · rfl
  · exact State.outside_moveEvents _ _

@[simp] theorem State.outside_served (s : State) (id origin : Nat) : (s.served id origin).outside = s.outside := rfl

@[simp] theorem State.outside_busy (s : State) (opcode : Nat) (rq : Req) : (s.busy opcode rq).outside = s.outside := State.outside_sendReply _ _

@[simp] theorem State.outside_keyRevoked (s : State) (opcode : Nat) (rq : Req) : (s.keyRevoked opcode rq).outside = s.outside := State.outside_sendReply _ _

@[simp] theorem State.outside_abandon (s : State) (q : Partial) (rq : Req) : (s.abandon q rq).outside = s.outside := by
  unfold State.abandon
  extract_lets old s1
  refine (State.outside_sendReply s1 _).trans ?_
  show State.outside (if _ then s else _) = s.outside
  split <;> rfl

@[simp] theorem State.outside_answerDone (s : State) (opcode : Nat) (rq : Req) (st : Nat) (p : List Byte) :
    (s.answerDone opcode rq st p).outside = s.outside := by
  unfold State.answerDone
  split
  · exact State.outside_sendReply _ _
  · exact State.outside_answer _ _ _ _ _

/-- The answer to a command that mirrors nothing leaves what lies outside the interpreter as execution left it. -/
theorem State.outside_conclude (op : OpSpec) (rq : Req) (p : List Byte) (d : Done) (h : op.cls ≠ .c ∨ 2 ≤ d.status) :
    (State.conclude op rq p d).outside = d.state.outside := by
  have hm : ¬(op.cls = .c ∧ d.status < 2 ∧ rq.isMirror = false) := by
    rintro ⟨h1, h2, -⟩
    rcases h with h | h
    · exact h h1
    · omega
  unfold State.conclude
  rw [if_neg hm]
  extract_lets s1 s2 vault s3 s4
  have h2 : s2.outside = d.state.outside := by
    show State.outside (if _ then _ else d.state) = _
    split
    · exact State.outside_raise _ _ _ _
    · rfl
  have h3 : s3.outside = s2.outside := by
    show State.outside (if _ then _ else s2) = _
    split
    · exact State.outside_raise _ _ _ _
    · rfl
  have h4 : s4.outside = s3.outside := by
    show State.outside (if _ then _ else s3) = _
    split <;> rfl
  simp [h4, h3, h2]

/-- The state of a gate, started or ended. -/
def Gate.state : Gate → State
  | .ended s => s
  | .start s _ => s

@[simp] theorem Gate.state_ended (s : State) : (Gate.ended s).state = s := rfl
@[simp] theorem Gate.state_start (s : State) (p : List Byte) : (Gate.start s p).state = s := rfl

@[simp] theorem State.outside_reassemble (s : State) (opcode : Nat) (rq : Req) : (s.reassemble opcode rq).1.outside = s.outside := by
  unfold State.reassemble
  split
  · rfl
  · split
    · rfl
    · exact State.outside_abandon _ _ _

@[simp] theorem State.outside_setQueue (s : State) (id : Nat) (q : List (Nat × Req × Nat)) : (s.setQueue id q).outside = s.outside := by
  unfold State.setQueue
  split <;> rfl

theorem State.outside_enqueue (s b : State) (opcode : Nat) (rq : Req) (hb : b.outside = s.outside) : (s.enqueue b opcode rq).outside = s.outside := by
  unfold State.enqueue
  split
  · exact (State.outside_busy _ _ _).trans hb
  · exact State.outside_setQueue _ _ _

theorem State.mirrorGate_own (s : State) (opcode : Nat) (rq : Req) (h : rq.transport ≠ .partner) : s.mirrorGate opcode rq = (s, true) := by
  simp [State.mirrorGate, isMirror_own h]

theorem State.outside_leaseGate (s b : State) (op : OpSpec) (rq : Req) (p : List Byte) (h : rq.transport ≠ .partner) (hb : b.outside = s.outside) :
    (s.leaseGate b op rq p).state.outside = s.outside := by
  unfold State.leaseGate
  extract_lets whole m
  have hm : m = (s, true) := s.mirrorGate_own _ _ h
  split
  · exact State.outside_answer _ _ _ _ _
  · rw [hm, if_neg (by simp)]
    split
    · exact (State.outside_busy _ _ _).trans hb
    · split
      · exact State.outside_enqueue _ _ _ _ hb
      · rfl

theorem State.outside_opcodeGate (s b : State) (op : OpSpec) (rq : Req) (p : List Byte) (h : rq.transport ≠ .partner) (hb : b.outside = s.outside) :
    (s.opcodeGate b op rq p).state.outside = s.outside := by
  unfold State.opcodeGate
  split
  · exact s.outside_leaseGate b op rq p h hb
  · exact State.outside_answer _ _ _ _ _

theorem State.outside_lifeGate (s b : State) (op : OpSpec) (rq : Req) (p : List Byte) (h : rq.transport ≠ .partner) (hb : b.outside = s.outside) :
    (s.lifeGate b op rq p).state.outside = s.outside := by
  unfold State.lifeGate
  split
  · exact State.outside_answer _ _ _ _ _
  · exact s.outside_opcodeGate b op rq p h hb

theorem State.outside_startQueued (s : State) (op : OpSpec) (rq : Req) : (s.startQueued op rq).state.outside = s.outside := by
  unfold State.startQueued
  extract_lets q
  split
  · rfl
  · rename_i e _
    extract_lets s1
    have h1 : s1.outside = s.outside := State.outside_setQueue _ _ _
    split
    · rfl
    · split
      · exact State.outside_closeRevoked _ _
      · split
        · exact (State.outside_answer _ _ _ _ _).trans h1
        · split
          · rfl
          · exact h1

theorem State.outside_sessionGate (s : State) (op : OpSpec) (rq : Req) (p : List Byte) (first : Nat) (h : rq.transport ≠ .partner) :
    (s.sessionGate op rq p first).state.outside = s.outside := by
  unfold State.sessionGate
  split
  · exact State.outside_keyRevoked _ _ _
  · split
    · exact State.outside_authFail _ _ _
    · split
      · exact s.outside_opcodeGate s op rq p h rfl
      · split
        · exact State.outside_authFail _ _ _
        · split
          · split
            · exact State.outside_sendReply _ _
            · have h2 : (if op.code = 5 then (s.hearOpen rq).openAccepted (u16 p 0) rq.seq else s.hearOpen rq).outside = s.outside := by
                split
                · exact State.outside_hearOpen s rq
                · exact State.outside_hearOpen s rq
              exact (State.outside_lifeGate _ s op rq p h h2.symm).trans h2
          · split
            · split
              · exact State.outside_sendReply _ _
              · exact State.outside_sendReply _ _
            · extract_lets s1
              have h1 : s1.outside = s.outside := State.outside_takeSeq _ _ _
              split
              · exact (State.outside_closeRevoked _ _).trans ((State.outside_keyRevoked _ _ _).trans h1)
              · exact (State.outside_lifeGate s1 s op rq p h h1.symm).trans h1

theorem State.outside_newRequest (s : State) (op : OpSpec) (rq : Req) (h : rq.transport ≠ .partner) :
    (s.newRequest op rq).state.outside = s.outside := by
  unfold State.newRequest
  split
  · exact (State.outside_answer _ _ _ _ _).trans (State.outside_takeSeq _ _ _)
  · split
    · exact (State.outside_answer _ _ _ _ _).trans (State.outside_takeSeq _ _ _)
    · extract_lets r
      have hr : r.1.outside = s.outside := State.outside_reassemble s op.code rq
      split
      · exact (State.outside_answer _ _ _ _ _).trans ((State.outside_takeSeq _ _ _).trans hr)
      · split
        · split
          · exact (State.outside_authFail _ _ _).trans hr
          · split
            · exact (State.outside_answer _ _ _ _ _).trans hr
            · split
              · exact (State.outside_answer _ _ _ _ _).trans hr
              · split
                · exact (State.outside_busy _ _ _).trans hr
                · exact hr
        · exact (State.outside_sessionGate _ op rq _ _ h).trans hr

@[simp] theorem State.outside_breakPartial (s : State) (opcode : Nat) (rq : Req) : (s.breakPartial opcode rq).outside = s.outside := by
  unfold State.breakPartial
  split
  · rfl
  · split
    · rfl
    · exact State.outside_abandon _ _ _

@[simp] theorem State.outside_takeFragment (s : State) (opcode : Nat) (rq : Req) : (s.takeFragment opcode rq).outside = s.outside := rfl

/-- A fragment changes nothing outside the interpreter. -/
@[simp] theorem State.outside_fragment (s : State) (opcode : Nat) (rq : Req) : (s.fragment opcode rq).outside = s.outside := by
  unfold State.fragment
  split
  · exact (State.outside_answer _ _ _ _ _).trans (State.outside_takeSeq _ _ _)
  · split
    · exact (State.outside_answer _ _ _ _ _).trans (State.outside_takeSeq _ _ _)
    · extract_lets t
      have ht : t.outside = s.outside := State.outside_breakPartial s opcode rq
      split
      · exact (State.outside_answer _ _ _ _ _).trans ((State.outside_takeSeq _ _ _).trans ht)
      · split
        · exact ht
        · split
          · exact (State.outside_authFail _ _ _).trans ht
          · exact ht

/-- The checks of steps 2 to 11 change nothing outside the interpreter. -/
theorem State.outside_gate (s : State) (op : OpSpec) (rq : Req) (h : rq.transport ≠ .partner) :
    (s.gate op rq).state.outside = s.outside := by
  unfold State.gate
  split
  · exact s.outside_startQueued op rq
  · split
    · rfl
    · split
      · next s1 h1 =>
        have hg : (if rq.more = true then Gate.ended (s1.fragment op.code rq) else s1.newRequest op rq).state.outside = s1.outside := by
          split
          · exact State.outside_fragment s1 op.code rq
          · exact s1.outside_newRequest op rq h
        refine hg.trans ?_
        unfold State.consume at h1
        split at h1
        · extract_lets i at h1
          split at h1
          · cases h1
          · cases h1; rfl
        · cases h1; rfl
      · rfl

/-! ### What was sent stays sent -/

@[simp] theorem State.memWrite_sent (s : State) (a : Nat) (bs : List Byte) : (s.memWrite a bs).sent = s.sent := by
  induction bs generalizing s a with
  | nil => rfl
  | cons b bs ih =>
    refine (ih _ _).trans ?_
    unfold State.memPut; split <;> rfl

@[simp] theorem State.ringPush_sent (s : State) (n : Nat) (irq : FieldRef) (bs : List Byte) : (s.ringPush n irq bs).sent = s.sent :=
  State.memWrite_sent s _ bs

theorem State.sendDatagram_sent (s : State) (m a x y : Nat) (b : List Byte) : (s.sendDatagram m a x y b).sent = s.sent := by
  unfold State.sendDatagram
  extract_lets
  split <;> rfl

/-- A reply is sent. -/
theorem State.sendReply_sent (s : State) (r : Reply) : (s.sendReply r).sent = .reply r :: s.sent := by
  unfold State.sendReply
  extract_lets s1
  split
  · exact State.sendDatagram_sent s1 _ _ _ _ _
  · rfl
  · split
    · exact State.ringPush_sent s1 _ _ _
    · rfl
  · rfl

theorem State.sent_countEvent {s : State} {x : Session} {m : EvMsg} {o : Out} (h : o ∈ s.sent) : o ∈ (s.countEvent x m).sent :=
  List.mem_cons_of_mem _ h

theorem State.sent_sendEventTo {s : State} {id : Nat} {m : EvMsg} {o : Out} (h : o ∈ s.sent) : o ∈ (s.sendEventTo id m).sent := by
  unfold State.sendEventTo
  split
  · exact h
  · split
    · rw [State.sendDatagram_sent]
      exact State.sent_countEvent h
    · split <;> exact h
    · unfold State.ringEvent
      split
      · rw [State.ringPush_sent]
        exact State.sent_countEvent h
      · exact h
    · exact State.sent_countEvent h

theorem State.sent_finishAll {s : State} {l : List (Nat × Nat × Nat × Nat)} {o : Out} (h : o ∈ s.sent) : o ∈ (s.finishAll l).sent := by
  induction l generalizing s with
  | nil => exact h
  | cons x l ih =>
    unfold State.finishAll
    split
    · exact ih h
    · refine ih ?_
      unfold State.finish
      split
      · exact h
      · exact State.sent_sendEventTo h

@[simp] theorem State.closeSession_sent (s : State) (id : Nat) : (s.closeSession id).sent = s.sent := by
  have hst : ∀ (ds : List Nat) (t : State), (ds.foldl (fun t d => t.staleSlot d) t).sent = t.sent :=
    fun ds t => foldl_keeps State.sent _ (fun t d => by unfold State.staleSlot; extract_lets x; split <;> rfl) ds t
  have hinv : ∀ i, (s.invalidate i).sent = s.sent := fun i => by
    simp only [State.invalidate, State.cascade, State.countSlots, State.wr_sent, State.revokeSessions, hst]
    unfold State.emptySlot
    extract_lets x
    split <;> rfl
  unfold State.closeSession
  split
  · rfl
  · extract_lets s1
    show State.sent (if _ then s else _) = s.sent
    split
    · rfl
    · exact hinv _

@[simp] theorem State.closeOwn_sent (s : State) (opcode id : Nat) : (s.closeOwn opcode id).sent = s.sent := by
  unfold State.closeOwn
  split
  · split
    · rfl
    · split
      · exact State.closeSession_sent s id
      · exact State.closeSession_sent _ id
  · rfl

/-- Every executed command is answered with its status and payload. -/
theorem State.conclude_sends (op : OpSpec) (rq : Req) (p : List Byte) (d : Done) :
    ∃ k, Out.reply (rq.reply op.code d.status d.payload k) ∈ (State.conclude op rq p d).sent := by
  have hd : ∀ s : State, ∃ k, Out.reply (rq.reply op.code d.status d.payload k) ∈
      (s.answerDone op.code { rq with payload := p } d.status d.payload).sent := by
    intro s
    unfold State.answerDone
    split
    · next hb =>
      refine ⟨s.replyKey { rq with payload := p }, ?_⟩
      rw [State.sendReply_sent, hb]
      exact List.mem_cons_self
    · refine ⟨s.answerKey op.code { rq with payload := p } d.status d.payload, ?_⟩
      unfold State.answer
      extract_lets r k s5
      rw [State.sendReply_sent]
      exact List.mem_cons_self
  unfold State.conclude
  extract_lets s1 s2 vault s3 s4
  obtain ⟨k, hk⟩ := hd s4
  refine ⟨k, ?_⟩
  rw [State.closeOwn_sent]
  exact State.sent_finishAll hk

/-- A card that is no lease holder mirrors nothing. -/
theorem State.outside_conclude_solo (op : OpSpec) (rq : Req) (p : List Byte) (d : Done) (h : ¬(d.state.twinOn = true ∧ d.state.role = roleHolder)) :
    (State.conclude op rq p d).outside = d.state.outside := by
  by_cases hm : op.cls ≠ .c ∨ 2 ≤ d.status
  · exact State.outside_conclude op rq p d hm
  · unfold State.conclude
    extract_lets s1 s2 vault s3 s4
    have h1 : s1.outside = d.state.outside := by
      show State.outside (if _ then _ else d.state) = _
      split
      · have hm : ∀ (pl rp stp : List Byte), d.state.mirror op.code pl rp stp = d.state := fun pl rp stp => if_neg h
        rw [hm]
      · rfl
    have h2 : s2.outside = s1.outside := by
      show State.outside (if _ then _ else s1) = _
      split
      · exact State.outside_raise _ _ _ _
      · rfl
    have h3 : s3.outside = s2.outside := by
      show State.outside (if _ then _ else s2) = _
      split
      · exact State.outside_raise _ _ _ _
      · rfl
    have h4 : s4.outside = s3.outside := by
      show State.outside (if _ then _ else s3) = _
      split <;> rfl
    simp [h4, h3, h2, h1]

end Sys2Proof.Machine
end

