-- ==== Sys2Proof/Laws/Rows.lean ====
section
/-!
SUPPORT. What a register row does with a write that the register bus takes.
-/
namespace Sys2Proof.Machine
open Sys2Proof

/-- An address of a window names that window. -/
theorem regAddr_window {w off : Nat} (hw : w < 256) (ho : off < 65536) : regAddr w off / 65536 % 256 = w := by
  unfold regAddr; omega

/-- An address of a window names its offset. -/
theorem regAddr_offset {w off : Nat} (ho : off < windowSpan w) : regAddr w off % 65536 % windowSpan w = off := by
  have hs : windowSpan w ≤ 65536 := by unfold windowSpan; split <;> [omega; (split <;> omega)]
  have : regAddr w off % 65536 = off := by unfold regAddr; omega
  rw [this, Nat.mod_eq_of_lt ho]

/-- The state that the bus answers has the same registers, isolation and posted writes. -/
theorem respond_eq (u : State) (m : Nat) (ok : Bool) (b : List Byte) : u.respond m ok b = { u with sent := .response m ok b :: u.sent } := rfl

/-- A write that a block without posted writes takes is put, and answered. -/
theorem rowWrite_plain {u : State} {m w off : Nat} (v : Nat) (ha : Accepts u m w off) (hw : w < 256) (ho : off < windowSpan w)
    (hp : postedWindow w = false) : u.rowWrite m w off v = (u.putWord m w off (v % 2 ^ 32)).respond m true [] := by
  have h64 : off < 65536 := Nat.lt_of_lt_of_le ho (by unfold windowSpan; split <;> [omega; (split <;> omega)])
  have e : u.registerWrite m (regAddr w off) 32 v = (u.putWord m w off (v % 2 ^ 32)).respond m true [] := by
    simp only [State.registerWrite]
    rw [regAddr_window hw h64, regAddr_offset ho, ha.allowed]
    simp [ha.here, hp, State.putBits]
  simp [State.rowWrite, ha.runs, hp, e]

/-- A posted write that is the only one of its block is the one that lands. -/
theorem find_only (l : List (Nat × Nat × Nat × Nat × Nat)) (p : Nat × Nat × Nat × Nat × Nat) (h : (l.any fun q => q.1 == p.1) = false) :
    (l ++ [p]).find? (fun q => q.1 == p.1) = some p ∧ (l ++ [p]).erase p = l := by
  induction l with
  | nil => simp
  | cons a l ih =>
    simp only [List.any_cons, Bool.or_eq_false_iff] at h
    have hne : (a == p) = false := by
      cases hb : a == p with
      | false => rfl
      | true => have := eq_of_beq hb; subst this; simp at h
    refine ⟨?_, ?_⟩
    · simp [h.1, (ih h.2).1]
    · simp [hne, (ih h.2).2]

/-- A write that a block with posted writes takes is answered, and lands. -/
theorem rowWrite_posted {u : State} {m w off : Nat} (v : Nat) (ha : Accepts u m w off) (hw : w < 256) (ho : off < windowSpan w)
    (h8 : 8 ≤ off) (hp : postedWindow w = true) : u.rowWrite m w off v = ((u.respond m true []).putWord m w off (v % 2 ^ 32)).travel w := by
  have h64 : off < 65536 := Nat.lt_of_lt_of_le ho (by unfold windowSpan; split <;> [omega; (split <;> omega)])
  have e : u.registerWrite m (regAddr w off) 32 v =
      ({ u with pwr := { u.pwr with posted := u.pwr.posted ++ [(w, m, off, 32, v)] } }.respond m true []) := by
    simp only [State.registerWrite]
    rw [regAddr_window hw h64, regAddr_offset ho, ha.allowed]
    simp [ha.here, hp, ha.quiet, h8]
  have hf := find_only u.pwr.posted (w, m, off, 32, v) (by
    have hq := ha.quiet
    simp only [State.writePending, Bool.or_eq_false_iff] at hq
    exact hq.1)
  simp only [State.rowWrite, ha.runs, hp, ha.quiet, e, State.landPosted, respond_eq]
  simp [hf.1, hf.2, State.putBits]

/-- A write that a window takes reaches its fields and has the effects of its register. -/
theorem putWord_eq {u : State} {m w off : Nat} (v : Nat) (h8 : 8 ≤ off) (hw : w ≠ 0) (h3 : w ≠ 3) (hl : u.laneOfPort w = false)
    (hi : indirectData w off = false)
    (hs : ¬(w = 1 ∧ off = 0x40)) :
    u.putWord m w off v = (State.written u (u.writeFields m w off v) w off v).noteBypass m w off := by
  unfold State.putWord
  rw [if_neg (by omega), if_neg (by simp [hl, hw]; omega), if_neg (by simp [hi]), if_neg hs, if_neg (by simp [h3])]

end Sys2Proof.Machine
end

