-- ==== Sys2Proof/Laws/StaveLine.lean ====
section
/-!
SUPPORT. Laws of the line coding of a Stave lane.
-/
namespace Sys2Proof.Machine

/-- A precoding receiver recovers what a precoding transmitter was given, when both begin from the same symbol (R159). -/
theorem unprecode_precode (gs : List Nat) : ∀ last, last < 4 → (∀ g ∈ gs, g < 4) → unprecode last (precode last gs) = gs := by
  induction gs with
  | nil => intro last _ _; rfl
  | cons g gs ih =>
    intro last hl h
    have hg := h g (by simp)
    simp only [precode, unprecode]
    rw [ih _ (by omega) fun x hx => h x (by simp [hx])]
    congr 1
    omega

end Sys2Proof.Machine
end

