-- ==== Sys2Proof/WellFormed.lean ====
section
/-!
DEFINITION. Well-formed commands: operands inside the ranges that the numbers of the part allow. The checks that the
part itself makes on a packet are the meaning's own and are not repeated here; a command that is not well-formed only lets
time pass or is answered as its meaning says.
-/
namespace Sys2Proof

/-- A request whose header fields fit the packet of Table 2.1. -/
def Req.wf (rq : Req) : Bool :=
  decide (rq.version < 2 ^ 8) && decide (rq.flags < 2 ^ 8) && decide (rq.status < 2 ^ 16) && decide (rq.tag < 2 ^ 32) &&
    decide (rq.seq < 2 ^ 32) && decide (rq.session < 2 ^ 16) && decide (rq.payload.length < 2 ^ 16)

/-- Is a command well formed: masters, registers, lanes, ports, generators, heads, domains and channels by the part's own numbers? -/
def Instr.wf : Instr → Bool
  | .powerOn _ _ => true
  | .coreRailsGood _ => true
  | .rstNAssert _ => true
  | .rstNRelease _ _ _ => true
  | .railLoss _ _ => true
  | .thermalTrip _ => true
  | .romBoot _ => true
  | .imageLoad _ _ domain => decide (domain < 58)
  | .trialConfirm _ => true
  | .activateReset _ => true
  | .lifecycleReset _ => true
  | .settingsStoreWrite _ => true
  | .updDataTimeout _ => true
  | .domainPowerUp _ d _ => decide (d < 58)
  | .domainPowerDown _ d => decide (d < 58)
  | .idleTimerExpiry _ d => decide (d < 58)
  | .sidebandAddressMatch _ addr also => decide (addr < 128) && decide (also < 128)
  | .comparatorWake _ also => decide (also < 128)
  | .pwrTimerExpiry _ also => decide (also < 128)
  | .mgtWakeFrame _ port _ also => decide (port < 2) && decide (also < 128)
  | .thermalSensorSample _ _ => true
  | .shedStep _ => true
  | .faultEventRecord _ => true
  | .faultReaction _ => true
  | .controlRestart _ => true
  | .voteScrub _ w _ => decide (w < 256)
  | .registerWrite _ master addr bits value => decide (master < 42) && decide (0x10000000 ≤ addr ∧ addr < 0x11000000) && decide (bits = 8 ∨ bits = 16 ∨ bits = 32 ∨ bits = 64) && decide (value < 2 ^ bits)
  | .postedWriteLand _ w => decide (w < 256)
  | .blkStatWrite _ master w value => decide (master < 42) && decide (w < 256) && decide (value < 2 ^ 32)
  | .sysCtlRemapWrite _ master value => decide (master < 42) && decide (value < 2 ^ 32)
  | .fabSelCurWrite _ master q value => decide (master < 42) && decide (q < 6144) && decide (value < 2 ^ 32)
  | .fabLdSnap _ master value => decide (master < 42) && decide (value < 2 ^ 32)
  | .ephGenLoad _ master g value => decide (master < 42) && decide (g < 16) && decide (value < 2 ^ 32)
  | .ephGenEnWrite _ master g value => decide (master < 42) && decide (g < 16) && decide (value < 2 ^ 32)
  | .lnqSleepWrite _ master l value => decide (master < 42) && decide (l < 128) && decide (value < 2 ^ 32)
  | .lnqLcfgWrite _ master l value => decide (master < 42) && decide (l < 128) && decide (value < 2 ^ 32)
  | .lnqAdaptRestart _ master l value => decide (master < 42) && decide (l < 128) && decide (value < 2 ^ 32)
  | .lnqAdaptFreeze _ master l value => decide (master < 42) && decide (l < 128) && decide (value < 2 ^ 32)
  | .lnqFomMinclr _ master l value => decide (master < 42) && decide (l < 128) && decide (value < 2 ^ 32)
  | .lnqPrbsWrite _ master l value => decide (master < 42) && decide (l < 128) && decide (value < 2 ^ 32)
  | .lnqStxMaskGo _ master l value => decide (master < 42) && decide (l < 128) && decide (value < 2 ^ 32)
  | .netRingSizeWrite _ master p k value => decide (master < 42) && decide (p < 66) && decide (k < 9) && decide (value < 2 ^ 32)
  | .netRingPiWrite _ master p k value => decide (master < 42) && decide (p < 66) && decide (k < 9) && decide (value < 2 ^ 32)
  | .netCtlWrite _ master p value => decide (master < 42) && decide (p < 66) && decide (value < 2 ^ 32)
  | .netFlowSnap _ master value => decide (master < 42) && decide (value < 2 ^ 32)
  | .modXferGo _ master value => decide (master < 42) && decide (value < 2 ^ 32)
  | .modXferDone _ _ data => decide (data < 256)
  | .cyxRqPiWrite _ master n value => decide (master < 42) && decide (n < 8) && decide (value < 2 ^ 32)
  | .cyxRingSizeWrite _ master n value => decide (master < 42) && decide (n < 8) && decide (value < 2 ^ 32)
  | .cyxRpCiWrite _ master n value => decide (master < 42) && decide (n < 8) && decide (value < 2 ^ 32)
  | .audSnap _ master value => decide (master < 42) && decide (value < 2 ^ 32)
  | .audClkWrite _ master value => decide (master < 42) && decide (value < 2 ^ 32)
  | .timSnap _ master value => decide (master < 42) && decide (value < 2 ^ 32)
  | .timSetGo _ master value => decide (master < 42) && decide (value < 2 ^ 32)
  | .timPulseLoad _ master p value => decide (master < 42) && decide (p < 8) && decide (value < 2 ^ 32)
  | .refCtlForceWrite _ master value => decide (master < 42) && decide (value < 2 ^ 32)
  | .mvwCurrentWrite _ master addr value => decide (master < 42) && decide (addr < 0x10000) && decide (value < 2 ^ 32)
  | .encEngEnWrite _ master _ value => decide (master < 42) && decide (value < 2 ^ 32)
  | .twnLeaseArm _ master value => decide (master < 42) && decide (value < 2 ^ 32)
  | .twnLeaseDrop _ master value => decide (master < 42) && decide (value < 2 ^ 32)
  | .pwrDomEnWrite _ master _ value => decide (master < 42) && decide (value < 2 ^ 32)
  | .dmcPatGo _ master n value => decide (master < 42) && decide (n < 48) && decide (value < 2 ^ 32)
  | .dmcPatDone _ n errors lanes => decide (n < 48) && decide (errors < 2 ^ 32) && decide (lanes < 2 ^ 18)
  | .memSetWrite _ master addr value => decide (master < 42) && decide (addr < 0x10000) && decide (value < 2 ^ 32)
  | .skwErrAddrHiRead _ master => decide (master < 42)
  | .fltInject _ master value => decide (master < 42) && decide (value < 2 ^ 32)
  | .cyxelFragment _ _ _ _ => true
  | .reassemblyTimeout _ _ session => decide (session < 2 ^ 16)
  | .sessionIdleTimeout _ session => decide (session < 2 ^ 16)
  | .sidebandBlockRead _ => true
  | .sysNop _ rq => rq.wf
  | .sysInfo _ rq => rq.wf
  | .sysAlmanacRead _ rq => rq.wf
  | .sysResetUnit _ rq => rq.wf
  | .sysSessionOpen _ rq => rq.wf
  | .sysSessionClose _ rq => rq.wf
  | .sysSubscribe _ rq => rq.wf
  | .cruCheck _ rq => rq.wf
  | .cruCommit _ rq => rq.wf
  | .cruReport _ rq => rq.wf
  | .fabRoute _ rq => rq.wf
  | .fabRouteBatch _ rq => rq.wf
  | .fabBondDefine _ rq => rq.wf
  | .fabQuery _ rq => rq.wf
  | .fabWindowStatus _ rq => rq.wf
  | .fabSyncAssign _ rq => rq.wf
  | .ephSchedule _ rq => rq.wf
  | .ephCancel _ rq => rq.wf
  | .ephList _ rq => rq.wf
  | .ephSalvo _ rq => rq.wf
  | .ephGenConfig _ rq => rq.wf
  | .lanConfig _ rq => rq.wf
  | .lanStatus _ rq => rq.wf
  | .lanFom _ rq => rq.wf
  | .lanSleep _ rq => rq.wf
  | .lanSlotmask _ rq => rq.wf
  | .netPortConfig _ rq => rq.wf
  | .netFlowRx _ rq => rq.wf
  | .netFlowTx _ rq => rq.wf
  | .netFlowDel _ rq => rq.wf
  | .netRingSetup _ rq => rq.wf
  | .netModuleInfo _ rq => rq.wf
  | .audRoute _ rq => rq.wf
  | .audPortConfig _ rq => rq.wf
  | .audRateStatus _ rq => rq.wf
  | .mvwHeadConfig _ rq => rq.wf
  | .mvwLayerSet _ rq => rq.wf
  | .mvwCommit _ rq => rq.wf
  | .mvwGraphicLoad _ rq => rq.wf
  | .graphicLoadDone _ => true
  | .encChannelCreate _ _ => true
  | .encChannelDelete _ _ => true
  | .encRateSet _ _ => true
  | .encStatus _ _ => true
  | .encXsDecodeCreate _ _ => true
  | .timDomainConfig _ rq => rq.wf
  | .timStatus _ rq => rq.wf
  | .timPulseProgram _ rq => rq.wf
  | .timRestep _ rq => rq.wf
  | .refTableSet _ rq => rq.wf
  | .refStatus _ rq => rq.wf
  | .refFramepulse _ rq => rq.wf
  | .twnConfig _ rq => rq.wf
  | .twnStatus _ rq => rq.wf
  | .twnLeaseRequest _ rq => rq.wf
  | .twnResync _ rq => rq.wf
  | .vltSlotStatus _ rq => rq.wf
  | .vltDerive _ rq => rq.wf
  | .vltInvalidate _ rq => rq.wf
  | .vltImport _ rq => rq.wf
  | .vltLifecycle _ rq _ => rq.wf
  | .memMapSet _ rq => rq.wf
  | .memPasrSet _ rq => rq.wf
  | .memTrain _ rq => rq.wf
  | .fltQuery _ rq => rq.wf
  | .fltClear _ rq => rq.wf
  | .fltHistory _ rq => rq.wf
  | .pwrDomainSet _ rq => rq.wf
  | .pwrIdleTimer _ rq => rq.wf
  | .pwrWakeRecord _ rq => rq.wf
  | .updBegin _ rq => rq.wf
  | .updData _ rq => rq.wf
  | .updCommit _ rq => rq.wf
  | .updVerifyDone _ => true
  | .updStatus _ rq => rq.wf
  | .meridian _ g => decide (g < 16)
  | .ephLoaderWrite _ g => decide (g < 16)
  | .landingFrameSelect _ chan => decide (chan < 512)
  | .outputCellRead _ q _ _ _ => decide (q < 6144)
  | .fabricCellWrite _ _ cell => decide (cell.length = 272)
  | .cellAgeExpiry _ => true
  | .sourceNoSignal _ n _ => decide (n < 6144)
  | .ldgLoss _ chan => decide (chan < 512)
  | .staveSuperframeStart _ l => decide (l < 128)
  | .stxLayoutLatch _ l => decide (l < 128)
  | .staveSuperframeReceive _ l _ _ _ _ _ _ => decide (l < 128)
  | .staveCellReceive _ l n _ _ => decide (l < 128) && decide (n < 6936)
  | .msgCellReceive _ l _ _ => decide (l < 128)
  | .fomWindowEnd _ l e _ _ _ => decide (l < 128) && decide (e.pattern < 2 ^ 32)
  | .adaptLmsUpdate _ l _ _ => decide (l < 128)
  | .sleepTransitionEnd _ l _ => decide (l < 128)
  | .laneSignalDetect _ l => decide (l < 128)
  | .lnLos _ l => decide (l < 128)
  | .lnCdrUnlock _ l => decide (l < 128)
  | .pllUnlock _ quad _ => decide (quad < 32)
  | .ethLinkUp _ p => decide (p.port < 66) && decide (p.lanes.length ≤ 4)
  | .ethLinkDown _ p => decide (p < 66)
  | .ethAnFail _ p => decide (p < 66)
  | .hostFrameReceive _ p _ _ => decide (p < 66)
  | .macFrameTransmit _ p _ => decide (p < 66)
  | .pauseFrameReceive _ p _ => decide (p < 66)
  | .pauseExpiry _ p q => decide (p < 66) && decide (q < 8)
  | .ethPauseStorm _ p q => decide (p < 66) && decide (q < 8)
  | .pauseHoldExpiry _ p q => decide (p < 66) && decide (q < 8)
  | .mgtServiceFrame _ m _ => decide (m < 2)
  | .modulePoll _ _ => true
  | .moduleHoldExpiry _ _ => true
  | .moduleLifeSample _ _ => true
  | .moduleAccountWrite _ => true
  | .flowPacketReceive _ p _ _ _ => decide (p < 66)
  | .flowLineRelease _ f => decide (f < 4096)
  | .flowLoss _ f => decide (f < 4096)
  | .flowPacketLaunch _ f => decide (f < 4096)
  | .txBehind _ f => decide (f < 4096)
  | .membershipQueryReceive _ p _ => decide (p < 66)
  | .membershipReportSend _ f leg => decide (f < 4096) && decide (leg < 2)
  | .audioSampleEvaluate _ _ _ => true
  | .tdmFrame _ _ _ => true
  | .audClkLoss _ => true
  | .tdmClockStop _ => true
  | .audioRateMeasure _ _ => true
  | .headMeridian _ h => decide (h < 16)
  | .bandStart _ h => decide (h < 16)
  | .bandComplete _ h => decide (h < 16)
  | .headRowEmit _ h => decide (h < 16)
  | .layerSofWrite _ h l => decide (h < 16) && decide (l < 64)
  | .encRowDue _ h => decide (h < 2 ^ 32)
  | .encRowCoded _ h _ => decide (h < 2 ^ 32)
  | .encDeadline _ h _ _ => decide (h < 2 ^ 32)
  | .encPacketLaunch _ h => decide (h < 2 ^ 32)
  | .encRefreshPeriodStart _ h => decide (h < 2 ^ 32)
  | .xsSliceEmit _ h => decide (h < 2 ^ 32)
  | .xsSliceLost _ d => decide (d < 64)
  | .ptpSyncReceive _ p _ _ => decide (p < 66)
  | .ptpAnnounceReceive _ p _ => decide (p < 66)
  | .ptpDelayRespReceive _ p _ => decide (p < 66)
  | .ptpDelayReqSend _ target port => decide (target < 3) && decide (port < 66)
  | .ptpPdelayReqReceive _ p _ => decide (p < 66)
  | .timPtpLoss _ d => decide (d < 2)
  | .timSecondTick _ => true
  | .chronographStep _ => true
  | .tcRelayForward _ p _ residence => decide (p < 66) && residence.all fun (r : Nat) => decide (r < 2 ^ 64)
  | .timePulseEdge _ p => decide (p < 8)
  | .refSelectionPass _ => true
  | .refPulseArrival _ input _ _ => decide (input < 16)
  | .refQualified _ e => decide (e < 8)
  | .refLoss _ e => decide (e < 8)
  | .framePulseEdge _ p => decide (p < 4)
  | .heartbeatSend _ => true
  | .heartbeatIntervalEnd _ => true
  | .heartbeatReceive _ _ => true
  | .rowsReceive _ _ => true
  | .outhashSend _ g => decide (g < 16)
  | .outhashReceive _ _ => true
  | .healthSend _ => true
  | .healthReceive _ _ => true
  | .snapshotReceive _ _ _ => true
  | .revertReceive _ _ => true
  | .revertHoldoffExpiry _ => true
  | .twinGenGap _ => true
  | .resyncConvergeEnd _ => true
  | .twinResyncFail _ => true
  | .resyncRetry _ => true
  | .lookoutRequestSend _ => true
  | .lookoutReplyReceive _ _ => true
  | .leaseExpiry _ => true
  | .lkoFenceLow _ => true
  | .bistTestStart _ kind _ => decide (kind < 3)
  | .bistTestDone _ kind _ _ => decide (kind < 3)
  | .vaultPowerUp _ _ _ _ => true
  | .vaultScrub _ _ => true
  | .vltTrngFail _ => true
  | .trngRetry _ _ => true
  | .revokeSweep _ => true
  | .dramTraining _ g _ _ => decide (g < 4)
  | .dramTracking _ n _ => decide (n < 48)
  | .dramRefreshCheck _ n rate => decide (n < 48) && decide (rate < 8)
  | .skidwayTransaction _ master id addr len _ _ => decide (master < 42) && decide (id < 256) && decide (addr < 2 ^ 64) && decide (1 ≤ len ∧ len ≤ 256)
  | .masterResetDrain _ m => decide (m < 42)
  | .cdrLock _ l => decide (l < 128)
  | .pllLock _ quad _ => decide (quad < 32)
  | .mgtLinkDown _ m => decide (m < 2)
  | .mgtLinkUp _ m => decide (m < 2)
  | .ptpFollowUpReceive _ p _ _ => decide (p < 66)
  | .clk10mPhaseDetector _ _ _ => true
  | .ethFecDegrade _ p _ => decide (p < 66)
  | .mirrorReplyReceive _ _ => true
  | .memTrainDone _ _ => true
  | .unitReady _ cap _ => decide (cap < 30)
  | .watchdogExpiry _ _ => true
  | .blockIsolatesItself _ _ _ => true
  | .lkoFenceHigh _ => true

end Sys2Proof
end

