-- ==== Sys2Proof/Tests/Slice0.lean ====
section
/-!
SUPPORT. The model's own tests: the checks of well-formedness, values that the spec works out or that follow from its tables by hand, and
states and operands that meet the hypotheses of the statements. What a hypothesis asks of an opaque constant (a tag under a key, the rate
of a coded flow) no evaluation shows, and the projections of Cruise are shown on three changes, for each costs seconds to evaluate.
-/
-- one evaluation at a time: the kernel evaluates these theorems, and each would take a thread of its own
set_option Elab.async false

namespace Sys2Proof.Tests
open Sys2Proof Sys2Proof.Machine

/-! ### The invariant and the queue -/

/-- The reset state meets the invariant. -/
theorem test_reset_inv : State.reset.inv = true := by decide

/-- A lone command at the front of the queue runs, and the queue is empty after it. -/
theorem test_step_front : ∃ t, step { State.reset with pending := [.tdmClockStop 5] } = .next t ∧ t.pending = [] ∧ t.now = 5 := ⟨_, rfl, rfl, rfl⟩

/-- The opcode table gives its rows no bits: no word spells a command, and withFetchWord leaves the state. -/
theorem test_no_word : decodeTableWord 8 0 = none ∧ State.reset.withFetchWord 8 0 = State.reset := ⟨rfl, rfl⟩

/-! ### Well-formedness -/

/-- A request of session 0 over MGT0. -/
def reqOf (p : List Byte) : Req := ⟨.udp 0 0 0, 1, 0, 0, 0, 0, 0, p, 0⟩

/-- One ill-formed term for each check is refused. -/
theorem test_ill_formed : ([.imageLoad 0 1 58, .domainPowerUp 0 58 ⟨true, true⟩, .domainPowerDown 0 58, .idleTimerExpiry 0 58,
    .sidebandAddressMatch 0 128 0, .sidebandAddressMatch 0 0 128, .comparatorWake 0 128, .pwrTimerExpiry 0 128, .mgtWakeFrame 0 2 [] 0,
    .voteScrub 0 256 [], .registerWrite 0 42 0x10000000 32 0, .registerWrite 0 8 0x11000000 32 0, .registerWrite 0 8 0x0FFFFFFC 32 0,
    .registerWrite 0 8 0x10000000 24 0, .registerWrite 0 8 0x10000000 8 256, .postedWriteLand 0 256, .blkStatWrite 0 8 256 0,
    .fabSelCurWrite 0 8 6144 0, .ephGenLoad 0 8 16 0, .lnqSleepWrite 0 8 128 0, .netRingSizeWrite 0 8 66 0 0, .netRingPiWrite 0 8 0 9 0,
    .modXferDone 0 .acked 256, .cyxRqPiWrite 0 8 8 0, .timPulseLoad 0 8 8 0, .mvwCurrentWrite 0 8 0x10000 0, .dmcPatGo 0 8 48 0,
    .dmcPatDone 0 0 (2 ^ 32) 0, .dmcPatDone 0 0 0 (2 ^ 18), .reassemblyTimeout 0 .sideband 65536, .sysNop 0 { reqOf [] with version := 256 },
    .sysInfo 0 { reqOf [] with tag := 2 ^ 32 }, .fabRoute 0 { reqOf [] with session := 65536 }, .landingFrameSelect 0 512,
    .outputCellRead 0 6144 0 0 0, .fabricCellWrite 0 (.landing) (List.replicate 271 0), .sourceNoSignal 0 6144 false,
    .staveCellReceive 0 0 6936 [] false, .pllUnlock 0 32 false, .pauseExpiry 0 0 8, .flowLoss 0 4096, .membershipReportSend 0 0 2,
    .layerSofWrite 0 0 64, .encRowDue 0 (2 ^ 32), .xsSliceLost 0 64, .ptpDelayReqSend 0 3 0, .timPtpLoss 0 2,
    .tcRelayForward 0 0 [] [2 ^ 64], .refPulseArrival 0 16 0 none, .refQualified 0 8, .framePulseEdge 0 4, .bistTestStart 0 3 0,
    .dramTraining 0 4 [] [], .dramRefreshCheck 0 0 8, .skidwayTransaction 0 8 256 0 1 none .done, .skidwayTransaction 0 8 0 0 257 none .done,
    .masterResetDrain 0 42, .unitReady 0 30 0] : List Instr).all (fun i => !i.wf) = true := by decide +kernel

/-- Their neighbours inside the ranges are well formed. -/
theorem test_well_formed : ([.imageLoad 0 1 57, .registerWrite 0 41 0x10FFFFFC 32 0xFFFFFFFF, .netRingSizeWrite 0 8 65 8 0, .fabSelCurWrite 0 8 6143 0,
    .staveCellReceive 0 127 6935 [] false, .fabricCellWrite 0 (.landing) (List.replicate 272 0), .sysNop 0 (reqOf []),
    .skidwayTransaction 0 8 255 0 256 none .done] : List Instr).all (fun i => i.wf) = true := by decide +kernel

/-! ### Values -/

/-- The check values of R29 and Table 4.1 over "123456789". -/
theorem test_crc_check_values : crc32c (ascii "123456789") = 0xE3069283#32 ∧ crc8 (ascii "123456789") = 0xF4#8 := by decide +kernel

/-- Rows of Table 1.9, and two formats that it does not carry. -/
theorem test_carriage : carriage 1920 1080 true false 25 1 = some 0 ∧ carriage 1920 1080 false true 60 1 = some 1 ∧
    carriage 3840 2160 false false 120 1 = some 2 ∧ carriage 7680 4320 false true 60 1 = some 8 ∧ carriage 7680 4320 false true 120 1 = none ∧
    carriage 3840 2160 true false 25 1 = none := by decide

/-- The example of chapter 05, "one batch across four rates": the Meridians that follow 1 750 000 000 s. -/
theorem test_meridian_instants : frameAt 60000 1001 (1750000000 * 10 ^ 9) = 104895104895 ∧
    meridianAt 60000 1001 104895104896 = 1750000000 * 10 ^ 9 + 14933334 ∧
    meridianAt 120000 1001 209790209791 = 1750000000 * 10 ^ 9 + 6591667 := by decide +kernel

/-- The example of chapter 07, "a quarter-slot output on a twinned router": cell, content bit, 492.781 ns in units of 1/128 ns, Sequences. -/
theorem test_quarter_slot_cell : positionCell 6 1 = 16 ∧ cellBit 16 = 38256 ∧ bitLeaves 38256 = 63076 ∧ cellPlace 16 = some (6, 1) ∧
    placeSequence true 14000000000000 1 = 0xC5280000 ∧ placeSequence true 14000000000001 1 = 0xC52800C0 := by decide +kernel

/-- Table 6.2, and a precoded stream that the far end recovers (R159). -/
theorem test_gray_and_precoding : graySymbols [false, false, false, true, true, true, true, false] = [0, 1, 2, 3] ∧
    ([0, 1, 2, 3] : List Nat).map amplitude = [-3, -1, 1, 3] ∧ precode 0 [0, 1, 2, 3] = [0, 1, 1, 2] ∧ unprecode 0 [0, 1, 1, 2] = [0, 1, 2, 3] := by decide

/-- The example of chapter 17, "decoding an address in a 12-channel set". -/
theorem test_dram_decode :
    let s := [(Reg.MEM_SET_CTL_EN 0, 1), (Reg.MEM_SET_CTL_COUNT 0, 12), (Reg.MEM_SET_CTL_FIRST 0, 0), (Reg.MEM_SET_CTL_GRAIN 0, 12),
      (Reg.MEM_SET_BASE_LO_B 0, 0), (Reg.MEM_SET_BASE_HI_B 0, 0), (Reg.MEM_STAT_DENSITY, 3)].foldl (fun t w => t.wr w.1 w.2) State.reset
    s.decode 0x1001234567 = .dram 0 4 0x184567 ∧ s.decode 0x1001235000 = .dram 0 5 0x184000 ∧ s.decode 0x100000 = .unmapped := by decide +kernel

/-- The example of chapter 12, "one row of a 4320p120 channel": D_enc and the row times. -/
theorem test_encoder_times :
    let s := [(Reg.EPH_GEN_CUR_N_N 0, 120), (Reg.EPH_GEN_CUR_D_D 0, 1)].foldl (fun t w => t.wr w.1 w.2) State.reset
    let x := encOfPayload (be8 1 ++ zeros 5 ++ be16 7680 ++ be16 4320 ++ zeros 14)
    s.encDelay x = 586196 ∧ s.rowTime x 11 = 1348039 := by decide +kernel

/-- The example of chapter 09, "a Stave source sent as one ST 2022-7 pair": overhead 90 bytes, and the charge of 10 689 086 914 bit/s. -/
theorem test_wire_rate :
    let s := [(Reg.EPH_GEN_CUR_N_N 0, 60000), (Reg.EPH_GEN_CUR_D_D 0, 1001)].foldl (fun t w => t.wr w.1 w.2) State.reset
    let f := flowOfPayload true (be8 1 ++ zeros 11 ++ be16 3840 ++ be16 2160 ++ zeros 12 ++ be16 1200 ++ zeros 72 ++ be16 1 ++ zeros 72) 0
    f.legs.map (fun g => (s.overhead f g, s.wireRate f g)) = [(90, 10689086914)] := by decide +kernel

/-- The example of chapter 11, "a 64-window head": the scaling of one layer per source frame, 1 920 x 1 080 / 2 cycles. -/
theorem test_scaling_cycles : (vidEntry (zeros 8 ++ be16 480 ++ be16 270 ++ zeros 8 ++ be16 1920 ++ be16 1080 ++ zeros 24) 0).cycles = 1036800 := by decide +kernel

/-! ### States that meet the hypotheses of the statements

`running` is a part whose firmware runs: every domain on, lane 0 a Stave lane, lane 1 a 100 Gbit/s port whose link is up, generator 0 at
50 Hz, head 0 on, a channel set, an encoder channel, a bank update that waits for bytes, and a DRAM group trained. -/

/-- Fields written one after the other. -/
def sets (s : State) (l : List (FieldRef × Nat)) : State := l.foldl (fun t w => t.wr w.1 w.2) s

/-- A NET_FLOW_RX payload of port 1: uncompressed (1) or JPEG XS (2) video of 3840 x 2160 at 50 Hz on slot 9. -/
def rxPayload (kind slot : Nat) : List Byte :=
  be8 kind ++ zeros 1 ++ be16 slot ++ zeros 4 ++ be8 96 ++ zeros 3 ++ be16 3840 ++ be16 2160 ++ be32 50 ++ be32 1 ++ be32 400000 ++ be16 1200 ++ zeros 2 ++
    (zeros 12 ++ be32 0x0A000002) ++ zeros 48 ++ be16 1 ++ be16 5004 ++ zeros 4 ++ zeros 72

/-- A NET_FLOW_TX payload of port 1. -/
def txPayload (kind slot : Nat) : List Byte :=
  be8 kind ++ zeros 1 ++ be16 slot ++ zeros 4 ++ be8 96 ++ zeros 3 ++ be16 3840 ++ be16 2160 ++ zeros 8 ++ be32 0 ++ be16 1200 ++ zeros 18 ++
    (zeros 12 ++ be32 0x0A000002) ++ zeros 44 ++ be16 1 ++ zeros 2 ++ zeros 64

/-- The encoder channel of a payload. -/
def encPayload : List Byte := be8 2 ++ be8 0 ++ be16 9 ++ be8 0 ++ be8 0 ++ be16 1920 ++ be16 1080 ++ zeros 6 ++ be64 20000000

/-- Such a part. -/
def running : State :=
  sets (({ State.reset with
      boot := { BootState.reset with firmwareSince := some 0, update := some ⟨0, 0, 8, 4, 0⟩ }
      ready := [unitKey 0x0A 0, unitKey 0x0B 0, unitKey 0x0C 0, unitKey 0x0D 0, unitKey 0x0E 0, unitKey 0x0F 0, unitKey 0x11 0, unitKey 0x11 1, unitKey 0x13 1, unitKey 0x12 0,
        unitKey 0x13 0, unitKey 0x19 0, unitKey 0x18 0, unitKey 5 0, unitKey 7 0, unitKey 8 0]
      cru := { CruState.reset with reports := [⟨1, 0, 0, []⟩] }
      enc := { EncState.reset with chans := [{ encOfPayload encPayload with handle := 0x40001 }] } } : State).modNetPort 64 fun x =>
      { x with mgtIp := some (5, 6, 24, 0, 0) })
    [(Reg.PWR_DOM_ON_LO_ON, 2 ^ 32 - 1), (Reg.PWR_DOM_ON_HI_ON, 2 ^ 26 - 1), (Reg.PWR_DOM_EN_LO_EN, 2 ^ 32 - 1), (Reg.PWR_DOM_EN_HI_EN, 2 ^ 26 - 1),
     (Reg.NET_STAT_LINK 64, 1), (Reg.EPH_GEN_CTL_EN 0, 1), (Reg.EPH_GEN_CUR_N_N 0, 50), (Reg.EPH_GEN_CUR_D_D 0, 1), (Reg.EPH_GEN_N_N 0, 50),
     (Reg.EPH_GEN_D_D 0, 1), (Reg.LNQ_LCFG_MODE 0, 1), (Reg.MVW_H_CTL_EN 0, 1), (Reg.VLT_STAT_LCS, 1), (Reg.MEM_STAT_DENSITY, 7), (Reg.LNQ_LCFG_TX_EN 0, 1), (Reg.LNQ_LCFG_RX_EN 0, 1), (Reg.TIM_STAT_STATE, 2), (Reg.TIM_STAT_SEL, 1), (Reg.LNQ_LCFG_MODE 1, 2), (Reg.NET_CTL_MODE 1, 1), (Reg.LNQ_LCFG_RX_EN 1, 1), (Reg.LNQ_LSTAT_BITS 1, 3), (Reg.NET_CTL_EN 1, 1), (Reg.NET_STAT_LINK 1, 1),
     (Reg.MEM_SET_CTL_EN 0, 1), (Reg.MEM_SET_CTL_COUNT 0, 1), (Reg.MEM_SET_CTL_FIRST 0, 0)]

/-- The state in which such a request is executed. -/
def heard (s : State) : State := (s.arrive 0).plainStart (reqOf [])

/-- A request as opcode row and payload. -/
abbrev Sent := OpSpec × List Byte

/-- Nothing in a state stands in the way of a plain request. -/
def open_ (s : State) : Bool :=
  let u := s.arrive 0
  u.serves (.udp 0 0 0) && !u.boot.romServes && (u.session 0).isSome && (u.cyx.sessions.all fun x => decide (x.queue = [])) &&
    decide (u.partialOf (reqOf []) = none) && decide (u.lifeCycle < 3) && u.role == roleSolo && !u.flag Reg.TWN_STAT_FENCE_PIN && decide (u.twn.expiry = none)

/-- Steps 12 to 16 refuse none of these requests. -/
def taken (s : State) (l : List Sent) : Bool :=
  l.all fun c => opcodeDefined c.1.code && c.1.code != 5 && decide (c.2.length ≤ 8192) && c.2.length % 4 == 0 &&
    decide (c.1.refusal (heard s) false c.2 = none)

/-- Each of these requests executes with OK or ACCEPTED_PENDING. -/
def ran (s : State) (l : List Sent) : Bool := l.all fun c => decide ((c.1.run (heard s) (ctxOf (reqOf c.2)) c.2).status < 2)

/-- What `taken` says of a request. -/
def Taken (s : State) (c : Sent) : Prop :=
  Plain (s.arrive 0) (reqOf c.2) ∧ Admits c.1 0 (reqOf c.2) s (heard s) c.2

theorem taken_all {s : State} {l : List Sent} (h : (open_ s && taken s l) = true) : ∀ c ∈ l, Taken s c := by
  rw [Bool.and_eq_true] at h
  intro c hc
  have h2 := List.all_eq_true.1 h.2 c hc
  have h1 := h.1
  simp only [open_, Bool.and_eq_true, decide_eq_true_eq, beq_iff_eq, Bool.not_eq_true', List.all_eq_true] at h1
  simp only [Bool.and_eq_true, bne_iff_ne, ne_eq, decide_eq_true_eq, beq_iff_eq] at h2
  obtain ⟨⟨⟨⟨⟨⟨⟨⟨a1, a2⟩, a3⟩, a4⟩, a5⟩, a6⟩, a7⟩, a8⟩, a9⟩ := h1
  obtain ⟨⟨⟨⟨hd, h5⟩, hl⟩, h4⟩, hr⟩ := h2
  have hp : Plain (s.arrive 0) (reqOf c.2) := ⟨⟨0, 0, 0, rfl⟩, a1, a2, rfl, rfl, rfl, a3, a4, a5, hl, h4, a6, a7, a8, a9⟩
  exact ⟨hp, admits_plain hp hd h5 hr⟩

/-- SYS requests. -/
def sysSent : List Sent :=
  [(opSysNop, []),
   (opSysInfo, []),
   (opSysAlmanacRead, be16 0 ++ be16 4),
   (opSysResetUnit, be16 0x11 ++ be16 0 ++ zeros 4),
   (opSysSubscribe, be32 3)]

theorem test_sys_requests : ran running sysSent = true ∧ ∀ c ∈ sysSent, Taken running c :=
  ⟨by decide +kernel, taken_all (by decide +kernel)⟩

/-- CRU requests. -/
def cruSent : List Sent :=
  [(opCruCheck, be16 1 ++ be16 0 ++ (be16 0x0D01 ++ be16 4 ++ zeros 4)),
   (opCruCommit, be16 1 ++ be16 0 ++ (be16 0x0D01 ++ be16 4 ++ zeros 4)),
   (opCruReport, be32 1)]

theorem test_cru_requests : ∀ c ∈ cruSent, Taken running c :=
  taken_all (by decide +kernel)

/-- FAB requests. -/
def fabSent : List Sent :=
  [(opFabRoute, be16 0 ++ be16 0xFFFF ++ be8 0 ++ be8 0xFF ++ zeros 2),
   (opFabRouteBatch, be16 1 ++ zeros 6 ++ (be16 0 ++ be16 0xFFFF ++ be8 0 ++ be8 0xFF ++ zeros 2)),
   (opFabBondDefine, be8 2 ++ be8 2 ++ zeros 2 ++ be16 0 ++ be16 1 ++ (List.range 6).flatMap (fun _ => be16 0xFFFF)),
   (opFabQuery, be16 0 ++ be16 2),
   (opFabWindowStatus, be16 9 ++ be16 2 ++ be8 0 ++ zeros 3),
   (opFabSyncAssign, be16 9 ++ be16 0 ++ be8 0 ++ be8 0 ++ be8 0 ++ zeros 1 ++ be16 1920 ++ be16 1080 ++ be8 0 ++ be8 0 ++ zeros 2 ++ be32 50 ++ be32 1)]

theorem test_fab_requests : ran running fabSent = true ∧ ∀ c ∈ fabSent, Taken running c :=
  ⟨by decide +kernel, taken_all (by decide +kernel)⟩

/-- EPH requests. -/
def ephSent : List Sent :=
  [(opEphSchedule, zeros 2 ++ beBytes 6 2 ++ be32 0 ++ zeros 16 ++ (be16 0 ++ be16 0xFFFF ++ be8 0 ++ be8 0xFF ++ zeros 2)),
   (opEphList, be32 0 ++ be16 4 ++ zeros 2),
   (opEphSalvo, zeros 2 ++ beBytes 6 2 ++ be32 0 ++ be16 1 ++ zeros 2 ++ (be16 0 ++ be16 0xFFFF ++ be8 0 ++ be8 0xFF ++ zeros 2)),
   (opEphGenConfig, be8 0 ++ be8 1 ++ be8 1 ++ zeros 1 ++ be32 50 ++ be32 1)]

theorem test_eph_requests : ran running ephSent = true ∧ ∀ c ∈ ephSent, Taken running c :=
  ⟨by decide +kernel, taken_all (by decide +kernel)⟩

/-- LAN requests. -/
def lanSent : List Sent :=
  [(opLanConfig, be16 0 ++ be8 1 ++ be8 3 ++ zeros 12),
   (opLanStatus, be16 0 ++ be16 1),
   (opLanFom, be16 0 ++ zeros 2),
   (opLanSleep, be16 0 ++ be16 1 ++ be8 1 ++ be8 1 ++ zeros 2),
   (opLanSlotmask, zeros 16)]

theorem test_lan_requests : ran running lanSent = true ∧ ∀ c ∈ lanSent, Taken running c :=
  ⟨by decide +kernel, taken_all (by decide +kernel)⟩

/-- NET requests. -/
def netSent : List Sent :=
  [(opNetPortConfig, be16 0 ++ be8 1 ++ zeros 5 ++ (be8 2 ++ be8 16 ++ zeros 2 ++ be8 0 ++ zeros 1 ++ be16 1 ++ be16 1 ++ zeros 2 ++ zeros 4)),
   (opNetFlowRx, rxPayload 1 9),
   (opNetFlowTx, txPayload 1 9),
   (opNetRingSetup, be16 0 ++ be8 0 ++ be8 0 ++ zeros 20),
   (opNetModuleInfo, zeros 4)]

theorem test_net_requests : ran running netSent = true ∧ ∀ c ∈ netSent, Taken running c :=
  ⟨by decide +kernel, taken_all (by decide +kernel)⟩

/-- AUD requests. -/
def audSent : List Sent :=
  [(opAudRoute, be16 1 ++ be16 0 ++ zeros 4 ++ zeros 8 ++ (be16 0 ++ be16 1 ++ be32 0 ++ zeros 4)),
   (opAudPortConfig, be16 1 ++ zeros 2 ++ (be8 1 ++ be8 8 ++ zeros 2 ++ be8 1 ++ zeros 3)),
   (opAudRateStatus, be8 0 ++ zeros 1 ++ be16 0 ++ be16 1 ++ zeros 2)]

theorem test_aud_requests : ran running audSent = true ∧ ∀ c ∈ audSent, Taken running c :=
  ⟨by decide +kernel, taken_all (by decide +kernel)⟩

/-- MVW requests. -/
def mvwSent : List Sent :=
  [(opMvwHeadConfig, be8 0 ++ be8 1 ++ zeros 6 ++ be32 0x04010040 ++ zeros 4),
   (opMvwLayerSet, be8 0 ++ be8 1 ++ zeros 6 ++ (be8 2 ++ be8 0 ++ be8 1 ++ zeros 5 ++ be16 16 ++ be16 64 ++ be16 0xFFFF ++ be8 20 ++ zeros 1 ++
     be8 60 ++ zeros 7 ++ (List.range 5).flatMap (fun _ => be32 0x04010040) ++ zeros 4)),
   (opMvwCommit, be16 1 ++ zeros 14)]

theorem test_mvw_requests : ran running mvwSent = true ∧ ∀ c ∈ mvwSent, Taken running c :=
  ⟨by decide +kernel, taken_all (by decide +kernel)⟩

/-- ENC requests. -/
def encSent : List Sent :=
  [(opEncChannelCreate, encPayload),
   (opEncChannelDelete, be32 0x40001 ++ zeros 4),
   (opEncRateSet, be32 0x40001 ++ zeros 4 ++ be64 20000000),
   (opEncStatus, be32 0x40001 ++ zeros 4)]

theorem test_enc_requests : ran running encSent = true ∧ ∀ c ∈ encSent, Taken running c :=
  ⟨by decide +kernel, taken_all (by decide +kernel)⟩

/-- TIM requests. -/
def timSent : List Sent :=
  [(opTimDomainConfig, be8 0 ++ zeros 2 ++ be8 1 ++ be16 0 ++ (List.range 16).flatMap (fun _ => be16 0xFFFF) ++ zeros 34),
   (opTimStatus, []),
   (opTimPulseProgram, be8 0 ++ be8 1 ++ zeros 2 ++ (zeros 2 ++ beBytes 6 2 ++ be32 0) ++ be32 0 ++ be32 0 ++ be32 8 ++ zeros 4),
   (opTimRestep, zeros 4)]

theorem test_tim_requests : ran running timSent = true ∧ ∀ c ∈ timSent, Taken running c :=
  ⟨by decide +kernel, taken_all (by decide +kernel)⟩

/-- REF requests. -/
def refSent : List Sent :=
  [(opRefTableSet, be8 0 ++ be8 8 ++ be16 1 ++ be16 10 ++ be16 10 ++ zeros 8 ++ (List.range 8).flatMap (fun _ => be8 15 ++ zeros 19)),
   (opRefStatus, []),
   (opRefFramepulse, be8 6 ++ zeros 15)]

theorem test_ref_requests : ran running refSent = true ∧ ∀ c ∈ refSent, Taken running c :=
  ⟨by decide +kernel, taken_all (by decide +kernel)⟩

/-- TWN requests. -/
def twnSent : List Sent :=
  [(opTwnConfig, zeros 2 ++ be16 1 ++ zeros 1 ++ be8 1 ++ zeros 58),
   (opTwnStatus, [])]

theorem test_twn_requests : ran running twnSent = true ∧ ∀ c ∈ twnSent, Taken running c :=
  ⟨by decide +kernel, taken_all (by decide +kernel)⟩

/-- VLT requests. -/
def vltSent : List Sent :=
  [(opVltSlotStatus, be16 0 ++ be16 1),
   (opVltDerive, be16 0xFFFE ++ be16 0xFFFF ++ be16 1 ++ be16 0 ++ be8 1 ++ zeros 67),
   (opVltInvalidate, be16 0 ++ zeros 2),
   (opVltImport, be8 0 ++ be8 0 ++ be16 0xFFFF ++ be16 0xFFFF ++ be16 0 ++ be16 0 ++ zeros 66)]

theorem test_vlt_requests : ran running vltSent = true ∧ ∀ c ∈ vltSent, Taken running c :=
  ⟨by decide +kernel, taken_all (by decide +kernel)⟩

/-- MEM requests. -/
def memSent : List Sent :=
  [(opMemMapSet, be8 1 ++ zeros 7 ++ (be8 1 ++ be8 1 ++ be8 1 ++ zeros 21)),
   (opMemPasrSet, zeros 4),
   (opMemTrain, be64 2 ++ zeros 8)]

theorem test_mem_requests : ran running memSent = true ∧ ∀ c ∈ memSent, Taken running c :=
  ⟨by decide +kernel, taken_all (by decide +kernel)⟩

/-- FLT requests. -/
def fltSent : List Sent :=
  [(opFltQuery, be32 0 ++ be16 1 ++ zeros 2),
   (opFltClear, zeros 4 ++ be8 1 ++ zeros 3),
   (opFltHistory, zeros 4)]

theorem test_flt_requests : ran running fltSent = true ∧ ∀ c ∈ fltSent, Taken running c :=
  ⟨by decide +kernel, taken_all (by decide +kernel)⟩

/-- PWR requests. -/
def pwrSent : List Sent :=
  [(opPwrDomainSet, zeros 32),
   (opPwrIdleTimer, be8 5 ++ be8 1 ++ zeros 2 ++ be32 5),
   (opPwrWakeRecord, [])]

theorem test_pwr_requests : ran running pwrSent = true ∧ ∀ c ∈ pwrSent, Taken running c :=
  ⟨by decide +kernel, taken_all (by decide +kernel)⟩

/-- UPD requests. -/
def updSent : List Sent :=
  [(opUpdBegin, zeros 8),
   (opUpdData, be32 4 ++ zeros 4),
   (opUpdStatus, [])]

theorem test_upd_requests : ran running updSent = true ∧ ∀ c ∈ updSent, Taken running c :=
  ⟨by decide +kernel, taken_all (by decide +kernel)⟩

/-- Cases of commands that need another state: a session's own update that is whole, a flow to delete and to decode, a take to
cancel, a graphic to load. -/
def prepared : State :=
  { running with
    eph := { running.eph with takes := [⟨1, 1, false, false, false, false, false, 0, 0, 0, 10 ^ 9, 0, 1,
      [⟨0x10000 + 36 * 9, 9, true, false, false, false, 0, 60, 1, 1, false, false⟩], false⟩] }
    boot := { running.boot with update := some ⟨0, 0, 8, 8, 0⟩ }
    net := { running.net with flows := [{ flowOfPayload false (rxPayload 2 0) 0 with index := 3 }] } }

def preparedSent : List Sent :=
  [(opUpdCommit, zeros 4), (opEphCancel, be32 1 ++ zeros 4), (opNetFlowDel, be32 0x10003 ++ zeros 4), (opEncXsDecodeCreate, be32 0x10003 ++ zeros 4),
    (opMvwGraphicLoad, zeros 8 ++ be16 2 ++ be16 1 ++ zeros 12 ++ be32 8 ++ zeros 4)]

theorem test_prepared_requests : ran prepared preparedSent = true ∧ ∀ c ∈ preparedSent, Taken prepared c :=
  ⟨by decide +kernel, taken_all (by decide +kernel)⟩

/-- Is a request that passes the checks answered with a status? -/
def answers (s : State) (c : Sent) (st : Nat) : Bool := taken s [c] && decide ((c.1.run (heard s) (ctxOf (reqOf c.2)) c.2).status = st)

/-- The clauses that turn a request away: a commit that waits, a load of the same set, a deletion that waits, a step that is decided, and a
Chronograph that follows nothing. -/
theorem test_requests_turned_away :
    let x := running.head 0
    let commits := running.putHead { x with waiting := [⟨0, 1, none, some x.shadow, [], 0, 0, 0⟩] }
    let loads := { running with mvw := { running.mvw with loads := [⟨0, 0, 2, 1, 0, 8, 1⟩] } }
    let leaves := { running with enc := { running.enc with chans := running.enc.chans.map fun y => { y with deleting := some 9 } } }
    let steps := running.modTim fun y => { y with stepAt := some (10 ^ 9) }
    answers commits (opMvwCommit, be16 1 ++ zeros 14) stBusy = true ∧
    answers loads (opMvwGraphicLoad, zeros 8 ++ be16 2 ++ be16 1 ++ zeros 12 ++ be32 8 ++ zeros 4) stBusy = true ∧
    answers leaves (opEncChannelDelete, be32 0x40001 ++ zeros 4) stBusy = true ∧ answers steps (opTimRestep, zeros 4) stBusy = true ∧
    answers (sets running [(Reg.TIM_STAT_STATE, 1)]) (opTimRestep, zeros 4) stNotReady = true := by decide +kernel

/-- No account is over its capacity in any configuration that is to come. -/
def fits (s : State) : Bool := s.stages.all fun st => (st.ether ++ st.accounts).all fun a => !a.excess

/-- Cruise admits a change of one lane, of the masked segments of a set, and a disconnecting route. -/
theorem test_cruise_admits : ∀ c ∈ ([lanSent.getD 0 (opSysNop, []), memSent.getD 1 (opSysNop, []), fabSent.getD 0 (opSysNop, [])] : List Sent),
    c.1.cruise = true ∧ (evaluate (heard running) (c.1.run (heard running) (ctxOf (reqOf c.2)) c.2).state []).fails = 0 := by
  have h : (([lanSent.getD 0 (opSysNop, []), memSent.getD 1 (opSysNop, []), fabSent.getD 0 (opSysNop, [])] : List Sent).all fun c =>
      c.1.cruise && fits (c.1.run (heard running) (ctxOf (reqOf c.2)) c.2).state) = true := by decide +kernel
  intro c hc
  have h := List.all_eq_true.1 h c hc
  simp only [fits, Bool.and_eq_true, List.all_eq_true, Bool.not_eq_true'] at h
  exact ⟨h.1, evaluate_fits h.2⟩

/-! Register rows: the bus takes a write of ranger core 0. -/

/-- What `Accepts` asks, as a check. -/
def accepted (s : State) (w off : Nat) : Bool :=
  s.masterRuns 8 && decide (s.registerRefusal 8 (regAddr w off) off 32 true = none) && s.windowPresent w && !s.laneOfPort w && !s.writePending w

theorem accepts_of {s : State} {w off : Nat} (h : accepted s w off = true) : Accepts s 8 w off := by
  simp only [accepted, Bool.and_eq_true, decide_eq_true_eq, Bool.not_eq_true'] at h
  exact ⟨h.1.1.1.1, h.1.1.1.2, h.1.1.2, h.1.2, h.2⟩

/-- The places of the register rows, the first and the last index of each. -/
theorem test_register_rows_accept : ∀ c ∈ ([(1, 0x10), (1, 0x40), (1, 4), (2, 0x80), (3, 0x20), (3, 0x24), (6, 0x28), (6, 0x68), (6, 0x1E0), (7, 0x10), (8, 0x30), (8, 0x3C),
    (9, 0x20), (9, 0x1000), (9, 0x6FFC), (0x0A, 0x100), (0x0A, 0x4C0), (0x0C, 0x24), (0x0C, 0x14), (0x0D, 8), (0x0E, 0x20), (0x0E, 0x24), (0x0F, 0x100),
    (0x10, 0x100), (0x2F, 0x41C), (0x10, 0x140), (0x10, 0x1000), (0x30, 0x40), (0x5F, 0x40), (0x60, 0x108), (0xA1, 0x10C), (0x60, 0x10), (0x60, 0x800), (0xA0, 0x604),
    (0xB0, 0x114), (0xB0, 0x2C8)] : List (Nat × Nat)), Accepts (running.elapse 0) 8 c.1 c.2 := by
  have h : (([(1, 0x10), (1, 0x40), (1, 4), (2, 0x80), (3, 0x20), (3, 0x24), (6, 0x28), (6, 0x68), (6, 0x1E0), (7, 0x10), (8, 0x30), (8, 0x3C),
    (9, 0x20), (9, 0x1000), (9, 0x6FFC), (0x0A, 0x100), (0x0A, 0x4C0), (0x0C, 0x24), (0x0C, 0x14), (0x0D, 8), (0x0E, 0x20), (0x0E, 0x24), (0x0F, 0x100),
    (0x10, 0x100), (0x2F, 0x41C), (0x10, 0x140), (0x10, 0x1000), (0x30, 0x40), (0x5F, 0x40), (0x60, 0x108), (0xA1, 0x10C), (0x60, 0x10), (0x60, 0x800), (0xA0, 0x604),
    (0xB0, 0x114), (0xB0, 0x2C8)] : List (Nat × Nat)).all fun c => accepted (running.elapse 0) c.1 c.2) = true := by decide +kernel
  exact fun c hc => accepts_of (List.all_eq_true.1 h c hc)

/-- A refused write, a posted write that travels, and one that the register takes without blocking a field. -/
theorem test_register_cases : running.registerRefusal 12 (regAddr 1 0x10) 0x10 24 true = some (some 2) ∧
    postedWindow 0x30 = true ∧ postedWindow 1 = false ∧ indirectData 9 0x1000 = false ∧
    (registerAt 6 0x1E0).length ≠ 0 ∧ (registerAt 1 0x10).all (fun f => !(running.elapse 0).fieldBlocked f 0) = true := by decide +kernel

/-! Events. Each theorem lists what the clauses of its statement ask, on small states. -/

theorem test_power_events :
    let down := sets running [(Reg.PWR_DOM_EN_LO_EN, 2 ^ 32 - 1 - 2 ^ 5)]
    let up := sets running [(Reg.PWR_DOM_ON_LO_ON, 2 ^ 32 - 1 - 2 ^ 5)]
    let noCore := sets running [(Reg.PWR_DOM_EN_LO_EN, 2 ^ 32 - 1 - 2), (Reg.PWR_DOM_ON_LO_ON, 9), (Reg.PWR_DOM_ON_HI_ON, 0), (Reg.PWR_DOM_EN_HI_EN, 0)]
    running.pwr.rstLow = false ∧ { running.pwr with rstLow := true }.rstLow = true ∧ running.pwr.tripped = false ∧
    down.nextDown = some 5 ∧ up.nextUp = some 5 ∧ (sets State.reset [(Reg.PWR_DOM_EN_LO_EN, 0)]).nextDown.isSome = true ∧ noCore.domOn 1 = false ∧
    running.hasIdleTimer 45 = true ∧ running.domOn 45 = true ∧ running.assigned 45 = false := by decide +kernel

theorem test_boot_events :
    let rom := sets { State.reset with pwr := { PowerState.reset with coreGood := true } } [(Reg.PWR_DOM_ON_LO_ON, 11)]
    let b := { running.boot with firmwareSince := some 0, bankA := ⟨2, [], 0, 0⟩ }
    rom.domOn 1 = true ∧ rom.boot.firmwareSince = none ∧ rom.boot.romServes = false ∧ rom.flt.halted = false ∧ (imageUnits 5).2.2 40 = true ∧
    running.boot.imageOf running.runningBank 5 = none ∧ b.bankA.state = 2 ∧ running.boot.update.isSome = true := by decide +kernel

theorem test_fault_events :
    let s := running.raise 0x2F05 0 0
    (nextEvent s.flt.detected).isSome = true ∧ s.domOn 1 = true ∧ running.flt.running = [] ∧ sourceUnits .px7210 (srcLane 5) ≠ [] ∧
    maxTemp [40, 41] < (running.rd Reg.FLT_THERM_WARN_C : Int) - 3 ∧ plainUnit 0x11 = true ∧ running.present 0x11 3 = true ∧
    running.shutIn 0x11 3 = false ∧ running.domOn (capDomain 0x11 3) = true := by decide +kernel

/-- A lane whose receiver is locked and whose link is UP, with one quarter of slot position 2 active. -/
def linked : State := sets running [(Reg.LNQ_LSTAT_BITS 0, 31), (Reg.LNQ_SRX_STAT_STATE 0, 3), (Reg.LNQ_SRX_STAT_SLOTS 0, 1), (Reg.LNQ_STX_CTL_EN 0, 1),
  (pllLock 0 false, 1), (Reg.LNQ_SRX_QACT_HI_QMAP 0, 4), (Reg.LNQ_SRX_QACT_LO_Q 0, 2 ^ 8)]

theorem test_lane_events :
    let wakes := linked.modLane 0 fun x => { x with tx := ⟨0, some 0, none⟩, rx := ⟨0, some 0, some 1⟩ }
    linked.laneOn 0 = true ∧ linked.lstat 0 0 = true ∧ linked.lstat 0 1 = true ∧ linked.flag (Reg.LNQ_LCFG_RX_EN 0) = true ∧ linked.laneMode 0 ≠ 0 ∧
    linked.flag (pllLock 0 false) = true ∧ linked.usesPll 0 false = true ∧ linked.rxRuns 0 = true ∧ linked.flag (Reg.LNQ_ADAPT_FREEZE 0) = false ∧
    let due := { linked with tim := { linked.tim with count := 124000 } }
    (wakes.lane 0).tx.endsAt = some 0 ∧ (wakes.lane 0).rx.endsAt = some 0 ∧ due.latchNow = true ∧ (due.lane 0).latched = none ∧ linked.latchNow = false ∧ linked.flag (Reg.LNQ_ADAPT_DFE_EN 0) = true ∧
    (sets linked [(Reg.LNQ_ADAPT_DFE_EN 0, 0)]).flag (Reg.LNQ_ADAPT_DFE_EN 0) = false := by decide +kernel

/-- A cell of the quarter that is active, one of the full slot at position 0, and a header block of Table 7.2. -/
def cellOf (flags slot : Nat) : List Byte :=
  let h := be8 0 ++ be8 flags ++ be16 slot ++ zeros 11
  h ++ [crc8 h] ++ zeros 256
/-- The first 76 bytes of a header block, and the block. -/
def headerStart : List Byte := be16 0x5354 ++ be8 1 ++ zeros 73
def headerOf : List Byte := headerStart ++ be32 (crc32c headerStart).toNat

/-- A copy is good whose last four bytes are the CRC of the rest. -/
theorem header_good (c : BitVec 32) (hc : crc32c headerStart = c) :
    goodHeader [zeros 80, headerStart ++ be32 c.toNat] = some (headerStart ++ be32 c.toNat) := by
  have hu : u32 (headerStart ++ be32 c.toNat) 76 = c.toNat := by
    simp [u32, u16, u8, headerStart, be32, be16, be8, beBytes, zeros]
    omega
  have ht : (headerStart ++ be32 c.toNat).take 76 = headerStart := List.take_left' (by decide)
  have h1 : ((headerStart ++ be32 c.toNat).length == 80 && u16 (headerStart ++ be32 c.toNat) 0 == 0x5354 &&
      u8 (headerStart ++ be32 c.toNat) 2 == 1) = true := by
    simp [u16, u8, headerStart, be32, be16, be8, beBytes, zeros]
  simp only [goodHeader, List.find?, ht, h1, hu, hc]
  simp [zeros, u16, u8]

/-- Of a copy without magic and a good one the receiver takes the good one. -/
theorem test_good_header : goodHeader [zeros 80, headerOf] = some headerOf := header_good _ rfl

theorem test_stave_events :
    linked.laneMode 0 = 1 ∧ ({ linked with tim := { linked.tim with count := 60000 } }).startsNow 0 0 = false ∧ ({ linked with tim := { linked.tim with count := 125000 } }).startsNow 0 1 = true ∧
    ((linked.endLine 0 8000000).beginLayout 0).staveSends 0 = true ∧ linked.lstat 0 4 = true ∧ linked.lstat 0 3 = true ∧ cellPosition (positionCell 0 5) = some (0, 1) ∧
    slotKey (u16 (cellOf 0 0) 2) (bit (u8 (cellOf 0 0) 1) 2) = 0 ∧ crc8 ((cellOf 0 0).take 15) = BitVec.ofNat 8 (u8 (cellOf 0 0) 15) ∧
    bit (linked.rd (Reg.LNQ_SRX_STAT_SLOTS 0)) 0 = true ∧ bit (linked.rd64 (Reg.LNQ_SRX_QACT_LO_Q 0) (Reg.LNQ_SRX_QACT_HI_Q 0)) 8 = true ∧
    bit (linked.rd (Reg.LNQ_SRX_QACT_HI_QMAP 0)) 2 = true ∧ cellPosition (positionCell 2 0) = some (2, 0) ∧
    slotKey (u16 (cellOf 4 8) 2) (bit (u8 (cellOf 4 8) 1) 2) = 0x10008 ∧ linked.loopTakes 0 (cellOf 0 0) = true ∧ linked.fabricRuns = true ∧
    linked.flag (Reg.LNQ_SRX_STAT_RDI 0) = false ∧ (sets linked [(Reg.LNQ_SRX_STAT_RDI 0, 1)]).flag (Reg.LNQ_SRX_STAT_RDI 0) = true ∧
    u8 (cellOf 0 0) 0 = 0 ∧ (linked.lane 0).lastBlock = none ∧
    (let seen := { linked.modLane 0 (fun x => { x with lastBlock := some 0 }) with now := 60000 }
     seen.blocksApart 0 = 0 ∧ (seen.lane 0).lastBlock.isSome = true ∧ ({ seen with now := 125004 }).blocksApart 0 = 1) ∧ (MsgPart.mk 1 0 [(0, [])] (some 0)).complete = true ∧ (MsgPart.mk 1 0 [(0, [])] (some 1)).complete = false := by decide +kernel

/-- A frame with its frame check sequence. -/
def frameOf (bytes : List Byte) : List Byte := let b := bytes ++ zeros (60 - bytes.length); b ++ fcsBytes b

theorem test_ethernet_events :
    let paused := running.modNetPort 1 fun x => { x with pauses := [⟨8, 0, 0, 0⟩], holds := [(0, 0)], bringUp := some 0 }
    let queued := running.modNetPort 1 fun x => { x with queues := [⟨5, zeros 64, none, none, none, none⟩] }
    let late := { sets paused [(Reg.NET_STAT_LINK 1, 0)] with now := 5 * 10 ^ 9 }
    let f := frameOf (beBytes 6 (2 ^ 48 - 1) ++ zeros 6 ++ be16 0x88B5)
    isPause f = false ∧ isPause (frameOf (zeros 12 ++ be16 0x8808 ++ be16 1)) = true ∧ running.portFormed 1 = true ∧ running.portOn 1 = true ∧ running.linkUp 1 = true ∧ late.linkUp 1 = false ∧ (late.netPort 1).bringUp = some 0 ∧
    (running.macTake 1 (zeros 64) false).2 = none ∧ (running.macsecTake 1 (f.take 60)).2.isSome = true ∧ (running.flowOf 1 (f.take 60)).isSome = false ∧
    queued.nextQueue 1 = some 5 ∧ (queued.netPort 1).busy ≤ queued.now * 1000 ∧
    (∃ a ∈ (paused.netPort 1).pauses, a.queue = 0 ∧ a.endsAt ≤ paused.now * 1000) ∧ running.portOn 64 = true ∧ running.linkUp 64 = true := by decide +kernel

/-- A broadcast frame passes the checks of the MAC, whatever the MAC's own address is. -/
theorem test_mac_takes : (running.macTake 1 (frameOf (beBytes 6 (2 ^ 48 - 1))) false).2 = some ((frameOf (beBytes 6 (2 ^ 48 - 1))).take 60) := by
  have h : macAccepts 1 (frameOf (beBytes 6 (2 ^ 48 - 1))) = true := by
    unfold macAccepts
    rw [show bit (u8 (frameOf (beBytes 6 (2 ^ 48 - 1))) 0) 0 = true from by decide +kernel, Bool.or_true]
  unfold State.macTake State.portHears
  rw [h]
  decide +kernel

theorem test_module_events :
    let held := sets { running with net := { running.net with holdSince := some 0 }, now := 5 * 10 ^ 9 } [(Reg.MOD_CTL_HOLD, 1)]
    let busy := sets running [(Reg.MOD_CTL_BUSY, 1)]
    running.flag Reg.MOD_CTL_HOLD = false ∧ held.flag Reg.MOD_CTL_HOLD = true ∧ held.net.holdSince = some 0 ∧ busy.flag Reg.MOD_CTL_BUSY = true ∧
    ({ running with ready := unitKey 0x1C 0 :: running.ready }).storeReady = true ∧ ({ running with net := { running.net with transfer := true } }).net.transfer = true ∧
    (running.modNetPort 64 fun x => { x with mgtIp := some (5, 6, 24, 0, 0) }).mgtAddress 64 ≠ 0 := by decide +kernel

/-- Uncompressed video in, the same out, and audio in, each of port 1. -/
def flowing : State :=
  { running with net := { running.net with flows := [
    { flowOfPayload false (rxPayload 1 9) 0 with index := 3 }, { flowOfPayload true (txPayload 1 9) 0 with index := 3 },
    { flowOfPayload false (rxPayload 3 0) 0 with index := 4, width := 2 },
    { flowOfPayload false (rxPayload 1 18) 0 with index := 5, frames := [(60, none)], releasing := some (60, 0) }] }, now := 10 ^ 9 }

theorem test_flow_events :
    (flowing.flow false 3).isSome = true ∧ (flowing.flow true 3).isSome = true ∧
    (flowing.flow false 3).all (fun x => decide (x.isAudio = false ∧ x.releasing = none ∧ x.frames = [] ∧ x.lastAccept + x.lossTime ≤ flowing.now)) = true ∧
    (flowing.flow false 4).all (fun x => x.isAudio) = true ∧ (flowing.flow false 5).all (fun x => decide (x.coming = some (60, 0) ∧ x.cells = [] ∧ x.isAudio = false)) = true ∧
    (flowing.flow false 3).all (fun x => decide (x.coming = none)) = true ∧
    (flowing.flow true 3).all (fun x => decide (x.kind ≠ 2) && decide (x.legs ≠ [])) = true := by decide +kernel

theorem test_audio_and_head_events :
    let clocks := sets running [(Reg.AUD_CLK_SLAVE, 1), (Reg.AUD_CLK_STATE, 2)]
    let stopped := { clocks with aud := { clocks.aud with idleFrames := some 64 }, now := 10 ^ 6 }
    let x := running.head 0
    let banding := { running.putHead { x with frame := some 1, nextBand := 0, emit := [⟨1, 0, 0, 0, 50, 1⟩] } with ready := unitKey 0x0E 0 :: running.ready }
    running.audioRuns = true ∧ running.evalInstant 0 48000 ≤ running.chrono + 10 ^ 9 ∧ clocks.frameDue = true ∧ stopped.aud.lastFclk + 1000000 ≤ stopped.now ∧
    stopped.tdmRunning = false ∧ 64 ≤ stopped.aud.idleFrames.getD 0 ∧ banding.headRuns 0 = true ∧ banding.headOn 0 = true ∧ (banding.head 0).band = none ∧
    (banding.head 0).nextUp = some (1, (banding.head 0).mh, 0) ∧ 0 < headBands (banding.headFmt 0) ∧ (banding.head 0).nextOut = some ⟨1, 0, 0, 0, 50, 1⟩ ∧
    (⟨1, 0, 0, 0, 50, 1⟩ : OutFrame).due ≤ (banding.chrono + 13000) * (⟨1, 0, 0, 0, 50, 1⟩ : OutFrame).scale ∧
    (sets running [(Reg.MVW_L_CTL_EN 0, 1)]).flag (Reg.MVW_L_CTL_EN 0) = true ∧
    (({ running with mvw := { running.mvw with layers := [{ running.layer 0 with taken := false }] } }).layer 0).taken = false := by decide +kernel

theorem test_encoder_events :
    let h : EncChan := { encOfPayload (be8 0 ++ be8 0 ++ be16 9 ++ zeros 2 ++ be16 1920 ++ be16 1080 ++ zeros 14) with handle := 0x30000, period := some 0 }
    let coding := running.startRow h
    let s := { running with enc := { running.enc with chans := h :: running.enc.chans, decs := [⟨0, 0x10004, some (60, 0), 0, none, none⟩, ⟨1, 0x10004, none, 0, some 1, none⟩] } }
    let f := { flowOfPayload false (rxPayload 2 18) 0 with index := 4, frames := [(0, none)] }
    let late := { s with net := { s.net with flows := [f] }, tim := { s.tim with count := 10 ^ 10 } }
    (s.encChan 0x30000).all (fun x => decide (x.codec < 2 ∧ x.atStop = false ∧ x.period = some 0 ∧ x.row = 0) && s.genOn x.gen) = true ∧
    (s.encChan 0x40001).all (fun x => decide (2 ≤ x.codec ∧ x.atStop = false ∧ x.m0 + late.lineTime x x.sliceEnd ≤ late.chrono)) = true ∧ s.encRuns = true ∧
    ((coding.encChan 0x30000).map fun x => x.rowNext.isSome) ≠ some false ∧
    (late.decoder 0x50000).all (fun x => decide (x.place f = some (60, 0))) = true ∧ (late.decoder 0x50001).all (fun x => decide (x.place f = some (0, 0))) = true ∧
    f.tx = false ∧ late.net.flows.head?.map (fun x => x.handle) = some 0x10004 ∧ f.sliceRelease 0 0 ≤ late.chrono + f.sliceTime := by decide +kernel

theorem test_time_events :
    let p := running.modPtp 0 fun y => { y with enabled := true, lastSync := some 0, ports := [1] }
    let late := { p with now := 4 * 10 ^ 9 }
    let d := sets running [(Reg.REF_E_CFG_INPUT 0, 2), (Reg.REF_E_CFG_INPUT 1, 6)]
    running.domOn 39 = true ∧ (late.ptp 0).enabled = true ∧ (late.ptp 0).lost = false ∧ (late.ptp 0).syncMissing late.now = true ∧
    (running.modTim fun t => { t with stepAt := some 0 }).tim.stepAt = some 0 ∧ d.entryOf 2 = some 0 ∧ d.entryOf 6 = some 1 ∧
    ((d.modRefIn 0 fun x => { x with lastEvent := some 0 }).refIn 0).lastEvent = some 0 ∧ 2 ≤ d.entryInput 0 ∧
    (sets running [(Reg.REF_FP_CTL_EN 0, 1)]).flag (Reg.REF_FP_CTL_EN 0) = true ∧ running.shutIn 0x08 0 = false ∧ running.shutIn 0x07 0 = false ∧
    (sets running [(Reg.REF_E_CFG_INPUT 2, 15)]).entryOf 2 = none ∧ (sets running [(Reg.REF_E_CFG_INPUT 4, 15)]).entryOf 6 = none ∧ (p.ptp 0).delayEarly 0 = false ∧
    ((p.modPtp 0 fun y => { y with delayLog := some 0, delayAt := some 0 }).ptp 0).delayEarly 5 = true ∧
    (running.modTim fun t => { t with relayOn := true, relayP2p := true, relayUp := 1 }).relayPeer 1 = true := by decide +kernel

/-- A Sync of domain 0 in a UDP datagram to the PTP group, with a byte of its payload after the checksums changed by `damage`. -/
def syncFrame (damage : Nat) : List Byte :=
  let u := udpHeader 319 319 44 ++ (be8 0 ++ be8 2 ++ zeros 42)
  let f := putL4Csum (putIpCsum (etherHeader (groupMac false (ptpGroup false false)) 1 0 0x0800 ++ ipv4Header 0 64 17 1 (ptpGroup false false) u.length ++ u))
  frameOf (f.take (f.length - 1) ++ be8 damage)

/-- Both are found to be PTP messages; the checksums of the second fail. -/
theorem test_ptp_frames : ptpAt (syncFrame 0) = some 42 ∧ csumOk (syncFrame 0) = true ∧ ptpAt (syncFrame 1) = some 42 ∧ csumOk (syncFrame 1) = false := by decide +kernel

/-- A home card of a pair on STANDBY, with a request to the Lookout in flight and its lease timer running. -/
def paired : State :=
  let s := sets running [(Reg.TWN_CTL_EN, 1), (Reg.TWN_STAT_ROLE, roleStandby), (Reg.TWN_CTL_HOME, 1), (Reg.TWN_STAT_RESYNC, 5), (Reg.TWN_BIST_EN, 1)]
  { s with twn := { s.twn with recent := [⟨7, 0, 1, 0, false⟩], expiry := some 10, testing := [((2, 0), 0)], pairId := 1 } }

theorem test_twin_events :
    paired.twinOn = true ∧ paired.domOn 1 = true ∧ paired.role = roleStandby ∧ paired.compares = true ∧ paired.requestDue.isSome = true ∧
    (paired.requestOf 7).isSome = true ∧ paired.replyValid [] = false ∧ paired.twn.expiry = some 10 ∧ paired.ticks < 10 ∧
    (sets paired [(Reg.TWN_STAT_RESYNC, 4)]).enc.chans.any (sets paired [(Reg.TWN_STAT_RESYNC, 4)]).diverged = false ∧
    (sets paired [(Reg.TWN_STAT_RESYNC, 2)]).resyncing = true ∧ (paired.twn.testing.any fun t => t.1 == (2, 0)) = true ∧
    (sets paired [(Reg.TWN_STAT_ROLE, roleHolder)]).role = roleHolder ∧ paired.chrono / 125000 % 2 = 0 := by decide +kernel

theorem test_fabric_events :
    let src := running.putSource { running.source 9 with lastSof := some 0, carried := true }
    let g := { running with tim := { running.tim with count := 10 ^ 9 } }
    running.fabricRuns = true ∧ running.outputPresent 1151 = true ∧ (src.source 9).lastSof = some 0 ∧ (src.source 9).carried = true ∧
    g.leastFrame 0 ≤ frameAt (g.genN 0) (g.genD 0) g.chrono ∧ (g.generator 0).since = 0 ∧ (g.generator 0).lastAt = none ∧ g.genOn 0 = true ∧
    running.shutIn 0x0B 0 = false ∧ running.domOn 36 = true ∧ (sets running [(Reg.EPH_GEN_CTL_EN 0, 0)]).genOn 0 = false := by decide +kernel

/-- A sound packet of session 0: header, CRC-32C of R29, payload. -/
def packetOf (flags opcode : Nat) (p : List Byte) : List Byte :=
  let h := be16 0x4358 ++ be8 1 ++ be8 flags ++ be16 opcode ++ zeros 10 ++ be16 0 ++ be16 p.length
  h ++ be32 (crc32c h).toNat ++ p

theorem test_transport_events :
    let held := { running with cyx := { running.cyx with sideband := [zeros 24] } }
    running.serves (.udp 0 0 0) = true ∧ running.serves .sideband = true ∧ State.reset.serves .sideband = false ∧ State.reset.serves (.udp 0 0 0) = false ∧
    packetSound (packetOf 0 1 []) = true ∧ packetSound (zeros 24) = false ∧ running.consume (.udp 0 0 0) (packetOf 0 1 []) ≠ none ∧
    held.cyx.sideband ≠ [] ∧ (running.session 0).isSome = true ∧ (packetReq .sideband (packetOf 1 1 [])).more = false := by decide +kernel

theorem test_memory_and_vault_events :
    let s := { running with mem := { running.mem with training := some (0, 0, 1, 0, 0), draining := [12] } }
    running.masterRuns 0 = true ∧ running.domOn 3 = true ∧ running.decode 0x1000100 = .sram 0x100 ∧ reachesTarget 0 1 = true ∧ 0x1000100 % 256 + 4 ≤ 256 ∧
    s.mem.draining.contains 12 = true ∧ running.domOn 53 = true ∧ (running.groupChannels 0).filter (fun c => !running.isReady 0x12 c) ≠ [] ∧
    s.mem.training = some (0, 0, 1, 0, 0) ∧ running.isReady 0x12 0 = true ∧ (sets running [(Reg.DMC_PAT_CTL_EN 0, 1)]).flag (Reg.DMC_PAT_CTL_EN 0) = true ∧
    ({ running with ready := [] }).vaultReady = false ∧ running.vaultReady = true ∧ running.lifeCycle ≠ 0 ∧ running.lifeCycle ≠ 5 ∧
    (sets running [(Reg.VLT_STAT_TRNG_OK, 1)]).trngOk = true ∧ (sets running [(Reg.VLT_STAT_TRNG_OK, 0)]).trngOk = false ∧ running.inv = true := by decide +kernel

end Sys2Proof.Tests
end

section
/-!
SUPPORT. What a REGISTER_WRITE does once the register bus takes or refuses it, where a posted write lands, and which fields a write
can change.
-/
namespace Sys2Proof.Machine
open Sys2Proof

/-! ### The access -/

/-- No block decodes more than the 64 KiB of its window (Table 21.6). -/
theorem windowSpan_le (w : Nat) : windowSpan w ≤ 65536 := by
  unfold windowSpan; split <;> [omega; (split <;> omega)]

/-- An address of a window lies in the register space (R575). -/
theorem regAddr_in_space {w off : Nat} (hw : w < 256) (ho : off < windowSpan w) : 0x10000000 ≤ regAddr w off ∧ regAddr w off < 0x11000000 := by
  have := windowSpan_le w
  unfold regAddr; omega

/-- REGISTER_WRITE of a master that runs is the write access to the addressed register. -/
theorem exec_registerWrite_runs {s : State} {dt m w off : Nat} (bits v : Nat) (hw : w < 256) (ho : off < windowSpan w)
    (hm : (s.elapse dt).masterRuns m = true) :
    exec (.registerWrite dt m (regAddr w off) bits v) s = .next ((s.elapse dt).registerWrite m (regAddr w off) bits v) :=
  congrArg Host.Outcome.next (if_pos ⟨hm, regAddr_in_space hw ho⟩)

/-- A refused write only leaves its error record, and is answered with an error (R504, R575, R581). -/
theorem registerWrite_refused {u : State} {m w off : Nat} {k : Option Nat} (v : Nat) (hw : w < 256) (ho : off < windowSpan w)
    (hr : u.registerRefusal m (regAddr w off) off 32 true = some k) :
    u.registerWrite m (regAddr w off) 32 v = (u.refuseAccess m (regAddr w off) k).respond m false [] := by
  simp only [State.registerWrite, regAddr_window hw (ho.trans_le (windowSpan_le w)), regAddr_offset ho, hr]

/-- A write that a block without posted writes takes reaches its register within the access. -/
theorem registerWrite_direct {u : State} {m w off : Nat} (v : Nat) (ha : Accepts u m w off) (hw : w < 256) (ho : off < windowSpan w)
    (hp : postedWindow w = false) : u.registerWrite m (regAddr w off) 32 v = (u.putWord m w off (v % 2 ^ 32)).respond m true [] := by
  simpa [State.rowWrite, ha.runs, hp] using rowWrite_plain v ha hw ho hp

/-- A write that a block with posted writes takes is answered, and travels (R13). -/
theorem registerWrite_posted {u : State} {m w off : Nat} (v : Nat) (ha : Accepts u m w off) (hw : w < 256) (ho : off < windowSpan w)
    (h8 : 8 ≤ off) (hp : postedWindow w = true) : u.registerWrite m (regAddr w off) 32 v =
      { u with pwr := { u.pwr with posted := u.pwr.posted ++ [(w, m, off, 32, v)] } }.respond m true [] := by
  simp only [State.registerWrite, regAddr_window hw (ho.trans_le (windowSpan_le w)), regAddr_offset ho, ha.allowed]
  simp [ha.here, ha.quiet, hp, h8]

/-- REGISTER_WRITE that a block without posted writes takes: the word reaches its register, and the write is answered. -/
theorem exec_registerWrite_direct {s : State} {dt m w off : Nat} (v : Nat) (ha : Accepts (s.elapse dt) m w off) (hw : w < 256)
    (ho : off < windowSpan w) (hp : postedWindow w = false) :
    exec (.registerWrite dt m (regAddr w off) 32 v) s = .next (((s.elapse dt).putWord m w off (v % 2 ^ 32)).respond m true []) := by
  rw [exec_registerWrite_runs 32 v hw ho ha.runs, registerWrite_direct v ha hw ho hp]

/-- BLK_STAT_WRITE that a block without posted writes takes: the written W1C bits are cleared, and the write is answered (R579). -/
theorem exec_blkStatWrite_direct {s : State} {dt m w : Nat} (v : Nat) (ha : Accepts (s.elapse dt) m w 4) (hw : w < 256)
    (hp : postedWindow w = false) :
    exec (.blkStatWrite dt m w v) s = .next (((s.elapse dt).blkStatWrite w (v % 2 ^ 32)).respond m true []) := by
  have ho : 4 < windowSpan w := by unfold windowSpan; split <;> [omega; (split <;> omega)]
  have hx : exec (.blkStatWrite dt m w v) s = .next ((s.elapse dt).rowWrite m w 4 v) := congrArg Host.Outcome.next (if_pos hw)
  rw [hx, rowWrite_plain v ha hw ho hp, State.putWord, if_pos rfl]

/-! ### Landing (R14) -/

/-- With no write to the block travelling, nothing lands. -/
theorem landPosted_none {u : State} {w : Nat} (h : u.pwr.posted.find? (fun q => q.1 == w) = none) : u.landPosted w = u := by
  simp only [State.landPosted, h]

/-- The travelling write of the block leaves the queue and reaches its register. -/
theorem landPosted_some {u : State} {w : Nat} {p : Nat × Nat × Nat × Nat × Nat} (h : u.pwr.posted.find? (fun q => q.1 == w) = some p) :
    u.landPosted w = { u with pwr := { u.pwr with posted := u.pwr.posted.erase p } }.putBits p.2.1 w p.2.2.1 p.2.2.2.1 p.2.2.2.2 := by
  simp only [State.landPosted, h]

/-- A 32-bit write that travels alone lands as it was written. -/
theorem landPosted_queued {u : State} {m w off : Nat} (v : Nat) (hq : u.writePending w = false) :
    ({ u with pwr := { u.pwr with posted := u.pwr.posted ++ [(w, m, off, 32, v)] } }.respond m true []).landPosted w =
      (u.respond m true []).putWord m w off (v % 2 ^ 32) := by
  have hidle : (u.pwr.posted.any fun q => q.1 == w) = false := by
    simp only [State.writePending, Bool.or_eq_false_iff] at hq
    exact hq.1
  obtain ⟨hfind, herase⟩ := find_only u.pwr.posted (w, m, off, 32, v) hidle
  rw [landPosted_some (p := (w, m, off, 32, v)) hfind]
  simp [State.putBits, respond_eq, herase]

/-! ### The registers that take a word in another way -/

/-- SYS_PWR_LIMIT takes a word from the limit of its variant on (Table 3.7). -/
theorem putWord_powerLimit (u : State) (m v : Nat) : u.putWord m 1 0x40 v =
    (State.written u.listLimit (u.listLimit.writeFields m 1 0x40 v) 1 0x40 v).noteBypass m 1 0x40 := by
  have hl : u.laneOfPort 1 = false := by simp [State.laneOfPort]
  have hi : indirectData 1 0x40 = false := by decide
  simp [State.putWord, hl, hi]

/-- A data register of an indirect pair takes a word into the place that its index names. -/
theorem putWord_indirect {u : State} {m w off : Nat} (v : Nat) (h8 : 8 ≤ off) (hw : w ≠ 0) (hl : u.laneOfPort w = false)
    (hi : indirectData w off = true) : u.putWord m w off v =
      (if w = 0x0D then (u.wr (u.indirectPlace w off) v).mvwIndirect (u.indirectIndex w off) v else u.wr (u.indirectPlace w off) v).noteBypass m w off := by
  rw [State.putWord, if_neg (by omega), if_neg (by simp [hl, hw]; omega), if_pos hi]

/-- PWR has posted writes, so a window without them is another one. -/
theorem ne_power_of_direct {w : Nat} (hp : postedWindow w = false) : w ≠ 3 := by
  rintro rfl
  exact absurd hp (by decide)

/-- What a ranger core writes is not past Cruise (R87). -/
theorem noteBypass_ranger (u : State) {m : Nat} (w off : Nat) (hm : isRanger m = true) : u.noteBypass m w off = u := by
  simp [State.noteBypass, hm]

/-! ### Which fields a write changes -/

/-- `t` comes from `u` by changes to the fields `fs`, the event collector and what was sent, and to nothing else. -/
structure ChangesOnly (fs : List FieldRef) (u t : State) : Prop where
  others : ∀ g : FieldRef, (∀ f ∈ fs, g.key ≠ f.key) → t.rd g = u.rd g
  beside : t.besideRegisters = u.besideRegisters

namespace ChangesOnly
variable {fs : List FieldRef} {u s : State}

theorem refl (fs : List FieldRef) (u : State) : ChangesOnly fs u u := ⟨fun _ _ => rfl, rfl⟩

theorem wr (h : ChangesOnly fs u s) {f : FieldRef} (hf : f ∈ fs) (v : Nat) : ChangesOnly fs u (s.wr f v) :=
  ⟨fun g hg => (State.rd_wr_other s v (hg f hf)).trans (h.others g hg), h.beside⟩

theorem respond (h : ChangesOnly fs u s) (m : Nat) (ok : Bool) (b : List Byte) : ChangesOnly fs u (s.respond m ok b) :=
  ⟨h.others, h.beside⟩

theorem voteWritten (h : ChangesOnly fs u s) (w off : Nat) (x : FieldDef × FieldRef) : ChangesOnly fs u (s.voteWritten w off x) := by
  unfold State.voteWritten
  split
  · exact ⟨h.others, h.beside⟩
  · exact h

/-- Whatever the type of a field, a write to it changes no other one (Table 0.3). -/
theorem writeField (h : ChangesOnly fs u s) {x : FieldDef × FieldRef} (hx : x.2 ∈ fs) (old : State) (w off v : Nat) :
    ChangesOnly fs u (State.writeField old w off v s x) := by
  unfold State.writeField
  extract_lets n
  split
  case isTrue => exact h
  case isFalse =>
    have stored : ChangesOnly fs u
        (if old.fieldBlocked x n then s else (s.wr x.2 (x.1.stored.apply (old.rd x.2) n)).voteWritten w off x) := by
      split
      · exact h
      · exact (h.wr hx _).voteWritten w off x
    cases x.1.type with
    | ro | wo => exact h
    | w1c => exact h.wr hx _
    | rw | w1 | wl lock => exact stored

/-- A fold whose rounds change only the fields `fs` changes only these. -/
theorem foldl {α : Type} {f : State → α → State} {l : List α} (h : ChangesOnly fs u s)
    (hf : ∀ t, ChangesOnly fs u t → ∀ a ∈ l, ChangesOnly fs u (f t a)) : ChangesOnly fs u (l.foldl f s) :=
  List.foldlRecOn l f h hf

end ChangesOnly

/-- A word that meets no blocked field changes only the fields of its register (R584, R588). -/
theorem writeFields_changesOnly {u : State} (m : Nat) {w off v : Nat}
    (hb : ∀ f ∈ registerAt w off, u.fieldBlocked f (v / 2 ^ f.1.lsb % 2 ^ f.1.width) = false) :
    ChangesOnly ((registerAt w off).map Prod.snd) u (u.writeFields m w off v) := by
  have hany : ((registerAt w off).any fun x => u.fieldBlocked x (v / 2 ^ x.1.lsb % 2 ^ x.1.width)) = false := by
    simpa [List.any_eq_false] using hb
  simp only [State.writeFields, hany]
  exact (ChangesOnly.refl _ u).foldl fun t ht x hx => ht.writeField (List.mem_map_of_mem hx) u w off v

/-- A write to BLK_STAT changes only its five error bits (R579). -/
theorem blkStatWrite_changesOnly (u : State) (w v : Nat) :
    ChangesOnly [Reg.BLK_STAT_WDROP w, Reg.BLK_STAT_ACCERR w, Reg.BLK_STAT_LOCKVIOL w, Reg.BLK_STAT_VOTEFIX w, Reg.BLK_STAT_VOTELOST w] u
      (u.blkStatWrite w v) := by
  refine (ChangesOnly.refl _ u).foldl fun t ht b hb => ?_
  split
  · exact ht.wr (List.mem_map_of_mem (f := Prod.snd) hb) 0
  · exact ht

/-- A write to BLK_STAT does not reach the event collector. -/
theorem blkStatWrite_flt (u : State) (w v : Nat) : (u.blkStatWrite w v).flt = u.flt :=
  foldl_keeps State.flt _ (fun t b => by split <;> rfl) _ u

end Sys2Proof.Machine
end

section
/-!
PROOFS. The register writes.
-/
namespace Sys2Proof.Machine
open Sys2Proof

/-- Settles O27: each clause is the access lemma of its kind of block and register. -/
theorem registerWritesReachTheirFields : Obligations.RegisterWritesReachTheirFields := by
  intro dt m w off v s u hu hw h8 ho
  subst hu
  refine ⟨?plain, ?powerLimit, ?indirect, ?posted, ?refused, ?lands, ?idle, ?blkStat, ?vote⟩
  case plain =>
    rintro ha hp h0 hi hl x rfl
    rw [exec_registerWrite_direct v ha hw ho hp, putWord_eq _ h8 h0 (ne_power_of_direct hp) ha.own hi hl]
  case powerLimit =>
    rintro ha x y rfl rfl
    rw [exec_registerWrite_direct v ha (by decide) (by decide) (by decide), putWord_powerLimit]
  case indirect =>
    rintro ha hp h0 hi x y rfl rfl
    rw [exec_registerWrite_direct v ha hw ho hp, putWord_indirect _ h8 h0 ha.own hi]
  case posted =>
    rintro ha hp t rfl
    refine ⟨?_, landPosted_queued v ha.quiet⟩
    rw [exec_registerWrite_runs 32 v hw ho ha.runs, registerWrite_posted v ha hw ho h8 hp]
  case refused =>
    intro hm k hr
    rw [exec_registerWrite_runs 32 v hw ho hm, registerWrite_refused v hw ho hr]
  case lands => exact fun p hp => congrArg Host.Outcome.next (landPosted_some hp)
  case idle => exact fun hn => congrArg Host.Outcome.next (landPosted_none hn)
  case blkStat => exact fun ha hp => exec_blkStatWrite_direct v ha hw hp
  case vote =>
    intro us hpres hdom
    exact congrArg Host.Outcome.next (if_pos (by rw [hpres, hdom]; rfl))

/-- Settles O59: the fields of the written register are all that the write of a ranger core changes beside the collector and the answer. -/
theorem registerWriteFrame : Obligations.RegisterWriteFrame := by
  intro dt m w off v x s u hu hw h0 ho hp hx
  subst hu hx
  refine ⟨fun ha h8 hm hi hl hb hplain => ?_, fun ha => ?_⟩
  · have hc := (writeFields_changesOnly m hb).respond m true []
    refine ⟨_, exec_registerWrite_direct v ha hw ho hp, ?_⟩
    rw [putWord_eq _ h8 h0 (ne_power_of_direct hp) ha.own hi hl, hplain, noteBypass_ranger _ _ _ hm]
    exact ⟨fun g hg => hc.others g (List.forall_mem_map.2 hg), hc.beside⟩
  · have hc := (blkStatWrite_changesOnly (s.elapse dt) w (v % 2 ^ 32)).respond m true []
    exact ⟨_, exec_blkStatWrite_direct v ha hw hp, hc.others, hc.beside, blkStatWrite_flt _ _ _⟩

end Sys2Proof.Machine
end

section
/-!
PROOFS. The events of the collector, the sensors, the watchdogs and the boundaries.
-/
namespace Sys2Proof.Machine
open Sys2Proof

section
variable {s : State} {dt : Nat}

/-! ### The collector and its reactions -/

/-- The collector, with PD01 on, records the next detected event (R517). -/
theorem exec_faultEventRecord_next {e : Event} (he : nextEvent (s.elapse dt).flt.detected = some e) (hd : (s.elapse dt).domOn 1 = true) :
    exec (.faultEventRecord dt) s = .next ({ s.elapse dt with
      flt := { (s.elapse dt).flt with detected := (s.elapse dt).flt.detected.erase e } }.recordEvent e) := by
  change execFaultEventRecord dt s = _
  simp only [execFaultEventRecord, he, hd, Bool.not_true, Bool.false_eq_true, if_false]

/-- With no reaction running, running firmware starts the next of the queue (R519). -/
theorem exec_faultReaction_starts {q : Reaction} {qs : List Reaction} (hf : (s.elapse dt).boot.firmwareSince.isSome = true)
    (hh : (s.elapse dt).flt.halted = false) (hr : (s.elapse dt).flt.running = []) (hq : (s.elapse dt).flt.queue = q :: qs) :
    exec (.faultReaction dt) s = .next { s.elapse dt with flt := { (s.elapse dt).flt with running := [q], queue := qs } } := by
  change execFaultReaction dt s = _
  simp only [execFaultReaction, Option.isNone_eq_false_iff.2 hf, hh, Bool.false_eq_true, or_self, if_false, hr, hq]

/-- What stands of the reactions once the running one has taken a step: that reaction where it goes on; else the one that it
pre-empted, or the next of the queue (R519, R524). -/
def State.afterReactionStep (v : State) (r : Reaction) (rest : List Reaction) : Option Nat → State
  | some n => { v with flt := { v.flt with running := { r with step := n } :: rest } }
  | none =>
    if !rest.isEmpty then { v with flt := { v.flt with running := rest } }
    else { v with flt := { v.flt with running := v.flt.queue.take 1, queue := v.flt.queue.drop 1 } }

/-- Running firmware takes one step of the running reaction. -/
theorem exec_faultReaction_step {r : Reaction} {rest : List Reaction} (hf : (s.elapse dt).boot.firmwareSince.isSome = true)
    (hh : (s.elapse dt).flt.halted = false) (hr : (s.elapse dt).flt.running = r :: rest) :
    exec (.faultReaction dt) s =
      .next (((s.elapse dt).reactionStep r).1.afterReactionStep r rest ((s.elapse dt).reactionStep r).2) := by
  change execFaultReaction dt s = _
  simp only [execFaultReaction, Option.isNone_eq_false_iff.2 hf, hh, Bool.false_eq_true, or_self, if_false, hr]
  cases ((s.elapse dt).reactionStep r).2 <;> rfl

/-! ### Temperature and shedding -/

/-- A sample with Tj more than 3 degrees below WARN_C ends both thermal causes and the shedding (R521, R606). -/
theorem exec_thermalSensorSample_cool {temps : List Int} (hd : (s.elapse dt).domOn 1 = true) (hne : temps ≠ [])
    (hc : maxTemp temps < ((s.elapse dt).rd Reg.FLT_THERM_WARN_C : Int) - 3) :
    ∀ v, v = (((s.elapse dt).wrInt Reg.FLT_TJ_C (maxTemp temps)).endCause 0x2F0C srcCollector 0).endCause 0x2F0D srcCollector 0 →
      exec (.thermalSensorSample dt temps) s = .next { v with flt := { v.flt with shedding := none } } := by
  rintro _ rfl
  have hsampled : ¬ ((!(s.elapse dt).domOn 1) = true ∨ temps.isEmpty = true) := by simp [hd, hne]
  exact congrArg Host.Outcome.next ((if_neg hsampled).trans (if_pos hc))

/-- 100 ms after a shed, with Tj still at WARN_C or above, the next domain is shed (R521). -/
theorem exec_shedStep_hot {t : Nat} (hs : (s.elapse dt).flt.shedding = some t) (ht : t + 10 ^ 8 ≤ (s.elapse dt).now)
    (hw : ((s.elapse dt).rd Reg.FLT_THERM_WARN_C : Int) ≤ (s.elapse dt).rdInt Reg.FLT_TJ_C) :
    exec (.shedStep dt) s = .next (s.elapse dt).shedOne := by
  change execShedStep dt s = _
  simp only [execShedStep, hs]
  rw [if_neg ht.not_gt, if_neg hw.not_gt]

/-! ### Boundaries and units -/

/-- The block and the index that a Source names, as the key of the block's boundary. -/
def blockKeyOf (src : Nat) : Nat := src / 2 ^ 29 * 256 + src / 2 ^ 16 % 256

/-- The units behind `source` lose what they had in hand, the boundaries `keys` that still are open close, and UNIT_ISOLATED is raised
(R11, R518). -/
def State.isolate (u : State) (source : Nat) (keys : List Nat) : State :=
  let v := (sourceUnits u.variant source).foldl (fun t x => t.firebreak x.1 x.2) u
  { v with isolated := keys.filter (fun x => !v.isolated.contains x) ++ v.isolated }.raise 0x2F05 source 0

/-- A cell that isolates itself closes its own boundary. -/
theorem exec_blockIsolatesItself_cell {src : Nat} (hne : sourceUnits (s.elapse dt).variant src ≠ []) :
    exec (.blockIsolatesItself dt src false) s =
      .next ((s.elapse dt).isolate src ((sourceUnits (s.elapse dt).variant src).map fun x => cellKey x.1 x.2)) :=
  congrArg Host.Outcome.next (if_neg (mt List.isEmpty_iff.1 hne))

/-- A block that isolates itself closes the boundary of the whole block. -/
theorem exec_blockIsolatesItself_whole {src : Nat} (hne : sourceUnits (s.elapse dt).variant (blockSource (blockKeyOf src)) ≠ []) :
    exec (.blockIsolatesItself dt src true) s =
      .next ((s.elapse dt).isolate (blockSource (blockKeyOf src)) [blockKeyOf src]) :=
  congrArg Host.Outcome.next (if_neg (mt List.isEmpty_iff.1 hne))

/-- A boundary that is closed already is not listed again. -/
theorem filter_not_contains_append (k : Nat) (l : List Nat) :
    [k].filter (fun x => !l.contains x) ++ l = if l.contains k then l else k :: l := by
  by_cases h : k ∈ l <;> simp [h]

/-- A unit without microcode that is present, powered and not behind a closed boundary becomes READY (R564, R611). -/
theorem exec_unitReady_initialised {c i : Nat} (hc : plainUnit c = true) (hp : (s.elapse dt).present c i = true)
    (hon : (s.elapse dt).domOn (capDomain c i) = true) (hen : (s.elapse dt).domEn (capDomain c i) = true)
    (hopen : (s.elapse dt).shutIn c i = false) (hf : (s.elapse dt).boot.firmwareSince.isSome = true) :
    exec (.unitReady dt c i) s = .next ((s.elapse dt).setReady c i).settle :=
  congrArg Host.Outcome.next (if_pos (by simp only [hc, hp, hon, hen, hopen, hf, Bool.not_false, Bool.and_self]))

end

/-- Settles O33: each clause is the rule of its event above; a reaction's clauses are the three ways in which its step can go on. -/
theorem faultEventsTakeEffect : Obligations.FaultEventsTakeEffect := by
  intro dt s u hu
  subst hu
  refine ⟨?record, ?reaction, ?cool, ?shed, ?cell, ?block, ?watchdog, ?ready⟩
  case record => exact fun e he hd => exec_faultEventRecord_next he hd
  case reaction =>
    refine fun hf hh => ⟨fun hr q qs hq => exec_faultReaction_starts hf hh hr hq, fun r rest hr v o hstep => ?_⟩
    have hx := exec_faultReaction_step hf hh hr
    rw [hstep] at hx
    refine ⟨?goesOn, ?preempted, ?fromQueue⟩
    case goesOn =>
      rintro n rfl
      exact hx
    case preempted =>
      rintro rfl hne
      exact hx.trans (congrArg Host.Outcome.next (if_pos (by simp [hne])))
    case fromQueue =>
      rintro rfl rfl
      exact hx
  case cool =>
    rintro temps tj hd hne rfl hc
    exact exec_thermalSensorSample_cool hd hne hc
  case shed => exact fun t hs ht hw => exec_shedStep_hot hs ht hw
  case cell =>
    rintro src us v rfl hne rfl ks rfl
    exact exec_blockIsolatesItself_cell hne
  case block =>
    rintro src k us v rfl rfl hne rfl
    rw [← filter_not_contains_append]
    exact exec_blockIsolatesItself_whole hne
  case watchdog => exact fun c => ⟨rfl, rfl⟩
  case ready => exact fun c i hc hp hon hen hopen hf => exec_unitReady_initialised hc hp hon hen hopen hf

end Sys2Proof.Machine
end

section
/-!
PROOFS. The commands as a whole: every step answers, every admitted request is answered, and queries leave the rest.
-/
namespace Sys2Proof.Machine
open Sys2Proof

/-! ### Every step answers -/

/-- Whichever watchdog expires, the block goes on. -/
theorem execWatchdogExpiry_answers (dt : Nat) (dog : Watchdog) (s : State) : ∃ t, execWatchdogExpiry dt dog s = .next t := by
  cases dog with
  | ranger c => exact ⟨_, rfl⟩
  | host c => exact ⟨_, rfl⟩
  | block src => exact ⟨_, rfl⟩

/-- Every meaning is a next state, so its arm answers one; only a watchdog's meaning branches before that. -/
theorem exec_answers (i : Instr) (s : State) : ∃ t, exec i s = .next t := by
  cases i
  case watchdogExpiry dt dog => exact execWatchdogExpiry_answers dt dog s
  all_goals exact ⟨_, rfl⟩

/-- Settles O5: an empty queue idles, and any command at its front answers. -/
theorem everyStepAnswers : Obligations.EveryStepAnswers := by
  intro s
  cases hq : s.pending with
  | nil => exact ⟨s, by simp only [step, hq]⟩
  | cons c cs =>
    obtain ⟨t, ht⟩ := exec_answers c { s with pending := cs }
    exact ⟨t, by simp only [step, hq, ht]⟩

/-! ### Admitted requests -/

/-- Settles O7: what is admitted is executed and concluded, and conclusion sends the reply. -/
theorem admittedRequestIsAnswered : Obligations.AdmittedRequestIsAnswered := by
  intro op dt rq s u p ha hc
  rw [serve_admitted ha hc]
  exact State.conclude_sends op rq p _

section
variable {op : OpSpec} {dt : Nat} {rq : Req} {s u : State} {p : List Byte}

/-- The checks that admit a request change nothing outside the interpreter. -/
theorem Admits.outside (h : Admits op dt rq s u p) : u.outside = (s.arrive dt).outside := by
  have hg := State.outside_gate (s.arrive dt) op rq h.own
  rwa [h.started] at hg

/-- The outcome of an admitted command outside Cruise whose execution gives `d`. -/
theorem next_serve {d : Done} (h : Admits op dt rq s u p) (hc : op.cruise = false) (hd : op.run u (ctxOf rq) p = d) :
    Host.Outcome.next (φ := Fault) (ρ := Refusal) (serve op dt rq s) = .next (State.conclude op rq p d) := by
  rw [serve_admitted h hc, hd]

/-- A command of class Q that executes without a change outside the interpreter makes none as a whole: only class C is mirrored. -/
theorem serve_outside_of_query (h : Admits op dt rq s u p) (hq : op.cls = .q) (hc : op.cruise = false)
    (hrun : (op.run u (ctxOf rq) p).state.outside = u.outside) : (serve op dt rq s).outside = (s.arrive dt).outside := by
  have hcls : op.cls ≠ .c := by rw [hq]; decide
  calc (serve op dt rq s).outside
      = (State.conclude op rq p (op.run u (ctxOf rq) p)).outside := by rw [serve_admitted h hc]
    _ = (op.run u (ctxOf rq) p).state.outside := State.outside_conclude op rq p _ (.inl hcls)
    _ = u.outside := hrun
    _ = (s.arrive dt).outside := h.outside

/-- Such a command answers a state that agrees, outside the interpreter, with the one in which its packet arrived. -/
theorem answers_outside_of_query (hq : op.cls = .q) (hc : op.cruise = false) (hrun : (op.run u (ctxOf rq) p).state.outside = u.outside)
    (h : Admits op dt rq s u p) :
    ∃ t, Host.Outcome.next (φ := Fault) (ρ := Refusal) (serve op dt rq s) = .next t ∧ t.outside = (s.arrive dt).outside :=
  ⟨_, rfl, serve_outside_of_query h hq hc hrun⟩

end

/-! ### Queries -/

/-- CRU_REPORT reads a report, or finds none. -/
theorem run_cruReport_state (u : State) (x : Ctx) (p : List Byte) : (opCruReport.run u x p).state = u := by
  unfold opCruReport
  dsimp only
  split <;> rfl

/-- NET_MODULE_INFO reads a module, or an empty cage. -/
theorem run_netModuleInfo_state (u : State) (x : Ctx) (p : List Byte) : (opNetModuleInfo.run u x p).state = u := by
  unfold opNetModuleInfo
  dsimp only
  split <;> rfl

/-- Counters of an encoder channel are registers. -/
theorem clearCounters_outside (fs : List FieldRef) (u : State) : (fs.foldl (fun t f => t.wr f 0) u).outside = u.outside :=
  foldl_outside _ (fun t f => State.outside_wr t f 0) fs u

/-- ENC_STATUS clears at most counters. -/
theorem run_encStatus_outside (u : State) (x : Ctx) (p : List Byte) : (opEncStatus.run u x p).state.outside = u.outside := by
  have hclear (b : Nat) : (if bit (u8 p 4) 0 then (encCounters b).foldl (fun t f => t.wr f 0) u else u).outside = u.outside := by
    split
    · exact clearCounters_outside _ u
    · rfl
  unfold opEncStatus
  dsimp only
  split
  · exact hclear _
  · exact hclear _
  · rfl

/-- FLT_HISTORY acknowledges at most the loss of records. -/
theorem run_fltHistory_outside (u : State) (x : Ctx) (p : List Byte) : (opFltHistory.run u x p).state.outside = u.outside := by
  change State.outside (if bit (u8 p 0) 0 then u.wr Reg.FLT_STAT_HISTORY_LOST 0 else u) = u.outside
  split <;> rfl

/-- Settles O57: the commands are of class Q, and their execution changes at most registers. -/
theorem queriesLeaveTheRest : Obligations.QueriesLeaveTheRest := by
  intro dt rq s u p
  refine ⟨?sysNop, ?sysInfo, ?sysAlmanacRead, ?cruReport, ?fabQuery, ?fabWindowStatus, ?ephList, ?lanStatus, ?netModuleInfo, ?audRateStatus,
    ?encStatus, ?timStatus, ?refStatus, ?twnStatus, ?vltSlotStatus, ?fltQuery, ?fltHistory, ?pwrWakeRecord, ?updStatus⟩
  case cruReport => exact answers_outside_of_query rfl rfl (congrArg State.outside (run_cruReport_state u _ p))
  case netModuleInfo => exact answers_outside_of_query rfl rfl (congrArg State.outside (run_netModuleInfo_state u _ p))
  case encStatus => exact answers_outside_of_query rfl rfl (run_encStatus_outside u _ p)
  case fltHistory => exact answers_outside_of_query rfl rfl (run_fltHistory_outside u _ p)
  all_goals exact answers_outside_of_query rfl rfl rfl

end Sys2Proof.Machine
end

section
/-!
PROOFS. The SYS commands.
-/
namespace Sys2Proof.Machine
open Sys2Proof

/-! ### The length of a reply -/

@[simp] theorem beBytes_length (n v : Nat) : (beBytes n v).length = n := by
  induction n with
  | zero => rfl
  | succ n ih => rw [beBytes, List.length_cons, ih]

@[simp] theorem be8_length (v : Nat) : (be8 v).length = 1 := rfl
@[simp] theorem be16_length (v : Nat) : (be16 v).length = 2 := beBytes_length 2 v
@[simp] theorem be32_length (v : Nat) : (be32 v).length = 4 := beBytes_length 4 v
@[simp] theorem be64_length (v : Nat) : (be64 v).length = 8 := beBytes_length 8 v
@[simp] theorem zeros_length (n : Nat) : (zeros n).length = n := List.length_replicate
@[simp] theorem timeBytes_length (ns : Nat) : (timeBytes ns).length = 12 := by simp [timeBytes]

/-- The reply of SYS_INFO has 64 bytes, whatever the ROM knows (R61, Table 2.15). -/
theorem run_sysInfo_length (u : State) (x : Ctx) (p : List Byte) : (opSysInfo.run u x p).payload.length = 64 := by
  simp [opSysInfo, Done.ok]

/-- The reply of SYS_INFO begins with the part number. -/
theorem run_sysInfo_partNumber (u : State) (x : Ctx) (p : List Byte) : (opSysInfo.run u x p).payload.take 2 = be16 (partNumber u.variant) := rfl

/-! ### Sessions -/

/-- A session that is opened joins those that are open. -/
theorem openSession_count (u : State) (n : Nat) (p : List Byte) :
    (u.openSession n p).1.cyx.sessions.length = u.cyx.sessions.length + 1 := by
  change (u.cyx.sessions ++ [_]).length = _
  exact List.length_append

section
variable {u : State} {x : Ctx} {p : List Byte}

/-- SYS_SESSION_CLOSE of an opened session discards its queue and invalidates its slot, once (R45, R62). -/
theorem run_sysSessionClose_opened {y : Session} (hy : u.session x.session = some y) (h0 : y.id ≠ 0) :
    opSysSessionClose.run u x p = Done.ok ((if y.revoked then u else u.invalidate y.slot).modSession y.id fun z => { z with queue := [], revoked := true })
      (be32 y.queue.length) := by
  simp only [opSysSessionClose, hy, if_neg h0]

/-- SYS_SESSION_OPEN with randomness, a free session and a free slot opens a session under that slot (R41). -/
theorem run_sysSessionOpen_free {n : Nat} (hx : x.session = 0) (ht : u.trngOk = true) (hs : (u.cyx.sessions.filter fun y => y.id != 0).length < 64)
    (hn : u.freeSlot = some n) : opSysSessionOpen.run u x p = Done.ok (u.openSession n p).1 (u.openSession n p).2 := by
  simp [opSysSessionOpen, hx, ht, hs, hn]

/-! ### Resets -/

/-- SYS_RESET_UNIT on present units in powered domains resets them, or turns their domains off, and then waits for them (R555). -/
theorem run_sysResetUnit_powered {us : List (Nat × Nat)} (hu : us = (u.namedUnits (u16 p 0) (u16 p 2)).filter fun z => u.present z.1 z.2)
    (hne : us ≠ []) (hon : (us.find? fun z => !u.domOn (capDomain z.1 z.2)) = none) :
    opSysResetUnit.run u x p = Done.pending
      ((if bit (u8 p 4) 0 then ((unitDomains us).foldl (fun t d => t.domainOff d) u).endIsolation us else u.resetUnits us).noteOver.await
        ⟨x.tag, x.session, x.entry, .unit (u16 p 0) (u16 p 2), none⟩) [] := by
  subst hu
  simp only [opSysResetUnit, List.isEmpty_eq_false_iff.2 hne, Bool.false_eq_true, if_false, hon]

end

/-- Settles O8: an admitted command is what its execution gives, concluded; the lemmas above say what that is. -/
theorem systemCommandsComplete : Obligations.SystemCommandsComplete := by
  intro dt rq s u p
  refine ⟨?nop, ?info, ?almanacRead, ?subscribe, ?sessionClose, ?sessionOpen, ?resetUnit⟩
  case nop => exact fun h => next_serve h rfl rfl
  case info => exact fun h => ⟨_, run_sysInfo_length u (ctxOf rq) p, run_sysInfo_partNumber u (ctxOf rq) p, next_serve h rfl rfl⟩
  case almanacRead =>
    rintro h es rfl
    exact next_serve h rfl rfl
  case subscribe => exact fun h => next_serve h rfl rfl
  case sessionClose => exact fun h y hy h0 => next_serve h rfl (run_sysSessionClose_opened hy h0)
  case sessionOpen =>
    exact fun h h0 ht hs n hn => ⟨openSession_count u n p, next_serve h rfl (run_sysSessionOpen_free h0 ht hs hn)⟩
  case resetUnit => exact fun h us hu hne hon => ⟨_, rfl, next_serve h rfl (run_sysResetUnit_powered hu hne hon)⟩

end Sys2Proof.Machine
end

section
/-!
PROOFS. The register rows of the lanes, the ports and the mailbox rings.
-/
namespace Sys2Proof.Machine
open Sys2Proof

/-! ### A row of a register with an effect -/

section
variable {u : State} {m w off : Nat}

/-- A row that a block without posted writes takes: the fields take the word, the register acts, and the write is answered. -/
theorem rowWrite_acts (v : Nat) (ha : Accepts u m w off) (hw : w < 256) (h0 : w ≠ 0) (h1 : w ≠ 1) (h8 : 8 ≤ off) (ho : off < windowSpan w)
    (hp : postedWindow w = false) (hi : indirectData w off = false) :
    u.rowWrite m w off v =
      ((State.written u (u.writeFields m w off (v % 2 ^ 32)) w off (v % 2 ^ 32)).noteBypass m w off).respond m true [] := by
  rw [rowWrite_plain v ha hw ho hp, putWord_eq _ h8 h0 (ne_power_of_direct hp) ha.own hi fun h => h1 h.1]

/-- A row that a block with posted writes takes: the write is answered first; its effect comes in the same step, and WPEND stays set
(log entry 59). -/
theorem rowWrite_actsPosted (v : Nat) (ha : Accepts u m w off) (hw : w < 256) (h0 : w ≠ 0) (h1 : w ≠ 1) (h3 : w ≠ 3) (h8 : 8 ≤ off)
    (ho : off < windowSpan w) (hp : postedWindow w = true) (hi : indirectData w off = false) :
    u.rowWrite m w off v = ((State.written (u.respond m true []) ((u.respond m true []).writeFields m w off (v % 2 ^ 32)) w off
      (v % 2 ^ 32)).noteBypass m w off).travel w := by
  rw [rowWrite_posted v ha hw ho h8 hp, putWord_eq (u := u.respond m true []) _ h8 h0 h3 ha.own hi fun h => h1 h.1]

end

/-! ### Lanes -/

section
variable {l : Nat} (hl : l < 128)
include hl

theorem windowSpan_lane : windowSpan (0x10 + l / 4) = 0x10000 := by
  unfold windowSpan
  rw [if_neg (by omega), if_neg (by omega)]

theorem postedWindow_lane : postedWindow (0x10 + l / 4) = true := by
  simp only [postedWindow, Bool.or_eq_true, decide_eq_true_eq]
  omega

theorem indirectData_lane (off : Nat) : indirectData (0x10 + l / 4) off = false := by
  have hr : rangerOnly (0x10 + l / 4) = [] := by
    simp only [rangerOnly]
    repeat rw [if_neg (by omega)]
  simp [indirectData, hr]

theorem windowIndex_lane : windowIndex (0x10 + l / 4) = l / 4 := by
  rw [windowIndex, if_neg (by omega), if_pos (by omega), Nat.add_sub_cancel_left]

/-- A register of a lane's own block acts on that lane. -/
theorem written_lane (old s : State) {r : Nat} (hr : r < 0x100) (v : Nat) :
    State.written old s (0x10 + l / 4) (0x100 + l % 4 * 0x100 + r) v = State.lnqWritten old s l r v false := by
  have hlane : 4 * (l / 4) + ((0x100 + l % 4 * 0x100 + r) / 0x100 - 1) = l := by omega
  have hreg : (0x100 + l % 4 * 0x100 + r) % 0x100 = r := by omega
  unfold State.written
  dsimp only
  repeat rw [if_neg (by omega)]
  rw [if_pos (by omega), if_pos (by omega), windowIndex_lane hl, hlane, hreg]

/-- A register of a lane's Stave block acts on that lane. -/
theorem written_laneStave (old s : State) {r : Nat} (hr : r < 0x100) (v : Nat) :
    State.written old s (0x10 + l / 4) (0x1000 + l % 4 * 0x100 + r) v = State.lnqWritten old s l r v true := by
  have hlane : 4 * (l / 4) + ((0x1000 + l % 4 * 0x100 + r) / 0x100 - 0x10) = l := by omega
  have hreg : (0x1000 + l % 4 * 0x100 + r) % 0x100 = r := by omega
  unfold State.written
  dsimp only
  repeat rw [if_neg (by omega)]
  rw [if_pos (by omega), if_neg (by omega), if_pos (by omega), windowIndex_lane hl, hlane, hreg]

variable {u t : State} {m : Nat}

/-- A row of a lane's own block that is taken, whose register makes `t` of the written fields. -/
theorem laneRow_acts {r : Nat} (hr : r < 0x100) (v : Nat) (ha : Accepts u m (0x10 + l / 4) (0x100 + l % 4 * 0x100 + r))
    (ht : State.lnqWritten (u.respond m true []) ((u.respond m true []).writeFields m (0x10 + l / 4) (0x100 + l % 4 * 0x100 + r) (v % 2 ^ 32))
      l r (v % 2 ^ 32) false = t) :
    u.laneRow m l r v = (t.noteBypass m (0x10 + l / 4) (0x100 + l % 4 * 0x100 + r)).travel (0x10 + l / 4) := by
  rw [State.laneRow, if_pos hl, rowWrite_actsPosted v ha (by omega) (by omega) (by omega) (by omega) (by omega)
    (by rw [windowSpan_lane hl]; omega) (postedWindow_lane hl) (indirectData_lane hl _), written_lane hl _ _ hr, ht]

/-- The row of a lane's Stave mask that is taken, whose register makes `t` of the written fields. -/
theorem laneRow_actsStave (v : Nat) (ha : Accepts u m (0x10 + l / 4) (0x1000 + l % 4 * 0x100))
    (ht : State.lnqWritten (u.respond m true []) ((u.respond m true []).writeFields m (0x10 + l / 4) (0x1000 + l % 4 * 0x100) (v % 2 ^ 32))
      l 0 (v % 2 ^ 32) true = t) :
    u.laneRow m l 0xF00 v = (t.noteBypass m (0x10 + l / 4) (0x1000 + l % 4 * 0x100)).travel (0x10 + l / 4) := by
  have hoff : 0x100 + l % 4 * 0x100 + 0xF00 = 0x1000 + l % 4 * 0x100 := by omega
  rw [State.laneRow, if_pos hl, hoff, rowWrite_actsPosted v ha (by omega) (by omega) (by omega) (by omega) (by omega)
    (by rw [windowSpan_lane hl]; omega) (postedWindow_lane hl) (indirectData_lane hl _), ← Nat.add_zero (0x1000 + l % 4 * 0x100),
    written_laneStave hl _ _ (by decide), Nat.add_zero, ht]

end

section
variable (old s : State) (l v : Nat)

theorem lnqWritten_sleep : State.lnqWritten old s l 0x1C v false = s.onSleepWrite l := rfl

theorem lnqWritten_lcfg : State.lnqWritten old s l 0 v false =
    s.onLcfgWrite l (old.laneMode l) (old.rd (Reg.LNQ_LCFG_TX_EN l)) (old.rd (Reg.LNQ_LCFG_RX_EN l)) := rfl

theorem lnqWritten_adapt : State.lnqWritten old s l 0x10 v false = s.onAdaptWrite l (bit v 4) (old.rd (Reg.LNQ_ADAPT_FREEZE l)) := rfl

theorem lnqWritten_prbs : State.lnqWritten old s l 0x40 v false = (s.wr (Reg.LNQ_PRBS_ERR_COUNT l) 0).sendPattern l := rfl

/-- MINCLR sets the minimum figure of merit to 255 (R180). -/
theorem lnqWritten_minclr (h : bit v 31 = true) : State.lnqWritten old s l 0x14 v false = s.wr (Reg.LNQ_FOM_MIN l) 255 :=
  if_pos h

/-- GO of the Stave mask lets a lane leave its layout (R192). -/
theorem lnqWritten_maskGo : State.lnqWritten old s l 0 v true = if bit v 2 then s.onMaskGo l else s := by
  simp [State.lnqWritten]

end

/-! ### Ports -/

section
variable {p : Nat} (hp : p < 66)
include hp

theorem windowSpan_port : windowSpan (0x60 + p) = 0x10000 := by
  unfold windowSpan
  rw [if_neg (by omega), if_neg (by omega)]

theorem postedWindow_port : postedWindow (0x60 + p) = false := by
  simp only [postedWindow, Bool.or_eq_false_iff, beq_eq_false_iff_ne, decide_eq_false_iff_not]
  omega

/-- A port's indirect pairs lie at no other offsets than these. -/
theorem indirectData_port {off : Nat} (hoff : off ∉ ([0xC0, 0xC4, 0x880, 0x884] : List Nat)) : indirectData (0x60 + p) off = false := by
  have hr : off ∉ rangerOnly (0x60 + p) := by
    intro h
    simp only [rangerOnly] at h
    repeat rw [if_neg (by omega)] at h
    split at h
    · exact hoff h
    · split at h
      · exact hoff (List.mem_append_left [0x880, 0x884] h)
      · exact List.not_mem_nil h
  simp [indirectData, hr]

/-- A register of a port's window acts on that port, be it a 100G port or a management port. -/
theorem written_port (old s : State) (off v : Nat) : State.written old s (0x60 + p) off v = State.netWritten old s p off v := by
  unfold State.written
  dsimp only
  repeat rw [if_neg (by omega)]
  by_cases h : p < 64
  · have hi : windowIndex (0x60 + p) = p := by
      rw [windowIndex, if_neg (by omega), if_neg (by omega), if_neg (by omega), if_pos (by omega), Nat.add_sub_cancel_left]
    rw [if_pos (by omega), hi]
  · have hi : 64 + windowIndex (0x60 + p) = p := by
      rw [windowIndex, if_neg (by omega), if_neg (by omega), if_neg (by omega), if_neg (by omega), if_pos (by omega)]
      omega
    rw [if_neg (by omega), if_pos (by omega), hi]

/-- A row of a port's window that is taken, whose register makes `t` of the written fields. -/
theorem portRow_acts {u t : State} {m off : Nat} (v : Nat) (h8 : 8 ≤ off) (ho : off < 0x10000)
    (hoff : off ∉ ([0xC0, 0xC4, 0x880, 0x884] : List Nat)) (ha : Accepts u m (0x60 + p) off)
    (ht : State.netWritten u (u.writeFields m (0x60 + p) off (v % 2 ^ 32)) p off (v % 2 ^ 32) = t) :
    u.rowWrite m (0x60 + p) off v = (t.noteBypass m (0x60 + p) off).respond m true [] := by
  rw [rowWrite_acts v ha (by omega) (by omega) (by omega) h8 (by rw [windowSpan_port hp]; exact ho) (postedWindow_port hp)
    (indirectData_port hp hoff), written_port hp, ht]

end

/-- NET_CTL applies the mode and the enable that it takes (R246). -/
theorem netWritten_ctl (old s : State) (p v : Nat) :
    State.netWritten old s p 0x10 v = s.onNetCtl p (old.rd (Reg.NET_CTL_EN p)) (old.rd (Reg.NET_CTL_MODE p)) := rfl

/-- The size register of a ring of a port resizes that ring (R242). -/
theorem netWritten_ringSize (old s : State) (p : Nat) {k : Nat} (hk : k < 9) (v : Nat) :
    State.netWritten old s p (0x108 + 0x20 * k) v = s.ringResize p k (v % 16) := by
  have hring : (0x108 + 0x20 * k - 0x100) / 0x20 = k := by omega
  rw [State.netWritten, if_neg (by omega), if_pos (by omega), hring]

/-- The producer index of a ring of a port advances that ring (R224). -/
theorem netWritten_ringPi (old s : State) (p : Nat) {k : Nat} (hk : k < 9) (v : Nat) :
    State.netWritten old s p (0x10C + 0x20 * k) v = s.ringPi p k (v % 4096) := by
  have hring : (0x10C + 0x20 * k - 0x100) / 0x20 = k := by omega
  rw [State.netWritten, if_neg (by omega), if_neg (by omega), if_pos (by omega), hring]

/-- SNAP of port 0 takes a snapshot of the named flow (R261). -/
theorem netWritten_flowSnap (old s : State) (v : Nat) :
    State.netWritten old s 0 0x800 v = if bit v 31 then s.flowSnap else s := by
  simp [State.netWritten]

/-- GO of the first management port starts the module transfer (R235). -/
theorem netWritten_modXfer (old s : State) (v : Nat) :
    State.netWritten old s 64 0x604 v = if bit v 5 then s.onModXfer else s := by
  simp [State.netWritten]

/-! ### Mailbox rings -/

/-- A row of a mailbox ring pair that is taken acts as R37 and R38 state. -/
theorem ringRow_acts {u : State} {m n r off : Nat} (hn : n < 8) (hr : r < 0x40) (hoff : 0x100 + 0x40 * n + r = off) (v : Nat)
    (ha : Accepts u m 0xB0 off) : u.ringRow m n r v =
      ((State.cyxWritten u (u.writeFields m 0xB0 off (v % 2 ^ 32)) off (v % 2 ^ 32)).noteBypass m 0xB0 off).respond m true [] := by
  have hspan : windowSpan 0xB0 = 0x1000 := by decide
  have hi : indirectData 0xB0 off = false := by simp [indirectData, rangerOnly]
  rw [State.ringRow, if_pos hn, hoff, rowWrite_acts v ha (by decide) (by decide) (by decide) (by omega) (by rw [hspan]; omega) (by decide) hi]
  rfl

/-- Settles O29: each row is the access lemma of its window with what its register does. -/
theorem laneAndPortRegisterRows : Obligations.LaneAndPortRegisterRows := by
  intro dt m v x s u w hu hx hw
  subst hu hx hw
  refine ⟨fun l hl => ⟨?sleep, ?lcfg, ?adapt, ?fom, ?prbs, ?mask⟩, fun p hp => ⟨?ringSize, ?ringPi, ?netCtl⟩, ?flowSnap, ?modXfer,
    fun n off hn => ⟨?rqPi, ?cyxRingSize, ?rpCi⟩⟩
  case sleep =>
    rintro n off rfl rfl ha
    exact congrArg Host.Outcome.next (laneRow_acts hl (by decide) v ha (lnqWritten_sleep _ _ l _))
  case lcfg =>
    rintro n off rfl rfl ha
    exact congrArg Host.Outcome.next (laneRow_acts hl (r := 0) (by decide) v ha (lnqWritten_lcfg _ _ l _))
  case adapt =>
    rintro n off rfl rfl ha z rfl
    have hrow := laneRow_acts hl (by decide) v ha (lnqWritten_adapt _ _ l _)
    exact ⟨congrArg Host.Outcome.next hrow, congrArg Host.Outcome.next hrow⟩
  case fom =>
    rintro n off rfl rfl ha hclr
    exact congrArg Host.Outcome.next (laneRow_acts hl (by decide) v ha (lnqWritten_minclr _ _ l _ hclr))
  case prbs =>
    rintro n off rfl rfl ha
    exact congrArg Host.Outcome.next (laneRow_acts hl (by decide) v ha (lnqWritten_prbs _ _ l _))
  case mask =>
    rintro n off rfl rfl ha
    exact congrArg Host.Outcome.next (laneRow_actsStave hl v ha (lnqWritten_maskGo _ _ l _))
  case ringSize =>
    rintro k off hk rfl ha
    have hrow := portRow_acts hp v (by omega) (by omega) (by simp; omega) ha (netWritten_ringSize _ _ p hk _)
    exact congrArg Host.Outcome.next ((if_pos hk).trans ((if_pos hp).trans hrow))
  case ringPi =>
    rintro k off hk rfl ha
    have hrow := portRow_acts hp v (by omega) (by omega) (by simp; omega) ha (netWritten_ringPi _ _ p hk _)
    exact congrArg Host.Outcome.next ((if_pos hk).trans ((if_pos hp).trans hrow))
  case netCtl =>
    intro ha
    have hrow := portRow_acts hp v (by decide) (by decide) (by decide) ha (netWritten_ctl _ _ p _)
    exact congrArg Host.Outcome.next ((if_pos hp).trans hrow)
  case flowSnap =>
    intro ha
    exact congrArg Host.Outcome.next
      (portRow_acts (p := 0) (by decide) v (by decide) (by decide) (by decide) ha (netWritten_flowSnap _ _ _))
  case modXfer =>
    intro ha
    exact congrArg Host.Outcome.next
      (portRow_acts (p := 64) (by decide) v (by decide) (by decide) (by decide) ha (netWritten_modXfer _ _ _))
  case rqPi => exact fun hoff ha => congrArg Host.Outcome.next (ringRow_acts hn (r := 0x14) (by decide) (by omega) v ha)
  case cyxRingSize => exact fun hoff ha => congrArg Host.Outcome.next (ringRow_acts hn (r := 0x08) (by decide) (by omega) v ha)
  case rpCi => exact fun hoff ha => congrArg Host.Outcome.next (ringRow_acts hn (r := 0x20) (by decide) (by omega) v ha)

end Sys2Proof.Machine
end

section
/-!
PROOFS. The events of the Cyxel transports.
-/
namespace Sys2Proof.Machine
open Sys2Proof

section
variable {s : State} {dt : Nat}

/-! ### Fragments -/

section
variable {via : Transport} {bytes : List Byte} {pec : Bool}

/-- A sideband write with a bad PEC, or that nothing serves, is not acknowledged (R36, R548). -/
theorem exec_cyxelFragment_nack (hv : via = .sideband) (hn : pec = false ∨ (s.elapse dt).serves via = false) :
    exec (.cyxelFragment dt via bytes pec) s = .next { s.elapse dt with sent := .nack :: (s.elapse dt).sent } :=
  congrArg Host.Outcome.next (if_pos ⟨hv, by simpa only [Bool.not_eq_true'] using hn⟩)

/-- Elsewhere a packet that nothing serves is lost. -/
theorem exec_cyxelFragment_unserved (hv : via ≠ .sideband) (hn : (s.elapse dt).serves via = false) :
    exec (.cyxelFragment dt via bytes pec) s = .next (s.elapse dt) :=
  congrArg Host.Outcome.next ((if_neg fun h => hv h.1).trans (if_pos (by rw [hn]; rfl)))

/-- What becomes of a packet that has left its transport and does not act: it is counted as discarded, joins its message, or ends at a
check (R28, R29, R33, R46). -/
def State.packetOutcome (u v : State) (via : Transport) (bytes : List Byte) : State :=
  if !packetSound bytes then v.bump Reg.CYX_DISCARD_COUNT 1
  else if (packetReq via bytes).more then v.fragment (gateOp (packetOpcode bytes)).code (packetReq via bytes)
  else
    match v.newRequest (gateOp (packetOpcode bytes)) (packetReq via bytes) with
    | .ended w => w
    | .start _ _ => u

/-- A packet on a served transport, with a good PEC on the sideband, leaves its transport and comes to its outcome. -/
theorem exec_cyxelFragment_served {v : State} (hs : (s.elapse dt).serves via = true) (hp : via = .sideband → pec = true)
    (hc : (s.elapse dt).consume via bytes = some v) :
    exec (.cyxelFragment dt via bytes pec) s = .next ((s.elapse dt).packetOutcome v via bytes) := by
  have hgood : ¬ (via = .sideband ∧ ((!pec) = true ∨ (!(s.elapse dt).serves via) = true)) := by
    rintro ⟨hv, h⟩
    simp [hp hv, hs] at h
  change execCyxelFragment dt via bytes pec s = _
  simp only [execCyxelFragment, hc]
  rw [if_neg hgood, hs, if_neg (by decide)]
  rfl

variable {u v : State}

theorem packetOutcome_unsound (hb : packetSound bytes = false) : u.packetOutcome v via bytes = v.bump Reg.CYX_DISCARD_COUNT 1 :=
  if_pos (by rw [hb]; rfl)

theorem packetOutcome_fragment (hb : packetSound bytes = true) (hm : (packetReq via bytes).more = true) :
    u.packetOutcome v via bytes = v.fragment (gateOp (packetOpcode bytes)).code (packetReq via bytes) :=
  (if_neg (by rw [hb]; decide)).trans (if_pos hm)

theorem packetOutcome_ended {w : State} (hb : packetSound bytes = true) (hm : (packetReq via bytes).more = false)
    (hw : v.newRequest (gateOp (packetOpcode bytes)) (packetReq via bytes) = .ended w) : u.packetOutcome v via bytes = w := by
  simp only [State.packetOutcome, hb, hm, hw, Bool.not_true, Bool.false_eq_true, if_false]

end

/-! ### Time limits -/

/-- A packet without content that names the partial message of a transport and session. -/
def partialKey (via : Transport) (session : Nat) : Req := ⟨via, 1, 0, 0, 0, 0, session, [], 0⟩

section
variable {via : Transport} {session : Nat} {q : Partial} {x : Session}

/-- What the time limit does to a partial message turns on the time of its last fragment. -/
theorem exec_reassemblyTimeout_partial (hq : (s.elapse dt).partialOf (partialKey via session) = some q) :
    exec (.reassemblyTimeout dt via session) s = .next (if (s.elapse dt).now < q.last + 100000000 then s.elapse dt
      else ((s.elapse dt).dropPartial (partialKey via session)).abandon q (partialKey via session)) := by
  change execReassemblyTimeout dt via session s = _
  unfold partialKey at hq ⊢
  simp only [execReassemblyTimeout, hq, Nat.reducePow]

/-- A partial message that has had a fragment within 100 ms stays (R33). -/
theorem exec_reassemblyTimeout_early (hq : (s.elapse dt).partialOf (partialKey via session) = some q)
    (ht : (s.elapse dt).now < q.last + 100000000) : exec (.reassemblyTimeout dt via session) s = .next (s.elapse dt) :=
  (exec_reassemblyTimeout_partial hq).trans (congrArg Host.Outcome.next (if_pos ht))

/-- A partial message without a fragment for 100 ms is abandoned (R33). -/
theorem exec_reassemblyTimeout_due (hq : (s.elapse dt).partialOf (partialKey via session) = some q)
    (ht : q.last + 100000000 ≤ (s.elapse dt).now) : exec (.reassemblyTimeout dt via session) s =
      .next (((s.elapse dt).dropPartial (partialKey via session)).abandon q (partialKey via session)) :=
  (exec_reassemblyTimeout_partial hq).trans (congrArg Host.Outcome.next (if_neg ht.not_gt))

/-- What the idle time does to a session turns on its last accepted packet; session 0 has none. -/
theorem exec_sessionIdleTimeout_session (hx : (s.elapse dt).session session = some x) : exec (.sessionIdleTimeout dt session) s =
    .next (if x.id = 0 ∨ (s.elapse dt).now < x.last + x.idle * 1000000000 then s.elapse dt else (s.elapse dt).closeSession x.id) := by
  change execSessionIdleTimeout dt session s = _
  simp only [execSessionIdleTimeout, hx, Nat.reducePow]

/-- An opened session without an accepted packet for its idle time is closed (R40). -/
theorem exec_sessionIdleTimeout_due (hx : (s.elapse dt).session session = some x) (h0 : x.id ≠ 0)
    (ht : x.last + x.idle * 1000000000 ≤ (s.elapse dt).now) :
    exec (.sessionIdleTimeout dt session) s = .next ((s.elapse dt).closeSession x.id) :=
  (exec_sessionIdleTimeout_session hx).trans (congrArg Host.Outcome.next (if_neg (not_or.2 ⟨h0, ht.not_gt⟩)))

/-- Session 0, and a session that is not idle for its time, stay open (R40). -/
theorem exec_sessionIdleTimeout_early (hx : (s.elapse dt).session session = some x)
    (h : x.id = 0 ∨ (s.elapse dt).now < x.last + x.idle * 1000000000) :
    exec (.sessionIdleTimeout dt session) s = .next (s.elapse dt) :=
  (exec_sessionIdleTimeout_session hx).trans (congrArg Host.Outcome.next (if_pos h))

end

/-! ### Block reads of the sideband -/

/-- Before the interpreter is READY nothing is acknowledged (R548). -/
theorem exec_sidebandBlockRead_nack (hs : (s.elapse dt).serves .sideband = false) :
    exec (.sidebandBlockRead dt) s = .next { s.elapse dt with sent := .nack :: (s.elapse dt).sent } :=
  congrArg Host.Outcome.next (if_pos (by rw [hs]; rfl))

/-- A waiting fragment is read first (log entry 106). -/
theorem exec_sidebandBlockRead_fragment {b : List Byte} {r : List (List Byte)} (hs : (s.elapse dt).serves .sideband = true)
    (hb : (s.elapse dt).cyx.sideband = b :: r) : exec (.sidebandBlockRead dt) s =
      .next ({ s.elapse dt with cyx := { (s.elapse dt).cyx with sideband := r } }.blockRead b) := by
  change execSidebandBlockRead dt s = _
  simp only [execSidebandBlockRead, hs, hb, Bool.not_true, Bool.false_eq_true, if_false]

/-- Without one the next event is read. -/
theorem exec_sidebandBlockRead_event (hs : (s.elapse dt).serves .sideband = true) (hb : (s.elapse dt).cyx.sideband = []) :
    exec (.sidebandBlockRead dt) s = .next (s.elapse dt).sidebandEvent := by
  change execSidebandBlockRead dt s = _
  simp only [execSidebandBlockRead, hs, hb, Bool.not_true, Bool.false_eq_true, if_false]

end

/-- Settles O48: each clause is the rule of its event above; a packet's clauses are the outcomes of one that is served. -/
theorem transportEventsTakeEffect : Obligations.TransportEventsTakeEffect := by
  intro dt s u hu
  subst hu
  refine ⟨?nack, ?unserved, ?unsound, ?sound, ?reassembly, ?idle, ?readNack, ?read⟩
  case nack => exact fun via bytes pec hv hn => exec_cyxelFragment_nack hv hn
  case unserved => exact fun via bytes pec hv hn => exec_cyxelFragment_unserved hv hn
  case unsound =>
    intro via bytes pec v hs hp hc hb
    rw [exec_cyxelFragment_served hs hp hc, packetOutcome_unsound hb]
  case sound =>
    rintro via bytes pec op rq v hs hp hb rfl rfl hc
    refine ⟨fun hm => ?_, fun w hm hw => ?_⟩
    · rw [exec_cyxelFragment_served hs hp hc, packetOutcome_fragment hb hm]
    · rw [exec_cyxelFragment_served hs hp hc, packetOutcome_ended hb hm hw]
  case reassembly =>
    rintro via session rq q rfl hq
    exact ⟨exec_reassemblyTimeout_early hq, exec_reassemblyTimeout_due hq⟩
  case idle => exact fun session x hx => ⟨exec_sessionIdleTimeout_due hx, exec_sessionIdleTimeout_early hx⟩
  case readNack => exact exec_sidebandBlockRead_nack
  case read => exact fun hs => ⟨fun b r => exec_sidebandBlockRead_fragment hs, exec_sidebandBlockRead_event hs⟩

end Sys2Proof.Machine
end

section
/-!
PROOFS. The Cruise commands.
-/
namespace Sys2Proof.Machine
open Sys2Proof

section
variable {u : State} {x : Ctx} {p : List Byte}

/-- CRU_CHECK of a list that Cruise would admit answers what the commit would, and keeps of it only the report and its number (R83). -/
theorem run_cruCheck_admitted (ha : (changeList u x p).status < 2) : opCruCheck.run u x p =
    Done.ok { u with cru := { u.cru with
      reports := (changeList u x p).state.cru.reports, lastId := (changeList u x p).state.cru.lastId } } (changeList u x p).payload := by
  simp only [opCruCheck, if_neg ha.not_ge, Done.ok]

/-- CRU_REPORT of a report that is kept answers its header and its first 255 entries (R85). -/
theorem run_cruReport_kept {r : CruReport} (hr : u.reportOf x.session (u32 p 0) = some r) : opCruReport.run u x p =
    Done.ok u (be32 r.id ++ be16 1 ++ be16 (r.entries.take 255).length ++ be32 r.changes ++ zeros 4 ++
      (r.entries.take 255).flatMap fun e => e.bytes) := by
  simp only [opCruReport, hr]

end

/-- Settles O9: an admitted command is what its execution gives, concluded; a commit executes its list, and the lemmas above say what a
check and a report give. -/
theorem cruiseCommandsComplete : Obligations.CruiseCommandsComplete := by
  intro dt rq s u p
  refine ⟨?check, ?commit, ?report⟩
  case check => exact fun h ha => ⟨_, _, next_serve h rfl (run_cruCheck_admitted ha), rfl⟩
  case commit => exact fun h => next_serve h rfl rfl
  case report => exact fun h r hr => next_serve h rfl (run_cruReport_kept hr)

end Sys2Proof.Machine
end

section
/-!
PROOFS. The events of the fabric and the Ephemeris.
-/
namespace Sys2Proof.Machine
open Sys2Proof

section
variable {s : State} {dt : Nat}

/-! ### Cells -/

/-- A running fabric writes a delivered cell (R95). -/
theorem exec_fabricCellWrite_runs (w : Writer) (cell : List Byte) (hr : (s.elapse dt).followReads.fabricRuns = true) :
    exec (.fabricCellWrite dt w cell) s = .next ((s.elapse dt).followReads.fabricWrite w cell) :=
  congrArg Host.Outcome.next (if_pos hr)

/-- The boundary of an isolated fabric that is powered discards the cell and counts it (R11). -/
theorem exec_fabricCellWrite_isolated (w : Writer) (cell : List Byte) (hr : (s.elapse dt).followReads.fabricRuns = false)
    (hd : (s.elapse dt).followReads.domOn 36 = true) :
    exec (.fabricCellWrite dt w cell) s = .next ((s.elapse dt).followReads.boundaryLost cell) :=
  congrArg Host.Outcome.next ((if_neg (Bool.eq_false_iff.1 hr)).trans (if_pos hd))

/-- An output of the variant reads its cell while the fabric runs (R96). -/
theorem exec_outputCellRead_runs {q : Nat} (line index type : Nat) (hr : (s.elapse dt).followReads.fabricRuns = true)
    (hp : (s.elapse dt).followReads.outputPresent (q / 4) = true) :
    exec (.outputCellRead dt q line index type) s = .next ((s.elapse dt).followReads.outputRead q line index type) :=
  congrArg Host.Outcome.next (if_pos ⟨hr, hp⟩)

/-- Freeing the cells that are over age changes only the fabric, registers and the collector (R97). -/
theorem exec_cellAgeExpiry_leaves : Leaves State.besideFabric (s.elapse dt).followReads (exec (.cellAgeExpiry dt) s) := by
  have hswept : (s.elapse dt).followReads.deckSweep.besideFabric = (s.elapse dt).followReads.besideFabric := State.deckSweep_besideFabric rfl
  refine leaves_next (besideFabric_foldl ?_ fun t c ht => State.raiseWithin_besideFabric ht)
  exact State.bump_besideFabric (besideFabric_keep hswept)

/-! ### Sources -/

/-- The frame period by which the silence of source slot `k` is judged: its last measured one, else that of a generator it is timed by, else
that of a 59.94 Hz frame (R100). -/
def State.silencePeriod (u : State) (k : Nat) : Nat := (u.source k).periods.headD ((u.timedGens k).head?.elim 16683334 u.genPeriod)

/-- A source that has carried cells and has had no SOF for 2 periods has no signal; an output that reads it makes that an event (R100). -/
theorem exec_sourceNoSignal_silent {n t : Nat} {quarter : Bool}
    (ht : ((s.elapse dt).followReads.source (slotKey n quarter)).lastSof = some t)
    (hc : ((s.elapse dt).followReads.source (slotKey n quarter)).carried = true)
    (hp : t + 2 * (s.elapse dt).followReads.silencePeriod (slotKey n quarter) ≤ (s.elapse dt).followReads.now) :
    ∀ v, v = (s.elapse dt).followReads.putSource { (s.elapse dt).followReads.source (slotKey n quarter) with noSignal := true } →
    exec (.sourceNoSignal dt n quarter) s = .next (if (v.readersNow (slotKey n quarter)).isEmpty then v
      else v.raiseWithin ((s.elapse dt).followReads.silencePeriod (slotKey n quarter)) 0x2005 srcFabric (slotObject (slotKey n quarter))) := by
  rintro _ rfl
  change execSourceNoSignal dt n quarter s = _
  unfold State.silencePeriod at hp ⊢
  simp only [execSourceNoSignal, ht]
  rw [if_pos ⟨hc, hp⟩]

/-- The silence of a source changes only its record, registers and the collector. -/
theorem exec_sourceNoSignal_leaves (n : Nat) (quarter : Bool) :
    Leaves State.besideFabric (s.elapse dt).followReads (exec (.sourceNoSignal dt n quarter) s) := by
  refine leaves_next ?_
  split
  · rfl
  · exact besideFabric_ite
      (fun _ => besideFabric_ite (fun _ => State.putSource_besideFabric rfl)
        fun _ => State.raiseWithin_besideFabric (State.putSource_besideFabric rfl))
      fun _ => rfl

/-! ### Landing -/

section
variable {chan : Nat} {c : Landing} (hc : (s.elapse dt).followReads.fab.landing.find? (fun y => y.chan == chan) = some c)
include hc

/-- What the time without SOF does to a Landing channel turns on whether it is lost already, and on 2 frame periods (R114). -/
theorem exec_ldgLoss_channel : exec (.ldgLoss dt chan) s =
    .next (if c.lost.isNone = true ∧ c.lastSof.getD 0 + 2 * (s.elapse dt).followReads.genPeriod c.gen ≤ (s.elapse dt).followReads.now
      then ((s.elapse dt).followReads.landingAlarm 0x2101 chan).landingLost c (s.elapse dt).followReads.now
      else (s.elapse dt).followReads) := by
  change execLdgLoss dt chan s = _
  simp only [execLdgLoss, hc]

theorem exec_ldgLoss_silent (hl : c.lost = none)
    (ht : c.lastSof.getD 0 + 2 * (s.elapse dt).followReads.genPeriod c.gen ≤ (s.elapse dt).followReads.now) :
    exec (.ldgLoss dt chan) s =
      .next (((s.elapse dt).followReads.landingAlarm 0x2101 chan).landingLost c (s.elapse dt).followReads.now) :=
  (exec_ldgLoss_channel hc).trans (congrArg Host.Outcome.next (if_pos ⟨Option.isNone_iff_eq_none.2 hl, ht⟩))

/-- A channel is lost once. -/
theorem exec_ldgLoss_lost (hl : c.lost ≠ none) : exec (.ldgLoss dt chan) s = .next (s.elapse dt).followReads :=
  (exec_ldgLoss_channel hc).trans (congrArg Host.Outcome.next (if_neg fun h => hl (Option.isNone_iff_eq_none.1 h.1)))

/-- The first channel of a Landing group selects for all of them in step (R113). -/
theorem exec_landingFrameSelect_first (hm : c.member = 0) (hr : (s.elapse dt).followReads.fabricRuns = true) :
    exec (.landingFrameSelect dt chan) s =
      .next (((s.elapse dt).followReads.fab.landing.filter fun y => y.first == c.first && y.gen == c.gen).foldl
        (fun t y => t.selectFrame y ((s.elapse dt).followReads.groupFrame c.first c.gen)) (s.elapse dt).followReads) := by
  change execLandingFrameSelect dt chan s = _
  simp only [execLandingFrameSelect, hc]
  rw [if_neg (by simp [hm, hr])]

end

/-- The loss of a Landing channel changes only the fabric, registers and the collector. -/
theorem exec_ldgLoss_leaves (chan : Nat) : Leaves State.besideFabric (s.elapse dt).followReads (exec (.ldgLoss dt chan) s) := by
  refine leaves_next ?_
  split
  · rfl
  · exact besideFabric_ite (fun _ => State.landingLost_besideFabric (State.landingAlarm_besideFabric rfl)) fun _ => rfl

/-- A selection of Landing changes only the fabric, registers and the collector. -/
theorem exec_landingFrameSelect_leaves (chan : Nat) :
    Leaves State.besideFabric (s.elapse dt).followReads (exec (.landingFrameSelect dt chan) s) := by
  refine leaves_next ?_
  split
  · rfl
  · exact besideFabric_ite (fun _ => rfl) fun _ => besideFabric_foldl rfl fun t y ht => State.selectFrame_besideFabric ht

/-! ### Meridians -/

/-- The frame that generator `g` is in. -/
def State.frameNow (e : State) (g : Nat) : Nat := frameAt (e.genN g) (e.genD g) e.chrono

/-- The Meridian of that frame: the latest that the Chronograph has reached. -/
def State.meridianNow (e : State) (g : Nat) : Nat := meridianAt (e.genN g) (e.genD g) (e.frameNow g)

/-- That Meridian may be carried out: no step of the Chronograph has put it off, it lies behind the start of the generator, and it is not
carried out already (R125, R128; log entry 24). -/
structure MeridianDue (e : State) (g : Nat) : Prop where
  allowed : e.leastFrame g ≤ e.frameNow g
  begun : (e.generator g).frame.isSome = true ∨ (e.generator g).since < e.meridianNow g ∨ (e.generator g).since = 0
  once : ∀ l, (e.generator g).lastAt = some l → l < e.meridianNow g

/-- No time but an earlier one is kept, as a Bool. -/
theorem getD_map_lt_iff {o : Option Nat} {m : Nat} : (o.map fun l => decide (l < m)).getD true = true ↔ ∀ l, o = some l → l < m := by
  cases o <;> simp

/-- `MeridianDue`, as the event decides it. -/
theorem meridianDue_iff {e : State} {g : Nat} : MeridianDue e g ↔
    (decide (e.leastFrame g ≤ e.frameNow g) &&
      (if (e.generator g).frame.isSome then true
        else decide ((e.generator g).since < e.meridianNow g ∨ (e.generator g).since = 0)) &&
      decide (((e.generator g).lastAt.map fun l => decide (l < e.meridianNow g)).getD true)) = true := by
  rw [Bool.and_eq_true, Bool.and_eq_true, Bool.if_true_left, Bool.or_eq_true, decide_eq_true_eq, decide_eq_true_eq, decide_eq_true_eq,
    decide_eq_true_eq, getD_map_lt_iff]
  exact ⟨fun h => ⟨⟨h.allowed, h.begun⟩, h.once⟩, fun ⟨⟨ha, hb⟩, ho⟩ => ⟨ha, hb, ho⟩⟩

section
variable {g : Nat}

/-- A Meridian that is not due does not come. -/
theorem exec_meridian_undue (h : ¬MeridianDue (s.elapse dt) g) : exec (.meridian dt g) s = .next (s.elapse dt) :=
  congrArg Host.Outcome.next (if_pos (.inr (.inr (.inr (by rw [Bool.not_eq_true']; exact Bool.eq_false_iff.2 (mt meridianDue_iff.2 h))))))

section
variable (hd : (s.elapse dt).domOn 36 = true) (ho : (s.elapse dt).shutIn 0x0B g = false) (hg : g < 16)
include hd ho hg

/-- A due Meridian is carried out where the generator is enabled; where it is not, its outputs stop (R106, R153). -/
theorem exec_meridian_due (h : MeridianDue (s.elapse dt) g) : exec (.meridian dt g) s =
    .next (if (s.elapse dt).genOn g then (s.elapse dt).meridian g ((s.elapse dt).frameNow g) ((s.elapse dt).meridianNow g)
      else (s.elapse dt).putGenerator g { (s.elapse dt).generator g with
        lastAt := some ((s.elapse dt).meridianNow g), frame := some ((s.elapse dt).frameNow g), shift := 0, stopped := true }) := by
  refine congrArg Host.Outcome.next (if_neg ?_)
  rintro (h1 | h1 | h1 | h1)
  · simp [hd] at h1
  · simp [ho] at h1
  · omega
  · rw [Bool.not_eq_true'] at h1
    exact Bool.eq_false_iff.1 h1 (meridianDue_iff.1 h)

end

/-- Between 100 and 5 microseconds before a Meridian the loader writes what is due at it (R134). -/
theorem exec_ephLoaderWrite_due (hd : (s.elapse dt).domOn 36 = true) (hg : g < 16)
    (hearly : (s.elapse dt).nextMeridian g ≤ (s.elapse dt).chrono + 100000)
    (hlate : (s.elapse dt).chrono + 5000 ≤ (s.elapse dt).nextMeridian g) :
    exec (.ephLoaderWrite dt g) s = .next ((s.elapse dt).loadDue g ((s.elapse dt).nextFrame g)) :=
  congrArg Host.Outcome.next (if_pos ⟨hd, hg, hearly, hlate⟩)

end

/-- The loader changes only the fabric, the Ephemeris, registers and the collector. -/
theorem exec_ephLoaderWrite_leaves (g : Nat) : Leaves State.besideFabric (s.elapse dt) (exec (.ephLoaderWrite dt g) s) :=
  leaves_next (besideFabric_ite (fun _ => State.loadDue_besideFabric rfl) fun _ => rfl)

end

/-- Settles O53: each event goes through operations of the fabric alone. -/
theorem fabricEventsLeaveTheRest : Obligations.FabricEventsLeaveTheRest := by
  intro dt s u hu
  subst hu
  exact ⟨exec_cellAgeExpiry_leaves, exec_landingFrameSelect_leaves, exec_ldgLoss_leaves, exec_sourceNoSignal_leaves,
    exec_ephLoaderWrite_leaves⟩

/-- Settles O47: each clause is the rule of its event above; a Meridian's clauses are whether it is due. -/
theorem fabricEventsTakeEffect : Obligations.FabricEventsTakeEffect := by
  intro dt s e u he hu
  subst he hu
  refine ⟨fun w cell => ⟨exec_fabricCellWrite_runs w cell, exec_fabricCellWrite_isolated w cell⟩,
    fun q line index type => exec_outputCellRead_runs line index type, ?expiry, ?noSignal, ?landing, ?meridian,
    fun g => exec_ephLoaderWrite_due⟩
  case expiry =>
    rintro v old kept w rfl rfl rfl rfl
    rfl
  case noSignal =>
    rintro n quarter k x t period v rfl rfl ht hc rfl hp hv
    exact exec_sourceNoSignal_silent ht hc hp v hv
  case landing =>
    exact fun chan c hc => ⟨exec_ldgLoss_silent hc, exec_ldgLoss_lost hc, exec_landingFrameSelect_first hc⟩
  case meridian =>
    rintro g f m x rfl rfl rfl hd ho hg
    refine ⟨fun ha hb hl => ?_, fun hf => exec_meridian_undue fun h => hf.not_ge h.allowed,
      fun l hl hm => exec_meridian_undue fun h => hm.not_gt (h.once l hl)⟩
    have hdue := exec_meridian_due hd ho hg ⟨ha, hb, hl⟩
    exact ⟨fun hon => hdue.trans (congrArg Host.Outcome.next (if_pos hon)),
      fun hoff => hdue.trans (congrArg Host.Outcome.next (if_neg (Bool.eq_false_iff.1 hoff)))⟩

end Sys2Proof.Machine
end

section
/-!
PROOFS. The FAB commands, and the LAN commands that a plain request gives.
-/
namespace Sys2Proof.Machine
open Sys2Proof

/-! ### What the commands execute -/

section
variable {u : State} {x : Ctx} {p : List Byte}

/-- FAB_ROUTE, with room in the immediate store, takes its record for the next allowed frame of its generator (R116). -/
theorem run_fabRoute_room (hn : u.eph.staged < 8192) : opFabRoute.run u x p =
    Done.pending (u.takeRoutes x (takeOf [u.routeRec p 0 (u.routeFrame x (u.routeGen p 0) u.leadEnd)]))
      (frameRefBytes (u.routeGen p 0) (u.routeFrame x (u.routeGen p 0) u.leadEnd)) :=
  if_neg hn.not_ge

/-- FAB_ROUTE_BATCH, with room for all its records, takes them together (R117). -/
theorem run_fabRouteBatch_room (hn : u.eph.staged + u16 p 0 ≤ 8192) {rs : List RouteRec}
    (hr : rs = (blockOffsets 8 (u16 p 0)).map fun o => u.routeRec p o (u.routeFrame x (u.routeGen p o) u.leadEnd)) :
    opFabRouteBatch.run u x p = Done.pending (u.takeRoutes x (takeOf rs))
      (be32 (genFrames rs).length ++ (genFrames rs).flatMap fun r => frameRefBytes r.1 r.2) := by
  subst hr
  exact if_neg hn.not_gt

/-- FAB_SYNC_ASSIGN with RELEASE starts the release of the whole group (R121, log entry 115). -/
theorem run_fabSyncAssign_release (hr : bit (u8 p 5) 1 = true) : opFabSyncAssign.run u x p =
    Done.pending { u with fab := { u.fab with landing := u.fab.landing.map fun y => if (u.released (syncChan p)).contains y
        then { y with releasing := true, relAt := u.leadEnd, relSession := x.session, relTag := x.tag, relEntry := x.entry } else y } }
      (be32 (0x00060000 + syncChan p) ++ be16 (slotNo (landingSlot (syncChan p))) ++ zeros 2) :=
  if_pos hr

/-- FAB_SYNC_ASSIGN without RELEASE assigns a channel to each member of its source (R121, R614). -/
theorem run_fabSyncAssign_assign (hr : bit (u8 p 5) 1 = false) : opFabSyncAssign.run u x p =
    Done.pending ((if bit (u8 p 5) 3 then ((u.bondNamed (u16 p 0)).map (·.members)).getD [] else [syncSource p]).zipIdx.foldl
        (fun t m => t.assignChannel
          ⟨syncChan p + m.2, m.1, u8 p 4, bit (u8 p 5) 2, syncChan p, u.syncSize p, m.2, u8 p 6, u16 p 8, u16 p 10, u8 p 12 == 1, u8 p 13 == 1,
            u32 p 16, u32 p 20, 0x00060000 + syncChan p, x.session, x.tag, false, u.leadEnd, false, 0xFFFF, 0, 0, none, [], [], none, some u.now,
            none, false, [], none, x.entry, 0⟩) u)
      (be32 (0x00060000 + syncChan p) ++ be16 (slotNo (landingSlot (syncChan p))) ++ zeros 2) :=
  if_neg (Bool.eq_false_iff.1 hr)

/-- FAB_SYNC_ASSIGN answers ACCEPTED_PENDING with the handle and the slot, be it an assignment or a release. -/
theorem run_fabSyncAssign_reply (u : State) (x : Ctx) (p : List Byte) : (opFabSyncAssign.run u x p).status = stPending ∧
    (opFabSyncAssign.run u x p).payload = be32 (0x00060000 + syncChan p) ++ be16 (slotNo (landingSlot (syncChan p))) ++ zeros 2 := by
  cases hr : bit (u8 p 5) 1
  case true => simp [run_fabSyncAssign_release hr, Done.pending]
  case false => simp [run_fabSyncAssign_assign hr, Done.pending]

/-- The lanes that LAN_SLEEP names. -/
def sleepLanes (p : List Byte) : List Nat := (List.range (u16 p 2)).map fun i => u16 p 0 + i

/-- The state once each of them has been asked. -/
def State.sleepAsked (u : State) (p : List Byte) : State :=
  (sleepLanes p).foldl (fun t l => t.sleepLane l (u8 p 4) (u8 p 5) (bit (u8 p 6) 0)) u

/-- LAN_SLEEP that wakes nothing is executed once the entries are complete (R179, log entry 99). -/
theorem run_lanSleep_entries (htx : u8 p 4 ≠ 0) (hrx : u8 p 5 ≠ 0) :
    opLanSleep.run u x p = Done.ok ((u.sleepAsked p).entriesDone (sleepLanes p)) [] := by
  simp only [opLanSleep, if_neg htx, if_neg hrx]
  rfl

/-- LAN_SLEEP that wakes transmitters alone waits for them (R179). -/
theorem run_lanSleep_wakesTx (htx : u8 p 4 = 0) (hrx : u8 p 5 ≠ 0) {tx : List Nat}
    (ht : tx = (sleepLanes p).filter fun l => u.rd (Reg.LNQ_SLEEP_TX_STATE l) != 0 || (u.lane l).tx.endsAt.isSome) (hne : tx ≠ []) :
    opLanSleep.run u x p = Done.pending ((u.sleepAsked p).await ⟨x.tag, x.session, x.entry, .lanes tx [], none⟩) [] := by
  subst ht
  simp only [opLanSleep, if_pos htx, if_neg hrx]
  exact if_neg fun h => hne (List.isEmpty_iff.1 h.1)

end

/-! ### Admission -/

/-- What is admitted without an error may be weighed, be its effect at once or later. -/
theorem Done.ok_status_lt (s : State) (pl : List Byte) : (Done.ok s pl).status < 2 := Nat.two_pos
theorem Done.pending_status_lt (s : State) (pl : List Byte) : (Done.pending s pl).status < 2 := Nat.one_lt_two

section
variable {op : OpSpec} {dt : Nat} {rq : Req} {s u : State} {p : List Byte}

/-- The outcome of an admitted change whose execution gives `d` and in which Cruise finds no failing entry. -/
theorem next_weighed {d : Done} (h : Admits op dt rq s u p) (hc : op.cruise = true) (hd : op.run u (ctxOf rq) p = d) (hs : d.status < 2)
    (hv : (evaluate u d.state []).fails = 0) :
    Host.Outcome.next (φ := Fault) (ρ := Refusal) (serve op dt rq s) = .next (State.conclude op rq p (weighed u d op.emptyReply)) :=
  congrArg Host.Outcome.next (serve_weighed h hc hd hs hv)

end

/-- Settles O16: an admitted command is what its execution gives, weighed by Cruise where it is a change, and concluded. -/
theorem fabricCommandsComplete : Obligations.FabricCommandsComplete := by
  intro dt rq s u p
  refine ⟨?route, ?batch, ?bond, ?query, ?window, ?release, ?assign⟩
  case route =>
    rintro h hn g f rfl rfl v rfl hv
    exact next_weighed h rfl (run_fabRoute_room hn) (Done.pending_status_lt _ _) hv
  case batch =>
    rintro h hn rs hr v rfl hv
    exact next_weighed h rfl (run_fabRouteBatch_room hn hr) (Done.pending_status_lt _ _) hv
  case bond =>
    rintro h bs rfl v rfl hv
    exact next_weighed h rfl rfl (Done.ok_status_lt _ _) hv
  case query =>
    rintro h es rfl
    exact next_serve h rfl rfl
  case window =>
    rintro h es rfl
    exact next_serve h rfl rfl
  case release =>
    rintro h hr ls rfl v rfl hv
    exact next_weighed h rfl (run_fabSyncAssign_release hr) (Done.pending_status_lt _ _) hv
  case assign =>
    rintro h hr ms c rfl rfl v rfl hv
    exact next_weighed h rfl (run_fabSyncAssign_assign hr) (Done.pending_status_lt _ _) hv

/-- Settles O60: a plain request that steps 12 to 16 do not refuse is admitted; the FAB changes are then those of an admitted command. -/
theorem plainFabricAndLaneRequestsComplete : Obligations.PlainFabricAndLaneRequestsComplete := by
  rintro dt rq s _ _ hplain rfl rfl
  have admits {op : OpSpec} (hd : opcodeDefined op.code = true) (h5 : op.code ≠ 5) := admits_plain (op := op) hplain hd h5
  obtain ⟨route, batch, bond, -⟩ := fabricCommandsComplete dt rq s ((s.arrive dt).plainStart rq) rq.payload
  refine ⟨fun hr => route (admits (by decide) (by decide) hr), fun hr => batch (admits (by decide) (by decide) hr),
    fun hr => bond (admits (by decide) (by decide) hr), ?sync, ?config, ?fom, ?sleep, ?slotmask⟩
  case sync =>
    rintro hr d rfl
    obtain ⟨hs, hp⟩ := run_fabSyncAssign_reply ((s.arrive dt).plainStart rq) (ctxOf rq) rq.payload
    exact ⟨hs, hp, next_weighed (admits (by decide) (by decide) hr) rfl rfl (by rw [hs]; decide)⟩
  case config =>
    rintro hr v rfl hv
    exact next_weighed (admits (by decide) (by decide) hr) rfl rfl (Done.ok_status_lt _ _) hv
  case fom =>
    rintro hr l pl rfl rfl
    exact next_serve (admits (by decide) (by decide) hr) rfl rfl
  case sleep =>
    rintro hr lanes v rfl rfl
    have ha := admits (op := opLanSleep) (by decide) (by decide) hr
    refine ⟨fun htx hrx hv => ?_, fun tx w htx hrx ht hne hw hv => ?_⟩
    · exact next_weighed ha rfl (run_lanSleep_entries htx hrx) (Done.ok_status_lt _ _) hv
    · subst hw
      exact next_weighed ha rfl (run_lanSleep_wakesTx htx hrx ht hne) (Done.pending_status_lt _ _) hv
  case slotmask =>
    rintro hr l y v rfl rfl rfl hv
    exact next_weighed (admits (by decide) (by decide) hr) rfl rfl (Done.ok_status_lt _ _) hv

end Sys2Proof.Machine
end

section
/-!
PROOFS. The register rows of the fabric, the generators, audio, the heads, the encoders and memory.
-/
namespace Sys2Proof.Machine
open Sys2Proof

/-! ### What a written register does -/

section
variable (old s : State) (v : Nat)

/-- GO of the deck takes its snapshot (R98). -/
theorem fabWritten_ldSnap : State.fabWritten old s 0x20 v = if bit v 0 then s.deckSnap else s := rfl

section
variable {q : Nat}

/-- A current selection that keeps its value does nothing more. -/
theorem fabWritten_selCur_same (hq : q < 6144) (hsel : (old.selCur q == s.selCur q) = true) : State.fabWritten old s (0x1000 + 4 * q) v = s := by
  have hindex : (0x1000 + 4 * q - 0x1000) / 4 = q := by omega
  rw [State.fabWritten, if_neg (by omega), if_pos (by omega), hindex]
  exact if_pos hsel

/-- A current selection that changes counts and is raised, and one that connects or disconnects its output forgets the raster (R107). -/
theorem fabWritten_selCur_changed (hq : q < 6144) (hsel : (old.selCur q == s.selCur q) = false) :
    State.fabWritten old s (0x1000 + 4 * q) v =
      ((if (old.selCur q).valid == (s.selCur q).valid then s
        else s.putPort { s.port q with raster := none, whole := !s.outSplit (q / 4) }).bump Reg.FAB_DIRTY_COUNT 1).raiseWithin
        (s.frameGap (s.selCur q).gen) 0x200D srcFabric (slotObject (s.outKey q)) := by
  have hindex : (0x1000 + 4 * q - 0x1000) / 4 = q := by omega
  rw [State.fabWritten, if_neg (by omega), if_pos (by omega), hindex]
  exact if_neg (Bool.eq_false_iff.1 hsel)

end

/-- The control register of a generator applies its enable, then LOAD (R153). -/
theorem ephWritten_genCtl {g : Nat} (hg : g < 16) : State.ephWritten old s (0x100 + 0x40 * g) v =
    if bit v 1 then (s.genEnabled g (old.rd (Reg.EPH_GEN_CTL_EN g))).genLoad g else s.genEnabled g (old.rd (Reg.EPH_GEN_CTL_EN g)) := by
  have hindex : (0x100 + 0x40 * g - 0x100) / 0x40 = g := by omega
  rw [State.ephWritten, if_pos (by omega), hindex]

theorem audWritten_snap : State.audWritten old s 0x24 v = if bit v 0 then s.audSnap else s := rfl

theorem audWritten_clk : State.audWritten old s 0x14 v = s.audClkChanged (old.rd Reg.AUD_CLK_EN) (old.rd Reg.AUD_CLK_RATE96) := rfl

/-- A set, region or Cachet register of memory decodes anew, loses what moved, and is stored (R493, R514). -/
theorem memWritten_map {a : Nat} (ha : 0x100 ≤ a) : State.memWritten old s a = ((State.regionChanges old s).refreshSets).storeChanged :=
  if_neg ha.not_gt

end

/-! ### Rows -/

section
variable {u t : State} {m off : Nat} (v : Nat)

/-- A row of the fabric's window that is taken, whose register makes `t` of the written fields. -/
theorem fabRow_acts (ha : Accepts u m 9 off) (h8 : 8 ≤ off) (ho : off < 0x10000)
    (ht : State.fabWritten u (u.writeFields m 9 off (v % 2 ^ 32)) off (v % 2 ^ 32) = t) :
    u.rowWrite m 9 off v = (t.noteBypass m 9 off).respond m true [] :=
  ht ▸ rowWrite_acts v ha (by decide) (by decide) (by decide) h8 ho (by decide) rfl

/-- The row of a generator's control register that is taken. -/
theorem genRow_acts {g : Nat} (hg : g < 16) (ha : Accepts u m 0x0A (0x100 + 0x40 * g))
    (ht : t = (u.writeFields m 0x0A (0x100 + 0x40 * g) (v % 2 ^ 32)).genEnabled g (u.rd (Reg.EPH_GEN_CTL_EN g))) :
    u.rowWrite m 0x0A (0x100 + 0x40 * g) v =
      ((if bit (v % 2 ^ 32) 1 then t.genLoad g else t).noteBypass m 0x0A (0x100 + 0x40 * g)).respond m true [] := by
  have hspan : windowSpan 0x0A = 0x10000 := by decide
  have hi : indirectData 0x0A (0x100 + 0x40 * g) = false := by
    have hr : 0x100 + 0x40 * g ∉ rangerOnly 0x0A := by simp [rangerOnly]; omega
    simp [indirectData, hr]
  subst ht
  rw [rowWrite_acts v ha (by decide) (by decide) (by decide) (by omega) (by omega) (by decide) hi, ← ephWritten_genCtl _ _ _ hg]
  rfl

/-- A row of the audio window that is taken, whose register makes `t` of the written fields. -/
theorem audRow_acts (ha : Accepts u m 0x0C off) (h8 : 8 ≤ off) (ho : off < 0x80)
    (ht : State.audWritten u (u.writeFields m 0x0C off (v % 2 ^ 32)) off (v % 2 ^ 32) = t) :
    u.rowWrite m 0x0C off v = (t.noteBypass m 0x0C off).respond m true [] := by
  have hspan : windowSpan 0x0C = 0x1000 := by decide
  have hi : indirectData 0x0C off = false := by
    have : off ∉ rangerOnly 0x0C := by simp [rangerOnly]; omega
    simp [indirectData, this]
  rw [rowWrite_acts v ha (by decide) (by decide) (by decide) h8 (by omega) (by decide) hi, ← ht]
  rfl

/-- A row of the multiviewer that is taken, beside the data register of its indirect pair. -/
theorem mvwRow_acts (ha : Accepts u m 0x0D off) (h8 : 8 ≤ off) (ho : off < 0x10000) (hi : indirectData 0x0D off = false) :
    u.rowWrite m 0x0D off v =
      ((State.mvwWritten u (u.writeFields m 0x0D off (v % 2 ^ 32)) off).noteBypass m 0x0D off).respond m true [] :=
  rowWrite_acts v ha (by decide) (by decide) (by decide) h8 ho (by decide) hi

/-- The data register of the multiviewer's indirect pair stores the word and changes the settings behind it (log entry 58). -/
theorem mvwRow_indirect (ha : Accepts u m 0x0D off) (h8 : 8 ≤ off) (ho : off < 0x10000) (hi : indirectData 0x0D off = true) :
    u.rowWrite m 0x0D off v = (((u.wr (u.indirectPlace 0x0D off) (v % 2 ^ 32)).mvwIndirect (u.indirectIndex 0x0D off)
      (v % 2 ^ 32)).noteBypass m 0x0D off).respond m true [] := by
  rw [rowWrite_plain v ha (by decide) ho (by decide), putWord_indirect _ h8 (by decide) ha.own hi]
  rfl

/-- A row of the engine enables that is taken. -/
theorem encRow_acts (ha : Accepts u m 0x0E off) (h8 : 8 ≤ off) (ho : off < 0x40) : u.rowWrite m 0x0E off v =
    ((State.encWritten u (u.writeFields m 0x0E off (v % 2 ^ 32)) off).noteBypass m 0x0E off).respond m true [] := by
  have hspan : windowSpan 0x0E = 0x10000 := by decide
  have hi : indirectData 0x0E off = false := by
    have : off ∉ rangerOnly 0x0E := by simp [rangerOnly]; omega
    simp [indirectData, this]
  exact rowWrite_acts v ha (by decide) (by decide) (by decide) h8 (by omega) (by decide) hi

/-- A row of the memory map that is taken. -/
theorem memRow_acts (ha : Accepts u m 0x0F off) (h100 : 0x100 ≤ off) (ho : off < 0x10000) : u.rowWrite m 0x0F off v =
    ((((State.regionChanges u (u.writeFields m 0x0F off (v % 2 ^ 32))).refreshSets).storeChanged).noteBypass m 0x0F off).respond m true [] := by
  rw [← memWritten_map _ _ h100]
  exact rowWrite_acts v ha (by decide) (by decide) (by decide) (by omega) ho (by decide) rfl

end

/-- Settles O28: each row is the access lemma of its window with what its register does. -/
theorem fabricAndMediaRegisterRows : Obligations.FabricAndMediaRegisterRows := by
  intro dt m v x s u hu hx
  subst hu hx
  refine ⟨?selCur, ?ldSnap, ?genCtl, ?audSnap, ?audClk, ?mvw, ?mvwData, ?engines, ?memMap⟩
  case selCur =>
    rintro q t hq ha rfl a b rfl rfl
    refine ⟨fun hsel => ?_, ?_⟩
    · exact congrArg Host.Outcome.next
        ((if_pos hq).trans (fabRow_acts v ha (by omega) (by omega) (fabWritten_selCur_same _ _ _ hq hsel)))
    · rintro hsel z rfl
      exact congrArg Host.Outcome.next
        ((if_pos hq).trans (fabRow_acts v ha (by omega) (by omega) (fabWritten_selCur_changed _ _ _ hq hsel)))
  case ldSnap =>
    rintro t ha rfl
    exact congrArg Host.Outcome.next (fabRow_acts v ha (by decide) (by decide) (fabWritten_ldSnap _ _ _))
  case genCtl =>
    rintro g t hg ha ht z rfl
    have row := genRow_acts v hg ha ht
    exact ⟨congrArg Host.Outcome.next ((if_pos hg).trans row), congrArg Host.Outcome.next ((if_pos hg).trans row)⟩
  case audSnap =>
    rintro t ha rfl
    exact congrArg Host.Outcome.next (audRow_acts v ha (by decide) (by decide) (audWritten_snap _ _ _))
  case audClk =>
    rintro t ha rfl
    exact congrArg Host.Outcome.next (audRow_acts v ha (by decide) (by decide) (audWritten_clk _ _ _))
  case mvw =>
    rintro a t h8 ho ha hi rfl
    exact congrArg Host.Outcome.next ((if_pos ho).trans (mvwRow_acts v ha h8 ho hi))
  case mvwData => exact fun a h8 ho ha hi => congrArg Host.Outcome.next ((if_pos ho).trans (mvwRow_indirect v ha h8 ho hi))
  case engines =>
    rintro hi off t rfl ha rfl
    exact congrArg Host.Outcome.next (encRow_acts v ha (by split <;> decide) (by split <;> decide))
  case memMap =>
    rintro a t h100 ho ha rfl
    exact congrArg Host.Outcome.next ((if_pos ho).trans (memRow_acts v ha h100 ho))

end Sys2Proof.Machine
end

section
/-!
PROOFS. The EPH commands.
-/
namespace Sys2Proof.Machine
open Sys2Proof

/-! ### What the commands execute -/

section
variable {u : State} {x : Ctx} {p : List Byte}

/-- EPH_SCHEDULE, with room for its record, stores one entry under a new handle (R146); the frame that BY_FRAME names is a partner's where
its trailer carries one. -/
theorem run_ephSchedule_room (hn : u.eph.room 1 = true) {f : Nat} {k : Take}
    (hf : f = if bit (u8 p 24) 0
      then ((x.targets.find? fun r => r.1 == u.routeGen p 28).map fun r => r.2).getD (u.namedFrame (u.routeGen p 28) (u64 p 16))
      else u.routeFrame x (u.routeGen p 28) (u.takeTime (timeAt p 0)))
    (hk : k = { takeOf [u.routeRec p 28 f] with
      handle := u.newHandle x, byFrame := bit (u8 p 24) 0, time := if bit (u8 p 24) 0 then 0 else timeAt p 0
      mode := takeMode (u8 p 24), ramp := u8 p 25 }) :
    opEphSchedule.run u x p = Done.pending (u.storeEntry x k) (be32 (u.newHandle x) ++ frameRefBytes (u.routeGen p 28) f) := by
  subst hk hf
  exact if_neg (by simp [hn])

/-- A request of a controller carries no trailer, so it names no frame but by its operands. -/
theorem ctxOf_target_getD (rq : Req) (g d : Nat) : (((ctxOf rq).targets.find? fun r => r.1 == g).map fun r => r.2).getD d = d := rfl

/-- EPH_SALVO, with room for all its records, stores them as one entry under a new handle (R147). -/
theorem run_ephSalvo_room (hn : u.eph.room (u16 p 12) = true) {rs : List RouteRec} {k : Take}
    (hr : rs = (blockOffsets 16 (u16 p 12)).map fun o =>
      u.routeRec p o (u.routeFrame x (u.routeGen p o) (u.takeTime (timeAt p 0))))
    (hk : k = { takeOf rs with
      handle := u.newHandle x, salvo := true, time := timeAt p 0, mode := takeMode (u8 p 14), ramp := u8 p 15 }) :
    opEphSalvo.run u x p = Done.pending (u.storeEntry x k)
      (be32 (u.newHandle x) ++ be16 (genFrames rs).length ++ zeros 2 ++ (genFrames rs).flatMap fun r => frameRefBytes r.1 r.2) := by
  subst hk hr
  exact if_neg (by simp [hn])

/-- EPH_GEN_CONFIG that is not mirrored writes its registers and restarts the generator on a change of rate or enable; nothing bound to it is
rephased (R129, R150, R153; the staged registers: log entry 127). -/
theorem run_ephGenConfig_own (hx : x.mirrored = false) {v w : State}
    (hv : v = [(Reg.EPH_GEN_N_N (u8 p 0), u32 p 4), (Reg.EPH_GEN_D_D (u8 p 0), u32 p 8), (Reg.EPH_GEN_CUR_N_N (u8 p 0), u32 p 4),
      (Reg.EPH_GEN_CUR_D_D (u8 p 0), u32 p 8), (Reg.EPH_GEN_CTL_EN (u8 p 0), b01 (bit (u8 p 1) 0)),
      (Reg.EPH_GEN_CTL_CUT (u8 p 0), b01 (bit (u8 p 1) 1)), (Reg.EPH_GEN_CTL_DIP (u8 p 0), b01 (bit (u8 p 1) 2)),
      (Reg.EPH_GEN_CTL_RAMP_MS (u8 p 0), u8 p 2)].foldl (fun t w => t.wr w.1 w.2) u)
    (hw : w = (if u.genChanges p then v.genRestart (u8 p 0) else v).endFreeRuns) :
    opEphGenConfig.run u x p = Done.ok w (frameRefBytes (u8 p 0) (w.nextFrame (u8 p 0))) := by
  subst hw hv
  simp [opEphGenConfig, hx]

end

/-- Settles O17: an admitted command is what its execution gives, weighed by Cruise where it is a change, and concluded. -/
theorem ephemerisCommandsComplete : Obligations.EphemerisCommandsComplete := by
  intro dt rq s u p
  refine ⟨?schedule, ?salvo, ?cancel, ?list, ?genConfig⟩
  case schedule =>
    rintro h hn g t f _ rfl rfl hf rfl z rfl k hk hv
    rw [← ctxOf_target_getD rq (u.routeGen p 28) (u.namedFrame _ _)] at hf
    exact next_weighed h rfl (run_ephSchedule_room hn hf hk) (Done.pending_status_lt _ _) hv
  case salvo =>
    rintro h hn rs _ rfl hr k hk hv
    exact next_weighed h rfl (run_ephSalvo_room hn hr hk) (Done.pending_status_lt _ _) hv
  case cancel =>
    rintro h mine gone rfl rfl ts rfl
    exact next_serve h rfl rfl
  case list =>
    rintro h es rfl
    exact next_serve h rfl rfl
  case genConfig =>
    rintro h g v rfl hw w hw' hv
    exact next_weighed h rfl (run_ephGenConfig_own rfl hw hw') (Done.ok_status_lt _ _) hv

end Sys2Proof.Machine
end

section
/-!
PROOFS. The LAN commands.
-/
namespace Sys2Proof.Machine
open Sys2Proof

/-- A command that is executed in one of two ways, neither of them an error, may be weighed. -/
theorem Done.ite_status_lt {c : Prop} [Decidable c] {d e : Done} (hd : d.status < 2) (he : e.status < 2) :
    (if c then d else e).status < 2 := by
  split
  · exact hd
  · exact he

/-- Settles O18: an admitted command is what its execution gives, weighed by Cruise where it is a change, and concluded. The time that LAN_SLEEP
takes for its entries and the port that LAN_CONFIG forms or ends are the model's choices (log entries 99 and 112). -/
theorem laneCommandsComplete : Obligations.LaneCommandsComplete := by
  intro dt rq s u p
  refine ⟨?config, ?status, ?fom, ?sleep, ?slotmask⟩
  case config =>
    rintro h v rfl hv
    exact next_weighed h rfl rfl (Done.ok_status_lt _ _) hv
  case status => exact fun h => next_serve h rfl rfl
  case fom =>
    rintro h l pl rfl rfl
    exact next_serve h rfl rfl
  case sleep =>
    rintro h lanes v tx rx rfl rfl rfl rfl d rfl hv
    exact next_weighed h rfl rfl (Done.ite_status_lt (Done.ok_status_lt _ _) (Done.pending_status_lt _ _)) hv
  case slotmask =>
    rintro h l y v rfl rfl rfl hv
    exact next_weighed h rfl rfl (Done.ok_status_lt _ _) hv

end Sys2Proof.Machine
end

section
/-!
PROOFS. The events of the lanes and their clock recovery.
-/
namespace Sys2Proof.Machine
open Sys2Proof

/-! ### Sleep transitions -/

/-- A direction that has reached its target begins the request that it holds, if any (R171). -/
def State.startHeld (v : State) (l : Nat) (tx : Bool) : Option Nat → State
  | none => v
  | some t => v.requestSleep l tx t

/-- `startHeld`, from what each of its two cases gives. -/
theorem eq_startHeld {v w : State} {l : Nat} {tx : Bool} {held : Option Nat} (hnone : held = none → w = v)
    (hsome : ∀ t, held = some t → w = v.requestSleep l tx t) : w = v.startHeld l tx held := by
  cases held with
  | none => exact hnone rfl
  | some t => exact hsome t rfl

section
variable {u : State} {l e : Nat}

/-- A transmitter whose transition is over is in its target state. -/
theorem sleepEnd_tx_over (he : (u.lane l).tx.endsAt = some e) (ht : e ≤ u.now) : u.sleepEnd l true =
    (((u.wr (Reg.LNQ_SLEEP_TX_STATE l) (u.lane l).tx.target).modLane l fun x =>
      { x with tx := ⟨(u.lane l).tx.target, none, none⟩ }).startHeld l true (u.lane l).tx.held).refreshLane l := by
  simp only [State.sleepEnd, if_true, he, if_neg ht.not_gt]
  cases (u.lane l).tx.held <;> rfl

/-- A receiver whose transition is over is in its target state; out of deep sleep it starts from its stored coefficients (R169). -/
theorem sleepEnd_rx_over (he : (u.lane l).rx.endsAt = some e) (ht : e ≤ u.now) : u.sleepEnd l false =
    (((u.wr (Reg.LNQ_SLEEP_RX_STATE l) (u.lane l).rx.target).modLane l fun x =>
      { x with rx := ⟨(u.lane l).rx.target, none, none⟩, stored := x.stored || u.rd (Reg.LNQ_SLEEP_RX_STATE l) == 2 }).startHeld l false
        (u.lane l).rx.held).refreshLane l := by
  simp only [State.sleepEnd, Bool.false_eq_true, if_false, he, if_neg ht.not_gt]
  cases (u.lane l).rx.held <;> rfl

end

section
variable {s : State} {dt l : Nat} (hon : (s.elapse dt).laneOn l = true)
include hon

/-- The end of a sleep transition completes it on a lane that is on. -/
theorem exec_sleepTransitionEnd_on (tx : Bool) :
    exec (.sleepTransitionEnd dt l tx) s = .next ((s.elapse dt).sleepEnd l tx).settle :=
  congrArg Host.Outcome.next (if_pos hon)

/-! ### Signal, lock and layouts -/

/-- The signal detector asserts: LN_LOS has no cause any more, and a sleeping receiver with WAKE_ON_SIG wakes (R169). -/
theorem exec_laneSignalDetect_on {v : State} (hv : v = ((s.elapse dt).setLstat l 0 true).endCause 0x2301 (srcLane l) l) :
    exec (.laneSignalDetect dt l) s =
      .next (if v.rd (Reg.LNQ_SLEEP_RX_STATE l) ≠ 0 ∧ v.flag (Reg.LNQ_SLEEP_WAKE_ON_SIG l)
        then ((v.wr (Reg.LNQ_SLEEP_RX l) 0).requestSleep l false 0).laneEvent 0x2307 l else v.refreshLane l) := by
  subst hv
  exact congrArg Host.Outcome.next (if_neg (by simp [hon]))

/-- A signal that was there is lost, and the lock with it; an enabled receiver that is awake raises LN_LOS (R174). -/
theorem exec_lnLos_signal (hsig : (s.elapse dt).lstat l 0 = true) {v : State}
    (hv : v = ((((s.elapse dt).setLstat l 0 false).setLstat l 1 false).endCause 0x2302 (srcLane l) l).wr (Reg.LNQ_FOM_FOM l) 0) :
    exec (.lnLos dt l) s = .next ((if v.rd (Reg.LNQ_SLEEP_RX_STATE l) = 0 ∧ v.flag (Reg.LNQ_LCFG_RX_EN l) ∧ v.laneMode l ≠ 0
      then v.laneEvent 0x2301 l else v).refreshLane l) := by
  subst hv
  exact congrArg Host.Outcome.next (if_neg (by simp [hon, hsig]))

/-- A lock that is lost while there is signal raises LN_CDR_UNLOCK (R174). -/
theorem exec_lnCdrUnlock_locked (hsig : (s.elapse dt).lstat l 0 = true) (hlock : (s.elapse dt).lstat l 1 = true) :
    exec (.lnCdrUnlock dt l) s =
      .next (((((s.elapse dt).setLstat l 1 false).wr (Reg.LNQ_FOM_FOM l) 0).laneEvent 0x2302 l).refreshLane l) :=
  congrArg Host.Outcome.next (if_neg (by simp [hon, hsig, hlock]))

/-- The CDR of an enabled receiver locks on a signal (R168). -/
theorem exec_cdrLock_enabled (hsig : (s.elapse dt).lstat l 0 = true) (hen : (s.elapse dt).flag (Reg.LNQ_LCFG_RX_EN l) = true)
    (hm : (s.elapse dt).laneMode l ≠ 0) : exec (.cdrLock dt l) s =
      .next ((((s.elapse dt).setLstat l 1 true).endCause 0x2302 (srcLane l) l).refreshLane l).settle :=
  congrArg Host.Outcome.next (if_neg (by simp [hon, hsig, hen, hm]))

/-- A transmitter in Stave mode latches, at the instant of the latch and once for its superframe, the layout put forward last, or its automatic
or present one; under AUTO the quarter map is that of LAN_SLOTMASK (R192, R193; log entry 95). -/
theorem exec_stxLayoutLatch_due (hm : (s.elapse dt).laneMode l = 1) (hn : (s.elapse dt).latchNow = true)
    (hl : ((s.elapse dt).lane l).latched = none) {y : Layout} (hy : y = ((s.elapse dt).lane l).forward.getD
      (if (s.elapse dt).flag (Reg.LNQ_STX_CTL_AUTO l) then (s.elapse dt).autoLayout l ((s.elapse dt).lane l).qmapSet
        else (s.elapse dt).layoutCur l)) :
    exec (.stxLayoutLatch dt l) s = .next ((s.elapse dt).putLane { (s.elapse dt).lane l with
      forward := none
      latched := some (if (s.elapse dt).flag (Reg.LNQ_STX_CTL_AUTO l) then { y with qmap := ((s.elapse dt).lane l).qmapSet } else y) }) := by
  subst hy
  change execStxLayoutLatch dt l s = _
  simp only [execStxLayoutLatch]
  rw [if_neg (by simp [hon, hm, hn, hl]), hl]
  rfl

end

section
variable {s : State} {dt : Nat}

/-- Off the instant of the latch, and with a layout latched already, nothing is latched (R192). -/
theorem exec_stxLayoutLatch_not {l : Nat} (h : (s.elapse dt).latchNow = false ∨ ((s.elapse dt).lane l).latched.isSome = true) :
    exec (.stxLayoutLatch dt l) s = .next (s.elapse dt) :=
  congrArg Host.Outcome.next (if_pos (.inr (.inr (h.imp_left fun hn => by rw [hn]; rfl))))

/-! ### PLLs -/

section
variable {q : Nat} {b : Bool} (hon : (s.elapse dt).laneOn (4 * q) = true)
include hon

/-- A PLL that loses its lock raises PLL_UNLOCK, and the quad's transmitters follow (R174). -/
theorem exec_pllUnlock_locked (hlock : (s.elapse dt).flag (pllLock q b) = true) : exec (.pllUnlock dt q b) s =
    .next ((((s.elapse dt).wr (pllLock q b) 0).raise 0x2306 (srcLane (4 * q)) (q + 65536 * b01 b)).refreshQuad q) :=
  congrArg Host.Outcome.next (if_neg (by simp [hon, hlock]))

/-- A PLL that a transmitter of its quad uses locks, and PLL_UNLOCK has no cause any more (R174). -/
theorem exec_pllLock_used (huse : ∃ i < 4, (s.elapse dt).usesPll (4 * q + i) b = true) : exec (.pllLock dt q b) s =
    .next ((((s.elapse dt).wr (pllLock q b) 1).endCause 0x2306 (srcLane (4 * q)) (q + 65536 * b01 b)).refreshQuad q).settle := by
  have hany : ((List.range 4).any fun i => (s.elapse dt).usesPll (4 * q + i) b) = true := by
    simpa only [List.any_eq_true, List.mem_range] using huse
  exact congrArg Host.Outcome.next (if_neg (by rw [hon, hany]; decide))

end

/-! ### Windows and adaptation -/

/-- The window of a receiver that runs counts its pattern errors and its figure of merit; another's figure reads 0 (R164). -/
theorem exec_fomWindowEnd_counted {l : Nat} (e : WindowCount) (move : Option Bool) (eq : Option (Nat × Nat)) (fin : Bool) {v : State}
    (hv : v = if (s.elapse dt).rd (Reg.LNQ_PRBS_RX_CHK l) = 0 then s.elapse dt
      else (s.elapse dt).bumpSat (Reg.LNQ_PRBS_ERR_COUNT l) e.pattern) :
    exec (.fomWindowEnd dt l e move eq fin) s = .next (if (s.elapse dt).rxRuns l then (v.fomWindow l e.meanSquare move).eqAsk l eq fin
      else (s.elapse dt).wr (Reg.LNQ_FOM_FOM l) 0) := by
  subst hv
  rfl

/-- An LMS update with FREEZE clear steps the enabled FFE taps of a receiver that runs, then its DFE tap where that is enabled (R166). -/
theorem exec_adaptLmsUpdate_runs {l : Nat} (signs : List Int) (dfe : Int) (hr : (s.elapse dt).rxRuns l = true)
    (hf : (s.elapse dt).flag (Reg.LNQ_ADAPT_FREEZE l) = false) {taps : List Int} {v : State}
    (ht : taps = ((s.elapse dt).lane l).ffe.zipIdx.map fun c => if c.2 = 4 then 256 else lmsStep c.1 (signs.getD c.2 0) 512 511)
    (hv : v = if (s.elapse dt).flag (Reg.LNQ_ADAPT_FFE_EN l) then (s.elapse dt).putLane { (s.elapse dt).lane l with ffe := taps }
      else s.elapse dt) :
    exec (.adaptLmsUpdate dt l signs dfe) s = .next (if v.flag (Reg.LNQ_ADAPT_DFE_EN l)
      then v.wrInt (Reg.LNQ_DFE_TAP l) (lmsStep (v.rdInt (Reg.LNQ_DFE_TAP l)) dfe (v.dfeLimit l) (v.dfeLimit l)) else v) := by
  subst hv ht
  exact congrArg Host.Outcome.next (if_neg (by simp [hr, hf]))

end

/-- Settles O34: each clause is the rule of its event above. The quarter map that AUTO latches is the model's choice (log entry 95). -/
theorem laneEventsTakeEffect : Obligations.LaneEventsTakeEffect := by
  intro dt l s u hu hon
  subst hu
  refine ⟨?sleepTx, ?sleepRx, ?detect, ?los, fun hsig hlock => exec_lnCdrUnlock_locked hon hsig hlock,
    fun hsig hen hm => exec_cdrLock_enabled hon hsig hen hm, ?pllUnlock, ?pllLock, ?window, ?lmsFfe, ?lmsDfe,
    exec_stxLayoutLatch_not, ?latch⟩
  case sleepTx =>
    rintro e he ht v w rfl hnone hsome
    rw [exec_sleepTransitionEnd_on hon, sleepEnd_tx_over he ht, eq_startHeld hnone hsome]
  case sleepRx =>
    rintro e he ht v w rfl hnone hsome
    rw [exec_sleepTransitionEnd_on hon, sleepEnd_rx_over he ht, eq_startHeld hnone hsome]
  case detect => exact fun v hv => exec_laneSignalDetect_on hon hv
  case los => exact fun hsig v hv => exec_lnLos_signal hon hsig hv
  case pllUnlock =>
    rintro q b rfl hlock
    exact exec_pllUnlock_locked hon hlock
  case pllLock =>
    rintro q b rfl huse
    exact exec_pllLock_used hon huse
  case window => exact fun e move eq fin v hv => exec_fomWindowEnd_counted e move eq fin hv
  case lmsFfe =>
    intro signs dfe v hr hf taps ht hv hoff
    exact (exec_adaptLmsUpdate_runs signs dfe hr hf ht hv).trans (congrArg Host.Outcome.next (if_neg (Bool.eq_false_iff.1 hoff)))
  case lmsDfe =>
    rintro signs dfe v lim hr hf taps ht hv hdfe rfl
    exact (exec_adaptLmsUpdate_runs signs dfe hr hf ht hv).trans (congrArg Host.Outcome.next (if_pos hdfe))
  case latch =>
    rintro hm hn hl x y auto rfl rfl hy
    exact exec_stxLayoutLatch_due hon hm hn hl hy

end Sys2Proof.Machine
end

section
/-!
PROOFS. The Stave link's events.
-/
namespace Sys2Proof.Machine
open Sys2Proof

/-! ### What a header leaves of a superframe -/

/-- A superframe without its alignment block, before the miss counts: in UP a good header is taken, and in FEC_SYNC and UP none is a lost one. -/
def State.headerUnaligned (v : State) (l st frac : Nat) : Option (List Byte) → State
  | some h => if st = 3 then (v.modLane l fun x => { x with good := 1 }).takeHeader l h frac else v
  | none => if st = 2 ∨ st = 3 then v.headerLost l else v

/-- `headerUnaligned`, from what each of its two cases gives. -/
theorem eq_headerUnaligned {v w : State} {l st frac : Nat} {hd : Option (List Byte)}
    (hsome : ∀ h, hd = some h → w = (if st = 3 then (v.modLane l fun x => { x with good := 1 }).takeHeader l h frac else v))
    (hnone : hd = none → w = (if st = 2 ∨ st = 3 then v.headerLost l else v)) : w = v.headerUnaligned l st frac hd := by
  cases hd with
  | none => exact hnone rfl
  | some h => exact hsome h rfl

/-- A superframe with its alignment block on the grid, in FEC_SYNC or UP: none is a lost header, and of good ones the fourth takes the receiver
to UP (Table 7.4). -/
def State.headerAligned (v : State) (l st frac lost : Nat) : Option (List Byte) → State
  | none => (v.headerLost l).fecDown l lost
  | some h =>
    if st = 3 then ((v.modLane l fun x => { x with good := 1 }).takeHeader l h frac).fecDown l lost
    else if 4 ≤ (v.lane l).good + 1 then (v.staveState l 3).takeHeader l h frac
    else v.modLane l fun x => { x with good := x.good + 1 }

/-- The receiver `v` notes the alignment block that it finds at the state `u` of the event. -/
def State.noteBlock (v u : State) (l : Nat) : State :=
  v.modLane l fun x => { x with missed := 0, found := if u.blocksApart l = 1 then x.found + 1 else 1, lastBlock := some u.now }

/-! ### What a transmitter sends instead of superframes -/

section
variable {v : State} {l : Nat}

/-- A ready transmitter with a test pattern sends it (R181). -/
theorem sendPattern_ready (hr : v.lstat l 3 = true) (hp : v.rd (Reg.LNQ_PRBS_TX_PAT l) ≠ 0) :
    v.sendPattern l = { v with sent := .pattern l (v.rd (Reg.LNQ_PRBS_TX_PAT l)) :: v.sent } :=
  if_pos ⟨hr, hp⟩

/-- A transmitter that is not ready, or has no test pattern, sends nothing. -/
theorem sendPattern_none (h : v.lstat l 3 = false ∨ v.rd (Reg.LNQ_PRBS_TX_PAT l) = 0) : v.sendPattern l = v :=
  if_neg fun ⟨hr, hp⟩ => h.elim (fun hf => Bool.eq_false_iff.1 hf hr) hp

end

/-! ### Segments of messages -/

/-- A segment joins its message, which passes to its consumer once it is complete, and else leaves its channel as many messages in
reassembly as it may have (R200-R202; log entry 119). -/
theorem takeSegment_eq {w : State} {l : Nat} {cell : List Byte} {x : Lane} {old m : MsgPart} {others : List MsgPart}
    (hx : x = w.lane (w.partLane l))
    (hold : old = (x.msgParts.find? fun z => z.channel == u8 cell 0 && z.id == u32 cell 8).getD ⟨u8 cell 0, u32 cell 8, [], none⟩)
    (hm : m = { old with segments := (u16 cell 12, bytesAt cell 16 (u16 cell 2)) :: old.segments
                         last := if bit (u8 cell 1) 1 then some (u16 cell 12) else old.last })
    (ho : others = x.msgParts.filter fun z => !(z.channel == u8 cell 0 && z.id == u32 cell 8)) :
    w.takeSegment l cell = if m.complete then w.putLane { x with msgParts := others, msgDone := (u8 cell 0, m.payload) :: x.msgDone }
      else w.putLane { x with msgParts := m :: ((others.filter fun z => z.channel == u8 cell 0).take (w.partLimit l - 1) ++
        others.filter fun z => z.channel != u8 cell 0) } := by
  subst ho hm hold hx
  rfl

/-! ### The events -/

section
variable {s : State} {dt l : Nat}

/-- Off S0, nothing changes (R184). -/
theorem exec_staveSuperframeStart_not (h : (s.elapse dt).startsNow l (s.elapse dt).nearSuperframe = false) :
    exec (.staveSuperframeStart dt l) s = .next (s.elapse dt) :=
  congrArg Host.Outcome.next (if_pos (.inr (.inr (by rw [h]; rfl))))

/-- A cell lost to FEC is discarded (R190). -/
theorem exec_staveCellReceive_lost (n : Nat) (cell : List Byte) : exec (.staveCellReceive dt l n cell true) s = .next (s.elapse dt) :=
  congrArg Host.Outcome.next (if_pos (.inr (.inr (.inl rfl))))

/-- A message cell that is lost or damaged, or that comes while the far end sets RDI, changes nothing (R204). -/
theorem exec_msgCellReceive_ignored {cell : List Byte} {lost : Bool} (h : (s.elapse dt).flag (Reg.LNQ_SRX_STAT_RDI l) = true ∨ lost = true ∨
    crc8 (cell.take 15) ≠ BitVec.ofNat 8 (u8 cell 15)) : exec (.msgCellReceive dt l cell lost) s = .next (s.elapse dt) :=
  congrArg Host.Outcome.next (if_pos (.inr (.inr (h.imp_right fun h => .inr (.inr h)))))

section
variable (hon : (s.elapse dt).laneOn l = true)
include hon

/-- At S0 what is on the line ends and the layout latched comes into force; then a superframe is sent, or a test pattern (R184, R189). -/
theorem exec_staveSuperframeStart_due (hm : (s.elapse dt).laneMode l = 1) {k : Nat} {v : State} (hk : k = (s.elapse dt).nearSuperframe)
    (hv : v = ((s.elapse dt).endLine l 8000000).beginLayout l) (h : (s.elapse dt).startsNow l k = true) :
    exec (.staveSuperframeStart dt l) s =
      .next (if v.staveSends l then (v.answerEq l).sendSuperframe l k else v.sendPattern l) := by
  subst hk hv
  exact congrArg Host.Outcome.next (if_neg (by simp [hon, hm, h]))

section
variable {st frac corr cw lost : Nat} {copies : List (List Byte)} {hd : Option (List Byte)}
  (hm : (s.elapse dt).laneMode l = 1) (hrx : (s.elapse dt).lstat l 4 = true)
include hm hrx

/-- A superframe without its alignment block is counted by FEC in FEC_SYNC and UP, has its header taken or lost, and is a missed one. -/
theorem exec_staveSuperframeReceive_missed {v : State} (hst : st = (s.elapse dt).rd (Reg.LNQ_SRX_STAT_STATE l))
    (hhd : hd = goodHeader (copies.filter ((s.elapse dt).loopTakes l)))
    (hv : v = if st = 2 ∨ st = 3 then ((s.elapse dt).fecCounts l corr cw lost).loopBack l (hd.getD []) else s.elapse dt) :
    exec (.staveSuperframeReceive dt l false copies frac corr cw lost) s =
      .next (((v.headerUnaligned l st frac hd).missBlock l).fecDown l lost) := by
  change execStaveSuperframeReceive dt l false copies frac corr cw lost s = _
  simp only [execStaveSuperframeReceive]
  rw [if_neg (by simp [hon, hm, hrx]), ← hst, ← hhd, ← hv]
  cases hd <;> rfl

/-- In ALIGN the second of two blocks a superframe apart takes the receiver to FEC_SYNC (Table 7.4). -/
theorem exec_staveSuperframeReceive_align {v : State} (hst : (s.elapse dt).rd (Reg.LNQ_SRX_STAT_STATE l) = 1)
    (hv : v = (s.elapse dt).noteBlock (s.elapse dt) l) : exec (.staveSuperframeReceive dt l true copies frac corr cw lost) s =
      .next (if 2 ≤ (v.lane l).found then v.staveState l 2 else v) := by
  subst hv
  change execStaveSuperframeReceive dt l true copies frac corr cw lost s = _
  simp only [execStaveSuperframeReceive]
  rw [if_neg (by simp [hon, hm, hrx]), hst]
  rfl

/-- In FEC_SYNC and UP a block off the grid of the one before it is a step of the far end; any other leaves the superframe to its header (R198). -/
theorem exec_staveSuperframeReceive_found {v : State} (hst : st = (s.elapse dt).rd (Reg.LNQ_SRX_STAT_STATE l)) (h23 : st = 2 ∨ st = 3)
    (hhd : hd = goodHeader (copies.filter ((s.elapse dt).loopTakes l)))
    (hv : v = (((s.elapse dt).fecCounts l corr cw lost).loopBack l (hd.getD [])).noteBlock (s.elapse dt) l) :
    exec (.staveSuperframeReceive dt l true copies frac corr cw lost) s =
      .next (if (s.elapse dt).blocksApart l = 0 ∧ ((s.elapse dt).lane l).lastBlock.isSome
        then (v.farStep l).modLane l fun x => { x with found := 1 } else v.headerAligned l st frac lost hd) := by
  have h1 : st ≠ 1 := by omega
  subst hv
  change execStaveSuperframeReceive dt l true copies frac corr cw lost s = _
  simp only [execStaveSuperframeReceive]
  rw [if_neg (by simp [hon, hm, hrx]), ← hst, ← hhd, if_pos h23, if_neg (by simp), if_neg h1]
  cases hd <;> rfl

end

section
variable (hup : (s.elapse dt).rd (Reg.LNQ_SRX_STAT_STATE l) = 3) {cell : List Byte} (hl : (s.elapse dt).loopTakes l cell = true)
include hup hl

/-- A slot cell in UP: that of an inactive position only passes on in a far-end loop, one whose sound header names another slot is counted, and
any other is delivered to the Lamplight Deck (R190). -/
theorem exec_staveCellReceive_position {n p q place : Nat} {split active : Bool} {v : State} (hpos : cellPosition n = some (p, q))
    (hs : split = bit ((s.elapse dt).rd (Reg.LNQ_SRX_QACT_HI_QMAP l)) p)
    (hplace : place = if split then 0x10000 + 4 * (9 * l + p) + q else 9 * l + p)
    (ha : active = if split then bit ((s.elapse dt).rd64 (Reg.LNQ_SRX_QACT_LO_Q l) (Reg.LNQ_SRX_QACT_HI_Q l)) (4 * p + q)
      else bit ((s.elapse dt).rd (Reg.LNQ_SRX_STAT_SLOTS l)) p) (hv : v = (s.elapse dt).loopBack l cell) :
    exec (.staveCellReceive dt l n cell false) s = .next (if !active then v
      else if crc8 (cell.take 15) == BitVec.ofNat 8 (u8 cell 15) ∧ (v.lane l).good = 1 ∧ slotKey (u16 cell 2) (bit (u8 cell 1) 2) ≠ place then
        (v.bump (Reg.LNQ_SRX_HDR_POS_ERR l) 1).raise 0x2406 (srcLane l) l
      else if v.fabricRuns then v.fabricWrite (.receiver l p) cell else v) := by
  subst hv ha hplace hs
  change execStaveCellReceive dt l n cell false s = _
  simp only [execStaveCellReceive]
  rw [if_neg (by simp [hon, hup, hl]), hpos]

section
variable (hrdi : (s.elapse dt).flag (Reg.LNQ_SRX_STAT_RDI l) = false) (htx : (s.elapse dt).lstat l 3 = true)
  (hcrc : crc8 (cell.take 15) = BitVec.ofNat 8 (u8 cell 15)) {g : Nat} {v : State} {y : Lane}
  (hv : v = if g = 0 then s.elapse dt else (s.elapse dt).loseMessage l) (hy : y = v.lane l)
include hrdi htx hcrc hv hy

/-- An empty message cell carries the sequence, and returns the credits of a gap in it (R201, R204). -/
theorem exec_msgCellReceive_empty (h0 : u8 cell 0 = 0) (hg : g = sub32 (sub32 (u32 cell 4) ((s.elapse dt).lane l).msgSeq) 0) :
    exec (.msgCellReceive dt l cell false) s = .next (v.putLane { y with msgSeq := u32 cell 4, creditsOut := (y.creditsOut + g) % 256 }) := by
  subst hy
  change execMsgCellReceive dt l cell false s = _
  simp only [execMsgCellReceive]
  rw [if_neg (by simp [hon, hup, hl, hrdi, htx, hcrc]), if_pos h0, ← hg, ← hv]
  rfl

/-- Any other message cell returns its credit too, and its segment joins its message (R200, R201, R204). -/
theorem exec_msgCellReceive_segment (h0 : u8 cell 0 ≠ 0) (hg : g = sub32 (sub32 (u32 cell 4) ((s.elapse dt).lane l).msgSeq) 1) :
    exec (.msgCellReceive dt l cell false) s =
      .next ((v.putLane { y with msgSeq := u32 cell 4, creditsOut := (y.creditsOut + 1 + g) % 256 }).takeSegment l cell) := by
  subst hy
  change execMsgCellReceive dt l cell false s = _
  simp only [execMsgCellReceive]
  rw [if_neg (by simp [hon, hup, hl, hrdi, htx, hcrc]), if_neg h0, ← hg, ← hv]
  rfl

end
end
end
end

/-- Settles O35: each clause is the rule of its event above. That Message sequence counts the cell that carries it, how a message that lost a
cell is counted, and that the quarter-active set alone says what is active of a split position are the model's choices (log entries 117, 119
and 129). -/
theorem staveEventsTakeEffect : Obligations.StaveEventsTakeEffect := by
  intro dt l s u hu hon hm
  subst hu
  refine ⟨?start, ?missed, ?align, ?found, exec_staveCellReceive_lost, ?slotCell, fun _ _ _ _ _ => exec_msgCellReceive_ignored, ?empty, ?segment⟩
  case start =>
    rintro k v hk hv
    refine ⟨fun h => exec_staveSuperframeStart_not (hk ▸ h), fun h hs => ?_, fun h hs hr hp => ?_, fun h hs hn => ?_⟩ <;>
      rw [exec_staveSuperframeStart_due hon hm hk hv h, hs]
    · rfl
    · exact congrArg Host.Outcome.next (sendPattern_ready hr hp)
    · exact congrArg Host.Outcome.next (sendPattern_none hn)
  case missed =>
    intro hrx copies frac corr cw lost st hd v w hst hhd hv hsome hnone
    rw [exec_staveSuperframeReceive_missed hon hm hrx hst hhd hv, eq_headerUnaligned hsome hnone]
  case align => exact fun hrx copies frac corr cw lost v hv hst => exec_staveSuperframeReceive_align hon hm hrx hst hv
  case found =>
    intro hrx copies frac corr cw lost st hd v hst h23 hhd hv
    have hx := exec_staveSuperframeReceive_found (frac := frac) hon hm hrx hst h23 hhd hv
    refine ⟨fun h0 hlast => hx.trans (congrArg Host.Outcome.next (if_pos ⟨h0, hlast⟩)), fun hgrid => ?_⟩
    rw [if_neg fun ⟨h0, hlast⟩ => hgrid.elim (· h0) fun hn => by simp [hn] at hlast] at hx
    refine ⟨fun hn => ?_, fun h hs h3 => ?_, fun h hs h2 => ?_⟩
    · rw [hx, hn]; rfl
    · rw [hx, hs, h3]; rfl
    · rw [hx, hs, h2]; rfl
  case slotCell =>
    intro n cell p q split place active v hup hpos hl hs hplace ha hv
    rw [exec_staveCellReceive_position hon hup hl hpos hs hplace ha hv]
    refine ⟨fun hi => ?inactive, fun hi hown hrun => ?own, fun hi hother hcrc hgood => ?other⟩
    case inactive => simp [hi]
    case own => simp [hi, hown, hrun]
    case other => simp [hi, hother, hcrc, hgood]
  case empty =>
    intro cell g v y hup hrdi htx hl hcrc h0 hg hv hy
    exact exec_msgCellReceive_empty hon hup hl hrdi htx hcrc hv hy h0 hg
  case segment =>
    rintro cell g v y w home x old m others hup hrdi htx hl hcrc h0 hg hv hy rfl rfl hx hold hjoin ho
    rw [exec_msgCellReceive_segment hon hup hl hrdi htx hcrc hv hy h0 hg, takeSegment_eq hx hold hjoin ho]
    refine ⟨fun hc => congrArg Host.Outcome.next (if_pos hc), ?_⟩
    rintro hc ps rfl
    exact congrArg Host.Outcome.next (if_neg (Bool.eq_false_iff.1 hc))

end Sys2Proof.Machine
end

section
/-!
PROOFS. The NET commands of the ports, rings and modules.
-/
namespace Sys2Proof.Machine
open Sys2Proof

section
variable {u : State} {x : Ctx} {p : List Byte}

/-- NET_PORT_CONFIG whose MACsec keys are all usable applies its records in order, and waits for the link where a MODE record enables its port
(R213, R241). -/
theorem run_netPortConfig_keysUsable {rs : List Nat} {v : State} (hrs : rs = portRecords p (u8 p 2) 8)
    (hk : ∀ o ∈ rs, u8 p o = 4 → bit (u8 p (o + 7)) 1 = false → u.slotStatus (u16 p (o + 16)) .macsec = 0)
    (hv : v = if rs.any fun o => u8 p o == 5 || u8 p o == 6 then (rs.foldl (fun t o => t.applyRecord p o) u).storeChanged
      else rs.foldl (fun t o => t.applyRecord p o) u) :
    opNetPortConfig.run u x p = if rs.any fun o => u8 p o == 1 && bit (u8 p (o + 5)) 1
      then Done.pending ((v.linkAwaited (u16 p 0)).await
        ⟨x.tag, x.session, x.entry, .linkUp (u16 p 0) u.now, some (u.now + 5 * 10 ^ 9 - 1)⟩) []
      else Done.ok v [] := by
  have hnone : (rs.find? fun o => u8 p o == 4 && !bit (u8 p (o + 7)) 1 && u.slotStatus (u16 p (o + 16)) .macsec != 0) = none := by
    simpa [List.find?_eq_none] using hk
  subst hrs hv
  simp only [opNetPortConfig, hnone]

/-- NET_RING_SETUP of a steering rule writes that rule (R242). -/
theorem run_netRingSetup_steering (hk : u8 p 2 = 2) : opNetRingSetup.run u x p = Done.ok
    ((((u.wr (Reg.NET_STEER_ETYPE (u16 p 0) (u8 p 3)) (u16 p 14)).wr (Reg.NET_STEER_PROTO (u16 p 0) (u8 p 3)) (u8 p 16)).wr
      (Reg.NET_STEER_RING (u16 p 0) (u8 p 3)) (u8 p 17)).wr (Reg.NET_STEER_L4PORT (u16 p 0) (u8 p 3)) (u16 p 18)) [] :=
  if_pos hk

/-- NET_RING_SETUP of a ring writes its base, its interrupt and its size (R242). -/
theorem run_netRingSetup_ring (hr : u8 p 2 ≠ 2) {n k : Nat} (hn : n = u16 p 0) (hk : k = if u8 p 2 = 0 then u8 p 3 else 5 + u8 p 3) :
    opNetRingSetup.run u x p = Done.ok
      (((u.wr64 (Reg.NET_RING_BASE_LO_ADDR n k) (Reg.NET_RING_BASE_HI_ADDR n k) (u64 p 4)).wr (Reg.NET_RING_IRQ_EN_CORE n k)
        (u8 p 13)).ringResize n k (u8 p 12)) [] := by
  subst hn hk
  exact if_neg hr

/-! ### NET_MODULE_INFO (R243) -/

/-- An empty cage reads as zeros. -/
theorem run_netModuleInfo_empty (h : (u.bus (u8 p 0)).seen = none) : opNetModuleInfo.run u x p = Done.ok u (zeros 88) := by
  simp only [opNetModuleInfo, h]

/-- A module's text, cut or padded with zeros, has the length of its field of the reply. -/
theorem moduleField_length (n : Nat) (b : List Byte) : (b.take n).length + (n - b.length) = n := by
  rw [List.length_take]
  omega

/-- The reply to NET_MODULE_INFO for a module that is seen has 88 bytes and begins with the cage number. -/
theorem run_netModuleInfo_seen {m : ModuleId} (h : (u.bus (u8 p 0)).seen = some m) :
    (opNetModuleInfo.run u x p).payload.length = 88 ∧ (opNetModuleInfo.run u x p).payload.take 1 = be8 (u8 p 0) := by
  simp only [opNetModuleInfo, h, Done.ok]
  refine ⟨?_, ?_⟩
  · simp only [List.length_append, moduleField_length, be8_length, be16_length, be32_length, zeros_length]
  · simp only [List.append_assoc]
    exact List.take_left' (be8_length _)

/-- NET_MODULE_INFO is executed with its reply, and changes nothing. -/
theorem run_netModuleInfo_ok (u : State) (x : Ctx) (p : List Byte) :
    opNetModuleInfo.run u x p = Done.ok u (opNetModuleInfo.run u x p).payload := by
  unfold opNetModuleInfo
  dsimp only
  split <;> rfl

/-- The reply to NET_MODULE_INFO has 88 bytes, whether a module is seen or not. -/
theorem run_netModuleInfo_length (u : State) (x : Ctx) (p : List Byte) : (opNetModuleInfo.run u x p).payload.length = 88 := by
  cases h : (u.bus (u8 p 0)).seen with
  | none => rw [run_netModuleInfo_empty h, Done.ok, zeros_length]
  | some m => exact (run_netModuleInfo_seen h).1

end

/-- Settles O19: an admitted command is what its execution gives, weighed by Cruise where it is a change, and concluded. -/
theorem ethernetCommandsComplete : Obligations.EthernetCommandsComplete := by
  intro dt rq s u p
  refine ⟨?portConfig, ?steering, ?ring, ?moduleInfo⟩
  case portConfig =>
    rintro h rs hrs hk v hv d rfl hfit
    exact next_weighed h rfl (run_netPortConfig_keysUsable hrs hk hv)
      (Done.ite_status_lt (Done.pending_status_lt _ _) (Done.ok_status_lt _ _)) hfit
  case steering =>
    rintro h hk n i rfl rfl
    exact next_serve h rfl (run_netRingSetup_steering hk)
  case ring =>
    intro h hr n k hn hk
    exact next_serve h rfl (run_netRingSetup_ring hr hn hk)
  case moduleInfo =>
    rintro h pl rfl
    refine ⟨run_netModuleInfo_length u _ p, fun hnone => ?_, fun hsome => ?_, next_serve h rfl (run_netModuleInfo_ok u _ p)⟩
    · rw [run_netModuleInfo_empty hnone, Done.ok]
    · obtain ⟨m, hm⟩ := Option.ne_none_iff_exists'.1 hsome
      exact (run_netModuleInfo_seen hm).2

end Sys2Proof.Machine
end

section
/-!
PROOFS. The link, frame and pause events of the Ethernet ports.
-/
namespace Sys2Proof.Machine
open Sys2Proof

/-! ### Pause frames (R221) -/

/-- When the pause of so many quanta that a frame asks of port `p` ends: its time counts from the end of the frame in progress. -/
def State.pauseTill (w : State) (p quanta : Nat) : Option Nat :=
  if quanta = 0 then none
  else some (max (w.now * 1000) ((w.netPort p).busy - bitTime 96 (w.portRate p)) + bitTime (512 * quanta) (w.portRate p))

section
variable {w : State} {p : Nat} {b : List Byte}

/-- A MAC Control frame with one of the two opcodes is a PAUSE or PFC frame. -/
theorem isPause_of_opcode (ht : u16 b 12 = 0x8808) (hop : u16 b 14 = 0x0001 ∨ u16 b 14 = 0x0101) : isPause b = true := by
  simpa [isPause, ht] using hop

/-- With FC_MODE 1 a PAUSE frame stops or resumes the queues Q0-Q5. -/
theorem takePause_pause (hm : w.rd (Reg.NET_CTL_FC_MODE p) = 1) (hop : u16 b 14 = 0x0001) : w.takePause p b =
    (w.modNetPort p fun x => (List.range 6).foldl (fun y q => y.pause w.now 8 q (w.pauseTill p (u16 b 16))) x).stormCauses p :=
  if_pos ⟨hm, hop⟩

/-- With FC_MODE 2 a PFC frame stops or resumes the queues of the priorities that it names. -/
theorem takePause_pfc (hm : w.rd (Reg.NET_CTL_FC_MODE p) = 2) (hop : u16 b 14 = 0x0101) : w.takePause p b =
    (w.modNetPort p fun x => (List.range 8).foldl (fun y n =>
      if bit (u16 b 16) n ∧ w.rd (Reg.NET_PFC_MAP_MAP p) / 16 ^ n % 16 ≤ 5
      then y.pause w.now n (w.rd (Reg.NET_PFC_MAP_MAP p) / 16 ^ n % 16) (w.pauseTill p (u16 b (18 + 2 * n))) else y) x).stormCauses p :=
  (if_neg fun h => by simp [hm] at h).trans (if_pos ⟨hm, hop⟩)

/-- A frame of the kind that FC_MODE does not select asks nothing of the queues. -/
theorem takePause_unselected (h1 : u16 b 14 = 0x0001 → w.rd (Reg.NET_CTL_FC_MODE p) ≠ 1)
    (h2 : u16 b 14 = 0x0101 → w.rd (Reg.NET_CTL_FC_MODE p) ≠ 2) : w.takePause p b = w :=
  (if_neg fun h => h1 h.2 h.1).trans (if_neg fun h => h2 h.2 h.1)

end

/-! ### What becomes of a received frame -/

/-- A frame that MACsec has passed on goes to the host where no flow or service of the part takes it (R224, R228). -/
def State.afterMacsec (m : State) (p : Nat) : Option (List Byte × Bool × Bool) → State
  | none => m
  | some (c, verified, failed) => if (m.flowOf p c).isSome ∨ m.serviceOf p c then m else m.deliver p c verified failed

/-- A frame that the MAC has passed on is one of flow control, or goes to MACsec (R221, R228). -/
def State.afterMac (v : State) (p : Nat) : Option (List Byte) → State
  | none => v
  | some b => if isPause b then v.countPause p b else (v.macsecTake p b).1.afterMacsec p (v.macsecTake p b).2

section
variable {v w : State} {p : Nat} {b c : List Byte}

theorem afterMac_pause (hb : isPause b = true) : v.afterMac p (some b) = (v.bump (Reg.NET_PAUSE_RX_COUNT p) 1).takePause p b :=
  if_pos hb

theorem afterMac_macsec {o : Option (List Byte × Bool × Bool)} (hb : isPause b = false) (hm : v.macsecTake p b = (w, o)) :
    v.afterMac p (some b) = w.afterMacsec p o := by
  rw [State.afterMac, if_neg (Bool.eq_false_iff.1 hb), hm]

theorem afterMacsec_host (verified failed : Bool) (hf : (w.flowOf p c).isSome = false) (hs : w.serviceOf p c = false) :
    w.afterMacsec p (some (c, verified, failed)) = w.deliver p c verified failed :=
  if_neg (by simp [hf, hs])

end

section
variable {s : State} {dt p : Nat}

/-- A frame on a port that is on and up reaches the MAC. -/
theorem exec_hostFrameReceive_up {bytes : List Byte} {full : Bool} {v : State} {o : Option (List Byte)}
    (hon : (s.elapse dt).portOn p = true) (hup : (s.elapse dt).linkUp p = true) (ht : (s.elapse dt).macTake p bytes full = (v, o)) :
    exec (.hostFrameReceive dt p bytes full) s = .next (v.afterMac p o) := by
  change execHostFrameReceive dt p bytes full s = _
  simp only [execHostFrameReceive]
  rw [if_neg (by simp [hon, hup]), ht]
  cases o with
  | none => rfl
  | some b => dsimp only [State.afterMac]; cases (v.macsecTake p b).2 <;> rfl

section
variable {bytes : List Byte} {v : State} (hon : (s.elapse dt).portOn p = true) (hup : (s.elapse dt).linkUp p = true)
include hon hup

/-- A pause frame that the MAC discards ends there (R215). -/
theorem exec_pauseFrameReceive_dropped (ht : (s.elapse dt).macTake p bytes false = (v, none)) :
    exec (.pauseFrameReceive dt p bytes) s = .next v := by
  change execPauseFrameReceive dt p bytes s = _
  simp only [execPauseFrameReceive]
  rw [if_neg (by simp [hon, hup]), ht]

/-- A pause frame that passes the MAC is counted and acts on the queues (R221). -/
theorem exec_pauseFrameReceive_taken {b : List Byte} (ht : (s.elapse dt).macTake p bytes false = (v, some b)) (hb : isPause b = true) :
    exec (.pauseFrameReceive dt p bytes) s = .next ((v.bump (Reg.NET_PAUSE_RX_COUNT p) 1).takePause p b) := by
  change execPauseFrameReceive dt p bytes s = _
  simp only [execPauseFrameReceive]
  rw [if_neg (by simp [hon, hup]), ht]
  exact congrArg Host.Outcome.next (if_pos hb)

end

/-! ### Links -/

/-- The link of a formed and enabled port comes up with what training has settled on its lanes (R213). -/
theorem exec_ethLinkUp_enabled {lanes : List LaneTraining} {v : State} (hf : (s.elapse dt).portFormed p = true)
    (hon : (s.elapse dt).portOn p = true) (hen : (s.elapse dt).flag (Reg.NET_CTL_EN p) = true) (hdown : (s.elapse dt).linkUp p = false)
    (hv : v = (lanes.take ((s.elapse dt).portLanes p)).zipIdx.foldl (fun t x => t.trainLane (p + x.2) x.1) (s.elapse dt)) :
    exec (.ethLinkUp dt ⟨p, lanes⟩) s =
      .next ((((((v.wr (Reg.NET_STAT_LINK p) 1).wr (Reg.NET_STAT_AN_DONE p) 1).wr (Reg.NET_STAT_FEC_LOCK p) 1).modNetPort p
        fun x => { x with bringUp := none }).endCause 0x2501 (srcPort p) p).legsUp p).settle := by
  subst hv
  exact congrArg Host.Outcome.next (if_neg (by simp [hf, hon, hen, hdown]))

/-- A lost link of a media port raises ETH_LINK_DOWN (R240). -/
theorem raiseLinkDown_media (v : State) (hp : p < 64) : v.raiseLinkDown p = v.raise 0x2501 (srcPort p) p := if_pos hp

/-- A lost link of a management port raises MGT_LINK_DOWN (R240). -/
theorem raiseLinkDown_management (v : State) (m : Nat) : v.raiseLinkDown (64 + m) = v.raise 0x250C (srcPort (64 + m)) (64 + m) :=
  if_neg (by omega)

/-- A media port that loses its link loses its queued frames (R213). -/
theorem exec_ethLinkDown_up (hp : p < 64) (hup : (s.elapse dt).linkUp p = true) :
    exec (.ethLinkDown dt p) s = .next (((s.elapse dt).linkLost p).raise 0x2501 (srcPort p) p) := by
  rw [← raiseLinkDown_media _ hp]
  exact congrArg Host.Outcome.next (if_neg (by simp [hp, hup]))

/-- A management port that loses its link loses its queued frames (R240). -/
theorem exec_mgtLinkDown_up {m : Nat} (hm : m < 2) (hup : (s.elapse dt).linkUp (64 + m) = true) :
    exec (.mgtLinkDown dt m) s = .next (((s.elapse dt).linkLost (64 + m)).raise 0x250C (srcPort (64 + m)) (64 + m)) := by
  rw [← raiseLinkDown_management]
  exact congrArg Host.Outcome.next (if_neg (by simp [hm, hup]))

/-- The link of a management port that is on comes up (R240). -/
theorem exec_mgtLinkUp_on {m : Nat} (hm : m < 2) (hon : (s.elapse dt).portOn (64 + m) = true) : exec (.mgtLinkUp dt m) s =
    .next (((s.elapse dt).wr (Reg.NET_STAT_LINK (64 + m)) 1).endCause 0x250C (srcPort (64 + m)) (64 + m)) :=
  congrArg Host.Outcome.next (if_neg (by simp [hm, hon]))

/-- A link that is not up 5 s after it began to come up raises ETH_AN_FAIL, and a later command has its own 5 s (R213). -/
theorem exec_ethAnFail_due {t : Nat} (ht : ((s.elapse dt).netPort p).bringUp = some t) (hp : p < 64)
    (hdown : (s.elapse dt).linkUp p = false) (hdue : t + 5 * 10 ^ 9 ≤ (s.elapse dt).now) : exec (.ethAnFail dt p) s =
      .next (((s.elapse dt).raise 0x2502 (srcPort p) p).modNetPort p fun x => { x with bringUp := (s.elapse dt).nextBringUp p t }).settle := by
  change execEthAnFail dt p s = _
  simp only [execEthAnFail, ht]
  rw [if_neg (by simp only [hdown, hp.not_ge, hdue.not_gt, Bool.false_eq_true, or_self, not_false_eq_true])]

/-- A second with more uncorrectable codewords than the threshold raises ETH_FEC_DEGRADE (R240). -/
theorem exec_ethFecDegrade_over {n : Nat} (hf : (s.elapse dt).portFormed p = true) (hon : (s.elapse dt).portOn p = true)
    (hn : (s.elapse dt).rd (Reg.NET_FECTH_CW p) < n) : exec (.ethFecDegrade dt p n) s = .next ((s.elapse dt).raise 0x2503 (srcPort p) p) :=
  congrArg Host.Outcome.next (if_pos ⟨hf, hon, hn⟩)

/-! ### Transmission -/

/-- What a MAC that is on and has sent its last frame rules out. -/
theorem mac_free {u : State} (hon : u.portOn p = true) (hfree : (u.netPort p).busy ≤ u.now * 1000) :
    ¬ ((!u.portOn p) = true ∨ u.now * 1000 < (u.netPort p).busy) := by
  simp [hon, hfree]

section
variable {starved : Bool} {v : State} (hon : (s.elapse dt).portOn p = true)
  (hfree : ((s.elapse dt).netPort p).busy ≤ (s.elapse dt).now * 1000)
  (hv : v = ([4, 3, 2, 1, 0] : List Nat).foldl (fun t k => t.fetchHost p k) ((s.elapse dt).joinQueue p))
include hon hfree hv

/-- While no queue may send, the MAC sends nothing (R218, R219). -/
theorem exec_macFrameTransmit_idle (hup : v.linkUp p = true) (hq : v.nextQueue p = none) :
    exec (.macFrameTransmit dt p starved) s = .next v := by
  change execMacFrameTransmit dt p starved s = _
  simp only [execMacFrameTransmit]
  rw [if_neg (mac_free hon hfree), ← hv, if_neg (by simp [hup]), hq]

/-- The head of the next queue is sent whole where its data is there in time (R218, R220). -/
theorem exec_macFrameTransmit_sends {q : Nat} {f : TxFrame} (hup : v.linkUp p = true) (hq : v.nextQueue p = some q)
    (hf : (v.netPort p).queues.find? (fun f => f.queue == q) = some f)
    (hu : (starved && decide (q < 5) &&
      (v.netPort p).queues.any fun g => g.queue == q && decide (v.rd (Reg.NET_TXSTART_BYTES p q) < g.bytes.length)) = false) :
    exec (.macFrameTransmit dt p starved) s = .next ((v.modNetPort p fun x => x.popQueue q).sendFrame p f false) := by
  change execMacFrameTransmit dt p starved s = _
  simp only [execMacFrameTransmit]
  rw [if_neg (mac_free hon hfree), ← hv, if_neg (by simp [hup]), hq]
  simp only [hu, Bool.false_eq_true, if_false, hf]

/-- While the link is down the first frame of Q0-Q5 and Q7 is discarded and counted (R213). -/
theorem exec_macFrameTransmit_linkDown {f : TxFrame} (hdown : v.linkUp p = false)
    (hf : (v.netPort p).queues.find? (fun f => f.queue != 6) = some f) : exec (.macFrameTransmit dt p starved) s =
      .next (((v.bump (Reg.NET_TX_LINKDOWN_DROP_COUNT p) 1).modNetPort p fun x => { x with queues := x.queues.erase f }).dropFrame p f 3) := by
  change execMacFrameTransmit dt p starved s = _
  simp only [execMacFrameTransmit]
  rw [if_neg (mac_free hon hfree), ← hv, if_pos (by simp [hdown]), hf]

end

/-! ### Pause times, storms and holds -/

/-- An entry is of the queue `q`, and what is asked of its time holds. -/
theorem beq_and_decide {a q : Nat} {c : Prop} [Decidable c] (hq : a = q) (hc : c) : (a == q && decide c) = true := by
  simp [hq, hc]

/-- Pauses of a queue whose time is over end, as do those that it has ignored in its hold (R221, R222). -/
theorem exec_pauseExpiry_due {q : Nat} {live : Pause → Bool}
    (hl : live = fun a => !(a.queue == q && decide (a.endsAt ≤ (s.elapse dt).now * 1000)))
    (h : ∃ a ∈ ((s.elapse dt).netPort p).pauses ++ ((s.elapse dt).netPort p).ignored, a.queue = q ∧ a.endsAt ≤ (s.elapse dt).now * 1000) :
    exec (.pauseExpiry dt p q) s = .next (((s.elapse dt).modNetPort p fun x =>
      { x with pauses := x.pauses.filter live, ignored := x.ignored.filter live }).stormCauses p) := by
  subst hl
  obtain ⟨a, ha, hq, ht⟩ := h
  exact congrArg Host.Outcome.next (if_pos (List.any_eq_true.2 ⟨a, ha, beq_and_decide hq ht⟩))

/-- A queue stopped for the time of the watchdog resumes, ignores its pauses for the hold, and raises ETH_PAUSE_STORM (R222). -/
theorem exec_ethPauseStorm_due {q : Nat}
    (h : ∃ a ∈ ((s.elapse dt).netPort p).pauses,
      a.queue = q ∧ a.since + (s.elapse dt).rd (Reg.NET_PAUSE_WD_MS p) * 10 ^ 6 ≤ (s.elapse dt).now) :
    exec (.ethPauseStorm dt p q) s = .next (((s.elapse dt).modNetPort p fun x => { x with
      pauses := x.pauses.filter fun a => a.queue != q
      holds := (q, (s.elapse dt).now + (s.elapse dt).rd (Reg.NET_PAUSE_WD_HOLD_MS p) * 10 ^ 6) :: x.holds
      ignored := x.ignored ++ x.pauses.filter fun a => a.queue == q }).raise 0x2504 (srcPort p) q) := by
  obtain ⟨a, ha, hq, ht⟩ := h
  exact congrArg Host.Outcome.next (if_pos (List.any_eq_true.2 ⟨a, ha, beq_and_decide hq ht⟩))

/-- The hold of a queue ends, and with it the cause of its storm (R222). -/
theorem exec_pauseHoldExpiry_due {q : Nat} (h : ∃ a ∈ ((s.elapse dt).netPort p).holds, a.1 = q ∧ a.2 ≤ (s.elapse dt).now) :
    exec (.pauseHoldExpiry dt p q) s = .next (((s.elapse dt).modNetPort p fun x =>
      { x with holds := x.holds.filter fun a => a.1 != q, ignored := x.ignored.filter fun a => a.queue != q }).endCause 0x2504 (srcPort p) q) := by
  obtain ⟨a, ha, hq, ht⟩ := h
  exact congrArg Host.Outcome.next (if_pos (List.any_eq_true.2 ⟨a, ha, beq_and_decide hq ht⟩))

end

/-- Settles O36: each clause is the rule of its event above. That the object of a queue's event is its index, and until when the
cause of a storm lasts, are the model's choices (log entries 107 and 109). -/
theorem ethernetEventsTakeEffect : Obligations.EthernetEventsTakeEffect := by
  intro dt p s u hu
  subst hu
  refine ⟨?linkUp, exec_ethLinkDown_up, fun t => exec_ethAnFail_due, fun m => exec_mgtLinkUp_on, fun m => exec_mgtLinkDown_up,
    fun n => exec_ethFecDegrade_over, ?frame, ?transmit, ?pauseFrame, fun q live => exec_pauseExpiry_due, ?storm,
    fun q => exec_pauseHoldExpiry_due⟩
  case linkUp => exact fun hf hon hen hdown lanes v hv => exec_ethLinkUp_enabled hf hon hen hdown hv
  case frame =>
    intro bytes full v hon hup
    refine ⟨exec_hostFrameReceive_up hon hup, fun b ht hb => ?pause, fun b w ht hb hm => ?rejected, fun b w c x y ht hb hm hf hs => ?host⟩
    case pause => rw [exec_hostFrameReceive_up hon hup ht, afterMac_pause hb]
    case rejected => rw [exec_hostFrameReceive_up hon hup ht, afterMac_macsec hb hm, State.afterMacsec]
    case host => rw [exec_hostFrameReceive_up hon hup ht, afterMac_macsec hb hm, afterMacsec_host x y hf hs]
  case transmit =>
    intro starved v hon hfree hv
    exact ⟨exec_macFrameTransmit_idle hon hfree hv, fun q f => exec_macFrameTransmit_sends hon hfree hv,
      fun f => exec_macFrameTransmit_linkDown hon hfree hv⟩
  case pauseFrame =>
    rintro bytes v w b till hon hup rfl
    refine ⟨exec_pauseFrameReceive_dropped hon hup, ?_⟩
    rintro ht htype rfl
    have hx (hop : u16 b 14 = 0x0001 ∨ u16 b 14 = 0x0101) := exec_pauseFrameReceive_taken hon hup ht (isPause_of_opcode htype hop)
    refine ⟨fun hop hm => ?pause, fun hop hm => ?pauseUnselected, fun hop hm => ?pfcUnselected, fun hop hm => ?pfc⟩
    case pause => exact (hx (.inl hop)).trans (congrArg Host.Outcome.next (takePause_pause hm hop))
    case pauseUnselected => rw [hx (.inl hop), takePause_unselected (fun _ => hm) (by simp [hop])]
    case pfcUnselected => rw [hx (.inr hop), takePause_unselected (by simp [hop]) fun _ => hm]
    case pfc => exact (hx (.inr hop)).trans (congrArg Host.Outcome.next (takePause_pfc hm hop))
  case storm =>
    rintro q h hs rfl
    exact exec_ethPauseStorm_due hs

end Sys2Proof.Machine
end

section
/-!
PROOFS. The service frames of the management ports and the module events.
-/
namespace Sys2Proof.Machine
open Sys2Proof

section
variable {s : State} {dt : Nat}

/-! ### Service frames (R35, R233) -/

/-- The reply of management port `p` to the ARP request `b` for its address `own`. -/
def arpReply (p own : Nat) (b : List Byte) : List Byte :=
  etherHeader (u48 b 6) (macAddress p) (headers b).tci 0x0806 ++ (be16 1 ++ be16 0x0800 ++ be8 6 ++ be8 4 ++ be16 2 ++
    beBytes 6 (macAddress p) ++ be32 own ++ bytesAt b ((headers b).l3 + 8) 10)

section
variable {m : Nat} {bytes : List Byte} {v : State} (hm : m < 2) (hup : (s.elapse dt).linkUp (64 + m) = true)
  (haddr : (s.elapse dt).mgtAddress (64 + m) ≠ 0)
include hm hup haddr

/-- A service frame that the MAC discards ends there. -/
theorem exec_mgtServiceFrame_dropped (ht : (s.elapse dt).macTake (64 + m) bytes false = (v, none)) :
    exec (.mgtServiceFrame dt m bytes) s = .next v := by
  change execMgtServiceFrame dt m bytes s = _
  simp only [execMgtServiceFrame]
  rw [if_neg (by simp [hm, hup, haddr]), ht]

variable {b : List Byte} (ht : (s.elapse dt).macTake (64 + m) bytes false = (v, some b))
include ht

/-- An ARP request for the port's address is answered. -/
theorem exec_mgtServiceFrame_arp (he : (headers b).etype = 0x0806) (hop : u16 b ((headers b).l3 + 6) = 1)
    (hown : u32 b ((headers b).l3 + 24) = (s.elapse dt).mgtAddress (64 + m)) : exec (.mgtServiceFrame dt m bytes) s =
      .next (v.queueFrame (64 + m) (firmwareFrame 5 (arpReply (64 + m) ((s.elapse dt).mgtAddress (64 + m)) b))) := by
  change execMgtServiceFrame dt m bytes s = _
  simp only [execMgtServiceFrame]
  rw [if_neg (by simp [hm, hup, haddr]), ht]
  exact congrArg Host.Outcome.next (if_pos ⟨he, hop, hown⟩)

/-- An IPv4 fragment for the Cyxel port, being neither ARP nor ICMP, is discarded and counted. -/
theorem exec_mgtServiceFrame_fragment (he : (headers b).etype ≠ 0x0806) (hp : (headers b).proto ≠ 1) (hc : v.cyxelPiece (64 + m) b = true) :
    exec (.mgtServiceFrame dt m bytes) s = .next (v.bump Reg.CYX_DISCARD_COUNT 1) := by
  change execMgtServiceFrame dt m bytes s = _
  simp only [execMgtServiceFrame]
  rw [if_neg (by simp [hm, hup, haddr]), ht]
  exact congrArg Host.Outcome.next ((if_neg fun h => he h.1).trans ((if_neg fun h => hp h.2.1).trans (if_pos hc)))

end

/-! ### Polls (R235) -/

section
variable {reads : List ModuleRead}

/-- What PD01 and running firmware together rule out. -/
theorem firmware_runs {u : State} (hon : u.domOn 1 = true) (hf : u.boot.firmwareSince.isSome = true) :
    ¬ ((!u.domOn 1) = true ∨ u.boot.firmwareSince.isNone = true) := by
  simp [hon, Option.isSome_iff_ne_none.1 hf]

section
variable (hon : (s.elapse dt).domOn 1 = true) (hf : (s.elapse dt).boot.firmwareSince.isSome = true)
include hon hf

/-- Where firmware runs, HOLD defers the poll and notes since when; without it every bus is polled. -/
theorem exec_modulePoll_running : exec (.modulePoll dt reads) s = .next (if (s.elapse dt).flag Reg.MOD_CTL_HOLD
    then { s.elapse dt with net := { (s.elapse dt).net with holdSince := some ((s.elapse dt).net.holdSince.getD (s.elapse dt).now) } }
    else { s.elapse dt with net := { (s.elapse dt).net with holdSince := none } }.pollModules reads) :=
  congrArg Host.Outcome.next (if_neg (firmware_runs hon hf))

/-- A life sample counts for each bus that exists (R237). -/
theorem exec_moduleLifeSample_running (samples : List (Nat × Int × Bool × Nat)) : exec (.moduleLifeSample dt samples) s =
    .next ((samples.filter fun x => decide (x.1 < 16)).foldl (fun t x => t.lifeSample x.1 x.2.1 x.2.2.1 x.2.2.2) (s.elapse dt)) :=
  congrArg Host.Outcome.next (if_neg (firmware_runs hon hf))

end

/-- After 5 s of HOLD one poll is let through, and HOLD counts anew. -/
theorem exec_moduleHoldExpiry_due {t : Nat} (hs : (s.elapse dt).net.holdSince = some t) (hh : (s.elapse dt).flag Reg.MOD_CTL_HOLD = true)
    (ht : t + 5 * 10 ^ 9 ≤ (s.elapse dt).now) : exec (.moduleHoldExpiry dt reads) s =
      .next ({ s.elapse dt with net := { (s.elapse dt).net with holdSince := some (s.elapse dt).now } }.pollModules reads) := by
  change execModuleHoldExpiry dt reads s = _
  simp only [execModuleHoldExpiry, hs]
  rw [if_pos ⟨hh, ht⟩]

end

/-! ### Accounts and transfers (R235, R239) -/

/-- While the settings store is READY each account is written to it. -/
theorem exec_moduleAccountWrite_ready (hr : (s.elapse dt).storeReady = true) : exec (.moduleAccountWrite dt) s =
    .next { s.elapse dt with net := { (s.elapse dt).net with accounts := (s.elapse dt).net.accounts.map fun a => a.write } } :=
  congrArg Host.Outcome.next (if_pos hr)

/-- What the end of a transfer leaves beside DONE and NAK: the byte read, or the event of a time-out. -/
def State.transferEnded (w : State) (data : Nat) : TransferEnd → State
  | .acked => if w.flag Reg.MOD_XFER_RD then w.wr Reg.MOD_XFER_DATA data else w
  | .nak => w
  | .timedOut => w.raise 0x250E (srcPort 64) (w.rd Reg.MOD_XFER_BUS)

/-- A transfer in progress ends: DONE is set, and NAK unless it was acknowledged (log entry 111). -/
theorem exec_modXferDone_inProgress (hx : (s.elapse dt).net.transfer = true) (hon : (s.elapse dt).domOn 1 = true) (ends : TransferEnd)
    (data : Nat) : exec (.modXferDone dt ends data) s =
      .next (State.transferEnded (({ s.elapse dt with net := { (s.elapse dt).net with transfer := false } }.wr Reg.MOD_XFER_DONE 1).wr
        Reg.MOD_XFER_NAK (b01 (decide (ends ≠ TransferEnd.acked)))) data ends) := by
  change execModXferDone dt ends data s = _
  simp only [execModXferDone]
  rw [if_neg (by rw [hx, hon]; decide)]
  cases ends <;> rfl

end

/-- Settles O37: each clause is the rule of its event above. That a time-out sets NAK too, and which bytes of the module a poll uses, are
presumed (log entry 111). -/
theorem moduleEventsTakeEffect : Obligations.ModuleEventsTakeEffect := by
  intro dt s u hu
  subst hu
  refine ⟨?service, ?poll, ?holdExpiry, fun samples hon hf => exec_moduleLifeSample_running hon hf samples, ?accounts, ?transfer⟩
  case service =>
    intro m bytes v hm hup haddr
    refine ⟨exec_mgtServiceFrame_dropped hm hup haddr, ?_, fun b => exec_mgtServiceFrame_fragment hm hup haddr⟩
    rintro b h ht rfl he hop hown
    exact exec_mgtServiceFrame_arp hm hup haddr ht he hop hown
  case poll =>
    intro reads hon hf
    refine ⟨fun hh => ?_, fun hh => ?_⟩ <;> rw [exec_modulePoll_running hon hf, hh]
    · exact congrArg Host.Outcome.next (if_pos rfl)
    · exact congrArg Host.Outcome.next (if_neg Bool.false_ne_true)
  case holdExpiry => exact fun reads t hs hh ht => exec_moduleHoldExpiry_due hs hh ht
  case accounts =>
    rintro all hr rfl
    exact exec_moduleAccountWrite_ready hr
  case transfer =>
    rintro data v w hx hon rfl rfl
    have hend := exec_modXferDone_inProgress hx hon
    exact ⟨hend .acked data, hend .nak data, hend .timedOut data⟩

end Sys2Proof.Machine
end

section
/-!
PROOFS. The NET_FLOW commands.
-/
namespace Sys2Proof.Machine
open Sys2Proof

/-! ### What the commands execute -/

section
variable {u : State} {x : Ctx} {p : List Byte} {f g : Flow} {i e : Nat}

/-- A leg with a group destination has sent its first membership report at `now` (R253). -/
def FlowLeg.joined (ipv6 : Bool) (now : Nat) (l : FlowLeg) : FlowLeg :=
  if isGroup ipv6 l.dest then { l with reports := 1, reportAt := now } else l

/-- The state with one flow more, whose handle is the last one given. -/
def State.addFlow (u : State) (g : Flow) : State := { u with net := { u.net with flows := u.net.flows ++ [g], lastFlow := g.handle } }

/-- The slots of a video, ANC or SDI flow begin to be measured anew; those of an audio flow do not. -/
def State.measureFlow (t : State) (g : Flow) : State :=
  if g.onSlot ∧ !g.isAudio then (t.flowMembers g).foldl (fun t m => t.beginMeasure (slotKey m g.quarter)) t else t

/-- NET_FLOW_RX, with a free record and an engine, adds the flow, joins its groups and answers its handle and settings (R253, R275). -/
theorem run_netFlowRx_free (hf : f = flowOfPayload false p u.now) (hi : u.freeFlow false = some i) (he : u.pickEngine f = some e)
    (hg : g = { f with index := i, engine := e, legs := f.legs.map (FlowLeg.joined f.ipv6 u.now) }) {v : State}
    (hv : v = g.legs.foldl (fun t l => t.sendReport g l (if g.opt then 5 else 4)) ((u.addFlow g).measureFlow g)) :
    opNetFlowRx.run u x p = Done.ok v (v.flowReply g) := by
  subst hf hg hv
  simp only [opNetFlowRx, hi, he]
  rfl

/-- NET_FLOW_TX, with a free record, an engine and a usable key where it encrypts, adds the flow and answers its handle and settings
(R270, R276). -/
theorem run_netFlowTx_free (hf : f = flowOfPayload true p u.now) (hk : f.srtp = true → u.slotStatus f.vslot .srtp = 0)
    (hi : u.freeFlow true = some i) (he : u.pickEngine f = some e)
    (hg : g = { f with index := i, engine := e, startAt := u.leadEnd, vgen := if f.srtp then (u.slot f.vslot).gen else 0 }) :
    opNetFlowTx.run u x p = Done.ok (u.addFlow g) ((u.addFlow g).flowReply g) := by
  have hkey : (if f.srtp then u.slotStatus f.vslot .srtp else 0) = 0 := by
    split
    · exact hk ‹_›
    · rfl
  subst hf hg
  simp only [opNetFlowTx, hkey, hi, he]
  rfl

/-- NET_FLOW_DEL of a flow that no deletion holds marks it while it is busy, and else removes it (R277). -/
theorem run_netFlowDel_held (hf : u.flowByHandle (u32 p 0) = some f) (hd : f.deleting = none) :
    opNetFlowDel.run u x p = if f.busy
      then Done.pending ((u.putFlow { f with deleting := some (u8 p 4 == 1) }).await ⟨x.tag, x.session, x.entry, .object 9 f.handle, none⟩) []
      else Done.pending ((u.removeFlow f (u8 p 4 == 1)).await ⟨x.tag, x.session, x.entry, .instant u.now, none⟩) [] := by
  simp only [opNetFlowDel, hf]
  exact if_neg (by simp [hd])

end

/-- Settles O20: an admitted command is what its execution gives, weighed by Cruise where it is a change, and concluded. -/
theorem flowCommandsComplete : Obligations.FlowCommandsComplete := by
  intro dt rq s u p
  refine ⟨?receive, ?send, ?delete⟩
  case receive =>
    rintro h f i e hf hi he legs rfl g hg t rfl v hv hfit
    exact next_weighed h rfl (run_netFlowRx_free hf hi he hg (by subst hg; exact hv)) (Done.ok_status_lt _ _) hfit
  case send =>
    rintro h f i e hf hk hi he g hg v rfl hfit
    exact next_weighed h rfl (run_netFlowTx_free hf hk hi he hg) (Done.ok_status_lt _ _) hfit
  case delete => exact fun h f hf hd => next_serve h rfl (run_netFlowDel_held hf hd)

end Sys2Proof.Machine
end

section
/-!
PROOFS. The packet events of the media flows.
-/
namespace Sys2Proof.Machine
open Sys2Proof

section
variable {s : State} {dt : Nat}

/-! ### Receiving (R247, R254-R257, R260) -/

section
variable {p leg : Nat} {bytes b c : List Byte} {full x y : Bool} {given : Given} {v w : State} {f : Flow}
  (hon : (s.elapse dt).portOn p = true) (hup : (s.elapse dt).linkUp p = true) (ht : (s.elapse dt).macTake p bytes full = (v, some b))
  (hm : v.macsecTake p b = (w, some (c, x, y)))
include hon hup ht hm

/-- A media packet of a leg counts on it; its flow takes it, or counts it as bad where one of its checksums is. -/
theorem exec_flowPacketReceive_leg {g : Flow} {d : List Byte} (hl : w.flowOf p c = some (f, leg))
    (hg : g = f.modLeg leg fun l => { l with packets := l.packets + 1 }) (hd : d = bytesAt c ((headers c).l4 + 8) (u16 c ((headers c).l4 + 4) - 8))
    (hr : isRtcp d = false) : exec (.flowPacketReceive dt p bytes full given) s =
      .next (if !ipCsumOk c ∨ !l4CsumOk c then (w.putFlow { g with c5 := g.c5 + 1 }).flowEvent g 0x2608 0 else w.flowTake g leg d given) := by
  subst hg hd
  change execFlowPacketReceive dt p bytes full given s = _
  simp only [execFlowPacketReceive]
  rw [if_neg (by simp [hon, hup]), ht]
  simp only [hm, hl]
  exact congrArg Host.Outcome.next (if_neg (Bool.eq_false_iff.1 hr))

end

/-- A flow that stands carries on. -/
theorem withFlow_some {v : State} {f : Nat} {y : Flow} (h : v.flow false f = some y) (k : State → Flow → State) : v.withFlow f k = k v y := by
  simp only [State.withFlow, h]

/-- The alignment point of frame `fr` of a flow, where no boundary matches it. -/
def Flow.alignedAt (y : Flow) (fr : Nat) : Option Nat := ((y.frames.find? fun g => g.1 == fr).map fun g => g.2).getD none

/-- The next line period of a flow that has written its cells, once due, is judged and gives its cells (R255, R257). -/
theorem nextLine_due {v : State} {y : Flow} {fr i : Nat} (hn : y.coming = some (fr, i)) (hc : y.cells = [])
    (hr : y.release fr (y.alignedAt fr) i ≤ v.chrono) : v.nextLine y =
      (if 0 < (y.judge fr i).2 then (v.putFlow (y.judge fr i).1).flowEvent y 0x2605 0 else v.putFlow (y.judge fr i).1).releaseLine
        (y.judge fr i).1 fr i := by
  simp only [State.nextLine, hn]
  exact if_neg fun h => h.elim (by simp [hc]) hr.not_gt

/-- Without a frame, or with cells still to write, no line period is released. -/
theorem nextLine_waits {v : State} {y : Flow} (h : y.coming = none ∨ y.cells ≠ []) : v.nextLine y = v := by
  cases hn : y.coming with
  | none => simp only [State.nextLine, hn]
  | some n =>
    have hc : y.cells ≠ [] := h.resolve_left (by simp [hn])
    simp only [State.nextLine, hn]
    exact if_pos (.inl (by simpa using hc))

section
variable {f : Nat} {x : Flow} (hx : (s.elapse dt).flow false f = some x)
include hx

/-- Due samples of an audio flow are judged and released (R255, R257). -/
theorem exec_flowLineRelease_audio (ha : x.isAudio = true) {due : List (Nat × Nat × Nat)} {j : Flow × Nat} {v w : State}
    (hdue : due = x.got.filter fun y => decide (x.sampleRelease y.2.1 ≤ (s.elapse dt).chrono))
    (hj : j = x.judge (due.foldl (fun m y => max m y.2.1) 0 + 1) 0) (hv : v = if due.isEmpty then s.elapse dt else (s.elapse dt).putFlow j.1)
    (hw : w = if 0 < j.2 then v.flowEvent x 0x2605 0 else v) :
    exec (.flowLineRelease dt f) s = .next (w.releaseAudio ((w.flow false f).getD x)) := by
  subst hw hv hj hdue
  change execFlowLineRelease dt f s = _
  simp only [execFlowLineRelease, hx]
  exact congrArg Host.Outcome.next (if_pos ha)

/-- A video flow writes its due cells, before and after the release of its next line period, and ends its frame (R255). -/
theorem exec_flowLineRelease_video (ha : x.isAudio = false) : exec (.flowLineRelease dt f) s =
    .next (((((s.elapse dt).writeCells x).withFlow f State.nextLine).withFlow f State.writeCells).withFlow f State.frameOver) := by
  change execFlowLineRelease dt f s = _
  simp only [execFlowLineRelease, hx]
  exact congrArg Host.Outcome.next (if_neg (Bool.eq_false_iff.1 ha))

/-- A flow without an accepted packet for its loss time is lost, and its slot idles (R260). -/
theorem exec_flowLoss_due (hl : x.lastAccept + x.lossTime ≤ (s.elapse dt).now) : exec (.flowLoss dt f) s =
    .next ((((s.elapse dt).putFlow { x with loss := true }).flowEvent x 0x2601 0).flowIdle x) := by
  change execFlowLoss dt f s = _
  simp only [execFlowLoss, hx]
  exact congrArg Host.Outcome.next (if_neg hl.not_gt)

/-- The second membership report of a leg goes out 1 s after the first (R253). -/
theorem exec_membershipReportSend_due {leg : Nat} {g : FlowLeg} (hg : x.legs[leg]? = some g) (h1 : g.reports = 1)
    (hd : g.reportAt + 10 ^ 9 ≤ (s.elapse dt).now) : exec (.membershipReportSend dt f leg) s =
      .next (((s.elapse dt).putFlow (x.modLeg leg fun l => { l with reports := 2, reportAt := (s.elapse dt).now })).sendReport x g
        (if x.opt then 5 else 4)) := by
  change execMembershipReportSend dt f leg s = _
  simp only [execMembershipReportSend, hx, hg]
  exact congrArg Host.Outcome.next (if_pos ⟨h1, hd⟩)

end

/-! ### Membership (R253) -/

/-- Every receive flow over IPv4 answers a query for `group` on port `p` with a report of each leg that the query names. -/
def State.answerQuery (w : State) (p group : Nat) : State :=
  (w.net.flows.filter fun f => !f.tx && f.ipv6 == false).foldl (fun t f =>
    (f.legs.filter fun g => g.port == p && (group == 0 || g.dest == group)).foldl (fun z g => z.sendReport f g (if f.opt then 1 else 2)) t) w

/-- An IGMP query that passes MAC and MACsec is answered (R253). -/
theorem exec_membershipQueryReceive_igmp {p : Nat} {bytes b0 b : List Byte} {x y : Bool} {v w : State}
    (hon : (s.elapse dt).portOn p = true) (hup : (s.elapse dt).linkUp p = true) (ht : (s.elapse dt).macTake p bytes false = (v, some b0))
    (hm : v.macsecTake p b0 = (w, some (b, x, y))) (hs : w.mediaService p b = true) (he : (headers b).etype ≠ 0x0806)
    (h6 : (headers b).v6 = false) (h4 : (headers b).v4 = true) (hq : u8 b (headers b).l4 = 0x11) :
    exec (.membershipQueryReceive dt p bytes) s = .next (w.answerQuery p (u32 b ((headers b).l4 + 4))) := by
  change execMembershipQueryReceive dt p bytes s = _
  simp only [execMembershipQueryReceive]
  rw [if_neg (by simp [hon, hup]), ht]
  simp only [hm, hs, he, h6, h4, hq, Bool.not_true, Bool.false_eq_true, false_and, ne_eq, not_true_eq_false, and_false, if_false, if_true]
  rfl

/-! ### Sending (R263-R268) -/

section
variable {f : Nat} {x : Flow} {n d launch : Nat} {place : Nat × Nat} (hx : (s.elapse dt).flow true f = some x)
  (hk : ¬ (x.kind = 2 ∨ x.kind = 7 ∨ x.kind = 8)) (hn : n = (s.elapse dt).genN ((s.elapse dt).flowGen x))
  (hd : d = (s.elapse dt).genD ((s.elapse dt).flowGen x)) (hp : place = x.next.getD ((s.elapse dt).flowStart x x.startAt))
  (hl : launch = (s.elapse dt).launchAt x place.1 place.2)
include hx hk hp hl

/-- Before its launch time a packet waits (R264). -/
theorem exec_flowPacketLaunch_early (ht : (s.elapse dt).chrono < launch) : exec (.flowPacketLaunch dt f) s = .next (s.elapse dt) := by
  subst hl hp
  change execFlowPacketLaunch dt f s = _
  simp only [execFlowPacketLaunch, hx]
  rw [if_neg hk]
  exact congrArg Host.Outcome.next (if_pos ht)

include hn hd

/-- A due packet is withheld while its slot idles, skipped when it is 40 000 ns behind, and else sent; a deleted flow goes with the last
packet of its frame (R263-R267, R277). -/
theorem exec_flowPacketLaunch_due {frame : Nat} {y : Flow} {v : State} (ht : launch ≤ (s.elapse dt).chrono)
    (hy : y = x.goOn (x.after n d place.1 place.2)) (hf : frame = if x.isAudio then frameAt n d launch else place.1)
    (hv : v = if (x.onSlot && (s.elapse dt).outputIdle x.slotKey) = true
      then (s.elapse dt).putFlow { y with c6 := y.c6 + b01 (y.idleFrame != some frame), idleFrame := some frame }
      else if launch + 40000 ≤ (s.elapse dt).chrono
      then (((s.elapse dt).schedule y).modSend f fun z => { z with c1 := z.c1 + 1 }).flowEvent y 0x2609 0
      else (s.elapse dt).sendPacket { y with ancBad := y.ancBad + x.ancDropped place.1 place.2 } (!x.isAudio && x.marker n d place.2)
        (x.seqOf n d place.1 place.2) (x.tsOf n d place.1 place.2) launch (x.payload n d place.1 place.2)) :
    exec (.flowPacketLaunch dt f) s =
      .next (if (x.after n d place.1 place.2).2 = 0 then v.flowEnded ((v.flow true f).getD y) else v) := by
  subst hv hf hy hl hp hd hn
  change execFlowPacketLaunch dt f s = _
  simp only [execFlowPacketLaunch, hx]
  rw [if_neg hk]
  exact congrArg Host.Outcome.next (if_neg ht.not_gt)

end

/-- The late packets of each sending leg of a flow, by leg. -/
def State.lateLegs (v : State) (f : Nat) (x : Flow) : List (Nat × List Nat) :=
  (x.legs.zipIdx.filter fun g => v.sendsLeg g.1).map fun g => (g.2, v.latePackets f g.2 g.1)

/-- The numbers that every sending leg has late. -/
def lateOnAll (ls : List (Nat × List Nat)) : List Nat :=
  ((ls.head?).map fun l => l.2.filter fun n => ls.all fun m => m.2.contains n).getD []

/-- Packets that still wait 40 000 ns after their launch are discarded, and counted as skipped where every sending leg is late and else for
the late leg (R267, R268). -/
theorem exec_txBehind_late {f : Nat} {x y : Flow} {v w : State} {ls : List (Nat × List Nat)} {skip : List Nat}
    (hv : v = (s.elapse dt).dropStale f) (hx : v.flow true f = some x) (hls : ls = v.lateLegs f x)
    (hlate : (ls.all fun l => l.2.isEmpty) = false) (hskip : skip = lateOnAll ls)
    (hw : w = x.legs.zipIdx.foldl (fun t g => t.modNetPort g.1.port fun (r : PortRec) => { r with queues := r.queues.filter fun q => match q.flow with
      | some (i, l, n) => !(i == f && l == g.2 && ls.any fun k => k.1 == l && k.2.contains n)
      | none => true }) v)
    (hy : y = { x with c1 := x.c1 + skip.length, legs := x.legs.zipIdx.map fun g =>
      { g.1 with packets := g.1.packets - ((ls.filter fun l => l.1 == g.2).flatMap fun l => l.2).length,
                 linkDown := g.1.linkDown + (((ls.filter fun l => l.1 == g.2).flatMap fun l => l.2).filter fun n => !skip.contains n).length } }) :
    exec (.txBehind dt f) s = .next ((w.putFlow y).flowEvent y 0x2609 0) := by
  subst hy hw hskip hls
  change execTxBehind dt f s = _
  simp only [execTxBehind]
  rw [← hv, hx]
  exact congrArg Host.Outcome.next (if_neg (Bool.eq_false_iff.1 hlate))

end

/-- Settles O38: each clause is the rule of its event above. How packets that are late are counted is the model's choice (log entry
113). -/
theorem flowEventsTakeEffect : Obligations.FlowEventsTakeEffect := by
  intro dt s u hu
  subst hu
  refine ⟨?packet, ?audio, ?video, fun f x hx => exec_flowLoss_due hx, ?launch, ?behind,
    fun f x leg g hx => exec_membershipReportSend_due hx, ?query⟩
  case packet =>
    intro p bytes full given v b w c x y f leg g hon hup ht hm hl hg d hd hr
    rw [exec_flowPacketReceive_leg hon hup ht hm hl hg hd hr]
    refine ⟨fun hip hl4 => ?good, fun hip => ?bad⟩
    case good => rw [if_neg (by simp [hip, hl4])]
    case bad => rw [if_pos (by simp [hip])]
  case audio =>
    intro f x due j v w hx ha
    exact exec_flowLineRelease_audio hx ha
  case video =>
    rintro f x v y w z hx ha rfl hy
    rw [exec_flowLineRelease_video hx ha, withFlow_some hy]
    refine ⟨?due, ?waits⟩
    case due =>
      rintro fr i ta j hn hc rfl hr rfl rfl rfl
      rw [nextLine_due hn hc hr]
    case waits =>
      rintro hn rfl
      rw [nextLine_waits hn]
  case launch =>
    intro f x place launch n d y hx h2 h7 h8 hn hd hp hl hy
    have hk : ¬ (x.kind = 2 ∨ x.kind = 7 ∨ x.kind = 8) := by simp [h2, h7, h8]
    refine ⟨exec_flowPacketLaunch_early hx hk hp hl, fun v frame hf ht hidle hskip hsend => ?_⟩
    refine exec_flowPacketLaunch_due hx hk hn hd hp hl ht hy hf ?_
    split
    case isTrue hi => exact hidle hi
    case isFalse hi =>
      split
      case isTrue hb => exact hskip (Bool.eq_false_iff.2 hi) hb
      case isFalse hb => exact hsend (Bool.eq_false_iff.2 hi) (not_le.1 hb)
  case behind =>
    intro f v x ls skip w y hv hx hls hlate
    exact exec_txBehind_late hv hx hls hlate
  case query =>
    rintro p bytes v b0 w b x y group h hon hup ht hm hs rfl he h6 h4 hq rfl
    exact exec_membershipQueryReceive_igmp hon hup ht hm hs he h6 h4 hq

end Sys2Proof.Machine
end

section
/-!
PROOFS. What the events of Ethernet ports, flows, modules and PTP leave as it was.
-/
namespace Sys2Proof.Machine
open Sys2Proof

/-! ### The frame of an answer -/

/-- Without an event nothing has changed. -/
theorem NetFrame.refl (q : Prop) (u : State) : NetFrame q u u := ⟨fun _ => rfl, fun h => h, rfl⟩

/-- An answer that leaves the view whatever waits. -/
theorem NetFrame.leaves {u t : State} (h : NetFrame True u t) : Leaves State.besideNet u (.next t) := leaves_next (h.silent trivial)

/-- An answer that leaves the view while no TIM_RESTEP waits, and else all but what a message to a session changes. -/
theorem NetFrame.leavesOrTells {u t : State} (h : NetFrame (u.tim.stepCmd = none) u t) :
    LeavesOrTells (u.tim.stepCmd = none) State.besideNet u (.next t) := ⟨fun hs => leaves_next (h.silent hs), leaves_next h.told⟩

section
variable (s : State) (dt : Nat)

/-! ### Ports -/

theorem ethFecDegrade_leaves (p codewords : Nat) : Leaves State.besideNet (s.elapse dt) (exec (.ethFecDegrade dt p codewords) s) :=
  have hu := NetFrame.refl True (s.elapse dt)
  (netFrame_ite (fun _ => State.raise_netFrame hu) fun _ => hu).leaves

theorem mgtLinkUp_leaves (m : Nat) : Leaves State.besideNet (s.elapse dt) (exec (.mgtLinkUp dt m) s) :=
  have hu := NetFrame.refl True (s.elapse dt)
  (netFrame_ite (fun _ => hu) fun _ => State.endCause_netFrame (State.wr_netFrame hu)).leaves

theorem pauseExpiry_leaves (p q : Nat) : Leaves State.besideNet (s.elapse dt) (exec (.pauseExpiry dt p q) s) :=
  have hu := NetFrame.refl True (s.elapse dt)
  (netFrame_ite (fun _ => State.stormCauses_netFrame (State.modNetPort_netFrame hu)) fun _ => hu).leaves

theorem ethPauseStorm_leaves (p q : Nat) : Leaves State.besideNet (s.elapse dt) (exec (.ethPauseStorm dt p q) s) :=
  have hu := NetFrame.refl True (s.elapse dt)
  (netFrame_ite (fun _ => State.raise_netFrame (State.modNetPort_netFrame hu)) fun _ => hu).leaves

theorem pauseHoldExpiry_leaves (p q : Nat) : Leaves State.besideNet (s.elapse dt) (exec (.pauseHoldExpiry dt p q) s) :=
  have hu := NetFrame.refl True (s.elapse dt)
  (netFrame_ite (fun _ => State.endCause_netFrame (State.modNetPort_netFrame hu)) fun _ => hu).leaves

/-- A frame that the MAC discards only counts; a pause frame acts on the queues. -/
theorem pauseFrameReceive_leaves (p : Nat) (bytes : List Byte) :
    Leaves State.besideNet (s.elapse dt) (exec (.pauseFrameReceive dt p bytes) s) := by
  have hu := NetFrame.refl True (s.elapse dt)
  have hmac := State.macTake_netFrame (p := p) (b := bytes) (full := false) hu
  refine NetFrame.leaves (netFrame_ite (fun _ => hu) fun _ => ?_)
  dsimp only
  split
  · exact hmac
  · exact netFrame_ite (fun _ => State.countPause_netFrame hmac) fun _ => hmac

/-- A service frame is answered, or counted where it is a piece of a Cyxel datagram. -/
theorem mgtServiceFrame_leaves (m : Nat) (bytes : List Byte) :
    Leaves State.besideNet (s.elapse dt) (exec (.mgtServiceFrame dt m bytes) s) := by
  have hu := NetFrame.refl True (s.elapse dt)
  have hmac := State.macTake_netFrame (p := 64 + m) (b := bytes) (full := false) hu
  refine NetFrame.leaves (netFrame_ite (fun _ => hu) fun _ => ?_)
  dsimp only
  split
  · exact hmac
  · exact netFrame_ite (fun _ => State.queueFrame_netFrame hmac) fun _ => netFrame_ite (fun _ => State.queueFrame_netFrame hmac) fun _ =>
      netFrame_ite (fun _ => State.bump_netFrame hmac) fun _ => hmac

/-! ### Modules -/

/-- The end of a transfer leaves DONE, NAK, and the byte read or the event of a time-out. -/
theorem modXferDone_leaves (ends : TransferEnd) (data : Nat) :
    Leaves State.besideNet (s.elapse dt) (exec (.modXferDone dt ends data) s) := by
  have hu := NetFrame.refl True (s.elapse dt)
  refine NetFrame.leaves (netFrame_ite (fun _ => hu) fun _ => ?_)
  have hdone : ∀ v w, NetFrame True (s.elapse dt)
      (({ s.elapse dt with net := { (s.elapse dt).net with transfer := false } }.wr Reg.MOD_XFER_DONE v).wr Reg.MOD_XFER_NAK w) :=
    fun v w => State.wr_netFrame (State.wr_netFrame (netFrame_keep hu))
  cases ends with
  | acked => exact netFrame_ite (fun _ => State.wr_netFrame (hdone _ _)) fun _ => hdone _ _
  | nak => exact hdone _ _
  | timedOut => exact State.raise_netFrame (hdone _ _)

theorem modulePoll_leaves (reads : List ModuleRead) : Leaves State.besideNet (s.elapse dt) (exec (.modulePoll dt reads) s) :=
  have hu := NetFrame.refl True (s.elapse dt)
  (netFrame_ite (fun _ => hu) fun _ => netFrame_ite (fun _ => netFrame_keep hu) fun _ => State.pollModules_netFrame (netFrame_keep hu)).leaves

theorem moduleHoldExpiry_leaves (reads : List ModuleRead) : Leaves State.besideNet (s.elapse dt) (exec (.moduleHoldExpiry dt reads) s) := by
  have hu := NetFrame.refl True (s.elapse dt)
  refine NetFrame.leaves ?_
  dsimp only
  split
  · exact hu
  · exact netFrame_ite (fun _ => State.pollModules_netFrame (netFrame_keep hu)) fun _ => hu

theorem moduleLifeSample_leaves (samples : List (Nat × Int × Bool × Nat)) :
    Leaves State.besideNet (s.elapse dt) (exec (.moduleLifeSample dt samples) s) :=
  have hu := NetFrame.refl True (s.elapse dt)
  (netFrame_ite (fun _ => hu) fun _ => netFrame_foldl hu fun _ _ ht => State.lifeSample_netFrame ht).leaves

theorem moduleAccountWrite_leaves : Leaves State.besideNet (s.elapse dt) (exec (.moduleAccountWrite dt) s) :=
  have hu := NetFrame.refl True (s.elapse dt)
  (netFrame_ite (fun _ => netFrame_keep hu) fun _ => hu).leaves

/-! ### Flows -/

theorem flowLoss_leaves (f : Nat) : Leaves State.besideNet (s.elapse dt) (exec (.flowLoss dt f) s) := by
  have hu := NetFrame.refl True (s.elapse dt)
  refine NetFrame.leaves ?_
  split
  · exact hu
  · exact netFrame_ite (fun _ => hu) fun _ => State.flowIdle_netFrame (State.flowEvent_netFrame (State.putFlow_netFrame hu))

theorem membershipReportSend_leaves (f leg : Nat) : Leaves State.besideNet (s.elapse dt) (exec (.membershipReportSend dt f leg) s) := by
  have hu := NetFrame.refl True (s.elapse dt)
  refine NetFrame.leaves ?_
  split
  · exact hu
  · split
    · exact hu
    · exact netFrame_ite (fun _ => State.sendReport_netFrame (State.putFlow_netFrame hu)) fun _ => hu

/-- A packet that reaches a leg of a flow is taken by it, or counted as bad. -/
theorem flowPacketReceive_leaves (p : Nat) (bytes : List Byte) (full : Bool) (given : Given) :
    Leaves State.besideNet (s.elapse dt) (exec (.flowPacketReceive dt p bytes full given) s) := by
  have hu := NetFrame.refl True (s.elapse dt)
  have hmac := State.macTake_netFrame (p := p) (b := bytes) (full := full) hu
  refine NetFrame.leaves (netFrame_ite (fun _ => hu) fun _ => ?_)
  dsimp only
  split
  · exact hmac
  next b _ =>
    have hsec := State.macsecTake_netFrame (p := p) (b := b) hmac
    split
    · exact hsec
    · split
      · exact hsec
      · exact netFrame_ite (fun _ => hsec) fun _ =>
          netFrame_ite (fun _ => State.flowEvent_netFrame (State.putFlow_netFrame hsec)) fun _ => State.flowTake_netFrame hsec

/-- What a query, an ARP request or a solicitation asks for is queued on the port. -/
theorem membershipQueryReceive_leaves (p : Nat) (bytes : List Byte) :
    Leaves State.besideNet (s.elapse dt) (exec (.membershipQueryReceive dt p bytes) s) := by
  have hu := NetFrame.refl True (s.elapse dt)
  have hmac := State.macTake_netFrame (p := p) (b := bytes) (full := false) hu
  refine NetFrame.leaves (netFrame_ite (fun _ => hu) fun _ => ?_)
  dsimp only
  split
  · exact hmac
  next b _ =>
    have hsec := State.macsecTake_netFrame (p := p) (b := b) hmac
    split
    · exact hsec
    · exact netFrame_ite (fun _ => hsec) fun _ => netFrame_ite (fun _ => State.queueFrame_netFrame hsec) fun _ =>
        netFrame_ite (fun _ => State.queueFrame_netFrame hsec) fun _ => netFrame_ite (fun _ => hsec) fun _ =>
          netFrame_foldl hsec fun _ _ ht => netFrame_foldl ht fun _ _ hz => State.sendReport_netFrame hz

/-- Late packets leave the queues of their ports, and the counters of their flow. -/
theorem txBehind_leaves (f : Nat) : Leaves State.besideNet (s.elapse dt) (exec (.txBehind dt f) s) := by
  have hstale := State.dropStale_netFrame (f := f) (NetFrame.refl True (s.elapse dt))
  refine NetFrame.leaves ?_
  dsimp only
  split
  · exact hstale
  · exact netFrame_ite (fun _ => hstale) fun _ => State.flowEvent_netFrame (State.putFlow_netFrame
      (netFrame_foldl hstale fun _ _ ht => State.modNetPort_netFrame ht))

/-! ### PTP -/

/-- A delay request leaves its sequence number and its time of departure with its domain or its relay link. -/
theorem ptpDelayReqSend_leaves (target port : Nat) : Leaves State.besideNet (s.elapse dt) (exec (.ptpDelayReqSend dt target port) s) := by
  have hu := NetFrame.refl True (s.elapse dt)
  refine NetFrame.leaves (netFrame_ite (fun _ => hu) fun _ => netFrame_ite (fun _ => ?relay) fun _ => ?domain)
  case relay => exact netFrame_ite (fun _ => hu) fun _ => State.queueFrame_netFrame (State.putRelayLink_netFrame hu)
  case domain =>
    dsimp only
    split
    · exact hu
    · exact netFrame_ite (fun _ => hu) fun _ => State.queueFrame_netFrame (State.modPtp_netFrame hu)

theorem ptpDelayRespReceive_leaves (p : Nat) (bytes : List Byte) :
    Leaves State.besideNet (s.elapse dt) (exec (.ptpDelayRespReceive dt p bytes) s) := by
  have hin := State.frameIn_netFrame (p := p) (bytes := bytes) (NetFrame.refl True (s.elapse dt))
  refine NetFrame.leaves ?_
  split
  · exact hin
  · split
    · exact hin
    · refine netFrame_ite (fun _ => hin) fun _ => ?_
      split
      · exact State.delayFor_netFrame hin
      · exact netFrame_ite (fun _ => State.delayForRelay_netFrame hin) fun _ => hin

theorem ptpPdelayReqReceive_leaves (p : Nat) (bytes : List Byte) :
    Leaves State.besideNet (s.elapse dt) (exec (.ptpPdelayReqReceive dt p bytes) s) := by
  have hin := State.frameIn_netFrame (p := p) (bytes := bytes) (NetFrame.refl True (s.elapse dt))
  refine NetFrame.leaves ?_
  dsimp only
  split
  · exact hin
  · split
    · exact hin
    · exact netFrame_ite (fun _ => hin) fun _ => State.queueFrame_netFrame hin

/-- A Sync message may bring its domain back, and where it is a one-step one gives an offset; either may lose a reference. -/
theorem ptpSyncReceive_leavesOrTells (p : Nat) (bytes : List Byte) (freq : Option Int) :
    LeavesOrTells ((s.elapse dt).tim.stepCmd = none) State.besideNet (s.elapse dt) (exec (.ptpSyncReceive dt p bytes freq) s) := by
  have hin := State.frameIn_netFrame (p := p) (bytes := bytes) (NetFrame.refl ((s.elapse dt).tim.stepCmd = none) (s.elapse dt))
  refine NetFrame.leavesOrTells ?_
  dsimp only
  split
  · exact hin
  · split
    · exact hin
    · split
      · exact hin
      · have hback := fun d f => State.ptpBack_netFrame (d := d) (State.modPtp_netFrame (d := d) (f := f) hin) id
        exact netFrame_ite (fun _ => hin) fun _ =>
          netFrame_ite (fun _ => State.modPtp_netFrame (hback _ _)) fun _ => State.syncDone_netFrame (hback _ _) id

/-- A Follow_Up message gives the offset of the Sync message that waits for it. -/
theorem ptpFollowUpReceive_leavesOrTells (p : Nat) (bytes : List Byte) (freq : Option Int) :
    LeavesOrTells ((s.elapse dt).tim.stepCmd = none) State.besideNet (s.elapse dt) (exec (.ptpFollowUpReceive dt p bytes freq) s) := by
  have hin := State.frameIn_netFrame (p := p) (bytes := bytes) (NetFrame.refl ((s.elapse dt).tim.stepCmd = none) (s.elapse dt))
  refine NetFrame.leavesOrTells ?_
  dsimp only
  split
  · exact hin
  · split
    · exact hin
    · split
      · exact hin
      · split
        · exact hin
        · exact netFrame_ite (fun _ => hin) fun _ => State.syncDone_netFrame hin id

/-- An Announce message may select another master, and so lose a reference or bring it back. -/
theorem ptpAnnounceReceive_leavesOrTells (p : Nat) (bytes : List Byte) :
    LeavesOrTells ((s.elapse dt).tim.stepCmd = none) State.besideNet (s.elapse dt) (exec (.ptpAnnounceReceive dt p bytes) s) := by
  have hin := State.frameIn_netFrame (p := p) (bytes := bytes) (NetFrame.refl ((s.elapse dt).tim.stepCmd = none) (s.elapse dt))
  refine NetFrame.leavesOrTells ?_
  dsimp only
  split
  · exact hin
  · split
    · exact hin
    · split
      · exact hin
      · exact netFrame_ite (fun _ => hin) fun _ =>
          State.ptpBack_netFrame (State.selectMaster_netFrame (State.modPtp_netFrame hin) id) id

/-- The relay drops a message, or queues it on each of its ways out. -/
theorem tcRelayForward_leaves (p : Nat) (bytes : List Byte) (residence : List Nat) :
    Leaves State.besideNet (s.elapse dt) (exec (.tcRelayForward dt p bytes residence) s) := by
  have hu := NetFrame.refl True (s.elapse dt)
  have hin := State.frameTaken_netFrame (p := p) (bytes := bytes) hu
  refine NetFrame.leaves (netFrame_ite (fun _ => hu) fun _ => ?_)
  dsimp only
  split
  · exact hin
  · split
    · exact hin
    · exact netFrame_ite (fun _ => hin) fun _ => netFrame_ite (fun _ => State.relayDrop_netFrame hin) fun _ => netFrame_ite (fun _ => hin) fun _ =>
        netFrame_foldl hin fun _ _ ht => netFrame_ite (fun _ => State.relayDrop_netFrame ht) fun _ => State.queueFrame_netFrame ht

end

/-- Settles O51: each clause is the frame of its event above. -/
theorem ethernetAndPtpEventsLeaveTheRest : Obligations.EthernetAndPtpEventsLeaveTheRest := by
  intro dt s u hu
  subst hu
  exact ⟨ethFecDegrade_leaves s dt, mgtLinkUp_leaves s dt, modXferDone_leaves s dt, pauseExpiry_leaves s dt, pauseFrameReceive_leaves s dt,
    mgtServiceFrame_leaves s dt, membershipReportSend_leaves s dt, membershipQueryReceive_leaves s dt, ethPauseStorm_leaves s dt,
    flowLoss_leaves s dt, flowPacketReceive_leaves s dt, txBehind_leaves s dt, moduleHoldExpiry_leaves s dt, moduleLifeSample_leaves s dt,
    modulePoll_leaves s dt, moduleAccountWrite_leaves s dt, pauseHoldExpiry_leaves s dt, ptpDelayReqSend_leaves s dt,
    ptpDelayRespReceive_leaves s dt, ptpPdelayReqReceive_leaves s dt, ptpSyncReceive_leavesOrTells s dt, ptpFollowUpReceive_leavesOrTells s dt,
    ptpAnnounceReceive_leavesOrTells s dt, tcRelayForward_leaves s dt⟩

end Sys2Proof.Machine
end

section
/-!
PROOFS. The AUD commands.
-/
namespace Sys2Proof.Machine
open Sys2Proof

section
variable {u : State} {x : Ctx} {p : List Byte}

/-- The target sample of a route that no list of changes has given one: the one that it names, or the first allowed one (R286, R297). -/
theorem routeTarget_own (hx : x.targets = []) :
    (if u16 p 2 = 1 then u64 p 8 else (x.targets.head?.map fun r => r.2).getD u.routeCount) = if u16 p 2 = 1 then u64 p 8 else u.routeCount := by
  rw [hx, List.head?_nil, Option.map_none, Option.getD_none]

/-- AUD_ROUTE gives every named sink one more change, all in one admission for its target sample, and waits for that sample (R297). -/
theorem run_audRoute_targeted {k n : Nat} {v : State} (hn : n = u.eph.lastOrder + 1)
    (hk : (if u16 p 2 = 1 then u64 p 8 else (x.targets.head?.map fun r => r.2).getD u.routeCount) = k)
    (hv : v = (audEntries p).foldl (fun t o => t.putSink { t.sink (u16 p o) with changes := (t.sink (u16 p o)).changes ++ [audChange p o k n] })
      { u with eph := { u.eph with lastOrder := n } }) :
    opAudRoute.run u x p = Done.pending (v.await ⟨x.tag, x.session, x.entry, .object 10 k, none⟩) (be64 k) := by
  subst hv hk hn
  rfl

end

/-- Settles O21: an admitted command is what its execution gives, weighed by Cruise where it is a change, and concluded. -/
theorem audioCommandsComplete : Obligations.AudioCommandsComplete := by
  intro dt rq s u p
  refine ⟨?route, ?config, ?status⟩
  case route =>
    rintro h k n hk hn v hv w rfl hfit
    exact next_weighed h rfl (run_audRoute_targeted hn ((routeTarget_own rfl).trans hk.symm) hv) (Done.pending_status_lt _ _) hfit
  case config =>
    rintro h v rfl hfit
    exact next_weighed h rfl rfl (Done.ok_status_lt _ _) hfit
  case status =>
    rintro h entry he
    obtain rfl := funext he
    exact next_serve h rfl rfl

end Sys2Proof.Machine
end

section
/-!
PROOFS. The events of audio and of heads.
-/
namespace Sys2Proof.Machine
open Sys2Proof

/-! ### Audio (R282, R291-R295) -/

section
variable {s u : State} {dt : Nat} (hu : u = s.elapse dt)
include hu

/-- A sample whose evaluation instant has come, and that is newer than the last of its rate, is evaluated (R282). -/
theorem exec_audioSampleEvaluate_due {r96 : Bool} {k : Nat} (hruns : u.audioRuns = true)
    (hdue : u.evalInstant k (if r96 then 96000 else 48000) ≤ u.chrono)
    (hnew : ∀ n, (if r96 then u.aud.last96 else u.aud.last48) = some n → n < k) :
    exec (.audioSampleEvaluate dt r96 k) s = .next (u.evaluate r96 k) := by
  subst hu
  exact congrArg Host.Outcome.next (if_pos ⟨hruns, hdue, getD_map_lt_iff.2 hnew⟩)

/-- 1 ms without FCLK in SLAVE mode stops both directions of every port and raises the event (R291). -/
theorem exec_audClkLoss_silent (hruns : u.audioRuns = true) (hslave : u.flag Reg.AUD_CLK_SLAVE = true) (hclock : u.rd Reg.AUD_CLK_STATE ≠ 0)
    (hsilent : u.aud.lastFclk + 1000000 ≤ u.now) : exec (.audClkLoss dt) s =
      .next ({ u with aud := { u.aud with frames := 0, ports := u.aud.ports.map fun (p : TdmPort) =>
        { p with sdi := p.sdi.stop, sdo := p.sdo.stop } } }.raise 0x2706 srcAudioBlock 0) := by
  change execAudClkLoss dt s = _
  simp only [execAudClkLoss, ← hu]
  exact congrArg Host.Outcome.next (if_neg (by simp [hruns, hslave, hclock, hsilent]))

/-- 64 frames after the last port stopped the clocks stop, or start again where a change of rate waits (R292, R301). -/
theorem exec_tdmClockStop_idle (hclock : u.rd Reg.AUD_CLK_STATE ≠ 0) (hstopped : u.tdmRunning = false) (hidle : 64 ≤ u.aud.idleFrames.getD 0) :
    exec (.tdmClockStop dt) s =
      .next (if u.aud.restarting ∧ u.flag Reg.AUD_CLK_EN then u.startClocks else (u.wr Reg.AUD_CLK_STATE 0).endCause 0x2706 srcAudioBlock 0) := by
  change execTdmClockStop dt s = _
  simp only [execTdmClockStop, ← hu]
  exact congrArg Host.Outcome.next (if_neg (by simp [hclock, hstopped, hidle]))

/-- Of the named groups those whose second ends are measured (R295, log entry 39). -/
theorem exec_audioRateMeasure_runs (groups : List (Nat × Nat)) (hruns : u.audioRuns = true) : exec (.audioRateMeasure dt groups) s =
    .next (groups.foldl (fun t g => if t.rateDue g then t.measureRate g.1 g.2 else t) u) := by
  subst hu
  exact congrArg Host.Outcome.next (if_pos hruns)

/-- The oldest graphic load ends, and its command is answered with the outcome of its check (R329). -/
theorem exec_graphicLoadDone_oldest {l : GfxLoad} {ls : List GfxLoad} {v : State} {e : State × Bool} (hl : u.mvw.loads = l :: ls)
    (hv : v = { u with mvw := { u.mvw with loads := ls } }) (he : e = if l.kind = 0 then v.endGraphic l else v.endCoefs l) :
    exec (.graphicLoadDone dt) s = .next (e.1.endWait (.object 13 l.id) (if e.2 then 0 else stBadParam)) := by
  subst hu he hv
  change execGraphicLoadDone dt s = _
  simp only [execGraphicLoadDone, hl]

end

/-! ### Heads, once the reads of the follow ports are carried out (R303, R304, R312; log entry 121) -/

section
variable {s r : State} {dt h : Nat} (hr : r = (s.elapse dt).followReads)
include hr

/-- A head that runs reaches its Meridian (R303). -/
theorem exec_headMeridian_runs (hruns : r.headRuns h = true) : exec (.headMeridian dt h) s = .next (r.headMeridianReached h) := by
  subst hr
  exact congrArg Host.Outcome.next (if_pos hruns)

/-- The next band starts within its window, when none runs and the store of four bands has room (R304). -/
theorem exec_bandStart_open {f mh b : Nat} (hnext : (r.head h).nextUp = some (f, mh, b)) (hruns : r.headRuns h = true) (hon : r.headOn h = true)
    (hnone : (r.head h).band = none) (hband : b < headBands (r.headFmt h)) (hbegun : mh ≤ r.chrono)
    (hwindow : 64 * b * r.genD (r.headGen h) * 10 ^ 9 ≤ (r.chrono - mh) * r.genN (r.headGen h) * headHeight (r.headFmt h))
    (hroom : ((r.head h).store.map fun (y : Nat × Nat × List Byte) => (y.1, y.2.1 / 64)).eraseDups.length < 4) :
    exec (.bandStart dt h) s = .next (r.composeBand h f b) := by
  subst hr
  change execBandStart dt h s = _
  simp only [execBandStart, hnext]
  exact congrArg Host.Outcome.next (if_pos ⟨hruns, hon, Option.isNone_iff_eq_none.2 hnone, hband, hbegun, decide_eq_true hwindow, hroom⟩)

/-- A finished band leaves its rows in the store, but for those whose time has passed (R304). -/
theorem exec_bandComplete_running {f n : Nat} {rows : List (Nat × List Byte)} (hband : (r.head h).band = some (f, n, rows)) :
    exec (.bandComplete dt h) s = .next (r.putHead { r.head h with band := none, store := (r.head h).store ++
      (rows.filter fun y => (r.head h).emit.any fun e => e.frame == f && decide (e.row ≤ y.1)).map fun y => (f, y.1, y.2) }) := by
  subst hr
  change execBandComplete dt h s = _
  simp only [execBandComplete, hband]

section
variable {e : OutFrame} (hnext : (r.head h).nextOut = some e) (hruns : r.headRuns h = true) (hdue : e.due ≤ (r.chrono + 13000) * e.scale)
include hnext hruns hdue

/-- A due row that is composed leaves the store (R304). -/
theorem exec_headRowEmit_composed {z : Nat × Nat × List Byte}
    (hrow : (r.head h).store.find? (fun v => v.1 == e.frame && v.2.1 == e.row) = some z) : exec (.headRowEmit dt h) s =
      .next ((r.putHead { (r.head h).tookRow e with
        store := (r.head h).store.filter fun v => !(v.1 == e.frame && v.2.1 == e.row) }).emitRow h e z.2.2) := by
  subst hr
  change execHeadRowEmit dt h s = _
  simp only [execHeadRowEmit, hnext, hrow]
  exact congrArg Host.Outcome.next (if_neg (by simp [hruns, hdue]))

/-- A due row that is not composed is counted and raises its event (R304). -/
theorem exec_headRowEmit_missing (hrow : (r.head h).store.find? (fun v => v.1 == e.frame && v.2.1 == e.row) = none) :
    exec (.headRowEmit dt h) s = .next ((((r.putHead ((r.head h).tookRow e)).bump (Reg.MVW_H_OVERRUN_COUNT h) 1).wr
      (Reg.MVW_H_STAT_OVERRUN h) 1).headEvent h 0x2806 h) := by
  subst hr
  change execHeadRowEmit dt h s = _
  simp only [execHeadRowEmit, hnext, hrow]
  exact congrArg Host.Outcome.next (if_neg (by simp [hruns, hdue]))

end

/-- An enabled layer of an active head takes up the frame whose SOF was written (R312). -/
theorem exec_layerSofWrite_due {l : Nat} (hruns : r.headRuns h = true) (hon : r.headOn h = true) (hl : l < 64)
    (hen : r.flag (Reg.MVW_L_CTL_EN (64 * h + l)) = true) (hfree : (r.layer (64 * h + l)).taken = false)
    (hsof : (r.layer (64 * h + l)).sofAt ≤ r.chrono) : exec (.layerSofWrite dt h l) s = .next (r.takeFrame h l) := by
  subst hr
  exact congrArg Host.Outcome.next (if_pos ⟨hruns, hon, hl, hen, by simp [hfree], hsof⟩)

end

/-- Settles O39: each clause is the rule of its event above; that of a due frame of the TDM clock names the stages of its event. When the
second of a group ends, and that the events of heads read first, are the model's choices (log entries 39, 121). -/
theorem audioAndHeadEventsTakeEffect : Obligations.AudioAndHeadEventsTakeEffect := by
  intro dt s u r hu hr
  rw [hu] at hr
  refine ⟨?sample, ?frame, ?loss, exec_tdmClockStop_idle hu, exec_audioRateMeasure_runs hu, fun l ls v e => exec_graphicLoadDone_oldest hu,
    fun h => exec_headMeridian_runs hr, ?bandStart, ?bandComplete, ?row, fun h l => exec_layerSofWrite_due hr⟩
  case sample =>
    rintro r96 k fs hruns rfl hdue hnew
    exact exec_audioSampleEvaluate_due hu hruns hdue hnew
  case frame =>
    intro sdi n good ready v k w x y hruns hdue hgood hready hv hk hw hx hy
    rw [hy, hx, hw, hk, hv, hready, hgood]
    subst hu
    exact congrArg Host.Outcome.next (if_neg (by simp [hruns, hdue]))
  case loss =>
    rintro ports hruns hslave hclock hsilent rfl
    exact exec_audClkLoss_silent hu hruns hslave hclock hsilent
  case bandStart =>
    rintro h x f mh b rfl hnext
    exact exec_bandStart_open hr hnext
  case bandComplete =>
    rintro h x f n rows keep rfl hband rfl
    exact exec_bandComplete_running hr hband
  case row =>
    rintro h x e y rfl hnext hruns hdue rfl
    exact ⟨fun z => exec_headRowEmit_composed hr hnext hruns hdue, exec_headRowEmit_missing hr hnext hruns hdue⟩

end Sys2Proof.Machine
end

section
/-!
PROOFS. What the events of audio, heads and encoders leave as it was.
-/
namespace Sys2Proof.Machine
open Sys2Proof

section
variable (s : State) (dt : Nat)

/-- The loss of FCLK stops the ports and raises its event. -/
theorem audClkLoss_leaves : Leaves State.besideMedia (s.elapse dt) (exec (.audClkLoss dt) s) :=
  leaves_next (besideMedia_ite (fun _ => rfl) fun _ => State.raise_besideMedia rfl)

/-- Each due group in turn is measured. -/
theorem audioRateMeasure_leaves (groups : List (Nat × Nat)) :
    Leaves State.besideMedia (s.elapse dt) (exec (.audioRateMeasure dt groups) s) :=
  leaves_next (besideMedia_ite
    (fun _ => besideMedia_foldl rfl fun _ _ ht => besideMedia_ite (fun _ => State.measureRate_besideMedia ht) fun _ => ht)
    fun _ => rfl)

/-- The clocks stop, or start again. -/
theorem tdmClockStop_leaves : Leaves State.besideMedia (s.elapse dt) (exec (.tdmClockStop dt) s) :=
  leaves_next (besideMedia_ite (fun _ => rfl) fun _ => besideMedia_ite (fun _ => State.startClocks_besideMedia rfl)
    fun _ => State.endCause_besideMedia (State.wr_besideMedia rfl))

/-- A band that may start is composed from what the layers hold. -/
theorem bandStart_leaves (h : Nat) : Leaves State.besideMedia (s.elapse dt).followReads (exec (.bandStart dt h) s) := by
  refine leaves_next ?_
  split
  · exact besideMedia_ite (fun _ => State.composeBand_besideMedia rfl) fun _ => rfl
  · rfl

/-- A finished band goes to the head's own store. -/
theorem bandComplete_leaves (h : Nat) : Leaves State.besideMedia (s.elapse dt).followReads (exec (.bandComplete dt h) s) := by
  refine leaves_next ?_
  split
  · exact State.putHead_besideMedia rfl
  · rfl

/-- A row that is due changes its channel alone. -/
theorem encRowDue_leaves (h : Nat) : Leaves State.besideMedia (s.elapse dt) (exec (.encRowDue dt h) s) := by
  refine leaves_next ?_
  split
  · exact besideMedia_ite (fun _ => State.startRow_besideMedia rfl) fun _ => rfl
  · rfl

/-- A period tells the sessions whose rates begin with it, and where no rate waits it tells none. -/
theorem encRefreshPeriodStart_leavesOrTells (h : Nat) : LeavesOrTells (∀ x ∈ (s.elapse dt).enc.chans, x.rates = []) State.besideMedia
    (s.elapse dt) (exec (.encRefreshPeriodStart dt h) s) := by
  refine ⟨fun silent => leaves_next ?silent, leaves_next ?told⟩
  case silent =>
    split
    · next x hx => exact besideMedia_ite (fun _ => State.startPeriod_besideMedia rfl (silent x (List.mem_of_find?_eq_some hx))) fun _ => rfl
    · rfl
  case told =>
    split
    · split
      · exact State.startPeriod_untoldMedia rfl
      · rfl
    · rfl

end

/-- Settles O52: each clause is the frame of its event above. -/
theorem mediaEventsLeaveTheRest : Obligations.MediaEventsLeaveTheRest := by
  intro dt s u hu
  subst hu
  exact ⟨audClkLoss_leaves s dt, audioRateMeasure_leaves s dt, tdmClockStop_leaves s dt, bandStart_leaves s dt, bandComplete_leaves s dt,
    encRowDue_leaves s dt, encRefreshPeriodStart_leavesOrTells s dt⟩

end Sys2Proof.Machine
end

section
/-!
PROOFS. The queue and the invariant.
-/
namespace Sys2Proof.Machine
open Sys2Proof

/-- Whatever command takes effect, the state that it answers meets the invariant: one law for each meaning. -/
theorem exec_inv {s : State} (h : s.inv = true) (i : Instr) : OutcomeInv (exec i s) := by
  unfold exec
  cases i with
  | powerOn => exact execPowerOn_inv h
  | coreRailsGood => exact execCoreRailsGood_inv h
  | rstNAssert => exact execRstNAssert_inv h
  | rstNRelease => exact execRstNRelease_inv h
  | railLoss => exact execRailLoss_inv h
  | thermalTrip => exact execThermalTrip_inv h
  | romBoot => exact execRomBoot_inv h
  | imageLoad => exact execImageLoad_inv h
  | trialConfirm => exact execTrialConfirm_inv h
  | activateReset => exact execActivateReset_inv h
  | lifecycleReset => exact execLifecycleReset_inv h
  | settingsStoreWrite => exact execSettingsStoreWrite_inv h
  | updDataTimeout => exact execUpdDataTimeout_inv h
  | domainPowerUp => exact execDomainPowerUp_inv h
  | domainPowerDown => exact execDomainPowerDown_inv h
  | idleTimerExpiry => exact execIdleTimerExpiry_inv h
  | sidebandAddressMatch => exact execSidebandAddressMatch_inv h
  | comparatorWake => exact execComparatorWake_inv h
  | pwrTimerExpiry => exact execPwrTimerExpiry_inv h
  | mgtWakeFrame => exact execMgtWakeFrame_inv h
  | thermalSensorSample => exact execThermalSensorSample_inv h
  | shedStep => exact execShedStep_inv h
  | faultEventRecord => exact execFaultEventRecord_inv h
  | faultReaction => exact execFaultReaction_inv h
  | controlRestart => exact execControlRestart_inv h
  | voteScrub => exact execVoteScrub_inv h
  | registerWrite => exact execRegisterWrite_inv h
  | postedWriteLand => exact execPostedWriteLand_inv h
  | blkStatWrite => exact execBlkStatWrite_inv h
  | sysCtlRemapWrite => exact execSysCtlRemapWrite_inv h
  | fabSelCurWrite => exact execFabSelCurWrite_inv h
  | fabLdSnap => exact execFabLdSnap_inv h
  | ephGenLoad => exact execEphGenLoad_inv h
  | ephGenEnWrite => exact execEphGenEnWrite_inv h
  | lnqSleepWrite => exact execLnqSleepWrite_inv h
  | lnqLcfgWrite => exact execLnqLcfgWrite_inv h
  | lnqAdaptRestart => exact execLnqAdaptRestart_inv h
  | lnqAdaptFreeze => exact execLnqAdaptFreeze_inv h
  | lnqFomMinclr => exact execLnqFomMinclr_inv h
  | lnqPrbsWrite => exact execLnqPrbsWrite_inv h
  | lnqStxMaskGo => exact execLnqStxMaskGo_inv h
  | netRingSizeWrite => exact execNetRingSizeWrite_inv h
  | netRingPiWrite => exact execNetRingPiWrite_inv h
  | netCtlWrite => exact execNetCtlWrite_inv h
  | netFlowSnap => exact execNetFlowSnap_inv h
  | modXferGo => exact execModXferGo_inv h
  | modXferDone => exact execModXferDone_inv h
  | cyxRqPiWrite => exact execCyxRqPiWrite_inv h
  | cyxRingSizeWrite => exact execCyxRingSizeWrite_inv h
  | cyxRpCiWrite => exact execCyxRpCiWrite_inv h
  | audSnap => exact execAudSnap_inv h
  | audClkWrite => exact execAudClkWrite_inv h
  | timSnap => exact execTimSnap_inv h
  | timSetGo => exact execTimSetGo_inv h
  | timPulseLoad => exact execTimPulseLoad_inv h
  | refCtlForceWrite => exact execRefCtlForceWrite_inv h
  | mvwCurrentWrite => exact execMvwCurrentWrite_inv h
  | encEngEnWrite => exact execEncEngEnWrite_inv h
  | twnLeaseArm => exact execTwnLeaseArm_inv h
  | twnLeaseDrop => exact execTwnLeaseDrop_inv h
  | pwrDomEnWrite => exact execPwrDomEnWrite_inv h
  | dmcPatGo => exact execDmcPatGo_inv h
  | dmcPatDone => exact execDmcPatDone_inv h
  | memSetWrite => exact execMemSetWrite_inv h
  | skwErrAddrHiRead => exact execSkwErrAddrHiRead_inv h
  | fltInject => exact execFltInject_inv h
  | cyxelFragment => exact execCyxelFragment_inv h
  | reassemblyTimeout => exact execReassemblyTimeout_inv h
  | sessionIdleTimeout => exact execSessionIdleTimeout_inv h
  | sidebandBlockRead => exact execSidebandBlockRead_inv h
  | sysNop => exact execSysNop_inv h
  | sysInfo => exact execSysInfo_inv h
  | sysAlmanacRead => exact execSysAlmanacRead_inv h
  | sysResetUnit => exact execSysResetUnit_inv h
  | sysSessionOpen => exact execSysSessionOpen_inv h
  | sysSessionClose => exact execSysSessionClose_inv h
  | sysSubscribe => exact execSysSubscribe_inv h
  | cruCheck => exact execCruCheck_inv h
  | cruCommit => exact execCruCommit_inv h
  | cruReport => exact execCruReport_inv h
  | fabRoute => exact execFabRoute_inv h
  | fabRouteBatch => exact execFabRouteBatch_inv h
  | fabBondDefine => exact execFabBondDefine_inv h
  | fabQuery => exact execFabQuery_inv h
  | fabWindowStatus => exact execFabWindowStatus_inv h
  | fabSyncAssign => exact execFabSyncAssign_inv h
  | ephSchedule => exact execEphSchedule_inv h
  | ephCancel => exact execEphCancel_inv h
  | ephList => exact execEphList_inv h
  | ephSalvo => exact execEphSalvo_inv h
  | ephGenConfig => exact execEphGenConfig_inv h
  | lanConfig => exact execLanConfig_inv h
  | lanStatus => exact execLanStatus_inv h
  | lanFom => exact execLanFom_inv h
  | lanSleep => exact execLanSleep_inv h
  | lanSlotmask => exact execLanSlotmask_inv h
  | netPortConfig => exact execNetPortConfig_inv h
  | netFlowRx => exact execNetFlowRx_inv h
  | netFlowTx => exact execNetFlowTx_inv h
  | netFlowDel => exact execNetFlowDel_inv h
  | netRingSetup => exact execNetRingSetup_inv h
  | netModuleInfo => exact execNetModuleInfo_inv h
  | audRoute => exact execAudRoute_inv h
  | audPortConfig => exact execAudPortConfig_inv h
  | audRateStatus => exact execAudRateStatus_inv h
  | mvwHeadConfig => exact execMvwHeadConfig_inv h
  | mvwLayerSet => exact execMvwLayerSet_inv h
  | mvwCommit => exact execMvwCommit_inv h
  | mvwGraphicLoad => exact execMvwGraphicLoad_inv h
  | graphicLoadDone => exact execGraphicLoadDone_inv h
  | encChannelCreate => exact execEncChannelCreate_inv h
  | encChannelDelete => exact execEncChannelDelete_inv h
  | encRateSet => exact execEncRateSet_inv h
  | encStatus => exact execEncStatus_inv h
  | encXsDecodeCreate => exact execEncXsDecodeCreate_inv h
  | timDomainConfig => exact execTimDomainConfig_inv h
  | timStatus => exact execTimStatus_inv h
  | timPulseProgram => exact execTimPulseProgram_inv h
  | timRestep => exact execTimRestep_inv h
  | refTableSet => exact execRefTableSet_inv h
  | refStatus => exact execRefStatus_inv h
  | refFramepulse => exact execRefFramepulse_inv h
  | twnConfig => exact execTwnConfig_inv h
  | twnStatus => exact execTwnStatus_inv h
  | twnLeaseRequest => exact execTwnLeaseRequest_inv h
  | twnResync => exact execTwnResync_inv h
  | vltSlotStatus => exact execVltSlotStatus_inv h
  | vltDerive => exact execVltDerive_inv h
  | vltInvalidate => exact execVltInvalidate_inv h
  | vltImport => exact execVltImport_inv h
  | vltLifecycle => exact execVltLifecycle_inv h
  | memMapSet => exact execMemMapSet_inv h
  | memPasrSet => exact execMemPasrSet_inv h
  | memTrain => exact execMemTrain_inv h
  | fltQuery => exact execFltQuery_inv h
  | fltClear => exact execFltClear_inv h
  | fltHistory => exact execFltHistory_inv h
  | pwrDomainSet => exact execPwrDomainSet_inv h
  | pwrIdleTimer => exact execPwrIdleTimer_inv h
  | pwrWakeRecord => exact execPwrWakeRecord_inv h
  | updBegin => exact execUpdBegin_inv h
  | updData => exact execUpdData_inv h
  | updCommit => exact execUpdCommit_inv h
  | updVerifyDone => exact execUpdVerifyDone_inv h
  | updStatus => exact execUpdStatus_inv h
  | meridian => exact execMeridian_inv h
  | ephLoaderWrite => exact execEphLoaderWrite_inv h
  | landingFrameSelect => exact execLandingFrameSelect_inv h
  | outputCellRead => exact execOutputCellRead_inv h
  | fabricCellWrite => exact execFabricCellWrite_inv h
  | cellAgeExpiry => exact execCellAgeExpiry_inv h
  | sourceNoSignal => exact execSourceNoSignal_inv h
  | ldgLoss => exact execLdgLoss_inv h
  | staveSuperframeStart => exact execStaveSuperframeStart_inv h
  | stxLayoutLatch => exact execStxLayoutLatch_inv h
  | staveSuperframeReceive => exact execStaveSuperframeReceive_inv h
  | staveCellReceive => exact execStaveCellReceive_inv h
  | msgCellReceive => exact execMsgCellReceive_inv h
  | fomWindowEnd => exact execFomWindowEnd_inv h
  | adaptLmsUpdate => exact execAdaptLmsUpdate_inv h
  | sleepTransitionEnd => exact execSleepTransitionEnd_inv h
  | laneSignalDetect => exact execLaneSignalDetect_inv h
  | lnLos => exact execLnLos_inv h
  | lnCdrUnlock => exact execLnCdrUnlock_inv h
  | pllUnlock => exact execPllUnlock_inv h
  | ethLinkUp => exact execEthLinkUp_inv h
  | ethLinkDown => exact execEthLinkDown_inv h
  | ethAnFail => exact execEthAnFail_inv h
  | hostFrameReceive => exact execHostFrameReceive_inv h
  | macFrameTransmit => exact execMacFrameTransmit_inv h
  | pauseFrameReceive => exact execPauseFrameReceive_inv h
  | pauseExpiry => exact execPauseExpiry_inv h
  | ethPauseStorm => exact execEthPauseStorm_inv h
  | pauseHoldExpiry => exact execPauseHoldExpiry_inv h
  | mgtServiceFrame => exact execMgtServiceFrame_inv h
  | modulePoll => exact execModulePoll_inv h
  | moduleHoldExpiry => exact execModuleHoldExpiry_inv h
  | moduleLifeSample => exact execModuleLifeSample_inv h
  | moduleAccountWrite => exact execModuleAccountWrite_inv h
  | flowPacketReceive => exact execFlowPacketReceive_inv h
  | flowLineRelease => exact execFlowLineRelease_inv h
  | flowLoss => exact execFlowLoss_inv h
  | flowPacketLaunch => exact execFlowPacketLaunch_inv h
  | txBehind => exact execTxBehind_inv h
  | membershipQueryReceive => exact execMembershipQueryReceive_inv h
  | membershipReportSend => exact execMembershipReportSend_inv h
  | audioSampleEvaluate => exact execAudioSampleEvaluate_inv h
  | tdmFrame => exact execTdmFrame_inv h
  | audClkLoss => exact execAudClkLoss_inv h
  | tdmClockStop => exact execTdmClockStop_inv h
  | audioRateMeasure => exact execAudioRateMeasure_inv h
  | headMeridian => exact execHeadMeridian_inv h
  | bandStart => exact execBandStart_inv h
  | bandComplete => exact execBandComplete_inv h
  | headRowEmit => exact execHeadRowEmit_inv h
  | layerSofWrite => exact execLayerSofWrite_inv h
  | encRowDue => exact execEncRowDue_inv h
  | encRowCoded => exact execEncRowCoded_inv h
  | encDeadline => exact execEncDeadline_inv h
  | encPacketLaunch => exact execEncPacketLaunch_inv h
  | encRefreshPeriodStart => exact execEncRefreshPeriodStart_inv h
  | xsSliceEmit => exact execXsSliceEmit_inv h
  | xsSliceLost => exact execXsSliceLost_inv h
  | ptpSyncReceive => exact execPtpSyncReceive_inv h
  | ptpAnnounceReceive => exact execPtpAnnounceReceive_inv h
  | ptpDelayRespReceive => exact execPtpDelayRespReceive_inv h
  | ptpDelayReqSend => exact execPtpDelayReqSend_inv h
  | ptpPdelayReqReceive => exact execPtpPdelayReqReceive_inv h
  | timPtpLoss => exact execTimPtpLoss_inv h
  | timSecondTick => exact execTimSecondTick_inv h
  | chronographStep => exact execChronographStep_inv h
  | tcRelayForward => exact execTcRelayForward_inv h
  | timePulseEdge => exact execTimePulseEdge_inv h
  | refSelectionPass => exact execRefSelectionPass_inv h
  | refPulseArrival => exact execRefPulseArrival_inv h
  | refQualified => exact execRefQualified_inv h
  | refLoss => exact execRefLoss_inv h
  | framePulseEdge => exact execFramePulseEdge_inv h
  | heartbeatSend => exact execHeartbeatSend_inv h
  | heartbeatIntervalEnd => exact execHeartbeatIntervalEnd_inv h
  | heartbeatReceive => exact execHeartbeatReceive_inv h
  | rowsReceive => exact execRowsReceive_inv h
  | outhashSend => exact execOuthashSend_inv h
  | outhashReceive => exact execOuthashReceive_inv h
  | healthSend => exact execHealthSend_inv h
  | healthReceive => exact execHealthReceive_inv h
  | snapshotReceive => exact execSnapshotReceive_inv h
  | revertReceive => exact execRevertReceive_inv h
  | revertHoldoffExpiry => exact execRevertHoldoffExpiry_inv h
  | twinGenGap => exact execTwinGenGap_inv h
  | resyncConvergeEnd => exact execResyncConvergeEnd_inv h
  | twinResyncFail => exact execTwinResyncFail_inv h
  | resyncRetry => exact execResyncRetry_inv h
  | lookoutRequestSend => exact execLookoutRequestSend_inv h
  | lookoutReplyReceive => exact execLookoutReplyReceive_inv h
  | leaseExpiry => exact execLeaseExpiry_inv h
  | lkoFenceLow => exact execLkoFenceLow_inv h
  | bistTestStart => exact execBistTestStart_inv h
  | bistTestDone => exact execBistTestDone_inv h
  | vaultPowerUp => exact execVaultPowerUp_inv h
  | vaultScrub => exact execVaultScrub_inv h
  | vltTrngFail => exact execVltTrngFail_inv h
  | trngRetry => exact execTrngRetry_inv h
  | revokeSweep => exact execRevokeSweep_inv h
  | dramTraining => exact execDramTraining_inv h
  | dramTracking => exact execDramTracking_inv h
  | dramRefreshCheck => exact execDramRefreshCheck_inv h
  | skidwayTransaction => exact execSkidwayTransaction_inv h
  | masterResetDrain => exact execMasterResetDrain_inv h
  | cdrLock => exact execCdrLock_inv h
  | pllLock => exact execPllLock_inv h
  | mgtLinkDown => exact execMgtLinkDown_inv h
  | mgtLinkUp => exact execMgtLinkUp_inv h
  | ptpFollowUpReceive => exact execPtpFollowUpReceive_inv h
  | clk10mPhaseDetector => exact execClk10mPhaseDetector_inv h
  | ethFecDegrade => exact execEthFecDegrade_inv h
  | mirrorReplyReceive => exact execMirrorReplyReceive_inv h
  | memTrainDone => exact execMemTrainDone_inv h
  | unitReady => exact execUnitReady_inv h
  | watchdogExpiry => exact execWatchdogExpiry_inv h
  | blockIsolatesItself => exact execBlockIsolatesItself_inv h
  | lkoFenceHigh => exact execLkoFenceHigh_inv h

/-- A step runs the front of the queue on the state with the rest of it. -/
theorem step_cons {s : State} {c : Instr} {cs : List Instr} (hq : s.pending = c :: cs) : step s = exec c { s with pending := cs } := by
  simp only [step, hq]

/-- Without a command a step answers the same state. -/
theorem step_nil {s : State} (hq : s.pending = []) : step s = .next s := by
  simp only [step, hq]

/-- Settles O1: a step matches on the front of the queue. -/
theorem stepRunsFront : Obligations.StepRunsFront := fun _ _ _ => step_cons

/-- Settles O2: without a front a step idles. -/
theorem emptyQueueIdles : Obligations.EmptyQueueIdles := fun _ => step_nil

/-- Settles O3: an idle step changes nothing, and no command breaks the invariant, which says nothing of the queue. -/
theorem stepKeepsInvariant : Obligations.StepKeepsInvariant := by
  intro s t hs ht
  cases hq : s.pending with
  | nil =>
    rw [step_nil hq] at ht
    exact outcome_next hs t ht
  | cons c cs =>
    rw [step_cons hq] at ht
    exact exec_inv (State.inv_keep hs) c t ht

/-- Settles O4: nothing is listed after reset. -/
theorem resetMeetsInvariant : Obligations.ResetMeetsInvariant := rfl

end Sys2Proof.Machine
end

section
/-!
PROOFS. What the events of the Vault and of the DRAM checks leave as it was.
-/
namespace Sys2Proof.Machine
open Sys2Proof

section
variable (s : State) (dt : Nat)

/-- A passed retry shows TRNG_OK and ends the cause of the failure. -/
theorem trngRetry_leaves (pass : Bool) : Leaves State.besideVault (s.elapse dt) (exec (.trngRetry dt pass) s) :=
  leaves_next (besideVault_ite (fun _ => State.endCause_besideVault (State.wr_besideVault rfl)) fun _ => rfl)

/-- A failed health test clears TRNG_OK and raises its event. -/
theorem vltTrngFail_leaves : Leaves State.besideVault (s.elapse dt) (exec (.vltTrngFail dt) s) :=
  leaves_next (besideVault_ite (fun _ => State.raise_besideVault (State.wr_besideVault rfl)) fun _ => rfl)

/-- The sweep empties slots, reports them, and forgets which ones wait. -/
theorem revokeSweep_leaves : Leaves State.besideVault (s.elapse dt) (exec (.revokeSweep dt) s) := by
  refine leaves_next (State.countSlots_besideVault (besideVault_keep ?_))
  exact besideVault_foldl rfl fun _ _ ht => State.raise_besideVault (State.emptySlot_besideVault ht)

/-- A refresh rate is shown, and raises or ends its event. -/
theorem dramRefreshCheck_leaves (n rate : Nat) : Leaves State.besideVault (s.elapse dt) (exec (.dramRefreshCheck dt n rate) s) := by
  have hshown (v : Nat) : ((s.elapse dt).wr (Reg.DMC_STAT_REFRATE n) v).besideVault = (s.elapse dt).besideVault := State.wr_besideVault rfl
  exact leaves_next (besideVault_ite (fun _ => rfl) fun _ => besideVault_ite (fun _ => State.endCause_besideVault (hshown _)) fun _ =>
    besideVault_ite (fun _ => hshown _) fun _ => State.raise_besideVault (hshown _))

/-- A drift is counted, and raises its event where it is large. -/
theorem dramTracking_leaves (n : Nat) (drift : Int) : Leaves State.besideVault (s.elapse dt) (exec (.dramTracking dt n drift) s) := by
  have hcounted : ((s.elapse dt).bump (Reg.DMC_RETRAIN_COUNT n) 1).besideVault = (s.elapse dt).besideVault := State.bump_besideVault rfl
  exact leaves_next (besideVault_ite (fun _ => rfl) fun _ => besideVault_ite (fun _ => State.raise_besideVault hcounted) fun _ => hcounted)

/-- A pass of the pattern engine shows its end and its errors. -/
theorem dmcPatDone_leaves (n errors lanes : Nat) : Leaves State.besideVault (s.elapse dt) (exec (.dmcPatDone dt n errors lanes) s) :=
  leaves_next (besideVault_ite (fun _ => rfl) fun _ => State.wr_besideVault (State.wr_besideVault (State.wr_besideVault rfl)))

end

/-- Settles O54: each clause is the frame of its event above. -/
theorem vaultAndDramEventsLeaveTheRest : Obligations.VaultAndDramEventsLeaveTheRest := by
  intro dt s u hu
  subst hu
  exact ⟨trngRetry_leaves s dt, vltTrngFail_leaves s dt, revokeSweep_leaves s dt, dramRefreshCheck_leaves s dt, dramTracking_leaves s dt,
    dmcPatDone_leaves s dt⟩

end Sys2Proof.Machine
end

section
/-!
PROOFS. What a burst of the Skidway stores and reads.
-/
namespace Sys2Proof.Machine
open Sys2Proof

/-! ### The bytes of a memory -/

/-- Consecutive bytes that were written read back. -/
theorem Memory.read_writeN_self {m : Memory} {a : Nat} (bs : List Byte) (h : m.wf = true) {i : Nat} (hi : i < bs.length) :
    (m.writeN a bs).read (a + i) = bs[i] := by
  induction bs generalizing m a i with
  | nil => exact absurd hi (Nat.not_lt_zero i)
  | cons b bs ih =>
    cases i with
    | zero => rw [Memory.writeN, Memory.read_writeN_other bs (Memory.wf_write a b h) (by omega), Nat.add_zero, Memory.read_write_self a b h]; rfl
    | succ i =>
      have hlt : i < bs.length := Nat.lt_of_succ_lt_succ hi
      rw [Memory.writeN, show a + (i + 1) = a + 1 + i by omega, ih (Memory.wf_write a b h) hlt]
      rfl

/-- Writing byte `k` changes no other byte of the lost ranges: each of them stays in a range with its own free value. -/
theorem find_cutLost {k j : Nat} (hkj : j ≠ k) (l : List (Nat × Nat × Nat)) :
    ((l.flatMap (cutLost k)).find? fun r => decide (r.1 ≤ j ∧ j < r.2.1)).map (fun r => r.2.2) =
      (l.find? fun r => decide (r.1 ≤ j ∧ j < r.2.1)).map fun r => r.2.2 := by
  induction l with
  | nil => rfl
  | cons r l ih =>
    have hcut : ((cutLost k r).find? fun x => decide (x.1 ≤ j ∧ j < x.2.1)).map (fun x => x.2.2) =
        if r.1 ≤ j ∧ j < r.2.1 then some r.2.2 else none := by
      unfold cutLost
      split
      · simp only [List.filter_cons, List.filter_nil]
        grind
      · rw [List.find?_singleton]
        grind
    rw [List.flatMap_cons, List.find?_append, Option.map_or, hcut, ih, List.find?_cons]
    by_cases hr : r.1 ≤ j ∧ j < r.2.1
    · simp [hr]
    · simp [hr]

/-- A DRAM byte that is not written is as before. -/
theorem dramByte_dramPut_other {s : State} {k j : Nat} (b : Byte) (h : s.mem.dram.wf = true) (hkj : j ≠ k) :
    (s.dramPut k b).dramByte j = s.dramByte j := by
  have hlost := find_cutLost hkj s.mem.lost
  have hread : (s.mem.dram.write k b).read j = s.mem.dram.read j := Memory.read_write_other b h hkj
  simp only [State.dramByte, State.dramPut]
  revert hlost
  cases (s.mem.lost.flatMap (cutLost k)).find? fun r => decide (r.1 ≤ j ∧ j < r.2.1) <;>
    cases s.mem.lost.find? fun r => decide (r.1 ≤ j ∧ j < r.2.1) <;> simp_all

/-! ### The address decode -/

/-- The decode follows from the registers alone. -/
theorem decode_congr {s t : State} (h : t.regs = s.regs) (a : Nat) : t.decode a = s.decode a := by
  have hrd : State.rd t = State.rd s := funext (State.rd_congr h)
  unfold State.decode State.dramPlace State.flag
  rw [hrd]

/-- Where control SRAM lies (Table 17.2): at 0 when it is remapped, else at 0x1000000. -/
theorem decode_sram_iff {s : State} {a o : Nat} : s.decode a = .sram o ↔
    (s.flag Reg.SYS_CTL_REMAP = true ∧ a < 0x800000 ∧ o = a) ∨
      (s.flag Reg.SYS_CTL_REMAP = false ∧ 0x1000000 ≤ a ∧ a < 0x1800000 ∧ o + 0x1000000 = a) := by
  unfold State.decode
  cases s.flag Reg.SYS_CTL_REMAP <;> cases s.dramPlace a <;> grind

/-- A burst within one 256-byte block stays in control SRAM, for the places of control SRAM begin and end at such blocks. -/
theorem decode_sram_add {s : State} {a o i : Nat} (h : s.decode a = .sram o) (hi : a % 256 + i < 256) : s.decode (a + i) = .sram (o + i) := by
  rw [decode_sram_iff] at h ⊢
  obtain ⟨hr, ha, ho⟩ | ⟨hr, h1, h2, ho⟩ := h
  · exact .inl ⟨hr, by omega, by omega⟩
  · exact .inr ⟨hr, by omega, by omega, by omega⟩

/-! ### Stores -/

/-- Bytes whose addresses lie one after another in control SRAM are stored there, and nothing else changes. -/
theorem memWrite_sram {s : State} {a o : Nat} {d : List Byte} (h : ∀ i < d.length, s.decode (a + i) = .sram (o + i)) :
    s.memWrite a d = { s with mem := { s.mem with sram := s.mem.sram.writeN o d } } := by
  induction d generalizing s a o with
  | nil => rfl
  | cons b d ih =>
    have h0 : s.decode a = .sram o := h 0 (Nat.succ_pos _)
    have hput : s.memPut a b = { s with mem := { s.mem with sram := s.mem.sram.write o b } } := by simp only [State.memPut, h0]
    rw [State.memWrite, hput, ih fun i hi => ?_]
    · rfl
    · rw [decode_congr rfl, show a + 1 + i = a + (i + 1) by omega, show o + 1 + i = o + (i + 1) by omega]
      exact h (i + 1) (Nat.succ_lt_succ hi)

/-- `t` holds the bytes of `u`, in control SRAM and in DRAM, but for those at the `n` addresses from `a` on. -/
structure StoresWithin (u : State) (a n : Nat) (t : State) : Prop where
  sram : ∀ y, (∀ i < n, u.decode (a + i) ≠ .sram y) → t.mem.sram.read y = u.mem.sram.read y
  dram : ∀ k, (∀ i < n, ∀ m ch x, u.decode (a + i) = .dram m ch x → dramKey ch x ≠ k) → t.dramByte k = u.dramByte k

/-- `t` holds the same bytes as `u`. -/
structure SameBytes (u t : State) : Prop where
  sram : t.mem.sram = u.mem.sram
  dram : t.mem.dram = u.mem.dram
  lost : t.mem.lost = u.mem.lost

namespace SameBytes
variable {u v t : State}

theorem refl (u : State) : SameBytes u u := ⟨rfl, rfl, rfl⟩

theorem trans (h : SameBytes u v) (h' : SameBytes v t) : SameBytes u t :=
  ⟨h'.sram.trans h.sram, h'.dram.trans h.dram, h'.lost.trans h.lost⟩

theorem of_mem (h : t.mem = u.mem) : SameBytes u t := by
  constructor <;> rw [h]

theorem storesWithin (h : SameBytes u t) (a n : Nat) : StoresWithin u a n t :=
  ⟨fun y _ => by rw [h.sram], fun k _ => by simp only [State.dramByte, h.dram, h.lost]⟩

end SameBytes

/-- What comes after a store may change no byte. -/
theorem StoresWithin.trans {u v t : State} {a n : Nat} (h : StoresWithin u a n v) (h' : SameBytes v t) : StoresWithin u a n t :=
  ⟨fun y hy => by rw [h'.sram, h.sram y hy], fun k hk => by rw [← h.dram k hk]; simp only [State.dramByte, h'.dram, h'.lost]⟩

theorem memPut_regs (s : State) (a : Nat) (b : Byte) : (s.memPut a b).regs = s.regs := by
  unfold State.memPut
  split <;> rfl

theorem memPut_waiting (s : State) (a : Nat) (b : Byte) : (s.memPut a b).mem.waiting = s.mem.waiting := by
  unfold State.memPut
  split <;> rfl

/-- A byte that is stored changes no other byte. -/
theorem memPut_storesWithin {s : State} (a : Nat) (b : Byte) (h : s.inv = true) : StoresWithin s a 1 (s.memPut a b) := by
  unfold State.memPut
  split
  · next o hd =>
    refine ⟨fun y hy => Memory.read_write_other b (State.inv_sram h) ?_, fun k _ => rfl⟩
    rintro rfl
    exact hy 0 one_pos hd
  · next n ch o hd =>
    refine ⟨fun y _ => rfl, fun k hk => dramByte_dramPut_other b (State.inv_dram h) ?_⟩
    rintro rfl
    exact hk 0 one_pos n ch o hd rfl
  · exact (SameBytes.refl s).storesWithin a 1

/-- Bytes that are stored change no other byte. -/
theorem memWrite_storesWithin {s : State} (a : Nat) (d : List Byte) (h : s.inv = true) : StoresWithin s a d.length (s.memWrite a d) := by
  induction d generalizing s a with
  | nil => exact (SameBytes.refl s).storesWithin a 0
  | cons b d ih =>
    have hput := memPut_storesWithin a b h
    have hrest := ih (a + 1) (State.memPut_inv (a := a) (b := b) h)
    have hdec (i : Nat) : (s.memPut a b).decode (a + 1 + i) = s.decode (a + (i + 1)) := by
      rw [decode_congr (memPut_regs s a b), Nat.add_assoc, Nat.add_comm 1 i]
    refine ⟨fun y hy => ?_, fun k hk => ?_⟩
    · rw [State.memWrite, hrest.sram y fun i hi => by rw [hdec]; exact hy (i + 1) (Nat.succ_lt_succ hi),
        hput.sram y fun i hi => hy i (by simp only [List.length_cons]; omega)]
    · rw [State.memWrite, hrest.dram k fun i hi => by rw [hdec]; exact hk (i + 1) (Nat.succ_lt_succ hi),
        hput.dram k fun i hi => hk i (by simp only [List.length_cons]; omega)]

theorem memWrite_waiting (s : State) (a : Nat) (d : List Byte) : (s.memWrite a d).mem.waiting = s.mem.waiting := by
  induction d generalizing s a with
  | nil => rfl
  | cons b d ih => exact (ih _ _).trans (memPut_waiting s a b)

/-! ### Transactions -/

theorem releaseBurst_sameBytes (s : State) (b : Burst) : SameBytes s (s.releaseBurst b) := by
  unfold State.releaseBurst
  dsimp only
  split <;> exact ⟨rfl, rfl, rfl⟩

theorem endBurst_sameBytes (s : State) (b : Burst) : SameBytes s (s.endBurst b) := by
  unfold State.endBurst
  split
  · exact releaseBurst_sameBytes s b
  · exact .refl s

theorem holdBurst_sameBytes (s : State) (b : Burst) : SameBytes s (s.holdBurst b) := by
  unfold State.holdBurst
  dsimp only
  split <;> exact ⟨rfl, rfl, rfl⟩

theorem accessError_sameBytes (s : State) (m a t k : Nat) : SameBytes s (s.accessError m a t k) := by
  unfold State.accessError
  split
  · exact .refl s
  · refine .trans ?captured (.of_mem (State.raise_mem _ _ _ _))
    split
    · exact ⟨rfl, rfl, rfl⟩
    · exact .refl s

theorem respond_sameBytes (s : State) (m : Nat) (ok : Bool) (bytes : List Byte) : SameBytes s (s.respond m ok bytes) := .of_mem rfl

theorem refuseBurst_sameBytes (s : State) (m a len t k : Nat) (data : Option (List Byte)) : SameBytes s (s.refuseBurst m a len t k data) :=
  (accessError_sameBytes s m a t k).trans (respond_sameBytes _ _ _ _)

theorem awaitEntry_sameBytes (s : State) (c : Claim) : SameBytes s (s.awaitEntry c) := by
  unfold State.awaitEntry
  exact .trans (v := { s with mem := { s.mem with waiting := s.mem.waiting ++ [c] } }) ⟨rfl, rfl, rfl⟩ (.of_mem (State.raise_mem _ _ _ _))

/-- Serving a channel notes only whose turn it was. -/
theorem turn_sameBytes (s : State) (t m ch : Nat) : SameBytes s ((s.parked t m).tookTurn ch) := ⟨rfl, rfl, rfl⟩

theorem endBurst_waiting (s : State) (b : Burst) : (s.endBurst b).mem.waiting = s.mem.waiting := by
  unfold State.endBurst State.releaseBurst
  dsimp only
  split
  · split <;> rfl
  · rfl

theorem holdBurst_waiting (s : State) (b : Burst) : (s.holdBurst b).mem.waiting = s.mem.waiting := by
  unfold State.holdBurst
  dsimp only
  split <;> rfl

/-- With no request waiting, none is granted. -/
theorem grantAll_idle {s : State} (h : s.mem.waiting = []) : s.grantAll = s := by
  rw [State.grantAll, h, List.foldl_nil]

/-- A completed write stores its bytes. -/
theorem burstData_write (s : State) (b : Burst) (a : Nat) (d : List Byte) :
    s.burstData b a d.length (some d) .done = ((s.memWrite a d).endBurst b).respond b.master true [] := by
  have hd : s.burstData b a d.length (some d) .done = ((s.memWrite a (d.take d.length)).endBurst b).respond b.master true [] := rfl
  rw [hd, List.take_length]

theorem burstData_write_storesWithin {s : State} (b : Burst) (a : Nat) (d : List Byte) (h : s.inv = true) :
    StoresWithin s a d.length (s.burstData b a d.length (some d) .done) := by
  rw [burstData_write]
  exact (memWrite_storesWithin a d h).trans ((endBurst_sameBytes _ b).trans (respond_sameBytes _ _ _ _))

theorem burstData_write_waiting (s : State) (b : Burst) (a : Nat) (d : List Byte) :
    (s.burstData b a d.length (some d) .done).mem.waiting = s.mem.waiting := by
  rw [burstData_write]
  exact (endBurst_waiting _ b).trans (memWrite_waiting s a d)

/-- A state with the same registers and bytes stores within the same places. -/
theorem StoresWithin.of_sameBytes {u v t : State} {a n : Nat} (h : SameBytes u v) (hr : v.regs = u.regs) (ht : StoresWithin v a n t) :
    StoresWithin u a n t :=
  ⟨fun y hy => by rw [ht.sram y fun i hi => by rw [decode_congr hr]; exact hy i hi, h.sram],
    fun k hk => by
      rw [ht.dram k fun i hi => by rw [decode_congr hr]; exact hk i hi]
      simp only [State.dramByte, h.dram, h.lost]⟩

/-- What a DRAM channel makes of a write: it stores the bytes, or holds the burst while the pattern engine owns the channel. Either way
nothing new waits. -/
theorem serveDram_write {s : State} (b : Burst) (a : Nat) (d : List Byte) (h : s.inv = true) :
    StoresWithin s a d.length (s.serveDram b a d.length (some d) .done) ∧ (s.serveDram b a d.length (some d) .done).mem.waiting = s.mem.waiting := by
  have hturn := turn_sameBytes s b.target b.master b.channel
  unfold State.serveDram
  dsimp only
  split
  · split
    · exact ⟨hturn.storesWithin a _, rfl⟩
    · exact ⟨(hturn.trans (holdBurst_sameBytes _ b)).storesWithin a _, holdBurst_waiting _ b⟩
  · exact ⟨.of_sameBytes hturn rfl (burstData_write_storesWithin b a d (State.inv_keepMem h)), burstData_write_waiting _ b a d⟩

/-- A write to a DRAM channel stores its bytes there, or none. -/
theorem dramBurst_write {s : State} (m id a ch : Nat) (d : List Byte) (h : s.inv = true) (hw : s.mem.waiting = []) :
    StoresWithin s a d.length (s.dramBurst m id a d.length ch (some d) .done) := by
  unfold State.dramBurst
  extract_lets t b
  split
  · exact (refuseBurst_sameBytes s m a _ t 1 _).storesWithin a _
  · split
    · exact (refuseBurst_sameBytes s m a _ t 2 _).storesWithin a _
    · split
      · exact (awaitEntry_sameBytes s _).storesWithin a _
      · obtain ⟨hstore, hwait⟩ := serveDram_write b a d h
        rw [grantAll_idle (hwait.trans hw)]
        exact hstore

/-- A done burst of control SRAM raises nothing. -/
theorem sramEcc_done (s : State) (m : Nat) : s.sramEcc m .done = s := by
  unfold State.sramEcc
  cases masterCore m <;> rfl

/-- Wherever a write goes but to the register bus, it stores its bytes there, or none. -/
theorem skidway_write {s : State} (m id a : Nat) (d : List Byte) (h : s.inv = true) (hw : s.mem.waiting = []) (hr : ∀ r, s.decode a ≠ .register r) :
    StoresWithin s a d.length (s.skidway m id a d.length (some d) .done) := by
  have hrefuse (t k : Nat) : StoresWithin s a d.length (s.refuseBurst m a d.length t k (some d)) :=
    (refuseBurst_sameBytes s m a _ t k _).storesWithin a _
  unfold State.skidway
  split
  case h_1 => exact .of_sameBytes (v := { s with fresh := s.fresh + 1 }) (.of_mem rfl) rfl ((refuseBurst_sameBytes _ m a _ _ 0 _).storesWithin a _)
  case h_2 r hd => exact absurd hd (hr r)
  case h_3 =>
    split
    · exact hrefuse 0 1
    · split
      · exact hrefuse 0 2
      · exact hrefuse 0 3
  case h_4 =>
    split
    · exact hrefuse 1 1
    · split
      · exact hrefuse 1 2
      · rw [sramEcc_done]
        exact burstData_write_storesWithin _ a d h
  case h_5 n ch x _ => exact dramBurst_write m id a ch d h hw

/-- A burst within one 256-byte block of control SRAM, of a master that reaches it, is served there. -/
theorem skidway_sram {s : State} {m a o n : Nat} (id : Nat) (data : Option (List Byte)) (hd : s.decode a = .sram o) (hm : reachesTarget m 1 = true)
    (hn : a % 256 + n ≤ 256) : s.skidway m id a n data .done =
      s.burstData ⟨m, id, 1, 0, if data.isSome then 0 else n⟩ a n data .done := by
  simp only [State.skidway, hd, hm, sramEcc_done, Bool.not_true, Bool.false_eq_true, if_false, if_neg (Nat.not_lt.2 hn)]

/-- The Skidway, while it is powered, decodes and serves the transactions of a running master (R500). -/
theorem exec_skidwayTransaction_served {s : State} {dt m id n : Nat} (a : Nat) (data : Option (List Byte)) (fin : BurstEnd)
    (hm : (s.elapse dt).masterRuns m = true) (hid : id < 256) (hn : n ≠ 0) (hd : (s.elapse dt).domOn 3 = true) :
    exec (.skidwayTransaction dt m id a n data fin) s = .next ((s.elapse dt).skidway m id a n data fin) :=
  congrArg Host.Outcome.next ((if_neg (by simp [hm, hn, hid])).trans (if_pos (.inl hd)))

/-- Settles O58: a write of control SRAM is `memWrite` there, a read reads it, and every other write stores at the places of its own addresses
alone. -/
theorem memoryBurstsStoreTheirBytes : Obligations.MemoryBurstsStoreTheirBytes := by
  intro dt m id a o d s u hu hs hm hid hd h3
  subst hu
  have hinv := State.elapse_inv (dt := dt) hs
  have hlen : d.length ≠ 0 := mt List.length_eq_zero_iff.1 hd
  refine ⟨fun ho ht hb => ?write, fun ho ht hb => ?read, fun t hr hw ht => ?frame⟩
  case write =>
    have hin : ∀ i < d.length, (s.elapse dt).decode (a + i) = .sram (o + i) := fun i hi => decode_sram_add ho (by omega)
    refine ⟨_, exec_skidwayTransaction_served a (some d) .done hm hid hlen h3, ?_⟩
    rw [skidway_sram id (some d) ho ht hb, burstData_write, memWrite_sram hin]
    have hsame := endBurst_sameBytes { s.elapse dt with mem := { (s.elapse dt).mem with sram := (s.elapse dt).mem.sram.writeN o d } } ⟨m, id, 1, 0, 0⟩
    refine ⟨fun i hi => ?_, fun y hy => ?_, hsame.dram⟩
    · exact (congrArg (Memory.read · (o + i)) hsame.sram).trans (Memory.read_writeN_self d (State.inv_sram hinv) hi)
    · exact (congrArg (Memory.read · y) hsame.sram).trans (Memory.read_writeN_other d (State.inv_sram hinv) hy)
  case read =>
    refine ⟨_, exec_skidwayTransaction_served a none .done hm hid hlen h3, ?_⟩
    rw [skidway_sram id none ho ht hb]
    have hsame := endBurst_sameBytes (s.elapse dt) ⟨m, id, 1, 0, d.length⟩
    exact ⟨hsame.sram, hsame.dram, rfl⟩
  case frame =>
    rw [exec_skidwayTransaction_served a (some d) .done hm hid hlen h3] at ht
    cases ht
    obtain ⟨hsram, hdram⟩ := skidway_write m id a d hinv hw hr
    exact ⟨hsram, hdram⟩

end Sys2Proof.Machine
end

section
/-!
PROOFS. The FLT, PWR and UPD commands.
-/
namespace Sys2Proof.Machine
open Sys2Proof

/-! ### What the commands check and execute -/

/-- A record of an event has 32 bytes (Table 18.2). -/
@[simp] theorem Event.record_length (e : Event) (n : Nat) : (e.record n).length = 32 := by simp [Event.record]

/-- The fields of FLT_HISTORY. -/
theorem fltHistory_fields {u : State} {p : List Byte} (h : opFltHistory.refusal u false p = none) :
    p.length = 4 ∧ u8 p 0 < 2 ∧ zeroAt p 1 3 = true := by
  obtain ⟨hlen, hfields, -⟩ := (refusal_none _ _ _).1 h
  exact ⟨by simpa [opFltHistory] using hlen, by simpa [opFltHistory] using hfields⟩

/-- The fields of PWR_IDLE_TIMER. -/
theorem pwrIdleTimer_fields {u : State} {p : List Byte} (h : opPwrIdleTimer.refusal u false p = none) :
    p.length = 8 ∧ 1 ≤ u8 p 1 ∧ u8 p 0 + u8 p 1 ≤ 58 ∧ zeroAt p 2 2 = true ∧ u32 p 4 ≤ 65535 := by
  obtain ⟨hlen, hfields, -⟩ := (refusal_none _ _ _).1 h
  simp only [opPwrIdleTimer, List.append_nil, List.forall_mem_cons, decide_eq_true_eq] at hfields
  obtain ⟨-, ⟨hone, hsum⟩, hzero, htime, -⟩ := hfields
  exact ⟨by simpa [opPwrIdleTimer] using hlen, hone, hsum, hzero, htime⟩

/-- A range with a domain that has no idle timer fails the check of its first field (R553). -/
theorem pwrIdleTimer_refused {u : State} {p : List Byte} {i : Nat} (hp : p.length = 8) (hi : i < u8 p 1)
    (hn : u.hasIdleTimer (u8 p 0 + i) = false) : opPwrIdleTimer.refusal u false p = some (stBadParam, detail 24 0 0xFFFFFFFF) := by
  have hlen : opPwrIdleTimer.length p = true := by simp [opPwrIdleTimer, hp]
  have hall : ((List.range (u8 p 1)).all fun i => u.hasIdleTimer (u8 p 0 + i)) = false :=
    List.all_eq_false.2 ⟨i, List.mem_range.2 hi, by simp [hn]⟩
  have hbad : firstBad (opPwrIdleTimer.fields u p ++ opPwrIdleTimer.own u p) = some 24 := by simp [opPwrIdleTimer, firstBad, hall]
  simp only [OpSpec.refusal, hlen, Bool.not_true, Bool.false_eq_true, if_false, hbad]

/-- Writing a field of each of a list of domains changes registers alone. -/
theorem foldl_wr_regs (g : Nat → FieldRef) (n : Nat) (ds : List Nat) (u : State) :
    ds.foldl (fun t d => t.wr (g d) n) u = { u with regs := (ds.foldl (fun t d => t.wr (g d) n) u).regs } := by
  induction ds generalizing u with
  | nil => rfl
  | cons d ds ih =>
    rw [List.foldl_cons, ih]
    rfl

section
variable {u : State} {x : Ctx} {p : List Byte}

/-- FLT_HISTORY answers the header, the first error or 32 bytes 0, and the records (R535). -/
theorem run_fltHistory {first : List Byte} (hnone : u.flt.firstError = none → first = zeros 32)
    (hsome : ∀ e, u.flt.firstError = some e → first = e.record 0) : opFltHistory.run u x p =
      Done.ok (if bit (u8 p 0) 0 then u.wr Reg.FLT_STAT_HISTORY_LOST 0 else u)
        (be8 (u.rd Reg.FLT_STAT_HISTORY_LOST + 2 * b01 u.flt.firstError.isSome) ++ be8 u.flt.history.length ++ be16 0 ++
          be32 (u.rd Reg.FLT_HIST_LOST_COUNT) ++ first ++ u.flt.history.flatMap fun e => e.record 0) := by
  cases hf : u.flt.firstError with
  | none => simp only [opFltHistory, hf, hnone hf]
  | some e => simp only [opFltHistory, hf, hsome e hf]

/-- The first error of FLT_HISTORY has 32 bytes. -/
theorem firstError_length {first : List Byte} (hnone : u.flt.firstError = none → first = zeros 32)
    (hsome : ∀ e, u.flt.firstError = some e → first = e.record 0) : first.length = 32 := by
  cases hf : u.flt.firstError with
  | none => rw [hnone hf, zeros_length]
  | some e => rw [hsome e hf, Event.record_length]

/-- How many entries a clear has cleared, and how many remain (R534). -/
def clearReply (u v : State) : List Byte := be32 (u.flt.uncleared.length - v.flt.uncleared.length) ++ be32 v.flt.uncleared.length

/-- FLT_CLEAR with ALL clears what is not active, and the overflow flags (R529, R534). -/
theorem run_fltClear_all (hall : bit (u8 p 4) 0 = true) : opFltClear.run u x p =
    Done.ok (((u.wr Reg.FLT_STAT_OVF 0).wr Reg.FLT_STAT_OVF_CLASS 0).clearEntries fun e => !e.active)
      (clearReply u (((u.wr Reg.FLT_STAT_OVF 0).wr Reg.FLT_STAT_OVF_CLASS 0).clearEntries fun e => !e.active)) :=
  if_pos hall

/-- FLT_CLEAR of an entry that is not active clears it (R530). -/
theorem run_fltClear_ended (hall : bit (u8 p 4) 0 = false) (he : ∀ e ∈ u.flt.uncleared, e.num = u32 p 0 → e.active = false) :
    opFltClear.run u x p =
      Done.ok (u.clearEntries fun e => e.num == u32 p 0) (clearReply u (u.clearEntries fun e => e.num == u32 p 0)) := by
  have hno : (u.flt.uncleared.any fun e => e.num == u32 p 0 && e.active) = false := by
    simpa [List.any_eq_false] using he
  exact (if_neg (by rw [hall]; decide)).trans (if_neg (by rw [hno]; decide))

/-- FLT_CLEAR of an entry that is active is refused (R530). -/
theorem run_fltClear_active (hall : bit (u8 p 4) 0 = false) (he : ∃ e ∈ u.flt.uncleared, e.num = u32 p 0 ∧ e.active = true) :
    opFltClear.run u x p = ⟨u, stStillActive, detail 24 0 0xFFFFFFFF, []⟩ := by
  have hyes : (u.flt.uncleared.any fun e => e.num == u32 p 0 && e.active) = true := by
    simpa [List.any_eq_true] using he
  exact (if_neg (by rw [hall]; decide)).trans (if_pos hyes)

/-- UPD_BEGIN while nothing holds the update empties its target bank and opens the update (R567). -/
theorem run_updBegin_free (ho : (u.boot.update.any fun w => w.session != x.session) = false) (hv : u.boot.verify = none)
    (hb : u.boot.romServes = true ∨ (u.boot.bank u.runningBank).state ≠ 2) : opUpdBegin.run u x p =
      Done.ok { u with boot := { u.boot.putBank u.updateTarget ⟨1, [], u32 p 0, 0⟩ with
        update := some ⟨x.session, u.updateTarget, u32 p 0, 0, u.now⟩ } } (be8 u.updateTarget ++ zeros 3) := by
  refine if_neg ?_
  rintro (h | h | ⟨hr, hs⟩)
  · exact absurd (ho.symm.trans h) (by decide)
  · rw [hv] at h
    exact absurd h (by decide)
  · exact hb.elim (fun h => absurd hr (by rw [h]; decide)) fun h => h hs

/-- UPD_DATA at the expected offset, within the declared length, appends its bytes to the bank (R568). -/
theorem run_updData_fits {w : Update} (hw : u.openUpdate x.session = some w) (ho : u32 p 0 = w.received)
    (hl : w.received + (p.drop 4).length ≤ w.declared) {k : Bank} {b : BootState}
    (hk : k = { u.boot.bank w.target with bytes := (u.boot.bank w.target).bytes ++ p.drop 4 })
    (hb : b = if w.target = 0 then { u.boot with bankA := k } else { u.boot with bankB := k }) : opUpdData.run u x p =
      Done.ok { u with boot := { b with update := some { w with received := w.received + (p.drop 4).length, lastData := u.now } } } [] := by
  subst hk hb
  simp only [opUpdData, hw]
  exact if_neg (not_or.2 ⟨not_not.2 ho, hl.not_gt⟩)

/-- UPD_COMMIT of a complete update starts its verification (R569). -/
theorem run_updCommit_complete {w : Update} (hw : u.openUpdate x.session = some w) (hl : w.declared ≤ w.received) : opUpdCommit.run u x p =
    Done.pending { u with boot := { u.boot with verify := some (x.tag, x.session, bit (u8 p 0) 0) } } [] := by
  simp only [opUpdCommit, hw]
  exact if_neg hl.not_gt

/-- UPD_STATUS answers 24 bytes (R570). -/
theorem run_updStatus_length (u : State) (x : Ctx) (p : List Byte) : (opUpdStatus.run u x p).payload.length = 24 := by
  simp [opUpdStatus, Done.ok]

/-- PWR_DOMAIN_SET is executed at once or pending, never with an error of its own (R552). -/
theorem run_pwrDomainSet_status (u : State) (x : Ctx) (p : List Byte) : (opPwrDomainSet.run u x p).status < 2 := by
  unfold opPwrDomainSet
  dsimp only
  split
  · exact Done.ok_status_lt _ _
  · exact Done.pending_status_lt _ _

end

/-! ### The settled statements -/

/-- Settles O13: the header, the first error and the history make the reply. -/
theorem faultHistoryReplies : Obligations.FaultHistoryReplies := by
  refine ⟨fun u p h => fltHistory_fields h, ?_⟩
  rintro dt rq s u p h header first rfl hnone hsome
  refine ⟨by simp, firstError_length hnone hsome, next_serve h rfl (run_fltHistory hnone hsome)⟩

/-- Settles O14: an admitted command is what its execution gives, concluded. -/
theorem faultCommandsComplete : Obligations.FaultCommandsComplete := by
  intro dt rq s u p
  refine ⟨?query, ?all, ?ended, ?active⟩
  case query =>
    rintro h es page rfl rfl
    exact next_serve h rfl rfl
  case all =>
    rintro h hall v rfl
    exact next_serve h rfl (run_fltClear_all hall)
  case ended =>
    rintro h hall he v rfl
    exact next_serve h rfl (run_fltClear_ended hall he)
  case active => exact fun h hall he => next_serve h rfl (run_fltClear_active hall he)

/-- Settles O10: the reply is the record that the state holds. -/
theorem wakeRecordReplies : Obligations.WakeRecordReplies := by
  refine ⟨fun p => List.isEmpty_iff, fun dt rq s u p h => ⟨_, ?_, rfl, next_serve h rfl rfl⟩⟩
  simp

/-- Settles O11: the fields, the check that fails, and the timers that execution writes. -/
theorem idleTimerIsSet : Obligations.IdleTimerIsSet := by
  refine ⟨fun u p h => pwrIdleTimer_fields h, fun u p i hp hi hn => pwrIdleTimer_refused hp hi hn, ?_⟩
  rintro dt rq s u p h ds rfl v hv w rfl
  have hregs : v = { u with regs := v.regs } := by
    rw [hv]
    exact foldl_wr_regs _ _ _ _
  refine ⟨hregs, next_serve h rfl ?_⟩
  have hpwr : v.pwr = u.pwr := by rw [hregs]
  have hrun : opPwrIdleTimer.run u (ctxOf rq) p = Done.ok { v with pwr := { v.pwr with
      idleSince := v.pwr.idleSince.map fun e => if ((List.range (u8 p 1)).map fun i => u8 p 0 + i).contains e.1 then (e.1, u.now) else e } } [] := by
    rw [hv]
    rfl
  rw [hrun, hpwr]

/-- Settles O12: an admitted command is what its execution gives, weighed by Cruise where it is a change, and concluded. -/
theorem powerAndUpdateCommandsComplete : Obligations.PowerAndUpdateCommandsComplete := by
  intro dt rq s u p
  refine ⟨?domainSet, ?begin, ?data, ?commit, ?status⟩
  case domainSet =>
    rintro h m v rfl rfl d rfl hv
    exact next_weighed h rfl rfl (run_pwrDomainSet_status u (ctxOf rq) p) hv
  case begin => exact fun h ho hn hb => next_serve h rfl (run_updBegin_free ho hn hb)
  case data => exact fun h w hw ho hl k b hk hb => next_serve h rfl (run_updData_fits hw ho hl hk hb)
  case commit => exact fun h w hw hl => next_serve h rfl (run_updCommit_complete hw hl)
  case status => exact fun h => ⟨_, run_updStatus_length u (ctxOf rq) p, rfl, next_serve h rfl rfl⟩

end Sys2Proof.Machine
end

section
/-!
PROOFS. The power, reset and wake events.
-/
namespace Sys2Proof.Machine
open Sys2Proof

section
variable {s : State} {dt : Nat}

/-! ### Reset and rails -/

/-- RST_N that falls holds every domain in reset (R604). -/
theorem exec_rstNAssert_high (h : (s.elapse dt).pwr.rstLow = false) : exec (.rstNAssert dt) s =
    .next ({ s.elapse dt with pwr := { (s.elapse dt).pwr with rstLow := true } }.fullReset 1 false) :=
  congrArg Host.Outcome.next (if_neg (by rw [h]; decide))

/-- RST_N that is low already changes nothing. -/
theorem exec_rstNAssert_low (h : (s.elapse dt).pwr.rstLow = true) : exec (.rstNAssert dt) s = .next (s.elapse dt) :=
  congrArg Host.Outcome.next (if_pos h)

section
variable (rec : Bool) (hl : (s.elapse dt).pwr.rstLow = true)
include hl

/-- After a trip RST_N that rises while the sensor is hot starts nothing (R607). -/
theorem exec_rstNRelease_hot (ht : (s.elapse dt).pwr.tripped = true) : exec (.rstNRelease dt rec false) s =
    .next ({ s.elapse dt with pwr := { (s.elapse dt).pwr with rstLow := false } }.leaseGates) :=
  congrArg Host.Outcome.next ((if_neg (by rw [hl]; decide)).trans (if_pos ⟨ht, rfl⟩))

/-- RST_N that rises without a trip lets the part start, with the cause of the pin (R559, R604). -/
theorem exec_rstNRelease_untripped (cool : Bool) (ht : (s.elapse dt).pwr.tripped = false) : exec (.rstNRelease dt rec cool) s =
    .next ({ s.elapse dt with
      pwr := { (s.elapse dt).pwr with rstLow := false, tripped := false, thermN := true, recovery := rec }
      boot := { (s.elapse dt).boot with nextCause := 1 } }.leaseGates) := by
  change execRstNRelease dt rec cool s = _
  simp only [execRstNRelease, hl, ht, Bool.not_true, Bool.false_eq_true, if_false, false_and]

/-- RST_N that rises after a trip, with the sensor cool, lets the part start, with the cause of the trip (R559, R607). -/
theorem exec_rstNRelease_cool (ht : (s.elapse dt).pwr.tripped = true) : exec (.rstNRelease dt rec true) s =
    .next (({ s.elapse dt with
      pwr := { (s.elapse dt).pwr with rstLow := false, tripped := false, thermN := true, recovery := rec }
      boot := { (s.elapse dt).boot with nextCause := 6 } }.pin pinTherm 1).leaseGates) := by
  change execRstNRelease dt rec true s = _
  simp only [execRstNRelease, hl, ht, Bool.not_true, Bool.false_eq_true, if_false, if_true, and_false]

end

/-- A trip clamps the domains, unless reset holds them already, and shows at its pin (R607). -/
theorem exec_thermalTrip_untripped (h : (s.elapse dt).pwr.tripped = false) :
    ∀ v, v = (if (s.elapse dt).pwr.rstLow then s.elapse dt else (s.elapse dt).clampAll) →
      exec (.thermalTrip dt) s = .next ({ v with pwr := { v.pwr with tripped := true, thermN := false } }.pin pinTherm 0) := by
  rintro _ rfl
  exact congrArg Host.Outcome.next (if_neg (by rw [h]; decide))

/-! ### Domains -/

section
variable {d : Nat}

/-- The domain that is turned on next comes up; VDD_CORE is led to its target before domain 36 (R540, R541, R598). -/
theorem exec_domainPowerUp_next (good : PowerGood) (h : (s.elapse dt).nextUp = some d) : exec (.domainPowerUp dt d good) s =
    .next ((if d = 36 then (s.elapse dt).scaleCore good.ack else s.elapse dt).powerUp d good.good) :=
  congrArg Host.Outcome.next (if_pos h)

/-- The domain that is turned off next goes down: domain 1 with the delay of its own command, after any other Cruise marks what is over a
capacity (R539, R541, R552). -/
theorem exec_domainPowerDown_next (h : (s.elapse dt).nextDown = some d) : exec (.domainPowerDown dt d) s =
    .next ((if d = 1 then { (s.elapse dt).domainOff d with pwr := { ((s.elapse dt).domainOff d).pwr with pd01OffAt := none } }
      else ((s.elapse dt).domainOff d).noteOver).wakeWaiting.settle) :=
  congrArg Host.Outcome.next (if_pos h)

/-- A domain that has been on without work for its time goes off (R545, R546). -/
theorem exec_idleTimerExpiry_past (hi : (s.arrive dt).hasIdleTimer d = true) (ho : (s.arrive dt).domOn d = true) (he : (s.arrive dt).domEn d = true)
    (ha : (s.arrive dt).assigned d = false) (ht : (s.arrive dt).rd (Reg.PWR_IDLE_S d) ≠ 0)
    (hp : ∃ e ∈ (s.arrive dt).pwr.idleSince, e.1 = d ∧ e.2 + (s.arrive dt).rd (Reg.PWR_IDLE_S d) * 10 ^ 9 ≤ (s.arrive dt).now) :
    exec (.idleTimerExpiry dt d) s =
      .next ((((s.arrive dt).setEnables ((s.arrive dt).enMask ^^^ 2 ^ d)).noteOver).raise 0x3001 srcPower d) := by
  have hpast : ((s.arrive dt).pwr.idleSince.any fun e =>
      e.1 == d && decide (e.2 + (s.arrive dt).rd (Reg.PWR_IDLE_S d) * 10 ^ 9 ≤ (s.arrive dt).now)) = true := by
    obtain ⟨e, hmem, hd, hle⟩ := hp
    exact List.any_eq_true.2 ⟨e, hmem, by rw [hd, beq_self_eq_true, Bool.true_and, decide_eq_true_eq]; exact hle⟩
  refine congrArg Host.Outcome.next (if_pos ?_)
  rw [hi, ho, he, ha, hpast, decide_eq_true ht]
  rfl

end

/-! ### Wake sources -/

/-- The address of the part fires its source (R548). -/
theorem exec_sidebandAddressMatch_own (also : Nat) :
    exec (.sidebandAddressMatch dt ((s.elapse dt).rd Reg.PWR_SB_ADDR) also) s = .next ((s.elapse dt).fire 1 also) :=
  congrArg Host.Outcome.next (if_pos rfl)

/-- A timer that has run out stops and fires its source (R550). -/
theorem exec_pwrTimerExpiry_due (also : Nat) (ht : (s.elapse dt).pwr.timerAt.isSome = true) (hl : (s.elapse dt).timerLeft = 0) :
    exec (.pwrTimerExpiry dt also) s = .next ((s.elapse dt).timerStop.fire 16 also) :=
  congrArg Host.Outcome.next (if_pos ⟨ht, hl⟩)

/-- A frame with a sound FCS on the wake port, while domain 1 is off, fires the sources that it matches (R234). -/
theorem exec_mgtWakeFrame_sound {port : Nat} {bytes b : List Byte} (also : Nat) (hb : b = bytes.take (bytes.length - 4))
    (hd : (s.elapse dt).domOn 1 = false) (hp : (s.elapse dt).wakeSetting Reg.MGT_WAKE_PORT = port)
    (hf : fcsBytes b = bytes.drop (bytes.length - 4)) : exec (.mgtWakeFrame dt port bytes also) s =
      .next ((s.elapse dt).fire (4 * b01 (holdsAt (magicPattern port) b) + 8 * b01 ((s.elapse dt).patternMatch bytes)) also) := by
  subst hb
  refine congrArg Host.Outcome.next (if_neg ?_)
  simp [hd, hp, hf]

end

/-- Settles O31: each clause is the rule of its event above, or its meaning as it stands where nothing conditions it. -/
theorem powerEventsTakeEffect : Obligations.PowerEventsTakeEffect := by
  intro dt s u hu
  subst hu
  refine ⟨?powerOn, ?rails, ?fall, ?low, ?hot, ?untripped, ?cool, ?railLoss, ?trip, ?up, ?down, ?down1, ?idle, ?sideband, ?comparator, ?timer, ?frame⟩
  case powerOn => exact fun rec => rfl
  case rails => rfl
  case fall => exact exec_rstNAssert_high
  case low => exact exec_rstNAssert_low
  case hot =>
    rintro rec cool hl ht rfl
    exact exec_rstNRelease_hot rec hl ht
  case untripped => exact fun rec cool hl ht => exec_rstNRelease_untripped rec hl cool ht
  case cool => exact fun rec hl ht => exec_rstNRelease_cool rec hl ht
  case railLoss =>
    refine ⟨rfl, rfl, rfl, ?laneAnalog, ?dramIo⟩
    case laneAnalog =>
      rintro v rfl
      rfl
    case dramIo =>
      rintro v rfl
      rfl
  case trip => exact fun v h => exec_thermalTrip_untripped h v
  case up => exact fun d good h => exec_domainPowerUp_next good h
  case down =>
    intro d h hd
    rw [exec_domainPowerDown_next h, if_neg hd]
  case down1 =>
    rintro v h rfl
    rw [exec_domainPowerDown_next h, if_pos rfl]
  case idle =>
    rintro d v rfl hi ho he ha ht hp
    exact exec_idleTimerExpiry_past hi ho he ha ht hp
  case sideband => exact fun also => exec_sidebandAddressMatch_own also
  case comparator => exact fun also => rfl
  case timer => exact fun also ht hl => exec_pwrTimerExpiry_due also ht hl
  case frame => exact fun port bytes also b hb hd hp hf => exec_mgtWakeFrame_sound also hb hd hp hf

end Sys2Proof.Machine
end

section
/-!
PROOFS. The boot, update and restart events.
-/
namespace Sys2Proof.Machine
open Sys2Proof

section
variable {s : State} {dt : Nat}

/-! ### Start -/

/-- The ROM of a core that has not started reads the fuses and the cause, and goes on by the life cycle, RECOVERY_N and the banks (R560). -/
theorem exec_romBoot_starts (hd : (s.elapse dt).domOn 1 = true) (hf : (s.elapse dt).boot.firmwareSince = none)
    (hr : (s.elapse dt).boot.romServes = false) (hh : (s.elapse dt).flt.halted = false) :
    ∀ v, v = ((s.elapse dt).setEnables ((s.elapse dt).enMask ||| 2 ^ 57)).readFuses.wr Reg.SYS_BOOT_CAUSE (s.elapse dt).boot.nextCause →
      exec (.romBoot dt) s = .next (if v.vlt.lcs = 0 then v else if v.vlt.lcs = 5 then { v with boot := { v.boot with romServes := true } }
        else if v.pwr.recovery then v.recoveryMode else v.rejectTrial.tryBanks v.rejectTrial.boot.choice) := by
  rintro _ rfl
  exact congrArg Host.Outcome.next (if_neg (by rw [hd, hf, hr, hh]; decide))

/-- An image load that its domain admits, by the image that the running bank holds (R563, R611). -/
theorem exec_imageLoad_admitted {type d : Nat} (hf : (s.elapse dt).boot.firmwareSince.isSome = true) (hs : (imageUnits type).2.2 d = true)
    (ho : (s.elapse dt).domOn d = true) (he : (s.elapse dt).domEn d = true)
    (hg : (imageUnits type).2.1 = true → (s.elapse dt).rd Reg.MEM_STAT_GROUP_READY % 2 = 1) :
    exec (.imageLoad dt type d) s = .next (match (s.elapse dt).boot.imageOf (s.elapse dt).runningBank type with
      | some i => if (s.elapse dt).imageOk ((s.elapse dt).boot.bank (s.elapse dt).runningBank).bytes i then (s.elapse dt).imageRuns type d i
        else (s.elapse dt).raise 0x3104 (imageSource d) type
      | none => (s.elapse dt).raise 0x3104 (imageSource d) type) := by
  refine congrArg Host.Outcome.next (if_neg ?_)
  rw [Option.isNone_eq_false_iff.2 hf, hs, ho, he]
  rintro (h | h | h | h | ⟨hm, h⟩)
  · exact absurd h (by decide)
  · exact absurd h (by decide)
  · exact absurd h (by decide)
  · exact absurd h (by decide)
  · rw [hg hm] at h
    exact absurd h (by decide)

/-- 60 s without a FATAL event after the start make a TRIAL bank GOOD (R562). -/
theorem exec_trialConfirm_due {t : Nat} {b : Bank} (hf : (s.elapse dt).boot.firmwareSince = some t)
    (hb : b = (s.elapse dt).boot.bank (s.elapse dt).runningBank) (hs : b.state = 2) (ht : t + 60 * 10 ^ 9 ≤ (s.elapse dt).now)
    (hd : (s.elapse dt).flt.restartDue = false) (hq : ∀ f ∈ (s.elapse dt).flt.fatalTimes, f < t) : exec (.trialConfirm dt) s =
      .next ({ s.elapse dt with boot := (s.elapse dt).boot.putBank (s.elapse dt).runningBank { b with state := 3 } }.wr Reg.SYS_BOOT_TRIAL 0) := by
  subst hb
  have hquiet : ((s.elapse dt).flt.fatalTimes.any fun f => decide (t ≤ f)) = false :=
    List.any_eq_false.2 fun f hf => by simpa using hq f hf
  change execTrialConfirm dt s = _
  simp only [execTrialConfirm, hf]
  refine congrArg Host.Outcome.next (if_neg ?_)
  rw [hd, hquiet]
  rintro (h | h | h | h)
  · exact h hs
  · exact absurd h ht.not_gt
  · exact absurd h (by decide)
  · exact absurd h (by decide)

/-! ### Resets that are due -/

/-- A time that has come. -/
theorem any_le_of_some {o : Option Nat} {t n : Nat} (ho : o = some t) (ht : t ≤ n) : (o.any fun x => decide (x ≤ n)) = true := by
  rw [ho, Option.any_some]
  exact decide_eq_true ht

/-- The reset of UPD_COMMIT with ACTIVATE (R569). -/
theorem exec_activateReset_due {t : Nat} (ha : (s.elapse dt).boot.activateAt = some t) (ht : t ≤ (s.elapse dt).now) :
    exec (.activateReset dt) s = .next ((s.elapse dt).fullReset 3 false) :=
  congrArg Host.Outcome.next (if_pos (any_le_of_some ha ht))

/-- The reset of a life-cycle transition (R456). -/
theorem exec_lifecycleReset_due {t : Nat} (ha : (s.elapse dt).boot.lifecycleAt = some t) (ht : t ≤ (s.elapse dt).now) :
    exec (.lifecycleReset dt) s = .next ((s.elapse dt).fullReset 2 false) :=
  congrArg Host.Outcome.next (if_pos (any_le_of_some ha ht))

/-- The control region starts again, or the part where its TRIAL bank has no start left (R522, R562). -/
theorem exec_controlRestart_due (hr : (s.elapse dt).flt.restartDue = true) (hh : (s.elapse dt).flt.halted = false)
    (hd : (s.elapse dt).domOn 1 = true) : exec (.controlRestart dt) s =
      .next (if ((s.elapse dt).boot.bank (s.elapse dt).runningBank).state = 2 ∧ 2 ≤ (s.elapse dt).boot.trialStarts
        then (s.elapse dt).fullReset 5 false else (s.elapse dt).controlRestart) :=
  congrArg Host.Outcome.next (if_neg (by rw [hr, hh, hd]; decide))

/-! ### The settings store and updates -/

/-- The settings that wait are written to the other copy (R565). -/
theorem exec_settingsStoreWrite_due (hs : (s.elapse dt).boot.storeDue.isSome = true) (hf : (s.elapse dt).boot.firmwareSince.isSome = true) :
    exec (.settingsStoreWrite dt) s = .next { s.elapse dt with boot := { (s.elapse dt).boot with
      config := (s.elapse dt).currentConfig, configFormat := (s.elapse dt).boot.format, configValid := true
      storeCopy := 1 - (s.elapse dt).boot.storeCopy, storeDue := none } } :=
  congrArg Host.Outcome.next (if_neg (by rw [Option.isNone_eq_false_iff.2 hs, Option.isNone_eq_false_iff.2 hf]; decide))

/-- The verification of the update ends (R569). -/
theorem exec_updVerifyDone_running {v : Nat × Nat × Bool} {w : Update} (hv : (s.elapse dt).boot.verify = some v)
    (hw : (s.elapse dt).boot.update = some w) : exec (.updVerifyDone dt) s = .next ((s.elapse dt).updateVerified w v.1 v.2.1 v.2.2) := by
  change execUpdVerifyDone dt s = _
  simp only [execUpdVerifyDone, hv, hw]

/-- An update without data for 60 s is dropped (R568). -/
theorem exec_updDataTimeout_due {w : Update} (hw : (s.elapse dt).boot.update = some w) (hv : (s.elapse dt).boot.verify = none)
    (ht : w.lastData + 60 * 10 ^ 9 ≤ (s.elapse dt).now) :
    exec (.updDataTimeout dt) s = .next { s.elapse dt with boot := (s.elapse dt).boot.dropUpdate w.session } := by
  change execUpdDataTimeout dt s = _
  simp only [execUpdDataTimeout, hw]
  exact congrArg Host.Outcome.next (if_pos ⟨by rw [hv]; rfl, ht⟩)

end

/-- Settles O32: each clause is the rule of its event above; an image's clauses are what the running bank holds of it. -/
theorem bootEventsTakeEffect : Obligations.BootEventsTakeEffect := by
  intro dt s u hu
  subst hu
  refine ⟨?rom, ?image, ?trial, ?activate, ?lifecycle, ?settings, ?verify, ?timeout, ?restart⟩
  case rom => exact exec_romBoot_starts
  case image =>
    intro type d hf hs ho he hg
    have hload := exec_imageLoad_admitted hf hs ho he hg
    refine ⟨fun i hi hok => ?_, fun i hi hok => ?_, fun hi => ?_⟩
    · rw [hload, hi]
      exact congrArg Host.Outcome.next (if_pos hok)
    · rw [hload, hi]
      exact congrArg Host.Outcome.next (if_neg (by rw [hok]; decide))
    · rw [hload, hi]
  case trial => exact fun t b hf hb hs ht hd hq => exec_trialConfirm_due hf hb hs ht hd hq
  case activate => exact fun t => exec_activateReset_due
  case lifecycle => exact fun t => exec_lifecycleReset_due
  case settings =>
    rintro hs hf b rfl
    exact exec_settingsStoreWrite_due hs hf
  case verify => exact fun v w => exec_updVerifyDone_running
  case timeout => exact fun w => exec_updDataTimeout_due
  case restart => exact exec_controlRestart_due

end Sys2Proof.Machine
end

section
/-!
PROOFS. The VLT commands.
-/
namespace Sys2Proof.Machine
open Sys2Proof

/-! ### What the commands execute -/

section
variable {u : State} {x : Ctx} {p : List Byte} {t : Nat}

/-- A slot that is filled, counted, and ready for its sessions again. -/
def State.withSlot (u : State) (t : Nat) (y : Slot) : State := (u.fillSlot t y).countSlots.refilled t

/-- VLT_DERIVE from a usable parent fills a free slot with the key of the KDF, one level below its parent (R465, R479). -/
theorem run_vltDerive_parent (hp : u16 p 0 ≠ 0xFFFE) (hu : u.parentStatus (u16 p 0) = stOk) (ht : u.targetSlot (u16 p 2) = some t) {y : Slot}
    (hk : y.key = kdf256 (u.slot (u16 p 0)).key (bytesAt p 12 (u8 p 8)) (be16 (u16 p 6) ++ be16 (u16 p 4)))
    (hy : y = ⟨y.key, u16 p 4, u16 p 6, u16 p 0, (u.slot (u16 p 0)).level + 1, 1, 0, (u.slot (u16 p 0)).gen,
      Config.sha256 (bytesAt p 12 (u8 p 8)), 0, true, false⟩) :
    opVltDerive.run u x p = Done.ok (u.withSlot t y) ((u.withSlot t y).slotReply t) := by
  have hroot : (u16 p 0 == 0xFFFE) = false := by simpa using hp
  rw [hk] at hy
  subst hy
  simp only [opVltDerive, hroot, hu, ht, bne_self_eq_false, Bool.and_false, Bool.false_eq_true, if_false, State.withSlot]

/-- VLT_DERIVE from the life-cycle root fills a free slot with a key of level 1 (R465, R479). -/
theorem run_vltDerive_root (hp : u16 p 0 = 0xFFFE) (ht : u.targetSlot (u16 p 2) = some t) {y : Slot}
    (hk : y.key = kdf256 u.vlt.root (bytesAt p 12 (u8 p 8)) (be16 (u16 p 6) ++ be16 (u16 p 4)))
    (hy : y = ⟨y.key, u16 p 4, u16 p 6, 0xFFFE, 1, 1, 0, 0, Config.sha256 (bytesAt p 12 (u8 p 8)), 0, true, false⟩) :
    opVltDerive.run u x p = Done.ok (u.withSlot t y) ((u.withSlot t y).slotReply t) := by
  have hroot : (u16 p 0 == 0xFFFE) = true := beq_iff_eq.2 hp
  rw [hk, ← hp] at hy
  subst hy
  simp only [opVltDerive, hroot, ht, Bool.not_true, Bool.false_and, Bool.false_eq_true, if_false, if_true, State.withSlot]

/-- VLT_IMPORT of a key that is plain, or unwraps, fills a free slot (R481). -/
theorem run_vltImport_key (hm : u8 p 0 < 2) (hw : u8 p 0 ≠ 0 → u.wrapStatus (u16 p 4) = stOk) (ho : bit (u8 p 1) 0 = false)
    (ht : u.targetSlot (u16 p 2) = some t) {k : Key} (hk : u.importKey p = some k) : opVltImport.run u x p =
      Done.ok (u.withSlot t ⟨k, u16 p 6, u16 p 8, 0xFFFF, 1, 1, 0, 0, 0, 0, true, false⟩)
        ((u.withSlot t ⟨k, u16 p 6, u16 p 8, 0xFFFF, 1, 1, 0, 0, 0, 0, true, false⟩).slotReply t) := by
  have hwrap : ¬(u8 p 0 ≠ 0 ∧ u.wrapStatus (u16 p 4) ≠ stOk) := fun h => h.2 (hw h.1)
  have hlegacy : u8 p 0 ≠ 2 := by omega
  unfold opVltImport
  dsimp only
  rw [if_neg hwrap, ht]
  dsimp only
  rw [if_neg fun h => hlegacy h.1, hk]
  dsimp only
  have hotp : b01 false = 0 := rfl
  rw [ho, if_neg hlegacy, if_neg hlegacy, if_neg hlegacy, hotp, Nat.mul_zero, Nat.add_zero]
  rfl

/-- VLT_INVALIDATE of an EMPTY slot counts nothing (R480). -/
theorem run_vltInvalidate_empty (hs : (u.slot (u16 p 0)).state = 0) : opVltInvalidate.run u x p =
    Done.ok (if bit (u8 p 2) 0 then u.revokeOtp (u16 p 0) else u) (be32 0 ++ be32 0) :=
  if_pos hs

/-- VLT_INVALIDATE of a filled slot empties it and its descendants, and counts them and their users (R467, R480). -/
theorem run_vltInvalidate_filled (hs : (u.slot (u16 p 0)).state ≠ 0) : opVltInvalidate.run u x p =
    Done.ok ((if bit (u8 p 2) 0 then u.revokeOtp (u16 p 0) else u).invalidate (u16 p 0))
      (be32 ((u.descendants (u16 p 0)).length + 1) ++ be32 (u.keyUsers (u16 p 0 :: u.descendants (u16 p 0)))) :=
  if_neg hs

/-- VLT_LIFECYCLE of operation 0 changes the life cycle, and its reset follows 10 ms later (R455, R456). -/
theorem run_vltLifecycle_transition (h : u8 p 0 = 0) {w : VaultState} (hw : w = { u.vlt with
      lcs := u8 p 1, everDeployed := u.vlt.everDeployed || u8 p 1 == 3, devSteps := u.vlt.devSteps + b01 (u.vlt.lcs == 2 && u8 p 1 == 1) }) :
    (opVltLifecycle true).run u x p =
      Done.ok { u with vlt := w, boot := { u.boot with lifecycleAt := some (u.now + 10000000) } } [] := by
  subst hw
  exact if_pos h

/-- VLT_LIFECYCLE of operation 1 revokes a key of the boot ROM (R472). -/
theorem run_vltLifecycle_revoke (h : u8 p 0 = 1) {k : Nat} (hk : k = if bit u.vlt.keyRev (u8 p 1) then u.vlt.keyRev else u.vlt.keyRev + 2 ^ u8 p 1) :
    (opVltLifecycle true).run u x p = Done.ok ({ u with vlt := { u.vlt with keyRev := k } }.wr Reg.VLT_STAT_KEYREV k) [] := by
  subst hk
  exact (if_neg (by omega)).trans (if_pos h)

/-- VLT_LIFECYCLE of operation 2 raises the security floor (R472). -/
theorem run_vltLifecycle_floor (h : u8 p 0 = 2) : (opVltLifecycle true).run u x p =
    Done.ok ({ u with vlt := { u.vlt with floor := u8 p 1 } }.wr Reg.VLT_STAT_FLOOR (u8 p 1)) [] :=
  (if_neg (by omega)).trans (if_neg (by omega))

end

/-- Settles O15: an admitted command is what its execution gives, concluded. Where the entries of VLT_SLOT_STATUS end, and that fuses which
fail answer INTERNAL, is the model's choice (log entry 55). -/
theorem vaultCommandsComplete : Obligations.VaultCommandsComplete := by
  intro dt rq s u p
  refine ⟨?slotStatus, ?parent, ?root, ?import_, ?invalidate, ?lifecycle⟩
  case slotStatus =>
    rintro h n rfl
    exact next_serve h rfl rfl
  case parent =>
    rintro h hp hu t ht y hk hy v rfl
    exact next_serve h rfl (run_vltDerive_parent hp hu ht hk hy)
  case root =>
    rintro h hp t ht y hk hy v rfl
    exact next_serve h rfl (run_vltDerive_root hp ht hk hy)
  case import_ =>
    rintro h hm hw ho t ht k hk v rfl
    exact next_serve h rfl (run_vltImport_key hm hw ho ht hk)
  case invalidate =>
    rintro h v rfl
    exact ⟨fun hs => next_serve h rfl (run_vltInvalidate_empty hs), fun hs => next_serve h rfl (run_vltInvalidate_filled hs)⟩
  case lifecycle =>
    intro fuses h
    refine ⟨?failed, ?transition, ?revoke, ?floor⟩
    case failed =>
      rintro rfl
      exact next_serve h rfl rfl
    case transition =>
      rintro rfl h0 w hw
      exact next_serve h rfl (run_vltLifecycle_transition h0 hw)
    case revoke =>
      rintro rfl h1 k hk
      exact next_serve h rfl (run_vltLifecycle_revoke h1 hk)
    case floor =>
      rintro rfl h2
      exact next_serve h rfl (run_vltLifecycle_floor h2)

end Sys2Proof.Machine
end

section
/-!
PROOFS. The MEM and TWN commands.
-/
namespace Sys2Proof.Machine
open Sys2Proof

/-! ### What the commands execute -/

section
variable {u : State} {x : Ctx} {p : List Byte}

/-- MEM_TRAIN of channels that are there and whose domains are on is a training of none that is absent or off (R510). -/
theorem run_memTrain_present (h : ∀ c ∈ maskChannels (u64 p 0), u.present 0x12 c = true ∧ u.domOn (capDomain 0x12 c) = true) :
    opMemTrain.run u x p = u.startTraining x p (maskChannels (u64 p 0)) none none := by
  have habsent : ((maskChannels (u64 p 0)).find? fun c => !u.present 0x12 c) = none :=
    List.find?_eq_none.2 fun c hc => by rw [(h c hc).1]; decide
  have hoff : ((maskChannels (u64 p 0)).find? fun c => !u.domOn (capDomain 0x12 c)) = none :=
    List.find?_eq_none.2 fun c hc => by rw [(h c hc).2]; decide
  simp only [opMemTrain, habsent, hoff]

/-- TWN_CONFIG with usable slots stores its settings, and starts or stops twin operation where ENABLE changes it (R448). -/
theorem run_twnConfig_usable
    (h : bit (u8 p 0) 0 = true → u.slotStatus (u16 p 6) .twin ≠ stKeyRevoked ∧ u.slotStatus (u16 p 8) .lookout ≠ stKeyRevoked) :
    opTwnConfig.run u x p = Done.ok
      (if bit (u8 p 0) 0 = true ∧ u.twinOn = false then (u.twinSettings p).twinStart
        else if bit (u8 p 0) 0 = false ∧ u.twinOn = true then u.twinStop.twinSettings p else u.twinSettings p) [] := by
  unfold opTwnConfig
  dsimp only
  cases hen : bit (u8 p 0) 0 with
  | true =>
    obtain ⟨htwin, hlook⟩ := h hen
    rw [if_pos rfl, if_neg htwin, if_neg hlook]
    cases u.twinOn <;> rfl
  | false => cases u.twinOn <;> rfl

/-- TWN_LEASE_REQUEST releases, requests or swaps the lease, and waits for its answer (R450). -/
theorem run_twnLeaseRequest {w : Waits} (hw : w = .object 16 (u.now + u.twn.validityMs * 1000000 + 10000000)) :
    opTwnLeaseRequest.run u x p = Done.pending
      (if u8 p 0 = 2 then u.releaseLease.await ⟨x.tag, x.session, x.entry, .instant u.now, none⟩
        else if u8 p 0 = 1 then (if u.flag Reg.TWN_STAT_FENCE_PIN then u else u.lookoutSend 1).await ⟨x.tag, x.session, x.entry, w, none⟩
        else (u.twinSend 6 []).await ⟨x.tag, x.session, x.entry, w, none⟩) [] := by
  subst hw
  unfold opTwnLeaseRequest
  simp only [Nat.reducePow]
  by_cases hrelease : u8 p 0 = 2
  · rw [if_pos hrelease, if_pos hrelease]
  · rw [if_neg hrelease, if_neg hrelease]
    by_cases hrequest : u8 p 0 = 1
    · rw [if_pos hrequest, if_pos hrequest]
    · rw [if_neg hrequest, if_neg hrequest]

end

/-- Settles O26: an admitted command is what its execution gives, weighed by Cruise where it is a change, and concluded. That
regions whose key or place changes lose their contents is log entry 46, and what the twin commands leave open is log entry 47:
choices of the model. -/
theorem memoryAndTwinCommandsComplete : Obligations.MemoryAndTwinCommandsComplete := by
  intro dt rq s u p
  refine ⟨?mapSet, ?pasrSet, ?train, ?config, ?status, ?leaseRequest, ?resync⟩
  case mapSet =>
    rintro h v rfl hv
    exact next_weighed h rfl rfl (Done.ok_status_lt _ _) hv
  case pasrSet =>
    rintro h v rfl hv
    exact next_weighed h rfl rfl (Done.ok_status_lt _ _) hv
  case train => exact fun h hcs => next_serve h rfl (run_memTrain_present hcs)
  case config => exact fun h hslots => next_serve h rfl (run_twnConfig_usable hslots)
  case status =>
    intro h
    refine ⟨_, ?head, next_serve h rfl rfl⟩
    case head => simp only [List.append_assoc, be8, List.cons_append, List.nil_append, List.take_succ_cons, List.take_zero]
  case leaseRequest => exact fun h w hw => next_serve h rfl (run_twnLeaseRequest hw)
  case resync => exact fun h => next_serve h rfl rfl

end Sys2Proof.Machine
end

section
/-!
PROOFS. The TIM and REF commands.
-/
namespace Sys2Proof.Machine
open Sys2Proof

/-! ### What the TIM commands execute -/

section
variable {u : State} {x : Ctx} {p : List Byte}

/-- TIM_STATUS answers 64 bytes (R387). -/
theorem run_timStatus_length (u : State) (x : Ctx) (p : List Byte) : (opTimStatus.run u x p).payload.length = 64 := by
  simp [opTimStatus, Done.ok]

/-- TIM_PULSE_PROGRAM with ENABLE: the program waits in place of those that would take over later (R388). -/
theorem run_timPulseProgram_enable (h : bit (u8 p 1) 0 = true) {y : PulseOut} {g w : PulseProg} {first k : Nat} (hy : y = u.tp (u8 p 0))
    (hg : g = pulseOf p) (hf : first = g.edge (g.resume u.leadEnd).next) (hk : k = max first (y.busyAt first)) (hw : w = g.resume k) :
    opTimPulseProgram.run u x p = Done.ok
      ((u.tpRegs (u8 p 0) true g).modTp (u8 p 0) fun z => { z with waiting := (y.waiting.filter fun v => decide (v.1 < k)) ++ [(k, w)] })
      (timeBytes (w.edge w.next) ++ zeros 4) := by
  subst hy hg hf hk hw
  exact if_pos h

/-- TIM_PULSE_PROGRAM without ENABLE stops the output (R388). -/
theorem run_timPulseProgram_disable (h : bit (u8 p 1) 0 = false) : opTimPulseProgram.run u x p = Done.ok
    (((u.wr (Reg.TIM_PULSE_CTL_EN (u8 p 0)) 0).wr (Reg.TIM_PULSE_STAT_ARMED (u8 p 0)) 0).modTp (u8 p 0)
      fun y => { y with prog := none, waiting := [] }) (timeBytes 0 ++ zeros 4) :=
  if_neg (by rw [h]; decide)

/-- TIM_RESTEP while the Chronograph follows no PTP domain is NOT_READY (R389). -/
theorem run_timRestep_notReady (h : u.rd Reg.TIM_STAT_STATE < 2 ∨ u.rd Reg.TIM_STAT_SEL ≠ 1 ∧ u.rd Reg.TIM_STAT_SEL ≠ 2) :
    opTimRestep.run u x p = Done.err u stNotReady 0xFFFF :=
  if_pos (h.imp_right not_or.2)

/-- A Chronograph that follows a domain can restep. -/
theorem not_restepRefused (h : 2 ≤ u.rd Reg.TIM_STAT_STATE) (hsel : u.rd Reg.TIM_STAT_SEL = 1 ∨ u.rd Reg.TIM_STAT_SEL = 2) :
    ¬(u.rd Reg.TIM_STAT_STATE < 2 ∨ ¬(u.rd Reg.TIM_STAT_SEL = 1 ∨ u.rd Reg.TIM_STAT_SEL = 2)) :=
  not_or.2 ⟨Nat.not_lt.2 h, not_not.2 hsel⟩

/-- TIM_RESTEP while a step is decided is BUSY (R389). -/
theorem run_timRestep_busy (h : 2 ≤ u.rd Reg.TIM_STAT_STATE) (hsel : u.rd Reg.TIM_STAT_SEL = 1 ∨ u.rd Reg.TIM_STAT_SEL = 2)
    (hstep : u.tim.stepAt.isSome = true) : opTimRestep.run u x p = Done.err u stBusy 0xFFFF :=
  (if_neg (not_restepRefused h hsel)).trans (if_pos hstep)

/-- TIM_RESTEP decides a step, and its mirror carries the whole second of it (R389). -/
theorem run_timRestep_decides (h : 2 ≤ u.rd Reg.TIM_STAT_STATE) (hsel : u.rd Reg.TIM_STAT_SEL = 1 ∨ u.rd Reg.TIM_STAT_SEL = 2)
    (hstep : u.tim.stepAt = none) (hx : x.targets = []) {v : State} (hv : v = u.decideStep (some (x.session, x.tag)) none) :
    opTimRestep.run u x p =
      { Done.pending v [] with stamp := be16 1 ++ zeros 2 ++ be32 0 ++ frameRefBytes 0 (v.tim.stepAt.getD 0 / 1000000000) } := by
  subst hv
  refine (if_neg (not_restepRefused h hsel)).trans ((if_neg (by rw [hstep]; decide)).trans ?_)
  simp only [hx, List.head?_nil, Option.map_none, Nat.reducePow]

/-! ### What the REF commands execute -/

/-- REF_STATUS answers 144 bytes (R415). -/
theorem run_refStatus_length (u : State) (x : Ctx) (p : List Byte) : (opRefStatus.run u x p).payload.length = 144 := by
  simp [opRefStatus, Done.ok, List.length_flatMap]

/-- REF_FRAMEPULSE of the audio clock (R411, R416). -/
theorem run_refFramepulse_audio (ho : u8 p 0 = 6) : opRefFramepulse.run u x p =
    Done.ok (State.clockChanged u ((u.wr Reg.REF_ACLK_EN (u8 p 1 % 2)).wr Reg.REF_ACLK_SEL (u8 p 2)) 2) [] :=
  (if_neg (by omega)).trans (if_pos ho)

/-- REF_FRAMEPULSE of a video clock (R412, R416). -/
theorem run_refFramepulse_video {n : Nat} (ho : u8 p 0 = 4 + n) (hn : n < 2) : opRefFramepulse.run u x p =
    Done.ok (State.clockChanged u
      (((u.wr (Reg.REF_VCLK_EN n) (u8 p 1 % 2)).wr (Reg.REF_VCLK_FAMILY1 n) (u8 p 1 / 8 % 2)).wr (Reg.REF_VCLK_SEL n) (u8 p 2)) n) [] := by
  have hclock : n = u8 p 0 - 4 := by omega
  subst hclock
  exact (if_neg (by omega)).trans (if_neg (by omega))

/-- REF_FRAMEPULSE of a frame pulse output writes its settings, and what they change follows (R409, R410, R416). -/
theorem run_refFramepulse_pulse {o : Nat} (ho : u8 p 0 = o) (hlt : o < 4) {v : State}
    (hv : v = [(Reg.REF_FP_CTL_EN o, u8 p 1 % 2), (Reg.REF_FP_CTL_ACTIVE_LOW o, u8 p 1 / 2 % 2), (Reg.REF_FP_CTL_JUMP o, u8 p 1 / 4 % 2),
      (Reg.REF_FP_CTL_SRC o, u8 p 2), (Reg.REF_FP_WIDTH_NS o, u32 p 4), (Reg.REF_FP_OFS_NS o, u32 p 8)].foldl (fun t w => t.wr w.1 w.2) u) :
    opRefFramepulse.run u x p = Done.ok (State.fpChanged u v o) (timeBytes ((State.fpChanged u v o).fpOut o).next ++ zeros 4) := by
  subst ho hv
  exact if_pos hlt

end

section
variable {u v : State} {o : Nat}

/-- New settings of an enabled output plan its next pulse anew, a new source counting as a new phase (R410). -/
theorem fpChanged_enabled (h : v.flag (Reg.REF_FP_CTL_EN o) = true) : State.fpChanged u v o =
    (fun w : State => (w.fpPlan o).fpLevel o (w.fpOut o).endsAt.isSome)
      (if u.rd (Reg.REF_FP_CTL_SRC o) = v.rd (Reg.REF_FP_CTL_SRC o) then v
        else ((v.modFp o fun x => { x with flywheel := false, broken := false }).endCause 0x2B08 srcRef o).fpRebase o) :=
  if_neg (by rw [h]; decide)

/-- A disabled output rests at its inactive level. -/
theorem fpChanged_disabled (h : v.flag (Reg.REF_FP_CTL_EN o) = false) : State.fpChanged u v o =
    (((v.modFp o fun _ => FpOut.reset).endCause 0x2B08 srcRef o).fpStat o).fpLevel o false :=
  if_pos (by rw [h]; decide)

end

/-- Settles O24: an admitted command is what its execution gives, concluded. That a step is mirrored with its whole second and
that a new program displaces those that would take over later are log entries 139 and 143: choices of the model. -/
theorem timeCommandsComplete : Obligations.TimeCommandsComplete := by
  intro dt rq s u p
  refine ⟨?config, ?status, ?enable, ?disable, ?restep, ?notReady, ?busy⟩
  case config => exact fun h => next_serve h rfl rfl
  case status =>
    intro h
    refine ⟨_, run_timStatus_length u (ctxOf rq) p, ?head, next_serve h rfl rfl⟩
    case head => simp only [opTimStatus, Done.ok, List.append_assoc, be8, List.cons_append, List.nil_append, List.take_succ_cons, List.take_zero]
  case enable => exact fun h hen _ _ _ _ _ hx hg hf hk hw => next_serve h rfl (run_timPulseProgram_enable hen hx hg hf hk hw)
  case disable => exact fun h hen => next_serve h rfl (run_timPulseProgram_disable hen)
  case restep => exact fun h hst hsel hnone _ hv => next_serve h rfl (run_timRestep_decides hst hsel hnone rfl hv)
  case notReady => exact fun h hst => next_serve h rfl (run_timRestep_notReady hst)
  case busy => exact fun h hst hsel hsome => next_serve h rfl (run_timRestep_busy hst hsel hsome)

/-- Settles O25: an admitted command is what its execution gives, concluded. -/
theorem referenceCommandsComplete : Obligations.ReferenceCommandsComplete := by
  intro dt rq s u p
  refine ⟨?table, ?status, ?audio, ?video, ?pulse⟩
  case table => exact fun h => next_serve h rfl rfl
  case status =>
    intro h
    refine ⟨_, run_refStatus_length u (ctxOf rq) p, ?head, next_serve h rfl rfl⟩
    case head => simp only [opRefStatus, Done.ok, List.append_assoc, be8, List.cons_append, List.nil_append, List.take_succ_cons, List.take_zero]
  case audio =>
    rintro h ho v rfl
    exact next_serve h rfl (run_refFramepulse_audio ho)
  case video =>
    rintro h n ho hn v rfl
    exact next_serve h rfl (run_refFramepulse_video ho hn)
  case pulse =>
    rintro h o f ho rfl hlt v hv
    have hrun := next_serve h rfl (run_refFramepulse_pulse (x := ctxOf rq) ho.symm hlt hv)
    refine ⟨?enabled, ?disabled⟩
    case enabled =>
      rintro hen w rfl z rfl
      rw [fpChanged_enabled hen] at hrun
      exact hrun
    case disabled =>
      rintro hen z rfl
      rw [fpChanged_disabled hen] at hrun
      exact hrun

end Sys2Proof.Machine
end

section
/-!
PROOFS. The MVW commands.
-/
namespace Sys2Proof.Machine
open Sys2Proof

/-- A change that its execution refuses is not weighed. -/
theorem next_refused {op : OpSpec} {dt : Nat} {rq : Req} {s u : State} {p : List Byte} {d : Done} (h : Admits op dt rq s u p)
    (hd : op.run u (ctxOf rq) p = d) (hs : 2 ≤ d.status) :
    Host.Outcome.next (φ := Fault) (ρ := Refusal) (serve op dt rq s) = .next (State.conclude op rq p d) := by
  have hperform : op.perform u (ctxOf rq) p = d := by
    simp only [OpSpec.perform, ctxOf, h.passed]
    exact (if_neg fun hw => hs.not_gt (hd ▸ hw.2)).trans hd
  simp only [serve, h.started, isMirror_own h.own]
  exact congrArg (fun d => Host.Outcome.next (State.conclude op rq p d)) hperform

/-- A request that finds its object busy is refused. -/
theorem busy_refuses {u : State} {o : Nat} : 2 ≤ (Done.err u stBusy o).status := by
  change 2 ≤ stBusy
  decide

/-! ### What the commands execute -/

section
variable {u : State} {x : Ctx} {rq : Req} {p : List Byte}

/-- MVW_HEAD_CONFIG queues its change for the head's frame, takes the ports of the video layers with ENABLE, and waits (R326). -/
theorem run_mvwHeadConfig {h fmt g : Nat} {en : Bool} {c : HeadChange} (hh : h = u8 p 0) (hen : en = bit (u8 p 1) 0)
    (hfmt : fmt = if en then u8 p 2 else (u.headAt h u.leadEnd).fmt) (hg : g = if en then u8 p 3 else (u.headAt h u.leadEnd).gen)
    (hc : c = ⟨u.headFrame fmt g u.leadEnd, u.changeId, some (en, u8 p 2, u8 p 3, u8 p 4, u32 p 8), none, [], fmt, g, u.leadEnd⟩)
    {v w : State} (hv : v = u.admitChange h c) (hw : w =
      (if en then (u.headForm h (u.changesBefore h c)).sets.videos.foldl (fun t x => t.takePorts 2 (layerUser h x.1 false) true x.2.source g) v
        else v).await ⟨x.tag, x.session, x.entry, .object 12 u.changeId, none⟩) :
    opMvwHeadConfig.run u x p = Done.pending w
      (frameRefBytes g c.frame ++ be8 (v.changeEngines h u.changeId) ++ zeros 3 ++ be16 (slotNo (headSlot h (u8 p 2))) ++ zeros 2) := by
  subst hh hen hfmt hg hc hv hw
  rfl

/-- MVW_COMMIT while one of its heads has a commit waiting is BUSY (R328). -/
theorem run_mvwCommit_busy (h : ((maskHeads (u16 p 0)).any fun h => (u.head h).waiting.any fun (w : HeadChange) => w.commit.isSome) = true) :
    opMvwCommit.run u x p = Done.err u stBusy 0xFFFF := by
  unfold opMvwCommit
  dsimp only
  rw [if_pos h]

/-- A request that was not mirrored stamps no frame: each head of its mask has the frame that it has by itself. -/
theorem commit_frames (hs : List Nat) (form : Nat → HeadForm) (frame : Nat → Nat) :
    (hs.zipIdx.map fun h => (h.1, form h.1, ((([] : List (Nat × Nat))[h.2]?).map fun r => r.2).getD (frame h.1))) =
      hs.map fun h => (h, form h, frame h) := by
  have hfst : hs.map (fun h => (h, form h, frame h)) = (hs.zipIdx.map Prod.fst).map fun h => (h, form h, frame h) := by rw [List.zipIdx_map_fst]
  rw [hfst, List.map_map]
  exact List.map_congr_left fun h _ => by simp only [List.getElem?_nil, Option.map_none, Option.getD_none, Function.comp_apply]

/-- MVW_COMMIT queues a commit of every head of its mask, and waits (R328). -/
theorem run_mvwCommit_free {hs : List Nat} {t id : Nat} (hhs : hs = maskHeads (u16 p 0))
    (ht : t = if bit (u8 p 2) 0 then u.takeTime (timeAt p 4) else u.leadEnd) (hid : id = u.changeId)
    (h : (hs.any fun h => (u.head h).waiting.any fun (w : HeadChange) => w.commit.isSome) = false) {f : Nat → Nat}
    (hf : f = fun h => u.headFrame (u.headAt h t).fmt (u.headAt h t).gen t) {w : State}
    (hw : w = (hs.foldl (fun y h => y.admitHead h (f h) id t (u.headAt h t)) u).await ⟨rq.tag, rq.session, 0, .object 11 id, none⟩) :
    opMvwCommit.run u (ctxOf rq) p = Done.pending w
      (be32 hs.length ++ hs.flatMap fun h => be8 h ++ be8 (w.changeEngines h id) ++ zeros 2 ++ frameRefBytes (u.headAt h t).gen (f h)) := by
  subst hhs hid hw hf
  unfold opMvwCommit
  dsimp only [ctxOf]
  rw [if_neg (by rw [h]; decide), ← ht, commit_frames _ (fun h => u.headAt h t) fun h => u.headFrame (u.headAt h t).fmt (u.headAt h t).gen t,
    List.foldl_map, List.flatMap_map]
  rfl

/-! ### MVW_GRAPHIC_LOAD (R329) -/

/-- The load that MVW_GRAPHIC_LOAD starts is numbered after those in progress. -/
def State.loadId (u : State) : Nat := (u.mvw.loads.map fun (l : GfxLoad) => l.id).foldl max 0 + 1

/-- Does a load of the same kind into the target of the payload run? -/
def State.targetLoads (u : State) (p : List Byte) : Bool := u.mvw.loads.any fun l => l.kind == u8 p 0 && l.target == u32 p 4

/-- MVW_GRAPHIC_LOAD while its target loads is BUSY. -/
theorem run_mvwGraphicLoad_loading (h : u.targetLoads p = true) : opMvwGraphicLoad.run u x p = Done.err u stBusy 0xFFFF :=
  if_pos h

/-- MVW_GRAPHIC_LOAD with DELETE removes the graphic and its buffer. -/
theorem run_mvwGraphicLoad_delete (h : u.targetLoads p = false) (hk : u8 p 0 = 0) (hd : bit (u8 p 1) 0 = true) {v w : State}
    (hv : v = { u with mvw := { u.mvw with graphics := u.mvw.graphics.filter fun g => g.handle != u32 p 4 } }.freeBuffer 3 (u32 p 4))
    (hw : w = v.await ⟨x.tag, x.session, x.entry, .instant u.now, none⟩) : opMvwGraphicLoad.run u x p = Done.pending w (be32 (u32 p 4)) := by
  subst hv hw
  exact (if_neg fun hl => Bool.false_ne_true (h.symm.trans hl)).trans (if_pos ⟨hk, hd⟩)

/-- MVW_GRAPHIC_LOAD of a 1 025th graphic is BUSY. -/
theorem run_mvwGraphicLoad_full (h : u.targetLoads p = false) (hk : u8 p 0 = 0) (hd : bit (u8 p 1) 0 = false) (ht : u32 p 4 = 0)
    (hl : 1024 ≤ u.mvw.graphics.length) : opMvwGraphicLoad.run u x p = Done.err u stBusy 0xFFFF :=
  (if_neg fun hl => Bool.false_ne_true (h.symm.trans hl)).trans
    ((if_neg fun hdel => Bool.false_ne_true (hd.symm.trans hdel.2)).trans (if_pos ⟨hk, ht, hl⟩))

/-- MVW_GRAPHIC_LOAD of a bar or a coefficient set starts its load. -/
theorem run_mvwGraphicLoad_table (h : u.targetLoads p = false) (hk : u8 p 0 ≠ 0) {m : MvwState}
    (hm : m = { u.mvw with loads := u.mvw.loads ++ [⟨u8 p 0, u32 p 4, u16 p 8, u16 p 10, u64 p 16, u32 p 24, u.loadId⟩] }) {w : State}
    (hw : w = { u with mvw := m }.await ⟨x.tag, x.session, x.entry, .object 13 u.loadId, none⟩) :
    opMvwGraphicLoad.run u x p = Done.pending w (be32 (u32 p 4)) := by
  subst hm hw
  refine (if_neg fun hl => Bool.false_ne_true (h.symm.trans hl)).trans
    ((if_neg fun hdel => hk hdel.1).trans ((if_neg fun hfull => hk hfull.1).trans ?_))
  have hnew : ¬(u8 p 0 = 0 ∧ u32 p 4 = 0) := fun hn => hk hn.1
  simp only [if_neg hk, if_neg hnew, List.append_nil, Nat.max_zero, State.loadId]

/-- MVW_GRAPHIC_LOAD of a graphic starts its load, into a new graphic where the target is 0. -/
theorem run_mvwGraphicLoad_graphic (h : u.targetLoads p = false) (hk : u8 p 0 = 0) (hd : bit (u8 p 1) 0 = false)
    (hroom : u32 p 4 = 0 → u.mvw.graphics.length < 1024) {o : Nat} (ho : o = if u32 p 4 = 0 then u.mvw.lastGraphic + 1 else u32 p 4)
    {m : MvwState} (hm : m = { u.mvw with
      graphics := u.mvw.graphics ++ if u32 p 4 = 0 then [⟨o, u16 p 8, u16 p 10, [], false, false⟩] else []
      lastGraphic := max u.mvw.lastGraphic o
      loads := u.mvw.loads ++ [⟨0, o, u16 p 8, u16 p 10, u64 p 16, u32 p 24, u.loadId⟩] }) {w : State}
    (hw : w = ({ u with mvw := m }.allocBuffer 7 o (u8 p 12) (u16 p 8 * u16 p 10 * 4)).2.await
      ⟨x.tag, x.session, x.entry, .object 13 u.loadId, none⟩) : opMvwGraphicLoad.run u x p = Done.pending w (be32 o) := by
  subst ho hm hw
  refine (if_neg fun hl => Bool.false_ne_true (h.symm.trans hl)).trans ((if_neg fun hdel => Bool.false_ne_true (hd.symm.trans hdel.2)).trans
    ((if_neg fun hfull => (hroom hfull.2.1).not_ge hfull.2.2).trans ?_))
  simp only [hk, true_and, if_true, State.loadId]

end

/-- Settles O22: an admitted command is what its execution gives, weighed by Cruise where it is a change, and concluded. The
1 024 graphics at most are the model's choice (log entry 51). -/
theorem multiviewerCommandsComplete : Obligations.MultiviewerCommandsComplete := by
  intro dt rq s u p
  refine ⟨?layerSet, ?headConfig, ?commitBusy, ?commit, ?loading, ?delete, ?table, ?full, ?graphic⟩
  case layerSet =>
    rintro h x base rfl rfl
    exact next_serve h rfl rfl
  case headConfig =>
    intro adm h en fmt g c hh hen hfmt hg hc v w hv hw hfit
    exact next_weighed adm rfl (run_mvwHeadConfig hh hen hfmt hg hc hv hw) (Done.pending_status_lt _ _) hfit
  case commitBusy =>
    rintro h hs rfl hb
    exact next_refused h (run_mvwCommit_busy hb) busy_refuses
  case commit =>
    intro h hs t id hhs ht hid hb f hf w hw hfit
    exact next_weighed h rfl (run_mvwCommit_free hhs ht hid hb (funext hf) hw) (Done.pending_status_lt _ _) hfit
  case loading => exact fun h hl => next_refused h (run_mvwGraphicLoad_loading hl) busy_refuses
  case delete => exact fun h hl hk hd v hv w hw hfit => next_weighed h rfl (run_mvwGraphicLoad_delete hl hk hd hv hw) (Done.pending_status_lt _ _) hfit
  case table =>
    rintro h hl hk id rfl m hm w hw hfit
    exact next_weighed h rfl (run_mvwGraphicLoad_table hl hk hm hw) (Done.pending_status_lt _ _) hfit
  case full => exact fun h hl hk hd ht hn => next_refused h (run_mvwGraphicLoad_full hl hk hd ht hn) busy_refuses
  case graphic =>
    rintro h hl hk hd hroom o id ho rfl m hm w hw hfit
    exact next_weighed h rfl (run_mvwGraphicLoad_graphic hl hk hd hroom ho hm hw) (Done.pending_status_lt _ _) hfit

end Sys2Proof.Machine
end

section
/-!
PROOFS. The ENC commands.
-/
namespace Sys2Proof.Machine
open Sys2Proof

/-! ### What the commands execute -/

section
variable {u : State} {rq : Req} {p : List Byte}

/-- A channel is found by its handle. -/
theorem encChan_handle {h : Nat} {x : EncChan} (hx : u.encChan h = some x) : x.handle = h := by
  have h : (x.handle == h) = true := List.find?_some (p := fun y : EncChan => y.handle == h) hx
  exact beq_iff_eq.1 h

/-- A decoder is found by its handle. -/
theorem decoder_handle {h : Nat} {x : XsDecoder} (hx : u.decoder h = some x) : 0x50000 + x.d = h := by
  have h : (0x50000 + x.d == h) = true := List.find?_some (p := fun y : XsDecoder => 0x50000 + y.d == h) hx
  exact beq_iff_eq.1 h

/-- A request that was not mirrored stamps no frame: a channel starts at its generator's first frame 200 µs ahead. -/
theorem encFrame_own (g : Nat) : u.encFrame (ctxOf rq) g = u.target g u.leadEnd := by
  unfold State.encFrame
  exact Option.getD_none

/-- ENC_CHANNEL_CREATE without a free handle is BUSY (R363). -/
theorem run_encChannelCreate_busy (h : u.freeEnc (decide ((encOfPayload p).codec < 2)) = none) :
    opEncChannelCreate.run u (ctxOf rq) p = Done.err u stBusy 0xFFFF := by
  unfold opEncChannelCreate
  dsimp only [ctxOf]
  rw [if_neg Bool.false_ne_true, h]

/-- ENC_CHANNEL_CREATE adds its channel with its first frame, engines and ports, and waits (R363). -/
theorem run_encChannelCreate_free {x : EncChan} {h f0 n d per skip : Nat} (hx : x = encOfPayload p) (hh : u.freeEnc (decide (x.codec < 2)) = some h)
    (hf0 : f0 = u.target x.gen u.leadEnd) (hn : n = u.encN x) (hd : d = u.encD x) (hper : per = if x.codec < 2 then max 1 x.n else 1)
    (hskip : skip = if meridianAt n d f0 < u.chrono then (frameAt n d u.chrono + 1 - f0 + (per - 1)) / per * per else 0)
    {e : Nat} {y : EncChan} (he : e = if x.codec < 2 then enginesFor x.width x.height n d else 0)
    (hy : y = { x with handle := h, f0 := f0, pic := skip, start := skip, pc := if x.codec < 2 then skip / per else 0, frame := f0 + skip
                       m0 := meridianAt n d (f0 + skip), engines := u.encFree.take e })
    {t v w : State} (ht : t = { u with enc := { u.enc with chans := u.enc.chans ++ [y] } })
    (hv : v = t.takePorts (if x.codec < 2 then 3 else 4) h false (t.encSource y) x.gen)
    (hw : w = ((((if x.codec < 2 then (v.allocBuffer 4 h x.set y.refBytes).2 else v).encRegs.wr (Reg.ENC_CH_STAT_ENGINES y.block) y.engines.length).wr
        (Reg.ENC_CH_STAT_DIVERGED y.block) 0).await ⟨rq.tag, rq.session, 0, .object 15 h, none⟩)) :
    opEncChannelCreate.run u (ctxOf rq) p = ⟨w, stPending,
      be32 h ++ be8 y.engines.length ++ be8 (if x.codec < 2 then teamSize e else 0) ++
        be8 (if x.codec < 2 then e / max 1 (teamSize e) else 0) ++ be8 (u.encLevel x) ++ frameRefBytes x.gen f0 ++ be32 (w.encDelay y) ++
        be16 (if x.codec < 2 then u.headerBits x / 8 else 0) ++ zeros 2, encTrailer h x.gen f0⟩ := by
  subst hw hv ht hy he hskip hper hd hn hf0 hx
  have hown : (ctxOf rq).mirrored = false := rfl
  have hnot : b01 false = 0 := rfl
  unfold opEncChannelCreate
  dsimp only
  rw [hown, if_neg Bool.false_ne_true, hh, encFrame_own]
  simp only [decide_eq_true_eq, Bool.and_false, EncChan.user, hnot]
  rfl

/-- ENC_CHANNEL_DELETE of a channel that a deletion holds is BUSY (R364). -/
theorem run_encChannelDelete_busy {x : EncChan} (hx : u.encChan (u32 p 0) = some x) (hd : x.deleting.isSome = true) :
    opEncChannelDelete.run u (ctxOf rq) p = Done.err u stBusy 0xFFFF := by
  unfold opEncChannelDelete
  dsimp only [ctxOf]
  rw [hx]
  exact if_pos hd

/-- ENC_CHANNEL_DELETE of a channel gives it its stop frame, and waits (R364). -/
theorem run_encChannelDelete_channel {x : EncChan} {f : Nat} (hx : u.encChan (u32 p 0) = some x) (hd : x.deleting = none)
    (hf : f = x.stopFrame (bit (u8 p 4) 0)) : opEncChannelDelete.run u (ctxOf rq) p =
      ⟨((u.putEnc { x with deleting := some (x.pic + (f - x.frame)) }).await ⟨rq.tag, rq.session, 0, .object 14 (u32 p 0), none⟩).endChannel (u32 p 0),
        stPending, [], encTrailer (u32 p 0) x.gen f⟩ := by
  subst hf
  unfold opEncChannelDelete
  dsimp only [ctxOf]
  rw [hx]
  dsimp only
  rw [if_neg (by rw [hd]; decide)]
  rfl

/-- ENC_CHANNEL_DELETE of a decoder ends it with the frame in release, or at once, and waits (R364). -/
theorem run_encChannelDelete_decoder {x : XsDecoder} {r : Option (Nat × Nat)} {f : Nat} (hc : u.encChan (u32 p 0) = none)
    (hx : u.decoder (u32 p 0) = some x)
    (hr : r = (u.net.flows.find? fun f => !f.tx && f.handle == x.flow).bind (fun (f : Flow) => f.releasing))
    (hf : f = (match (generalizing := false) r with
      | some k => k.1 + 1
      | none => u.decoderFrame x.flow u.chrono)) {ds : List XsDecoder}
    (hds : ds = (u.enc.decs.map fun (y : XsDecoder) => if y.d = x.d then { y with deleting := some f } else y))
    {v : State} (hv : v = { u with enc := { u.enc with decs := ds } }.await ⟨rq.tag, rq.session, 0, .object 14 (u32 p 0), none⟩) :
    opEncChannelDelete.run u (ctxOf rq) p =
      ⟨if r.isSome then v else v.endDecoder x.d, stPending, [], encTrailer (u32 p 0) (u.decoderGen x.flow) f⟩ := by
  subst hv hds
  unfold opEncChannelDelete
  dsimp only [ctxOf]
  rw [hc, hx]
  dsimp only
  rw [← hr]
  cases r with
  | none => subst hf; rfl
  | some k => subst hf; rfl

/-- ENC_RATE_SET adds its rate to those that wait (R365). -/
theorem run_encRateSet {x : EncChan} {f id : Nat} {q : Option Nat} (hx : u.encChan (u32 p 0) = some x) (hf : f = u.rateFrame x)
    (hq : q = if bit (u8 p 4) 0 then some (u8 p 5) else none)
    (hid : id = (u.enc.chans.flatMap fun (y : EncChan) => y.rates.map fun (r : RateChange) => r.id).foldl max 0 + 1) {v : State}
    (hv : v = (u.putEnc { x with rates := x.rates ++ [⟨u64 p 8, q, f, id⟩] }).await ⟨rq.tag, rq.session, 0, .object 18 id, none⟩) :
    opEncRateSet.run u (ctxOf rq) p = ⟨v, stPending, frameRefBytes x.gen f, encTrailer x.handle x.gen f⟩ := by
  subst hv hid hq hf
  unfold opEncRateSet
  dsimp only [ctxOf]
  rw [hx]
  rfl

/-- The counters of a reply of Table 12.9, with its delay. -/
def State.encStatusBody (u : State) (b delay : Nat) : List Byte :=
  be32 (u.rd (Reg.ENC_CH_CLAMP_COUNT b)) ++ be32 (u.rd (Reg.ENC_CH_MIN_COUNT b)) ++ be32 (u.rd (Reg.ENC_CH_LATE_COUNT b)) ++
    be32 (u.rd (Reg.ENC_CH_DIVERGE_COUNT b)) ++ be32 (u.rd (Reg.ENC_CH_WITHHELD_COUNT b)) ++ be32 delay ++ be32 (u.rd (Reg.ENC_CH_LOST_COUNT b)) ++ zeros 4

/-- A reply of Table 12.9 is its head and its counters. -/
theorem encStatus_eq (h codec st engines level pics per budget used b delay : Nat) : u.encStatus h codec st engines level pics per budget used b delay =
    (be32 h ++ be8 codec ++ be8 st ++ be8 engines ++ be8 level ++ be64 pics ++ be64 per ++ be32 budget ++ be32 used) ++ u.encStatusBody b delay := by
  simp only [State.encStatus, State.encStatusBody, List.append_assoc]

/-- The state that ENC_STATUS leaves: its counters cleared with CLEAR (R366). -/
def State.encCleared (u : State) (p : List Byte) (b : Nat) : State := if bit (u8 p 4) 0 then (encCounters b).foldl (fun t f => t.wr f 0) u else u

/-- ENC_STATUS of a channel answers its status and counters (R366). -/
theorem run_encStatus_channel {x : EncChan} {run : Bool} (hx : u.encChan (u32 p 0) = some x) (hrun : run = u.flag (Reg.ENC_CH_STAT_RUN x.block))
    {head : List Byte} (hhead : head = be32 (u32 p 0) ++ be8 x.codec ++
      be8 (b01 run + 2 * b01 u.authority + 4 * b01 (u.diverged x) + 8 * b01 (u.flag (Reg.ENC_CH_STAT_DEGRADED x.block)) + 16 * b01 (!run)) ++
      be8 x.engines.length ++ be8 (u.encLevel x) ++ be64 x.done ++ be64 ((x.shownBook.map fun (k : Book) => k.period).getD 0) ++
      be32 (u.rd (Reg.ENC_CH_BUDGET_BYTES x.block)) ++ be32 (u.rd (Reg.ENC_CH_USED_BYTES x.block))) :
    opEncStatus.run u (ctxOf rq) p = Done.ok (u.encCleared p x.block) (head ++ u.encStatusBody x.block (u.encDelay x)) := by
  subst hhead hrun
  unfold opEncStatus
  dsimp only
  rw [hx]
  dsimp only
  rw [encStatus_eq, encChan_handle hx]
  rfl

/-- ENC_STATUS of a decoder answers its status and counters (R366). -/
theorem run_encStatus_decoder {x : XsDecoder} {f : Option Flow} (hc : u.encChan (u32 p 0) = none) (hx : u.decoder (u32 p 0) = some x)
    (hf : f = u.net.flows.find? (fun f => !f.tx && f.handle == x.flow)) {head : List Byte}
    (hhead : head = be32 (u32 p 0) ++ be8 (if (f.map fun (f : Flow) => f.sampling).getD 0 = 0 then 2 else 3) ++
      be8 (b01 x.next.isSome + 2 * b01 u.authority + 16 * b01 x.next.isNone) ++ zeros 2 ++ zeros 24) :
    opEncStatus.run u (ctxOf rq) p =
      Done.ok (u.encCleared p (112 + x.d)) (head ++ u.encStatusBody (112 + x.d) ((f.map fun (f : Flow) => f.timing).getD 0)) := by
  subst hhead
  have hzero : zeros 2 ++ zeros 24 = be8 0 ++ be8 0 ++ be64 0 ++ be64 0 ++ be32 0 ++ be32 0 := by decide
  unfold opEncStatus
  dsimp only
  rw [hc, hx]
  dsimp only
  rw [encStatus_eq, decoder_handle hx, ← hf, List.append_assoc _ (zeros 2), hzero]
  simp only [List.append_assoc]
  rfl

/-- The decoder that ENC_XS_DECODE_CREATE takes: the one that it names, or the lowest free one. -/
def State.decoderFor (u : State) (p : List Byte) : Option Nat :=
  if u8 p 4 = 0xFF then (List.range 64).find? fun d => !(u.enc.decs.any fun x => x.d == d) && u.isReady 0x19 d else some (u8 p 4)

/-- ENC_XS_DECODE_CREATE without a free decoder is BUSY (R367). -/
theorem run_encXsDecodeCreate_busy (h : u.decoderFor p = none) : opEncXsDecodeCreate.run u (ctxOf rq) p = Done.err u stBusy 0xFFFF := by
  unfold opEncXsDecodeCreate
  dsimp only [ctxOf]
  rw [if_neg Bool.false_ne_true]
  unfold State.decoderFor at h
  rw [h]

/-- ENC_XS_DECODE_CREATE adds its decoder, and the measurement of its slot begins (R367). -/
theorem run_encXsDecodeCreate_free {n f0 : Nat} (h : u.decoderFor p = some n) (hf0 : f0 = u.decoderFrame (u32 p 0) u.leadEnd) {t : State} {k : Nat}
    (ht : t = { u with enc := { u.enc with decs := u.enc.decs ++ [(⟨n, u32 p 0, none, if u.twinOn then f0 else 0, none, none⟩ : XsDecoder)] } }.encRegs)
    (hk : k = (match t.flowByHandle (u32 p 0) with
      | some f => (t.asWriter f).slotKey
      | none => 1168 + n)) :
    opEncXsDecodeCreate.run u (ctxOf rq) p = ⟨t.beginMeasure k, stOk, be32 (0x50000 + n) ++ be8 n ++ zeros 1 ++ be16 (slotNo k),
      encTrailer (0x50000 + n) (u.decoderGen (u32 p 0)) f0⟩ := by
  subst hf0 hk ht
  unfold opEncXsDecodeCreate
  dsimp only [ctxOf]
  rw [if_neg Bool.false_ne_true]
  unfold State.decoderFor at h
  rw [h]
  rfl

end

/-- Settles O23: an admitted command is what its execution gives, weighed by Cruise where it is a change, and concluded. BUSY
without a free handle or decoder and for a second deletion is the model's choice (log entries 52 and 137). -/
theorem encoderCommandsComplete : Obligations.EncoderCommandsComplete := by
  intro dt rq s u p
  refine ⟨?createBusy, ?create, ?deleteBusy, ?deleteChannel, ?deleteDecoder, ?rate, ?status, ?decodeBusy, ?decode⟩
  case createBusy => exact fun h hfree => next_refused h (run_encChannelCreate_busy hfree) busy_refuses
  case create =>
    intro adm x h f0 n d per skip hx hh hf0 hn hd hper hskip e y he hy t v w ht hv hw hfit
    exact next_weighed adm rfl (run_encChannelCreate_free hx hh hf0 hn hd hper hskip he hy ht hv hw) (by change stPending < 2; decide) hfit
  case deleteBusy => exact fun h x hx hd => next_serve h rfl (run_encChannelDelete_busy hx hd)
  case deleteChannel => exact fun h x f hx hd hf => next_serve h rfl (run_encChannelDelete_channel hx hd hf)
  case deleteDecoder => exact fun h x r f hc hx hr hf ds hds v hv => next_serve h rfl (run_encChannelDelete_decoder hc hx hr hf hds hv)
  case rate =>
    intro h x f q id hx hf hq hid v hv hfit
    exact next_weighed h rfl (run_encRateSet hx hf hq hid hv) (by change stPending < 2; decide) hfit
  case status =>
    rintro adm h v b delay head body rfl rfl rfl
    refine ⟨?channel, ?decoder⟩
    case channel =>
      rintro x run hx rfl rfl hrun hhead
      exact next_serve adm rfl (run_encStatus_channel hx hrun hhead)
    case decoder =>
      rintro x f hc hx rfl hf rfl hhead
      exact next_serve adm rfl (run_encStatus_decoder hc hx hf hhead)
  case decodeBusy => exact fun h hp hfree => next_refused h (run_encXsDecodeCreate_busy ((if_pos hp).trans hfree)) busy_refuses
  case decode =>
    intro h n f0 hn hf0 t k ht hk hfit
    exact next_weighed h rfl (run_encXsDecodeCreate_free hn hf0 ht hk) (by change stOk < 2; decide) hfit

end Sys2Proof.Machine
end

section
/-!
PROOFS. The register rows of the system blocks: reading SKW_ERR_ADDR_HI ends the record of a posted write whose travel is over.
-/
namespace Sys2Proof.Machine
open Sys2Proof

/-- The posted writes that a step leaves as landed. -/
def landingAfter : Host.Outcome State Fault Refusal → List (Nat × Nat)
  | .next s => s.pwr.landing
  | _ => []

/-- A powered part on which a posted write to the window of the Skidway (5) has landed: its travel ended at time 0, so its BLK_STAT shows no
WPEND, but it is still listed. -/
def landedInSkidway : State :=
  { State.reset with pwr := { PowerState.reset with landing := [(5, 0)] } }.wr64 Reg.PWR_DOM_ON_LO_ON Reg.PWR_DOM_ON_HI_ON (2 ^ 58 - 1)

/-- Ranger core 0 may read SKW_ERR_ADDR_HI on that part, and no write to the window travels. -/
theorem landedInSkidway_readable : (landedInSkidway.elapse 0).masterRuns 8 = true ∧
    (landedInSkidway.elapse 0).registerRefusal 8 (regAddr 5 0x24) 0x24 32 false = none ∧
    (landedInSkidway.elapse 0).windowPresent 5 = true ∧ (landedInSkidway.elapse 0).writePending 5 = false := by
  decide +kernel

/-- The read drops the listed write: a read of a block lands what travels to it, and takes it off the list (R580). -/
theorem landingAfter_read : landingAfter (exec (.skwErrAddrHiRead 0 8) landedInSkidway) = [] := by
  decide +kernel

/-- Refutes O30: its last clause says that reading SKW_ERR_ADDR_HI changes nothing but the capture, for every state without a pending
write to the Skidway's window. A read also drops the records of posted writes to its window whose travel is over (log entry 59), so it
fails on a state that still lists one. -/
theorem not_systemRegisterRows : ¬ Obligations.SystemRegisterRows := by
  intro h
  obtain ⟨-, -, -, -, -, -, -, -, -, -, -, hread⟩ := h 0 8 0 0 landedInSkidway _ _ rfl rfl rfl
  obtain ⟨hruns, hallowed, hhere, hquiet⟩ := landedInSkidway_readable
  obtain ⟨hkept, hnext⟩ := hread hruns hallowed hhere hquiet _ rfl
  have hlisted : landingAfter (exec (.skwErrAddrHiRead 0 8) landedInSkidway) = [(5, 0)] := by
    rw [hnext, hkept]
    decide +kernel
  rw [landingAfter_read] at hlisted
  exact List.cons_ne_nil _ _ hlisted.symm

end Sys2Proof.Machine
end

section
/-!
PROOFS. The events of the lease: the Lookout, the lease timer and the fence pin.
-/
namespace Sys2Proof.Machine
open Sys2Proof

section
variable {s : State} {dt : Nat}

/-- A request that is due is sent: a renewal by the holder, a claim by another role (R428). -/
theorem lookoutRequestSend_due {t : Nat} (hdue : (s.elapse dt).requestDue = some t) (ht : t ≤ (s.elapse dt).now)
    (hd : (s.elapse dt).domOn 1 = true) : exec (.lookoutRequestSend dt) s =
      .next ((s.elapse dt).lookoutSend (if (s.elapse dt).role = roleHolder then 2 else 1)).lateLeaseWaits := by
  refine congrArg Host.Outcome.next ?_
  rw [hdue]
  exact if_pos ⟨ht, hd⟩

/-- The first valid reply to a request answers it, and a grant or a denial is taken (R426, R429, R433). -/
theorem lookoutReplyReceive_first {b : List Byte} {r : LookoutReq} (hr : (s.elapse dt).requestOf (u64 b 16) = some r)
    (hv : (s.elapse dt).replyValid b = true) (ha : r.answered = false) (hd : (s.elapse dt).domOn 1 = true) :
    exec (.lookoutReplyReceive dt b) s = .next (if u8 b 3 = 0x81 then ((s.elapse dt).requestAnswered r).takeGrant r b
      else if u8 b 3 = 0x82 then ((s.elapse dt).requestAnswered r).takeDeny r else (s.elapse dt).requestAnswered r) := by
  refine congrArg Host.Outcome.next ?_
  rw [hr]
  exact if_neg (by rw [hv, ha, hd]; decide)

/-- A reply that is not valid, or to a request that is answered, changes nothing (R426, R433). -/
theorem lookoutReplyReceive_ignored {b : List Byte} {r : LookoutReq} (hr : (s.elapse dt).requestOf (u64 b 16) = some r)
    (h : (s.elapse dt).replyValid b = false ∨ r.answered = true) : exec (.lookoutReplyReceive dt b) s = .next (s.elapse dt) := by
  refine congrArg Host.Outcome.next ?_
  rw [hr]
  refine if_pos (h.elim (fun hv => Or.inl ?_) fun ha => Or.inr (Or.inl ha))
  rw [hv, Bool.not_false]

/-- A lease timer acts where it has reached its expiry (R429). -/
theorem leaseExpiry_timer {e : Nat} (he : (s.elapse dt).twn.expiry = some e) : exec (.leaseExpiry dt) s =
    .next (if e ≤ (s.elapse dt).ticks then (s.elapse dt).loseLease else s.elapse dt) := by
  refine congrArg Host.Outcome.next ?_
  rw [he]

end

/-- Settles O44: a due request, a reply, an expired timer and each level of the fence pin take the branch of their event. That the
fence pin raises TWIN_FENCE_PIN in every role is the model's choice (log entry 47). -/
theorem leaseEventsTakeEffect : Obligations.LeaseEventsTakeEffect := by
  intro dt s u hu
  subst hu
  refine ⟨?request, ?reply, ?ignored, ?expiry, ?fenceLow, rfl⟩
  case request => exact fun t hdue ht hd => lookoutRequestSend_due hdue ht hd
  case reply =>
    rintro b r v hr hv ha hd rfl
    refine ⟨fun hgrant => ?_, fun hdeny => ?_, fun hgrant hdeny => ?_⟩
    · rw [lookoutReplyReceive_first hr hv ha hd, if_pos hgrant]
    · rw [lookoutReplyReceive_first hr hv ha hd, if_neg (by omega), if_pos hdeny]
    · rw [lookoutReplyReceive_first hr hv ha hd, if_neg hgrant, if_neg hdeny]
  case ignored => exact fun b r hr h => lookoutReplyReceive_ignored hr h
  case expiry =>
    intro e he
    refine ⟨fun hreached => ?_, fun hrunning => ?_⟩
    · rw [leaseExpiry_timer he, if_pos hreached]
    · rw [leaseExpiry_timer he, if_neg hrunning.not_ge]
  case fenceLow =>
    rintro v rfl
    refine ⟨fun hrole => ?_, fun hstandby hholder => ?_⟩
    · exact congrArg Host.Outcome.next (if_pos hrole)
    · exact congrArg Host.Outcome.next (if_neg (not_or.2 ⟨hstandby, hholder⟩))

end Sys2Proof.Machine
end

section
/-!
PROOFS. The messages of the twin link.
-/
namespace Sys2Proof.Machine
open Sys2Proof

/-! ### What is sent -/

section
variable {s : State} {dt : Nat}

/-- A heartbeat goes out on each UP partner lane at an even superframe (R424). -/
theorem heartbeatSend_even (hon : (s.elapse dt).twinOn = true) (hd : (s.elapse dt).domOn 1 = true) (heven : (s.elapse dt).chrono / 125000 % 2 = 0) :
    exec (.heartbeatSend dt) s = .next (([(s.elapse dt).twn.lane0, (s.elapse dt).twn.lane1].filter (s.elapse dt).laneUp).foldl
      (fun t l => t.twinSendOn l 1 ((s.elapse dt).heartbeat ((s.elapse dt).twn.hbCount + 1)))
      { s.elapse dt with twn := { (s.elapse dt).twn with hbCount := (s.elapse dt).twn.hbCount + 1 } }) :=
  congrArg Host.Outcome.next (if_neg (by rw [hon, hd, heven]; decide))

/-- The holder's hashes of the frame that has ended go out (R442). -/
theorem outhashSend_holder {g : Nat} (hon : (s.elapse dt).twinOn = true) (hrole : (s.elapse dt).role = roleHolder) (hg : g < 16)
    (hgen : (s.elapse dt).genOn g = true) (hd : (s.elapse dt).domOn 1 = true) {frame : Nat}
    (hf : frame = frameAt ((s.elapse dt).genN g) ((s.elapse dt).genD g) (s.elapse dt).chrono - 1) {rs : List HashRec}
    (hrs : rs = ((s.elapse dt).twn.hashes.filter fun r => r.gen == g && r.frame == frame).foldl (fun l r => insertHash r l) []) :
    exec (.outhashSend dt g) s = .next ((outhashBodies g frame 10 0 rs).foldl (fun t b => t.twinSend 3 b)
      { s.elapse dt with twn := { (s.elapse dt).twn with
        hashes := (s.elapse dt).twn.hashes.filter fun r => !(r.gen == g && decide (r.frame ≤ frame)) } }) := by
  subst hrs hf
  refine congrArg Host.Outcome.next (if_neg ?_)
  simp only [hon, hrole, hgen, hd, hg.not_ge, Bool.not_true, Bool.false_eq_true, ne_eq, not_true_eq_false, or_self, not_false_eq_true]

/-- Health goes out with its second counters cleared (R443). -/
theorem healthSend_on (hon : (s.elapse dt).twinOn = true) (hd : (s.elapse dt).domOn 1 = true) : exec (.healthSend dt) s =
    .next ({ s.elapse dt with twn := { (s.elapse dt).twn with healthSent := (s.elapse dt).health, outDivSec := 0, rowDivSec := 0 } }.twinSend 4
      (s.elapse dt).health) :=
  congrArg Host.Outcome.next (if_neg (by rw [hon, hd]; decide))

/-- An interval's end watches the partner and the lanes, and starts a resynchronisation that is wanted (R425). -/
theorem heartbeatIntervalEnd_on (hon : (s.elapse dt).twinOn = true) (hd : (s.elapse dt).domOn 1 = true) {v : State}
    (hv : v = (s.elapse dt).partnerInterval.laneCheck) :
    exec (.heartbeatIntervalEnd dt) s = .next (((if v.twn.resyncWanted then v.startResync else v).noteRevert).lateLeaseWaits) := by
  subst hv
  exact congrArg Host.Outcome.next (if_neg (by rw [hon, hd]; decide))

/-! ### What is received -/

section
variable {bytes b : List Byte} {v : State}

/-- A heartbeat of the partner that is newer than the last gives the partner's view and generation, and what follows from them (R422, R425). -/
theorem heartbeatReceive_newer (ht : (s.elapse dt).twinTake 1 bytes = (v, some b)) (hlen : b.length = 40)
    (hcard : u16 b 0 = v.twn.pairId * 2 + (1 - v.rd Reg.TWN_CTL_SIDE_B)) (hnew : v.twn.hbAccepted < u32 b 4) {p : PartnerView}
    (hp : p = ⟨u16 b 0, u8 b 2, u8 b 3, u64 b 8, u64 b 24, u8 b 32, u8 b 33⟩) {x y : State}
    (hx : x = { v with twn := { v.twn with hbAccepted := u32 b 4, hbSeen := true, partner := p } }.wr Reg.TWN_PGEN_GEN (u32 b 20))
    (hy : y = ((((x.claimConflict).makeClaim).noteGap).tryConverge).noteRevert) :
    exec (.heartbeatReceive dt bytes) s = .next (if v.twn.partner.role = roleHolder ∧ p.role = roleStandby ∧ y.flag Reg.TWN_CTL_HOME ∧
      y.role = roleStandby ∧ !y.flag Reg.TWN_STAT_FENCE_PIN then y.lookoutSend 1 else y) := by
  subst hy hx hp
  refine congrArg Host.Outcome.next ?_
  rw [ht]
  exact if_neg (not_or.2 ⟨not_not.2 hlen, not_or.2 ⟨not_not.2 hcard, hnew.not_ge⟩⟩)

/-- A heartbeat that is not newer than the last changes nothing further (R425). -/
theorem heartbeatReceive_older (ht : (s.elapse dt).twinTake 1 bytes = (v, some b)) (hold : u32 b 4 ≤ v.twn.hbAccepted) :
    exec (.heartbeatReceive dt bytes) s = .next v := by
  refine congrArg Host.Outcome.next ?_
  rw [ht]
  exact if_pos (Or.inr (Or.inr hold))

/-- Received hashes are compared with the own ones of their frame (R442). -/
theorem outhashReceive_compares (ht : (s.elapse dt).twinTake 3 bytes = (v, some b)) (hc : v.compares = true) {g : Nat} (hg : g = u8 b 0)
    (hlt : g < 16) : exec (.outhashReceive dt bytes) s = .next ((List.range (min (u16 b 12) ((b.length - 16) / 12))).foldl
      (fun t i => t.compareHash g (u64 b 4) (u16 b (16 + 12 * i)) (u64 b (20 + 12 * i)))
      (v.pruneHashes g (frameAt (v.genN g) (v.genD g) v.chrono))) := by
  subst hg
  refine congrArg Host.Outcome.next ?_
  rw [ht]
  refine if_neg (not_or.2 ⟨?_, hlt.not_ge⟩)
  rw [hc]
  decide

/-- Received health is kept (R443). -/
theorem healthReceive_kept (ht : (s.elapse dt).twinTake 4 bytes = (v, some b)) :
    exec (.healthReceive dt bytes) s = .next { v with twn := { v.twn with healthSeen := b } } := by
  refine congrArg Host.Outcome.next ?_
  rw [ht]

/-- A mirrored request that is answered with an error is counted (R437). -/
theorem mirrorReplyReceive_sound {n : Nat} (hon : (s.elapse dt).twinOn = true) (hrole : (s.elapse dt).role = roleHolder)
    (hkey : (s.elapse dt).pairKeyOk = true) (hn : n = u16 bytes 18) (hlen : bytes.length = 40 + n) (hmagic : u16 bytes 0 = 0x4358)
    (hreply : bit (u8 bytes 3) 1 = true) (hsession : u16 bytes 16 = 0xFFFF) (hcrc : u32 bytes 20 = (crc32c (bytes.take 20)).toNat)
    (htag : bytes.drop (24 + n) = beBytes 16 (Config.cmac (s.elapse dt).twn.pairKey (bytes.take (24 + n))).toNat) :
    exec (.mirrorReplyReceive dt bytes) s = .next (if 2 ≤ u16 bytes 6
      then { s.elapse dt with twn := { (s.elapse dt).twn with mirrorErrors := (s.elapse dt).twn.mirrorErrors + 1 } } else s.elapse dt) := by
  subst hn
  change execMirrorReplyReceive dt bytes s = _
  simp only [execMirrorReplyReceive, hon, hrole, hkey, hlen, hmagic, hreply, hsession, hcrc, htag, beq_self_eq_true, Bool.and_self, Bool.true_and,
    decide_eq_true_eq]

end

end

/-- Settles O45: each message that goes out or is taken has the effect of its event. That one count numbers the heartbeats of both
lanes is the model's choice (log entry 47). -/
theorem heartbeatAndHashEventsTakeEffect : Obligations.HeartbeatAndHashEventsTakeEffect := by
  intro dt s u hu
  subst hu
  refine ⟨?heartbeat, ?interval, ?newer, ?older, ?outhash, ?compare, ?health, ?healthKept, ?mirrorReply⟩
  case heartbeat =>
    rintro n v hon hd heven rfl rfl
    exact heartbeatSend_even hon hd heven
  case interval => exact fun v hon hd hv => heartbeatIntervalEnd_on hon hd hv
  case newer =>
    rintro bytes v b p w x y ht hlen hcard hnew hp rfl hx hy
    exact heartbeatReceive_newer ht hlen hcard hnew hp hx hy
  case older => exact fun bytes v b ht hold => heartbeatReceive_older ht hold
  case outhash =>
    rintro g frame rs v hon hrole hg hgen hd hf hrs rfl
    exact outhashSend_holder hon hrole hg hgen hd hf hrs
  case compare =>
    rintro bytes v b g w ht hc hg hlt rfl
    exact outhashReceive_compares ht hc hg hlt
  case health =>
    rintro h v hon hd rfl rfl
    exact healthSend_on hon hd
  case healthKept => exact fun bytes v b ht => healthReceive_kept ht
  case mirrorReply =>
    exact fun bytes n hon hrole hkey hn hlen hmagic hreply hsession hcrc htag =>
      mirrorReplyReceive_sound hon hrole hkey hn hlen hmagic hreply hsession hcrc htag

end Sys2Proof.Machine
end

section
/-!
PROOFS. Reversion, resynchronisation and the tests of an idle card.
-/
namespace Sys2Proof.Machine
open Sys2Proof

section
variable {s : State} {dt : Nat}

/-! ### Reversion (R441) -/

/-- A hold-off that has expired asks the holder for the lease, and starts anew. -/
theorem revertHoldoffExpiry_expired {v : State} {t : Nat} (hv : v = (s.elapse dt).noteRevert) (hs : v.twn.revertSince = some t)
    (ht : t + v.twn.holdoffS * 1000000000 ≤ v.now) : exec (.revertHoldoffExpiry dt) s =
      .next ({ v with twn := { v.twn with revertSince := some v.now } }.twinSend 6 []) := by
  subst hv
  refine congrArg Host.Outcome.next ?_
  rw [hs]
  exact if_pos ht

/-- A revert releases the lease of a card that is not the home card. -/
theorem revertReceive_taken {bytes b : List Byte} {v : State} (ht : (s.elapse dt).twinTake 6 bytes = (v, some b)) :
    exec (.revertReceive dt bytes) s = .next (if !v.flag Reg.TWN_CTL_HOME then v.releaseLease else v) := by
  refine congrArg Host.Outcome.next ?_
  rw [ht]
  simp only [Option.isSome_some, true_and]

/-! ### Resynchronisation (R436, R445) -/

/-- A generation gap of 2 ms starts a resynchronisation. -/
theorem twinGenGap_old {v : State} {t : Nat} (hv : v = (s.elapse dt).noteGap) (hs : v.twn.gapSince = some t) (ht : t + 2000000 ≤ v.now)
    (hr : v.resyncing = false) (h6 : v.rd Reg.TWN_STAT_RESYNC ≠ 6) :
    exec (.twinGenGap dt) s = .next (v.raise 0x2C07 srcTwin 0).startResync := by
  subst hv
  refine congrArg Host.Outcome.next ?_
  rw [hs]
  refine if_pos ⟨ht, ?_, h6⟩
  rw [hr, Bool.not_false]

/-- A second without divergence ends a resynchronisation. -/
theorem resyncConvergeEnd_converged (h4 : (s.elapse dt).rd Reg.TWN_STAT_RESYNC = 4)
    (ht : (s.elapse dt).twn.convergeAt + 1000000000 ≤ (s.elapse dt).now) (hc : (s.elapse dt).enc.chans.any (s.elapse dt).diverged = false) :
    exec (.resyncConvergeEnd dt) s = .next (((s.elapse dt).wr Reg.TWN_STAT_RESYNC 5).endWait (.object 17 0) stOk) := by
  refine congrArg Host.Outcome.next (if_pos ⟨h4, ht, ?_⟩)
  rw [hc, Bool.not_false]

/-- A segment of a snapshot, as the card that takes it answers or applies it. -/
theorem snapshotReceive_taken {bytes b : List Byte} {v : State} (ht : (s.elapse dt).twinTake 5 bytes = (v, some b)) (seg : SnapPart) :
    exec (.snapshotReceive dt bytes seg) s = .next (match seg with
      | .request => if v.role = roleHolder
          then { v with sent := .snapshot v.snapshot :: v.sent, fresh := v.fresh + 1 }.twinSend 5 (Config.snapshotBody v.fresh) else v
      | .part => if v.rd Reg.TWN_STAT_RESYNC = 1 then v.wr Reg.TWN_STAT_RESYNC 2 else v
      | .last x => if v.rd Reg.TWN_STAT_RESYNC = 1 ∨ v.rd Reg.TWN_STAT_RESYNC = 2 then v.takeSnapshot x else v) := by
  refine congrArg Host.Outcome.next ?_
  rw [ht]
  cases seg <;> rfl

/-! ### The tests (R444) -/

section
variable {kind i : Nat}

/-- A test that is due on a testable block starts. -/
theorem bistTestStart_due (hrole : (s.elapse dt).role = roleStandby ∨ (s.elapse dt).role = roleFenced)
    (hen : (s.elapse dt).flag Reg.TWN_BIST_EN = true) (htest : (s.elapse dt).testable kind i = true) (hd : (s.elapse dt).domOn 1 = true)
    (hdue : ∀ t ∈ (s.elapse dt).twn.tested, t.1 = (kind, i) → t.2 + (s.elapse dt).rd Reg.TWN_BIST_PERIOD_S * 1000000000 ≤ (s.elapse dt).now) :
    exec (.bistTestStart dt kind i) s = .next { s.elapse dt with twn := { (s.elapse dt).twn with
      testing := ((kind, i), (s.elapse dt).now) :: (s.elapse dt).twn.testing
      tested := ((kind, i), (s.elapse dt).now) :: (s.elapse dt).twn.tested.filter fun t => t.1 != (kind, i) } } := by
  refine congrArg Host.Outcome.next (if_pos ⟨hrole, hen, htest, ?_, hd⟩)
  cases hlast : (s.elapse dt).twn.tested.find? fun t => t.1 == (kind, i) with
  | none => rfl
  | some t =>
    have hkey : (t.1 == (kind, i)) = true := List.find?_some (p := fun t : (Nat × Nat) × Nat => t.1 == (kind, i)) hlast
    exact decide_eq_true (hdue t (List.mem_of_find?_eq_some hlast) (beq_iff_eq.1 hkey))

/-- A test that ends, of a block that was given no work meanwhile, is counted; a failed one marks the block. -/
theorem bistTestDone_kept {pass : Bool} (h : ((s.elapse dt).twn.testing.any fun t => t.1 == (kind, i)) = true)
    (hlost : (s.elapse dt).testLost kind i = false) {v w : State} (hv : v = { s.elapse dt with twn := { (s.elapse dt).twn with
      testing := (s.elapse dt).twn.testing.filter fun t => t.1 != (kind, i) } })
    (hw : w = if kind = 2 then v.loseDram (blockKey i) (blockKey (i + 1)) else v) :
    exec (.bistTestDone dt kind i pass) s = .next (if pass then w.bump Reg.TWN_BIST_PASS_COUNT 1
      else ({ w with twn := { w.twn with failed := (kind, i) :: w.twn.failed } }.bump Reg.TWN_BIST_FAIL_COUNT 1).raise 0x2C0A srcTwin i) := by
  subst hw hv
  refine congrArg Host.Outcome.next ((if_neg ?_).trans (if_neg ?_))
  · rw [h]
    decide
  · exact Bool.eq_false_iff.1 hlost

end

end

/-- Settles O46: each step of a reversion, a resynchronisation and a test takes the branch of its event. That a REVERT starts the
hold-off anew and that a tested DRAM block loses its contents are log entries 47 and 49: choices of the model. -/
theorem revertAndResyncEventsTakeEffect : Obligations.RevertAndResyncEventsTakeEffect := by
  intro dt s u hu
  subst hu
  refine ⟨?holdoff, ?revert, ?gap, ?converge, ?fail, ?retry, ?snapshot, ?testStart, ?testDone⟩
  case holdoff => exact fun v t hv hs ht => revertHoldoffExpiry_expired hv hs ht
  case revert =>
    refine fun bytes v b ht => ⟨fun hhome => ?_, fun hhome => ?_⟩ <;> rw [revertReceive_taken ht, hhome] <;> rfl
  case gap => exact fun v t hv hs ht hr h6 => twinGenGap_old hv hs ht hr h6
  case converge => exact fun h4 ht hc => resyncConvergeEnd_converged h4 ht hc
  case fail => exact fun hr ht => congrArg Host.Outcome.next (if_pos ⟨hr, ht⟩)
  case retry => exact fun h6 hauto ht => congrArg Host.Outcome.next (if_pos ⟨h6, hauto, ht⟩)
  case snapshot =>
    refine fun bytes v b ht => ⟨?request, ?part, ?last⟩
    case request =>
      rintro w hrole rfl
      exact (snapshotReceive_taken ht _).trans (congrArg Host.Outcome.next (if_pos hrole))
    case part => exact fun h1 => (snapshotReceive_taken ht _).trans (congrArg Host.Outcome.next (if_pos h1))
    case last => exact fun x h => (snapshotReceive_taken ht _).trans (congrArg Host.Outcome.next (if_pos h))
  case testStart =>
    rintro kind i ts td hrole hen htest hd hdue rfl rfl
    exact bistTestStart_due hrole hen htest hd hdue
  case testDone =>
    rintro kind i pass v w x h hv hlost hw rfl
    exact bistTestDone_kept h hlost hv hw

end Sys2Proof.Machine
end

section
/-!
PROOFS. The events of the references.
-/
namespace Sys2Proof.Machine
open Sys2Proof

section
variable {s : State} {dt : Nat} (hh : (s.elapse dt).helioOn = true)
include hh

/-- A pulse of an input that no entry names is noted for the outputs that follow it (R392). -/
theorem refPulseArrival_unnamed {input : Nat} (h : Nat) (freq : Option Int) (hi : 2 ≤ input ∧ input ≤ 5 ∨ input = 7)
    (he : (s.elapse dt).entryOf input = none) : exec (.refPulseArrival dt input h freq) s = .next ((s.elapse dt).notePulse input) := by
  refine congrArg Host.Outcome.next ((if_neg (not_or.2 ⟨?_, not_not.2 hi⟩)).trans ?_)
  · rw [hh]
    decide
  · rw [he]

/-- A pulse of an input with an entry gives a sample of its folded offset (R392, R393). -/
theorem refPulseArrival_entry {input i n d : Nat} (h : Nat) (freq : Option Int) (hi : 2 ≤ input ∧ input ≤ 5 ∨ input = 7)
    (he : (s.elapse dt).entryOf input = some i) (hr : (s.elapse dt).entryRate i = (n, d)) :
    exec (.refPulseArrival dt input h freq) s = .next (((if input = 7 then s.elapse dt else (s.elapse dt).countLines i h).notePulse input).refSample i
      (foldPhase n d (phaseOn n d (s.elapse dt).chrono - (s.elapse dt).rdInt (Reg.REF_E_DLY_NS i))) freq) := by
  refine congrArg Host.Outcome.next ((if_neg (not_or.2 ⟨?_, not_not.2 hi⟩)).trans ?_)
  · rw [hh]
    decide
  · rw [he]
    dsimp only
    rw [hr]

/-- A period of the phase detector gives its phase as a sample of the entry that names CLK10M_IN (R392). -/
theorem clk10mPhaseDetector_entry {i : Nat} (phase : Int) (freq : Option Int) (he : (s.elapse dt).entryOf 6 = some i) :
    exec (.clk10mPhaseDetector dt phase freq) s = .next ((s.elapse dt).refSample i phase freq) := by
  refine congrArg Host.Outcome.next ((if_neg ?_).trans ?_)
  · rw [hh]
    decide
  · rw [he]

/-- Where no entry names CLK10M_IN its phase detector gives nothing. -/
theorem clk10mPhaseDetector_unnamed (phase : Int) (freq : Option Int) (he : (s.elapse dt).entryOf 6 = none) :
    exec (.clk10mPhaseDetector dt phase freq) s = .next (s.elapse dt) := by
  refine congrArg Host.Outcome.next ((if_neg ?_).trans ?_)
  · rw [hh]
    decide
  · rw [he]

/-- An input that has stayed valid for REF_QUAL.S seconds is qualified (R397). -/
theorem refQualified_due {i t : Nat} (hi : i < 8) (hs : ((s.elapse dt).refIn i).validSince = some t) (hq : ((s.elapse dt).refIn i).qualified = false)
    (hv : (s.elapse dt).refValid i = true) (ht : t + (s.elapse dt).rd Reg.REF_QUAL_S * 1000000000 ≤ (s.elapse dt).now) :
    exec (.refQualified dt i) s = .next ((((s.elapse dt).modRefIn i fun y => { y with qualified := true }).wr
      (Reg.REF_E_HIST_QUALIFIED i) 1).raise 0x2B03 srcRef i) := by
  refine congrArg Host.Outcome.next ?_
  rw [hs]
  refine if_neg (not_or.2 ⟨hi.not_ge, not_or.2 ⟨Bool.eq_false_iff.1 hq, not_or.2 ⟨?_, not_or.2 ⟨?_, ht.not_gt⟩⟩⟩⟩)
  · rw [hh]
    decide
  · rw [hv]
    decide

/-- An input that misses three expected events is lost (R397). -/
theorem refLoss_missed {i t : Nat} (hi : i < 8) (hl : ((s.elapse dt).refIn i).lastEvent = some t) (he : 2 ≤ (s.elapse dt).entryInput i)
    (ht : t + 3 * (s.elapse dt).eventPeriod i < (s.elapse dt).now) : exec (.refLoss dt i) s = .next ((s.elapse dt).refLost i) := by
  refine congrArg Host.Outcome.next ?_
  rw [hl]
  refine if_neg (not_or.2 ⟨hi.not_ge, not_or.2 ⟨Nat.not_le.2 he, not_or.2 ⟨?_, ht.not_ge⟩⟩⟩)
  rw [hh]
  decide

end

/-- A Heliostat that is powered and not isolated takes its events. -/
theorem helioOn_of {u : State} (hd : u.domOn 39 = true) (hs : u.shutIn 0x08 0 = false) : u.helioOn = true := by
  rw [State.helioOn, hd, hs]
  rfl

/-- Settles O43: with the Heliostat on, each event takes its branch. -/
theorem referenceEventsTakeEffect : Obligations.ReferenceEventsTakeEffect := by
  intro dt s u hu hd hs
  subst hu
  have hh := helioOn_of hd hs
  refine ⟨?pass, ?pulse, ?clk10m, ?qualified, ?loss⟩
  case pass => exact congrArg Host.Outcome.next (if_pos hh)
  case pulse => exact fun input h freq hi => ⟨fun he => refPulseArrival_unnamed hh h freq hi he, fun i n d he hr => refPulseArrival_entry hh h freq hi he hr⟩
  case clk10m => exact fun phase freq => ⟨fun i he => clk10mPhaseDetector_entry hh phase freq he, fun he => clk10mPhaseDetector_unnamed hh phase freq he⟩
  case qualified => exact fun i t hi hv hq hr ht => refQualified_due hh hi hv hq hr ht
  case loss => exact fun i t hi hl he ht => refLoss_missed hh hi hl he ht

end Sys2Proof.Machine
end

section
/-!
PROOFS. The Skidway's transactions, and the events of the memory and of the Vault.
-/
namespace Sys2Proof.Machine
open Sys2Proof

section
variable {s : State} {dt : Nat}

/-! ### The Skidway (R486, R500, R505) -/

/-- A transaction of a running master is decoded and served; with the Skidway off, a register access of a ranger core alone. -/
theorem skidwayTransaction_served {m id addr len : Nat} (data : Option (List Byte)) (fin : BurstEnd) (hm : (s.elapse dt).masterRuns m = true)
    (hid : id < 256) (hlen : len ≠ 0) (h : (s.elapse dt).domOn 3 = true ∨ isRanger m = true ∧ 0x10000000 ≤ addr ∧ addr < 0x11000000) :
    exec (.skidwayTransaction dt m id addr len data fin) s = .next ((s.elapse dt).skidway m id addr len data fin) := by
  refine congrArg Host.Outcome.next ((if_neg (not_or.2 ⟨?_, not_or.2 ⟨hid.not_ge, hlen⟩⟩)).trans (if_pos ?_))
  · rw [hm]
    decide
  · exact h.imp_right fun ⟨hr, haddr⟩ => ⟨hr, decide_eq_true haddr⟩

/-- With the Skidway off every other transaction is answered with an error. -/
theorem skidwayTransaction_off {m id addr len : Nat} (data : Option (List Byte)) (fin : BurstEnd) (hm : (s.elapse dt).masterRuns m = true)
    (hid : id < 256) (hlen : len ≠ 0) (hd : (s.elapse dt).domOn 3 = false) (hr : isRanger m = false) :
    exec (.skidwayTransaction dt m id addr len data fin) s =
      .next ((s.elapse dt).respond m false (if data.isSome then [] else zeros len)) := by
  refine congrArg Host.Outcome.next ((if_neg (not_or.2 ⟨?_, not_or.2 ⟨hid.not_ge, hlen⟩⟩)).trans (if_neg ?_))
  · rw [hm]
    decide
  · exact not_or.2 ⟨Bool.eq_false_iff.1 hd, fun h => Bool.eq_false_iff.1 hr h.1⟩

/-! ### DRAM (R494, R495, R510, R514) -/

/-- The channels of a powered group that do not serve yet train, the first of them giving the density (R494). -/
theorem dramTraining_powered {g : Nat} {dens : List (Nat × Nat)} {res : List (Nat × Nat × Nat × Nat × Nat)} {cs : List Nat} (hg : g < 4)
    (hd : (s.elapse dt).domOn (53 + g) = true) (hcs : cs = ((s.elapse dt).groupChannels g).filter fun c => !(s.elapse dt).isReady 0x12 c)
    (hne : cs ≠ []) {v : State} (hv : v = if (s.elapse dt).readyCount 0x12 = 0 then (s.elapse dt).wr Reg.MEM_STAT_DENSITY
        ((cs.filterMap fun c => (dens.find? fun d => d.1 == c).map fun (d : Nat × Nat) => d.2).head?.getD 0) else s.elapse dt) {w : State}
    (hw : w = (res.filter fun r => cs.contains r.1).foldl (fun t r => t.keepResult r) v) : exec (.dramTraining dt g dens res) s =
      .next ((cs.foldl (fun t c => t.trained c (passed res c && dens.contains (c, v.rd Reg.MEM_STAT_DENSITY))) w).groupStat.refreshSets.settle) := by
  subst hw hv hcs
  refine congrArg Host.Outcome.next (if_neg (not_or.2 ⟨hg.not_ge, not_or.2 ⟨?_, ?_⟩⟩))
  · rw [hd]
    decide
  · rwa [List.isEmpty_iff]

/-- A run of MEM_TRAIN ends with its results, its contents lost where it asked for that, and answers (R510). -/
theorem memTrainDone_run {res : List (Nat × Nat × Nat × Nat × Nat)} {tag session mask at_ flags : Nat} {cs : List Nat}
    (ht : (s.elapse dt).mem.training = some (tag, session, mask, at_, flags)) (hcs : cs = maskChannels mask) {v w x : State} {y : List Nat}
    (hv : v = (res.filter fun r => cs.contains r.1).foldl (fun t r => t.keepResult r)
      { s.elapse dt with mem := { (s.elapse dt).mem with training := none } })
    (hw : w = cs.foldl (fun t c => t.trained c (passed res c)) v)
    (hx : x = if bit flags 0 then cs.foldl (fun t c => t.loseDram (dramKey c 0) (dramKey c t.channelBytes)) w else w)
    (hy : y = x.boot.trained ++ (cs.filter (passed res)).filter fun c => !x.boot.trained.contains c) :
    exec (.memTrainDone dt res) s = .next (((if bit flags 1 then { x with boot := { x.boot with trained := y } } else x).groupStat.refreshSets).finish
      session tag (if cs.all (passed res) then 0 else stInternal) 0) := by
  subst hy hx hw hv hcs
  refine congrArg Host.Outcome.next ?_
  rw [ht]

section
variable {n : Nat}

/-- Tracking of a channel that serves counts a drift over 4/64 UI, and raises one over 8/64 (R495). -/
theorem dramTracking_ready (hr : (s.elapse dt).isReady 0x12 n = true) (drift : Int) : exec (.dramTracking dt n drift) s =
    .next (if drift.natAbs ≤ 4 then s.elapse dt
      else if 8 < drift.natAbs then ((s.elapse dt).bump (Reg.DMC_RETRAIN_COUNT n) 1).raise 0x2E02 (srcDram n) n
      else (s.elapse dt).bump (Reg.DMC_RETRAIN_COUNT n) 1) := by
  change execDramTracking dt n drift s = _
  simp only [execDramTracking, hr, Bool.not_true, Bool.false_eq_true, false_or]

/-- A refresh-rate answer of a channel that serves is stored, and raises or ends its event (R495). -/
theorem dramRefreshCheck_ready (hr : (s.elapse dt).isReady 0x12 n = true) (rate : Nat) {v : State}
    (hv : v = (s.elapse dt).wr (Reg.DMC_STAT_REFRATE n) (min rate 7)) : exec (.dramRefreshCheck dt n rate) s =
      .next (if rate = 0 then v.endCause 0x2E05 (srcDram n) n
        else if v.causePresent 0x2E05 (srcDram n) n then v else v.raise 0x2E05 (srcDram n) n) := by
  subst hv
  exact congrArg Host.Outcome.next (if_neg (by rw [hr]; decide))

/-- A pattern pass that runs ends with its errors and the lanes that failed (R514). -/
theorem dmcPatDone_running (errors lanes : Nat) (hd : (s.elapse dt).domOn (capDomain 0x12 n) = true) (hp : (s.elapse dt).present 0x12 n = true)
    (hen : (s.elapse dt).flag (Reg.DMC_PAT_CTL_EN n) = true) (hrun : (s.elapse dt).flag (Reg.DMC_PAT_CTL_DONE n) = false) :
    exec (.dmcPatDone dt n errors lanes) s = .next ((((s.elapse dt).wr (Reg.DMC_PAT_CTL_DONE n) 1).wr (Reg.DMC_CMP_ERR_COUNT n)
      (min errors 4294967295)).wr (Reg.DMC_CMP_LANE_MASK n) lanes) :=
  congrArg Host.Outcome.next (if_neg (by rw [hd, hp, hen, hrun]; decide))

end

/-! ### The Vault (R458, R459) -/

/-- The Vault that has not started, and that no earlier failure holds back, starts after its tests. -/
theorem vaultPowerUp_waiting (tests puf : Bool) (bad : List Nat) (hd : (s.elapse dt).domOn 57 = true) (hv : (s.elapse dt).vaultReady = false)
    (hself : (s.elapse dt).causePresent 0x2D07 srcVault 0 = false) (hpuf : (s.elapse dt).causePresent 0x2D04 srcVault 0 = false)
    (h0 : (s.elapse dt).lifeCycle ≠ 0) (h5 : (s.elapse dt).lifeCycle ≠ 5) : exec (.vaultPowerUp dt tests puf bad) s =
      .next (if !tests then (s.elapse dt).raise 0x2D07 srcVault 0
        else if (s.elapse dt).lifeCycle = 3 then
          (if puf then ((s.elapse dt).wr Reg.VLT_STAT_PUF_OK 1).vaultStart bad else (s.elapse dt).raise 0x2D04 srcVault 0)
        else (s.elapse dt).vaultStart bad) := by
  refine congrArg Host.Outcome.next (if_neg ?_)
  rw [hd, hv, hself, hpuf]
  simp only [Bool.not_true, Bool.false_eq_true, h0, h5, or_self, not_false_eq_true]

end

/-- Settles O49: each transaction and event takes its branch. That a part with the Skidway off serves the register accesses of the
ranger cores alone is log entry 57, and what a start of the Vault waits for is log entry 56: choices of the model. -/
theorem memoryAndVaultEventsTakeEffect : Obligations.MemoryAndVaultEventsTakeEffect := by
  intro dt s u hu
  subst hu
  refine ⟨?skidway, ?drain, ?training, ?memTrain, ?tracking, ?refresh, ?pattern, ?powerUp, ?serving, ?sweep⟩
  case skidway =>
    exact fun m id addr len data fin hm hid hlen =>
      ⟨skidwayTransaction_served data fin hm hid hlen, skidwayTransaction_off data fin hm hid hlen⟩
  case drain =>
    rintro m v hm rfl
    exact congrArg Host.Outcome.next (if_pos hm)
  case training => exact fun g dens res cs v w hg hd hcs hne hv hw => dramTraining_powered hg hd hcs hne hv hw
  case memTrain => exact fun res tag session mask at_ flags cs v w x y ht hcs hv hw hx hy => memTrainDone_run ht hcs hv hw hx hy
  case tracking =>
    rintro n drift v hr rfl
    refine ⟨fun hsmall => ?_, fun hover hmax => ?_, fun hlarge => ?_⟩
    · rw [dramTracking_ready hr, if_pos hsmall]
    · rw [dramTracking_ready hr, if_neg hover.not_ge, if_neg hmax.not_gt]
    · rw [dramTracking_ready hr, if_neg (by omega), if_pos hlarge]
  case refresh =>
    intro n rate v hr hv
    refine ⟨fun hzero => ?_, fun hrate => ?_⟩
    · rw [dramRefreshCheck_ready hr rate hv, if_pos hzero]
    · rw [dramRefreshCheck_ready hr rate hv, if_neg hrate]
  case pattern => exact fun n errors lanes hd hp hen hrun => dmcPatDone_running errors lanes hd hp hen hrun
  case powerUp =>
    intro tests puf bad hd hv hself hpuf h0 h5
    have hstart := vaultPowerUp_waiting tests puf bad hd hv hself hpuf h0 h5
    refine ⟨?_, ?_, ?_⟩
    · rintro rfl
      exact hstart
    · rintro rfl h3
      exact hstart.trans (congrArg Host.Outcome.next (if_neg h3))
    · rintro rfl h3
      exact hstart.trans (congrArg Host.Outcome.next (if_pos h3))
  case serving =>
    intro hv
    refine ⟨fun hits => ?_, fun hok => ?_, fun hbad => ?_⟩
    · exact congrArg Host.Outcome.next (if_pos hv)
    · exact congrArg Host.Outcome.next (if_pos ⟨hv, hok⟩)
    · exact congrArg Host.Outcome.next (if_pos ⟨hv, by rw [hbad]; decide, rfl⟩)
  case sweep =>
    rintro v w rfl rfl
    rfl

end Sys2Proof.Machine
end

section
/-!
PROOFS. The PTP messages: those that a port receives, and the requests that the part sends.
-/
namespace Sys2Proof.Machine
open Sys2Proof

/-! ### Messages received -/

section
variable {s v : State} {dt p o d : Nat} {bytes b : List Byte} (hin : (s.elapse dt).frameIn p bytes = (v, some b)) (hat : ptpAt b = some o)
  (hd : v.ptpHears p b o = some d)
include hin hat hd

/-- An Announce with a legal interval enters the domain's list, selects the master and ends a loss of messages (R372). -/
theorem ptpAnnounceReceive_legal (hty : ptpType b o = 11) (hlo : -3 ≤ ptpLog b o) (hhi : ptpLog b o ≤ 1) :
    exec (.ptpAnnounceReceive dt p bytes) s = .next (((v.modPtp d fun x => { x with
      announces := announceOf b o p v.now :: x.announces.filter fun y =>
        !(y.source == (announceOf b o p v.now).source && y.port == p) && decide (v.now < y.expires) }).selectMaster d).ptpBack d) := by
  refine congrArg Host.Outcome.next ?_
  rw [hin]
  dsimp only
  rw [hat]
  dsimp only
  rw [hd]
  exact if_neg (not_or.2 ⟨not_not.2 hty, not_or.2 ⟨hlo.not_gt, hhi.not_gt⟩⟩)

/-- A Sync of the master with a legal interval gives its offset in one step, and waits for its Follow_Up in two (R372, R373). -/
theorem ptpSyncReceive_legal (freq : Option Int) (hty : ptpType b o = 0) (hm : (v.ptp d).master = some (ptpSource b o)) (hlo : -7 ≤ ptpLog b o)
    (hhi : ptpLog b o ≤ 1) {corr : Int} (hc : corr = ptpCorrection b o + v.asymmetry p) {w : State}
    (hw : w = (v.modPtp d fun y => { y with syncLog := ptpLog b o, lastSync := some v.now }).ptpBack d) :
    exec (.ptpSyncReceive dt p bytes freq) s = .next (if ptpTwoStep b o
      then w.modPtp d fun y => { y with waiting := some (ptpSeq b o, v.ingress p, corr) }
      else w.syncDone d (v.ingress p) (ptpStamp b (o + 34)) corr freq) := by
  subst hw hc
  refine congrArg Host.Outcome.next ?_
  rw [hin]
  dsimp only
  rw [hat]
  dsimp only
  rw [hd]
  exact if_neg (not_or.2 ⟨not_not.2 hty, not_or.2 ⟨not_not.2 hm, not_or.2 ⟨hlo.not_gt, hhi.not_gt⟩⟩⟩)

/-- The Follow_Up that answers the waiting Sync completes it (R372). -/
theorem ptpFollowUpReceive_awaited (freq : Option Int) {t2 corr : Int} (hty : ptpType b o = 8) (hm : (v.ptp d).master = some (ptpSource b o))
    (hw : (v.ptp d).waiting = some (ptpSeq b o, t2, corr)) : exec (.ptpFollowUpReceive dt p bytes freq) s =
      .next (v.syncDone d t2 (ptpStamp b (o + 34)) (corr + ptpCorrection b o) freq) := by
  refine congrArg Host.Outcome.next ?_
  rw [hin]
  dsimp only
  rw [hat]
  dsimp only
  rw [hd]
  dsimp only
  rw [hw]
  exact if_neg (not_or.2 ⟨not_not.2 hty, not_or.2 ⟨not_not.2 hm, not_not.2 rfl⟩⟩)

/-- A delay response that is addressed to the part's port gives the delay (R373). -/
theorem ptpDelayRespReceive_own (hty : ptpType b o = 9 ∨ ptpType b o = 3 ∨ ptpType b o = 10)
    (hown : beNat (bytesAt b (o + 44) 10) = ownIdentity p) : exec (.ptpDelayRespReceive dt p bytes) s = .next (v.delayFor d p b o) := by
  have hmem : ([9, 3, 10] : List Nat).contains (ptpType b o) = true := by
    rcases hty with h | h | h <;> rw [h] <;> decide
  refine congrArg Host.Outcome.next ?_
  rw [hin]
  dsimp only
  rw [hat]
  dsimp only
  rw [if_neg (not_or.2 ⟨by rw [hmem]; decide, not_not.2 hown⟩), hd]

/-- A Pdelay_Req of a peer-to-peer domain is answered in one step with its turnaround (R372). -/
theorem ptpPdelayReqReceive_peer (hp2p : (v.ptp d).p2p = true) (hty : ptpType b o = 2) {turn : Int} (hturn : turn = v.egress p - v.ingress p)
    {msg : List Byte} (hmsg : msg = ptpMessage 3 (ptpDomainOf b o) 0 (ptpCorrection b o + turn) p (ptpSeq b o) (zeros 10 ++ bytesAt b (o + 20) 10)) :
    exec (.ptpPdelayReqReceive dt p bytes) s = .next (v.queueFrame p (firmwareFrame 7 (ptpFrame p ((headers b).tci % 4096) (headers b).v6
      (ptpGroup (headers b).v6 true) (groupMac (headers b).v6 (ptpGroup (headers b).v6 true)) (v.ptpAddress (v.ptp d)) true msg))) := by
  subst hmsg hturn
  have hdom : ((some d).filter fun d => (v.ptp d).p2p) = some d := Option.filter_some_pos hp2p
  refine congrArg Host.Outcome.next ?_
  rw [hin]
  dsimp only
  rw [hat]
  dsimp only
  rw [hd, hdom]
  exact if_neg (not_or.2 ⟨not_not.2 hty, fun h => Bool.false_ne_true h.1⟩)

end

/-! ### Requests sent -/

/-- What the part sends for a domain is numbered, and the answer to it is awaited. -/
def State.delayAsked (u : State) (t port : Nat) : State := u.modPtp t fun y => { y with
  delaySeq := (y.delaySeq + 1) % 65536, delayReq := some (y.delaySeq, u.egress port), pdelayResp := none, delayAt := some u.now }

section
variable {s : State} {dt : Nat} (p : Nat) (hd39 : (s.elapse dt).domOn 39 = true)
include hd39

section
variable {t : Nat} {x : PtpDomain} {a : Announce} (ht : t < 2) (hx : x = (s.elapse dt).ptp t) (ha : x.best = some a)
include ht hx ha

/-- A request of an enabled domain leaves on its master's port and is numbered: a Pdelay_Req to the peers, a Delay_Req to the group or, in
hybrid mode, to the master (R372). -/
theorem ptpDelayReqSend_domain (hen : x.enabled = true) (hlink : (s.elapse dt).linkUp a.port = true)
    (hdue : x.p2p = true ∨ x.delayEarly (s.elapse dt).now = false) : exec (.ptpDelayReqSend dt t p) s =
      .next (((s.elapse dt).delayAsked t a.port).queueFrame a.port (firmwareFrame 7 (ptpFrame a.port x.vlan x.ipv6
        (if x.hybrid && !x.p2p then a.ip else ptpGroup x.ipv6 x.p2p)
        (if x.hybrid && !x.p2p then a.mac else groupMac x.ipv6 (ptpGroup x.ipv6 x.p2p)) ((s.elapse dt).ptpAddress x) true
        (if x.p2p then ptpMessage 2 x.number 0 (-((s.elapse dt).asymmetry a.port)) a.port x.delaySeq (zeros 20)
          else ptpMessage 1 x.number (if x.hybrid && !x.p2p then 4 else 0) (-((s.elapse dt).asymmetry a.port)) a.port x.delaySeq (zeros 10))))) := by
  subst hx
  refine congrArg Host.Outcome.next ((if_neg (by rw [hd39]; decide)).trans ((if_neg (by omega)).trans ?_))
  dsimp only
  rw [ha]
  refine if_neg (not_or.2 ⟨by rw [hen]; decide, not_or.2 ⟨ht.not_ge, not_or.2 ⟨by rw [hlink]; decide, fun h => ?_⟩⟩⟩)
  rcases hdue with hp2p | hlate
  · rw [hp2p] at h
    exact Bool.false_ne_true h.1
  · exact Bool.false_ne_true (hlate.symm.trans h.2)

/-- A Delay_Req does not leave before the interval that the master gave has passed (R372). -/
theorem ptpDelayReqSend_early (hp2p : x.p2p = false) (hearly : x.delayEarly (s.elapse dt).now = true) :
    exec (.ptpDelayReqSend dt t p) s = .next (s.elapse dt) := by
  subst hx
  refine congrArg Host.Outcome.next ((if_neg (by rw [hd39]; decide)).trans ((if_neg (by omega)).trans ?_))
  dsimp only
  rw [ha]
  exact if_pos (Or.inr (Or.inr (Or.inr ⟨by rw [hp2p]; decide, hearly⟩)))

end

/-- A Pdelay_Req of the relay leaves on its own port and is numbered (R372, R381). -/
theorem ptpDelayReqSend_relay (hpeer : (s.elapse dt).relayPeer p = true) (hlink : (s.elapse dt).linkUp p = true) {x : RelayLink}
    (hx : x = (s.elapse dt).relayLink p) {v6 : Bool} (hv6 : v6 = (s.elapse dt).tim.relayIpv6) {msg : List Byte}
    (hmsg : msg = ptpMessage 2 (s.elapse dt).tim.relayDomain 0 (-((s.elapse dt).asymmetry p)) p x.seq (zeros 20)) :
    exec (.ptpDelayReqSend dt 2 p) s =
      .next (((s.elapse dt).putRelayLink { x with seq := (x.seq + 1) % 65536, req := some (x.seq, (s.elapse dt).egress p), resp := none }).queueFrame p
        (firmwareFrame 7 (ptpFrame p (s.elapse dt).tim.relayVlan v6 (ptpGroup v6 true) (groupMac v6 (ptpGroup v6 true))
          ((s.elapse dt).mgtAddress p) true msg))) := by
  subst hmsg hv6 hx
  exact congrArg Host.Outcome.next ((if_neg (by rw [hd39]; decide)).trans ((if_pos rfl).trans (if_neg (by rw [hpeer, hlink]; decide))))

end

/-- Settles O41: each message that a domain hears, and each request, takes the branch of its event. The layouts of the messages, the
one-step Pdelay_Resp and the signs of the asymmetry are log entry 45: choices of the model. -/
theorem ptpMessagesTakeEffect : Obligations.PtpMessagesTakeEffect := by
  intro dt s u v p bytes b o hu hin hat
  subst hu
  refine ⟨?announce, ?sync, ?followUp, ?delayResp, ?pdelayReq, ?request, ?relay⟩
  case announce =>
    rintro d w hd hty hlo hhi rfl
    exact ptpAnnounceReceive_legal hin hat hd hty hlo hhi
  case sync =>
    intro d freq corr w hd hty hm hlo hhi hc hw
    have hsync := ptpSyncReceive_legal hin hat hd freq hty hm hlo hhi hc hw
    exact ⟨fun hone => hsync.trans (congrArg Host.Outcome.next (if_neg (Bool.eq_false_iff.1 hone))),
      fun htwo => hsync.trans (congrArg Host.Outcome.next (if_pos htwo))⟩
  case followUp => exact fun d freq t2 corr hd hty hm hw => ptpFollowUpReceive_awaited hin hat hd freq hty hm hw
  case delayResp => exact fun d hd hty hown => ptpDelayRespReceive_own hin hat hd hty hown
  case pdelayReq => exact fun d turn msg hd hp2p hty hturn hmsg => ptpPdelayReqReceive_peer hin hat hd hp2p hty hturn hmsg
  case request =>
    intro t x a hd39 ht hx ha hen hlink
    have hsend := ptpDelayReqSend_domain p hd39 ht hx ha hen hlink
    refine ⟨?peer, ?group, ?hybrid, fun hp2p hearly => ptpDelayReqSend_early p hd39 ht hx ha hp2p hearly⟩
    case peer =>
      rintro hp2p msg g w rfl rfl rfl
      have hpeer := hsend (Or.inl hp2p)
      simp only [hp2p, Bool.not_true, Bool.and_false, Bool.false_eq_true, if_false, if_true] at hpeer
      exact hpeer
    case group =>
      rintro hp2p hlate hhyb msg g w rfl rfl rfl
      have hgroup := hsend (Or.inr hlate)
      simp only [hp2p, hhyb, Bool.false_and, Bool.false_eq_true, if_false] at hgroup
      exact hgroup
    case hybrid =>
      rintro hp2p hlate hhyb msg w rfl rfl
      have hhybrid := hsend (Or.inr hlate)
      simp only [hp2p, hhyb, Bool.not_false, Bool.and_true, Bool.false_eq_true, if_false, if_true] at hhybrid
      exact hhybrid
  case relay => exact fun x msg v6 hd39 hpeer hlink hx hv6 hmsg => ptpDelayReqSend_relay p hd39 hpeer hlink hx hv6 hmsg

end Sys2Proof.Machine
end

section
/-!
PROOFS. The events of the Chronograph, the transparent-clock relay and the pulse outputs.
-/
namespace Sys2Proof.Machine
open Sys2Proof

section
variable {s : State} {dt : Nat}

/-! ### The Chronograph -/

section
variable (hd39 : (s.elapse dt).domOn 39 = true)
include hd39

/-- The loss of Syncs, or of the master's Announce, marks an enabled domain lost, loses its input and selects its master anew (R372, R397). -/
theorem timPtpLoss_missing {d : Nat} {x : PtpDomain} (hlt : d < 2) (hx : x = (s.elapse dt).ptp d) (hen : x.enabled = true) (hl : x.lost = false)
    (hdead : x.syncMissing (s.elapse dt).now = true ∨ ∃ a, x.best = some a ∧ a.expires ≤ (s.elapse dt).now) {v : State}
    (hv : v = ((s.elapse dt).modPtp d fun y => { y with
      lost := true, announces := y.announces.filter fun a => decide ((s.elapse dt).now < a.expires) }).raise 0x2A05 srcTim d) :
    exec (.timPtpLoss dt d) s = .next ((match v.entryOf d with
      | some i => v.refLost i
      | none => v).selectMaster d) := by
  have hgone : (x.syncMissing (s.elapse dt).now || (x.best.map fun (a : Announce) => decide (a.expires ≤ (s.elapse dt).now)).getD false) = true := by
    rcases hdead with hsync | ⟨a, ha, hexp⟩
    · rw [hsync, Bool.true_or]
    · rw [ha, Option.map_some, Option.getD_some, decide_eq_true hexp, Bool.or_true]
  subst hx hv
  refine congrArg Host.Outcome.next (if_neg ?_)
  rw [hen, hd39, hl, hgone]
  exact not_or.2 ⟨hlt.not_ge, by decide⟩

/-- A new second of the Chronograph retires the bias, records the mean and splits the time (R374). -/
theorem timSecondTick_new {k : Nat} (hk : k = (s.elapse dt).chrono / 1000000000) (hnew : (s.elapse dt).tim.lastSecond < k) :
    exec (.timSecondTick dt) s =
      .next (((((s.elapse dt).modTim fun t => { t with lastSecond := k }).domainSplit).retireBias).recordMean k).timeSplit := by
  subst hk
  refine congrArg Host.Outcome.next (if_neg (not_or.2 ⟨?_, hnew.not_ge⟩))
  rw [hd39]
  decide

/-- The tick of a decided step sets the count, and answers the command that waits (R376). -/
theorem chronographStep_due {t : Nat} (ht : (s.elapse dt).tim.stepAt = some t) (hdue : t ≤ (s.elapse dt).chrono) {v w : State}
    (hv : v = (s.elapse dt).stepTo (toBits 64 (((s.elapse dt).tim.count : Int) - (s.elapse dt).filteredTheta)))
    (hw : w = (((v.modTim fun x => { x with stepAt := none, stepCmd := none, locked := true }).timState 2).modRef
      fun r => { r with takeover := true }).endFreeRuns) :
    exec (.chronographStep dt) s = .next (match (s.elapse dt).tim.stepCmd with
      | some c => w.finish c.1 c.2 0 0
      | none => w) := by
  subst hw hv
  refine congrArg Host.Outcome.next ?_
  rw [ht]
  refine if_neg (not_or.2 ⟨hdue.not_gt, ?_⟩)
  rw [hd39]
  decide

/-! ### The relay (R380, R381) -/

/-- A copy of a relayed message to port `q.1`, the `q.2`-th of its ports: dropped where it took over 1 ms, else forwarded. -/
def State.relayCopy (p : Nat) (b : List Byte) (o : Nat) (residence : List Nat) (u : State) (q : Nat × Nat) : State :=
  if 1000000 < residence.getD q.2 0 then u.relayDrop p
  else u.queueFrame q.1 (firmwareFrame (if ptpType b o < 4 then 7 else 5) (u.relayed p q.1 b o (residence.getD q.2 0)))

/-- A message of the relayed domain that a port of the relay takes. -/
theorem tcRelayForward_taken {p o : Nat} {bytes b : List Byte} (residence : List Nat) {v : State} {outs : List Nat}
    (hon : (s.elapse dt).tim.relayOn = true)
    (houts : outs = if p = (s.elapse dt).tim.relayUp then (s.elapse dt).tim.relayDown else [(s.elapse dt).tim.relayUp]) (hne : outs ≠ [])
    (hp : p = (s.elapse dt).tim.relayUp ∨ (s.elapse dt).tim.relayDown.contains p = true)
    (hin : (s.elapse dt).frameTaken p bytes = (v, some b)) (hat : ptpAt b = some o) (hdom : ptpDomainOf b o = (s.elapse dt).tim.relayDomain) :
    exec (.tcRelayForward dt p bytes residence) s = .next (if !csumOk b then v.relayDrop p
      else if (s.elapse dt).tim.relayP2p ∧ (ptpType b o = 2 ∨ ptpType b o = 3 ∨ ptpType b o = 10) then v
      else outs.zipIdx.foldl (State.relayCopy p b o residence) v) := by
  have hports : (if p = (s.elapse dt).tim.relayUp then (s.elapse dt).tim.relayDown
      else if (s.elapse dt).tim.relayDown.contains p then [(s.elapse dt).tim.relayUp] else []) = outs := by
    rw [houts]
    by_cases hup : p = (s.elapse dt).tim.relayUp
    · rw [if_pos hup, if_pos hup]
    · rw [if_neg hup, if_neg hup, if_pos (hp.resolve_left hup)]
  change execTcRelayForward dt p bytes residence s = _
  simp only [execTcRelayForward, hports]
  refine congrArg Host.Outcome.next ((if_neg (not_or.2 ⟨?_, not_or.2 ⟨?_, ?_⟩⟩)).trans ?_)
  · rw [hon]
    decide
  · rwa [List.isEmpty_iff]
  · rw [hd39]
    decide
  · rw [hin]
    dsimp only
    rw [hat]
    exact if_neg (not_not.2 hdom)

end

/-- A fold over a numbered list that does not use the numbers is the fold over the list. -/
theorem foldl_zipIdx_of_fst {α : Type} (f : State → α × Nat → State) (g : State → α → State) (l : List α) (h : ∀ u q, f u q = g u q.1) (v : State) :
    l.zipIdx.foldl f v = l.foldl g v := by
  have hfst : l.foldl g v = (l.zipIdx.map Prod.fst).foldl g v := by rw [List.zipIdx_map_fst]
  rw [hfst, List.foldl_map]
  exact congrArg (fun k => l.zipIdx.foldl k v) (funext fun u => funext fun q => h u q)

/-- A general message is forwarded to each port as it came. -/
theorem relayCopy_general {p o : Nat} {b : List Byte} {residence : List Nat} (hty : 4 ≤ ptpType b o) (hr : ∀ r ∈ residence, r ≤ 1000000)
    (u : State) (q : Nat × Nat) : State.relayCopy p b o residence u q = u.queueFrame q.1 (firmwareFrame 5 b) := by
  have hshort : residence.getD q.2 0 ≤ 1000000 := by
    rw [List.getD_eq_getElem?_getD]
    cases hq : residence[q.2]? with
    | none => exact Nat.zero_le _
    | some r => exact hr r (List.mem_of_getElem? hq)
  rw [State.relayCopy, if_neg hshort.not_gt, if_neg hty.not_gt, State.relayed, if_neg hty.not_gt]

/-- An event message that took at most 1 ms is forwarded with its correction. -/
theorem relayCopy_event {p o : Nat} {b : List Byte} {residence : List Nat} {q : Nat × Nat} (hty : ptpType b o < 4) (u : State) :
    State.relayCopy p b o residence u q = if 1000000 < residence.getD q.2 0 then u.relayDrop p
      else u.queueFrame q.1 (firmwareFrame 7 (u.relayed p q.1 b o (residence.getD q.2 0))) := by
  rw [State.relayCopy, if_pos hty]

/-- The correction of a relayed event message gains the residence, the link delay and the asymmetry (R380). -/
theorem relayed_event {u : State} {p q o r : Nat} {b : List Byte} (hty : ptpType b o < 4) {link asym corr : Int}
    (hlink : link = if u.tim.relayP2p = true ∧ ptpType b o = 0 then meanInt (u.relayLink p).delays else 0)
    (hasym : asym = if ptpType b o = 0 ∨ ptpType b o = 3 then u.asymmetry p else -(u.asymmetry q))
    (hcorr : corr = sext 64 (u64 b (o + 8)) + ((r : Int) + link + asym) * 65536) :
    u.relayed p q b o r = putL4Csum (putAt b (o + 8) (be64 (toBits 64 corr))) := by
  subst hcorr hasym hlink
  exact if_pos hty

/-! ### Pulse outputs -/

/-- The end of a pulse that is due on a frame-pulse output, unless the next falls within it (R409, R418). -/
def State.fpEnded (u : State) (p : Nat) : State :=
  match (u.fpOut p).endsAt with
  | none => u
  | some e =>
    if u.chrono < e then u
    else if (u.fpOut p).next ≠ 0 ∧ (u.fpOut p).next ≤ e then u.modFp p fun y => { y with endsAt := none }
    else (u.modFp p fun y => { y with endsAt := none }).fpLevel p false

/-- What is due on a frame-pulse output: the end of its pulse, then the next pulse (R409, R410). -/
theorem framePulseEdge_on {p : Nat} (hp : p < 4) (hh : (s.elapse dt).helioOn = true) {v : State} (hv : v = (s.elapse dt).fpEnded p) {next : Nat}
    (hn : next = ((s.elapse dt).fpOut p).next) : exec (.framePulseEdge dt p) s =
      .next (if next = 0 ∨ v.chrono < next ∨ !v.flag (Reg.REF_FP_CTL_EN p) then v
        else (fun y : State => (y.modFp p fun z => { z with next := y.fpNext p next }).fpStat p)
          ((v.modFp p fun z => { z with phase := v.fpPhase p, last := some next, endsAt := some (next + v.rd (Reg.REF_FP_WIDTH_NS p)) }).fpLevel p true)) := by
  subst hn hv
  refine congrArg Host.Outcome.next (if_neg (not_or.2 ⟨hp.not_ge, ?_⟩))
  rw [hh]
  decide

end

section
variable {u : State} {p : Nat}

/-- A pulse whose end has come ends. -/
theorem fpEnded_due {e : Nat} (he : (u.fpOut p).endsAt = some e) (hdue : e ≤ u.chrono) : u.fpEnded p =
    if (u.fpOut p).next ≠ 0 ∧ (u.fpOut p).next ≤ e then u.modFp p fun y => { y with endsAt := none }
    else (u.modFp p fun y => { y with endsAt := none }).fpLevel p false := by
  unfold State.fpEnded
  rw [he]
  exact if_neg hdue.not_gt

/-- A pulse whose end has not come goes on. -/
theorem fpEnded_later (h : (u.fpOut p).endsAt = none ∨ ∃ e, (u.fpOut p).endsAt = some e ∧ u.chrono < e) : u.fpEnded p = u := by
  unfold State.fpEnded
  rcases h with he | ⟨e, he, hlt⟩
  · rw [he]
  · rw [he]
    exact if_pos hlt

/-- A pulse's end has come, or it has not. -/
theorem fpEnded_of {v w : State} (hw : w = u.modFp p fun y => { y with endsAt := none })
    (hdue : ∀ e, (u.fpOut p).endsAt = some e → e ≤ u.chrono → v = if (u.fpOut p).next ≠ 0 ∧ (u.fpOut p).next ≤ e then w else w.fpLevel p false)
    (hlater : ((u.fpOut p).endsAt = none ∨ ∃ e, (u.fpOut p).endsAt = some e ∧ u.chrono < e) → v = u) : v = u.fpEnded p := by
  subst hw
  cases he : (u.fpOut p).endsAt with
  | none => rw [fpEnded_later (Or.inl he), hlater (Or.inl he)]
  | some e =>
    by_cases hlt : u.chrono < e
    · have hgoes : (u.fpOut p).endsAt = none ∨ ∃ e, (u.fpOut p).endsAt = some e ∧ u.chrono < e := Or.inr ⟨e, he, hlt⟩
      rw [fpEnded_later hgoes, hlater hgoes]
    · rw [fpEnded_due he (Nat.not_lt.1 hlt)]
      exact hdue e he (Nat.not_lt.1 hlt)

end

/-- Settles O42: each event takes its branch; a relayed message goes to each port of the relay. The correction that the relay adds is
log entry 45, and that isolated clocks give no event is log entry 102: choices of the model. -/
theorem timeEventsTakeEffect : Obligations.TimeEventsTakeEffect := by
  intro dt s u hu hd39
  subst hu
  refine ⟨?loss, ?second, ?step, ?relay, ?timePulse, ?framePulse⟩
  case loss =>
    rintro d x v w hlt hx hen hl hdead hv rfl
    exact timPtpLoss_missing hd39 hlt hx hen hl hdead hv
  case second => exact fun k hk hnew => timSecondTick_new hd39 hk hnew
  case step =>
    rintro t cmd v w ht hdue rfl hv hw
    exact chronographStep_due hd39 ht hdue hv hw
  case relay =>
    intro p bytes residence v b o outs hon houts hne hp hin hat hdom
    have htaken := tcRelayForward_taken hd39 residence hon houts hne hp hin hat hdom
    refine ⟨fun hbad => ?badSum, fun hgood hp2p hty => ?peer, fun hgood hpass => ?_⟩
    case badSum =>
      rw [htaken, hbad]
      rfl
    case peer =>
      rw [htaken, hgood, if_neg (by decide), if_pos ⟨hp2p, hty⟩]
    have hforward : exec (.tcRelayForward dt p bytes residence) s = .next (outs.zipIdx.foldl (State.relayCopy p b o residence) v) := by
      rw [htaken, hgood, if_neg (by decide), if_neg]
      rintro ⟨hp2p, hty⟩
      have := hpass hp2p
      omega
    refine ⟨fun hty hr => ?general, fun hty q r houtq hr => ⟨fun hlate => ?late, ?single⟩, fun hty => ?event⟩
    case general =>
      rw [hforward, foldl_zipIdx_of_fst _ (fun u q => u.queueFrame q (firmwareFrame 5 b)) outs (relayCopy_general hty hr)]
    case late =>
      subst hr houtq
      rw [hforward]
      exact congrArg Host.Outcome.next ((relayCopy_event hty v).trans (if_pos hlate))
    case single =>
      subst hr houtq
      intro hsoon link asym corr hlink hasym hcorr
      rw [hforward, ← relayed_event hty hlink hasym hcorr]
      exact congrArg Host.Outcome.next ((relayCopy_event hty v).trans (if_neg hsoon.not_gt))
    case event =>
      rw [hforward]
      exact congrArg (fun f => Host.Outcome.next (outs.zipIdx.foldl f v)) (funext fun t => funext fun q => relayCopy_event hty t)
  case timePulse => exact fun p hp hc => congrArg Host.Outcome.next (if_neg (not_or.2 ⟨hp.not_ge, by rw [hc]; decide⟩))
  case framePulse =>
    rintro p x v w y hp hh rfl hw hdue hlater
    have hv := fpEnded_of hw hdue hlater
    have hedge := framePulseEdge_on hp hh hv rfl
    refine ⟨fun hrest => ?rest, fun hen hn hle hy => ?pulse⟩
    case rest =>
      rw [hedge, if_pos (hrest.imp_right (Or.imp_right fun hoff => by rw [hoff]; decide))]
    case pulse =>
      subst hy
      rw [hedge, if_neg (not_or.2 ⟨hn, not_or.2 ⟨hle.not_gt, by rw [hen]; decide⟩⟩)]

end Sys2Proof.Machine
end

section
/-!
PROOFS. The events of the encoders and decoders.
-/
namespace Sys2Proof.Machine
open Sys2Proof

section
variable {s : State} {dt : Nat}

/-! ### Channels -/

section
variable {h : Nat} {x : EncChan} (hx : (s.elapse dt).encChan h = some x)
include hx

section
variable (hruns : (s.elapse dt).encRuns = true)
include hruns

section
variable (hc : x.codec < 2)
include hc

/-- A refresh period of a channel starts at its first picture (R360). -/
theorem encRefreshPeriodStart_due (hs : x.atStop = false) (hg : (s.elapse dt).genOn x.gen = true) (hrow : x.row = 0)
    (hpic : x.pic % max 1 x.n = 0) (hp : x.period ≠ some (x.pic / max 1 x.n)) (ht : x.m0 ≤ (s.elapse dt).chrono) :
    exec (.encRefreshPeriodStart dt h) s = .next ((s.elapse dt).startPeriod x) := by
  refine congrArg Host.Outcome.next ?_
  rw [hx]
  exact if_pos ⟨hruns, hc, by rw [hs]; decide, hrow, hpic, hp, ht, hg⟩

/-- A row starts when its data is due (R342, R345). -/
theorem encRowDue_due (hs : x.atStop = false) (hg : (s.elapse dt).genOn x.gen = true) (hp : x.period = some (x.pic / max 1 x.n))
    (ht : x.m0 + (s.elapse dt).rowTime x (x.row + 1) ≤ (s.elapse dt).chrono) : exec (.encRowDue dt h) s = .next ((s.elapse dt).startRow x) := by
  refine congrArg Host.Outcome.next ?_
  rw [hx]
  exact if_pos ⟨hruns, hc, by rw [hs]; decide, hp, ht, hg⟩

section
variable {y : EncRow} (hy : x.rowNext = some y)
include hy

/-- The next row in order is coded whole (R336, R347). -/
theorem encRowCoded_next : exec (.encRowCoded dt h y.row) s = .next ((s.elapse dt).codeRow x y none) := by
  refine congrArg Host.Outcome.next ?_
  rw [hx]
  dsimp only
  rw [hy]
  exact if_pos ⟨rfl, hruns, hc⟩

/-- The next row in order is coded at its cutoff with what is coded so far (R359). -/
theorem encDeadline_due (coded : Nat) (ht : y.m0 + (s.elapse dt).rowTime x (y.row + 5) + 8000 ≤ (s.elapse dt).chrono) :
    exec (.encDeadline dt h y.row coded) s = .next ((s.elapse dt).codeRow x y (some coded)) := by
  refine congrArg Host.Outcome.next ?_
  rw [hx]
  dsimp only
  rw [hy]
  exact if_pos ⟨rfl, hruns, hc, ht⟩

end

end

/-- A slice of a JPEG XS channel that is due is emitted (R352, R353). -/
theorem xsSliceEmit_due (hc : 2 ≤ x.codec) (hs : x.atStop = false) (hg : (s.elapse dt).genOn x.gen = true)
    (ht : x.m0 + (s.elapse dt).lineTime x x.sliceEnd ≤ (s.elapse dt).chrono) : exec (.xsSliceEmit dt h) s = .next ((s.elapse dt).emitSlice x) := by
  refine congrArg Host.Outcome.next ?_
  rw [hx]
  exact if_pos ⟨hruns, hc, by rw [hs]; decide, hg, ht⟩

end

/-- The next packet of a channel launches at its time, and the pictures that are out with it count (R343, R356). -/
theorem encPacketLaunch_due {k : EncPacket} (hk : x.nextPacket = some k) (ht : k.launch ≤ (s.elapse dt).chrono) : exec (.encPacketLaunch dt h) s =
    .next (((((s.elapse dt).launchPacket x k).packetGone x k).picturesGone h).endChannel h) := by
  refine congrArg Host.Outcome.next ?_
  rw [hx]
  dsimp only
  rw [hk]
  exact if_pos ht

end

/-! ### Decoders and row hashes -/

/-- The next slice of a decoder waits for its deadline, and is judged at it (R354). -/
theorem xsSliceLost_place {d fr i : Nat} {x : XsDecoder} {f : Flow} (hx : (s.elapse dt).decoder (0x50000 + d) = some x)
    (hf : ((s.elapse dt).net.flows.find? fun f => !f.tx && f.handle == x.flow) = some f) (hp : x.place f = some (fr, i)) :
    exec (.xsSliceLost dt d) s = .next (if (s.elapse dt).chrono + f.sliceTime < f.sliceRelease fr i then s.elapse dt
      else (s.elapse dt).sliceJudged x f fr i) := by
  refine congrArg Host.Outcome.next ?_
  rw [hx]
  dsimp only
  rw [hf]
  dsimp only
  rw [hp]

/-- An unsound message of row hashes changes nothing further (R422). -/
theorem rowsReceive_unsound {bytes : List Byte} {v : State} (ht : (s.elapse dt).twinTake 2 bytes = (v, none)) :
    exec (.rowsReceive dt bytes) s = .next v := by
  refine congrArg Host.Outcome.next ?_
  rw [ht]

/-- The row hashes of a sound message are taken one by one (R356). -/
theorem rowsReceive_sound {bytes b : List Byte} {v : State} (ht : (s.elapse dt).twinTake 2 bytes = (v, some b)) :
    exec (.rowsReceive dt bytes) s = .next ((rowMessages v.chrono 64 b).foldl (fun t m => t.takeRow m) v) := by
  refine congrArg Host.Outcome.next ?_
  rw [ht]

end

/-- Settles O40: each event takes its branch. -/
theorem encoderEventsTakeEffect : Obligations.EncoderEventsTakeEffect := by
  intro dt s u hu
  subst hu
  refine ⟨?pictures, ?rows, ?packets, ?slices, ?decoders, ?hashes⟩
  case pictures =>
    exact fun h x hx hruns hc hs hg =>
      ⟨fun hrow hpic hp ht => encRefreshPeriodStart_due hx hruns hc hs hg hrow hpic hp ht, fun hp ht => encRowDue_due hx hruns hc hs hg hp ht⟩
  case rows => exact fun h x y hx hruns hc hy => ⟨encRowCoded_next hx hruns hc hy, fun coded ht => encDeadline_due hx hruns hc hy coded ht⟩
  case packets => exact fun h x k hx hk ht => encPacketLaunch_due hx hk ht
  case slices => exact fun h x hx hruns hc hs hg ht => xsSliceEmit_due hx hruns hc hs hg ht
  case decoders =>
    intro d x f fr i hx hf hp
    refine ⟨fun hearly => ?waits, fun hdue b nx ds lacks hb hnx hlacks hds v w y z hv hw hy hz => ?judged⟩
    case waits => rw [xsSliceLost_place hx hf hp, if_pos hearly]
    case judged =>
      subst hz hy hw hv hds hlacks hnx hb
      rw [xsSliceLost_place hx hf hp, if_neg hdue.not_gt]
      rfl
  case hashes => exact fun bytes v => ⟨fun ht => rowsReceive_unsound ht, fun b ht => rowsReceive_sound ht⟩

end Sys2Proof.Machine
end
